-- ==== Sys2Proof/Word.lean ====
section
/-! DEFINITION. The words of the module: bytes, 32-bit register words, and the sparse tables and packets that
the state and the commands are written with. -/

namespace Sys2Proof

abbrev Byte := BitVec 8
abbrev Word := BitVec 32

/-- A sparse table: keys strictly rising, and no entry equal to what an unlisted key reads as. -/
abbrev SMap (α : Type) := List (Nat × α)

/-- The entry of key `k`; an unlisted key reads as `d k`. -/
def SMap.get {α : Type} (d : Nat → α) : SMap α → Nat → α
  | [], k => d k
  | (j, v) :: m, k => if j = k then v else SMap.get d m k

/-- The entry of key `k`, when the table lists one. -/
def SMap.find? {α : Type} : SMap α → Nat → Option α
  | [], _ => none
  | (j, v) :: m, k => if j = k then some v else SMap.find? m k

/-- `m` without key `k`. -/
def SMap.erase {α : Type} : SMap α → Nat → SMap α
  | [], _ => []
  | (j, v) :: m, k => if j = k then SMap.erase m k else (j, v) :: SMap.erase m k

/-- `m` with `k ↦ v` put at its place in the rising order. -/
def SMap.insert {α : Type} : SMap α → Nat → α → SMap α
  | [], k, v => [(k, v)]
  | (j, w) :: m, k, v =>
    if k < j then (k, v) :: (j, w) :: m
    else if k = j then (k, v) :: m
    else (j, w) :: SMap.insert m k v

/-- Write `v` at `k`; writing what an unlisted key reads as removes the entry, so equal tables are equal lists. -/
def SMap.set {α : Type} [DecidableEq α] (d : Nat → α) (m : SMap α) (k : Nat) (v : α) : SMap α :=
  if v = d k then SMap.erase m k else SMap.insert m k v

/-- The canonical form: keys strictly rising, no entry equal to its default. -/
def SMap.wf {α : Type} [DecidableEq α] (d : Nat → α) : SMap α → Bool
  | [] => true
  | (k, v) :: m => (v != d k) && m.all (fun e => decide (k < e.1)) && SMap.wf d m

/-- An exact value (R53, R77): a dyadic rational `(-1)^neg · m · 2^e`, an infinity or a NaN. -/
inductive Val where
  | fin (neg : Bool) (m : Nat) (e : Int)
  | inf (neg : Bool)
  | nan (neg : Bool)
  deriving DecidableEq, Repr

/-- An Izyen packet (R302): the header's fields, and the data bytes. -/
structure Packet where
  type : Nat
  hops : Nat
  dest : Nat
  src : Nat
  job : Nat
  lease : Nat
  layoutGen : Nat
  stream : Nat
  target : Nat
  seq : Nat
  addr : Nat
  len16 : Nat
  sub : Nat
  checksum : Nat
  data : List (BitVec 8)
  deriving DecidableEq, Repr

/-- A flit as it comes over the line (R298): its fields, its payload and the CRC that it carries. -/
structure Flit where
  kind : Nat
  vc : Nat
  fseq : Nat
  ack : Nat
  nak : Bool
  credits : List Nat
  linkKind : Nat
  linkData : Nat
  payload : List (BitVec 8)
  crc : Nat
  deriving DecidableEq, Repr

/-- One sensor reading of a monitor conversion (R419, R421): the raw conversion code and the value it stands for. -/
structure Reading where
  raw : Nat
  value : Int
  deriving DecidableEq, Repr

end Sys2Proof
end

