-- ==== Sys2Proof/Syntax.lean ====
section
/-! DEFINITION. The commands of the block: one constructor for each row of the table of operations and events, with the
operands the step needs. `u` names a unit path, `ch` a Chase path, `d` a die, `p` an Izyen port, `fn` an accessor (0 the physical
function, 1 to 31 virtual functions, 32 Muzomus), `ep` the management endpoint that asks. -/

namespace Sys2Proof

/-- What the end of training has measured: the delay to the peer in quarter ticks, and the tags of the last codewords (R297, R313). -/
structure TrainEnd where
  delay : Nat
  tags : List Nat
  deriving DecidableEq, Repr

/-- A configuration request: its offset, whether it writes, and what (R477). -/
structure CfgAccess where
  off : Nat
  wr : Bool
  v : Word
  deriving DecidableEq, Repr

/-- A voltage domain below its target: by how many mV, for how many array cycles (R424). -/
structure Droop where
  dom : Nat
  mv : Nat
  cycles : Nat
  deriving DecidableEq, Repr

/-- The energy that jobs have used in a share window, each by its id, so far or, with `ended`, in the whole of it (R452). -/
structure ShareUses where
  uses : List (Nat × Nat)
  ended : Bool
  deriving DecidableEq, Repr

/-- A scan of the test port of die `die`: the data that the inputs of die 0 and of die 1 bring (R498). -/
structure TapScan where
  die : Nat
  in0 : Nat
  in1 : Nat
  deriving DecidableEq, Repr

/-- The commands: in the order of the table those of the host, the links, the engines and the cores, which a meaning may hold
back for a time, and then those of sensors, power, resets, pins, management and boundary scan, which none holds back. -/
inductive Instr where
  /-- TOKEN_ARRIVAL (R135): A token reaches a unit's token port and is entered in the token table, which may satisfy a waiting TWAIT, WAIT or held command. -/
  | tokenArrival (u stream seq : Nat) (st : Bool)
  /-- CREDIT_ARRIVAL (R141): Credits reach a unit's credit port and are added to the named counter, saturating at 65,535 and counting the excess. -/
  | creditArrival (u ctr count : Nat)
  /-- SHARE_COMPLETE (R29): A member reports a share's completion to its dispatcher; the dispatcher merges tokens and, after the last share, writes the single parent record. -/
  | shareComplete (member stream seq : Nat)
  /-- BRIDGE_REPLAY (R41): A die-to-die bridge flit fails its CRC and is replayed. -/
  | bridgeReplay (d : Nat)
  /-- BRIDGE_DOWN (R41): Replay fails 16 times in succession, the bridge goes down and commands in flight across it complete with ABORTED_FAULT. -/
  | bridgeDown
  /-- COMPLETION_RELEASE (R171): A command that finished early writes its held completion record and sends its token once earlier commands of its stream at the unit have left. -/
  | completionRelease (u : Nat)
  /-- NOP (R159): Engine command that completes OK without touching memory, carrying a token in sequence. -/
  | nop (u : Nat)
  /-- MUL (R76): Array multiply command: issue checks, dispatch, passes over stationary blocks, W38 accumulation and output conversion. -/
  | mul (u : Nat)
  /-- MUL_B1 (R109): Binary-mode multiply by XNOR and popcount into 32-bit integer accumulators. -/
  | mulB1 (u : Nat)
  /-- MUL_LUT (R117): Table-mode multiply by lookups in partial-sum tables built per Galley. -/
  | mulLut (u : Nat)
  /-- MUL_BSR (R119): Bit-serial multiply of I8 activations by bit planes, skipping zero planes. -/
  | mulBsr (u : Nat)
  /-- VEC_MAP1 (R172): Vector command applying a one-operand function elementwise. -/
  | vecMap1 (u : Nat)
  /-- VEC_MAP2 (R172): Vector command applying a two-operand function elementwise. -/
  | vecMap2 (u : Nat)
  /-- VEC_FMA (R172): Vector fused multiply-add C = A × B + C per element. -/
  | vecFma (u : Nat)
  /-- VEC_REDUCE (R173): Vector reduction along the reduction axis in ascending order. -/
  | vecReduce (u : Nat)
  /-- VEC_SOFTMAX (R173): Vector softmax along the reduction axis in fixed steps. -/
  | vecSoftmax (u : Nat)
  /-- VEC_MASK (R175): Vector attention mask writing masked elements as −infinity by position. -/
  | vecMask (u : Nat)
  /-- VEC_TOPK (R344): Selects the k largest gradient entries per block, updating the Heel. -/
  | vecTopk (u : Nat)
  /-- MOV (R534): Mover command that copies or converts Tiles. -/
  | mov (u : Nat)
  /-- FILL (R534): Mover command that writes a converted F32 value into every non-padding element. -/
  | fill (u : Nat)
  /-- TIER_HINT (R255): Requests promotion, eviction, pin, unpin or discard of the Tiles of a range. -/
  | tierHint (u : Nat)
  /-- COL_ACCUM (R331): Sends one ACCUM packet per Tile of a contribution to a reduction context. -/
  | colAccum (u : Nat)
  /-- COL_GATHER (R325): Reads a source tensor at another module into a local destination by READ_REQ packets. -/
  | colGather (u : Nat)
  /-- COL_SCATTER (R325): Writes a local tensor into a destination at another module by WRITE packets. -/
  | colScatter (u : Nat)
  /-- COL_ALLGATHER (R325): Writes a local shard into the whole tensor at every peer-set member and locally. -/
  | colAllgather (u : Nat)
  /-- COL_REDSCAT (R340): Takes the summed result of a reduction context into a local output. -/
  | colRedscat (u : Nat)
  /-- COL_BCAST (R325): Writes a local tensor to every member of a peer set. -/
  | colBcast (u : Nat)
  /-- COL_PERMUTE (R345): Sends the Tiles of a move list to new places with a new layout generation behind the generation fence. -/
  | colPermute (u : Nat)
  /-- ARRAY_ISSUE (R90): An array command held at the head of the issue stage issues once its tokens, credits, configuration and banks are present. -/
  | arrayIssue (ch : Nat)
  /-- LIGATURE_FENCE (R97): The array starts a fence to change width, run length or mode after the last old row enters the de-quantiser. -/
  | ligatureFence (ch : Nat)
  /-- LIGATURE_FENCE_DONE (R98): The fence's 72 cycles end, the array is reconfigured and the head command may issue. -/
  | ligatureFenceDone (ch : Nat)
  /-- SHADOW_LOAD_DONE (R93): A stationary block finishes loading into the shadow registers and becomes valid. -/
  | shadowLoadDone (ch : Nat)
  /-- OPERAND_READ_ERROR (R92): An operand Tile read returns an uncorrectable error and the command completes with ECC_UNCORRECTED after running passes drain. -/
  | operandReadError (ch op t : Nat)
  /-- ALU (R132): Control-core register-register arithmetic or logic instruction. -/
  | alu (ch : Nat)
  /-- ADDI (R132): Adds a signed immediate to a register. -/
  | addi (ch : Nat)
  /-- ANDI (R132): ANDs a register with a zero-extended immediate. -/
  | andi (ch : Nat)
  /-- ORI (R132): ORs a register with a zero-extended immediate. -/
  | ori (ch : Nat)
  /-- XORI (R132): XORs a register with a zero-extended immediate. -/
  | xori (ch : Nat)
  /-- SHI (R132): Shifts a register by an immediate amount. -/
  | shi (ch : Nat)
  /-- LUI (R132): Loads an immediate into the upper half of a register. -/
  | lui (ch : Nat)
  /-- SLTI (R132): Sets a register when a register is below a signed immediate. -/
  | slti (ch : Nat)
  /-- BEQ (R132): Branches when two registers are equal. -/
  | beq (ch : Nat)
  /-- BNE (R132): Branches when two registers differ. -/
  | bne (ch : Nat)
  /-- BLT (R132): Branches on signed less-than. -/
  | blt (ch : Nat)
  /-- BGE (R132): Branches on signed greater-or-equal. -/
  | bge (ch : Nat)
  /-- BLTU (R132): Branches on unsigned less-than. -/
  | bltu (ch : Nat)
  /-- BGEU (R132): Branches on unsigned greater-or-equal. -/
  | bgeu (ch : Nat)
  /-- JAL (R132): Jumps by an offset and links the return address. -/
  | jal (ch : Nat)
  /-- JR (R132): Jumps to the address in a register. -/
  | jr (ch : Nat)
  /-- RTE (R132): Returns from a trap handler and leaves trap state. -/
  | rte (ch : Nat)
  /-- LDW (R129): Loads a word from data memory, Chase store or core registers. -/
  | ldw (ch : Nat)
  /-- LDH (R129): Loads a sign-extended halfword. -/
  | ldh (ch : Nat)
  /-- LDHU (R129): Loads a zero-extended halfword. -/
  | ldhu (ch : Nat)
  /-- LDB (R129): Loads a sign-extended byte. -/
  | ldb (ch : Nat)
  /-- LDBU (R129): Loads a zero-extended byte. -/
  | ldbu (ch : Nat)
  /-- STW (R129): Stores a word. -/
  | stw (ch : Nat)
  /-- STH (R129): Stores a halfword. -/
  | sth (ch : Nat)
  /-- STB (R129): Stores a byte. -/
  | stb (ch : Nat)
  /-- TWAIT (R137): Waits for a token of a stream at or after a sequence number. -/
  | twait (ch : Nat)
  /-- TSEND (R139): Sends one token to a unit's token port. -/
  | tsend (ch : Nat)
  /-- CGET (R140): Waits for and takes credits from a program credit counter. -/
  | cget (ch : Nat)
  /-- CPUT (R141): Sends credits to a counter of another unit. -/
  | cput (ch : Nat)
  /-- ISSUE (R143): Pushes a 32-byte command image into the issue stage or outbound queue. -/
  | issue (ch : Nat)
  /-- FENCE (R144): Waits until earlier commands, sends or stores of the core have taken effect. -/
  | fence (ch : Nat)
  /-- WAIT (R145): Enters the low-power state selected by CORE_MODE until an enabled wake source fires. -/
  | wait (ch : Nat)
  /-- TRAP (R147): Writes a completion record with a firmware-defined code and may halt the core. -/
  | trap (ch : Nat)
  /-- RDCNT (R133): Reads a counter selected by a selector. -/
  | rdcnt (ch : Nat)
  /-- TWAIT_TIMEOUT (R137): The token wait timeout expires during TWAIT, writing TOKEN_TIMEOUT or taking a trap. -/
  | twaitTimeout (ch : Nat)
  /-- CGET_TIMEOUT (R140): The credit wait timeout expires during CGET, writing CREDIT_TIMEOUT or taking a trap. -/
  | cgetTimeout (ch : Nat)
  /-- ISSUE_TIMEOUT (R143): No command slot frees within the credit wait timeout and ISSUE writes CREDIT_TIMEOUT. -/
  | issueTimeout (ch : Nat)
  /-- WAIT_TIMER_EXPIRY (R145): The timer of a WAIT expires and ends the WAIT with cause 4. -/
  | waitTimerExpiry (ch : Nat)
  /-- WATCHDOG_EXPIRY (R150): The core watchdog count reaches 2^wd_exp and the core takes trap WATCHDOG. -/
  | watchdogExpiry (ch : Nat)
  /-- OUTBOUND_SEND (R143): A command in a Chase's outbound queue leaves once the destination advertises a slot. -/
  | outboundSend (ch : Nat)
  /-- CORE_RUN (R538): Host write of CHS_CORE_CTRL.run starts the core at its PC. -/
  | coreRun (fn ch : Nat)
  /-- CORE_HALT (R151): Host write of CHS_CORE_CTRL.halt stops the core at an instruction boundary. -/
  | coreHalt (fn ch : Nat)
  /-- CORE_STEP (R538): Host write of CHS_CORE_CTRL.step runs one instruction from halt. -/
  | coreStep (fn ch : Nat)
  /-- CORE_RESET (R152): Host write of CHS_CORE_CTRL.core_reset clears core state and leaves it halted. -/
  | coreReset (fn ch : Nat)
  /-- CORE_WAKE (R145): Host write of CHS_CORE_CTRL.wake ends or pre-empts a WAIT. -/
  | coreWake (fn ch : Nat)
  /-- LOAD_IMEM (R537): Host request copies 16 KB from Folio space into instruction memory. -/
  | loadImem (fn ch : Nat)
  /-- LOAD_DMEM (R537): Host request copies 16 KB from Folio space into data memory. -/
  | loadDmem (fn ch : Nat)
  /-- CORE_LOAD_DONE (R537): A load request finishes, cleanly or with load_err, and raises EV_CORE_LOADED. -/
  | coreLoadDone (ch : Nat)
  /-- CHS_MEM_DATA_ACCESS (R154): Host read or write of CHS_MEM_DATA accesses core memory and advances CHS_MEM_ADDR. -/
  | chsMemDataAccess (fn ch : Nat) (wr : Bool) (v : Word)
  /-- STEP_END (R202): Write of PTG_CTRL.step_end starts the step boundary and holds every issue queue. -/
  | stepEnd (fn : Nat) (v : Word)
  /-- BOUNDARY_QUIESCED (R204): No command of step s remains outstanding and the Hydrometer slices start to drain. -/
  | boundaryQuiesced
  /-- BOUNDARY_COMBINE (R204): Slices are drained and the governor has read both rings, combining step-s records. -/
  | boundaryCombine
  /-- GANG_SUMMARY_RX (R206): A governor summary from a peer arrives and is combined, completing phase 5 when all have arrived. -/
  | gangSummaryRx
  /-- GANG_TIMEOUT (R207): PTG_GANG_TO expires before every peer summary arrives. -/
  | gangTimeout
  /-- BOUNDARY_RELEASE (R204): All boundary writes are acknowledged; the step counter advances and the hold is released. -/
  | boundaryRelease
  /-- STAT_QUEUE_RELEASE (R188): The governor reads a ring index and a slice's held record is written, releasing held output conversion. -/
  | statQueueRelease (d : Nat)
  /-- HYD_RING_CFG_WRITE (R210): Write of HYD_RING_CFG sets size and enable, restarting indexes and phase on enable. -/
  | hydRingCfgWrite (fn d : Nat) (v : Word)
  /-- PTG_ENT_LOAD (R212): Copies the selected Point table entry or policy into the data words. -/
  | ptgEntLoad (fn : Nat)
  /-- PTG_ENT_COMMIT (R192): Writes the data words to the selected entry or policy, subject to refusal checks. -/
  | ptgEntCommit (fn : Nat)
  /-- LSCALE_WRITE (R229): Write of PTG_LSCALE sets ls_exp and clears clean. -/
  | lscaleWrite (fn : Nat) (v : Word)
  /-- SEED_LOAD (R217): Copies the selected job seed into PTG_SEED_LO and PTG_SEED_HI. -/
  | seedLoad (fn : Nat)
  /-- SEED_COMMIT (R217): Writes the job seed and copies it to both dies. -/
  | seedCommit (fn : Nat)
  /-- TST_ENT_LOAD (R237): Copies the selected Taster entry into the data words. -/
  | tstEntLoad (fn : Nat)
  /-- TST_ENT_COMMIT (R237): Writes the data words to the selected Taster entry. -/
  | tstEntCommit (fn : Nat)
  /-- REGION_MAP (R244): DIE_TM_CMD map checks a region record and writes its leaves and Tile states. -/
  | regionMap (fn r : Nat)
  /-- REGION_UNMAP (R245): DIE_TM_CMD unmap frees a region's Tiles, quota and leaves. -/
  | regionUnmap (fn r : Nat)
  /-- TILE_MOVE (R253): The tier manager starts moving a Tile between tiers. -/
  | tileMove (r j tier : Nat)
  /-- TILE_MOVE_COMMIT (R253): A move finishes, writes the Tile state entry once and frees the source, or is abandoned. -/
  | tileMoveCommit (r j : Nat)
  /-- WATERMARK_EVICT (R256): Use above the high watermark starts eviction of idle unpinned auto Tiles. -/
  | watermarkEvict (kind idx : Nat)
  /-- QUOTA_LOAD (R259): Copies a job's limits and use into the quota data registers. -/
  | quotaLoad (fn : Nat)
  /-- QUOTA_COMMIT (R259): Writes a job's HBM, bulk and remote limits. -/
  | quotaCommit (fn : Nat)
  /-- LEASE_LOAD (R260): Copies the selected lease entry into the data registers. -/
  | leaseLoad (fn : Nat)
  /-- LEASE_REQUEST (R260): Requests a lease from a lender. -/
  | leaseRequest (fn : Nat)
  /-- LEASE_RENEW (R260): Sends a lease's new expiry to the lender. -/
  | leaseRenew (fn : Nat)
  /-- LEASE_RELEASE (R260): Ends a lease that holds no Tiles. -/
  | leaseRelease (fn : Nat)
  /-- LEND_CFG_WRITE (R261): Write of DIE_LEND_CFG; clearing lend_en recalls every granted lease. -/
  | lendCfgWrite (fn d : Nat) (v : Word)
  /-- LEASE_EVACUATE (R261): From 2^30 ticks before expiry the borrower promotes every Tile of the lease. -/
  | leaseEvacuate (l : Nat)
  /-- LEASE_EXPIRY (R261): A lease reaches its expiry; unmoved Tiles are marked lost. -/
  | leaseExpiry (l : Nat)
  /-- SCRUB_TICK (R264): A controller's scrub interval expires and it reads and corrects one 64-byte block. -/
  | scrubTick (ctl found : Nat)
  /-- STREAM_ALLOC (R273): Write of STM_ALLOC requests a stream context and records the outcome. -/
  | streamAlloc (fn : Nat) (v : Word)
  /-- STREAM_CONTEXT_WRITE (R271): Owner write of a stream context field, refused in states that forbid it. -/
  | streamContextWrite (fn id word : Nat) (v : Word)
  /-- STREAM_ACTIVATE (R275): cmd activate checks sizes and placement and moves READY to ACTIVE. -/
  | streamActivate (fn id : Nat)
  /-- STREAM_PAUSE (R288): cmd pause stops fetching at once. -/
  | streamPause (fn id : Nat)
  /-- STREAM_RESUME (R288): cmd resume returns the stream to ACTIVE. -/
  | streamResume (fn id : Nat)
  /-- STREAM_CLOSE (R286): cmd close sets DRAINING and completes unfetched commands with ABORTED_FAULT. -/
  | streamClose (fn id : Nat)
  /-- SQ_DOORBELL (R276): Doorbell write sets sq_tail after range checks. -/
  | sqDoorbell (fn id : Nat) (v : Word)
  /-- CQ_DOORBELL (R276): Doorbell write sets cq_head, releasing held records. -/
  | cqDoorbell (fn id : Nat) (v : Word)
  /-- STREAM_FETCH (R277): A stream slice fetches the command at sq_head and assigns its stream and seq. -/
  | streamFetch (home : Nat)
  /-- FETCH_DELIVER (R277): A fetched command passes to its unit once that unit's credit port advertises a slot. -/
  | fetchDeliver (id : Nat)
  /-- COMPLETION_RECORD_WRITE (R280): A completion record is written into the completion queue and cq_tail advances. -/
  | completionRecordWrite (id : Nat)
  /-- TOKEN_TIMEOUT (R289): A command held on a token for STM_TOK_TO ticks completes with TOKEN_TIMEOUT. -/
  | tokenTimeout (u : Nat)
  /-- CREDIT_TIMEOUT (R290): A command held on an output credit for STM_CRED_TO ticks completes with CREDIT_TIMEOUT. -/
  | creditTimeout (u : Nat)
  /-- JOB_LOAD (R292): Copies a job-table entry into STM_JOB_DATA and STM_JOB_COUNT. -/
  | jobLoad (fn : Nat)
  /-- JOB_COMMIT (R292): Writes STM_JOB_DATA to a job-table entry. -/
  | jobCommit (fn : Nat)
  /-- PORT_ENABLE (R313): Write of IZN_PORT_CTRL.enable moves a port to TRAINING or DISABLED. -/
  | portEnable (fn p : Nat) (v : Word)
  /-- PORT_RETRAIN (R314): Write of IZN_PORT_CTRL.retrain sends a port from UP to RETRAIN. -/
  | portRetrain (fn p : Nat)
  /-- TRAINING_DONE (R313): Port training completes its steps and the port enters UP. -/
  | trainingDone (p peerId peerPort : Nat) (shares : List Nat) (peerTime : Nat) (delay : TrainEnd)
  /-- TRAINING_TIMEOUT (R313): 500 ms of training elapse and the port enters DOWN. -/
  | trainingTimeout (p reason : Nat)
  /-- RETRAIN_TIMEOUT (R313): 4 ms of retrain elapse and the port enters DOWN. -/
  | retrainTimeout (p : Nat)
  /-- DOWN_RESTART (R313): After 2^27 ticks in DOWN with auto_up, the port returns to TRAINING. -/
  | downRestart (p : Nat)
  /-- FLIT_RX (R299): A flit is received, checked, acked or nakked, and its link word and credits taken. -/
  | flitRx (p stamp : Nat) (f : Flit)
  /-- FLIT_TRANSMIT (R301): The transmitter chooses a replay, data or idle flit for a flit slot. -/
  | flitTransmit (p : Nat)
  /-- SYNC_EXCHANGE (R316): Every 2^period_exp ticks the module starts a time-stamp exchange with its parent. -/
  | syncExchange
  /-- E2E_TIMEOUT (R309): No answer arrives within IZN_E2E_TO and the sending command completes with LINK_DOWN. -/
  | e2eTimeout (u stream seq : Nat)
  /-- WRITE_RX (R303): A WRITE packet passes the receive checks, is applied and answered with ACK. -/
  | writeRx (p : Nat) (pkt : Packet)
  /-- READ_REQ_RX (R360): A READ_REQ packet is checked, versioned if marked, and served with READ_RESP. -/
  | readReqRx (p : Nat) (pkt : Packet)
  /-- READ_RESP_RX (R303): A READ_RESP packet delivers requested data. -/
  | readRespRx (p : Nat) (pkt : Packet)
  /-- ACCUM_RX (R334): An ACCUM packet is checked and applied to an accumulator Tile, then acknowledged. -/
  | accumRx (p : Nat) (pkt : Packet)
  /-- ACK_RX (R309): An ACK packet answers an outstanding packet of a command. -/
  | ackRx (p : Nat) (pkt : Packet)
  /-- ERROR_RX (R309): An ERROR packet completes the sending command with its status or is counted. -/
  | errorRx (p : Nat) (pkt : Packet)
  /-- TOKEN_RX (R303): A TOKEN packet is entered in the target Chase's token table. -/
  | tokenRx (p : Nat) (pkt : Packet)
  /-- CREDIT_RX (R303): A CREDIT packet adds credits to the target counter. -/
  | creditRx (p : Nat) (pkt : Packet)
  /-- GOV_RX (R320): A GOV summary packet reaches the point governor. -/
  | govRx (p : Nat) (pkt : Packet)
  /-- LEASE_REQUEST_RX (R260): A lender receives a lease request and grants or refuses it. -/
  | leaseRequestRx (p : Nat) (pkt : Packet)
  /-- LEASE_GRANT_RX (R260): A borrower receives a grant and the entry becomes active. -/
  | leaseGrantRx (p : Nat) (pkt : Packet)
  /-- LEASE_REFUSE_RX (R260): A borrower receives a refusal and the entry returns to free with refused set. -/
  | leaseRefuseRx (p : Nat) (pkt : Packet)
  /-- LEASE_RENEW_RX (R260): A lender receives a renewal and accepts it or treats it as a recall. -/
  | leaseRenewRx (p : Nat) (pkt : Packet)
  /-- LEASE_RECALL_RX (R261): A borrower receives a recall and moves the expiry earlier. -/
  | leaseRecallRx (p : Nat) (pkt : Packet)
  /-- LEASE_RELEASE_RX (R260): A lender receives a release and frees the lent space. -/
  | leaseReleaseRx (p : Nat) (pkt : Packet)
  /-- BG_WRITE_RX (R391): A BG_WRITE packet writes lease or buddy-mirror data. -/
  | bgWriteRx (p : Nat) (pkt : Packet)
  /-- BG_READ_REQ_RX (R394): A BG_READ_REQ packet reads lease data or a buddy Cask copy. -/
  | bgReadReqRx (p : Nat) (pkt : Packet)
  /-- STOP_ARM_RX (R383): A STOP packet of sub 0 arms the same stop time T or is refused. -/
  | stopArmRx (p : Nat) (pkt : Packet)
  /-- STOP_REFUSE_RX (R383): A STOP refusal of sub 1 sets stop_late and raises EV_STOP_LATE. -/
  | stopRefuseRx (p : Nat) (pkt : Packet)
  /-- PAIR_REQUEST_RX (R390): A STOP packet of sub 2 asks for buddy pairing and is answered with sub 3. -/
  | pairRequestRx (p : Nat) (pkt : Packet)
  /-- PAIR_ANSWER_RX (R390): A pairing answer of sub 3 sets the pairing outcome. -/
  | pairAnswerRx (p : Nat) (pkt : Packet)
  /-- MIRROR_BEGIN_RX (R391): A STOP packet of sub 4 starts a mirror into a buddy slot. -/
  | mirrorBeginRx (p : Nat) (pkt : Packet)
  /-- MIRROR_END_RX (R391): A STOP packet of sub 5 ends a mirror and the buddy checks and answers with sub 6. -/
  | mirrorEndRx (p : Nat) (pkt : Packet)
  /-- MIRROR_STATUS_RX (R391): A STOP packet of sub 6 confirms a mirror and sets mirror_ok. -/
  | mirrorStatusRx (p : Nat) (pkt : Packet)
  /-- GANG_CASK_RX (R378): A STOP packet of sub 7 requests a Cask at the boundary that ends a named step. -/
  | gangCaskRx (p : Nat) (pkt : Packet)
  /-- RT_LOAD (R311): Copies the selected route entry into IZN_RT_DATA. -/
  | rtLoad (fn : Nat)
  /-- RT_COMMIT (R311): Writes IZN_RT_DATA to the selected route entry. -/
  | rtCommit (fn : Nat)
  /-- CTX_LOAD (R328): Copies the selected reduction context into the data registers. -/
  | ctxLoad (fn : Nat)
  /-- CTX_ARM (R328): Arms a reduction context after the arm checks and clears its Tiles. -/
  | ctxArm (fn : Nat)
  /-- CTX_DISARM (R329): Disarms a reduction context. -/
  | ctxDisarm (fn : Nat)
  /-- PSET_LOAD (R348): Copies the selected peer set into the data registers. -/
  | psetLoad (fn : Nat)
  /-- PSET_COMMIT (R348): Writes the data registers to the selected peer set. -/
  | psetCommit (fn : Nat)
  /-- REDSCAT_TAKE_TILE (R341): An accumulator Tile becomes FULL or BAD and COL_REDSCAT converts or skips it and zeroes it. -/
  | redscatTakeTile (u t : Nat)
  /-- REDSCAT_TIMEOUT (R343): STM_TOK_TO ticks pass with no Tile taken and COL_REDSCAT completes with TOKEN_TIMEOUT. -/
  | redscatTimeout (u : Nat)
  /-- PERMUTE_RELEASE (R346): The generation fence clears and a held COL_PERMUTE starts sending. -/
  | permuteRelease (u : Nat)
  /-- PERMUTE_TIMEOUT (R346): A COL_PERMUTE held by the generation fence times out. -/
  | permuteTimeout (u : Nat)
  /-- MAP_ENT_LOAD (R363): Copies the selected map entry into the data registers. -/
  | mapEntLoad (fn : Nat)
  /-- MAP_ENT_COMMIT (R351): Writes a map entry, subject to refusal, and updates gsize, self and reserve. -/
  | mapEntCommit (fn : Nat)
  /-- CASK_REQUEST (R372): Write of CSK_CTRL.request makes a Cask request pending. -/
  | caskRequest (fn : Nat)
  /-- CASK_COMMIT (R375): The writer finishes a Cask, writes its commit word and raises EV_CASK_DONE. -/
  | caskCommit
  /-- CASK_FAIL (R377): A Cask write fails, clears pending marks and raises EV_CASK_FAIL. -/
  | caskFail (reason : Nat)
  /-- STOP_ARM (R383): Write of CSK_STOP_T_HI arms a Stop-press at time T. -/
  | stopArm (fn : Nat) (v : Word)
  /-- STOP_PRESS (R384): Fabric time reaches T; issue stops, unissued commands complete with ABORTED_STOP and streams stop. -/
  | stopPress
  /-- MODULE_STOPPED (R386): Every command issued before T completes and the module reports stopped. -/
  | moduleStopped
  /-- CASK_CUT (R387): Write of CSK_CTRL.cut captures a cut Cask of a stopped module. -/
  | caskCut (fn : Nat)
  /-- CASK_RESUME (R396): Write of CSK_CTRL.resume applies buffered packets, re-enters held commands and restarts streams and cores. -/
  | caskResume (fn : Nat)
  /-- CASK_RESTORE (R393): Write of CSK_RESTORE.start checks and restores a Cask. -/
  | caskRestore (fn : Nat) (v : Word)
  /-- RESTORE_DONE (R395): A restore finishes its sections and raises EV_RESTORED. -/
  | restoreDone
  /-- RISK_EVALUATE (R381): Every 2^20 ticks the estimator forms R and acts on threshold crossings. -/
  | riskEvaluate
  /-- CRIT_WAIT_EXPIRY (R381): No boundary begins within crit_wait on the critical path and a Stop-press is set. -/
  | critWaitExpiry
  /-- FLOOR_EXPIRY (R382): No Cask has committed for the floor interval and a Cask is requested. -/
  | floorExpiry
  /-- BUDDY_PAIR (R390): Write of CSK_BUDDY with buddy_en sends a pairing request. -/
  | buddyPair (fn : Nat) (v : Word)
  /-- PAIR_TIMEOUT (R390): No pairing answer arrives within IZN_E2E_TO and pairing is none. -/
  | pairTimeout
  /-- FEED_WRITE (R389): Muzomus write of CSK_FEED sets the feed-domain id and re-evaluates pairing. -/
  | feedWrite (fn : Nat) (v : Word)
  /-- TRACE_ENABLE (R411): Write of TRC_CTRL.enable starts or stops the trace writer. -/
  | traceEnable (fn d : Nat) (v : Word)
  /-- TRACE_TRIGGER (R412): Write of TRC_CTRL.trigger gives a software trigger. -/
  | traceTrigger (fn d : Nat)
  /-- TRACE_ARM (R413): Write of TRC_CTRL.arm returns a frozen buffer to running. -/
  | traceArm (fn d : Nat)
  /-- TRACE_TIME_TRIGGER (R412): Fabric time reaches TRC_TRIG_T and a trigger arises. -/
  | traceTimeTrigger (d : Nat)
  /-- TRACE_WRITE (R410): The trace writer moves up to 2 records per tick from Chase queues into the buffer. -/
  | traceWrite (d : Nat)
  /-- TRACE_FREEZE (R413): The post-trigger count is reached and the wrap-mode buffer freezes. -/
  | traceFreeze (d : Nat)
  /-- TRACE_SPILL (R414): The writer copies buffered records to the Cellar spill ring as bandwidth allows. -/
  | traceSpill (d : Nat)
  /-- COUNTER_SNAP (R401): Write of TRC_CTRL.snap latches every always-on counter. -/
  | counterSnap (fn : Nat)
  /-- SNAP_RELEASE (R401): Write of TRC_CTRL.snap_release clears snap_valid. -/
  | snapRelease (fn : Nat)
  /-- HANG_REQUEST (R415): Write of TRC_CTRL.hang sets a snapshot at now plus 64 ticks. -/
  | hangRequest (fn : Nat)
  /-- HANG_CAPTURE (R415): At Ts every unit copies its wait state and each die writes its snapshot area. -/
  | hangCapture
  /-- PROOF_MODE_WRITE (R421): Write of MON_CTRL.proof changes monitor mode and discards readings in progress. -/
  | proofModeWrite (fn d : Nat) (v : Word)
  /-- MARGIN_START (R427): Write of MON_MARGIN_CMD.start begins a self-test or margin test, or is refused. -/
  | marginStart (fn d : Nat) (v : Word)
  /-- CLR_READ (R439): Write of CLR_CMD.read reads a Colophon record into CLR_RD_DATA. -/
  | clrRead (fn : Nat)
  /-- CLR_APPEND (R439): Write of CLR_CMD.append appends a note record. -/
  | clrAppend (fn : Nat)
  /-- FORME_WAKE_RETRY (R448): Write of PWR_FRM retry starts a new wake from WAKE_FAIL. -/
  | formeWakeRetry (fn d f : Nat)
  /-- FORCE_ON_WRITE (R446): Write of PWR_FRM force_on wakes the Forme and keeps it ON. -/
  | forceOnWrite (fn d f : Nat) (v : Word)
  /-- CAP_WRITE (R451): A write lowering a power cap clears burst and forces the draw down within 50 µs. -/
  | capWrite (fn : Nat) (mgmt : Bool) (v : Word)
  /-- SHARE_LOAD (R452): Copies a job's power share into PWR_SHARE_DATA. -/
  | shareLoad (fn : Nat)
  /-- SHARE_COMMIT (R452): Writes a job's power share. -/
  | shareCommit (fn : Nat)
  /-- CLAIM_DUTY (R453): Claims the duty override for the writer. -/
  | claimDuty (fn : Nat)
  /-- RELEASE_DUTY (R453): Releases the duty override. -/
  | releaseDuty (fn : Nat)
  /-- CLAIM_VSET (R453): Muzomus claims the Forme supply setpoint. -/
  | claimVset (fn : Nat)
  /-- RELEASE_VSET (R453): Muzomus releases the Forme supply setpoint. -/
  | releaseVset (fn : Nat)
  /-- RST_CTRL_WRITE (R476): Physical-function write of 0xA5 to RST_CTRL takes a module reset. -/
  | rstCtrlWrite (fn : Nat) (v : Word)
  /-- FUNCTION_LEVEL_RESET (R492): A Function Level Reset drains the function's streams and clears its interrupt state. -/
  | functionLevelReset (f : Nat)
  /-- CONFIG_REQUEST (R483): A PCI Express configuration request is answered, with Request Retry Status until ready. -/
  | configRequest (fn : Nat) (off : CfgAccess)
  /-- BAR2_WRITE (R481): A host write through BAR2 is checked and applied to Folio space, allocating never-written Tiles. -/
  | bar2Write (fn off : Nat) (data : List Byte)
  /-- BAR2_READ (R481): A host read through BAR2 is checked and returns Folio data, zero or poisoned data. -/
  | bar2Read (fn off n : Nat)
  /-- IRQ_HOLDOFF_EXPIRY (R490): The coalescing holdoff expires and the pending completion vector is sent. -/
  | irqHoldoffExpiry (fn vec : Nat)
  /-- STREAM_VECTOR_WRITE (R489): Write to the stream vector table stores only the bytes of streams the writer owns. -/
  | streamVectorWrite (fn off : Nat) (v : Word)
  /-- PAGE_OWNER_WRITE (R484): Write of PAGE_OWNER reassigns a page, subject to refusal rules. -/
  | pageOwnerWrite (fn off : Nat) (v : Word)
  /-- CLAIM_WAKE (R501): Claims WAKE_N for the writer. -/
  | claimWake (fn : Nat)
  /-- RELEASE_WAKE (R501): Releases WAKE_N. -/
  | releaseWake (fn : Nat)
  /-- CLAIM_FAULT (R501): Claims sw_fault for the writer. -/
  | claimFault (fn : Nat)
  /-- RELEASE_FAULT (R501): Releases sw_fault and clears it. -/
  | releaseFault (fn : Nat)
  /-- ERR_STATUS_CLEAR (R529): W1C write to ERR_STATUS clears bits and returns ERR_FIRST to 0 when none remain. -/
  | errStatusClear (fn off : Nat) (v : Word)
  /-- EV_RAW_CLEAR (R530): W1C write to EV_RAW clears event bits. -/
  | evRawClear (fn off : Nat) (v : Word)
  /-- EV_FORCE_WRITE (R528): Write to EV_FORCE sets EV_RAW bits as if the events were raised. -/
  | evForceWrite (fn off : Nat) (v : Word)
  /-- LO_READ_LATCH (R531): A read of a _LO register latches its _HI partner for the reading function. -/
  | loReadLatch (fn off : Nat)
  /-- REG_WRITE (R2): A write to any register without a row of its own stores its RW fields or is refused and logged. -/
  | regWrite (fn off : Nat) (v : Word)
  /-- REFUSED_READ (R485): A register or context read by a function that may not read it returns 0 and logs PRIVILEGE with the function and offset. -/
  | refusedRead (fn off : Nat)
  /-- SENSOR_CONVERSION (R421): A monitor conversion interval completes and reading registers update, with threshold and stuck checks. -/
  | sensorConversion (d : Nat) (temps volts ros : List Reading)
  /-- DROOP (R424): A domain's supply falls below target for width cycles and a droop is counted. -/
  | droop (d : Nat) (k : Droop)
  /-- MARGIN_DONE (R428): A test ends, writes MON_MARGIN_RESULT and raises EV_MARGIN_DONE. -/
  | marginDone (d mv : Nat) (failed : List Nat)
  /-- COLOPHON_APPEND (R432): Muzomus appends a Colophon record on its occasion, queueing it if the Cellar is busy. -/
  | colophonAppend (d type : Nat) (payload : List Byte)
  /-- COLOPHON_PERIODIC (R432): Each 3,600 powered seconds Muzomus appends summary and histogram records. -/
  | colophonPeriodic
  /-- VIN_CHANGE (R440): The averaged input voltage crosses a threshold and the module changes state. -/
  | vinChange (v amps : Nat)
  /-- FORME_CLOCK_GATE (R444): A Forme has been quiet for 64 ticks and enters CLOCK_GATED. -/
  | formeClockGate (d f : Nat)
  /-- FORME_POWER_GATE (R445): Every Chase has been at depth 2 for 1,024 ticks and the Forme enters POWER_GATED. -/
  | formePowerGate (d f : Nat)
  /-- FORME_WAKE (R446): An access reaches a gated Forme, stalls and starts a wake. -/
  | formeWake (d f source path : Nat)
  /-- FORME_WAKE_DONE (R447): The Forme returns to ON and stalled accesses proceed. -/
  | formeWakeDone (d f : Nat)
  /-- FORME_WAKE_TIMEOUT (R448): A Forme is not ON 106,250 ticks after its wake and enters WAKE_FAIL. -/
  | formeWakeTimeout (d f : Nat)
  /-- POWER_INTERVAL (R449): Each 1,024 ticks the power controller evaluates duties from power, thermal and override sources. -/
  | powerInterval (watts avg10ms : Nat)
  /-- SHARE_WINDOW (R452): A 2^20-tick window ends and job power shares are attributed and enforced. -/
  | shareWindow (uses : ShareUses)
  /-- RESET_ASSERT (R460): A reset source is seen and every domain enters reset, restarting start-up. -/
  | resetAssert (source : Nat)
  /-- PERST_N_LOW (R458): PERST_N is held low for 1 µs and a module reset is taken. -/
  | perstNLow
  /-- CRITICAL_STATE_ERROR (R461): An uncorrectable error in critical state records RST_PARITY and resets. -/
  | criticalStateError (d sub index : Nat)
  /-- REFCLK_LOSS (R457): The reference stops for 1 µs or a root PLL loses lock and a reset is taken. -/
  | refclkLoss
  /-- NV_PULSE_END (R463): A program or erase pulse ends and the deferred reset of its unit takes effect. -/
  | nvPulseEnd
  /-- STARTUP_STEP_DONE (R469): A start-up step completes and the next begins, ending with ready. -/
  | startupStepDone (bridgeOk : Bool) (failed : List Nat)
  /-- BULK_ZERO_DONE (R472): A die's bulk tier is zeroed and bulk_ready is set. -/
  | bulkZeroDone (d : Nat)
  /-- WAKE_PIN (R500): A debounced falling edge on WAKE_N raises EV_WAKE_PIN and may wake every Forme. -/
  | wakePin (level : Bool)
  /-- COOLANT_PIN (R500): COOLANT_N changes level and the module applies or restores its coolant cap. -/
  | coolantPin (level : Bool)
  /-- SET_ENDPOINT_ID (R494): MCTP control command assigning Muzomus's endpoint ID. -/
  | setEndpointId (ep eid : Nat)
  /-- GET_ENDPOINT_ID (R494): MCTP control command returning the endpoint ID. -/
  | getEndpointId (ep : Nat)
  /-- GET_ENDPOINT_UUID (R494): MCTP control command returning the endpoint UUID. -/
  | getEndpointUuid (ep : Nat)
  /-- GET_MCTP_VERSION_SUPPORT (R494): MCTP control command returning supported versions. -/
  | getMctpVersionSupport (ep type : Nat)
  /-- GET_MESSAGE_TYPE_SUPPORT (R494): MCTP control command returning supported message types. -/
  | getMessageTypeSupport (ep : Nat)
  /-- GET_TID (R495): PLDM type 0 command returning the terminus ID. -/
  | getTid (ep : Nat)
  /-- SET_TID (R495): PLDM type 0 command setting the terminus ID. -/
  | setTid (ep tid : Nat)
  /-- GET_PLDM_VERSION (R495): PLDM type 0 command returning a type's version. -/
  | getPldmVersion (ep type : Nat)
  /-- GET_PLDM_TYPES (R495): PLDM type 0 command returning supported types. -/
  | getPldmTypes (ep : Nat)
  /-- GET_PLDM_COMMANDS (R495): PLDM type 0 command returning supported commands. -/
  | getPldmCommands (ep type : Nat)
  /-- GET_PDR_REPOSITORY_INFO (R436): PLDM type 2 command returning repository information. -/
  | getPdrRepositoryInfo (ep : Nat)
  /-- GET_PDR (R436): PLDM type 2 command returning a platform descriptor record. -/
  | getPdr (ep handle : Nat)
  /-- GET_SENSOR_READING (R436): PLDM type 2 command returning a numeric sensor value. -/
  | getSensorReading (ep id : Nat)
  /-- GET_STATE_SENSOR_READINGS (R436): PLDM type 2 command returning state sensor values. -/
  | getStateSensorReadings (ep id : Nat)
  /-- SET_NUMERIC_SENSOR_ENABLE (R436): PLDM type 2 command enabling or disabling a numeric sensor. -/
  | setNumericSensorEnable (ep id : Nat) (enable : Bool)
  /-- SET_SENSOR_THRESHOLDS (R436): PLDM type 2 command writing temperature thresholds into the monitor registers. -/
  | setSensorThresholds (ep id : Nat) (warn crit : Int)
  /-- SET_EVENT_RECEIVER (R437): PLDM type 2 command naming the receiver of platform events. -/
  | setEventReceiver (ep receiver : Nat)
  /-- POLL_FOR_PLATFORM_EVENT_MESSAGE (R437): PLDM type 2 command returning a queued event. -/
  | pollForPlatformEventMessage (ep : Nat)
  /-- QUERY_DEVICE_IDENTIFIERS (R496): PLDM type 5 command returning device identifiers. -/
  | queryDeviceIdentifiers (ep : Nat)
  /-- GET_FIRMWARE_PARAMETERS (R496): PLDM type 5 command returning component parameters. -/
  | getFirmwareParameters (ep : Nat)
  /-- REQUEST_UPDATE (R497): PLDM type 5 command starting an update, refused while another runs. -/
  | requestUpdate (ep maxTransfer : Nat)
  /-- PASS_COMPONENT_TABLE (R496): PLDM type 5 command passing the component table. -/
  | passComponentTable (ep classifier : Nat)
  /-- UPDATE_COMPONENT (R496): PLDM type 5 command starting transfer of a component. -/
  | updateComponent (ep classifier size : Nat)
  /-- REQUEST_FIRMWARE_DATA (R496): Answer to Muzomus's request for a block of firmware data is taken and written. -/
  | requestFirmwareData (ep : Nat) (data : List Byte)
  /-- TRANSFER_COMPLETE (R496): PLDM type 5 transfer completion exchange. -/
  | transferComplete (ep : Nat) (ok : Bool)
  /-- VERIFY_COMPLETE (R497): PLDM type 5 verification of the image, writing nothing when it fails. -/
  | verifyComplete (ep : Nat)
  /-- APPLY_COMPLETE (R496): PLDM type 5 apply completion exchange. -/
  | applyComplete (ep : Nat)
  /-- ACTIVATE_FIRMWARE (R475): PLDM type 5 command activating the new image, restarting Muzomus and optionally resetting the dies. -/
  | activateFirmware (ep : Nat) (selfContained : Bool) (reset : Nat)
  /-- GET_STATUS (R496): PLDM type 5 command returning update status. -/
  | getStatus (ep : Nat)
  /-- CANCEL_UPDATE_COMPONENT (R496): PLDM type 5 command cancelling a component update. -/
  | cancelUpdateComponent (ep : Nat)
  /-- CANCEL_UPDATE (R496): PLDM type 5 command cancelling the update. -/
  | cancelUpdate (ep : Nat)
  /-- EXTEST (R498): TAP instruction driving pins from the boundary register. -/
  | extest (d : TapScan)
  /-- IDCODE (R498): TAP instruction selecting the identification register. -/
  | idcode (d : TapScan)
  /-- SAMPLE_PRELOAD (R498): TAP instruction sampling or preloading the boundary register. -/
  | samplePreload (d : TapScan)
  /-- CLAMP (R498): TAP instruction holding outputs while bypassing. -/
  | clamp (d : TapScan)
  /-- HIGHZ (R498): TAP instruction floating outputs. -/
  | highz (d : TapScan)
  /-- EXTEST_PULSE (R498): IEEE 1149.6 pulse test on high-speed pairs. -/
  | extestPulse (d : TapScan)
  /-- EXTEST_TRAIN (R498): IEEE 1149.6 train test on high-speed pairs. -/
  | extestTrain (d : TapScan)
  /-- BYPASS (R498): TAP instruction selecting the bypass register. -/
  | bypass (d : TapScan)
  /-- RETRAIN_DONE (R313): A port in RETRAIN finishes retraining, returns to UP and replays every unacknowledged flit. -/
  | retrainDone (p : Nat)
  /-- PEER_GONE (R313): The peer of a port disappears and the port enters DOWN with the effects of the table Port down. -/
  | peerGone (p : Nat)
  /-- PCIE_LINK_CHANGE (R502): The PCI Express link changes speed or width, is lost, hot-reset or disabled, raising EV_LINK_CHANGE or acting as an FLR of every function. -/
  | pcieLinkChange (kind speed width : Nat) (flit : Bool)
  /-- PENDING_UNIT_COPIED (R376): The Cask writer finishes copying one pending unit into the Cellar, clears its pending mark and releases writes, discards and held accesses waiting on it. -/
  | pendingUnitCopied
  /-- BOARD_ALARM (R379): The board or rack reports a coolant alarm or other board alarm over management, setting or clearing indicators x10 and x11. -/
  | boardAlarm (alarm : Nat) (on : Bool)
  /-- MUZOMUS_START (R473): Muzomus's boot ROM finishes verifying both firmware images and runs the later one, enters recovery when neither verifies, or advances the security-version counter after a new image starts. -/
  | muzomusStart (okA okB : Bool)
  deriving DecidableEq, Repr

end Sys2Proof
end

