-- ==== Sys2Proof/Config.lean ====
section
/-! DEFINITION. What an implementation fixes and the spec leaves open: free values (opaque constants, so that nothing
can be proved about which value they are) and the identities that the spec does not print. -/

namespace Sys2Proof

/-- A byte that the spec calls undefined (R29, R92): the n-th one the run asks for. -/
opaque Config.freeByte : Nat → BitVec 8

/-- A word that the spec leaves open: the n-th one the run asks for. -/
opaque Config.freeWord : Nat → Nat

/-- Where the tier manager starts to look for free space in a memory (R252 fixes the memory, not the place). -/
opaque Config.placeStart : Nat → Nat

/-- How many output-Tile credits a command needs at a unit before it issues (R90 gives no count): unit, stream,
sequence number. -/
opaque Config.outCredits : Nat → Nat → Nat → Nat

/-- Kenodo's JEDEC manufacturer identity (R498), 11 bits. -/
opaque Config.jedec : BitVec 11

/-- The revision field of the TAP identification register (R498), 4 bits. -/
opaque Config.tapVersion : BitVec 4

/-- The MCTP endpoint UUID of the module (R494). -/
opaque Config.uuid : BitVec 128

/-- What a PLDM or MCTP reply holds where the spec names the reply and not its bytes: reply kind and field. -/
opaque Config.mgmtField : Nat → Nat → Nat

/-- The boundary register's length and its sampled pins (R498): die and sample number. -/
opaque Config.boundarySample : Nat → Nat → Nat

/-- What a word that cannot be corrected delivers where the spec says its data is returned (R481). -/
opaque Config.badData : Nat → BitVec 8

/-- The target of a voltage domain in 0.1 mV (R424, R432): die and domain. -/
opaque Config.voltTarget : Nat → Nat → Nat

end Sys2Proof
end

