-- ==== Sys2Proof/Machine/Num.lean ====
section
/-! DEFINITION. Exact values and their single rounding: the arithmetic of R53, R60 to R72, R77 to R85 and R172,
over dyadic rationals. -/

namespace Sys2Proof

/-- Bits [hi:lo] of a number. -/
def bits (x hi lo : Nat) : Nat := (x >>> lo) % 2 ^ (hi + 1 - lo)

/-- Bit `i` of a number as a Bool. -/
def bit (x i : Nat) : Bool := x.testBit i

/-- `x` with bits [hi:lo] replaced by those of `v`. -/
def putBits (x hi lo v : Nat) : Nat :=
  x - (bits x hi lo) * 2 ^ lo + (v % 2 ^ (hi + 1 - lo)) * 2 ^ lo

/-- 1 for true. -/
def b2n (b : Bool) : Nat := if b then 1 else 0

/-- Ceiling of a quotient. -/
def ceilDiv (a b : Nat) : Nat := if b = 0 then 0 else (a + b - 1) / b

/-- The integer that the low `w` bits of `x` hold in two's complement. -/
def sx (w x : Nat) : Int :=
  let y := x % 2 ^ w
  if 2 * y ≥ 2 ^ w then (y : Int) - (2 ^ w : Nat) else (y : Int)

/-- `i` modulo 2^w. -/
def toU (w : Nat) (i : Int) : Nat := (i % ((2 ^ w : Nat) : Int)).toNat

/-! ### Exact arithmetic on values -/

/-- Zero with a sign. -/
def Val.zero (neg : Bool) : Val := .fin neg 0 0

def Val.isNan : Val → Bool
  | .nan _ => true
  | _ => false

def Val.isInf : Val → Bool
  | .inf _ => true
  | _ => false

/-- A zero of either sign. -/
def Val.isZero : Val → Bool
  | .fin _ m _ => m == 0
  | _ => false

def Val.sign : Val → Bool
  | .fin n _ _ => n
  | .inf n => n
  | .nan n => n

def Val.neg : Val → Val
  | .fin n m e => .fin (!n) m e
  | .inf n => .inf (!n)
  | .nan n => .nan (!n)

def Val.abs : Val → Val
  | .fin _ m e => .fin false m e
  | .inf _ => .inf false
  | .nan _ => .nan false

/-- The value times 2^k, exactly. -/
def Val.scale (v : Val) (k : Int) : Val :=
  match v with
  | .fin n m e => .fin n m (e + k)
  | v => v

/-- The exponent floor(log2 |v|) of a finite nonzero value. -/
def Val.top : Val → Int
  | .fin _ m e => (Nat.log2 m : Nat) + e
  | _ => 0

/-- The magnitude of a finite value as a count of 2^k, for k no larger than its exponent. -/
def magAt (m : Nat) (e k : Int) : Nat := m <<< (e - k).toNat

/-- The signed count of 2^k in a finite value. -/
def Val.countAt (v : Val) (k : Int) : Int :=
  match v with
  | .fin n m e => if n then -(magAt m e k : Int) else (magAt m e k : Int)
  | _ => 0

/-- A signed count of 2^k as a value; zero has sign `z`. -/
def ofCount (z : Bool) (c : Int) (k : Int) : Val :=
  if c = 0 then .fin z 0 0 else .fin (c < 0) c.natAbs k

/-- A NaN result takes the sign of the first NaN operand; a NaN formed from none is positive (R172; for the arrays DEDUCED, log 21). -/
def nanOf (a b : Val) : Val :=
  if a.isNan then .nan a.sign else if b.isNan then .nan b.sign else .nan false

/-- The exact sum. An exact zero keeps a negative sign only when both operands have it, so a pair of −0 and +0 reads +0, which
R71 does not settle (DESIGN CHOICE, log 137). -/
def Val.add (a b : Val) : Val :=
  match a, b with
  | .fin n m e, .fin n' m' e' =>
    let k := min e e'
    ofCount (n && n') (Val.countAt (.fin n m e) k + Val.countAt (.fin n' m' e') k) k
  | .nan _, _ => nanOf a b
  | _, .nan _ => nanOf a b
  | .inf n, .inf n' => if n = n' then .inf n else .nan false
  | .inf n, _ => .inf n
  | _, .inf n => .inf n

def Val.sub (a b : Val) : Val :=
  match b with
  | .nan _ => nanOf a b
  | b => Val.add a b.neg

/-- The exact product. -/
def Val.mul (a b : Val) : Val :=
  match a, b with
  | .fin n m e, .fin n' m' e' => .fin (n != n') (m * m') (if m * m' = 0 then 0 else e + e')
  | .nan _, _ => nanOf a b
  | _, .nan _ => nanOf a b
  | a, b => if a.isZero || b.isZero then .nan false else .inf (a.sign != b.sign)

/-- Comparison of two values that are not NaN: less, with −0 equal to +0. -/
def Val.lt (a b : Val) : Bool :=
  match a, b with
  | .fin n m e, .fin n' m' e' =>
    let k := min e e'
    decide (Val.countAt (.fin n m e) k < Val.countAt (.fin n' m' e') k)
  | .inf n, .inf n' => n && !n'
  | .inf n, .fin _ _ _ => n
  | .fin _ _ _, .inf n => !n
  | _, _ => false

/-- |a| < |b| for values that are not NaN. -/
def Val.magLt (a b : Val) : Bool := Val.lt a.abs b.abs

/-! ### Rounding -/

/-- How a conversion rounds (R60, R61): to nearest with ties to even, or stochastically with the element's `rnd`. -/
inductive Round where
  | nearest
  | stochastic (rnd : Nat)
  deriving DecidableEq, Repr

/-- Whether the kept significand `k` is incremented when the low `d` bits of `m` are dropped (R60, R61). -/
def roundUp (r : Round) (k m d : Nat) : Bool :=
  match r with
  | .nearest =>
    let g := m.testBit (d - 1)
    let s := m % 2 ^ (d - 1) != 0
    g && (s || k % 2 == 1)
  | .stochastic rnd =>
    let dropped := m % 2 ^ d
    let d16 := if 16 ≤ d then dropped >>> (d - 16) else dropped <<< (16 - d)
    decide (65536 ≤ d16 + rnd)

/-- The significand of `m · 2^e` rounded to a multiple of 2^q: the count of 2^q. -/
def roundTo (r : Round) (m : Nat) (e q : Int) : Nat :=
  if q ≤ e then m <<< (e - q).toNat
  else
    let d := (q - e).toNat
    let k := m >>> d
    if roundUp r k m d then k + 1 else k

/-- The exponent of the last kept bit of a value: `p` significand bits, none below 2^sub. -/
def quantum (m : Nat) (e : Int) (p : Nat) (sub : Int) : Int :=
  max ((Nat.log2 m : Nat) + e - (p - 1 : Nat)) sub

/-- Truncation of a magnitude toward zero to a multiple of 2^q (R79, R80): the count of 2^q. -/
def truncTo (m : Nat) (e q : Int) : Nat :=
  if q ≤ e then m <<< (e - q).toNat else m >>> (q - e).toNat

/-! ### W38 accumulators -/

/-- A W38 word of a value that R84 has rounded (R83). -/
def w38Encode : Val → Nat
  | .fin n m e =>
    if m = 0 then 0
    else
      let t := (Nat.log2 m : Nat) + e
      let mag := truncTo m e (t - 26)
      (t + 511).toNat * 2 ^ 28 + b2n n * 2 ^ 27 + mag
  | .inf n => 0x3FF * 2 ^ 28 + b2n n * 2 ^ 27
  | .nan n => 0x3FF * 2 ^ 28 + b2n n * 2 ^ 27 + 0x4000000

/-- The value of a W38 word (R83). -/
def w38Decode (w : Nat) : Val :=
  let ex := bits w 37 28
  let mag := bits w 26 0
  if ex = 0 then .fin false 0 0
  else if ex = 0x3FF then (if mag = 0 then .inf (bit w 27) else .nan (bit w 27))
  else .fin (bit w 27) mag ((ex : Int) - 511 - 26)

/-- One rounding to a 27-bit significand (R84); W38 never overflows (R85). -/
def w38Round (r : Round) : Val → Val
  | .fin n m e =>
    if m = 0 then .fin false 0 0
    else
      let q := (Nat.log2 m : Nat) + e - 26
      .fin n (roundTo r m e q) q
  | v => v

/-- An addition into a W38 entry (R84). -/
def w38Add (r : Round) (w : Nat) (v : Val) : Nat := w38Encode (w38Round r (Val.add (w38Decode w) v))

/-! ### The element formats (R44 to R49) -/

/-- Parameters of a floating format: exponent bits, mantissa bits, bias (R45). -/
structure FloatFmt where
  eb : Nat
  mb : Nat
  bias : Nat
  deriving DecidableEq, Repr

/-- The floating format of a code, P16x2 counting as the P16 of its halves (R44, R45). -/
def floatFmt : Nat → FloatFmt
  | 0x0 => ⟨2, 1, 1⟩
  | 0x1 => ⟨4, 3, 7⟩
  | 0x2 => ⟨5, 2, 15⟩
  | 0x3 => ⟨8, 7, 127⟩
  | 0x4 => ⟨5, 10, 15⟩
  | 0x5 => ⟨8, 7, 127⟩
  | _ => ⟨8, 23, 127⟩

/-- Whether a format has infinities (R46). -/
def hasInf (f : Nat) : Bool := f == 2 || f == 3 || f == 4 || f == 5 || f == 6

/-- Element width in bits (R44); P16x2 counts both halves. -/
def elemBits : Nat → Nat
  | 0x0 => 4 | 0x1 => 8 | 0x2 => 8 | 0x3 => 16 | 0x4 => 16 | 0x5 => 32 | 0x6 => 32
  | 0x7 => 4 | 0x8 => 8 | 0x9 => 1 | 0xA => 2 | 0xB => 3 | _ => 8

/-- Exponent of the smallest subnormal of a floating format (R45). -/
def FloatFmt.sub (f : FloatFmt) : Int := 1 - (f.bias : Int) - (f.mb : Int)

/-- The largest finite magnitude of a format, 7 or 127 for the integers (R45, R54). -/
def maxFin : Nat → Val
  | 0x0 => .fin false 6 0
  | 0x1 => .fin false 448 0
  | 0x2 => .fin false 57344 0
  | 0x3 => .fin false 255 120
  | 0x4 => .fin false 65504 0
  | 0x5 => .fin false 255 120
  | 0x6 => .fin false (2 ^ 24 - 1) 104
  | 0x7 => .fin false 7 0
  | _ => .fin false 127 0

/-- The canonical NaN code of a floating format (R46). -/
def nanCode (f : Nat) (neg : Bool) : Nat :=
  match f with
  | 0x0 => 8
  | 0x1 => 0x7F + b2n neg * 0x80
  | 0x2 => 0x7E + b2n neg * 0x80
  | 0x3 => 0x7FC0 + b2n neg * 0x8000
  | 0x4 => 0x7E00 + b2n neg * 0x8000
  | 0x5 => 0x7FC0 + b2n neg * 0x8000
  | _ => 0x7FC00000 + b2n neg * 0x80000000

/-- The code of an infinity in a format that has one (R46). -/
def infCode (f : Nat) (neg : Bool) : Nat :=
  let g := floatFmt f
  (2 ^ g.eb - 1) * 2 ^ g.mb + b2n neg * 2 ^ (g.eb + g.mb)

/-- The value of a floating code of one field (R45 to R47). -/
def decodeFloat (f c : Nat) : Val :=
  let g := floatFmt f
  let w := g.eb + g.mb
  let neg := bit c w
  let e := bits c (w - 1) g.mb
  let m := c % 2 ^ g.mb
  if f = 0 then
    if c % 16 = 8 then .nan true
    else if e = 0 then .fin neg m (-1) else .fin neg (2 + m) ((e : Int) - 2)
  else if f = 1 then
    if c % 128 = 127 then .nan neg
    else if e = 0 then .fin neg m g.sub else .fin neg (2 ^ g.mb + m) (g.sub + e - 1)
  else if e = 2 ^ g.eb - 1 then (if m = 0 then .inf neg else .nan neg)
  else if e = 0 then .fin neg m g.sub
  else .fin neg (2 ^ g.mb + m) (g.sub + e - 1)

/-- A two's complement code as a value. -/
def ofInt (i : Int) : Val := .fin (i < 0) i.natAbs 0

/-- The value of an element code: R47, R49, R71, or the codebook's entry for L2 and L3. -/
def decodeElem (f : Nat) (book : List Nat) (c : Nat) : Val :=
  match f with
  | 0x5 =>
    let hi := decodeFloat 3 (c % 65536)
    match hi with
    | .fin n m e =>
      match decodeFloat 3 (c / 65536 % 65536) with
      | .fin n' m' e' => Val.add (.fin n m e) (.fin n' m' e')
      | v => v
    | v => v
  | 0x7 => ofInt (sx 4 c)
  | 0x8 => ofInt (sx 8 c)
  | 0x9 => if bit c 0 then .fin true 1 0 else .fin false 1 0
  | 0xA => decodeFloat 3 ((book[c % 4]?).getD 0)
  | 0xB => decodeFloat 3 ((book[c % 8]?).getD 0)
  | f => decodeFloat f c

/-- The sign bit of an element's own code, for a block whose scale is 0xFF (R52). -/
def codeSign (f c : Nat) : Bool := bit c (elemBits f - 1)

/-! ### Conversion (R63 to R70) -/

/-- A converted element: its code, and whether it counts a saturation or a flush. -/
structure Cv where
  code : Nat
  sat : Nat
  flush : Nat
  deriving DecidableEq, Repr

/-- The code of a finite value rounded into a floating format that it does not exceed (R60, R61, R64). A zero source keeps its
sign where the format has −0, which R64 states for values that flush only (DESIGN CHOICE, log 138). -/
def encodeFin (f : Nat) (r : Round) (n : Bool) (m : Nat) (e : Int) : Cv :=
  let g := floatFmt f
  let s := b2n n * 2 ^ (g.eb + g.mb)
  if m = 0 then ⟨if f = 0 then 0 else s, 0, 0⟩
  else
    let q := quantum m e (g.mb + 1) g.sub
    let k := roundTo r m e q
    if k = 0 then ⟨if f = 0 then 0 else s, 0, 1⟩
    else ⟨s + (q - g.sub).toNat * 2 ^ g.mb + k, 0, 0⟩

/-- Conversion of a magnitude above M into F32 (R63): ±M or infinity. -/
def f32Over (r : Round) (n : Bool) (m : Nat) (e : Int) : Nat :=
  let s := b2n n * 2 ^ 31
  let isInf :=
    match r with
    | .nearest => !(Val.lt (.fin false m e) (.fin false (2 ^ 25 - 1) 103))
    | .stochastic _ =>
      !(Val.lt (.fin false m e) (.fin false 1 128)) || decide (2 ^ 24 ≤ roundTo r m e 104)
  if isInf then s + 0x7F800000 else s + 0x7F7FFFFF

/-- Conversion of a scaled value into a floating format of one field. -/
def toFloat (f : Nat) (r : Round) : Val → Cv
  | .nan n => ⟨nanCode f n, 0, 0⟩
  | .inf n => if hasInf f then ⟨infCode f n, 0, 0⟩ else ⟨nanCode f n, 0, 0⟩
  | .fin n m e =>
    if Val.lt (maxFin f) (.fin false m e) then
      if f = 6 then ⟨f32Over r n m e, 1, 0⟩
      else ⟨(encodeFin f .nearest n (match maxFin f with | .fin _ a _ => a | _ => 0)
        (match maxFin f with | .fin _ _ b => b | _ => 0)).code, 1, 0⟩
    else encodeFin f r n m e

/-- Conversion into a compensated pair (R67, R70). -/
def toPair (v : Val) : Cv :=
  let hi := toFloat 3 .nearest v
  match v with
  | .fin _ _ _ =>
    if hi.sat = 1 then hi
    else
      let lo := toFloat 3 .nearest (Val.add v (decodeFloat 3 hi.code).neg)
      ⟨hi.code + lo.code * 65536, 0, hi.flush⟩
  | _ => hi

/-- Conversion into an integer format of `w` bits (R63, R64, R67). -/
def toInt (w : Nat) (r : Round) : Val → Cv
  | .nan _ => ⟨0, 1, 0⟩
  | .inf n => ⟨if n then 2 ^ (w - 1) else 2 ^ (w - 1) - 1, 1, 0⟩
  | .fin n m e =>
    if !n && Val.lt (.fin false (2 ^ (w - 1) - 1) 0) (.fin false m e) then ⟨2 ^ (w - 1) - 1, 1, 0⟩
    else if n && Val.lt (.fin false (2 ^ (w - 1)) 0) (.fin false m e) then ⟨2 ^ (w - 1), 1, 0⟩
    else
      let k := roundTo r m e 0
      ⟨if n then (2 ^ w - k) % 2 ^ w else k, 0, if m ≠ 0 && k == 0 then 1 else 0⟩

/-- Conversion into B1 (R67, R68). -/
def toB1 : Val → Cv
  | .nan _ => ⟨0, 1, 0⟩
  | .inf n => ⟨b2n n, 0, 0⟩
  | .fin n m _ => ⟨if n && m != 0 then 1 else 0, 0, 0⟩

/-- The index of the entry nearest `v`, the lower index on a tie (R68). -/
def nearestEntry (v : Val) : List Nat → Nat → Nat → Val → Nat
  | [], _, best, _ => best
  | c :: cs, i, best, d =>
    let d' := (Val.add v (decodeFloat 3 c).neg).abs
    if Val.lt d' d then nearestEntry v cs (i + 1) i d' else nearestEntry v cs (i + 1) best d

/-- Conversion into L2 or L3 (R67, R68); an infinity takes the entry nearest to the largest magnitude of its sign (DESIGN CHOICE,
log 169). -/
def toIndex (book : List Nat) : Val → Cv
  | .nan _ => ⟨0, 1, 0⟩
  | .inf n =>
    let far := .fin n 1 200
    ⟨nearestEntry far book 0 0 (.inf false), 1, 0⟩
  | .fin n m e =>
    let v := .fin n m e
    let i := nearestEntry v book 0 0 (.inf false)
    let above := book.all (fun c => Val.magLt (decodeFloat 3 c) v)
    ⟨i, if above then 1 else 0, if m ≠ 0 && (decodeFloat 3 ((book[i]?).getD 0)).isZero then 1 else 0⟩

/-- Conversion of a scaled value into format `f` (R66, R67). -/
def convert (f : Nat) (book : List Nat) (r : Round) (v : Val) : Cv :=
  match f with
  | 0x5 => toPair v
  | 0x7 => toInt 4 r v
  | 0x8 => toInt 8 r v
  | 0x9 => toB1 v
  | 0xA => toIndex (book.take 4) v
  | 0xB => toIndex book v
  | f => toFloat f r v

/-- The block scale of a block whose scaled elements are `ws` (R54). -/
def blockScale (f : Nat) (ws : List Val) : Nat :=
  let a := ws.foldl (fun a w =>
    match w with
    | .fin _ _ _ => if Val.magLt a w then w.abs else a
    | _ => a) (Val.zero false)
  if a.isZero then 0x7F
  else
    let mx := maxFin f
    let k := a.top - mx.top
    let k := if Val.lt mx (a.scale (-k)) then k + 1 else k
    Nat.min 254 (127 + k).toNat

/-! ### F32 operations of the vector engine (R172) -/

/-- A value rounded to F32, to nearest with ties to even. -/
def f32 (v : Val) : Val := decodeFloat 6 (toFloat 6 .nearest v).code

/-- An inexact magnitude given by its first bits: a sticky bit below them stands for the rest. -/
def sticky (n : Bool) (q : Nat) (rest : Bool) (e : Int) : Val := .fin n (2 * q + b2n rest) (e - 1)

/-- The quotient of two finite values, correct to one rounding in F32. -/
def divVal (n : Bool) (m : Nat) (e : Int) (m' : Nat) (e' : Int) : Val :=
  let sh := 64 + Nat.log2 m'
  let a := m <<< sh
  sticky n (a / m') (a % m' != 0) (e - e' - sh)

/-- A / B under IEEE 754. -/
def Val.div (a b : Val) : Val :=
  match a, b with
  | .nan _, _ => nanOf a b
  | _, .nan _ => nanOf a b
  | .inf n, .inf _ => if n then .nan false else .nan false
  | .inf n, b => .inf (n != b.sign)
  | a, .inf n => .zero (a.sign != n)
  | .fin n m e, .fin n' m' e' =>
    if m' = 0 then (if m = 0 then .nan false else .inf (n != n'))
    else if m = 0 then .zero (n != n') else divVal (n != n') m e m' e'

/-- Bits of an integer square root by the digit method: root of `x` with `k` result bits left. -/
def isqrtAux (x : Nat) : Nat → Nat → Nat
  | 0, r => r
  | k + 1, r =>
    let t := r + 2 ^ k
    if t * t ≤ x then isqrtAux x k t else isqrtAux x k r

/-- The integer square root. -/
def isqrt (x : Nat) : Nat := isqrtAux x (Nat.log2 x / 2 + 1) 0

/-- √v for a value that is not NaN, with enough bits for one rounding in F32. -/
def Val.sqrt : Val → Val
  | .nan n => .nan n
  | .inf n => if n then .nan false else .inf false
  | .fin n m e =>
    if m = 0 then .zero n
    else if n then .nan false
    else
      let odd := e % 2
      let x := m <<< (128 + odd.toNat)
      let r := isqrt x
      sticky false r (r * r != x) ((e - odd) / 2 - 64)

/-- 1/√v. -/
def Val.rsqrt : Val → Val
  | .nan n => .nan n
  | .inf n => if n then .nan false else .zero false
  | .fin n m e =>
    if m = 0 then .inf n
    else if n then .nan false
    else
      -- 1/√(m·2^e): the root of 2^(2s)/m, s large enough for 64 result bits
      let odd := e % 2
      let m' := m <<< odd.toNat
      let sh := 2 * (96 + Nat.log2 m')
      let x := (1 <<< sh) / m'
      let r := isqrt x
      sticky false r (r * r * m' != 1 <<< sh) (-(e - odd) / 2 - (sh / 2 : Nat))

/-! ### Transcendental functions in fixed point

Numbers are integer counts of 2^-512. The results are cut off below 2^-400, which is far below the distance of any of
these results from a tie of F32; so one rounding of them gives the correctly rounded F32 value. -/

/-- Fraction bits of the fixed point. -/
def fpBits : Nat := 512

/-- 1 in the fixed point. -/
def fpOne : Int := (2 ^ 512 : Nat)

def fpMul (a b : Int) : Int := (a * b) / fpOne

def fpDiv (a b : Int) : Int := (a * fpOne) / b

/-- A finite value in the fixed point, cut off below. -/
def fpOf : Val → Int
  | .fin n m e =>
    let k := e + 512
    let x : Int := if 0 ≤ k then (m <<< k.toNat : Nat) else (m >>> (-k).toNat : Nat)
    if n then -x else x
  | _ => 0

/-- A fixed-point number as a value with a sticky bit. -/
def fpVal (x : Int) : Val := sticky (x < 0) x.natAbs true (-512)

/-- Σ t with t_k = t_{k-1} · x · num / den_k. -/
def fpSeries (x : Int) (den : Nat → Int) : Nat → Nat → Int → Int → Int
  | 0, _, _, acc => acc
  | n + 1, k, t, acc =>
    let t' := fpMul t x / den k
    fpSeries x den n (k + 1) t' (acc + t')

/-- atanh of a small number: x + x³/3 + x⁵/5 + …. -/
def fpAtanhAux (x2 : Int) : Nat → Nat → Int → Int → Int
  | 0, _, _, acc => acc
  | n + 1, k, p, acc =>
    let p' := fpMul p x2
    fpAtanhAux x2 n (k + 1) p' (acc + p' / (2 * (k : Int) + 1))

/-- atanh in fixed point, by its series (DEDUCED, log 20). -/
def fpAtanh (x : Int) : Int := fpAtanhAux (fpMul x x) 180 1 x x

/-- ln 2 = 2 atanh(1/3). -/
def fpLn2 : Int := 2 * fpAtanh (fpOne / 3)

/-- e^x for |x| < 1. -/
def fpExpSmall (x : Int) : Int := fpSeries x (fun k => (k : Int)) 120 1 fpOne fpOne

/-- e^x as (significand in the fixed point, power of two) (DEDUCED, log 20). -/
def fpExp (x : Int) : Int × Int :=
  let n := x / fpLn2
  (fpExpSmall (x - n * fpLn2), n)

/-- atan of 1/k, for π by Machin's formula. -/
def fpAtanInvAux (k2 : Int) : Nat → Nat → Int → Int → Int
  | 0, _, _, acc => acc
  | n + 1, i, p, acc =>
    let p' := p / k2
    let t := p' / (2 * (i : Int) + 1)
    fpAtanInvAux k2 n (i + 1) p' (if i % 2 = 1 then acc - t else acc + t)

def fpAtanInv (k : Int) : Int := fpAtanInvAux (k * k) 130 1 (fpOne / k) (fpOne / k)

def fpPi : Int := 4 * (4 * fpAtanInv 5 - fpAtanInv 239)

/-- Square root in the fixed point of a number that is not negative. -/
def fpSqrt (x : Int) : Int := (isqrt (x.toNat * 2 ^ 512) : Nat)

/-- Σ 2^n z^(2n+1) / (2n+1)!!, with z2 = 2·z² (DEDUCED, log 20). -/
def fpErfAux (z2 : Int) : Nat → Nat → Int → Int → Int
  | 0, _, _, acc => acc
  | n + 1, k, t, acc =>
    let t' := fpMul t z2 / (2 * (k : Int) + 1)
    fpErfAux z2 n (k + 1) t' (acc + t')

/-- Φ(x) = ½ + x · e^(−x²/2) · Σ x^(2n)/(2n+1)!! / √(2π) (DEDUCED, log 20). -/
def fpPhi (x : Int) : Int :=
  let x2 := fpMul x x
  let (m, n) := fpExp (-(x2 / 2))
  let ex := if 0 ≤ n then m * (2 ^ n.toNat : Nat) else m / (2 ^ (-n).toNat : Nat)
  let sum := fpErfAux x2 700 1 fpOne fpOne
  fpOne / 2 + fpDiv (fpMul (fpMul x ex) sum) (fpSqrt (2 * fpPi))

/-- |v| is at least 2^k. -/
def Val.atLeast (v : Val) (k : Int) : Bool := !(Val.magLt v (.fin false 1 k))

/-- e^v of a value that is not NaN. -/
def Val.exp : Val → Val
  | .nan n => .nan n
  | .inf n => if n then .zero false else .inf false
  | v =>
    if v.isZero then .fin false 1 0
    else if v.atLeast 9 then (if v.sign then .fin false 1 (-400) else .fin false 1 400)
    else
      let (m, n) := fpExp (fpOf v)
      (fpVal m).scale n

/-- ln v. -/
def Val.log : Val → Val
  | .nan n => .nan n
  | .inf n => if n then .nan false else .inf false
  | .fin n m e =>
    if m = 0 then .inf true
    else if n then .nan false
    else
      let l := Nat.log2 m
      if m = 2 ^ l && e + l = 0 then .zero false
      else
        let x := fpOf (.fin false m (-(l : Int)))
        fpVal (2 * fpAtanh (fpDiv (x - fpOne) (x + fpOne)) + (e + l) * fpLn2)

/-- 1 / (1 + e^−v) of a finite value below 2^9 in magnitude, in the fixed point with a power of two. -/
def fpSigmoid (v : Val) : Val :=
  if v.sign then
    -- e^v / (1 + e^v)
    let (m, n) := fpExp (fpOf v)
    let ex := if 0 ≤ n then m * (2 ^ n.toNat : Nat) else m / (2 ^ (-n).toNat : Nat)
    (fpVal (fpDiv m (fpOne + ex))).scale n
  else
    let (m, n) := fpExp (-(fpOf v))
    let ex := if 0 ≤ n then m * (2 ^ n.toNat : Nat) else m / (2 ^ (-n).toNat : Nat)
    fpVal (fpDiv fpOne (fpOne + ex))

/-- The logistic function; its limits at ±infinity are 1 and +0. -/
def Val.sigmoid : Val → Val
  | .nan n => .nan n
  | .inf n => if n then .zero false else .fin false 1 0
  | v =>
    if v.isZero then .fin false 1 (-1)
    else if v.atLeast 9 then (if v.sign then .fin false 1 (-400) else .fin false 1 0)
    else fpSigmoid v

/-- v · sigmoid(v); −0 at −infinity. -/
def Val.silu : Val → Val
  | .nan n => .nan n
  | .inf n => if n then .zero true else .inf false
  | v => if v.isZero then v else Val.mul v v.sigmoid

/-- v · Φ(v); −0 at −infinity. -/
def Val.gelu : Val → Val
  | .nan n => .nan n
  | .inf n => if n then .zero true else .inf false
  | v =>
    if v.isZero then v
    else if v.atLeast 4 then (if v.sign then .fin true 1 (-400) else v)
    else Val.mul v (fpVal (fpPhi (fpOf v)))

/-- The hyperbolic tangent. -/
def Val.tanh : Val → Val
  | .nan n => .nan n
  | .inf n => .fin n 1 0
  | v =>
    if v.isZero then v
    else if v.atLeast 6 then .fin v.sign 1 0
    else if !(v.atLeast (-100)) then v
    else
      let (m, n) := fpExp (2 * fpOf v)
      let ex := if 0 ≤ n then m * (2 ^ n.toNat : Nat) else m / (2 ^ (-n).toNat : Nat)
      fpVal (fpDiv (ex - fpOne) (ex + fpOne))

/-- MAX of R172: −0 below +0, NaN when either is NaN. -/
def Val.max (a b : Val) : Val :=
  if a.isNan || b.isNan then nanOf a b
  else if Val.lt a b then b else if Val.lt b a then a else if a.sign then b else a

/-- MIN of R172. -/
def Val.min (a b : Val) : Val :=
  if a.isNan || b.isNan then nanOf a b
  else if Val.lt a b then a else if Val.lt b a then b else if a.sign then a else b

/-- The function of VEC_MAP1 with code `c` (table Vector functions); none for a code not listed. A NaN keeps its sign in every
function but ABS (R52, R172) (DEDUCED, log 20). -/
def map1 (c : Nat) (x : Val) : Option Val :=
  match c with
  | 0 => some x
  | 1 => some (if x.isNan then x else x.neg)
  | 2 => some x.abs
  | 3 => some x.exp
  | 4 => some x.log
  | 5 => some (Val.div (.fin false 1 0) x)
  | 6 => some x.sqrt
  | 7 => some x.rsqrt
  | 8 => some x.tanh
  | 9 => some x.sigmoid
  | 10 => some x.silu
  | 11 => some x.gelu
  | 12 => some (if x.isNan then x else if !x.sign && !x.isZero then x else .zero false)
  | 13 => some (Val.mul x x)
  | _ => none

/-- The function of VEC_MAP2 with code `c` (R172). -/
def map2 (c : Nat) (a b : Val) : Option Val :=
  match c with
  | 0 => some (Val.add a b)
  | 1 => some (Val.sub a b)
  | 2 => some (Val.mul a b)
  | 3 => some (Val.div a b)
  | 4 => some (Val.max a b)
  | 5 => some (Val.min a b)
  | _ => none

end Sys2Proof
end

