-- ==== Sys2Proof/Machine/RegTab.lean ====
section
/-! DEFINITION. The register tables of the spec: every register's offset, every field's place, and for each page
the reset word and the access masks of its registers (R2, R528, R533 and the register tables of each chapter). -/

namespace Sys2Proof.Machine

/-- The block types of the table Block types (R528). -/
inductive PageKind where
  | chase
  | galley
  | forme
  | dieTop
  | hydro
  | gov
  | taster
  | tier
  | stream
  | mapping
  | hbm
  | port
  | trace
  | monitor
  | power
  | reset
  | pcie
  | muzomus
  | cellar
  | bulk
  | routing
  deriving DecidableEq, Repr

/-- The type code of PAGE_ID (R528, table Block types). -/
def PageKind.code : PageKind → Nat
  | .chase => 0x01
  | .galley => 0x02
  | .forme => 0x03
  | .dieTop => 0x04
  | .hydro => 0x05
  | .gov => 0x06
  | .taster => 0x07
  | .tier => 0x08
  | .stream => 0x09
  | .mapping => 0x0A
  | .hbm => 0x0B
  | .port => 0x0C
  | .trace => 0x0D
  | .monitor => 0x0E
  | .power => 0x0F
  | .reset => 0x10
  | .pcie => 0x11
  | .muzomus => 0x12
  | .cellar => 0x13
  | .bulk => 0x14
  | .routing => 0x15

/-- A field of a register: the register's offset in its page, the field's highest and lowest bit. -/
structure Fld where
  off : Nat
  hi : Nat
  lo : Nat
  deriving DecidableEq, Repr

/-- A register's row: its offset, its reset word, and the masks of its RW, W1C and W1S bits (R2). -/
structure RegRow where
  off : Nat
  reset : Nat
  rw : Nat
  w1c : Nat
  w1s : Nat
  deriving DecidableEq, Repr

/-- CHS_PATH (Chase page, R35). -/
def Reg.CHS_PATH : Nat := 0x80
/-- GLY_DISPATCH (Galley page, R36). -/
def Reg.GLY_DISPATCH : Nat := 0x80
/-- GLY_REPAIR (Galley page, R36). -/
def Reg.GLY_REPAIR : Nat := 0x84
/-- DIE_BRG_STATUS (die top page, R43). -/
def Reg.DIE_BRG_STATUS : Nat := 0x84
/-- DIE_SLOT_BASE_LO (die top page, R59). -/
def Reg.DIE_SLOT_BASE_LO : Nat := 0x88
/-- DIE_SLOT_BASE_HI (die top page, R59). -/
def Reg.DIE_SLOT_BASE_HI : Nat := 0x8C
/-- CHS_ARR_CFG (Chase page, R104). -/
def Reg.CHS_ARR_CFG : Nat := 0xA0
/-- CHS_ARR_STATUS (Chase page, R105). -/
def Reg.CHS_ARR_STATUS : Nat := 0xA4
/-- CHS_MF_STATUS (Chase page, R126). -/
def Reg.CHS_MF_STATUS : Nat := 0xA8
/-- CHS_BSR_IDLE (Chase page, R126). -/
def Reg.CHS_BSR_IDLE : Nat := 0xAC
/-- CHS_BSR_BUNDLES (Chase page, R126). -/
def Reg.CHS_BSR_BUNDLES : Nat := 0xB0
/-- GLY_LUT_CFG (Galley page, R127). -/
def Reg.GLY_LUT_CFG : Nat := 0x88
/-- GLY_LUT_STATUS (Galley page, R127). -/
def Reg.GLY_LUT_STATUS : Nat := 0x8C
/-- CHS_CORE_CTRL (Chase page, R538). -/
def Reg.CHS_CORE_CTRL : Nat := 0x100
/-- CHS_CORE_STATUS (Chase page, R538). -/
def Reg.CHS_CORE_STATUS : Nat := 0x104
/-- CHS_CORE_MODE (Chase page, R538). -/
def Reg.CHS_CORE_MODE : Nat := 0x108
/-- CHS_CORE_PC (Chase page, R538). -/
def Reg.CHS_CORE_PC : Nat := 0x10C
/-- CHS_CORE_JOB (Chase page, R538). -/
def Reg.CHS_CORE_JOB : Nat := 0x110
/-- CHS_TRAP_CAUSE (Chase page, R538). -/
def Reg.CHS_TRAP_CAUSE : Nat := 0x114
/-- CHS_TRAP_PC (Chase page, R538). -/
def Reg.CHS_TRAP_PC : Nat := 0x118
/-- CHS_TRAP_VEC (Chase page, R538). -/
def Reg.CHS_TRAP_VEC : Nat := 0x11C
/-- CHS_WDOG (Chase page, R538). -/
def Reg.CHS_WDOG : Nat := 0x120
/-- CHS_MEM_ADDR (Chase page, R538). -/
def Reg.CHS_MEM_ADDR : Nat := 0x124
/-- CHS_MEM_DATA (Chase page, R538). -/
def Reg.CHS_MEM_DATA : Nat := 0x128
/-- CHS_LOAD_SRC_LO (Chase page, R538). -/
def Reg.CHS_LOAD_SRC_LO : Nat := 0x12C
/-- CHS_LOAD_SRC_HI (Chase page, R538). -/
def Reg.CHS_LOAD_SRC_HI : Nat := 0x130
/-- CHS_BREAK (Chase page, R538). -/
def Reg.CHS_BREAK : Nat := 0x134
/-- CHS_CORE_WAIT (Chase page, R538). -/
def Reg.CHS_CORE_WAIT : Nat := 0x138
/-- CHS_CORE_WAITSEQ (Chase page, R538). -/
def Reg.CHS_CORE_WAITSEQ : Nat := 0x13C
/-- CHS_CRED0 to CHS_CRED15 (Chase page, R538). -/
def Reg.CHS_CRED0 : Nat := 0x140
/-- DIE_DESC_BASE_LO (die top page, R178). -/
def Reg.DIE_DESC_BASE_LO : Nat := 0x90
/-- DIE_DESC_BASE_HI (die top page, R178). -/
def Reg.DIE_DESC_BASE_HI : Nat := 0x94
/-- DIE_DESC_LIMIT (die top page, R178). -/
def Reg.DIE_DESC_LIMIT : Nat := 0x98
/-- HYD_RING_BASE_LO (Hydrometer page, R210). -/
def Reg.HYD_RING_BASE_LO : Nat := 0x80
/-- HYD_RING_BASE_HI (Hydrometer page, R210). -/
def Reg.HYD_RING_BASE_HI : Nat := 0x84
/-- HYD_RING_CFG (Hydrometer page, R210). -/
def Reg.HYD_RING_CFG : Nat := 0x88
/-- HYD_RING_WR (Hydrometer page, R210). -/
def Reg.HYD_RING_WR : Nat := 0x8C
/-- HYD_RING_RD (Hydrometer page, R210). -/
def Reg.HYD_RING_RD : Nat := 0x90
/-- HYD_HOLD (Hydrometer page, R210). -/
def Reg.HYD_HOLD : Nat := 0x94
/-- CHS_HYD_STATUS (Chase page, R211). -/
def Reg.CHS_HYD_STATUS : Nat := 0xB4
/-- PTG_CTRL (point governor page, R212). -/
def Reg.PTG_CTRL : Nat := 0x80
/-- PTG_STATUS (point governor page, R212). -/
def Reg.PTG_STATUS : Nat := 0x84
/-- PTG_STEP (point governor page, R212). -/
def Reg.PTG_STEP : Nat := 0x88
/-- PTG_BOUND_TICKS (point governor page, R212). -/
def Reg.PTG_BOUND_TICKS : Nat := 0x8C
/-- PTG_CHANGES (point governor page, R212). -/
def Reg.PTG_CHANGES : Nat := 0x90
/-- PTG_BIND_BASE_LO (point governor page, R212). -/
def Reg.PTG_BIND_BASE_LO : Nat := 0x94
/-- PTG_BIND_BASE_HI (point governor page, R212). -/
def Reg.PTG_BIND_BASE_HI : Nat := 0x98
/-- PTG_RECIPE (point governor page, R212). -/
def Reg.PTG_RECIPE : Nat := 0x9C
/-- PTG_ENT_IDX (point governor page, R212). -/
def Reg.PTG_ENT_IDX : Nat := 0xA0
/-- PTG_ENT_DATA0 to PTG_ENT_DATA7 (point governor page, R212). -/
def Reg.PTG_ENT_DATA0 : Nat := 0xA4
/-- PTG_ENT_CMD (point governor page, R212). -/
def Reg.PTG_ENT_CMD : Nat := 0xC4
/-- PTG_GANG_TO (point governor page, R212). -/
def Reg.PTG_GANG_TO : Nat := 0xC8
/-- PTG_STALE (point governor page, R212). -/
def Reg.PTG_STALE : Nat := 0xCC
/-- PTG_GANG_PEER0 to PTG_GANG_PEER6 (point governor page, R212). -/
def Reg.PTG_GANG_PEER0 : Nat := 0xD0
/-- PTG_NUM_CTRL (point governor page, R235). -/
def Reg.PTG_NUM_CTRL : Nat := 0x100
/-- PTG_LSCALE (point governor page, R235). -/
def Reg.PTG_LSCALE : Nat := 0x104
/-- PTG_LS_GROW (point governor page, R235). -/
def Reg.PTG_LS_GROW : Nat := 0x108
/-- PTG_LS_SLOT (point governor page, R235). -/
def Reg.PTG_LS_SLOT : Nat := 0x10C
/-- PTG_VERDICT (point governor page, R235). -/
def Reg.PTG_VERDICT : Nat := 0x110
/-- PTG_NUM_STATUS (point governor page, R235). -/
def Reg.PTG_NUM_STATUS : Nat := 0x114
/-- PTG_OVF_COUNT (point governor page, R235). -/
def Reg.PTG_OVF_COUNT : Nat := 0x118
/-- PTG_EXHAUSTED (point governor page, R235). -/
def Reg.PTG_EXHAUSTED : Nat := 0x11C
/-- PTG_SEED_IDX (point governor page, R235). -/
def Reg.PTG_SEED_IDX : Nat := 0x120
/-- PTG_SEED_LO (point governor page, R235). -/
def Reg.PTG_SEED_LO : Nat := 0x124
/-- PTG_SEED_HI (point governor page, R235). -/
def Reg.PTG_SEED_HI : Nat := 0x128
/-- PTG_SEED_CMD (point governor page, R235). -/
def Reg.PTG_SEED_CMD : Nat := 0x12C
/-- TST_CTRL (Taster page, R237). -/
def Reg.TST_CTRL : Nat := 0x80
/-- TST_STATUS (Taster page, R237). -/
def Reg.TST_STATUS : Nat := 0x84
/-- TST_LAST (Taster page, R237). -/
def Reg.TST_LAST : Nat := 0x88
/-- TST_LAST_RATIO (Taster page, R237). -/
def Reg.TST_LAST_RATIO : Nat := 0x8C
/-- TST_JUMPS (Taster page, R237). -/
def Reg.TST_JUMPS : Nat := 0x90
/-- TST_ACT_IDX (Taster page, R237). -/
def Reg.TST_ACT_IDX : Nat := 0x94
/-- TST_ACT_DATA (Taster page, R237). -/
def Reg.TST_ACT_DATA : Nat := 0x98
/-- TST_ENT_IDX (Taster page, R237). -/
def Reg.TST_ENT_IDX : Nat := 0x9C
/-- TST_ENT_DATA0 to TST_ENT_DATA7 (Taster page, R237). -/
def Reg.TST_ENT_DATA0 : Nat := 0xA0
/-- TST_ENT_CMD (Taster page, R237). -/
def Reg.TST_ENT_CMD : Nat := 0xC0
/-- CHS_RECOMP (Chase page, R238). -/
def Reg.CHS_RECOMP : Nat := 0xB8
/-- DIE_FIXED (tier manager page, R266). -/
def Reg.DIE_FIXED : Nat := 0x80
/-- DIE_FMAP_BASE_LO (tier manager page, R266). -/
def Reg.DIE_FMAP_BASE_LO : Nat := 0x84
/-- DIE_FMAP_BASE_HI (tier manager page, R266). -/
def Reg.DIE_FMAP_BASE_HI : Nat := 0x88
/-- DIE_REGION_BASE_LO (tier manager page, R266). -/
def Reg.DIE_REGION_BASE_LO : Nat := 0x8C
/-- DIE_REGION_BASE_HI (tier manager page, R266). -/
def Reg.DIE_REGION_BASE_HI : Nat := 0x90
/-- DIE_REGION_LIMIT (tier manager page, R266). -/
def Reg.DIE_REGION_LIMIT : Nat := 0x94
/-- DIE_TM_CMD (tier manager page, R266). -/
def Reg.DIE_TM_CMD : Nat := 0x98
/-- DIE_TM_STATUS (tier manager page, R266). -/
def Reg.DIE_TM_STATUS : Nat := 0x9C
/-- DIE_TM_WM (tier manager page, R266). -/
def Reg.DIE_TM_WM : Nat := 0xA0
/-- DIE_QUOTA_IDX (tier manager page, R266). -/
def Reg.DIE_QUOTA_IDX : Nat := 0xA4
/-- DIE_QUOTA_DATA0 to DIE_QUOTA_DATA2 (tier manager page, R266). -/
def Reg.DIE_QUOTA_DATA0 : Nat := 0xA8
/-- DIE_QUOTA_DATA3 (tier manager page, R266). -/
def Reg.DIE_QUOTA_DATA3 : Nat := 0xB4
/-- DIE_QUOTA_DATA4 (tier manager page, R266). -/
def Reg.DIE_QUOTA_DATA4 : Nat := 0xB8
/-- DIE_QUOTA_DATA5 (tier manager page, R266). -/
def Reg.DIE_QUOTA_DATA5 : Nat := 0xBC
/-- DIE_QUOTA_CMD (tier manager page, R266). -/
def Reg.DIE_QUOTA_CMD : Nat := 0xC0
/-- DIE_LEASE_IDX (tier manager page, R266). -/
def Reg.DIE_LEASE_IDX : Nat := 0xC4
/-- DIE_LEASE_DATA0 (tier manager page, R266). -/
def Reg.DIE_LEASE_DATA0 : Nat := 0xC8
/-- DIE_LEASE_DATA1 (tier manager page, R266). -/
def Reg.DIE_LEASE_DATA1 : Nat := 0xCC
/-- DIE_LEASE_DATA2 (tier manager page, R266). -/
def Reg.DIE_LEASE_DATA2 : Nat := 0xD0
/-- DIE_LEASE_DATA3 (tier manager page, R266). -/
def Reg.DIE_LEASE_DATA3 : Nat := 0xD4
/-- DIE_LEASE_CMD (tier manager page, R266). -/
def Reg.DIE_LEASE_CMD : Nat := 0xD8
/-- DIE_LEND_CFG (tier manager page, R266). -/
def Reg.DIE_LEND_CFG : Nat := 0xDC
/-- DIE_BULK_SCRUB (tier manager page, R266). -/
def Reg.DIE_BULK_SCRUB : Nat := 0xE0
/-- DIE_BULK_ECC_LAST_LO (tier manager page, R266). -/
def Reg.DIE_BULK_ECC_LAST_LO : Nat := 0xE4
/-- DIE_BULK_ECC_LAST_HI (tier manager page, R266). -/
def Reg.DIE_BULK_ECC_LAST_HI : Nat := 0xE8
/-- HBM_SCRUB (HBM and Tun adder page, R267). -/
def Reg.HBM_SCRUB : Nat := 0x80
/-- HBM_ECC_LAST_LO (HBM and Tun adder page, R267). -/
def Reg.HBM_ECC_LAST_LO : Nat := 0x84
/-- HBM_ECC_LAST_HI (HBM and Tun adder page, R267). -/
def Reg.HBM_ECC_LAST_HI : Nat := 0x88
/-- CHS_TILE_AREA (Chase page, R268). -/
def Reg.CHS_TILE_AREA : Nat := 0xBC
/-- STM_ALLOC (stream page, R293). -/
def Reg.STM_ALLOC : Nat := 0x80
/-- STM_ALLOC_RESULT (stream page, R293). -/
def Reg.STM_ALLOC_RESULT : Nat := 0x84
/-- STM_COUNT (stream page, R293). -/
def Reg.STM_COUNT : Nat := 0x88
/-- STM_WM (stream page, R293). -/
def Reg.STM_WM : Nat := 0x8C
/-- STM_TOK_TO (stream page, R293). -/
def Reg.STM_TOK_TO : Nat := 0x90
/-- STM_CRED_TO (stream page, R293). -/
def Reg.STM_CRED_TO : Nat := 0x94
/-- STM_AGE (stream page, R293). -/
def Reg.STM_AGE : Nat := 0x98
/-- STM_JOB_IDX (stream page, R293). -/
def Reg.STM_JOB_IDX : Nat := 0x9C
/-- STM_JOB_DATA (stream page, R293). -/
def Reg.STM_JOB_DATA : Nat := 0xA0
/-- STM_JOB_COUNT (stream page, R293). -/
def Reg.STM_JOB_COUNT : Nat := 0xA4
/-- STM_JOB_CMD (stream page, R293). -/
def Reg.STM_JOB_CMD : Nat := 0xA8
/-- IZN_PORT_CTRL (Izyen port page, R321). -/
def Reg.IZN_PORT_CTRL : Nat := 0x80
/-- IZN_PORT_STATUS (Izyen port page, R321). -/
def Reg.IZN_PORT_STATUS : Nat := 0x84
/-- IZN_RETRAIN_CFG (Izyen port page, R321). -/
def Reg.IZN_RETRAIN_CFG : Nat := 0x88
/-- IZN_VC_CFG (Izyen port page, R321). -/
def Reg.IZN_VC_CFG : Nat := 0x8C
/-- IZN_LINK_DELAY (Izyen port page, R321). -/
def Reg.IZN_LINK_DELAY : Nat := 0x90
/-- IZN_SELF (Izyen routing page, R322). -/
def Reg.IZN_SELF : Nat := 0x80
/-- IZN_RT_IDX (Izyen routing page, R322). -/
def Reg.IZN_RT_IDX : Nat := 0x84
/-- IZN_RT_DATA (Izyen routing page, R322). -/
def Reg.IZN_RT_DATA : Nat := 0x88
/-- IZN_RT_CMD (Izyen routing page, R322). -/
def Reg.IZN_RT_CMD : Nat := 0x8C
/-- IZN_HOPS (Izyen routing page, R322). -/
def Reg.IZN_HOPS : Nat := 0x90
/-- IZN_E2E_TO (Izyen routing page, R322). -/
def Reg.IZN_E2E_TO : Nat := 0x94
/-- IZN_SYNC_CFG (Izyen routing page, R322). -/
def Reg.IZN_SYNC_CFG : Nat := 0x98
/-- IZN_SYNC_STATUS (Izyen routing page, R322). -/
def Reg.IZN_SYNC_STATUS : Nat := 0x9C
/-- IZN_SYNC_TRIM (Izyen routing page, R322). -/
def Reg.IZN_SYNC_TRIM : Nat := 0xA0
/-- TUN_CTX_IDX (HBM and Tun adder page, R348). -/
def Reg.TUN_CTX_IDX : Nat := 0x100
/-- TUN_CTX_DATA0 (HBM and Tun adder page, R348). -/
def Reg.TUN_CTX_DATA0 : Nat := 0x104
/-- TUN_CTX_DATA1 (HBM and Tun adder page, R348). -/
def Reg.TUN_CTX_DATA1 : Nat := 0x108
/-- TUN_CTX_DATA2 (HBM and Tun adder page, R348). -/
def Reg.TUN_CTX_DATA2 : Nat := 0x10C
/-- TUN_CTX_DATA3 (HBM and Tun adder page, R348). -/
def Reg.TUN_CTX_DATA3 : Nat := 0x110
/-- TUN_CTX_CMD (HBM and Tun adder page, R348). -/
def Reg.TUN_CTX_CMD : Nat := 0x114
/-- TUN_CTX_STATUS (HBM and Tun adder page, R348). -/
def Reg.TUN_CTX_STATUS : Nat := 0x118
/-- TUN_PSET_IDX (HBM and Tun adder page, R348). -/
def Reg.TUN_PSET_IDX : Nat := 0x11C
/-- TUN_PSET_DATA0 to TUN_PSET_DATA7 (HBM and Tun adder page, R348). -/
def Reg.TUN_PSET_DATA0 : Nat := 0x120
/-- TUN_PSET_CMD (HBM and Tun adder page, R348). -/
def Reg.TUN_PSET_CMD : Nat := 0x140
/-- TUN_BAD_CTX (HBM and Tun adder page, R348). -/
def Reg.TUN_BAD_CTX : Nat := 0x144
/-- TUN_BAD_GEN (HBM and Tun adder page, R348). -/
def Reg.TUN_BAD_GEN : Nat := 0x148
/-- TUN_BAD_TILE (HBM and Tun adder page, R348). -/
def Reg.TUN_BAD_TILE : Nat := 0x14C
/-- MAP_ENT_IDX (mapping page, R363). -/
def Reg.MAP_ENT_IDX : Nat := 0x80
/-- MAP_ENT_DATA0 (mapping page, R363). -/
def Reg.MAP_ENT_DATA0 : Nat := 0x84
/-- MAP_ENT_DATA1 (mapping page, R363). -/
def Reg.MAP_ENT_DATA1 : Nat := 0x88
/-- MAP_ENT_DATA2 (mapping page, R363). -/
def Reg.MAP_ENT_DATA2 : Nat := 0x8C
/-- MAP_ENT_DATA3 (mapping page, R363). -/
def Reg.MAP_ENT_DATA3 : Nat := 0x90
/-- MAP_ENT_CMD (mapping page, R363). -/
def Reg.MAP_ENT_CMD : Nat := 0x94
/-- MAP_SHARD_BASE_LO (mapping page, R363). -/
def Reg.MAP_SHARD_BASE_LO : Nat := 0x98
/-- MAP_SHARD_BASE_HI (mapping page, R363). -/
def Reg.MAP_SHARD_BASE_HI : Nat := 0x9C
/-- MAP_SHARD_LIMIT (mapping page, R363). -/
def Reg.MAP_SHARD_LIMIT : Nat := 0xA0
/-- MAP_GREC_BASE_LO (mapping page, R363). -/
def Reg.MAP_GREC_BASE_LO : Nat := 0xA4
/-- MAP_GREC_BASE_HI (mapping page, R363). -/
def Reg.MAP_GREC_BASE_HI : Nat := 0xA8
/-- MAP_STALE_STEP (mapping page, R363). -/
def Reg.MAP_STALE_STEP : Nat := 0xAC
/-- MAP_STALE_COUNT (mapping page, R363). -/
def Reg.MAP_STALE_COUNT : Nat := 0xB0
/-- MAP_REGATHER (mapping page, R363). -/
def Reg.MAP_REGATHER : Nat := 0xB4
/-- MAP_RESV_TOTAL (mapping page, R363). -/
def Reg.MAP_RESV_TOTAL : Nat := 0xB8
/-- CSK_CTRL (Cellar page, R397). -/
def Reg.CSK_CTRL : Nat := 0x80
/-- CSK_STATUS (Cellar page, R397). -/
def Reg.CSK_STATUS : Nat := 0x84
/-- CSK_SERIAL_LO (Cellar page, R397). -/
def Reg.CSK_SERIAL_LO : Nat := 0x88
/-- CSK_SERIAL_HI (Cellar page, R397). -/
def Reg.CSK_SERIAL_HI : Nat := 0x8C
/-- CSK_STEP (Cellar page, R397). -/
def Reg.CSK_STEP : Nat := 0x90
/-- CSK_STOP_T_LO (Cellar page, R397). -/
def Reg.CSK_STOP_T_LO : Nat := 0x94
/-- CSK_STOP_T_HI (Cellar page, R397). -/
def Reg.CSK_STOP_T_HI : Nat := 0x98
/-- CSK_STOP_CFG (Cellar page, R397). -/
def Reg.CSK_STOP_CFG : Nat := 0x9C
/-- CSK_STAGE (Cellar page, R397). -/
def Reg.CSK_STAGE : Nat := 0xA0
/-- CSK_STOPBUF (Cellar page, R397). -/
def Reg.CSK_STOPBUF : Nat := 0xA4
/-- CSK_RISK (Cellar page, R397). -/
def Reg.CSK_RISK : Nat := 0xA8
/-- CSK_RISK_THR (Cellar page, R397). -/
def Reg.CSK_RISK_THR : Nat := 0xAC
/-- CSK_RISK_W0 to CSK_RISK_W3 (Cellar page, R397). -/
def Reg.CSK_RISK_W0 : Nat := 0xB0
/-- CSK_RISK_X0 to CSK_RISK_X3 (Cellar page, R397). -/
def Reg.CSK_RISK_X0 : Nat := 0xC0
/-- CSK_RISK_SW (Cellar page, R397). -/
def Reg.CSK_RISK_SW : Nat := 0xD0
/-- CSK_FLOOR (Cellar page, R397). -/
def Reg.CSK_FLOOR : Nat := 0xD4
/-- CSK_BUDDY (Cellar page, R397). -/
def Reg.CSK_BUDDY : Nat := 0xD8
/-- CSK_FEED (Cellar page, R397). -/
def Reg.CSK_FEED : Nat := 0xDC
/-- CSK_RESTORE (Cellar page, R397). -/
def Reg.CSK_RESTORE : Nat := 0xE0
/-- CSK_PEER_FEED (Cellar page, R397). -/
def Reg.CSK_PEER_FEED : Nat := 0xE4
/-- TRC_CTRL (trace page, R417). -/
def Reg.TRC_CTRL : Nat := 0x80
/-- TRC_STATUS (trace page, R417). -/
def Reg.TRC_STATUS : Nat := 0x84
/-- TRC_BUF_BASE (trace page, R417). -/
def Reg.TRC_BUF_BASE : Nat := 0x88
/-- TRC_HANG_BASE (trace page, R417). -/
def Reg.TRC_HANG_BASE : Nat := 0xB4
/-- TRC_WR_IDX (trace page, R417). -/
def Reg.TRC_WR_IDX : Nat := 0x8C
/-- TRC_LOST (trace page, R417). -/
def Reg.TRC_LOST : Nat := 0x90
/-- TRC_TRIG_CFG (trace page, R417). -/
def Reg.TRC_TRIG_CFG : Nat := 0x94
/-- TRC_TRIG_PATH (trace page, R417). -/
def Reg.TRC_TRIG_PATH : Nat := 0x98
/-- TRC_POST (trace page, R417). -/
def Reg.TRC_POST : Nat := 0x9C
/-- TRC_TRIG_T_LO (trace page, R417). -/
def Reg.TRC_TRIG_T_LO : Nat := 0xA0
/-- TRC_TRIG_T_HI (trace page, R417). -/
def Reg.TRC_TRIG_T_HI : Nat := 0xA4
/-- TRC_TRIG_IDX (trace page, R417). -/
def Reg.TRC_TRIG_IDX : Nat := 0xA8
/-- TRC_SNAP_TIME_LO (trace page, R417). -/
def Reg.TRC_SNAP_TIME_LO : Nat := 0xAC
/-- TRC_SNAP_TIME_HI (trace page, R417). -/
def Reg.TRC_SNAP_TIME_HI : Nat := 0xB0
/-- TRC_HANG_TIME_LO (trace page, R417). -/
def Reg.TRC_HANG_TIME_LO : Nat := 0xB8
/-- TRC_HANG_TIME_HI (trace page, R417). -/
def Reg.TRC_HANG_TIME_HI : Nat := 0xBC
/-- TRC_SPILL_IDX (trace page, R417). -/
def Reg.TRC_SPILL_IDX : Nat := 0xC0
/-- MON_CTRL (monitor page, R438). -/
def Reg.MON_CTRL : Nat := 0x80
/-- MON_TEMP_THR (monitor page, R438). -/
def Reg.MON_TEMP_THR : Nat := 0x84
/-- MON_PHASE_THR (monitor page, R438). -/
def Reg.MON_PHASE_THR : Nat := 0x88
/-- MON_DROOP_CFG (monitor page, R438). -/
def Reg.MON_DROOP_CFG : Nat := 0x8C
/-- MON_MARGIN_CMD (monitor page, R438). -/
def Reg.MON_MARGIN_CMD : Nat := 0x90
/-- MON_MARGIN_RESULT (monitor page, R438). -/
def Reg.MON_MARGIN_RESULT : Nat := 0x94
/-- MON_TEMP0 to MON_TEMP24 (monitor page, R438). -/
def Reg.MON_TEMP0 : Nat := 0x100
/-- MON_VOLT0 to MON_VOLT11 (monitor page, R438). -/
def Reg.MON_VOLT0 : Nat := 0x180
/-- MON_RO0 to MON_RO8 (monitor page, R438). -/
def Reg.MON_RO0 : Nat := 0x1C0
/-- CLR_SEL (Cellar page, R439). -/
def Reg.CLR_SEL : Nat := 0x100
/-- CLR_NEXT_LO (Cellar page, R439). -/
def Reg.CLR_NEXT_LO : Nat := 0x104
/-- CLR_NEXT_HI (Cellar page, R439). -/
def Reg.CLR_NEXT_HI : Nat := 0x108
/-- CLR_STATUS (Cellar page, R439). -/
def Reg.CLR_STATUS : Nat := 0x10C
/-- CLR_LOST (Cellar page, R439). -/
def Reg.CLR_LOST : Nat := 0x110
/-- CLR_RD_IDX_LO (Cellar page, R439). -/
def Reg.CLR_RD_IDX_LO : Nat := 0x114
/-- CLR_RD_IDX_HI (Cellar page, R439). -/
def Reg.CLR_RD_IDX_HI : Nat := 0x118
/-- CLR_CMD (Cellar page, R439). -/
def Reg.CLR_CMD : Nat := 0x11C
/-- CLR_RD_DATA0 to CLR_RD_DATA15 (Cellar page, R439). -/
def Reg.CLR_RD_DATA0 : Nat := 0x120
/-- CLR_NOTE0 to CLR_NOTE7 (Cellar page, R439). -/
def Reg.CLR_NOTE0 : Nat := 0x160
/-- PWR_IN (power page, R455). -/
def Reg.PWR_IN : Nat := 0x80
/-- PWR_DRAW (power page, R455). -/
def Reg.PWR_DRAW : Nat := 0x84
/-- PWR_CAP_HOST (power page, R455). -/
def Reg.PWR_CAP_HOST : Nat := 0x88
/-- PWR_CAP_MGMT (power page, R455). -/
def Reg.PWR_CAP_MGMT : Nat := 0x8C
/-- PWR_THROTTLE (power page, R455). -/
def Reg.PWR_THROTTLE : Nat := 0x90
/-- PWR_DUTY_OVR (power page, R455). -/
def Reg.PWR_DUTY_OVR : Nat := 0x94
/-- PWR_OWN (power page, R455). -/
def Reg.PWR_OWN : Nat := 0x98
/-- PWR_FRM0 to PWR_FRM8 (power page, R455). -/
def Reg.PWR_FRM0 : Nat := 0xA0
/-- PWR_LAST_WAKE (power page, R455). -/
def Reg.PWR_LAST_WAKE : Nat := 0xC4
/-- PWR_LAST_WAKE_T_LO (power page, R455). -/
def Reg.PWR_LAST_WAKE_T_LO : Nat := 0xC8
/-- PWR_LAST_WAKE_T_HI (power page, R455). -/
def Reg.PWR_LAST_WAKE_T_HI : Nat := 0xCC
/-- PWR_SHARE_IDX (power page, R455). -/
def Reg.PWR_SHARE_IDX : Nat := 0xD0
/-- PWR_SHARE_DATA (power page, R455). -/
def Reg.PWR_SHARE_DATA : Nat := 0xD4
/-- PWR_SHARE_CMD (power page, R455). -/
def Reg.PWR_SHARE_CMD : Nat := 0xD8
/-- RST_CAUSE (reset and clocks page, R476). -/
def Reg.RST_CAUSE : Nat := 0x80
/-- RST_CAUSE_T_LO (reset and clocks page, R476). -/
def Reg.RST_CAUSE_T_LO : Nat := 0x84
/-- RST_CAUSE_T_HI (reset and clocks page, R476). -/
def Reg.RST_CAUSE_T_HI : Nat := 0x88
/-- RST_PARITY (reset and clocks page, R476). -/
def Reg.RST_PARITY : Nat := 0x8C
/-- RST_CTRL (reset and clocks page, R476). -/
def Reg.RST_CTRL : Nat := 0x90
/-- RST_STATUS (reset and clocks page, R476). -/
def Reg.RST_STATUS : Nat := 0x94
/-- RST_OPT (reset and clocks page, R476). -/
def Reg.RST_OPT : Nat := 0x98
/-- RST_STORM (reset and clocks page, R476). -/
def Reg.RST_STORM : Nat := 0x9C
/-- CLK_STATUS (reset and clocks page, R476). -/
def Reg.CLK_STATUS : Nat := 0xC0
/-- PAGE_OWNER (every page, R484). -/
def Reg.PAGE_OWNER : Nat := 0xC
/-- PCI_LINK (PCI Express page, R502). -/
def Reg.PCI_LINK : Nat := 0x80
/-- PCI_BAR2_BASE_LO (PCI Express page, R502). -/
def Reg.PCI_BAR2_BASE_LO : Nat := 0x84
/-- PCI_BAR2_BASE_HI (PCI Express page, R502). -/
def Reg.PCI_BAR2_BASE_HI : Nat := 0x88
/-- PCI_IRQ_COAL (PCI Express page, R502). -/
def Reg.PCI_IRQ_COAL : Nat := 0x8C
/-- PCI_EV_NEXT (PCI Express page, R502). -/
def Reg.PCI_EV_NEXT : Nat := 0x90
/-- PCI_PRIV_LAST (PCI Express page, R502). -/
def Reg.PCI_PRIV_LAST : Nat := 0x94
/-- PCI_PRIV_FN (PCI Express page, R502). -/
def Reg.PCI_PRIV_FN : Nat := 0x98
/-- PCI_FIXWIN_IDX (PCI Express page, R502). -/
def Reg.PCI_FIXWIN_IDX : Nat := 0x9C
/-- PCI_FIXWIN_DATA (PCI Express page, R502). -/
def Reg.PCI_FIXWIN_DATA : Nat := 0xA0
/-- MZM_GPIO_OWN (Muzomus page, R503). -/
def Reg.MZM_GPIO_OWN : Nat := 0x80
/-- MZM_GPIO_STATUS (Muzomus page, R503). -/
def Reg.MZM_GPIO_STATUS : Nat := 0x84
/-- MZM_COOLANT_CFG (Muzomus page, R503). -/
def Reg.MZM_COOLANT_CFG : Nat := 0x88
/-- MZM_STATUS (Muzomus page, R503). -/
def Reg.MZM_STATUS : Nat := 0x8C
/-- PAGE_ID (every page, R528). -/
def Reg.PAGE_ID : Nat := 0x0
/-- PAGE_VER (every page, R528). -/
def Reg.PAGE_VER : Nat := 0x4
/-- PAGE_CAP (every page, R528). -/
def Reg.PAGE_CAP : Nat := 0x8
/-- CTRL (every page, R528). -/
def Reg.CTRL : Nat := 0x10
/-- STATUS (every page, R528). -/
def Reg.STATUS : Nat := 0x14
/-- ERR_STATUS (every page, R528). -/
def Reg.ERR_STATUS : Nat := 0x18
/-- ERR_FIRST (every page, R528). -/
def Reg.ERR_FIRST : Nat := 0x1C
/-- EV_RAW (every page, R528). -/
def Reg.EV_RAW : Nat := 0x20
/-- EV_ENABLE (every page, R528). -/
def Reg.EV_ENABLE : Nat := 0x24
/-- EV_PENDING (every page, R528). -/
def Reg.EV_PENDING : Nat := 0x28
/-- EV_FORCE (every page, R528). -/
def Reg.EV_FORCE : Nat := 0x2C
/-- FRM_DISPATCH (Forme page, R36). -/
def Reg.FRM_DISPATCH : Nat := 0x80
/-- DIE_DISPATCH (die top page, R36). -/
def Reg.DIE_DISPATCH : Nat := 0x80

def Fld.CHS_PATH.logical_path : Fld := ⟨0x80, 15, 0⟩
def Fld.CHS_PATH.phys_pos : Fld := ⟨0x80, 20, 16⟩
def Fld.CHS_PATH.fenced : Fld := ⟨0x80, 21, 21⟩
def Fld.GLY_DISPATCH.outstanding : Fld := ⟨0x80, 11, 0⟩
def Fld.GLY_DISPATCH.red_combining : Fld := ⟨0x80, 12, 12⟩
def Fld.GLY_REPAIR.failed_pos : Fld := ⟨0x84, 4, 0⟩
def Fld.GLY_REPAIR.spare_used : Fld := ⟨0x84, 5, 5⟩
def Fld.GLY_REPAIR.repair_err : Fld := ⟨0x84, 6, 6⟩
def Fld.GLY_REPAIR.degraded : Fld := ⟨0x84, 7, 7⟩
def Fld.DIE_BRG_STATUS.link_up : Fld := ⟨0x84, 0, 0⟩
def Fld.DIE_BRG_STATUS.replaying : Fld := ⟨0x84, 1, 1⟩
def Fld.DIE_BRG_STATUS.down : Fld := ⟨0x84, 2, 2⟩
def Fld.DIE_BRG_STATUS.last_replay_run : Fld := ⟨0x84, 15, 8⟩
def Fld.DIE_SLOT_BASE_LO.base_lo : Fld := ⟨0x88, 31, 5⟩
def Fld.DIE_SLOT_BASE_HI.base_hi : Fld := ⟨0x8C, 17, 0⟩
def Fld.CHS_ARR_CFG.run_1x1 : Fld := ⟨0xA0, 1, 0⟩
def Fld.CHS_ARR_CFG.run_2x2 : Fld := ⟨0xA0, 3, 2⟩
def Fld.CHS_ARR_CFG.run_4x4 : Fld := ⟨0xA0, 5, 4⟩
def Fld.CHS_ARR_STATUS.width : Fld := ⟨0xA4, 1, 0⟩
def Fld.CHS_ARR_STATUS.run : Fld := ⟨0xA4, 3, 2⟩
def Fld.CHS_ARR_STATUS.fence : Fld := ⟨0xA4, 4, 4⟩
def Fld.CHS_ARR_STATUS.shadow_loading : Fld := ⟨0xA4, 5, 5⟩
def Fld.CHS_ARR_STATUS.shadow_valid : Fld := ⟨0xA4, 6, 6⟩
def Fld.CHS_ARR_STATUS.active_valid : Fld := ⟨0xA4, 7, 7⟩
def Fld.CHS_ARR_STATUS.orient : Fld := ⟨0xA4, 8, 8⟩
def Fld.CHS_ARR_STATUS.col_banks : Fld := ⟨0xA4, 12, 9⟩
def Fld.CHS_ARR_STATUS.row_banks : Fld := ⟨0xA4, 16, 13⟩
def Fld.CHS_MF_STATUS.mode : Fld := ⟨0xA8, 1, 0⟩
def Fld.CHS_MF_STATUS.rob_used : Fld := ⟨0xA8, 5, 2⟩
def Fld.CHS_MF_STATUS.slice_busy : Fld := ⟨0xA8, 9, 6⟩
def Fld.CHS_MF_STATUS.table_wait : Fld := ⟨0xA8, 10, 10⟩
def Fld.CHS_BSR_IDLE.idle_lane_cycles : Fld := ⟨0xAC, 31, 0⟩
def Fld.CHS_BSR_BUNDLES.bundles : Fld := ⟨0xB0, 31, 0⟩
def Fld.GLY_LUT_CFG.tbuf_en : Fld := ⟨0x88, 0, 0⟩
def Fld.GLY_LUT_CFG.tbuf_pos : Fld := ⟨0x88, 3, 1⟩
def Fld.GLY_LUT_STATUS.set_ready : Fld := ⟨0x8C, 1, 0⟩
def Fld.GLY_LUT_STATUS.set_building : Fld := ⟨0x8C, 3, 2⟩
def Fld.CHS_CORE_CTRL.run : Fld := ⟨0x100, 0, 0⟩
def Fld.CHS_CORE_CTRL.halt : Fld := ⟨0x100, 1, 1⟩
def Fld.CHS_CORE_CTRL.step : Fld := ⟨0x100, 2, 2⟩
def Fld.CHS_CORE_CTRL.core_reset : Fld := ⟨0x100, 3, 3⟩
def Fld.CHS_CORE_CTRL.wake : Fld := ⟨0x100, 4, 4⟩
def Fld.CHS_CORE_CTRL.load_imem : Fld := ⟨0x100, 5, 5⟩
def Fld.CHS_CORE_CTRL.load_dmem : Fld := ⟨0x100, 6, 6⟩
def Fld.CHS_CORE_STATUS.state : Fld := ⟨0x104, 2, 0⟩
def Fld.CHS_CORE_STATUS.stall : Fld := ⟨0x104, 5, 3⟩
def Fld.CHS_CORE_STATUS.in_trap : Fld := ⟨0x104, 6, 6⟩
def Fld.CHS_CORE_STATUS.double_trap : Fld := ⟨0x104, 7, 7⟩
def Fld.CHS_CORE_STATUS.load_err : Fld := ⟨0x104, 8, 8⟩
def Fld.CHS_CORE_MODE.depth : Fld := ⟨0x108, 1, 0⟩
def Fld.CHS_CORE_MODE.wk_token : Fld := ⟨0x108, 2, 2⟩
def Fld.CHS_CORE_MODE.wk_credit : Fld := ⟨0x108, 3, 3⟩
def Fld.CHS_CORE_MODE.wk_doorbell : Fld := ⟨0x108, 4, 4⟩
def Fld.CHS_CORE_MODE.vec_en : Fld := ⟨0x108, 5, 5⟩
def Fld.CHS_CORE_MODE.trap_on_timeout : Fld := ⟨0x108, 6, 6⟩
def Fld.CHS_CORE_MODE.trace_level : Fld := ⟨0x108, 8, 7⟩
def Fld.CHS_CORE_PC.pc : Fld := ⟨0x10C, 13, 0⟩
def Fld.CHS_CORE_JOB.job : Fld := ⟨0x110, 11, 0⟩
def Fld.CHS_TRAP_CAUSE.cause : Fld := ⟨0x114, 7, 0⟩
def Fld.CHS_TRAP_CAUSE.second_cause : Fld := ⟨0x114, 15, 8⟩
def Fld.CHS_TRAP_PC.trap_pc : Fld := ⟨0x118, 13, 0⟩
def Fld.CHS_TRAP_VEC.vector : Fld := ⟨0x11C, 13, 2⟩
def Fld.CHS_WDOG.wd_exp : Fld := ⟨0x120, 4, 0⟩
def Fld.CHS_MEM_ADDR.word : Fld := ⟨0x124, 13, 2⟩
def Fld.CHS_MEM_ADDR.sel : Fld := ⟨0x124, 14, 14⟩
def Fld.CHS_MEM_DATA.data : Fld := ⟨0x128, 31, 0⟩
def Fld.CHS_LOAD_SRC_LO.src_lo : Fld := ⟨0x12C, 31, 6⟩
def Fld.CHS_LOAD_SRC_HI.src_hi : Fld := ⟨0x130, 17, 0⟩
def Fld.CHS_BREAK.enable : Fld := ⟨0x134, 0, 0⟩
def Fld.CHS_BREAK.addr : Fld := ⟨0x134, 13, 2⟩
def Fld.CHS_CORE_WAIT.target : Fld := ⟨0x138, 15, 0⟩
def Fld.CHS_CORE_WAIT.toktab_used : Fld := ⟨0x138, 22, 16⟩
def Fld.CHS_CORE_WAIT.port_held : Fld := ⟨0x138, 23, 23⟩
def Fld.CHS_CORE_WAITSEQ.seq : Fld := ⟨0x13C, 31, 0⟩
def Fld.CHS_CRED0.count : Fld := ⟨0x140, 15, 0⟩
def Fld.DIE_DESC_BASE_LO.base_lo : Fld := ⟨0x90, 31, 6⟩
def Fld.DIE_DESC_BASE_HI.base_hi : Fld := ⟨0x94, 17, 0⟩
def Fld.DIE_DESC_LIMIT.limit : Fld := ⟨0x98, 20, 0⟩
def Fld.HYD_RING_BASE_LO.base_lo : Fld := ⟨0x80, 31, 16⟩
def Fld.HYD_RING_BASE_HI.base_hi : Fld := ⟨0x84, 17, 0⟩
def Fld.HYD_RING_CFG.size_exp : Fld := ⟨0x88, 4, 0⟩
def Fld.HYD_RING_CFG.enable : Fld := ⟨0x88, 5, 5⟩
def Fld.HYD_RING_WR.index : Fld := ⟨0x8C, 23, 0⟩
def Fld.HYD_RING_WR.phase : Fld := ⟨0x8C, 24, 24⟩
def Fld.HYD_RING_RD.index : Fld := ⟨0x90, 23, 0⟩
def Fld.HYD_RING_RD.phase : Fld := ⟨0x90, 24, 24⟩
def Fld.HYD_HOLD.ticks : Fld := ⟨0x94, 31, 0⟩
def Fld.CHS_HYD_STATUS.entries : Fld := ⟨0xB4, 4, 0⟩
def Fld.CHS_HYD_STATUS.queue : Fld := ⟨0xB4, 7, 5⟩
def Fld.CHS_HYD_STATUS.holding : Fld := ⟨0xB4, 8, 8⟩
def Fld.PTG_CTRL.enable : Fld := ⟨0x80, 0, 0⟩
def Fld.PTG_CTRL.step_end : Fld := ⟨0x80, 1, 1⟩
def Fld.PTG_CTRL.gang_en : Fld := ⟨0x80, 2, 2⟩
def Fld.PTG_STATUS.phase : Fld := ⟨0x84, 3, 0⟩
def Fld.PTG_STATUS.busy : Fld := ⟨0x84, 4, 4⟩
def Fld.PTG_STATUS.gang_timeout : Fld := ⟨0x84, 5, 5⟩
def Fld.PTG_STATUS.bind_err : Fld := ⟨0x84, 6, 6⟩
def Fld.PTG_STEP.step : Fld := ⟨0x88, 31, 0⟩
def Fld.PTG_BOUND_TICKS.ticks : Fld := ⟨0x8C, 31, 0⟩
def Fld.PTG_CHANGES.raised : Fld := ⟨0x90, 15, 0⟩
def Fld.PTG_CHANGES.lowered : Fld := ⟨0x90, 31, 16⟩
def Fld.PTG_BIND_BASE_LO.base_lo : Fld := ⟨0x94, 31, 6⟩
def Fld.PTG_BIND_BASE_HI.base_hi : Fld := ⟨0x98, 17, 0⟩
def Fld.PTG_RECIPE.m_weight : Fld := ⟨0x9C, 2, 0⟩
def Fld.PTG_RECIPE.m_act : Fld := ⟨0x9C, 5, 3⟩
def Fld.PTG_RECIPE.m_agrad : Fld := ⟨0x9C, 8, 6⟩
def Fld.PTG_ENT_IDX.index : Fld := ⟨0xA0, 13, 0⟩
def Fld.PTG_ENT_IDX.sel : Fld := ⟨0xA0, 14, 14⟩
def Fld.PTG_ENT_DATA0.word : Fld := ⟨0xA4, 31, 0⟩
def Fld.PTG_ENT_CMD.load : Fld := ⟨0xC4, 0, 0⟩
def Fld.PTG_ENT_CMD.commit : Fld := ⟨0xC4, 1, 1⟩
def Fld.PTG_GANG_TO.ticks : Fld := ⟨0xC8, 23, 0⟩
def Fld.PTG_STALE.records : Fld := ⟨0xCC, 31, 0⟩
def Fld.PTG_GANG_PEER0.dest : Fld := ⟨0xD0, 11, 0⟩
def Fld.PTG_GANG_PEER0.valid : Fld := ⟨0xD0, 31, 31⟩
def Fld.PTG_NUM_CTRL.ovf_mode : Fld := ⟨0x100, 0, 0⟩
def Fld.PTG_NUM_CTRL.g1_longsum : Fld := ⟨0x100, 1, 1⟩
def Fld.PTG_NUM_CTRL.ls_enable : Fld := ⟨0x100, 2, 2⟩
def Fld.PTG_NUM_CTRL.verdict_en : Fld := ⟨0x100, 3, 3⟩
def Fld.PTG_LSCALE.ls_exp : Fld := ⟨0x104, 7, 0⟩
def Fld.PTG_LS_GROW.grow_n : Fld := ⟨0x108, 15, 0⟩
def Fld.PTG_LS_GROW.clean : Fld := ⟨0x108, 31, 16⟩
def Fld.PTG_LS_SLOT.slot : Fld := ⟨0x10C, 15, 0⟩
def Fld.PTG_LS_SLOT.inv_slot : Fld := ⟨0x10C, 31, 16⟩
def Fld.PTG_VERDICT.stream : Fld := ⟨0x110, 15, 0⟩
def Fld.PTG_VERDICT.dest : Fld := ⟨0x110, 31, 16⟩
def Fld.PTG_NUM_STATUS.ovf_cond : Fld := ⟨0x114, 3, 0⟩
def Fld.PTG_NUM_STATUS.ls_floor : Fld := ⟨0x114, 4, 4⟩
def Fld.PTG_NUM_STATUS.ls_ceiling : Fld := ⟨0x114, 5, 5⟩
def Fld.PTG_NUM_STATUS.verdict : Fld := ⟨0x114, 7, 6⟩
def Fld.PTG_OVF_COUNT.steps : Fld := ⟨0x118, 31, 0⟩
def Fld.PTG_EXHAUSTED.commands : Fld := ⟨0x11C, 15, 0⟩
def Fld.PTG_SEED_IDX.job : Fld := ⟨0x120, 11, 0⟩
def Fld.PTG_SEED_LO.seed : Fld := ⟨0x124, 31, 0⟩
def Fld.PTG_SEED_HI.seed : Fld := ⟨0x128, 31, 0⟩
def Fld.PTG_SEED_CMD.load : Fld := ⟨0x12C, 0, 0⟩
def Fld.PTG_SEED_CMD.commit : Fld := ⟨0x12C, 1, 1⟩
def Fld.TST_CTRL.enable : Fld := ⟨0x80, 0, 0⟩
def Fld.TST_CTRL.alpha_exp : Fld := ⟨0x80, 4, 1⟩
def Fld.TST_CTRL.warmup : Fld := ⟨0x80, 15, 8⟩
def Fld.TST_CTRL.abort_job : Fld := ⟨0x80, 27, 16⟩
def Fld.TST_CTRL.abort_en : Fld := ⟨0x80, 28, 28⟩
def Fld.TST_STATUS.jumps_last : Fld := ⟨0x84, 15, 0⟩
def Fld.TST_STATUS.cask_req : Fld := ⟨0x84, 16, 16⟩
def Fld.TST_STATUS.aborted : Fld := ⟨0x84, 17, 17⟩
def Fld.TST_STATUS.warm_left : Fld := ⟨0x84, 25, 18⟩
def Fld.TST_LAST.layer : Fld := ⟨0x88, 13, 0⟩
def Fld.TST_LAST.role : Fld := ⟨0x88, 15, 14⟩
def Fld.TST_LAST.step_lo : Fld := ⟨0x88, 31, 16⟩
def Fld.TST_LAST_RATIO.ratio : Fld := ⟨0x8C, 31, 0⟩
def Fld.TST_JUMPS.jumps : Fld := ⟨0x90, 31, 0⟩
def Fld.TST_ACT_IDX.policy : Fld := ⟨0x94, 5, 0⟩
def Fld.TST_ACT_DATA.jump : Fld := ⟨0x98, 15, 0⟩
def Fld.TST_ACT_DATA.act_fwd : Fld := ⟨0x98, 19, 16⟩
def Fld.TST_ACT_DATA.act_ag : Fld := ⟨0x98, 23, 20⟩
def Fld.TST_ACT_DATA.act_wg : Fld := ⟨0x98, 27, 24⟩
def Fld.TST_ENT_IDX.layer : Fld := ⟨0x9C, 13, 0⟩
def Fld.TST_ENT_DATA0.word : Fld := ⟨0xA0, 31, 0⟩
def Fld.TST_ENT_CMD.load : Fld := ⟨0xC0, 0, 0⟩
def Fld.TST_ENT_CMD.commit : Fld := ⟨0xC0, 1, 1⟩
def Fld.CHS_RECOMP.attempts : Fld := ⟨0xB8, 15, 0⟩
def Fld.CHS_RECOMP.exhausted : Fld := ⟨0xB8, 31, 16⟩
def Fld.DIE_FIXED.per_ctl : Fld := ⟨0x80, 18, 0⟩
def Fld.DIE_FMAP_BASE_LO.base_lo : Fld := ⟨0x84, 31, 20⟩
def Fld.DIE_FMAP_BASE_HI.base_hi : Fld := ⟨0x88, 17, 0⟩
def Fld.DIE_REGION_BASE_LO.base_lo : Fld := ⟨0x8C, 31, 6⟩
def Fld.DIE_REGION_BASE_HI.base_hi : Fld := ⟨0x90, 17, 0⟩
def Fld.DIE_REGION_LIMIT.limit : Fld := ⟨0x94, 20, 0⟩
def Fld.DIE_TM_CMD.region : Fld := ⟨0x98, 19, 0⟩
def Fld.DIE_TM_CMD.op : Fld := ⟨0x98, 20, 20⟩
def Fld.DIE_TM_STATUS.busy : Fld := ⟨0x9C, 0, 0⟩
def Fld.DIE_TM_STATUS.result : Fld := ⟨0x9C, 8, 1⟩
def Fld.DIE_TM_WM.hbm_high : Fld := ⟨0xA0, 5, 0⟩
def Fld.DIE_TM_WM.hbm_low : Fld := ⟨0xA0, 11, 6⟩
def Fld.DIE_TM_WM.sram_high : Fld := ⟨0xA0, 17, 12⟩
def Fld.DIE_TM_WM.sram_low : Fld := ⟨0xA0, 23, 18⟩
def Fld.DIE_QUOTA_IDX.job : Fld := ⟨0xA4, 11, 0⟩
def Fld.DIE_QUOTA_DATA0.limit : Fld := ⟨0xA8, 31, 0⟩
def Fld.DIE_QUOTA_DATA3.use : Fld := ⟨0xB4, 31, 0⟩
def Fld.DIE_QUOTA_DATA4.use : Fld := ⟨0xB8, 31, 0⟩
def Fld.DIE_QUOTA_DATA5.use : Fld := ⟨0xBC, 31, 0⟩
def Fld.DIE_QUOTA_CMD.load : Fld := ⟨0xC0, 0, 0⟩
def Fld.DIE_QUOTA_CMD.commit : Fld := ⟨0xC0, 1, 1⟩
def Fld.DIE_LEASE_IDX.lease : Fld := ⟨0xC4, 5, 0⟩
def Fld.DIE_LEASE_DATA0.dest : Fld := ⟨0xC8, 11, 0⟩
def Fld.DIE_LEASE_DATA0.state : Fld := ⟨0xC8, 13, 12⟩
def Fld.DIE_LEASE_DATA0.refused : Fld := ⟨0xC8, 14, 14⟩
def Fld.DIE_LEASE_DATA1.size : Fld := ⟨0xCC, 31, 0⟩
def Fld.DIE_LEASE_DATA2.expiry : Fld := ⟨0xD0, 31, 0⟩
def Fld.DIE_LEASE_DATA3.used : Fld := ⟨0xD4, 31, 0⟩
def Fld.DIE_LEASE_CMD.load : Fld := ⟨0xD8, 0, 0⟩
def Fld.DIE_LEASE_CMD.request : Fld := ⟨0xD8, 1, 1⟩
def Fld.DIE_LEASE_CMD.renew : Fld := ⟨0xD8, 2, 2⟩
def Fld.DIE_LEASE_CMD.release : Fld := ⟨0xD8, 3, 3⟩
def Fld.DIE_LEND_CFG.lend_en : Fld := ⟨0xDC, 0, 0⟩
def Fld.DIE_LEND_CFG.lend_gb : Fld := ⟨0xDC, 10, 1⟩
def Fld.DIE_LEND_CFG.notice : Fld := ⟨0xDC, 26, 11⟩
def Fld.DIE_BULK_SCRUB.scrub_exp : Fld := ⟨0xE0, 4, 0⟩
def Fld.DIE_BULK_ECC_LAST_LO.addr_lo : Fld := ⟨0xE4, 31, 0⟩
def Fld.DIE_BULK_ECC_LAST_HI.addr_hi : Fld := ⟨0xE8, 6, 0⟩
def Fld.DIE_BULK_ECC_LAST_HI.valid : Fld := ⟨0xE8, 7, 7⟩
def Fld.DIE_BULK_ECC_LAST_HI.scrub : Fld := ⟨0xE8, 8, 8⟩
def Fld.HBM_SCRUB.scrub_exp : Fld := ⟨0x80, 4, 0⟩
def Fld.HBM_ECC_LAST_LO.addr_lo : Fld := ⟨0x84, 31, 0⟩
def Fld.HBM_ECC_LAST_HI.addr_hi : Fld := ⟨0x88, 2, 0⟩
def Fld.HBM_ECC_LAST_HI.valid : Fld := ⟨0x88, 3, 3⟩
def Fld.HBM_ECC_LAST_HI.scrub : Fld := ⟨0x88, 4, 4⟩
def Fld.CHS_TILE_AREA.base : Fld := ⟨0xBC, 5, 0⟩
def Fld.CHS_TILE_AREA.size : Fld := ⟨0xBC, 12, 6⟩
def Fld.STM_ALLOC.job : Fld := ⟨0x80, 11, 0⟩
def Fld.STM_ALLOC.priority : Fld := ⟨0x80, 13, 12⟩
def Fld.STM_ALLOC.die : Fld := ⟨0x80, 14, 14⟩
def Fld.STM_ALLOC_RESULT.stream : Fld := ⟨0x84, 15, 0⟩
def Fld.STM_ALLOC_RESULT.status : Fld := ⟨0x84, 23, 16⟩
def Fld.STM_ALLOC_RESULT.done : Fld := ⟨0x84, 24, 24⟩
def Fld.STM_COUNT.allocated : Fld := ⟨0x88, 16, 0⟩
def Fld.STM_WM.watermark : Fld := ⟨0x8C, 16, 0⟩
def Fld.STM_TOK_TO.ticks : Fld := ⟨0x90, 31, 0⟩
def Fld.STM_CRED_TO.ticks : Fld := ⟨0x94, 31, 0⟩
def Fld.STM_AGE.ticks : Fld := ⟨0x98, 23, 0⟩
def Fld.STM_JOB_IDX.job : Fld := ⟨0x9C, 11, 0⟩
def Fld.STM_JOB_DATA.function : Fld := ⟨0xA0, 4, 0⟩
def Fld.STM_JOB_DATA.valid : Fld := ⟨0xA0, 5, 5⟩
def Fld.STM_JOB_DATA.limit : Fld := ⟨0xA0, 22, 6⟩
def Fld.STM_JOB_COUNT.streams : Fld := ⟨0xA4, 16, 0⟩
def Fld.STM_JOB_CMD.load : Fld := ⟨0xA8, 0, 0⟩
def Fld.STM_JOB_CMD.commit : Fld := ⟨0xA8, 1, 1⟩
def Fld.IZN_PORT_CTRL.enable : Fld := ⟨0x80, 0, 0⟩
def Fld.IZN_PORT_CTRL.auto_up : Fld := ⟨0x80, 1, 1⟩
def Fld.IZN_PORT_CTRL.reach : Fld := ⟨0x80, 2, 2⟩
def Fld.IZN_PORT_CTRL.retrain : Fld := ⟨0x80, 3, 3⟩
def Fld.IZN_PORT_STATUS.state : Fld := ⟨0x84, 2, 0⟩
def Fld.IZN_PORT_STATUS.cw_lock : Fld := ⟨0x84, 3, 3⟩
def Fld.IZN_PORT_STATUS.peer_id : Fld := ⟨0x84, 15, 4⟩
def Fld.IZN_PORT_STATUS.peer_port : Fld := ⟨0x84, 19, 16⟩
def Fld.IZN_PORT_STATUS.train_fail : Fld := ⟨0x84, 22, 20⟩
def Fld.IZN_RETRAIN_CFG.unc_limit : Fld := ⟨0x88, 15, 0⟩
def Fld.IZN_RETRAIN_CFG.win_exp : Fld := ⟨0x88, 20, 16⟩
def Fld.IZN_RETRAIN_CFG.replay_limit : Fld := ⟨0x88, 24, 21⟩
def Fld.IZN_VC_CFG.share0 : Fld := ⟨0x8C, 7, 0⟩
def Fld.IZN_VC_CFG.share1 : Fld := ⟨0x8C, 15, 8⟩
def Fld.IZN_VC_CFG.share2 : Fld := ⟨0x8C, 23, 16⟩
def Fld.IZN_VC_CFG.share3 : Fld := ⟨0x8C, 31, 24⟩
def Fld.IZN_LINK_DELAY.delay : Fld := ⟨0x90, 19, 0⟩
def Fld.IZN_SELF.id : Fld := ⟨0x80, 11, 0⟩
def Fld.IZN_RT_IDX.index : Fld := ⟨0x84, 11, 0⟩
def Fld.IZN_RT_DATA.port_a : Fld := ⟨0x88, 3, 0⟩
def Fld.IZN_RT_DATA.port_b : Fld := ⟨0x88, 7, 4⟩
def Fld.IZN_RT_DATA.mode : Fld := ⟨0x88, 9, 8⟩
def Fld.IZN_RT_DATA.valid : Fld := ⟨0x88, 10, 10⟩
def Fld.IZN_RT_CMD.load : Fld := ⟨0x8C, 0, 0⟩
def Fld.IZN_RT_CMD.commit : Fld := ⟨0x8C, 1, 1⟩
def Fld.IZN_HOPS.hop_init : Fld := ⟨0x90, 3, 0⟩
def Fld.IZN_E2E_TO.ticks : Fld := ⟨0x94, 31, 0⟩
def Fld.IZN_SYNC_CFG.enable : Fld := ⟨0x98, 0, 0⟩
def Fld.IZN_SYNC_CFG.root : Fld := ⟨0x98, 1, 1⟩
def Fld.IZN_SYNC_CFG.parent : Fld := ⟨0x98, 5, 2⟩
def Fld.IZN_SYNC_CFG.period_exp : Fld := ⟨0x98, 10, 6⟩
def Fld.IZN_SYNC_STATUS.locked : Fld := ⟨0x9C, 0, 0⟩
def Fld.IZN_SYNC_STATUS.ever_locked : Fld := ⟨0x9C, 1, 1⟩
def Fld.IZN_SYNC_STATUS.holdover : Fld := ⟨0x9C, 2, 2⟩
def Fld.IZN_SYNC_STATUS.offset : Fld := ⟨0x9C, 31, 16⟩
def Fld.IZN_SYNC_TRIM.trim : Fld := ⟨0xA0, 31, 0⟩
def Fld.TUN_CTX_IDX.ctx : Fld := ⟨0x100, 8, 0⟩
def Fld.TUN_CTX_DATA0.base : Fld := ⟨0x104, 22, 0⟩
def Fld.TUN_CTX_DATA0.lsb_exp : Fld := ⟨0x104, 31, 23⟩
def Fld.TUN_CTX_DATA1.ntiles : Fld := ⟨0x108, 25, 0⟩
def Fld.TUN_CTX_DATA2.job : Fld := ⟨0x10C, 11, 0⟩
def Fld.TUN_CTX_DATA2.n_expect : Fld := ⟨0x10C, 18, 12⟩
def Fld.TUN_CTX_DATA2.armed : Fld := ⟨0x10C, 19, 19⟩
def Fld.TUN_CTX_DATA3.gen : Fld := ⟨0x110, 15, 0⟩
def Fld.TUN_CTX_CMD.load : Fld := ⟨0x114, 0, 0⟩
def Fld.TUN_CTX_CMD.arm : Fld := ⟨0x114, 1, 1⟩
def Fld.TUN_CTX_CMD.disarm : Fld := ⟨0x114, 2, 2⟩
def Fld.TUN_CTX_STATUS.busy : Fld := ⟨0x118, 0, 0⟩
def Fld.TUN_CTX_STATUS.result : Fld := ⟨0x118, 8, 1⟩
def Fld.TUN_PSET_IDX.set : Fld := ⟨0x11C, 5, 0⟩
def Fld.TUN_PSET_DATA0.id : Fld := ⟨0x120, 11, 0⟩
def Fld.TUN_PSET_DATA0.valid : Fld := ⟨0x120, 31, 31⟩
def Fld.TUN_PSET_CMD.load : Fld := ⟨0x140, 0, 0⟩
def Fld.TUN_PSET_CMD.commit : Fld := ⟨0x140, 1, 1⟩
def Fld.TUN_BAD_CTX.ctx : Fld := ⟨0x144, 8, 0⟩
def Fld.TUN_BAD_CTX.job : Fld := ⟨0x144, 20, 9⟩
def Fld.TUN_BAD_CTX.valid : Fld := ⟨0x144, 21, 21⟩
def Fld.TUN_BAD_GEN.gen : Fld := ⟨0x148, 15, 0⟩
def Fld.TUN_BAD_TILE.tile : Fld := ⟨0x14C, 25, 0⟩
def Fld.MAP_ENT_IDX.entry : Fld := ⟨0x80, 5, 0⟩
def Fld.MAP_ENT_DATA0.job : Fld := ⟨0x84, 11, 0⟩
def Fld.MAP_ENT_DATA0.pset : Fld := ⟨0x84, 17, 12⟩
def Fld.MAP_ENT_DATA0.gang_en : Fld := ⟨0x84, 18, 18⟩
def Fld.MAP_ENT_DATA0.gang_split : Fld := ⟨0x84, 19, 19⟩
def Fld.MAP_ENT_DATA0.regather : Fld := ⟨0x84, 20, 20⟩
def Fld.MAP_ENT_DATA0.valid : Fld := ⟨0x84, 21, 21⟩
def Fld.MAP_ENT_DATA0.self : Fld := ⟨0x84, 24, 22⟩
def Fld.MAP_ENT_DATA0.gsize : Fld := ⟨0x84, 28, 25⟩
def Fld.MAP_ENT_DATA1.depth : Fld := ⟨0x88, 7, 0⟩
def Fld.MAP_ENT_DATA2.act_units : Fld := ⟨0x8C, 31, 0⟩
def Fld.MAP_ENT_DATA3.reserve : Fld := ⟨0x90, 31, 0⟩
def Fld.MAP_ENT_CMD.load : Fld := ⟨0x94, 0, 0⟩
def Fld.MAP_ENT_CMD.commit : Fld := ⟨0x94, 1, 1⟩
def Fld.MAP_SHARD_BASE_LO.base_lo : Fld := ⟨0x98, 31, 5⟩
def Fld.MAP_SHARD_BASE_HI.base_hi : Fld := ⟨0x9C, 17, 0⟩
def Fld.MAP_SHARD_LIMIT.limit : Fld := ⟨0xA0, 12, 0⟩
def Fld.MAP_GREC_BASE_LO.base_lo : Fld := ⟨0xA4, 31, 3⟩
def Fld.MAP_GREC_BASE_HI.base_hi : Fld := ⟨0xA8, 17, 0⟩
def Fld.MAP_STALE_STEP.step : Fld := ⟨0xAC, 31, 0⟩
def Fld.MAP_STALE_COUNT.count : Fld := ⟨0xB0, 31, 0⟩
def Fld.MAP_REGATHER.count : Fld := ⟨0xB4, 31, 0⟩
def Fld.MAP_RESV_TOTAL.total : Fld := ⟨0xB8, 31, 0⟩
def Fld.CSK_CTRL.enable : Fld := ⟨0x80, 0, 0⟩
def Fld.CSK_CTRL.request : Fld := ⟨0x80, 1, 1⟩
def Fld.CSK_CTRL.resume : Fld := ⟨0x80, 2, 2⟩
def Fld.CSK_CTRL.cut : Fld := ⟨0x80, 3, 3⟩
def Fld.CSK_STATUS.state : Fld := ⟨0x84, 2, 0⟩
def Fld.CSK_STATUS.result : Fld := ⟨0x84, 10, 3⟩
def Fld.CSK_STATUS.newest : Fld := ⟨0x84, 11, 11⟩
def Fld.CSK_STATUS.complete : Fld := ⟨0x84, 13, 12⟩
def Fld.CSK_STATUS.pairing : Fld := ⟨0x84, 15, 14⟩
def Fld.CSK_STATUS.mirror_ok : Fld := ⟨0x84, 16, 16⟩
def Fld.CSK_STATUS.stop_late : Fld := ⟨0x84, 17, 17⟩
def Fld.CSK_STATUS.stop_incomplete : Fld := ⟨0x84, 18, 18⟩
def Fld.CSK_STATUS.gang_late : Fld := ⟨0x84, 19, 19⟩
def Fld.CSK_SERIAL_LO.serial : Fld := ⟨0x88, 31, 0⟩
def Fld.CSK_SERIAL_HI.serial : Fld := ⟨0x8C, 31, 0⟩
def Fld.CSK_STEP.step : Fld := ⟨0x90, 31, 0⟩
def Fld.CSK_STOP_T_LO.time : Fld := ⟨0x94, 31, 0⟩
def Fld.CSK_STOP_T_HI.time : Fld := ⟨0x98, 31, 0⟩
def Fld.CSK_STOP_CFG.pset : Fld := ⟨0x9C, 5, 0⟩
def Fld.CSK_STOP_CFG.gang : Fld := ⟨0x9C, 6, 6⟩
def Fld.CSK_STAGE.folio : Fld := ⟨0xA0, 22, 0⟩
def Fld.CSK_STOPBUF.folio : Fld := ⟨0xA4, 22, 0⟩
def Fld.CSK_RISK.risk : Fld := ⟨0xA8, 15, 0⟩
def Fld.CSK_RISK.elevated : Fld := ⟨0xA8, 16, 16⟩
def Fld.CSK_RISK.critical : Fld := ⟨0xA8, 17, 17⟩
def Fld.CSK_RISK_THR.elevated : Fld := ⟨0xAC, 15, 0⟩
def Fld.CSK_RISK_THR.critical : Fld := ⟨0xAC, 31, 16⟩
def Fld.CSK_RISK_W0.w : Fld := ⟨0xB0, 31, 0⟩
def Fld.CSK_RISK_X0.x : Fld := ⟨0xC0, 31, 0⟩
def Fld.CSK_RISK_SW.level : Fld := ⟨0xD0, 7, 0⟩
def Fld.CSK_FLOOR.floor : Fld := ⟨0xD4, 15, 0⟩
def Fld.CSK_FLOOR.crit_wait : Fld := ⟨0xD4, 31, 16⟩
def Fld.CSK_BUDDY.buddy : Fld := ⟨0xD8, 11, 0⟩
def Fld.CSK_BUDDY.buddy_en : Fld := ⟨0xD8, 12, 12⟩
def Fld.CSK_BUDDY.same_feed_ok : Fld := ⟨0xD8, 13, 13⟩
def Fld.CSK_FEED.feed_id : Fld := ⟨0xDC, 15, 0⟩
def Fld.CSK_FEED.mgmt : Fld := ⟨0xDC, 16, 16⟩
def Fld.CSK_RESTORE.source : Fld := ⟨0xE0, 1, 0⟩
def Fld.CSK_RESTORE.remote : Fld := ⟨0xE0, 13, 2⟩
def Fld.CSK_RESTORE.start : Fld := ⟨0xE0, 14, 14⟩
def Fld.CSK_PEER_FEED.peer_feed : Fld := ⟨0xE4, 15, 0⟩
def Fld.CSK_PEER_FEED.valid : Fld := ⟨0xE4, 16, 16⟩
def Fld.TRC_CTRL.enable : Fld := ⟨0x80, 0, 0⟩
def Fld.TRC_CTRL.mode : Fld := ⟨0x80, 2, 1⟩
def Fld.TRC_CTRL.lossless : Fld := ⟨0x80, 3, 3⟩
def Fld.TRC_CTRL.trigger : Fld := ⟨0x80, 4, 4⟩
def Fld.TRC_CTRL.arm : Fld := ⟨0x80, 5, 5⟩
def Fld.TRC_CTRL.snap : Fld := ⟨0x80, 6, 6⟩
def Fld.TRC_CTRL.snap_release : Fld := ⟨0x80, 7, 7⟩
def Fld.TRC_CTRL.hang : Fld := ⟨0x80, 8, 8⟩
def Fld.TRC_CTRL.hang_on_timeout : Fld := ⟨0x80, 9, 9⟩
def Fld.TRC_STATUS.state : Fld := ⟨0x84, 2, 0⟩
def Fld.TRC_STATUS.wrapped : Fld := ⟨0x84, 3, 3⟩
def Fld.TRC_STATUS.snap_valid : Fld := ⟨0x84, 4, 4⟩
def Fld.TRC_STATUS.hang_busy : Fld := ⟨0x84, 5, 5⟩
def Fld.TRC_STATUS.hang_done : Fld := ⟨0x84, 6, 6⟩
def Fld.TRC_STATUS.hang_err : Fld := ⟨0x84, 7, 7⟩
def Fld.TRC_BUF_BASE.folio : Fld := ⟨0x88, 22, 0⟩
def Fld.TRC_HANG_BASE.folio : Fld := ⟨0xB4, 22, 0⟩
def Fld.TRC_WR_IDX.index : Fld := ⟨0x8C, 20, 0⟩
def Fld.TRC_LOST.records : Fld := ⟨0x90, 31, 0⟩
def Fld.TRC_TRIG_CFG.on_record : Fld := ⟨0x94, 0, 0⟩
def Fld.TRC_TRIG_CFG.on_time : Fld := ⟨0x94, 1, 1⟩
def Fld.TRC_TRIG_CFG.on_timeout : Fld := ⟨0x94, 2, 2⟩
def Fld.TRC_TRIG_CFG.on_stop : Fld := ⟨0x94, 3, 3⟩
def Fld.TRC_TRIG_CFG.type : Fld := ⟨0x94, 11, 4⟩
def Fld.TRC_TRIG_CFG.type_any : Fld := ⟨0x94, 12, 12⟩
def Fld.TRC_TRIG_PATH.path : Fld := ⟨0x98, 15, 0⟩
def Fld.TRC_TRIG_PATH.mask : Fld := ⟨0x98, 31, 16⟩
def Fld.TRC_POST.count : Fld := ⟨0x9C, 20, 0⟩
def Fld.TRC_TRIG_T_LO.time : Fld := ⟨0xA0, 31, 0⟩
def Fld.TRC_TRIG_T_HI.time : Fld := ⟨0xA4, 31, 0⟩
def Fld.TRC_TRIG_IDX.index : Fld := ⟨0xA8, 20, 0⟩
def Fld.TRC_TRIG_IDX.valid : Fld := ⟨0xA8, 21, 21⟩
def Fld.TRC_SNAP_TIME_LO.time : Fld := ⟨0xAC, 31, 0⟩
def Fld.TRC_SNAP_TIME_HI.time : Fld := ⟨0xB0, 31, 0⟩
def Fld.TRC_HANG_TIME_LO.time : Fld := ⟨0xB8, 31, 0⟩
def Fld.TRC_HANG_TIME_HI.time : Fld := ⟨0xBC, 31, 0⟩
def Fld.TRC_SPILL_IDX.index : Fld := ⟨0xC0, 27, 0⟩
def Fld.TRC_SPILL_IDX.wrapped : Fld := ⟨0xC0, 28, 28⟩
def Fld.MON_CTRL.proof : Fld := ⟨0x80, 0, 0⟩
def Fld.MON_TEMP_THR.forme_warn : Fld := ⟨0x84, 7, 0⟩
def Fld.MON_TEMP_THR.forme_crit : Fld := ⟨0x84, 15, 8⟩
def Fld.MON_TEMP_THR.hbm_warn : Fld := ⟨0x84, 23, 16⟩
def Fld.MON_TEMP_THR.hbm_crit : Fld := ⟨0x84, 31, 24⟩
def Fld.MON_PHASE_THR.warn : Fld := ⟨0x88, 7, 0⟩
def Fld.MON_PHASE_THR.crit : Fld := ⟨0x88, 15, 8⟩
def Fld.MON_DROOP_CFG.thr_mv : Fld := ⟨0x8C, 7, 0⟩
def Fld.MON_DROOP_CFG.width : Fld := ⟨0x8C, 15, 8⟩
def Fld.MON_MARGIN_CMD.forme : Fld := ⟨0x90, 3, 0⟩
def Fld.MON_MARGIN_CMD.kind : Fld := ⟨0x90, 5, 4⟩
def Fld.MON_MARGIN_CMD.step_mv : Fld := ⟨0x90, 10, 6⟩
def Fld.MON_MARGIN_CMD.start : Fld := ⟨0x90, 11, 11⟩
def Fld.MON_MARGIN_CMD.busy : Fld := ⟨0x90, 12, 12⟩
def Fld.MON_MARGIN_RESULT.status : Fld := ⟨0x94, 7, 0⟩
def Fld.MON_MARGIN_RESULT.margin_mv : Fld := ⟨0x94, 15, 8⟩
def Fld.MON_MARGIN_RESULT.fail_chase : Fld := ⟨0x94, 26, 16⟩
def Fld.MON_MARGIN_RESULT.fail_valid : Fld := ⟨0x94, 27, 27⟩
def Fld.MON_MARGIN_RESULT.nominal_fail : Fld := ⟨0x94, 28, 28⟩
def Fld.MON_TEMP0.value : Fld := ⟨0x100, 15, 0⟩
def Fld.MON_TEMP0.valid : Fld := ⟨0x100, 16, 16⟩
def Fld.MON_TEMP0.fine : Fld := ⟨0x100, 17, 17⟩
def Fld.MON_VOLT0.value : Fld := ⟨0x180, 15, 0⟩
def Fld.MON_VOLT0.valid : Fld := ⟨0x180, 16, 16⟩
def Fld.MON_VOLT0.fine : Fld := ⟨0x180, 17, 17⟩
def Fld.MON_RO0.khz : Fld := ⟨0x1C0, 23, 0⟩
def Fld.MON_RO0.valid : Fld := ⟨0x1C0, 24, 24⟩
def Fld.MON_RO0.fine : Fld := ⟨0x1C0, 25, 25⟩
def Fld.CLR_SEL.die : Fld := ⟨0x100, 0, 0⟩
def Fld.CLR_NEXT_LO.lseq : Fld := ⟨0x104, 31, 0⟩
def Fld.CLR_NEXT_HI.lseq : Fld := ⟨0x108, 31, 0⟩
def Fld.CLR_STATUS.wraps : Fld := ⟨0x10C, 15, 0⟩
def Fld.CLR_STATUS.queued : Fld := ⟨0x10C, 28, 16⟩
def Fld.CLR_STATUS.rd_busy : Fld := ⟨0x10C, 29, 29⟩
def Fld.CLR_STATUS.rd_bad : Fld := ⟨0x10C, 30, 30⟩
def Fld.CLR_LOST.records : Fld := ⟨0x110, 31, 0⟩
def Fld.CLR_RD_IDX_LO.lseq : Fld := ⟨0x114, 31, 0⟩
def Fld.CLR_RD_IDX_HI.lseq : Fld := ⟨0x118, 31, 0⟩
def Fld.CLR_CMD.read : Fld := ⟨0x11C, 0, 0⟩
def Fld.CLR_CMD.append : Fld := ⟨0x11C, 1, 1⟩
def Fld.CLR_RD_DATA0.word : Fld := ⟨0x120, 31, 0⟩
def Fld.CLR_NOTE0.word : Fld := ⟨0x160, 31, 0⟩
def Fld.PWR_IN.volts : Fld := ⟨0x80, 15, 0⟩
def Fld.PWR_IN.amps : Fld := ⟨0x80, 31, 16⟩
def Fld.PWR_DRAW.p_int : Fld := ⟨0x84, 11, 0⟩
def Fld.PWR_DRAW.p_10ms : Fld := ⟨0x84, 27, 16⟩
def Fld.PWR_CAP_HOST.cap_w : Fld := ⟨0x88, 11, 0⟩
def Fld.PWR_CAP_MGMT.cap_w : Fld := ⟨0x8C, 11, 0⟩
def Fld.PWR_THROTTLE.power_duty : Fld := ⟨0x90, 6, 0⟩
def Fld.PWR_THROTTLE.burst : Fld := ⟨0x90, 20, 7⟩
def Fld.PWR_THROTTLE.low_input : Fld := ⟨0x90, 21, 21⟩
def Fld.PWR_THROTTLE.cap_unmet : Fld := ⟨0x90, 22, 22⟩
def Fld.PWR_DUTY_OVR.duty : Fld := ⟨0x94, 6, 0⟩
def Fld.PWR_DUTY_OVR.en : Fld := ⟨0x94, 7, 7⟩
def Fld.PWR_OWN.duty_owner : Fld := ⟨0x98, 1, 0⟩
def Fld.PWR_OWN.vset_owner : Fld := ⟨0x98, 3, 2⟩
def Fld.PWR_OWN.claim_duty : Fld := ⟨0x98, 4, 4⟩
def Fld.PWR_OWN.release_duty : Fld := ⟨0x98, 5, 5⟩
def Fld.PWR_OWN.claim_vset : Fld := ⟨0x98, 6, 6⟩
def Fld.PWR_OWN.release_vset : Fld := ⟨0x98, 7, 7⟩
def Fld.PWR_FRM0.allow_pg : Fld := ⟨0xA0, 0, 0⟩
def Fld.PWR_FRM0.force_on : Fld := ⟨0xA0, 1, 1⟩
def Fld.PWR_FRM0.retry : Fld := ⟨0xA0, 2, 2⟩
def Fld.PWR_FRM0.state : Fld := ⟨0xA0, 5, 4⟩
def Fld.PWR_FRM0.waking : Fld := ⟨0xA0, 6, 6⟩
def Fld.PWR_FRM0.duty : Fld := ⟨0xA0, 14, 8⟩
def Fld.PWR_FRM0.thermal_duty : Fld := ⟨0xA0, 21, 15⟩
def Fld.PWR_LAST_WAKE.forme : Fld := ⟨0xC4, 3, 0⟩
def Fld.PWR_LAST_WAKE.from_pg : Fld := ⟨0xC4, 4, 4⟩
def Fld.PWR_LAST_WAKE.source : Fld := ⟨0xC4, 8, 5⟩
def Fld.PWR_LAST_WAKE.path : Fld := ⟨0xC4, 24, 9⟩
def Fld.PWR_LAST_WAKE.valid : Fld := ⟨0xC4, 25, 25⟩
def Fld.PWR_LAST_WAKE_T_LO.time : Fld := ⟨0xC8, 31, 0⟩
def Fld.PWR_LAST_WAKE_T_HI.time : Fld := ⟨0xCC, 31, 0⟩
def Fld.PWR_SHARE_IDX.job : Fld := ⟨0xD0, 11, 0⟩
def Fld.PWR_SHARE_DATA.share : Fld := ⟨0xD4, 7, 0⟩
def Fld.PWR_SHARE_DATA.use : Fld := ⟨0xD4, 15, 8⟩
def Fld.PWR_SHARE_DATA.deferred : Fld := ⟨0xD4, 16, 16⟩
def Fld.PWR_SHARE_CMD.load : Fld := ⟨0xD8, 0, 0⟩
def Fld.PWR_SHARE_CMD.commit : Fld := ⟨0xD8, 1, 1⟩
def Fld.RST_CAUSE.source : Fld := ⟨0x80, 7, 0⟩
def Fld.RST_CAUSE.subcode : Fld := ⟨0x80, 11, 8⟩
def Fld.RST_CAUSE.count : Fld := ⟨0x80, 31, 16⟩
def Fld.RST_CAUSE_T_LO.time : Fld := ⟨0x84, 31, 0⟩
def Fld.RST_CAUSE_T_HI.time : Fld := ⟨0x88, 31, 0⟩
def Fld.RST_PARITY.index : Fld := ⟨0x8C, 23, 0⟩
def Fld.RST_PARITY.die : Fld := ⟨0x8C, 24, 24⟩
def Fld.RST_PARITY.structure : Fld := ⟨0x8C, 27, 25⟩
def Fld.RST_PARITY.valid : Fld := ⟨0x8C, 28, 28⟩
def Fld.RST_CTRL.cmd : Fld := ⟨0x90, 7, 0⟩
def Fld.RST_STATUS.step : Fld := ⟨0x94, 3, 0⟩
def Fld.RST_STATUS.ready : Fld := ⟨0x94, 4, 4⟩
def Fld.RST_STATUS.bulk_ready : Fld := ⟨0x94, 5, 5⟩
def Fld.RST_STATUS.opt_err : Fld := ⟨0x94, 6, 6⟩
def Fld.RST_STATUS.opt_copy : Fld := ⟨0x94, 7, 7⟩
def Fld.RST_OPT.generation : Fld := ⟨0x98, 15, 0⟩
def Fld.RST_OPT.feed_id : Fld := ⟨0x98, 18, 16⟩
def Fld.RST_STORM.limit : Fld := ⟨0x9C, 3, 0⟩
def Fld.RST_STORM.count : Fld := ⟨0x9C, 7, 4⟩
def Fld.RST_STORM.held : Fld := ⟨0x9C, 8, 8⟩
def Fld.CLK_STATUS.ref_ok : Fld := ⟨0xC0, 0, 0⟩
def Fld.CLK_STATUS.root_lock : Fld := ⟨0xC0, 1, 1⟩
def Fld.CLK_STATUS.mem_lock : Fld := ⟨0xC0, 2, 2⟩
def Fld.CLK_STATUS.serdes_lock : Fld := ⟨0xC0, 3, 3⟩
def Fld.CLK_STATUS.pcie_lock : Fld := ⟨0xC0, 4, 4⟩
def Fld.PAGE_OWNER.function : Fld := ⟨0xC, 4, 0⟩
def Fld.PAGE_OWNER.mgmt : Fld := ⟨0xC, 5, 5⟩
def Fld.PCI_LINK.speed : Fld := ⟨0x80, 2, 0⟩
def Fld.PCI_LINK.width : Fld := ⟨0x80, 7, 3⟩
def Fld.PCI_LINK.flit : Fld := ⟨0x80, 8, 8⟩
def Fld.PCI_BAR2_BASE_LO.base_lo : Fld := ⟨0x84, 31, 0⟩
def Fld.PCI_BAR2_BASE_HI.base_hi : Fld := ⟨0x88, 17, 0⟩
def Fld.PCI_IRQ_COAL.holdoff : Fld := ⟨0x8C, 15, 0⟩
def Fld.PCI_IRQ_COAL.count : Fld := ⟨0x8C, 23, 16⟩
def Fld.PCI_EV_NEXT.offset : Fld := ⟨0x90, 31, 0⟩
def Fld.PCI_PRIV_LAST.offset : Fld := ⟨0x94, 27, 0⟩
def Fld.PCI_PRIV_LAST.bar : Fld := ⟨0x94, 28, 28⟩
def Fld.PCI_PRIV_LAST.valid : Fld := ⟨0x94, 29, 29⟩
def Fld.PCI_PRIV_FN.function : Fld := ⟨0x98, 4, 0⟩
def Fld.PCI_PRIV_FN.status : Fld := ⟨0x98, 7, 5⟩
def Fld.PCI_FIXWIN_IDX.function : Fld := ⟨0x9C, 4, 0⟩
def Fld.PCI_FIXWIN_DATA.first : Fld := ⟨0xA0, 18, 0⟩
def Fld.PCI_FIXWIN_DATA.count : Fld := ⟨0xA0, 31, 19⟩
def Fld.MZM_GPIO_OWN.wake_owner : Fld := ⟨0x80, 1, 0⟩
def Fld.MZM_GPIO_OWN.fault_owner : Fld := ⟨0x80, 3, 2⟩
def Fld.MZM_GPIO_OWN.claim_wake : Fld := ⟨0x80, 4, 4⟩
def Fld.MZM_GPIO_OWN.release_wake : Fld := ⟨0x80, 5, 5⟩
def Fld.MZM_GPIO_OWN.claim_fault : Fld := ⟨0x80, 6, 6⟩
def Fld.MZM_GPIO_OWN.release_fault : Fld := ⟨0x80, 7, 7⟩
def Fld.MZM_GPIO_OWN.wake_formes : Fld := ⟨0x80, 8, 8⟩
def Fld.MZM_GPIO_OWN.sw_fault : Fld := ⟨0x80, 9, 9⟩
def Fld.MZM_GPIO_STATUS.wake_n : Fld := ⟨0x84, 0, 0⟩
def Fld.MZM_GPIO_STATUS.coolant_n : Fld := ⟨0x84, 1, 1⟩
def Fld.MZM_GPIO_STATUS.fault_n : Fld := ⟨0x84, 2, 2⟩
def Fld.MZM_GPIO_STATUS.fault_src : Fld := ⟨0x84, 6, 3⟩
def Fld.MZM_COOLANT_CFG.cool_act : Fld := ⟨0x88, 0, 0⟩
def Fld.MZM_COOLANT_CFG.cool_cap : Fld := ⟨0x88, 12, 1⟩
def Fld.MZM_STATUS.eid : Fld := ⟨0x8C, 7, 0⟩
def Fld.MZM_STATUS.updating : Fld := ⟨0x8C, 8, 8⟩
def Fld.MZM_STATUS.recovery : Fld := ⟨0x8C, 9, 9⟩
def Fld.MZM_STATUS.bank : Fld := ⟨0x8C, 10, 10⟩
def Fld.PAGE_ID.path : Fld := ⟨0x0, 15, 0⟩
def Fld.PAGE_ID.type : Fld := ⟨0x0, 23, 16⟩
def Fld.PAGE_ID.instance : Fld := ⟨0x0, 31, 24⟩
def Fld.PAGE_VER.minor : Fld := ⟨0x4, 7, 0⟩
def Fld.PAGE_VER.major : Fld := ⟨0x4, 15, 8⟩
def Fld.PAGE_VER.device : Fld := ⟨0x4, 31, 16⟩
def Fld.PAGE_CAP.counters : Fld := ⟨0x8, 4, 0⟩
def Fld.PAGE_CAP.events : Fld := ⟨0x8, 5, 5⟩
def Fld.PAGE_CAP.unit : Fld := ⟨0x8, 6, 6⟩
def Fld.PAGE_CAP.die0_only : Fld := ⟨0x8, 7, 7⟩
def Fld.CTRL.ev_quiet : Fld := ⟨0x10, 0, 0⟩
def Fld.STATUS.on : Fld := ⟨0x14, 0, 0⟩
def Fld.STATUS.err : Fld := ⟨0x14, 1, 1⟩
def Fld.STATUS.ev : Fld := ⟨0x14, 2, 2⟩
def Fld.ERR_STATUS.code : Fld := ⟨0x18, 21, 1⟩
def Fld.ERR_STATUS.fw : Fld := ⟨0x18, 31, 31⟩
def Fld.ERR_FIRST.code : Fld := ⟨0x1C, 7, 0⟩
def Fld.ERR_FIRST.seq : Fld := ⟨0x1C, 31, 8⟩
def Fld.EV_RAW.raw : Fld := ⟨0x20, 31, 0⟩
def Fld.EV_ENABLE.enable : Fld := ⟨0x24, 31, 0⟩
def Fld.EV_PENDING.pending : Fld := ⟨0x28, 31, 0⟩
def Fld.EV_FORCE.force : Fld := ⟨0x2C, 31, 0⟩
def Fld.FRM_DISPATCH.outstanding : Fld := ⟨0x80, 11, 0⟩
def Fld.FRM_DISPATCH.red_combining : Fld := ⟨0x80, 12, 12⟩
def Fld.DIE_DISPATCH.outstanding : Fld := ⟨0x80, 11, 0⟩
def Fld.DIE_DISPATCH.red_combining : Fld := ⟨0x80, 12, 12⟩

/-- The registers every page holds at 0x000 to 0x02F (R528, R484). -/
def commonRows : List RegRow :=
  [
    ⟨0xC, 0x0, 0x3F, 0x0, 0x0⟩,
    ⟨0x0, 0x0, 0x0, 0x0, 0x0⟩,
    ⟨0x4, 0x48A10100, 0x0, 0x0, 0x0⟩,
    ⟨0x8, 0x0, 0x0, 0x0, 0x0⟩,
    ⟨0x10, 0x0, 0x1, 0x0, 0x0⟩,
    ⟨0x14, 0x0, 0x0, 0x0, 0x0⟩,
    ⟨0x18, 0x0, 0x0, 0x803FFFFE, 0x0⟩,
    ⟨0x1C, 0x0, 0x0, 0x0, 0x0⟩,
    ⟨0x20, 0x0, 0x0, 0xFFFFFFFF, 0x0⟩,
    ⟨0x24, 0x0, 0xFFFFFFFF, 0x0, 0x0⟩,
    ⟨0x28, 0x0, 0x0, 0x0, 0x0⟩,
    ⟨0x2C, 0x0, 0x0, 0x0, 0xFFFFFFFF⟩]

/-- The registers of the Chase page (R533). -/
def chaseRows : List RegRow :=
  [
    ⟨0x80, 0x0, 0x0, 0x0, 0x0⟩,
    ⟨0xA0, 0x6, 0x3F, 0x0, 0x0⟩,
    ⟨0xA4, 0xF, 0x0, 0x0, 0x0⟩,
    ⟨0xA8, 0x0, 0x0, 0x0, 0x0⟩,
    ⟨0xAC, 0x0, 0x0, 0x0, 0x0⟩,
    ⟨0xB0, 0x0, 0x0, 0x0, 0x0⟩,
    ⟨0x100, 0x0, 0x0, 0x0, 0x7F⟩,
    ⟨0x104, 0x1, 0x0, 0x0, 0x0⟩,
    ⟨0x108, 0x0, 0x1FF, 0x0, 0x0⟩,
    ⟨0x10C, 0x0, 0x0, 0x0, 0x0⟩,
    ⟨0x110, 0x0, 0xFFF, 0x0, 0x0⟩,
    ⟨0x114, 0x0, 0x0, 0x0, 0x0⟩,
    ⟨0x118, 0x0, 0x0, 0x0, 0x0⟩,
    ⟨0x11C, 0x0, 0x3FFC, 0x0, 0x0⟩,
    ⟨0x120, 0x18, 0x1F, 0x0, 0x0⟩,
    ⟨0x124, 0x0, 0x7FFC, 0x0, 0x0⟩,
    ⟨0x128, 0x0, 0xFFFFFFFF, 0x0, 0x0⟩,
    ⟨0x12C, 0x0, 0xFFFFFFC0, 0x0, 0x0⟩,
    ⟨0x130, 0x0, 0x3FFFF, 0x0, 0x0⟩,
    ⟨0x134, 0x0, 0x3FFD, 0x0, 0x0⟩,
    ⟨0x138, 0x0, 0x0, 0x0, 0x0⟩,
    ⟨0x13C, 0x0, 0x0, 0x0, 0x0⟩] ++ (List.range 16).map (fun i => ⟨0x140 + 4 * i, 0x0, 0x0, 0x0, 0x0⟩) ++ [
    ⟨0xB4, 0x0, 0x0, 0x0, 0x0⟩,
    ⟨0xB8, 0x0, 0x0, 0x0, 0x0⟩,
    ⟨0xBC, 0x820, 0x1FFF, 0x0, 0x0⟩]

/-- The registers of the Galley page (R533). -/
def galleyRows : List RegRow :=
  [
    ⟨0x80, 0x0, 0x0, 0x0, 0x0⟩,
    ⟨0x84, 0x1F, 0x0, 0x0, 0x0⟩,
    ⟨0x88, 0x0, 0xF, 0x0, 0x0⟩,
    ⟨0x8C, 0x0, 0x0, 0x0, 0x0⟩]

/-- The registers of the Forme page (R533). -/
def formeRows : List RegRow :=
  [
    ⟨0x80, 0x0, 0x0, 0x0, 0x0⟩]

/-- The registers of the die top page (R533). -/
def dieTopRows : List RegRow :=
  [
    ⟨0x84, 0x0, 0x0, 0x0, 0x0⟩,
    ⟨0x88, 0x0, 0xFFFFFFE0, 0x0, 0x0⟩,
    ⟨0x8C, 0x0, 0x3FFFF, 0x0, 0x0⟩,
    ⟨0x90, 0x0, 0xFFFFFFC0, 0x0, 0x0⟩,
    ⟨0x94, 0x0, 0x3FFFF, 0x0, 0x0⟩,
    ⟨0x98, 0x0, 0x1FFFFF, 0x0, 0x0⟩,
    ⟨0x80, 0x0, 0x0, 0x0, 0x0⟩]

/-- The registers of the Hydrometer page (R533). -/
def hydroRows : List RegRow :=
  [
    ⟨0x80, 0x0, 0xFFFF0000, 0x0, 0x0⟩,
    ⟨0x84, 0x0, 0x3FFFF, 0x0, 0x0⟩,
    ⟨0x88, 0x10, 0x3F, 0x0, 0x0⟩,
    ⟨0x8C, 0x1000000, 0x0, 0x0, 0x0⟩,
    ⟨0x90, 0x1000000, 0x0, 0x0, 0x0⟩,
    ⟨0x94, 0x0, 0x0, 0x0, 0x0⟩]

/-- The registers of the point governor page (R533). -/
def govRows : List RegRow :=
  [
    ⟨0x80, 0x0, 0x5, 0x0, 0x2⟩,
    ⟨0x84, 0x0, 0x0, 0x0, 0x0⟩,
    ⟨0x88, 0x0, 0xFFFFFFFF, 0x0, 0x0⟩,
    ⟨0x8C, 0x0, 0x0, 0x0, 0x0⟩,
    ⟨0x90, 0x0, 0x0, 0x0, 0x0⟩,
    ⟨0x94, 0x0, 0xFFFFFFC0, 0x0, 0x0⟩,
    ⟨0x98, 0x0, 0x3FFFF, 0x0, 0x0⟩,
    ⟨0x9C, 0x0, 0x1FF, 0x0, 0x0⟩,
    ⟨0xA0, 0x0, 0x7FFF, 0x0, 0x0⟩] ++ (List.range 8).map (fun i => ⟨0xA4 + 4 * i, 0x0, 0xFFFFFFFF, 0x0, 0x0⟩) ++ [
    ⟨0xC4, 0x0, 0x0, 0x0, 0x3⟩,
    ⟨0xC8, 0x103664, 0xFFFFFF, 0x0, 0x0⟩,
    ⟨0xCC, 0x0, 0x0, 0x0, 0x0⟩] ++ (List.range 7).map (fun i => ⟨0xD0 + 4 * i, 0x0, 0x80000FFF, 0x0, 0x0⟩) ++ [
    ⟨0x100, 0x0, 0xF, 0x0, 0x0⟩,
    ⟨0x104, 0x10, 0xFF, 0x0, 0x0⟩,
    ⟨0x108, 0x3E8, 0xFFFF, 0x0, 0x0⟩,
    ⟨0x10C, 0xFFFFFFFF, 0xFFFFFFFF, 0x0, 0x0⟩,
    ⟨0x110, 0x0, 0xFFFFFFFF, 0x0, 0x0⟩,
    ⟨0x114, 0x0, 0x0, 0x0, 0x0⟩,
    ⟨0x118, 0x0, 0x0, 0x0, 0x0⟩,
    ⟨0x11C, 0x0, 0x0, 0x0, 0x0⟩,
    ⟨0x120, 0x0, 0xFFF, 0x0, 0x0⟩,
    ⟨0x124, 0x0, 0xFFFFFFFF, 0x0, 0x0⟩,
    ⟨0x128, 0x0, 0xFFFFFFFF, 0x0, 0x0⟩,
    ⟨0x12C, 0x0, 0x0, 0x0, 0x3⟩]

/-- The registers of the Taster page (R533). -/
def tasterRows : List RegRow :=
  [
    ⟨0x80, 0x1008, 0x1FFFFF1F, 0x0, 0x0⟩,
    ⟨0x84, 0x0, 0x0, 0x0, 0x0⟩,
    ⟨0x88, 0x0, 0x0, 0x0, 0x0⟩,
    ⟨0x8C, 0x0, 0x0, 0x0, 0x0⟩,
    ⟨0x90, 0x0, 0x0, 0x0, 0x0⟩,
    ⟨0x94, 0x0, 0x3F, 0x0, 0x0⟩,
    ⟨0x98, 0x0, 0xFFFFFFF, 0x0, 0x0⟩,
    ⟨0x9C, 0x0, 0x3FFF, 0x0, 0x0⟩] ++ (List.range 8).map (fun i => ⟨0xA0 + 4 * i, 0x0, 0xFFFFFFFF, 0x0, 0x0⟩) ++ [
    ⟨0xC0, 0x0, 0x0, 0x0, 0x3⟩]

/-- The registers of the tier manager page (R533). -/
def tierRows : List RegRow :=
  [
    ⟨0x80, 0x800, 0x7FFFF, 0x0, 0x0⟩,
    ⟨0x84, 0x0, 0xFFF00000, 0x0, 0x0⟩,
    ⟨0x88, 0x0, 0x3FFFF, 0x0, 0x0⟩,
    ⟨0x8C, 0x0, 0xFFFFFFC0, 0x0, 0x0⟩,
    ⟨0x90, 0x0, 0x3FFFF, 0x0, 0x0⟩,
    ⟨0x94, 0x0, 0x1FFFFF, 0x0, 0x0⟩,
    ⟨0x98, 0x0, 0x0, 0x0, 0x0⟩,
    ⟨0x9C, 0x0, 0x0, 0x0, 0x0⟩,
    ⟨0xA0, 0xE3CE3C, 0xFFFFFF, 0x0, 0x0⟩,
    ⟨0xA4, 0x0, 0xFFF, 0x0, 0x0⟩] ++ (List.range 3).map (fun i => ⟨0xA8 + 4 * i, 0xFFFFFFFF, 0xFFFFFFFF, 0x0, 0x0⟩) ++ [
    ⟨0xB4, 0x0, 0x0, 0x0, 0x0⟩,
    ⟨0xB8, 0x0, 0x0, 0x0, 0x0⟩,
    ⟨0xBC, 0x0, 0x0, 0x0, 0x0⟩,
    ⟨0xC0, 0x0, 0x0, 0x0, 0x3⟩,
    ⟨0xC4, 0x0, 0x3F, 0x0, 0x0⟩,
    ⟨0xC8, 0x0, 0xFFF, 0x0, 0x0⟩,
    ⟨0xCC, 0x0, 0xFFFFFFFF, 0x0, 0x0⟩,
    ⟨0xD0, 0x0, 0xFFFFFFFF, 0x0, 0x0⟩,
    ⟨0xD4, 0x0, 0x0, 0x0, 0x0⟩,
    ⟨0xD8, 0x0, 0x0, 0x0, 0xF⟩,
    ⟨0xDC, 0x1F4000, 0x7FFFFFF, 0x0, 0x0⟩,
    ⟨0xE0, 0xC, 0x1F, 0x0, 0x0⟩,
    ⟨0xE4, 0x0, 0x0, 0x0, 0x0⟩,
    ⟨0xE8, 0x0, 0x0, 0x0, 0x0⟩]

/-- The registers of the stream page (R533). -/
def streamRows : List RegRow :=
  [
    ⟨0x80, 0x0, 0x0, 0x0, 0x0⟩,
    ⟨0x84, 0xFFFF, 0x0, 0x0, 0x0⟩,
    ⟨0x88, 0x0, 0x0, 0x0, 0x0⟩,
    ⟨0x8C, 0xF000, 0x1FFFF, 0x0, 0x0⟩,
    ⟨0x90, 0xA21FE8, 0xFFFFFFFF, 0x0, 0x0⟩,
    ⟨0x94, 0xA21FE8, 0xFFFFFFFF, 0x0, 0x0⟩,
    ⟨0x98, 0x10000, 0xFFFFFF, 0x0, 0x0⟩,
    ⟨0x9C, 0x0, 0xFFF, 0x0, 0x0⟩,
    ⟨0xA0, 0x400000, 0x7FFFFF, 0x0, 0x0⟩,
    ⟨0xA4, 0x0, 0x0, 0x0, 0x0⟩,
    ⟨0xA8, 0x0, 0x0, 0x0, 0x3⟩]

/-- The registers of the mapping page (R533). -/
def mappingRows : List RegRow :=
  [
    ⟨0x80, 0x0, 0x3F, 0x0, 0x0⟩,
    ⟨0x84, 0x0, 0x3FFFFF, 0x0, 0x0⟩,
    ⟨0x88, 0x0, 0xFF, 0x0, 0x0⟩,
    ⟨0x8C, 0x0, 0xFFFFFFFF, 0x0, 0x0⟩,
    ⟨0x90, 0x0, 0x0, 0x0, 0x0⟩,
    ⟨0x94, 0x0, 0x0, 0x0, 0x3⟩,
    ⟨0x98, 0x0, 0xFFFFFFE0, 0x0, 0x0⟩,
    ⟨0x9C, 0x0, 0x3FFFF, 0x0, 0x0⟩,
    ⟨0xA0, 0x0, 0x1FFF, 0x0, 0x0⟩,
    ⟨0xA4, 0x0, 0xFFFFFFF8, 0x0, 0x0⟩,
    ⟨0xA8, 0x0, 0x3FFFF, 0x0, 0x0⟩,
    ⟨0xAC, 0x0, 0x0, 0x0, 0x0⟩,
    ⟨0xB0, 0x0, 0x0, 0x0, 0x0⟩,
    ⟨0xB4, 0x0, 0x0, 0x0, 0x0⟩,
    ⟨0xB8, 0x0, 0x0, 0x0, 0x0⟩]

/-- The registers of the HBM and Tun adder page (R533). -/
def hbmRows : List RegRow :=
  [
    ⟨0x80, 0xC, 0x1F, 0x0, 0x0⟩,
    ⟨0x84, 0x0, 0x0, 0x0, 0x0⟩,
    ⟨0x88, 0x0, 0x0, 0x0, 0x0⟩,
    ⟨0x100, 0x0, 0x1FF, 0x0, 0x0⟩,
    ⟨0x104, 0x0, 0xFFFFFFFF, 0x0, 0x0⟩,
    ⟨0x108, 0x0, 0x3FFFFFF, 0x0, 0x0⟩,
    ⟨0x10C, 0x0, 0x7FFFF, 0x0, 0x0⟩,
    ⟨0x110, 0x0, 0xFFFF, 0x0, 0x0⟩,
    ⟨0x114, 0x0, 0x0, 0x0, 0x7⟩,
    ⟨0x118, 0x0, 0x0, 0x0, 0x0⟩,
    ⟨0x11C, 0x0, 0x3F, 0x0, 0x0⟩] ++ (List.range 8).map (fun i => ⟨0x120 + 4 * i, 0x0, 0x80000FFF, 0x0, 0x0⟩) ++ [
    ⟨0x140, 0x0, 0x0, 0x0, 0x3⟩,
    ⟨0x144, 0x0, 0x0, 0x0, 0x0⟩,
    ⟨0x148, 0x0, 0x0, 0x0, 0x0⟩,
    ⟨0x14C, 0x0, 0x0, 0x0, 0x0⟩]

/-- The registers of the Izyen port page (R533). -/
def portRows : List RegRow :=
  [
    ⟨0x80, 0x2, 0x7, 0x0, 0x8⟩,
    ⟨0x84, 0x0, 0x0, 0x0, 0x0⟩,
    ⟨0x88, 0x1140010, 0x1FFFFFF, 0x0, 0x0⟩,
    ⟨0x8C, 0x40404040, 0xFFFFFFFF, 0x0, 0x0⟩,
    ⟨0x90, 0x0, 0x0, 0x0, 0x0⟩]

/-- The registers of the trace page (R533). -/
def traceRows : List RegRow :=
  [
    ⟨0x80, 0x0, 0x20F, 0x0, 0x1F0⟩,
    ⟨0x84, 0x0, 0x0, 0x0, 0x0⟩,
    ⟨0x88, 0x0, 0x7FFFFF, 0x0, 0x0⟩,
    ⟨0xB4, 0x0, 0x7FFFFF, 0x0, 0x0⟩,
    ⟨0x8C, 0x0, 0x0, 0x0, 0x0⟩,
    ⟨0x90, 0x0, 0x0, 0x0, 0x0⟩,
    ⟨0x94, 0x0, 0x1FFF, 0x0, 0x0⟩,
    ⟨0x98, 0x0, 0xFFFFFFFF, 0x0, 0x0⟩,
    ⟨0x9C, 0x100000, 0x1FFFFF, 0x0, 0x0⟩,
    ⟨0xA0, 0x0, 0xFFFFFFFF, 0x0, 0x0⟩,
    ⟨0xA4, 0x0, 0xFFFFFFFF, 0x0, 0x0⟩,
    ⟨0xA8, 0x0, 0x0, 0x0, 0x0⟩,
    ⟨0xAC, 0x0, 0x0, 0x0, 0x0⟩,
    ⟨0xB0, 0x0, 0x0, 0x0, 0x0⟩,
    ⟨0xB8, 0x0, 0x0, 0x0, 0x0⟩,
    ⟨0xBC, 0x0, 0x0, 0x0, 0x0⟩,
    ⟨0xC0, 0x0, 0x0, 0x0, 0x0⟩]

/-- The registers of the monitor page (R533). -/
def monitorRows : List RegRow :=
  [
    ⟨0x80, 0x0, 0x1, 0x0, 0x0⟩,
    ⟨0x84, 0x5F55695F, 0xFFFFFFFF, 0x0, 0x0⟩,
    ⟨0x88, 0x7D6E, 0xFFFF, 0x0, 0x0⟩,
    ⟨0x8C, 0x41E, 0xFFFF, 0x0, 0x0⟩,
    ⟨0x90, 0x140, 0x7FF, 0x0, 0x800⟩,
    ⟨0x94, 0x0, 0x0, 0x0, 0x0⟩] ++ (List.range 25).map (fun i => ⟨0x100 + 4 * i, 0x0, 0x0, 0x0, 0x0⟩) ++ (List.range 12).map (fun i => ⟨0x180 + 4 * i, 0x0, 0x0, 0x0, 0x0⟩) ++ (List.range 9).map (fun i => ⟨0x1C0 + 4 * i, 0x0, 0x0, 0x0, 0x0⟩)

/-- The registers of the power page (R533). -/
def powerRows : List RegRow :=
  [
    ⟨0x80, 0x0, 0x0, 0x0, 0x0⟩,
    ⟨0x84, 0x0, 0x0, 0x0, 0x0⟩,
    ⟨0x88, 0xBB8, 0xFFF, 0x0, 0x0⟩,
    ⟨0x8C, 0xBB8, 0xFFF, 0x0, 0x0⟩,
    ⟨0x90, 0x144440, 0x0, 0x0, 0x0⟩,
    ⟨0x94, 0x40, 0xFF, 0x0, 0x0⟩,
    ⟨0x98, 0x0, 0x0, 0x0, 0xF0⟩] ++ (List.range 9).map (fun i => ⟨0xA0 + 4 * i, 0x204001, 0x3, 0x0, 0x4⟩) ++ [
    ⟨0xC4, 0x0, 0x0, 0x0, 0x0⟩,
    ⟨0xC8, 0x0, 0x0, 0x0, 0x0⟩,
    ⟨0xCC, 0x0, 0x0, 0x0, 0x0⟩,
    ⟨0xD0, 0x0, 0xFFF, 0x0, 0x0⟩,
    ⟨0xD4, 0x0, 0xFF, 0x0, 0x0⟩,
    ⟨0xD8, 0x0, 0x0, 0x0, 0x3⟩]

/-- The registers of the reset and clocks page (R533). -/
def resetRows : List RegRow :=
  [
    ⟨0x80, 0x0, 0x0, 0x0, 0x0⟩,
    ⟨0x84, 0x0, 0x0, 0x0, 0x0⟩,
    ⟨0x88, 0x0, 0x0, 0x0, 0x0⟩,
    ⟨0x8C, 0x0, 0x0, 0x0, 0x0⟩,
    ⟨0x90, 0x0, 0x0, 0x0, 0x0⟩,
    ⟨0x94, 0x1, 0x0, 0x0, 0x0⟩,
    ⟨0x98, 0x0, 0x0, 0x0, 0x0⟩,
    ⟨0x9C, 0x4, 0xF, 0x0, 0x0⟩,
    ⟨0xC0, 0x0, 0x0, 0x0, 0x0⟩]

/-- The registers of the PCI Express page (R533). -/
def pcieRows : List RegRow :=
  [
    ⟨0x80, 0x0, 0x0, 0x0, 0x0⟩,
    ⟨0x84, 0x0, 0xFFFFFFFF, 0x0, 0x0⟩,
    ⟨0x88, 0x0, 0x3FFFF, 0x0, 0x0⟩,
    ⟨0x8C, 0x10000, 0xFFFFFF, 0x0, 0x0⟩,
    ⟨0x90, 0xFFFFFFFF, 0x0, 0x0, 0x0⟩,
    ⟨0x94, 0x0, 0x0, 0x0, 0x0⟩,
    ⟨0x98, 0x0, 0x0, 0x0, 0x0⟩,
    ⟨0x9C, 0x0, 0x1F, 0x0, 0x0⟩,
    ⟨0xA0, 0x0, 0xFFFFFFFF, 0x0, 0x0⟩]

/-- The registers of the Muzomus page (R533). -/
def muzomusRows : List RegRow :=
  [
    ⟨0x80, 0x0, 0x300, 0x0, 0xF0⟩,
    ⟨0x84, 0x7, 0x0, 0x0, 0x0⟩,
    ⟨0x88, 0x3E8, 0x1FFF, 0x0, 0x0⟩,
    ⟨0x8C, 0x0, 0x0, 0x0, 0x0⟩]

/-- The registers of the Cellar page (R533). -/
def cellarRows : List RegRow :=
  [
    ⟨0x80, 0x0, 0x1, 0x0, 0xE⟩,
    ⟨0x84, 0x0, 0x0, 0x0, 0x0⟩,
    ⟨0x88, 0x0, 0x0, 0x0, 0x0⟩,
    ⟨0x8C, 0x0, 0x0, 0x0, 0x0⟩,
    ⟨0x90, 0x0, 0x0, 0x0, 0x0⟩,
    ⟨0x94, 0x0, 0xFFFFFFFF, 0x0, 0x0⟩,
    ⟨0x98, 0x0, 0xFFFFFFFF, 0x0, 0x0⟩,
    ⟨0x9C, 0x0, 0x7F, 0x0, 0x0⟩,
    ⟨0xA0, 0x0, 0x7FFFFF, 0x0, 0x0⟩,
    ⟨0xA4, 0x0, 0x7FFFFF, 0x0, 0x0⟩,
    ⟨0xA8, 0x0, 0x0, 0x0, 0x0⟩,
    ⟨0xAC, 0x20000800, 0xFFFFFFFF, 0x0, 0x0⟩,
    ⟨0xB0, 0x10101010, 0xFFFFFFFF, 0x0, 0x0⟩,
    ⟨0xB4, 0x10101010, 0xFFFFFFFF, 0x0, 0x0⟩,
    ⟨0xB8, 0x10401010, 0xFFFFFFFF, 0x0, 0x0⟩,
    ⟨0xBC, 0x10101010, 0xFFFFFFFF, 0x0, 0x0⟩] ++ (List.range 4).map (fun i => ⟨0xC0 + 4 * i, 0x0, 0x0, 0x0, 0x0⟩) ++ [
    ⟨0xD0, 0x0, 0xFF, 0x0, 0x0⟩,
    ⟨0xD4, 0x660708, 0xFFFFFFFF, 0x0, 0x0⟩,
    ⟨0xD8, 0x0, 0x3FFF, 0x0, 0x0⟩,
    ⟨0xDC, 0x0, 0x1FFFF, 0x0, 0x0⟩,
    ⟨0xE0, 0x3, 0x3FFF, 0x0, 0x4000⟩,
    ⟨0xE4, 0x0, 0x0, 0x0, 0x0⟩,
    ⟨0x100, 0x0, 0x1, 0x0, 0x0⟩,
    ⟨0x104, 0x0, 0x0, 0x0, 0x0⟩,
    ⟨0x108, 0x0, 0x0, 0x0, 0x0⟩,
    ⟨0x10C, 0x0, 0x0, 0x0, 0x0⟩,
    ⟨0x110, 0x0, 0x0, 0x0, 0x0⟩,
    ⟨0x114, 0x0, 0xFFFFFFFF, 0x0, 0x0⟩,
    ⟨0x118, 0x0, 0xFFFFFFFF, 0x0, 0x0⟩,
    ⟨0x11C, 0x0, 0x0, 0x0, 0x3⟩] ++ (List.range 16).map (fun i => ⟨0x120 + 4 * i, 0x0, 0x0, 0x0, 0x0⟩) ++ (List.range 8).map (fun i => ⟨0x160 + 4 * i, 0x0, 0xFFFFFFFF, 0x0, 0x0⟩)

/-- The registers of the bulk tier page (R533). -/
def bulkRows : List RegRow :=
  []

/-- The registers of the Izyen routing page (R533). -/
def routingRows : List RegRow :=
  [
    ⟨0x80, 0x0, 0xFFF, 0x0, 0x0⟩,
    ⟨0x84, 0x0, 0xFFF, 0x0, 0x0⟩,
    ⟨0x88, 0x0, 0x7FF, 0x0, 0x0⟩,
    ⟨0x8C, 0x0, 0x0, 0x0, 0x3⟩,
    ⟨0x90, 0x8, 0xF, 0x0, 0x0⟩,
    ⟨0x94, 0xA21FE8, 0xFFFFFFFF, 0x0, 0x0⟩,
    ⟨0x98, 0x380, 0x7FF, 0x0, 0x0⟩,
    ⟨0x9C, 0x0, 0x0, 0x0, 0x0⟩,
    ⟨0xA0, 0x0, 0x0, 0x0, 0x0⟩]

/-- The registers of a page of each kind beyond the common layout. -/
def pageRows : PageKind → List RegRow
  | .chase => chaseRows
  | .galley => galleyRows
  | .forme => formeRows
  | .dieTop => dieTopRows
  | .hydro => hydroRows
  | .gov => govRows
  | .taster => tasterRows
  | .tier => tierRows
  | .stream => streamRows
  | .mapping => mappingRows
  | .hbm => hbmRows
  | .port => portRows
  | .trace => traceRows
  | .monitor => monitorRows
  | .power => powerRows
  | .reset => resetRows
  | .pcie => pcieRows
  | .muzomus => muzomusRows
  | .cellar => cellarRows
  | .bulk => bulkRows
  | .routing => routingRows

/-- The always-on counter words a page implements from offset 0x030 (R399, R403, R404, R438, R455, R533). -/
def PageKind.counters : PageKind → Nat
  | .chase => 20
  | .galley => 5
  | .forme => 5
  | .dieTop => 11
  | .stream => 4
  | .hbm => 11
  | .port => 9
  | .trace => 4
  | .monitor => 14
  | .power => 8
  | .bulk => 6
  | .routing => 8
  | .hydro => 0
  | .gov => 0
  | .taster => 0
  | .tier => 0
  | .mapping => 0
  | .reset => 0
  | .pcie => 0
  | .muzomus => 0
  | .cellar => 0

end Sys2Proof.Machine
end

