-- ==== Sys2Proof/Machine/State.lean ====
section
/-! DEFINITION. The state of the module: plain data, holding every register, queue, table, memory and pin that the
spec gives it, and the queue of commands that are waiting. -/

namespace Sys2Proof.Machine

/-- Why a run stops with a fault. Nothing in this model raises one: every command of the spec has an effect. -/
inductive Fault where
  /-- Raised by no meaning (safe): the spec gives every access an outcome of its own. -/
  | noFault
  deriving DecidableEq, Repr

/-- Why a command is refused. -/
inductive Refusal where
  /-- Raised by an arm of `exec` whose command has no meaning yet (safe: the run stops). -/
  | notModelled (mnemonic : String)
  deriving DecidableEq, Repr

/-! ### Units, commands and completion records -/

/-- One operand as the accepting unit read it (R161, R57): its descriptor's index, the 64 bytes of the descriptor
and the 32 bytes of its scale slot. -/
structure Opd where
  idx : Nat
  desc : BitVec 512
  slot : BitVec 256
  deriving DecidableEq, Repr

/-- Where a command stands in its unit. -/
inductive Phase where
  /-- in the issue queue, its checks not made yet -/
  | waiting
  /-- in an engine's stage, held on tokens, credits, the fence or banks (R90) -/
  | held
  /-- issued to the array, its first block still loading (R93) -/
  | issued
  /-- split among members by a dispatcher (R24) -/
  | split
  /-- its packets are under way (R309) -/
  | sending
  /-- a COL_REDSCAT that takes Tiles as they fill (R341) -/
  | taking
  /-- finished, its record and token not sent yet (R171) -/
  | done
  deriving DecidableEq, Repr

/-- What a command takes from the governor's page in the tick in which it is accepted (R181, R217): step, loss
scale exponent, numeric controls and job seed. -/
structure Accept where
  step : Nat
  lsExp : Nat
  numCtrl : Nat
  seed : Nat
  deriving DecidableEq, Repr

/-- A command, or a dispatcher's share of one, in a unit's queue. -/
structure QEnt where
  cmd : BitVec 256
  /-- the Chase whose ISSUE handed it on; none for a fetched command -/
  issuer : Option Nat
  /-- the dispatcher that sent it as a share, none for a command -/
  parent : Option Nat
  phase : Phase
  /-- operands A, B, C as read at issue -/
  ops : List (Option Opd)
  acc : Accept
  /-- the Tiles of the output rows, of the output columns and of the reduction that it covers: first and count -/
  rows : Nat × Nat
  cols : Nat × Nat
  reds : Nat × Nat
  /-- tokens of producers that have not arrived yet: stream and sequence number -/
  needs : List (Nat × Nat)
  /-- the tick in which it began to wait -/
  since : Nat
  /-- shares sent and not yet reported -/
  left : Nat
  /-- the W38 results of members of a RED split, or of this share: member index and entries -/
  parts : List (Nat × List Nat)
  /-- earliest failing share so far: time, path, status (R29) -/
  firstFail : Option (Nat × Nat × Nat)
  /-- Tiles taken, acted on or sent so far -/
  prog : Nat
  /-- values of its own opcode's rules: the gather's kind (R359), new_gen of a permute (R345), the gang's regather -/
  aux : List Nat
  status : Nat
  operand : Nat
  detail : Nat
  detail2 : Nat
  /-- the step that a re-entered command was held with (R396) -/
  keep : Option Nat
  /-- CHS_ARR_CFG as it stood when the command reached the head of the array queue, once a later write has changed it (R100) -/
  cfg : Option Nat
  /-- the tick since which the command, at the head of the array queue, lacks output credits (R290) -/
  credAt : Option Nat
  deriving DecidableEq, Repr

/-- A completion record that waits to be written (R176, R281); time and phase are set as it is written. -/
structure Rec where
  seq : Nat
  source : Nat
  stream : Nat
  status : Nat
  opcode : Nat
  job : Nat
  operand : Nat
  detail : Nat
  detail2 : Nat
  /-- 1 when it holds a reserved slot of the completion queue (R281) -/
  slot : Bool
  irq : Bool
  /-- the Chase whose ISSUE handed its command on (R144) -/
  issuer : Option Nat
  /-- its place in the order of completion (R284; the model's own) -/
  no : Nat
  /-- the writer holds it for want of a free slot (R281) -/
  held : Bool
  deriving DecidableEq, Repr

/-- A token on its way or at a port (R15). -/
structure Tok where
  dest : Nat
  stream : Nat
  seq : Nat
  st : Bool
  /-- the Chase whose TSEND sent it (R144), none for a command's token -/
  src : Option Nat
  /-- the unit that sent it, or 0x10000 and the module it came from: tokens of one source arrive at one unit in order (R39) -/
  via : Nat
  deriving DecidableEq, Repr

/-- What is on its way between units: a token, or program credits with their sender, unit, counter and count. Of one source and
one destination, the first is next to arrive (R39). -/
inductive Sent where
  | token (t : Tok)
  | credits (src dest ctr n : Nat)
  deriving DecidableEq, Repr

/-- An entry of a token table (R135). -/
structure TokEnt where
  stream : Nat
  high : Nat
  fail : Bool
  failSeq : Nat
  deriving DecidableEq, Repr

/-- A unit's queue (R15, R91) and the dispatcher state of a unit of level 1 or higher (R36). -/
structure UnitSt where
  q : List QEnt
  /-- 1 while a RED combination is in progress (R36) -/
  redCombining : Bool
  /-- table of tokens that reached the unit (R135) -/
  toks : List TokEnt
  /-- the token its port holds while no entry is free (R135) -/
  port : Option Tok
  /-- credits for output Tiles (R90, R141) -/
  tileCredits : Nat
  deriving DecidableEq, Repr

/-- A unit after reset. -/
def UnitSt.reset : UnitSt := ⟨[], false, [], none, 0⟩

/-! ### The Chase -/

/-- State of a control core (R154, CHS_CORE_STATUS.state). -/
inductive Run where
  | halted | running | waiting | stalled | loading
  deriving DecidableEq, Repr

/-- A control core (R128, R154). -/
structure CoreSt where
  g : SMap Word
  pc : Word
  run : Run
  /-- what a stalled core waits for: 0 none, 1 TWAIT, 2 CGET, 3 ISSUE, 4 FENCE, 5 load -/
  stall : Nat
  inTrap : Bool
  doubleTrap : Bool
  loadErr : Bool
  /-- fabric time bits [63:32] as last latched (R133) -/
  timeHi : Nat
  /-- ticks that had passed at the last core reset (R133) -/
  resetAt : Nat
  retired : Nat
  /-- watchdog count (R150) -/
  wd : Nat
  /-- c0 to c15 (R128) -/
  cred : SMap Nat
  /-- wake sources pending since the last WAIT, by cause number (R145) -/
  wakes : List Nat
  /-- tick in which the present stall or WAIT began -/
  since : Nat
  /-- timer of the present WAIT, 0 for none -/
  timer : Nat
  /-- commands in the outbound queue (R143) -/
  outq : List (BitVec 256)
  /-- load requests in progress: false imem, true dmem (R537) -/
  loads : List Bool
  /-- depth that the present WAIT asked for (R146) -/
  depth : Nat
  /-- one instruction is being run from halt (R538) -/
  stepping : Bool
  /-- actions of CHS_CORE_CTRL that wait for a load: bit numbers (R538) -/
  todo : List Nat
  /-- the tick, counted from 1, of the last host write of CORE_MODE and of the trap vector (R130), 0 for none -/
  hostMode : Nat
  hostVec : Nat
  deriving DecidableEq, Repr

/-- A control core after reset (R152, R154): halted at 0. -/
def CoreSt.reset : CoreSt := ⟨[], 0, .halted, 0, false, false, false, 0, 0, 0, 0, [], [], 0, 0, [], [], 0, false, [], 0, 0⟩

/-- The identity of a stationary block (R96) and its de-quantised content as loaded. -/
structure Block where
  idx : Nat
  row : Nat
  col : Nat
  /-- its extent along the operand's rows and columns -/
  rows : Nat
  cols : Nat
  addr : Nat
  bsAddr : Nat
  format : Nat
  bsEn : Bool
  gen : Nat
  content : List Val
  /-- the lo parts of a P16x2 block (R88) -/
  lows : List Val
  /-- the index codes of a table-mode block (R112) -/
  codes : List Nat
  deriving DecidableEq, Repr

/-- The Cell array of a Chase (R99, R105, R126). -/
structure ArrSt where
  /-- 0 1×1, 1 2×2, 2 4×4, 3 unconfigured -/
  width : Nat
  /-- 0 is 4, 1 is 8, 2 is 16, 3 unconfigured -/
  run : Nat
  fence : Bool
  /-- width, run and mode that the fence in progress configures (R97) -/
  next : Nat × Nat × Nat
  shadowLoading : Bool
  /-- the block in the shadow registers, as it stood when it was loaded (R93) -/
  shadow : Option Block
  active : Option Block
  orient : Nat
  colBanks : Nat
  rowBanks : Nat
  mode : Nat
  bsrIdle : Nat
  bsrBundles : Nat
  /-- array cycles of passes already run that the ticks have still to count: code of the table Stall reasons and cycles, in order
  (R402) -/
  due : List (Nat × Nat)
  /-- the bundles of those passes by streaming row and slice: cycles from now until each begins and ends (R122, R123) -/
  bundles : List (Nat × Nat)
  /-- banks in use by passes already run: edge (0 columns, 1 rows), banks, cycles from now until their outputs are written (R90) -/
  holds : List (Nat × Nat × Nat)
  /-- ticks of vector commands already run that are still to be counted (R403) -/
  vecDue : Nat
  deriving DecidableEq, Repr

/-- An array after reset: unconfigured (R99). -/
def ArrSt.reset : ArrSt := ⟨3, 3, false, (3, 3, 0), false, none, none, 0, 0, 0, 0, 0, 0, [], [], [], 0⟩

/-- One of the two table sets of a Galley (R113 to R116, R127): its identity (stream and sequence number of the command,
streaming Tile, column-block set, first reduction Tile), empty when the set holds nothing; the Chases that build it and the ticks
each has built; the Chases that read it and have not finished with it. -/
structure TabSet where
  key : List Nat
  ready : Bool
  building : Bool
  who : List Nat
  built : List Nat
  readers : List Nat
  deriving DecidableEq, Repr

/-! ### Memory tiers -/

/-- A mapped region, as recorded at map (R243, R245). -/
structure Region where
  base : Nat
  folios : Nat
  stride : Nat
  format : Nat
  job : Nat
  stateAddr : Nat
  home : Nat
  ceiling : Nat
  floor : Nat
  near : Nat
  deriving DecidableEq, Repr

/-- The TIER_HINT that made a request of R257: unit, stream, sequence number, and the dispatcher whose share it is. -/
structure Asker where
  unit : Nat
  stream : Nat
  seq : Nat
  parent : Option Nat
  deriving DecidableEq, Repr

/-- A move in progress (R253): region, Tile, destination tier, destination location word, whether it promotes, the tick
in which it began, the answers of its lender that are still out (R309), the bytes that have come from it by offset, and who
asked for it. -/
structure Move where
  region : Nat
  tile : Nat
  tier : Nat
  loc : Nat
  promo : Bool
  start : Nat
  left : Nat
  got : List (Nat × List (BitVec 8))
  asker : Option Asker
  deriving DecidableEq, Repr

/-- A request that waits for a move to commit, for room, or for the Cask writer (R257, R253, R376): region, Tile, the op of
TIER_HINT, its target, and who asked. -/
structure Req where
  region : Nat
  tile : Nat
  op : Nat
  target : Nat
  asker : Option Asker
  deriving DecidableEq, Repr

/-- A Tile in the remote tier that is being read from its lender for a read that waits (R262): region, Tile, the answers that are
still out, the bytes that have come by offset, and whether the lender could not be reached. -/
structure Fetch where
  region : Nat
  tile : Nat
  left : Nat
  got : List (Nat × List (BitVec 8))
  bad : Bool
  deriving DecidableEq, Repr

/-- A piece of a store that a Tile holds: which store, its offset and its length. -/
structure Extent where
  place : Nat
  off : Nat
  len : Nat
  deriving DecidableEq, Repr

/-- Bytes held by a job in HBM, the bulk tier and the remote tier, or its limits in 64 KB units (R259). -/
structure Quota where
  hbm : Nat
  bulk : Nat
  remote : Nat
  deriving DecidableEq, Repr

/-- A lease entry of the borrower (R260, R266). -/
structure Lease where
  dest : Nat
  state : Nat
  refused : Bool
  size : Nat
  expiry : Nat
  used : Nat
  deriving DecidableEq, Repr

/-- A lease that this module has granted (R260, R261): borrower, the borrower's entry, size, expiry, and where the lent space
lies: 2 · offset + die. -/
structure Grant where
  src : Nat
  entry : Nat
  size : Nat
  expiry : Nat
  base : Nat
  deriving DecidableEq, Repr

/-- The tier managers' state. -/
structure Tiers where
  regions : SMap Region
  moves : List Move
  /-- requests that wait, oldest first (R257) -/
  reqs : List Req
  /-- jobs and tiers for which EV_QUOTA_OVER has been raised while their use stays over the limit (R259) -/
  exceeded : List (Nat × Nat)
  extents : List Extent
  limits : SMap Quota
  use : SMap Quota
  /-- tick of the last use of a Tile, keyed region · 2^32 + Tile (R256) -/
  lastUse : SMap Nat
  leases : SMap Lease
  grants : List Grant
  /-- next block to scrub of controllers 0 to 15 and of the bulk tier of dies 0, 1 as 16, 17 (R264) -/
  scrub : SMap Nat
  /-- Tiles in the remote tier that are read from their lenders, and those written here whose lender has still to be sent the
  bytes: region and Tile (R258) -/
  fetches : List Fetch
  dirty : List (Nat × Nat)
  deriving DecidableEq, Repr

/-! ### Streams -/

/-- A stream context (R270), and what its slice holds for it. -/
structure Stream where
  sqBase : Nat
  sqExp : Nat
  cqBase : Nat
  cqExp : Nat
  sqHead : Nat
  sqTail : Nat
  cqTail : Nat
  cqPhase : Bool
  cqHead : Nat
  nextSeq : Nat
  inFlight : Nat
  credits : Nat
  owner : Nat
  job : Nat
  prio : Nat
  seqMode : Bool
  home : Nat
  state : Nat
  err : Nat
  /-- the fetched command that waits for its destination's credit (R277) -/
  fetched : Option (BitVec 256)
  /-- records not written yet, in order (R171, R281) -/
  recs : List Rec
  /-- tick since which a fetchable command waits unserved (R278) -/
  since : Nat
  /-- 1 while a Function Level Reset drains it (R492) -/
  flr : Bool
  /-- state before Stop-press (R384, R396) -/
  before : Nat
  /-- the tick, counted from 1, in which its last fetch was served (R405) -/
  servedAt : Nat
  deriving DecidableEq, Repr

/-- A context after reset: every field 0 (R270). -/
def Stream.reset : Stream :=
  ⟨0, 0, 0, 0, 0, 0, 0, false, 0, 0, 0, 0, 0, 0, 0, false, 0, 0, 0, none, [], 0, false, 0, 0⟩

/-- A job-table entry (R292, STM_JOB_DATA). -/
structure Job where
  fn : Nat
  valid : Bool
  limit : Nat
  deriving DecidableEq, Repr

/-- What has left the module, oldest first. -/
inductive Msg where
  /-- an MSI-X message: function, vector, address and data (R488) -/
  | msix (fn vec addr : Nat) (data : Word)
  /-- a register read's answer: function, offset, data -/
  | regRead (fn off : Nat) (v : Word)
  /-- a BAR2 read's answer, with the poisoned attribute (R481) -/
  | bar2Read (fn off : Nat) (data : List Byte) (poison : Bool)
  /-- an answer to a PCI Express configuration request: none for Request Retry Status (R483) -/
  | config (fn off : Nat) (v : Option Word)
  /-- a management reply of Muzomus: endpoint, command name, completion code, data (R494 to R497) -/
  | mgmt (ep : Nat) (what : String) (code : Nat) (data : List Nat)
  /-- a flit on the line of a port (R298) -/
  | flit (p : Nat) (f : Flit)
  /-- the four codewords that ten flits fill, by lane: the symbols that each of the 8 lanes carries (R297) -/
  | codewords (p : Nat) (l : List (List Nat))
  /-- what training step 3 sends: IZN_SELF, port number, VC shares, fabric time (R313) -/
  | hello (p id : Nat) (shares : List Nat) (time : Nat)
  /-- a PLDM event (R437) -/
  | event (id state : Nat)
  /-- what a data scan of the TAPs' chain shifts out: the instruction of die 0's TAP and the content of the register that it
  selects, then those of die 1's (R498) -/
  | tap (code0 v0 code1 v1 : Nat)
  deriving DecidableEq, Repr

/-- What decides the next ERR_FIRST of a page (R529): the tick of the status it holds, and that status's ordering key
(none for an error with no item). -/
structure FirstErr where
  tick : Nat
  key : Option (Nat × Nat × Nat)
  deriving DecidableEq, Repr

/-- A function's pending completions of one vector (R490): how many, and the tick of the first. -/
structure IrqPend where
  count : Nat
  since : Nat
  deriving DecidableEq, Repr

/-- The tier managers before anything is mapped (DESIGN CHOICE, log 9). -/
def Tiers.reset : Tiers := ⟨[], [], [], [], [], [], [], [], [], [], [], [], []⟩

/-- An entry of a Hydrometer slice (R182, R184). The largest magnitudes are F32 codes rounded up; `sumsq` is exact. -/
structure HydEnt where
  tensor : Nat
  step : Nat
  layer : Nat
  kind : Nat
  qexp : Nat
  count : Nat
  amaxPre : Nat
  amaxPost : Nat
  sat : Nat
  flush : Nat
  nonfinite : Nat
  sumsq : Val
  deriving DecidableEq, Repr

/-- A Hydrometer slice: its entries, least recently updated first, and its write queue (R188, R211). -/
structure HydSt where
  entries : List HydEnt
  queue : List (BitVec 256)
  deriving DecidableEq, Repr

def HydSt.reset : HydSt := ⟨[], []⟩

/-- What the governor has combined of step s for one layer and kind (R193, R205, R230). `h` is the smallest
ceil(log2 amax_pre) + qexp − 127 turned into a least headroom term: the largest such sum, none without a record. -/
structure Meas where
  peak : Option Int
  flush : Nat
  count : Nat
  sat : Nat
  amaxPre : Nat
  nonfinite : Nat
  sumsq : Val
  records : Nat
  deriving DecidableEq, Repr

def Meas.zero : Meas := ⟨none, 0, 0, 0, 0, 0, .fin false 0 0, 0⟩

/-- The measures of one role as the gang combines them (R193, R206): headroom, F, C, S, T as a binary64 value. -/
structure RoleMeas where
  h : Int
  f : Nat
  c : Nat
  s : Nat
  t : Val
  deriving DecidableEq, Repr

/-- A record of a peer's summary (R320). -/
structure PeerRec where
  layer : Nat
  role : Nat
  act : Nat
  ag : Nat
  m : RoleMeas
  deriving DecidableEq, Repr

/-- What has arrived from one gang peer for the boundary in progress. -/
structure PeerSum where
  src : Nat
  overflow : Bool
  last : Bool
  recs : List PeerRec
  deriving DecidableEq, Repr

/-- A Taster entry (R237): the means of the three roles as binary64 codes, jump count, step of the last jump. -/
structure TastEnt where
  fwd : Nat
  ag : Nat
  wg : Nat
  jumps : Nat
  last : Nat
  deriving DecidableEq, Repr

/-- The point governor and the Taster, beyond their registers. -/
structure Gov where
  /-- combined measures, keyed layer · 8 + kind -/
  meas : SMap Meas
  peers : List PeerSum
  /-- tick in which the boundary began, and phase 5 began -/
  started : Nat
  gangAt : Nat
  /-- the boundary met R207 -/
  timedOut : Bool
  /-- verdict held for room in the completion queue (R281) -/
  verdictHeld : Bool
  /-- Point table entries and policies as 256-bit numbers -/
  entries : SMap (BitVec 256)
  policies : SMap (BitVec 256)
  seeds : SMap (BitVec 64)
  actions : SMap Word
  tasters : SMap TastEnt
  /-- layers whose rungs changed in this boundary -/
  changed : List Nat
  /-- norms and ratios of this boundary as binary64 codes, keyed layer · 4 + role (R230) -/
  norms : SMap Nat
  ratios : SMap Nat
  /-- layers that the Taster raises in phase 7 (R197) -/
  raises : List Nat
  /-- ls_exp of the step that ends, as PTG_LSCALE holds it -/
  lsOld : Nat
  deriving DecidableEq, Repr

/-- The governor at reset (DESIGN CHOICE, log 9). -/
def Gov.reset : Gov := ⟨[], [], 0, 0, false, false, [], [], [], [], [], [], [], [], [], 0⟩

/-- A reduction context (R328). -/
structure RedCtx where
  job : Nat
  gen : Nat
  base : Nat
  ntiles : Nat
  nExpect : Nat
  lsbExp : Int
  armed : Bool
  deriving DecidableEq, Repr

def RedCtx.reset : RedCtx := ⟨0, 0, 0, 0, 0, 0, false⟩

/-- A map entry (R350). -/
structure MapEnt where
  job : Nat
  pset : Nat
  gangEn : Bool
  gangSplit : Nat
  regather : Bool
  valid : Bool
  gsize : Nat
  self : Nat
  depth : Nat
  actUnits : Nat
  reserve : Nat
  deriving DecidableEq, Repr

def MapEnt.reset : MapEnt := ⟨0, 0, false, 0, false, false, 0, 0, 0, 0, 0⟩

/-- A packet of a local command that has had no answer yet (R309): unit, stream, sequence number, destination, type,
address, tick of the send. -/
structure Outst where
  unit : Nat
  stream : Nat
  seq : Nat
  dest : Nat
  type : Nat
  addr : Nat
  time : Nat
  deriving DecidableEq, Repr

/-- A command held by a stop or a boundary capture (R368 section 4, R384): its word, its unit, the Chase that issued it,
where it stood (0 a unit's queue, 1 an outbound queue, 2 fetched and not yet at its unit), its ABORTED_STOP bit, its step. -/
structure Held where
  cmd : BitVec 256
  unit : Nat
  issuer : Option Nat
  place : Nat
  aborted : Bool
  step : Nat
  deriving DecidableEq, Repr

/-- A Tile of a Casked region as sections 7 and 8 record it (R368). -/
structure CaskTile where
  region : Nat
  tile : Nat
  exp : Nat
  poison : Bool
  pins : Nat
  data : List (BitVec 8)
  /-- the compressed Tile, and its offset in section 8 -/
  code : List (BitVec 8)
  off : Nat
  deriving DecidableEq, Repr

/-- The content of a Cask (R368, R370): header fields, then the sections. -/
structure CaskImg where
  kind : Nat
  flags : Nat
  serial : Nat
  step : Nat
  time : Nat
  module : Nat
  feed : Nat
  perCtl : Nat
  regs : SMap Word
  streams : SMap Stream
  cores : SMap CoreSt
  toks : SMap (List TokEnt)
  chaseMem : List Host.Cell
  held : List Held
  gov : Gov
  /-- Folios of section 6, and the bytes of the fixed range -/
  folios : List Nat
  fixed : List Host.Cell
  /-- Chases whose cores were going (section 3) -/
  runs : List Nat
  regions : SMap Region
  heel : List Nat
  tiles : List CaskTile
  inch : List (Nat × Packet)
  deriving DecidableEq, Repr

/-- A Cask read from another module for a restore (R393): the bytes that have come, in order, and the failure that a request met. -/
structure CaskFetch where
  got : List (BitVec 8)
  fail : Nat
  deriving DecidableEq, Repr

/-- The Cask writer, the risk estimator, Stop-press and the buddy, beyond their registers. -/
structure CaskSt where
  slotA : Option CaskImg
  slotB : Option CaskImg
  /-- the slot (0 A, 1 B) and content of the Cask being written -/
  writing : Option (Nat × CaskImg)
  /-- pending units (R373): (0, Folio) of the fixed range, (region + 1, Tile) of a region -/
  pend : List (Nat × Nat)
  held : List Held
  /-- the stop buffer, in arrival order: port and packet (R385) -/
  stopBuf : List (Nat × Packet)
  /-- an armed stop time -/
  armed : Option Nat
  requested : Bool
  /-- the step named by a gang notice (R378) -/
  gangStep : Option Nat
  /-- tick in which the critical path began (R381) -/
  critAt : Option Nat
  /-- a cut Cask is wanted when the stop under way completes (R381), or when every Forme is awake (R387, R446) -/
  critCut : Bool
  /-- the capture in progress serves the critical path: streams pause after it -/
  critPause : Bool
  lastCommit : Nat
  /-- the event counts of the last 64 periods, newest first, one list of 16 each -/
  history : List (List Nat)
  /-- running totals of the counted events at the last evaluation -/
  totals : List Nat
  alarms : Nat
  /-- regions that carry the heel mark (R368) -/
  heel : List Nat
  /-- tick of an unanswered pairing request -/
  pairAt : Option Nat
  /-- the Cask that is being mirrored, and the one a buddy has confirmed (R391, R392) -/
  mirroring : Option CaskImg
  mirrored : Option CaskImg
  /-- status answers to abandoned mirrors that still come (R392) -/
  stale : Nat
  /-- a mirror being received: buddy slot, serial, length (R391) -/
  receiving : Option (Nat × Nat × Nat)
  /-- buddy slots that hold a complete copy (R391, R394) -/
  copies : List Nat
  restoring : Option CaskImg
  /-- Chases to run again at resume (R396) -/
  runs : List Nat
  /-- core traps WATCHDOG, ECC and IMEM_PARITY so far (R379) -/
  traps : Nat
  /-- the serial number of the last Cask begun, kept in the Cellar directory (R370) -/
  serial : Nat
  /-- the stop in force has been reported (R386) -/
  told : Bool
  /-- corrected and uncorrectable errors where no counter of a page stands: Galley stores and the Cellar (R379) -/
  eccCorr : Nat
  eccUnc : Nat
  /-- Cellar writes that wait for a higher claimant, in order (R367): of the own Cask (else into a buddy slot), key, bytes -/
  owed : List (Bool × Nat × List (BitVec 8))
  /-- a resume is under way: packets of the stop buffer wait for moves or wakes (R253, R396, R446) -/
  resuming : Bool
  /-- the copy that a restore reads from another module (R393) -/
  fetch : Option CaskFetch
  /-- the STOP packet that ends a mirror waits for the copy to leave (R391) -/
  tailDue : Bool
  /-- the hcrc of a mirror that has ended, while writes of its copy still wait (R391) -/
  endAsked : Option Nat
  deriving DecidableEq, Repr

/-- The Cask writer at reset (DESIGN CHOICE, log 9). -/
def CaskSt.reset : CaskSt :=
  ⟨none, none, none, [], [], [], none, false, none, none, false, false, 0, [], [], 0, [], none, none, none, 0, none, [], none, [], 0, 0,
    false, 0, 0, [], false, none, false, none⟩

/-- A trace record (R407). -/
structure TrcRec where
  time : Nat
  seq : Nat
  src : Nat
  type : Nat
  d2 : Nat
  d3 : Nat
  deriving DecidableEq, Repr

/-- The trace queue of a Chase (R409): its records, and those dropped since the last gap marker with the time of the first. -/
structure TrcQ where
  recs : List TrcRec
  lost : Nat
  firstLost : Nat
  /-- the tick after the time of the core's last record (R408) -/
  last : Nat
  deriving DecidableEq, Repr

def TrcQ.reset : TrcQ := ⟨[], 0, 0, 0⟩

/-- The trace writer of a die (R410 to R414): the Chase it serves next, records to write before it freezes, records that
hold their slots, records lost with no marker yet and the time of the first, and the tick and source code of the last trigger marker. -/
structure TrcW where
  rot : Nat
  post : Nat
  held : Nat
  lost : Nat
  firstLost : Nat
  mark : Option (Nat × Nat)
  deriving DecidableEq, Repr

def TrcW.reset : TrcW := ⟨0, 0, 0, 0, 0, none⟩

/-- A hang snapshot in progress (R415): its capture tick, 1 for a timeout, the timed-out stream and sequence number, and
whether every unit has copied its state. -/
structure Hang where
  time : Nat
  trig : Nat
  stream : Nat
  seq : Nat
  copied : Bool
  deriving DecidableEq, Repr

/-- A data flit that its transmitter keeps until an ack covers it (R299): kind, channel, fseq, payload, how often it was
sent, and the packet that it carries bytes of. -/
structure SentFlit where
  kind : Nat
  vc : Nat
  fseq : Nat
  payload : List (BitVec 8)
  sends : Nat
  pkt : Packet
  deriving DecidableEq, Repr

/-- The link layer of an Izyen port (R298 to R301, R313, R314). -/
structure PortSt where
  /-- fseq of the next first copy -/
  txNext : Nat
  /-- the replay buffer, oldest first -/
  replay : List SentFlit
  /-- flits that a nak or a retrain has made due again: fseq, in order -/
  resend : List Nat
  /-- per channel, the packet under way and the index of its next flit -/
  cur : List (Nat × Packet × Nat)
  /-- credits held, and credits to return to the peer, by channel -/
  credits : SMap Nat
  due : SMap Nat
  /-- the fseq expected next -/
  rxNext : Nat
  nakDue : Bool
  /-- data flits are discarded until the expected one arrives -/
  discarding : Bool
  /-- bytes of the packet partly received on each channel -/
  part : SMap (List (BitVec 8))
  /-- packets complete in the receive buffer, not yet delivered -/
  inbox : List Packet
  /-- channels of the last first copies, newest first, at most 16 -/
  hist : List Nat
  /-- the weighted rotation: place among VC1, VC0, VC3 and turns left there -/
  rot : Nat × Nat
  /-- ticks in which codewords could not be corrected -/
  unc : List Nat
  /-- link words to send: kind and data -/
  words : List (Nat × Nat)
  /-- the tick in which the port entered its state (R313) -/
  at_ : Nat
  /-- flits sent that do not fill four codewords yet, and codewords sent before them (R297, R298) -/
  group : List Flit
  txCw : Nat
  /-- flits received, and the last codeword found uncorrectable (R314) -/
  rxFlits : Nat
  badCw : Option Nat
  /-- the peer's time of training step 3 plus the measured delay, and the ticks that had passed here then (R317) -/
  peerAt : Option (Nat × Nat)
  deriving DecidableEq, Repr

def PortSt.reset : PortSt :=
  ⟨0, [], [], [], [], [], 0, false, false, [], [], [], (0, 8), [], [], 0, [], 0, 0, none, none⟩

/-- Synchronisation with the parent (R316 to R318): the tick after the one in which the last exchange began, its stamps,
and exchanges in succession with a small offset. -/
structure SyncSt where
  started : Nat
  t1 : Option Nat
  t2 : Option Nat
  good : Nat
  /-- ticks that have passed, which fabric time need not follow (R133, R317) -/
  ticks : Nat
  /-- parts of a tick that the rate trim has gathered, in 2^-32, and ticks of phase still to correct, modulo 2^28 (R317) -/
  trimAcc : Nat
  phase : Nat
  deriving DecidableEq, Repr

/-- Time synchronisation at reset (DESIGN CHOICE, log 9). -/
def SyncSt.reset : SyncSt := ⟨0, none, none, 0, 0, 0, 0⟩

/-- A test that runs on a Forme (R426, R427): kind and step. -/
structure MonTest where
  forme : Nat
  kind : Nat
  step : Nat
  deriving DecidableEq, Repr

/-- The monitor of a die (R421 to R427), beyond its registers. Sensors are numbered 0 to 24 temperatures, 32 to 43
voltages, 64 to 72 ring oscillators. -/
structure MonSt where
  /-- last raw code of a sensor and how many conversions in succession gave it -/
  last : SMap (Nat × Nat)
  /-- sensors with a proof reading since proof mode was entered -/
  proofSeen : List Nat
  /-- EV_PROOF_READY has been raised since then -/
  proofReady : Bool
  /-- ticks spent in each histogram bin of a temperature or voltage sensor: sensor · 16 + bin (R432) -/
  bins : SMap Nat
  /-- thresholds reached and not fallen 2 °C below: sensor · 2 + level (0 warning, 1 critical) -/
  reached : List Nat
  /-- sensors that R422 has found implausible or stuck -/
  bad : List Nat
  /-- the counts that the last summary records ended with (R432) -/
  base : List Nat
  test : Option MonTest
  /-- voltage domains with a droop that has not ended (R424) -/
  droops : List Nat
  deriving DecidableEq, Repr

def MonSt.reset : MonSt := ⟨[], [], false, [], [], [], [], none, []⟩

/-- A formed Colophon record: type, die, time, boots, powered seconds, payload (R431). -/
structure ColRec where
  type : Nat
  die : Nat
  time : Nat
  boots : Nat
  secs : Nat
  payload : List (BitVec 8)
  deriving DecidableEq, Repr

/-- A die's Colophon (R430 to R434): next lseq, wraps, formed records that wait for the Cellar, records lost since the last
gap record and the time of the first, records discarded since reset. -/
structure ColSt where
  next : Nat
  wraps : Nat
  queue : List ColRec
  lost : Nat
  firstLost : Nat
  discarded : Nat
  deriving DecidableEq, Repr

def ColSt.reset : ColSt := ⟨0, 0, [], 0, 0, 0⟩

/-- The power controller (R440, R450 to R452), beyond its registers. -/
structure PowerSt where
  /-- 0 OFF, 1 STANDBY, 2 RUN -/
  vin : Nat
  /-- input voltage in 10 mV and current in 10 mA, averaged over 1 µs -/
  volts : Nat
  amps : Nat
  /-- intervals in rows 4 and 5 toward the next burst credit -/
  regain : Nat
  /-- power share by job, attributed use in the last window, and jobs whose streams are held -/
  shares : SMap Nat
  uses : SMap Nat
  deferred : List Nat
  /-- the shares in force in the present window, and each job's use in it so far -/
  inForce : SMap Nat
  present : SMap Nat
  /-- V_in above 84 V has disconnected the module (R440) -/
  tripped : Bool
  /-- ticks that the input has been above 84 V, or, once that has disconnected the module, below 80 V -/
  overTicks : Nat
  deriving DecidableEq, Repr



/-- A firmware update (R496, R497): endpoint, component, size, bytes so far, phase, largest transfer, verified. -/
structure Update where
  ep : Nat
  /-- 0 none yet, 1 Muzomus firmware, 2 option bytes -/
  classifier : Nat
  size : Nat
  image : List (BitVec 8)
  /-- 0 learning components, 1 ready to transfer, 2 downloading, 3 verifying, 4 applying, 5 applied -/
  phase : Nat
  maxTransfer : Nat
  verified : Bool
  deriving DecidableEq, Repr

/-- A Muzomus flash bank (R473): version, security version. -/
structure Bank where
  version : Nat
  security : Nat
  deriving DecidableEq, Repr

/-- Muzomus beyond its registers. -/
structure MzmSt where
  /-- power-on count and powered seconds before this fabric time began (R431) -/
  boots : Nat
  onBase : Nat
  /-- what Muzomus keeps of the last reset: its kind (0 power-on, 1 cold, 2 module), the words of RST_CAUSE, RST_CAUSE_T,
  RST_PARITY and RST_STORM -/
  kind : Nat
  cause : Nat
  causeT : Nat
  parity : Nat
  stormReg : Nat
  /-- powered seconds at which resets of sources 6 and 7 were taken (R462) -/
  storm : List Nat
  /-- units with a program or erase pulse under way: 0 SPI NOR, 1 flash bank, 2 Cellar NAND -/
  pulses : List Nat
  /-- a reset waits for those units -/
  deferred : Bool
  tid : Nat
  receiver : Option Nat
  /-- numeric sensors that SetNumericSensorEnable has disabled -/
  disabled : List Nat
  update : Option Update
  bankA : Bank
  bankB : Bank
  /-- the security-version counter (R473) -/
  secure : Nat
  /-- Muzomus starts: no image verified yet (R473, R475) -/
  restarting : Bool
  /-- the value of PWR_CAP_MGMT before the coolant cap (R500) -/
  coolSaved : Option Nat
  /-- straps: FEED_ID and JTAG_EN (R470) -/
  feedStrap : Nat
  jtagEn : Bool
  /-- SMB_ADDR (R512) -/
  smbStrap : Nat
  /-- PERST_N is low -/
  perst : Bool
  /-- instruction of each die's TAP and the content preloaded in its boundary register -/
  tapIr : SMap Nat
  boundary : SMap Nat
  /-- physical Chase positions fenced since power-on: (die · 72 + Galley) · 17 + position (R429) -/
  fences : List Nat
  /-- of the last option-byte read: copy B was used, its generation, no copy was valid (R466, R467) -/
  optCopy : Bool
  optGen : Nat
  optErr : Bool
  /-- the copy of the option bytes whose CRC is still to be programmed, and that CRC (R467) -/
  norCrc : Option (Nat × List (BitVec 8))
  /-- Muzomus restarts when its pulses have ended (R463, R475) -/
  restartDue : Bool
  /-- a CLR_CMD.read and a note append that wait for the Cellar: die and lseq of the read (R439) -/
  clrRd : Option (Nat × Nat)
  clrNote : Bool
  /-- the tick from which the weak pull-ups are off after step 8 (R470) -/
  pullsOff : Nat
  deriving DecidableEq, Repr

/-- The state of the module. -/
structure State where
  /-- the commands that wait, first in, first out -/
  pending : List Instr
  /-- how many free values the run has taken (the model's own) -/
  free : Nat
  /-- what left the module (the model's own record of its outputs) -/
  out : List Msg
  /-- fabric time (R40) -/
  time : Nat
  /-- registers by BAR0 offset; those that hold one value per function at offset + function · 2^28; writable words of the
  configuration spaces above 2^36 -/
  regs : SMap Word
  /-- latched _HI words (R531), keyed as `regs` -/
  latch : SMap Word
  /-- bytes of every memory, in the key spaces of `Ops` -/
  mem : List Host.Cell
  /-- 8-byte words with an error: 1 correctable, 2 uncorrectable -/
  ecc : SMap Nat
  /-- queues, by unit path -/
  units : SMap UnitSt
  /-- control cores, by Chase path -/
  cores : SMap CoreSt
  /-- Cell arrays, by Chase path -/
  arrs : SMap ArrSt
  /-- table sets, by Galley path · 2 + set -/
  tabs : SMap TabSet
  /-- tokens and program credits sent and not yet arrived, in the order in which they were sent (R39) -/
  net : List Sent
  tiers : Tiers
  streams : SMap Stream
  jobs : SMap Job
  /-- by page offset, how its ERR_FIRST was chosen (R529) -/
  firstErr : SMap FirstErr
  /-- pending completions, keyed function · 64 + vector (R490) -/
  irqs : SMap IrqPend
  /-- stream vector table bytes (R489) -/
  vectors : SMap Nat
  /-- PLDM events that wait for polling: sensor and state (R437) -/
  events : List (Nat × Nat)
  /-- routing table entries as IZN_RT_DATA words (R311) -/
  routes : SMap Word
  /-- Hydrometer slices, by Chase path -/
  hyds : SMap HydSt
  gov : Gov
  ctxs : SMap RedCtx
  /-- peer-set words, keyed set · 8 + member (R348) -/
  psets : SMap Word
  maps : SMap MapEnt
  /-- packets to this module itself, over the die fabric (R324) -/
  loop : List Packet
  /-- packets queued at the ports, keyed port · 4 + virtual channel -/
  txq : SMap (List Packet)
  outst : List Outst
  /-- TOKEN packets of completed collectives that wait for the last answer of their module, by unit (R327) -/
  owed : List (Nat × Packet)
  /-- the tick T of a Stop-press has come and the module has not resumed (R384) -/
  stopped : Bool
  cask : CaskSt
  /-- trace queues by Chase path, trace writers by die -/
  trq : SMap TrcQ
  trw : SMap TrcW
  hang : Option Hang
  /-- the always-on counters as last latched (R401), and the tick, counted from 1, in which they were -/
  snap : SMap Word
  snapAt : Nat
  /-- accesses that stall at the edge of a gated Forme, in order (R446) -/
  edge : List Instr
  /-- ticks in which wakes in progress began, keyed die · 16 + Forme -/
  wakeAt : SMap Nat
  /-- the gated state that each was woken from -/
  wakeFrom : SMap Nat
  /-- consecutive replays under way at a die's end of the bridge (R41) -/
  brgRun : SMap Nat
  /-- the home slice's stream served last, keyed home unit · 4 + priority (R278) -/
  served : SMap Nat
  /-- STM_ALLOC requests that wait for the allocator: function and value (R273) -/
  allocs : List (Nat × Word)
  /-- completions so far (the model's own) -/
  recNo : Nat
  /-- the tick after the one in which a source path last wrote a record (R284) -/
  recAt : SMap Nat
  /-- the link layer of each Izyen port -/
  ports : SMap PortSt
  sync : SyncSt
  /-- monitors and Colophons, by die -/
  mons : SMap MonSt
  cols : SMap ColSt
  power : PowerSt
  mzm : MzmSt
  deriving DecidableEq, Repr

/-- The power controller after a power-on reset: STANDBY until Muzomus powers the dies (R440). Input voltage and current
are the board's: 72 V and 0 A are the model's choice (DESIGN CHOICE, log 9). -/
def PowerSt.reset : PowerSt := ⟨1, 7200, 0, 0, [], [], [], [], [], false, 0⟩

/-- Muzomus as a power-on reset leaves it: it starts, and keeps the record of a reset of source 0x01, the first since
power-on (R459). Flash-bank contents, straps and the lifetime counts are the board's and the module's history: the model's
choice (DESIGN CHOICE, log 9). -/
def MzmSt.reset : MzmSt :=
  { boots := 1, onBase := 0, kind := 0, cause := 0x10001, causeT := 0, parity := 0, stormReg := 4, storm := [], pulses := [],
    deferred := false, tid := 0, receiver := none, disabled := [], update := none, bankA := ⟨0, 0⟩, bankB := ⟨0, 0⟩, secure := 0,
    restarting := true, coolSaved := none, feedStrap := 7, jtagEn := false, smbStrap := 3, perst := false, tapIr := [], boundary := [],
    fences := [], optCopy := false, optGen := 0, optErr := false, norCrc := none, restartDue := false, clrRd := none, clrNote := false,
    pullsOff := 0 }

/-- The module right after a power-on reset: every register at its reset value, nothing in any memory or queue, start-up at
its first step (R459, R469, R532) (PRESUMED, log 8; DESIGN CHOICE, log 9). -/
def State.reset : State :=
  { pending := [], free := 0, out := [], time := 0, regs := [], latch := [], mem := [], ecc := [], units := [], cores := [],
    arrs := [], tabs := [], net := [], tiers := Tiers.reset, streams := [], jobs := [], firstErr := [],
    irqs := [], vectors := [], events := [], routes := [], hyds := [], gov := Gov.reset, ctxs := [], psets := [], maps := [],
    loop := [], txq := [], outst := [], owed := [], stopped := false, cask := CaskSt.reset, trq := [], trw := [], hang := none, snap := [], snapAt := 0,
    edge := [], wakeAt := [], wakeFrom := [], brgRun := [], served := [], allocs := [], recNo := 0, recAt := [], ports := [], sync := SyncSt.reset,
    mons := [], cols := [], power := PowerSt.reset, mzm := MzmSt.reset }

end Sys2Proof.Machine
end

