-- ==== Sys2Proof/Machine/Ops.lean ====
section
/-! DEFINITION. The named operations over registers, memory bytes and unit paths that every meaning uses. -/

namespace Sys2Proof.Machine

/-! ### Unit paths (R19 to R22) -/

def pathLevel (p : Nat) : Nat := bits p 15 13
def pathDie (p : Nat) : Nat := bits p 12 12
def pathForme (p : Nat) : Nat := bits p 11 8
def pathGalley (p : Nat) : Nat := bits p 7 5
def pathChase (p : Nat) : Nat := bits p 4 1

/-- The module's own path (R20). -/
def modulePath : Nat := 0x8000

/-- A path that R19 and R20 allow. -/
def validPath (p : Nat) : Bool :=
  p < 0x10000 && pathLevel p ≤ 4 && pathForme p ≤ 8 && p % 2 == 0 &&
  (pathLevel p == 0 || pathChase p == 0) && (pathLevel p ≤ 1 || pathGalley p == 0) &&
  (pathLevel p ≤ 2 || pathForme p == 0) && (pathLevel p ≤ 3 || pathDie p == 0)

/-- A path to a Chase. -/
def isChase (p : Nat) : Bool := validPath p && pathLevel p == 0

def diePath (d : Nat) : Nat := 0x6000 + d * 0x1000
def formePath (d f : Nat) : Nat := 0x4000 + d * 0x1000 + f * 0x100
def galleyPath (d f g : Nat) : Nat := 0x2000 + d * 0x1000 + f * 0x100 + g * 0x20
def chasePath (d f g c : Nat) : Nat := d * 0x1000 + f * 0x100 + g * 0x20 + c * 2

/-- The logical Chase index within its die (R22). -/
def chaseIndex (p : Nat) : Nat := pathForme p * 128 + pathGalley p * 16 + pathChase p

/-- The Galley index within its die (R22). -/
def galleyIndex (p : Nat) : Nat := pathForme p * 8 + pathGalley p

/-- The Galley that holds a Chase or is the unit itself. -/
def galleyOf (p : Nat) : Nat := galleyPath (pathDie p) (pathForme p) (pathGalley p)

/-- The Forme that holds a unit. -/
def formeOf (p : Nat) : Nat := formePath (pathDie p) (pathForme p)

/-- The path of Chase `i` (0 to 1,151) of die `d`. -/
def chaseAt (d i : Nat) : Nat := chasePath d (i / 128) (i / 16 % 8) (i % 16)

/-- The members of a unit in ascending path order (R14). -/
def members (p : Nat) : List Nat :=
  match pathLevel p with
  | 1 => (List.range 16).map (chasePath (pathDie p) (pathForme p) (pathGalley p))
  | 2 => (List.range 8).map (galleyPath (pathDie p) (pathForme p))
  | 3 => (List.range 9).map (formePath (pathDie p))
  | 4 => [diePath 0, diePath 1]
  | _ => []

/-- The unit that dispatches to `p`: its container. -/
def containerOf (p : Nat) : Nat :=
  match pathLevel p with
  | 0 => galleyOf p
  | 1 => formeOf p
  | 2 => diePath (pathDie p)
  | _ => modulePath

/-- Whether unit `u` is `p` or contains it. -/
def contains (u p : Nat) : Bool :=
  u == p || u == modulePath ||
  (pathLevel p < pathLevel u && pathDie u == pathDie p &&
    (pathLevel u == 3 || (pathForme u == pathForme p && (pathLevel u == 2 || pathGalley u == pathGalley p))))

/-- All Chases of the module, in path order. -/
def allChases : List Nat := (List.range 2304).map (fun i => chaseAt (i / 1152) (i % 1152))

/-! ### Pages of BAR0 (R525, R526) -/

/-- A register page: its block type, die, instance and BAR0 offset. -/
structure Page where
  kind : PageKind
  die : Nat
  inst : Nat
  base : Nat
  deriving DecidableEq, Repr

/-- The rows of the table Die window: offset, instances, page, present on die 0 only (DEDUCED, log 136). -/
def dieWindow : List (Nat × Nat × PageKind × Bool) :=
  [(0x0000000, 1, .dieTop, false), (0x0001000, 1, .hydro, false), (0x0002000, 1, .gov, true),
   (0x0003000, 1, .taster, true), (0x0004000, 1, .tier, false), (0x0005000, 1, .stream, false),
   (0x0006000, 1, .mapping, true), (0x1000000, 1152, .chase, false), (0x1800000, 72, .galley, false),
   (0x1C00000, 9, .forme, false), (0x2000000, 8, .hbm, false), (0x2100000, 8, .port, false),
   (0x2200000, 1, .trace, false), (0x2300000, 1, .monitor, false), (0x2400000, 1, .power, false),
   (0x2500000, 1, .reset, false), (0x2600000, 1, .pcie, true)]

/-- The rows of the table Module-level pages. -/
def modulePages : List (Nat × PageKind) :=
  [(0x8000000, .muzomus), (0x8001000, .cellar), (0x8002000, .bulk), (0x8003000, .routing)]

/-- The size of a die window (R525). -/
def dieWin : Nat := 0x4000000

/-- The page that holds a BAR0 offset; none outside every page (R527) (DEDUCED, log 136). -/
def pageOf (off : Nat) : Option Page :=
  if off < 0x8000000 then
    let d := off / dieWin
    let w := off % dieWin
    match dieWindow.find? (fun r => decide (r.1 ≤ w) && decide (w < r.1 + r.2.1 * 0x1000)) with
    | some r =>
      let i := (w - r.1) / 0x1000
      if r.2.2.2 && d != 0 then none else some ⟨r.2.2.1, d, i, d * dieWin + r.1 + i * 0x1000⟩
    | none => none
  else
    match modulePages.find? (fun r => decide (r.1 ≤ off) && decide (off < r.1 + 0x1000)) with
    | some r => some ⟨r.2, 0, 0, r.1⟩
    | none => none

/-- BAR0 offset of the page of a kind on die `d`, instance `i`. -/
def pageBase (k : PageKind) (d i : Nat) : Nat :=
  match modulePages.find? (fun r => r.2 == k) with
  | some r => r.1
  | none =>
    match dieWindow.find? (fun r => r.2.2.1 == k) with
    | some r => d * dieWin + r.1 + i * 0x1000
    | none => 0

def govPage : Nat := 0x2000
def tasterPage : Nat := 0x3000
def tierPage (d : Nat) : Nat := d * dieWin + 0x4000
def streamPage (d : Nat) : Nat := d * dieWin + 0x5000
def mapPage : Nat := 0x6000
def dieTopPage (d : Nat) : Nat := d * dieWin
def hydroPage (d : Nat) : Nat := d * dieWin + 0x1000
/-- The register page of an HBM stack; of a port (DEDUCED, log 136). -/
def hbmPage (c : Nat) : Nat := (c / 8) * dieWin + 0x2000000 + (c % 8) * 0x1000
def portPage (p : Nat) : Nat := (p / 8) * dieWin + 0x2100000 + (p % 8) * 0x1000
def tracePage (d : Nat) : Nat := d * dieWin + 0x2200000
def monPage (d : Nat) : Nat := d * dieWin + 0x2300000
def powerPage (d : Nat) : Nat := d * dieWin + 0x2400000
def resetPage (d : Nat) : Nat := d * dieWin + 0x2500000
def pciePage : Nat := 0x2600000
def mzmPage : Nat := 0x8000000
def cellarPage : Nat := 0x8001000
def bulkPage : Nat := 0x8002000
def routePage : Nat := 0x8003000
def vectorTable : Nat := 0x2610000
def msixBase (fn : Nat) : Nat := 0x2620000 + 0x1000 * fn

/-- The register page of a unit (R22, R35, R36); the module's is the die top page of die 0. -/
def unitPage (p : Nat) : Nat :=
  match pathLevel p with
  | 0 => pathDie p * dieWin + 0x1000000 + chaseIndex p * 0x1000
  | 1 => pathDie p * dieWin + 0x1800000 + galleyIndex p * 0x1000
  | 2 => pathDie p * dieWin + 0x1C00000 + pathForme p * 0x1000
  | 3 => dieTopPage (pathDie p)
  | _ => dieTopPage 0

/-- The row of a register in its page. -/
def regRow (k : PageKind) (o : Nat) : Option RegRow :=
  (if o < 0x30 then commonRows else pageRows k).find? (fun r => r.off == o)

/-- The reset word of a register (R532, each register's table); the mask bit of an MSI-X table entry is 1 (PRESUMED, log 11). -/
def regReset (off : Nat) : Word :=
  let o := off % 2 ^ 28
  if 0x2620000 ≤ o && o < 0x2640000 then (if o % 0x1000 < 0x400 && o % 16 == 12 then 1 else 0)
  else
    match pageOf o with
    | some p =>
      if p.kind == .muzomus && o % 0x1000 == 0x0C then 0x20
      else
        match regRow p.kind (o % 0x1000) with
        | some r => BitVec.ofNat 32 r.reset
        | none => 0
    | none => 0

/-! ### Registers as stored -/

/-- The word a register holds. -/
def State.reg (s : State) (off : Nat) : Word := SMap.get regReset s.regs off

/-- `s` with the register at `off` holding `v`. -/
def State.setReg (s : State) (off : Nat) (v : Word) : State :=
  { s with regs := SMap.set regReset s.regs off v }

/-- A register as a number. -/
def State.regN (s : State) (off : Nat) : Nat := (s.reg off).toNat

def State.setRegN (s : State) (off v : Nat) : State := s.setReg off (BitVec.ofNat 32 v)

/-- A field of a register of the page at `base`. -/
def State.fld (s : State) (base : Nat) (f : Fld) : Nat := bits (s.regN (base + f.off)) f.hi f.lo

/-- `s` with a field of a register of the page at `base` set. -/
def State.setFld (s : State) (base : Nat) (f : Fld) (v : Nat) : State :=
  s.setRegN (base + f.off) (putBits (s.regN (base + f.off)) f.hi f.lo v)

def State.flag (s : State) (base : Nat) (f : Fld) : Bool := s.fld base f == 1

def State.setFlag (s : State) (base : Nat) (f : Fld) (b : Bool) : State := s.setFld base f (b2n b)

/-- A 64-bit value in a _LO, _HI pair at `off`. -/
def State.reg64 (s : State) (off : Nat) : Nat := s.regN off + s.regN (off + 4) * 2 ^ 32

def State.setReg64 (s : State) (off v : Nat) : State :=
  (s.setRegN off (v % 2 ^ 32)).setRegN (off + 4) (v / 2 ^ 32)

/-- Adds to an always-on counter word, wrapping (R399). -/
def State.bump (s : State) (base i n : Nat) : State :=
  s.setRegN (base + 0x30 + 4 * i) ((s.regN (base + 0x30 + 4 * i) + n) % 2 ^ 32)

/-- The next free value and the state that has taken it (DESIGN CHOICE, log 7). -/
def State.takeFree (s : State) : Nat × State := (Config.freeWord s.free, { s with free := s.free + 1 })

/-- Sends a message out of the module (DESIGN CHOICE, log 6). -/
def State.send (s : State) (m : Msg) : State := { s with out := s.out ++ [m] }

/-! ### Bytes of memory

Key spaces: Folio addresses below 2^50; the Chase stores from 2^51, 256 KB each; the Galley stores from 2^52, 2 MB each;
instruction and data memory of the control cores from 2^53, 32 KB a Chase; the Cellar from 2^54; lent bulk space
from 2^55. -/

/-- The index of a Chase over both dies. -/
def chaseNo (p : Nat) : Nat := pathDie p * 1152 + chaseIndex p

def chaseStore (p : Nat) : Nat := 2 ^ 51 + chaseNo p * 2 ^ 18
def galleyStore (p : Nat) : Nat := 2 ^ 52 + (pathDie p * 72 + galleyIndex p) * 2 ^ 21
def imemBase (p : Nat) : Nat := 2 ^ 53 + chaseNo p * 2 ^ 15
def dmemBase (p : Nat) : Nat := imemBase p + 2 ^ 14
def cellarBase : Nat := 2 ^ 54
def lentBase : Nat := 2 ^ 55

/-- What a byte that nothing has written reads as (PRESUMED, log 8). -/
def memDefault (_ : Nat) : BitVec 8 := 0

/-- The canonical form of the memory. -/
abbrev Memory.wf (m : List Host.Cell) : Bool := SMap.wf memDefault m

def State.byte (s : State) (a : Nat) : BitVec 8 := SMap.get memDefault s.mem a

def State.setByte (s : State) (a : Nat) (v : BitVec 8) : State := { s with mem := SMap.set memDefault s.mem a v }

/-- `n` bytes from `a`. -/
def State.bytes (s : State) (a : Nat) : Nat → List (BitVec 8)
  | 0 => []
  | n + 1 => s.byte a :: s.bytes (a + 1) n

/-- Writes bytes from `a` upward. -/
def State.setBytes (s : State) (a : Nat) : List (BitVec 8) → State
  | [] => s
  | v :: vs => (s.setByte a v).setBytes (a + 1) vs

/-- Bytes as a little-endian number. -/
def leNat : List (BitVec 8) → Nat
  | [] => 0
  | v :: vs => v.toNat + 256 * leNat vs

/-- A number as `n` little-endian bytes. -/
def leBytes (v : Nat) : Nat → List (BitVec 8)
  | 0 => []
  | n + 1 => BitVec.ofNat 8 v :: leBytes (v / 256) n

/-- `n` bytes from `a` as a little-endian number. -/
def State.num (s : State) (a n : Nat) : Nat := leNat (s.bytes a n)

def State.setNum (s : State) (a n v : Nat) : State := s.setBytes a (leBytes v n)

/-- The error mark of the 8-byte word that holds `a`: 0 none, 1 correctable, 2 uncorrectable. -/
def State.eccAt (s : State) (a : Nat) : Nat := SMap.get (fun _ => 0) s.ecc (a / 8)

def State.setEcc (s : State) (a v : Nat) : State := { s with ecc := SMap.set (fun _ => 0) s.ecc (a / 8) v }

/-- Some word of the `n` bytes from `a` holds an uncorrectable error. -/
def State.badIn (s : State) (a n : Nat) : Bool :=
  s.ecc.any (fun e => decide (a / 8 ≤ e.1) && decide (e.1 * 8 < a + n) && e.2 == 2)

/-- `n` undefined bytes written from `a` (free values) (DESIGN CHOICE, log 7). -/
def State.scramble (s : State) (a : Nat) : Nat → State
  | 0 => s
  | n + 1 => { (s.setByte a (Config.freeByte s.free)) with free := s.free + 1 }.scramble (a + 1) n

/-! ### Parts of the state by key -/

def State.unit (s : State) (p : Nat) : UnitSt := SMap.get (fun _ => UnitSt.reset) s.units p
def State.setUnit (s : State) (p : Nat) (u : UnitSt) : State :=
  { s with units := SMap.set (fun _ => UnitSt.reset) s.units p u }
def State.core (s : State) (p : Nat) : CoreSt := SMap.get (fun _ => CoreSt.reset) s.cores p
def State.setCore (s : State) (p : Nat) (c : CoreSt) : State :=
  { s with cores := SMap.set (fun _ => CoreSt.reset) s.cores p c }
def State.arr (s : State) (p : Nat) : ArrSt := SMap.get (fun _ => ArrSt.reset) s.arrs p
def State.setArr (s : State) (p : Nat) (a : ArrSt) : State :=
  { s with arrs := SMap.set (fun _ => ArrSt.reset) s.arrs p a }
def TabSet.reset : TabSet := ⟨[], false, false, [], [], []⟩
def State.tab (s : State) (k : Nat) : TabSet := SMap.get (fun _ => TabSet.reset) s.tabs k
def State.setTab (s : State) (k : Nat) (t : TabSet) : State :=
  { s with tabs := SMap.set (fun _ => TabSet.reset) s.tabs k t }
def State.stream (s : State) (i : Nat) : Stream := SMap.get (fun _ => Stream.reset) s.streams i
def State.setStream (s : State) (i : Nat) (t : Stream) : State :=
  { s with streams := SMap.set (fun _ => Stream.reset) s.streams i t }

/-- The job-table entry at reset: function 0, not valid, limit 0 (table Reset effects, R459). -/
def Job.reset : Job := ⟨0, false, 0⟩
def State.job (s : State) (j : Nat) : Job := SMap.get (fun _ => Job.reset) s.jobs j
def State.setJob (s : State) (j : Nat) (v : Job) : State :=
  { s with jobs := SMap.set (fun _ => Job.reset) s.jobs j v }

/-- Applies `f` to a list's elements in order. -/
def State.each {α : Type} (s : State) (l : List α) (f : α → State → State) : State :=
  l.foldl (fun s x => f x s) s

/-- `f` when the condition holds. -/
def State.when (s : State) (c : Bool) (f : State → State) : State := if c then f s else s

/-- The module is past the last step of start-up (R469, R483). -/
def State.ready (s : State) : Bool := s.flag (resetPage 0) Fld.RST_STATUS.ready

end Sys2Proof.Machine
end

