-- ==== Sys2Proof/Machine/Flags.lean ====
section
/-! DEFINITION. The flags a block raises and how they leave the module: statuses logged in a page (R529), events
(R491, R528), MSI-X messages (R488, R490), and the access rules that guard a register write (R484 to R486). -/

namespace Sys2Proof.Machine

/-! ### Status codes (R9) -/

def stOk : Nat := 0x00
def stLength : Nat := 0x01
def stFormat : Nat := 0x02
def stStreamFull : Nat := 0x03
def stCreditTo : Nat := 0x04
def stTokenTo : Nat := 0x05
def stStale : Nat := 0x06
def stGenOld : Nat := 0x07
def stChecksum : Nat := 0x08
def stEcc : Nat := 0x09
def stWakeTo : Nat := 0x0A
def stPrivilege : Nat := 0x0B
def stQuota : Nat := 0x0C
def stAbortFault : Nat := 0x0D
def stAbortStop : Nat := 0x0E
def stOverflow : Nat := 0x0F
def stRecompute : Nat := 0x10
def stLinkDown : Nat := 0x11
def stAddress : Nat := 0x12
def stTier : Nat := 0x13
def stConflict : Nat := 0x14
def stNormJump : Nat := 0x15

/-! ### Order of sequence numbers and keys -/

/-- `a` is later than `b` (R282). -/
def seqLater (a b : Nat) : Bool :=
  let d := (a + 2 ^ 32 - b % 2 ^ 32) % 2 ^ 32
  0 < d && d < 2 ^ 31

/-- `a` is equal to or later than `b` (R282). -/
def seqGe (a b : Nat) : Bool := a % 2 ^ 32 == b % 2 ^ 32 || seqLater a b

/-- Key order (time, path, seq) of R283. -/
def keyLt (a b : Nat × Nat × Nat) : Bool :=
  if a.1 != b.1 then a.1 < b.1 else if a.2.1 != b.2.1 then a.2.1 < b.2.1 else seqLater b.2.2 a.2.2

/-! ### Logging (R529) -/

/-- The bit of ERR_STATUS that a status sets (R528). -/
def errBit (code : Nat) : Nat := if 0x80 ≤ code then 31 else code

/-- Whether a status logged now displaces the one ERR_FIRST took earlier in this tick (R529). -/
def displaces (now : Nat) (old : FirstErr) (oldCode : Nat) (key : Option (Nat × Nat × Nat)) (code : Nat) : Bool :=
  old.tick == now &&
  match key, old.key with
  | some k, some k' => keyLt k k'
  | some _, none => true
  | none, none => code < oldCode
  | none, some _ => false

/-- Logs a status in the page at `base`; `key` is the ordering key of the item that failed, if there is one. -/
def logKeyed (base code : Nat) (key : Option (Nat × Nat × Nat)) (s : State) : State :=
  if code = 0 then s
  else
    let es := s.regN (base + 0x18)
    let old := SMap.get (fun _ => (⟨0, none⟩ : FirstErr)) s.firstErr base
    let s1 := s.setRegN (base + 0x18) (putBits es (errBit code) (errBit code) 1)
    if es = 0 || displaces s.time old (bits (s.regN (base + 0x1C)) 7 0) key code then
      let seq := match key with | some k => k.2.2 % 2 ^ 24 | none => 0
      let s2 := s1.setRegN (base + 0x1C) (code + seq * 256)
      { s2 with firstErr := SMap.set (fun _ => ⟨0, none⟩) s2.firstErr base ⟨s.time, key⟩ }
    else s1

/-- Logs a status with no item. -/
def logStatus (base code : Nat) (s : State) : State := logKeyed base code none s

/-- Logs the status of an item with sequence number `seq` at unit `path`. -/
def logItem (base code path seq : Nat) (s : State) : State := logKeyed base code (some (s.time, path, seq)) s

/-! ### MSI-X (R488) and events (R491) -/

/-- Key, among the registers, of a word of a function's configuration space (PRESUMED, log 122). -/
def cfgKey (fn off : Nat) : Nat := 2 ^ 36 + 0xF000000 + fn * 0x1000 + off

/-- The function's MSI-X is disabled or masked as a whole, by its message control, or the vector's own mask bit is 1: the rules of
PCI Express, under which no message of the vector leaves (R488) (PRESUMED, log 11). -/
def vecHeld (s : State) (fn vec : Nat) : Bool :=
  let c := s.regN (cfgKey fn 0x80)
  !(bit c 31) || bit c 30 || bit (s.regN (msixBase fn + 16 * vec + 12)) 0

/-- The message of a vector: the address and data that its table entry holds. -/
def msixMsg (s : State) (fn vec : Nat) : Msg :=
  let e := msixBase fn + 16 * vec
  .msix fn vec (s.reg64 e) (s.reg (e + 8))

/-- The word of the pending-bit array that holds a vector's bit. -/
def pbaWord (fn vec : Nat) : Nat := msixBase fn + 0x800 + 4 * (vec / 32)

def setVecPending (fn vec b : Nat) (s : State) : State :=
  s.setRegN (pbaWord fn vec) (putBits (s.regN (pbaWord fn vec)) (vec % 32) (vec % 32) b)

/-- Sends a vector's message, or marks it pending while it is masked. -/
def sendVector (fn vec : Nat) (s : State) : State :=
  if vecHeld s fn vec then setVecPending fn vec 1 s else s.send (msixMsg s fn vec)

/-- A vector that is masked no longer sends the message that is pending. -/
def releaseVector (fn vec : Nat) (s : State) : State :=
  if vecHeld s fn vec || !(bit (s.regN (pbaWord fn vec)) (vec % 32)) then s
  else sendVector fn vec (setVecPending fn vec 0 s)

/-- A platform event: sent to the receiver, or held for polling; of more than 256 the oldest is dropped (R437) (DEDUCED, log 73). -/
def queueEvent (id state : Nat) (s : State) : State :=
  match s.mzm.receiver with
  | some _ => s.send (.event id state)
  | none => { s with events := (s.events ++ [(id, state)]).drop (s.events.length + 1 - 256) }

/-- Sets EV_RAW bits of the page at `base`; a bit of EV_PENDING that rises reaches the page's owner: vector 0 of its
function; Muzomus, where mgmt is 1, forwards those of R437 only (R491), unless CTRL.ev_quiet holds it back. -/
def raiseMask (base mask : Nat) (s : State) : State :=
  let raw := s.regN (base + 0x20)
  let en := s.regN (base + 0x24)
  let s1 := s.setRegN (base + 0x20) (raw ||| mask)
  let rising := (mask &&& en) &&& (raw ^^^ 0xFFFFFFFF)
  if rising = 0 || s.flag base Fld.CTRL.ev_quiet then s1
  else if s.flag base Fld.PAGE_OWNER.mgmt then s1
  else sendVector (s.fld base Fld.PAGE_OWNER.function) 0 s1

/-- Raises event `b` of the page at `base`. -/
def raiseEv (base b : Nat) (s : State) : State := raiseMask base (2 ^ b) s

/-! ### Access to registers (R484 to R486) -/

/-- The accessor number of Muzomus. -/
def mzmFn : Nat := 32

/-- Whether the accessor owns the page at `base`. -/
def ownsPage (s : State) (fn base : Nat) : Bool :=
  if s.flag base Fld.PAGE_OWNER.mgmt then fn == mzmFn else fn == s.fld base Fld.PAGE_OWNER.function && fn < 32

/-- The accessor may read the page: its owner, the physical function and Muzomus (table Page access) (DEDUCED, log 116). -/
def mayRead (s : State) (fn base : Nat) : Bool := ownsPage s fn base || fn == 0 || fn == mzmFn

/-- Records a refused BAR access in PCI_PRIV_LAST and PCI_PRIV_FN (R485, R481); Muzomus is no function of the link. -/
def recordPriv (fn off bar code : Nat) (s : State) : State :=
  if fn ≥ 32 then s
  else
    (s.setRegN (pciePage + 0x94) (off % 2 ^ 28 + bar * 2 ^ 28 + 2 ^ 29)).setRegN (pciePage + 0x98) (fn + code * 32)

/-- A refused register access: PRIVILEGE in the page addressed, function and offset recorded (R485). -/
def refuseAccess (fn off : Nat) (s : State) : State :=
  recordPriv fn off 0 0
    (match pageOf off with
     | some p => logStatus p.base stPrivilege s
     | none => s)

/-- A register write by `fn` at `off`: dropped before the module is ready (R483), refused unless `allowed`. -/
def guarded (fn off : Nat) (allowed : Bool) (act : State → State) (s : State) : State :=
  if fn < 32 && !s.ready then s
  else if allowed then act s
  else refuseAccess fn off s

/-- A write that only the page's owner makes. -/
def ownerWrite (fn base o : Nat) (act : State → State) (s : State) : State :=
  guarded fn (base + o) (ownsPage s fn base) act s

/-- A write that only the physical function makes (R292, R400, R438, R476). -/
def pfWrite (fn off : Nat) (act : State → State) (s : State) : State := guarded fn off (fn == 0) act s

/-! ### The order of posted writes (R482) -/

/-- The function whose posted write a command is. -/
def postedFn : Instr → Option Nat
  | .coreRun fn _ => some fn
  | .coreHalt fn _ => some fn
  | .coreStep fn _ => some fn
  | .coreReset fn _ => some fn
  | .coreWake fn _ => some fn
  | .loadImem fn _ => some fn
  | .loadDmem fn _ => some fn
  | .chsMemDataAccess fn _ wr _ => if wr then some fn else none
  | .stepEnd fn _ => some fn
  | .hydRingCfgWrite fn _ _ => some fn
  | .ptgEntLoad fn => some fn
  | .ptgEntCommit fn => some fn
  | .lscaleWrite fn _ => some fn
  | .seedLoad fn => some fn
  | .seedCommit fn => some fn
  | .tstEntLoad fn => some fn
  | .tstEntCommit fn => some fn
  | .regionMap fn _ => some fn
  | .regionUnmap fn _ => some fn
  | .quotaLoad fn => some fn
  | .quotaCommit fn => some fn
  | .leaseLoad fn => some fn
  | .leaseRequest fn => some fn
  | .leaseRenew fn => some fn
  | .leaseRelease fn => some fn
  | .lendCfgWrite fn _ _ => some fn
  | .streamAlloc fn _ => some fn
  | .streamContextWrite fn _ _ _ => some fn
  | .streamActivate fn _ => some fn
  | .streamPause fn _ => some fn
  | .streamResume fn _ => some fn
  | .streamClose fn _ => some fn
  | .sqDoorbell fn _ _ => some fn
  | .cqDoorbell fn _ _ => some fn
  | .jobLoad fn => some fn
  | .jobCommit fn => some fn
  | .portEnable fn _ _ => some fn
  | .portRetrain fn _ => some fn
  | .rtLoad fn => some fn
  | .rtCommit fn => some fn
  | .ctxLoad fn => some fn
  | .ctxArm fn => some fn
  | .ctxDisarm fn => some fn
  | .psetLoad fn => some fn
  | .psetCommit fn => some fn
  | .mapEntLoad fn => some fn
  | .mapEntCommit fn => some fn
  | .caskRequest fn => some fn
  | .stopArm fn _ => some fn
  | .caskCut fn => some fn
  | .caskResume fn => some fn
  | .caskRestore fn _ => some fn
  | .buddyPair fn _ => some fn
  | .feedWrite fn _ => some fn
  | .traceEnable fn _ _ => some fn
  | .traceTrigger fn _ => some fn
  | .traceArm fn _ => some fn
  | .counterSnap fn => some fn
  | .snapRelease fn => some fn
  | .hangRequest fn => some fn
  | .proofModeWrite fn _ _ => some fn
  | .marginStart fn _ _ => some fn
  | .clrRead fn => some fn
  | .clrAppend fn => some fn
  | .formeWakeRetry fn _ _ => some fn
  | .forceOnWrite fn _ _ _ => some fn
  | .capWrite fn _ _ => some fn
  | .shareLoad fn => some fn
  | .shareCommit fn => some fn
  | .claimDuty fn => some fn
  | .releaseDuty fn => some fn
  | .claimVset fn => some fn
  | .releaseVset fn => some fn
  | .rstCtrlWrite fn _ => some fn
  | .bar2Write fn _ _ => some fn
  | .streamVectorWrite fn _ _ => some fn
  | .pageOwnerWrite fn _ _ => some fn
  | .claimWake fn => some fn
  | .releaseWake fn => some fn
  | .claimFault fn => some fn
  | .releaseFault fn => some fn
  | .errStatusClear fn _ _ => some fn
  | .evRawClear fn _ _ => some fn
  | .evForceWrite fn _ _ => some fn
  | .regWrite fn _ _ => some fn
  | _ => none

/-- Memory key of the shadow of the option bytes (DEDUCED, log 129). -/
def shadowBase : Nat := 2 ^ 56 + 2 ^ 20

/-- Virtual functions of SR-IOV: at most 31 (R477, R479). -/
def totalVfs (s : State) : Nat := min 31 (s.num (shadowBase + 0xAE) 1)

/-- Accessor `fn` exists: the physical function, a virtual function up to TotalVFs, or Muzomus (DEDUCED, log 110). -/
def fnThere (s : State) (fn : Nat) : Bool := fn == 0 || decide (fn ≤ totalVfs s) || fn == mzmFn

/-- An earlier posted write of the function still waits: at the edge of a Forme, for a move or for the Cask writer (DEDUCED,
log 110). -/
def heldBehind (s : State) (fn : Nat) : Bool := s.edge.any (fun i => postedFn i == some fn)

/-- An access of function `fn`, made only once every earlier posted write of the function has been applied; a function that does
not exist makes none (DEDUCED, log 110). -/
def posted (fn : Nat) (i : Instr) (act : State → State) (s : State) : State :=
  if !(fnThere s fn) then s
  else if fn < 32 && heldBehind s fn then { s with edge := s.edge ++ [i] }
  else act s

end Sys2Proof.Machine
end

