-- ==== Sys2Proof/Machine/Colophon.lean ====
section
/-! DEFINITION. CRC-32C, and the Colophon of each die (R430 to R434): a ring of 64-byte records in the Cellar's system area. -/

namespace Sys2Proof.Machine

/-! ### CRC-32C -/

/-- One bit of the reflected CRC-32C, polynomial 0x1EDC6F41. -/
def crcBit (c : Nat) : Nat := if c % 2 = 1 then (c / 2) ^^^ 0x82F63B78 else c / 2

def crcByte (c : Nat) (b : BitVec 8) : Nat :=
  crcBit (crcBit (crcBit (crcBit (crcBit (crcBit (crcBit (crcBit (c ^^^ b.toNat))))))))

/-- CRC-32C of a list of bytes. -/
def crc32c (l : List (BitVec 8)) : Nat := l.foldl crcByte 0xFFFFFFFF ^^^ 0xFFFFFFFF

/-! ### The Colophon -/

def State.col (s : State) (d : Nat) : ColSt := SMap.get (fun _ => ColSt.reset) s.cols d
def State.setCol (s : State) (d : Nat) (c : ColSt) : State := { s with cols := SMap.set (fun _ => ColSt.reset) s.cols d c }

/-- Records of a Colophon, and those of its birth section (R433). -/
def colRecs : Nat := 268435456
def colBirth : Nat := 65536

/-- The place of the record with lifetime number `n`. -/
def colPlace (n : Nat) : Nat := if n < colRecs then n else colBirth + (n - colRecs) % (colRecs - colBirth)

/-- The memory key of the record with lifetime number `n` of die `d` (table Cellar system area). -/
def colAddr (d n : Nat) : Nat := cellarBase + 2 ^ 30 + d * 2 ^ 34 + 64 * colPlace n

/-- Lifetime powered seconds (R431) (DEDUCED, log 78). -/
def onSecs (s : State) : Nat := s.mzm.onBase + s.sync.ticks / 1062500000

/-- A list of bytes cut or filled with zeros to `n` bytes. -/
def fit (n : Nat) (l : List (BitVec 8)) : List (BitVec 8) := (l ++ List.replicate n 0).take n

/-- The 64 bytes of a record (R431) (DESIGN CHOICE, log 75). -/
def colBytes (n : Nat) (r : ColRec) : List (BitVec 8) :=
  let l := leBytes n 8 ++ leBytes r.time 8 ++ leBytes r.boots 4 ++ leBytes r.secs 4 ++ leBytes r.type 1 ++ leBytes r.die 1 ++
    leBytes 0 2 ++ fit 32 r.payload
  l ++ leBytes (crc32c l) 4

/-- Writes a formed record at the end of a die's Colophon. -/
def colWrite (d : Nat) (r : ColRec) (s : State) : State :=
  let c := s.col d
  let s := s.setBytes (colAddr d c.next) (colBytes c.next r)
  let wrap := decide (colRecs ≤ c.next) && (c.next - colRecs) % (colRecs - colBirth) == 0
  s.setCol d { c with next := c.next + 1, wraps := min 65535 (c.wraps + b2n wrap) }

/-- A record as it is formed now (DESIGN CHOICE, log 75). -/
def colForm (s : State) (d type : Nat) (payload : List (BitVec 8)) : ColRec :=
  ⟨type, d, s.time, s.mzm.boots, onSecs s, payload⟩

/-- No pulse begins: a reset waits for pulses to end, V_in is below 56 V, or nothing is powered (R440, R463, R464) (DEDUCED,
log 74). -/
def pulseBarred (s : State) : Bool := s.mzm.deferred || s.power.vin == 0 || decide (s.power.volts < 5600)

/-- The Cellar takes no record now: a pulse to its NAND runs, or none may begin (R434, R463, R464) (DEDUCED, log 74). -/
def cellarBusy (s : State) : Bool := s.mzm.pulses.contains 2 || pulseBarred s

/-- Muzomus appends a record, or queues it, at most 4,096 of them; further ones are lost (R432, R434) (DEDUCED, log 74). -/
def colAppend (d type : Nat) (payload : List (BitVec 8)) (s : State) : State :=
  let r := colForm s d type payload
  let c := s.col d
  if !(cellarBusy s) && c.queue.isEmpty then colWrite d r s
  else if c.queue.length < 4096 then s.setCol d { c with queue := c.queue ++ [r] }
  else s.setCol d { c with lost := c.lost + 1, firstLost := if c.lost = 0 then s.time else c.firstLost,
                           discarded := min (2 ^ 32 - 1) (c.discarded + 1) }

/-- Appends to both Colophons. -/
def colBoth (type : Nat) (payload : List (BitVec 8)) (s : State) : State :=
  colAppend 1 type payload (colAppend 0 type payload s)

/-- The Cellar is free again: the queue is written, then one gap record for what was lost (R434). -/
def colFlush (d : Nat) (s : State) : State :=
  if cellarBusy s then s
  else
    let c := s.col d
    let s := (s.setCol d { c with queue := [], lost := 0 }).each c.queue (colWrite d)
    if c.lost = 0 then s else colWrite d (colForm s d 0x0F (leBytes c.lost 4 ++ leBytes c.firstLost 8)) s

/-- A pulse to the Cellar NAND begins (DEDUCED, log 74). -/
def cellarPulse (s : State) : State :=
  if cellarBusy s then s else { s with mzm := { s.mzm with pulses := s.mzm.pulses ++ [2] } }

end Sys2Proof.Machine
end

