-- ==== Sys2Proof/Machine/Folio.lean ====
section
/-! DEFINITION. Folio space (R240 to R251): translation through the fixed range, directory, leaves and region records,
Tile state entries, the Kern codec's lengths, placement, allocation, quotas, and error protection. -/

namespace Sys2Proof.Machine

/-! ### Routing, as far as a lender's reach needs it (R311) -/

/-- A port is usable only while it is UP (R311, R313). -/
def portUp (s : State) (p : Nat) : Bool := s.fld (portPage p) Fld.IZN_PORT_STATUS.state == 2

def State.route (s : State) (dest : Nat) : Nat := (SMap.get (fun _ => (0 : Word)) s.routes dest).toNat

/-- The port used for a packet to `dest` of stream `stream` (table Route modes); none when no entry routes it (DEDUCED, log 58). -/
def routePort (s : State) (dest stream : Nat) : Option Nat :=
  let e := s.route dest
  let a := bits e 3 0
  let b := bits e 7 4
  if !(bit e 10) then none
  else
    match bits e 9 8 with
    | 0 => some a
    | 1 => some (if portUp s a then a else b)
    | 2 =>
      let c := if stream % 2 = 0 then a else b
      let o := if stream % 2 = 0 then b else a
      some (if portUp s c then c else o)
    | _ => none

def selfId (s : State) : Nat := s.fld routePage Fld.IZN_SELF.id

/-- A packet to `dest` can leave: it is this module, or a usable port routes it. -/
def reachable (s : State) (dest : Nat) : Bool :=
  dest == selfId s ||
  match routePort s dest 0 with
  | some p => portUp s p
  | none => false

/-! ### The fixed range, the directory and the leaves (R240 to R242) -/

def perCtl (s : State) : Nat := min (s.fld (tierPage 0) Fld.DIE_FIXED.per_ctl) 393216

/-- Folios of the fixed range. -/
def fixedFolios (s : State) : Nat := 16 * perCtl s

/-- `n` bytes from `a` lie in the fixed range. -/
def inFixed (s : State) (a n : Nat) : Bool := decide (a + n ≤ fixedFolios s * 65536)

def fmapBase (s : State) : Nat := s.reg64 (tierPage 0 + 0x84)
def regionBase (s : State) : Nat := s.reg64 (tierPage 0 + 0x8C)
def regionLimit (s : State) : Nat := min (s.fld (tierPage 0) Fld.DIE_REGION_LIMIT.limit) 1048576

/-- The address of the leaf that covers Folio `f`, when its directory entry is valid. -/
def leafOf (s : State) (f : Nat) : Option Nat :=
  let e := s.num (fmapBase s + 8 * (f / 131072)) 8
  if bit e 0 then some (bits e 49 20 * 2 ^ 20) else none

/-- The address of the leaf entry of Folio `f`. -/
def leafEntryAddr (s : State) (f : Nat) : Option Nat := (leafOf s f).map (fun l => l + 8 * (f % 131072))

/-- The region id that Folio `f` is mapped to (R242). -/
def regionOf (s : State) (f : Nat) : Option Nat :=
  if f < fixedFolios s || 2 ^ 34 ≤ f then none
  else
    match leafEntryAddr s f with
    | some a =>
      let e := s.num a 8
      if bit e 0 then some (bits e 20 1) else none
    | none => none

/-- Folio `f` is mapped (R240, R242). -/
def mapped (s : State) (f : Nat) : Bool := decide (f < fixedFolios s) || (regionOf s f).isSome

/-- The first Folio of `n` Folios from `f` that is not mapped or out of range. -/
def firstUnmapped (s : State) (f : Nat) : Nat → Option Nat
  | 0 => none
  | n + 1 => if f < 2 ^ 34 && mapped s f then firstUnmapped s (f + 1) n else some f

/-- The first unmapped Folio that `n` bytes from `a` touch. -/
def unmappedIn (s : State) (a n : Nat) : Option Nat :=
  if n = 0 then none else firstUnmapped s (a / 65536) ((a + n - 1) / 65536 - a / 65536 + 1)

/-! ### Tiles of regions (R243, R246, R247) -/

/-- A Tile of a mapped region: region id, region, index. -/
structure TileRef where
  id : Nat
  reg : Region
  j : Nat
  deriving DecidableEq, Repr

def Region.strideBytes (r : Region) : Nat := 128 * r.stride

/-- Tiles of a region (R243). -/
def Region.tiles (r : Region) : Nat := ceilDiv (r.folios * 512) r.stride

/-- Folio address of Tile `j`. -/
def Region.tileAddr (r : Region) (j : Nat) : Nat := r.base * 65536 + j * r.strideBytes

/-- Bytes of Tile `j` that lie in the region: past its end they are not addressable (R243). -/
def Region.tileLen (r : Region) (j : Nat) : Nat := min r.strideBytes (r.folios * 65536 - j * r.strideBytes)

def State.region (s : State) (id : Nat) : Option Region := SMap.find? s.tiers.regions id

/-- A unit that the Cask writer has still to copy, a Folio of the fixed range or a Tile, holds a byte of the range (R373). -/
def unitMeets (s : State) (a n : Nat) (u : Nat × Nat) : Bool :=
  if u.1 = 0 then decide (u.2 * 65536 < a + n) && decide (a < u.2 * 65536 + 65536)
  else
    match s.region (u.1 - 1) with
    | some r => decide (r.tileAddr u.2 < a + n) && decide (a < r.tileAddr u.2 + r.tileLen u.2)
    | none => false

/-- A byte of the range lies in a unit that the Cask writer has not copied yet (R376). -/
def pendingIn (s : State) (a n : Nat) : Bool := s.cask.pend.any (unitMeets s a n)

/-- A write by the module itself copies the pending units that it touches first: their marks go (R373, R376) (DEDUCED, log 139). -/
def copyFirst (a n : Nat) (s : State) : State :=
  { s with cask := { s.cask with pend := s.cask.pend.filter (fun u => !(unitMeets s a n u)) } }

/-- The whole words of `n` bytes from key `k` take fresh check bits (R265). -/
def cleanEcc (k n : Nat) (s : State) : State :=
  { s with ecc := s.ecc.filter (fun e => !(decide (k ≤ e.1 * 8) && decide (e.1 * 8 + 8 ≤ k + n))) }

/-- A write to the fixed range by the module itself: pending units copied first, fresh check bits. -/
def fixedWrite (a n v : Nat) (s : State) : State := cleanEcc a n ((copyFirst a n s).setNum a n v)

/-- The region Tile that holds the byte at `a`. -/
def tileAt (s : State) (a : Nat) : Option TileRef :=
  match regionOf s (a / 65536) with
  | some id =>
    match s.region id with
    | some r => some ⟨id, r, (a - r.base * 65536) / r.strideBytes⟩
    | none => none
  | none => none

def TileRef.addr (t : TileRef) : Nat := t.reg.tileAddr t.j
def TileRef.len (t : TileRef) : Nat := t.reg.tileLen t.j

/-- The part of `n` bytes from `a` that lies in a Tile: its first byte and its length. -/
def TileRef.part (t : TileRef) (a n : Nat) : Nat × Nat :=
  (max a t.addr, min (a + n) (t.addr + t.len) - max a t.addr)

/-- The Tile state entry, a 128-bit number. -/
def tileState (s : State) (t : TileRef) : Nat := s.num (t.reg.stateAddr + 16 * t.j) 16

/-- Each entry is written as one 16-byte write (R246). -/
def setTileState (t : TileRef) (e : Nat) (s : State) : State := fixedWrite (t.reg.stateAddr + 16 * t.j) 16 e s

def tsTier (e : Nat) : Nat := bits e 2 0
def tsTransit (e : Nat) : Bool := bit e 3
def tsPoison (e : Nat) : Bool := bit e 4
def tsLost (e : Nat) : Bool := bit e 5
def tsPins (e : Nat) : Nat := bits e 9 6
def tsClaims (e : Nat) : Nat := bits e 17 10
def tsExp (e : Nat) : Nat := bits e 19 18
def tsClen (e : Nat) : Nat := bits e 47 32
def tsLoc (e : Nat) : Nat := bits e 127 64

/-- The state of a Tile that nothing has written: tier 7. -/
def tsNever : Nat := 7

/-- The region's pin bit, read from its record at each decision (R243). -/
def regionPin (s : State) (id : Nat) : Bool := bit (s.num (regionBase s + 64 * id + 8) 8) 57
def regionAuto (s : State) (id : Nat) : Bool := bit (s.num (regionBase s + 64 * id + 8) 8) 58
def regionCask (s : State) (id : Nat) : Bool := bit (s.num (regionBase s + 64 * id + 8) 8) 59

/-- A Tile is pinned (R246). -/
def pinned (s : State) (t : TileRef) : Bool :=
  let e := tileState s t
  tsPins e != 0 || tsClaims e != 0 || regionPin s t.id

/-- Where a byte of a store lies: the key of tier 0 and tier 1 places. -/
def storeKey (path off : Nat) : Nat :=
  if pathLevel path = 0 then chaseStore path + off else galleyStore path + off

/-- The memory key of the byte at Folio address `a`, on either die (R38) (DESIGN CHOICE, log 37); what a down bridge does to
the bytes, tokens and credits that would cross it is the model's choice (DESIGN CHOICE, log 148). -/
def physKey (s : State) (a : Nat) : Nat :=
  match tileAt s a with
  | some t =>
    let e := tileState s t
    if tsTier e ≤ 1 then storeKey (bits (tsLoc e) 15 0) (bits (tsLoc e) 33 16) + (a - t.addr) else a
  | none => a

/-- A byte of Folio space; a never-written Tile reads as 0 (DESIGN CHOICE, log 37). -/
def folioByte (s : State) (a : Nat) : BitVec 8 :=
  match tileAt s a with
  | some t => if tsTier (tileState s t) = 7 then 0 else s.byte (physKey s a)
  | none => s.byte a

def folioBytes (s : State) (a : Nat) : Nat → List (BitVec 8)
  | 0 => []
  | n + 1 => folioByte s a :: folioBytes s (a + 1) n

/-- `n` bytes of Folio space as a little-endian number. -/
def folioNum (s : State) (a n : Nat) : Nat := leNat (folioBytes s a n)

/-- Writes one byte of Folio space at its present place, with fresh check bits in a region Tile. -/
def setFolioByte (a : Nat) (v : BitVec 8) (s : State) : State := s.setByte (physKey s a) v

def setFolioBytes (a : Nat) (l : List (BitVec 8)) (s : State) : State :=
  match l with
  | [] => s
  | v :: vs => setFolioBytes (a + 1) vs (setFolioByte a v s)

def setFolioNum (a n v : Nat) (s : State) : State := setFolioBytes a (leBytes v n) s

/-- The content of a Tile as the codec takes it: zeros stand for what reaches past its region's end (R243) (DESIGN CHOICE, log 37). -/
def tileContent (s : State) (t : TileRef) : List (BitVec 8) :=
  s.bytes (physKey s t.addr) t.len ++ List.replicate (t.reg.strideBytes - t.len) 0

/-! ### The Kern codec (R249, R250) -/

/-- Element width of the codec for a region format. -/
def kernWidth (f : Nat) : Nat := if f = 3 || f = 4 || f = 5 then 2 else if f = 6 then 4 else 1

/-- Nonzero elements of a chunk. -/
def nonzeroElems (w : Nat) : Nat → List (BitVec 8) → Nat
  | 0, _ => 0
  | n + 1, l => (if (l.take w).all (· == 0) then 0 else 1) + nonzeroElems w n (l.drop w)

/-- Length of one chunk's encoding with its tag: the shortest valid one. -/
def chunkLen (w : Nat) (prev : Option (List (BitVec 8))) (c : List (BitVec 8)) : Nat :=
  if c.all (· == 0) then 1
  else if prev = some c then 1
  else min (1 + 128 / w / 8 + w * nonzeroElems w (128 / w) c) 129

def chunksLen (w : Nat) : Nat → Option (List (BitVec 8)) → List (BitVec 8) → Nat
  | 0, _, _ => 0
  | n + 1, prev, l => chunkLen w prev (l.take 128) + chunksLen w n (some (l.take 128)) (l.drop 128)

/-- clen of a Tile's bytes in a region of format `f` (R250). -/
def kernLen (f : Nat) (tile : List (BitVec 8)) : Nat :=
  let n := tile.length
  min (chunksLen (kernWidth f) (n / 128) none tile) n

/-- Bytes that a compressed Tile occupies: whole granules of 128 (R250). -/
def granuleBytes (clen : Nat) : Nat := 128 * ceilDiv (16 + clen) 128

/-! ### Places: which memory, and free space in it (R252) -/

/-- The number of a memory that holds Tiles: HBM controllers 0 to 15, bulk of dies 16 and 17, leases from 32, Galley
stores from 100, Chase stores from 1000. -/
def placeHbm (h : Nat) : Nat := h
def placeBulk (d : Nat) : Nat := 16 + d
def placeLease (l : Nat) : Nat := 32 + l
def placeGalley (p : Nat) : Nat := 100 + pathDie p * 72 + galleyIndex p
def placeChase (p : Nat) : Nat := 1000 + chaseNo p

/-- The die whose bulk memory a grant lends. -/
def Grant.die (g : Grant) : Nat := g.base % 2

/-- The key of the first byte of a grant's space. -/
def Grant.key (g : Grant) : Nat := lentBase + g.die * 2 ^ 46 + g.base / 2

/-- The part of a memory that Tiles may use: first byte and end. -/
def placeRange (s : State) (pl : Nat) : Nat × Nat :=
  if pl < 16 then (perCtl s * 65536, 24 * 2 ^ 30)
  else if pl < 18 then
    (0, 512 * 2 ^ 30 - (s.tiers.grants.filter (fun g => decide (g.die = pl - 16))).foldl (fun a g => a + g.size * 65536) 0)
  else if pl < 100 then (0, (SMap.get (fun _ => (⟨0, 0, false, 0, 0, 0⟩ : Lease)) s.tiers.leases (pl - 32)).size * 65536)
  else if pl < 1000 then (0, 2 ^ 21)
  else
    let i := pl - 1000
    let page := (i / 1152) * dieWin + 0x1000000 + (i % 1152) * 0x1000
    let b := s.fld page Fld.CHS_TILE_AREA.base
    let z := min (s.fld page Fld.CHS_TILE_AREA.size) (64 - b)
    (b * 4096, (b + z) * 4096)

/-- The extents in use in a memory; a Galley's table buffer counts as one (R127). -/
def usedIn (s : State) (pl : Nat) : List (Nat × Nat) :=
  let l := (s.tiers.extents.filter (fun x => x.place == pl)).map (fun x => (x.off, x.len))
  if 100 ≤ pl && pl < 1000 then
    let i := pl - 100
    let page := (i / 72) * dieWin + 0x1800000 + (i % 72) * 0x1000
    if s.flag page Fld.GLY_LUT_CFG.tbuf_en then (s.fld page Fld.GLY_LUT_CFG.tbuf_pos * 2 ^ 18, 2 ^ 18) :: l else l
  else l

def clashes (l : List (Nat × Nat)) (off len : Nat) : Option Nat :=
  (l.find? (fun x => decide (x.1 < off + len) && decide (off < x.1 + x.2))).map (fun x => x.1 + x.2)

/-- First fit from `off`: steps past what is in the way. -/
def fitFrom (l : List (Nat × Nat)) (fin len : Nat) : Nat → Nat → Option Nat
  | 0, _ => none
  | k + 1, off =>
    if fin < off + len then none
    else
      match clashes l off len with
      | none => some off
      | some e => fitFrom l fin len k (128 * ceilDiv e 128)

/-- A free place of `len` bytes in a memory: the first from an open starting point, then from the memory's foot (DEDUCED, log 35). -/
def findPlace (s : State) (pl len : Nat) : Option Nat :=
  let (lo, hi) := placeRange s pl
  let l := usedIn s pl
  let start := lo + 128 * (Config.placeStart pl % ((hi - lo) / 128 + 1))
  match fitFrom l hi len (l.length + 1) start with
  | some o => some o
  | none => fitFrom l hi len (l.length + 1) (128 * ceilDiv lo 128)

/-- The memories to try for a Tile in a tier, in the order of R252. -/
def tierPlaces (s : State) (t : TileRef) (tier : Nat) : List Nat :=
  let near := t.reg.near
  let h := if validPath near && near != modulePath then 8 * pathDie near + t.j % 8 else t.j % 16
  let d := h / 8
  match tier with
  | 0 => if isChase near then [placeChase near] else []
  | 1 => if validPath near && pathLevel near ≤ 1 then [placeGalley (galleyOf near)] else []
  | 2 => (List.range 8).map (fun i => placeHbm (8 * d + (h + i) % 8)) ++
         (List.range 8).map (fun i => placeHbm (8 * (1 - d) + (h + i) % 8))
  | 3 => ([d, 1 - d].filter (fun d => s.flag (resetPage d) Fld.RST_STATUS.bulk_ready)).map placeBulk
  | 4 => ((List.range 64).filter (fun l =>
            (SMap.get (fun _ => (⟨0, 0, false, 0, 0, 0⟩ : Lease)) s.tiers.leases l).state == 2)).map placeLease
  | _ => []

/-- The first memory of a list with room, and the place (DEDUCED, log 35). -/
def firstPlace (s : State) (len : Nat) : List Nat → Option (Nat × Nat)
  | [] => none
  | p :: ps =>
    match findPlace s p len with
    | some o => some (p, o)
    | none => firstPlace s len ps

/-- The location word of a place for the Tile state entry (R246). -/
def locWord (pl off : Nat) : Nat :=
  if pl < 16 then pl + off * 16
  else if pl < 18 then (pl - 16) + off * 2
  else if pl < 100 then (pl - 32) + off * 64
  else if pl < 1000 then
    galleyPath ((pl - 100) / 72) ((pl - 100) % 72 / 8) ((pl - 100) % 8) + off * 65536
  else chaseAt ((pl - 1000) / 1152) ((pl - 1000) % 1152) + off * 65536

/-- The memory and offset that a tier and a location word name. -/
def placeOfLoc (tier loc : Nat) : Nat × Nat :=
  match tier with
  | 0 => (placeChase (bits loc 15 0), bits loc 33 16)
  | 1 => (placeGalley (bits loc 15 0), bits loc 33 16)
  | 2 => (bits loc 3 0, bits loc 38 4)
  | 3 => (placeBulk (bits loc 0 0), bits loc 39 1)
  | _ => (placeLease (bits loc 5 0), bits loc 45 6)

/-! ### Quotas (R259) -/

/-- The limits of a job before any is written (PRESUMED, log 10). -/
def quotaMax : Quota := ⟨0xFFFFFFFF, 0xFFFFFFFF, 0xFFFFFFFF⟩
def State.limit (s : State) (job : Nat) : Quota := SMap.get (fun _ => quotaMax) s.tiers.limits job
def State.use (s : State) (job : Nat) : Quota := SMap.get (fun _ => ⟨0, 0, 0⟩) s.tiers.use job

/-- Use or limit of one tier. -/
def Quota.at (q : Quota) (tier : Nat) : Nat := if tier = 2 then q.hbm else if tier = 3 then q.bulk else q.remote

def Quota.put (q : Quota) (tier v : Nat) : Quota :=
  if tier = 2 then { q with hbm := v } else if tier = 3 then { q with bulk := v } else { q with remote := v }

/-- The tier's quota would be exceeded by `len` more bytes for the job (R258). -/
def overQuota (s : State) (job tier len : Nat) : Bool :=
  2 ≤ tier && decide ((s.limit job).at tier * 65536 < (s.use job).at tier + len)

def addUse (job tier len : Nat) (s : State) : State :=
  if tier < 2 then s
  else
    let u := s.use job
    { s with tiers := { s.tiers with
        use := SMap.set (fun _ => ⟨0, 0, 0⟩) s.tiers.use job (u.put tier (u.at tier + len)) } }

def dropUse (job tier len : Nat) (s : State) : State :=
  if tier < 2 then s
  else
    let u := s.use job
    { s with tiers := { s.tiers with
        use := SMap.set (fun _ => ⟨0, 0, 0⟩) s.tiers.use job (u.put tier (u.at tier - len)) } }

/-! ### Allocating and freeing a Tile -/

/-- Bytes that a Tile of the region takes in a tier before its content is known: a raw Tile in tiers 3 and 4 (R258). -/
def rawLen (r : Region) (tier : Nat) : Nat :=
  if tier < 3 then r.strideBytes else granuleBytes r.strideBytes

def addExtent (pl off len : Nat) (s : State) : State :=
  { s with tiers := { s.tiers with extents := ⟨pl, off, len⟩ :: s.tiers.extents } }

def dropExtent (pl off : Nat) (s : State) : State :=
  { s with tiers := { s.tiers with extents := s.tiers.extents.filter (fun x => !(x.place == pl && x.off == off)) } }

/-- The length of the extent at a place. -/
def extentLen (s : State) (pl off : Nat) : Nat :=
  match s.tiers.extents.find? (fun x => x.place == pl && x.off == off) with
  | some x => x.len
  | none => 0

/-- Frees the memory of a Tile and its quota, leaving its state entry to the caller. -/
def freeTile (t : TileRef) (s : State) : State :=
  let e := tileState s t
  if tsTier e > 4 || tsLost e then s
  else
    let (pl, off) := placeOfLoc (tsTier e) (tsLoc e)
    dropUse t.reg.job (tsTier e) (extentLen s pl off) (dropExtent pl off s)

/-- Clears the content of a Tile: what a never-written byte of it reads as. -/
def clearTile (t : TileRef) (s : State) : State :=
  s.setBytes (physKey s t.addr) (List.replicate t.len 0)

/-- Outcome of trying the tiers of a region for a Tile (R258): a place, or the last tier tried and whether any tier
was skipped for quota. -/
inductive Tried where
  | placed (tier pl off : Nat)
  | failed (last : Nat) (quota : Bool)
  deriving DecidableEq, Repr

/-- HBM kept for jobs other than `job` by the stage reservations (R355). -/
def keptHbm (s : State) (job : Nat) : Nat :=
  s.maps.foldl (fun n e =>
    if e.2.valid && e.2.job != job then n + (e.2.reserve * 65536 - (s.use e.2.job).hbm) else n) 0

/-- HBM of the module outside the fixed range that no Tile holds. -/
def freeHbm (s : State) : Nat :=
  16 * (24 * 2 ^ 30 - perCtl s * 65536) -
    (s.tiers.extents.filter (fun x => decide (x.place < 16))).foldl (fun n x => n + x.len) 0

/-- HBM has no free space for `len` more bytes of the job (R355). -/
def hbmKept (s : State) (job tier len : Nat) : Bool := tier == 2 && decide (freeHbm s < keptHbm s job + len)

/-- Tries tier `tier` and each lower one down to the floor. -/
def tryTiers (s : State) (t : TileRef) (q : Bool) : Nat → Nat → Tried
  | 0, tier => .failed (tier - 1) q
  | k + 1, tier =>
    if t.reg.floor < tier then .failed (tier - 1) q
    else
      let len := rawLen t.reg tier
      match (if hbmKept s t.reg.job tier len then none else firstPlace s len (tierPlaces s t tier)) with
      | some (pl, off) =>
        if overQuota s t.reg.job tier len then tryTiers s t true k (tier + 1) else .placed tier pl off
      | none => tryTiers s t q k (tier + 1)

/-- Puts a Tile at a place: extent, quota, state entry, content cleared. -/
def placeTile (t : TileRef) (tier pl off : Nat) (s : State) : State :=
  let len := rawLen t.reg tier
  let s := addUse t.reg.job tier len (addExtent pl off len s)
  let e := tileState s t
  let e := putBits (putBits (putBits (putBits (putBits (putBits e 2 0 tier) 127 64 (locWord pl off)) 4 4 0) 5 5 0) 19 18 0)
    47 32 (if tier < 3 then 0 else t.reg.strideBytes)
  clearTile t (setTileState t e s)

/-- The ranges, each a first byte and a length, cover every byte from `a` up to `fin`; `k` ranges are tried at most. -/
def covered (l : List (Nat × Nat)) (fin : Nat) : Nat → Nat → Bool
  | 0, a => decide (fin ≤ a)
  | k + 1, a =>
    if fin ≤ a then true
    else
      match l.find? (fun r => decide (r.1 ≤ a) && decide (a < r.1 + r.2)) with
      | some r => covered l fin k (r.1 + r.2)
      | none => false

/-- A write of these ranges writes the whole Tile (R262, R265). -/
def wholeIn (l : List (Nat × Nat)) (t : TileRef) : Bool := covered l (t.addr + t.len) l.length t.addr

/-- Why a write finds no memory: no tier took a Tile (the last one tried, and whether a quota forbade one), or a lost Tile
of a lease is written in part. -/
inductive AllocFail where
  | space (last : Nat) (quota : Bool)
  | lost (lease : Nat)
  deriving DecidableEq, Repr

/-- The status of such a write (R258, R262). -/
def AllocFail.status : AllocFail → Nat
  | .space _ true => stQuota
  | _ => stTier

/-- Allocates the Tiles of a list that a write of the ranges `l` needs: never-written ones, and lost ones that it writes
whole (R258, R262) (DEDUCED, log 140). -/
def allocTiles (l : List (Nat × Nat)) : List TileRef → State → Except AllocFail State
  | [], s => .ok s
  | t :: ts, s =>
    let e := tileState s t
    if tsTier e == 7 || (tsLost e && wholeIn l t) then
      match tryTiers s t false 6 t.reg.home with
      | .placed tier pl off => allocTiles l ts (placeTile t tier pl off s)
      | .failed last q => .error (.space last q)
    else if tsLost e then .error (.lost (bits (tsLoc e) 5 0))
    else allocTiles l ts s

/-- The Tiles of regions that the `n` bytes from `a` touch, walking by Tile. -/
def tilesIn (s : State) (a fin : Nat) : Nat → List TileRef
  | 0 => []
  | k + 1 =>
    if fin ≤ a then []
    else
      match tileAt s a with
      | some t => t :: tilesIn s (t.addr + t.len) fin k
      | none => tilesIn s ((a / 65536 + 1) * 65536) fin k

/-- Region Tiles that hold a byte of `n` bytes from `a` (DEDUCED, log 36). -/
def regionTiles (s : State) (a n : Nat) : List TileRef := tilesIn s a (a + n) (n / 128 + 2)

/-- The place of a compressed Tile that takes `len` bytes from now on, its own extent dropped: where it stands when the
granules behind it are free, else the first place with room in its memory or another of its tier (R258) (DESIGN CHOICE, log 141). -/
def growPlace (s : State) (t : TileRef) (tier pl off len : Nat) : Nat × Nat :=
  if (clashes (usedIn s pl) off len).isNone && decide (off + len ≤ (placeRange s pl).2) then (pl, off)
  else (firstPlace s len (pl :: tierPlaces s t tier)).getD (pl, off)

/-- A write has reached a Tile: content is fresh, poison and lost end with a whole write, clen, place and quota follow the
new bytes in tiers 3 and 4, even above the quota (R250, R258, R262, R265). -/
def settleTile (t : TileRef) (whole : Bool) (s : State) : State :=
  let e := tileState s t
  let tier := tsTier e
  let e1 := if whole then putBits (putBits e 4 4 0) 5 5 0 else e
  let s1 :=
    if tier = 3 || tier = 4 then
      let clen := kernLen t.reg.format (tileContent s t)
      let (pl, off) := placeOfLoc tier (tsLoc e)
      let old := extentLen s pl off
      let new := granuleBytes clen
      let s0 := dropUse t.reg.job tier old (dropExtent pl off s)
      let (pl', off') := growPlace s0 t tier pl off new
      setTileState t (putBits (putBits e1 47 32 clen) 127 64 (locWord pl' off'))
        (addUse t.reg.job tier new (addExtent pl' off' new s0))
    else setTileState t e1 s
  { s1 with tiers := { s1.tiers with
      lastUse := SMap.set (fun _ => 0) s1.tiers.lastUse (t.id * 2 ^ 32 + t.j) s.time
      dirty := if tier = 4 && !(s1.tiers.dirty.contains (t.id, t.j)) then s1.tiers.dirty ++ [(t.id, t.j)] else s1.tiers.dirty } }

/-! ### Errors on reads (R262, R265) -/

/-- The die whose tier manager owns a place. -/
def placeDie (pl : Nat) : Nat :=
  if pl < 16 then pl / 8 else if pl < 18 then pl - 16 else if pl < 100 then 0
  else if pl < 1000 then (pl - 100) / 72 else (pl - 1000) / 1152

/-- Records the address of an uncorrectable word in its controller (R265, R267): `k` is the HBM controller or bulk die
place, `o` the byte offset in it. -/
def recordEcc (pl o : Nat) (scrub : Bool) (s : State) : State :=
  let s := colAppend (placeDie pl) 0x03
    (leBytes (if pl < 16 then 0 else if pl < 18 then 1 else 2) 1 ++ leBytes o 8 ++ leBytes (b2n scrub) 1) s
  if pl < 16 then
    (s.setRegN (hbmPage pl + 0x84) (o % 2 ^ 32)).setRegN (hbmPage pl + 0x88)
      (bits o 34 32 + 8 + b2n scrub * 16)
  else if pl < 18 then
    (s.setRegN (tierPage (pl - 16) + 0xE4) (o % 2 ^ 32)).setRegN (tierPage (pl - 16) + 0xE8)
      (bits o 38 32 + 0x80 + b2n scrub * 0x100)
  else s

/-- The memory and byte offset that hold the byte at Folio address `a`. -/
def homeOf (s : State) (a : Nat) : Nat × Nat :=
  match tileAt s a with
  | some t =>
    let e := tileState s t
    let (pl, off) := placeOfLoc (tsTier e) (tsLoc e)
    (pl, off + (a - t.addr))
  | none => (a / 65536 % 16, a / 65536 / 16 * 65536 + a % 65536)

/-- The `n` bytes from `a` by what holds them: the part in the fixed range, then the part in each region Tile. -/
def partsOf (s : State) (a n : Nat) : List (Nat × Nat) :=
  (if a < fixedFolios s * 65536 then [(a, min n (fixedFolios s * 65536 - a))] else []) ++
    (regionTiles s a n).map (fun t => t.part a n)

/-- How a read of Folio space fails. -/
inductive ReadFail where
  | ecc
  | tier (lease : Nat)
  deriving DecidableEq, Repr

/-- The status of a read of bytes that lie in one Tile or in the fixed range. -/
def partFail (s : State) (p : Nat × Nat) : Option ReadFail :=
  match tileAt s p.1 with
  | some t =>
    let e := tileState s t
    if tsTier e = 7 then none
    else if tsLost e then some (.tier (bits (tsLoc e) 5 0))
    else if tsTier e = 4 &&
        (!(reachable s (SMap.get (fun _ => (⟨0, 0, false, 0, 0, 0⟩ : Lease)) s.tiers.leases (bits (tsLoc e) 5 0)).dest) ||
          s.tiers.fetches.any (fun f => f.region == t.id && f.tile == t.j && f.bad)) then
      some (.tier (bits (tsLoc e) 5 0))
    else if tsPoison e || s.badIn (physKey s p.1) p.2 then some .ecc
    else none
  | none => if s.badIn p.1 p.2 then some .ecc else none

/-- The status of a read of `n` bytes at `a`: that of its first part that fails (R262, R265). -/
def readFail (s : State) (a n : Nat) : Option ReadFail := (partsOf s a n).findSome? (partFail s)

/-- The words with a mark among `n` bytes from key `k`. -/
def markedWords (s : State) (k n mark : Nat) : List Nat :=
  (s.ecc.filter (fun e => decide (k / 8 ≤ e.1) && decide (e.1 * 8 < k + n) && e.2 == mark)).map (·.1)

/-- Counts an error at the memory that holds it: 0 corrected, 1 uncorrectable, 2 corrected by scrub (R263, R403). -/
def countEcc (pl i : Nat) (s : State) : State :=
  if pl < 16 then s.bump (hbmPage pl) i 1
  else if pl < 18 then s.bump bulkPage i 1
  else if 1000 ≤ pl && i < 2 then s.bump (unitPage (chaseAt ((pl - 1000) / 1152) ((pl - 1000) % 1152))) (16 + i) 1
  else if i = 0 then { s with cask := { s.cask with eccCorr := s.cask.eccCorr + 1 } }
  else if i = 1 then { s with cask := { s.cask with eccUnc := s.cask.eccUnc + 1 } }
  else s

/-- Poison of the Tile that holds a byte (R265). -/
def poisonAt (a : Nat) (s : State) : State :=
  match tileAt s a with
  | some t => setTileState t (putBits (tileState s t) 4 4 1) s
  | none => s

/-- The first uncorrectable word of a part: counted, recorded, its Tile poisoned, the event raised. -/
def notePart (p : Nat × Nat) (s : State) : State :=
  let k := physKey s p.1
  match markedWords s k p.2 2 with
  | [] => s
  | w :: _ =>
    let (pl, o) := homeOf s (p.1 + (w * 8 - k))
    raiseEv (tierPage (placeDie pl)) 4 (poisonAt p.1 (recordEcc pl o false (countEcc pl 1 s)))

/-- The effects of an uncorrectable read beyond the command's status, at the first part that holds such a word (R265). -/
def noteEcc (a n : Nat) (s : State) : State :=
  match (partsOf s a n).find? (fun p => !(markedWords s (physKey s p.1) p.2 2).isEmpty) with
  | some p => notePart p s
  | none => s

/-- A read corrects the correctable words of a part: each is written back and counted (R263). -/
def correctPart (p : Nat × Nat) (s : State) : State :=
  let k := physKey s p.1
  (markedWords s k p.2 1).foldl (fun s w => countEcc (homeOf s (p.1 + (w * 8 - k))).1 0 (s.setEcc (w * 8) 0)) s

/-- What a read of `n` bytes at `a` does to correctable words (R263). -/
def correctRead (a n : Nat) (s : State) : State := s.each (partsOf s a n) correctPart

/-- A control core's write of `n` bytes from key `k` copies first the pending Tile of the Chase store that it meets (R376)
(DEDUCED, log 139). -/
def copyStore (k n : Nat) (s : State) : State :=
  let meets := fun (u : Nat × Nat) =>
    match s.region (u.1 - 1) with
    | some r => u.1 != 0 && decide (physKey s (r.tileAddr u.2) < k + n) && decide (k < physKey s (r.tileAddr u.2) + r.tileLen u.2)
    | none => false
  { s with cask := { s.cask with pend := s.cask.pend.filter (fun u => !(meets u)) } }

/-- A write of `n` bytes at `a` gives fresh check bits to the 8-byte words it covers whole (R265) (DEDUCED, log 45). -/
def freshEcc (a n : Nat) (s : State) : State := s.each (partsOf s a n) (fun p s => cleanEcc (physKey s p.1) p.2 s)

/-- A write of `n` bytes by the module's own machinery: pending units copied first, fresh check bits (R265, R376) (DEDUCED, log 139). -/
def placeNum (a n v : Nat) (s : State) : State := freshEcc a n (setFolioNum a n v (copyFirst a n s))

/-- A write of a part of a word that holds an uncorrectable error. -/
def partBad (s : State) (p : Nat × Nat) : Bool :=
  let k := physKey s p.1
  (markedWords s k p.2 2).any (fun w => !(decide (k ≤ w * 8) && decide (w * 8 + 8 ≤ k + p.2)))

/-- A write of `n` bytes that leaves part of an uncorrectable word: it fails (R265) (DEDUCED, log 45). -/
def partialBad (s : State) (a n : Nat) : Bool := (partsOf s a n).any (partBad s)

end Sys2Proof.Machine
end

