-- ==== Sys2Proof/Machine/Hydro.lean ====
section
/-! DEFINITION. The random source (R214), the Hydrometer slices and the stat rings (R181 to R188). -/

namespace Sys2Proof.Machine

/-! ### The counter-keyed random source (R214) -/

def u64 (x : Nat) : Nat := x % 2 ^ 64

def rndGamma : Nat := 0x9E3779B97F4A7C15

/-- The function mix of R214. -/
def mix64 (x : Nat) : Nat :=
  let x := x ^^^ (x >>> 30)
  let x := u64 (x * 0xBF58476D1CE4E5B9)
  let x := x ^^^ (x >>> 27)
  let x := u64 (x * 0x94D049BB133111EB)
  x ^^^ (x >>> 31)

/-- The function rand16 of R214. -/
def rand16 (seed step tensor index domain sub : Nat) : Nat :=
  let a := mix64 (seed ^^^ u64 (step <<< 32) ^^^ (domain <<< 16) ^^^ tensor)
  let b := mix64 (u64 (a + sub * rndGamma))
  let w := mix64 (u64 (b + (u64 index >>> 2) * rndGamma))
  (w >>> (16 * (index % 4))) % 65536

/-! ### Slices -/

def State.hyd (s : State) (ch : Nat) : HydSt := SMap.get (fun _ => HydSt.reset) s.hyds ch
def State.setHyd (s : State) (ch : Nat) (h : HydSt) : State :=
  { s with hyds := SMap.set (fun _ => HydSt.reset) s.hyds ch h }

/-- |v| rounded toward +infinity to F32, at most 0x7F7F_FFFF (table Element measures). -/
def f32Up (v : Val) : Nat :=
  match v with
  | .fin _ m e =>
    if m = 0 then 0
    else
      let q := quantum m e 24 (-149)
      let k := if q ≤ e then m <<< (e - q).toNat else (m + 2 ^ (q - e).toNat - 1) >>> (q - e).toNat
      min ((q + 149).toNat * 2 ^ 23 + k) 0x7F7FFFFF
  | _ => 0

/-- floor(log2 q) + 127 of an encode scale given as its F32 code, clamped to 1 to 254 (R186). -/
def qexpOf (inv : Nat) : Nat := min (max (bits inv 30 23) 1) 254

/-- A finite value rounded to a binary64 code, to nearest with ties to even (DEDUCED, log 63). -/
def toBin64 (v : Val) : Nat :=
  match v with
  | .fin n m e =>
    if m = 0 then b2n n * 2 ^ 63
    else
      let q := quantum m e 53 (-1074)
      b2n n * 2 ^ 63 + min ((q + 1074).toNat * 2 ^ 52 + roundTo .nearest m e q) 0x7FF0000000000000
  | .inf n => b2n n * 2 ^ 63 + 0x7FF0000000000000
  | .nan n => b2n n * 2 ^ 63 + 0x7FF8000000000000

/-- The value of a binary64 code. -/
def ofBin64 (c : Nat) : Val :=
  let e := bits c 62 52
  let m := bits c 51 0
  let n := bit c 63
  if e = 2047 then (if m = 0 then .inf n else .nan n)
  else if e = 0 then .fin n m (-1074)
  else .fin n (2 ^ 52 + m) ((e : Int) - 1075)

/-- A stat record without its phase bit (R186). -/
def statRecord (e : HydEnt) : BitVec 256 :=
  BitVec.ofNat 256
    (e.step % 65536 + e.tensor * 2 ^ 16 + e.layer * 2 ^ 32 + e.kind * 2 ^ 46 + e.qexp * 2 ^ 49 +
      e.nonfinite * 2 ^ 57 + e.amaxPre * 2 ^ 64 + e.amaxPost * 2 ^ 96 + toBin64 e.sumsq * 2 ^ 128 +
      e.count * 2 ^ 192 + e.sat * 2 ^ 216 + e.flush * 2 ^ 236)

/-! ### The stat ring (R187, R188) -/

def ringBase (s : State) (d : Nat) : Nat := s.reg64 (hydroPage d + 0x80)
def ringSize (s : State) (d : Nat) : Nat := 2 ^ s.fld (hydroPage d) Fld.HYD_RING_CFG.size_exp

/-- The next index of a ring pointer register, its phase flipping on a wrap. -/
def ringNext (size r : Nat) : Nat :=
  let i := bits r 23 0
  let p := bits r 24 24
  if i + 1 = size then (1 - p) * 2 ^ 24 else i + 1 + p * 2 ^ 24

/-- The ring's write index would pass the governor's read index (R188). -/
def ringFull (s : State) (d : Nat) : Bool :=
  let w := s.regN (hydroPage d + 0x8C)
  let r := s.regN (hydroPage d + 0x90)
  bits w 23 0 == bits r 23 0 && bits w 24 24 != bits r 24 24

/-- HYD_RING_RD follows HYD_RING_WR (R188). -/
def followRing (d : Nat) (s : State) : State := s.setRegN (hydroPage d + 0x90) (s.regN (hydroPage d + 0x8C))

/-- Writes one record at the write index and advances it. -/
def ringPut (d : Nat) (rec : BitVec 256) (s : State) : State :=
  let w := s.regN (hydroPage d + 0x8C)
  let v := putBits rec.toNat 63 63 (bits w 24 24)
  let s := placeNum (ringBase s d + 32 * bits w 23 0) 32 v s
  let s := s.setRegN (hydroPage d + 0x8C) (ringNext (ringSize s d) w)
  -- while the governor is not enabled HYD_RING_RD follows HYD_RING_WR
  if s.flag govPage Fld.PTG_CTRL.enable then s else followRing d s

def ringOn (s : State) (d : Nat) : Bool := s.flag (hydroPage d) Fld.HYD_RING_CFG.enable

/-- A slice writes records of its queue while the ring takes them; a ring that is disabled takes none, and they are
discarded (R188) (DEDUCED, log 26). -/
def drainQueue (ch : Nat) : Nat → State → State
  | 0, s => s
  | k + 1, s =>
    let d := pathDie ch
    match (s.hyd ch).queue with
    | [] => s
    | r :: rs =>
      if !(ringOn s d) then s.setHyd ch { s.hyd ch with queue := [] }
      else if s.flag govPage Fld.PTG_CTRL.enable && ringFull s d then s
      else drainQueue ch k ((ringPut d r s).setHyd ch { s.hyd ch with queue := rs })

/-- The slice of a Chase holds output conversion: 4 records wait (R188) (DEDUCED, log 26). -/
def hydHolding (s : State) (ch : Nat) : Bool := decide (4 ≤ (s.hyd ch).queue.length)

/-- Some slice of the die holds. -/
def dieHolding (s : State) (d : Nat) : Bool :=
  s.hyds.any (fun e => pathDie e.1 == d && decide (4 ≤ e.2.queue.length))

/-- A slice writes one entry as a stat record: into the ring, or into its queue while the ring is full; no record while
the ring is disabled (R188) (DEDUCED, log 26). -/
def emitRecord (ch : Nat) (e : HydEnt) (s : State) : State :=
  let d := pathDie ch
  if ringOn s d then
    let before := dieHolding s d
    let h := s.hyd ch
    let s1 := drainQueue ch (h.queue.length + 1) (s.setHyd ch { h with queue := h.queue ++ [statRecord e] })
    if !before && dieHolding s1 d then raiseEv (hydroPage d) 0 s1 else s1
  else s

/-! ### Measuring (R182 to R184) -/

/-- What output conversion hands the slice for one element: x, the stored value, and its counts. -/
structure Sample where
  x : Val
  stored : Val
  sat : Nat
  flush : Nat

/-- The whole key of an output: tensor, step, layer, kind, qexp. -/
structure HydKey where
  tensor : Nat
  step : Nat
  layer : Nat
  kind : Nat
  qexp : Nat

def emptyEnt (k : HydKey) : HydEnt := ⟨k.tensor, k.step, k.layer, k.kind, k.qexp, 0, 0, 0, 0, 0, 0, .fin false 0 0⟩

/-- One more element in an entry. -/
def addSample (e : HydEnt) (q : Sample) : HydEnt :=
  let nf := q.stored.isNan || q.stored.isInf
  let xf := q.x.isNan || q.x.isInf
  { e with
    count := e.count + 1
    sat := e.sat + q.sat
    flush := e.flush + q.flush
    nonfinite := if nf then min 63 (e.nonfinite + 1) else e.nonfinite
    amaxPre := if nf || xf then e.amaxPre else max e.amaxPre (f32Up q.x)
    amaxPost := if nf then e.amaxPost else max e.amaxPost (f32Up q.stored)
    sumsq := if nf then e.sumsq else Val.add e.sumsq (Val.mul q.stored q.stored) }

/-- An entry that one more element would overfill (R184). -/
def wouldOverfill (e : HydEnt) (q : Sample) : Bool :=
  decide (2 ^ 24 ≤ e.count + 1) || decide (2 ^ 20 ≤ e.sat + q.sat) || decide (2 ^ 20 ≤ e.flush + q.flush)

/-- The slice of a Chase measures one element (R184); an entry keeps the layer and kind of its first element and takes the qexp of its
last (DESIGN CHOICE, log 175). -/
def measure (ch : Nat) (k : HydKey) (q : Sample) (s : State) : State :=
  let h := s.hyd ch
  let same := fun (e : HydEnt) => e.tensor == k.tensor && e.step == k.step
  match h.entries.find? same with
  | some e =>
    let rest := h.entries.filter (fun e => !same e)
    if wouldOverfill e q then
      let s := emitRecord ch e s
      s.setHyd ch { s.hyd ch with entries := rest ++ [addSample (emptyEnt k) q] }
    else s.setHyd ch { h with entries := rest ++ [addSample { e with qexp := k.qexp } q] }
  | none =>
    match h.entries with
    | e :: rest =>
      if 16 ≤ h.entries.length then
        let s := emitRecord ch e s
        s.setHyd ch { s.hyd ch with entries := rest ++ [addSample (emptyEnt k) q] }
      else s.setHyd ch { h with entries := h.entries ++ [addSample (emptyEnt k) q] }
    | [] => s.setHyd ch { h with entries := [addSample (emptyEnt k) q] }

/-- Measures a list of elements in order; tensor id 0xFFFF is not measured (R183). -/
def measureAll (ch : Nat) (k : HydKey) (l : List Sample) (s : State) : State :=
  if k.tensor = 0xFFFF then s else l.foldl (fun s q => measure ch k q s) s

/-- Drain of one slice, `k` entries at most: each becomes a record as long as the write queue has room (R185, R188)
(DEDUCED, log 26). -/
def drainEntries (ch : Nat) : Nat → State → State
  | 0, s => s
  | k + 1, s =>
    match (s.hyd ch).entries with
    | [] => s
    | e :: es => if hydHolding s ch then s else drainEntries ch k (emitRecord ch e (s.setHyd ch { s.hyd ch with entries := es }))

/-- Drain of one slice (DEDUCED, log 26). -/
def drainSlice (ch : Nat) (s : State) : State := drainEntries ch (s.hyd ch).entries.length s

end Sys2Proof.Machine
end

