-- ==== Sys2Proof/Machine/Operands.lean ====
section
/-! DEFINITION. Every operand form: the command word (R156), operand descriptors (R160), scale slots (R55), Tiles,
elements and block scales (R50 to R53, R163, R164), and the writing of output Tiles (R54, R66, R182). -/

namespace Sys2Proof.Machine

/-! ### The command word (R156) -/

/-- Bits [hi:lo] of word `w` of a command. -/
def cmdFld (c : BitVec 256) (w hi lo : Nat) : Nat := bits c.toNat (32 * w + hi) (32 * w + lo)

def cOp (c : BitVec 256) : Nat := cmdFld c 0 7 0
def cSplit (c : BitVec 256) : Nat := cmdFld c 0 9 8
def cOrient (c : BitVec 256) : Nat := cmdFld c 0 10 10
def cIrq (c : BitVec 256) : Bool := cmdFld c 0 11 11 == 1
def cTokEn (c : BitVec 256) : Bool := cmdFld c 0 12 12 == 1
def cPath (c : BitVec 256) : Nat := cmdFld c 0 31 16
def cStream (c : BitVec 256) : Nat := cmdFld c 1 15 0
def cTokDest (c : BitVec 256) : Nat := cmdFld c 1 31 16
def cSeq (c : BitVec 256) : Nat := cmdFld c 2 31 0
def cUse (c : BitVec 256) (i : Nat) : Bool := cmdFld c (3 + i) 20 20 == 1
def cDesc (c : BitVec 256) (i : Nat) : Nat := cmdFld c (3 + i) 19 0
def cParam0 (c : BitVec 256) : Nat := cmdFld c 6 31 0
def cParam1 (c : BitVec 256) : Nat := cmdFld c 7 31 0

/-- A command with its stream id and sequence number placed (R277, R143). -/
def cPlace (c : BitVec 256) (stream seq : Nat) : BitVec 256 :=
  BitVec.ofNat 256 (putBits (putBits c.toNat 47 32 stream) 95 64 seq)

/-! ### Descriptors and slots (R160, R55) -/

def Opd.fld (o : Opd) (d hi lo : Nat) : Nat := bits o.desc.toNat (64 * d + hi) (64 * d + lo)
def Opd.addr (o : Opd) : Nat := o.fld 0 49 0
def Opd.fmt (o : Opd) : Nat := o.fld 0 53 50
def Opd.rounding (o : Opd) : Nat := o.fld 0 55 54
def Opd.bsEn (o : Opd) : Bool := o.fld 0 56 56 == 1
def Opd.checkGen (o : Opd) : Bool := o.fld 0 57 57 == 1
def Opd.kind (o : Opd) : Nat := o.fld 0 60 58
def Opd.valid (o : Opd) : Bool := o.fld 0 63 63 == 1
def Opd.bsAddr (o : Opd) : Nat := o.fld 1 49 0
def Opd.job (o : Opd) : Nat := o.fld 1 61 50
def Opd.red (o : Opd) : Nat := o.fld 2 31 0
def Opd.outer (o : Opd) : Nat := o.fld 2 63 32
def Opd.cap (o : Opd) : Nat := o.fld 3 31 0
def Opd.slotIdx (o : Opd) : Nat := o.fld 3 47 32
def Opd.gen (o : Opd) : Nat := o.fld 3 63 48
def Opd.tensor (o : Opd) : Nat := o.fld 4 15 0
def Opd.layer (o : Opd) : Nat := o.fld 4 29 16
def Opd.redBase (o : Opd) : Nat := o.fld 5 31 0
def Opd.outerBase (o : Opd) : Nat := o.fld 5 63 32
def Opd.fullRed (o : Opd) : Nat := o.fld 6 31 0

/-- Some reserved bit of the descriptor is 1 (R160). -/
def Opd.reservedSet (o : Opd) : Bool :=
  o.fld 0 62 61 != 0 || o.fld 1 63 62 != 0 || o.fld 4 63 30 != 0 || o.fld 6 63 32 != 0 || o.fld 7 63 0 != 0

/-- Tiles along the reduction and across it (R163). -/
def Opd.tr (o : Opd) : Nat := ceilDiv o.red 64
def Opd.to (o : Opd) : Nat := ceilDiv o.outer 64
def Opd.tiles (o : Opd) : Nat := o.to * o.tr

/-- The slot that index 0xFFFF stands for: s = q = 1.0, no codebook (R55) (DESIGN CHOICE, log 22). -/
def unitSlot : BitVec 256 := BitVec.ofNat 256 (0x3F800000 + 0x3F800000 * 2 ^ 32 + 2 ^ 192)

def Opd.scaleCode (o : Opd) : Nat := bits o.slot.toNat 31 0
def Opd.invCode (o : Opd) : Nat := bits o.slot.toNat 63 32
def Opd.scale (o : Opd) : Val := decodeFloat 6 o.scaleCode
def Opd.inv (o : Opd) : Val := decodeFloat 6 o.invCode
def Opd.book (o : Opd) : List Nat := (List.range 8).map (fun i => bits o.slot.toNat (79 + 16 * i) (64 + 16 * i))

/-- Tile stride in bytes (table Tile stride). -/
def strideOf (f : Nat) : Nat :=
  match f with
  | 0x0 => 2176 | 0x7 => 2176
  | 0x1 => 4096 | 0x2 => 4096 | 0x8 => 4096
  | 0x3 => 8192 | 0x4 => 8192
  | 0x5 => 16384 | 0x6 => 16384
  | 0x9 => 512 | 0xA => 1024 | 0xB => 1536
  | _ => 128

/-- Formats that may carry block scales at bs_addr (R51). -/
def optScales (f : Nat) : Bool := f == 1 || f == 2 || f == 8

/-- The operand's elements have block scales: always for P4 and I4, by bs_en for P8, P8W and I8. -/
def Opd.scaled (o : Opd) : Bool := o.fmt == 0 || o.fmt == 7 || (optScales o.fmt && o.bsEn)

def Opd.tileAddr (o : Opd) (t : Nat) : Nat := o.addr + t * strideOf o.fmt

/-- The region Tile that a descriptor Tile coincides with (R247). -/
def coincides (s : State) (o : Opd) (t : Nat) : Option TileRef :=
  match tileAt s (o.tileAddr t) with
  | some r => if r.addr == o.tileAddr t && r.reg.strideBytes == strideOf o.fmt then some r else none
  | none => none

/-- tile_exp of a descriptor Tile; 0 where it does not coincide (R224, R247). -/
def tileExp (s : State) (o : Opd) (t : Nat) : Nat :=
  match coincides s o t with
  | some r => tsExp (tileState s r)
  | none => 0

/-! ### Elements (R50 to R53) -/

/-- The code of the element at row `i`, column `j` of the Tile at `a`. -/
def elemCode (s : State) (f a i j : Nat) : Nat :=
  match f with
  | 0x5 => folioNum s (a + 128 * i + 2 * j) 2 + folioNum s (a + 8192 + 128 * i + 2 * j) 2 * 65536
  | 0x9 => b2n (bit (folioNum s (a + 8 * i) 8) j)
  | 0xA => b2n (bit (folioNum s (a + 16 * i) 8) j) + 2 * b2n (bit (folioNum s (a + 16 * i + 8) 8) j)
  | 0xB => b2n (bit (folioNum s (a + 24 * i) 8) j) + 2 * b2n (bit (folioNum s (a + 24 * i + 8) 8) j) +
      4 * b2n (bit (folioNum s (a + 24 * i + 16) 8) j)
  | f =>
    match elemBits f with
    | 4 => bits (folioNum s (a + 32 * i + j / 2) 1) (4 * (j % 2) + 3) (4 * (j % 2))
    | 8 => folioNum s (a + 64 * i + j) 1
    | 16 => folioNum s (a + 128 * i + 2 * j) 2
    | _ => folioNum s (a + 256 * i + 4 * j) 4

/-- The block-scale byte of the block that holds row `i`, column `j` of Tile `t` (R51). -/
def scaleByte (s : State) (o : Opd) (t i j : Nat) : Nat :=
  if o.fmt = 0 || o.fmt = 7 then folioNum s (o.tileAddr t + 2048 + 2 * i + j / 32) 1
  else if o.scaled then folioNum s (o.bsAddr + 128 * t + 2 * i + j / 32) 1
  else 0x7F

/-- A code with its block scale: the de-quantised value (R52, R53, R77). -/
def dequant (f : Nat) (book : List Nat) (b c : Nat) : Val :=
  if b = 0xFF then .nan (codeSign f c) else (decodeElem f book c).scale ((b : Int) - 127)

/-- The Tile that holds element (i, r) (R163). -/
def Opd.tileOf (o : Opd) (i r : Nat) : Nat := i / 64 * o.tr + r / 64

/-- The code of element (i, r); padding has code 0. -/
def codeAt (s : State) (o : Opd) (i r : Nat) : Nat :=
  if i < o.outer && r < o.red then elemCode s o.fmt (o.tileAddr (o.tileOf i r)) (i % 64) (r % 64) else 0

/-- The de-quantised value of element (i, r) without its Tile's tile_exp (R77); padding reads as zero. -/
def rawVal (s : State) (o : Opd) (i r : Nat) : Val :=
  if i < o.outer && r < o.red then
    dequant o.fmt o.book (scaleByte s o (o.tileOf i r) (i % 64) (r % 64)) (codeAt s o i r)
  else .zero false

/-- The de-quantised value of element (o, r), before the tensor's scale; tile_exp included; padding reads as zero. -/
def elemVal (s : State) (o : Opd) (i r : Nat) : Val :=
  if i < o.outer && r < o.red then (rawVal s o i r).scale (tileExp s o (o.tileOf i r)) else .zero false

/-- The real value of element (o, r) under R53. -/
def elemReal (s : State) (o : Opd) (i r : Nat) : Val := Val.mul (elemVal s o i r) o.scale

/-- The element as a vector engine takes it: its real value in F32 (R172). -/
def elemF32 (s : State) (o : Opd) (i r : Nat) : Val := f32 (elemReal s o i r)

/-! ### Packing a Tile (R50, R51) -/

def bitsToNat : List Nat → Nat
  | [] => 0
  | b :: bs => b % 2 + 2 * bitsToNat bs

def nibbles : List Nat → List (BitVec 8)
  | a :: b :: l => BitVec.ofNat 8 (a % 16 + 16 * (b % 16)) :: nibbles l
  | _ => []

/-- The bytes of one 64-element row, without the lo half of a pair. -/
def packRow (f : Nat) (l : List Nat) : List (BitVec 8) :=
  match f with
  | 0x5 => (l.map (fun c => leBytes (c % 65536) 2)).flatten
  | 0x9 => leBytes (bitsToNat l) 8
  | 0xA => leBytes (bitsToNat l) 8 ++ leBytes (bitsToNat (l.map (· / 2))) 8
  | 0xB => leBytes (bitsToNat l) 8 ++ leBytes (bitsToNat (l.map (· / 2))) 8 ++ leBytes (bitsToNat (l.map (· / 4))) 8
  | f =>
    match elemBits f with
    | 4 => nibbles l
    | 8 => l.map (BitVec.ofNat 8)
    | 16 => (l.map (fun c => leBytes c 2)).flatten
    | _ => (l.map (fun c => leBytes c 4)).flatten

/-- A Tile's bytes at addr: payload, then the lo Tile of a pair, or the scales of P4 and I4. -/
def packTile (f : Nat) (rows : List (List Nat)) (scales : List (List Nat)) : List (BitVec 8) :=
  (rows.map (packRow f)).flatten ++
  (if f = 5 then (rows.map (fun l => packRow 5 (l.map (· / 65536)))).flatten else []) ++
  (if f = 0 || f = 7 then (scales.map (fun l => l.map (BitVec.ofNat 8))).flatten else [])

/-- Writes bytes to Folio space with all that a write brings: fresh check bits, Tile states (R250, R262, R265). -/
def writeFolio (a : Nat) (l : List (BitVec 8)) (s : State) : State :=
  let ts := regionTiles s a l.length
  let s := freshEcc a l.length (setFolioBytes a l s)
  ts.foldl (fun s t => settleTile t (wholeIn [(a, l.length)] t) s) s

/-! ### Converting an output Tile (R54, R62, R66, R182) -/

/-- What output conversion needs besides the values: job seed, step (R215), and tile_exp k of the attempt (R222). -/
structure ConvCtx where
  seed : Nat
  step : Nat
  k : Nat

/-- The global element index (R160). -/
def Opd.index (o : Opd) (i r : Nat) : Nat := (o.outerBase + i) * o.fullRed + o.redBase + r

/-- The rounding of one element (R62). -/
def Opd.round (o : Opd) (x : ConvCtx) (i r : Nat) : Round :=
  let st := o.rounding == 2 || (o.rounding == 0 && (o.kind == 2 || o.kind == 3))
  if st then .stochastic (rand16 x.seed x.step o.tensor (o.index i r) 0 0) else .nearest

/-- A converted Tile: codes by row, block scales by row, and the samples of its elements in row order. -/
structure TileOut where
  codes : List (List Nat)
  scales : List (List Nat)
  samples : List Sample
  sat : Nat
  special : Bool

/-- Whether element (i, r) of an output is no padding. -/
def Opd.inside (o : Opd) (i r : Nat) : Bool := decide (i < o.outer) && decide (r < o.red)

/-- One row of an output Tile: `i` its row in the operand, `r0` its first column. Padding of an L2 or L3 output, whose codebook may
hold no zero, is written as code 0 (R164) (DESIGN CHOICE, log 174). -/
def convertRow (o : Opd) (x : ConvCtx) (val : Nat → Nat → Val) (i r0 : Nat) : List Nat × List Nat × List Sample :=
  let w := fun r => (Val.mul (val i r) o.inv).scale (-(x.k : Int))
  let bs := [0, 1].map (fun blk =>
    if o.scaled then
      blockScale o.fmt (((List.range 32).map (fun j => r0 + 32 * blk + j)).filter (o.inside i) |>.map w)
    else 0x7F)
  let el := (List.range 64).map (fun j =>
    let r := r0 + j
    let b := (bs[j / 32]?).getD 0x7F
    if o.inside i r then
      let cv := convert o.fmt o.book (o.round x i r) ((w r).scale (127 - (b : Int)))
      let st := (Val.mul (dequant o.fmt o.book b cv.code) o.scale).scale x.k
      (cv.code, [(⟨val i r, st, cv.sat, cv.flush⟩ : Sample)])
    else (0, []))
  (el.map (·.1), bs, (el.map (·.2)).flatten)

/-- Converts Tile (ot, rt) of an output. -/
def convertTile (o : Opd) (x : ConvCtx) (val : Nat → Nat → Val) (ot rt : Nat) : TileOut :=
  let rows := (List.range 64).map (fun i => convertRow o x val (64 * ot + i) (64 * rt))
  let samples := (rows.map (fun r => r.2.2)).flatten
  ⟨rows.map (·.1), rows.map (fun r => r.2.1), samples,
   samples.foldl (fun a q => a + q.sat) 0, samples.any (fun q => q.stored.isNan || q.stored.isInf)⟩

/-- The measuring key of an output (R182, R186). -/
def Opd.hydKey (o : Opd) (step : Nat) : HydKey := ⟨o.tensor, step, o.layer, o.kind, qexpOf o.invCode⟩

/-- Sets tile_exp of a coinciding output Tile (R222, R534). -/
def setTileExp (o : Opd) (t k : Nat) (s : State) : State :=
  match coincides s o t with
  | some r => setTileState r (putBits (tileState s r) 19 18 k) s
  | none => s

/-- Writes a converted Tile, its block scales and its tile_exp. -/
def storeTile (o : Opd) (t k : Nat) (d : TileOut) (s : State) : State :=
  let s := writeFolio (o.tileAddr t) (packTile o.fmt d.codes d.scales) s
  let s :=
    if optScales o.fmt && o.bsEn then
      writeFolio (o.bsAddr + 128 * t) ((d.scales.map (fun l => l.map (BitVec.ofNat 8))).flatten) s
    else s
  setTileExp o t k s

/-- Converts, stores and measures one output Tile in the slice of Chase `ch`. -/
def emitTile (ch : Nat) (o : Opd) (x : ConvCtx) (val : Nat → Nat → Val) (ot rt : Nat) (s : State) : State :=
  let d := convertTile o x val ot rt
  measureAll ch (o.hydKey x.step) d.samples (storeTile o (ot * o.tr + rt) x.k d s)

/-! ### Reading an input Tile -/

/-- The status of reading Tile `t` of an operand, its block scales included. -/
def tileReadFail (s : State) (o : Opd) (t : Nat) : Option ReadFail :=
  match readFail s (o.tileAddr t) (strideOf o.fmt) with
  | some f => some f
  | none => if optScales o.fmt && o.bsEn then readFail s (o.bsAddr + 128 * t) 128 else none

/-- The region Tiles under Tile `t` of an operand and its scales. -/
def tilesOfTile (s : State) (o : Opd) (t : Nat) : List TileRef :=
  regionTiles s (o.tileAddr t) (strideOf o.fmt) ++
    (if optScales o.fmt && o.bsEn then regionTiles s (o.bsAddr + 128 * t) 128 else [])

/-- An input Tile lies in Chase or Galley stores (R223): every byte of it in a region, every such Tile in tier 0 or 1. -/
def tileResident (s : State) (o : Opd) (t : Nat) : Bool :=
  decide (fixedFolios s * 65536 ≤ o.tileAddr t) && (regionTiles s (o.tileAddr t) (strideOf o.fmt)).all (fun r => tsTier (tileState s r) ≤ 1)

/-- Undefined bytes in an output Tile and its scales (R29, R92) (DESIGN CHOICE, log 15). -/
def scrambleTile (o : Opd) (t : Nat) (s : State) : State :=
  let n := strideOf o.fmt
  let l := (List.range n).map (fun i => Config.freeByte (s.free + i))
  let s := writeFolio (o.tileAddr t) l (copyFirst (o.tileAddr t) n s)
  let s := { s with free := s.free + n }
  if optScales o.fmt && o.bsEn then
    let l := (List.range 128).map (fun i => Config.freeByte (s.free + i))
    let s := writeFolio (o.bsAddr + 128 * t) l (copyFirst (o.bsAddr + 128 * t) 128 s)
    { s with free := s.free + 128 }
  else s

end Sys2Proof.Machine
end

