-- ==== Sys2Proof/Machine/Links.lean ====
section
/-! DEFINITION. Packets of the Izyen protocol as messages (R300, R302, R303, R308 to R311): building one, choosing its
channel and port, queueing it, and the record of what still waits for an answer. -/

namespace Sys2Proof.Machine

def ptWrite : Nat := 0x0
def ptReadReq : Nat := 0x1
def ptReadResp : Nat := 0x2
def ptAccum : Nat := 0x3
def ptAck : Nat := 0x4
def ptError : Nat := 0x5
def ptToken : Nat := 0x6
def ptCredit : Nat := 0x7
def ptGov : Nat := 0x8
def ptLease : Nat := 0x9
def ptStop : Nat := 0xA
def ptBgWrite : Nat := 0xB
def ptBgReadReq : Nat := 0xC

/-- The virtual channel of a packet type (table Virtual channels). -/
def vcOf (type : Nat) : Nat :=
  if type = 0 || type = 1 || type = 3 then 0
  else if type = 2 || type = 4 || type = 5 then 1
  else if type = 0xB || type = 0xC then 3
  else 2

/-- A packet of this module with no fields of its own yet; it starts with hop_init hops (R310). -/
def mkPacket (s : State) (type dest : Nat) : Packet :=
  { type := type, hops := max 1 (s.fld routePage Fld.IZN_HOPS.hop_init), dest := dest, src := selfId s, job := 0, lease := 0,
    layoutGen := 0, stream := 0, target := 0, seq := 0, addr := 0, len16 := 0, sub := 0, checksum := 0, data := [] }

/-- Queues a packet at a port (DESIGN CHOICE, log 51). -/
def queueAt (p : Nat) (pkt : Packet) (s : State) : State :=
  let k := p * 4 + vcOf pkt.type
  { s with txq := SMap.set (fun _ => []) s.txq k (SMap.get (fun _ => []) s.txq k ++ [pkt]) }

/-- Sends a packet: to this module over the die fabric, else to the port its route chooses; with no usable port it is
lost (R309, R310, R311) (DESIGN CHOICE, log 51). -/
def sendPacket (pkt : Packet) (s : State) : State :=
  if pkt.dest = selfId s then { s with loop := s.loop ++ [pkt] }
  else
    match routePort s pkt.dest pkt.stream with
    | some p => queueAt p pkt s
    | none => s

/-- Sends a packet of a command and remembers that it waits for an answer (R309). -/
def sendTracked (unit : Nat) (pkt : Packet) (s : State) : State :=
  let s := { s with outst := s.outst ++ [⟨unit, pkt.stream, pkt.seq, pkt.dest, pkt.type, pkt.addr, s.time⟩] }
  sendPacket pkt s

/-- Whole 16-byte units that hold `l`, padded with zero bytes. -/
def padded16 (l : List (BitVec 8)) : List (BitVec 8) := l ++ List.replicate ((16 - l.length % 16) % 16) 0

/-- A packet with its data and len16 set. -/
def packData (p : Packet) (l : List (BitVec 8)) : Packet :=
  let d := padded16 l
  { p with data := d, len16 := d.length / 16 }

/-- An ACK of a packet (R303). -/
def ackOf (s : State) (pkt : Packet) : Packet :=
  { mkPacket s ptAck pkt.src with stream := pkt.stream, seq := pkt.seq, addr := pkt.addr }

/-- An ERROR for a packet that failed a check (R308). -/
def errorOf (s : State) (pkt : Packet) (status : Nat) : Packet :=
  { mkPacket s ptError pkt.src with
    stream := pkt.stream, seq := pkt.seq, addr := status + pkt.type * 2 ^ 8 + selfId s * 2 ^ 12 }

/-- The peer-set members: ids of the valid words of a set, ascending (R348). -/
def psetMembers (s : State) (set : Nat) : List Nat :=
  ((List.range 8).map (fun i => (SMap.get (fun _ => (0 : Word)) s.psets (set * 8 + i)).toNat)).filter
    (fun w => bit w 31) |>.map (fun w => bits w 11 0)

def State.ctx (s : State) (c : Nat) : RedCtx := SMap.get (fun _ => RedCtx.reset) s.ctxs c
def State.setCtx (s : State) (c : Nat) (x : RedCtx) : State :=
  { s with ctxs := SMap.set (fun _ => RedCtx.reset) s.ctxs c x }

/-- The valid map entry of a job. -/
def mapOf (s : State) (job : Nat) : Option MapEnt :=
  (List.find? (fun (e : Nat × MapEnt) => e.2.valid && e.2.job == job) s.maps).map (·.2)

end Sys2Proof.Machine
end

