-- ==== Sys2Proof/Machine/CaskBase.lean ====
section
/-! DEFINITION. The Cask writer's status, the choice of a slot, and the end of a Cask that fails (R371, R373, R377). -/

namespace Sys2Proof.Machine

def cskState (s : State) : Nat := s.fld cellarPage Fld.CSK_STATUS.state
def setCsk (v : Nat) (s : State) : State := s.setFld cellarPage Fld.CSK_STATUS.state v
def cskOn (s : State) : Bool := s.flag cellarPage Fld.CSK_CTRL.enable
def ptgStep (s : State) : Nat := s.fld govPage Fld.PTG_STEP.step
def govBusy (s : State) : Bool := s.flag govPage Fld.PTG_STATUS.busy

/-- Idle, or pending while a request waits. -/
def idleCsk (s : State) : State := setCsk (b2n s.cask.requested) s

/-- The outcome of a Cask or restore (R371, R377, R395, R432). -/
def caskResult (serial step status place : Nat) (s : State) : State :=
  colBoth 0x0C (leBytes serial 8 ++ leBytes step 4 ++ leBytes status 1 ++ leBytes place 1)
    (s.setFld cellarPage Fld.CSK_STATUS.result status)

/-- The newest complete own Cask's slot: of two, that with the larger serial (R371). -/
def newestSlot (s : State) : Option Nat :=
  match s.cask.slotA, s.cask.slotB with
  | some a, some b => some (if a.serial < b.serial then 1 else 0)
  | some _, none => some 0
  | none, some _ => some 1
  | none, none => none

/-- The slot that a new Cask goes to (R373 step 1). -/
def targetSlot (s : State) : Nat := match newestSlot s with | some k => 1 - k | none => 0

/-- The writer waits: Colophon records are queued, or no pulse may begin (R367, R463, R464). -/
def writerWaits (s : State) : Bool := pulseBarred s || !(s.col 0).queue.isEmpty || !(s.col 1).queue.isEmpty

/-- A write into a buddy slot waits: a higher claimant of the Cellar has data ready (R367). -/
def buddyWaits (s : State) : Bool := writerWaits s || s.cask.writing.isSome || !s.cask.owed.isEmpty

/-- A write to the Cellar, of the own Cask's slot or into a buddy slot: it waits in its order behind the higher claimants (R367,
R434). -/
def nandWrite (own : Bool) (a : Nat) (l : List (BitVec 8)) (s : State) : State :=
  if (if own then writerWaits s || s.cask.owed.any (·.1) else buddyWaits s) then
    { s with cask := { s.cask with owed := s.cask.owed ++ [(own, a, l)] } }
  else cellarPulse (s.setBytes a l)

/-- The writes that waited go out: those of the own Cask, and those into a buddy slot once no own Cask is written (R367). -/
def cellarTurn (s : State) : State :=
  if s.cask.owed.isEmpty || writerWaits s then s
  else
    let go := s.cask.owed.filter (fun w => w.1 || s.cask.writing.isNone)
    let rest := s.cask.owed.filter (fun w => !(w.1 || s.cask.writing.isNone))
    ({ s with cask := { s.cask with owed := rest } }).each go (fun w s => cellarPulse (s.setBytes w.2.1 w.2.2))

/-- The unit under which the reads of another module's Cask wait for their answers: it names none (the model's own key). -/
def restoreUnit : Nat := 0x10001

/-- An answer to a read of another module's Cask: its data follow what has come, or it has failed (R393). -/
def gotCask (fail : Nat) (data : List (BitVec 8)) (s : State) : State :=
  match s.cask.fetch with
  | some f => { s with cask := { s.cask with fetch := some ⟨f.got ++ data, fail⟩ } }
  | none => s

/-- The state once the writer has ended: idle, or that of the stop in force (R386, R387). -/
def writerEnds (s : State) : State :=
  if s.stopped then s.when (cskState s == 3) (setCsk (if s.cask.told then 7 else 6)) else idleCsk s

/-- A capture or write fails (R374, R377): the slot stays incomplete, no unit is pending, the request is over. -/
def failCask (status : Nat) (s : State) : State :=
  let place := match s.cask.writing with | some w => w.1 | none => targetSlot s
  let step := match s.cask.writing with | some w => w.2.step | none => ptgStep s
  let serial := match s.cask.writing with | some w => w.2.serial | none => (s.cask.serial + 1) % 2 ^ 64
  let s := { s with cask := { s.cask with writing := none, pend := [] } }
  raiseEv cellarPage 1 (caskResult serial step status place (writerEnds s))

end Sys2Proof.Machine
end

