-- ==== Sys2Proof/Machine/Kern.lean ====
section
/-! DEFINITION. The Kern codec's bytes (R249 to R251): chunk encodings, the Kern header, CRC-32C, and the decoder. -/

namespace Sys2Proof.Machine

/-! ### Chunks (table Chunk encodings) -/

/-- Elements of `w` bytes. -/
def elemsOf (w : Nat) : Nat → List (BitVec 8) → List (List (BitVec 8))
  | 0, _ => []
  | n + 1, l => l.take w :: elemsOf w n (l.drop w)

def zeroBytes (l : List (BitVec 8)) : Bool := l.all (· == 0)

/-- The bitmap of a sparse chunk: bit i of byte i / 8 is 1 when element i has a nonzero byte. -/
def bitmapBytes : List (List (BitVec 8)) → Nat → List (BitVec 8)
  | _, 0 => []
  | l, n + 1 =>
    BitVec.ofNat 8 ((List.zip (List.range 8) (l.take 8)).foldl (fun a x => a + if zeroBytes x.2 then 0 else 2 ^ x.1) 0) ::
      bitmapBytes (l.drop 8) n

/-- The sparse encoding of a chunk. -/
def sparseChunk (w : Nat) (c : List (BitVec 8)) : List (BitVec 8) :=
  let es := elemsOf w (128 / w) c
  2 :: (bitmapBytes es (128 / w / 8) ++ (es.filter (fun e => !zeroBytes e)).flatten)

/-- The shortest valid encoding of a chunk; of two equally short ones, that with the lower tag. -/
def chunkBytes (w : Nat) (prev : Option (List (BitVec 8))) (c : List (BitVec 8)) : List (BitVec 8) :=
  if zeroBytes c then [0]
  else if prev = some c then [1]
  else if (sparseChunk w c).length ≤ 129 then sparseChunk w c
  else 3 :: c

def chunksBytes (w : Nat) : Nat → Option (List (BitVec 8)) → List (BitVec 8) → List (BitVec 8)
  | 0, _, _ => []
  | n + 1, prev, l => chunkBytes w prev (l.take 128) ++ chunksBytes w n (some (l.take 128)) (l.drop 128)

/-- The payload of a Tile in a region of format `f`, and whether it is raw (R250). -/
def kernPayload (f : Nat) (tile : List (BitVec 8)) : List (BitVec 8) × Bool :=
  let p := chunksBytes (kernWidth f) (tile.length / 128) none tile
  if tile.length ≤ p.length then (tile, true) else (p, false)

/-- The Kern header and payload of a Tile (table Kern header) (DESIGN CHOICE, log 37). -/
def kernBytes (t : TileRef) (e : Nat) (tile : List (BitVec 8)) : List (BitVec 8) :=
  let (p, raw) := kernPayload t.reg.format tile
  leBytes (p.length + t.reg.format * 2 ^ 16 + tsExp e * 2 ^ 20 + b2n raw * 2 ^ 22 + b2n (tsPoison e) * 2 ^ 23 +
    crc32c tile * 2 ^ 32 + t.id * 2 ^ 64 + t.j * 2 ^ 84) 16 ++ p

/-! ### The decoder (R251) -/

/-- The elements that a bitmap names, from `l`: the chunk and what is left. -/
def sparseFill (w : Nat) : List Bool → List (BitVec 8) → Option (List (BitVec 8) × List (BitVec 8))
  | [], l => some ([], l)
  | true :: bs, l =>
    if l.length < w then none else (sparseFill w bs (l.drop w)).map (fun x => (l.take w ++ x.1, x.2))
  | false :: bs, l => (sparseFill w bs l).map (fun x => (List.replicate w 0 ++ x.1, x.2))

/-- One chunk from its encoding, and what follows it. -/
def chunkDecode (w : Nat) (prev : Option (List (BitVec 8))) : List (BitVec 8) → Option (List (BitVec 8) × List (BitVec 8))
  | [] => none
  | t :: l =>
    match t.toNat with
    | 0 => some (List.replicate 128 0, l)
    | 1 => prev.map (fun c => (c, l))
    | 2 =>
      let n := 128 / w / 8
      if l.length < n then none
      else sparseFill w ((List.range (8 * n)).map (fun i => ((l[i / 8]?).getD 0).getLsbD (i % 8))) (l.drop n)
    | 3 => if l.length < 128 then none else some (l.take 128, l.drop 128)
    | _ => none

/-- `n` chunks from a payload that they fill exactly. -/
def chunksDecode (w : Nat) : Nat → Option (List (BitVec 8)) → List (BitVec 8) → Option (List (BitVec 8))
  | 0, _, [] => some []
  | 0, _, _ => none
  | n + 1, prev, l =>
    match chunkDecode w prev l with
    | some (c, rest) => (chunksDecode w n (some c) rest).map (c ++ ·)
    | none => none

/-- The Tile that a compressed Tile of `stride` bytes holds; none for a codec failure (R251). -/
def kernDecode (f stride : Nat) (l : List (BitVec 8)) : Option (List (BitVec 8)) :=
  let h := leNat (l.take 16)
  let p := l.drop 16
  if p.length != bits h 15 0 then none
  else
    let t := if bit h 22 then (if p.length = stride then some p else none) else chunksDecode (kernWidth f) (stride / 128) none p
    match t with
    | some t => if crc32c t = bits h 63 32 then some t else none
    | none => none

end Sys2Proof.Machine
end

