-- ==== Sys2Proof/Machine/ArrayCalc.lean ====
section
/-! DEFINITION. What the Cell array computes for one output element: products and narrow runs (R77 to R82), W38
accumulation (R83 to R86), compensated pairs (R88), binary, table and bit-serial sums (R109, R118, R121), and the
stationary block that a pass holds (R73, R96). -/

namespace Sys2Proof.Machine

/-! ### Configuration a command needs (R73, R97, R107) -/

/-- Width code of an input format: 0 1×1, 1 2×2, 2 4×4 (R73). -/
def widthOf (f : Nat) : Nat := if f = 0 || f = 7 then 0 else if f = 1 || f = 2 || f = 8 then 1 else 2

/-- The mode code of an array opcode (R126): 0 ordinary, 1 binary, 2 table, 3 bit-serial. -/
def modeOf (op : Nat) : Nat := if op = 2 then 1 else if op = 3 then 2 else if op = 4 then 3 else 0

/-- Elements on a side of the Ligature grid. -/
def gridSide (width : Nat) : Nat := 64 / 2 ^ width

/-- Run length of a code: 0 is 4, 1 is 8, 2 is 16. -/
def runLength (code : Nat) : Nat := 4 * 2 ^ code

/-- An ordinary command with a P16x2 input (R88). -/
def isPair (op : Nat) (a b : Opd) : Bool := op == 1 && (a.fmt == 5 || b.fmt == 5)

/-- Width, run and mode that a command needs under CHS_ARR_CFG `cfg`; run 3 stands for any (R97, R107). -/
def needCfg (cfg op : Nat) (a b : Opd) : Nat × Nat × Nat :=
  if op = 1 then
    let w := max (widthOf a.fmt) (widthOf b.fmt)
    let r := bits cfg (2 * w + 1) (2 * w)
    (w, if isPair op a b then 3 else r, 0)
  else (0, 3, modeOf op)

/-- The array holds the configuration a command needs. -/
def cfgMatches (x : ArrSt) (need : Nat × Nat × Nat) : Bool :=
  x.mode == need.2.2 && x.width == need.1 && (need.2.1 == 3 || x.run == need.2.1)

/-- The run code a fence leaves: a P16x2 command configures run_4x4 (R97); the other modes leave 3 (R107). -/
def fenceRun (cfg op : Nat) (need : Nat × Nat × Nat) : Nat :=
  if op = 1 then bits cfg (2 * need.1 + 1) (2 * need.1) else 3

/-- Reduction elements and output columns of a stationary block (R73, R76, R109, R117, R119). -/
def blockShape (op width : Nat) : Nat × Nat :=
  if op = 2 then (512, 64) else if op = 3 then (128, 64) else if op = 4 then (64, 64)
  else (gridSide width, gridSide width)

/-! ### Narrow runs (R79, R80) -/

/-- The exact product cut toward zero to a multiple of 2^(e − f) (R79). -/
def truncProduct (f : Nat) (p : Val) : Val :=
  match p with
  | .fin n m e =>
    if m = 0 then .zero false
    else
      let q := (Nat.log2 m : Nat) + e - f
      .fin n (truncTo m e q) q
  | p => p

/-- The narrow sum of a run's products (R80); which of several NaN products gives the sign, and the positive sign of the NaN
that both infinities form, are the model's choice (DESIGN CHOICE, log 145). -/
def narrowSum (f : Nat) (ps : List Val) : Val :=
  match ps.find? Val.isNan with
  | some v => v
  | none =>
    let pos := ps.any (fun p => p.isInf && !p.sign)
    let neg := ps.any (fun p => p.isInf && p.sign)
    if pos && neg then .nan false
    else if pos then .inf false
    else if neg then .inf true
    else
      let fin := ps.filter (fun p => !p.isZero)
      match fin with
      | [] => .zero false
      | p :: rest =>
        let top := rest.foldl (fun t q => max t q.top) p.top
        let unit := top - (f : Int) - 3
        let sum := fin.foldl (fun (a : Int) q =>
          match truncProduct f q with
          | .fin n m e => if n then a - (truncTo m e unit : Nat) else a + (truncTo m e unit : Nat)
          | _ => a) 0
        ofCount false sum unit

/-- A list cut into pieces of `n`. -/
def chunksOf {α : Type} (n : Nat) : Nat → List α → List (List α)
  | 0, _ => []
  | k + 1, l => if l.isEmpty then [] else l.take n :: chunksOf n k (l.drop n)

/-- The exact sum of values in order. -/
def sumVals (l : List Val) : Val := l.foldl Val.add (.zero false)

/-- The hi and lo of an input element (R88) (DEDUCED, log 19). -/
def elemPair (s : State) (o : Opd) (i r : Nat) : Val × Val :=
  if o.fmt = 5 then
    if i < o.outer && r < o.red then
      let t := i / 64 * o.tr + r / 64
      let c := elemCode s 5 (o.tileAddr t) (i % 64) (r % 64)
      let k : Int := tileExp s o t
      let hi := (decodeFloat 3 (c % 65536)).scale k
      if hi.isNan || hi.isInf then (hi, .zero false) else (hi, (decodeFloat 3 (c / 65536)).scale k)
    else (.zero false, .zero false)
  else if o.fmt = 4 then
    let v := elemVal s o i r
    match v with
    | .fin _ _ _ =>
      let k : Int := if i < o.outer && r < o.red then tileExp s o (i / 64 * o.tr + r / 64) else 0
      let c := (toPair (v.scale (-k))).code
      ((decodeFloat 3 (c % 65536)).scale k, (decodeFloat 3 (c / 65536)).scale k)
    | v => (v, .zero false)
  else (elemVal s o i r, .zero false)

/-- The exact sum of the three cross products (R88); a NaN or infinite input leaves the hi product alone (DEDUCED, log 19). -/
def pairProduct (a w : Val × Val) : Val :=
  if a.1.isNan || a.1.isInf || w.1.isNan || w.1.isInf then Val.mul a.1 w.1
  else Val.add (Val.add (Val.mul a.1 w.1) (Val.mul a.1 w.2)) (Val.mul a.2 w.1)

/-! ### One output element -/

/-- Where the stationary element for reduction index `k` and output column `n` lies in operand B: row, column. -/
def statPos (orient k n : Nat) : Nat × Nat := if orient = 1 then (k, n) else (n, k)

/-- The block holds the operand's element in row `i`, column `r`, at this place. -/
def Block.covers (b : Block) (i r : Nat) : Bool := b.row ≤ i && i < b.row + b.rows && b.col ≤ r && r < b.col + b.cols
def Block.place (b : Block) (i r : Nat) : Nat := (i - b.row) * b.cols + (r - b.col)

/-- The content of a block that is loaded already stands for the elements of that block (R93, R96). -/
def statVal (s : State) (b : Opd) (reuse : Option Block) (orient k n : Nat) : Val :=
  let (i, r) := statPos orient k n
  match reuse with
  | some blk => if blk.covers i r then (blk.content[blk.place i r]?).getD (.zero false) else elemVal s b i r
  | none => elemVal s b i r

/-- The hi and lo of the stationary element (R88), from the active block where it is reused. -/
def statPair (s : State) (b : Opd) (reuse : Option Block) (orient k n : Nat) : Val × Val :=
  let (i, r) := statPos orient k n
  match reuse with
  | some blk =>
    if blk.covers i r then
      let at_ := blk.place i r
      let v := (blk.content[at_]?).getD (.zero false)
      if b.fmt = 5 then (v, (blk.lows[at_]?).getD (.zero false))
      else if b.fmt = 4 then
        let x : Int := tileExp s b (i / 64 * b.tr + r / 64)
        match v with
        | .fin _ _ _ =>
          let c := (toPair (v.scale (-x))).code
          ((decodeFloat 3 (c % 65536)).scale x, (decodeFloat 3 (c / 65536)).scale x)
        | v => (v, .zero false)
      else (v, .zero false)
    else elemPair s b i r
  | none => elemPair s b i r

/-! ### Table mode (R112 to R118) -/

/-- The exponent of the unit u of a table's entries under block scale `b`: P8 (code 1) or I8 (R113). -/
def tableUnit (f b : Nat) : Int := (if f = 1 then -9 else 0) + ((b : Int) - 127)

/-- The signed whole number in an exact value. -/
def intOf (v : Val) : Int :=
  match v with
  | .fin n m e => let k : Int := (magAt m (max e 0) 0 : Nat); if n then -k else k
  | _ => 0

/-- Entry T[p] of four elements in units of u: their sum over the bits of p. -/
def entrySum (ns : List Int) (p : Nat) : Int :=
  ((List.range 4).filter (fun t => p.testBit t)).foldl (fun a t => a + (ns[t]?).getD 0) 0

/-- The 16 words of a group's table (R113): two's complement in bits [23:0], or the NaN mark in bit 24 where an element is NaN or
the block scale is 0xFF (`mark`). -/
def tableWords (vs : List Val) (mark : Bool) (unit : Int) : List Nat :=
  if mark || vs.any Val.isNan then List.replicate 16 (2 ^ 24)
  else (List.range 16).map (fun p => toU 24 (entrySum (vs.map (fun v => intOf (v.scale (-unit)))) p))

/-- The unit of the block that holds element (i, k) of the streaming operand. -/
def unitAt (s : State) (a : Opd) (i k : Nat) : Int :=
  if i < a.outer && k < a.red then tableUnit a.fmt (scaleByte s a (a.tileOf i k) (i % 64) (k % 64)) else 0

/-- The block scale of the block that holds element (i, k), padding of the operand's Tiles included, is 0xFF (R52, R113). -/
def scaleMark (s : State) (a : Opd) (i k : Nat) : Bool :=
  decide (i < 64 * a.to) && decide (k < 64 * a.tr) && scaleByte s a (a.tileOf i k) (i % 64) (k % 64) == 0xFF

/-- The table of the group of streaming row `i` that begins at reduction index `k` (R112, R113) (DESIGN CHOICE, log 144). -/
def groupTable (s : State) (a : Opd) (i k : Nat) : List Nat :=
  tableWords ((List.range 4).map (fun t => rawVal s a i (k + t))) (scaleMark s a i k) (unitAt s a i k)

/-- The sign of the NaN that a block of 32 streaming elements gives: that of its first NaN element (R52). -/
def markSign (s : State) (a : Opd) (i k : Nat) : Bool :=
  (((List.range 32).map (fun t => rawVal s a i (k + t))).find? Val.isNan).any Val.sign

/-- The integer of a table word; none under the NaN mark. -/
def wordVal (w : Nat) : Option Int := if bit w 24 then none else some (sx 24 (bits w 23 0))

/-- The sum of table words; none when one carries the NaN mark. -/
def wordSum (l : List Nat) : Option Int :=
  l.foldl (fun a w => match a, wordVal w with | some x, some y => some (x + y) | _, _ => none) (some 0)

/-- Planes of a stationary format in table mode (R112). -/
def planesOf (f : Nat) : Nat := if f = 9 then 1 else if f = 0xA then 2 else 3

/-- e0 and d_j of a stationary operand (R112). -/
def affineBase (b : Opd) : Val := decodeElem b.fmt b.book 0
def affineStep (b : Opd) (j : Nat) : Val := Val.sub (decodeElem b.fmt b.book (2 ^ j)) (affineBase b)

/-- The pattern of plane `j` over four index codes. -/
def patternOf (j : Nat) (cs : List Nat) : Nat :=
  (List.range 4).foldl (fun p t => p + b2n (bit ((cs[t]?).getD 0) j) * 2 ^ t) 0

/-- The contribution of one block of 32 elements (R118): `tabs` its 8 tables, `codes` its 32 stationary index codes, `u` the
exponent of its unit. A NaN mark gives NaN, with the sign `n` of the element that it comes from (R52) (DESIGN CHOICE, log 144). -/
def lutBlock (b : Opd) (tabs : List (List Nat)) (codes : List Nat) (u : Int) (n : Bool) : Val :=
  let look := fun (p : Nat → Nat) => wordSum ((List.range 8).map (fun g => (((tabs[g]?).getD [])[p g]?).getD 0))
  match look (fun _ => 15) with
  | none => .nan n
  | some s15 =>
    let sj := fun j => (look (fun g => patternOf j ((codes.drop (4 * g)).take 4))).getD 0
    (((List.range (planesOf b.fmt)).foldl (fun v j => Val.add v (Val.mul (affineStep b j) (ofInt (sj j))))
      (Val.mul (affineBase b) (ofInt s15)))).scale u

/-- Index codes of the stationary elements, from the active block where it is reused (R96). -/
def statCode (s : State) (b : Opd) (reuse : Option Block) (k n : Nat) : Nat :=
  match reuse with
  | some blk => if blk.covers n k then (blk.codes[blk.place n k]?).getD 0 else codeAt s b n k
  | none => codeAt s b n k

/-- Contributions to output element (i, n) in table mode, one a block of 32, ascending (R118); tile_exp scales them exactly. -/
def lutContribs (s : State) (a b : Opd) (reuse : Option Block) (reds : Nat × Nat) (i n : Nat) : List Val :=
  (List.range (2 * reds.2)).map (fun q =>
    let k := 64 * reds.1 + 32 * q
    (lutBlock b ((List.range 8).map (fun g => groupTable s a i (k + 4 * g)))
      ((List.range 32).map (fun t => statCode s b reuse (k + t) n)) (unitAt s a i k) (markSign s a i k)).scale
        (tileExp s a (a.tileOf i k) + tileExp s b (b.tileOf n k)))

/-- Contributions to one output element in the order of their additions: `ks` are the reduction indices, padded to
whole Tiles, ascending. -/
def contributions (op runLen : Nat) (pair : Bool) (sv wv : Nat → Val) (sp wp : Nat → Val × Val) (ks : List Nat) :
    List Val :=
  if pair then ks.map (fun k => pairProduct (sp k) (wp k))
  else
    let ps := ks.map (fun k => Val.mul (sv k) (wv k))
    match op with
    | 1 => (chunksOf runLen ps.length ps).map (narrowSum (16 - Nat.log2 runLen))
    | 4 => (chunksOf 16 ps.length ps).map sumVals
    | _ => [sumVals ps]

/-- Adds contributions into a W38 entry that starts from zero; `rnd j` rounds the j-th addition (R84, R218). -/
def accumulate (rnd : Nat → Round) (l : List Val) : Nat :=
  (l.foldl (fun (a : Nat × Nat) v => (w38Add (rnd a.2) a.1 v, a.2 + 1)) (0, 0)).1


/-- A partial result as its bank holds it: a W38 word, or a 32-bit integer in binary mode (R109). -/
def rawEntry (op : Nat) (rnd : Nat → Round) (l : List Val) : Nat :=
  if op = 2 then toU 32 (intOf (sumVals l)) else accumulate rnd l

/-- The value of a bank's entry. -/
def entryVal (op raw : Nat) : Val := if op = 2 then ofInt (sx 32 raw) else w38Decode raw

/-- The combination of two members' entries under a RED split (R26, R111). -/
def combineEntry (op a b : Nat) : Nat :=
  if op = 2 then (a + b) % 2 ^ 32 else w38Add .nearest a (w38Decode b)

/-- What an array command's passes need besides the operands. -/
structure ArrCtx where
  op : Nat
  orient : Nat
  runLen : Nat
  pair : Bool
  g1 : Bool
  seed : Nat
  step : Nat
  reuse : Option Block
  shape : Nat × Nat

/-- The rounding of the j-th W38 addition of output element (i, n) (R84, R218). -/
def ArrCtx.rnd (x : ArrCtx) (c : Opd) (i n j : Nat) : Round :=
  if x.g1 then .stochastic (rand16 x.seed x.step c.tensor (c.index i n) 1 (j % 65536)) else .nearest

/-- The entry of output element (i, n) over the reduction Tiles `reds`. -/
def arrayEntry (s : State) (x : ArrCtx) (a b c : Opd) (reds : Nat × Nat) (i n : Nat) : Nat :=
  let ks := (List.range (64 * reds.2)).map (fun k => 64 * reds.1 + k)
  rawEntry x.op (x.rnd c i n)
    (if x.op = 3 then lutContribs s a b x.reuse reds i n
     else contributions x.op x.runLen x.pair
      (fun k => elemVal s a i k) (fun k => statVal s b x.reuse x.orient k n)
      (fun k => elemPair s a i k) (fun k => statPair s b x.reuse x.orient k n) ks)

/-- The entries of output Tile (ot, ct), by rows. -/
def arrayTile (s : State) (x : ArrCtx) (a b c : Opd) (reds : Nat × Nat) (ot ct : Nat) : List Nat :=
  ((List.range 64).map (fun i => (List.range 64).map (fun j =>
    if c.inside (64 * ot + i) (64 * ct + j) then arrayEntry s x a b c reds (64 * ot + i) (64 * ct + j) else 0))).flatten

/-! ### Bit-serial bundles (R119 to R124) -/

/-- |a| of an I8 activation code. -/
def actMag (c : Nat) : Nat := (sx 8 c).natAbs

/-- Bits that are 1 in some lane of a bundle, as a mask. -/
def bundleMask (l : List Nat) : Nat := l.foldl (fun m a => m ||| a) 0

/-- Planes of a mask at or below bit `t`. -/
def planesUpTo (m t : Nat) : Nat := ((List.range (t + 1)).filter (fun p => m.testBit p)).length

/-- Array cycles of a bundle (R119). -/
def bundleCycles (l : List Nat) : Nat := max 1 ((planesUpTo (bundleMask l) 8 + 1) / 2)

/-- Lane-cycles in which lanes of a bundle take part (R120). -/
def bundleActive (l : List Nat) : Nat :=
  l.foldl (fun n a => if a = 0 then n else n + (planesUpTo (bundleMask l) (Nat.log2 a) + 1) / 2) 0

/-- Cycles of a bundle before its first lane idles (R120). -/
def bundleFull (l : List Nat) : Nat :=
  l.foldl (fun n a => min n (if a = 0 then 0 else (planesUpTo (bundleMask l) (Nat.log2 a) + 1) / 2)) (bundleCycles l)

/-- The numbers from `a` up to `b` as a mask. -/
def spanMask (a b : Nat) : Nat := if a < b then 2 ^ b - 2 ^ a else 0

/-- What the bundles of a pass have cost so far: idle lane-cycles, the cycles in which some lane idled, as a mask, and the cycles
in which each bundle began and ended, by row and slice. -/
structure Skew where
  idle : Nat
  mask : Nat
  spans : List (Nat × Nat)

/-- Slices over the rows of a pass: end times of the last row and of the row before, and the cost so far (R122, R124). -/
def rowStep (ends prev : List Nat) (k : Skew) (row : List (List Nat)) : List Nat × Skew :=
  let bar := prev.foldl max 0
  let r := (row.zip ends).map (fun (l, e) =>
    let st := max e bar
    ((st, st + bundleCycles l), 16 * (st - e) + 16 * bundleCycles l - bundleActive l,
     spanMask e st ||| spanMask (st + bundleFull l) (st + bundleCycles l)))
  (r.map (·.1.2), r.foldl (fun k x => ⟨k.idle + x.2.1, k.mask ||| x.2.2, k.spans ++ [x.1]⟩) k)

/-- The cost and the cycles of one pass over streaming rows, each a list of four bundles of activation magnitudes. -/
def passIdle : List (List (List Nat)) → List Nat → List Nat → Skew → Skew × Nat
  | [], ends, _, k => (k, ends.foldl max 0)
  | row :: rows, ends, prev, k =>
    let (e, k') := rowStep ends prev k row
    passIdle rows e ends k'

/-- The streaming rows of a pass: rows of the Tiles of a group, reduction Tile `kt`. -/
def passRows (s : State) (a : Opd) (rows : List Nat) (kt : Nat) : List (List (List Nat)) :=
  rows.map (fun i => (List.range 4).map (fun sl => (List.range 16).map (fun j =>
    let k := 64 * kt + 16 * sl + j
    if i < a.outer && k < a.red then
      actMag (elemCode s a.fmt (a.tileAddr (i / 64 * a.tr + kt)) (i % 64) (k % 64))
    else 0)))

/-- The pieces of a Tile range in groups of up to four (R76). -/
def groupsOf (r : Nat × Nat) : List (List Nat) := chunksOf 4 r.2 ((List.range r.2).map (fun i => r.1 + i))

/-- A pass of the opcode's loop (R76, R117): its streaming Tiles, its column Tile, the reduction Tiles of its block, and the output
column and the reduction index at which its block begins. -/
structure Pass where
  rts : List Nat
  ct : Nat
  kts : List Nat
  n0 : Nat
  k0 : Nat
  deriving DecidableEq, Repr

/-- Two passes name one stationary block. -/
def Pass.onBlock (p q : Pass) : Bool := p.n0 == q.n0 && p.k0 == q.k0

/-- The pass adds to output Tile `o`. -/
def Pass.adds (p : Pass) (o : Nat × Nat) : Bool := p.rts.contains o.1 && p.ct == o.2

/-- The Tiles of a range. -/
def tilesOf (r : Nat × Nat) : List Nat := (List.range r.2).map (fun i => r.1 + i)

/-- Multiples of `k` from `a` up to `b`. -/
def stepsFrom (a b k : Nat) : List Nat := (List.range ((b - a + k - 1) / k)).map (fun i => a + k * i)

/-- The passes of an array command over its ranges, in the order of its opcode's loop, with blocks of `shape` (R76, R108, R117); the
loops run over the blocks that hold elements of the reduction extent `redN` and of the output columns `colN` (DESIGN CHOICE,
log 146). -/
def passesOf (op : Nat) (shape : Nat × Nat) (redN colN : Nat) (rows cols reds : Nat × Nat) : List Pass :=
  let kEnd := 64 * (reds.1 + reds.2)
  let ks := stepsFrom (64 * reds.1) (min redN kEnd) shape.1
  let ns := stepsFrom (64 * cols.1) (min colN (64 * (cols.1 + cols.2))) shape.2
  let pass := fun (g : List Nat) (n k : Nat) =>
    (⟨g, n / 64, tilesOf (k / 64, (min (k + shape.1) kEnd + 63) / 64 - k / 64), n, k⟩ : Pass)
  if op = 3 then
    ((tilesOf rows).map (fun r => ((chunksOf 4 ns.length ns).map (fun set => (ks.map (fun k =>
      set.map (fun n => pass [r] n k))).flatten)).flatten)).flatten
  else ((groupsOf rows).map (fun g => (ns.map (fun n => ks.map (fun k => pass g n k))).flatten)).flatten

/-- Cycles under one code of the table Stall reasons, after those of a list. -/
def addSeg (l : List (Nat × Nat)) (x : Nat × Nat) : List (Nat × Nat) :=
  if x.2 = 0 then l
  else
    match l.getLast? with
    | some y => if y.1 = x.1 then l.dropLast ++ [(y.1, y.2 + x.2)] else l ++ [x]
    | none => [x]

/-- The cycles of a list, and those of a mask of skewed cycles among `n` (R402). -/
def segCycles (l : List (Nat × Nat)) : Nat := l.foldl (fun n x => n + x.2) 0
def segsOfMask (mask n : Nat) : List (Nat × Nat) :=
  (List.range n).foldl (fun l i => addSeg l (if mask.testBit i then 7 else 0, 1)) []

/-- What a list of passes costs the array: idle lane-cycles and bundles of bit-serial mode (R124), its cycles under the codes of the
table Stall reasons, in order (R74, R88, R95, R117, R119), and the cycles in which each bundle begins and ends. -/
structure PassCost where
  idle : Nat
  bundles : Nat
  segs : List (Nat × Nat)
  spans : List (Nat × Nat)

/-- Spans of cycles, `n` later. -/
def laterBy (n : Nat) (l : List (Nat × Nat)) : List (Nat × Nat) := l.map (fun x => (x.1 + n, x.2 + n))

def PassCost.add (p q : PassCost) : PassCost :=
  ⟨p.idle + q.idle, p.bundles + q.bundles, q.segs.foldl addSeg p.segs, p.spans ++ laterBy (segCycles p.segs) q.spans⟩

def popCount (n : Nat) : Nat := ((List.range (if n = 0 then 0 else Nat.log2 n + 1)).filter (fun i => n.testBit i)).length

/-- Cycles that a streaming row takes in a mode: planes of table mode, four for a pair, and 4 or 2 where the 256 adders of an
edge hold back 1×1 rows. -/
def rowCycles (op : Nat) (pair : Bool) (width runLen planes : Nat) : Nat :=
  if op = 3 then planes else if op = 1 then (if pair then 4 else max 1 (gridSide width * gridSide width / (256 * runLen))) else 1

/-- The cost of one pass. -/
def passCost (s : State) (op : Nat) (rowCyc : Nat) (a : Opd) (p : Pass) : PassCost :=
  let rows := (p.rts.map (fun t => (List.range 64).map (fun i => 64 * t + i))).flatten
  if op = 4 then
    let (k, n) := passIdle (passRows s a rows (p.kts.headD 0)) [0, 0, 0, 0] [0, 0, 0, 0] ⟨0, 0, []⟩
    ⟨k.idle, 4 * rows.length, segsOfMask k.mask n, k.spans⟩
  else ⟨0, 0, addSeg [] (0, rows.length * rowCyc), []⟩

/-- The idle cycles after a pass of fewer than 65 cycles, while the next pass's block loads (R95). -/
def shadowGap (p : PassCost) : PassCost := ⟨0, 0, addSeg [] (6, 65 - segCycles p.segs), []⟩

/-- The cost of passes that follow one another. -/
def passCosts (s : State) (op rowCyc : Nat) (a : Opd) : List Pass → PassCost
  | [] => ⟨0, 0, [], []⟩
  | p :: ps =>
    let c := passCost s op rowCyc a p
    let c := match ps with
      | q :: _ => if p.onBlock q then c else c.add (shadowGap c)
      | [] => c
    c.add (passCosts s op rowCyc a ps)

/-! ### Blocks (R96) -/

/-- The stationary block at reduction offset `k0` and output column `n0`, as it loads now. -/
def loadBlock (s : State) (x : ArrCtx) (b : Opd) (k0 n0 : Nat) : Block :=
  let (row, col) := statPos x.orient k0 n0
  let rows := if x.orient = 1 then x.shape.1 else x.shape.2
  let cols := if x.orient = 1 then x.shape.2 else x.shape.1
  ⟨b.idx, row, col, rows, cols, b.addr, b.bsAddr, b.fmt, b.bsEn, b.gen,
   ((List.range rows).map (fun i => (List.range cols).map (fun j =>
     if b.fmt = 5 then (elemPair s b (row + i) (col + j)).1 else elemVal s b (row + i) (col + j)))).flatten,
   if b.fmt = 5 then
     ((List.range rows).map (fun i => (List.range cols).map (fun j => (elemPair s b (row + i) (col + j)).2))).flatten
   else [],
   if x.op = 3 then
     ((List.range rows).map (fun i => (List.range cols).map (fun j => codeAt s b (row + i) (col + j)))).flatten
   else []⟩

/-- Two blocks are the same block (R96): one position, one extent, and a descriptor that holds the same. The block of a transposed
MUL_B1, 512 rows by 64 columns of its operand, is no normal one's (R102). -/
def sameBlock (p q : Block) : Bool :=
  p.idx == q.idx && p.row == q.row && p.col == q.col && p.rows == q.rows && p.cols == q.cols && p.addr == q.addr &&
  p.bsAddr == q.bsAddr && p.format == q.format && p.bsEn == q.bsEn && p.gen == q.gen

end Sys2Proof.Machine
end

