-- ==== Sys2Proof/Machine/Checks.lean ====
section
/-! DEFINITION. The issue checks of an engine command (R168, R535), its operands read once at issue (R161, R57), and the
two memory steps that follow the checks (R258). -/

namespace Sys2Proof.Machine

/-- Why a command completes without running: status, operand, detail, detail2 (R176, R177). -/
structure Fail where
  status : Nat
  operand : Nat
  detail : Nat
  detail2 : Nat
  deriving DecidableEq, Repr

/-- The engine that carries out an opcode (R91). -/
inductive Engine where
  | none | array | vector | mover | collective
  deriving DecidableEq, Repr

/-- What the table Opcodes gives an opcode: presence of A, B, C, accepted split rules, engine. -/
structure OpInfo where
  a : Bool
  b : Bool
  c : Bool
  splits : List Nat
  engine : Engine
  deriving DecidableEq, Repr

/-- The rows of the table Opcodes and of the table Collective opcodes. -/
def opInfo (op : Nat) : Option OpInfo :=
  match op with
  | 0x00 => some ⟨false, false, false, [0, 1, 2], .none⟩
  | 0x01 => some ⟨true, true, true, [0, 1, 2], .array⟩
  | 0x02 => some ⟨true, true, true, [0, 1, 2], .array⟩
  | 0x03 => some ⟨true, true, true, [0, 1, 2], .array⟩
  | 0x04 => some ⟨true, true, true, [0, 1, 2], .array⟩
  | 0x20 => some ⟨true, false, true, [0, 1], .vector⟩
  | 0x21 => some ⟨true, true, true, [0, 1], .vector⟩
  | 0x22 => some ⟨true, true, true, [0, 1], .vector⟩
  | 0x23 => some ⟨true, false, true, [0], .vector⟩
  | 0x24 => some ⟨true, false, true, [0], .vector⟩
  | 0x25 => some ⟨true, false, true, [0, 1], .vector⟩
  | 0x26 => some ⟨true, true, true, [0], .vector⟩
  | 0x40 => some ⟨true, false, true, [0, 1], .mover⟩
  | 0x41 => some ⟨false, false, true, [0, 1], .mover⟩
  | 0x42 => some ⟨true, false, false, [0, 1], .mover⟩
  | 0x60 => some ⟨true, false, false, [0, 1, 2, 3], .collective⟩
  | 0x61 => some ⟨true, false, true, [0, 1, 2, 3], .collective⟩
  | 0x62 => some ⟨true, false, true, [0, 1, 2, 3], .collective⟩
  | 0x63 => some ⟨true, false, true, [0, 1, 2, 3], .collective⟩
  | 0x64 => some ⟨false, false, true, [0, 1, 2, 3], .collective⟩
  | 0x65 => some ⟨true, false, true, [0, 1, 2, 3], .collective⟩
  | 0x66 => some ⟨true, false, false, [0, 1, 2, 3], .collective⟩
  | _ => none

def engineOf (op : Nat) : Engine := ((opInfo op).map (·.engine)).getD .none

/-- The die whose registers the accepting unit uses: its own, or the stream's for the module (R37, R160). -/
def homeDie (u : Nat) (c : BitVec 256) : Nat := if u = modulePath then bits (cStream c) 15 15 else pathDie u

/-- The job of a command's stream. -/
def jobOf (s : State) (c : BitVec 256) : Nat := (s.stream (cStream c)).job

/-! ### Reading descriptors and slots -/

def descAddr (s : State) (d i : Nat) : Nat := s.reg64 (dieTopPage d + 0x90) + 64 * i
def descLimit (s : State) (d : Nat) : Nat := min (s.fld (dieTopPage d) Fld.DIE_DESC_LIMIT.limit) 1048576
def slotAddr (s : State) (d i : Nat) : Nat := s.reg64 (dieTopPage d + 0x88) + 32 * i

/-- Descriptor `i` and its slot as the accepting unit reads them. -/
def readOpd (s : State) (d i : Nat) : Opd :=
  let o : Opd := ⟨i, BitVec.ofNat 512 (folioNum s (descAddr s d i) 64), unitSlot⟩
  if o.slotIdx = 0xFFFF then o
  else { o with slot := BitVec.ofNat 256 (folioNum s (slotAddr s d o.slotIdx) 32) }

/-- The operands a command names, in the order A, B, C. -/
def readOps (s : State) (u : Nat) (c : BitVec 256) : List (Option Opd) :=
  [0, 1, 2].map (fun i => if cUse c i then some (readOpd s (homeDie u c) (cDesc c i)) else none)

/-- Operands present, with their numbers 1 A, 2 B, 3 C. -/
def present (ops : List (Option Opd)) : List (Nat × Opd) :=
  (List.zip [1, 2, 3] ops).filterMap (fun (n, o) => o.map (fun o => (n, o)))

/-! ### Checks 1 to 5: the word -/

def check1 (c : BitVec 256) : Option Fail :=
  if !validPath (cPath c) || (cTokEn c && !validPath (cTokDest c)) then some ⟨stAddress, 0, 0, 0⟩ else none

def check2 (c : BitVec 256) : Option Fail :=
  match opInfo (cOp c) with
  | none => some ⟨stFormat, 0, 0x10, 0⟩
  | some i => if i.engine == .collective && pathLevel (cPath c) < 3 then some ⟨stFormat, 0, 0x10, 0⟩ else none

/-- param0 and param1 as the opcode allows them. -/
def paramsOk (s : State) (c : BitVec 256) : Bool :=
  let p0 := cParam0 c
  let p1 := cParam1 c
  match cOp c with
  | 0x20 => p0 < 14 && p1 == 0
  | 0x21 => p0 < 6 && p1 == 0
  | 0x23 => p0 < 5 && p1 == 0
  | 0x25 => bits p0 31 24 == 0 && bits p0 23 20 ≤ 2
  | 0x26 => p0 < 256 && p1 == 0
  | 0x41 => p1 == 0
  | 0x42 => bits p0 2 0 ≤ 4 && bits p0 5 3 ≤ 4 && bits p0 31 6 == 0 && p1 == 0
  | 0x60 => !(bit p0 31)
  | 0x61 => bits p0 31 12 == 0 && p1 == 0
  | 0x62 => bits p0 31 12 == 0 && p1 == 0
  | 0x63 => bits p0 31 6 == 0 && bits p1 31 26 == 0 && !(psetMembers s p0).isEmpty
  | 0x64 => bits p0 31 9 == 0 && bits p1 31 26 == 0
  | 0x65 => bits p0 31 6 == 0 && p1 == 0 && !(psetMembers s p0).isEmpty
  | 0x66 => bits p0 31 23 == 0 && p1 == 0
  | _ => p0 == 0 && p1 == 0

def check3 (s : State) (c : BitVec 256) : Option Fail :=
  if cmdFld c 0 15 13 != 0 || cmdFld c 3 31 21 != 0 || cmdFld c 4 31 21 != 0 || cmdFld c 5 31 21 != 0 ||
      !paramsOk s c then
    some ⟨stFormat, 0, 0x11, 0⟩
  else none

def check4 (c : BitVec 256) : Option Fail :=
  match opInfo (cOp c) with
  | some i => if cUse c 0 != i.a || cUse c 1 != i.b || cUse c 2 != i.c then some ⟨stFormat, 0, 0x12, 0⟩ else none
  | none => none

/-- orient is accepted by MUL and MUL_B1 only (R106, R156). -/
def orientOk (op orient : Nat) : Bool := orient == 0 || op == 1 || op == 2

def check5 (c : BitVec 256) : Option Fail :=
  match opInfo (cOp c) with
  | some i =>
    if !i.splits.contains (cSplit c) || !orientOk (cOp c) (cOrient c) then some ⟨stFormat, 0, 0x13, 0⟩ else none
  | none => none

/-! ### Checks 6 to 9: descriptors, jobs, formats, slots -/

/-- The first operand for which `f` gives a failure. -/
def firstFail (l : List (Nat × Opd)) (f : Nat → Opd → Option Fail) : Option Fail :=
  l.findSome? (fun x => f x.1 x.2)

/-- Check 6: a descriptor that an address outside every mapped Folio gives is read as memory holds it there (DESIGN CHOICE,
log 158). -/
def check6 (s : State) (u : Nat) (c : BitVec 256) (l : List (Nat × Opd)) : Option Fail :=
  let d := homeDie u c
  firstFail l (fun n o =>
    if descLimit s d ≤ o.idx then some ⟨stFormat, n, 0x14, o.idx⟩
    else
      match readFail s (descAddr s d o.idx) 64 with
      | some .ecc => some ⟨stEcc, n, 0, o.idx⟩
      | some (.tier l) => some ⟨stTier, n, 4, l⟩
      | none => if !o.valid || o.reservedSet then some ⟨stFormat, n, 0x14, o.idx⟩ else none)

def check7 (s : State) (c : BitVec 256) (l : List (Nat × Opd)) : Option Fail :=
  firstFail l (fun n o => if o.job != jobOf s c then some ⟨stPrivilege, n, o.idx, 0⟩ else none)

/-- The formats accepted for operand `n` of an opcode (R44, R74, R106, R172, R534, R325, R331, R340, R344). -/
def formatOk (op n f : Nat) : Bool :=
  match op, n with
  | 0x01, 3 => [0, 1, 2, 3, 4, 5, 7, 8].contains f
  | 0x01, _ => [0, 1, 2, 3, 4, 5, 7, 8].contains f
  | 0x02, 3 => [0, 1, 2, 3, 4, 5, 7, 8, 9].contains f
  | 0x02, _ => f == 9
  | 0x03, 1 => f == 1 || f == 8
  | 0x03, 2 => f == 9 || f == 0xA || f == 0xB
  | 0x03, _ => [0, 1, 2, 3, 4, 5, 7, 8].contains f
  | 0x04, 1 => f == 8
  | 0x04, 2 => f == 7 || f == 8
  | 0x04, _ => [0, 1, 2, 3, 4, 5, 7, 8].contains f
  | 0x25, 3 => [2, 3, 4, 6].contains f
  | 0x26, 2 => f == 6
  | 0x60, _ => f == 3 || f == 6
  | 0x64, _ => [1, 2, 3, 4, 5, 6].contains f
  | op, _ => if 0x20 ≤ op && op < 0x40 then f ≤ 8 else f ≤ 0xB

/-- A and C of a data-moving collective agree in format and bs_en (R325). -/
def collFormat (op : Nat) (ops : List (Option Opd)) : Bool :=
  match op, ops with
  | 0x61, [some a, _, some c] => a.fmt == c.fmt && a.bsEn == c.bsEn
  | 0x62, [some a, _, some c] => a.fmt == c.fmt && a.bsEn == c.bsEn
  | 0x63, [some a, _, some c] => a.fmt == c.fmt && a.bsEn == c.bsEn
  | 0x65, [some a, _, some c] => a.fmt == c.fmt && a.bsEn == c.bsEn
  | _, _ => true

def check8 (c : BitVec 256) (ops : List (Option Opd)) (l : List (Nat × Opd)) : Option Fail :=
  firstFail l (fun n o =>
    if !formatOk (cOp c) n o.fmt || (o.bsEn && !optScales o.fmt) || (n == 3 && o.rounding == 3) || 6 ≤ o.kind ||
        (o.kind == 4 && o.fmt != 3 && o.fmt != 6) || (n == 3 && !collFormat (cOp c) ops) then
      some ⟨stFormat, n, 0x15, o.idx⟩
    else none)

/-- A positive normal F32 code. -/
def posNormal (c : Nat) : Bool := decide (0x00800000 ≤ c) && decide (c < 0x7F800000)

/-- The codebook entries an L2 or L3 operand uses hold no NaN and no infinity (R56). -/
def bookOk (o : Opd) : Bool :=
  (o.book.take (if o.fmt = 0xA then 4 else 8)).all (fun c => c % 2 ^ 15 < 0x7F80)

/-- The codebook is affine in the index bits (R112). -/
def bookAffine (o : Opd) : Bool :=
  let e := fun i => decodeFloat 3 ((o.book[i]?).getD 0)
  let d := fun j => Val.sub (e (2 ^ j)) (e 0)
  let at_ := fun i => (List.range 3).foldl (fun v j => if bit i j then Val.add v (d j) else v) (e 0)
  ((if o.fmt = 0xA then [3] else if o.fmt = 0xB then [3, 5, 6, 7] else []) : List Nat).all
    (fun i => (Val.sub (e i) (at_ i)).isZero)

/-- A scale that is a power of two (R331). -/
def powerOfTwo (c : Nat) : Bool := bits c 22 0 == 0

def slotBad (op n : Nat) (o : Opd) : Bool :=
  if o.slotIdx = 0xFFFF then o.fmt == 0xA || o.fmt == 0xB
  else
    !(bit o.slot.toNat 192) || !posNormal o.scaleCode || !posNormal o.invCode ||
    ((o.fmt == 0xA || o.fmt == 0xB) && !bookOk o) || (op == 3 && n == 2 && !bookAffine o) ||
    (op == 0x60 && !powerOfTwo o.scaleCode)

def check9 (s : State) (u : Nat) (c : BitVec 256) (l : List (Nat × Opd)) : Option Fail :=
  let d := homeDie u c
  firstFail l (fun n o =>
    let a := slotAddr s d o.slotIdx
    if o.slotIdx = 0xFFFF then (if slotBad (cOp c) n o then some ⟨stFormat, 4, 0x16, o.idx⟩ else none)
    else
      match unmappedIn s a 32 with
      | some f => some ⟨stAddress, 4, f % 2 ^ 32, f / 2 ^ 32 % 4⟩
      | none =>
        match readFail s a 32 with
        | some .ecc => some ⟨stEcc, 4, 0, o.idx⟩
        | some (.tier l) => some ⟨stTier, 4, 4, l⟩
        | none => if slotBad (cOp c) n o then some ⟨stFormat, 4, 0x16, o.idx⟩ else none)

/-! ### Check 10: no-ops (R169) -/

/-- The header of a permute's move list: new_gen and entries (R345). -/
def moveList (c : BitVec 256) : Nat := bits (cParam0 c) 22 0 * 65536

/-- A no-op (R169); a move list of no entries whose header has a reserved bit set is none: it is rejected (DESIGN CHOICE, log 160). -/
def isNoop (s : State) (c : BitVec 256) (l : List (Nat × Opd)) : Bool :=
  cOp c == 0 || l.any (fun x => x.2.red == 0 || x.2.outer == 0) ||
  (cOp c == 0x66 && inFixed s (moveList c) 32 && folioNum s (moveList c + 2) 3 == 0 &&
    bits (folioNum s (moveList c) 32) 255 40 == 0)

/-! ### Checks 11 to 18 -/

/-- The equalities of the table Extent agreement in the order it lists them: whether each holds, and the later operand
it names. -/
def extentRules (op orient : Nat) (ops : List (Option Opd)) : List (Bool × Nat) :=
  match ops with
  | [some a, some b, some c] =>
    if op ≤ 4 then
      if orient = 1 then [(a.red == b.outer, 2), (c.outer == a.outer, 3), (c.red == b.red, 3)]
      else [(a.red == b.red, 2), (c.outer == a.outer, 3), (c.red == b.outer, 3)]
    else if op = 0x26 then
      [(b.red == a.red && b.outer == a.outer, 2), (c.red == a.red && c.outer == a.outer, 3)]
    else
      [(c.red == a.red && c.outer == a.outer, 3),
       ((b.red == a.red && b.outer == a.outer) || (b.outer == 1 && b.red == a.red) ||
          (b.red == 1 && b.outer == a.outer), 2)]
  | [some a, none, some c] =>
    if op = 0x23 then [(c.outer == a.outer, 3), (c.red == 1, 3)]
    else if op = 0x63 then [(c.red == a.red, 3)]
    else [(c.red == a.red, 3), (c.outer == a.outer, 3)]
  | _ => []

def opdIdx (ops : List (Option Opd)) (n : Nat) : Nat :=
  match ops[n - 1]? with
  | some (some o) => o.idx
  | _ => 0

def check11 (c : BitVec 256) (ops : List (Option Opd)) : Option Fail :=
  match (extentRules (cOp c) (cOrient c) ops).find? (fun r => !r.1) with
  | some r => some ⟨stLength, r.2, 0x20, opdIdx ops r.2⟩
  | none => none

def check12 (c : BitVec 256) (ops : List (Option Opd)) (l : List (Nat × Opd)) : Option Fail :=
  firstFail l (fun n o =>
    let extra :=
      match cOp c, ops with
      | 0x63, [some a, _, some _] => n == 3 && decide (o.cap < bits (cParam1 c) 25 0 + a.tiles)
      | _, _ => false
    if o.cap < o.tiles || extra then some ⟨stLength, n, 0x21, o.idx⟩ else none)

def check13 (l : List (Nat × Opd)) : Option Fail :=
  firstFail l (fun n o => if o.fullRed < o.redBase + o.red then some ⟨stLength, n, 0x22, o.idx⟩ else none)

def check14 (c : BitVec 256) (ops : List (Option Opd)) : Option Fail :=
  match ops with
  | [_, _, some o] =>
    if cOp c == 0x25 && (decide (1048575 < bits (cParam0 c) 19 0 + o.outer - 1) ||
        decide (1048575 < bits (cParam1 c) 19 0 + o.red - 1)) then
      some ⟨stLength, 3, 0x23, o.idx⟩
    else none
  | _ => none

def check15 (c : BitVec 256) (ops : List (Option Opd)) : Option Fail :=
  match ops with
  | some a :: _ => if cOp c == 2 && decide (2 ^ 30 < 64 * a.tr) then some ⟨stLength, 1, 0x24, a.idx⟩ else none
  | _ => none

/-- The byte ranges of an operand: payload, and block scales when bs_en is 1. -/
def Opd.ranges (o : Opd) : List (Nat × Nat) :=
  (o.addr, o.tiles * strideOf o.fmt) :: (if optScales o.fmt && o.bsEn then [(o.bsAddr, 128 * o.tiles)] else [])

def overlap (p q : List (Nat × Nat)) : Bool :=
  p.any (fun x => q.any (fun y => decide (x.1 < y.1 + y.2) && decide (y.1 < x.1 + x.2)))

/-- The two operands are the same place in the sense of R166. -/
def samePlace (o p : Opd) : Bool :=
  o.addr == p.addr && o.bsAddr == p.bsAddr && o.fmt == p.fmt && o.red == p.red && o.outer == p.outer

/-- Opcodes whose output may share bytes with an input of the same place (R166). -/
def mayAlias (op : Nat) : Bool := op == 0x20 || op == 0x21 || op == 0x22 || op == 0x25 || op == 0x40

/-- Check 16: the operands of a command do not overlap where they may not (R166); a collective opcode, which R166 does not list, is
not checked (DESIGN CHOICE, log 172). -/
def check16 (c : BitVec 256) (ops : List (Option Opd)) : Option Fail :=
  match ops with
  | [a, b, some o] =>
    if (opInfo (cOp c)).any (fun i => i.engine == .collective) then none
    else
      let bad := [a, b].any (fun p =>
        match p with
        | some p => overlap o.ranges p.ranges && !(mayAlias (cOp c) && samePlace o p)
        | none => false)
      if bad then some ⟨stFormat, 3, 0x17, o.idx⟩ else none
  | _ => none

/-- The first Folio of `n` bytes from `a` that is out of range or not mapped. -/
def badFolio (s : State) (a n : Nat) : Option Nat := unmappedIn s a n

def check17 (s : State) (l : List (Nat × Opd)) : Option Fail :=
  firstFail l (fun n o =>
    let sc := optScales o.fmt && o.bsEn
    let fault := fun f => some (⟨stAddress, n, f % 2 ^ 32, f / 2 ^ 32 % 4⟩ : Fail)
    if o.addr % 128 != 0 then fault (o.addr / 65536)
    else if sc && o.bsAddr % 128 != 0 then fault (o.bsAddr / 65536)
    else
      match badFolio s o.addr (o.cap * strideOf o.fmt) with
      | some f => fault f
      | none =>
        if sc then
          match badFolio s o.bsAddr (128 * o.cap) with
          | some f => fault f
          | none => none
        else none)

/-- The gather record of a descriptor: gen, valid, step (R358). -/
def gatherRecord (s : State) (d : Nat) : Nat := folioNum s (s.reg64 (mapPage + 0xA4) + 8 * d) 8

/-- The record is current for a command of `step` (R358). -/
def recordCurrent (r step : Nat) : Bool := bit r 16 && bits r 63 32 == step

/-- Check 18: a current gather record with another generation (R359, R361). -/
def check18 (s : State) (step : Nat) (l : List (Nat × Opd)) : Option Fail :=
  firstFail l (fun n o =>
    let r := gatherRecord s o.idx
    if o.checkGen && recordCurrent r step && bits r 15 0 != o.gen then
      some ⟨stStale, n, bits r 15 0 + o.gen * 65536, o.idx⟩
    else none)

/-- What the checks decide: reject, complete as a no-op, or run. -/
inductive Verdict where
  | reject (f : Fail)
  | noop
  | run
  deriving DecidableEq, Repr

/-- The first failure of a list. -/
def firstSome (l : List (Option Fail)) : Option Fail := l.findSome? id

/-- Checks 1 to 18 in order (R168). -/
def issueChecks (s : State) (u step : Nat) (c : BitVec 256) : Verdict :=
  match firstSome [check1 c, check2 c, check3 s c, check4 c, check5 c] with
  | some f => .reject f
  | none =>
    let ops := readOps s u c
    let l := present ops
    match firstSome [check6 s u c l, check7 s c l, check8 c ops l, check9 s u c l] with
    | some f => .reject f
    | none =>
      if isNoop s c l then .noop
      else
        match firstSome [check11 c ops, check12 c ops l, check13 l, check14 c ops, check15 c ops, check16 c ops,
            check17 s l, check18 s step l] with
        | some f => .reject f
        | none => .run

/-! ### Checks beyond the table -/

/-- COL_REDSCAT after the issue checks (R340); PRIVILEGE names C's descriptor (R177) (DEDUCED, log 159). -/
def redscatCheck (s : State) (c : BitVec 256) (ops : List (Option Opd)) : Option Fail :=
  let k := bits (cParam0 c) 8 0
  let x := s.ctx k
  if !x.armed then some ⟨stTier, 0, 5, k⟩
  else if x.job != jobOf s c then some ⟨stPrivilege, 0, ((ops[2]?).getD none |>.map (·.idx)).getD 0, 0⟩
  else
    match ops with
    | [_, _, some o] => if x.ntiles < bits (cParam1 c) 25 0 + o.tiles then some ⟨stLength, 0, 0, 0⟩ else none
    | _ => none

/-- Entry `i` of a move list: source Tile, destination module, payload address, scales address, reserved bits set. -/
def moveEntry (s : State) (list i : Nat) : Nat × Nat × Nat × Nat × Bool :=
  let e := folioNum s (list + 32 + 32 * i) 32
  (bits e 25 0, bits e 37 26, bits e 113 64, bits e 177 128,
   bits e 63 38 != 0 || bits e 127 114 != 0 || bits e 191 178 != 0 || bits e 255 192 != 0 || bits e 70 64 != 0)

/-- COL_PERMUTE's checks of its move list (R345). -/
def permuteCheck (s : State) (c : BitVec 256) (ops : List (Option Opd)) : Option Fail :=
  let list := moveList c
  let n := folioNum s (list + 2) 3
  let fin := fixedFolios s
  match ops with
  | some a :: _ =>
    if !inFixed s list (32 + 32 * n) then
      some ⟨stAddress, 0, (max fin (list / 65536)) % 2 ^ 32, (max fin (list / 65536)) / 2 ^ 32⟩
    else if s.badIn list (32 + 32 * n) then some ⟨stEcc, 0, 0, 0⟩
    else if (List.range n).any (fun i => decide (a.tiles ≤ (moveEntry s list i).1)) then some ⟨stLength, 0, 0, 0⟩
    else if bits (folioNum s list 32) 255 40 != 0 ||
        (List.range n).any (fun i => (moveEntry s list i).2.2.2.2 || (a.bsEn && (moveEntry s list i).2.2.2.1 == 0)) then
      some ⟨stFormat, 0, 0, 0⟩
    else none
  | _ => none

/-! ### The two steps of R258 -/

/-- Step 1: a region of another job under any byte the command reads or writes. -/
def regionJobCheck (s : State) (job : Nat) (l : List (Nat × Opd)) : Option Fail :=
  firstFail l (fun n o =>
    if o.ranges.any (fun r => (regionTiles s r.1 r.2).any (fun t => t.reg.job != job)) then
      some ⟨stPrivilege, n, o.idx, 0⟩
    else none)

/-- The region Tiles under the given Tiles of an operand and their scales. -/
def tilesUnder (s : State) (o : Opd) (ts : List Nat) : List TileRef := (ts.map (tilesOfTile s o)).flatten

/-- The byte ranges of the given Tiles of an operand and their scales. -/
def rangesUnder (o : Opd) (ts : List Nat) : List (Nat × Nat) :=
  ts.map (fun t => (o.tileAddr t, strideOf o.fmt)) ++
    (if optScales o.fmt && o.bsEn then ts.map (fun t => (o.bsAddr + 128 * t, 128)) else [])

/-- Step 2: allocation of the never-written Tiles that the command writes, and of lost ones that it writes whole; on failure
every allocation is undone (R258, R262). -/
def allocOutputs : List (Nat × Opd × List Nat) → State → Except Fail State
  | [], s => .ok s
  | (n, o, ts) :: rest, s =>
    match allocTiles (rangesUnder o ts) (tilesUnder s o ts) s with
    | .ok s' => allocOutputs rest s'
    | .error (.space last q) => .error ⟨(AllocFail.space last q).status, n, last, o.idx⟩
    | .error (.lost l) => .error ⟨stTier, n, 4, l⟩

end Sys2Proof.Machine
end

