-- ==== Sys2Proof/Machine/Trace.lean ====
section
/-! DEFINITION. Trace records on their way from a Chase to the buffer, triggers, and the point at which a timeout meets a
hang snapshot (R407 to R415). -/

namespace Sys2Proof.Machine

/-! ### Trace queues (R408, R409) -/

def State.trqOf (s : State) (ch : Nat) : TrcQ := SMap.get (fun _ => TrcQ.reset) s.trq ch
def State.setTrq (s : State) (ch : Nat) (q : TrcQ) : State := { s with trq := SMap.set (fun _ => TrcQ.reset) s.trq ch q }
def State.trwOf (s : State) (d : Nat) : TrcW := SMap.get (fun _ => TrcW.reset) s.trw d
def State.setTrw (s : State) (d : Nat) (w : TrcW) : State := { s with trw := SMap.set (fun _ => TrcW.reset) s.trw d w }

/-- The trace level of a Chase; 3 acts as 2 (R154). -/
def traceLevel (s : State) (ch : Nat) : Nat := min 2 (s.fld (unitPage ch) Fld.CHS_CORE_MODE.trace_level)

/-- A core emits a record of `time` into its Chase's queue; a full queue drops and counts it (R409) (DEDUCED, log 84). -/
def emitTrace (ch time type seq d2 d3 : Nat) (s : State) : State :=
  let q := { s.trqOf ch with last := time + 1 }
  if q.recs.length < 8 then s.setTrq ch { q with recs := q.recs ++ [⟨time, seq % 2 ^ 32, ch, type, d2, d3⟩] }
  else (s.setTrq ch { q with lost := q.lost + 1, firstLost := if q.lost = 0 then time else q.firstLost }).bump
    (tracePage (pathDie ch)) 1 1

/-- A record of level 1. -/
def emit1 (ch type seq d2 d3 : Nat) (s : State) : State :=
  s.when (decide (1 ≤ traceLevel s ch)) (emitTrace ch s.time type seq d2 d3)

/-! ### The writer (R410 to R413) -/

def traceState (s : State) (d : Nat) : Nat := s.fld (tracePage d) Fld.TRC_STATUS.state
def traceMode (s : State) (d : Nat) : Nat := s.fld (tracePage d) Fld.TRC_CTRL.mode

/-- Records in the buffer (R410). -/
def traceSlots : Nat := 2097152

/-- The four doublewords of a record (R407). -/
def recWord (r : TrcRec) : Nat :=
  r.time % 2 ^ 64 + r.seq * 2 ^ 64 + r.src * 2 ^ 96 + r.type * 2 ^ 112 + r.d2 % 2 ^ 64 * 2 ^ 128 + r.d3 % 2 ^ 64 * 2 ^ 192

/-- Stores a record at an index of the buffer. -/
def putAt (d i : Nat) (r : TrcRec) (s : State) : State :=
  fixedWrite (s.fld (tracePage d) Fld.TRC_BUF_BASE.folio * 65536 + 32 * i) 32 (recWord r) s

/-- One record lost: TRC_LOST saturates. -/
def loseRec (d : Nat) (s : State) : State :=
  s.setRegN (tracePage d + 0x90) (min (s.regN (tracePage d + 0x90) + 1) (2 ^ 32 - 1))

/-- Writes a record at the write index and advances it; a gap marker counts and raises EV_TRC_GAP. -/
def putRec (d : Nat) (r : TrcRec) (s : State) : State :=
  let i := s.fld (tracePage d) Fld.TRC_WR_IDX.index
  let s := putAt d i r s
  let s := s.setFld (tracePage d) Fld.TRC_WR_IDX.index ((i + 1) % traceSlots)
  let full := decide (traceSlots ≤ (s.trwOf d).held)
  let s := s.when (full && traceMode s d == 0) (fun s => s.setFlag (tracePage d) Fld.TRC_STATUS.wrapped true)
  let s := s.when (!full) (fun s => s.setTrw d { s.trwOf d with held := (s.trwOf d).held + 1 })
  let s := s.bump (tracePage d) 0 1
  s.when (r.type == 0x10) (fun s => raiseEv (tracePage d) 4 (s.bump (tracePage d) 2 1))

/-- A gap marker of the writer itself. -/
def gapRec (d n t now : Nat) : TrcRec := ⟨now, 0, diePath d, 0x10, n % 2 ^ 32, t⟩

/-- The writer takes one record, in the buffer's mode and state (table Buffer modes, R413). -/
def writeRec (d : Nat) (r : TrcRec) (s : State) : State :=
  let w := s.trwOf d
  match traceState s d with
  | 0 => s
  | 1 =>
    if traceMode s d = 1 && s.fld (tracePage d) Fld.TRC_WR_IDX.index + 1 = traceSlots then
      let s := loseRec d s
      let s := putAt d (traceSlots - 1) (gapRec d 1 r.time s.time) (s.setTrw d { w with lost := 1, firstLost := r.time })
      let s := (s.bump (tracePage d) 0 1).bump (tracePage d) 2 1
      raiseEv (tracePage d) 2 (raiseEv (tracePage d) 4 (s.setFld (tracePage d) Fld.TRC_STATUS.state 4))
    else if traceMode s d = 2 && traceSlots ≤ w.held then
      loseRec d (s.setTrw d { w with lost := w.lost + 1, firstLost := if w.lost = 0 then r.time else w.firstLost })
    else putRec d r s
  | 2 =>
    if w.post = 0 then loseRec d s
    else putRec d r (s.setTrw d { w with post := w.post - 1 })
  | 3 => loseRec d s
  | _ => loseRec d s

/-- The trigger marker of die `d` (table Trace record types). -/
def markerRec (d code now : Nat) : TrcRec := ⟨now, 0, diePath d, 0x11, code, 0⟩

/-- A trigger comes in the tick of the last marker, in a state in which no new one is accepted: the marker of several sources
in one tick (R412) (DEDUCED, log 80). -/
def sameTick (d : Nat) (s : State) : Bool :=
  (traceState s d != 1 || traceMode s d != 0) && traceState s d != 0 && (s.trwOf d).mark.any (fun m => m.1 == s.time)

/-- The marker names the lowest source code of its tick (R412) (DEDUCED, log 80). -/
def lowerMark (d code : Nat) (s : State) : State :=
  if (s.trwOf d).mark.any (fun m => decide (code < m.2)) then
    putAt d (bits (s.regN (tracePage d + 0xA8)) 20 0) (markerRec d code s.time)
      (s.setTrw d { s.trwOf d with mark := some (s.time, code) })
  else s

/-- The running writer has a slot for a marker: not in stop mode at the last slot, nor in a spill buffer that is full (table
Buffer modes). -/
def markFits (s : State) (d : Nat) : Bool :=
  !(traceMode s d == 1 && s.fld (tracePage d) Fld.TRC_WR_IDX.index + 1 == traceSlots) &&
  !(traceMode s d == 2 && decide (traceSlots ≤ (s.trwOf d).held))

/-- The marker that was just written at index `i` is the last trigger marker (R412). -/
def noteMark (d code i : Nat) (s : State) : State :=
  (s.setTrw d { s.trwOf d with mark := some (s.time, code) }).setRegN (tracePage d + 0xA8) (i + 2 ^ 21)

/-- A trigger of a source (R412, R413): accepted only in state running; a marker without a slot is lost like any record
(DEDUCED, log 80). -/
def trigger (d code : Nat) (s : State) : State :=
  if sameTick d s then lowerMark d code s
  else if traceState s d = 1 then
    let i := s.fld (tracePage d) Fld.TRC_WR_IDX.index
    let s := (writeRec d (markerRec d code s.time) s).when (markFits s d) (noteMark d code i)
    let s := raiseEv (tracePage d) 0 (s.bump (tracePage d) 3 1)
    if traceMode s d = 0 && traceState s d = 1 then
      (s.setTrw d { s.trwOf d with post := s.fld (tracePage d) Fld.TRC_POST.count }).setFld (tracePage d) Fld.TRC_STATUS.state 2
    else s
  else s

/-- A record of a Chase meets the record trigger (R412) (DEDUCED, log 84). -/
def recMatches (s : State) (d : Nat) (r : TrcRec) : Bool :=
  s.flag (tracePage d) Fld.TRC_TRIG_CFG.on_record &&
  (s.flag (tracePage d) Fld.TRC_TRIG_CFG.type_any || s.fld (tracePage d) Fld.TRC_TRIG_CFG.type == r.type) &&
  ((r.src ^^^ s.fld (tracePage d) Fld.TRC_TRIG_PATH.path) &&& s.fld (tracePage d) Fld.TRC_TRIG_PATH.mask) == 0

/-- The writer takes a Chase's record; a match then gives a trigger (DEDUCED, log 84). -/
def takeRec (d : Nat) (r : TrcRec) (s : State) : State :=
  let hit := recMatches s d r
  (writeRec d r s).when hit (trigger d 1)

/-! ### Counters of traffic (R399, R404) -/

/-- The counters of traffic whose grain the spec does not state: 64-byte beats and busy ticks of the memory controllers, flits
and busy ticks of the bridge, corrected codewords (DEDUCED, log 113). -/
def freeCounters : List Nat :=
  ((List.range 16).map (fun c => [3, 4, 10].map (fun i => hbmPage c + 0x30 + 4 * i))).flatten ++
  ([0, 1].map (fun d => [0, 1, 4, 5].map (fun i => dieTopPage d + 0x30 + 4 * i))).flatten ++
  (List.range 16).map (fun p => portPage p + 0x30)

/-- Such a counter has gone on by a free amount since it was last looked at (DEDUCED, log 113). -/
def advanceFree (off : Nat) (s : State) : State :=
  let (n, s) := s.takeFree
  s.setRegN off ((s.regN off + n) % 2 ^ 32)

/-! ### Timeouts (R412, R415) -/

/-- The snapshot area of a die lies in the fixed range (R415) (DEDUCED, log 85). -/
def hangAreaOk (s : State) (d : Nat) : Bool := decide (s.fld (tracePage d) Fld.TRC_HANG_BASE.folio + 32 ≤ fixedFolios s)

/-- Sets a field of TRC_STATUS on both dies, on which die 0's snapshot fields act (R415, R417). -/
def bothDies (f : Fld) (b : Bool) (s : State) : State := s.each [0, 1] (fun d s => s.setFlag (tracePage d) f b)

/-- Asks for a hang snapshot in 64 ticks (R415): not taken while one is in progress or without room for its areas (DEDUCED, log 85). -/
def askHang (trig stream seq : Nat) (s : State) : State :=
  let err := fun (code : Nat) (s : State) => logStatus (tracePage 0) code (bothDies Fld.TRC_STATUS.hang_err true s)
  if s.hang.isSome then err stConflict s
  else if !(hangAreaOk s 0 && hangAreaOk s 1) then err stAddress s
  else
    bothDies Fld.TRC_STATUS.hang_busy true (bothDies Fld.TRC_STATUS.hang_done false (bothDies Fld.TRC_STATUS.hang_err false
      { s with hang := some ⟨s.time + 64, trig, stream, seq, false⟩ }))

/-- A timeout of R289 or R290 expires on die `d`: it completes with `act`, unless a hang snapshot that a timeout asked for
comes first (R415); it gives a trigger where the configuration says so (R412) (DEDUCED, log 85). -/
def onTimeout (d stream seq : Nat) (act : State → State) (s : State) : State :=
  let fire := fun (s : State) => act (s.when (s.flag (tracePage d) Fld.TRC_TRIG_CFG.on_timeout) (trigger d 3))
  if s.flag (tracePage 0) Fld.TRC_CTRL.hang_on_timeout then
    let s' := askHang 1 stream seq (s.setFlag (tracePage 0) Fld.TRC_CTRL.hang_on_timeout false)
    if s'.hang.isSome && s.hang.isNone then s' else fire s'
  else
    match s.hang with
    | some h => if h.trig = 1 then s else fire s
    | none => fire s

end Sys2Proof.Machine
end

