-- ==== Sys2Proof/Machine/Queue.lean ====
section
/-! DEFINITION. How a unit keeps its commands (R15, R91, R171): entering the queue, holding on tokens (R18, R90), finishing,
and leaving with a record and a token in queue order (R157, R171, R176); the token table (R135) and the merge of
shares (R29). -/

namespace Sys2Proof.Machine

/-! ### Lists -/

/-- Changes the first element that `p` takes. -/
def mapFirst {α : Type} (p : α → Bool) (f : α → α) : List α → List α
  | [] => []
  | x :: xs => if p x then f x :: xs else x :: mapFirst p f xs

/-- Drops the first element that `p` takes. -/
def dropFirst {α : Type} (p : α → Bool) : List α → List α
  | [] => []
  | x :: xs => if p x then xs else x :: dropFirst p xs

/-- The elements before the first that `p` takes. -/
def beforeFirst {α : Type} (p : α → Bool) : List α → List α
  | [] => []
  | x :: xs => if p x then [] else x :: beforeFirst p xs

/-! ### Entries -/

/-- A command as it enters a unit's queue. -/
def newEnt (c : BitVec 256) (issuer : Option Nat) : QEnt :=
  ⟨c, issuer, none, .waiting, [], ⟨0, 0, 0, 0⟩, (0, 0), (0, 0), (0, 0), [], 0, 0, [], none, 0, [], 0, 0, 0, 0, none, none, none⟩

def QEnt.stream (e : QEnt) : Nat := cStream e.cmd
def QEnt.seq (e : QEnt) : Nat := cSeq e.cmd
def QEnt.op (e : QEnt) : Nat := cOp e.cmd
def QEnt.engine (e : QEnt) : Engine := engineOf e.op

/-- Names an entry of a unit's queue: stream, sequence number, and the dispatcher it is a share of. -/
def isEnt (st sq : Nat) (par : Option Nat) (e : QEnt) : Bool := e.stream == st && e.seq == sq && e.parent == par

def sameEnt (a b : QEnt) : Bool := isEnt a.stream a.seq a.parent b

def State.q (s : State) (u : Nat) : List QEnt := (s.unit u).q

def State.setQ (s : State) (u : Nat) (q : List QEnt) : State := s.setUnit u { s.unit u with q := q }

/-- Changes an entry where it stands. -/
def updEnt (u : Nat) (e : QEnt) (f : QEnt → QEnt) (s : State) : State := s.setQ u (mapFirst (sameEnt e) f (s.q u))

/-- Operand `n` (0 A, 1 B, 2 C) of an entry. -/
def QEnt.opd (e : QEnt) (n : Nat) : Option Opd := (e.ops[n]?).getD none

/-- An entry as it stands in its unit's queue. -/
def entOf (s : State) (u : Nat) (e : QEnt) : QEnt := ((s.q u).find? (sameEnt e)).getD e

/-- The command at the head of a unit's issue queue (R168): the first that has not met its checks. -/
def headOf (s : State) (u : Nat) : Option QEnt := (s.q u).find? (fun e => e.phase == .waiting)

/-- The first entry of an engine of the unit that has not finished (R91). -/
def engineHead (s : State) (u : Nat) (g : Engine) : Option QEnt :=
  (s.q u).find? (fun e => e.engine == g && e.phase != .waiting && e.phase != .done && e.phase != .split &&
    !(g == .mover && e.phase == .sending))

/-- The issue stage of a Chase holds 16 commands (R143). -/
def slotsUsed (s : State) (u : Nat) : Nat := ((s.q u).filter (fun e => e.phase == .waiting || e.phase == .held)).length

/-- Free command slots: a Chase's own, a higher unit's smallest member count (R17). -/
def freeSlots (s : State) : Nat → Nat → Nat
  | 0, u => 16 - slotsUsed s u
  | k + 1, u =>
    match members u with
    | [] => 16 - slotsUsed s u
    | m :: ms => ms.foldl (fun n x => min n (freeSlots s k x)) (freeSlots s k m)

/-- The unit's credit port advertises a slot (R17). -/
def slotFree (s : State) (u : Nat) : Bool := decide (0 < freeSlots s (pathLevel u) u)

/-! ### The core's WAIT, as far as its Chase feels it (R145, R146) -/

/-- A wake source fires at a core: it is pending from now on; the WAIT ends with the tick (R145) (DEDUCED, log 33). -/
def wakeSource (ch cause : Nat) (s : State) : State :=
  let c := s.core ch
  s.setCore ch { c with wakes := if c.wakes.contains cause then c.wakes else c.wakes ++ [cause] }

/-- Depth in force at a Chase: 0 outside a WAIT; 2 acts as 1 while a bank is in use or a command outstanding (R146)
(DEDUCED, log 33). -/
def depthNow (s : State) (ch : Nat) : Nat :=
  let c := s.core ch
  let a := s.arr ch
  if c.run != .waiting then 0
  else if c.depth == 2 && (a.colBanks != 0 || a.rowBanks != 0 || !(s.q ch).isEmpty || !c.outq.isEmpty) then 1
  else c.depth

/-- The clocks of a Chase stand still, but for its token and credit ports (R146). -/
def clockStopped (s : State) (u : Nat) : Bool := isChase u && depthNow s u != 0

/-! ### Power of the Forme (R444 to R448) -/

def frmReg (u : Nat) : Nat := powerPage (pathDie u) + 0xA0 + 4 * pathForme u

/-- State of the Forme of a unit: 0 ON, 1 CLOCK_GATED, 2 POWER_GATED, 3 WAKE_FAIL; a die and the module count as ON. -/
def formeState (s : State) (u : Nat) : Nat := if 3 ≤ pathLevel u then 0 else bits (s.regN (frmReg u)) 5 4

def formeOn (s : State) (u : Nat) : Bool := formeState s u == 0

def State.mon (s : State) (d : Nat) : MonSt := SMap.get (fun _ => MonSt.reset) s.mons d
def State.setMon (s : State) (d : Nat) (m : MonSt) : State := { s with mons := SMap.set (fun _ => MonSt.reset) s.mons d m }

/-- A test of R427 runs on the Forme of a unit at level 2 or below (R428). -/
def formeTested (s : State) (u : Nat) : Bool :=
  decide (pathLevel u ≤ 2) && (match (s.mon (pathDie u)).test with | some t => t.forme == pathForme u | none => false)

/-- Whether a Forme is gated: 1 CLOCK_GATED or 2 POWER_GATED. -/
def formeGated (s : State) (u : Nat) : Bool := formeState s u == 1 || formeState s u == 2

/-- A later access of the tick in which a wake was recorded: the lower source code is recorded (R447). -/
def lowerWake (u source path : Nat) (s : State) : State :=
  let r := powerPage (pathDie u) + 0xC4
  let w := s.regN r
  if bits w 3 0 = pathForme u && s.reg64 (r + 4) == s.time && decide (source < bits w 8 5) then
    s.setRegN r (putBits (putBits w 8 5 source) 24 9 path)
  else s

/-- An access of a source reaches a unit of a gated Forme: the first wakes it and is recorded (R446, R447). -/
def startWake (u source path : Nat) (s : State) : State :=
  if bit (s.regN (frmReg u)) 6 then lowerWake u source path s
  else if formeGated s u then
    let d := pathDie u
    let pg := formeState s u == 2
    let s := s.setRegN (frmReg u) (putBits (s.regN (frmReg u)) 6 6 1)
    let k := d * 16 + pathForme u
    let s := { s with wakeAt := SMap.set (fun _ => 0) s.wakeAt k s.time,
                      wakeFrom := SMap.set (fun _ => 0) s.wakeFrom k (formeState s u) }
    let s := s.bump (powerPage d) (b2n pg) 1
    (s.setRegN (powerPage d + 0xC4) (pathForme u + b2n pg * 16 + source * 32 + path * 512 + 2 ^ 25)).setReg64
      (powerPage d + 0xC8) s.time
  else s

/-- An access that meets WAKE_FAIL is counted (R448, R455). -/
def countWakeTo (u : Nat) (s : State) : State := s.bump (powerPage (pathDie u)) 2 1

/-- The entry of a re-entered command, which keeps the step that it was held with (R396). -/
def keptEnt (h : Held) : QEnt := { newEnt h.cmd h.issuer with keep := some h.step }

/-- Puts a command that `sender` hands on at the end of a unit's queue; it wakes a gated Forme (R446). -/
def enqueue (u sender : Nat) (c : BitVec 256) (issuer : Option Nat) (s : State) : State :=
  startWake u 1 sender (s.setQ u (s.q u ++ [newEnt c issuer]))

/-- A Chase that R34 fences. -/
def isFenced (s : State) (u : Nat) : Bool := pathLevel u == 0 && s.flag (unitPage u) Fld.CHS_PATH.fenced

def bridgeDown (s : State) : Bool := s.flag (dieTopPage 0) Fld.DIE_BRG_STATUS.down

/-! ### Tokens (R135, R136, R157) -/

/-- A token that a table has room for is entered (R135). -/
def enterToken (toks : List TokEnt) (t : Tok) : List TokEnt :=
  if toks.any (fun e => e.stream == t.stream) then
    mapFirst (fun e => e.stream == t.stream) (fun e =>
      { e with
        high := if seqLater t.seq e.high then t.seq else e.high
        fail := e.fail || t.st
        failSeq := if t.st && !e.fail then t.seq else e.failSeq }) toks
  else toks ++ [⟨t.stream, t.seq, t.st, if t.st then t.seq else 0⟩]

/-- The token fits: its stream has an entry, or one of the 64 is free; the record of a unit above a Chase, which no TWAIT
frees, has no bound (R15, R135) (DESIGN CHOICE, log 149). -/
def tokenFits (u : Nat) (toks : List TokEnt) (t : Tok) : Bool :=
  toks.any (fun e => e.stream == t.stream) || decide (toks.length < 64) || !(isChase u)

/-- The source of what is on its way. -/
def Sent.via : Sent → Nat
  | .token t => t.via
  | .credits src _ _ _ => src

/-- Its destination. -/
def Sent.dest : Sent → Nat
  | .token t => t.dest
  | .credits _ dest _ _ => dest

/-- Records a token at a unit, or lets its port hold it; a port that holds one refuses further tokens (R135). -/
def recordToken (u : Nat) (t : Tok) (s : State) : State :=
  let x := s.unit u
  if x.port.isSome then { s with net := s.net ++ [.token t] }
  else if tokenFits u x.toks t then s.setUnit u { x with toks := enterToken x.toks t }
  else s.setUnit u { x with port := some t }

/-- Frees the entry of a stream; the token that the port holds then enters the table (R135, R137). -/
def freeEntry (u stream : Nat) (s : State) : State :=
  let x := s.unit u
  let toks := x.toks.filter (fun e => e.stream != stream)
  match x.port with
  | some t =>
    if tokenFits u toks t then s.setUnit u { x with toks := enterToken toks t, port := none }
    else s.setUnit u { x with toks := toks }
  | none => s.setUnit u { x with toks := toks }

/-- A held entry meets a producer's completion (R18): the token is no longer missing, and a failed one ends the entry with
ABORTED_FAULT. -/
def meetToken (stream seq : Nat) (fail : Bool) (e : QEnt) : QEnt :=
  if e.needs.any (fun n => n.1 == stream && seqGe seq n.2) then
    let e := { e with needs := e.needs.filter (fun n => !(n.1 == stream && seqGe seq n.2)) }
    if fail && e.phase == .held then { e with phase := .done, status := stAbortFault } else e
  else e

/-- Every unit's held entries meet a completion. -/
def satisfyAll (stream seq : Nat) (fail : Bool) (s : State) : State :=
  s.each (s.units.map (·.1)) (fun u s => s.setQ u ((s.q u).map (meetToken stream seq fail)))

def sendToken (t : Tok) (s : State) : State := { s with net := s.net ++ [.token t] }

/-! ### Leaving a unit -/

/-- The counters of a unit that completes a command (R403, R404). -/
def countDone (u : Nat) (c : BitVec 256) (fail : Bool) (s : State) : State :=
  match pathLevel u with
  | 0 => s.bump (unitPage u) 15 1
  | 1 => (s.bump (unitPage u) 0 1).when fail (fun s => s.bump (unitPage u) 2 1)
  | 2 => (s.bump (unitPage u) 0 1).when fail (fun s => s.bump (unitPage u) 2 1)
  | _ => (s.bump (dieTopPage (homeDie u c)) 6 1).when fail (fun s => s.bump (dieTopPage (homeDie u c)) 8 1)

/-- A STALE_SHARD completion (R362). -/
def noteStale (step : Nat) (s : State) : State :=
  raiseEv mapPage 0 ((s.setRegN (mapPage + 0xB0) ((s.regN (mapPage + 0xB0) + 1) % 2 ^ 32)).setRegN (mapPage + 0xAC) step)

/-- Destination modules that a collective's output token goes to (R327), kept in `aux` behind its own words. -/
def tokenModules (e : QEnt) : List Nat := if e.engine == .collective && e.op != 0x64 then e.aux.drop 2 else []

/-- Some packet of a unit's command to a module waits for its answer. -/
def awaits (s : State) (u stream seq dest : Nat) : Bool :=
  s.outst.any (fun o => o.unit == u && o.stream == stream && o.seq == seq && o.dest == dest)

/-- A TOKEN goes to a module, or waits for that module's last answer (R327). -/
def sendOwed (u : Nat) (pkt : Packet) (s : State) : State :=
  if awaits s u pkt.stream pkt.seq pkt.dest then { s with owed := s.owed ++ [(u, pkt)] } else sendPacket pkt s

/-- TOKENs whose modules have answered go out. -/
def payOwed (s : State) : State := ({ s with owed := [] }).each s.owed (fun x => sendOwed x.1 x.2)

/-- The record of a completed entry (R176). -/
def recOf (s : State) (u : Nat) (e : QEnt) : Rec :=
  ⟨e.seq, u, e.stream, e.status, e.op, jobOf s e.cmd, e.operand, e.detail, e.detail2, true, cIrq e.cmd, e.issuer, 0, false⟩

/-- Adds a record to those that wait to be written, in completion order. -/
def pushRec (r : Rec) (s : State) : State :=
  let t := s.stream r.stream
  { s.setStream r.stream { t with recs := t.recs ++ [{ r with no := s.recNo }] } with recNo := s.recNo + 1 }

/-- The output token of a command that leaves (R18, R136, R157, R327); one whose tok_dest is no unit is sent all the same and
reaches none (DESIGN CHOICE, log 150). -/
def tokenOut (u : Nat) (e : QEnt) (s : State) : State :=
  let fail := e.status != stOk
  let far := tokenModules e
  let s :=
    if cTokEn e.cmd then
      if far.isEmpty then sendToken ⟨cTokDest e.cmd, e.stream, e.seq, fail, none, u⟩ s
      else s.each far (fun d s => sendOwed u
        { mkPacket s ptToken d with job := jobOf s e.cmd, stream := e.stream, seq := e.seq, target := cTokDest e.cmd,
                                    sub := b2n fail } s)
    else s
  match e.issuer with
  | some ch =>
    if ch = u then wakeSource ch 1 (recordToken ch ⟨ch, e.stream, e.seq, fail, none, u⟩ s)
    else sendToken ⟨ch, e.stream, e.seq, fail, none, u⟩ s
  | none => s

/-- A finished command leaves its unit: counters, ERR_STATUS, record, token (R171, R176, R18). -/
def release (u : Nat) (e : QEnt) (s : State) : State :=
  let fail := e.status != stOk
  let s := s.setQ u (dropFirst (sameEnt e) (s.q u))
  let s := logItem (unitPage (if u = modulePath then diePath (homeDie u e.cmd) else u)) e.status u e.seq s
  let s := countDone u e.cmd fail s
  let s := s.when (e.status == stStale) (noteStale e.acc.step)
  let s := pushRec (recOf s u e) s
  if e.status = stAbortStop then s else satisfyAll e.stream e.seq fail (tokenOut u e s)

/-- No earlier command of the stream is still at the unit, or owes a token (R171). -/
def inOrder (s : State) (u : Nat) (e : QEnt) : Bool :=
  !((beforeFirst (sameEnt e) (s.q u)).any (fun x => x.parent == none && x.stream == e.stream)) &&
    !(s.owed.any (fun x => x.1 == u && x.2.stream == e.stream))

/-- The Chase whose slice measures a unit's conversions: itself, or member 0 down to a Chase (R183). -/
def sliceOf (u : Nat) : Nat := chasePath (pathDie u) (pathForme u) (pathGalley u) (pathChase u)


/-- An entry finishes with a status and detail; a command leaves at once when its order has come (R171). -/
def finish (u : Nat) (e : QEnt) (f : Fail) (s : State) : State :=
  let s := updEnt u e (fun x =>
    { x with phase := .done, status := f.status, operand := f.operand, detail := f.detail, detail2 := f.detail2 }) s
  let e' := entOf s u e
  if e.parent == none && inOrder s u e' then release u e' s else s

def okFail : Fail := ⟨0, 0, 0, 0⟩

/-! ### Merging shares (R29) -/

/-- The parent's entry after a share's report: the earliest failing key gives its status; the counts of a TIER_HINT's shares
add up (R29, R255). -/
def mergeShare (now member idx : Nat) (share parent : QEnt) : QEnt :=
  let p := { parent with left := parent.left - 1, parts := parent.parts ++ share.parts.map (fun x => (idx, x.2)) }
  if share.status = stOk then
    if share.op = 0x42 then { p with prog := p.prog + share.detail, aux := [(p.aux[0]?).getD 0 + share.detail2] } else p
  else
    let mine := (now, member, share.seq)
    let old := match parent.firstFail with | some k => (k.1, k.2.1, share.seq) | none => mine
    if parent.firstFail == none || keyLt mine old then
      { p with firstFail := some (now, member, share.status), status := share.status, operand := share.operand,
               detail := share.detail, detail2 := share.detail2 }
    else p

/-- The entry of the parent of a share. -/
def parentOf (s : State) (d : Nat) (share : QEnt) : Option QEnt :=
  (s.q d).find? (fun e => e.phase == .split && e.stream == share.stream && e.seq == share.seq)

/-- A member's finished share leaves it: its counters and ERR_STATUS show it, no record does (R29). -/
def dropShare (member : Nat) (e : QEnt) (s : State) : State :=
  let s := s.setQ member (dropFirst (sameEnt e) (s.q member))
  let s := logItem (unitPage member) e.status member e.seq s
  countDone member e.cmd (e.status != stOk) s

end Sys2Proof.Machine
end

