-- ==== Sys2Proof/Machine/Moves.lean ====
section
/-! DEFINITION. Moves of Tiles between tiers (R252 to R254), the requests that ask for them (R255, R257), watermarks (R256), and
what the read of a Tile brings with it (R256, R263). -/

namespace Sys2Proof.Machine

/-- Bytes that a Tile takes in a tier with its present content (R250, R258). -/
def heldLen (s : State) (t : TileRef) (tier : Nat) : Nat :=
  if tier < 3 then t.reg.strideBytes else granuleBytes (kernLen t.reg.format (tileContent s t))

def noLease : Lease := ⟨0, 0, false, 0, 0, 0⟩
def leaseOf (s : State) (l : Nat) : Lease := SMap.get (fun _ => noLease) s.tiers.leases l
def State.setLease (s : State) (l : Nat) (x : Lease) : State :=
  { s with tiers := { s.tiers with leases := SMap.set (fun _ => noLease) s.tiers.leases l x } }

/-- The lender of a Tile in the remote tier, or of a place there, can be reached (DESIGN CHOICE, log 38). -/
def lenderUp (s : State) (tier loc : Nat) : Bool := tier != 4 || reachable s (leaseOf s (bits loc 5 0)).dest

/-- The die that moves a Tile: that of the memory that holds it. -/
def moveDie (s : State) (t : TileRef) : Nat := placeDie (placeOfLoc (tsTier (tileState s t)) (tsLoc (tileState s t))).1

/-- Room for one more move on the die (R253). -/
def moveRoom (s : State) (t : TileRef) : Bool :=
  decide ((s.tiers.moves.filter (fun m =>
    match s.region m.region with
    | some r => moveDie s ⟨m.region, r, m.tile⟩ == moveDie s t
    | none => false)).length < 256)

/-- The move of a Tile in progress. -/
def moveOf (s : State) (t : TileRef) : Option Move := s.tiers.moves.find? (fun m => m.region == t.id && m.tile == t.j)

/-- A Tile of a mapped region by region id and index. -/
def tileRef (s : State) (r j : Nat) : Option TileRef :=
  match s.region r with
  | some g => if j < g.tiles then some ⟨r, g, j⟩ else none
  | none => none

/-! ### Traffic of a lease (R302, R303, R260, R309) -/

/-- A list in pieces of up to 16,384 bytes, with the offset of each. -/
def pieces : Nat → Nat → List (BitVec 8) → List (Nat × List (BitVec 8))
  | 0, _, _ => []
  | k + 1, off, l => if l.isEmpty then [] else (off, l.take 16384) :: pieces k (off + 16384) (l.drop 16384)

/-- A background packet of a lease (DESIGN CHOICE, log 57). -/
def leasePacket (s : State) (type lease job addr : Nat) : Packet :=
  { mkPacket s type (leaseOf s lease).dest with job := job, lease := 1, stream := lease, addr := addr }

/-- The unit under which packets of a lease wait for their answers: it names none (the model's own key). -/
def leaseUnit : Nat := 0x10000

/-- The compressed Tile goes to its place in a lease (DESIGN CHOICE, log 38). -/
def sendLeaseTile (t : TileRef) (loc : Nat) (s : State) : State :=
  let l := bits loc 5 0
  s.each (pieces 2 (bits loc 45 6) (padded16 (kernBytes t (tileState s t) (tileContent s t))))
    (fun x s => sendTracked leaseUnit (packData (leasePacket s ptBgWrite l t.reg.job x.1) x.2) s)

/-- The compressed Tile is asked for from its place in a lease (DESIGN CHOICE, log 38). -/
def askLeaseTile (t : TileRef) (loc len : Nat) (s : State) : State :=
  let l := bits loc 5 0
  let n := 16 * ceilDiv len 16
  s.each (List.range (ceilDiv n 16384)) (fun i s =>
    sendTracked leaseUnit { leasePacket s ptBgReadReq l t.reg.job (bits loc 45 6 + 16384 * i) with
      len16 := (min 16384 (n - 16384 * i)) / 16 } s)

/-- The lease and the offset in it that a move reads from or writes to; none for a move within the module. -/
def moveLease (s : State) (m : Move) : Option (Nat × Nat) :=
  if m.tier = 4 then some (bits m.loc 5 0, bits m.loc 45 6)
  else
    match tileRef s m.region m.tile with
    | some t =>
      let e := tileState s t
      if tsTier e = 4 then some (bits (tsLoc e) 5 0, bits (tsLoc e) 45 6) else none
    | none => none

/-- A packet of a lease at `addr` is one of those for the Tile at `place`: it starts there, or 16,384 bytes before. -/
def atLease (place : Option (Nat × Nat)) (lease addr : Nat) : Bool :=
  place == some (lease, addr) || (decide (16384 ≤ addr) && place == some (lease, addr - 16384))

/-- The move that an answer to a packet of a lease belongs to, by the packet's type, lease and address. -/
def moveAt (s : State) (o : Outst) : Option Move :=
  s.tiers.moves.find? (fun m => m.left != 0 && (m.tier == 4) == (o.type == ptBgWrite) && atLease (moveLease s m) o.stream o.addr)

/-- What of a move's packets still waits for answers is forgotten. -/
def dropAnswers (m : Move) (s : State) : State :=
  match moveLease s m with
  | some (l, o) =>
    { s with outst := s.outst.filter (fun x => !(x.unit == leaseUnit && x.stream == l && (x.addr == o || x.addr == o + 16384))) }
  | none => s

/-! ### Reads and writes of Tiles in the remote tier (R258, R262) -/

/-- The Tile stands in a lease whose lender can be reached. -/
def isRemote (s : State) (t : TileRef) : Bool :=
  let e := tileState s t
  tsTier e == 4 && !(tsLost e) && lenderUp s 4 (tsLoc e)

def fetchOf (s : State) (t : TileRef) : Option Fetch := s.tiers.fetches.find? (fun f => f.region == t.id && f.tile == t.j)

/-- A read of `n` bytes at `a` waits for a lender (DESIGN CHOICE, log 38). -/
def remoteWaits (s : State) (a n : Nat) : Bool :=
  !s.tiers.leases.isEmpty && (regionTiles s a n).any (fun t =>
    isRemote s t && !(tsPoison (tileState s t)) && (match fetchOf s t with | some f => f.left != 0 | none => true))

def setFetch (f : Fetch) (s : State) : State :=
  { s with tiers := { s.tiers with
      fetches := s.tiers.fetches.map (fun x => if x.region == f.region && x.tile == f.tile then f else x) } }

/-- A Tile is asked for from its lender, for a read that waits. -/
def askTile (t : TileRef) (s : State) : State :=
  if isRemote s t && !(tsPoison (tileState s t)) && (fetchOf s t).isNone then
    let n := s.outst.length
    let s1 := askLeaseTile t (tsLoc (tileState s t)) (16 + tsClen (tileState s t)) s
    { s1 with tiers := { s1.tiers with fetches := s1.tiers.fetches ++ [⟨t.id, t.j, s1.outst.length - n, [], false⟩] } }
  else s

/-- The remote Tiles under `n` bytes at `a` are asked for. -/
def askRemote (a n : Nat) (s : State) : State := if s.tiers.leases.isEmpty then s else s.each (regionTiles s a n) askTile

/-- A read of `n` bytes at `a` is over: the next one asks the lender again. -/
def readOver (a n : Nat) (s : State) : State :=
  if s.tiers.fetches.isEmpty then s
  else
    let l := regionTiles s a n
    { s with tiers := { s.tiers with
        fetches := s.tiers.fetches.filter (fun f => !(f.left == 0 && l.any (fun t => t.id == f.region && t.j == f.tile))) } }

/-- The fetch that an answer belongs to. -/
def fetchAt (s : State) (o : Outst) : Option (Fetch × TileRef) :=
  s.tiers.fetches.findSome? (fun f =>
    match tileRef s f.region f.tile with
    | some t =>
      let e := tileState s t
      if f.left != 0 && o.type == ptBgReadReq && tsTier e == 4 && atLease (some (bits (tsLoc e) 5 0, bits (tsLoc e) 45 6)) o.stream o.addr
      then some (f, t) else none
    | none => none)

/-- What the lender has sent for a Tile is whole: it is the Tile's content, or a codec failure (R251, R265). -/
def endFetch (f : Fetch) (t : TileRef) (s : State) : State :=
  let bytes := ((f.got.mergeSort (fun a b => decide (a.1 ≤ b.1))).map (·.2)).flatten
  match kernDecode t.reg.format t.reg.strideBytes (bytes.take (16 + tsClen (tileState s t))) with
  | some d => s.setBytes (physKey s t.addr) (d.take t.len)
  | none => raiseEv (tierPage 0) 4 (setTileState t (putBits (tileState s t) 4 4 1) s)

/-- A fetch has failed: what reads the Tile meets a lender that cannot be reached (R262). -/
def failFetch (f : Fetch) (t : TileRef) (s : State) : State :=
  let o := bits (tsLoc (tileState s t)) 45 6
  setFetch { f with left := 0, bad := true }
    { s with outst := s.outst.filter (fun x => !(x.unit == leaseUnit && x.stream == bits (tsLoc (tileState s t)) 5 0 &&
        x.type == ptBgReadReq && (x.addr == o || x.addr == o + 16384))) }

/-- Tiles of the remote tier that have been written here go to their lenders (R258) (DESIGN CHOICE, log 38). -/
def sendDirty (s : State) : State :=
  if s.tiers.dirty.isEmpty then s
  else
    ({ s with tiers := { s.tiers with dirty := [] } }).each s.tiers.dirty (fun x s =>
      match tileRef s x.1 x.2 with
      | some t => s.when (isRemote s t) (sendLeaseTile t (tsLoc (tileState s t)))
      | none => s)

/-! ### A move (R253, R254) -/

/-- The source of a move holds an uncorrectable word that no poison tells of yet. -/
def sourceBad (s : State) (t : TileRef) : Bool := !(tsPoison (tileState s t)) && s.badIn (physKey s t.addr) t.len

/-- Starts a move to `tier`: a destination is allocated and transit set; its packets to or from a lender go out. None without
space or room, and for a promotion without quota (R253, R257, R259). -/
def startMove (t : TileRef) (tier : Nat) (promo : Bool) (asker : Option Asker) (s : State) : Option State :=
  let len := heldLen s t tier
  let e := tileState s t
  if tsTransit e || tsLost e || 4 < tsTier e || !(moveRoom s t) ||
      (promo && (overQuota s t.reg.job tier len || hbmKept s t.reg.job tier len)) then none
  else
    match firstPlace s len (tierPlaces s t tier) with
    | none => none
    | some (pl, off) =>
      let loc := locWord pl off
      let n := s.outst.length
      let s := setTileState t (putBits e 3 3 1) (addUse t.reg.job tier len (addExtent pl off len s))
      let s := s.when (tsTier e == 4 && tier != 4) (askLeaseTile t (tsLoc e) (16 + tsClen e))
      let s := s.when (tier == 4 && !(sourceBad s t)) (sendLeaseTile t loc)
      some { s with tiers := { s.tiers with moves := s.tiers.moves ++ [⟨t.id, t.j, tier, loc, promo, s.time, s.outst.length - n, [], asker⟩] } }

/-- Gives up a move's destination. -/
def dropMove (t : TileRef) (m : Move) (s : State) : State :=
  let (pl, off) := placeOfLoc m.tier m.loc
  let s := dropUse t.reg.job m.tier (extentLen s pl off) (dropExtent pl off (dropAnswers m s))
  { s with tiers := { s.tiers with moves := s.tiers.moves.filter (fun x => !(x.region == m.region && x.tile == m.tile)) } }

/-- The key that a Tile's first byte has at a place. -/
def contentAt (t : TileRef) (tier loc : Nat) : Nat :=
  if tier ≤ 1 then storeKey (bits loc 15 0) (bits loc 33 16) else t.addr

/-- The units whose stores a move reads and writes. -/
def moveStores (e : Nat) (m : Move) : List Nat :=
  (if tsTier e ≤ 1 then [bits (tsLoc e) 15 0] else []) ++ (if m.tier ≤ 1 then [bits m.loc 15 0] else [])

/-- A move's access to a store behind a failed wake is counted (R448). -/
def countMoveFail (l : List Nat) (s : State) : State := s.each (l.filter (fun u => formeState s u == 3)) countWakeTo

/-- A Tile that has been read counts as used (R256). -/
def touchTile (t : TileRef) (s : State) : State :=
  { s with tiers := { s.tiers with lastUse := SMap.set (fun _ => 0) s.tiers.lastUse (t.id * 2 ^ 32 + t.j) s.time } }

/-- The bytes that a lender has answered with, in order. -/
def gotBytes (m : Move) : List (BitVec 8) := ((m.got.mergeSort (fun a b => decide (a.1 ≤ b.1))).map (·.2)).flatten

/-- The content that a move carries: what the lender's compressed Tile decodes to, once it has come; none for a codec
failure (R251). Otherwise the source's bytes. -/
def moveData (s : State) (t : TileRef) (m : Move) : Option (List (BitVec 8)) :=
  let e := tileState s t
  if tsTier e = 4 && !m.got.isEmpty then kernDecode t.reg.format t.reg.strideBytes ((gotBytes m).take (16 + tsClen e))
  else some (tileContent s t)

/-- The move is abandoned: the Tile stays where it was (R254). -/
def abandonMove (t : TileRef) (m : Move) (poison : Bool) (s : State) : State :=
  let s := dropMove t m s
  let e := putBits (tileState s t) 3 3 0
  setTileState t (if poison then putBits e 4 4 1 else e) s

/-- The move commits: the Tile state entry is written once, the source freed (R253). -/
def landMove (t : TileRef) (m : Move) (data : List (BitVec 8)) (s : State) : State :=
  let e := tileState s t
  let (pl, off) := placeOfLoc (tsTier e) (tsLoc e)
  let s := dropUse t.reg.job (tsTier e) (extentLen s pl off) (dropExtent pl off s)
  let s := { s with tiers := { s.tiers with moves := s.tiers.moves.filter (fun x => !(x.region == m.region && x.tile == m.tile)) } }
  let s := s.setBytes (contentAt t m.tier m.loc) (data.take t.len)
  let clen := if m.tier < 3 then 0 else kernLen t.reg.format data
  let s := s.when (decide (3 ≤ m.tier)) (fun s => s.bump bulkPage 3 1)
  let s := s.when (tsTier e == 3 || tsTier e == 4) (fun s => s.bump bulkPage 4 1)
  let s := setTileState t (putBits (putBits (putBits (putBits e 3 3 0) 2 0 m.tier) 127 64 m.loc) 47 32 clen) s
  let s := s.when (!(tsPoison e)) (freshEcc t.addr t.len)
  if m.promo then touchTile t s else s

/-- Commits a move, or abandons it: its lender cannot be reached, a store it needs lies behind a failed wake, its source
read or the codec meets an uncorrectable error (R251, R253, R254, R265, R448). -/
def commitMove (m : Move) (s : State) : State :=
  match tileRef s m.region m.tile with
  | none => s
  | some t =>
    let e := tileState s t
    let stores := moveStores e m
    let s := s.each stores (fun v => startWake v 6 (diePath (pathDie v)))
    if !(lenderUp s (tsTier e) (tsLoc e)) || !(lenderUp s m.tier m.loc) || stores.any (fun v => formeState s v == 3) then
      abandonMove t m false (countMoveFail stores s)
    else if sourceBad s t then abandonMove t m true (noteEcc t.addr t.len s)
    else
      match moveData s t m with
      | none => raiseEv (tierPage 0) 4 (abandonMove t m true s)
      | some data => landMove t m data (correctRead t.addr t.len s)

/-! ### Requests (R255, R257) -/

/-- A request of a TIER_HINT is over: its command counts it as acted on or as declined. -/
def reqDone (asker : Option Asker) (acted : Bool) (s : State) : State :=
  match asker with
  | none => s
  | some a =>
    match (s.q a.unit).find? (isEnt a.stream a.seq a.parent) with
    | some e => updEnt a.unit e (fun x =>
        if acted then { x with prog := x.prog + 1 } else { x with aux := [(x.aux[0]?).getD 0 + 1] }) s
    | none => s

/-- The TIER_HINT completes when every request it made has finished or been declined (R255) (DESIGN CHOICE, log 18). -/
def hintCheck (asker : Option Asker) (s : State) : State :=
  match asker with
  | none => s
  | some a =>
    match (s.q a.unit).find? (fun e => isEnt a.stream a.seq a.parent e && e.phase == .sending) with
    | some e =>
      if s.tiers.moves.any (fun m => m.asker == some a) || s.tiers.reqs.any (fun r => r.asker == some a) then s
      else finish a.unit e ⟨0, 0, e.prog, (e.aux[0]?).getD 0⟩ s
    | none => s

def waitReq (t : TileRef) (op target : Nat) (asker : Option Asker) (s : State) : State :=
  { s with tiers := { s.tiers with reqs := s.tiers.reqs ++ [⟨t.id, t.j, op, target, asker⟩] } }

/-- A command that has begun reads or writes the Tile: an issued array command, a collective that sends or takes (R246). -/
def busyTile (s : State) (t : TileRef) : Bool :=
  s.units.any (fun u => u.2.q.any (fun e =>
    (e.phase == .issued || e.phase == .taking || (e.phase == .sending && e.engine == .collective)) &&
    [0, 1, 2].any (fun n => match e.opd n with
      | some o => (tilesUnder s o (List.range o.tiles)).contains t
      | none => false)))

/-- A Tile is idle (R246). -/
def idleTile (s : State) (t : TileRef) : Bool := !(tsTransit (tileState s t)) && !(busyTile s t)

/-- A Tile set never-written: its memory, quota and state end (R255). -/
def discardTile (t : TileRef) (s : State) : State :=
  let s := freeTile t s
  setTileState t (putBits tsNever 9 6 (tsPins (tileState s t))) s

/-- A promotion whose Tile can move: it starts, waits for room among the die's moves, or is declined without space or quota. -/
def promote (t : TileRef) (target : Nat) (asker : Option Asker) (s : State) : State :=
  if !(moveRoom s t) then waitReq t 0 target asker s
  else
    match startMove t target true asker s with
    | some s' => s'
    | none => reqDone asker false s

/-- The tier manager settles a request by the Tile's state (table Request outcomes) (DEDUCED, log 142). -/
def request (op target : Nat) (asker : Option Asker) (t : TileRef) (s : State) : State :=
  let e := tileState s t
  let out := !(decide (t.reg.ceiling ≤ target) && decide (target ≤ t.reg.floor)) || 4 < tsTier e || tsLost e
  let no := reqDone asker false
  match op with
  | 0 =>
    if out then no s
    else
      match (if tsTransit e then moveOf s t else none) with
      | some m =>
        if !m.promo && m.start == s.time then
          -- the eviction of this tick is declined, the promotion wins
          let s := hintCheck m.asker (reqDone m.asker false (abandonMove t m false s))
          if tsTier e ≤ target then no s else promote t target asker s
        else waitReq t 0 target asker s
      | none => if tsTransit e then waitReq t 0 target asker s else if tsTier e ≤ target then no s else promote t target asker s
  | 1 =>
    if out then no s
    else
      match (if tsTransit e then moveOf s t else none) with
      | some m => if m.promo && m.start == s.time then no s else waitReq t 1 target asker s
      | none =>
        if tsTransit e then waitReq t 1 target asker s
        else if pinned s t || busyTile s t || target ≤ tsTier e then no s
        else if !(moveRoom s t) then waitReq t 1 target asker s
        else
          match startMove t target false asker s with
          | some s' => s'
          | none => no s
  | 2 => if tsPins e = 15 then no s else reqDone asker true (setTileState t (putBits e 9 6 (tsPins e + 1)) s)
  | 3 => if tsPins e = 0 then no s else reqDone asker true (setTileState t (putBits e 9 6 (tsPins e - 1)) s)
  | _ =>
    if tsTransit e || pendingIn s t.addr t.len then waitReq t 4 target asker s
    else if pinned s t then no s
    else reqDone asker true (discardTile t s)

/-- A request that waited is settled anew; an eviction that waited for a promotion is declined (R257) (DEDUCED, log 142). -/
def requestAgain (done : Option Move) (r : Req) (s : State) : State :=
  match tileRef s r.region r.tile with
  | none => reqDone r.asker false s
  | some t =>
    if r.op == 1 && (match done with | some m => m.promo && m.region == r.region && m.tile == r.tile | none => false) then
      reqDone r.asker false s
    else request r.op r.target r.asker t s

/-- Every request that waits is settled anew, oldest first, and the hints that waited for nothing else complete; `done` is the
move that has just committed (DEDUCED, log 142). -/
def wakeReqs (done : Option Move) (s : State) : State :=
  let l := s.tiers.reqs
  (({ s with tiers := { s.tiers with reqs := [] } }).each l (requestAgain done)).each (l.map Req.asker) hintCheck

/-- A move has ended: whoever asked for it counts it, and the requests that wait are settled. -/
def moveEnded (m : Move) (committed : Bool) (s : State) : State :=
  wakeReqs (if committed then some m else none) (hintCheck m.asker (reqDone m.asker true s))

/-- TILE_MOVE_COMMIT for a move whose answers are all in: it commits or is abandoned (R253). -/
def endMove (m : Move) (s : State) : State :=
  let s' := commitMove m s
  let committed := match tileRef s' m.region m.tile with
    | some t => tsTier (tileState s' t) == m.tier && tsLoc (tileState s' t) == m.loc
    | none => false
  moveEnded m committed s'

/-! ### Watermarks (R256) -/

/-- The memories that a watermark watches: 0 HBM of a die, 1 a Chase's area, 2 a Galley's store, by index. -/
def wmPlaces (kind idx : Nat) : List Nat :=
  match kind with
  | 0 => (List.range 8).map (fun i => 8 * idx + i)
  | 1 => [1000 + idx]
  | _ => [100 + idx]

def wmDie (kind idx : Nat) : Nat := if kind = 0 then idx else if kind = 1 then idx / 1152 else idx / 72

/-- Bytes of the memories and bytes in use. -/
def wmSize (s : State) (l : List Nat) : Nat := l.foldl (fun n p => n + ((placeRange s p).2 - (placeRange s p).1)) 0
def wmUse (s : State) (l : List Nat) : Nat :=
  l.foldl (fun n p => n + (usedIn s p).foldl (fun m x => m + x.2) 0) 0

/-- High and low watermark in 1/64. -/
def wmLevels (s : State) (kind d : Nat) : Nat × Nat :=
  let w := s.regN (tierPage d + 0xA0)
  if kind = 0 then (bits w 5 0, bits w 11 6) else (bits w 17 12, bits w 23 18)

/-- The watermark that watches a memory: kind and index; none for bulk and leases. -/
def wmOf (pl : Nat) : Option (Nat × Nat) :=
  if pl < 16 then some (0, pl / 8) else if pl < 100 then none else if pl < 1000 then some (2, pl - 100) else some (1, pl - 1000)

/-- The memory's use is below its high watermark (DEDUCED, log 143). -/
def belowMark (s : State) (pl : Nat) : Bool :=
  match wmOf pl with
  | some (kind, idx) =>
    let l := wmPlaces kind idx
    decide (wmUse s l * 64 < (wmLevels s kind (wmDie kind idx)).1 * wmSize s l)
  | none => true

/-! ### What a read brings -/

/-- A Tile of an auto region that has been read below its home tier is promoted to home (R256) (DEDUCED, log 143). -/
def promoteRead (t : TileRef) (s : State) : State :=
  let e := tileState s t
  if regionAuto s t.id && decide (t.reg.home < tsTier e) && decide (tsTier e ≤ 4) && !(tsLost e) && !(tsTransit e) then
    match firstPlace s (heldLen s t t.reg.home) (tierPlaces s t t.reg.home) with
    | some (pl, _) => if belowMark s pl then (startMove t t.reg.home true none s).getD s else s
    | none => s
  else s

/-- A read of `n` bytes at `a` corrects what it can, and the Tiles it reaches count as used (R256, R263). -/
def touch (a n : Nat) (s : State) : State := (correctRead a n s).each (regionTiles s a n) touchTile

/-- The promotions that follow a read of `n` bytes at `a`. -/
def promoteAt (a n : Nat) (s : State) : State := s.each (regionTiles s a n) promoteRead

/-- A read from outside the engines. -/
def readDone (a n : Nat) (s : State) : State := promoteAt a n (touch a n s)

end Sys2Proof.Machine
end

