-- ==== Sys2Proof/Machine/ArrayRun.lean ====
section
/-! DEFINITION. An array command in a Chase: when it issues (R90, R97), what its passes read (R76, R92), the table sets of a
Galley (R114 to R116), the Tiles it writes (R86, R111), Tile recompute (R221 to R223), and a dispatcher's combination of a RED
split (R26). -/

namespace Sys2Proof.Machine

/-! ### Writes that wait -/

/-- A Tile of the range is in transit (R253). -/
def transitIn (s : State) (a n : Nat) : Bool := (regionTiles s a n).any (fun t => tsTransit (tileState s t))

/-- Output Tile indexes that an entry writes. -/
def outTiles (e : QEnt) (c : Opd) : List Nat :=
  ((List.range e.rows.2).map (fun i => (List.range e.cols.2).map (fun j =>
    (e.rows.1 + i) * c.tr + (e.cols.1 + j)))).flatten

/-- The Tiles an entry writes in this module: operand number, operand, Tiles. -/
def entryWrites (e : QEnt) : List (Nat × Opd × List Nat) :=
  match e.op, e.opd 1, e.opd 2 with
  | 0x26, some b, some c => [(2, b, outTiles e c), (3, c, outTiles e c)]
  | 0x61, _, some c => [(3, c, List.range c.tiles)]
  | 0x63, _, some c =>
    [(3, c, (List.range ((e.opd 0).map (·.tiles) |>.getD 0)).map (fun t => bits (cParam1 e.cmd) 25 0 + t))]
  | 0x64, _, some c => [(3, c, List.range c.tiles)]
  | op, _, some c => if op = 0x62 || op = 0x65 then [] else [(3, c, outTiles e c)]
  | _, _, none => []

/-- A write of these Tiles of an operand must wait (R253, R376). -/
def writeWaits (s : State) (o : Opd) (ts : List Nat) : Bool :=
  (rangesUnder o ts).any (fun r => transitIn s r.1 r.2 || pendingIn s r.1 r.2)

/-- Some write of an entry must wait. -/
def writesWait (s : State) (e : QEnt) : Bool := (entryWrites e).any (fun w => writeWaits s w.2.1 w.2.2)

/-- An entry may go on: no token missing, its Forme ON and its clocks running, no Stop-press since T, its writes free to go. -/
def mayRun (s : State) (u : Nat) (e : QEnt) : Bool :=
  e.phase == .held && e.needs.isEmpty && formeOn s u && !(clockStopped s u) && !(s.stopped && e.parent.isNone) && !(writesWait s e)

/-- The Tiles that a command has written whole hold no poison (R265). -/
def wholeWritten (e : QEnt) (s : State) : State :=
  let l := ((entryWrites e).map (fun w => rangesUnder w.2.1 w.2.2)).flatten
  s.each (((entryWrites e).map (fun w => tilesUnder s w.2.1 w.2.2)).flatten.eraseDups) (fun t s =>
    if wholeIn l t && tsPoison (tileState s t) then setTileState t (putBits (tileState s t) 4 4 0) s else s)

/-! ### Reads of an array command -/

/-- Tile of operand B for output column Tile `ct` and reduction Tile `kt`. -/
def statTile (orient : Nat) (b : Opd) (ct kt : Nat) : Nat := if orient = 1 then kt * b.tr + ct else ct * b.tr + kt

/-- The Tiles that a pass reads: operand number and Tile index. The stationary block loads before the rows stream; the tables
of a streaming Tile are built first (R76, R117). -/
def readsOf (op orient : Nat) (a b : Opd) (p : Pass) : List (Nat × Nat) :=
  let st := p.kts.map (fun kt => (2, statTile orient b p.ct kt))
  let rows := (p.rts.map (fun rt => p.kts.map (fun kt => (1, rt * a.tr + kt)))).flatten
  if op = 3 then rows ++ st else st ++ rows

/-- Elements of the reduction and of the output columns of a command. -/
def extentsOf (orient : Nat) (b : Opd) : Nat × Nat := if orient = 1 then (b.outer, b.red) else (b.red, b.outer)

/-- The passes of an entry with blocks of `shape`. -/
def entPasses (shape : Nat × Nat) (e : QEnt) (b : Opd) : List Pass :=
  let x := extentsOf (cOrient e.cmd) b
  passesOf e.op shape x.1 x.2 e.rows e.cols e.reds

/-- The Tiles that the passes of an entry read, in pass order: the same at every width. -/
def passReads (e : QEnt) (orient : Nat) (a b : Opd) : List (Nat × Nat) :=
  ((entPasses (blockShape e.op 0) e b).map (readsOf e.op orient a b)).flatten

/-- What each of the passes reads: the stationary Tiles only where its block is not the one before, which for the first is `prev`
(R93, R96). -/
def runReads (op orient : Nat) (a b : Opd) : Option Pass → List Pass → List (List (Nat × Nat))
  | _, [] => []
  | prev, p :: ps =>
    let l := readsOf op orient a b p
    (if prev.any (fun q => q.onBlock p) then l.filter (fun r => r.1 == 1) else l) :: runReads op orient a b (some p) ps

/-- The first read of a list that fails, with its operand number and Tile. -/
def firstReadFail (s : State) (e : QEnt) : List (Nat × Nat) → Option (Nat × Nat × ReadFail)
  | [] => none
  | (n, t) :: rest =>
    match e.opd (n - 1) with
    | some o =>
      match tileReadFail s o t with
      | some f => some (n, t, f)
      | none => firstReadFail s e rest
    | none => firstReadFail s e rest

/-- The completion that a failing read gives (R92, R177, R262). -/
def readStatus (e : QEnt) (n t : Nat) : ReadFail → Fail
  | .ecc => ⟨stEcc, n, t, ((e.opd (n - 1)).map (·.idx)).getD 0⟩
  | .tier l => ⟨stTier, n, 4, l⟩

/-- What an uncorrectable read of Tile `t` of operand `n` leaves behind (R265). -/
def readEffects (e : QEnt) (n t : Nat) (s : State) : State :=
  match e.opd (n - 1) with
  | some o =>
    let s := noteEcc (o.tileAddr t) (strideOf o.fmt) s
    if optScales o.fmt && o.bsEn then noteEcc (o.bsAddr + 128 * t) 128 s else s
  | none => s

/-- Undefined content in every output Tile of an entry (R29, R92) (DESIGN CHOICE, log 15). -/
def scrambleOut (e : QEnt) (s : State) : State :=
  match e.opd 2 with
  | some c => s.each (outTiles e c) (scrambleTile c)
  | none => s

/-- Some of the reads waits for a lender (R262) (DESIGN CHOICE, log 38). -/
def readsWait (s : State) (e : QEnt) (l : List (Nat × Nat)) : Bool :=
  !s.tiers.leases.isEmpty && l.any (fun x =>
    match e.opd (x.1 - 1) with
    | some o => (rangesUnder o [x.2]).any (fun r => remoteWaits s r.1 r.2)
    | none => false)

/-- `f` on the byte ranges of the Tiles of a list of reads. -/
def onReads (f : Nat → Nat → State → State) (e : QEnt) (l : List (Nat × Nat)) (s : State) : State :=
  s.each l (fun x s =>
    match e.opd (x.1 - 1) with
    | some o => s.each (rangesUnder o [x.2]) (fun r => f r.1 r.2)
    | none => s)

/-- Reads correct what they can and count as uses of their Tiles (R256, R263). -/
def touchReads (e : QEnt) (l : List (Nat × Nat)) (s : State) : State := onReads touch e l s

/-- Promotions that reads bring when their command ends (R256). -/
def promoteReads (e : QEnt) (l : List (Nat × Nat)) (s : State) : State := onReads promoteAt e l.eraseDups s

/-- The command's reads are over (R262). -/
def readsOver (e : QEnt) (l : List (Nat × Nat)) (s : State) : State := if s.tiers.fetches.isEmpty then s else onReads readOver e l s

/-! ### Read claims (R223, R248) -/

/-- The region Tiles that a list of reads claims, each once (DEDUCED, log 25). -/
def claimRefs (s : State) (e : QEnt) (l : List (Nat × Nat)) : List TileRef :=
  (l.eraseDups.map (fun x => match e.opd (x.1 - 1) with | some o => tilesOfTile s o x.2 | none => [])).flatten.eraseDups

/-- Adds or drops one claim on each Tile that the reads claim (DEDUCED, log 25). -/
def claimTiles (up : Bool) (e : QEnt) (l : List (Nat × Nat)) (s : State) : State :=
  s.each (claimRefs s e l) (fun t s =>
    let w := tileState s t
    setTileState t (putBits w 17 10 (if up then min 255 (tsClaims w + 1) else tsClaims w - 1)) s)

/-- Tile-recompute mode with a gradient output (R220, R221). -/
def recompOn (e : QEnt) : Bool :=
  bit e.acc.numCtrl 0 && match e.opd 2 with | some c => c.kind == 2 || c.kind == 3 | none => false

/-- Some Tile that the command must claim holds 255 claims already (R248) (DEDUCED, log 25). -/
def claimsFull (s : State) (e : QEnt) (l : List (Nat × Nat)) : Bool :=
  recompOn e && (claimRefs s e l).any (fun t => tsClaims (tileState s t) == 255)

/-! ### Output conversion and recompute -/

/-- The exact value of an output element from its bank (R86, R111). -/
def outVal (op : Nat) (a b : Opd) (raw : List Nat) (ot ct i r : Nat) : Val :=
  Val.mul (Val.mul (entryVal op ((raw[(i - 64 * ot) * 64 + (r - 64 * ct)]?).getD 0)) a.scale) b.scale

/-- Every input element under the passes of output Tile (ot, ct) is finite (R221). -/
def inputsFinite (s : State) (e : QEnt) (orient : Nat) (a b : Opd) (ot ct : Nat) : Bool :=
  let fin := fun (v : Val) => !(v.isNan || v.isInf)
  (List.range (64 * e.reds.2)).all (fun k0 =>
    let k := 64 * e.reds.1 + k0
    (List.range 64).all (fun i => fin (elemVal s a (64 * ot + i) k)) &&
    (List.range 64).all (fun j => let (x, y) := statPos orient k (64 * ct + j); fin (elemVal s b x y)))

/-- Every input Tile of an output Tile's passes lies in a Chase or Galley store (R223). -/
def inputsResident (s : State) (e : QEnt) (orient : Nat) (a b : Opd) (ot ct : Nat) : Bool :=
  (tilesOf e.reds).all (fun kt => tileResident s a (ot * a.tr + kt) && tileResident s b (statTile orient b ct kt))

/-- What conversion of one Tile gives: tile_exp, the kept conversion, attempts made, exhausted. -/
structure Conv where
  k : Nat
  out : TileOut
  tries : Nat
  exhausted : Bool

/-- Attempts k = 1, 2, 3: the first that is not suspect, else the last (R222, R223). -/
def attempts (c : Opd) (x : ConvCtx) (val : Nat → Nat → Val) (finite : Bool) (ot ct : Nat) : Nat → Nat → Conv
  | 0, k => ⟨k, convertTile c { x with k := k } val ot ct, k, true⟩
  | n + 1, k =>
    let d := convertTile c { x with k := k } val ot ct
    if 0 < d.sat || (d.special && finite) then
      (match n with
       | 0 => ⟨k, d, k, true⟩
       | _ => attempts c x val finite ot ct n (k + 1))
    else ⟨k, d, k, false⟩

/-- Converts one output Tile, with recompute where the mode asks for it. -/
def convertArray (c : Opd) (x : ConvCtx) (val : Nat → Nat → Val) (recomp finite resident : Bool) (ot ct : Nat) : Conv :=
  let d := convertTile c x val ot ct
  if recomp && (decide (0 < d.sat) || (d.special && finite)) then
    if resident then attempts c x val finite ot ct 3 1 else ⟨0, d, 0, true⟩
  else ⟨0, d, 0, false⟩

/-- The array counts what passes cost: idle lanes and bundles at once, its cycles in the ticks to come (R95, R124, R402)
(DESIGN CHOICE, log 147). -/
def addCost (ch : Nat) (p : PassCost) (s : State) : State :=
  let y := s.arr ch
  s.setArr ch { y with
    bsrIdle := (y.bsrIdle + p.idle) % 2 ^ 32, bsrBundles := (y.bsrBundles + p.bundles) % 2 ^ 32
    due := p.segs.foldl addSeg y.due, bundles := y.bundles ++ laterBy (segCycles y.due) p.spans }

/-- Conversion of one output Tile from its bank's entries into memory and the slice of Chase `ch`; each attempt of a recompute
costs its passes `again` (R222); `first` is the first exhausted Tile so far with its attempts. -/
def finishTile (ch : Nat) (e : QEnt) (a b c : Opd) (resident : Bool) (finite : Bool) (again : PassCost) (raw : List Nat) (ot ct : Nat)
    (st : State × Option (Nat × Nat)) : State × Option (Nat × Nat) :=
  let (s, first) := st
  let t := ot * c.tr + ct
  let x : ConvCtx := ⟨e.acc.seed, e.acc.step, 0⟩
  let rec_ := recompOn e && (coincides s c t).isSome
  let r := convertArray c x (outVal e.op a b raw ot ct) (recompOn e) finite (resident && rec_) ot ct
  let s := measureAll ch (c.hydKey e.acc.step) r.out.samples (storeTile c t r.k r.out s)
  let reg := unitPage ch + 0xB8
  let s := s.when (r.tries != 0) (fun s => s.setRegN reg (putBits (s.regN reg) 15 0 ((bits (s.regN reg) 15 0 + r.tries) % 65536)))
  let s := s.each (List.range r.tries) (fun _ => addCost ch again)
  (s, match first with | some f => some f | none => if r.exhausted then some (r.tries, t) else none)

/-- A command that ends in RECOMPUTE_EXHAUSTED counts in PTG_EXHAUSTED, which saturates, and in the Chase (R223, R235, R238). -/
def countExhausted (ch : Nat) (s : State) : State :=
  let reg := unitPage ch + 0xB8
  let s := s.setRegN reg (putBits (s.regN reg) 31 16 ((bits (s.regN reg) 31 16 + 1) % 65536))
  s.setRegN (govPage + 0x11C) (min 65535 (s.regN (govPage + 0x11C) + 1))

/-! ### Running -/

/-- What the passes of an entry need besides its operands. -/
def arrCtx (s : State) (ch : Nat) (e : QEnt) (a b : Opd) : ArrCtx :=
  { op := e.op, orient := cOrient e.cmd, runLen := runLength (s.arr ch).run, pair := isPair e.op a b,
    g1 := bit e.acc.numCtrl 1, seed := e.acc.seed, step := e.acc.step, reuse := none,
    shape := blockShape e.op (s.arr ch).width }

/-- The block of the first pass of an entry. -/
def firstBlock (s : State) (x : ArrCtx) (e : QEnt) (b : Opd) : Block := loadBlock s x b (64 * e.reds.1) (64 * e.cols.1)

/-- The active block, when the first pass of the entry reuses it (R96) (DEDUCED, log 24). -/
def reused (s : State) (ch : Nat) (x : ArrCtx) (e : QEnt) (b : Opd) : Option Block :=
  match (s.arr ch).active with
  | some blk => if sameBlock blk (firstBlock s x e b) then some blk else none
  | none => none

/-- The first pass of the head command needs no load (R96). -/
def needsNoLoad (s : State) (ch : Nat) (e : QEnt) : Bool :=
  match e.opd 0, e.opd 1 with
  | some a, some b => (reused s ch (arrCtx s ch e a b) e b).isSome
  | _, _ => true

/-- The block on which an issued command's first pass runs: as it was loaded (R93), or reused; none where its load failed. -/
def readyBlock (s : State) (ch : Nat) (x : ArrCtx) (e : QEnt) (b : Opd) : Option Block :=
  (s.arr ch).shadow.or (reused s ch x e b)

/-- One stationary block serves all the passes, so that it stays loaded from group to group. -/
def singleBlock (ps : List Pass) : Bool := ps.all (fun p => (ps.head?).any p.onBlock)

/-- Output Tiles in the order of the opcode's loop (R76, R117), with the mark of the first group of streaming Tiles. -/
def tileOrder (e : QEnt) : List (Nat × Nat × Bool) :=
  if e.op = 3 then ((tilesOf e.rows).map (fun r => (tilesOf e.cols).map (fun c => (r, c, r == e.rows.1)))).flatten
  else
    ((groupsOf e.rows).map (fun g => ((tilesOf e.cols).map (fun c => g.map (fun r =>
      (r, c, decide (r < e.rows.1 + 4))))).flatten)).flatten

/-- Every pass that adds to output Tile `o` is among the first `i`: the Tile is complete when they have run. -/
def endedBy (ps : List Pass) (i : Nat) (o : Nat × Nat) : Bool :=
  (ps.take i).any (fun p => p.adds o) && !((ps.drop i).any (fun p => p.adds o))

/-- The pass whose read fails first: its number, operand number, Tile and failure (R92). -/
def failingPass (s : State) (e : QEnt) : Nat → List (List (Nat × Nat)) → Option (Nat × Nat × Nat × ReadFail)
  | _, [] => none
  | i, l :: ls =>
    match firstReadFail s e l with
    | some f => some (i, f)
    | none => failingPass s e (i + 1) ls

/-- What each pass of an issued command reads from now on: its first block may stand loaded already. -/
def entReads (s : State) (ch : Nat) (x : ArrCtx) (e : QEnt) (a b : Opd) : List (List (Nat × Nat)) :=
  let ps := entPasses x.shape e b
  runReads e.op x.orient a b (if (readyBlock s ch x e b).isSome then ps.head? else none) ps

/-- Cycles that a streaming row of the command takes. -/
def rowCyc (s : State) (ch : Nat) (x : ArrCtx) (b : Opd) : Nat := rowCycles x.op x.pair (s.arr ch).width x.runLen (planesOf b.fmt)

/-- What a list of passes costs. -/
def costOf (s : State) (ch : Nat) (x : ArrCtx) (a b : Opd) (l : List Pass) : PassCost := passCosts s x.op (rowCyc s ch x b) a l

/-- Values that the spec leaves open: what registers hold that a failing read has loaded (R92) (DESIGN CHOICE, log 15). -/
def freeVals (s : State) (n : Nat) : List Val := (List.range n).map (fun i => decodeFloat 6 (Config.freeWord (s.free + i) % 2 ^ 32))

/-- The block that the last of the passes begun leaves active: the first's, or loaded from what stood in memory; unknown where its
own read failed (R92, R96). -/
def endBlock (s : State) (x : ArrCtx) (b : Opd) (first : Option Block) (ran : List Pass) (torn : Bool) : Option Block :=
  match ran.getLast? with
  | none => first
  | some p =>
    if first.isSome && singleBlock ran then first
    else
      let blk := loadBlock s x b p.k0 p.n0
      if torn then
        let n := blk.content.length
        some { blk with
          content := freeVals s n
          lows := if blk.lows.isEmpty then [] else freeVals { s with free := s.free + n } n
          codes := blk.codes.map (fun c => (c + Config.freeWord s.free) % 8) }
      else some blk

/-- Banks of an edge's mask `m` that passes already run do not use. -/
def ownBanks (y : ArrSt) (edge m : Nat) : List Nat :=
  (List.range 4).filter (fun i => m.testBit i && !(y.holds.any (fun h => h.1 == edge && h.2.1.testBit i)))

def maskOf (l : List Nat) : Nat := l.foldl (fun m i => m ||| 2 ^ i) 0

/-- The banks that a command took stay in use until its passes' outputs are written: those of the last group, `last` of them, to the
end of the cycles that are still to be counted, the others until that group's passes, `cost` of them, begin (R76, R90, R92) (DESIGN
CHOICE, log 147). -/
def holdBanks (ch last cost : Nat) (s : State) : State :=
  let y := s.arr ch
  let n := segCycles y.due
  let hold := fun (edge m : Nat) =>
    let l := ownBanks y edge m
    [(edge, maskOf (l.take last), n), (edge, maskOf (l.drop last), n - cost)].filter (fun h => h.2.1 != 0 && h.2.2 != 0)
  s.setArr ch { y with holds := y.holds ++ hold 0 y.colBanks ++ hold 1 y.rowBanks }

/-- The array after the passes `ran` of a command, the first `paid` of which have been counted: its last block is active, its
orientation stands, its cost is counted, its banks go when its outputs are written (R90, R92, R96, R103, R105, R124). -/
def afterRun (s : State) (ch : Nat) (x : ArrCtx) (a b : Opd) (first : Option Block) (ran : List Pass) (paid : Nat) (torn : Bool)
    (s' : State) : State :=
  let y := s'.arr ch
  let s1 := s'.setArr ch { y with
    active := endBlock s x b first ran torn, orient := x.orient, shadowLoading := false, shadow := none }
  let s2 := s1.when torn (fun t => { t with free := t.free + 8192 })
  let group := (ran.getLast?).map (·.rts) |>.getD []
  holdBanks ch (if x.op = 3 then 4 else group.length) (segCycles (costOf s ch x a b (ran.filter (fun p => p.rts == group))).segs)
    (addCost ch (costOf s ch x a b (ran.drop paid)) s2)

/-! ### Table sets (R113 to R116) -/

/-- Bytes of the set `i` of a Galley in its store: its first byte (R114, R127). -/
def setKey (s : State) (g i : Nat) : Nat := galleyStore g + s.fld (unitPage g) Fld.GLY_LUT_CFG.tbuf_pos * 2 ^ 18 + i * 2 ^ 17

/-- The 32 tables of row `i` of streaming Tile `rt` over the reduction block that begins at Tile `kt`, as bytes (R113). -/
def rowTables (s : State) (a : Opd) (rt kt i : Nat) : List (BitVec 8) :=
  ((List.range 32).map (fun g => ((groupTable s a (64 * rt + i) (64 * kt + 4 * g)).map (fun w => leBytes w 4)).flatten)).flatten

/-- A row's tables go into set `i` of its Galley, row after row (R113, R114) (DESIGN CHOICE, log 144). -/
def storeRow (g i : Nat) (a : Opd) (rt kt row : Nat) (s : State) : State :=
  s.setBytes (setKey s g i + 2048 * row) (rowTables s a rt kt row)

/-- Column-block sets that an entry holds (R117). -/
def colSets (e : QEnt) : Nat := (e.cols.2 + 3) / 4

/-- The table sets of an entry in the order of its loop: streaming Tile, column-block set, first reduction Tile (R117). -/
def lutSets (e : QEnt) : List (Nat × Nat × Nat) :=
  ((tilesOf e.rows).map (fun r => ((List.range (colSets e)).map (fun c =>
    (stepsFrom e.reds.1 (e.reds.1 + e.reds.2) 2).map (fun k => (r, c, k)))).flatten)).flatten

/-- What identifies a table set (R115). -/
def tabKey (e : QEnt) (x : Nat × Nat × Nat) : List Nat := [e.stream, e.seq, x.1, x.2.1, x.2.2]

/-- The set is one of the entry's command. -/
def ofEntry (e : QEnt) (t : TabSet) : Bool := t.key.take 2 == [e.stream, e.seq]

/-- Members that share the building: 16 when the command reached the Galley under COL, else 1 (R115). -/
def builders (ch : Nat) (e : QEnt) : List Nat :=
  if e.parent == some (galleyOf ch) && cSplit e.cmd == 1 then members (galleyOf ch) else [ch]

/-- The entry of a Chase that still reads set `x` of the command of `e`: it holds the set's column blocks and has not gone past it. -/
def reads (e : QEnt) (x : Nat × Nat × Nat) (y : QEnt) : Bool :=
  sameEnt e y && y.op == 3 && y.phase != .done && ((lutSets y).drop y.prog).any (fun z => z.1 == x.1 && z.2 == x.2)

/-- The Chases of the Galley that read a set of a command (R115). -/
def readersOf (s : State) (ch : Nat) (e : QEnt) (x : Nat × Nat × Nat) : List Nat :=
  (builders ch e).filter (fun m => (s.q m).any (reads e x))

/-- The next table set of an entry: those before it have been read. -/
def nextSet (e : QEnt) : Option (Nat × Nat × Nat) := (lutSets e)[e.prog]?

/-- The Galley's set with this key. -/
def tabWith (s : State) (g : Nat) (key : List Nat) : Option TabSet := [s.tab (g * 2), s.tab (g * 2 + 1)].find? (fun t => t.key == key)

/-- A command asks for its next table set: the building begins in a free set, with the first Chase that asks (R114, R115) (DESIGN
CHOICE, log 144). -/
def askTables (ch : Nat) (e : QEnt) (s : State) : State :=
  let g := galleyOf ch
  match nextSet e with
  | some x =>
    if (tabWith s g (tabKey e x)).isSome then s
    else
      match [g * 2, g * 2 + 1].find? (fun k => (s.tab k).key == []) with
      | some k => s.setTab k ⟨tabKey e x, false, true, builders ch e, (builders ch e).map (fun _ => 0), readersOf s ch e x⟩
      | none => s
  | none => s

/-- Rows of a set that have their token: each builder makes the tables of its rows in order, 4 tables a tick (R115, R116). -/
def rowTokens (t : TabSet) : List Nat :=
  let n := 64 / max 1 t.who.length
  ((List.zip (List.range t.who.length) t.built).map (fun x => (List.range (min n (x.2 / 8))).map (fun r => n * x.1 + r))).flatten

/-- A Chase's vector engine builds rows of a set. -/
def buildsRows (s : State) (ch : Nat) : Bool :=
  [0, 1].any (fun i =>
    let t := s.tab (galleyOf ch * 2 + i)
    t.building && (List.zip t.who t.built).any (fun x => x.1 == ch && decide (x.2 < 512 / max 1 t.who.length)))

/-- The passes of the set that the command reads next: its column blocks (R117). -/
def setPasses (e : QEnt) (ps : List Pass) : List Pass :=
  match nextSet e with
  | some x => ps.filter (fun p => p.rts == [x.1] && (p.ct - e.cols.1) / 4 == x.2.1 && p.kts.head? == some x.2.2)
  | none => []

/-- Passes of the sets that an entry has read. -/
def passesRead (e : QEnt) : Nat := ((lutSets e).take e.prog).foldl (fun n x => n + min 4 (e.cols.2 - 4 * x.2.1)) 0

/-- A read of the command's next set fails, so that no pass begins after those of that set (R92). -/
def setFails (s : State) (ch : Nat) (e : QEnt) : Bool :=
  match e.opd 0, e.opd 1 with
  | some a, some b =>
    let x := arrCtx s ch e a b
    let n := passesRead e
    (failingPass s e 0 (((entReads s ch x e a b).drop n).take (setPasses e (entPasses x.shape e b)).length)).isSome
  | _, _ => false

/-- The table sets of a command have all been read, and its passes have left the multipliers (R116, R117). -/
def tablesReady (s : State) (ch : Nat) (e : QEnt) : Bool :=
  e.op != 3 || ((nextSet e).isNone && (s.arr ch).due.isEmpty) || setFails s ch e

/-- The array waits for the next table set of its command (R116, R126). -/
def tableWaits (s : State) (ch : Nat) (e : QEnt) : Bool :=
  e.op == 3 && e.phase == .issued && !(s.arr ch).shadowLoading && (s.arr ch).due.isEmpty &&
  (match nextSet e with | some x => !((tabWith s (galleyOf ch) (tabKey e x)).any (·.ready)) | none => false)

/-- A Galley releases a set that no Chase reads any more: none of its readers has the command still before it (R115). -/
def freeSets (g : Nat) (s : State) : State :=
  s.each [g * 2, g * 2 + 1] (fun k s =>
    let t := s.tab k
    if t.key != [] && !(t.readers.any (fun m => (s.q m).any (fun e => ofEntry e t && e.op == 3 && e.phase != .done))) then
      s.setTab k TabSet.reset
    else s)

/-- A Chase has finished its last pass on the sets of its command for which `p` holds (R115). -/
def leaveTables (ch : Nat) (e : QEnt) (p : List Nat → Bool) (s : State) : State :=
  freeSets (galleyOf ch) (s.each [galleyOf ch * 2, galleyOf ch * 2 + 1] (fun k s =>
    let t := s.tab k
    if ofEntry e t && p t.key && t.readers.contains ch then s.setTab k { t with readers := t.readers.filter (· != ch) } else s))

/-- A tick of building a set: each builder whose vector engine runs no other command goes on, and a row that is complete stands in
the store (R115, R116). -/
def tickSet (g i : Nat) (s : State) : State :=
  let k := g * 2 + i
  let t := s.tab k
  if !t.building then s
  else
    let n := 512 / max 1 t.who.length
    let t1 := { t with built := List.zipWith (fun m b => if (s.arr m).vecDue = 0 then min n (b + 1) else b) t.who t.built }
    let t2 := if t1.built.all (fun b => b == n) then { t1 with building := false, ready := true } else t1
    let s1 := s.setTab k t2
    let new := (rowTokens t2).filter (fun r => !((rowTokens t).contains r))
    match t.key, (t.readers.filterMap (fun m => (s.q m).find? (fun e => ofEntry e t && e.op == 3))).head? with
    | [_, _, rt, _, kt], some e => (match e.opd 0 with | some a => s1.each new (storeRow g i a rt kt) | none => s1)
    | _, _ => s1

/-- A table-mode command goes on: the set that it has read is left once its passes have left the multipliers, and the passes of the
next begin when it is built; the Galley builds the one after meanwhile (R114 to R117). -/
def tableTurn (ch : Nat) (s : State) : State :=
  match engineHead s ch .array with
  | some e =>
    if e.op == 3 && e.phase == .issued && !(s.arr ch).shadowLoading && (s.arr ch).due.isEmpty && formeOn s ch && !(clockStopped s ch) then
      match nextSet e, e.opd 0, e.opd 1 with
      | some x, some a, some b =>
        let s1 := leaveTables ch e (fun key => key != tabKey e x) s
        if (tabWith s1 (galleyOf ch) (tabKey e x)).any (·.ready) && !(setFails s1 ch e) then
          let c := arrCtx s1 ch e a b
          let s2 := addCost ch (costOf s1 ch c a b (setPasses e (entPasses c.shape e b))) s1
          let e2 := { e with prog := e.prog + 1 }
          askTables ch e2 (updEnt ch e (fun _ => e2) s2)
        else askTables ch e s1
      | _, _, _ => s
    else s
  | none => s

/-- A command has left the array: no block loads for it, its banks stay in use only as far as its outputs are still to be written, and
its table sets are left. -/
def idleArray (ch : Nat) (e : QEnt) (s : State) : State :=
  let y := s.arr ch
  let kept := fun (edge : Nat) => (y.holds.filter (fun h => h.1 == edge)).foldl (fun m h => m ||| h.2.1) 0
  let s := s.setArr ch { y with shadowLoading := false, shadow := none, colBanks := kept 0, rowBanks := kept 1 }
  leaveTables ch e (fun _ => true) s

/-- An array command is part of a RED split, at this level or above: its partial sums go to its dispatcher (R26) (DESIGN
CHOICE, log 23). -/
def isPartial (e : QEnt) : Bool := e.parent.isSome && cSplit e.cmd == 2 && e.engine == .array

/-- The reads that load the first block of a command (R93). -/
def firstLoad (x : ArrCtx) (e : QEnt) (b : Opd) : List (Nat × Nat) :=
  match (entPasses x.shape e b).head? with
  | some p => p.kts.map (fun kt => (2, statTile x.orient b p.ct kt))
  | none => []

/-- Runs an issued array command to its end (R76, R92): the passes up to one whose read fails, the conversions that they
complete (DESIGN CHOICE, log 5; DEDUCED, log 24). -/
def runArray (ch : Nat) (e : QEnt) (s : State) : State :=
  match e.opd 0, e.opd 1, e.opd 2 with
  | some a, some b, some c =>
    let x := arrCtx s ch e a b
    let claims := passReads e x.orient a b
    let done := fun (f : Fail) (l : List (Nat × Nat)) (s : State) =>
      finish ch e f (promoteReads e l (readsOver e claims (idleArray ch e (s.when (recompOn e) (claimTiles false e claims)))))
    match (if isPartial e then .ok s else allocOutputs (entryWrites e) s) with
    | .error f => done f [] s
    | .ok s =>
      let first := readyBlock s ch x e b
      let ps := entPasses x.shape e b
      let rs := entReads s ch x e a b
      let paid := if e.op = 3 then passesRead e else 0
      let loaded := if (s.arr ch).shadow.isSome then firstLoad x e b else []
      let raw := fun (o : Nat × Nat × Bool) =>
        arrayTile s { x with reuse := if o.2.2 || singleBlock ps then first else none } a b c e.reds o.1 o.2.1
      let convert := fun (l : List (Nat × Nat × Bool)) (s1 : State) => l.foldl (fun st o =>
        finishTile ch e a b c (inputsResident s e x.orient a b o.1 o.2.1) (inputsFinite s e x.orient a b o.1 o.2.1)
          (costOf s ch x a b (ps.filter (fun p => p.adds (o.1, o.2.1)) |>.map (fun p => { p with rts := [o.1] })))
          (raw o) o.1 o.2.1 st) (s1, (none : Option (Nat × Nat)))
      match failingPass s e 0 rs with
      | some (i, n, t, f) =>
        let s1 := touchReads e (rs.take i).flatten (afterRun s ch x a b first (ps.take (i + 1)) paid (n == 2) s)
        let s2 := if isPartial e then s1 else
          scrambleOut e (convert ((tileOrder e).filter (fun o => endedBy ps i (o.1, o.2.1))) s1).1
        done (readStatus e n t f) (loaded ++ (rs.take i).flatten) (if f == .ecc then readEffects e n t s2 else s2)
      | none =>
        let s1 := touchReads e rs.flatten (afterRun s ch x a b first ps paid false s)
        let l := loaded ++ rs.flatten
        if isPartial e then
          done okFail l (updEnt ch e (fun e => { e with parts := [(0, ((tileOrder e).map raw).flatten)] }) s1)
        else
          match convert (tileOrder e) s1 with
          | (s2, some (k, t)) => done ⟨stRecompute, 0, k, t⟩ l (countExhausted ch (wholeWritten e s2))
          | (s2, none) => done okFail l (wholeWritten e s2)
  | _, _, _ => finish ch e okFail s

/-! ### Issue (R90, R97) -/

/-- CHS_ARR_CFG as it applies to a command of a Chase (R100). -/
def cfgOf (s : State) (ch : Nat) (e : QEnt) : Nat := e.cfg.getD (s.regN (unitPage ch + 0xA0))

/-- A write of CHS_ARR_CFG comes: the command at the head of the array queue keeps what stood (R100). -/
def keepCfg (ch : Nat) (s : State) : State :=
  match engineHead s ch .array with
  | some e => updEnt ch e (fun x => { x with cfg := some (cfgOf s ch e) }) s
  | none => s

/-- The configuration that the head array command of a Chase needs; none without one. -/
def headNeed (s : State) (ch : Nat) : Option (Nat × Nat × Nat) :=
  match engineHead s ch .array with
  | some e =>
    match e.opd 0, e.opd 1 with
    | some a, some b => some (needCfg (cfgOf s ch e) e.op a b)
    | _, _ => none
  | none => none

/-- The unit whose credit port takes the credits of a command: the one it is addressed to (R15, R90) (DEDUCED, log 14). -/
def creditUnit (ch : Nat) (e : QEnt) : Nat := if e.parent.isNone then ch else cPath e.cmd

/-- Credits that a command needs: one for every output Tile (R90) (DEDUCED, log 14). -/
def creditNeed (e : QEnt) : Nat := match e.opd 2 with | some c => (outTiles e c).length | none => 0

/-- Credits for its output Tiles have arrived (R90) (DEDUCED, log 14). -/
def creditsIn (s : State) (ch : Nat) (e : QEnt) : Bool := decide (creditNeed e ≤ (s.unit (creditUnit ch e)).tileCredits)

/-- A command takes its credits; a share of a RED split leaves them to the dispatcher's conversion. -/
def takeCreditsOf (u n : Nat) (s : State) : State :=
  let x := s.unit u
  s.setUnit u { x with tileCredits := x.tileCredits - n }

/-- Banks that a command's first group needs: one a streaming Tile (R76, R90), in table mode one a column block (R117). -/
def bankNeed (e : QEnt) : Nat := min 4 (if e.op = 3 then e.cols.2 else e.rows.2)

/-- Banks in use at the output edge of a command's orientation (R103). -/
def edgeBanks (s : State) (ch : Nat) (e : QEnt) : Nat := if cOrient e.cmd = 1 then (s.arr ch).rowBanks else (s.arr ch).colBanks

/-- The output edge has the free banks (R90). -/
def banksFree (s : State) (ch : Nat) (e : QEnt) : Bool := decide (bankNeed e + popCount (edgeBanks s ch e) ≤ 4)

/-- Takes `n` free banks from the mask `m`, the lowest first (DESIGN CHOICE, log 170). -/
def takeBanks (m : Nat) : Nat → Nat
  | 0 => m
  | n + 1 =>
    match (List.range 4).find? (fun i => !(m.testBit i)) with
    | some i => takeBanks (m + 2 ^ i) n
    | none => m


/-- Every condition of the table Array issue conditions holds for the head command. -/
def arrayReady (s : State) (ch : Nat) (e : QEnt) : Bool :=
  mayRun s ch e && creditsIn s ch e && banksFree s ch e && !(s.arr ch).fence &&
  (match headNeed s ch with | some n => cfgMatches (s.arr ch) n | none => false) &&
  (match e.opd 0, e.opd 1 with
   | some a, some b => !(claimsFull s e (passReads e (cOrient e.cmd) a b)) && !(readsWait s e (passReads e (cOrient e.cmd) a b))
   | _, _ => false)

/-- The head command issues: it takes its credits, claims, banks and table set, and its first block loads (R90, R93, R116, R223). -/
def issueArray (ch : Nat) (e : QEnt) (s : State) : State :=
  let s := if isPartial e then s else takeCreditsOf (creditUnit ch e) (creditNeed e) s
  let s := updEnt ch e (fun e => { e with phase := .issued }) s
  let s := s.when (recompOn e) (fun s =>
    match e.opd 0, e.opd 1 with
    | some a, some b => claimTiles true e (passReads e (cOrient e.cmd) a b) s
    | _, _ => s)
  let s := s.when (e.op == 3) (askTables ch e)
  let y := s.arr ch
  let banks := takeBanks (edgeBanks s ch e) (bankNeed e)
  s.setArr ch { y with
    shadowLoading := !(needsNoLoad s ch e)
    colBanks := if cOrient e.cmd = 1 then y.colBanks else banks, rowBanks := if cOrient e.cmd = 1 then banks else y.rowBanks }

/-- MUL_LUT in a Galley without a table buffer is rejected whole (R114). -/
def noTable (s : State) (ch : Nat) (e : QEnt) : Bool := e.op == 3 && !(s.flag (unitPage (galleyOf ch)) Fld.GLY_LUT_CFG.tbuf_en)

/-- The block that the issued command's first pass waits for has loaded: the shadow registers hold it as it stood, unless its own
read has failed (R92, R93). -/
def blockThere (ch : Nat) (s : State) : State :=
  match engineHead s ch .array with
  | some e =>
    match e.opd 0, e.opd 1 with
    | some a, some b =>
      if (s.arr ch).shadowLoading then
        let x := arrCtx s ch e a b
        let l := firstLoad x e b
        if (firstReadFail s e l).isSome then s.setArr ch { s.arr ch with shadowLoading := false }
        else touchReads e l (s.setArr ch { s.arr ch with shadowLoading := false, shadow := some (firstBlock s x e b) })
      else s
    | _, _ => s
  | none => s

/-- The load of an issued command's first block has failed: it begins no pass and ends (R92). -/
def loadFailed (s : State) (ch : Nat) (e : QEnt) : Bool := (s.arr ch).shadow.isNone && !(needsNoLoad s ch e)

/-- An issued command runs when its block is there, its table sets have been read, and its slice does not hold output conversion
(R93, R116, R188). -/
def runIssued (ch : Nat) (s : State) : State :=
  match engineHead s ch .array with
  | some e =>
    if e.phase == .issued && !(s.arr ch).shadowLoading &&
        (loadFailed s ch e || (tablesReady s ch e && !(hydHolding s ch && !(isPartial e)))) &&
        !(clockStopped s ch) && formeOn s ch then
      runArray ch e s
    else s
  | none => s

/-- The head array command of a Chase goes on as far as nothing holds it: issue, load, passes (DEDUCED, log 24). -/
def tryArray (ch : Nat) (s : State) : State :=
  match engineHead s ch .array with
  | some e => if arrayReady s ch e then runIssued ch (blockThere ch (issueArray ch e s)) else s
  | none => s

/-! ### A dispatcher's RED combination (R26, R111, R223) -/

/-- Members' entries added in ascending member order (DESIGN CHOICE, log 23). -/
def combineParts (op : Nat) (parts : List (Nat × List Nat)) : List Nat :=
  let l := (parts.mergeSort (fun a b => decide (a.1 ≤ b.1))).map (·.2)
  match l with
  | [] => []
  | p :: ps => ps.foldl (fun acc q => List.zipWith (combineEntry op) acc q) p

/-- Converts the combined sums of a whole command once, measured by the slice of member 0, and takes the credits of its output
(R26, R90, R183). -/
def convertCombined (u : Nat) (e : QEnt) (raws : List Nat) (s : State) : State × Option (Nat × Nat) :=
  match e.opd 0, e.opd 1, e.opd 2 with
  | some a, some b, some c =>
    let tiles := List.zip (tileOrder e) (chunksOf 4096 (raws.length / 4096) raws)
    tiles.foldl (fun st o =>
      finishTile (sliceOf u) e a b c true (inputsFinite s e (cOrient e.cmd) a b o.1.1 o.1.2.1) ⟨0, 0, [], []⟩ o.2 o.1.1 o.1.2.1 st)
      (takeCreditsOf u (creditNeed e) s, none)
  | _, _, _ => (s, none)

end Sys2Proof.Machine
end

