-- ==== Sys2Proof/Machine/VectorRun.lean ====
section
/-! DEFINITION. The vector engine (R172 to R175, R344) and the movers' MOV and FILL (R534): the value of each output
element, Tile by Tile, and the run of one command or share. -/

namespace Sys2Proof.Machine

/-! ### Values -/

/-- Element (i, r) of operand B for output element (i, r): B as a row, as one value per row, or whole (R165). -/
def spreadB (s : State) (a b : Opd) (i r : Nat) : Val :=
  if b.red = a.red && b.outer = a.outer then elemF32 s b i r
  else if b.outer = 1 && b.red = a.red then elemF32 s b 0 r
  else elemF32 s b i 0

/-- One fused multiply-add in F32; a NaN of C alone keeps its own sign (R172). -/
def fma32 (a b c : Val) : Val :=
  if c.isNan && !a.isNan && !b.isNan then c else f32 (Val.add (Val.mul a b) c)

/-- One step of VEC_REDUCE (table Vector functions). -/
def reduceStep (f : Nat) (acc x : Val) : Val :=
  match f with
  | 0 => f32 (Val.add acc x)
  | 1 => Val.max acc x
  | 2 => Val.min acc x
  | 3 => f32 (Val.add acc (f32 (Val.mul x x)))
  | _ => Val.max acc x.abs

/-- The first element of a row as the reduction starts with it. -/
def reduceFirst (f : Nat) (x : Val) : Val := if f = 3 then f32 (Val.mul x x) else if f = 4 then x.abs else x

/-- A row's reduction in ascending r (R173). -/
def reduceRow (f : Nat) : List Val → Val
  | [] => .zero false
  | x :: xs =>
    let v := xs.foldl (reduceStep f) (reduceFirst f x)
    match f, v with
    | 4, .nan _ => .nan false
    | _, v => v

/-- A row of VEC_SOFTMAX (R173). -/
def softmaxRow : List Val → List Val
  | [] => []
  | x :: xs =>
    let m := xs.foldl Val.max x
    let es := (x :: xs).map (fun v => f32 (Val.exp (f32 (Val.sub v m))))
    let t := match es with | [] => .zero false | e :: rest => rest.foldl (fun a e => f32 (Val.add a e)) e
    es.map (fun e => f32 (Val.div e t))

/-- The row of an operand in F32, padding left out. -/
def rowF32 (s : State) (a : Opd) (i : Nat) : List Val := (List.range a.red).map (elemF32 s a i)

/-- The part of a row that lies in the column Tiles of an entry: under a gang split by columns, the member's share, which alone it
reads (R354) (DESIGN CHOICE, log 177). -/
def rowShare (s : State) (e : QEnt) (a : Opd) (i : Nat) : List Val := ((rowF32 s a i).take (64 * (e.cols.1 + e.cols.2))).drop (64 * e.cols.1)

/-- A masked element (R175). -/
def masked (p0 p1 i r : Nat) : Bool :=
  let q := bits p0 19 0 + i
  let k := bits p1 19 0 + r
  let w := 256 * (bits p1 31 20 + 1)
  match bits p0 23 20 with
  | 0 => decide (q < k)
  | 1 => decide (q < k) || decide (k + w ≤ q)
  | _ => false

/-! ### VEC_TOPK (R344) -/

/-- g[r] of one row. -/
def heelSum (s : State) (a b : Opd) (i r : Nat) : Val := f32 (Val.add (elemF32 s a i r) (elemF32 s b i r))

/-- The order of selection: NaN first, then larger magnitude, then lower index. -/
def topBefore (x y : Val × Nat) : Bool :=
  if x.1.isNan != y.1.isNan then x.1.isNan
  else if x.1.isNan then decide (x.2 ≤ y.2)
  else if Val.magLt y.1 x.1 then true else if Val.magLt x.1 y.1 then false else decide (x.2 ≤ y.2)

/-- Reduction indices selected in block `j` of a row, among those in the column Tiles `cols` (R354). -/
def topSelected (s : State) (a b : Opd) (cols : Nat × Nat) (k i j : Nat) : List Nat :=
  let rs := ((List.range 256).map (fun t => 256 * j + t)).filter (fun r =>
    decide (r < a.red) && decide (64 * cols.1 ≤ r) && decide (r < 64 * (cols.1 + cols.2)))
  (((rs.map (fun r => (heelSum s a b i r, r))).mergeSort topBefore).take k).map (·.2)

/-! ### Tiles -/

/-- Value of output element (i, r) of an elementwise opcode. -/
def mapVal (s : State) (e : QEnt) (a b c : Opd) (i r : Nat) : Val :=
  let x := elemF32 s a i r
  match e.op with
  | 0x20 => f32 ((map1 (cParam0 e.cmd) x).getD (.zero false))
  | 0x21 => f32 ((map2 (cParam0 e.cmd) x (spreadB s a b i r)).getD (.zero false))
  | 0x22 => fma32 x (spreadB s a b i r) (elemF32 s c i r)
  | 0x25 => if masked (cParam0 e.cmd) (cParam1 e.cmd) i r then .inf true else x
  | _ => x

/-- Values of a Tile's rows for VEC_REDUCE and VEC_SOFTMAX. -/
def rowVals (s : State) (e : QEnt) (a : Opd) (i : Nat) : List Val :=
  if a.outer ≤ i then []
  else if e.op = 0x23 then [reduceRow (cParam0 e.cmd) (rowF32 s a i)]
  else softmaxRow (rowShare s e a i)

/-- The Hydrometer sample of a masked element counts neither saturation nor flush (R175). -/
def unmaskCounts (e : QEnt) (d : TileOut) : TileOut :=
  if e.op = 0x25 then
    { d with samples := d.samples.map (fun q => match q.x with
        | .inf true => { q with sat := 0, flush := 0 } | _ => q) }
  else d

/-- The Tiles an entry reads for output row Tile `rt` and column Tile `ct`, in the order A, B, C (DESIGN CHOICE, log 177). -/
def vecReads (e : QEnt) (rt ct : Nat) : List (Nat × Nat) :=
  let at_ := fun (n : Nat) (o : Opd) =>
    if e.op = 0x23 then (List.range o.tr).map (fun k => (n, rt * o.tr + k))
    else if e.op = 0x24 || e.op = 0x26 then (tilesOf e.cols).map (fun k => (n, rt * o.tr + k))
    else if o.to = 1 && o.tr = 1 then [(n, 0)]
    else
      match e.opd 2 with
      | some c => [(n, (if o.outer = 1 && c.outer != 1 then 0 else rt) * o.tr + (if o.red = 1 && c.red != 1 then 0 else ct))]
      | none => [(n, rt * o.tr + ct)]
  (match e.opd 0 with | some a => at_ 1 a | none => []) ++
  (match e.opd 1 with | some b => at_ 2 b | none => []) ++
  (match e.op, e.opd 2 with | 0x22, some c => at_ 3 c | _, _ => [])

/-- Stores and measures a converted Tile. -/
def putTile (ch : Nat) (e : QEnt) (c : Opd) (t : Nat) (d : TileOut) (s : State) : State :=
  measureAll ch (c.hydKey e.acc.step) d.samples (storeTile c t 0 d s)

/-- Converts a Tile of values into C. -/
def putVals (ch : Nat) (e : QEnt) (c : Opd) (val : Nat → Nat → Val) (rt ct : Nat) (s : State) : State :=
  putTile ch e c (rt * c.tr + ct) (unmaskCounts e (convertTile c ⟨e.acc.seed, e.acc.step, 0⟩ val rt ct)) s

/-- One row Tile of VEC_TOPK: C and the Heel (R344). The Heel is converted under B's own field and kind and is not measured
(DESIGN CHOICE, log 151). -/
def topkTile (ch : Nat) (e : QEnt) (s0 : State) (a b c : Opd) (rt ct : Nat) (s : State) : State :=
  let k := cParam0 e.cmd + 1
  let sel := (List.range 64).map (fun i =>
    if a.outer ≤ 64 * rt + i then [] else topSelected s0 a b e.cols k (64 * rt + i) (64 * ct / 256))
  let chosen := fun i r => ((sel[i - 64 * rt]?).getD []).contains r
  let x : ConvCtx := ⟨e.acc.seed, e.acc.step, 0⟩
  let d := convertTile c x (fun i r => if chosen i r then heelSum s0 a b i r else .zero false) rt ct
  let stored := fun (i r : Nat) =>
    let j := r - 64 * ct
    let code := ((d.codes[i - 64 * rt]?).getD [])[j]?.getD 0
    let bs := ((d.scales[i - 64 * rt]?).getD [])[j / 32]?.getD 0x7F
    Val.mul (dequant c.fmt c.book bs code) c.scale
  let heel := fun (i r : Nat) =>
    let g := heelSum s0 a b i r
    if chosen i r then (if g.isNan || g.isInf then .zero false else f32 (Val.sub g (stored i r))) else g
  let h := convertTile b x heel rt ct
  let s := storeTile b (rt * b.tr + ct) 0 h (putTile ch e c (rt * c.tr + ct) d s)
  match tileAt s (b.tileAddr (rt * b.tr + ct)) with
  | some t => if s.cask.heel.contains t.id then s else { s with cask := { s.cask with heel := s.cask.heel ++ [t.id] } }
  | none => s

/-- A MOV that copies bit for bit (R534); of two codebooks, slot 0xFFFF counts as one of zeros (DESIGN CHOICE, log 173). -/
def bitCopy (a c : Opd) : Bool :=
  a.fmt == c.fmt && a.bsEn == c.bsEn && a.scaleCode == c.scaleCode && a.invCode == c.invCode && a.book == c.book

/-- One Tile of MOV (R534). -/
def movTile (ch : Nat) (e : QEnt) (a c : Opd) (rt ct : Nat) (s : State) : State :=
  let ta := rt * a.tr + ct
  let tc := rt * c.tr + ct
  let k := tileExp s a ta
  if bitCopy a c && (k == 0 || (coincides s c tc).isSome) then
    let codes := (List.range 64).map (fun i => (List.range 64).map (fun j =>
      if c.inside (64 * rt + i) (64 * ct + j) then elemCode s a.fmt (a.tileAddr ta) i j else 0))
    let scales := (List.range 64).map (fun i => [scaleByte s a ta i 0, scaleByte s a ta i 32])
    let samples := ((List.range 64).map (fun i => ((List.range 64).map (fun j =>
      if c.inside (64 * rt + i) (64 * ct + j) then
        let v := elemReal s a (64 * rt + i) (64 * ct + j)
        [(⟨v, v, 0, 0⟩ : Sample)]
      else [])).flatten)).flatten
    measureAll ch (c.hydKey e.acc.step) samples (storeTile c tc k ⟨codes, scales, samples, 0, false⟩ s)
  else putVals ch e c (elemReal s a) rt ct s

/-- One output Tile of a vector or mover command, computed from what stood in `s0`. -/
def vecTile (ch : Nat) (e : QEnt) (s0 : State) (rt ct : Nat) (s : State) : State :=
  match e.op, e.opd 0, e.opd 1, e.opd 2 with
  | 0x41, _, _, some c => putVals ch e c (fun _ _ => decodeFloat 6 (cParam0 e.cmd)) rt ct s
  | 0x40, some a, _, some c => movTile ch e a c rt ct s
  | 0x26, some a, some b, some c => topkTile ch e s0 a b c rt ct s
  | 0x23, some a, _, some c =>
    let rows := (List.range 64).map (fun i => rowVals s0 e a (64 * rt + i))
    putVals ch e c (fun i r => (((rows[i - 64 * rt]?).getD [])[r]?).getD (.zero false)) rt ct s
  | 0x24, some a, _, some c =>
    let rows := (List.range 64).map (fun i => rowVals s0 e a (64 * rt + i))
    putVals ch e c (fun i r => (((rows[i - 64 * rt]?).getD [])[r - 64 * e.cols.1]?).getD (.zero false)) rt ct s
  | _, some a, b, some c => putVals ch e c (mapVal s0 e a (b.getD a) c) rt ct s
  | _, _, _, _ => s

/-- The output Tiles of an entry in ascending order, by the unit of work that reads before it writes: one Tile, or one
row Tile where the opcode reads whole rows. -/
def workList (e : QEnt) : List (Nat × List Nat) :=
  if e.op = 0x24 || e.op = 0x26 then (tilesOf e.rows).map (fun r => (r, tilesOf e.cols))
  else ((tilesOf e.rows).map (fun r => (tilesOf e.cols).map (fun c => (r, [c])))).flatten

/-- Runs over the work until a read fails (R265). -/
def runWork (ch : Nat) (e : QEnt) : List (Nat × List Nat) → State → State × Fail
  | [], s => (s, okFail)
  | (rt, cts) :: rest, s =>
    let reads := vecReads e rt (cts.headD 0)
    match firstReadFail s e reads with
    | some (n, t, f) => (readEffects e n t s, readStatus e n t f)
    | none =>
      let s0 := touchReads e reads s
      -- a row Tile's columns are computed from what stood before any of them was written
      runWork ch e rest (cts.foldl (fun s ct => vecTile ch e s0 rt ct s) s0)

/-- A write of part of a word that holds an uncorrectable error fails (R265): the output Tiles are whole, so only a Tile whose
bytes end within such a word can meet it. -/
def outputBad (s : State) (e : QEnt) : Option (Nat × Nat × Opd) :=
  (entryWrites e).findSome? (fun w =>
    (w.2.2.find? (fun t => partialBad s (w.2.1.tileAddr t) (strideOf w.2.1.fmt))).map (fun t => (w.1, t, w.2.1)))

/-- The reads of an entry, work by work. -/
def workReads (e : QEnt) : List (Nat × Nat) := ((workList e).map (fun w => vecReads e w.1 (w.2.headD 0))).flatten

/-- Ticks that a vector command takes: 64 elements a tick, 32 where an operand is F32 (the table of 00_scope) (DESIGN CHOICE, log 152). -/
def vecTicks (e : QEnt) : Nat :=
  if e.engine != .vector then 0
  else (workReads e).eraseDups.length * 4096 / ((if (List.range 3).any (fun i => (e.opd i).any (·.fmt == 6)) then 32 else 64) *
    max 1 ((List.range 3).filter (fun i => (workReads e).any (fun r => r.1 == i + 1))).length)

/-- Counts the ticks of a vector command that runs. -/
def addVecTicks (ch : Nat) (e : QEnt) (s : State) : State :=
  if vecTicks e = 0 then s else s.setArr ch { s.arr ch with vecDue := (s.arr ch).vecDue + vecTicks e }

/-- Runs a held vector or mover command, or share, to its end (R91) (DESIGN CHOICE, log 5). -/
def runVector (ch : Nat) (e : QEnt) (s : State) : State :=
  match allocOutputs (entryWrites e) s with
  | .error f => finish ch e f s
  | .ok s =>
    match outputBad s e with
    | some (n, t, o) => finish ch e ⟨stEcc, n, t, o.idx⟩ s
    | none =>
      let (s1, f) := runWork ch e (workList e) (addVecTicks ch e s)
      finish ch e f (promoteReads e (workReads e) (readsOver e (workReads e) (if f.status = stOk then wholeWritten e s1 else s1)))

end Sys2Proof.Machine
end

