-- ==== Sys2Proof/Machine/TierOps.lean ====
section
/-! DEFINITION. The opcode TIER_HINT at a Chase, or a share of it (R255, R257): one request for every region Tile under its Tiles
of operand A. -/

namespace Sys2Proof.Machine

def hintOp (c : BitVec 256) : Nat := bits (cParam0 c) 2 0
def hintTarget (c : BitVec 256) : Nat := bits (cParam0 c) 5 3

/-- The region Tiles under the Tiles of operand A that an entry covers, each once, in ascending order of its Tiles. -/
def hintTiles (s : State) (e : QEnt) (a : Opd) : List TileRef :=
  ((outTiles e a).map (fun t => regionTiles s (a.tileAddr t) (strideOf a.fmt))).flatten.eraseDups

/-- Who asks, for an entry of unit `u`. -/
def askerOf (u : Nat) (e : QEnt) : Asker := ⟨u, e.stream, e.seq, e.parent⟩

/-- Runs a TIER_HINT or a share of one: it makes its requests and completes when each has finished or been declined; detail
counts the Tiles acted on and detail2 those declined (R255) (DESIGN CHOICE, log 18). -/
def runHint (u : Nat) (e : QEnt) (s : State) : State :=
  match e.opd 0 with
  | some a =>
    let me := some (askerOf u e)
    let s := updEnt u e (fun x => { x with phase := .sending, prog := 0, aux := [0] }) s
    hintCheck me (s.each (hintTiles s e a) (request (hintOp e.cmd) (hintTarget e.cmd) me))
  | none => finish u e okFail s

end Sys2Proof.Machine
end

