-- ==== Sys2Proof/Machine/CollectiveRun.lean ====
section
/-! DEFINITION. The collective opcodes at a die or the module (R323 to R347): the packets they send, the contributions of
COL_ACCUM (R331 to R333), the accumulator Folio (R330), taking a result (R341), and the generation fence (R346). -/

namespace Sys2Proof.Machine

/-! ### Fixed point (R332, R333) -/

/-- to_fixed: the integer, whether it is invalid, whether it flushed. -/
def toFixed (x : Val) (e lsb : Int) : Int × Bool × Bool :=
  match x with
  | .fin n m ex =>
    let v : Nat := roundTo .nearest m (ex + e - lsb) 0
    if 2 ^ 89 - 1 < v then (0, true, false)
    else (if n then -(v : Int) else (v : Int), false, v == 0 && m != 0)
  | _ => (0, true, false)

/-- The checksum of a Tile's codes (R333). -/
def contribSum (fmt : Nat) (codes : List Nat) (e lsb : Int) : Nat :=
  codes.foldl (fun a c => (a + toU 64 (toFixed (decodeFloat fmt c) e lsb).1) % 2 ^ 64) 0

/-! ### The accumulator Folio (R330) -/

/-- The Folio address of accumulator Tile `k` of a context. -/
def accAddr (x : RedCtx) (k : Nat) : Nat := (x.base + k) * 65536

def accWord (s : State) (a : Nat) : Nat := s.num (a + 49680) 8
def accState (s : State) (a : Nat) : Nat := bits (accWord s a) 1 0
def accRound (s : State) (a : Nat) : Nat := bits (accWord s a) 15 9
def accValue (s : State) (a i : Nat) : Int := sx 96 (s.num (a + 12 * i) 12)
def accInvalid (s : State) (a i : Nat) : Bool := bit (s.num (a + 49152 + i / 8) 1) (i % 8)

/-- Every byte of the Folio 0: the Tile is EMPTY. -/
def accClear (a : Nat) (s : State) : State :=
  { s with mem := s.mem.filter (fun c => !(decide (a ≤ c.1) && decide (c.1 < a + 65536))) }

/-- An accumulator Tile set EMPTY with fresh check bits, copied first when a Cask still needs it. -/
def accEmpty (a : Nat) (s : State) : State := freshEcc a 65536 (accClear a (copyFirst a 65536 s))

/-- The controller that holds accumulator Tile `k`. -/
def accCtl (x : RedCtx) (k : Nat) : Nat := (x.base + k) % 16

/-- The slice key of a controller's Tun adder (R342). -/
def tunSlice (c : Nat) : Nat := 0xA000 + c / 8 * 0x1000 + c % 8

/-! ### Which commands name what (R328, R329, R346, R348) -/

/-- The reduction context that a command names. -/
def namesCtx (c : BitVec 256) : Option Nat :=
  if cOp c = 0x60 then some (bits (cParam0 c) 20 12) else if cOp c = 0x64 then some (bits (cParam0 c) 8 0) else none

/-- The peer set that a command names. -/
def namesSet (c : BitVec 256) : Option Nat :=
  if cOp c = 0x63 || cOp c = 0x65 then some (bits (cParam0 c) 5 0) else none

/-- A finished command that never reached check 1 (R41, R157, R384): one that waits behind a command of its stream which has not
issued. -/
def refusedBehind (q : List QEnt) (e : QEnt) : Bool :=
  e.phase == .done && (beforeFirst (sameEnt e) q).any (fun x => x.phase == .waiting && x.parent == none && x.stream == e.stream)

/-- Commands past check 1 that have not completed (DEDUCED, log 13). -/
def outstandingCmds (s : State) : List (Nat × QEnt) :=
  (s.units.map (fun u => (u.2.q.filter (fun e => e.phase != .waiting && e.parent == none && !(refusedBehind u.2.q e))).map
    (fun e => (u.1, e)))).flatten

def ctxBusy (s : State) (k : Nat) : Bool := (outstandingCmds s).any (fun x => namesCtx x.2.cmd == some k)

/-- `g` is earlier than `h` modulo 2^16 (R334 row 3). -/
def genEarlier (g h : Nat) : Bool :=
  let d := (h + 65536 - g % 65536) % 65536
  0 < d && d < 32768

/-- The lowest context that holds the generation fence of a permute (R346). -/
def fenceCtx (s : State) (job gen : Nat) : Option Nat :=
  (List.range 512).find? (fun k =>
    let x := s.ctx k
    x.armed && x.job == job && genEarlier x.gen gen &&
    ((List.range x.ntiles).any (fun t => accState s (accAddr x t) != 0) || ctxBusy s k))

/-! ### Sending -/

def aWord (e : QEnt) (i : Nat) : Nat := (e.aux[i]?).getD 0

/-- A packet of a command, its common fields filled. -/
def cmdPacket (s : State) (e : QEnt) (type dest gen : Nat) : Packet :=
  { mkPacket s type dest with job := jobOf s e.cmd, layoutGen := gen, stream := e.stream, seq := e.seq }

/-- The bytes of Tile `t` of an operand, and of its block scales. -/
def tileBytes (s : State) (o : Opd) (t : Nat) : List (BitVec 8) := folioBytes s (o.tileAddr t) (strideOf o.fmt)
def scaleBytes (s : State) (o : Opd) (t n : Nat) : List (BitVec 8) := folioBytes s (o.bsAddr + 128 * t) (128 * n)

def hasScales (o : Opd) : Bool := optScales o.fmt && o.bsEn

/-- WRITE of Tile `t` of A to `addr` at `dest` (R325, R326). -/
def writeTile (u : Nat) (e : QEnt) (a : Opd) (t dest addr gen : Nat) (s : State) : State :=
  sendTracked u { packData (cmdPacket s e ptWrite dest gen) (tileBytes s a t) with addr := addr, sub := tileExp s a t } s

/-- WRITE of the block scales of Tiles `t` to `t + n − 1`. -/
def writeScales (u : Nat) (e : QEnt) (a : Opd) (t n dest addr gen : Nat) (s : State) : State :=
  sendTracked u { packData (cmdPacket s e ptWrite dest gen) (scaleBytes s a t n) with addr := addr } s

/-- Runs of up to 128 consecutive Tiles: first and length. -/
def runs128 (n : Nat) : List (Nat × Nat) := (List.range (ceilDiv n 128)).map (fun i => (128 * i, min 128 (n - 128 * i)))

/-- The first Tile of an operand whose read fails. -/
def firstBadTile (s : State) (o : Opd) : Option (Nat × ReadFail) :=
  (List.range o.tiles).findSome? (fun t => (tileReadFail s o t).map (fun f => (t, f)))

/-- Tiles of A before a failing one are sent; then the command's status stands for its completion. -/
def sendable (s : State) (a : Opd) : Nat := match firstBadTile s a with | some (t, _) => t | none => a.tiles

/-- WRITEs of the sendable Tiles of A into C at `dest`, Tile j to Tile `at0 + j`. -/
def writeAll (u : Nat) (e : QEnt) (a c : Opd) (at0 dest : Nat) (s : State) : State :=
  let n := sendable s a
  let s := s.each (List.range n) (fun t => writeTile u e a t dest (c.tileAddr (at0 + t)) a.gen)
  if hasScales a then
    s.each (runs128 n) (fun r => writeScales u e a r.1 r.2 dest (c.bsAddr + 128 * (at0 + r.1)) a.gen)
  else s

/-- READ_REQs of a gather (R325, R359). -/
def readAll (u : Nat) (e : QEnt) (a c : Opd) (src : Nat) (s : State) : State :=
  let kind := aWord e 0
  let gen := if kind = 0 then a.gen else c.gen
  let sub := if kind = 0 then 0 else if kind = 2 then 1 + 2 * aWord e 1 else 1
  let req := fun (addr len : Nat) (s : State) =>
    sendTracked u { cmdPacket s e ptReadReq src gen with addr := addr, len16 := len / 16, sub := sub } s
  let s := s.each (List.range a.tiles) (fun t => req (a.tileAddr t) (strideOf a.fmt))
  if hasScales a then s.each (runs128 a.tiles) (fun r => req (a.bsAddr + 128 * r.1) (128 * r.2)) else s

/-- The codes of a Tile as a contribution sends them: padding zero (R331). -/
def contribCodes (s : State) (a : Opd) (t : Nat) : List Nat :=
  ((List.range 64).map (fun i => (List.range 64).map (fun j =>
    if a.inside (64 * (t / a.tr) + i) (64 * (t % a.tr) + j) then elemCode s a.fmt (a.tileAddr t) i j else 0))).flatten

/-- The data of an ACCUM in dense or sparse form, and whether it is sparse (R331). -/
def contribData (fmt : Nat) (codes : List Nat) (allow : Bool) : List (BitVec 8) × Bool :=
  let w := if fmt = 6 then 4 else 2
  let dense := (codes.map (fun c => leBytes c w)).flatten
  let nz := codes.filter (· != 0)
  let sparse := leBytes (bitsToNat (codes.map (fun c => b2n (c != 0)))) 512 ++ (nz.map (fun c => leBytes c w)).flatten
  if allow && (padded16 sparse).length < dense.length then (padded16 sparse, true) else (dense, false)

/-- ACCUM of Tile `t` of A (R331). -/
def sendAccum (u : Nat) (e : QEnt) (a : Opd) (t : Nat) (s : State) : State :=
  let p0 := cParam0 e.cmd
  let p1 := cParam1 e.cmd
  let codes := contribCodes s a t
  let ex : Int := (bits a.scaleCode 30 23 : Int) - 127 + tileExp s a t
  let lsb := sx 9 (bits p0 29 21)
  let (data, sparse) := contribData a.fmt codes (bit p0 30)
  sendTracked u { packData (cmdPacket s e ptAccum (bits p0 11 0) a.gen) data with
    target := bits p0 20 12 + e.acc.step % 128 * 512
    addr := (bits p1 25 0 + t) % 2 ^ 26 + toU 9 ex * 2 ^ 26 + bits p0 29 21 * 2 ^ 35 + bits p1 31 26 * 2 ^ 44
    sub := b2n (a.fmt == 6) + 2 * b2n sparse
    checksum := contribSum a.fmt codes ex lsb } s

/-- WRITEs of a move list's entries in order (R345). -/
def sendMoves (u : Nat) (e : QEnt) (a : Opd) (gen : Nat) (s : State) : State :=
  s.each (e.parts.takeWhile (fun m => (tileReadFail s a m.1).isNone)) (fun m s =>
    match m.2 with
    | [dest, addr, bs] =>
      let s := writeTile u e a m.1 dest addr gen s
      if hasScales a then writeScales u e a m.1 1 dest bs gen s else s
    | _ => s)

/-! ### Completing -/

/-- A collective has no packet without an answer. -/
def allAnswered (s : State) (u : Nat) (e : QEnt) : Bool :=
  !(s.outst.any (fun o => o.unit == u && o.stream == e.stream && o.seq == e.seq))

/-- What a collective's OK completion does besides its record: the gather record (R359), the contexts' gen (R347). -/
def collEffects (e : QEnt) (s : State) : State :=
  match e.op, e.opd 2 with
  | 0x61, some c =>
    if aWord e 0 = 1 then fixedWrite (s.reg64 (mapPage + 0xA4) + 8 * c.idx) 8 (c.gen + 65536 + e.acc.step * 2 ^ 32) s else s
  | 0x66, _ =>
    let g := aWord e 0
    s.each (List.range 512) (fun k s =>
      let x := s.ctx k
      if x.armed && x.job == jobOf s e.cmd && genEarlier x.gen g then s.setCtx k { x with gen := g } else s)
  | _, _ => s

/-- A collective completes (R309); packets of it that still wait for answers hold back the TOKENs to their modules (R327). -/
def finishColl (u : Nat) (e : QEnt) (f : Fail) (s : State) : State := finish u e f (if f.status = stOk then collEffects e s else s)

/-- A sending collective completes once every packet is answered, with the status that a failed read gave it. -/
def collCheck (u : Nat) (e : QEnt) (s : State) : State :=
  if e.phase == .sending && allAnswered s u e then finishColl u e ⟨e.status, e.operand, e.detail, e.detail2⟩ s else s

/-! ### Taking a result (R341) -/

/-- Tiles of C taken so far, and those that were BAD. -/
def taken (e : QEnt) : List Nat := e.parts.map (·.1)
def takenBad (e : QEnt) : List Nat := (e.parts.filter (fun x => !x.2.isEmpty)).map (·.1)

/-- Tile `t` of C can be taken: its accumulator Tile is FULL or BAD in the command's round. -/
def takeReady (s : State) (e : QEnt) (t : Nat) : Bool :=
  match e.opd 2 with
  | some c =>
    let x := s.ctx (bits (cParam0 e.cmd) 8 0)
    let a := accAddr x (bits (cParam1 e.cmd) 25 0 + t)
    t < c.tiles && !(taken e).contains t && decide (2 ≤ accState s a) && accRound s a == e.acc.step % 128
  | none => false

/-- Tiles of C that have become ready, in that order, ascending within what became ready together (R341) (DEDUCED, log 153). -/
def readyOrder (s : State) (e : QEnt) : List Nat :=
  match e.opd 2 with
  | some c =>
    let old := e.aux.filter (fun t => !(taken e).contains t)
    old ++ (List.range c.tiles).filter (fun t => takeReady s e t && !old.contains t)
  | none => []

/-- The order in which Tiles become ready is kept at every COL_REDSCAT that takes (DEDUCED, log 153). -/
def noteReady (s : State) : State :=
  s.each (s.units.map (·.1)) (fun u s =>
    if (s.q u).any (fun e => e.phase == .taking) then
      s.setQ u ((s.q u).map (fun e => if e.phase == .taking then { e with aux := readyOrder s e } else e))
    else s)

/-! ### Tiles in the stores of a Forme that is not ON (R446, R448) -/

/-- The unit whose store holds a byte of Tile `k` of an operand, in a Forme that is not ON. -/
def tileSleeps (s : State) (o : Opd) (k : Nat) : Option Nat :=
  match tileAt s (o.tileAddr k) with
  | some t =>
    let e := tileState s t
    if tsTier e ≤ 1 && !(formeOn s (bits (tsLoc e) 15 0)) then some (bits (tsLoc e) 15 0) else none
  | none => none

/-- The units whose stores hold Tiles of an operand, in a Forme that is not ON. -/
def operandSleeps (s : State) (o : Opd) : List Nat := (List.range o.tiles).filterMap (tileSleeps s o)

/-- Those of a mover's or a Tun adder's command. -/
def sleepers (s : State) (e : QEnt) : List Nat :=
  if e.engine == .mover || e.engine == .collective then ((e.ops.filterMap id).map (operandSleeps s)).flatten else []

/-- Tile `t` is the next to take: the first to have become ready, its store's Forme is not asleep, and nothing holds the write or the
conversion (R188, R341, R446). -/
def mayTake (s : State) (e : QEnt) (t : Nat) : Bool :=
  match e.opd 2 with
  | some c =>
    let x := s.ctx (bits (cParam0 e.cmd) 8 0)
    (readyOrder s e).head? == some t && !(writeWaits s c [t]) && !((tileSleeps s c t).any (formeGated s)) &&
      !(hydHolding s (tunSlice (accCtl x (bits (cParam1 e.cmd) 25 0 + t))))
  | none => false

/-- Takes one Tile: converts a FULL one, skips a BAD one, empties the accumulator Tile; completes after the last. An accumulator Tile
that cannot be read, or a store behind a failed wake, ends the command (R265, R448) (DESIGN CHOICE, log 178). -/
def takeTile (u : Nat) (e : QEnt) (t : Nat) (s : State) : State :=
  match e.opd 2 with
  | some c =>
    let k := bits (cParam0 e.cmd) 8 0
    let x := s.ctx k
    let n := bits (cParam1 e.cmd) 25 0 + t
    let a := accAddr x n
    match tileSleeps s c t with
    | some v => finish u e ⟨stWakeTo, 0, 0, 0⟩ (countWakeTo v s)
    | none =>
    if s.badIn a 65536 then finish u e ⟨stEcc, 0, n, 0⟩ (noteEcc a 65536 s)
    else
    let s := correctRead a 65536 s
    let bad := accState s a == 3
    let val := fun (i r : Nat) =>
      let el := (i % 64) * 64 + r % 64
      if accInvalid s a el then .nan false else (ofInt (accValue s a el)).scale x.lsbExp
    let conv : ConvCtx := ⟨e.acc.seed, e.acc.step, 0⟩
    let s1 :=
      if bad then scrambleTile c t s
      else emitTile (tunSlice (accCtl x n)) c conv val (t / c.tr) (t % c.tr) s
    let s2 := accEmpty a s1
    let s3 := updEnt u e (fun y => { y with parts := y.parts ++ [(t, if bad then [n] else [])], since := s.time }) s2
    let e3 := entOf s3 u e
    if (taken e3).length < c.tiles then s3
    else
      match takenBad e3 with
      | [] => finish u e3 okFail s3
      | _ =>
        let first := ((e3.parts.filter (fun y => !y.2.isEmpty)).map (fun y => (y.2[0]?).getD 0)).headD 0
        finish u e3 ⟨stChecksum, 0, x.gen + k * 65536, first⟩ s3
  | none => s

/-- Takes every Tile that is ready, in the order of becoming so. -/
def takeAll (u : Nat) (e : QEnt) (s : State) : State :=
  s.each (readyOrder s e) (fun t s =>
    let e := entOf s u e
    if e.phase == .taking && mayTake s e t then takeTile u e t s else s)

/-! ### Starting -/

/-- Modules at which the output token is due (R327): the destinations of its packets. -/
def destModules (s : State) (e : QEnt) : List Nat :=
  match e.op with
  | 0x60 => [bits (cParam0 e.cmd) 11 0]
  | 0x61 => [bits (cParam0 e.cmd) 11 0]
  | 0x62 => [bits (cParam0 e.cmd) 11 0]
  | 0x63 => ((psetMembers s (cParam0 e.cmd)).filter (· != selfId s)).eraseDups ++ [selfId s]
  | 0x65 => (psetMembers s (cParam0 e.cmd)).eraseDups
  | 0x66 => (e.parts.map (fun m => (m.2[0]?).getD 0)).eraseDups
  | _ => []

/-- The modules to which a COL_ALLGATHER or a COL_BCAST writes: the members of its peer set in order (R324). -/
def destMembers (s : State) (e : QEnt) : List Nat :=
  if e.op = 0x63 then (psetMembers s (cParam0 e.cmd)).filter (· != selfId s) ++ [selfId s] else psetMembers s (cParam0 e.cmd)

/-- The failing read of a collective's source, as its status. -/
def sourceFail (s : State) (e : QEnt) : Fail :=
  match e.op, e.opd 0 with
  | 0x61, _ => okFail
  | 0x66, some a =>
    match e.parts.findSome? (fun m => (tileReadFail s a m.1).map (fun f => (m.1, f))) with
    | some (t, f) => readStatus e 1 t f
    | none => okFail
  | _, some a => match firstBadTile s a with | some (t, f) => readStatus e 1 t f | none => okFail
  | _, none => okFail

/-- The Tiles of A that a collective reads in this module. -/
def sourceReads (s : State) (e : QEnt) : List (Nat × Nat) :=
  match e.op, e.opd 0 with
  | 0x61, _ => []
  | 0x66, some _ => (e.parts.takeWhile (fun m => match e.opd 0 with | some a => (tileReadFail s a m.1).isNone | none => false)).map (fun m => (1, m.1))
  | _, some a => (List.range (sendable s a)).map (fun t => (1, t))
  | _, none => []

/-- What a held entry is to read, of the operands that its engine takes: the source of a collective, the Tiles of its passes or of
its work. -/
def heldReads (e : QEnt) : List (Nat × Nat) :=
  match e.engine, e.opd 0, e.opd 1 with
  | .array, some a, some b => passReads e (cOrient e.cmd) a b
  | .collective, some a, _ =>
    if e.op = 0x61 then [] else if e.op = 0x66 then e.parts.map (fun m => (1, m.1)) else (List.range a.tiles).map (fun t => (1, t))
  | .vector, _, _ => workReads e
  | .mover, _, _ => if e.op = 0x42 then [] else workReads e
  | _, _, _ => []

/-- The packets of a collective. -/
def sendColl (u : Nat) (e : QEnt) (s : State) : State :=
  let p0 := cParam0 e.cmd
  match e.op, e.opd 0, e.opd 2 with
  | 0x60, some a, _ => s.each (List.range (sendable s a)) (sendAccum u e a)
  | 0x61, some a, some c => readAll u e a c (bits p0 11 0) s
  | 0x62, some a, some c => writeAll u e a c 0 (bits p0 11 0) s
  | 0x63, some a, some c => s.each (destMembers s e) (writeAll u e a c (bits (cParam1 e.cmd) 25 0))
  | 0x65, some a, some c => s.each (destMembers s e) (writeAll u e a c 0)
  | 0x66, some a, _ => sendMoves u e a (aWord e 0) s
  | _, _, _ => s

/-- A held collective that nothing holds starts: it sends its packets, or takes what is ready (R346 holds a permute). -/
def runColl (u : Nat) (e : QEnt) (s : State) : State :=
  if e.op = 0x64 then
    let s1 := updEnt u e (fun x => { x with phase := .taking, since := s.time, aux := [] }) s
    takeAll u (entOf s1 u e) s1
  else
    let f := sourceFail s e
    let mods := destModules s e
    let s1 := updEnt u e (fun x => { x with phase := .sending, status := f.status, operand := f.operand, detail := f.detail,
                                            detail2 := f.detail2, aux := [aWord e 0, aWord e 1] ++ mods }) s
    let s2 := if f.status = stEcc then readEffects e 1 f.detail s1 else s1
    let e2 := entOf s2 u e
    let s3 := sendColl u e2 (touchReads e2 (sourceReads s2 e2) s2)
    collCheck u (entOf s3 u e) (promoteReads e2 (sourceReads s2 e2) (readsOver e2 (heldReads e) s3))

/-- The generation fence holds a permute (R346). -/
def fenceHolds (s : State) (e : QEnt) : Bool := e.op == 0x66 && (fenceCtx s (jobOf s e.cmd) (aWord e 0)).isSome


/-! ### What any unit can start -/

/-- A held vector, mover or collective entry that can go on now. -/
def canStart (s : State) (u : Nat) (e : QEnt) : Bool :=
  !(readsWait s e (heldReads e)) &&
  match e.engine with
  | .vector => engineHead s u .vector == some e && mayRun s u e && !(hydHolding s u)
  | .mover => engineHead s u .mover == some e && (if e.op = 0x42 then e.phase == .held && e.needs.isEmpty && formeOn s u &&
      !(clockStopped s u) && !(s.stopped && e.parent.isNone) else mayRun s u e && !(hydHolding s u))
  | .collective => e.phase == .held && e.needs.isEmpty && !s.stopped && !(fenceHolds s e) &&
      !(e.op == 0x61 && (match e.opd 2 with | some c => writeWaits s c (List.range c.tiles) | none => false))
  | _ => false

/-- The entry's engine runs it; a Tile behind a failed wake ends it with WAKE_TIMEOUT, a hint goes on without it. -/
def startEnt (u : Nat) (e : QEnt) (s : State) : State :=
  match e.op == 0x42, sleepers s e with
  | false, v :: _ =>
    if e.engine == .collective then finishColl u e ⟨stWakeTo, 0, 0, 0⟩ (countWakeTo v s) else finish u e ⟨stWakeTo, 0, 0, 0⟩ (countWakeTo v s)
  | _, _ =>
    match e.engine with
    | .collective => runColl u e s
    | _ => if e.op = 0x42 then runHint u e s else runVector u e s

/-- The first entry of any unit that can start: no Tile of it lies behind a wake. -/
def firstStart (s : State) : Option (Nat × QEnt) :=
  s.units.findSome? (fun u =>
    (u.2.q.find? (fun e => canStart s u.1 e && !((sleepers s e).any (formeGated s)))).map (fun e => (u.1, e)))

/-- The units whose stores an entry needs now and finds asleep: of one that could start, or of the next Tile that it would take. -/
def needsAwake (s : State) (u : Nat) (e : QEnt) : List Nat :=
  if e.phase == .taking then
    match e.opd 2, (readyOrder s e).head? with
    | some c, some t => (tileSleeps s c t).toList
    | _, _ => []
  else if canStart s u e then sleepers s e
  else []

/-- Entries wake the Formes whose stores they need, with source 6. -/
def wakeStores (s : State) : State :=
  s.units.foldl (fun t u => ((u.2.q.map (needsAwake s u.1)).flatten).foldl (fun t v => startWake v 6 u.1 t) t) s

/-- Held entries that lack no token ask lenders for the remote Tiles that they are to read (R262) (DESIGN CHOICE, log 38). -/
def askLenders (s : State) : State :=
  if s.tiers.leases.isEmpty then s
  else
    s.each s.units (fun u s => s.each (u.2.q.filter (fun e => e.phase == .held && e.needs.isEmpty)) (fun e s =>
      onReads askRemote e (heldReads e) s))

/-- Starts what can start, `n` entries at most. -/
def pump : Nat → State → State
  | 0, s => s
  | n + 1, s =>
    match firstStart s with
    | some (u, e) => pump n (startEnt u e s)
    | none => s

/-- Every engine but the arrays goes on as far as it can (DESIGN CHOICE, log 5). -/
def settle (s : State) : State :=
  let s := wakeStores (askLenders (noteReady (sendDirty s)))
  pump (s.units.foldl (fun n u => n + u.2.q.length) 0) s

end Sys2Proof.Machine
end

