-- ==== Sys2Proof/Machine/Engine.lean ====
section
/-! DEFINITION. Engine commands at a unit: acceptance of the command at the head of its issue queue (R168 to R171, R181, R258,
R352 to R354), division among members (R24 to R27), the array's own events (R90 to R98), reports of shares (R29) and
timeouts (R289, R290). -/

namespace Sys2Proof.Machine

/-! ### Division (R24, R25, R353) -/

/-- Share `i` of `n` of a range of Tiles (R24). -/
def subRange (r : Nat × Nat) (i n : Nat) : Nat × Nat :=
  (r.1 + i * (r.2 / n) + min i (r.2 % n), r.2 / n + if i < r.2 % n then 1 else 0)

/-- The range that a split rule divides: 0 ROW, 1 COL, 2 RED. -/
def divide (split i n : Nat) (e : QEnt) : QEnt :=
  match split with
  | 0 => { e with rows := subRange e.rows i n }
  | 1 => { e with cols := subRange e.cols i n }
  | _ => { e with reds := subRange e.reds i n }

/-- Tiles that remain along the divided dimension. -/
def divided (split : Nat) (e : QEnt) : Nat := if split = 0 then e.rows.2 else if split = 1 then e.cols.2 else e.reds.2

/-- The gang share of a command addressed to the module (R353). -/
def narrow (s : State) (u : Nat) (e : QEnt) : QEnt :=
  if u = modulePath && e.engine != .collective then
    match mapOf s (jobOf s e.cmd) with
    | some m => if m.gangEn then divide (if m.gangSplit = 1 then 1 else 0) m.self m.gsize e else e
    | none => e
  else e

/-! ### What an accepted command takes and covers -/

/-- Step (that of the hold for a re-entered command, R396), loss scale, numeric controls and seed (R181, R217, R218, R220). -/
def acceptOf (s : State) (e : QEnt) : Accept :=
  ⟨e.keep.getD (s.regN (govPage + 0x88)), s.fld govPage Fld.PTG_LSCALE.ls_exp, s.regN (govPage + 0x100),
   (SMap.get (fun _ => (0 : BitVec 64)) s.gov.seeds (jobOf s e.cmd)).toNat⟩

/-- The whole ranges of a command from its operands. -/
def wholeRanges (op : Nat) (ops : List (Option Opd)) : (Nat × Nat) × (Nat × Nat) × (Nat × Nat) :=
  match ops with
  | [a, _, some c] =>
    let red := match a with | some a => a.tr | none => 0
    if op = 0x23 then ((0, c.to), (0, 1), (0, red)) else ((0, c.to), (0, c.tr), (0, red))
  | [some a, _, none] => ((0, a.to), (0, a.tr), (0, 0))
  | _ => ((0, 0), (0, 0), (0, 0))

/-- The Tiles an entry reads, with their operand numbers. -/
def entryReads (e : QEnt) : List (Nat × Nat) :=
  match e.engine, e.opd 0, e.opd 1 with
  | .array, some a, some b => passReads e (cOrient e.cmd) a b
  | .collective, some a, _ => if e.op = 0x61 then [] else (List.range a.tiles).map (fun t => (1, t))
  | .collective, none, _ => []
  | _, _, _ =>
    if e.op = 0x42 then (match e.opd 0 with | some a => (outTiles e a).map (fun t => (1, t)) | none => [])
    else ((workList e).map (fun w => vecReads e w.1 (w.2.headD 0))).flatten

/-- Step 1 of R258 over the Tiles an entry reads or writes, in the order A, B, C. -/
def jobCheck (s : State) (e : QEnt) : Option Fail :=
  let job := jobOf s e.cmd
  let reads := entryReads e
  let one := fun (n : Nat) =>
    match e.opd (n - 1) with
    | some o =>
      let ts := (reads.filter (fun r => r.1 == n)).map (·.2) ++
        ((entryWrites e).filter (fun w => w.1 == n)).foldl (fun l w => l ++ w.2.2) []
      if (tilesUnder s o ts).any (fun t => t.reg.job != job) then some (⟨stPrivilege, n, o.idx, 0⟩ : Fail) else none
    | none => none
  [1, 2, 3].findSome? one

/-- Bytes of an operand's Tiles overlap bytes of another's (DEDUCED, log 13). -/
def bytesMeet (o : Opd) (ts : List Nat) (p : Opd) (ps : List Nat) : Bool :=
  let rs := fun (o : Opd) (ts : List Nat) =>
    ts.map (fun t => (o.tileAddr t, strideOf o.fmt)) ++ (if hasScales o then ts.map (fun t => (o.bsAddr + 128 * t, 128)) else [])
  overlap (rs o ts) (rs p ps)

/-- Tokens that an entry waits on (R90): those of accepted commands that have not completed and write what it reads
(DEDUCED, log 13). -/
def needsOf (s : State) (e : QEnt) : List (Nat × Nat) :=
  let reads := entryReads e
  ((outstandingCmds s).filter (fun x => !(x.2.stream == e.stream && x.2.seq == e.seq) &&
    (entryWrites x.2).any (fun w => [1, 2, 3].any (fun n =>
      match e.opd (n - 1) with
      | some o => bytesMeet w.2.1 w.2.2 o ((reads.filter (fun r => r.1 == n)).map (·.2))
      | none => false)))).map (fun x => (x.2.stream, x.2.seq))

/-! ### Dispatch (R16, R24 to R27) -/

/-- A share or command in a Chase's engine stage, or ended at once by a fence (R34), a failed wake (R448) or a missing table
buffer (R114). -/
def chaseEntry (s : State) (ch : Nat) (e : QEnt) : QEnt :=
  if formeTested s ch then { e with phase := .done, status := stConflict }
  else if isFenced s ch then { e with phase := .done, status := stAbortFault }
  else if formeState s ch = 3 then { e with phase := .done, status := stWakeTo }
  else if noTable s ch e then { e with phase := .done, status := stConflict }
  else { e with phase := .held }

/-- The member's share of an entry at unit `u`. -/
def shareOf (u : Nat) (e : QEnt) (i n : Nat) : QEnt :=
  divide (cSplit e.cmd) i n { e with parent := some u, issuer := none, parts := [], firstFail := none, left := 0 }

/-- Shares of an entry at `u` with at least one Tile: member and share (R25). -/
def sharesOf (u : Nat) (e : QEnt) : List (Nat × QEnt) :=
  let ms := members u
  ((List.zip (List.range ms.length) ms).map (fun (i, m) => (m, shareOf u e i ms.length))).filter
    (fun x => decide (0 < divided (cSplit e.cmd) x.2))

/-- Counts shares that a dispatcher sends (R404). -/
def countShares (u : Nat) (c : BitVec 256) (n : Nat) (s : State) : State :=
  if pathLevel u ≤ 2 then s.bump (unitPage u) 1 n else s.bump (dieTopPage (homeDie u c)) 7 n

/-- Hands a share to a member, and on down to the Chases. -/
def sendShare : Nat → Nat → QEnt → State → State
  | 0, m, e, s => startWake m 1 (e.parent.getD modulePath)
      ((s.setQ m (s.q m ++ [chaseEntry s m e])).when (formeState s m == 3) (countWakeTo m))
  | k + 1, m, e, s =>
    if pathLevel m = 0 then startWake m 1 (e.parent.getD modulePath)
      ((s.setQ m (s.q m ++ [chaseEntry s m e])).when (formeState s m == 3) (countWakeTo m))
    else if formeTested s m then s.setQ m (s.q m ++ [{ e with phase := .done, status := stConflict }])
    else
      let l := sharesOf m e
      let s := startWake m 1 (e.parent.getD modulePath) (s.setQ m (s.q m ++ [{ e with phase := .split, left := l.length }]))
      (countShares m e.cmd l.length s).each l (fun x s => sendShare k x.1 x.2 s)

/-- Every Chase at or below `u` with work in its array stage goes on as far as it can. -/
def tryArrays (u : Nat) (s : State) : State :=
  s.each ((s.units.map (·.1)).filter (fun p => pathLevel p == 0 && contains u p)) tryArray

/-- An accepted entry goes to its engine (R91) or is divided (R24, R159) (DESIGN CHOICE, log 5). -/
def dispatch (u : Nat) (e : QEnt) (s : State) : State :=
  if e.engine == .collective then settle (updEnt u e (fun _ => { e with phase := .held }) s)
  else if pathLevel u = 0 then
    let e' := chaseEntry s u e
    let s1 := updEnt u e (fun _ => e') s
    if e'.phase == .done then finish u e' ⟨e'.status, 0, 0, 0⟩ s1 else settle (tryArray u s1)
  else
    let l := sharesOf u e
    let s1 := updEnt u e (fun _ => { e with phase := .split, left := l.length }) s
    let s2 := (countShares u e.cmd l.length s1).each l (fun x s => sendShare (pathLevel u) x.1 x.2 s)
    settle (tryArrays u s2)

/-! ### Acceptance -/

/-- What its own chapter adds to the command's entry: the gather's kind (R359), the move list (R345). -/
def ownWords (s : State) (e : QEnt) : QEnt :=
  match e.op, e.opd 2 with
  | 0x61, some c =>
    let re := match mapOf s (jobOf s e.cmd) with | some m => b2n m.regather | none => 0
    let kind := if !c.checkGen then 0 else if recordCurrent (gatherRecord s c.idx) e.acc.step then 2 else 1
    { e with aux := [kind, re] }
  | 0x66, _ =>
    let list := moveList e.cmd
    { e with
      aux := [folioNum s list 2, 0]
      parts := (List.range (folioNum s (list + 2) 3)).map (fun i =>
        let m := moveEntry s list i
        (m.1, [m.2.1, m.2.2.1, m.2.2.2.1])) }
  | _, _ => e

/-- The checks beyond the table that an opcode's own chapter adds (R340, R345). -/
def ownCheck (s : State) (e : QEnt) : Option Fail :=
  if e.op = 0x64 then redscatCheck s e.cmd e.ops else if e.op = 0x66 then permuteCheck s e.cmd e.ops else none

/-- A command addressed to the module while the bridge is down (R41). -/
def overBridge (s : State) (u : Nat) : Bool := u == modulePath && bridgeDown s

def linkDown : Fail := ⟨stLinkDown, 0, 0, 0⟩

/-- The bytes of the move list of a COL_PERMUTE (R345). -/
def listBytes (s : State) (c : BitVec 256) : Nat := 32 + 32 * folioNum s (moveList c + 2) 3

/-- A move list that cannot be read is recorded (R265). -/
def noteList (e : QEnt) (f : Fail) (s : State) : State :=
  s.when (e.op == 0x66 && f.status == stEcc) (noteEcc (moveList e.cmd) (listBytes s e.cmd))

/-- A command that passed the table: its own checks, the job of its regions, the gang share (R353), allocation (R258), then its engine. -/
def acceptRun (u : Nat) (e : QEnt) (s : State) : State :=
  match ownCheck s e with
  | some f => finish u e f (noteList e f s)
  | none =>
    let whole := wholeRanges e.op e.ops
    let e1 := narrow s u (ownWords s { e with rows := whole.1, cols := whole.2.1, reds := whole.2.2 })
    if u = modulePath && e.engine != .collective && (e1.rows.2 = 0 || e1.cols.2 = 0) then finish u e okFail s
    else
      match jobCheck s e1 with
      | some f => finish u e f s
      | none =>
        if pathLevel u = 0 && noTable s u e then finish u e ⟨stConflict, 0, 0, 0⟩ s
        else
        match allocOutputs (entryWrites e1) s with
        | .error f => finish u e f s
        | .ok s1 => dispatch u { e1 with needs := needsOf s1 e1, since := s.time } s1

/-- The descriptors and slots that a command reads, and the move list of a COL_PERMUTE: their correctable words are corrected (R161,
R263, R345). -/
def readDescs (u : Nat) (e : QEnt) (s : State) : State :=
  let d := homeDie u e.cmd
  let s := s.when (e.op == 0x66) (touch (moveList e.cmd) (listBytes s e.cmd))
  s.each ((List.range 3).filter (cUse e.cmd)) (fun i s =>
    let o := readOpd s d (cDesc e.cmd i)
    (touch (descAddr s d o.idx) 64 s).when (o.slotIdx != 0xFFFF) (fun s => touch (slotAddr s d o.slotIdx) 32 s))

/-- An uncorrectable descriptor or slot that checks 6 and 9 have met is counted and recorded (R265). -/
def noteReject (u : Nat) (e : QEnt) (f : Fail) (s : State) : State :=
  let d := homeDie u e.cmd
  if f.status != stEcc then s
  else if f.operand = 4 then noteEcc (slotAddr s d (readOpd s d f.detail2).slotIdx) 32 s
  else noteEcc (descAddr s d f.detail2) 64 s

/-- The entry of a no-op: a COL_PERMUTE of no Tiles ends OK with the new_gen of its list (R347). -/
def noopEnt (s : State) (e : QEnt) : QEnt := if e.op = 0x66 then { e with aux := [folioNum s (moveList e.cmd) 2, 0] } else e

/-- The unit accepts the command at its head: the step is taken, the checks are made; a no-op completes OK even at a module whose
bridge is down (R168, R169, R181) (DEDUCED, log 12; DESIGN CHOICE, log 164). -/
def accept (u : Nat) (e : QEnt) (s : State) : State :=
  let acc := acceptOf s e
  let e1 := { e with acc := acc }
  let s1 := updEnt u e (fun _ => e1) s
  if formeState s u = 3 then finish u e1 ⟨stWakeTo, 0, 0, 0⟩ (countWakeTo u s1)
  else if formeTested s u then finish u e1 ⟨stConflict, 0, 0, 0⟩ s1
  else if isFenced s u then finish u e1 ⟨stAbortFault, 0, 0, 0⟩ s1
  else
    match issueChecks s u acc.step e.cmd with
    | .reject f => finish u e1 f (noteReject u e1 f s1)
    | .noop => finish u e1 okFail (collEffects (noopEnt s1 e1) s1)
    | .run =>
      if overBridge s u then finish u e1 linkDown s1
      else
      let e2 := { e1 with ops := readOps s u e.cmd }
      acceptRun u e2 (updEnt u e (fun _ => e2) (readDescs u e1 s1))

/-- Issue is held: a step boundary (R203), a Stop-press (R384), a gated Forme (R446), a WAIT's depth (R146). -/
def issueHeld (s : State) (u : Nat) : Bool :=
  s.flag govPage Fld.PTG_STATUS.busy || s.stopped || formeGated s u || clockStopped s u

/-- The command at the head of the unit's issue queue, when it is `op` (or no opcode at all), is accepted (DEDUCED, log 12). -/
def runHead (op u : Nat) (s : State) : State :=
  match headOf s u with
  | some e => if (e.op == op || (opInfo e.op).isNone) && !(issueHeld s u) then settle (accept u e s) else s
  | none => s

/-! ### The engine commands, one meaning each -/

def execNop (u : Nat) (s : State) : Host.Outcome State Fault Refusal := .next (runHead 0x00 u s)
def execMul (u : Nat) (s : State) : Host.Outcome State Fault Refusal := .next (runHead 0x01 u s)
def execMulB1 (u : Nat) (s : State) : Host.Outcome State Fault Refusal := .next (runHead 0x02 u s)
def execMulLut (u : Nat) (s : State) : Host.Outcome State Fault Refusal := .next (runHead 0x03 u s)
def execMulBsr (u : Nat) (s : State) : Host.Outcome State Fault Refusal := .next (runHead 0x04 u s)
def execVecMap1 (u : Nat) (s : State) : Host.Outcome State Fault Refusal := .next (runHead 0x20 u s)
def execVecMap2 (u : Nat) (s : State) : Host.Outcome State Fault Refusal := .next (runHead 0x21 u s)
def execVecFma (u : Nat) (s : State) : Host.Outcome State Fault Refusal := .next (runHead 0x22 u s)
def execVecReduce (u : Nat) (s : State) : Host.Outcome State Fault Refusal := .next (runHead 0x23 u s)
def execVecSoftmax (u : Nat) (s : State) : Host.Outcome State Fault Refusal := .next (runHead 0x24 u s)
def execVecMask (u : Nat) (s : State) : Host.Outcome State Fault Refusal := .next (runHead 0x25 u s)
def execVecTopk (u : Nat) (s : State) : Host.Outcome State Fault Refusal := .next (runHead 0x26 u s)
def execMov (u : Nat) (s : State) : Host.Outcome State Fault Refusal := .next (runHead 0x40 u s)
def execFill (u : Nat) (s : State) : Host.Outcome State Fault Refusal := .next (runHead 0x41 u s)
/-- One engine command each, run from the head of the unit's queue of its class (DESIGN CHOICE, log 18). -/
def execTierHint (u : Nat) (s : State) : Host.Outcome State Fault Refusal := .next (runHead 0x42 u s)
def execColAccum (u : Nat) (s : State) : Host.Outcome State Fault Refusal := .next (runHead 0x60 u s)
def execColGather (u : Nat) (s : State) : Host.Outcome State Fault Refusal := .next (runHead 0x61 u s)
def execColScatter (u : Nat) (s : State) : Host.Outcome State Fault Refusal := .next (runHead 0x62 u s)
def execColAllgather (u : Nat) (s : State) : Host.Outcome State Fault Refusal := .next (runHead 0x63 u s)
def execColRedscat (u : Nat) (s : State) : Host.Outcome State Fault Refusal := .next (runHead 0x64 u s)
def execColBcast (u : Nat) (s : State) : Host.Outcome State Fault Refusal := .next (runHead 0x65 u s)
def execColPermute (u : Nat) (s : State) : Host.Outcome State Fault Refusal := .next (runHead 0x66 u s)

/-! ### The array's events -/

/-- ARRAY_ISSUE: the head command issues when the table Array issue conditions holds; a pass on the active block needs no
load and runs (R90, R93, R96). -/
def arrayIssue (ch : Nat) (s : State) : State :=
  match engineHead s ch .array with
  | some e =>
    if arrayReady s ch e then
      let s1 := issueArray ch e s
      if needsNoLoad s ch e then settle (runIssued ch s1) else s1
    else s
  | none => s

def execArrayIssue (ch : Nat) (s : State) : Host.Outcome State Fault Refusal := .next (arrayIssue ch s)

/-- LIGATURE_FENCE: the head command needs another configuration, and the last row of the one before has entered the de-quantiser
(R97, R107). -/
def ligatureFence (ch : Nat) (s : State) : State :=
  match engineHead s ch .array, headNeed s ch with
  | some e, some n =>
    if e.phase == .held && !(s.arr ch).fence && !(clockStopped s ch) && !(cfgMatches (s.arr ch) n) && (s.arr ch).due.isEmpty then
      s.setArr ch { s.arr ch with fence := true, next := (n.1, fenceRun (cfgOf s ch e) e.op n, n.2.2) }
    else s
  | _, _ => s

def execLigatureFence (ch : Nat) (s : State) : Host.Outcome State Fault Refusal := .next (ligatureFence ch s)

/-- LIGATURE_FENCE_DONE: the array takes the new configuration; both registers are invalid (R98). -/
def ligatureFenceDone (ch : Nat) (s : State) : State :=
  let x := s.arr ch
  if x.fence && !(clockStopped s ch) then
    (s.setArr ch { x with fence := false, width := x.next.1, run := x.next.2.1, mode := x.next.2.2, active := none,
                          shadow := none, shadowLoading := false }).bump (unitPage ch) 14 1
  else s

def execLigatureFenceDone (ch : Nat) (s : State) : Host.Outcome State Fault Refusal := .next (ligatureFenceDone ch s)

/-- SHADOW_LOAD_DONE: the issued command's block is valid; its passes run to the end once nothing holds them (R93, R94, R76,
R116). -/
def shadowLoadDone (ch : Nat) (s : State) : State :=
  match engineHead s ch .array with
  | some e =>
    if e.phase == .issued && (s.arr ch).shadowLoading && !(clockStopped s ch) then settle (runIssued ch (blockThere ch s)) else s
  | none => s

def execShadowLoadDone (ch : Nat) (s : State) : Host.Outcome State Fault Refusal := .next (shadowLoadDone ch s)

/-- OPERAND_READ_ERROR: a word of Tile `t` of operand `op` (1 A, 2 B) of the issued command cannot be corrected (R92). -/
def operandReadError (ch op t : Nat) (s : State) : State :=
  match engineHead s ch .array with
  | some e =>
    if e.phase == .issued then
      match (if 1 ≤ op && op ≤ 2 then e.opd (op - 1) else none) with
      | some o =>
        if (entryReads e).contains (op, t) && !(clockStopped s ch) then
          settle (runIssued ch (blockThere ch (s.setEcc (physKey s (o.tileAddr t)) 2)))
        else s
      | none => s
    else s
  | none => s

def execOperandReadError (ch op t : Nat) (s : State) : Host.Outcome State Fault Refusal := .next (operandReadError ch op t s)

/-! ### Shares and completion -/

/-- The parent is a RED split of an array command that this dispatcher converts: no further dispatcher does. -/
def convertsHere (p : QEnt) : Bool := p.engine == .array && cSplit p.cmd == 2 && p.parent.isNone

/-- A dispatcher whose shares have all reported (R26, R29): a RED split that failed writes no output, so that what its regions
hold is undefined (DESIGN CHOICE, log 15). -/
def shareEnd (d : Nat) (p : QEnt) (s : State) : State :=
  if p.status != stOk then
    finish d p ⟨p.status, p.operand, p.detail, p.detail2⟩ (s.when (convertsHere p) (scrambleOut p))
  else if p.op = 0x42 then finish d p ⟨0, 0, p.prog, (p.aux[0]?).getD 0⟩ s
  else if p.engine == .array && cSplit p.cmd = 2 then
    let raws := combineParts p.op p.parts
    let s := if pathLevel d ≤ 2 then s.bump (unitPage d) 3 1 else s.bump (dieTopPage (homeDie d p.cmd)) 9 1
    if p.parent.isSome then finish d p okFail (updEnt d p (fun x => { x with parts := [(0, raws)] }) s)
    else
      let (s1, ex) := convertCombined d p raws s
      match ex with
      | some (k, t) => finish d p ⟨stRecompute, 0, k, t⟩ (countExhausted (sliceOf d) (wholeWritten p s1))
      | none => finish d p okFail (wholeWritten p s1)
  else finish d p okFail s

/-- A failed share whose outputs are undefined (R29): not one that its own members have reported, nor one that ran to its end
in RECOMPUTE_EXHAUSTED, whose last conversion stands (R223). -/
def leavesUndefined (e : QEnt) : Bool :=
  e.status != stOk && e.status != stRecompute && e.firstFail.isNone && !(isPartial e)

/-- The report would let the dispatcher convert a RED split whose writes or measures must wait (R188, R253, R376). -/
def convertWaits (s : State) (d : Nat) (p : QEnt) : Bool :=
  decide (p.left ≤ 1) && convertsHere p && (writesWait s p || hydHolding s (sliceOf d))

/-- SHARE_COMPLETE: a member reports a finished share to its dispatcher (R29). -/
def shareComplete (member stream seq : Nat) (s : State) : State :=
  match (s.q member).find? (fun e => e.phase == .done && e.parent.isSome && e.stream == stream && e.seq == seq) with
  | none => s
  | some e =>
    let d := e.parent.getD 0
    if (match parentOf s d e with | some p => convertWaits s d p | none => false) then s
    else
    let s1 := dropShare member e s
    let s2 := if leavesUndefined e then scrambleOut e s1 else s1
    match parentOf s2 d e with
    | none => s2
    | some p =>
      let idx := ((List.zip (List.range (members d).length) (members d)).find? (fun x => x.2 == member)).map (·.1) |>.getD 0
      let p' := mergeShare s.time member idx e p
      let s3 := updEnt d p (fun _ => p') s2
      let s4 := s3.when (e.status != stOk)
        (logItem (unitPage (if d = modulePath then diePath (homeDie d e.cmd) else d)) e.status member e.seq)
      if p'.left = 0 then settle (shareEnd d p' s4) else s4

def execShareComplete (member stream seq : Nat) (s : State) : Host.Outcome State Fault Refusal :=
  .next (shareComplete member stream seq s)

/-- COMPLETION_RELEASE: the first finished command of the unit that may leave does (R171). -/
def completionRelease (u : Nat) (s : State) : State :=
  match (s.q u).find? (fun e => e.phase == .done && e.parent == none && inOrder s u e) with
  | some e => settle (release u e s)
  | none => s

def execCompletionRelease (u : Nat) (s : State) : Host.Outcome State Fault Refusal := .next (completionRelease u s)

/-! ### Timeouts (R289 to R291) -/

/-- The die whose timeouts a unit uses. -/
def timeoutDie (u : Nat) (e : QEnt) : Nat := homeDie u e.cmd

def tokLimit (s : State) (d : Nat) : Nat := max 1024 (s.regN (streamPage d + 0x90))
def credLimit (s : State) (d : Nat) : Nat := max 1024 (s.regN (streamPage d + 0x94))

/-- `limit` ticks are over since tick `t`: what arrives in the tick of expiry still counts (R137, R289). -/
def overdue (s : State) (t limit : Nat) : Bool := decide (t + limit < s.time)

/-- TOKEN_TIMEOUT: a command held on a token for STM_TOK_TO ticks (R289) (DESIGN CHOICE, log 4). -/
def tokenTimeout (u : Nat) (s : State) : State :=
  match (s.q u).find? (fun e => e.phase == .held && !e.needs.isEmpty && overdue s e.since (tokLimit s (timeoutDie u e))) with
  | some e =>
    let n := e.needs.headD (0, 0)
    onTimeout (timeoutDie u e) e.stream e.seq (fun s => settle (finish u e ⟨stTokenTo, 0, n.1, n.2⟩ s)) s
  | none => s

def execTokenTimeout (u : Nat) (s : State) : Host.Outcome State Fault Refusal := .next (tokenTimeout u s)

/-- CREDIT_TIMEOUT: the head array command has lacked output credits for STM_CRED_TO ticks; the port awaited is the one that
takes its credits (R290) (DEDUCED, log 14; DESIGN CHOICE, log 4). -/
def creditTimeout (u : Nat) (s : State) : State :=
  match engineHead s u .array with
  | some e =>
    if e.phase == .held && !(creditsIn s u e) &&
        (match e.credAt with | some t => overdue s t (credLimit s (timeoutDie u e)) | none => false) then
      onTimeout (timeoutDie u e) e.stream e.seq (fun s => settle (finish u e ⟨stCreditTo, 0, creditUnit u e, 0⟩ s)) s
    else s
  | none => s

def execCreditTimeout (u : Nat) (s : State) : Host.Outcome State Fault Refusal := .next (creditTimeout u s)

/-! ### Collective events -/

/-- REDSCAT_TAKE_TILE (R341). -/
def redscatTakeTile (u t : Nat) (s : State) : State :=
  match (s.q u).find? (fun e => e.phase == .taking && mayTake s e t) with
  | some e => settle (takeTile u e t s)
  | none => s

def execRedscatTakeTile (u t : Nat) (s : State) : Host.Outcome State Fault Refusal := .next (redscatTakeTile u t s)

/-- REDSCAT_TIMEOUT (R343). -/
def redscatTimeout (u : Nat) (s : State) : State :=
  match (s.q u).find? (fun e => e.phase == .taking && overdue s e.since (tokLimit s (timeoutDie u e))) with
  | some e =>
    match e.opd 2 with
    | some c =>
      let left := (List.range c.tiles).filter (fun t => !(taken e).contains t)
      onTimeout (timeoutDie u e) e.stream e.seq (fun s => settle (finish u e ⟨stTokenTo, 0, left.length, left.headD 0⟩ s)) s
    | none => s
  | none => s

def execRedscatTimeout (u : Nat) (s : State) : Host.Outcome State Fault Refusal := .next (redscatTimeout u s)

/-- PERMUTE_RELEASE: the fence has cleared and the held COL_PERMUTE sends, once no Tile of it lies behind a wake (R346, R446). -/
def permuteRelease (u : Nat) (s : State) : State :=
  match (s.q u).find? (fun e => e.op == 0x66 && canStart s u e) with
  | some e => if (sleepers s e).any (formeGated s) then wakeStores s else settle (startEnt u e s)
  | none => s

def execPermuteRelease (u : Nat) (s : State) : Host.Outcome State Fault Refusal := .next (permuteRelease u s)

/-- PERMUTE_TIMEOUT (R346). -/
def permuteTimeout (u : Nat) (s : State) : State :=
  match (s.q u).find? (fun e => e.op == 0x66 && e.phase == .held && fenceHolds s e &&
      overdue s e.since (tokLimit s (timeoutDie u e))) with
  | some e =>
    onTimeout (timeoutDie u e) e.stream e.seq
      (fun s => settle (finish u e ⟨stTokenTo, 0, (fenceCtx s (jobOf s e.cmd) (aWord e 0)).getD 0, 0⟩ s)) s
  | none => s

def execPermuteTimeout (u : Nat) (s : State) : Host.Outcome State Fault Refusal := .next (permuteTimeout u s)

end Sys2Proof.Machine
end

