-- ==== Sys2Proof/Machine/CoreOps.lean ====
section
/-! DEFINITION. A control core's registers, its memories, how it retires an instruction, takes a trap, stalls and wakes
(R128 to R155), and accesses that stall at the edge of a gated Forme (R446 to R448). -/

namespace Sys2Proof.Machine

/-! ### The edge of a gated Forme (R446, R448) -/

/-- An access of a source to a unit: it goes on while the unit's Forme is ON, waits at the edge of a gated one and wakes it,
and ends with `fail` in WAKE_FAIL (DEDUCED, log 126). -/
def atEdge (u source path : Nat) (i : Instr) (fail act : State → State) (s : State) : State :=
  if formeState s u = 3 then fail s
  else if formeGated s u then
    let s := startWake u source path s
    { s with edge := s.edge ++ [i] }
  else act s

/-- A host access that meets WAKE_FAIL is logged in the power page (R448). -/
def hostWakeFail (u : Nat) (s : State) : State := logStatus (powerPage (pathDie u)) stWakeTo (countWakeTo u s)

/-- The source code of a host access: 5, or 9 for Muzomus. -/
def hostSource (fn : Nat) : Nat := if fn = mzmFn then 9 else 5

/-! ### Registers of the core -/

def CoreSt.reg (c : CoreSt) (n : Nat) : Word := if n = 0 then 0 else SMap.get (fun _ => (0 : Word)) c.g n
def CoreSt.regN (c : CoreSt) (n : Nat) : Nat := (c.reg n).toNat

/-- Writes a general register; a write to g0 is discarded (R128). -/
def CoreSt.setG (c : CoreSt) (n : Nat) (v : Word) : CoreSt :=
  if n = 0 then c else { c with g := SMap.set (fun _ => (0 : Word)) c.g n v }

def CoreSt.credit (c : CoreSt) (i : Nat) : Nat := SMap.get (fun _ => 0) c.cred i
def CoreSt.setCredit (c : CoreSt) (i v : Nat) : CoreSt := { c with cred := SMap.set (fun _ => 0) c.cred i v }

/-- The PC as the 14 bits that records and registers hold. -/
def pc14 (c : CoreSt) : Nat := c.pc.toNat % 2 ^ 14

def coreFld (s : State) (ch : Nat) (f : Fld) : Nat := s.fld (unitPage ch) f
def coreFlag (s : State) (ch : Nat) (f : Fld) : Bool := s.flag (unitPage ch) f

/-! ### Error marks of the core's memories: one per 32-bit word (R128) -/

def coreMark (a : Nat) : Nat := 2 ^ 58 + a / 4
def State.coreEcc (s : State) (a : Nat) : Nat := SMap.get (fun _ => 0) s.ecc (coreMark a)
def State.setCoreEcc (s : State) (a v : Nat) : State := { s with ecc := SMap.set (fun _ => 0) s.ecc (coreMark a) v }

/-- No error marks on 16 KB of a core's memory from `a`. -/
def freshCore (a : Nat) (s : State) : State :=
  { s with ecc := s.ecc.filter (fun e => !(decide (coreMark a ≤ e.1) && decide (e.1 < coreMark a + 4096))) }

/-- The instruction word at the PC (R131). -/
def coreWord (s : State) (ch : Nat) : Nat := s.num (imemBase ch + (s.core ch).pc.toNat) 4

/-! ### Retiring (R134, R150, R408) -/

/-- The core after an instruction that ends here: running, or halted again after a step. -/
def CoreSt.freed (c : CoreSt) : CoreSt :=
  { c with run := if c.stepping then .halted else .running, stall := 0, stepping := false }

/-- A record of level 1 that an instruction has: type, seq, D2, D3. -/
abbrev CoreRec := Nat × Nat × Nat × Nat

/-- Retires the instruction `w`: results, next PC, counters, watchdog and a trace record of tick `time`. -/
def retireAt (time ch w : Nat) (next : Word) (dst : List (Nat × Word)) (rec : Option CoreRec) (kick : Bool) (s : State) : State :=
  let c := s.core ch
  let c1 := (dst.foldl (fun c x => CoreSt.setG c x.1 x.2) c).freed
  let s1 := s.setCore ch { c1 with pc := next, retired := (c.retired + 1) % 2 ^ 32, wd := if kick then 0 else c.wd }
  match rec with
  | some r => s1.when (decide (1 ≤ traceLevel s1 ch)) (emitTrace ch time r.1 r.2.1 r.2.2.1 r.2.2.2)
  | none =>
    s1.when (decide (2 ≤ traceLevel s ch))
      (emitTrace ch time 0x09 0 w (pc14 c + ((dst.headD (0, 0)).2).toNat * 2 ^ 32))

/-- Retires in this tick. -/
def retire (ch w : Nat) (next : Word) (dst : List (Nat × Word)) (rec : Option CoreRec) (kick : Bool) (s : State) : State :=
  retireAt s.time ch w next dst rec kick s

/-- Retires to the next word: past the last word of instruction memory the fetch takes a trap (DESIGN CHOICE, log 171). -/
def retireNext (ch w : Nat) (dst : List (Nat × Word)) (rec : Option CoreRec) (kick : Bool) (s : State) : State :=
  retire ch w ((s.core ch).pc + 4) dst rec kick s

/-! ### A TRAP's record that is abandoned (R148, R151, R286) -/

def sFree : Nat := 0
def sReady : Nat := 1
def sActive : Nat := 2
def sPaused : Nat := 3
def sDraining : Nat := 4
def sAborted : Nat := 5
def sStopped : Nat := 6

/-- A drained stream whose every item has its record returns to FREE (R286, R489), also when Stop-press has ended its queued
commands, which resume replays (DESIGN CHOICE, log 165). -/
def freeStream (id : Nat) (s : State) : State :=
  let t := s.stream id
  if t.state == sDraining && t.inFlight == 0 && t.recs.isEmpty && t.fetched.isNone && t.sqHead == t.sqTail then
    let s := s.setStream id { Stream.reset with nextSeq := t.nextSeq }
    let s := { s with vectors := SMap.set (fun _ => 0) s.vectors id 0 }
    s.setRegN (streamPage 0 + 0x88) (s.regN (streamPage 0 + 0x88) - 1)
  else s

/-- The record of a TRAP of this core that still waits for a slot. -/
def trapRec (ch : Nat) (r : Rec) : Bool := r.opcode == 0xFF && r.source == ch && !r.slot

/-- A TRAP that does not retire leaves no record; a stream that waited for it alone is free. -/
def dropTrapRec (ch : Nat) (s : State) : State :=
  s.each ((s.streams.filter (fun x => x.2.recs.any (trapRec ch))).map (·.1)) (fun id s =>
    let t := s.stream id
    freeStream id (s.setStream id { t with recs := t.recs.filter (fun r => !(trapRec ch r)) }))

/-! ### Traps (R148, R149) -/

def trIllegal : Nat := 0x01
def trMisaligned : Nat := 0x02
def trAddress : Nat := 0x03
def trEcc : Nat := 0x04
def trParity : Nat := 0x05
def trTokenTo : Nat := 0x06
def trCreditTo : Nat := 0x07
def trPrivilege : Nat := 0x08
def trRange : Nat := 0x09
def trWatchdog : Nat := 0x0A
def trBreak : Nat := 0x0B
def trBadPath : Nat := 0x0C

/-- The core takes a trap (R149) (DEDUCED, log 31; DEDUCED, log 32). -/
def takeTrap (ch cause : Nat) (s : State) : State :=
  let s := dropTrapRec ch s
  let c := s.core ch
  let page := unitPage ch
  let handled := coreFlag s ch Fld.CHS_CORE_MODE.vec_en && !c.inTrap
  let s := s.when (cause == trEcc || cause == trParity) (fun s =>
    colAppend (pathDie ch) 0x03 (leBytes 2 1 ++ leBytes (ch * 2 ^ 32 + (s.core ch).pc.toNat) 8) (s.bump page 17 1))
  let s := s.when (cause == trEcc || cause == trParity || cause == trWatchdog) (fun s =>
    { s with cask := { s.cask with traps := s.cask.traps + 1 } })
  let s := s.when (decide (1 ≤ traceLevel s ch)) (emitTrace ch (s.time + 1) 0x05 0 (cause + b2n (!handled) * 256) (pc14 c))
  if handled then
    let s := (s.setFld page Fld.CHS_TRAP_CAUSE.cause cause).setFld page Fld.CHS_TRAP_PC.trap_pc (pc14 c)
    raiseEv page 9 (s.setCore ch { c.freed with inTrap := true, pc := BitVec.ofNat 32 (s.fld page Fld.CHS_TRAP_VEC.vector * 4) })
  else
    let s :=
      if c.inTrap then s.setFld page Fld.CHS_TRAP_CAUSE.second_cause cause
      else ((s.setFld page Fld.CHS_TRAP_CAUSE.cause cause).setFld page Fld.CHS_TRAP_PC.trap_pc (pc14 c)).setFld page
        Fld.CHS_TRAP_CAUSE.second_cause cause
    raiseEv page 8 (s.setCore ch { c with run := .halted, stall := 0, stepping := false, doubleTrap := c.doubleTrap || c.inTrap })

/-! ### Stalls -/

/-- The core waits at its instruction with a stall code. -/
def stallCore (ch code : Nat) (s : State) : State :=
  let c := s.core ch
  if c.run == .stalled then s else s.setCore ch { c with run := .stalled, stall := code, since := s.time }

/-- Ticks for which the core has stalled, saturating. -/
def stallTicks (s : State) (ch : Nat) : Nat := min (s.time - (s.core ch).since) (2 ^ 32 - 1)

/-- The record of a stall that ends (R153): none for an instruction that did not stall. -/
def stallRec (s : State) (ch seq target status : Nat) : Option CoreRec :=
  let c := s.core ch
  if c.run == .stalled then
    some (0x08, seq, c.stall + target * 2 ^ 16 + status * 2 ^ 32, pc14 c + stallTicks s ch * 2 ^ 32)
  else none

/-- Going to `s'` would drop a trace record of the Chase in lossless mode (R409). -/
def wouldLose (s s' : State) (ch : Nat) : Bool :=
  s.flag (tracePage (pathDie ch)) Fld.TRC_CTRL.lossless && decide ((s.trqOf ch).lost < (s'.trqOf ch).lost)

/-- Going to `s'` would emit a record while the core's last one is of this tick or the next (R408). -/
def tooSoon (s s' : State) (ch : Nat) : Bool :=
  s'.trqOf ch != s.trqOf ch && ((s.trqOf ch).last == s.time + 1 || (s.trqOf ch).last == s.time + 2)

/-- An instruction whose trace record would not fit in lossless mode does not retire yet (R409); nor does one that would emit
a second record for a tick (R408) (DEDUCED, log 84). -/
def lossHold (ch : Nat) (f : State → State) (s : State) : State :=
  let s' := f s
  if wouldLose s s' ch || tooSoon s s' ch then s else s'

/-! ### WAIT (R145, R146) -/

/-- Fields of a 32-bit instruction. -/
def ifld (w hi lo : Nat) : Nat := bits w hi lo

/-- The wake sources that end a WAIT: those that CORE_MODE enables, a timer and the host. -/
def wakeEnabled (s : State) (ch cause : Nat) : Bool :=
  match cause with
  | 1 => coreFlag s ch Fld.CHS_CORE_MODE.wk_token
  | 2 => coreFlag s ch Fld.CHS_CORE_MODE.wk_credit
  | 3 => coreFlag s ch Fld.CHS_CORE_MODE.wk_doorbell
  | _ => true

/-- The lowest pending cause that ends a WAIT. -/
def wakeCause (s : State) (ch : Nat) : Option Nat :=
  [1, 2, 3, 4, 5].find? (fun k => (s.core ch).wakes.contains k && wakeEnabled s ch k)

/-- A WAIT completes with its cause; one that completes at once has its second record of the next tick, since its first is of
this one (R408) (DEDUCED, log 33). -/
def endWait (ch cause : Nat) (s : State) : State :=
  let w := coreWord s ch
  let c := s.core ch
  let waited := c.run == .waiting
  let ticks := if waited then min (s.time - c.since) (2 ^ 32 - 1) else 0
  let s := s.setCore ch { c with wakes := [] }
  retireAt (s.time + if waited then 0 else 1) ch w (c.pc + 4) [(ifld w 25 21, BitVec.ofNat 32 cause)]
    (some (0x07, 0, cause, pc14 c + ticks * 2 ^ 32)) true s

/-- A tick ends: a WAIT ends with the lowest of the sources pending (R145) (DEDUCED, log 33). -/
def endWaits (ch : Nat) (s : State) : State :=
  if (s.core ch).run == .waiting && formeOn s ch then
    match wakeCause s ch with
    | some k => lossHold ch (endWait ch k) s
    | none => s
  else s

/-! ### Halting (R151) -/

/-- The core halts at an instruction boundary: a waiting instruction is abandoned without effect, the expiry of its timer with
it, its PC stays; a held TRAP record goes with it (DEDUCED, log 31; DEDUCED, log 32). -/
def haltCore (ch : Nat) (s : State) : State :=
  let c := s.core ch
  if c.run == .halted || c.run == .loading then s
  else
    dropTrapRec ch (s.setCore ch { c with run := .halted, stall := 0, stepping := false, wakes := c.wakes.filter (· != 4) })

/-- Ticks that have passed, modulo 2^32: neither setting nor slewing fabric time changes them (R133, R317). -/
def tickCount (s : State) : Nat := s.sync.ticks % 2 ^ 32

/-- The tick in progress, counted from 1. -/
def thisTick (s : State) : Nat := s.sync.ticks + 1

/-- A core reset clears g1 to g31, the PC, trap state, watchdog and credit counters (R152). -/
def resetCore (ch : Nat) (s : State) : State :=
  let s := haltCore ch s
  let c := s.core ch
  s.setCore ch { c with g := [], pc := 0, inTrap := false, doubleTrap := false, wd := 0, cred := [], retired := 0,
                        resetAt := tickCount s, timeHi := 0 }

end Sys2Proof.Machine
end

