-- ==== Sys2Proof/Machine/Streams.lean ====
section
/-! DEFINITION. Streams: contexts and their states (R269 to R272), allocation (R273, R274), activation (R275), doorbells and
fetch (R276 to R279), completion records (R176, R280, R281, R284), close (R286), pause (R288), the job table (R292) and the
interrupts of completions (R489, R490). -/

namespace Sys2Proof.Machine

/-! ### Places and states -/

def streamDie (id : Nat) : Nat := bits id 15 15
def streamLocal (id : Nat) : Nat := bits id 14 0
def ctxOff (id : Nat) : Nat := streamDie id * dieWin + 0x3000000 + 64 * streamLocal id
def doorOff (id : Nat) : Nat := streamDie id * dieWin + 0x3800000 + 8 * streamLocal id
def streamCount (id : Nat) : Nat := streamDie id * dieWin + 0x3400000 + 16 * streamLocal id


/-- Index arithmetic modulo 2^21 (R270). -/
def idxDiff (a b : Nat) : Nat := (a + 2 ^ 21 - b % 2 ^ 21) % 2 ^ 21
def idxNext (a : Nat) : Nat := (a + 1) % 2 ^ 21

/-- Records in the completion queue that the owner has not read. -/
def Stream.unread (t : Stream) : Nat := idxDiff t.cqTail t.cqHead

/-- The completion queue has a slot that no command in flight has reserved (R277). -/
def Stream.slotFree (t : Stream) : Bool := decide (t.unread + t.inFlight < 2 ^ t.cqExp)

/-- The stream is fetchable (R277). -/
def Stream.fetchable (t : Stream) : Bool :=
  t.state == sActive && t.fetched.isNone && t.sqHead != t.sqTail && decide (t.inFlight < t.credits) && t.slotFree

/-- Every record that reserves no slot is held, or none is. -/
def holdAll (b : Bool) (r : Rec) : Rec := { r with held := b && !r.slot }

/-- Without a free slot every record that reserves none is held, with one they no longer are; EV_CQ_FULL at the start of a hold
(R281, R294) (DEDUCED, log 32). -/
def noteHolds (id : Nat) (s : State) : State :=
  let t := s.stream id
  if t.flr || t.slotFree then
    if t.recs.any (·.held) then s.setStream id { t with recs := t.recs.map (holdAll false) } else s
  else if t.recs.any (fun r => !r.slot && !r.held) then
    raiseEv (streamPage (streamDie id)) 2 (s.setStream id { t with recs := t.recs.map (holdAll true) })
  else s

/-- Notes since when a fetchable command waits unserved (R278), and which records are held (R281). -/
def freshSince (id : Nat) (s : State) : State :=
  let t := s.stream id
  noteHolds id (s.setStream id { t with since := if t.fetchable then (if t.since = 0 then s.time + 1 else t.since) else 0 })

def setErr (id code : Nat) (s : State) : State := s.setStream id { s.stream id with err := code }

/-- An access to a context, doorbell or counter by a function that does not own the stream (R271, R486) (DEDUCED, log 115). -/
def refuseStream (fn off id : Nat) (s : State) : State := recordPriv fn off 0 0 (logStatus (streamPage (streamDie id)) stPrivilege s)

/-- What only the owner of a stream does. -/
def streamOwner (fn off id : Nat) (act : State → State) (s : State) : State :=
  if fn < 32 && !s.ready then s
  else if fn == (s.stream id).owner && fn < 32 then act s
  else refuseStream fn off id s

/-! ### Records (R176, R280, R281, R284) -/

/-- The 32 bytes of a record (table Completion record). -/
def recordWord (r : Rec) (time : Nat) (phase : Bool) : Nat :=
  time % 2 ^ 64 + (r.seq % 2 ^ 32 + r.source * 2 ^ 32 + r.stream * 2 ^ 48) * 2 ^ 64 +
  (r.status % 2 ^ 8 + r.opcode * 2 ^ 8 + r.job * 2 ^ 16 + (if r.status = stOk then 0 else r.operand) * 2 ^ 28 +
    r.detail % 2 ^ 32 * 2 ^ 32) * 2 ^ 128 +
  (r.detail2 % 2 ^ 32 + b2n phase * 2 ^ 63) * 2 ^ 192

/-- A record may be written now: its slot is reserved, or one is free, or the stream drains for a Function Level Reset. -/
def recReady (t : Stream) (r : Rec) : Bool := r.slot || t.slotFree || t.flr

/-- Sends a vector's pending completions (R490) (DEDUCED, log 125). -/
def irqSend (fn vec : Nat) (s : State) : State :=
  sendVector fn vec { s with irqs := SMap.set (fun _ => (⟨0, 0⟩ : IrqPend)) s.irqs (fn * 64 + vec) ⟨0, 0⟩ }

/-- PCI_IRQ_COAL of a function (DEDUCED, log 125). -/
def coalOf (s : State) (fn : Nat) : Nat := s.regN (pciePage + 0x8C + fn * 2 ^ 28)

/-- A completion marks its stream's vector pending for the owner (R490) (DEDUCED, log 125). -/
def irqPend (id : Nat) (s : State) : State :=
  let fn := (s.stream id).owner
  let vec := SMap.get (fun _ => 0) s.vectors id % 64
  if vec = 0 then s
  else
    let p := SMap.get (fun _ => (⟨0, 0⟩ : IrqPend)) s.irqs (fn * 64 + vec)
    let p := { p with count := p.count + 1, since := if p.count = 0 then s.time else p.since }
    let s := { s with irqs := SMap.set (fun _ => (⟨0, 0⟩ : IrqPend)) s.irqs (fn * 64 + vec) p }
    if bits (coalOf s fn) 23 16 ≤ p.count || bits (coalOf s fn) 15 0 = 0 then irqSend fn vec s else s


/-- The TRAP of a core whose record has been written retires; it halts where its halt bit says so (R147). -/
def trapWritten (ch : Nat) (s : State) : State :=
  let w := coreWord s ch
  let c := s.core ch
  let s := retireNext ch w [] (some (0x04, c.regN (ifld w 20 16),
    ifld w 15 8 + ifld w 7 7 * 2 ^ 8 + bits (c.regN (ifld w 25 21)) 15 0 * 2 ^ 16, pc14 c)) true s
  if ifld w 7 7 = 1 then raiseEv (unitPage ch) 8 (s.setCore ch { s.core ch with run := .halted }) else s

/-- Writes a record into its completion queue and advances it (R280). -/
def writeRecord (id : Nat) (r : Rec) (s : State) : State :=
  let t := s.stream id
  let size := 2 ^ t.cqExp
  let s := fixedWrite (t.cqBase + 32 * (t.cqTail % size)) 32 (recordWord r s.time t.cqPhase) s
  let tail := idxNext t.cqTail
  let s := s.setStream id { t with
    cqTail := tail
    cqPhase := if tail % size = 0 then !t.cqPhase else t.cqPhase
    inFlight := if r.slot then t.inFlight - 1 else t.inFlight
    recs := dropFirst (· == r) t.recs }
  let s := { s with recAt := SMap.set (fun _ => 0) s.recAt r.source (s.time + 1) }
  let word := streamCount id + if r.status = stOk then 0 else 4
  let s := s.setRegN word ((s.regN word + 1) % 2 ^ 32)
  let s := s.when r.irq (irqPend id)
  let s := s.when (r.opcode == 0xFF && (s.core r.source).run == .stalled) (lossHold r.source (trapWritten r.source))
  freeStream id (freshSince id s)

/-- Adds a record that reserves no slot (R281) (DEDUCED, log 32). -/
def pushFree (r : Rec) (s : State) : State := noteHolds r.stream (pushRec r s)

/-- Rank of a record at the arbiter of source 0x8000: the governor, die 0, die 1 (R284) (DEDUCED, log 48). -/
def arbRank (id : Nat) (r : Rec) : Nat := if r.opcode = 0xFE then 0 else 1 + streamDie id

/-- One of two records of a source goes before the other: by rank at the arbiter, then in completion order (R284). -/
def recBefore (i : Nat) (q : Rec) (id : Nat) (r : Rec) : Bool :=
  if r.source = modulePath && arbRank i q != arbRank id r then decide (arbRank i q < arbRank id r) else decide (q.no < r.no)

/-- A record may go ahead of what its stream holds: it has a reserved slot, or came first of those that have none (R281). -/
def holdTurn (t : Stream) (r : Rec) : Bool := r.slot || !(t.recs.any (fun q => !q.slot && decide (q.no < r.no)))

/-- A record's source has written none in this tick, and none of its records that could be written goes before it (R284)
(DEDUCED, log 48). -/
def recTurn (s : State) (id : Nat) (r : Rec) : Bool :=
  SMap.get (fun _ => 0) s.recAt r.source != s.time + 1 &&
  !(s.streams.any (fun x => x.2.recs.any (fun q =>
    q.source == r.source && recReady x.2 q && holdTurn x.2 q && recBefore x.1 q id r)))

/-- The record of a stream that is written next. -/
def nextRec (s : State) (id : Nat) : Option Rec :=
  let t := s.stream id
  t.recs.find? (fun r => recReady t r && holdTurn t r && recTurn s id r)

/-- COMPLETION_RECORD_WRITE (R280, R284) (DEDUCED, log 48). -/
def completionRecordWrite (id : Nat) (s : State) : State :=
  match nextRec s id with
  | some r => writeRecord id r s
  | none => s

def execCompletionRecordWrite (id : Nat) (s : State) : Host.Outcome State Fault Refusal := .next (completionRecordWrite id s)

/-! ### Allocation (R273, R274) -/

/-- Contexts not FREE. -/
def allocCount (s : State) : Nat := s.regN (streamPage 0 + 0x88)

def jobStreams (s : State) (job : Nat) : Nat := (s.streams.filter (fun x => x.2.state != sFree && x.2.job == job)).length

/-- The lowest FREE local index on a die. -/
def lowestFree (s : State) (d : Nat) : Option Nat :=
  ((List.range (min 32768 (s.streams.length + 1))).find? (fun i => (s.stream (d * 32768 + i)).state == sFree)).map
    (fun i => d * 32768 + i)

def allocResult (fn stream status : Nat) (s : State) : State :=
  s.setRegN (streamPage 0 + 0x84 + fn * 2 ^ 28) (stream + status * 2 ^ 16 + 2 ^ 24)

/-- A granted context (R273, R405) (DEDUCED, log 46). -/
def grantStream (fn id job prio : Nat) (s : State) : State :=
  let n := allocCount s
  let wm := s.fld (streamPage 0) Fld.STM_WM.watermark
  let s := s.setStream id { s.stream id with state := sReady, owner := fn, job := job, prio := prio }
  let s := s.each [0, 1, 2, 3] (fun i s => s.setRegN (streamCount id + 4 * i) 0)
  let s := (s.setRegN (streamPage 0 + 0x88) (n + 1)).bump (streamPage 0) 0 1
  (allocResult fn id stOk s).when (decide (n < wm) && decide (wm ≤ n + 1)) (raiseEv (streamPage 0) 0)

/-- The allocator serves a request: the table Allocation outcomes (DEDUCED, log 46). -/
def allocOutcome (fn : Nat) (v : Word) (s : State) : State :=
  let job := bits v.toNat 11 0
  let die := bits v.toNat 14 14
  let b := s.job job
  if 65536 ≤ allocCount s then
    raiseEv (streamPage 0) 1 (allocResult fn 0xFFFF stStreamFull (s.bump (streamPage 0) 1 1))
  else if !b.valid || b.fn != fn then allocResult fn 0xFFFF stPrivilege s
  else if b.limit ≤ jobStreams s job then allocResult fn 0xFFFF stQuota s
  else
    match (match lowestFree s die with | some i => some i | none => lowestFree s (1 - die)) with
    | some id => grantStream fn id job (bits v.toNat 13 12) s
    | none => s

/-- STREAM_ALLOC: a request waits for the allocator, which serves one at the end of each tick (R273) (DEDUCED, log 46). -/
def streamAlloc (fn : Nat) (v : Word) (s : State) : State :=
  if 32 ≤ fn || !s.ready then s else { s with allocs := s.allocs ++ [(fn, v)] }

/-- The request that the allocator serves: the physical function's, then those of virtual functions, in ascending number
(R273) (DEDUCED, log 46). -/
def nextAlloc (s : State) : Option (Nat × Word) :=
  ((List.range 32).findSome? (fun fn => s.allocs.find? (fun r => r.1 == fn)))

/-- One tick of the allocator (R273) (DEDUCED, log 46). -/
def serveAlloc (s : State) : State :=
  match nextAlloc s with
  | some r => allocOutcome r.1 r.2 { s with allocs := dropFirst (· == r) s.allocs }
  | none => s

def execStreamAlloc (fn : Nat) (v : Word) (s : State) : Host.Outcome State Fault Refusal :=
  .next (posted fn (.streamAlloc fn v) (fun s => streamAlloc fn v s) s)

/-! ### Commands of a context (R271, R272, R275, R286, R288) -/

/-- A queue of 2^exp entries of 32 bytes lies wholly in the fixed range on a 4 KB boundary (R275). -/
def queuePlaced (s : State) (base exp : Nat) : Bool := base % 4096 == 0 && inFixed s base (32 * 2 ^ exp)

def homeOk (id home : Nat) : Bool := validPath home && decide (pathLevel home ≤ 3) && pathDie home == streamDie id

/-- The status of an activate (R275). -/
def activateErr (s : State) (id : Nat) : Nat :=
  let t := s.stream id
  if !(4 ≤ t.sqExp && t.sqExp ≤ 20 && 4 ≤ t.cqExp && t.cqExp ≤ 20 && 1 ≤ t.credits && t.credits ≤ 2 ^ t.cqExp) then stLength
  else if !(queuePlaced s t.sqBase t.sqExp && queuePlaced s t.cqBase t.cqExp && homeOk id t.home) then stAddress
  else stOk

def activateStream (id : Nat) (s : State) : State :=
  let t := s.stream id
  if t.state != sReady then setErr id stConflict s
  else
    let e := activateErr s id
    if e = stOk then freshSince id (s.setStream id { t with state := sActive, cqPhase := true, err := stOk })
    else setErr id e s

def pauseStream (id : Nat) (s : State) : State :=
  let t := s.stream id
  if t.state == sActive then freshSince id (s.setStream id { t with state := sPaused }) else setErr id stConflict s

def resumeStream (id : Nat) (s : State) : State :=
  let t := s.stream id
  if t.state == sPaused then freshSince id (s.setStream id { t with state := sActive }) else setErr id stConflict s

/-- The slice completes one unfetched command with its own record, and with the output token and interrupt that its word asks
for (R286, R287, R157, R490) (DEDUCED, log 50). -/
def dropUnfetched (id status : Nat) (s : State) : State :=
  let t := s.stream id
  let word := s.num (t.sqBase + 32 * (t.sqHead % 2 ^ t.sqExp)) 32
  let seq := if t.seqMode then bits word 95 64 else t.nextSeq
  let s := s.setStream id { t with sqHead := idxNext t.sqHead, nextSeq := if t.seqMode then t.nextSeq else (t.nextSeq + 1) % 2 ^ 32 }
  let cmd := cPlace (BitVec.ofNat 256 word) id seq
  let s := pushFree ⟨seq, t.home, id, status, 0xFD, t.job, 0, 0, 0, false, cIrq cmd, none, 0, false⟩ s
  satisfyAll id seq true (tokenOut t.home { newEnt cmd none with phase := .done, status := status } s)

/-- Every command from sq_head to sq_tail completes in queue order. -/
def dropAll (id status : Nat) (s : State) : State :=
  let t := s.stream id
  s.each (List.range (idxDiff t.sqTail t.sqHead)) (fun _ s => dropUnfetched id status s)

/-- A close: DRAINING, every unfetched command completed with ABORTED_FAULT (R286) (DEDUCED, log 50). -/
def drainStream (id : Nat) (s : State) : State :=
  let s := dropAll id stAbortFault (s.setStream id { s.stream id with state := sDraining, since := 0 })
  freeStream id s

/-- STM_CTRL close of a stream (DEDUCED, log 50). -/
def closeStream (id : Nat) (s : State) : State :=
  let k := (s.stream id).state
  if k == sReady || k == sActive || k == sPaused || k == sAborted then drainStream id s else setErr id stConflict s

/-- A job abort takes effect on a stream (R287). -/
def abortStream (id : Nat) (s : State) : State :=
  let k := (s.stream id).state
  if k == sReady || k == sActive || k == sPaused then
    dropAll id stNormJump (s.setStream id { s.stream id with state := sAborted, since := 0 })
  else s

def streamCmd (fn id : Nat) (act : State → State) (s : State) : State := streamOwner fn (ctxOff id + 48) id act s

def execStreamActivate (fn id : Nat) (s : State) : Host.Outcome State Fault Refusal :=
  .next (posted fn (.streamActivate fn id) (fun s => streamCmd fn id (activateStream id) s) s)
def execStreamPause (fn id : Nat) (s : State) : Host.Outcome State Fault Refusal :=
  .next (posted fn (.streamPause fn id) (fun s => streamCmd fn id (pauseStream id) s) s)
def execStreamResume (fn id : Nat) (s : State) : Host.Outcome State Fault Refusal :=
  .next (posted fn (.streamResume fn id) (fun s => streamCmd fn id (resumeStream id) s) s)
def execStreamClose (fn id : Nat) (s : State) : Host.Outcome State Fault Refusal :=
  .next (posted fn (.streamClose fn id) (fun s => streamCmd fn id (closeStream id) s) s)

/-! ### Writes of a context (R270, R271) -/

/-- The owner's fields of 32-bit word `w` in READY. -/
def readyWrite (w v : Nat) (t : Stream) : Stream :=
  match w with
  | 0 => { t with sqBase := putBits t.sqBase 31 0 v }
  | 1 => { t with sqBase := putBits t.sqBase 49 32 (bits v 17 0), sqExp := bits v 22 18 }
  | 2 => { t with cqBase := putBits t.cqBase 31 0 v }
  | 3 => { t with cqBase := putBits t.cqBase 49 32 (bits v 17 0), cqExp := bits v 22 18 }
  | 8 => { t with nextSeq := v }
  | 9 => { t with credits := bits v 31 16 }
  | 10 => { t with prio := bits v 18 17, seqMode := bit v 19, home := putBits t.home 11 0 (bits v 31 20) }
  | 11 => { t with home := putBits t.home 15 12 (bits v 3 0) }
  | _ => t

/-- The words of D0, D1, D4 and D5. -/
def ownerWord (w : Nat) : Bool := decide (w < 4) || (decide (8 ≤ w) && decide (w < 12))

/-- A write that would change an owner's field of the priority's word besides priority. -/
def changesMore (t : Stream) (v : Nat) : Bool := t.seqMode != bit v 19 || bits t.home 11 0 != bits v 31 20

/-- A context write by the owner. -/
def contextWrite (id w v : Nat) (s : State) : State :=
  let t := s.stream id
  if w = 12 then
    match bits v 6 4 with
    | 0 => s
    | 1 => activateStream id s
    | 2 => pauseStream id s
    | 3 => resumeStream id s
    | 4 => closeStream id s
    | _ => setErr id stConflict s
  else if ownerWord w then
    if t.state == sReady then s.setStream id (readyWrite w v t)
    else if w == 10 && (t.state == sActive || t.state == sPaused) then
      let s := s.setStream id { t with prio := bits v 18 17 }
      s.when (changesMore t v) (setErr id stConflict)
    else setErr id stConflict s
  else s

def execStreamContextWrite (fn id word : Nat) (v : Word) (s : State) : Host.Outcome State Fault Refusal :=
  .next (posted fn (.streamContextWrite fn id word v) (fun s =>
    streamOwner fn (ctxOff id + 4 * word) id (contextWrite id word v.toNat) s) s)

/-- A 32-bit word of a context as a reader sees it (R270): cmd and the reserved fields read 0. -/
def ctxWord (s : State) (id w : Nat) : Nat :=
  let t := s.stream id
  let d := match w / 2 with
    | 0 => t.sqBase + t.sqExp * 2 ^ 50
    | 1 => t.cqBase + t.cqExp * 2 ^ 50
    | 2 => t.sqHead + t.sqTail * 2 ^ 32
    | 3 => t.cqTail + b2n t.cqPhase * 2 ^ 21 + t.cqHead * 2 ^ 32
    | 4 => t.nextSeq + t.inFlight * 2 ^ 32 + t.credits * 2 ^ 48
    | 5 => t.owner + t.job * 2 ^ 5 + t.prio * 2 ^ 17 + b2n t.seqMode * 2 ^ 19 + t.home * 2 ^ 20
    | 6 => t.state + t.err * 2 ^ 8
    | _ => 0
  if w % 2 = 0 then d % 2 ^ 32 else d / 2 ^ 32

/-! ### Doorbells (R272, R276) -/

/-- A doorbell that is ignored (DEDUCED, log 115). -/
def refuseDoor (id code : Nat) (s : State) : State :=
  raiseEv (streamPage (streamDie id)) 3 ((setErr id code s).bump (streamPage (streamDie id)) 2 1)

/-- A stored doorbell wakes a gated Forme and is a wake source of a Chase home (R276, R446). -/
def doorWake (id : Nat) (s : State) : State :=
  let h := (s.stream id).home
  let s := startWake h 4 modulePath s
  freshSince id (s.when (isChase h) (wakeSource h 3))

def doorbell (id : Nat) (store : State → State) (fits : Bool) (s : State) : State :=
  let k := (s.stream id).state
  if k == sFree || k == sDraining || k == sAborted || k == 7 then refuseDoor id stConflict s
  else if !fits then refuseDoor id stLength s
  else doorWake id (store s)

def sqDoorbell (id v : Nat) (s : State) : State :=
  let t := s.stream id
  let i := bits v 20 0
  doorbell id (fun s => s.setStream id { t with sqTail := i }) (decide (idxDiff i t.sqHead ≤ 2 ^ t.sqExp)) s

/-- A command that resume holds enters its unit's queue: an aborted one takes a completion slot again (R396). -/
def reenterOne (h : Held) (s : State) : Option State :=
  let t := s.stream (cStream h.cmd)
  let enter := fun (s : State) => startWake h.unit 1 modulePath (s.setQ h.unit (s.q h.unit ++ [keptEnt h]))
  if !h.aborted then some (enter s)
  else if t.slotFree then
    some (enter (freshSince (cStream h.cmd) (s.setStream (cStream h.cmd) { t with inFlight := t.inFlight + 1 })))
  else none

/-- Held commands in recorded order; behind one that waits for its slot the others of its unit wait too. -/
def reenterList : List Held → List Nat → State → State × List Held
  | [], _, s => (s, [])
  | h :: hs, blocked, s =>
    match (if blocked.contains h.unit then none else reenterOne h s) with
    | some s' => reenterList hs blocked s'
    | none => let r := reenterList hs (h.unit :: blocked) s; (r.1, h :: r.2)

/-- After resume, every held command that can enter its unit's queue does (R396). -/
def reenterHeld (s : State) : State :=
  if s.stopped || decide (4 ≤ s.fld cellarPage Fld.CSK_STATUS.state) then s
  else let r := reenterList s.cask.held [] s; { r.1 with cask := { r.1.cask with held := r.2 } }

def cqDoorbell (id v : Nat) (s : State) : State :=
  let t := s.stream id
  let i := bits v 20 0
  reenterHeld <| doorbell id (fun s => s.setStream id { t with cqHead := i }) (decide (idxDiff t.cqTail i ≤ 2 ^ t.cqExp)) s

def execSqDoorbell (fn id : Nat) (v : Word) (s : State) : Host.Outcome State Fault Refusal :=
  .next (posted fn (.sqDoorbell fn id v) (fun s => streamOwner fn (doorOff id) id (sqDoorbell id v.toNat) s) s)
def execCqDoorbell (fn id : Nat) (v : Word) (s : State) : Host.Outcome State Fault Refusal :=
  .next (posted fn (.cqDoorbell fn id v) (fun s => streamOwner fn (doorOff id + 4) id (cqDoorbell id v.toNat) s) s)

/-! ### Fetch (R277, R278) -/

/-- Streams of a home that can be fetched. -/
def fetchables (s : State) (home : Nat) : List (Nat × Stream) :=
  s.streams.filter (fun x => x.2.home == home && x.2.fetchable && !(s.power.deferred.contains x.2.job))

/-- The first of a list by a measure, lowest wins, earlier wins a tie (DEDUCED, log 47). -/
def leastBy (f : Nat × Stream → Nat) : List (Nat × Stream) → Option (Nat × Stream)
  | [] => none
  | x :: xs =>
    match leastBy f xs with
    | some y => if f y < f x then some y else some x
    | none => some x

/-- The stream that a slice serves next: aged streams first, then priority, then round robin (R278) (DEDUCED, log 47). -/
def fetchChoice (s : State) (home : Nat) : Option Nat :=
  let l := fetchables s home
  let age := s.fld (streamPage (pathDie home)) Fld.STM_AGE.ticks
  let old := l.filter (fun x => age != 0 && decide (x.2.since - 1 + age ≤ s.time))
  match leastBy (fun x => x.2.since) old with
  | some x => some x.1
  | none =>
    let last := fun (prio : Nat) => SMap.get (fun _ => 0) s.served (home * 4 + prio)
    (leastBy (fun x => (3 - x.2.prio) * 2 ^ 17 + (x.1 + 2 ^ 16 - (last x.2.prio + 1) % 2 ^ 16) % 2 ^ 16) l).map (·.1)

/-- STREAM_FETCH: the slice fetches the command at sq_head (R277). -/
def streamFetch (home : Nat) (s : State) : State :=
  match (if formeOn s home then fetchChoice s home else none) with
  | none => s
  | some id =>
    let t := s.stream id
    let a := t.sqBase + 32 * (t.sqHead % 2 ^ t.sqExp)
    let c := BitVec.ofNat 256 (s.num a 32)
    let seq := if t.seqMode then cSeq c else t.nextSeq
    let bad := s.badIn a 32
    let t' := { t with sqHead := idxNext t.sqHead, inFlight := t.inFlight + 1, since := 0,
                       nextSeq := if t.seqMode then t.nextSeq else (t.nextSeq + 1) % 2 ^ 32 }
    let s := { s with served := SMap.set (fun _ => 0) s.served (home * 4 + t.prio) id }
    let t' := { t' with servedAt := thisTick s }
    if bad then
      let s := noteEcc a 32 (s.setStream id t')
      let s := logItem (unitPage home) stEcc home (if t.seqMode then 0 else seq) s
      let s := pushRec ⟨if t.seqMode then 0 else seq, home, id, stEcc, 0xFD, t.job, 0, t.sqHead, 0, true, false, none, 0, false⟩ s
      freshSince id s
    else noteHolds id (correctRead a 32 (s.setStream id { t' with fetched := some (cPlace c id seq) }))

def execStreamFetch (home : Nat) (s : State) : Host.Outcome State Fault Refusal := .next (streamFetch home s)

/-- The near unit `u` completes a command that it cannot pass on (R41, R21): its record, and its token with the status bit, in
the unit's queue order (R171) (DEDUCED, log 16). -/
def completeNear (u : Nat) (c : BitVec 256) (issuer : Option Nat) (status : Nat) (s : State) : State :=
  let e := { newEnt c issuer with phase := .done, status := status }
  let s := s.setQ u (s.q u ++ [e])
  if inOrder s u e then release u e s else s

/-- Why the near unit cannot pass a command on: a path no unit has, or a unit of the far die behind a bridge that is down. -/
def cannotPass (s : State) (near : Nat) (c : BitVec 256) : Option Nat :=
  if !validPath (cPath c) then some stAddress
  else if bridgeDown s && pathLevel (cPath c) < 4 && pathDie (cPath c) != pathDie near then some stLinkDown
  else none

/-- FETCH_DELIVER: a fetched command passes to its unit (R277, R41). -/
def fetchDeliver (id : Nat) (s : State) : State :=
  let t := s.stream id
  match t.fetched with
  | none => s
  | some c =>
    let s' := freshSince id (s.setStream id { t with fetched := none })
    match cannotPass s t.home c with
    | some st => completeNear t.home c none st s'
    | none => if slotFree s (cPath c) then enqueue (cPath c) t.home c none s' else s

def execFetchDeliver (id : Nat) (s : State) : Host.Outcome State Fault Refusal := .next (fetchDeliver id s)

/-! ### The job table (R292) -/

/-- JOB_LOAD (DEDUCED, log 49). -/
def jobLoad (s : State) : State :=
  let j := s.fld (streamPage 0) Fld.STM_JOB_IDX.job
  let b := s.job j
  (s.setRegN (streamPage 0 + 0xA0) (b.fn + b2n b.valid * 32 + b.limit * 64)).setRegN (streamPage 0 + 0xA4) (jobStreams s j)

def execJobLoad (fn : Nat) (s : State) : Host.Outcome State Fault Refusal :=
  .next (posted fn (.jobLoad fn) (fun s => ownerWrite fn (streamPage 0) 0xA8 jobLoad s) s)

/-- JOB_COMMIT (DEDUCED, log 49). -/
def jobCommit (s : State) : State :=
  s.setJob (s.fld (streamPage 0) Fld.STM_JOB_IDX.job)
    ⟨s.fld (streamPage 0) Fld.STM_JOB_DATA.function, s.flag (streamPage 0) Fld.STM_JOB_DATA.valid,
     s.fld (streamPage 0) Fld.STM_JOB_DATA.limit⟩

def execJobCommit (fn : Nat) (s : State) : Host.Outcome State Fault Refusal :=
  .next (posted fn (.jobCommit fn) (fun s => pfWrite fn (streamPage 0 + 0xA8) jobCommit s) s)

end Sys2Proof.Machine
end

