-- ==== Sys2Proof/Machine/ChaseCore.lean ====
section
/-! DEFINITION. The control core's instructions (R129 to R147), its timeouts and watchdog, its outbound queue, and the host's
commands to it (R145, R151 to R154, R537, R538). -/

namespace Sys2Proof.Machine

/-! ### Fields of an instruction (R132) -/

def iOp (w : Nat) : Nat := bits w 31 26
def iRd (w : Nat) : Nat := bits w 25 21
def iRa (w : Nat) : Nat := bits w 20 16
def iRb (w : Nat) : Nat := bits w 15 11
def iImm (w : Nat) : Nat := bits w 15 0
/-- The signed immediate. -/
def iSImm (w : Nat) : Word := BitVec.signExtend 32 (BitVec.ofNat 16 (iImm w))

/-- The opcodes of the table Opcodes. -/
def listedOp (op : Nat) : Bool := decide (op ≤ 0x18) || (decide (0x20 ≤ op) && decide (op ≤ 0x28))

/-- An effect of an instruction at Chase `ch` whose word is `w`. -/
abbrev Ins := Nat → Nat → State → State

/-- Writes rd and goes on. -/
def setRd (v : Word) : Ins := fun ch w s => retireNext ch w [(iRd w, v)] none false s

/-- An instruction that takes a trap (DEDUCED, log 30). -/
def trapIns (cause : Nat) : Ins := fun ch _ s => takeTrap ch cause s

/-! ### Arithmetic and logic -/

def bnat (b : Bool) : Word := if b then 1 else 0

/-- The functions of ALU; none for a value not listed (DEDUCED, log 30). -/
def aluFn (f : Nat) (a b : Word) : Option Word :=
  match f with
  | 0 => some (a + b)
  | 1 => some (a - b)
  | 2 => some (a &&& b)
  | 3 => some (a ||| b)
  | 4 => some (a ^^^ b)
  | 5 => some (a <<< (b.toNat % 32))
  | 6 => some (a >>> (b.toNat % 32))
  | 7 => some (a.sshiftRight (b.toNat % 32))
  | 8 => some (bnat (a.slt b))
  | 9 => some (bnat (a.ult b))
  | 10 => some (a * b)
  | 11 => some (BitVec.ofInt 32 (a.toInt * b.toInt / 2 ^ 32))
  | 12 => some (if a.slt b then a else b)
  | 13 => some (if a.slt b then b else a)
  | _ => none

def insAlu : Ins := fun ch w s =>
  let c := s.core ch
  match aluFn (bits w 10 0) (c.reg (iRa w)) (c.reg (iRb w)) with
  | some v => setRd v ch w s
  | none => takeTrap ch trIllegal s

/-- An instruction with rd, ra and an immediate. -/
def immIns (f : Word → Nat → Word) : Ins := fun ch w s => setRd (f ((s.core ch).reg (iRa w)) w) ch w s

def insAddi : Ins := immIns (fun a w => a + iSImm w)
def insAndi : Ins := immIns (fun a w => a &&& BitVec.ofNat 32 (iImm w))
def insOri : Ins := immIns (fun a w => a ||| BitVec.ofNat 32 (iImm w))
def insXori : Ins := immIns (fun a w => a ^^^ BitVec.ofNat 32 (iImm w))
def insSlti : Ins := immIns (fun a w => bnat (a.slt (iSImm w)))

/-- SHI: shift by the immediate (DEDUCED, log 30). -/
def insShi : Ins := fun ch w s =>
  let a := (s.core ch).reg (iRa w)
  let n := bits w 4 0
  if bits w 15 7 != 0 then takeTrap ch trIllegal s
  else
    match bits w 6 5 with
    | 0 => setRd (a <<< n) ch w s
    | 1 => setRd (a >>> n) ch w s
    | 2 => setRd (a.sshiftRight n) ch w s
    | _ => takeTrap ch trIllegal s

def insLui : Ins := fun ch w s =>
  if bits w 20 16 != 0 then takeTrap ch trIllegal s else setRd (BitVec.ofNat 32 (iImm w * 65536)) ch w s

/-! ### Branches -/

/-- Branch when the comparison of ra [25:21] and rb [20:16] holds. -/
def branchIns (f : Word → Word → Bool) : Ins := fun ch w s =>
  let c := s.core ch
  if f (c.reg (iRd w)) (c.reg (iRa w)) then retire ch w (c.pc + iSImm w * 4) [] none false s
  else retireNext ch w [] none false s

def insBeq : Ins := branchIns (fun a b => a == b)
def insBne : Ins := branchIns (fun a b => a != b)
def insBlt : Ins := branchIns (fun a b => a.slt b)
def insBge : Ins := branchIns (fun a b => !a.slt b)
def insBltu : Ins := branchIns (fun a b => a.ult b)
def insBgeu : Ins := branchIns (fun a b => !a.ult b)

def insJal : Ins := fun ch w s =>
  let c := s.core ch
  retire ch w (c.pc + BitVec.signExtend 32 (BitVec.ofNat 21 (bits w 20 0)) * 4) [(iRd w, c.pc + 4)] none false s

/-- Jump to the address in ra; other bits reserved. -/
def jumpIns : Ins := fun ch w s =>
  let t := (s.core ch).reg (iRa w)
  if bits w 25 21 != 0 || bits w 15 0 != 0 then takeTrap ch trIllegal s
  else if t.toNat % 4 != 0 then takeTrap ch trMisaligned s
  else retire ch w t [] none false s

def insJr : Ins := jumpIns

/-- RTE: outside trap state it is ILLEGAL; else it leaves trap state as it jumps. -/
def insRte : Ins := fun ch w s =>
  let c := s.core ch
  let t := c.reg (iRa w)
  if !c.inTrap then takeTrap ch trIllegal s
  else if bits w 25 21 != 0 || bits w 15 0 != 0 || t.toNat % 4 != 0 then jumpIns ch w s
  else jumpIns ch w (s.setCore ch { c with inTrap := false })

/-! ### Loads and stores (R129) -/

/-- Where an address of the core leads. -/
inductive CoreAddr where
  /-- a byte of data memory or the Chase store, by its memory key -/
  | mem (key : Nat) (dmem : Bool)
  | mode
  | vec
  | none
  deriving DecidableEq, Repr

def coreAddr (ch a : Nat) : CoreAddr :=
  if a < 0x4000 then .mem (dmemBase ch + a) true
  else if 0x40000 ≤ a && a < 0x80000 then .mem (chaseStore ch + (a - 0x40000)) false
  else if 0x80000 ≤ a && a < 0x80004 then .mode
  else if 0x80004 ≤ a && a < 0x80008 then .vec
  else .none

/-- The error mark of the word that a core access of a memory reads. -/
def coreWordEcc (s : State) (key : Nat) (dmem : Bool) : Nat := if dmem then s.coreEcc key else s.eccAt key

/-- A corrected error counts and is gone (R403). -/
def correctCore (ch key : Nat) (dmem : Bool) (s : State) : State :=
  if coreWordEcc s key dmem = 1 then
    (if dmem then s.setCoreEcc key 0 else s.setEcc key 0).bump (unitPage ch) 16 1
  else s

/-- A load of `n` bytes, extended by `ext`. -/
def loadIns (n : Nat) (ext : Nat → Word) : Ins := fun ch w s =>
  let a := ((s.core ch).reg (iRa w) + iSImm w).toNat
  if a % n != 0 then takeTrap ch trMisaligned s
  else
    match coreAddr ch a with
    | .mem key dmem =>
      if coreWordEcc s key dmem = 2 then takeTrap ch trEcc s
      else setRd (ext (s.num key n)) ch w (correctCore ch key dmem s)
    | .mode => if n = 4 then setRd (s.reg (unitPage ch + 0x108)) ch w s else takeTrap ch trAddress s
    | .vec => if n = 4 then setRd (s.reg (unitPage ch + 0x11C)) ch w s else takeTrap ch trAddress s
    | .none => takeTrap ch trAddress s

def insLdw : Ins := loadIns 4 (BitVec.ofNat 32)
def insLdh : Ins := loadIns 2 (fun v => BitVec.signExtend 32 (BitVec.ofNat 16 v))
def insLdhu : Ins := loadIns 2 (BitVec.ofNat 32)
def insLdb : Ins := loadIns 1 (fun v => BitVec.signExtend 32 (BitVec.ofNat 8 v))
def insLdbu : Ins := loadIns 1 (BitVec.ofNat 32)

/-- Stores `n` bytes at a memory key; a whole word gets fresh check bits. -/
def coreStore (key : Nat) (dmem : Bool) (n v : Nat) (s : State) : State :=
  let s := (copyStore key n s).setNum key n v
  if dmem && n = 4 then s.setCoreEcc key 0 else s

/-- A store of `n` bytes; one to CORE_MODE or the trap vector yields to a host write of the tick (R130). -/
def storeIns (n : Nat) : Ins := fun ch w s =>
  let c := s.core ch
  let a := (c.reg (iRa w) + iSImm w).toNat
  let v := c.reg (iRd w)
  let next := retireNext ch w [] none false
  if a % n != 0 then takeTrap ch trMisaligned s
  else
    match coreAddr ch a with
    | .mem key dmem => next (coreStore key dmem n v.toNat s)
    | .mode =>
      if n = 4 then next (s.when (c.hostMode != thisTick s) (fun s => s.setRegN (unitPage ch + 0x108) (v.toNat % 512)))
      else takeTrap ch trAddress s
    | .vec =>
      if n = 4 then next (s.when (c.hostVec != thisTick s) (fun s => s.setRegN (unitPage ch + 0x11C) (bits v.toNat 13 2 * 4)))
      else takeTrap ch trAddress s
    | .none => takeTrap ch trAddress s

def insStw : Ins := storeIns 4
def insSth : Ins := storeIns 2
def insStb : Ins := storeIns 1

/-! ### Tokens and credits (R135 to R141) -/

/-- The status of a TWAIT whose wait is satisfied; none while it is not (R137). -/
def twaitStatus (s : State) (ch stream seq : Nat) : Option Nat :=
  match (s.unit ch).toks.find? (fun e => e.stream == stream) with
  | some e => if seqGe e.high seq then some (if e.fail && seqGe seq e.failSeq then stAbortFault else stOk) else none
  | none => none

def insTwait : Ins := fun ch w s =>
  let c := s.core ch
  let stream := bits (c.regN (iRa w)) 15 0
  let seq := c.regN (iRb w)
  if bits w 9 0 != 0 then takeTrap ch trIllegal s
  else
    match twaitStatus s ch stream seq with
    | some st =>
      retireNext ch w [(iRd w, BitVec.ofNat 32 st)] (stallRec s ch seq stream st) false
        (s.when (bit w 10) (freeEntry ch stream))
    | none => stallCore ch 1 s

/-- The stream belongs to the core's job (R139, R536). -/
def ownJob (s : State) (ch stream : Nat) : Bool :=
  (s.stream stream).state != sFree && (s.stream stream).job == coreFld s ch Fld.CHS_CORE_JOB.job

def insTsend : Ins := fun ch w s =>
  let c := s.core ch
  let path := bits (c.regN (iRd w)) 15 0
  let stream := bits (c.regN (iRa w)) 15 0
  let seq := c.regN (iRb w)
  if bits w 9 0 != 0 then takeTrap ch trIllegal s
  else if !(ownJob s ch stream) then takeTrap ch trPrivilege s
  else if !(validPath path) then takeTrap ch trBadPath s
  else
    retireNext ch w [] (some (0x02, seq, stream + path * 2 ^ 16 + bits w 10 10 * 2 ^ 32, pc14 c)) true
      (sendToken ⟨path, stream, seq, bit w 10, some ch, ch⟩ s)

def insCget : Ins := fun ch w s =>
  let c := s.core ch
  let n := c.regN (iRa w)
  let i := bits w 15 12
  let done := fun (st : Nat) (s : State) =>
    retireNext ch w [(iRd w, BitVec.ofNat 32 st)] (stallRec s ch n i st) false s
  if bits w 11 0 != 0 then takeTrap ch trIllegal s
  else if 65535 < n then done stLength s
  else if n ≤ c.credit i then done stOk (s.setCore ch (c.setCredit i (c.credit i - n)))
  else stallCore ch 2 s

def insCput : Ins := fun ch w s =>
  let c := s.core ch
  let path := bits (c.regN (iRd w)) 15 0
  let n := c.regN (iRa w)
  let i := bits w 15 12
  let done := retireNext ch w [] (some (0x03, 0, n % 2 ^ 16 + path * 2 ^ 16 + i * 2 ^ 32, pc14 c)) true
  if bits w 11 0 != 0 then takeTrap ch trIllegal s
  else if n = 0 then done s
  else if 65535 < n then takeTrap ch trRange s
  else if !(validPath path) then takeTrap ch trBadPath s
  else done { s with net := s.net ++ [.credits ch path i n] }

/-! ### ISSUE (R142, R143, R279) -/

/-- ISSUE reaches this Chase, what contains it, and the Chases of its Galley (DEDUCED, log 28). -/
def issueReach (ch u : Nat) : Bool := validPath u && (contains u ch || (pathLevel u == 0 && galleyOf u == galleyOf ch))

/-- Room for one more command: in the issue stage or the outbound queue, and in the stream (R143, R279) (DEDUCED, log 28). -/
def issueRoom (s : State) (ch : Nat) (cmd : BitVec 256) : Bool :=
  let t := s.stream (cStream cmd)
  (if cPath cmd = ch then decide (slotsUsed s ch < 16) else decide ((s.core ch).outq.length < 4)) &&
  decide (t.inFlight < t.credits) && t.slotFree


/-- The trace record of an ISSUE. -/
def issueRec (c : CoreSt) (cmd : BitVec 256) (seq st : Nat) : CoreRec :=
  (0x01, seq, st + cOp cmd * 2 ^ 8 + cPath cmd * 2 ^ 16 + cStream cmd * 2 ^ 32, pc14 c)

/-- The command is handed on (R143) (DEDUCED, log 28). -/
def handOn (ch w : Nat) (cmd : BitVec 256) (s : State) : State :=
  let c := s.core ch
  let id := cStream cmd
  let t := s.stream id
  let assign := bit w 15
  let seq := if assign then t.nextSeq else cSeq cmd
  let cmd' := cPlace cmd id seq
  let s := freshSince id (s.setStream id { t with
    inFlight := t.inFlight + 1, nextSeq := if assign then (t.nextSeq + 1) % 2 ^ 32 else t.nextSeq })
  let s := if cPath cmd = ch then enqueue ch ch cmd' (some ch) s else s.setCore ch { s.core ch with outq := c.outq ++ [cmd'] }
  let dst := [(iRd w, BitVec.ofNat 32 stOk)] ++ if bit w 15 then [(iRd w + 1, BitVec.ofNat 32 seq)] else []
  retireNext ch w dst (some (issueRec c cmd seq stOk)) true s

/-- A word of the image that cannot be corrected takes trap ECC (R142, R148) (DEDUCED, log 154); one that can counts (R403). -/
def insIssue : Ins := fun ch w s =>
  let c := s.core ch
  let a := c.regN (iRa w)
  let cmd := BitVec.ofNat 256 (s.num (dmemBase ch + a) 32)
  let bad := fun (st : Nat) =>
    retireNext ch w [(iRd w, BitVec.ofNat 32 st)] (some (issueRec c cmd (cSeq cmd) st)) true
  if bits w 14 0 != 0 || (bit w 15 && iRd w == 31) then takeTrap ch trIllegal s
  else if a % 32 != 0 then takeTrap ch trMisaligned s
  else if 0x4000 ≤ a then takeTrap ch trAddress s
  else if (List.range 8).any (fun i => s.coreEcc (dmemBase ch + a + 4 * i) == 2) then takeTrap ch trEcc s
  else
    let s := s.each (List.range 8) (fun i => correctCore ch (dmemBase ch + a + 4 * i) true)
    if !(issueReach ch (cPath cmd)) then bad stAddress s
    else if !(ownJob s ch (cStream cmd)) then bad stPrivilege s
    else if issueRoom s ch cmd then handOn ch w cmd s
    else stallCore ch 3 s

/-! ### FENCE, WAIT, TRAP, RDCNT (R133, R144 to R147) -/

/-- Every command that the core issued has completed and its record is written. -/
def issuedDone (s : State) (ch : Nat) : Bool :=
  (s.core ch).outq.isEmpty && !(s.units.any (fun u => u.2.q.any (fun e => e.issuer == some ch))) &&
  !(s.streams.any (fun t => t.2.recs.any (fun r => r.issuer == some ch)))

/-- Every token and credit that the core sent has reached its port. -/
def sentDone (s : State) (ch : Nat) : Bool :=
  !(s.net.any (fun x => match x with | .token t => t.src == some ch | .credits src _ _ _ => src == ch))

def insFence : Ins := fun ch w s =>
  if bits w 25 3 != 0 then takeTrap ch trIllegal s
  else if (bit w 2 && !(issuedDone s ch)) || (bit w 1 && !(sentDone s ch)) then stallCore ch 4 s
  else retireNext ch w [] (stallRec s ch 0 0 0) false s

/-- The depth that a WAIT asks for: 3 acts as 1 (R146) (DEDUCED, log 33). -/
def modeDepth (s : State) (ch : Nat) : Nat :=
  match coreFld s ch Fld.CHS_CORE_MODE.depth with
  | 0 => 0
  | 2 => 2
  | _ => 1

def insWait : Ins := fun ch w s =>
  let c := s.core ch
  if bits w 15 0 != 0 then takeTrap ch trIllegal s
  else
    let s := emit1 ch 0x06 0 (s.regN (unitPage ch + 0x108) % 128) (pc14 c) s
    match wakeCause s ch with
    | some k => endWait ch k s
    | none => s.setCore ch { c with run := .waiting, since := s.time, timer := c.regN (iRa w), depth := modeDepth s ch }

/-- TRAP: the core writes a record and stalls until it is written, and while its trace record does not fit (R147, R409)
(DEDUCED, log 32). -/
def insTrap : Ins := fun ch w s =>
  let c := s.core ch
  let stream := bits (c.regN (iRd w)) 15 0
  let code := bits w 15 8
  if bits w 6 0 != 0 || code < 0x80 then takeTrap ch trIllegal s
  else if !(ownJob s ch stream) then takeTrap ch trPrivilege s
  else if c.run == .stalled then
    if s.streams.any (fun x => x.2.recs.any (trapRec ch)) then s else trapWritten ch s
  else
    let r : Rec := ⟨c.regN (iRa w), ch, stream, code, 0xFF, (s.stream stream).job, 0, 0, 0, false, false, none, 0, false⟩
    let s := pushFree r (stallCore ch 0 (logItem (unitPage ch) code ch r.seq s))
    match nextRec s stream with
    | some q => if trapRec ch q then writeRecord stream q s else s
    | none => s

/-- The counters of RDCNT (table Counter selectors). -/
def rdcnt (s : State) (ch sel : Nat) : Option Nat :=
  let c := s.core ch
  match sel with
  | 0 => some (s.time % 2 ^ 32)
  | 1 => some c.timeHi
  | 2 => some ((tickCount s + 2 ^ 32 - c.resetAt % 2 ^ 32) % 2 ^ 32)
  | 3 => some c.retired
  | 4 => some (coreFld s ch Fld.CHS_TRAP_PC.trap_pc)
  | 5 => some (coreFld s ch Fld.CHS_TRAP_CAUSE.cause)
  | n => if 0x10 ≤ n && n ≤ 0x23 then some (s.regN (unitPage ch + 0x30 + 4 * (n - 0x10))) else none

def insRdcnt : Ins := fun ch w s =>
  if bits w 20 16 != 0 then takeTrap ch trIllegal s
  else
    match rdcnt s ch (iImm w) with
    | some v =>
      let c := s.core ch
      setRd (BitVec.ofNat 32 v) ch w
        (if iImm w = 0 then s.setCore ch { c with timeHi := s.time / 2 ^ 32 % 2 ^ 32 } else s)
    | none => takeTrap ch trIllegal s

/-! ### Fetch and execution (R131, R148) -/

/-- The instruction of an opcode. -/
def insOf (op : Nat) : Ins :=
  match op with
  | 0x00 => insAlu
  | 0x01 => insAddi
  | 0x02 => insAndi
  | 0x03 => insOri
  | 0x04 => insXori
  | 0x05 => insShi
  | 0x06 => insLui
  | 0x07 => insSlti
  | 0x08 => insBeq
  | 0x09 => insBne
  | 0x0A => insBlt
  | 0x0B => insBge
  | 0x0C => insBltu
  | 0x0D => insBgeu
  | 0x0E => insJal
  | 0x0F => insJr
  | 0x10 => insRte
  | 0x11 => insLdw
  | 0x12 => insLdh
  | 0x13 => insLdhu
  | 0x14 => insLdb
  | 0x15 => insLdbu
  | 0x16 => insStw
  | 0x17 => insSth
  | 0x18 => insStb
  | 0x20 => insTwait
  | 0x21 => insTsend
  | 0x22 => insCget
  | 0x23 => insCput
  | 0x24 => insIssue
  | 0x25 => insFence
  | 0x26 => insWait
  | 0x27 => insTrap
  | 0x28 => insRdcnt
  | _ => trapIns trIllegal

/-- A trap at the fetch: BREAKPOINT, IMEM_PARITY, ADDRESS (R148), the last also where the PC has run past 0x3FFC (DESIGN CHOICE,
log 29; DEDUCED, log 30; DESIGN CHOICE, log 171). -/
def fetchTrap (s : State) (ch : Nat) : Option Nat :=
  let pc := (s.core ch).pc.toNat
  let page := unitPage ch
  if pc < 0x4000 && s.flag page Fld.CHS_BREAK.enable && s.fld page Fld.CHS_BREAK.addr == pc / 4 then some trBreak
  else if pc < 0x4000 && s.coreEcc (imemBase ch + pc) != 0 then some trParity
  else if 0x4000 ≤ pc then some trAddress
  else none

/-- The core executes what it fetches; a stalled instruction, fetched before, tries again (DESIGN CHOICE, log 29). -/
def coreTry (ch : Nat) (s : State) : State :=
  let run := (s.core ch).run
  let ins := insOf (iOp (coreWord s ch)) ch (coreWord s ch)
  if !(formeOn s ch) then s
  else if run == .stalled then ins s
  else if run == .running then
    match fetchTrap s ch with
    | some k => takeTrap ch k s
    | none => ins s
  else s

/-- The same, unless a trace record holds it (R408, R409) (DESIGN CHOICE, log 29). -/
def coreGo (ch : Nat) (s : State) : State := lossHold ch (coreTry ch) s

/-- The command of a row: it happens when the core fetches the row's opcode, an opcode of no row, or traps at the fetch
(DESIGN CHOICE, log 29). -/
def coreRow (op ch : Nat) (s : State) : State :=
  let f := iOp (coreWord s ch)
  if isChase ch && (f == op || !(listedOp f) || ((s.core ch).run == .running && (fetchTrap s ch).isSome)) then coreGo ch s else s

def execAlu (ch : Nat) (s : State) : Host.Outcome State Fault Refusal := .next (coreRow 0x00 ch s)
def execAddi (ch : Nat) (s : State) : Host.Outcome State Fault Refusal := .next (coreRow 0x01 ch s)
def execAndi (ch : Nat) (s : State) : Host.Outcome State Fault Refusal := .next (coreRow 0x02 ch s)
def execOri (ch : Nat) (s : State) : Host.Outcome State Fault Refusal := .next (coreRow 0x03 ch s)
def execXori (ch : Nat) (s : State) : Host.Outcome State Fault Refusal := .next (coreRow 0x04 ch s)
def execShi (ch : Nat) (s : State) : Host.Outcome State Fault Refusal := .next (coreRow 0x05 ch s)
def execLui (ch : Nat) (s : State) : Host.Outcome State Fault Refusal := .next (coreRow 0x06 ch s)
def execSlti (ch : Nat) (s : State) : Host.Outcome State Fault Refusal := .next (coreRow 0x07 ch s)
def execBeq (ch : Nat) (s : State) : Host.Outcome State Fault Refusal := .next (coreRow 0x08 ch s)
def execBne (ch : Nat) (s : State) : Host.Outcome State Fault Refusal := .next (coreRow 0x09 ch s)
def execBlt (ch : Nat) (s : State) : Host.Outcome State Fault Refusal := .next (coreRow 0x0A ch s)
def execBge (ch : Nat) (s : State) : Host.Outcome State Fault Refusal := .next (coreRow 0x0B ch s)
def execBltu (ch : Nat) (s : State) : Host.Outcome State Fault Refusal := .next (coreRow 0x0C ch s)
def execBgeu (ch : Nat) (s : State) : Host.Outcome State Fault Refusal := .next (coreRow 0x0D ch s)
def execJal (ch : Nat) (s : State) : Host.Outcome State Fault Refusal := .next (coreRow 0x0E ch s)
def execJr (ch : Nat) (s : State) : Host.Outcome State Fault Refusal := .next (coreRow 0x0F ch s)
def execRte (ch : Nat) (s : State) : Host.Outcome State Fault Refusal := .next (coreRow 0x10 ch s)
def execLdw (ch : Nat) (s : State) : Host.Outcome State Fault Refusal := .next (coreRow 0x11 ch s)
def execLdh (ch : Nat) (s : State) : Host.Outcome State Fault Refusal := .next (coreRow 0x12 ch s)
def execLdhu (ch : Nat) (s : State) : Host.Outcome State Fault Refusal := .next (coreRow 0x13 ch s)
def execLdb (ch : Nat) (s : State) : Host.Outcome State Fault Refusal := .next (coreRow 0x14 ch s)
def execLdbu (ch : Nat) (s : State) : Host.Outcome State Fault Refusal := .next (coreRow 0x15 ch s)
def execStw (ch : Nat) (s : State) : Host.Outcome State Fault Refusal := .next (coreRow 0x16 ch s)
def execSth (ch : Nat) (s : State) : Host.Outcome State Fault Refusal := .next (coreRow 0x17 ch s)
def execStb (ch : Nat) (s : State) : Host.Outcome State Fault Refusal := .next (coreRow 0x18 ch s)
def execTwait (ch : Nat) (s : State) : Host.Outcome State Fault Refusal := .next (coreRow 0x20 ch s)
def execTsend (ch : Nat) (s : State) : Host.Outcome State Fault Refusal := .next (coreRow 0x21 ch s)
def execCget (ch : Nat) (s : State) : Host.Outcome State Fault Refusal := .next (coreRow 0x22 ch s)
def execCput (ch : Nat) (s : State) : Host.Outcome State Fault Refusal := .next (coreRow 0x23 ch s)
def execIssue (ch : Nat) (s : State) : Host.Outcome State Fault Refusal := .next (coreRow 0x24 ch s)
def execFence (ch : Nat) (s : State) : Host.Outcome State Fault Refusal := .next (coreRow 0x25 ch s)
def execWait (ch : Nat) (s : State) : Host.Outcome State Fault Refusal := .next (coreRow 0x26 ch s)
def execTrap (ch : Nat) (s : State) : Host.Outcome State Fault Refusal := .next (coreRow 0x27 ch s)
def execRdcnt (ch : Nat) (s : State) : Host.Outcome State Fault Refusal := .next (coreRow 0x28 ch s)

/-! ### Tokens and credits that arrive (R135, R141) -/

/-- A core stalled on an instruction that may end now tries it. -/
def retryCore (ch : Nat) (s : State) : State := if (s.core ch).run == .stalled then coreGo ch s else s

/-- The first element that `p` takes and that no earlier element of its own kind `k` precedes. -/
def firstOf {α β : Type} [BEq β] (k : α → β) (p : α → Bool) : List β → List α → Option α
  | _, [] => none
  | seen, x :: xs => if p x && !(seen.contains (k x)) then some x else firstOf k p (k x :: seen) xs

/-- What is on its way that is next to arrive at a unit and has these words: what one source sends reaches it in the order in
which it was sent (R39). -/
def nextSent (s : State) (u : Nat) (p : Sent → Bool) : Option Sent :=
  firstOf Sent.via p [] (s.net.filter (fun x => x.dest == u))

/-- A token with these words. -/
def Sent.isToken (stream seq : Nat) (st : Bool) : Sent → Bool
  | .token t => t.stream == stream && t.seq == seq && t.st == st
  | .credits _ _ _ _ => false

/-- Credits with these words. -/
def Sent.isCredits (ctr n : Nat) : Sent → Bool
  | .token _ => false
  | .credits _ _ i k => i == ctr && k == n

/-- The unit path that PWR_LAST_WAKE records for a sender (R447): 0x8000 for what came from another module (DEDUCED, log 96). -/
def senderPath (via : Nat) : Nat := if via < 65536 then via else modulePath

/-- Takes what arrives out of the network. -/
def takeSent (x : Sent) (s : State) : State := { s with net := dropFirst (· == x) s.net }

/-- A token is at a unit's port: the record, held commands of the unit, a TWAIT and a WAIT meet it (R15, R135, R90, R137, R145). -/
def meetArrival (u stream seq : Nat) (st : Bool) (s : State) : State :=
  let s := s.each ((s.units.map (·.1)).filter (contains u)) (fun x s => s.setQ x ((s.q x).map (meetToken stream seq st)))
  let s := recordToken u ⟨u, stream, seq, st, none, u⟩ s
  let s := if isChase u then retryCore u (wakeSource u 1 s) else s
  settle (tryArrays u s)

/-- TOKEN_ARRIVAL: a token that is next from its source arrives; a port that holds a token refuses it, and it stays in the
network (R39, R135). -/
def tokenArrival (u stream seq : Nat) (st : Bool) (s : State) : State :=
  let next := fun (s : State) => nextSent s u (Sent.isToken stream seq st)
  let arrive := fun (act : State → State) (s : State) =>
    match next s with
    | some x => act (takeSent x s)
    | none => s
  match s.net.find? (fun x => x.dest == u && x.isToken stream seq st) with
  | none => s
  | some x =>
    if !(validPath u) || (s.unit u).port.isSome then s
    else
      atEdge u 2 (senderPath ((next s).getD x).via) (.tokenArrival u stream seq st) (arrive (countWakeTo u))
        (arrive (meetArrival u stream seq st)) s

def execTokenArrival (u stream seq : Nat) (st : Bool) (s : State) : Host.Outcome State Fault Refusal :=
  .next (tokenArrival u stream seq st s)


/-- Credits reach a unit: a program counter of a Chase, saturating and counting the excess, or output-Tile credits of any unit;
a unit above a Chase has no program counters, and credits for one vanish there (R141) (DESIGN CHOICE, log 155). -/
def meetCredits (u ctr n : Nat) (s : State) : State :=
  if ctr < 16 then
    if isChase u then
      let c := s.core u
      let sum := c.credit ctr + n
      let s := s.setCore u (c.setCredit ctr (min sum 65535))
      let s := s.bump (unitPage u) 19 (sum - 65535)
      retryCore u (wakeSource u 2 s)
    else s
  else
    let x := s.unit u
    settle (tryArrays u (s.setUnit u { x with tileCredits := x.tileCredits + n }))

/-- CREDIT_ARRIVAL: program credits that a CPUT sent, in the order of their source (R39, R141), or credits of free Tile buffers,
whose sender the spec does not name (R15, R90) (DEDUCED, log 14). -/
def creditArrival (u ctr n : Nat) (s : State) : State :=
  let next := fun (s : State) => nextSent s u (Sent.isCredits ctr n)
  let arrive := fun (act : State → State) (s : State) =>
    if 16 ≤ ctr then act s
    else
      match next s with
      | some x => act (takeSent x s)
      | none => s
  let found := s.net.find? (fun x => x.dest == u && x.isCredits ctr n)
  if !(validPath u) || (decide (ctr < 16) && found.isNone) then s
  else
    atEdge u 3 (senderPath (((next s).or found).elim modulePath (·.via))) (.creditArrival u ctr n) (arrive (countWakeTo u))
      (arrive (meetCredits u ctr n)) s

def execCreditArrival (u ctr count : Nat) (s : State) : Host.Outcome State Fault Refusal := .next (creditArrival u ctr count s)

/-! ### Timeouts, timer, watchdog (R137, R140, R143, R145, R150) -/

def trapOnTimeout (s : State) (ch : Nat) : Bool := coreFlag s ch Fld.CHS_CORE_MODE.trap_on_timeout

/-- A core stalled with a code whose `limit` ticks are over: what arrives in the tick of expiry still counts (R137)
(DESIGN CHOICE, log 4). -/
def stalledFor (s : State) (ch code limit : Nat) : Bool :=
  let c := s.core ch
  c.run == .stalled && c.stall == code && overdue s c.since limit

/-- TWAIT_TIMEOUT (DESIGN CHOICE, log 4). -/
def twaitTimeout (ch : Nat) (s : State) : State :=
  if stalledFor s ch 1 (tokLimit s (pathDie ch)) then
    let c := s.core ch
    let w := coreWord s ch
    let stream := bits (c.regN (iRa w)) 15 0
    let seq := c.regN (iRb w)
    if (twaitStatus s ch stream seq).isSome then coreGo ch s
    else onTimeout (pathDie ch) stream seq (lossHold ch (fun s =>
      if trapOnTimeout s ch then takeTrap ch trTokenTo s
      else retireNext ch w [(iRd w, BitVec.ofNat 32 stTokenTo)] (stallRec s ch seq stream stTokenTo) false s)) s
  else s

def execTwaitTimeout (ch : Nat) (s : State) : Host.Outcome State Fault Refusal := .next (twaitTimeout ch s)

/-- CGET_TIMEOUT. -/
def cgetTimeout (ch : Nat) (s : State) : State :=
  if stalledFor s ch 2 (credLimit s (pathDie ch)) then
    let c := s.core ch
    let w := coreWord s ch
    let n := c.regN (iRa w)
    if n ≤ c.credit (bits w 15 12) then coreGo ch s
    else onTimeout (pathDie ch) 0 0 (lossHold ch (fun s =>
      if trapOnTimeout s ch then takeTrap ch trCreditTo s
      else retireNext ch w [(iRd w, BitVec.ofNat 32 stCreditTo)] (stallRec s ch n (bits w 15 12) stCreditTo) false s)) s
  else s

def execCgetTimeout (ch : Nat) (s : State) : Host.Outcome State Fault Refusal := .next (cgetTimeout ch s)

/-- ISSUE_TIMEOUT: outcome 3. -/
def issueTimeout (ch : Nat) (s : State) : State :=
  if stalledFor s ch 3 (credLimit s (pathDie ch)) then
    let c := s.core ch
    let w := coreWord s ch
    let cmd := BitVec.ofNat 256 (s.num (dmemBase ch + c.regN (iRa w)) 32)
    if issueRoom s ch cmd then coreGo ch s
    else onTimeout (pathDie ch) (cStream cmd) (cSeq cmd) (lossHold ch
      (retireNext ch w [(iRd w, BitVec.ofNat 32 stCreditTo)] (some (issueRec c cmd (cSeq cmd) stCreditTo)) true)) s
  else s

def execIssueTimeout (ch : Nat) (s : State) : Host.Outcome State Fault Refusal := .next (issueTimeout ch s)

/-- WAIT_TIMER_EXPIRY. -/
def waitTimerExpiry (ch : Nat) (s : State) : State :=
  let c := s.core ch
  if c.run == .waiting && c.timer != 0 && decide (c.since + c.timer ≤ s.time) then
    atEdge ch 7 ch (.waitTimerExpiry ch) (countWakeTo ch) (wakeSource ch 4) s
  else s

def execWaitTimerExpiry (ch : Nat) (s : State) : Host.Outcome State Fault Refusal := .next (waitTimerExpiry ch s)

/-- The watchdog period: 0 disables; 1 to 15 act as 16. -/
def wdPeriod (s : State) (ch : Nat) : Option Nat :=
  let e := coreFld s ch Fld.CHS_WDOG.wd_exp
  if e = 0 then none else some (2 ^ max 16 e)

/-- WATCHDOG_EXPIRY: at an instruction boundary or during a wait; the count restarts as the trap is taken. -/
def watchdogExpiry (ch : Nat) (s : State) : State :=
  let c := s.core ch
  match wdPeriod s ch with
  | some p =>
    if (c.run == .running || c.run == .stalled) && decide (p ≤ c.wd) then
      lossHold ch (fun s => takeTrap ch trWatchdog (raiseEv (unitPage ch) 10 (s.setCore ch { c with wd := 0 }))) s
    else s
  | none => s

def execWatchdogExpiry (ch : Nat) (s : State) : Host.Outcome State Fault Refusal := .next (watchdogExpiry ch s)

/-! ### The outbound queue (R143, R41) -/

/-- OUTBOUND_SEND: the first command of the queue leaves when its unit advertises a slot. -/
def outboundSend (ch : Nat) (s : State) : State :=
  let c := s.core ch
  match c.outq with
  | [] => s
  | cmd :: rest =>
    let s' := s.setCore ch { c with outq := rest }
    match cannotPass s ch cmd with
    | some st => if clockStopped s ch then s else retryCore ch (completeNear ch cmd (some ch) st s')
    | none => if slotFree s (cPath cmd) && !(clockStopped s ch) then retryCore ch (enqueue (cPath cmd) ch cmd (some ch) s') else s

def execOutboundSend (ch : Nat) (s : State) : Host.Outcome State Fault Refusal := .next (outboundSend ch s)

/-! ### The host's commands (R145, R151, R537, R538) -/

/-- A host access to a page of a unit: owner only, at the edge of its Forme. -/
def hostOwn (fn u o : Nat) (i : Instr) (act : State → State) (s : State) : State :=
  ownerWrite fn (unitPage u) o (atEdge u (hostSource fn) modulePath i (hostWakeFail u) act) s

/-- Starts a load request (R154, R537). -/
def startLoad (ch : Nat) (dmem : Bool) (s : State) : State :=
  let c := s.core ch
  if c.run == .halted then s.setCore ch { c with run := .loading, stall := 5, loads := [dmem] }
  else logStatus (unitPage ch) stConflict s

/-- Runs one instruction from halt (R538). -/
def stepCore (ch : Nat) (s : State) : State :=
  let c := s.core ch
  if c.run == .halted then coreGo ch (s.setCore ch { c with run := .running, stepping := true }) else s

/-- Starts the core at its PC; after a step that still waits, it goes on running. -/
def runCore (ch : Nat) (s : State) : State :=
  let c := s.core ch
  if c.run == .halted then s.setCore ch { c with run := .running }
  else if c.stepping then s.setCore ch { c with stepping := false }
  else s

/-- Action `k` of CHS_CORE_CTRL, by its bit number. -/
def coreAction (ch k : Nat) (s : State) : State :=
  match k with
  | 0 => runCore ch s
  | 1 => haltCore ch s
  | 2 => stepCore ch s
  | 3 => resetCore ch s
  | 4 => wakeSource ch 5 s
  | 5 => startLoad ch false s
  | _ => startLoad ch true s

/-- Actions in order; those behind a load that has begun wait for it (R538) (DEDUCED, log 131). -/
def coreActions (ch : Nat) : List Nat → State → State
  | [], s => s
  | k :: ks, s =>
    let s' := coreAction ch k s
    if (k == 5 || k == 6) && (s'.core ch).run == .loading then s'.setCore ch { s'.core ch with todo := ks }
    else coreActions ch ks s'

/-- The actions of one write to CHS_CORE_CTRL, in the order of R538. -/
def ctrlActions (v : Nat) : List Nat := [1, 3, 5, 6, 2, 0, 4].filter (fun k => bit v k)

/-- A write of CHS_CORE_CTRL; a write that comes while a load runs acts after it, but for another load (R154). -/
def coreCtrl (ch : Nat) (ks : List Nat) (s : State) : State :=
  if (s.core ch).run == .loading then
    let s := s.when (ks.any (fun k => k == 5 || k == 6)) (logStatus (unitPage ch) stConflict)
    let c := s.core ch
    s.setCore ch { c with todo := c.todo ++ ks.filter (fun k => k != 5 && k != 6) }
  else coreActions ch ks s

def execCoreRun (fn ch : Nat) (s : State) : Host.Outcome State Fault Refusal :=
  .next (posted fn (.coreRun fn ch) (fun s => hostOwn fn ch 0x100 (.coreRun fn ch) (coreCtrl ch [0]) s) s)
def execCoreHalt (fn ch : Nat) (s : State) : Host.Outcome State Fault Refusal :=
  .next (posted fn (.coreHalt fn ch) (fun s => hostOwn fn ch 0x100 (.coreHalt fn ch) (coreCtrl ch [1]) s) s)
def execCoreStep (fn ch : Nat) (s : State) : Host.Outcome State Fault Refusal :=
  .next (posted fn (.coreStep fn ch) (fun s => hostOwn fn ch 0x100 (.coreStep fn ch) (coreCtrl ch [2]) s) s)
def execCoreReset (fn ch : Nat) (s : State) : Host.Outcome State Fault Refusal :=
  .next (posted fn (.coreReset fn ch) (fun s => hostOwn fn ch 0x100 (.coreReset fn ch) (coreCtrl ch [3]) s) s)
def execLoadImem (fn ch : Nat) (s : State) : Host.Outcome State Fault Refusal :=
  .next (posted fn (.loadImem fn ch) (fun s => hostOwn fn ch 0x100 (.loadImem fn ch) (coreCtrl ch [5]) s) s)
def execLoadDmem (fn ch : Nat) (s : State) : Host.Outcome State Fault Refusal :=
  .next (posted fn (.loadDmem fn ch) (fun s => hostOwn fn ch 0x100 (.loadDmem fn ch) (coreCtrl ch [6]) s) s)

/-- CORE_WAKE: a wake source of its own at a gated Forme (table Wake sources). -/
def execCoreWake (fn ch : Nat) (s : State) : Host.Outcome State Fault Refusal :=
  .next (posted fn (.coreWake fn ch) (fun s => ownerWrite fn (unitPage ch) 0x100
    (atEdge ch 8 modulePath (.coreWake fn ch) (hostWakeFail ch) (coreCtrl ch [4])) s) s)

/-- A read of the image meets ADDRESS_FAULT or an uncorrectable error (R537). -/
def loadFails (s : State) (a : Nat) : Bool :=
  (unmappedIn s a 16384).isSome ||
  (List.range 128).any (fun i => (readFail s (a + 128 * i) 128).isSome)

/-- CORE_LOAD_DONE: the memory takes the whole image or is cleared (R537). -/
def loadDone (ch : Nat) (s : State) : State :=
  let c := s.core ch
  match c.run, c.loads with
  | .loading, dmem :: _ =>
    let src := s.reg64 (unitPage ch + 0x12C) + if dmem then 16384 else 0
    let base := if dmem then dmemBase ch else imemBase ch
    if remoteWaits s src 16384 then askRemote src 16384 s
    else
    let bad := loadFails s src
    let data := if bad then List.replicate 16384 0 else folioBytes s src 16384
    let s := freshCore base (readOver src 16384 ((s.when (!bad) (readDone src 16384)).setBytes base data))
    let s := s.setCore ch { c with run := .halted, stall := 0, loads := [], loadErr := bad, todo := [] }
    coreActions ch c.todo (raiseEv (unitPage ch) 11 s)
  | _, _ => s

def execCoreLoadDone (ch : Nat) (s : State) : Host.Outcome State Fault Refusal := .next (loadDone ch s)

/-- The memory key that CHS_MEM_ADDR names. -/
def memKey (s : State) (ch : Nat) : Nat :=
  (if s.flag (unitPage ch) Fld.CHS_MEM_ADDR.sel then dmemBase ch else imemBase ch) + 4 * s.fld (unitPage ch) Fld.CHS_MEM_ADDR.word

/-- CHS_MEM_ADDR advances by one word within its memory. -/
def nextMem (ch : Nat) (s : State) : State :=
  s.setFld (unitPage ch) Fld.CHS_MEM_ADDR.word ((s.fld (unitPage ch) Fld.CHS_MEM_ADDR.word + 1) % 4096)

/-- A host write of CHS_MEM_DATA (R154) (DESIGN CHOICE, log 34). -/
def memWrite (ch : Nat) (v : Word) (s : State) : State :=
  if (s.core ch).run == .halted then
    let k := memKey s ch
    nextMem ch ((s.setNum k 4 v.toNat).setCoreEcc k 0)
  else logStatus (unitPage ch) stConflict s

/-- A host read of CHS_MEM_DATA: 0 while the core is not halted, which does not advance the word (DESIGN CHOICE, log 34). -/
def memRead (fn ch : Nat) (s : State) : State :=
  if (s.core ch).run == .halted then
    nextMem ch (s.send (.regRead fn (unitPage ch + 0x128) (BitVec.ofNat 32 (s.num (memKey s ch) 4))))
  else s.send (.regRead fn (unitPage ch + 0x128) 0)

/-- CHS_MEM_DATA_ACCESS. -/
def execChsMemDataAccess (fn ch : Nat) (wr : Bool) (v : Word) (s : State) : Host.Outcome State Fault Refusal :=
  .next (posted fn (.chsMemDataAccess fn ch wr v) (fun s =>
    if wr then hostOwn fn ch 0x128 (.chsMemDataAccess fn ch wr v) (memWrite ch v) s
    else
      guarded fn (unitPage ch + 0x128) (mayRead s fn (unitPage ch))
        (atEdge ch (hostSource fn) modulePath (.chsMemDataAccess fn ch wr v)
          (fun s => (hostWakeFail ch s).send (.regRead fn (unitPage ch + 0x128) 0)) (memRead fn ch)) s) s)

end Sys2Proof.Machine
end

