-- ==== Sys2Proof/Machine/Tiers.lean ====
section
/-! DEFINITION. The tier manager's commands: map and unmap (R243 to R245), moves (R253, R254), watermarks (R256), quotas (R259),
leases (R260, R261) and scrub (R264, R265). -/

namespace Sys2Proof.Machine

/-! ### Map and unmap -/

/-- A doubleword of a region record. -/
def recD (s : State) (r i : Nat) : Nat := s.num (regionBase s + 64 * r + 8 * i) 8

/-- The region that a record describes (table Region record). -/
def recRegion (s : State) (r : Nat) : Region :=
  let d1 := recD s r 1
  let d2 := recD s r 2
  ⟨bits (recD s r 0) 33 0, bits d1 31 0, (if bits d1 43 36 = 0 then 128 else bits d1 43 36), bits d1 35 32, bits d1 55 44,
   bits (recD s r 3) 49 0, bits d2 2 0, bits d2 5 3, bits d2 8 6, bits d2 24 9⟩

/-- The stride that a format asks for, in units of 128 bytes (check 2). -/
def formatStride (f : Nat) : Nat := strideOf f / 128

/-- Directory entries from `d`, `n` of them, lie in the fixed range, are valid and name leaves that lie in it (R241, check 4). -/
def leavesValid (s : State) (d n : Nat) : Bool :=
  (List.range n).all (fun i => inFixed s (fmapBase s + 8 * (d + i)) 8 &&
    (match leafOf s ((d + i) * 131072) with | some l => inFixed s l (2 ^ 20) | none => false))

/-- Some Folio of the range is mapped. -/
def anyMapped (s : State) (f n : Nat) : Bool := (List.range n).any (fun i => mapped s (f + i))

/-- The checks of the table Map checks, and of the region record's own place, which check 1 reads: the first failure's status
(R241, R244) (DEDUCED, log 36). -/
def mapCheck (s : State) (r : Nat) : Nat :=
  let g := recRegion s r
  let level := if validPath g.near then pathLevel g.near else 9
  if regionLimit s ≤ r then stFormat
  else if !(inFixed s (regionBase s + 64 * r) 64) then stAddress
  else if !(bit (recD s r 1) 56) then stFormat
  else if (0xC ≤ g.format && g.format ≤ 0xE) || (g.format ≤ 0xB && g.stride != formatStride g.format) then stFormat
  else if !(g.ceiling ≤ g.home && g.home ≤ g.floor) || 4 < g.floor || (g.ceiling == 0 && level != 0) ||
      (g.ceiling == 1 && 1 < level) then stFormat
  else if 2 ^ 34 < g.base + g.folios || (g.folios != 0 && (g.base < fixedFolios s ||
      !(leavesValid s (g.base / 131072) ((g.base + g.folios - 1) / 131072 - g.base / 131072 + 1)))) ||
      (g.tiles != 0 && !(inFixed s g.stateAddr (16 * g.tiles))) then stAddress
  else if (s.region r).isSome || anyMapped s g.base g.folios then stConflict
  else stOk

/-- Writes the leaf entries of `n` Folios (DEDUCED, log 36). -/
def setLeaves (f n e : Nat) (s : State) : State :=
  s.each (List.range n) (fun i s =>
    match leafEntryAddr s (f + i) with
    | some a => fixedWrite a 8 e s
    | none => s)

def tmResult (code : Nat) (s : State) : State := s.setRegN (tierPage 0 + 0x9C) (code * 2)

/-- A map (R244) (DEDUCED, log 36). -/
def mapRegion (r : Nat) (s : State) : State :=
  let code := mapCheck s r
  if code != stOk then tmResult code s
  else
    let g := recRegion s r
    if g.folios = 0 then raiseEv (tierPage 0) 0 (tmResult stOk s)
    else
      let s := s.each (List.range g.tiles) (fun j => setTileState ⟨r, g, j⟩ tsNever)
      let s := setLeaves g.base g.folios (1 + 2 * r) s
      let s := { s with tiers := { s.tiers with regions := SMap.insert s.tiers.regions r g } }
      raiseEv (tierPage 0) 0 (tmResult stOk s)

/-- An unmap (R245). -/
def unmapRegion (r : Nat) (s : State) : State :=
  if regionLimit s ≤ r then tmResult stFormat s
  else
    match s.region r with
    | none => tmResult stOk s
    | some g =>
      let refs := (List.range g.tiles).map (fun j => (⟨r, g, j⟩ : TileRef))
      if s.cask.pend.any (fun u => u.1 == r + 1) || refs.any (fun t => tsTransit (tileState s t) || tsPins (tileState s t) != 0 || tsClaims (tileState s t) != 0) then
        tmResult stConflict s
      else
        let s := s.each refs freeTile
        let s := setLeaves g.base g.folios 0 s
        tmResult stOk { s with
          tiers := { s.tiers with regions := SMap.erase s.tiers.regions r }
          cask := { s.cask with heel := s.cask.heel.filter (· != r) } }

def execRegionMap (fn r : Nat) (s : State) : Host.Outcome State Fault Refusal :=
  .next (posted fn (.regionMap fn r) (fun s => ownerWrite fn (tierPage 0) 0x98 (mapRegion r) s) s)
def execRegionUnmap (fn r : Nat) (s : State) : Host.Outcome State Fault Refusal :=
  .next (posted fn (.regionUnmap fn r) (fun s => ownerWrite fn (tierPage 0) 0x98 (unmapRegion r) s) s)

/-! ### Moves -/

/-- TILE_MOVE: a request of the tier manager's own to move a Tile, settled as the table Request outcomes says (R257). -/
def tileMove (r j tier : Nat) (s : State) : State :=
  match tileRef s r j with
  | none => s
  | some t =>
    let now := tsTier (tileState s t)
    if now = tier then s else settle (request (if tier < now then 0 else 1) tier none t s)

def execTileMove (r j tier : Nat) (s : State) : Host.Outcome State Fault Refusal := .next (tileMove r j tier s)

/-- The lender of a move between the module and a lease cannot be reached (R254). -/
def lenderGone (s : State) (m : Move) : Bool :=
  match moveLease s m with
  | some (l, _) => !(reachable s (leaseOf s l).dest)
  | none => false

/-- TILE_MOVE_COMMIT: a move in progress whose lender has answered ends; what waited for it goes on (R253, R254, R309). -/
def tileMoveCommit (r j : Nat) (s : State) : State :=
  match s.tiers.moves.find? (fun m => m.region == r && m.tile == j) with
  | some m => if m.left != 0 && !(lenderGone s m) then s else settle (tryArrays modulePath (endMove m s))
  | none => s

/-! ### Watermarks (R256) -/

/-- Every Tile of the mapped regions. -/
def allTiles (s : State) : List TileRef :=
  (s.tiers.regions.map (fun x => (List.range x.2.tiles).map (fun j => (⟨x.1, x.2, j⟩ : TileRef)))).flatten

/-- The memory that holds a Tile. -/
def placeOf (s : State) (t : TileRef) : Nat := (placeOfLoc (tsTier (tileState s t)) (tsLoc (tileState s t))).1

/-- The tick of a Tile's last use. -/
def usedAt (s : State) (t : TileRef) : Nat := SMap.get (fun _ => 0) s.tiers.lastUse (t.id * 2 ^ 32 + t.j)

/-- Inserts by last use, least recent first. -/
def insertByUse (s : State) (t : TileRef) : List TileRef → List TileRef
  | [] => [t]
  | x :: xs => if usedAt s t < usedAt s x then t :: x :: xs else x :: insertByUse s t xs

def byUse (s : State) (l : List TileRef) : List TileRef := l.foldl (fun a t => insertByUse s t a) []

/-- A Tile holds memory: it is written and not lost. -/
def resident (s : State) (t : TileRef) : Bool := decide (tsTier (tileState s t) ≤ 4) && !(tsLost (tileState s t))

/-- Tiles that a watermark may evict. -/
def wmTiles (s : State) (l : List Nat) : List TileRef :=
  byUse s ((allTiles s).filter (fun t => resident s t && l.contains (placeOf s t) && regionAuto s t.id && !(pinned s t) &&
    idleTile s t && decide (tsTier (tileState s t) + 1 ≤ t.reg.floor)))

/-- Bytes that a Tile takes where it lies. -/
def takenBy (s : State) (t : TileRef) : Nat :=
  let (pl, off) := placeOfLoc (tsTier (tileState s t)) (tsLoc (tileState s t))
  extentLen s pl off

/-- Bytes of the Tiles that moves in progress take away, of those that `p` takes (DEDUCED, log 43). -/
def leaving (p : TileRef → Bool) (s : State) : Nat :=
  s.tiers.moves.foldl (fun n m =>
    match tileRef s m.region m.tile with
    | some t => if p t then n + takenBy s t else n
    | none => n) 0

/-- Starts evictions to the next tier until `left` more bytes are on their way (DEDUCED, log 43). -/
def evictMany : List TileRef → Nat → State → State
  | [], _, s => s
  | t :: ts, left, s =>
    if left = 0 then s
    else
      match startMove t (tsTier (tileState s t) + 1) false none s with
      | some s' => evictMany ts (left - takenBy s t) s'
      | none => evictMany ts left s

/-- WATERMARK_EVICT: what moves already take away counts toward the low watermark (DEDUCED, log 43). -/
def watermarkEvict (kind idx : Nat) (s : State) : State :=
  let l := wmPlaces kind idx
  let (high, low) := wmLevels s kind (wmDie kind idx)
  let size := wmSize s l
  let use := wmUse s l
  if high * size < use * 64 then
    evictMany (wmTiles s l) (use - low * size / 64 - leaving (fun t => l.contains (placeOf s t)) s) s
  else s

def execWatermarkEvict (kind idx : Nat) (s : State) : Host.Outcome State Fault Refusal := .next (watermarkEvict kind idx s)

/-! ### Quotas (R259) -/

def units64k (n : Nat) : Nat := ceilDiv n 65536

/-- QUOTA_LOAD. -/
def quotaLoad (s : State) : State :=
  let j := s.fld (tierPage 0) Fld.DIE_QUOTA_IDX.job
  let l := s.limit j
  let u := s.use j
  let b := tierPage 0
  (((((s.setRegN (b + 0xA8) l.hbm).setRegN (b + 0xAC) l.bulk).setRegN (b + 0xB0) l.remote).setRegN (b + 0xB4)
    (units64k u.hbm)).setRegN (b + 0xB8) (units64k u.bulk)).setRegN (b + 0xBC) (units64k u.remote)

def execQuotaLoad (fn : Nat) (s : State) : Host.Outcome State Fault Refusal :=
  .next (posted fn (.quotaLoad fn) (fun s => ownerWrite fn (tierPage 0) 0xC0 quotaLoad s) s)

/-- A job's idle, unpinned Tiles in a tier that may go lower, least recently used first. -/
def quotaTiles (s : State) (job tier : Nat) : List TileRef :=
  byUse s ((allTiles s).filter (fun t => t.reg.job == job && resident s t && tsTier (tileState s t) == tier && !(pinned s t) &&
    idleTile s t && decide (tier + 1 ≤ t.reg.floor)))

/-- Bytes of a job above its limit in a tier. -/
def excessOf (s : State) (job tier : Nat) : Nat := (s.use job).at tier - (s.limit job).at tier * 65536

/-- Bytes of a job that moves take away from a tier. -/
def jobLeaving (s : State) (job tier : Nat) : Nat :=
  leaving (fun t => t.reg.job == job && tsTier (tileState s t) == tier) s

/-- A tier whose use exceeds the job's limit: Tiles are evicted; EV_QUOTA_OVER, once, when none that could be is left and use
would still exceed it (R259) (DEDUCED, log 44). -/
def enforceQuota (job tier : Nat) (s : State) : State :=
  let excess := excessOf s job tier
  let told := fun (l : List (Nat × Nat)) (s : State) => { s with tiers := { s.tiers with exceeded := l } }
  if excess = 0 then told (s.tiers.exceeded.filter (· != (job, tier))) s
  else
    let s := evictMany (quotaTiles s job tier) (excess - jobLeaving s job tier) s
    if decide (jobLeaving s job tier < excess) && (quotaTiles s job tier).all (moveRoom s) &&
        !(s.tiers.exceeded.contains (job, tier)) then
      told (s.tiers.exceeded ++ [(job, tier)]) (raiseEv (tierPage 0) 1 s)
    else s

/-- The tier manager's work in the background: every limit that use exceeds is enforced (R259) (DEDUCED, log 44). -/
def enforceQuotas (s : State) : State :=
  s.each (s.tiers.limits.map (·.1)) (fun j s => s.each [2, 3, 4] (enforceQuota j))

/-- QUOTA_COMMIT (DEDUCED, log 44). -/
def quotaCommit (s : State) : State :=
  let b := tierPage 0
  let j := s.fld b Fld.DIE_QUOTA_IDX.job
  let q : Quota := ⟨s.regN (b + 0xA8), s.regN (b + 0xAC), s.regN (b + 0xB0)⟩
  let s := { s with tiers := { s.tiers with
    limits := SMap.set (fun _ => quotaMax) s.tiers.limits j q, exceeded := s.tiers.exceeded.filter (fun x => x.1 != j) } }
  s.each [2, 3, 4] (enforceQuota j)

def execQuotaCommit (fn : Nat) (s : State) : Host.Outcome State Fault Refusal :=
  .next (posted fn (.quotaCommit fn) (fun s => ownerWrite fn (tierPage 0) 0xC0 quotaCommit s) s)

/-! ### Leases (R260 to R262) -/

/-- A LEASE packet (R303). -/
def sendLease (dest sub lease size expiry : Nat) (s : State) : State :=
  sendPacket { packData (mkPacket s ptLease dest) (leBytes size 4 ++ leBytes expiry 4 ++ List.replicate 8 0) with
    sub := sub, stream := lease } s

def leaseIdx (s : State) : Nat := s.fld (tierPage 0) Fld.DIE_LEASE_IDX.lease

/-- Bytes that the Tiles of a lease hold. -/
def leaseUsed (s : State) (l : Nat) : Nat := (s.tiers.extents.filter (fun x => x.place == placeLease l)).foldl (fun n x => n + x.len) 0

/-- LEASE_LOAD. -/
def leaseLoad (s : State) : State :=
  let b := tierPage 0
  let l := leaseIdx s
  let x := leaseOf s l
  (((s.setRegN (b + 0xC8) (x.dest + x.state * 2 ^ 12 + b2n x.refused * 2 ^ 14)).setRegN (b + 0xCC) x.size).setRegN (b + 0xD0)
    x.expiry).setRegN (b + 0xD4) (units64k (leaseUsed s l))

def leaseWrite (fn : Nat) (act : State → State) (s : State) : State := ownerWrite fn (tierPage 0) 0xD8 act s

def execLeaseLoad (fn : Nat) (s : State) : Host.Outcome State Fault Refusal :=
  .next (posted fn (.leaseLoad fn) (fun s => leaseWrite fn leaseLoad s) s)

def leaseConflict (s : State) : State := logStatus (tierPage 0) stConflict s

/-- LEASE_REQUEST: a free entry takes the data registers and asks its lender (DEDUCED, log 39). -/
def leaseRequest (s : State) : State :=
  let b := tierPage 0
  let l := leaseIdx s
  if (leaseOf s l).state != 0 then leaseConflict s
  else
    let x : Lease := ⟨s.fld b Fld.DIE_LEASE_DATA0.dest, 1, false, s.regN (b + 0xCC), s.regN (b + 0xD0), 0⟩
    sendLease x.dest 0 l x.size x.expiry (s.setLease l x)

def execLeaseRequest (fn : Nat) (s : State) : Host.Outcome State Fault Refusal :=
  .next (posted fn (.leaseRequest fn) (fun s => leaseWrite fn leaseRequest s) s)

/-- LEASE_RENEW: an entry in use sends its new expiry. -/
def leaseRenew (s : State) : State :=
  let l := leaseIdx s
  let x := leaseOf s l
  if x.state < 2 then leaseConflict s
  else
    let e := s.regN (tierPage 0 + 0xD0)
    sendLease x.dest 3 l x.size e (s.setLease l { x with expiry := e })

def execLeaseRenew (fn : Nat) (s : State) : Host.Outcome State Fault Refusal :=
  .next (posted fn (.leaseRenew fn) (fun s => leaseWrite fn leaseRenew s) s)

/-- LEASE_RELEASE: declined while the lease holds Tiles. -/
def leaseRelease (s : State) : State :=
  let l := leaseIdx s
  let x := leaseOf s l
  if x.state < 2 || leaseUsed s l != 0 then leaseConflict s
  else sendLease x.dest 5 l x.size x.expiry (s.setLease l noLease)

def execLeaseRelease (fn : Nat) (s : State) : Host.Outcome State Fault Refusal :=
  .next (posted fn (.leaseRelease fn) (fun s => leaseWrite fn leaseRelease s) s)

/-- The recall of a granted lease: its expiry becomes the earlier of the present one and now plus the notice of the die that
lends (R261) (DEDUCED, log 40). -/
def recallGrant (g : Grant) (s : State) : State :=
  let t := s.time + s.fld (tierPage g.die) Fld.DIE_LEND_CFG.notice * 2 ^ 20
  let e := min g.expiry (t / 2 ^ 24)
  let s := { s with tiers := { s.tiers with grants := s.tiers.grants.map (fun x => if x == g then { x with expiry := e } else x) } }
  sendLease g.src 4 g.entry g.size e s

/-- LEND_CFG_WRITE: each die lends its own bulk memory; clearing lend_en recalls every lease that the die has granted (R261,
R266) (DEDUCED, log 40). -/
def lendCfgWrite (d : Nat) (v : Word) (s : State) : State :=
  let was := s.flag (tierPage d) Fld.DIE_LEND_CFG.lend_en
  let s := s.setRegN (tierPage d + 0xDC) (v.toNat % 2 ^ 27)
  if was && !(bit v.toNat 0) then s.each (s.tiers.grants.filter (fun g => g.die == d)) recallGrant else s

def execLendCfgWrite (fn d : Nat) (v : Word) (s : State) : Host.Outcome State Fault Refusal :=
  .next (posted fn (.lendCfgWrite fn d v) (fun s => ownerWrite fn (tierPage (d % 2)) 0xDC (lendCfgWrite (d % 2) v) s) s)

/-- Tiles that lie in a lease, in ascending region and Tile order. -/
def leaseTiles (s : State) (l : Nat) : List TileRef :=
  (allTiles s).filter (fun t => tsTier (tileState s t) == 4 && !(tsLost (tileState s t)) && bits (tsLoc (tileState s t)) 5 0 == l)

/-- LEASE_EVACUATE: from 2^30 ticks before the expiry, pinned Tiles too, to the highest tier from 3 on that the region allows
(R261). -/
def leaseEvacuate (l : Nat) (s : State) : State :=
  let x := leaseOf s l
  if 2 ≤ x.state && x.expiry * 2 ^ 24 ≤ s.time + 2 ^ 30 then
    s.each (leaseTiles s l) (fun t s => if t.reg.ceiling ≤ 3 then (startMove t 3 true none s).getD s else s)
  else s

def execLeaseEvacuate (l : Nat) (s : State) : Host.Outcome State Fault Refusal := .next (leaseEvacuate l s)

/-- A Tile of a lease that has ended is lost; its place and quota are gone, a Cask that had still to copy it fails (R261, R377). -/
def loseTile (t : TileRef) (s : State) : State :=
  let s := s.each (s.tiers.moves.filter (fun m => m.region == t.id && m.tile == t.j)) (fun m s =>
    hintCheck m.asker (reqDone m.asker false (dropMove t m s)))
  let e := tileState s t
  let s := setTileState t (putBits (putBits e 3 3 0) 5 5 1) (freeTile t s)
  if s.cask.pend.contains (t.id + 1, t.j) then failCask stTier s else s

/-- A move into a lease that has ended is given up: the Tile stays where it was, who asked for the move is declined (R254, R261). -/
def loseMove (m : Move) (s : State) : State :=
  match tileRef s m.region m.tile with
  | some t => hintCheck m.asker (reqDone m.asker false (abandonMove t m false s))
  | none => s

/-- Ends a borrower's lease: moves into it are given up, Tiles not yet moved are lost (DEDUCED, log 41). -/
def endLease (l : Nat) (s : State) : State :=
  let s := s.each (s.tiers.moves.filter (fun m => m.tier == 4 && bits m.loc 5 0 == l)) loseMove
  let s := wakeReqs none (s.each (leaseTiles s l) loseTile)
  settle (tryArrays modulePath (raiseEv (tierPage 0) 3 (s.setLease l noLease)))

/-- LEASE_EXPIRY: at the borrower its entry ends; a lender frees what it has granted to this time (DEDUCED, log 41). -/
def leaseExpiry (l : Nat) (s : State) : State :=
  let x := leaseOf s l
  let s := if 2 ≤ x.state && x.expiry * 2 ^ 24 ≤ s.time then endLease l s else s
  { s with tiers := { s.tiers with grants := s.tiers.grants.filter (fun g => !(decide (g.expiry * 2 ^ 24 ≤ s.time))) } }

def execLeaseExpiry (l : Nat) (s : State) : Host.Outcome State Fault Refusal := .next (leaseExpiry l s)

/-! ### Scrub (R264, R265) -/

/-- Blocks of 64 bytes that a controller holds. -/
def scrubBlocks (c : Nat) : Nat := (if c < 16 then 24 * 2 ^ 30 else 512 * 2 ^ 30) / 64

/-- The scrub interval register of a controller: 0 disables. -/
def scrubExp (s : State) (c : Nat) : Nat :=
  if c < 16 then s.fld (hbmPage c) Fld.HBM_SCRUB.scrub_exp else s.fld (tierPage (c - 16)) Fld.DIE_BULK_SCRUB.scrub_exp

/-- The grants of a die with the byte offset in its bulk memory at which the space of each lies: above what Tiles use, in the order
of the grants (DESIGN CHOICE, log 42). -/
def lentSpace (s : State) (d : Nat) : List (Nat × Grant) :=
  ((s.tiers.grants.filter (fun g => g.die == d)).foldl (fun (l : List (Nat × Grant) × Nat) g => (l.1 ++ [(l.2, g)], l.2 + g.size * 65536))
    ([], (placeRange s (placeBulk d)).2)).1

/-- The Tile, and the memory key, at byte `o` of a memory: none in a block that nothing holds. -/
def atPlace (s : State) (c o : Nat) : Option (Nat × Option TileRef) :=
  if c < 16 && o < perCtl s * 65536 then some ((o / 65536 * 16 + c) * 65536 + o % 65536, none)
  else if 16 ≤ c && (placeRange s c).2 ≤ o then
    ((lentSpace s (c - 16)).find? (fun x => decide (x.1 ≤ o) && decide (o < x.1 + x.2.size * 65536))).map
      (fun x => (x.2.key + (o - x.1), none))
  else
    ((allTiles s).find? (fun t => resident s t && placeOf s t == c &&
      (let off := (placeOfLoc (tsTier (tileState s t)) (tsLoc (tileState s t))).2
       decide (off ≤ o) && decide (o < off + extentLen s c off)))).map
      (fun t =>
        let off := (placeOfLoc (tsTier (tileState s t)) (tsLoc (tileState s t))).2
        (t.addr + min (o - off) (t.len - 64), some t))

/-- One scrubbed word: corrected, or found uncorrectable (DESIGN CHOICE, log 42). -/
def scrubWord (c o key : Nat) (t : Option TileRef) (s : State) : State :=
  match s.eccAt key with
  | 0 => s
  | 1 => countEcc c 2 (countEcc c 0 (s.setEcc key 0))
  | _ =>
    let s := recordEcc c o true (countEcc c 1 s)
    let s := match t with | some t => setTileState t (putBits (tileState s t) 4 4 1) s | none => s
    raiseEv (tierPage (placeDie c)) 4 s

/-- SCRUB_TICK: controller `c` (0 to 15 HBM, 16 and 17 the bulk tier of a die) reads its next block; `found` is an error
that the block's first word has taken since it was last read: 1 correctable, 2 not (DESIGN CHOICE, log 42). -/
def scrubTick (c found : Nat) (s : State) : State :=
  if 17 < c || scrubExp s c = 0 then s
  else
    let b := SMap.get (fun _ => 0) s.tiers.scrub c
    let s := { s with tiers := { s.tiers with scrub := SMap.set (fun _ => 0) s.tiers.scrub c ((b + 1) % scrubBlocks c) } }
    match atPlace s c (64 * b) with
    | none =>
      -- a block that nothing holds: its error is corrected, or counted and recorded
      if found = 1 then countEcc c 2 (countEcc c 0 s)
      else if found = 2 then raiseEv (tierPage (placeDie c)) 4 (recordEcc c (64 * b) true (countEcc c 1 s))
      else s
    | some (key, t) =>
      let s := if found = 1 || found = 2 then s.setEcc key (max found (s.eccAt key)) else s
      s.each (List.range 8) (fun i s => scrubWord c (64 * b + 8 * i) (key + 8 * i) t s)

def execScrubTick (ctl found : Nat) (s : State) : Host.Outcome State Fault Refusal := .next (scrubTick ctl found s)

end Sys2Proof.Machine
end

