-- ==== Sys2Proof/Machine/Collect.lean ====
section
/-! DEFINITION. Reduction contexts and peer sets (R328, R329, R348), the Tun adder (R334 to R339), and map entries
(R350, R351, R363). -/

namespace Sys2Proof.Machine

/-! ### Reduction contexts -/

def tunPage : Nat := hbmPage 0

def ctxIdx (s : State) : Nat := s.fld tunPage Fld.TUN_CTX_IDX.ctx

/-- CTX_LOAD. -/
def ctxLoad (s : State) : State :=
  let x := s.ctx (ctxIdx s)
  (((s.setRegN (tunPage + 0x104) (x.base + toU 9 x.lsbExp * 2 ^ 23)).setRegN (tunPage + 0x108) x.ntiles).setRegN
    (tunPage + 0x10C) (x.job + x.nExpect * 2 ^ 12 + b2n x.armed * 2 ^ 19)).setRegN (tunPage + 0x110) x.gen

/-- The context that the data registers describe. -/
def ctxData (s : State) : RedCtx :=
  { job := s.fld tunPage Fld.TUN_CTX_DATA2.job
    gen := s.fld tunPage Fld.TUN_CTX_DATA3.gen
    base := s.fld tunPage Fld.TUN_CTX_DATA0.base
    ntiles := s.fld tunPage Fld.TUN_CTX_DATA1.ntiles
    nExpect := s.fld tunPage Fld.TUN_CTX_DATA2.n_expect
    lsbExp := sx 9 (s.fld tunPage Fld.TUN_CTX_DATA0.lsb_exp)
    armed := true }

/-- The Tiles of two contexts overlap: one of them is a Tile of both. -/
def ctxMeet (x y : RedCtx) : Bool :=
  decide (x.ntiles ≠ 0) && decide (y.ntiles ≠ 0) && decide (x.base < y.base + y.ntiles) && decide (y.base < x.base + x.ntiles)

/-- The table Arm checks: the first failure's status. -/
def armCheck (s : State) (k : Nat) (x : RedCtx) : Nat :=
  if x.nExpect = 0 || 64 < x.nExpect then stFormat
  else if fixedFolios s < x.base + x.ntiles then stAddress
  else if s.ctxs.any (fun e => e.1 != k && e.2.armed && ctxMeet x e.2) || ctxBusy s k then stConflict
  else stOk

def ctxResult (code : Nat) (s : State) : State := s.setFld tunPage Fld.TUN_CTX_STATUS.result code


/-- CTX_ARM. -/
def ctxArm (s : State) : State :=
  let k := ctxIdx s
  let x := ctxData s
  let code := armCheck s k x
  if code != stOk then ctxResult code s
  else
    let s := (s.setCtx k x).each (List.range x.ntiles) (fun t => accEmpty (accAddr x t))
    raiseEv tunPage 2 (ctxResult stOk (s.setFlag tunPage Fld.TUN_CTX_DATA2.armed true))

/-- CTX_DISARM. -/
def ctxDisarm (s : State) : State :=
  let k := ctxIdx s
  if ctxBusy s k then ctxResult stConflict s
  else raiseEv tunPage 2 (ctxResult stOk ((s.setCtx k { s.ctx k with armed := false }).setFlag tunPage Fld.TUN_CTX_DATA2.armed false))

def ctxWrite (fn : Nat) (act : State → State) (s : State) : State := ownerWrite fn tunPage 0x114 act s

def execCtxLoad (fn : Nat) (s : State) : Host.Outcome State Fault Refusal :=
  .next (posted fn (.ctxLoad fn) (fun s => ctxWrite fn ctxLoad s) s)
def execCtxArm (fn : Nat) (s : State) : Host.Outcome State Fault Refusal := .next (posted fn (.ctxArm fn) (fun s => ctxWrite fn ctxArm s) s)
def execCtxDisarm (fn : Nat) (s : State) : Host.Outcome State Fault Refusal :=
  .next (posted fn (.ctxDisarm fn) (fun s => ctxWrite fn ctxDisarm s) s)

/-! ### Map entries -/

def mapEnt (s : State) (i : Nat) : MapEnt := SMap.get (fun _ => MapEnt.reset) s.maps i
def State.setMapEnt (s : State) (i : Nat) (e : MapEnt) : State := { s with maps := SMap.set (fun _ => MapEnt.reset) s.maps i e }

/-- gsize and self of an entry from its peer set as it stands (R350) (DEDUCED, log 64). -/
def mapFresh (s : State) (e : MapEnt) : MapEnt :=
  let l := psetMembers s e.pset
  { e with gsize := l.length, self := (beforeFirst (· == selfId s) l).length % 8 }

/-- Every entry follows its peer set and IZN_SELF (R350, R352) (DEDUCED, log 64). -/
def refreshMaps (s : State) : State :=
  s.each s.maps (fun e s => s.setMapEnt e.1 (mapFresh s e.2))

def reserveOf (e : MapEnt) : Nat := min (e.depth * e.actUnits) (2 ^ 32 - 1)

/-- The reserves of all valid entries, in 64 KB units. -/
def reserveTotal (s : State) : Nat := s.maps.foldl (fun n e => if e.2.valid then n + e.2.reserve else n) 0

def mapIdx (s : State) : Nat := s.fld mapPage Fld.MAP_ENT_IDX.entry

/-- MAP_ENT_LOAD. -/
def mapLoad (s : State) : State :=
  let e := mapEnt s (mapIdx s)
  (((s.setRegN (mapPage + 0x84) (e.job + e.pset * 2 ^ 12 + b2n e.gangEn * 2 ^ 18 + e.gangSplit * 2 ^ 19 + b2n e.regather * 2 ^ 20 +
    b2n e.valid * 2 ^ 21 + e.self * 2 ^ 22 + e.gsize * 2 ^ 25)).setRegN (mapPage + 0x88) e.depth).setRegN (mapPage + 0x8C)
    e.actUnits).setRegN (mapPage + 0x90) e.reserve

/-- The entry that the data registers describe. -/
def mapData (s : State) : MapEnt :=
  let e : MapEnt :=
    { job := s.fld mapPage Fld.MAP_ENT_DATA0.job
      pset := s.fld mapPage Fld.MAP_ENT_DATA0.pset
      gangEn := s.flag mapPage Fld.MAP_ENT_DATA0.gang_en
      gangSplit := s.fld mapPage Fld.MAP_ENT_DATA0.gang_split
      regather := s.flag mapPage Fld.MAP_ENT_DATA0.regather
      valid := s.flag mapPage Fld.MAP_ENT_DATA0.valid
      gsize := 0
      self := 0
      depth := s.fld mapPage Fld.MAP_ENT_DATA1.depth
      actUnits := s.regN (mapPage + 0x8C)
      reserve := 0 }
  mapFresh s { e with reserve := reserveOf e }

/-- HBM outside the fixed range, in 64 KB units. -/
def hbmUnits (s : State) : Nat := 16 * 393216 - fixedFolios s

/-- Why a commit is refused (R351). -/
def mapRefused (s : State) (i : Nat) (e : MapEnt) : Nat :=
  if e.valid && s.maps.any (fun x => x.1 != i && x.2.valid && x.2.job == e.job) then stConflict
  else if e.valid && e.gangEn && !((psetMembers s e.pset).contains (selfId s)) then stFormat
  else if hbmUnits s < reserveTotal (s.setMapEnt i e) then stConflict
  else stOk

/-- MAP_ENT_COMMIT. -/
def mapCommit (s : State) : State :=
  let i := mapIdx s
  let e := mapData s
  let code := mapRefused s i e
  if code != stOk then logStatus mapPage code s
  else
    let s := s.setMapEnt i e
    s.setRegN (mapPage + 0xB8) (min (reserveTotal s) (2 ^ 32 - 1))

def execMapEntLoad (fn : Nat) (s : State) : Host.Outcome State Fault Refusal :=
  .next (posted fn (.mapEntLoad fn) (fun s => ownerWrite fn mapPage 0x94 mapLoad s) s)
def execMapEntCommit (fn : Nat) (s : State) : Host.Outcome State Fault Refusal :=
  .next (posted fn (.mapEntCommit fn) (fun s => ownerWrite fn mapPage 0x94 mapCommit s) s)

/-! ### Peer sets -/

def psetIdx (s : State) : Nat := s.fld tunPage Fld.TUN_PSET_IDX.set

def psetWord (s : State) (k : Nat) : Word := SMap.get (fun _ => (0 : Word)) s.psets k

/-- PSET_LOAD. -/
def psetLoad (s : State) : State :=
  s.each (List.range 8) (fun i s => s.setReg (tunPage + 0x120 + 4 * i) (psetWord s (psetIdx s * 8 + i)))

/-- PSET_COMMIT: refused while a command that names the set is outstanding. -/
def psetCommit (s : State) : State :=
  let k := psetIdx s
  if (outstandingCmds s).any (fun x => namesSet x.2.cmd == some k) then logStatus tunPage stConflict s
  else
    refreshMaps (s.each (List.range 8) (fun i s =>
      { s with psets := SMap.set (fun _ => (0 : Word)) s.psets (k * 8 + i) (s.reg (tunPage + 0x120 + 4 * i)) }))

def execPsetLoad (fn : Nat) (s : State) : Host.Outcome State Fault Refusal :=
  .next (posted fn (.psetLoad fn) (fun s => ownerWrite fn tunPage 0x140 psetLoad s) s)
def execPsetCommit (fn : Nat) (s : State) : Host.Outcome State Fault Refusal :=
  .next (posted fn (.psetCommit fn) (fun s => ownerWrite fn tunPage 0x140 psetCommit s) s)

/-! ### Contributions (R331, R334) -/

/-- The fields of an ACCUM header. -/
def accCtx (p : Packet) : Nat := bits p.target 8 0
def accPktRound (p : Packet) : Nat := bits p.target 15 9
def accTile (p : Packet) : Nat := bits p.addr 25 0
def accExp (p : Packet) : Int := sx 9 (bits p.addr 34 26)
def accLsb (p : Packet) : Int := sx 9 (bits p.addr 43 35)
def accFrom (p : Packet) : Nat := bits p.addr 49 44
def accFormat (p : Packet) : Nat := if bit p.sub 0 then 6 else 3
def accWidth (p : Packet) : Nat := if bit p.sub 0 then 4 else 2

/-- Codes of `w` bytes. -/
def codesOf (w : Nat) : Nat → List (BitVec 8) → List Nat
  | 0, _ => []
  | n + 1, l => leNat (l.take w) :: codesOf w n (l.drop w)

/-- The codes that a bitmap names, zero elsewhere. -/
def spread (w : Nat) : List Bool → List (BitVec 8) → List Nat
  | [], _ => []
  | true :: bs, l => leNat (l.take w) :: spread w bs (l.drop w)
  | false :: bs, l => 0 :: spread w bs l

/-- The bits of a list of bytes, least significant first. -/
def bitList (l : List (BitVec 8)) : List Bool := (l.map (fun b => (List.range 8).map (fun i => b.getLsbD i))).flatten

/-- The 4,096 codes of a contribution; none when its length does not fit its form. -/
def accCodes (p : Packet) : Option (List Nat) :=
  let w := accWidth p
  if bit p.sub 1 then
    let map := bitList (p.data.take 512)
    let n := (map.filter id).length
    if p.len16 = ceilDiv (512 + n * w) 16 then some (spread w map (p.data.drop 512)) else none
  else if p.len16 = 256 * w then some (codesOf w 4096 p.data) else none

/-- What check 8 makes of an ACCUM. -/
inductive AccOut where
  | error (status : Nat)
  | duplicate
  | apply
  deriving DecidableEq, Repr

/-- The table ACCUM outcomes, and a stored word that cannot be read (R265). -/
def accOutcome (s : State) (p : Packet) : AccOut :=
  let x := s.ctx (accCtx p)
  let a := accAddr x (accTile p)
  if x.ntiles ≤ accTile p then .error stLength
  else
    match (if x.nExpect ≤ accFrom p || accLsb p != x.lsbExp || bit p.sub 2 then none else accCodes p) with
    | none => .error stFormat
    | some codes =>
      if genEarlier p.layoutGen x.gen then .error stGenOld
      else if p.layoutGen != x.gen then .error stFormat
      else if contribSum (accFormat p) codes (accExp p) (accLsb p) != p.checksum then .error stChecksum
      else if accState s a != 0 && accRound s a == accPktRound p && bit (s.num (a + 49664) 8) (accFrom p) then .duplicate
      else if (accState s a == 1 && accRound s a != accPktRound p) || 2 ≤ accState s a then .error stConflict
      else if s.badIn a 65536 then .error stEcc
      else .apply

/-- The page of the controller that holds a packet's accumulator Tile. -/
def accPage (s : State) (p : Packet) : Nat := hbmPage (accCtl (s.ctx (accCtx p)) (accTile p))

/-- Counts and events of an outcome that applies nothing (R334, R349). -/
def accNote (p : Packet) (o : AccOut) (s : State) : State :=
  let page := accPage s p
  match o with
  | .duplicate => s.bump page 6 1
  | .error st =>
    if st = stGenOld then raiseEv page 1 (s.bump page 7 1)
    else if st = stChecksum then s.bump page 8 1
    else if st = stEcc then noteEcc (accAddr (s.ctx (accCtx p)) (accTile p)) 65536 s
    else s
  | .apply => s

/-- Adds one element's v and invalid bit. -/
def accAdd (a i : Nat) (v : Int) (inv : Bool) (s : State) : State :=
  let s := if v = 0 then s else s.setNum (a + 12 * i) 12 (toU 96 (accValue s a i + v))
  if inv then s.setNum (a + 49152 + i / 8) 1 (s.num (a + 49152 + i / 8) 1 ||| 2 ^ (i % 8)) else s

/-- The sum of the low 64 bits of a Tile's stored values (R339). -/
def accSum (s : State) (a : Nat) : Nat := (List.range 4096).foldl (fun n i => (n + s.num (a + 12 * i) 8) % 2 ^ 64) 0

/-- Verifies a Tile that has every contribution: FULL, or BAD with its record and event (R339). -/
def accVerify (k t : Nat) (s : State) : State :=
  let x := s.ctx k
  let a := accAddr x t
  let page := hbmPage (accCtl x t)
  if accSum s a = s.num (a + 49672) 8 then fixedWrite (a + 49680) 8 (putBits (accWord s a) 1 0 2) s
  else
    let s := fixedWrite (a + 49680) 8 (putBits (accWord s a) 1 0 3) s
    let s := ((s.setRegN (page + 0x144) (k + x.job * 2 ^ 9 + 2 ^ 21)).setRegN (page + 0x148) x.gen).setRegN (page + 0x14C) t
    raiseEv page 0 (s.bump page 9 1)

/-- Applies a contribution (R335). -/
def accApply (p : Packet) (s : State) : State :=
  let k := accCtx p
  let x := s.ctx k
  let a := accAddr x (accTile p)
  let s := copyFirst a 65536 (correctRead a 65536 s)
  let fixed := ((accCodes p).getD []).map (fun c => toFixed (decodeFloat (accFormat p) c) (accExp p) (accLsb p))
  let flushes := (fixed.filter (fun v => v.2.2)).length
  let s := s.each (List.zip (List.range 4096) fixed) (fun e s => accAdd a e.1 e.2.1 e.2.2.1 s)
  let s := fixedWrite (a + 49664) 8 (s.num (a + 49664) 8 ||| 2 ^ accFrom p) s
  let s := fixedWrite (a + 49672) 8 ((s.num (a + 49672) 8 + p.checksum) % 2 ^ 64) s
  let w := accWord s a
  let n := bits w 8 2 + 1
  let s := fixedWrite (a + 49680) 8
    (1 + n * 4 + accPktRound p * 2 ^ 9 + min (bits w 63 32 + flushes) (2 ^ 32 - 1) * 2 ^ 32) s
  let s := s.bump (accPage s p) 5 1
  if n = x.nExpect then accVerify k (accTile p) s else s

end Sys2Proof.Machine
end

