-- ==== Sys2Proof/Machine/Port.lean ====
section
/-! DEFINITION. The Izyen ports' link layer (R295 to R301, R304, R313 to R318, R321, R322): states, training, flits with acks,
naks, replay and credits, link words and synchronisation; what a lost port does to packets (R315); the routing table's
commands. -/

namespace Sys2Proof

/-! ### Flits as bytes (R298) -/

/-- The first 252 bytes of a flit (table Flit layout). -/
def Flit.body (f : Flit) : List (BitVec 8) :=
  Machine.leBytes (f.kind % 4 + f.vc % 4 * 2 ^ 2 + f.fseq % 4096 * 2 ^ 4 + f.ack % 4096 * 2 ^ 16 + b2n f.nak * 2 ^ 28) 4 ++
  Machine.fit 4 (f.credits.map (BitVec.ofNat 8)) ++ Machine.leBytes (f.linkKind % 16 + f.linkData * 2 ^ 4) 4 ++
  Machine.fit 240 f.payload

/-- The 256 bytes of a flit. -/
def Flit.bytes (f : Flit) : List (BitVec 8) := f.body ++ Machine.leBytes f.crc 4

/-- The flit with the CRC of its bytes. -/
def Flit.sealed (f : Flit) : Flit := { f with crc := Machine.crc32c f.body }

/-- The CRC that a flit carries is that of its bytes (R299). -/
def Flit.crcOk (f : Flit) : Bool := f.crc == Machine.crc32c f.body

end Sys2Proof

namespace Sys2Proof.Machine

/-! ### Codewords (R296, R297)

RS(544,514) over 10-bit symbols as in IEEE 802.3 Clause 91: the field polynomial x^10 + x^3 + 1, the generator polynomial with
the roots α^0 to α^29, the parity symbols after the message symbols (PRESUMED, log 162). -/

/-- The product with α in the field of the code (PRESUMED, log 162). -/
def rsDouble (a : Nat) : Nat := if a < 512 then 2 * a else (2 * a) ^^^ 0x409

/-- The product in the field of the code. -/
def rsMul (a b : Nat) : Nat :=
  (List.range 10).foldr (fun i r => rsDouble r ^^^ (if b.testBit i then a else 0)) 0

/-- α^j. -/
def rsPow : Nat → Nat
  | 0 => 1
  | j + 1 => rsDouble (rsPow j)

/-- The product of a polynomial, highest coefficient first, with x + a. -/
def rsFactor (g : List Nat) (a : Nat) : List Nat := List.zipWith (· ^^^ ·) (g ++ [0]) (0 :: g.map (rsMul a))

/-- The generator polynomial of `n` parity symbols, highest coefficient first (PRESUMED, log 162). -/
def rsGenerator (n : Nat) : List Nat := (List.range n).foldl (fun g j => rsFactor g (rsPow j)) [1]

/-- One more message symbol enters the division by the generator polynomial `g`, whose leading 1 is left out. -/
def rsShift (g rem : List Nat) (m : Nat) : List Nat :=
  let c := rem.headD 0 ^^^ m
  List.zipWith (· ^^^ ·) (rem.drop 1 ++ [0]) (g.map (rsMul c))

/-- The `n` parity symbols of a message. -/
def rsParity (n : Nat) (msg : List Nat) : List Nat :=
  msg.foldl (rsShift ((rsGenerator n).drop 1)) (List.replicate n 0)

/-- The 5,140 bits of a codeword's message: the tag of counter `n`, then 5,120 bits of the flit stream (R297). -/
def codewordMessage (n flits : Nat) : Nat := n % 65536 + 0xA * 2 ^ 16 + flits % 2 ^ 5120 * 2 ^ 20

/-- The 544 symbols of a codeword, least significant bits of the message first (R297). -/
def codewordSymbols (msg : Nat) : List Nat :=
  let m := (List.range 514).map (fun i => msg / 2 ^ (10 * i) % 1024)
  m ++ rsParity 30 m

/-- What lane `i` carries of a codeword: its symbols of the numbers i mod 8 (R297). -/
def laneSymbols (i : Nat) (cw : List Nat) : List Nat := (List.range 68).map (fun k => cw.getD (8 * k + i) 0)

/-- What the 8 lanes carry of codewords. -/
def lanesOf (l : List (List Nat)) : List (List Nat) := (List.range 8).map (fun i => (l.map (laneSymbols i)).flatten)

/-- The four codewords, the first of counter `n`, that ten flits fill, least significant bit first (R297, R298). -/
def codewordsOf (n : Nat) (l : List Flit) : List (List Nat) :=
  let bitsAll := leNat ((l.map Flit.bytes).flatten)
  (List.range 4).map (fun k => codewordSymbols (codewordMessage (n + k) (bitsAll / 2 ^ (5120 * k))))

/-- The codewords of a port, counted from the first, that hold bits of its flit `i` (R298) (DEDUCED, log 53). -/
def codewordSpan (i : Nat) : Nat × Nat := (2048 * i / 5120, (2048 * i + 2047) / 5120)

/-! ### Packets as bytes (R302, R304) -/

/-- The bytes of a packet: header, then data (DEDUCED, log 112). -/
def packetBytes (p : Packet) : List (BitVec 8) :=
  leBytes (p.type + p.hops * 2 ^ 4 + p.dest * 2 ^ 8 + p.src * 2 ^ 20 + p.job * 2 ^ 32 + p.lease * 2 ^ 44 + p.layoutGen * 2 ^ 48) 8 ++
  leBytes (p.stream + p.target * 2 ^ 16 + p.seq * 2 ^ 32) 8 ++
  leBytes (p.addr + p.len16 * 2 ^ 50 + p.sub * 2 ^ 61) 8 ++ leBytes p.checksum 8 ++ p.data

/-- The 16-byte units of data a packet carries: a read request's `len16` is the length it asks for, and it carries none
(R303; DEDUCED, log 112). -/
def data16 (ty len16 : Nat) : Nat := if ty = ptReadReq || ty = ptBgReadReq then 0 else len16

/-- The packet that the bytes of its flits hold (DEDUCED, log 112). -/
def packetOf (l : List (BitVec 8)) : Packet :=
  let d0 := leNat (l.take 8)
  let d1 := leNat ((l.drop 8).take 8)
  let d2 := leNat ((l.drop 16).take 8)
  let n := bits d2 60 50
  { type := bits d0 3 0, hops := bits d0 7 4, dest := bits d0 19 8, src := bits d0 31 20, job := bits d0 43 32,
    lease := bits d0 44 44, layoutGen := bits d0 63 48, stream := bits d1 15 0, target := bits d1 31 16, seq := bits d1 63 32,
    addr := bits d2 49 0, len16 := n, sub := bits d2 63 61, checksum := leNat ((l.drop 24).take 8),
    data := (l.drop 32).take (16 * data16 (bits d0 3 0) n) }

/-- Flits of a packet (DEDUCED, log 112). -/
def flitCount (p : Packet) : Nat := ceilDiv (32 + 16 * data16 p.type p.len16) 240

/-- The payload of flit `i` of a packet. -/
def flitPayload (p : Packet) (i : Nat) : List (BitVec 8) := fit 240 ((packetBytes p).drop (240 * i))

/-! ### Port state -/

def State.port (s : State) (p : Nat) : PortSt := SMap.get (fun _ => PortSt.reset) s.ports p
def State.setPort (s : State) (p : Nat) (x : PortSt) : State := { s with ports := SMap.set (fun _ => PortSt.reset) s.ports p x }

def ptDisabled : Nat := 0
def ptTraining : Nat := 1
def ptUp : Nat := 2
def ptRetrain : Nat := 3
def ptDown : Nat := 4

def portState (s : State) (p : Nat) : Nat := s.fld (portPage p) Fld.IZN_PORT_STATUS.state

/-- A port enters a state. -/
def setPortState (p st : Nat) (s : State) : State :=
  (s.setPort p { s.port p with at_ := s.time }).setFld (portPage p) Fld.IZN_PORT_STATUS.state st

/-- The port has been in its state for `n` ticks (DESIGN CHOICE, log 4). -/
def portAged (s : State) (p n : Nat) : Bool := decide ((s.port p).at_ + n ≤ s.time)

/-- A flit leaves; every tenth fills four codewords (R297, R298). -/
def putFlit (p : Nat) (f : Flit) (s : State) : State :=
  let f := f.sealed
  let x := s.port p
  let l := x.group ++ [f]
  let s := s.send (.flit p f)
  if l.length < 10 then s.setPort p { x with group := l }
  else (s.setPort p { x with group := [], txCw := (x.txCw + 4) % 65536 }).send (.codewords p (lanesOf (codewordsOf x.txCw l)))

/-! ### Losing lock (R318) -/

def syncOn (s : State) : Bool := s.flag routePage Fld.IZN_SYNC_CFG.enable && !(s.flag routePage Fld.IZN_SYNC_CFG.root)

def parentPort (s : State) : Nat := s.fld routePage Fld.IZN_SYNC_CFG.parent

/-- Lock is lost: holdover begins. -/
def loseLock (s : State) : State :=
  if s.flag routePage Fld.IZN_SYNC_STATUS.locked then
    let s := (s.setFlag routePage Fld.IZN_SYNC_STATUS.locked false).setFlag routePage Fld.IZN_SYNC_STATUS.holdover true
    raiseEv routePage 1 (s.bump routePage 7 1)
  else s

/-- A port leaves UP: a follower of that port loses lock. -/
def leaveUp (p : Nat) (s : State) : State :=
  if portState s p = ptUp && syncOn s && parentPort s = p then
    loseLock { s with sync := { s.sync with started := 0, t1 := none, t2 := none, good := 0 } }
  else s

/-! ### Packets of a port that is lost (R315) -/

/-- The TIER_HINT or share that asked for a move ends with a status of its own; nothing counts for it any more (R309). -/
def failHint (asker : Option Asker) (f : Fail) (s : State) : State :=
  match asker with
  | none => s
  | some a =>
    let off := fun (x : Option Asker) => if x == some a then none else x
    let s := { s with tiers := { s.tiers with
      moves := s.tiers.moves.map (fun m => { m with asker := off m.asker })
      reqs := s.tiers.reqs.map (fun r => { r with asker := off r.asker }) } }
    match (s.q a.unit).find? (fun e => isEnt a.stream a.seq a.parent e && e.phase == .sending) with
    | some e => finish a.unit e f s
    | none => s

/-- A packet of a lease fails: its move is abandoned, and the command that asked for the move takes the status (R254, R309)
(DESIGN CHOICE, log 38). -/
def failLease (o : Outst) (f : Fail) (s : State) : State :=
  match moveAt s o, fetchAt s o with
  | some m, _ =>
    match tileRef s m.region m.tile with
    | some t => wakeReqs none (failHint m.asker f (abandonMove t m false s))
    | none => s
  | none, some x => failFetch x.1 x.2 s
  | none, none => s

/-- A packet of a command fails with a status: it waits for no answer any more, and its command ends (R309); TOKENs that waited
for this answer go out (R327). -/
def failSent (o : Outst) (f : Fail) (s : State) : State :=
  let s := { s with outst := dropFirst (· == o) s.outst }
  if o.unit = leaseUnit then failLease o f s
  else if o.unit = restoreUnit then gotCask f.status [] s
  else
    payOwed (match (s.q o.unit).find? (fun e => e.stream == o.stream && e.seq == o.seq && e.engine == .collective && e.phase == .sending) with
      | some e => finishColl o.unit e f s
      | none => s)

/-- The command of this module that waits for an answer to a packet ends with LINK_DOWN (R309). -/
def downLocal (pkt : Packet) (s : State) : State :=
  match s.outst.find? (fun o => o.stream == pkt.stream && o.seq == pkt.seq && o.dest == pkt.dest && o.type == pkt.type &&
      o.addr == pkt.addr) with
  | none => s
  | some o => failSent o ⟨stLinkDown, 0, pkt.dest, 0⟩ s

/-- A packet that was sent in part, or finds no port: rows 1 and 2 of the table Port down. -/
def downPacket (pkt : Packet) (s : State) : State :=
  if pkt.src = selfId s then downLocal pkt s
  else if pkt.type = ptAck || pkt.type = ptError then s
  else sendPacket (errorOf s pkt stLinkDown) s

/-- A packet queued and not begun is routed again (R311) (DEDUCED, log 58). -/
def reroute (pkt : Packet) (s : State) : State :=
  match routePort s pkt.dest pkt.stream with
  | some q => if portUp s q then queueAt q pkt s else downPacket pkt s
  | none => downPacket pkt s

/-- Packets sent in whole or in part and not acknowledged. -/
def begun (x : PortSt) : List Packet := ((x.replay.map (·.pkt)) ++ x.cur.map (fun c => c.2.1)).eraseDups

/-- Packets that wait at a port, channel by channel. -/
def waitingAt (s : State) (p : Nat) : List Packet :=
  ((List.range 4).map (fun v => SMap.get (fun _ => []) s.txq (p * 4 + v))).flatten

/-- A port's link is gone: its packets go the way of the table Port down, its link layer starts anew (DEDUCED, log 58). -/
def dropLink (p : Nat) (s : State) : State :=
  let x := s.port p
  let l := waitingAt s p
  let s := (List.range 4).foldl (fun s v => { s with txq := SMap.set (fun _ => []) s.txq (p * 4 + v) [] })
    (s.setPort p { PortSt.reset with inbox := x.inbox, at_ := x.at_ })
  settle (((s.each (begun x) downPacket)).each l reroute)

/-- Enters DOWN (R313, R315). -/
def enterDown (p : Nat) (s : State) : State :=
  let s := leaveUp p s
  let s := (setPortState p ptDown s).setFlag (portPage p) Fld.IZN_PORT_STATUS.cw_lock false
  let s := raiseEv (portPage p) 1 (s.bump (portPage p) 7 1)
  let s := colAppend (p / 8) 0x08 (leBytes p 1 ++ leBytes (s.fld (portPage p) Fld.IZN_PORT_STATUS.peer_id) 2 ++
    leBytes (s.fld (portPage p) Fld.IZN_PORT_STATUS.train_fail) 1) s
  dropLink p s

/-- Enters RETRAIN from UP (R314): the buffers and credits stay. -/
def enterRetrain (p : Nat) (s : State) : State :=
  if portState s p = ptUp then
    raiseEv (portPage p) 2 ((setPortState p ptRetrain (leaveUp p s)).bump (portPage p) 6 1)
  else s

/-! ### Headers of flits that leave (R298, R300, R316) -/

/-- The header that every flit carries, and the state after its words, acks and credits are sent. -/
def flitHead (p : Nat) (s : State) : Flit × State :=
  let x := s.port p
  let give := (List.range 4).map (fun v => min 255 (SMap.get (fun _ => 0) x.due v))
  let due := (List.zip (List.range 4) give).foldl (fun m c => SMap.set (fun _ => 0) m c.1 (SMap.get (fun _ => 0) m c.1 - c.2)) x.due
  let now := 4 * s.time % 2 ^ 28
  let w := match x.words with
    | (1, _) :: _ => (1, now)
    | (3, _) :: _ => (3, now)
    | (k, v) :: _ => (k, v)
    | [] => (0, 0)
  let s := s.when x.nakDue (fun s => s.bump (portPage p) 5 1)
  let s := if w.1 = 1 then { s with sync := { s.sync with t1 := some now } } else s
  (⟨0, 0, 0, (x.rxNext + 4095) % 4096, x.nakDue, give, w.1, w.2, List.replicate 240 0, 0⟩,
   s.setPort p { x with due := due, nakDue := false, words := x.words.drop 1 })

/-- An idle flit. -/
def putIdle (p : Nat) (s : State) : State := let (h, s) := flitHead p s; putFlit p h s

/-- A retrain that this side asks for: the peer hears of it in a link word, then the port enters RETRAIN (R314, R316) (DEDUCED,
log 54). -/
def askRetrain (p : Nat) (s : State) : State :=
  if portState s p = ptUp then
    let x := s.port p
    enterRetrain p (putIdle p (s.setPort p { x with words := (4, 0) :: x.words }))
  else s

/-! ### Commands that change a port's state -/

/-- A write of IZN_PORT_CTRL: its RW fields, then retrain (R313, R314, R321) (DEDUCED, log 55). -/
def portCtrl (p v : Nat) (s : State) : State :=
  let page := portPage p
  let off := portState s p == ptDisabled
  let reach := s.fld page Fld.IZN_PORT_CTRL.reach
  let bad := !off && bits v 2 2 != reach
  let s := s.when bad (logStatus page stConflict)
  let s := s.setRegN (page + 0x80) (bits v 1 0 + (if bad then reach else bits v 2 2) * 4)
  let s :=
    if bit v 0 && off then setPortState p ptTraining s
    else if !(bit v 0) && !off then
      dropLink p ((setPortState p ptDisabled (leaveUp p s)).setFlag page Fld.IZN_PORT_STATUS.cw_lock false)
    else s
  s.when (bit v 3) (askRetrain p)

def execPortEnable (fn p : Nat) (v : Word) (s : State) : Host.Outcome State Fault Refusal :=
  .next (posted fn (.portEnable fn p v) (fun s => if p < 16 then ownerWrite fn (portPage p) 0x80 (portCtrl p v.toNat) s else s) s)
def execPortRetrain (fn p : Nat) (s : State) : Host.Outcome State Fault Refusal :=
  .next (posted fn (.portRetrain fn p) (fun s => if p < 16 then ownerWrite fn (portPage p) 0x80 (askRetrain p) s else s) s)

/-- Fabric time takes a value that the ticks alone would not give it; the count of ticks goes on as before (R133, R317). -/
def setTime (t : Nat) (s : State) : State :=
  { s with time := t }

/-- Before the first lock the module takes its parent's time: that of training step 3 plus the measured delay, and the ticks that
have passed since then (R317). -/
def takeParentTime (p : Nat) (s : State) : State :=
  match (s.port p).peerAt with
  | some (t, n) =>
    if syncOn s && parentPort s = p && portState s p == ptUp && !(s.flag routePage Fld.IZN_SYNC_STATUS.ever_locked) then
      setTime (t + (s.sync.ticks - n)) s
    else s
  | none => s

/-- The tags of the last 8 codewords give codeword lock: the value 0xA in each, and counters that ascend (R297) (DEDUCED, log 53). -/
def cwLock (tags : List Nat) : Bool :=
  tags.length == 8 && tags.all (fun t => bits t 19 16 == 0xA) &&
    (List.zip tags (tags.drop 1)).all (fun t => bits t.2 15 0 == (bits t.1 15 0 + 1) % 65536)

/-- What step 3 of training sends to the peer. -/
def sendHello (p : Nat) (s : State) : State :=
  s.send (.hello p (selfId s) ((List.range 4).map (fun v => bits (s.regN (portPage p + 0x8C)) (8 * v + 7) (8 * v))) s.time)

/-- TRAINING_DONE: steps 3 and 4 of the table Training steps; credits from the peer's shares in units of 4 flits (R300); the
reason of the last failed training stays (R321). -/
def trainingDone (p peerId peerPort : Nat) (shares : List Nat) (peerTime delay : Nat) (tags : List Nat) (s : State) : State :=
  if p < 16 && portState s p = ptTraining && cwLock tags then
    let page := portPage p
    let s := sendHello p s
    let x := s.port p
    let s := s.setPort p { PortSt.reset with
      inbox := x.inbox
      peerAt := some (peerTime + delay / 4, s.sync.ticks)
      credits := (List.range 4).foldl (fun m v => SMap.set (fun _ => 0) m v (4 * (shares[v]?).getD 0)) [] }
    let s := s.setRegN (page + 0x84)
      (ptUp + 8 + peerId % 4096 * 2 ^ 4 + peerPort % 16 * 2 ^ 16 + s.fld page Fld.IZN_PORT_STATUS.train_fail * 2 ^ 20)
    raiseEv page 0 (takeParentTime p (setPortState p ptUp s))
  else s

def execTrainingDone (p peerId peerPort : Nat) (shares : List Nat) (peerTime : Nat) (e : TrainEnd) (s : State) :
    Host.Outcome State Fault Refusal := .next (trainingDone p peerId peerPort shares peerTime e.delay e.tags s)

/-- TRAINING_TIMEOUT: 500 ms in TRAINING; the step that failed is the reason. -/
def trainingTimeout (p reason : Nat) (s : State) : State :=
  if p < 16 && portState s p = ptTraining && portAged s p 531250000 then enterDown p (s.setFld (portPage p) Fld.IZN_PORT_STATUS.train_fail reason) else s

def execTrainingTimeout (p reason : Nat) (s : State) : Host.Outcome State Fault Refusal := .next (trainingTimeout p reason s)

/-- RETRAIN_TIMEOUT: 4 ms in RETRAIN. -/
def retrainTimeout (p : Nat) (s : State) : State :=
  if p < 16 && portState s p = ptRetrain && portAged s p 4250000 then enterDown p s else s

def execRetrainTimeout (p : Nat) (s : State) : Host.Outcome State Fault Refusal := .next (retrainTimeout p s)

/-- RETRAIN_DONE: UP again, with the replay of every unacknowledged flit (R314). -/
def retrainDone (p : Nat) (s : State) : State :=
  if p < 16 && portState s p = ptRetrain then
    let x := s.port p
    let s := s.setPort p { x with replay := x.replay.map (fun f => { f with sends := 0 }), resend := x.replay.map (·.fseq), unc := [] }
    setPortState p ptUp s
  else s

def execRetrainDone (p : Nat) (s : State) : Host.Outcome State Fault Refusal := .next (retrainDone p s)

/-- PEER_GONE. -/
def peerGone (p : Nat) (s : State) : State :=
  if p < 16 && (portState s p = ptUp || portState s p = ptRetrain) then enterDown p s else s

def execPeerGone (p : Nat) (s : State) : Host.Outcome State Fault Refusal := .next (peerGone p s)

/-- DOWN_RESTART: 2^27 ticks in DOWN with auto_up. -/
def downRestart (p : Nat) (s : State) : State :=
  if p < 16 && portState s p = ptDown && s.flag (portPage p) Fld.IZN_PORT_CTRL.auto_up && portAged s p (2 ^ 27) then
    setPortState p ptTraining s
  else s

def execDownRestart (p : Nat) (s : State) : Host.Outcome State Fault Refusal := .next (downRestart p s)

/-! ### Synchronisation (R316 to R318) -/

/-- A 28-bit difference as a signed value. -/
def diff28 (a b : Nat) : Int := sx 28 ((a + 2 ^ 28 - b % 2 ^ 28) % 2 ^ 28)

/-- The rate trim that the servo picks after an exchange: a free value (R317) (DEDUCED, log 54). -/
def retrim (s : State) : State := s.takeFree.2.setRegN (routePage + 0xA0) (s.takeFree.1 % 2 ^ 32)

/-- The phase left to correct after an exchange: the offset in whole ticks (R317) (DEDUCED, log 54). -/
def rephase (off : Int) (s : State) : State := { s with sync := { s.sync with phase := toU 28 (off / 4) } }

/-- What an exchange measures: the port's delay and the module's offset (R316) (DEDUCED, log 54). -/
def noteExchange (p : Nat) (delay off : Int) (s : State) : State :=
  ((s.setRegN (portPage p + 0x90) (toU 20 delay)).setFld routePage Fld.IZN_SYNC_STATUS.offset
    (toU 16 (max (-32768) (min 32767 off)))).bump routePage 6 1

/-- The last rate trim stays: in holdover, and on the exchange that loses lock (R318). -/
def keepsTrim (s : State) (off : Int) : Bool :=
  s.flag routePage Fld.IZN_SYNC_STATUS.holdover || (s.flag routePage Fld.IZN_SYNC_STATUS.locked && decide (8 < off.natAbs))

/-- One exchange is complete: delay, offset, trim, lock. -/
def syncEnd (p t1 t2 t3 t4 : Nat) (s : State) : State :=
  let delay := (diff28 t4 t1 - diff28 t3 t2) / 2
  let off := (diff28 t2 t1 + diff28 t3 t4) / 2
  let s := rephase off ((noteExchange p delay off s).when (!(keepsTrim s off)) retrim)
  let good := if off.natAbs ≤ 1 then s.sync.good + 1 else 0
  let s := { s with sync := { s.sync with t1 := none, t2 := none, good := good } }
  if 8 < off.natAbs then loseLock s
  else if 16 ≤ good && !(s.flag routePage Fld.IZN_SYNC_STATUS.locked) then
    let s := ((s.setFlag routePage Fld.IZN_SYNC_STATUS.locked true).setFlag routePage Fld.IZN_SYNC_STATUS.ever_locked true).setFlag
      routePage Fld.IZN_SYNC_STATUS.holdover false
    raiseEv routePage 0 s
  else s

/-- SYNC_EXCHANGE: the child's first word goes to the parent port (R316). -/
def syncExchange (s : State) : State :=
  let p := parentPort s
  let period := 2 ^ max 10 (s.fld routePage Fld.IZN_SYNC_CFG.period_exp)
  if syncOn s && portUp s p && (s.sync.started == 0 || decide (s.sync.started - 1 + period ≤ s.time)) then
    let s := { s with sync := { s.sync with started := s.time + 1, t1 := none, t2 := none } }
    s.setPort p { s.port p with words := (s.port p).words ++ [(1, 0)] }
  else s

def execSyncExchange (s : State) : Host.Outcome State Fault Refusal := .next (syncExchange s)

/-- Takes a link word that a flit brings (table Link words). -/
def takeWord (p stamp kind data : Nat) (s : State) : State :=
  match kind with
  | 1 => s.setPort p { s.port p with words := (s.port p).words ++ [(2, stamp % 2 ^ 28), (3, 0)] }
  | 2 => if syncOn s && parentPort s = p then { s with sync := { s.sync with t2 := some data } } else s
  | 3 =>
    if syncOn s && parentPort s = p then
      match s.sync.t1, s.sync.t2 with
      | some t1, some t2 => syncEnd p t1 t2 data (stamp % 2 ^ 28) s
      | _, _ => s
    else s
  | 4 => if data = 0 then enterRetrain p s else s
  | _ => s

/-! ### Receiving flits (R299, R300) -/

/-- Adds to a channel's number. -/
def addVc (m : SMap Nat) (v n : Nat) : SMap Nat := SMap.set (fun _ => 0) m v (SMap.get (fun _ => 0) m v + n)

/-- Drops what an ack covers. -/
def ackFlits (ack : Nat) (l : List SentFlit) : List SentFlit :=
  if l.any (fun f => f.fseq == ack) then (l.dropWhile (fun f => f.fseq != ack)).drop 1 else l

/-- The ack, nak and credits of a good flit's header. -/
def takeHeader (f : Flit) (x : PortSt) : PortSt :=
  let rest := ackFlits f.ack x.replay
  let resend := if f.nak then rest.map (·.fseq) else x.resend.filter (fun q => rest.any (fun r => r.fseq == q))
  let credits := (List.zip (List.range 4) f.credits).foldl (fun m c => addVc m c.1 c.2) x.credits
  { x with replay := rest, resend := resend, credits := credits }

/-- The structural part of check 1 of the table Receive checks; a read request's `len16` names the length wanted. -/
def malformed (p : Packet) : Bool :=
  decide (0xC < p.type) || decide (1024 < p.len16) ||
  (p.len16 != 0 && [ptAck, ptError, ptToken, ptCredit].contains p.type)

/-- A packet that fails check 1: discarded, answered with FORMAT_INVALID unless it is an answer itself (R306, R308). -/
def refuseForm (pkt : Packet) (s : State) : State :=
  if pkt.type = ptAck || pkt.type = ptError then s.bump routePage 5 1
  else sendPacket (errorOf s pkt stFormat) (s.bump routePage 2 1)

/-- A packet's last flit has come: it waits for delivery, or fails check 1; its flits leave the buffer then (DEDUCED, log 52). -/
def endPacket (p vc : Nat) (l : List (BitVec 8)) (s : State) : State :=
  let pkt := packetOf l
  let x := s.port p
  if l.length = 240 * flitCount pkt && !(malformed pkt) then s.setPort p { x with inbox := x.inbox ++ [pkt] }
  else refuseForm pkt (s.setPort p { x with due := addVc x.due vc (l.length / 240) })

/-- A data flit with the fseq expected (DEDUCED, log 52). -/
def acceptFlit (p : Nat) (f : Flit) (s : State) : State :=
  let x := s.port p
  let l := SMap.get (fun _ => []) x.part f.vc ++ fit 240 f.payload
  let x := { x with rxNext := (x.rxNext + 1) % 4096, discarding := false,
                    part := SMap.set (fun _ => []) x.part f.vc (if f.kind = 2 then [] else l) }
  let s := (s.setPort p x).bump (portPage p) 3 1
  if f.kind = 2 then endPacket p f.vc l s else s

/-- A codeword could not be corrected: counted, and a retrain when the window holds too many (R314) (DEDUCED, log 53). -/
def noteUnc (p : Nat) (s : State) : State :=
  let page := portPage p
  let x := s.port p
  let w := 2 ^ s.fld page Fld.IZN_RETRAIN_CFG.win_exp
  let l := s.time :: x.unc.filter (fun t => decide (s.time < t + w))
  let s := (s.setPort p { x with unc := l }).bump page 1 1
  if s.fld page Fld.IZN_RETRAIN_CFG.unc_limit < l.length then askRetrain p s else s

/-- Flit `i` of a port came with a bad CRC: a codeword of it was uncorrectable, the one that the flit before it has already
shown if it holds bits of this one too (R299, R314) (DEDUCED, log 53). -/
def badFlit (p i : Nat) (s : State) : State :=
  let x := s.port p
  let (lo, hi) := codewordSpan i
  match x.badCw with
  | some c => if lo ≤ c then s else noteUnc p (s.setPort p { x with badCw := some hi })
  | none => noteUnc p (s.setPort p { x with badCw := some hi })

/-- FLIT_RX (DEDUCED, log 52; DEDUCED, log 53). -/
def flitRx (p stamp : Nat) (f : Flit) (s : State) : State :=
  if !(decide (p < 16) && portUp s p) then s
  else
  let i := (s.port p).rxFlits
  let s := s.setPort p { s.port p with rxFlits := i + 1 }
  if !f.crcOk then
    badFlit p i (s.setPort p { s.port p with nakDue := true, discarding := true })
  else
    let s := s.setPort p (takeHeader f (s.port p))
    let x := s.port p
    let s :=
      if f.kind = 1 || f.kind = 2 then
        if f.fseq = x.rxNext then acceptFlit p f s
        else s.setPort p { x with nakDue := x.nakDue || !x.discarding, discarding := true }
      else s
    takeWord p stamp f.linkKind f.linkData s

def execFlitRx (p stamp : Nat) (f : Flit) (s : State) : Host.Outcome State Fault Refusal := .next (flitRx p stamp f s)

/-! ### Sending flits (R300, R301) -/

def vcCredits (x : PortSt) (v : Nat) : Nat := SMap.get (fun _ => 0) x.credits v

/-- A first copy waits on channel `v`. -/
def vcWaits (s : State) (p v : Nat) : Bool :=
  (s.port p).cur.any (fun c => c.1 == v) || !(SMap.get (fun _ => []) s.txq (p * 4 + v)).isEmpty

/-- A first copy on channel `v` is ready and holds a credit. -/
def vcReady (s : State) (p v : Nat) : Bool := vcWaits s p v && decide (0 < vcCredits (s.port p) v)

/-- The channels of the weighted rotation and their weights. -/
def rotVc (k : Nat) : Nat := if k = 0 then 1 else if k = 1 then 0 else 3
/-- The weight of a virtual channel in the rotation of a port (DEDUCED, log 59). -/
def rotWeight (k : Nat) : Nat := if k = 2 then 1 else 8

/-- The rotation's choice, and where it then stands (DEDUCED, log 59). -/
def rotPick (ready : Nat → Bool) : Nat → Nat × Nat → Option (Nat × (Nat × Nat))
  | 0, _ => none
  | n + 1, (k, left) =>
    if 0 < left && ready (rotVc k) then some (rotVc k, (k, left - 1))
    else rotPick ready n ((k + 1) % 3, rotWeight ((k + 1) % 3))

/-- What a flit slot carries: a replay, a first copy on a channel with the rotation after it, or nothing. -/
inductive Slot where
  | replay (f : SentFlit)
  | first (vc : Nat) (rot : Nat × Nat)
  | idle
  deriving DecidableEq, Repr

/-- The order of R301 (DEDUCED, log 59). -/
def chooseSlot (s : State) (p : Nat) : Slot :=
  let x := s.port p
  match x.resend with
  | q :: _ => match x.replay.find? (fun f => f.fseq == q) with | some f => .replay f | none => .idle
  | [] =>
    if 2048 ≤ x.replay.length then .idle
    else
      let others := vcReady s p 0 || vcReady s p 1 || vcReady s p 3
      let few := decide ((x.hist.filter (· == 2)).length < 8)
      if vcReady s p 2 && (few || !others) then .first 2 x.rot
      else
        match rotPick (vcReady s p) 4 x.rot with
        | some (v, rot) => .first v rot
        | none => .idle

/-- The packet and flit index that channel `v` sends next. -/
def nextFlit (s : State) (p v : Nat) : Option (Packet × Nat) :=
  match (s.port p).cur.find? (fun c => c.1 == v) with
  | some c => some c.2
  | none => (SMap.get (fun _ => []) s.txq (p * 4 + v)).head?.map (fun k => (k, 0))

/-- Takes the next flit of channel `v` out of its packet. -/
def advance (p v : Nat) (pkt : Packet) (i : Nat) (s : State) : State :=
  let x := s.port p
  let rest := x.cur.filter (fun c => c.1 != v)
  let s := if i = 0 then { s with txq := SMap.set (fun _ => []) s.txq (p * 4 + v) ((SMap.get (fun _ => []) s.txq (p * 4 + v)).drop 1) } else s
  s.setPort p { x with cur := if i + 1 < flitCount pkt then rest ++ [(v, pkt, i + 1)] else rest }

def replayLimit (s : State) (p : Nat) : Nat := max 1 (s.fld (portPage p) Fld.IZN_RETRAIN_CFG.replay_limit)

/-- FLIT_TRANSMIT. -/
def flitTransmit (p : Nat) (s : State) : State :=
  if !(decide (p < 16) && portUp s p) then s
  else
    match chooseSlot s p with
    | .replay f =>
      if replayLimit s p ≤ f.sends then askRetrain p s
      else
        let (h, s) := flitHead p s
        let x := s.port p
        let s := s.setPort p { x with
          resend := x.resend.drop 1
          replay := x.replay.map (fun g => if g.fseq == f.fseq then { g with sends := g.sends + 1 } else g) }
        putFlit p { h with kind := f.kind, vc := f.vc, fseq := f.fseq, payload := f.payload } (s.bump (portPage p) 4 1)
    | .first v rot =>
      match nextFlit s p v with
      | none => s
      | some (pkt, i) =>
        let (h, s) := flitHead p (advance p v pkt i s)
        let x := s.port p
        let kind := if i + 1 = flitCount pkt then 2 else 1
        let f : SentFlit := ⟨kind, v, x.txNext, flitPayload pkt i, 1, pkt⟩
        let s := s.setPort p { x with
          txNext := (x.txNext + 1) % 4096, replay := x.replay ++ [f], hist := (v :: x.hist).take 16, rot := rot,
          credits := SMap.set (fun _ => 0) x.credits v (vcCredits x v - 1) }
        putFlit p { h with kind := kind, vc := v, fseq := f.fseq, payload := f.payload } (s.bump (portPage p) 2 1)
    | .idle => putIdle p s

def execFlitTransmit (p : Nat) (s : State) : Host.Outcome State Fault Refusal := .next (flitTransmit p s)

/-! ### The answer timeout (R309) and the routing table's commands (R311, R322) -/

/-- E2E_TIMEOUT: an answer is overdue; the command ends with LINK_DOWN, detail the destination (DESIGN CHOICE, log 4). -/
def e2eTimeout (u stream seq : Nat) (s : State) : State :=
  let limit := max 1024 (s.regN (routePage + 0x94))
  match s.outst.find? (fun o => o.unit == u && o.stream == stream && o.seq == seq && decide (o.time + limit ≤ s.time)) with
  | none => s
  | some o => settle (tryArrays modulePath (failSent o ⟨stLinkDown, 0, o.dest, 0⟩ s))

def execE2eTimeout (u stream seq : Nat) (s : State) : Host.Outcome State Fault Refusal := .next (e2eTimeout u stream seq s)

def rtIdx (s : State) : Nat := s.fld routePage Fld.IZN_RT_IDX.index

/-- RT_LOAD. -/
def rtLoad (s : State) : State := s.setRegN (routePage + 0x88) (s.route (rtIdx s))

/-- RT_COMMIT (DEDUCED, log 130). -/
def rtCommit (s : State) : State :=
  { s with routes := SMap.set (fun _ => (0 : Word)) s.routes (rtIdx s) (BitVec.ofNat 32 (s.regN (routePage + 0x88) % 2048)) }

def execRtLoad (fn : Nat) (s : State) : Host.Outcome State Fault Refusal :=
  .next (posted fn (.rtLoad fn) (fun s => ownerWrite fn routePage 0x8C rtLoad s) s)
def execRtCommit (fn : Nat) (s : State) : Host.Outcome State Fault Refusal :=
  .next (posted fn (.rtCommit fn) (fun s => ownerWrite fn routePage 0x8C rtCommit s) s)

end Sys2Proof.Machine
end

