-- ==== Sys2Proof/Machine/Packets.lean ====
section
/-! DEFINITION. Packets that arrive (R303, R306 to R309): the receive checks, forwarding, and what each type does. A packet
comes from a port's receive buffer (`p` below 16) or, addressed to this module itself, over the die fabric (R324). -/

namespace Sys2Proof.Machine

/-! ### Arrival -/

/-- The packets that wait for delivery: in the receive buffer of a port, or on the die fabric (R300, R324). -/
def waiting (s : State) (p : Nat) : List Packet := if p < 16 then (s.port p).inbox else s.loop

/-- The packet can be delivered: it waits, and it is the first of its channel to do so (R305) (DESIGN CHOICE, log 51). -/
def arrived (s : State) (p : Nat) (pkt : Packet) : Bool :=
  (waiting s p).find? (fun q => vcOf q.type == vcOf pkt.type) == some pkt

/-- Takes a packet out of where it waits; its flits leave the port's buffer and their credits go back (R300) (DEDUCED, log 52). -/
def takeIn (p : Nat) (pkt : Packet) (s : State) : State :=
  if p < 16 then
    let x := s.port p
    if x.inbox.contains pkt then
      s.setPort p { x with inbox := dropFirst (· == pkt) x.inbox, due := addVc x.due (vcOf pkt.type) (flitCount pkt) }
    else s
  else { s with loop := dropFirst (· == pkt) s.loop }

/-- A packet that fails one of checks 2 to 8: discarded, an ERROR sent unless it is an answer itself (R306, R308). -/
def refusePkt (p : Nat) (pkt : Packet) (status : Nat) (s : State) : State :=
  let s := takeIn p pkt s
  if pkt.type = ptAck || pkt.type = ptError then s.bump routePage 5 1
  else sendPacket (errorOf s pkt status) (s.bump routePage 3 1)

/-- A packet that passed: counted, out of its buffer, its effect made. -/
def deliver (p : Nat) (pkt : Packet) (act : State → State) (s : State) : State := act ((takeIn p pkt s).bump routePage 0 1)

/-- Checks 2 to 5: forwarded with one hop less, or refused. -/
def forward (p : Nat) (pkt : Packet) (s : State) : State :=
  if pkt.hops = 0 then refusePkt p pkt stAddress s
  else
    match routePort s pkt.dest pkt.stream with
    | none => refusePkt p pkt stAddress s
    | some q =>
      if portUp s q then queueAt q { pkt with hops := pkt.hops - 1 } ((takeIn p pkt s).bump routePage 1 1)
      else refusePkt p pkt stLinkDown s

/-- A packet of type `ty` arrives: checks 1 to 5, then the rest for a packet of this module. -/
def receive (ty p : Nat) (pkt : Packet) (mine : State → State) (s : State) : State :=
  if pkt.type != ty || !(arrived s p pkt) then s
  else if malformed pkt || pkt.data.length != 16 * data16 pkt.type pkt.len16 then refuseForm pkt (takeIn p pkt s)
  else if pkt.dest != selfId s then forward p pkt s
  else mine s

/-! ### Holding -/

/-- A write of these bytes must wait for a move or for the Cask writer (R253, R376). -/
def mustWait (s : State) (a n : Nat) : Bool := transitIn s a n || pendingIn s a n

/-- The Cask writer copies the units that hold a write ahead of every other (R376). -/
def preferUnits (a n : Nat) (s : State) : State :=
  let l := s.cask.pend
  { s with cask := { s.cask with pend := l.filter (unitMeets s a n) ++ l.filter (fun u => !(unitMeets s a n u)) } }

/-- The units whose stores hold Tiles of these bytes, in a Forme that is not ON. -/
def sleepingStore (s : State) (a n : Nat) : Option Nat :=
  ((regionTiles s a n).filter (fun t => decide (tsTier (tileState s t) ≤ 1))).findSome? (fun t =>
    let u := bits (tsLoc (tileState s t)) 15 0
    if formeState s u = 0 then none else some u)

/-- An access to Tile bytes goes on, waits at the edge of a Forme, or is refused with WAKE_TIMEOUT (R446, R448). -/
def tileAccess (p : Nat) (pkt : Packet) (i : Instr) (a n : Nat) (act : State → State) (s : State) : State :=
  match sleepingStore s a n with
  | some u => atEdge u 6 modulePath i (fun s => refusePkt p pkt stWakeTo (countWakeTo u s)) act s
  | none => act s

/-- Bytes that the stop buffer holds. -/
def stopBytes (s : State) : Nat := s.cask.stopBuf.foldl (fun n x => n + 32 + x.2.data.length) 0

/-- From T until resume a packet that passed its checks waits in the stop buffer, acknowledged; a full buffer refuses
it (R385). The bytes that the buffer's Folios then hold are not stated: free values (DEDUCED, log 56). -/
def holdStop (p : Nat) (pkt : Packet) (s : State) : State :=
  if 1024 * 65536 < stopBytes s + 32 + pkt.data.length then
    refusePkt p pkt stConflict (s.setFlag cellarPage Fld.CSK_STATUS.stop_incomplete true)
  else
    let a := s.fld cellarPage Fld.CSK_STOPBUF.folio * 65536 + stopBytes s
    let n := 32 + pkt.data.length
    deliver p pkt (fun s => sendPacket (ackOf s pkt)
      { s.when (inFixed s a n) (fun s => s.scramble a n) with cask := { s.cask with stopBuf := s.cask.stopBuf ++ [(p, pkt)] } }) s

/-- Delivers at once, or into the stop buffer. -/
def deliverOrStop (p : Nat) (pkt : Packet) (act : State → State) (s : State) : State :=
  if s.stopped then holdStop p pkt s else deliver p pkt act s

/-! ### Checks 6 and 7 for Folio space -/

def pktLen (pkt : Packet) : Nat := 16 * pkt.len16

/-- The job of a region that the bytes touch differs (check 6). -/
def jobDiffers (s : State) (pkt : Packet) : Bool := (regionTiles s pkt.addr (pktLen pkt)).any (fun t => t.reg.job != pkt.job)

/-- Checks 6 and 7 of a packet that names Folio space: the first failure's status. -/
def folioCheck (s : State) (pkt : Packet) : Option Nat :=
  if jobDiffers s pkt then some stPrivilege
  else if (unmappedIn s pkt.addr (pktLen pkt)).isSome then some stAddress
  else none

/-- The region Tile whose bytes are exactly these (R247). -/
def exactTile (s : State) (a n : Nat) : Option TileRef :=
  match tileAt s a with
  | some t => if t.addr = a && t.reg.strideBytes = n then some t else none
  | none => none

/-! ### WRITE (R303, R326) -/

/-- Writes a packet's data: allocation (R258), the whole words it needs (R265), the bytes, tile_exp (R326). -/
def applyWrite (pkt : Packet) (a : Nat) (data : List (BitVec 8)) (s : State) : Except Nat State :=
  let n := data.length
  match allocTiles [(a, n)] (regionTiles s a n) s with
  | .error f => .error f.status
  | .ok s1 =>
    if partialBad s1 a n then .error stEcc
    else
      let s2 := writeFolio a data s1
      match exactTile s2 a n with
      | some t => .ok (setTileState t (putBits (tileState s2 t) 19 18 (pkt.sub % 4)) s2)
      | none => .ok s2

/-- Applies a WRITE to Folio space, without an answer: what the stop buffer's packets do at resume. One that cannot be applied
any more, though it was acknowledged, is dropped without a record (DESIGN CHOICE, log 156). -/
def applyQuiet (pkt : Packet) (s : State) : State :=
  match applyWrite pkt pkt.addr pkt.data s with
  | .ok s => s
  | .error _ => s

/-- A WRITE or BG_WRITE to Folio space from check 6 on. -/
def writeMine (p : Nat) (pkt : Packet) (i : Instr) (s : State) : State :=
  let n := pktLen pkt
  match folioCheck s pkt with
  | some st => refusePkt p pkt st s
  | none =>
    if pkt.sub % 4 != 0 && (exactTile s pkt.addr n).isNone then refusePkt p pkt stFormat s
    else if s.stopped then holdStop p pkt s
    else if mustWait s pkt.addr n then preferUnits pkt.addr n s
    else
      tileAccess p pkt i pkt.addr n (fun s =>
        match applyWrite pkt pkt.addr pkt.data s with
        | .ok s => deliver p pkt (fun s => sendPacket (ackOf s pkt) s) s
        | .error st => refusePkt p pkt st (if st = stEcc then noteEcc pkt.addr n s else s)) s

def writeRx (p : Nat) (pkt : Packet) (s : State) : State := receive ptWrite p pkt (writeMine p pkt (.writeRx p pkt)) s

def execWriteRx (p : Nat) (pkt : Packet) (s : State) : Host.Outcome State Fault Refusal := .next (writeRx p pkt s)

/-! ### READ_REQ (R357, R360) -/

/-- A shard entry's four doublewords (R357). -/
def shardWord (s : State) (i d : Nat) : Nat := folioNum s (s.reg64 (mapPage + 0x98) + 32 * i + 8 * d) 8

/-- An entry's current range: its first byte and its length. -/
def shardNow (s : State) (i : Nat) : Nat × Nat := (bits (shardWord s i 0) 49 0, bits (shardWord s i 1) 31 0 * 65536)

/-- An entry's retained range; empty while retain_valid is 0. -/
def shardOld (s : State) (i : Nat) : Nat × Nat :=
  (bits (shardWord s i 2) 49 0, if bit (shardWord s i 1) 49 then bits (shardWord s i 3) 47 16 * 65536 else 0)

/-- `n` bytes from `a` lie in a range. -/
def inRange (a n : Nat) (r : Nat × Nat) : Bool := decide (r.1 ≤ a) && decide (a + n ≤ r.1 + r.2)

/-- The lowest valid entry of a job that holds every byte, each in its current or its retained range (R357, R360). -/
def shardEntry (s : State) (job a n : Nat) : Option Nat :=
  (List.range (min 4096 (s.fld mapPage Fld.MAP_SHARD_LIMIT.limit))).find? (fun i =>
    bit (shardWord s i 1) 48 && bits (shardWord s i 0) 61 50 == job && covered [shardNow s i, shardOld s i] (a + n) 2 a)

/-- The shard entries that a versioned request reads, up to the one it finds: their correctable words are corrected (R263). -/
def readShards (s0 : State) (pkt : Packet) (s : State) : State :=
  let n := match shardEntry s0 pkt.job pkt.addr (pktLen pkt) with
    | some i => i + 1
    | none => min 4096 (s0.fld mapPage Fld.MAP_SHARD_LIMIT.limit)
  touch (s0.reg64 (mapPage + 0x98)) (32 * n) s

/-- The table Versioned read outcomes: the generation served and whether from the retained buffer; none for STALE_SHARD. -/
def versioned (s : State) (pkt : Packet) : Option (Nat × Bool) :=
  match shardEntry s pkt.job pkt.addr (pktLen pkt) with
  | none => none
  | some i =>
    let gen := bits (shardWord s i 1) 47 32
    let old := bits (shardWord s i 3) 15 0
    if inRange pkt.addr (pktLen pkt) (shardNow s i) && gen = pkt.layoutGen then some (gen, false)
    else if bit pkt.sub 1 && inRange pkt.addr (pktLen pkt) (shardOld s i) && old = pkt.layoutGen then some (old, true)
    else none

/-- The READ_RESP of a request (R303, R326, R360). -/
def respOf (s : State) (pkt : Packet) (data : List (BitVec 8)) (gen sub : Nat) : Packet :=
  packData { mkPacket s ptReadResp pkt.src with
    job := pkt.job, layoutGen := gen, stream := pkt.stream, seq := pkt.seq, addr := pkt.addr, sub := sub } data

/-- Serves a request from Folio space. -/
def serveRead (p : Nat) (pkt : Packet) (gen : Nat) (old : Bool) (s : State) : State :=
  let n := pktLen pkt
  match readFail s pkt.addr n with
  | some .ecc => refusePkt p pkt stEcc (noteEcc pkt.addr n s)
  | some (.tier _) => refusePkt p pkt stTier (readOver pkt.addr n s)
  | none =>
    let exp := match exactTile s pkt.addr n with | some t => tsExp (tileState s t) | none => 0
    deliver p pkt (fun s =>
      let s := readOver pkt.addr n (readDone pkt.addr n (sendPacket (respOf s pkt (folioBytes s pkt.addr n) gen (exp + 4 * b2n old)) s))
      if old then raiseEv mapPage 1 (s.setRegN (mapPage + 0xB4) ((s.regN (mapPage + 0xB4) + 1) % 2 ^ 32)) else s) s

/-- A READ_REQ or BG_READ_REQ to Folio space from check 6 on. -/
def readMine (p : Nat) (pkt : Packet) (i : Instr) (s : State) : State :=
  match folioCheck s pkt with
  | some st => refusePkt p pkt st s
  | none =>
    if remoteWaits s pkt.addr (pktLen pkt) then askRemote pkt.addr (pktLen pkt) s
    else
    tileAccess p pkt i pkt.addr (pktLen pkt) (fun s =>
      if bit pkt.sub 0 then
        let s1 := readShards s pkt s
        match versioned s pkt with
        | some (gen, old) => serveRead p pkt gen old s1
        | none => refusePkt p pkt stStale s1
      else serveRead p pkt pkt.layoutGen false s) s

def readReqRx (p : Nat) (pkt : Packet) (s : State) : State := receive ptReadReq p pkt (readMine p pkt (.readReqRx p pkt)) s

def execReadReqRx (p : Nat) (pkt : Packet) (s : State) : Host.Outcome State Fault Refusal := .next (readReqRx p pkt s)

/-! ### Answers (R309) -/

/-- The request of a local command that an answer meets. -/
def answered (s : State) (pkt : Packet) (types : List Nat) : Option Outst :=
  s.outst.find? (fun o => o.stream == pkt.stream && o.seq == pkt.seq && o.addr == pkt.addr && o.dest == pkt.src && types.contains o.type)

/-- A lender has answered a packet of a move, or of a read that waits; `data` is what it has sent (R262, R309) (DESIGN CHOICE, log 38). -/
def moveAnswered (o : Outst) (data : List (BitVec 8)) (s : State) : State :=
  match moveAt s o, fetchAt s o with
  | some m, _ =>
    { s with tiers := { s.tiers with moves := s.tiers.moves.map (fun x =>
        if x == m then { x with left := x.left - 1, got := if data.isEmpty then x.got else x.got ++ [(o.addr, data)] } else x) } }
  | none, some (f, t) =>
    let f1 := { f with left := f.left - 1, got := f.got ++ [(o.addr, data)] }
    let s1 := setFetch f1 s
    if f1.left = 0 then settle (tryArrays modulePath (endFetch f1 t s1)) else s1
  | none, none => s

/-- One request is answered, with what data it brings; its command completes when it was the last, and the TOKENs that waited
for a module's last answer go out (R309, R327). -/
def settleAnswer (o : Outst) (data : List (BitVec 8)) (s : State) : State :=
  let s := { s with outst := dropFirst (· == o) s.outst }
  if o.unit = leaseUnit then moveAnswered o data s
  else if o.unit = restoreUnit then gotCask 0 data s
  else
    settle (payOwed (match (s.q o.unit).find? (fun e => e.stream == o.stream && e.seq == o.seq && e.engine == .collective && e.phase == .sending) with
      | some e => collCheck o.unit e s
      | none => s))

/-- The address in C that the data of a gather's request go to (R325). -/
def gatherTarget (a c : Opd) (addr n : Nat) : Option Nat :=
  match (List.range a.tiles).find? (fun t => a.tileAddr t == addr && strideOf a.fmt == n) with
  | some t => some (c.tileAddr t)
  | none =>
    if hasScales a then
      ((runs128 a.tiles).find? (fun r => a.bsAddr + 128 * r.1 == addr && 128 * r.2 == n)).map (fun r => c.bsAddr + 128 * r.1)
    else none

/-- The gather that an answer belongs to, and where its data go. -/
def gatherOf (s : State) (o : Outst) (n : Nat) : Option Nat :=
  match (s.q o.unit).find? (fun e => e.stream == o.stream && e.seq == o.seq && e.op == 0x61) with
  | some e =>
    match e.opd 0, e.opd 2 with
    | some a, some c => gatherTarget a c o.addr n
    | _, _ => none
  | none => none

/-- A READ_RESP from check 6 on. -/
def respMine (p : Nat) (pkt : Packet) (s : State) : State :=
  match answered s pkt [ptReadReq, ptBgReadReq] with
  | none => deliver p pkt id s
  | some o =>
    if o.unit = leaseUnit || o.unit = restoreUnit then deliver p pkt (settleAnswer o pkt.data) s
    else if (s.stream o.stream).job != pkt.job then refusePkt p pkt stPrivilege s
    else
      match gatherOf s o (pktLen pkt) with
      | none => deliver p pkt (settleAnswer o []) s
      | some a =>
        let n := pktLen pkt
        if pkt.sub % 4 != 0 && (exactTile s a n).isNone then refusePkt p pkt stFormat s
        else if mustWait s a n then preferUnits a n s
        else
          let act := fun (s : State) =>
            match applyWrite pkt a pkt.data s with
            | .ok s => deliver p pkt (settleAnswer o []) s
            | .error st => refusePkt p pkt st (if st = stEcc then noteEcc a n s else s)
          match sleepingStore s a n with
          | some u =>
            atEdge u 6 modulePath (.readRespRx p pkt)
              (fun s => deliver p pkt (fun s => settle (failSent o ⟨stWakeTo, 0, 0, 0⟩ (countWakeTo u s))) s) act s
          | none => act s

def readRespRx (p : Nat) (pkt : Packet) (s : State) : State := receive ptReadResp p pkt (respMine p pkt) s

def execReadRespRx (p : Nat) (pkt : Packet) (s : State) : Host.Outcome State Fault Refusal := .next (readRespRx p pkt s)

def ackMine (p : Nat) (pkt : Packet) (s : State) : State :=
  match answered s pkt [ptWrite, ptAccum, ptBgWrite] with
  | some o => deliver p pkt (settleAnswer o []) s
  | none => deliver p pkt id s

def ackRx (p : Nat) (pkt : Packet) (s : State) : State := receive ptAck p pkt (ackMine p pkt) s

def execAckRx (p : Nat) (pkt : Packet) (s : State) : Host.Outcome State Fault Refusal := .next (ackRx p pkt s)

/-- The codes that a module reports for a packet (R9, R10) (DEDUCED, log 157). -/
def packetCode (status : Nat) : Bool := decide (1 ≤ status) && decide (status ≤ 0x15)

/-- The failure that an ERROR reports for a packet of a command or of a lease; a lender that does not know the lease has ended
it (R262, R306, R309). -/
def errorMeets (o : Outst) (status from_ : Nat) (s : State) : State :=
  let f : Fail := ⟨status, 0, from_, o.type⟩
  let s := failSent o f s
  if o.unit = leaseUnit && status = stAddress then endLease o.stream s else settle (tryArrays modulePath s)

/-- A lender answers a LEASE packet with ADDRESS_FAULT: it does not know the lease, which it has ended (R262, R306). -/
def leaseUnknown (pkt : Packet) (status ty : Nat) (s : State) : State :=
  if ty = ptLease && status = stAddress && pkt.stream < 64 && (leaseOf s pkt.stream).state != 0 && (leaseOf s pkt.stream).dest == pkt.src then
    endLease pkt.stream s
  else s

/-- An ERROR for one of a command's packets completes it; for any other type, or with a code that no module reports, it is
counted (R10, R309) (DEDUCED, log 157). -/
def errorMine (pkt : Packet) (s : State) : State :=
  let status := bits pkt.addr 7 0
  let ty := bits pkt.addr 11 8
  let from_ := bits pkt.addr 23 12
  if packetCode status && [ptWrite, ptReadReq, ptAccum, ptBgWrite, ptBgReadReq].contains ty then
    match s.outst.find? (fun o => o.stream == pkt.stream && o.seq == pkt.seq && o.type == ty) with
    | some o => errorMeets o status from_ s
    | none => s
  else leaseUnknown pkt status ty (raiseEv routePage 2 (s.bump routePage 4 1))

def errorRx (p : Nat) (pkt : Packet) (s : State) : State := receive ptError p pkt (deliver p pkt (errorMine pkt)) s

def execErrorRx (p : Nat) (pkt : Packet) (s : State) : Host.Outcome State Fault Refusal := .next (errorRx p pkt s)

/-! ### ACCUM (R334) -/

/-- An ACCUM from check 6 on. -/
def accumMine (p : Nat) (pkt : Packet) (s : State) : State :=
  let k := accCtx pkt
  let x := s.ctx k
  if x.armed && x.job != pkt.job then refusePkt p pkt stPrivilege s
  else if !x.armed then refusePkt p pkt stAddress s
  else
    let o := accOutcome s pkt
    match o with
    | .error st => refusePkt p pkt st (accNote pkt o s)
    | .duplicate => deliverOrStop p pkt (fun s => sendPacket (ackOf s pkt) (accNote pkt o s)) s
    | .apply =>
      let a := accAddr x (accTile pkt)
      if s.stopped then holdStop p pkt s
      else if pendingIn s a 65536 then preferUnits a 65536 s
      else deliver p pkt (fun s => sendPacket (ackOf s pkt) (noteReady (accApply pkt s))) s

def accumRx (p : Nat) (pkt : Packet) (s : State) : State := receive ptAccum p pkt (accumMine p pkt) s

def execAccumRx (p : Nat) (pkt : Packet) (s : State) : Host.Outcome State Fault Refusal := .next (accumRx p pkt s)

/-- Applies a held ACCUM at resume: the table ACCUM outcomes once more (R396). -/
def accumQuiet (pkt : Packet) (s : State) : State :=
  let o := accOutcome s pkt
  if o = .apply then accApply pkt s else accNote pkt o s

/-! ### TOKEN and CREDIT (R303) -/

/-- The source of a module's tokens and credits, as the order of R39 counts sources. -/
def fromModule (pkt : Packet) : Nat := 0x10000 + pkt.src

/-- A TOKEN reaches its unit (DEDUCED, log 56). -/
def applyToken (pkt : Packet) (s : State) : State :=
  let st := bit pkt.sub 0
  tokenArrival pkt.target pkt.stream pkt.seq st (sendToken ⟨pkt.target, pkt.stream, pkt.seq, st, none, fromModule pkt⟩ s)

def tokenMine (p : Nat) (pkt : Packet) (s : State) : State :=
  if (s.stream pkt.stream).job != pkt.job then refusePkt p pkt stPrivilege s
  else if !(validPath pkt.target) then refusePkt p pkt stAddress s
  else deliverOrStop p pkt (applyToken pkt) s

def tokenRx (p : Nat) (pkt : Packet) (s : State) : State := receive ptToken p pkt (tokenMine p pkt) s

def execTokenRx (p : Nat) (pkt : Packet) (s : State) : Host.Outcome State Fault Refusal := .next (tokenRx p pkt s)

/-- A CREDIT reaches its unit's counter (DEDUCED, log 56). -/
def applyCredit (pkt : Packet) (s : State) : State :=
  let i := bits pkt.addr 3 0
  let n := bits pkt.addr 19 4
  creditArrival pkt.target i n { s with net := s.net ++ [.credits (fromModule pkt) pkt.target i n] }

def creditMine (p : Nat) (pkt : Packet) (s : State) : State :=
  if !(validPath pkt.target) then refusePkt p pkt stAddress s else deliverOrStop p pkt (applyCredit pkt) s

def creditRx (p : Nat) (pkt : Packet) (s : State) : State := receive ptCredit p pkt (creditMine p pkt) s

def execCreditRx (p : Nat) (pkt : Packet) (s : State) : Host.Outcome State Fault Refusal := .next (creditRx p pkt s)

/-! ### LEASE (R260, R261) -/

/-- The size that a lease request names (DESIGN CHOICE, log 57). -/
def leaseSize (pkt : Packet) : Nat := leNat (pkt.data.take 4)
/-- The expiry that a lease request names (DESIGN CHOICE, log 57). -/
def leaseExpiryOf (pkt : Packet) : Nat := leNat ((pkt.data.drop 4).take 4)

/-- A LEASE packet of a subtype. -/
def leaseRx (sub p : Nat) (pkt : Packet) (act : State → State) (s : State) : State :=
  if pkt.sub != sub then s else receive ptLease p pkt (deliver p pkt act) s

/-- 64 KB units that a die may still lend (DEDUCED, log 40). -/
def unlent (s : State) (d : Nat) : Nat :=
  min 512 (s.fld (tierPage d) Fld.DIE_LEND_CFG.lend_gb) * 16384 -
    (s.tiers.grants.filter (fun g => g.die == d)).foldl (fun n g => n + g.size) 0

/-- A die can lend `size` units more (R260) (DEDUCED, log 40). -/
def mayLend (s : State) (size d : Nat) : Bool := s.flag (tierPage d) Fld.DIE_LEND_CFG.lend_en && decide (size ≤ unlent s d)

/-- Where `size` units of a die's lent space lie: lent space need not be one piece of the bulk memory, so that any size that is
unlent has a place (DEDUCED, log 40). -/
def lendPlace (s : State) (d size : Nat) : Option Nat :=
  let l := (s.tiers.grants.filter (fun g => g.die == d)).map (fun g => (g.base / 2, g.size * 65536))
  (fitFrom l (2 ^ 45) (size * 65536) (l.length + 1) 0).map (fun o => 2 * o + d)

/-- The place of a new grant: on die 0 when it can lend that much, else on die 1; none until both bulk tiers are zeroed
(R260, R472) (DEDUCED, log 40). -/
def grantPlace (s : State) (size : Nat) : Option Nat :=
  if !([0, 1].all (fun d => s.flag (resetPage d) Fld.RST_STATUS.bulk_ready)) then none
  else
    match [0, 1].find? (mayLend s size) with
    | some d => lendPlace s d size
    | none => none

/-- A lender meets a request. -/
def grantLease (pkt : Packet) (s : State) : State :=
  let size := leaseSize pkt
  let expiry := leaseExpiryOf pkt
  match grantPlace s size with
  | some base =>
    let g : Grant := ⟨pkt.src, pkt.stream, size, expiry, base⟩
    sendLease pkt.src 1 pkt.stream size expiry { s with tiers := { s.tiers with grants := s.tiers.grants ++ [g] } }
  | none => sendLease pkt.src 2 pkt.stream size expiry s

def execLeaseRequestRx (p : Nat) (pkt : Packet) (s : State) : Host.Outcome State Fault Refusal :=
  .next (leaseRx 0 p pkt (grantLease pkt) s)

/-- The borrower's entry that a packet of its lender names. -/
def leaseFrom (s : State) (pkt : Packet) : Option Lease :=
  let x := leaseOf s pkt.stream
  if pkt.stream < 64 && x.state != 0 && x.dest == pkt.src then some x else none

/-- A grant makes the entry active. -/
def leaseActive (pkt : Packet) (s : State) : State :=
  match leaseFrom s pkt with
  | some x => if x.state = 1 then s.setLease pkt.stream { x with state := 2, size := leaseSize pkt, expiry := leaseExpiryOf pkt } else s
  | none => s

def execLeaseGrantRx (p : Nat) (pkt : Packet) (s : State) : Host.Outcome State Fault Refusal :=
  .next (leaseRx 1 p pkt (leaseActive pkt) s)

/-- A refusal frees the entry with refused set. -/
def leaseRefused (pkt : Packet) (s : State) : State :=
  match leaseFrom s pkt with
  | some x => if x.state = 1 then s.setLease pkt.stream { x with state := 0, refused := true } else s
  | none => s

def execLeaseRefuseRx (p : Nat) (pkt : Packet) (s : State) : Host.Outcome State Fault Refusal :=
  .next (leaseRx 2 p pkt (leaseRefused pkt) s)

/-- The lease that a LEASE packet of a borrower names. -/
def grantNamed (s : State) (pkt : Packet) : Option Grant := s.tiers.grants.find? (fun g => g.src == pkt.src && g.entry == pkt.stream)

/-- A renewal or a release, of a lease that the sender holds (check 7). -/
def heldLease (sub p : Nat) (pkt : Packet) (act : State → State) (s : State) : State :=
  if pkt.sub != sub then s
  else receive ptLease p pkt (fun t => if (grantNamed t pkt).isSome then deliver p pkt act t else refusePkt p pkt stAddress t) s

/-- A lender accepts a renewal while lend_en is 1, and else treats it as a recall. -/
def grantRenew (pkt : Packet) (s : State) : State :=
  match grantNamed s pkt with
  | none => s
  | some g =>
    if s.flag (tierPage g.die) Fld.DIE_LEND_CFG.lend_en then
      { s with tiers := { s.tiers with grants := s.tiers.grants.map (fun x => if x == g then { x with expiry := leaseExpiryOf pkt } else x) } }
    else recallGrant g s

def execLeaseRenewRx (p : Nat) (pkt : Packet) (s : State) : Host.Outcome State Fault Refusal :=
  .next (heldLease 3 p pkt (grantRenew pkt) s)

/-- A recall moves the expiry of the borrower's entry earlier. -/
def leaseRecalled (pkt : Packet) (s : State) : State :=
  match leaseFrom s pkt with
  | some x =>
    if 2 ≤ x.state then
      raiseEv (tierPage 0) 2 (s.setLease pkt.stream { x with state := 3, expiry := min x.expiry (leaseExpiryOf pkt) })
    else s
  | none => s

def execLeaseRecallRx (p : Nat) (pkt : Packet) (s : State) : Host.Outcome State Fault Refusal :=
  .next (leaseRx 4 p pkt (leaseRecalled pkt) s)

/-- A release gives the lent space back. -/
def grantRelease (pkt : Packet) (s : State) : State :=
  { s with tiers := { s.tiers with grants := s.tiers.grants.filter (fun g => !(g.src == pkt.src && g.entry == pkt.stream)) } }

/-- A LEASE packet whose subtype the spec gives no meaning: its checks are made, and it has no effect (R303, R306) (DESIGN CHOICE,
log 179). -/
def leaseOther (p : Nat) (pkt : Packet) (s : State) : State := if 5 < pkt.sub then leaseRx pkt.sub p pkt id s else s

def execLeaseReleaseRx (p : Nat) (pkt : Packet) (s : State) : Host.Outcome State Fault Refusal :=
  .next (if 5 < pkt.sub then leaseOther p pkt s else heldLease 5 p pkt (grantRelease pkt) s)

end Sys2Proof.Machine
end

