-- ==== Sys2Proof/Machine/Cask.lean ====
section
/-! DEFINITION. Casks and recovery: requests and captures (R372 to R378), the writer (R375 to R377), Stop-press and resume
(R383 to R388, R396), buddy mirroring (R389 to R392, R394), restore (R393, R395) and the risk estimator (R379 to R382). -/

namespace Sys2Proof

/-- What the bytes of a Cask read from another module stand for (R393): the layout of its sections is left open (R368), a free
value; none when this module does not read that layout. -/
opaque Config.caskOf : List (BitVec 8) → Option Machine.CaskImg

/-- The bytes of a section whose layout R368 leaves open, by section type and content: a free value. -/
opaque Config.sectionBytes : Nat → Machine.CaskImg → List (BitVec 8)

end Sys2Proof

namespace Sys2Proof.Machine

/-! ### Status -/

def pairing (s : State) : Nat := s.fld cellarPage Fld.CSK_STATUS.pairing
def setPairing (v : Nat) (s : State) : State := s.setFld cellarPage Fld.CSK_STATUS.pairing v

/-! ### STOP packets (R303, R378, R383, R390, R391) -/

/-- A STOP packet of sub-operation `sub` with its data bytes (R387) (DESIGN CHOICE, log 57). -/
def sendStop (dest sub : Nat) (data : List (BitVec 8)) (s : State) : State :=
  sendPacket (packData { mkPacket s ptStop dest with sub := sub } data) s

/-- To each valid member of the stop peer set but this module. -/
def sendStopAll (sub : Nat) (data : List (BitVec 8)) (s : State) : State :=
  s.each ((psetMembers s (s.fld cellarPage Fld.CSK_STOP_CFG.pset)).filter (· != selfId s)) (fun d => sendStop d sub data)

def stopGang (s : State) : Bool := s.flag cellarPage Fld.CSK_STOP_CFG.gang

/-- A STOP packet of a subtype arrives. -/
def stopRx (sub p : Nat) (pkt : Packet) (act : State → State) (s : State) : State :=
  if pkt.sub != sub then s else receive ptStop p pkt (deliver p pkt act) s

/-! ### Requests (R372, R378) -/

/-- A request becomes pending. -/
def pendCask (s : State) : State :=
  let s := { s with cask := { s.cask with requested := true } }
  s.when (cskState s == 0) (setCsk 1)

/-- A request of this module; in a gang it names the next step to every member (R378). -/
def askCask (s : State) : State :=
  let first := !s.cask.requested
  let s := pendCask s
  if first && stopGang s then
    let n := (ptgStep s + 1) % 2 ^ 32
    sendStopAll 7 (leBytes n 4) { s with cask := { s.cask with gangStep := some n } }
  else s

def execCaskRequest (fn : Nat) (s : State) : Host.Outcome State Fault Refusal :=
  .next (posted fn (.caskRequest fn) (fun s => ownerWrite fn cellarPage 0x80 askCask s) s)

/-- A gang notice. -/
def gangNotice (pkt : Packet) (s : State) : State :=
  let n := leNat (pkt.data.take 4)
  let late := seqLater (ptgStep s) n
  let s := { s with cask := { s.cask with gangStep := if s.cask.gangStep.isSome then s.cask.gangStep else some n } }
  (pendCask s).when late (fun s => s.setFlag cellarPage Fld.CSK_STATUS.gang_late true)

def execGangCaskRx (p : Nat) (pkt : Packet) (s : State) : Host.Outcome State Fault Refusal :=
  .next (stopRx 7 p pkt (gangNotice pkt) s)

/-- The boundary that ends step `st` serves the pending request (R372, R378) (DEDUCED, log 67). -/
def caskDue (s : State) (st : Nat) : Bool :=
  s.cask.requested && cskOn s && s.cask.writing.isNone && !(pulseBarred s) &&
  (match s.cask.gangStep with | some n => seqGe st n | none => true)

/-! ### What a Cask holds (R368, R369) -/

/-- Pages whose RW fields a Cask records (R369). -/
def caskKind (k : PageKind) : Bool :=
  k != .port && k != .routing && k != .pcie && k != .power && k != .reset && k != .monitor && k != .trace && k != .muzomus &&
  k != .cellar

/-- PTG_STEP, ls_exp and clean, which section 5 holds. -/
def govWords : List Nat := [govPage + 0x88, govPage + 0x104, govPage + 0x108]

/-- The bits of a register that a Cask records. -/
def caskMask (off : Nat) : Nat :=
  if govWords.contains off then 2 ^ 32 - 1
  else
    match pageOf (off % 2 ^ 28) with
    | some p => if caskKind p.kind then ((regRow p.kind (off % 0x1000)).map (·.rw)).getD 0 else 0
    | none => 0

def stageAt (s : State) : Nat := s.fld cellarPage Fld.CSK_STAGE.folio
def stopBufAt (s : State) : Nat := s.fld cellarPage Fld.CSK_STOPBUF.folio

/-- A Folio of the staging area or the stop buffer (R374, R385). -/
def inStage (s : State) (f : Nat) : Bool :=
  (decide (stageAt s ≤ f) && decide (f < stageAt s + 11264)) || (decide (stopBufAt s ≤ f) && decide (f < stopBufAt s + 1024))

/-- A byte that section 6 holds. -/
def inSection6 (s : State) (a : Nat) : Bool := decide (a < fixedFolios s * 65536) && !(inStage s (a / 65536))

/-- Memory of the Chases that section 3 holds: stores, instruction and data memories. -/
def chaseByte (a : Nat) : Bool :=
  (decide (2 ^ 51 ≤ a) && decide (a < 2 ^ 51 + 2304 * 2 ^ 18)) || (decide (2 ^ 53 ≤ a) && decide (a < 2 ^ 53 + 2304 * 2 ^ 15))

/-- A region is Casked (R368). -/
def casked (s : State) (id : Nat) : Bool := regionCask s id || s.cask.heel.contains id

/-- The written Tiles of the Casked regions. -/
def caskTiles (s : State) : List TileRef :=
  (s.tiers.regions.map (fun r =>
    if casked s r.1 then
      ((List.range r.2.tiles).map (fun j => (⟨r.1, r.2, j⟩ : TileRef))).filter
        (fun t => tsTier (tileState s t) != 7 && !(tsLost (tileState s t)))
    else [])).flatten

/-- A Tile as the Cask holds it, its compressed Tile at an offset of section 8 (R250, R368) (DESIGN CHOICE, log 66). -/
def imgTile (s : State) (t : TileRef) (off : Nat) : CaskTile :=
  let e := tileState s t
  ⟨t.id, t.j, tsExp e, tsPoison e, tsPins e, tileContent s t, kernBytes t e (tileContent s t), off⟩

/-- The Tiles of section 8, one after another (DESIGN CHOICE, log 66). -/
def imgTiles (s : State) : List TileRef → Nat → List CaskTile
  | [], _ => []
  | t :: ts, off => imgTile s t off :: imgTiles s ts (off + (imgTile s t off).code.length)

/-- A core that has not halted. -/
def coreGoing (c : CoreSt) : Bool := c.run == .running || c.run == .waiting || c.run == .stalled

/-- Folios of section 6. -/
def fixedUnits (s : State) : List Nat := (List.range (fixedFolios s)).filter (fun f => !(inStage s f))

/-- The commands held in issue queues, in outbound queues and fetched (R368 section 4, R384). -/
def heldNow (s : State) (aborted : Bool) : List Held :=
  let step := ptgStep s
  (s.units.map (fun u => (u.2.q.filter (fun e => e.parent.isNone && (e.phase == .waiting || e.phase == .held))).map
    (fun e => (⟨e.cmd, u.1, e.issuer, 0, aborted, if e.phase == .held then e.acc.step else e.keep.getD step⟩ : Held)))).flatten ++
  (s.cores.map (fun c => c.2.outq.map (fun w => (⟨w, cPath w, some c.1, 1, aborted, step⟩ : Held)))).flatten ++
  (s.streams.filterMap (fun t => t.2.fetched.map (fun w => (⟨w, cPath w, none, 2, aborted, step⟩ : Held))))

/-- The content of a Cask of a kind captured now (DESIGN CHOICE, log 66). -/
def captureImg (s : State) (kind : Nat) : CaskImg :=
  { kind := kind
    flags := b2n (pairing s == 2) + 2 * b2n (s.flag cellarPage Fld.CSK_STATUS.stop_incomplete) +
      4 * b2n (s.flag cellarPage Fld.CSK_STATUS.stop_late) + 8 * b2n s.cask.gangStep.isSome
    serial := (s.cask.serial + 1) % 2 ^ 64
    step := ptgStep s
    time := if kind = 1 then s.cask.armed.getD s.time else s.time
    module := selfId s
    feed := if s.flag cellarPage Fld.CSK_FEED.mgmt then s.fld cellarPage Fld.CSK_FEED.feed_id else s.mzm.feedStrap
    perCtl := s.fld (tierPage 0) Fld.DIE_FIXED.per_ctl
    regs := (s.regs.filter (fun r => caskMask r.1 != 0)).map (fun r => (r.1, r.2 &&& BitVec.ofNat 32 (caskMask r.1)))
    streams := s.streams
    cores := s.cores
    toks := (s.units.filter (fun u => isChase u.1)).map (fun u => (u.1, u.2.toks))
    chaseMem := s.mem.filter (fun c => chaseByte c.1)
    held := (if s.stopped then s.cask.held else []) ++ (if kind = 1 then [] else heldNow s false)
    gov := s.gov
    folios := fixedUnits s
    fixed := s.mem.filter (fun c => inSection6 s c.1)
    runs := if s.stopped then s.cask.runs else (s.cores.filter (fun c => coreGoing c.2)).map (·.1)
    regions := s.tiers.regions
    heel := s.cask.heel
    tiles := imgTiles s (caskTiles s) 0
    inch := if kind = 1 then s.cask.stopBuf else [] }

/-! ### Its bytes (R366, R368, R370) -/

/-- Sections of a Cask. -/
def sectionsOf (i : CaskImg) : Nat := if i.kind = 1 then 9 else 8

/-- A Folio of section 6, Kern compressed as format 0xF (R249). -/
def caskFolio (i : CaskImg) (f : Nat) : List (BitVec 8) :=
  chunksBytes 1 512 none ((List.range 65536).map (fun b => SMap.get memDefault i.fixed (f * 65536 + b)))

/-- The bytes of a section (table Cask sections); sections 1, 2, 4 and 5 together are under 47 MB (R374), and section 9 holds what
the 64 MB of the stop buffer held (R385) (DESIGN CHOICE, log 66). -/
def sectionBytes (i : CaskImg) (k : Nat) : List (BitVec 8) :=
  match k with
  | 3 => fit (2304 * 292 * 1024) (Config.sectionBytes 3 i)
  | 6 => (i.folios.map (caskFolio i)).flatten
  | 7 => fit (32 * i.tiles.length) (Config.sectionBytes 7 i)
  | 8 => (i.tiles.map (·.code)).flatten
  | 9 => (Config.sectionBytes 9 i).take (1024 * 65536)
  | k => (Config.sectionBytes k i).take (47 * 2 ^ 18 - 1)

/-- The bytes of sections `k` to `k + n − 1`. -/
def sectionsFrom (i : CaskImg) (k n : Nat) : List (BitVec 8) := ((List.range n).map (fun j => sectionBytes i (k + j))).flatten

/-- Where a section begins in the slot: after the header and the sections of lower type (DESIGN CHOICE, log 66). -/
def sectionAt (i : CaskImg) (k : Nat) : Nat := 4096 + (sectionsFrom i 1 (k - 1)).length

/-- All bytes of the Cask after its header, and the length of the whole. -/
def caskBody (i : CaskImg) : List (BitVec 8) := sectionsFrom i 1 (sectionsOf i)
def caskLen (i : CaskImg) : Nat := 4096 + (caskBody i).length

/-- The longest Cask (R366). -/
def caskMax : Nat := 2016 * 2 ^ 30

/-- The header's first 4,088 bytes (R370). -/
def headerBody (i : CaskImg) : List (BitVec 8) :=
  fit 4088 (leBytes 0x4B534143 4 ++ leBytes 1 2 ++ leBytes i.kind 1 ++ leBytes i.flags 1 ++ leBytes i.serial 8 ++
    leBytes i.step 4 ++ leBytes i.time 8 ++ leBytes (i.module % 4096) 2 ++ leBytes i.feed 2 ++ leBytes i.perCtl 4 ++
    leBytes (sectionsOf i) 4 ++ leBytes (caskLen i) 8 ++ leBytes 0 16 ++
    ((List.range (sectionsOf i)).map (fun k =>
      leBytes (k + 1) 4 ++ leBytes 0 4 ++ leBytes (sectionAt i (k + 1)) 8 ++ leBytes (sectionBytes i (k + 1)).length 8 ++
      leBytes (crc32c (sectionBytes i (k + 1))) 4 ++ leBytes 0 4)).flatten)

/-- The whole header: body, hcrc, commit word. -/
def headerOf (i : CaskImg) : List (BitVec 8) :=
  headerBody i ++ leBytes (crc32c (headerBody i)) 4 ++ leBytes 0x5A5AA5A5 4

/-- A Cask header under R371, its bytes read by `rd` (offset, length): OK, FORMAT_INVALID for a header that is none,
CHECKSUM_MISMATCH for a wrong CRC. -/
def headFault (rd : Nat → Nat → List (BitVec 8)) : Nat :=
  if leNat (rd 0 4) != 0x4B534143 || leNat (rd 4092 4) != 0x5A5AA5A5 then stFormat
  else if leNat (rd 4088 4) != crc32c (rd 0 4088) then stChecksum
  else stOk

/-- A Cask under R371: its header, then the CRC of every section. -/
def caskFault (rd : Nat → Nat → List (BitVec 8)) : Nat :=
  if headFault rd != stOk then headFault rd
  else
    let bad := (List.range (min 9 (leNat (rd 36 4)))).any (fun i =>
      let e := 64 + 32 * i
      crc32c (rd (leNat (rd (e + 8) 8)) (leNat (rd (e + 16) 8))) != leNat (rd (e + 24) 4))
    if bad then stChecksum else stOk

/-! ### Capture (R373, R374, R387) -/

/-- Cellar offset of slot 0 A, 1 B, and of buddy slots 0, 1 (R365). -/
def slotKey (k : Nat) : Nat := cellarBase + (64 + 2048 * k) * 2 ^ 30
def buddyKey (k : Nat) : Nat := cellarBase + (4160 + 2016 * k) * 2 ^ 30

def slotImg (s : State) (k : Nat) : Option CaskImg := if k = 0 then s.cask.slotA else s.cask.slotB

def setSlot (k : Nat) (i : Option CaskImg) (s : State) : State :=
  let s := s.setFld cellarPage Fld.CSK_STATUS.complete (putBits (s.fld cellarPage Fld.CSK_STATUS.complete) k k (b2n i.isSome))
  { s with cask := if k = 0 then { s.cask with slotA := i } else { s.cask with slotB := i } }


/-- Every ACTIVE stream is paused (R381 item 3). -/
def pauseAll (s : State) : State :=
  s.each (s.streams.map (·.1)) (fun i s => s.when ((s.stream i).state == sActive) (pauseStream i))

/-- Section 3 is read through the edge of every gated Forme (table Wake sources, 11). -/
def wakeAll (source : Nat) (s : State) : State :=
  s.each [0, 1] (fun d s => s.each (List.range 9) (fun f => startWake (formePath d f) source modulePath))

/-- The capture steps (R373): slot, staging area with sections 1 to 5, pending marks (DESIGN CHOICE, log 66). -/
def capture (kind : Nat) (s : State) : State :=
  let wide := decide (stageAt s + 11264 ≤ fixedFolios s)
  if !wide then failCask stAddress { s with cask := { s.cask with requested := false, gangStep := none } }
  else
    let k := targetSlot s
    let img := captureImg s kind
    let s := nandWrite true (slotKey k + 4092) (leBytes 0 4) (setSlot k none s)
    let s := s.setBytes (stageAt s * 65536) ((sectionsFrom img 1 5).take (11264 * 65536))
    let pend := (fixedUnits s).map (fun f => (0, f)) ++ (caskTiles s).map (fun t => (t.id + 1, t.j))
    let pause := s.cask.critPause && kind == 0
    let s := { s with cask := { s.cask with writing := some (k, img), pend := pend, requested := false, gangStep := none,
                                            critPause := false, serial := img.serial } }
    setCsk 3 (s.when pause pauseAll)

/-- A capture that is due waits for the gated Formes, which it wakes; a Forme whose wake fails holds nothing up (R446) (DEDUCED,
log 96). -/
def captureWaits (s : State) : Bool := [0, 1].any (fun d => (List.range 9).any (fun f => formeGated s (formePath d f)))

/-- CASK_CUT: a stopped module captures a cut Cask (R387), once its Formes are awake (R446), but not while a Cask is being written or
no pulse may begin (DEDUCED, log 70). -/
def caskCut (s : State) : State :=
  if cskState s = 7 && cskOn s && s.cask.writing.isNone && !(pulseBarred s) then
    if captureWaits s then wakeAll 11 { s with cask := { s.cask with critCut := true } } else capture 1 s
  else logStatus cellarPage stConflict s

def execCaskCut (fn : Nat) (s : State) : Host.Outcome State Fault Refusal :=
  .next (posted fn (.caskCut fn) (fun s => ownerWrite fn cellarPage 0x80 caskCut s) s)

/-! ### The writer (R375 to R377) -/

/-- Hints that a pending Tile held may act now (R376). -/
def settleAll (s : State) : State := s.each (s.units.map (·.1)) tryArrays


/-- A pending unit holds a command's write (R376). -/
def holdsWrite (s : State) (v : Nat × Nat) : Bool :=
  s.units.any (fun u => u.2.q.any (fun e => e.phase == .held &&
    (entryWrites e).any (fun w => (rangesUnder w.2.1 w.2.2).any (fun r => unitMeets s r.1 r.2 v))))

/-- The unit that the writer copies next: one that holds a write, else the first (R376). -/
def nextUnit (s : State) : Option (Nat × Nat) :=
  match s.cask.pend.find? (holdsWrite s) with | some v => some v | none => s.cask.pend.head?

/-- A unit's place in the slot, and its bytes there. -/
def unitCopy (i : CaskImg) (v : Nat × Nat) : Nat × List (BitVec 8) :=
  if v.1 = 0 then (sectionAt i 6 + ((i.folios.takeWhile (· != v.2)).map (caskFolio i)).flatten.length, caskFolio i v.2)
  else
    match i.tiles.find? (fun t => t.region + 1 == v.1 && t.tile == v.2) with
    | some t => (sectionAt i 8 + t.off, t.code)
    | none => (sectionAt i 8, [])

/-- The unit is a Tile that is lost, or whose lender cannot be reached (R377). -/
def unitGone (s : State) (v : Nat × Nat) : Bool :=
  match tileRef s (v.1 - 1) v.2 with
  | some t => v.1 != 0 && (tsLost (tileState s t) || !(lenderUp s (tsTier (tileState s t)) (tsLoc (tileState s t))))
  | none => false

/-- A cut Cask that is still owed to a stopped module is captured once the writer is free and every Forme awake (R381, R446). -/
def cutOwed (s : State) : State :=
  if s.cask.told && s.cask.critCut && cskState s == 7 && cskOn s && s.cask.writing.isNone && !(pulseBarred s) then
    if captureWaits s then wakeAll 11 s else capture 1 { s with cask := { s.cask with critCut := false } }
  else s

/-- The writer's Cask fails: what waited for its units goes on. -/
def writerFails (status : Nat) (s : State) : State := settleAll (wakeReqs none (cutOwed (failCask status s)))

/-- PENDING_UNIT_COPIED: a pending unit's bytes are in the Cellar, or the Cask fails at it (R366, R376, R377). -/
def pendingUnitCopied (s : State) : State :=
  let s := cellarTurn s
  match s.cask.writing, nextUnit s with
  | some (k, i), some v =>
    if writerWaits s then s
    else if unitGone s v then writerFails stTier s
    else
      let c := unitCopy i v
      if caskMax < c.1 + c.2.length then writerFails stLength s
      else
        let s := { s.setBytes (slotKey k + c.1) c.2 with cask := { s.cask with pend := s.cask.pend.filter (· != v) } }
        settleAll (wakeReqs none (cellarPulse s))
  | _, _ => s

/-- A packet of this module's mirror to `b`: STOP sub 4 or 5, or BG_WRITE into the buddy slot. -/
def ownMirror (s : State) (b : Nat) (pkt : Packet) : Bool :=
  pkt.src == selfId s && pkt.dest == b &&
  ((pkt.type == ptStop && (pkt.sub == 4 || pkt.sub == 5)) ||
   (pkt.type == ptBgWrite && pkt.job == 0 && pkt.target == 0x8000 && pkt.lease == 0))

/-- The mirror that runs is abandoned (R392): its packets that have not left are dropped; the buddy's status for one whose end
has left still comes. -/
def dropMirror (b : Nat) (s : State) : State :=
  if s.cask.mirroring.isNone then s
  else
    let ended := !(s.cask.tailDue || (s.txq.any (fun q => q.2.any (fun x => ownMirror s b x && x.sub == 5))) ||
      s.loop.any (fun x => ownMirror s b x && x.sub == 5))
    { s with
      txq := (s.txq.map (fun q => (q.1, q.2.filter (fun x => !(ownMirror s b x))))).filter (fun q => !q.2.isEmpty)
      loop := s.loop.filter (fun x => !(ownMirror s b x))
      cask := { s.cask with stale := s.cask.stale + b2n ended } }

/-- Starts to mirror a Cask (R391, R392): STOP sub 4, the sections, the header last; STOP sub 5 follows once they have left
(DESIGN CHOICE, log 57). -/
def startMirror (i : CaskImg) (s : State) : State :=
  let b := s.fld cellarPage Fld.CSK_BUDDY.buddy
  let s := dropMirror b s
  let s := { s with cask := { s.cask with mirroring := some i, tailDue := true } }
  let s := s.setFlag cellarPage Fld.CSK_STATUS.mirror_ok false
  let s := sendStop b 4 (leBytes i.serial 8 ++ leBytes (caskLen i) 8) s
  let put := fun (a : Nat) (l : List (BitVec 8)) (s : State) =>
    sendPacket (packData { mkPacket s ptBgWrite b with target := 0x8000, addr := a } (padded16 l)) s
  let s := s.each (pieces ((caskBody i).length + 1) 4096 (caskBody i)) (fun x => put x.1 x.2)
  put 0 (headerOf i) s

/-- A packet of this module's mirror is still to leave. -/
def copyLeaving (s : State) (b : Nat) : Bool :=
  s.txq.any (fun q => q.2.any (fun x => ownMirror s b x && x.type == ptBgWrite)) ||
    s.loop.any (fun x => ownMirror s b x && x.type == ptBgWrite)

/-- The whole copy has left: STOP sub 5 ends the mirror (R391) (DEDUCED, log 180). -/
def mirrorTail (s : State) : State :=
  match s.cask.mirroring with
  | some i =>
    let b := s.fld cellarPage Fld.CSK_BUDDY.buddy
    if s.cask.tailDue && !(copyLeaving s b) then
      sendStop b 5 (leBytes (crc32c (headerBody i)) 4) { s with cask := { s.cask with tailDue := false } }
    else s
  | none => s

/-- CASK_COMMIT: every unit is copied; the sections, the header and last its commit word are in the slot (R375). -/
def caskCommit (s : State) : State :=
  let s := cellarTurn s
  match s.cask.writing with
  | none => s
  | some (k, i) =>
    if !s.cask.pend.isEmpty || writerWaits s then s
    else if caskMax < caskLen i then writerFails stLength s
    else
      let s := cellarPulse ((s.setBytes (slotKey k + 4096) (caskBody i)).setBytes (slotKey k) (headerOf i))
      let s := setSlot k (some i) { s with cask := { s.cask with writing := none, lastCommit := s.time } }
      let s := s.setFld cellarPage Fld.CSK_STATUS.newest k
      let s := (s.setReg64 (cellarPage + 0x88) i.serial).setRegN (cellarPage + 0x90) i.step
      let s := raiseEv cellarPage 0 (caskResult i.serial i.step stOk k (writerEnds s))
      cutOwed (s.when (pairing s == 1 || pairing s == 2) (startMirror i))

def execCaskCommit (s : State) : Host.Outcome State Fault Refusal := .next (caskCommit s)

/-- CASK_FAIL: the Cask being written fails: it grows too long, a pending Tile is lost, or a Cellar write fails, which is an
uncorrectable error of the Cellar (R366, R377, R432). -/
def caskFail (status : Nat) (s : State) : State :=
  match s.cask.writing with
  | none => s
  | some w =>
    if status = stEcc then
      let s := colAppend 0 0x03 (leBytes 3 1 ++ leBytes (slotKey w.1 - cellarBase) 8 ++ leBytes 0 1) s
      writerFails stEcc { s with cask := { s.cask with eccUnc := s.cask.eccUnc + 1 } }
    else if status = stLength || status = stTier then writerFails status s
    else s

def execCaskFail (reason : Nat) (s : State) : Host.Outcome State Fault Refusal := .next (caskFail reason s)

/-! ### Stop-press (R383 to R386) -/

/-- Arms a stop (DESIGN CHOICE, log 57). -/
def armStop (t : Nat) (s : State) : State :=
  { (s.setFlag cellarPage Fld.CSK_STATUS.stop_late false).setFlag cellarPage Fld.CSK_STATUS.stop_incomplete false with
    cask := { s.cask with armed := some t } }

/-- STOP_ARM: a write of CSK_STOP_T_HI (DESIGN CHOICE, log 57). -/
def stopArm (v : Nat) (s : State) : State :=
  let t := s.regN (cellarPage + 0x94) + v * 2 ^ 32
  if t < s.time + 2048 then logStatus cellarPage stLength s
  else if s.cask.armed.isSome then logStatus cellarPage stConflict s
  else
    let s := armStop t (s.setRegN (cellarPage + 0x98) v)
    s.when (stopGang s) (sendStopAll 0 (leBytes t 8))

def execStopArm (fn : Nat) (v : Word) (s : State) : Host.Outcome State Fault Refusal :=
  .next (posted fn (.stopArm fn v) (fun s => ownerWrite fn cellarPage 0x98 (stopArm v.toNat) s) s)

/-- A receiver arms the same T, or refuses. -/
def stopAsked (pkt : Packet) (s : State) : State :=
  let t := leNat (pkt.data.take 8)
  if s.cask.armed = some t then s
  else if s.time + 64 < t && s.cask.armed.isNone then armStop t s
  else sendStop pkt.src 1 [] s

def execStopArmRx (p : Nat) (pkt : Packet) (s : State) : Host.Outcome State Fault Refusal :=
  .next (stopRx 0 p pkt (stopAsked pkt) s)

def execStopRefuseRx (p : Nat) (pkt : Packet) (s : State) : Host.Outcome State Fault Refusal :=
  .next (stopRx 1 p pkt (fun s => raiseEv cellarPage 5 (s.setFlag cellarPage Fld.CSK_STATUS.stop_late true)) s)

def abortedStop : Fail := ⟨stAbortStop, 0, 0, 0⟩

/-- The unissued commands complete with ABORTED_STOP in queue order. -/
def abortUnissued (s : State) : State :=
  let s := s.each (s.units.map (·.1)) (fun u s =>
    s.each ((s.q u).filter (fun e => e.parent.isNone && (e.phase == .waiting || e.phase == .held))) (fun e => finish u e abortedStop))
  let s := s.each (s.cores.map (·.1)) (fun ch s =>
    let l := (s.core ch).outq
    (s.setCore ch { s.core ch with outq := [] }).each l (fun c => completeNear ch c (some ch) stAbortStop))
  s.each (s.streams.map (·.1)) (fun id s =>
    match (s.stream id).fetched with
    | some c => completeNear (s.stream id).home c none stAbortStop (s.setStream id { s.stream id with fetched := none })
    | none => s)

/-- READY, ACTIVE and PAUSED streams enter STOPPED; the prior state is kept. -/
def stopStreams (s : State) : State :=
  s.each (s.streams.map (·.1)) (fun id s =>
    let t := s.stream id
    s.when (t.state == sReady || t.state == sActive || t.state == sPaused) (fun s =>
      s.setStream id { t with state := sStopped, before := t.state, since := 0 }))

/-- The trace writer's part of tick T on a die (R412) (DEDUCED, log 70). -/
def stopMark (t d : Nat) (s : State) : State :=
  (writeRec d ⟨s.time, 0, diePath d, 0x12, 0, t⟩ s).when (s.flag (tracePage d) Fld.TRC_TRIG_CFG.on_stop) (trigger d 4)

/-- STOP_PRESS: tick T has come (R384) (DEDUCED, log 70). -/
def stopPress (s : State) : State :=
  match s.cask.armed with
  | none => s
  | some t =>
    if s.stopped || s.time < t then s
    else
      let s := s.each [0, 1] (stopMark t)
      let goes := (s.cores.filter (fun c => coreGoing c.2)).map (·.1)
      let s := { s with stopped := true, cask := { s.cask with held := s.cask.held ++ heldNow s true, runs := s.cask.runs ++ goes, told := false } }
      let s := stopStreams (abortUnissued s)
      (s.each goes haltCore).when (cskState s != 3) (setCsk 6)

def execStopPress (s : State) : Host.Outcome State Fault Refusal := .next (stopPress s)

/-- MODULE_STOPPED: every command issued before T has completed, and a boundary under way has run to its end (R208, R386,
R388); the stop is reported once (DEDUCED, log 70). -/
def moduleStopped (s : State) : State :=
  if s.stopped && !s.cask.told && !(govBusy s) && !(s.units.any (fun u => !u.2.q.isEmpty)) then
    let s := setCsk 7 { s with cask := { s.cask with told := true } }
    let s := raiseEv cellarPage 4 (colBoth 0x0B
      (leBytes (s.cask.armed.getD 0) 8 ++ leBytes (s.fld cellarPage Fld.CSK_STATUS.stop_late) 1 ++
        leBytes (s.fld cellarPage Fld.CSK_STATUS.stop_incomplete) 1) s)
    cutOwed s
  else cutOwed s

def execModuleStopped (s : State) : Host.Outcome State Fault Refusal := .next (moduleStopped s)

/-! ### Background packets (R303, R391, R394) -/

/-- The grant of a lease that the sender of a packet holds, when the bytes lie in it. -/
def grantOf (s : State) (pkt : Packet) : Option Grant :=
  match s.tiers.grants.find? (fun g => g.src == pkt.src && g.entry == pkt.stream) with
  | some g => if pkt.addr + pktLen pkt ≤ g.size * 65536 then some g else none
  | none => none

def isMirror (pkt : Packet) : Bool := pkt.job == 0 && pkt.target == 0x8000 && pkt.lease == 0

/-- The sender is the paired buddy and a mirror has begun (DEDUCED, log 132). -/
def mirrorOk (s : State) (pkt : Packet) : Bool :=
  pkt.src == s.fld cellarPage Fld.CSK_BUDDY.buddy && (pairing s == 1 || pairing s == 2) && s.cask.receiving.isSome

/-- Stores a BG_WRITE (DEDUCED, log 132). -/
def bgApply (pkt : Packet) (s : State) : State :=
  if pkt.lease = 1 then
    match grantOf s pkt with
    | some g => cleanEcc (g.key + pkt.addr) pkt.data.length (s.setBytes (g.key + pkt.addr) pkt.data)
    | none => s
  else if isMirror pkt then
    match s.cask.receiving with
    | some r => nandWrite false (buddyKey r.1 + pkt.addr) pkt.data s
    | none => s
  else applyQuiet pkt s

/-- A BG_WRITE from check 6 on; one of a mirror waits while a higher claimant wants the Cellar, but not for the stop buffer (R367,
R385). -/
def bgWriteMine (p : Nat) (pkt : Packet) (s : State) : State :=
  let put := deliverOrStop p pkt (fun s => sendPacket (ackOf s pkt) (bgApply pkt s))
  if pkt.lease = 1 then (if (grantOf s pkt).isSome then put s else refusePkt p pkt stAddress s)
  else if isMirror pkt then
    if !(mirrorOk s pkt) then refusePkt p pkt stPrivilege s
    else if !s.stopped && buddyWaits s then s
    else put s
  else writeMine p pkt (.bgWriteRx p pkt) s

def bgWriteRx (p : Nat) (pkt : Packet) (s : State) : State := receive ptBgWrite p pkt (bgWriteMine p pkt) s

def execBgWriteRx (p : Nat) (pkt : Packet) (s : State) : Host.Outcome State Fault Refusal := .next (bgWriteRx p pkt s)

/-- Fields of the header of the copy in a buddy slot (R370): serial, length and module. -/
def copySerial (s : State) (k : Nat) : Nat := s.num (buddyKey k + 8) 8
def copyLen (s : State) (k : Nat) : Nat := s.num (buddyKey k + 40) 8
def copyModule (s : State) (k : Nat) : Nat := bits (s.num (buddyKey k + 28) 2) 11 0

/-- The buddy slot of the newest complete copy (R371, R394). -/
def newestCopy (s : State) : Option Nat :=
  s.cask.copies.foldl (fun o k =>
    match o with
    | some b => if copySerial s b < copySerial s k then some k else some b
    | none => some k) none

/-- Serves a read of the newest buddy copy (R394). -/
def copyRead (p : Nat) (pkt : Packet) (s : State) : State :=
  let fromCopy := match newestCopy s with | some k => copyModule s k == pkt.src | none => false
  if !(pkt.src == s.fld cellarPage Fld.CSK_BUDDY.buddy || fromCopy) then refusePkt p pkt stPrivilege s
  else
    match newestCopy s with
    | none => refusePkt p pkt stTier s
    | some k =>
      if copyLen s k < pkt.addr + pktLen pkt then refusePkt p pkt stLength s
      else deliver p pkt (fun s => sendPacket (respOf s pkt (s.bytes (buddyKey k + pkt.addr) (pktLen pkt)) pkt.layoutGen 0) s) s

/-- A read of lent memory corrects its correctable words (R263). -/
def lentCorrect (g : Grant) (o n : Nat) (s : State) : State :=
  (markedWords s (g.key + o) n 1).foldl (fun s w => countEcc (placeBulk g.die) 0 (s.setEcc (w * 8) 0)) s

/-- A read of lent memory meets an uncorrectable word: counted, recorded, the event raised (R265). -/
def lentBad (g : Grant) (w : Nat) (s : State) : State :=
  let base := (((lentSpace s g.die).find? (fun x => x.2 == g)).map (·.1)).getD 0
  raiseEv (tierPage g.die) 4 (recordEcc (placeBulk g.die) (base + (w * 8 - g.key)) false (countEcc (placeBulk g.die) 1 s))

/-- Serves a read of lent memory (R260, R263, R265). -/
def lentRead (p : Nat) (pkt : Packet) (g : Grant) (s : State) : State :=
  match markedWords s (g.key + pkt.addr) (pktLen pkt) 2 with
  | w :: _ => refusePkt p pkt stEcc (lentBad g w s)
  | [] => deliver p pkt (fun s =>
      sendPacket (respOf s pkt (s.bytes (g.key + pkt.addr) (pktLen pkt)) pkt.layoutGen 0) (lentCorrect g pkt.addr (pktLen pkt) s)) s

def bgReadMine (p : Nat) (pkt : Packet) (s : State) : State :=
  if pkt.lease = 1 then
    match grantOf s pkt with
    | some g => lentRead p pkt g s
    | none => refusePkt p pkt stAddress s
  else if isMirror pkt then copyRead p pkt s
  else readMine p pkt (.bgReadReqRx p pkt) s

def bgReadReqRx (p : Nat) (pkt : Packet) (s : State) : State := receive ptBgReadReq p pkt (bgReadMine p pkt) s

def execBgReadReqRx (p : Nat) (pkt : Packet) (s : State) : Host.Outcome State Fault Refusal := .next (bgReadReqRx p pkt s)

/-! ### Resume (R396) -/

/-- A packet writes Folio space of this module. -/
def folioWrite (pkt : Packet) : Bool := (pkt.type == ptWrite || pkt.type == ptBgWrite) && !(isMirror pkt) && pkt.lease == 0

/-- A write that the stop buffer held waits for the moves of its Tiles, and for the Formes of their stores to wake (R253, R396,
R446). -/
def heldBack (s : State) (pkt : Packet) : Bool :=
  folioWrite pkt && (transitIn s pkt.addr pkt.data.length ||
    (match sleepingStore s pkt.addr pkt.data.length with | some u => formeState s u != 3 | none => false))

/-- The store that a write of the stop buffer waits for is woken (R446). -/
def wakeHeld (pkt : Packet) (s : State) : State :=
  match sleepingStore s pkt.addr pkt.data.length with
  | some u => s.when (formeGated s u) (startWake u 6 modulePath)
  | none => s

/-- Applies a packet of the stop buffer; the Cask writer copies first the units that it writes, and a write to a store behind a
failed wake is counted and dropped (R376, R448) (DEDUCED, log 132). -/
def applyHeld (pkt : Packet) (s : State) : State :=
  let failed := if folioWrite pkt then sleepingStore s pkt.addr pkt.data.length else none
  let s := s.when (folioWrite pkt) (copyFirst pkt.addr pkt.data.length)
  if failed.isSome then countWakeTo (failed.getD 0) s
  else if pkt.type = ptWrite then applyQuiet pkt s
  else if pkt.type = ptBgWrite then bgApply pkt s
  else if pkt.type = ptAccum then noteReady (accumQuiet pkt s)
  else if pkt.type = ptToken then applyToken pkt s
  else if pkt.type = ptCredit then applyCredit pkt s
  else s

/-- A STOPPED stream returns to its prior state. -/
def startStreams (s : State) : State :=
  s.each (s.streams.map (·.1)) (fun id s =>
    let t := s.stream id
    s.when (t.state == sStopped) (fun s => freshSince id (s.setStream id { t with state := t.before, before := 0 })))

/-- The packets of the stop buffer in their order, up to the first that must wait; what is left of them (R396). -/
def applyPackets : List (Nat × Packet) → State → List (Nat × Packet) × State
  | [], s => ([], s)
  | x :: xs, s => if heldBack s x.2 then (x :: xs, wakeHeld x.2 s) else applyPackets xs (applyHeld x.2 s)

/-- Every packet of the stop buffer is applied: held commands re-enter, streams and cores go on (R396). -/
def resumeEnds (s : State) : State :=
  let goes := s.cask.runs
  let s := { s with stopped := false, cask := { s.cask with armed := none, runs := [], critCut := false, told := false, resuming := false } }
  let s := if s.cask.writing.isSome then setCsk 3 s else idleCsk s
  let s := startStreams (reenterHeld s)
  s.each goes (fun ch s => s.when ((s.core ch).run == .halted) (fun s => s.setCore ch { s.core ch with run := .running }))

/-- A resume goes on: its packets, then, with none left, the rest (R396). -/
def resumeTurn (s : State) : State :=
  if s.cask.resuming then
    let r := applyPackets s.cask.stopBuf s
    let s := { r.2 with cask := { r.2.cask with stopBuf := r.1 } }
    if r.1.isEmpty then resumeEnds s else s
  else s

/-- CASK_RESUME on a stopped or restored module. -/
def caskResume (s : State) : State :=
  if cskState s = 7 || cskState s = 5 then resumeTurn { s with cask := { s.cask with resuming := true } }
  else logStatus cellarPage stConflict s

def execCaskResume (fn : Nat) (s : State) : Host.Outcome State Fault Refusal :=
  .next (posted fn (.caskResume fn) (fun s => ownerWrite fn cellarPage 0x80 caskResume s) s)

/-! ### Restore (R393, R395) -/

/-- The Cask of an own slot that CSK_RESTORE names, and the slot: none for one that is not complete (DESIGN CHOICE, log 68). -/
def restoreSource (s : State) : Option CaskImg × Nat :=
  match s.fld cellarPage Fld.CSK_RESTORE.source with
  | 0 => (slotImg s 0, 0)
  | 1 => (slotImg s 1, 1)
  | _ => match newestSlot s with | some k => (slotImg s k, k) | none => (none, 3)

/-- The Cask in an own slot under R371. -/
def slotFault (s : State) (k : Nat) : Nat := caskFault (fun o n => s.bytes (slotKey k + o) n)

/-- The state once no restore runs any more. -/
def restoreEnds (s : State) : State := if s.stopped then setCsk (if s.cask.told then 7 else 6) s else idleCsk s

/-- A restore fails and changes nothing. -/
def failRestore (status place : Nat) (s : State) : State :=
  raiseEv cellarPage 1 (caskResult (s.reg64 (cellarPage + 0x88)) (s.regN (cellarPage + 0x90)) status place s)

/-- A restore whose Cask is whole begins, when it fits this module's fixed range (R393). -/
def beginRestore (i : CaskImg) (k perCtl : Nat) (s : State) : State :=
  if perCtl != s.fld (tierPage 0) Fld.DIE_FIXED.per_ctl then failRestore stConflict k (restoreEnds s)
  else setCsk 4 { s with cask := { s.cask with restoring := some i } }

/-- A piece of the newest buddy copy of module `remote` is asked for: the header, then 16 KB at a time (R393) (DESIGN CHOICE,
log 68). -/
def askCopy (got : List (BitVec 8)) (s : State) : State :=
  sendTracked restoreUnit { mkPacket s ptBgReadReq (s.fld cellarPage Fld.CSK_RESTORE.remote) with
    target := 0x8000, addr := got.length
    len16 := if got.length < 4096 then 256 - got.length / 16 else (min 16384 (leNat ((got.drop 40).take 8) - got.length) + 15) / 16 } s

/-- The bytes of a Cask that has been read from another module. -/
def readGot (got : List (BitVec 8)) (o n : Nat) : List (BitVec 8) := (got.drop o).take n

/-- The content of a Cask by its bytes: the one that this module has mirrored, or what the bytes stand for. -/
def imgOf (s : State) (got : List (BitVec 8)) : Option CaskImg :=
  match s.cask.mirrored with
  | some i => if got.take (caskLen i) == headerOf i ++ caskBody i then some i else Config.caskOf got
  | none => Config.caskOf got

/-- A Cask read from another module fails the restore: the state as before it (R393). -/
def failFetched (status : Nat) (s : State) : State :=
  failRestore status 2 (restoreEnds { s with cask := { s.cask with fetch := none } })

/-- The read of another module's Cask goes on once its request is answered: the checks of R371 on what has come, the next piece,
or the restore (R393) (DESIGN CHOICE, log 68). -/
def fetchTurn (s : State) : State :=
  match s.cask.fetch with
  | none => s
  | some f =>
    if s.outst.any (fun o => o.unit == restoreUnit) then s
    else if f.fail != 0 then failFetched f.fail s
    else if f.got.length < 4096 then askCopy f.got s
    else if headFault (readGot f.got) != stOk then failFetched (headFault (readGot f.got)) s
    else if f.got.length < leNat ((f.got.drop 40).take 8) then askCopy f.got s
    else if caskFault (readGot f.got) != stOk then failFetched (caskFault (readGot f.got)) s
    else
      match imgOf s f.got with
      | some i => beginRestore i 2 (leNat ((f.got.drop 32).take 4)) { s with cask := { s.cask with fetch := none } }
      | none => failFetched stFormat s

/-- CASK_RESTORE: a write of CSK_RESTORE.start (DESIGN CHOICE, log 68; DEDUCED, log 69). -/
def startRestore (s : State) : State :=
  if s.streams.any (fun t => t.2.state == sActive) || !(outstandingCmds s).isEmpty || s.cask.writing.isSome then
    logStatus cellarPage stConflict s
  else if s.fld cellarPage Fld.CSK_RESTORE.source = 2 then
    askCopy [] (setCsk 4 { s with
      outst := s.outst.filter (fun o => o.unit != restoreUnit), cask := { s.cask with restoring := none, fetch := some ⟨[], 0⟩ } })
  else
    match restoreSource s with
    | (none, k) => failRestore stFormat k s
    | (some i, k) => if slotFault s k != stOk then failRestore (slotFault s k) k s else beginRestore i k i.perCtl s

/-- A write of CSK_RESTORE. -/
def writeRestore (v : Nat) (s : State) : State :=
  let s := s.setRegN (cellarPage + 0xE0) (putBits (s.regN (cellarPage + 0xE0)) 13 0 (bits v 13 0))
  s.when (bit v 14) startRestore

def execCaskRestore (fn : Nat) (v : Word) (s : State) : Host.Outcome State Fault Refusal :=
  .next (posted fn (.caskRestore fn v) (fun s => ownerWrite fn cellarPage 0xE0 (writeRestore v.toNat) s) s)

/-- Section 1 and the words of section 5 that are registers (DEDUCED, log 69). -/
def restoreRegs (i : CaskImg) (s : State) : State :=
  s.each (((s.regs.map (·.1)) ++ (i.regs.map (·.1))).filter (fun o => caskMask o != 0)) (fun o s =>
    let m := BitVec.ofNat 32 (caskMask o)
    let v := (SMap.find? i.regs o).getD (regReset o)
    s.setReg o ((s.reg o &&& ~~~m) ||| (v &&& m)))

/-- Replaces the bytes that `p` names by a section's. -/
def restoreBytes (p : Nat → Bool) (l : List Host.Cell) (s : State) : State :=
  let s := { s with mem := s.mem.filter (fun c => !(p c.1)) }
  s.each (l.filter (fun c => p c.1)) (fun c s => s.setByte c.1 c.2)

/-- Bytes that a Tile of a Cask takes in a tier. -/
def restoreLen (t : TileRef) (x : CaskTile) (tier : Nat) : Nat :=
  if tier < 3 then t.reg.strideBytes else granuleBytes (kernLen t.reg.format x.data)

/-- A place for a Tile by the order of R258, ignoring quotas and skipping tier 4. -/
def restorePlace (s : State) (t : TileRef) (x : CaskTile) : Nat → Nat → Option (Nat × Nat × Nat)
  | 0, _ => none
  | k + 1, tier =>
    if t.reg.floor < tier || 4 ≤ tier then none
    else
      match firstPlace s (restoreLen t x tier) (tierPlaces s t tier) with
      | some (pl, off) => some (tier, pl, off)
      | none => restorePlace s t x k (tier + 1)

/-- A Tile of the Cask at its new place: state entry and bytes (R395). -/
def restoreAt (t : TileRef) (x : CaskTile) (tier pl off : Nat) (s : State) : State :=
  let len := restoreLen t x tier
  let s := addUse t.reg.job tier len (addExtent pl off len s)
  let clen := if tier < 3 then 0 else kernLen t.reg.format x.data
  let e := putBits (putBits (putBits (putBits (tileState s t) 2 0 tier) 127 64 (locWord pl off)) 47 32 clen) 3 3 0
  let e := putBits (putBits (putBits (putBits e 19 18 x.exp) 4 4 (b2n x.poison)) 5 5 0) 9 6 x.pins
  let s := setTileState t e s
  cleanEcc (physKey s t.addr) t.len (s.setBytes (physKey s t.addr) (x.data.take t.len))

/-- Sections 7 and 8: each Tile of the Cask at a new place. -/
def restoreTiles : List CaskTile → State → Option State
  | [], s => some s
  | x :: xs, s =>
    match s.region x.region with
    | none => restoreTiles xs s
    | some r =>
      let t : TileRef := ⟨x.region, r, x.tile⟩
      match restorePlace s t x 6 r.home with
      | none => none
      | some (tier, pl, off) => restoreTiles xs (restoreAt t x tier pl off s)

/-- The Tiles that the restored Folio map holds outside the Cask: those of a lease are lost, every other keeps its place, and
its bytes are not stated (free values). -/
def restoreOther (i : CaskImg) (t : TileRef) (s : State) : State :=
  let e := tileState s t
  if i.tiles.any (fun x => x.region == t.id && x.tile == t.j) then setTileState t (putBits e 2 0 7) s
  else if tsTier e = 7 || tsLost e then s
  else if 4 ≤ tsTier e then setTileState t (putBits e 5 5 1) s
  else
    let (pl, off) := placeOfLoc (tsTier e) (tsLoc e)
    let len := if tsTier e < 3 then t.reg.strideBytes else granuleBytes (tsClen e)
    (addUse t.reg.job (tsTier e) len (addExtent pl off len s)).scramble (physKey s t.addr) t.reg.strideBytes

def restoreMap (i : CaskImg) (s : State) : State :=
  let s := { s with tiers := { s.tiers with regions := i.regions, moves := [], extents := [], use := [], leases := [] },
                    cask := { s.cask with heel := i.heel } }
  s.each (i.regions.map (fun r => (List.range r.2.tiles).map (fun j => (⟨r.1, r.2, j⟩ : TileRef)))).flatten (restoreOther i)

/-- Section 2 (DEDUCED, log 69). -/
def restoreStreams (i : CaskImg) (s : State) : State :=
  let l := List.map (fun (x : Nat × Stream) =>
    let t : Stream := { x.2 with fetched := none, since := 0 }
    (x.1, if t.state == sReady || t.state == sActive || t.state == sPaused then { t with state := sStopped, before := t.state } else t)) i.streams
  { s with streams := l }.setRegN (streamPage 0 + 0x88) (l.filter (fun (x : Nat × Stream) => x.2.state != sFree)).length

/-- Section 3: the cores are left halted (DEDUCED, log 69). -/
def restoreCores (i : CaskImg) (s : State) : State :=
  let s := { s with
    cores := List.map (fun (c : Nat × CoreSt) =>
      (c.1, { c.2 with run := .halted, stall := 0, outq := [], stepping := false, loads := [], todo := [] })) i.cores
    units := List.map (fun (u : Nat × UnitSt) => (u.1, { u.2 with q := [] })) s.units
    net := [] }
  let s := s.each (s.units.map (·.1)) (fun u s => s.setUnit u { s.unit u with toks := [], port := none })
  let s := s.each i.toks (fun x s => s.setUnit x.1 { s.unit x.1 with toks := x.2 })
  restoreBytes chaseByte i.chaseMem s

/-- The sections in their order (R395); none when no tier has space for a Tile (DEDUCED, log 69). -/
def applyCask (i : CaskImg) (s : State) : Option State :=
  let s := restoreBytes (fun a => i.folios.contains (a / 65536)) i.fixed (restoreRegs i s)
  let g : Gov := { i.gov with
    meas := [], peers := [], timedOut := false, verdictHeld := false, changed := [], norms := [], ratios := [], raises := [] }
  let s := { s with gov := g }
  (restoreTiles i.tiles (restoreMap i s)).map (fun s =>
    let s := restoreCores i (restoreStreams i s)
    { s with cask := { s.cask with held := i.held, stopBuf := i.inch,
                                   runs := i.runs } })

/-- RESTORE_DONE. -/
def restoreDone (s : State) : State :=
  match s.cask.restoring with
  | none => s
  | some i =>
    let s := { s with cask := { s.cask with restoring := none } }
    let k := s.fld cellarPage Fld.CSK_RESTORE.source
    match applyCask i s with
    | none => failRestore stTier k (restoreEnds s)
    | some s => raiseEv cellarPage 7 (caskResult i.serial i.step stOk k (setCsk 5 s))

def execRestoreDone (s : State) : Host.Outcome State Fault Refusal := .next (restoreDone s)

/-! ### The buddy (R389 to R392) -/

/-- The feed-domain id of this module (R389). -/
def feedId (s : State) : Nat :=
  if s.flag cellarPage Fld.CSK_FEED.mgmt then s.fld cellarPage Fld.CSK_FEED.feed_id else s.mzm.feedStrap

def buddyId (s : State) : Nat := s.fld cellarPage Fld.CSK_BUDDY.buddy
def buddyOn (s : State) : Bool := s.flag cellarPage Fld.CSK_BUDDY.buddy_en

/-- Pairs anew (R390); without buddy_en there is no pairing. -/
def pairAgain (s : State) : State :=
  if buddyOn s then sendStop (buddyId s) 2 (leBytes (feedId s) 2) { s with cask := { s.cask with pairAt := some s.time } }
  else setPairing 0 { s with cask := { s.cask with pairAt := none } }

/-- A write of CSK_BUDDY. -/
def writeBuddy (v : Nat) (s : State) : State :=
  if s.cask.mirroring.isSome then logStatus cellarPage stConflict s
  else pairAgain (s.setRegN (cellarPage + 0xD8) (v % 2 ^ 14))

def execBuddyPair (fn : Nat) (v : Word) (s : State) : Host.Outcome State Fault Refusal :=
  .next (posted fn (.buddyPair fn v) (fun s => ownerWrite fn cellarPage 0xD8 (writeBuddy v.toNat) s) s)

/-- PAIR_TIMEOUT. -/
def pairTimeout (s : State) : State :=
  match s.cask.pairAt with
  | some t =>
    if t + max 1024 (s.regN (routePage + 0x94)) ≤ s.time then setPairing 0 { s with cask := { s.cask with pairAt := none } } else s
  | none => s

def execPairTimeout (s : State) : Host.Outcome State Fault Refusal := .next (pairTimeout s)

/-- A write of CSK_FEED, by Muzomus only. -/
def writeFeed (fn v : Nat) (s : State) : State :=
  guarded fn (cellarPage + 0xDC) (fn == mzmFn) (fun s => pairAgain (s.setRegN (cellarPage + 0xDC) (v % 2 ^ 17))) s

def execFeedWrite (fn : Nat) (v : Word) (s : State) : Host.Outcome State Fault Refusal :=
  .next (posted fn (.feedWrite fn v) (fun s => writeFeed fn v.toNat s) s)

/-- The answer to a pairing request. -/
def pairAsked (pkt : Packet) (s : State) : State :=
  sendStop pkt.src 3 (leBytes (feedId s) 2 ++ leBytes (b2n (buddyOn s && buddyId s == pkt.src)) 1) s

def execPairRequestRx (p : Nat) (pkt : Packet) (s : State) : Host.Outcome State Fault Refusal :=
  .next (stopRx 2 p pkt (pairAsked pkt) s)

/-- The table Pairing outcomes from its second row on. -/
def pairOutcome (same ok named : Bool) : Nat :=
  if same && !ok then 3 else if !named then 0 else if same then 2 else 1

/-- A pairing answer. -/
def pairAnswered (pkt : Packet) (s : State) : State :=
  if s.cask.pairAt.isNone || pkt.src != buddyId s then s
  else
    let id := leNat (pkt.data.take 2)
    let named := bit (leNat ((pkt.data.drop 2).take 1)) 0
    let s := s.setRegN (cellarPage + 0xE4) (id + 2 ^ 16)
    let o := pairOutcome (id == feedId s) (s.flag cellarPage Fld.CSK_BUDDY.same_feed_ok) named
    let s := setPairing o { s with cask := { s.cask with pairAt := none } }
    s.when (o == 2) (colBoth 0x0D (leBytes (feedId s) 2 ++ leBytes id 2 ++ leBytes (buddyId s) 2))

def execPairAnswerRx (p : Nat) (pkt : Packet) (s : State) : Host.Outcome State Fault Refusal :=
  .next (stopRx 3 p pkt (pairAnswered pkt) s)

/-- The copy in a buddy slot under R371: OK, FORMAT_INVALID or CHECKSUM_MISMATCH. -/
def copyFault (s : State) (k hcrc : Nat) : Nat :=
  let f := caskFault (fun o n => s.bytes (buddyKey k + o) n)
  if f = stOk && s.num (buddyKey k + 4088) 4 != hcrc then stChecksum else f

/-- The buddy checks the copy of a mirror that has ended, and answers (R391). -/
def checkCopy (hcrc : Nat) (s : State) : State :=
  match s.cask.receiving with
  | none => { s with cask := { s.cask with endAsked := none } }
  | some (k, _, _) =>
    let f := copyFault s k hcrc
    sendStop (buddyId s) 6 (leBytes f 1) { s with cask := { s.cask with
      receiving := none, endAsked := none
      copies := if f = stOk then s.cask.copies ++ [k] else s.cask.copies } }

/-- Writes of the copy still wait: in a receive buffer, in the stop buffer, or for the Cellar (R367, R385). -/
def copyComing (s : State) : Bool :=
  let mine := fun (x : Packet) => x.type == ptBgWrite && isMirror x && x.dest == selfId s && x.src == buddyId s
  s.ports.any (fun x => x.2.inbox.any mine) || s.loop.any mine || s.cask.stopBuf.any (fun x => mine x.2) ||
    s.cask.owed.any (fun w => !w.1)

/-- The copy is checked once its writes have all been made (R391) (DEDUCED, log 180). -/
def copyTurn (s : State) : State :=
  match s.cask.endAsked with
  | some h => if copyComing s then s else checkCopy h s
  | none => s

/-- A mirror begins: the buddy slot without the newest complete copy is taken and its commit word cleared; one before it that has
ended is answered as it stands (R391, R392). -/
def mirrorBegin (pkt : Packet) (s : State) : State :=
  if pkt.src != buddyId s || !(pairing s == 1 || pairing s == 2) then s
  else
    let s := match s.cask.endAsked with | some h => checkCopy h s | none => s
    let k := match newestCopy s with | some k => 1 - k | none => 0
    nandWrite false (buddyKey k + 4092) (leBytes 0 4) { s with cask := { s.cask with
      receiving := some (k, leNat (pkt.data.take 8), leNat ((pkt.data.drop 8).take 8))
      copies := s.cask.copies.filter (· != k) } }

def execMirrorBeginRx (p : Nat) (pkt : Packet) (s : State) : Host.Outcome State Fault Refusal :=
  .next (stopRx 4 p pkt (mirrorBegin pkt) s)

/-- A mirror ends: the buddy checks its copy, once all of it is written, and answers (DEDUCED, log 180). -/
def mirrorEnd (pkt : Packet) (s : State) : State :=
  if s.cask.receiving.isNone || pkt.src != buddyId s then s
  else copyTurn { s with cask := { s.cask with endAsked := some (leNat (pkt.data.take 4)) } }

def execMirrorEndRx (p : Nat) (pkt : Packet) (s : State) : Host.Outcome State Fault Refusal :=
  .next (stopRx 5 p pkt (mirrorEnd pkt) s)

/-- The buddy's status of a mirror. -/
def mirrorStatus (pkt : Packet) (s : State) : State :=
  match s.cask.mirroring with
  | none => s
  | some i =>
    if pkt.src != buddyId s then s
    else if 0 < s.cask.stale then { s with cask := { s.cask with stale := s.cask.stale - 1 } }
    else
      let s := { s with cask := { s.cask with mirroring := none } }
      if leNat (pkt.data.take 1) = stOk then
        raiseEv cellarPage 6
          ({ s with cask := { s.cask with mirrored := some i } }.setFlag cellarPage Fld.CSK_STATUS.mirror_ok true)
      else s

def execMirrorStatusRx (p : Nat) (pkt : Packet) (s : State) : Host.Outcome State Fault Refusal :=
  .next (stopRx 6 p pkt (mirrorStatus pkt) s)

/-! ### The risk estimator (R379 to R382) -/

/-- A sum over registers. -/
def sumRegs (s : State) (l : List Nat) : Nat := l.foldl (fun n o => n + s.regN o) 0

/-- Counter `i` of the pages in `l`. -/
def counters (l : List Nat) (i : Nat) : List Nat := l.map (· + 0x30 + 4 * i)

def allPorts : List Nat := (List.range 16).map portPage
def allHbm : List Nat := (List.range 16).map hbmPage
def allMons : List Nat := [monPage 0, monPage 1]

/-- Running totals of the counted events: x0, x1, x5 to x9, x13, x14 at their own places, 0 elsewhere (DEDUCED, log 72). -/
def riskTotals (s : State) : List Nat :=
  let chs := allChases.map unitPage
  [sumRegs s (counters (bulkPage :: allHbm) 0 ++ counters chs 16) + s.cask.eccCorr,
   sumRegs s (counters (bulkPage :: allHbm) 1 ++ counters chs 17) + s.cask.eccUnc,
   0, 0, 0, sumRegs s (((List.range 12).map (fun i => counters allMons i)).flatten ++ counters [powerPage 0, powerPage 1] 2),
   sumRegs s (counters allPorts 6), sumRegs s (counters allPorts 1), sumRegs s (counters allPorts 7),
   s.regN (tasterPage + 0x90), 0, 0, 0, sumRegs s (counters [dieTopPage 0, dieTopPage 1] 3), s.cask.traps, 0]

/-- A reading register as a signed number of 1/64 °C; none while its valid bit is 0. -/
def tempAt (s : State) (d i : Nat) : Option Int :=
  let r := s.regN (monPage d + 0x100 + 4 * i)
  if bit r 16 then some (sx 16 (bits r 15 0)) else none

/-- The level of the hottest sensor of a kind: `per` for each whole °C above `base`; 255 for an invalid sensor (R422)
(DEDUCED, log 71). -/
def tempLevel (s : State) (lo n base : Nat) : Nat :=
  [0, 1].foldl (fun m d => (List.range n).foldl (fun m i =>
    max m (match tempAt s d (lo + i) with
      | some t => min 255 ((8 * (t - 64 * base) / 64).toNat)
      | none => 255)) m) 0

/-- Indicator x12 of the input voltage, held in units of 10 mV. -/
def vinLevel (s : State) : Nat :=
  let v := s.power.volts
  min 255 (16 * (if 7800 < v then v - 7800 else 6200 - v) / 100)

/-- The levels x0 to x15 (table Risk indicators) from the counts of the last 64 periods (DEDUCED, log 71). -/
def riskLevels (s : State) (sums : List Nat) : List Nat :=
  (List.range 16).map (fun i =>
    match i with
    | 2 => tempLevel s 0 9 80
    | 3 => tempLevel s 9 4 75
    | 4 => tempLevel s 13 12 90
    | 10 => if bit s.cask.alarms 0 || !(s.flag mzmPage Fld.MZM_GPIO_STATUS.coolant_n) then 255 else 0
    | 11 => if s.cask.alarms / 2 != 0 then 255 else 0
    | 12 => vinLevel s
    | 15 => s.fld cellarPage Fld.CSK_RISK_SW.level
    | i => min 255 (sums.getD i 0))

def addLists (a b : List Nat) : List Nat := List.zipWith (· + ·) a b

/-- Weight w_i (R380). -/
def riskWeight (s : State) (i : Nat) : Nat := bits (s.regN (cellarPage + 0xB0 + 4 * (i / 4))) (8 * (i % 4) + 7) (8 * (i % 4))

/-- The risk score: the weighted sum of the 16 counts, held at 65,535 (R379) (DEDUCED, log 71). -/
def riskValue (s : State) (xs : List Nat) : Nat :=
  min 65535 ((List.range 16).foldl (fun n i => n + riskWeight s i * xs.getD i 0) 0)

/-- A crossing of the critical threshold starts the critical path (R381): a request, which a stopped module serves at once by a
cut Cask, or as soon as its writer is free. -/
def critPath (s : State) : State :=
  let s := askCask s
  if s.stopped && s.cask.told then cutOwed { s with cask := { s.cask with critCut := true } }
  else { s with cask := { s.cask with critAt := some s.time, critPause := true } }

/-- RISK_EVALUATE. -/
def riskEvaluate (s : State) : State :=
  let now := riskTotals s
  let old := if s.cask.totals.isEmpty then List.replicate 16 0 else s.cask.totals
  let hist := (List.zipWith (fun a b => (a + 2 ^ 40 - b) % 2 ^ 32) now old :: s.cask.history).take 64
  let s := { s with cask := { s.cask with totals := now, history := hist } }
  let xs := riskLevels s (hist.foldl addLists (List.replicate 16 0))
  let r := riskValue s xs
  let e := decide (s.fld cellarPage Fld.CSK_RISK_THR.elevated ≤ r)
  let c := decide (s.fld cellarPage Fld.CSK_RISK_THR.critical ≤ r)
  let wasE := s.flag cellarPage Fld.CSK_RISK.elevated
  let wasC := s.flag cellarPage Fld.CSK_RISK.critical
  let s := s.each (List.range 4) (fun k s => s.setRegN (cellarPage + 0xC0 + 4 * k)
    (xs.getD (4 * k) 0 + xs.getD (4 * k + 1) 0 * 2 ^ 8 + xs.getD (4 * k + 2) 0 * 2 ^ 16 + xs.getD (4 * k + 3) 0 * 2 ^ 24))
  let s := s.setRegN (cellarPage + 0xA8) (r + b2n e * 2 ^ 16 + b2n c * 2 ^ 17)
  let s := s.when (e && !wasE) (fun s => askCask (queueEvent 0x2000 1 (raiseEv cellarPage 2 s)))
  s.when (c && !wasC) (fun s => critPath (queueEvent 0x2000 2 (raiseEv cellarPage 3 s)))

def execRiskEvaluate (s : State) : Host.Outcome State Fault Refusal := .next (riskEvaluate s)

/-- CRIT_WAIT_EXPIRY: no boundary has begun in time. -/
def critWaitExpiry (s : State) : State :=
  match s.cask.critAt with
  | none => s
  | some t =>
    if s.time < t + s.fld cellarPage Fld.CSK_FLOOR.crit_wait * 2 ^ 20 then s
    else
      let s := cutOwed { s with cask := { s.cask with critAt := none, critCut := true } }
      s.when s.cask.armed.isNone (armStop (s.time + 2048))

def execCritWaitExpiry (s : State) : Host.Outcome State Fault Refusal := .next (critWaitExpiry s)

/-- FLOOR_EXPIRY. -/
def floorExpiry (s : State) : State :=
  let f := s.fld cellarPage Fld.CSK_FLOOR.floor
  if f != 0 && decide (s.cask.lastCommit + f * 2 ^ 30 ≤ s.time) then askCask s else s

def execFloorExpiry (s : State) : Host.Outcome State Fault Refusal := .next (floorExpiry s)

/-! ### What goes on by itself -/

/-- What a tick moves on: Cellar writes that waited, a resume, the end of a mirror on either side, and the read of a Cask from
another module (R367, R391, R393, R396) (DESIGN CHOICE, log 2). -/
def tickCask (s : State) : State := fetchTurn (mirrorTail (copyTurn (resumeTurn (cutOwed (cellarTurn s)))))

end Sys2Proof.Machine
end

