-- ==== Sys2Proof/Machine/Governor.lean ====
section
/-! DEFINITION. The point governor and the Taster: the Point table and its policies (R189 to R197), scales and bindings (R198 to
R201), the step boundary (R202 to R209), overflow and the loss scale (R219, R225 to R229), norms and jumps (R230 to R237). -/

namespace Sys2Proof.Machine

/-! ### Entries, policies, roles (R189 to R191) -/

def State.entry (s : State) (l : Nat) : Nat := (SMap.get (fun _ => (0 : BitVec 256)) s.gov.entries l).toNat
def State.setEntry (s : State) (l e : Nat) : State :=
  { s with gov := { s.gov with entries := SMap.set (fun _ => (0 : BitVec 256)) s.gov.entries l (BitVec.ofNat 256 e) } }
def State.policy (s : State) (p : Nat) : Nat := (SMap.get (fun _ => (0 : BitVec 256)) s.gov.policies p).toNat
def State.action (s : State) (p : Nat) : Nat := (SMap.get (fun _ => (0 : Word)) s.gov.actions p).toNat
def State.taster (s : State) (l : Nat) : TastEnt := SMap.get (fun _ => (⟨0, 0, 0, 0, 0⟩ : TastEnt)) s.gov.tasters l
def State.setTaster (s : State) (l : Nat) (t : TastEnt) : State :=
  { s with gov := { s.gov with tasters := SMap.set (fun _ => (⟨0, 0, 0, 0, 0⟩ : TastEnt)) s.gov.tasters l t } }

def entPolicy (e : Nat) : Nat := bits e 11 6
def entPin (e : Nat) : Bool := bit e 12
def entValid (e : Nat) : Bool := bit e 13
def polValid (p : Nat) : Bool := bit p 152

/-- The roles: 0 forward, 1 activation gradient, 2 weight gradient. -/
def roles : List Nat := [0, 1, 2]

/-- The tensor kinds of a role (R179). -/
def kindsOf (role : Nat) : List Nat := if role = 0 then [0, 1] else [role + 1]

/-- The role of a kind. -/
def roleOf (kind : Nat) : Nat := kind - 1

def entRung (e role : Nat) : Nat := bits e (2 * role + 1) (2 * role)
def setRung (e role r : Nat) : Nat := putBits e (2 * role + 1) (2 * role) r

/-- Place of a role's raise counter (4 bits), and of its lower counter (8 bits). -/
def upAt (role : Nat) : Nat := if role = 0 then 60 else if role = 1 then 72 else 84
def downAt (role : Nat) : Nat := if role = 0 then 64 else if role = 1 then 76 else 88

def entUp (e role : Nat) : Nat := bits e (upAt role + 3) (upAt role)
def entDown (e role : Nat) : Nat := bits e (downAt role + 7) (downAt role)
def setCounts (e role up down : Nat) : Nat :=
  putBits (putBits e (upAt role + 3) (upAt role) up) (downAt role + 7) (downAt role) down

/-- A rung's code in a policy's ladder: format in [3:0], bs_en in [4]. -/
def ladder (p role r : Nat) : Nat := if role = 0 then bits p (132 + 5 * r) (128 + 5 * r) else bits p (164 + 5 * r) (160 + 5 * r)
def rungMin (p role : Nat) : Nat := if role = 0 then bits p 149 148 else bits p 181 180
def rungMax (p role : Nat) : Nat := if role = 0 then bits p 151 150 else bits p 183 182

/-- The Point of a layer's role: the rung's code (R190). -/
def pointOf (s : State) (e role : Nat) : Nat := ladder (s.policy (entPolicy e)) role (entRung e role)

/-- floor(log2 M) of a format, that of P16 for P16x2 (R193). -/
def topOf (code : Nat) : Int := (maxFin (if code % 16 = 5 then 3 else code % 16)).top

/-- Layers whose entry is valid, ascending. -/
def validLayers (s : State) : List Nat := (s.gov.entries.filter (fun e => entValid e.2.toNat)).map (·.1)

/-- ls_exp as a signed number. -/
def lsExp (s : State) : Int := sx 8 (s.fld govPage Fld.PTG_LSCALE.ls_exp)

def govPhase (s : State) : Nat := s.fld govPage Fld.PTG_STATUS.phase
def setPhase (p : Nat) (s : State) : State := s.setFld govPage Fld.PTG_STATUS.phase p

def gangOn (s : State) : Bool := s.flag govPage Fld.PTG_CTRL.gang_en
def tasterOn (s : State) : Bool := s.flag tasterPage Fld.TST_CTRL.enable

/-! ### Reading the stat rings (R193, R204, R205) -/

/-- ceil(log2 v) of a positive F32 code. -/
def ceilLog2 (code : Nat) : Int :=
  match decodeFloat 6 code with
  | .fin _ m e => (Nat.log2 m : Nat) + e + (if 2 ^ Nat.log2 m = m then 0 else 1)
  | _ => 128

/-- A record joins the measures of its layer and kind. -/
def addStat (m : Meas) (r : Nat) : Meas :=
  let a := bits r 95 64
  let x := ceilLog2 a + bits r 56 49 - 127
  { peak := if a = 0 then m.peak else match m.peak with | some y => some (max x y) | none => some x
    flush := m.flush + bits r 255 236
    count := m.count + bits r 215 192
    sat := m.sat + bits r 235 216
    amaxPre := max m.amaxPre a
    nonfinite := m.nonfinite + bits r 62 57
    sumsq := Val.add m.sumsq (ofBin64 (bits r 191 128))
    records := m.records + 1 }

/-- The governor reads one record of a die's ring (DEDUCED, log 27). -/
def takeStat (d : Nat) (s : State) : State :=
  let rd := s.regN (hydroPage d + 0x90)
  let r := folioNum s (ringBase s d + 32 * bits rd 23 0) 32
  let s := s.setRegN (hydroPage d + 0x90) (ringNext (ringSize s d) rd)
  if bits r 15 0 != ptgStep s % 65536 then s.setRegN (govPage + 0xCC) ((s.regN (govPage + 0xCC) + 1) % 2 ^ 32)
  else
    let k := bits r 45 32 * 8 + bits r 48 46
    let m := addStat (SMap.get (fun _ => Meas.zero) s.gov.meas k) r
    { s with gov := { s.gov with meas := SMap.set (fun _ => Meas.zero) s.gov.meas k m } }

/-- Records of a ring that the governor has not read. -/
def unreadStats (s : State) (d : Nat) : Nat :=
  let w := s.regN (hydroPage d + 0x8C)
  let r := s.regN (hydroPage d + 0x90)
  if bits w 24 24 = bits r 24 24 then bits w 23 0 - bits r 23 0 else ringSize s d + bits w 23 0 - bits r 23 0

/-- The governor reads a ring up to its write index (DEDUCED, log 27). -/
def readRing (d : Nat) (s : State) : State := s.each (List.range (unreadStats s d)) (fun _ => takeStat d)

/-- The slices of a die write what the ring has room for. -/
def drainDie (d : Nat) (s : State) : State :=
  s.each ((s.hyds.filter (fun h => pathDie h.1 == d)).map (·.1)) (fun ch s => drainQueue ch ((s.hyd ch).queue.length + 1) s)

/-- Reading and draining in turn until every slice is empty. -/
def readOut : Nat → State → State
  | 0, s => s
  | k + 1, s =>
    if unreadStats s 0 + unreadStats s 1 = 0 && s.hyds.all (fun h => h.2.queue.isEmpty && h.2.entries.isEmpty) then s
    else
      let s := drainDie 1 (drainDie 0 (readRing 1 (readRing 0 s)))
      readOut k (s.each (s.hyds.map (·.1)) drainSlice)

/-- STAT_QUEUE_RELEASE: the governor reads one record of a ring where it has one to read, and the slices write into the space that
the ring has (R188) (DEDUCED, log 27). -/
def statQueueRelease (d : Nat) (s : State) : State :=
  if s.flag govPage Fld.PTG_CTRL.enable then drainDie (d % 2) (s.when (unreadStats s (d % 2) != 0) (takeStat (d % 2))) else s

def execStatQueueRelease (d : Nat) (s : State) : Host.Outcome State Fault Refusal := .next (statQueueRelease d s)

/-! ### Measures of the roles (R193, R199, R206, R230) -/

/-- 1.0 as a binary64 code. -/
def one64 : Nat := 0x3FF0000000000000

def measOf (s : State) (l kind : Nat) : Option Meas := SMap.find? s.gov.meas (l * 8 + kind)

/-- The norm of a role in the step, as a binary64 code (R230) (DEDUCED, log 63). -/
def normOf (s : State) (l role : Nat) : Option Nat :=
  (measOf s l (role + 1)).map (fun m =>
    let root := toBin64 (Val.sqrt (ofBin64 (toBin64 m.sumsq)))
    if role = 0 then root else toBin64 ((ofBin64 root).scale (-(lsExp s))))

/-- The running mean of a Tile's role (DEDUCED, log 63). -/
def meanOf (t : TastEnt) (role : Nat) : Nat := if role = 0 then t.fwd else if role = 1 then t.ag else t.wg
def setMean (t : TastEnt) (role v : Nat) : TastEnt :=
  if role = 0 then { t with fwd := v } else if role = 1 then { t with ag := v } else { t with wg := v }

/-- The ratio of a role, rounded to binary64 as the summary carries it (DEDUCED, log 63). -/
def ratioOf (s : State) (l role n : Nat) : Nat :=
  let m := meanOf (s.taster l) role
  if m = 0 || s.fld tasterPage Fld.TST_STATUS.warm_left != 0 then one64 else toBin64 (Val.div (ofBin64 n) (ofBin64 m))

/-- Norms and ratios at the end of phase 4 (DEDUCED, log 62). -/
def tasteAll (s : State) : State :=
  if !(tasterOn s) then s
  else
    s.each (validLayers s) (fun l s => s.each roles (fun role s =>
      match normOf s l role with
      | none => s
      | some n =>
        let r := ratioOf s l role n
        { s with gov := { s.gov with
            norms := SMap.set (fun _ => 0) s.gov.norms (l * 4 + role) n
            ratios := SMap.set (fun _ => one64) s.gov.ratios (l * 4 + role) r } }))

/-- The measures of a role on this module. -/
def ownRole (s : State) (l role : Nat) : RoleMeas :=
  let ms := (kindsOf role).filterMap (measOf s l)
  let peak := ms.foldl (fun o m => match o, m.peak with
    | some a, some b => some (max a b)
    | none, b => b
    | a, none => a) none
  { h := match peak with | none => 127 | some x => topOf (pointOf s (s.entry l) role) - x
    f := ms.foldl (fun n m => n + m.flush) 0
    c := ms.foldl (fun n m => n + m.count) 0
    s := ms.foldl (fun n m => n + m.sat) 0
    t := ofBin64 (SMap.get (fun _ => one64) s.gov.ratios (l * 4 + role)) }

/-- Headroom as a summary carries it: −128 to 127. -/
def satH (h : Int) : Int := max (-128) (min 127 h)

/-- The peers that PTG_GANG_PEER0 to PTG_GANG_PEER6 name. -/
def gangPeers (s : State) : List Nat :=
  ((List.range 7).map (fun i => s.regN (govPage + 0xD0 + 4 * i))).filter (fun w => bit w 31) |>.map (fun w => bits w 11 0)

/-- The summaries of the named peers: only theirs are combined (R206). -/
def peerSums (s : State) : List PeerSum := s.gov.peers.filter (fun p => (gangPeers s).contains p.src)

def peerRecs (s : State) (l : Nat) : List PeerRec :=
  (((peerSums s).map (·.recs)).flatten).filter (fun r => r.layer == l)

/-- The measures of a role over the gang (R206). -/
def roleMeas (s : State) (l role : Nat) : RoleMeas :=
  let own := ownRole s l role
  if !(gangOn s) then own
  else
    ((peerRecs s l).filter (fun r => r.role == role)).foldl (fun a r =>
      { h := min a.h r.m.h, f := a.f + r.m.f, c := a.c + r.m.c, s := a.s + r.m.s,
        t := if Val.lt a.t r.m.t then r.m.t else a.t }) { own with h := satH own.h }

/-- The largest amax_pre of a layer's kind, none without a positive one. -/
def amaxOf (s : State) (l kind : Nat) : Option Nat :=
  match measOf s l kind with
  | some m => if m.amaxPre = 0 then none else some m.amaxPre
  | none => none

/-- The code for step s (R199): `down` is ls_exp for activation gradients, 0 for activations. -/
def ownCode (s : State) (l kind : Nat) (down : Int) : Nat :=
  match amaxOf s l kind with
  | some a => (max 1 (min 254 (ceilLog2 a - down + 127))).toNat
  | none => 0

def actCode (s : State) (l : Nat) : Nat :=
  let own := ownCode s l 1 0
  if gangOn s then (peerRecs s l).foldl (fun n r => max n r.act) own else own

def agCode (s : State) (l : Nat) : Nat :=
  let own := ownCode s l 2 (sx 8 s.gov.lsOld)
  if gangOn s then (peerRecs s l).foldl (fun n r => max n r.ag) own else own

/-! ### Overflow (R219) -/

/-- The saturation limit of a layer. -/
def ovfLimit (s : State) (l : Nat) : Nat :=
  let e := s.entry l
  let p := s.policy (entPolicy e)
  if entValid e && polValid p then bits p 127 112 else 0

def gradKind (k : Nat) : Bool := k % 8 == 2 || k % 8 == 3

def ovf1 (m : Nat × Meas) : Bool := gradKind m.1 && m.2.nonfinite != 0
def ovf2 (s : State) (m : Nat × Meas) : Bool := gradKind m.1 && decide (ovfLimit s (m.1 / 8) < m.2.sat)

/-- Conditions 1 to 3 as bits 0 to 2. -/
def ovfOwn (s : State) : Nat :=
  b2n (s.gov.meas.any ovf1) + 2 * b2n (s.gov.meas.any (ovf2 s)) + 4 * b2n (s.fld govPage Fld.PTG_EXHAUSTED.commands != 0)

/-- The four conditions. -/
def ovfConds (s : State) : Nat :=
  ovfOwn s + 8 * b2n (gangOn s && (s.gov.timedOut || (peerSums s).any (·.overflow)))

/-- The lowest layer that meets condition 1 or 2. -/
def ovfLayer (s : State) : Nat :=
  match (s.gov.meas.filter (fun m => ovf1 m || ovf2 s m)).map (fun m => m.1 / 8) with
  | [] => 0xFFFFFFFF
  | l :: ls => ls.foldl min l

/-! ### The gang exchange (R206, R207, R320) -/

/-- The 40 bytes of a summary record. -/
def sumRecord (s : State) (l role : Nat) : List (BitVec 8) :=
  let m := ownRole s l role
  leBytes (l + role * 2 ^ 14) 2 ++ leBytes (toU 8 (satH m.h)) 1 ++ leBytes (ownCode s l 1 0) 1 ++ leBytes (ownCode s l 2 (lsExp s)) 1 ++
  leBytes 0 3 ++ leBytes m.f 8 ++ leBytes m.c 8 ++ leBytes m.s 8 ++ leBytes (toBin64 m.t) 8

/-- A list in packets of 409 records; one packet at least. -/
def inPackets {α : Type} : Nat → List α → List (List α)
  | 0, l => [l]
  | k + 1, l => if l.length ≤ 409 then [l] else l.take 409 :: inPackets k (l.drop 409)

def sumPacket (s : State) (dest n i : Nat) (recs : List (List (BitVec 8))) : Packet :=
  let st := ptgStep s
  packData { mkPacket s ptGov dest with target := 0x8000, seq := st, addr := st }
    (leBytes st 4 ++ leBytes (b2n (ovfOwn s != 0) + 2 * b2n (i + 1 == n)) 1 ++ leBytes recs.length 2 ++ leBytes 0 1 ++
      leBytes i 2 ++ leBytes 0 6 ++ recs.flatten)

/-- Sends this module's summary to each peer, packets in the order of index. -/
def sendSummary (s : State) : State :=
  let recs := ((validLayers s).map (fun l => roles.map (sumRecord s l))).flatten
  let ps := inPackets recs.length recs
  s.each (gangPeers s) (fun d s => s.each ps.zipIdx (fun x s => sendPacket (sumPacket s d ps.length x.2 x.1) s))

/-- A summary record from its bytes (DEDUCED, log 60). -/
def readPeerRec (b : List (BitVec 8)) : PeerRec :=
  let at_ := fun (o n : Nat) => leNat ((b.drop o).take n)
  { layer := bits (at_ 0 2) 13 0, role := bits (at_ 0 2) 15 14, act := at_ 3 1, ag := at_ 4 1,
    m := { h := sx 8 (at_ 2 1), f := at_ 8 8, c := at_ 16 8, s := at_ 24 8, t := ofBin64 (at_ 32 8) } }

/-- Adds a packet's records to what a peer has sent (DEDUCED, log 60). -/
def addPeer (src : Nat) (ovf last : Bool) (recs : List PeerRec) (l : List PeerSum) : List PeerSum :=
  if l.any (fun p => p.src == src) then
    l.map (fun p => if p.src == src then { p with overflow := p.overflow || ovf, last := p.last || last, recs := p.recs ++ recs } else p)
  else l ++ [⟨src, ovf, last, recs⟩]

/-- GOV_RX: a packet for another step is set aside (DEDUCED, log 60). -/
def govMine (pkt : Packet) (s : State) : State :=
  let at_ := fun (o n : Nat) => leNat ((pkt.data.drop o).take n)
  if at_ 0 4 != ptgStep s then s.setRegN (govPage + 0xCC) ((s.regN (govPage + 0xCC) + 1) % 2 ^ 32)
  else
    let recs := (List.range (min 409 (at_ 5 2))).map (fun i => readPeerRec ((pkt.data.drop (16 + 40 * i)).take 40))
    { s with gov := { s.gov with peers := addPeer pkt.src (bit (at_ 4 1) 0) (bit (at_ 4 1) 1) recs s.gov.peers } }

def govRx (p : Nat) (pkt : Packet) (s : State) : State := receive ptGov p pkt (deliver p pkt (govMine pkt)) s

def execGovRx (p : Nat) (pkt : Packet) (s : State) : Host.Outcome State Fault Refusal := .next (govRx p pkt s)

/-- Every named peer's summary has arrived. -/
def allPeers (s : State) : Bool := (gangPeers s).all (fun d => s.gov.peers.any (fun p => p.src == d && p.last))

/-! ### Phase 6 (R219 to R233) -/

/-- A role that jumps: layer, role, its ratio and its action mask. -/
structure Jump where
  layer : Nat
  role : Nat
  t : Val
  mask : Nat

/-- The jumps of a boundary (R230). -/
def jumpsOf (s : State) : List Jump :=
  if !(tasterOn s) || s.fld tasterPage Fld.TST_STATUS.warm_left != 0 then []
  else
    ((validLayers s).map (fun l => roles.filterMap (fun role =>
      let a := s.action (entPolicy (s.entry l))
      let t := (roleMeas s l role).t
      let measured := (SMap.find? s.gov.norms (l * 4 + role)).isSome || (measOf s l (role + 1)).isSome || gangOn s
      if measured && bits a 15 0 != 0 && Val.lt (ofInt (bits a 15 0 : Nat)) (t.scale 8) then
        some ⟨l, role, t, bits a (19 + 4 * role) (16 + 4 * role)⟩
      else none))).flatten

/-- Logs a jump (R232). -/
def logJump (j : Jump) (s : State) : State :=
  let st := ptgStep s % 65536
  let s := s.setRegN (tasterPage + 0x88) (j.layer + j.role * 2 ^ 14 + st * 2 ^ 16)
  let s := s.setRegN (tasterPage + 0x8C) (toFloat 6 .nearest j.t).code
  let s := s.setRegN (tasterPage + 0x90) ((s.regN (tasterPage + 0x90) + 1) % 2 ^ 32)
  let t := s.taster j.layer
  raiseEv tasterPage 0 (s.setTaster j.layer { t with jumps := min 65535 (t.jumps + 1), last := st })

/-- The lowest layer of the jumps whose mask has bit `b` (DEDUCED, log 62). -/
def jumpLayer (js : List Jump) (b : Nat) : Option Nat := (js.find? (fun j => bit j.mask b)).map (·.layer)

/-- The verdict: status, detail, detail2 and its code in PTG_NUM_STATUS (R225). -/
def verdictOf (s : State) (js : List Jump) : Nat × Nat × Nat × Nat :=
  let abortEn := s.flag tasterPage Fld.TST_CTRL.abort_en
  let ab := jumpLayer js 3
  let sk := (js.find? (fun j => bit j.mask 1 || (bit j.mask 3 && !abortEn))).map (·.layer)
  match (if abortEn then ab else none) with
  | some l => (stNormJump, 1, l, 3)
  | none =>
    if ovfConds s != 0 then (stOverflow, ovfConds s, ovfLayer s, 1)
    else
      match sk with
      | some l => (stNormJump, 0, l, 2)
      | none => (stOk, 0, 0, 0)

/-- The loss-scale update (R227). -/
def updateScale (ovf ok : Bool) (s : State) : State :=
  let s := (s.setFlag govPage Fld.PTG_NUM_STATUS.ls_floor false).setFlag govPage Fld.PTG_NUM_STATUS.ls_ceiling false
  if !(s.flag govPage Fld.PTG_NUM_CTRL.ls_enable) then s
  else if ovf then
    let s := s.setFld govPage Fld.PTG_LS_GROW.clean 0
    if -24 < lsExp s then s.setFld govPage Fld.PTG_LSCALE.ls_exp (toU 8 (lsExp s - 1))
    else raiseEv govPage 5 (s.setFlag govPage Fld.PTG_NUM_STATUS.ls_floor true)
  else if ok then
    let n := min 65535 (s.fld govPage Fld.PTG_LS_GROW.clean + 1)
    let grow := s.fld govPage Fld.PTG_LS_GROW.grow_n
    if grow != 0 && decide (grow ≤ n) then
      let s := s.setFld govPage Fld.PTG_LS_GROW.clean 0
      if lsExp s < 24 then s.setFld govPage Fld.PTG_LSCALE.ls_exp (toU 8 (lsExp s + 1))
      else raiseEv govPage 5 (s.setFlag govPage Fld.PTG_NUM_STATUS.ls_ceiling true)
    else s.setFld govPage Fld.PTG_LS_GROW.clean n
  else s

/-- The F32 code of 2^k, −127 ≤ k ≤ 127. -/
def pow2Code (k : Int) : Nat := if -126 ≤ k then (k + 127).toNat * 2 ^ 23 else 2 ^ (149 + k).toNat

/-- One aligned write of a slot (R58): decode scale 2^−q, encode scale 2^q, codebook, valid. -/
def writeSlot (i : Nat) (q : Int) (book : Nat) (s : State) : State :=
  if i = 0xFFFF then s
  else writeFolio (slotAddr s 0 i) (leBytes (pow2Code (-q) + pow2Code q * 2 ^ 32 + book * 2 ^ 64 + 2 ^ 192) 32) (copyFirst (slotAddr s 0 i) 32 s)

/-- The two loss-scale slots (R228): scale L, and scale 1/L. -/
def writeScaleSlots (s : State) : State :=
  let l := lsExp s
  writeSlot (s.fld govPage Fld.PTG_LS_SLOT.inv_slot) l 0 (writeSlot (s.fld govPage Fld.PTG_LS_SLOT.slot) (-l) 0 s)

/-- A new mean (R231): J is the jump field of the layer's policy. -/
def newMean (m n j alpha : Nat) : Nat :=
  if m = 0 then n
  else
    let mv := ofBin64 m
    let nv := ofBin64 n
    let lim := (Val.mul (ofInt (j : Nat)) mv).scale (-8)
    let c := if j != 0 && Val.lt lim nv then lim else nv
    toBin64 (Val.add mv ((Val.sub c mv).scale (-(alpha : Int))))

/-- Mean updates. -/
def updateMeans (ovf : Bool) (s : State) : State :=
  if !(tasterOn s) then s
  else
    s.each (validLayers s) (fun l s => s.each roles (fun role s =>
      match SMap.find? s.gov.norms (l * 4 + role) with
      | none => s
      | some n =>
        if ovf && role != 0 then s
        else
          let t := s.taster l
          s.setTaster l (setMean t role (newMean (meanOf t role) n (bits (s.action (entPolicy (s.entry l))) 15 0)
            (s.fld tasterPage Fld.TST_CTRL.alpha_exp)))))

/-- The verdict's record and token (R226). -/
def sendVerdict (v : Nat × Nat × Nat × Nat) (s : State) : State :=
  let id := s.fld govPage Fld.PTG_VERDICT.stream
  let st := ptgStep s
  let s := pushFree ⟨st, modulePath, id, v.1, 0xFE, (s.stream id).job, 0, v.2.1, v.2.2.1, false, false, none, 0, false⟩ s
  sendToken ⟨s.fld govPage Fld.PTG_VERDICT.dest, id, st, v.1 != stOk, none, modulePath⟩ s

/-- Phase 6 in the order of R233. -/
def phase6 (s : State) : State :=
  let conds := ovfConds s
  let ovf := conds != 0
  let s := { s with gov := { s.gov with lsOld := s.fld govPage Fld.PTG_LSCALE.ls_exp } }
  let s := (s.setFld govPage Fld.PTG_NUM_STATUS.ovf_cond conds).when ovf (raiseEv govPage 4)
  let js := jumpsOf s
  let v := verdictOf s js
  let s := s.each js logJump
  let wantsCask := js.any (fun j => bit j.mask 0)
  let s := { s with gov := { s.gov with raises := (js.filter (fun (j : Jump) => bit j.mask 2)).map (fun (j : Jump) => j.layer) } }
  let s := s.setFld tasterPage Fld.TST_STATUS.jumps_last js.length
  let s := (s.setFlag tasterPage Fld.TST_STATUS.cask_req wantsCask).setFlag tasterPage Fld.TST_STATUS.aborted (v.2.2.2 == 3)
  let s := s.when wantsCask askCask
  let s := s.setFld govPage Fld.PTG_NUM_STATUS.verdict v.2.2.2
  let s := writeScaleSlots (updateScale ovf (v.1 == stOk) s)
  let s := updateMeans ovf s
  let w := s.fld tasterPage Fld.TST_STATUS.warm_left
  let s := s.when (tasterOn s) (fun s => s.setFld tasterPage Fld.TST_STATUS.warm_left (w - 1))
  let s := s.when (s.flag govPage Fld.PTG_NUM_CTRL.verdict_en) (sendVerdict v)
  s.when ovf (fun s => s.setRegN (govPage + 0x118) ((s.regN (govPage + 0x118) + 1) % 2 ^ 32))

/-- The verdict's record waits for room in its queue (R281). -/
def verdictWaits (s : State) : Bool :=
  s.streams.any (fun t => t.2.recs.any (fun r => r.opcode == 0xFE && !(recReady t.2 r)))

/-! ### Phase 7: votes (R194 to R197, R199) -/

/-- The vote of a role: 1 raise, 2 lower, 0 hold. -/
def voteOf (p : Nat) (m : RoleMeas) : Nat :=
  let hrMin := sx 8 (bits p 7 0)
  let hrLow := sx 8 (bits p 15 8)
  let tMore := fun (x : Nat) => Val.lt (ofInt (x : Nat)) (m.t.scale 8)
  if m.h < hrMin || decide (bits p 47 32 * m.c < m.f * 65536) || decide (bits p 111 96 < m.s) || tMore (bits p 79 64) then 1
  else if 0 < m.c && decide (hrLow ≤ m.h) && decide (m.f * 65536 ≤ bits p 63 48 * m.c) && m.s == 0 && !(tMore (bits p 95 80)) then 2
  else 0

/-- A role's counters and rung after a vote (R195). -/
def castVote (p role vote e : Nat) : Nat :=
  let up := if vote = 1 then min 15 (entUp e role + 1) else 0
  let down := if vote = 2 then min 255 (entDown e role + 1) else 0
  let r := entRung e role
  if max 1 (bits p 19 16) ≤ up && r < rungMax p role then setCounts (setRung e role (r + 1)) role 0 0
  else if bits p 27 20 != 0 && bits p 27 20 ≤ down && rungMin p role < r then setCounts (setRung e role (r - 1)) role 0 0
  else setCounts e role up down

/-- A role in phase 7: a Taster raise comes first (R197) (DEDUCED, log 62). -/
def roleStep (p role : Nat) (raised : Bool) (m : RoleMeas) (e : Nat) : Nat :=
  if raised && entRung e role < rungMax p role then setCounts (setRung e role (entRung e role + 1)) role 0 0
  else castVote p role (voteOf p m) e

/-- The histories shifted by one code (R199). -/
def shiftHist (act ag e : Nat) : Nat :=
  putBits (putBits e 255 128 (bits e 247 128 * 256 + act)) 127 96 (bits e 119 96 * 256 + ag)

/-- One valid entry in phase 7. -/
def phase7One (l : Nat) (s : State) : State :=
  let e := s.entry l
  let p := s.policy (entPolicy e)
  let e1 := if s.gov.timedOut then shiftHist 0 0 e else shiftHist (actCode s l) (agCode s l) e
  if s.gov.timedOut || entPin e || !(polValid p) then s.setEntry l e1
  else
    let raised := s.gov.raises.contains l
    let e2 := roles.foldl (fun x role => roleStep p role raised (roleMeas s l role) x) e1
    let s := s.setEntry l e2
    if roles.any (fun role => entRung e2 role != entRung e role) then { s with gov := { s.gov with changed := s.gov.changed ++ [l] } }
    else s

/-! ### Phase 8: bindings and scales (R198, R200, R201) -/

/-- The descriptor indexes bound to an entry. -/
def bindings (s : State) (e : Nat) : List Nat :=
  (List.range (bits e 59 52)).map (fun i => bits (folioNum s (s.reg64 (govPage + 0x94) + 4 * (bits e 51 32 + i)) 4) 19 0)

/-- A descriptor's format and bs_en under a rung's code. -/
def withPoint (o : Opd) (code : Nat) : Opd :=
  { o with desc := BitVec.ofNat 512 (putBits (putBits o.desc.toNat 53 50 (code % 16)) 56 56 (code / 16)) }

/-- A binding fails the check of R201; `old` is the entry before the change. -/
def bindBad (s : State) (l old new i : Nat) : Bool :=
  let o := readOpd s 0 i
  let role := roleOf o.kind
  let n := withPoint o (pointOf s new role)
  decide (descLimit s 0 ≤ i) || !o.valid || decide (4 ≤ o.kind) || o.layer != l ||
  (entRung old role != entRung new role &&
    ((unmappedIn s n.addr (n.cap * strideOf n.fmt)).isSome ||
      (n.bsEn && !o.bsEn && (unmappedIn s n.bsAddr (128 * n.cap)).isSome)))

/-- The rungs of `old` in `e`. -/
def keepRungs (old e : Nat) : Nat := putBits e 5 0 (bits old 5 0)

/-- Rewrites the bound descriptors of the roles that changed (R200). -/
def rebind (l old : Nat) (s : State) : State :=
  let new := s.entry l
  s.each (bindings s new) (fun i s =>
    let o := readOpd s 0 i
    let role := roleOf o.kind
    if entRung old role != entRung new role then
      writeFolio (descAddr s 0 i) (leBytes (withPoint o (pointOf s new role)).desc.toNat 64) (copyFirst (descAddr s 0 i) 64 s)
    else s)

/-- A changed layer in phase 8; `old` is its entry before phase 7. Gives back whether every binding passed. -/
def changeLayer (l old : Nat) (s : State) : State :=
  let new := s.entry l
  if (bindings s new).any (bindBad s l old new) then
    let s := s.setEntry l (putBits (keepRungs old new) 14 14 1)
    let s := { s with gov := { s.gov with changed := s.gov.changed.filter (· != l) } }
    raiseEv govPage 2 (s.setFlag govPage Fld.PTG_STATUS.bind_err true)
  else rebind l old (s.setEntry l (putBits new 14 14 0))

/-- The largest nonzero code of a history of `n` codes, less 127. -/
def histMax (h n : Nat) : Option Int :=
  let m := (List.range n).foldl (fun m i => max m (bits h (8 * i + 7) (8 * i))) 0
  if m = 0 then none else some ((m : Int) - 127)

/-- The exponent of the encode scale of a kind (R198). -/
def scaleExp (s : State) (l kind : Nat) : Option Int :=
  let e := s.entry l
  let e0 : Option Int :=
    match kind with
    | 0 => (amaxOf s l 0).map ceilLog2
    | 1 => histMax (bits e 255 128) 16
    | 2 => (histMax (bits e 127 96) 4).map (· + lsExp s)
    | _ => none
  if kind = 3 then some 0
  else
    let m := s.fld govPage (if kind = 0 then Fld.PTG_RECIPE.m_weight else if kind = 1 then Fld.PTG_RECIPE.m_act else Fld.PTG_RECIPE.m_agrad)
    e0.map (fun x => max (-126) (min 127 (topOf (pointOf s e (roleOf kind)) - x - (m : Int))))

/-- Writes the slots of the descriptors bound to a layer. -/
def writeSlots (l : Nat) (s : State) : State :=
  s.each (bindings s (s.entry l)) (fun i s =>
    let o := readOpd s 0 i
    if descLimit s 0 ≤ i || !o.valid || 4 ≤ o.kind then s
    else
      match scaleExp s l o.kind with
      | some q => writeSlot o.slotIdx q (bits o.slot.toNat 191 64) s
      | none => s)

/-- Roles raised and lowered between two entries. -/
def moved (up : Bool) (old new : Nat) : Nat :=
  (roles.filter (fun r => if up then decide (entRung old r < entRung new r) else decide (entRung new r < entRung old r))).length

/-- Phases 7 and 8 (DEDUCED, log 61). -/
def phases78 (s : State) : State :=
  let s1 := s.each (validLayers s) phase7One
  let s2 := s1.each s1.gov.changed (fun l x => changeLayer l (s.entry l) x)
  let failed := s1.gov.changed.filter (fun l => !(s2.gov.changed.contains l))
  let s3 := if s2.gov.timedOut then s2
    else s2.each ((validLayers s2).filter (fun l => polValid (s2.policy (entPolicy (s2.entry l))) && !(failed.contains l))) writeSlots
  let n := fun (up : Bool) => s3.gov.changed.foldl (fun n l => n + moved up (s.entry l) (s3.entry l)) 0
  s3.setRegN (govPage + 0x90) (min 65535 (n true) + min 65535 (n false) * 2 ^ 16)

/-! ### The boundary (R202 to R208) -/

/-- A boundary begins. -/
def startBoundary (s : State) : State :=
  if !(s.flag govPage Fld.PTG_CTRL.enable) || govBusy s then logStatus govPage stConflict s
  else
    let s := setPhase 2 (s.setFlag govPage Fld.PTG_STATUS.busy true)
    let s := (s.setFlag govPage Fld.PTG_STATUS.gang_timeout false).setFlag govPage Fld.PTG_STATUS.bind_err false
    { s with gov := { s.gov with started := s.time, changed := [], raises := [], timedOut := false },
             cask := { s.cask with critAt := none } }

/-- A write of PTG_CTRL: its fields, then the boundary (R539). -/
def writePtgCtrl (v : Nat) (s : State) : State :=
  let s := s.setRegN (govPage + 0x80) (bits v 0 0 + 4 * bits v 2 2)
  let s := s.when (!(bit v 0)) (fun s => s.each [0, 1] (fun d s => drainDie d (followRing d s)))
  s.when (bit v 1) startBoundary

def execStepEnd (fn : Nat) (v : Word) (s : State) : Host.Outcome State Fault Refusal :=
  .next (posted fn (.stepEnd fn v) (fun s => ownerWrite fn govPage 0x80 (writePtgCtrl v.toNat) s) s)

/-- BOUNDARY_QUIESCED: no command of the step is outstanding; the slices drain. -/
def boundaryQuiesced (s : State) : State :=
  if govPhase s = 2 && (outstandingCmds s).isEmpty then setPhase 3 (s.each (s.hyds.map (·.1)) drainSlice) else s

def execBoundaryQuiesced (s : State) : Host.Outcome State Fault Refusal := .next (boundaryQuiesced s)

/-- Phase 6, then 7 and 8 unless the verdict waits for room (DEDUCED, log 61). -/
def fromPhase6 (s : State) : State :=
  let s := phase6 s
  if verdictWaits s then setPhase 6 { s with gov := { s.gov with verdictHeld := true } } else setPhase 9 (phases78 s)

/-- BOUNDARY_COMBINE: both rings are read; the gang exchange or phase 6 follows (DEDUCED, log 61). -/
def boundaryCombine (s : State) : State :=
  if govPhase s != 3 then s
  else
    let n := s.hyds.foldl (fun n h => n + h.2.queue.length + h.2.entries.length) 0
    let s := tasteAll (readOut (n + 2) s)
    if gangOn s then setPhase 5 { sendSummary s with gov := { s.gov with gangAt := s.time } }
    else fromPhase6 s

def execBoundaryCombine (s : State) : Host.Outcome State Fault Refusal := .next (boundaryCombine s)

/-- GANG_SUMMARY_RX: the last summary completes phase 5. -/
def gangSummaryRx (s : State) : State := if govPhase s = 5 && allPeers s then fromPhase6 s else s

def execGangSummaryRx (s : State) : Host.Outcome State Fault Refusal := .next (gangSummaryRx s)

/-- GANG_TIMEOUT (R207). -/
def gangTimeout (s : State) : State :=
  if govPhase s = 5 && !(allPeers s) && decide (s.gov.gangAt + s.fld govPage Fld.PTG_GANG_TO.ticks ≤ s.time) then
    fromPhase6 (raiseEv govPage 3 ({ s with gov := { s.gov with timedOut := true } }.setFlag govPage Fld.PTG_STATUS.gang_timeout true))
  else s

def execGangTimeout (s : State) : Host.Outcome State Fault Refusal := .next (gangTimeout s)

def normJump : Fail := ⟨stNormJump, 0, 0, 0⟩

/-- An abort takes effect: the job's commands that have not passed check 1 complete, its streams stop (R232, R287). -/
def abortJob (job : Nat) (s : State) : State :=
  let mine := fun (s : State) (c : BitVec 256) => jobOf s c == job
  let s := s.each (s.units.map (·.1)) (fun u s =>
    s.each ((s.q u).filter (fun e => e.parent.isNone && e.phase == .waiting && mine s e.cmd)) (fun e => finish u e normJump))
  let s := s.each (s.cores.map (·.1)) (fun ch s =>
    let l := (s.core ch).outq
    (s.setCore ch { s.core ch with outq := l.filter (fun c => !(mine s c)) }).each (l.filter (mine s))
      (fun c => completeNear ch c (some ch) stNormJump))
  let s := s.each (s.streams.map (·.1)) (fun id s =>
    match (s.stream id).fetched with
    | some c =>
      if mine s c then
        completeNear (s.stream id).home c none stNormJump (s.setStream id { s.stream id with fetched := none })
      else s
    | none => s)
  s.each ((s.streams.filter (fun t => t.2.job == job)).map (·.1)) abortStream

/-- A Forme of the module is under test (R428). -/
def anyTest (s : State) : Bool := s.mons.any (fun m => m.2.test.isSome)

/-- Phase 9: the step counter, the hold and the events. -/
def release9 (s : State) : State :=
  let st := ptgStep s
  let next := (st + 1) % 2 ^ 32
  let changed := s.gov.changed
  let s := s.setRegN (govPage + 0x88) next
  let s := s.each changed (fun l s => s.setEntry l (putBits (s.entry l) 31 16 (next % 65536)))
  let ab := s.flag tasterPage Fld.TST_STATUS.aborted
  let s := s.when ab (fun s => raiseEv tasterPage 1 (abortJob (s.fld tasterPage Fld.TST_CTRL.abort_job) s))
  let s := s.when (caskDue s st) (capture 0)
  let s := s.setRegN (govPage + 0x8C) (min (2 ^ 32 - 1) (s.time - s.gov.started))
  let s := s.setFld govPage Fld.PTG_EXHAUSTED.commands 0
  let s := { s with gov := { s.gov with meas := [], peers := [], norms := [], ratios := [], raises := [], changed := [], timedOut := false,
                                        verdictHeld := false } }
  let s := setPhase 0 (s.setFlag govPage Fld.PTG_STATUS.busy false)
  (raiseEv govPage 0 s).when (!changed.isEmpty) (raiseEv govPage 1)

/-- BOUNDARY_RELEASE (DEDUCED, log 67). -/
def boundaryRelease (s : State) : State :=
  let s := if govPhase s = 6 && !(verdictWaits s) then setPhase 9 (phases78 { s with gov := { s.gov with verdictHeld := false } }) else s
  if govPhase s != 9 || (caskDue s (ptgStep s) && anyTest s) then s
  else if caskDue s (ptgStep s) && captureWaits s then wakeAll 11 s
  else release9 s

def execBoundaryRelease (s : State) : Host.Outcome State Fault Refusal := .next (boundaryRelease s)

/-! ### Registers -/

/-- A write of HYD_RING_CFG (R210). -/
def hydRingCfg (d v : Nat) (s : State) : State :=
  let page := hydroPage d
  let old := s.fld page Fld.HYD_RING_CFG.size_exp
  let on := s.flag page Fld.HYD_RING_CFG.enable
  let sz := bits v 4 0
  let fits := decide (11 ≤ sz) && decide (sz ≤ 24)
  let keep := (on && sz != old) || !fits
  let s := s.when (on && sz != old) (logStatus page stConflict)
  let s := s.setRegN (page + 0x88) ((if keep then old else sz) + bits v 5 5 * 32)
  if !on && bit v 5 then (s.setRegN (page + 0x8C) (2 ^ 24)).setRegN (page + 0x90) (2 ^ 24) else s

def execHydRingCfgWrite (fn d : Nat) (v : Word) (s : State) : Host.Outcome State Fault Refusal :=
  .next (posted fn (.hydRingCfgWrite fn d v) (fun s => ownerWrite fn (hydroPage (d % 2)) 0x88 (hydRingCfg (d % 2) v.toNat) s) s)

/-- Eight data words from `base` as one 256-bit number, and back. -/
def readWords (s : State) (base : Nat) : Nat := (List.range 8).foldl (fun n i => n + s.regN (base + 4 * i) * 2 ^ (32 * i)) 0
def writeWords (base v : Nat) (s : State) : State :=
  s.each (List.range 8) (fun i s => s.setRegN (base + 4 * i) (bits v (32 * i + 31) (32 * i)))

/-- PTG_ENT_CMD.load. -/
def ptgEntLoad (s : State) : State :=
  let i := s.fld govPage Fld.PTG_ENT_IDX.index
  writeWords (govPage + 0xA4) (if s.flag govPage Fld.PTG_ENT_IDX.sel then s.policy (i % 64) else s.entry i) s

/-- A policy that R192 refuses. -/
def policyBad (p : Nat) : Bool :=
  let codes := ((List.range (rungMax p 0 + 1)).map (ladder p 0)) ++ ((List.range (rungMax p 1 + 1)).map (ladder p 1))
  (polValid p && codes.any (fun c => decide (5 < c % 16))) ||
  ((List.range 4).map (ladder p 0) ++ (List.range 4).map (ladder p 1)).any (fun c => decide (16 ≤ c) && c % 16 != 1 && c % 16 != 2) ||
  decide (rungMax p 0 < rungMin p 0) || decide (rungMax p 1 < rungMin p 1)

/-- A policy without its reserved bits. -/
def cleanPolicy (p : Nat) : Nat := putBits (putBits (putBits (putBits p 31 28 0) 159 153 0) 191 184 0) 255 192 0

/-- PTG_ENT_CMD.commit (R192, R209). -/
def ptgEntCommit (s : State) : State :=
  let i := s.fld govPage Fld.PTG_ENT_IDX.index
  let w := readWords s (govPage + 0xA4)
  if govBusy s then logStatus govPage stConflict s
  else if s.flag govPage Fld.PTG_ENT_IDX.sel then
    if policyBad w then logStatus govPage stFormat s
    else
      let ps := SMap.set (fun _ => (0 : BitVec 256)) s.gov.policies (i % 64) (BitVec.ofNat 256 (cleanPolicy w))
      { s with gov := { s.gov with policies := ps } }
  else s.setEntry i (putBits w 15 15 0)

def execPtgEntLoad (fn : Nat) (s : State) : Host.Outcome State Fault Refusal :=
  .next (posted fn (.ptgEntLoad fn) (fun s => ownerWrite fn govPage 0xC4 ptgEntLoad s) s)
def execPtgEntCommit (fn : Nat) (s : State) : Host.Outcome State Fault Refusal :=
  .next (posted fn (.ptgEntCommit fn) (fun s => ownerWrite fn govPage 0xC4 ptgEntCommit s) s)

/-- A write of PTG_LSCALE (R229). -/
def lscaleWrite (v : Nat) (s : State) : State :=
  let k := sx 8 v
  if govBusy s then logStatus govPage stConflict s
  else if k < -24 || 24 < k then logStatus govPage stFormat s
  else (s.setFld govPage Fld.PTG_LSCALE.ls_exp (v % 256)).setFld govPage Fld.PTG_LS_GROW.clean 0

def execLscaleWrite (fn : Nat) (v : Word) (s : State) : Host.Outcome State Fault Refusal :=
  .next (posted fn (.lscaleWrite fn v) (fun s => ownerWrite fn govPage 0x104 (lscaleWrite v.toNat) s) s)

/-- PTG_SEED_CMD.load and commit (R217, R235). -/
def seedLoad (s : State) : State :=
  s.setReg64 (govPage + 0x124) (SMap.get (fun _ => (0 : BitVec 64)) s.gov.seeds (s.fld govPage Fld.PTG_SEED_IDX.job)).toNat

def seedCommit (s : State) : State :=
  if govBusy s then logStatus govPage stConflict s
  else
    let v := BitVec.ofNat 64 (s.reg64 (govPage + 0x124))
    { s with gov := { s.gov with seeds := SMap.set (fun _ => (0 : BitVec 64)) s.gov.seeds (s.fld govPage Fld.PTG_SEED_IDX.job) v } }

def execSeedLoad (fn : Nat) (s : State) : Host.Outcome State Fault Refusal :=
  .next (posted fn (.seedLoad fn) (fun s => ownerWrite fn govPage 0x12C seedLoad s) s)
def execSeedCommit (fn : Nat) (s : State) : Host.Outcome State Fault Refusal :=
  .next (posted fn (.seedCommit fn) (fun s => ownerWrite fn govPage 0x12C seedCommit s) s)

/-- A write of the Taster page, refused while the governor is busy (R237). -/
def tasterWrite (act : State → State) (s : State) : State := if govBusy s then logStatus tasterPage stConflict s else act s

def tastWord (t : TastEnt) : Nat := t.fwd + t.ag * 2 ^ 64 + t.wg * 2 ^ 128 + (t.jumps + t.last * 2 ^ 16) * 2 ^ 192
def tastOf (w : Nat) : TastEnt := ⟨bits w 63 0, bits w 127 64, bits w 191 128, bits w 207 192, bits w 223 208⟩

def tstEntLoad (s : State) : State := writeWords (tasterPage + 0xA0) (tastWord (s.taster (s.fld tasterPage Fld.TST_ENT_IDX.layer))) s
def tstEntCommit (s : State) : State :=
  s.setTaster (s.fld tasterPage Fld.TST_ENT_IDX.layer) (tastOf (readWords s (tasterPage + 0xA0)))

def execTstEntLoad (fn : Nat) (s : State) : Host.Outcome State Fault Refusal :=
  .next (posted fn (.tstEntLoad fn) (fun s => ownerWrite fn tasterPage 0xC0 (tasterWrite tstEntLoad) s) s)
def execTstEntCommit (fn : Nat) (s : State) : Host.Outcome State Fault Refusal :=
  .next (posted fn (.tstEntCommit fn) (fun s => ownerWrite fn tasterPage 0xC0 (tasterWrite tstEntCommit) s) s)

end Sys2Proof.Machine
end

