-- ==== Sys2Proof/Machine/Views.lean ====
section
/-! DEFINITION. Registers whose content lives in the state of a unit: what the Chase, Galley, Forme and die pages show of
it (R35, R36, R105, R126, R127, R211, R402, R538). -/

namespace Sys2Proof.Machine

/-! ### Dispatchers (R36) -/

/-- Parent commands that a unit has split and that have not completed, oldest first. -/
def outstandingAt (s : State) (u : Nat) : List QEnt := (s.q u).filter (fun e => e.phase == .split)

/-- What the dispatcher page of a unit reports; a die's page also reports the module dispatcher's parents of its streams. -/
def outstandingOf (s : State) (u : Nat) : List QEnt :=
  if pathLevel u = 3 then
    outstandingAt s u ++ (outstandingAt s modulePath).filter (fun e => homeDie modulePath e.cmd == pathDie u)
  else outstandingAt s u

def combiningAt (s : State) (u : Nat) : Bool :=
  (s.unit u).redCombining || (pathLevel u == 3 && (s.unit modulePath).redCombining)

/-- GLY_DISPATCH, FRM_DISPATCH, DIE_DISPATCH. -/
def dispatchWord (s : State) (u : Nat) : Nat := min 4095 (outstandingOf s u).length + b2n (combiningAt s u) * 2 ^ 12

/-! ### The control core (R538) -/

def runCode : Run → Nat
  | .halted => 1
  | .running => 2
  | .waiting => 3
  | .stalled => 4
  | .loading => 5

/-- CHS_CORE_STATUS. -/
def coreStatus (s : State) (ch : Nat) : Nat :=
  let c := s.core ch
  runCode c.run + c.stall * 8 + b2n c.inTrap * 64 + b2n c.doubleTrap * 128 + b2n c.loadErr * 256

/-- What a stalled TWAIT or CGET awaits: stream and sequence number, or counter and count. -/
def coreAwaits (s : State) (ch : Nat) : Nat × Nat :=
  let c := s.core ch
  let w := coreWord s ch
  if c.run == .stalled && c.stall == 1 then (bits (c.regN (iRa w)) 15 0, c.regN (iRb w))
  else if c.run == .stalled && c.stall == 2 then (bits w 15 12, c.regN (iRa w))
  else (0, 0)

/-- CHS_CORE_WAIT. -/
def coreWaitWord (s : State) (ch : Nat) : Nat :=
  (coreAwaits s ch).1 + (s.unit ch).toks.length * 2 ^ 16 + b2n (s.unit ch).port.isSome * 2 ^ 23

/-! ### The array (R105, R126, R402) -/

/-- CHS_ARR_STATUS (DESIGN CHOICE, log 128). -/
def arrStatus (s : State) (ch : Nat) : Nat :=
  let a := s.arr ch
  a.width + a.run * 4 + b2n a.fence * 16 + b2n a.shadowLoading * 32 + b2n a.shadow.isSome * 64 + b2n a.active.isSome * 128 +
    a.orient * 256 + a.colBanks * 512 + a.rowBanks * 8192

/-- Bundle results that wait for one before them in (streaming row, slice) order (R123). -/
def robUsed (y : ArrSt) : Nat := ((y.bundles.dropWhile (fun b => b.2 == 0)).filter (fun b => b.2 == 0)).length

/-- Slices that run a bundle, as a mask. -/
def sliceBusy (y : ArrSt) : Nat :=
  maskOf ((List.range 4).filter (fun i =>
    (List.zip (List.range y.bundles.length) y.bundles).any (fun b => b.1 % 4 == i && b.2.1 == 0 && b.2.2 != 0)))

/-- CHS_MF_STATUS (DESIGN CHOICE, log 128). -/
def mfStatus (s : State) (ch : Nat) : Nat :=
  let a := s.arr ch
  a.mode + robUsed a * 4 + sliceBusy a * 64 + b2n ((engineHead s ch .array).any (tableWaits s ch)) * 1024

/-- GLY_LUT_STATUS. -/
def lutStatus (s : State) (g : Nat) : Nat :=
  let t := fun i => s.tab (g * 2 + i)
  b2n (t 0).ready + b2n (t 1).ready * 2 + b2n (t 0).building * 4 + b2n (t 1).building * 8

/-- A wait of the entry on a claim, a Tile in transit or a pending Cask unit. -/
def tierWaits (s : State) (e : QEnt) : Bool :=
  writesWait s e ||
  (match e.opd 0, e.opd 1 with
   | some a, some b => claimsFull s e (passReads e (cOrient e.cmd) a b)
   | _, _ => false)

/-- A collective in a queue whose member 0 is this Chase: what it waits on counts here (R341, R346) (DESIGN CHOICE, log 152). -/
def collectiveAt (s : State) (ch : Nat) (p : QEnt → Bool) : Bool :=
  s.units.any (fun x => sliceOf x.1 == ch && x.2.q.any p)

/-- The command at the head of a Chase's issue queue is held by a boundary (R203). -/
def boundaryHolds (s : State) (ch : Nat) : Bool := (headOf s ch).isSome && govBusy s

/-- The array lacks the configuration that its head command needs (R90). -/
def wrongConfig (s : State) (ch : Nat) : Bool :=
  match headNeed s ch with | some n => !(cfgMatches (s.arr ch) n) | none => false

/-- The first row of the table Stall reasons, skew and busy aside, that holds for the array of a Chase between its passes
(R402): a head command for which every condition of R90 holds counts as issued, which waits on a Tile or for its block; the
configuration that a head command lacks counts as R90 says (DESIGN CHOICE, log 152). -/
def stallReason (s : State) (ch : Nat) : Nat :=
  let x := s.arr ch
  let head := engineHead s ch .array
  let held : (QEnt → Bool) → Bool := fun p => match head with | some e => e.phase == Phase.held && p e | none => false
  let issued := match head with | some e => e.phase == .issued | none => false
  if issued && x.shadowLoading then 6
  else if x.fence || boundaryHolds s ch || held (fun _ => wrongConfig s ch) ||
      collectiveAt s ch (fun e => e.phase == Phase.held && fenceHolds s e) then 4
  else if held (fun (e : QEnt) => !e.needs.isEmpty) || head.any (tableWaits s ch) ||
      collectiveAt s ch (fun e => e.phase == Phase.taking) then 2
  else if held (fun e => !(creditsIn s ch e)) then 3
  else if held (fun e => !(banksFree s ch e)) then 5
  else if held (tierWaits s) then 8
  else if issued || held (fun _ => true) then 6
  else 1

end Sys2Proof.Machine
end

