-- ==== Sys2Proof/Machine/TraceCmds.lean ====
section
/-! DEFINITION. Commands of the trace page: the trace writer (R409 to R414), counter latches (R401) and hang snapshots
(R415, R416). -/

namespace Sys2Proof.Machine

/-! ### TRC_CTRL (R411) -/

/-- The 1,024 Folios of the buffer lie in the fixed range (R410). -/
def bufferOk (s : State) (d : Nat) : Bool := decide (s.fld (tracePage d) Fld.TRC_BUF_BASE.folio + 1024 ≤ fixedFolios s)

/-- The writer starts: index 0, nothing wrapped, nothing lost (R411) (DEDUCED, log 79). -/
def startWriter (d : Nat) (s : State) : State :=
  if bufferOk s d then
    let s := s.setFlag (tracePage d) Fld.TRC_CTRL.enable true
    let s := s.setFld (tracePage d) Fld.TRC_WR_IDX.index 0
    let s := s.setRegN (tracePage d + 0x90) 0
    let s := (s.setFlag (tracePage d) Fld.TRC_STATUS.wrapped false).setFld (tracePage d) Fld.TRC_STATUS.state 1
    s.setTrw d { TrcW.reset with rot := (s.trwOf d).rot }
  else logStatus (tracePage d) stAddress s

/-- The writer stops; the marker of a full stop-mode buffer takes the final count (table Buffer modes) (DEDUCED, log 79). -/
def stopWriter (d : Nat) (s : State) : State :=
  let s := s.when (traceState s d == 4) (fun s =>
    let a := s.fld (tracePage d) Fld.TRC_BUF_BASE.folio * 65536 + 32 * (traceSlots - 1) + 16
    (copyFirst a 4 s).setNum a 4 (s.regN (tracePage d + 0x90)))
  (s.setFlag (tracePage d) Fld.TRC_CTRL.enable false).setFld (tracePage d) Fld.TRC_STATUS.state 0

/-- The RW fields of TRC_CTRL; mode and lossless stay while the writer is enabled, mode 3 keeps the mode. -/
def trcFields (d v : Nat) (s : State) : State :=
  let page := tracePage d
  let on := s.flag page Fld.TRC_CTRL.enable
  let mode := if bits v 2 1 = 3 then traceMode s d else bits v 2 1
  let loss := bit v 3
  let s := s.when (d == 0) (fun s => s.setFlag page Fld.TRC_CTRL.hang_on_timeout (bit v 9))
  let s :=
    if mode = traceMode s d && loss == s.flag page Fld.TRC_CTRL.lossless then s
    else if on then logStatus page stConflict s
    else (s.setFld page Fld.TRC_CTRL.mode mode).setFlag page Fld.TRC_CTRL.lossless loss
  if bit v 0 && !on then startWriter d s else if !(bit v 0) && on then stopWriter d s else s

/-- A frozen buffer runs again (R413). -/
def armWriter (d : Nat) (s : State) : State := if traceState s d = 3 then s.setFld (tracePage d) Fld.TRC_STATUS.state 1 else s

/-- A trigger by software; in another state than running it is ignored (R412) (DEDUCED, log 80). -/
def softTrigger (d : Nat) (s : State) : State := trigger d 0 s

/-! ### Counter latches (R401) -/

/-- An always-on counter's offset (DEDUCED, log 86). -/
def isCounter (off : Nat) : Bool := decide (0x30 ≤ off % 0x1000) && decide (off % 0x1000 < 0x80) && (pageOf off).isSome

/-- The latched values are the counters as they stand. -/
def latchCounters (s : State) : State :=
  let kept : SMap Word := List.filter (fun (e : Nat × Word) => isCounter e.1) s.regs
  { s with snap := kept }

/-- Latches every always-on counter of both dies (R401): die 1's page shows the latch as die 0's does (DEDUCED, log 86). -/
def snapCounters (s : State) : State :=
  let s := latchCounters (s.each freeCounters advanceFree)
  bothDies Fld.TRC_STATUS.snap_valid true
    ({ s with snapAt := thisTick s }.each [0, 1] (fun d s => s.setReg64 (tracePage d + 0xAC) s.time))

/-- The values latched in a tick include its increments (R401). -/
def endLatch (s : State) : State :=
  s.when (s.flag (tracePage 0) Fld.TRC_STATUS.snap_valid && s.snapAt == thisTick s) latchCounters

def releaseSnap (s : State) : State := bothDies Fld.TRC_STATUS.snap_valid false s

/-- The action bits of a write to TRC_CTRL in ascending order (R539); snap, snap_release and hang act in die 0's page only. -/
def trcActions (d v : Nat) (s : State) : State :=
  let s := s.when (bit v 4) (softTrigger d)
  let s := s.when (bit v 5) (armWriter d)
  let s := s.when (bit v 6 && d == 0) snapCounters
  let s := s.when (bit v 7 && d == 0) releaseSnap
  s.when (bit v 8 && d == 0) (askHang 0 0 0)

/-- A write of TRC_CTRL of die `d` (DEDUCED, log 79). -/
def writeTrcCtrl (d v : Nat) (s : State) : State := trcActions d v (trcFields d v s)

/-- TRACE_ENABLE: a write of TRC_CTRL with its enable bit (R410, R411). -/
def execTraceEnable (fn d : Nat) (v : Word) (s : State) : Host.Outcome State Fault Refusal :=
  .next (posted fn (.traceEnable fn d v) (fun s => ownerWrite fn (tracePage (d % 2)) 0x80 (writeTrcCtrl (d % 2) v.toNat) s) s)

/-- TRACE_TRIGGER (R412, R413). -/
def execTraceTrigger (fn d : Nat) (s : State) : Host.Outcome State Fault Refusal :=
  .next (posted fn (.traceTrigger fn d) (fun s => ownerWrite fn (tracePage (d % 2)) 0x80 (softTrigger (d % 2)) s) s)

/-- TRACE_ARM (R413). -/
def execTraceArm (fn d : Nat) (s : State) : Host.Outcome State Fault Refusal :=
  .next (posted fn (.traceArm fn d) (fun s => ownerWrite fn (tracePage (d % 2)) 0x80 (armWriter (d % 2)) s) s)

/-- TRACE_TIME_TRIGGER: fabric time equals TRC_TRIG_T (R412). -/
def traceTimeTrigger (d : Nat) (s : State) : State :=
  if s.flag (tracePage d) Fld.TRC_TRIG_CFG.on_time && s.reg64 (tracePage d + 0xA0) == s.time then trigger d 2 s else s

def execTraceTimeTrigger (d : Nat) (s : State) : Host.Outcome State Fault Refusal := .next (traceTimeTrigger (d % 2) s)

/-! ### The writer's moves (R409, R410) -/

/-- The Chase of a die whose queue the writer serves next, in rotation (DEDUCED, log 81). -/
def nextTraced (s : State) (d : Nat) : Option Nat :=
  let l := (List.filter (fun (x : Nat × TrcQ) => pathDie x.1 == d && !x.2.recs.isEmpty) s.trq).map (·.1)
  match l.find? (fun ch => decide ((s.trwOf d).rot < ch)) with
  | some ch => some ch
  | none => l.head?

/-- A Chase's queue without its first record, with the gap marker that the freed place takes (R409). -/
def popTrace (ch : Nat) (q : TrcQ) : TrcQ :=
  if q.lost = 0 then { q with recs := q.recs.drop 1 }
  else { q with recs := q.recs.drop 1 ++ [⟨q.firstLost, 0, ch, 0x10, q.lost % 2 ^ 32, q.firstLost⟩], lost := 0, firstLost := 0 }

/-- The writer moves one record (DEDUCED, log 81). -/
def moveTrace (d : Nat) (s : State) : State :=
  match nextTraced s d with
  | some ch =>
    let q := s.trqOf ch
    match q.recs with
    | r :: _ => takeRec d r ((s.setTrq ch (popTrace ch q)).setTrw d { s.trwOf d with rot := ch })
    | [] => s
  | none => s

/-- TRACE_WRITE: up to 2 records a tick, while the writer is on (DEDUCED, log 81). -/
def traceWrite (d : Nat) (s : State) : State := if traceState s d = 0 then s else moveTrace d (moveTrace d s)

def execTraceWrite (d : Nat) (s : State) : Host.Outcome State Fault Refusal := .next (traceWrite (d % 2) s)

/-- TRACE_FREEZE: TRC_POST records have followed the trigger (R413). -/
def traceFreeze (d : Nat) (s : State) : State :=
  if traceState s d = 2 && (s.trwOf d).post == 0 then raiseEv (tracePage d) 1 (s.setFld (tracePage d) Fld.TRC_STATUS.state 3) else s

def execTraceFreeze (d : Nat) (s : State) : Host.Outcome State Fault Refusal := .next (traceFreeze (d % 2) s)

/-! ### Spill (R414) -/

/-- Records of a spill ring, and the memory key of its record `i` (table Cellar system area). -/
def spillSlots : Nat := 268435456
/-- Where the trace writer of die `d` spills its record `i` (DEDUCED, log 82). -/
def spillAddr (d i : Nat) : Nat := cellarBase + 33 * 2 ^ 30 + d * 2 ^ 33 + 32 * i

/-- The writer may spill: mode spill, records held, and neither a Colophon record nor a Cask, its own or a buddy's, wants the
Cellar (R367) (DEDUCED, log 82). -/
def maySpill (s : State) (d : Nat) : Bool :=
  traceMode s d == 2 && traceState s d == 1 && decide (0 < (s.trwOf d).held) && !(buddyWaits s) && !(copyComing s)

/-- TRACE_SPILL: the oldest record goes to the ring and its slot is free; a gap marker follows what was lost (DEDUCED, log 82). -/
def traceSpill (d : Nat) (s : State) : State :=
  if maySpill s d then
    let page := tracePage d
    let w := s.trwOf d
    let i := (s.fld page Fld.TRC_WR_IDX.index + traceSlots - w.held % traceSlots) % traceSlots
    let at_ := s.fld page Fld.TRC_SPILL_IDX.index
    let s := s.setBytes (spillAddr d at_) (s.bytes (s.fld page Fld.TRC_BUF_BASE.folio * 65536 + 32 * i) 32)
    let s := s.setFld page Fld.TRC_SPILL_IDX.index ((at_ + 1) % spillSlots)
    let s := s.when (at_ + 1 == spillSlots) (fun s => s.setFlag page Fld.TRC_SPILL_IDX.wrapped true)
    let s := cellarPulse (s.setTrw d { w with held := w.held - 1, lost := 0, firstLost := 0 })
    s.when (w.lost != 0) (putRec d (gapRec d w.lost w.firstLost s.time))
  else s

def execTraceSpill (d : Nat) (s : State) : Host.Outcome State Fault Refusal := .next (traceSpill (d % 2) s)

/-- COUNTER_SNAP and SNAP_RELEASE (R401). -/
def execCounterSnap (fn : Nat) (s : State) : Host.Outcome State Fault Refusal :=
  .next (posted fn (.counterSnap fn) (fun s => ownerWrite fn (tracePage 0) 0x80 snapCounters s) s)
def execSnapRelease (fn : Nat) (s : State) : Host.Outcome State Fault Refusal :=
  .next (posted fn (.snapRelease fn) (fun s => ownerWrite fn (tracePage 0) 0x80 releaseSnap s) s)

/-! ### Hang snapshots (R415, R416) -/

/-- HANG_REQUEST: a snapshot 64 ticks from now. -/
def execHangRequest (fn : Nat) (s : State) : Host.Outcome State Fault Refusal :=
  .next (posted fn (.hangRequest fn) (fun s => ownerWrite fn (tracePage 0) 0x80 (askHang 0 0 0) s) s)

/-- The header of a die's snapshot (DESIGN CHOICE, log 83). -/
def hangHeader (d : Nat) (h : Hang) : Nat :=
  0x474E4148 + d * 2 ^ 32 + h.trig * 2 ^ 40 + h.time * 2 ^ 64 + h.stream * 2 ^ 128 + h.seq * 2 ^ 160

/-- The entry of a dispatcher (DESIGN CHOICE, log 83). -/
def hangDispatcher (s : State) (u : Nat) : Nat :=
  let l := outstandingOf s u
  u + min 4095 l.length * 2 ^ 16 + b2n (combiningAt s u) * 2 ^ 28 +
    (match l with | e :: _ => e.seq + e.stream * 2 ^ 32 | [] => 0) * 2 ^ 64 +
    freeSlots s (pathLevel u) u * 2 ^ 128

/-- The dispatchers of a die in snapshot order: Galleys, Formes, the die. -/
def dispatchersOf (d : Nat) : List Nat :=
  (List.range 72).map (fun i => galleyPath d (i / 8) (i % 8)) ++ (List.range 9).map (formePath d) ++ [diePath d]

/-- Flits in a port's receive buffer on a channel. -/
def rxFlits (x : PortSt) (v : Nat) : Nat :=
  ceilDiv (SMap.get (fun _ => []) x.part v).length 240 +
    ((x.inbox.filter (fun q => vcOf q.type == v)).foldl (fun n q => n + flitCount q) 0)

/-- The entry of port `p` of the module (DESIGN CHOICE, log 83). -/
def hangPort (s : State) (p : Nat) : Nat :=
  let x := s.port p
  portState s p + min 65535 x.replay.length * 2 ^ 16 +
    (List.range 4).foldl (fun n v =>
      n + (min 65535 (rxFlits x v) + min 65535 (vcCredits x v) * 2 ^ 16) * 2 ^ (32 + 32 * v)) 0

/-- The unit whose credit the head command awaits. -/
def hangCredit (s : State) (ch : Nat) (head : Option QEnt) : Nat :=
  match head with
  | some e => if e.engine == .array && e.phase == .held && !(creditsIn s ch e) then creditUnit ch e else 0
  | none => 0

/-- The array's state as a code of the table Stall reasons: cycles of a pass that the ticks have still to count come first
(R402, R416). -/
def arrayCode (s : State) (ch : Nat) : Nat :=
  match (s.arr ch).due with
  | x :: _ => x.1
  | [] => stallReason s ch

/-- An entry of a token table (bytes 128 to 639). -/
def hangToken (e : TokEnt) : Nat := e.stream + 2 ^ 16 + b2n e.fail * 2 ^ 17 + e.high * 2 ^ 32

/-- The head command of the issue stage. -/
def stageHead (s : State) (ch : Nat) : Option QEnt := (s.q ch).find? (fun e => e.phase == .waiting || e.phase == .held)

/-- The first 128 bytes of a Chase's entry; a power-gated Chase reads state 3 (DESIGN CHOICE, log 83). -/
def hangChase (s : State) (ch : Nat) : Nat :=
  let c := s.core ch
  let st := coreStatus s ch
  let head := stageHead s ch
  let miss := match head with | some e => e.needs.headD (0, 0) | none => (0, 0)
  ch + (if formeState s ch = 2 then putBits st 2 0 3 else st) * 2 ^ 16 + pc14 c * 2 ^ 32 +
    (coreAwaits s ch).1 * 2 ^ 48 + (coreAwaits s ch).2 * 2 ^ 64 +
    (List.range 16).foldl (fun n i => n + c.credit i * 2 ^ (96 + 16 * i)) 0 +
    slotsUsed s ch * 2 ^ 352 + c.outq.length * 2 ^ 360 + arrayCode s ch * 2 ^ 368 + (s.unit ch).toks.length * 2 ^ 376 +
    (match head with | some e => e.cmd.toNat | none => 0) * 2 ^ 384 +
    miss.1 * 2 ^ 640 + miss.2 * 2 ^ 672 + hangCredit s ch head * 2 ^ 704

/-- The entry of a stream (DESIGN CHOICE, log 83). -/
def hangStream (t : Stream) : Nat :=
  if t.state = sFree then 0
  else
    t.sqHead + t.sqTail * 2 ^ 21 + (t.cqTail + t.cqHead * 2 ^ 21 + b2n t.cqPhase * 2 ^ 42) * 2 ^ 64 +
      (t.nextSeq + t.inFlight * 2 ^ 32 + t.credits * 2 ^ 48) * 2 ^ 128 +
      (t.state + t.before * 8 + t.job * 2 ^ 6 + t.owner * 2 ^ 18) * 2 ^ 192

/-- Writes a Chase's entry. -/
def putChase (a ch : Nat) (s0 : State) (s : State) : State :=
  (fixedWrite a 128 (hangChase s0 ch) s).each (List.range 64) (fun i s =>
    fixedWrite (a + 128 + 8 * i) 8 (match (s0.unit ch).toks[i]? with | some e => hangToken e | none => 0) s)

/-- Writes the snapshot of `s0` into a die's area and sets its registers. -/
def putHang (d : Nat) (h : Hang) (s0 : State) (s : State) : State :=
  let base := s.fld (tracePage d) Fld.TRC_HANG_BASE.folio * 65536
  let s := fixedWrite base 64 (hangHeader d h) s
  let s := s.each (List.zip (List.range 82) (dispatchersOf d)) (fun e s => fixedWrite (base + 64 + 32 * e.1) 32 (hangDispatcher s0 e.2) s)
  let s := s.each (List.range 8) (fun i s => fixedWrite (base + 4096 + 64 * i) 64 (hangPort s0 (8 * d + i)) s)
  let s := s.each (List.range 1152) (fun i s => putChase (base + 8192 + 640 * i) (chaseAt d i) s0 s)
  let s := s.each (List.range 32768) (fun i s => fixedWrite (base + 1048576 + 32 * i) 32 (hangStream (s0.stream (d * 32768 + i))) s)
  s.setReg64 (tracePage d + 0xB8) h.time

/-- Every unit copies its state as the capture tick begins (R415) (DEDUCED, log 85). -/
def copyHang (s : State) : State :=
  match s.hang with
  | some h => if h.copied || decide (s.time < h.time) then s else { putHang 1 h s (putHang 0 h s s) with hang := some { h with copied := true } }
  | none => s

/-- HANG_CAPTURE: the copies are written and the snapshot is done. -/
def hangCapture (s : State) : State :=
  match s.hang with
  | some h =>
    if s.time < h.time then s
    else
      raiseEv (tracePage 0) 3 (bothDies Fld.TRC_STATUS.hang_busy false (bothDies Fld.TRC_STATUS.hang_done true
        { copyHang s with hang := none }))
  | none => s

def execHangCapture (s : State) : Host.Outcome State Fault Refusal := .next (hangCapture s)

end Sys2Proof.Machine
end

