-- ==== Sys2Proof/Machine/Options.lean ====
section
/-! DEFINITION. The option bytes in the SPI NOR and their shadow (R30, R465 to R468, R479), and the repair map (R31, R33). -/

namespace Sys2Proof.Machine

/-- Memory key of a copy of the option bytes: 0 A, 1 B (DEDUCED, log 129). -/
def norCopy (k : Nat) : Nat := 2 ^ 56 + k * 0x8000

/-- The copy's generation. -/
def optGen (s : State) (k : Nat) : Nat := s.num (norCopy k + 6) 2

/-- An image is valid: magic, version and CRC are correct (R466). -/
def imageOk (l : List (BitVec 8)) : Bool :=
  leNat (l.take 4) == 0x4F50544B && leNat ((l.drop 4).take 2) == 1 && leNat ((l.drop 0x7FFC).take 4) == crc32c (l.take 0x7FFC)

/-- Copy `k` of the options holds a good image (DEDUCED, log 129). -/
def copyOk (s : State) (k : Nat) : Bool := imageOk (s.bytes (norCopy k) 0x8000)

/-- `a` is later than `b` modulo 2^16 (R466). -/
def genLater (a b : Nat) : Bool :=
  let d := (a + 65536 - b % 65536) % 65536
  0 < d && d < 32768

/-- The copy that the reader takes, none for defaults (R466) (DEDUCED, log 129). -/
def chosenCopy (s : State) : Option Nat :=
  match copyOk s 0, copyOk s 1 with
  | true, true => if genLater (optGen s 1) (optGen s 0) then some 1 else some 0
  | true, false => some 0
  | false, true => some 1
  | false, false => none

/-- A copy with every field at its default: every repair byte 0x1F, the rest 0 (R466). -/
def defaultOptions : List (BitVec 8) :=
  List.replicate 16 0 ++ List.replicate 144 0x1F ++ List.replicate (0x8000 - 160) 0

/-- A repair byte in the shadow: die and Galley index (R30). -/
def repairByte (s : State) (d g : Nat) : Nat := (s.byte (shadowBase + 16 + 72 * d + g)).toNat % 32

/-- The copy that was not selected at the last read. -/
def otherCopy (s : State) : Nat := if s.mzm.optCopy then 0 else 1

/-- Generation of the copy in use. -/
def usedGen (s : State) : Nat := s.mzm.optGen

/-- A new image for the copy not selected: magic, version, the next generation, the CRC last (R465, R467). -/
def sealImage (s : State) (l : List (BitVec 8)) : List (BitVec 8) :=
  let l := leBytes 0x4F50544B 4 ++ leBytes 1 2 ++ leBytes ((usedGen s + 1) % 65536) 2 ++ (fit 0x7FFC l).drop 8
  l ++ leBytes (crc32c l) 4

/-- The image that the next reset would take: one that is being written, a newer one in the copy not selected, else the shadow. -/
def nextImage (s : State) : List (BitVec 8) :=
  let k := otherCopy s
  match s.mzm.norCrc with
  | some w => s.bytes (norCopy w.1) 0x7FFC ++ w.2
  | none => if copyOk s k && genLater (optGen s k) (usedGen s) then s.bytes (norCopy k) 0x8000 else s.bytes shadowBase 0x8000

/-- A program pulse of the SPI NOR begins (DEDUCED, log 129). -/
def norPulse (s : State) : State :=
  if s.mzm.pulses.contains 0 then s else { s with mzm := { s.mzm with pulses := s.mzm.pulses ++ [0] } }

/-- Muzomus writes an image into the copy not selected (R467), unless no pulse may begin (R463, R464); the CRC is programmed
last, as the pulse ends, and stands erased until then (DEDUCED, log 161). -/
def writeImage (l : List (BitVec 8)) (s : State) : State :=
  if pulseBarred s then s
  else
    let k := otherCopy s
    let l := sealImage s l
    let s := s.setBytes (norCopy k) (l.take 0x7FFC ++ List.replicate 4 0xFF)
    norPulse { s with mzm := { s.mzm with norCrc := some (k, l.drop 0x7FFC) } }

/-- The pulse of an image write has ended: its CRC is programmed, unless the write is cut off (R467) (DEDUCED, log 161). -/
def landImage (cut : Bool) (s : State) : State :=
  match s.mzm.norCrc with
  | some w =>
    let s := { s with mzm := { s.mzm with norCrc := none } }
    if cut then s else s.setBytes (norCopy w.1 + 0x7FFC) w.2
  | none => s

/-- The physical position that serves logical Chase `c` under a repair byte (R31) (DEDUCED, log 108). -/
def physOf (p c : Nat) : Nat := if p < 16 && p ≤ c then c + 1 else c

/-- `l` with byte `i` replaced. -/
def setNth (l : List (BitVec 8)) (i : Nat) (v : BitVec 8) : List (BitVec 8) := l.take i ++ [v] ++ l.drop (i + 1)

/-- New repair bytes, each with its Colophon record (R33, R429): Galley index and byte. -/
def writeRepairs (d : Nat) (l : List (Nat × Nat)) (s : State) : State :=
  if l.isEmpty then s
  else
    let img := nextImage s
    let s := s.each l (fun x => colAppend d 0x09 (leBytes x.1 1 ++ [img.getD (16 + 72 * d + x.1) 0] ++ leBytes x.2 1))
    writeImage (l.foldl (fun img x => setNth img (16 + 72 * d + x.1) (BitVec.ofNat 8 x.2)) img) s

end Sys2Proof.Machine
end

