-- ==== Sys2Proof/Machine/Monitor.lean ====
section
/-! DEFINITION. Health monitors: conversions, validity, thresholds and histograms (R419 to R424, R432), proof mode (R425), margin
and self-tests (R426 to R429); and the commands of the Colophon (R432 to R435, R439). -/

namespace Sys2Proof.Machine

/-! ### Sensors (R419, R436). Numbers: 0 to 24 temperatures, 32 to 43 voltages, 64 to 72 ring oscillators -/

def sensorReg (d n : Nat) : Nat :=
  monPage d + if n < 32 then 0x100 + 4 * n else if n < 64 then 0x180 + 4 * (n - 32) else 0x1C0 + 4 * (n - 64)

/-- The reading register's valid bit. -/
def sensorValid (s : State) (d n : Nat) : Bool := bit (s.regN (sensorReg d n)) (if n < 64 then 16 else 24)

/-- A reading register's value; temperatures are signed. -/
def sensorValue (s : State) (d n : Nat) : Int :=
  let w := s.regN (sensorReg d n)
  if n < 32 then sx 16 (bits w 15 0) else if n < 64 then bits w 15 0 else bits w 23 0

/-- The PLDM sensor id (table PLDM sensors). -/
def sensorId (d n : Nat) : Nat :=
  0x100 * d + if n < 32 then 0x1000 + n else if n < 64 then 0x1040 + (n - 32) else 0x1060 + (n - 64)

def sensorKind (n : Nat) : Nat := n / 32
def sensorIndex (n : Nat) : Nat := n % 32

/-- All sensors of a die. -/
def allSensors : List Nat :=
  List.range 25 ++ (List.range 12).map (· + 32) ++ (List.range 9).map (· + 64)

/-- A sensor's PLDM event, unless the sensor is disabled (R436, R437) (DEDUCED, log 73). -/
def sensorEvent (d n st : Nat) (s : State) : State :=
  if s.mzm.disabled.contains (sensorId d n) then s else queueEvent (sensorId d n) st s

/-- The sensor record of the Colophon (table Colophon record types, 0x0E). -/
def sensorRecord (d n : Nat) (v : Int) (s : State) : State :=
  colAppend d 0x0E (leBytes (sensorKind n) 1 ++ leBytes (sensorIndex n) 1 ++ leBytes (toU 32 v) 4) s

def proofMode (s : State) (d : Nat) : Bool := s.flag (monPage d) Fld.MON_CTRL.proof

/-- A reading within the range of R422 (DEDUCED, log 88). -/
def plausible (n : Nat) (v : Int) : Bool :=
  if n < 32 then decide (-2560 ≤ v) && decide (v ≤ 9600) else if n < 64 then decide (0 ≤ v) && decide (v ≤ 20000) else true

/-- Warning and critical thresholds of a temperature sensor in 1/64 °C. -/
def thresholds (s : State) (d n : Nat) : Int × Int :=
  let b := monPage d
  if n < 9 then (64 * s.fld b Fld.MON_TEMP_THR.forme_warn, 64 * s.fld b Fld.MON_TEMP_THR.forme_crit)
  else if n < 13 then (64 * s.fld b Fld.MON_TEMP_THR.hbm_warn, 64 * s.fld b Fld.MON_TEMP_THR.hbm_crit)
  else (64 * s.fld b Fld.MON_PHASE_THR.warn, 64 * s.fld b Fld.MON_PHASE_THR.crit)

/-! ### Duty (R449) -/

/-- The duty that PWR_DUTY_OVR gives, 8 to 64. -/
def overrideDuty (s : State) : Nat :=
  if s.flag (powerPage 0) Fld.PWR_DUTY_OVR.en then max 8 (min 64 (s.fld (powerPage 0) Fld.PWR_DUTY_OVR.duty)) else 64

def frmOff (d f : Nat) : Nat := powerPage d + 0xA0 + 4 * f

/-- The least of the duties of a Forme goes into force (DEDUCED, log 90). -/
def applyDuty (d f : Nat) (s : State) : State :=
  let w := s.regN (frmOff d f)
  let duty := min (s.fld (powerPage 0) Fld.PWR_THROTTLE.power_duty) (min (bits w 21 15) (overrideDuty s))
  s.setRegN (frmOff d f) (putBits w 14 8 duty)

/-- A reading of a Forme's temperature moves its thermal duty; a critical one takes effect at once (DEDUCED, log 90). -/
def thermalStep (d f : Nat) (v : Int) (s : State) : State :=
  let w := s.regN (frmOff d f)
  let t := bits w 21 15
  let (warn, crit) := thresholds s d f
  if crit ≤ v then applyDuty d f (s.setRegN (frmOff d f) (putBits w 21 15 8))
  else
    let t := if warn ≤ v then max 8 (t - 4) else if v ≤ warn - 128 then min 64 (t + 1) else t
    s.setRegN (frmOff d f) (putBits w 21 15 t)

/-! ### Conversions (R421 to R423, R432) -/

/-- One threshold of R423: an event as a reading rises to it, again only after a fall of 2 °C below it (DEDUCED, log 90). -/
def crossing (d n level : Nat) (thr v : Int) (s : State) : State :=
  let k := 2 * n + level
  let m := s.mon d
  if thr ≤ v then
    if m.reached.contains k then s
    else
      let s := s.setMon d { m with reached := m.reached ++ [k] }
      sensorEvent d n (1 + level) (sensorRecord d n v (raiseEv (monPage d) level s))
  else if v ≤ thr - 128 then s.setMon d { m with reached := m.reached.filter (· != k) }
  else s

def crossings (d n : Nat) (v : Int) (s : State) : State :=
  let (warn, crit) := thresholds s d n
  crossing d n 1 crit v (crossing d n 0 warn v s)

/-- The histogram bin of a reading (table Colophon record types, 0x05 and 0x06): 13 bins from `lo` in steps, one on each
side (DEDUCED, log 87). -/
def histBin (v lo step : Int) : Nat := if v < lo then 0 else min 14 (1 + ((v - lo) / step).toNat)

/-- The histogram bin of a sample of sensor `n` (DEDUCED, log 87; DESIGN CHOICE, log 89). -/
def binOf (d n : Nat) (v : Int) : Nat :=
  if n < 32 then histBin v (64 * 30) (64 * 5) else histBin (v - Config.voltTarget d (n - 32)) (-350) 50

/-- Ticks of one reading (R421) (DEDUCED, log 87). -/
def readingTicks (proof : Bool) : Nat := if proof then 2 ^ 24 else 2 ^ 14

/-- A sensor found implausible or stuck (R422) (DEDUCED, log 88). -/
def badSensor (d n : Nat) (v : Int) (s : State) : State :=
  let m := s.mon d
  if m.bad.contains n then s
  else
    let s := s.setMon d { m with bad := m.bad ++ [n] }
    sensorEvent d n 3 (sensorRecord d n v (raiseEv (monPage d) 3 (s.bump (monPage d) 12 1)))

/-- A plausible, changing reading: thresholds and histogram (DEDUCED, log 88). -/
def goodSensor (d n : Nat) (v : Int) (proof : Bool) (s : State) : State :=
  let m := s.mon d
  let k := 16 * n + binOf d n v
  let m := { m with
    bad := m.bad.filter (· != n)
    proofSeen := if proof && !(m.proofSeen.contains n) then m.proofSeen ++ [n] else m.proofSeen
    bins := if n < 64 then SMap.set (fun _ => 0) m.bins k (SMap.get (fun _ => 0) m.bins k + readingTicks proof) else m.bins }
  (s.setMon d m).when (decide (n < 32)) (crossings d n v)

/-- A sensor's reading completes (DEDUCED, log 88). -/
def takeReading (d n : Nat) (r : Reading) (s : State) : State :=
  let m := s.mon d
  let proof := proofMode s d
  let old := SMap.get (fun _ => (0, 0)) m.last n
  let runs := (if old.2 != 0 && old.1 == r.raw then old.2 else 0) + if proof then 1024 else 1
  let good := plausible n r.value && decide (runs < 4096)
  let word := if n < 64 then toU 16 r.value + b2n good * 2 ^ 16 + b2n proof * 2 ^ 17
    else r.value.toNat % 2 ^ 24 + b2n good * 2 ^ 24 + b2n proof * 2 ^ 25
  let s := (s.setMon d { m with last := SMap.set (fun _ => (0, 0)) m.last n (r.raw, min runs 4096) }).setRegN (sensorReg d n) word
  let s := if good then goodSensor d n r.value proof s else badSensor d n r.value s
  s.when (decide (n < 9)) (fun s => thermalStep d n (if good then r.value else (thresholds s d n).1) s)

/-- EV_PROOF_READY once every valid sensor has a proof reading (R425) (DEDUCED, log 91). -/
def checkProof (d : Nat) (s : State) : State :=
  let m := s.mon d
  if proofMode s d && !m.proofReady && (allSensors.filter (sensorValid s d)).all m.proofSeen.contains then
    raiseEv (monPage d) 4 (s.setMon d { m with proofReady := true })
  else s

/-- SENSOR_CONVERSION: every sensor listed completes a reading. -/
def sensorConversion (d : Nat) (temps volts ros : List Reading) (s : State) : State :=
  let s := s.each (List.zip (List.range 25) temps) (fun x => takeReading d x.1 x.2)
  let s := s.each (List.zip (List.range 12) volts) (fun x => takeReading d (32 + x.1) x.2)
  checkProof d (s.each (List.zip (List.range 9) ros) (fun x => takeReading d (64 + x.1) x.2))

def execSensorConversion (d : Nat) (temps volts ros : List Reading) (s : State) : Host.Outcome State Fault Refusal :=
  .next (sensorConversion (d % 2) temps volts ros s)

/-! ### Proof mode and droop (R421, R424, R425) -/

/-- The mode changes: readings in progress are discarded, registers keep their content. -/
def setProof (d : Nat) (on : Bool) (s : State) : State :=
  if proofMode s d == on then s
  else
    let s := s.setFlag (monPage d) Fld.MON_CTRL.proof on
    if on then s.setMon d { s.mon d with proofSeen := [], proofReady := false } else s

/-- A write that the physical function and Muzomus make; another function's is refused. -/
def pfOrMzm (fn off : Nat) (act : State → State) (s : State) : State := guarded fn off (fn == 0 || fn == mzmFn) act s

def execProofModeWrite (fn d : Nat) (v : Word) (s : State) : Host.Outcome State Fault Refusal :=
  .next (posted fn (.proofModeWrite fn d v) (fun s => pfOrMzm fn (monPage (d % 2) + 0x80) (setProof (d % 2) (bit v.toNat 0)) s) s)

/-- The droop depth and the least number of array cycles below it (MON_DROOP_CFG): 0 acts as 1. -/
def droopDepth (s : State) (d : Nat) : Nat := max 1 (s.fld (monPage d) Fld.MON_DROOP_CFG.thr_mv)
def droopWidth (s : State) (d : Nat) : Nat := max 1 (s.fld (monPage d) Fld.MON_DROOP_CFG.width)

/-- DROOP: the supply of domain `i` has been `mv` below its target for `cycles` consecutive array cycles (R424). -/
def droop (d i mv cycles : Nat) (s : State) : State :=
  let m := s.mon d
  if 12 ≤ i then s
  else if m.droops.contains i then
    if 2 * mv ≤ droopDepth s d then s.setMon d { m with droops := m.droops.filter (· != i) } else s
  else if droopDepth s d < mv && droopWidth s d ≤ cycles then
    raiseEv (monPage d) 2 ((s.setMon d { m with droops := m.droops ++ [i] }).bump (monPage d) i 1)
  else s

def execDroop (d : Nat) (k : Droop) (s : State) : Host.Outcome State Fault Refusal := .next (droop (d % 2) k.dom k.mv k.cycles s)

/-! ### Tests (R426 to R429, R453) -/

/-- The Chases of a Forme. -/
def formeChases (d f : Nat) : List Nat := (List.range 128).map (fun i => chaseAt d (128 * f + i))

/-- A command is outstanding in a Forme. -/
def formeBusy (s : State) (d f : Nat) : Bool :=
  s.units.any (fun u => pathLevel u.1 ≤ 2 && contains (formePath d f) u.1 && !u.2.q.isEmpty) ||
  (formeChases d f).any (fun ch => !(s.core ch).outq.isEmpty)

/-- Muzomus holds the supply setpoint (R453). -/
def vsetHeld (s : State) : Bool := s.fld (powerPage 0) Fld.PWR_OWN.vset_owner == 2

/-- Why a start that the word `v` of MON_MARGIN_CMD asks for is refused (R427, R453); OK otherwise (DEDUCED, log 94). -/
def testRefused (s : State) (d v : Nat) : Nat :=
  let f := bits v 3 0
  if 9 ≤ f || 2 ≤ bits v 5 4 then stFormat
  else if !(s.mon d).proofReady || (s.mon d).test.isSome || (formeChases d f).any (fun ch => (s.core ch).run != .halted) ||
      formeBusy s d f || vsetHeld s then stConflict
  else stOk

/-- A test starts on the named Forme, which is woken first (DEDUCED, log 94). -/
def startTest (d : Nat) (s : State) : State :=
  let b := monPage d
  let f := s.fld b Fld.MON_MARGIN_CMD.forme
  if formeState s (formePath d f) = 3 then hostWakeFail (formePath d f) s
  else
    let s := startWake (formePath d f) 10 modulePath s
    let t : MonTest := ⟨f, s.fld b Fld.MON_MARGIN_CMD.kind, max 1 (s.fld b Fld.MON_MARGIN_CMD.step_mv)⟩
    let s := s.setFlag b Fld.MON_MARGIN_CMD.busy true
    (s.setFld (powerPage 0) Fld.PWR_OWN.vset_owner 3).setMon d { s.mon d with test := some t }

/-- A write of MON_MARGIN_CMD: a refused start stores nothing, and one refused for the setpoint's sake is logged in the page
that holds its owner (R427, R453) (DEDUCED, log 94). -/
def writeMarginCmd (d v : Nat) (s : State) : State :=
  let code := testRefused s d v
  if bit v 11 && code != stOk then
    (s.setFld (monPage d) Fld.MON_MARGIN_RESULT.status code).when (code == stConflict && vsetHeld s) (logStatus (powerPage 0) stConflict)
  else (s.setRegN (monPage d + 0x90) (putBits (s.regN (monPage d + 0x90)) 10 0 (bits v 10 0))).when (bit v 11) (startTest d)

def execMarginStart (fn d : Nat) (v : Word) (s : State) : Host.Outcome State Fault Refusal :=
  .next (posted fn (.marginStart fn d v) (fun s => ownerWrite fn (monPage (d % 2)) 0x90 (writeMarginCmd (d % 2) v.toNat) s) s)

/-- Free values for the credit counters of a core (DESIGN CHOICE, log 93). -/
def freeCredits : Nat → CoreSt → State → CoreSt × State
  | 0, c, s => (c, s)
  | n + 1, c, s => let (v, s) := s.takeFree; freeCredits n (c.setCredit n (v % 65536)) s

/-- A token table with free content (DESIGN CHOICE, log 93). -/
def freeToks : Nat → State → List TokEnt × State
  | 0, s => ([], s)
  | n + 1, s =>
    let (a, s) := s.takeFree
    let (b, s) := s.takeFree
    let (l, s) := freeToks n s
    (if l.any (fun e => e.stream == a % 65536) then l
     else ⟨a % 65536, b % 2 ^ 32, bit b 32, bits b 64 33⟩ :: l, s)

/-- A self-test leaves the memories, token table and credit counters of a Chase with undefined content, its core halted
(R426) (DESIGN CHOICE, log 93). -/
def testChase (ch : Nat) (s : State) : State :=
  let s := (s.scramble (imemBase ch) 32768).scramble (chaseStore ch) 262144
  let (n, s) := s.takeFree
  let (toks, s) := freeToks (n % 65) s
  let (c, s) := freeCredits 16 (s.core ch) s
  (s.setUnit ch { s.unit ch with toks := toks }).setCore ch { c with run := .halted, stall := 0 }

/-- The Galley still has its spare (R34) (DEDUCED, log 108). -/
def spareLeft (s : State) (d g : Nat) : Bool := repairByte s d g == 0x1F

/-- A Chase that failed at the nominal supply: its position stays fenced until the next power-on (R429) (DEDUCED, log 108). -/
def fenceFailed (d : Nat) (s : State) (i : Nat) : State :=
  let ch := chaseAt d i
  let k := (d * 72 + i / 16) * 17 + physOf (repairByte s d (i / 16)) (i % 16)
  let s := { s with mzm := { s.mzm with fences := if s.mzm.fences.contains k then s.mzm.fences else s.mzm.fences ++ [k] } }
  let s := s.setFlag (unitPage ch) Fld.CHS_PATH.fenced true
  s.when (!(spareLeft s d (i / 16))) (fun s => s.setFlag (unitPage (galleyOf ch)) Fld.GLY_REPAIR.degraded true)

/-- The repair bytes for Galleys that still have their spare: the first failed Chase of each (DEDUCED, log 108). -/
def newRepairs (s : State) (d : Nat) (failed : List Nat) : List (Nat × Nat) :=
  failed.foldl (fun l i =>
    if spareLeft s d (i / 16) && !(l.any (fun x => x.1 == i / 16)) then l ++ [(i / 16, i % 16)] else l) []

/-- The margin record (table Colophon record types, 0x04) (DESIGN CHOICE, log 75; DEDUCED, log 92). -/
def marginRecord (s : State) (d : Nat) (t : MonTest) : List (BitVec 8) :=
  leBytes (s.regN (monPage d + 0x94)) 4 ++ leBytes t.forme 1 ++ leBytes t.step 1 ++
    leBytes (bits (s.regN (sensorReg d (64 + t.forme))) 23 0) 4 ++ leBytes (bits (s.regN (sensorReg d t.forme)) 15 0) 2

/-- The state of sensor 0x2002 for a die: 0 normal, 1 proof, 2 ready. -/
def proofState (s : State) (d : Nat) : Nat := if proofMode s d then (if (s.mon d).proofReady then 2 else 1) else 0

/-- The test that ran last was made at `mv` below nominal; a Chase that it found is in `failed` (R426 to R429) (DEDUCED, log 92). -/
def endTest (d mv : Nat) (failed : List Nat) (t : MonTest) (s : State) : State :=
  let b := monPage d
  let margin := if failed.isEmpty then mv else (mv - 1) / t.step * t.step
  let nominal := !failed.isEmpty && mv == 0
  let s := s.each (formeChases d t.forme) testChase
  let s := s.when nominal (fun s => s.each failed (fun i s => fenceFailed d s i))
  let s := s.setRegN (b + 0x94)
    (margin * 2 ^ 8 + failed.headD 0 * 2 ^ 16 + b2n (!failed.isEmpty) * 2 ^ 27 + b2n nominal * 2 ^ 28)
  let s := s.setFlag b Fld.MON_MARGIN_CMD.busy false
  let s := s.setMon d { s.mon d with test := none }
  let s := s.when ((s.mon 0).test.isNone && (s.mon 1).test.isNone) (fun s => s.setFld (powerPage 0) Fld.PWR_OWN.vset_owner 0)
  let s := raiseEv b 5 (s.bump b 13 1)
  let s := queueEvent 0x2002 (proofState s d) (colAppend d 0x04 (marginRecord s d t) s)
  s.when nominal (writeRepairs d (newRepairs s d failed))

/-- A test may end at `mv` below nominal: a self-test at nominal; a margin test at a step that failed, or at its last step
(R426) (DEDUCED, log 92). -/
def endsAt (t : MonTest) (mv : Nat) (failed : List Nat) : Bool :=
  if t.kind = 0 then mv == 0
  else mv % t.step == 0 && decide (mv ≤ 150) && (!failed.isEmpty || decide (150 < mv + t.step))

/-- MARGIN_DONE (DEDUCED, log 92). -/
def marginDone (d mv : Nat) (failed : List Nat) (s : State) : State :=
  match (s.mon d).test with
  | some t =>
    if endsAt t mv failed && formeOn s (formePath d t.forme) && failed.all (fun i => i / 128 == t.forme) then endTest d mv failed t s
    else s
  | none => s

def execMarginDone (d mv : Nat) (failed : List Nat) (s : State) : Host.Outcome State Fault Refusal :=
  .next (marginDone (d % 2) mv failed s)

/-! ### The Colophon (R432 to R435, R439) -/

/-- A type of the table Colophon record types. -/
def colType (t : Nat) : Bool := (decide (1 ≤ t) && decide (t ≤ 0x0F)) || t == 0xF0

/-- COLOPHON_APPEND. -/
def execColophonAppend (d type : Nat) (payload : List Byte) (s : State) : Host.Outcome State Fault Refusal :=
  .next (if colType type then colAppend (d % 2) type payload s else s)

/-- Counts that the summary records report for a die: corrected in HBM, bulk, SRAM; then for each port corrected and
uncorrectable codewords, retrains and DOWN entries (DESIGN CHOICE, log 75; DEDUCED, log 76). -/
def summaryTotals (s : State) (d : Nat) : List Nat :=
  let cnt := fun (base i : Nat) => s.regN (base + 0x30 + 4 * i)
  [(List.range 8).foldl (fun n c => n + cnt (hbmPage (8 * d + c)) 0) 0, cnt bulkPage 0,
   (List.range 1152).foldl (fun n i => n + cnt (unitPage (chaseAt d i)) 16) s.cask.eccCorr] ++
  ((List.range 8).map (fun p => [cnt (portPage (8 * d + p)) 0, cnt (portPage (8 * d + p)) 1, cnt (portPage (8 * d + p)) 6,
    cnt (portPage (8 * d + p)) 7])).flatten

/-- A sensor's histogram as 15 bins of 2 bytes, in seconds (DESIGN CHOICE, log 75). -/
def histBytes (m : MonSt) (n : Nat) : List (BitVec 8) :=
  ((List.range 15).map (fun b => leBytes (min 65535 (SMap.get (fun _ => 0) m.bins (16 * n + b) / 1062500000)) 2)).flatten

/-- The summary and histogram records of a die (DEDUCED, log 76). -/
def periodic (d : Nat) (s : State) : State :=
  let s := s.each (List.range 8) (fun p => advanceFree (portPage (8 * d + p) + 0x30))
  let m := s.mon d
  let now := summaryTotals s d
  let c := fun (i : Nat) => (now.getD i 0 + 2 ^ 40 - m.base.getD i 0) % 2 ^ 32
  let s := colAppend d 0x02 (leBytes (c 0) 8 ++ leBytes (c 1) 8 ++ leBytes (c 2) 8 ++ leBytes (Config.mgmtField 0 s.free) 8) s
  let s := s.each (List.range 25) (fun n => colAppend d 0x05 (leBytes n 1 ++ histBytes m n))
  let s := s.each (List.range 12) (fun n => colAppend d 0x06 (leBytes n 1 ++ histBytes m (32 + n)))
  let s := s.each (List.range 8) (fun p =>
    colAppend d 0x07 (leBytes (8 * d + p) 1 ++ leBytes (c (3 + 4 * p)) 8 ++ leBytes (c (4 + 4 * p)) 8 ++
      leBytes (c (5 + 4 * p)) 4 ++ leBytes (c (6 + 4 * p)) 4))
  (s.setMon d { m with bins := [], base := now }).takeFree.2

/-- COLOPHON_PERIODIC. -/
def execColophonPeriodic (s : State) : Host.Outcome State Fault Refusal := .next (periodic 1 (periodic 0 s))

def colSel (s : State) : Nat := s.fld cellarPage Fld.CLR_SEL.die

/-- Record `n` of a die is not there: never written, or written over since (R433, R439) (DEDUCED, log 77). -/
def colGone (s : State) (d n : Nat) : Bool :=
  decide ((s.col d).next ≤ n) || (decide (colBirth ≤ n) && decide (n + (colRecs - colBirth) < (s.col d).next))

/-- The record at a place is bad (R435). -/
def colBad (s : State) (a : Nat) : Bool := s.badIn a 64 || crc32c (s.bytes a 60) != s.num (a + 60) 4

/-- Free values in CLR_RD_DATA from word `i` down (DEDUCED, log 77). -/
def freeData : Nat → State → State
  | 0, s => s
  | i + 1, s => let (v, s) := s.takeFree; freeData i (s.setRegN (cellarPage + 0x120 + 4 * i) (v % 2 ^ 32))

/-- Record `n` of die `d` goes into CLR_RD_DATA; a page that cannot be corrected is an uncorrectable event (R432, R435, R439)
(DEDUCED, log 77). -/
def readRecord (d n : Nat) (s : State) : State :=
  if colGone s d n then (freeData 16 s).setFlag cellarPage Fld.CLR_STATUS.rd_bad true
  else
    let a := colAddr d n
    let s' := s.each (List.range 16) (fun i s' => s'.setRegN (cellarPage + 0x120 + 4 * i) (s.num (a + 4 * i) 4))
    (s'.setFlag cellarPage Fld.CLR_STATUS.rd_bad (colBad s a)).when (s.badIn a 64)
      (colAppend d 0x03 (leBytes 3 1 ++ leBytes (a - cellarBase) 8 ++ leBytes 0 1))

/-- A read or a note is in progress: CLR_STATUS.rd_busy. -/
def clrBusy (s : State) : Bool := s.mzm.clrRd.isSome || s.mzm.clrNote

/-- CLR_CMD.read: a busy Cellar makes it wait (DEDUCED, log 77). -/
def clrRead (s : State) : State :=
  let d := colSel s
  let n := s.reg64 (cellarPage + 0x114)
  if cellarBusy s then { s with mzm := { s.mzm with clrRd := some (d, n) } } else readRecord d n s

/-- CLR_CMD.append: in progress until the note leaves the queue (DEDUCED, log 77). -/
def clrAppend (s : State) : State :=
  let s := colAppend (colSel s) 0xF0 (((List.range 8).map (fun i => leBytes (s.regN (cellarPage + 0x160 + 4 * i)) 4)).flatten) s
  if (s.col (colSel s)).queue.isEmpty then s else { s with mzm := { s.mzm with clrNote := true } }

/-- A write of CLR_CMD: ignored and logged while a read or a note of an earlier write is in progress (R439, R539). -/
def clrCmd (v : Nat) (s : State) : State :=
  if v % 4 = 0 then s
  else if clrBusy s then logStatus cellarPage stConflict s
  else (s.when (bit v 0) clrRead).when (bit v 1) clrAppend

/-- The Cellar is free again: queued records go out, then a read that waits (R434, R439) (DEDUCED, log 77). -/
def cellarFree (s : State) : State :=
  let s := colFlush 1 (colFlush 0 s)
  if cellarBusy s then s
  else
    let s := match s.mzm.clrRd with
      | some x => readRecord x.1 x.2 { s with mzm := { s.mzm with clrRd := none } }
      | none => s
    { s with mzm := { s.mzm with clrNote := false } }

def execClrRead (fn : Nat) (s : State) : Host.Outcome State Fault Refusal :=
  .next (posted fn (.clrRead fn) (fun s => ownerWrite fn cellarPage 0x11C (clrCmd 1) s) s)
def execClrAppend (fn : Nat) (s : State) : Host.Outcome State Fault Refusal :=
  .next (posted fn (.clrAppend fn) (fun s => ownerWrite fn cellarPage 0x11C (clrCmd 2) s) s)

end Sys2Proof.Machine
end

