-- ==== Sys2Proof/Machine/Power.lean ====
section
/-! DEFINITION. The power controller: gating and wakes of Formes (R444 to R448), duties, caps and throttling (R442, R449 to R451),
power shares (R452) and owners of shared resources (R453). -/

namespace Sys2Proof.Machine

/-! ### Gating (R444, R445) -/

/-- A Chase is quiet (DEDUCED, log 127). -/
def chaseQuiet (s : State) (ch : Nat) : Bool :=
  let c := s.core ch
  (c.run == .waiting || c.run == .halted) && slotsUsed s ch == 0 && c.outq.isEmpty && (s.arr ch).colBanks == 0 &&
    (s.arr ch).rowBanks == 0

/-- A Tile in a store of the Forme is in transit or claimed (DEDUCED, log 127). -/
def tileHeld (s : State) (u : Nat) : Bool :=
  s.tiers.regions.any (fun r => (List.range r.2.tiles).any (fun j =>
    let e := tileState s ⟨r.1, r.2, j⟩
    decide (tsTier e ≤ 1) && contains u (bits (tsLoc e) 15 0) && (tsTransit e || tsClaims e != 0)))

/-- Every condition of R444 holds for a Forme (DEDUCED, log 127). -/
def mayClockGate (s : State) (d f : Nat) : Bool :=
  let u := formePath d f
  let galleys := members u
  (formeChases d f).all (chaseQuiet s) && galleys.all (fun g => (outstandingAt s g).isEmpty) && !(tileHeld s u) &&
    galleys.all (fun g => !(s.tab (g * 2)).building && !(s.tab (g * 2 + 1)).building) && !(formeTested s u) &&
    !(bit (s.regN (frmOff d f)) 1)

def setFormeState (d f st : Nat) (s : State) : State := s.setRegN (frmOff d f) (putBits (s.regN (frmOff d f)) 5 4 st)

/-- FORME_CLOCK_GATE (DEDUCED, log 127). -/
def formeClockGate (d f : Nat) (s : State) : State :=
  if f < 9 && formeState s (formePath d f) == 0 && mayClockGate s d f then setFormeState d f 1 s else s

def execFormeClockGate (d f : Nat) (s : State) : Host.Outcome State Fault Refusal := .next (formeClockGate (d % 2) f s)

/-- Every condition of R445 holds for a Forme. -/
def mayPowerGate (s : State) (d f : Nat) : Bool :=
  let w := s.regN (frmOff d f)
  bit w 0 && !(bit w 1) && !(bit w 6) &&
    (formeChases d f).all (fun ch => depthNow s ch == 2)

/-- The array is unconfigured again; its counters stay (R99, R445). -/
def unconfigure (ch : Nat) (s : State) : State :=
  let y := s.arr ch
  s.setArr ch { ArrSt.reset with
    bsrIdle := y.bsrIdle, bsrBundles := y.bsrBundles, due := y.due, bundles := y.bundles, holds := y.holds, vecDue := y.vecDue }

/-- FORME_POWER_GATE. -/
def formePowerGate (d f : Nat) (s : State) : State :=
  if f < 9 && formeState s (formePath d f) == 1 && mayPowerGate s d f then
    (setFormeState d f 2 s).each (formeChases d f) unconfigure
  else s

def execFormePowerGate (d f : Nat) (s : State) : Host.Outcome State Fault Refusal := .next (formePowerGate (d % 2) f s)

/-! ### Wakes (R446 to R448) -/

/-- A source of the table Wake sources (DEDUCED, log 96). -/
def wakeCode (k : Nat) : Bool := decide (1 ≤ k) && decide (k ≤ 12)

/-- FORME_WAKE: an access of a source reaches a gated Forme. -/
def execFormeWake (d f source path : Nat) (s : State) : Host.Outcome State Fault Refusal :=
  .next (if f < 9 && wakeCode source && validPath path then startWake (formePath (d % 2) f) source path s else s)

/-- A Forme leaves WAKE_FAIL with a new wake, from the state that it was gated in (R448) (DEDUCED, log 96). -/
def retryWake (d f source : Nat) (s : State) : State :=
  if formeState s (formePath d f) = 3 then
    let old := SMap.get (fun _ => 0) s.wakeFrom (d * 16 + f)
    startWake (formePath d f) source modulePath (setFormeState d f (if old = 0 then 1 else old) s)
  else s

/-- A write of PWR_FRM: its RW fields, a wake by force_on, then retry. -/
def writeFrm (d f v source : Nat) (s : State) : State :=
  let s := s.setRegN (frmOff d f) (putBits (s.regN (frmOff d f)) 1 0 (bits v 1 0))
  let s := s.when (bit v 1) (startWake (formePath d f) 12 modulePath)
  s.when (bit v 2) (retryWake d f source)

def execFormeWakeRetry (fn d f : Nat) (s : State) : Host.Outcome State Fault Refusal :=
  .next (posted fn (.formeWakeRetry fn d f) (fun s =>
    if f < 9 then ownerWrite fn (powerPage (d % 2)) (0xA0 + 4 * f) (retryWake (d % 2) f (hostSource fn)) s else s) s)

def execForceOnWrite (fn d f : Nat) (v : Word) (s : State) : Host.Outcome State Fault Refusal :=
  .next (posted fn (.forceOnWrite fn d f v) (fun s =>
    if f < 9 then ownerWrite fn (powerPage (d % 2)) (0xA0 + 4 * f) (writeFrm (d % 2) f v.toNat (hostSource fn)) s else s) s)

/-! ### Limits and duties (R442, R449 to R451) -/

/-- A cap as it acts: 500 W to 3,000 W. -/
def capOf (v : Nat) : Nat := max 500 (min 3000 v)

/-- Sustained and peak limit in units of 10 mW (R442). -/
def sustained (s : State) : Nat :=
  min (100 * min (capOf (s.fld (powerPage 0) Fld.PWR_CAP_HOST.cap_w)) (capOf (s.fld (powerPage 0) Fld.PWR_CAP_MGMT.cap_w)))
    (50 * s.power.volts)
def peak (s : State) : Nat := min 360000 (60 * s.power.volts)

/-- The new power duty and burst credit (table Power duty), and whether a credit is regained toward (DEDUCED, log 133). -/
def powerStep (duty burst p sus pk : Nat) : Nat × Nat × Bool :=
  let lim := fun (n : Nat) => max 8 (min 64 n)
  if pk < 100 * p then (lim (duty * pk / (100 * p)), burst, false)
  else if sus < 100 * p then
    if burst = 0 then (lim (duty * sus / (100 * p)), 0, false) else (lim duty, burst - 1, false)
  else if 100 * p + 5000 ≤ sus then (lim (duty + 1), burst, true)
  else (lim duty, burst, true)

/-- Every Forme's duty follows (DEDUCED, log 133). -/
def applyAll (s : State) : State := s.each [0, 1] (fun d s => s.each (List.range 9) (fun f => applyDuty d f))

/-- Some Forme of a die has a thermal duty below 64. -/
def thermalLow (s : State) (d : Nat) : Bool := (List.range 9).any (fun f => decide (bits (s.regN (frmOff d f)) 21 15 < 64))

/-- The draw of an interval at duty 8 is above the limit (R451). -/
def unmet (s : State) (p duty : Nat) : Bool := duty == 8 && decide (sustained s < 100 * p) && s.fld (powerPage 0) Fld.PWR_THROTTLE.burst == 0

/-- Counters and events of the module stand in the power page of each die (R455). -/
def bothPower (f : Nat → State → State) (s : State) : State := s.each [0, 1] (fun d => f (powerPage d))

/-- POWER_INTERVAL: one interval of 1,024 ticks with draw `p` (DEDUCED, log 133). -/
def powerInterval (p avg : Nat) (s : State) : State :=
  let b := powerPage 0
  let s := s.each [0, 1] (fun d s => s.setRegN (powerPage d + 0x84) (min p 4095 + min avg 4095 * 2 ^ 16))
  let old := s.fld b Fld.PWR_THROTTLE.power_duty
  let (duty, burst, gain) := powerStep old (s.fld b Fld.PWR_THROTTLE.burst) p (sustained s) (peak s)
  let regain := if gain then s.power.regain + 1 else s.power.regain
  let burst := if 9 ≤ regain then min 10376 (burst + 1) else burst
  let s := { s with power := { s.power with regain := regain % 9 } }
  let s := (s.setFld b Fld.PWR_THROTTLE.power_duty duty).setFld b Fld.PWR_THROTTLE.burst burst
  let s := s.when (decide (duty < 64)) (bothPower (fun b s => s.bump b 3 1))
  let s := s.when (old == 64 && decide (duty < 64)) (bothPower (raiseEv · 0))
  let s := s.when (decide (peak s < 100 * p)) (bothPower (fun b s => s.bump b 6 1))
  let s := s.each [0, 1] (fun d s => s.when (thermalLow s d) (fun s => s.bump (powerPage d) 4 1))
  let low := unmet s p old
  let s := s.when (low && !(s.flag b Fld.PWR_THROTTLE.cap_unmet)) (bothPower (raiseEv · 3))
  applyAll (s.setFlag b Fld.PWR_THROTTLE.cap_unmet low)

def execPowerInterval (watts avg10ms : Nat) (s : State) : Host.Outcome State Fault Refusal := .next (powerInterval watts avg10ms s)

/-- A cap is written; lowered below the present draw, it ends the burst (R451). -/
def setCap (o v : Nat) (s : State) : State :=
  let old := capOf (bits (s.regN (powerPage 0 + o)) 11 0)
  let new := capOf (bits v 11 0)
  let s' := s.setRegN (powerPage 0 + o) (bits v 11 0)
  if new < old && decide (new < s.fld (powerPage 0) Fld.PWR_DRAW.p_int) then s'.setFld (powerPage 0) Fld.PWR_THROTTLE.burst 0 else s'

/-- What COOLANT_N does to PWR_CAP_MGMT: with cool_act the cap is cool_cap while the pin is low, and the earlier value once it is
high (R500) (DEDUCED, log 134). -/
def coolantAct (s : State) : State :=
  let low := !(s.flag mzmPage Fld.MZM_GPIO_STATUS.coolant_n)
  if low && s.flag mzmPage Fld.MZM_COOLANT_CFG.cool_act then
    let old := s.mzm.coolSaved.getD (s.regN (powerPage 0 + 0x8C))
    setCap 0x8C (s.fld mzmPage Fld.MZM_COOLANT_CFG.cool_cap) { s with mzm := { s.mzm with coolSaved := some old } }
  else
    match low, s.mzm.coolSaved with
    | false, some v => setCap 0x8C v { s with mzm := { s.mzm with coolSaved := none } }
    | _, _ => s

/-- CAP_WRITE: PWR_CAP_MGMT accepts writes from Muzomus only. -/
def execCapWrite (fn : Nat) (mgmt : Bool) (v : Word) (s : State) : Host.Outcome State Fault Refusal :=
  .next (posted fn (.capWrite fn mgmt v) (fun s =>
    if mgmt then guarded fn (powerPage 0 + 0x8C) (fn == mzmFn) (setCap 0x8C v.toNat) s
    else ownerWrite fn (powerPage 0) 0x88 (setCap 0x88 v.toNat) s) s)

/-! ### Power shares (R452) -/

/-- Power share of a job (DEDUCED, log 95). -/
def shareOfJob (s : State) (j : Nat) : Nat := SMap.get (fun _ => 0) s.power.shares j
/-- Power used by a job (DEDUCED, log 95). -/
def useOfJob (s : State) (j : Nat) : Nat := SMap.get (fun _ => 0) s.power.uses j

/-- A job's use in the present window is above the share in force for it (R452). -/
def overShare (s : State) (u : Nat × Nat) : Bool :=
  let share := SMap.get (fun _ => 0) s.power.inForce u.1
  decide (0 < share) && decide (share < u.2)

/-- SHARE_WINDOW: the use of each job in the present window, in units of 1/256 of the limit over the window. While it runs, a
job above its share is held back; its end frees every job and brings the shares as written into force (DEDUCED, log 95). -/
def shareWindow (uses : List (Nat × Nat)) (ended : Bool) (s : State) : State :=
  let m := uses.foldl (fun (m : SMap Nat) u => SMap.set (fun _ => 0) m (u.1 % 4096) u.2) []
  if ended then { s with power := { s.power with uses := m, deferred := [], inForce := s.power.shares, present := [] } }
  else
    let heavy := (m.filter (overShare s)).map (·.1)
    { s with power := { s.power with present := m, deferred := s.power.deferred ++ heavy.filter (fun j => !s.power.deferred.contains j) } }

def execShareWindow (u : ShareUses) (s : State) : Host.Outcome State Fault Refusal := .next (shareWindow u.uses u.ended s)

def shareIdx (s : State) : Nat := s.fld (powerPage 0) Fld.PWR_SHARE_IDX.job

/-- PWR_SHARE_CMD.load. -/
def shareLoad (s : State) : State :=
  let j := shareIdx s
  s.setRegN (powerPage 0 + 0xD4) (shareOfJob s j + min 255 (useOfJob s j) * 2 ^ 8 + b2n (s.power.deferred.contains j) * 2 ^ 16)

/-- PWR_SHARE_CMD.commit: a share below the job's present use waits for the next window (R452) (DEDUCED, log 95). -/
def shareCommit (s : State) : State :=
  let j := shareIdx s
  let v := s.fld (powerPage 0) Fld.PWR_SHARE_DATA.share
  let waits := decide (0 < v) && decide (v < SMap.get (fun _ => 0) s.power.present j)
  { s with power := { s.power with
      shares := SMap.set (fun _ => 0) s.power.shares j v,
      inForce := if waits then s.power.inForce else SMap.set (fun _ => 0) s.power.inForce j v } }

def execShareLoad (fn : Nat) (s : State) : Host.Outcome State Fault Refusal :=
  .next (posted fn (.shareLoad fn) (fun s => ownerWrite fn (powerPage 0) 0xD8 shareLoad s) s)
def execShareCommit (fn : Nat) (s : State) : Host.Outcome State Fault Refusal :=
  .next (posted fn (.shareCommit fn) (fun s => pfWrite fn (powerPage 0 + 0xD8) shareCommit s) s)

/-! ### Owners (R453) -/

/-- The owner code of an accessor: 1 physical function, 2 Muzomus. -/
def ownerCode (fn : Nat) : Nat := if fn = mzmFn then 2 else 1

/-- A claim of a shared resource: free or held by the claimer already, else refused. -/
def claim (base : Nat) (f : Fld) (code : Nat) (s : State) : State :=
  if s.fld base f == 0 || s.fld base f == code then s.setFld base f code else logStatus base stConflict s

def releaseOwn (base : Nat) (f : Fld) (code : Nat) (s : State) : State := if s.fld base f == code then s.setFld base f 0 else s

def claimDuty (fn : Nat) (s : State) : State := claim (powerPage 0) Fld.PWR_OWN.duty_owner (ownerCode fn) s
def releaseDuty (fn : Nat) (s : State) : State := releaseOwn (powerPage 0) Fld.PWR_OWN.duty_owner (ownerCode fn) s
def claimVset (s : State) : State := claim (powerPage 0) Fld.PWR_OWN.vset_owner 2 s
def releaseVset (s : State) : State := releaseOwn (powerPage 0) Fld.PWR_OWN.vset_owner 2 s

/-- A write that Muzomus alone makes. -/
def mzmWrite (fn off : Nat) (act : State → State) (s : State) : State := guarded fn off (fn == mzmFn) act s

def execClaimDuty (fn : Nat) (s : State) : Host.Outcome State Fault Refusal :=
  .next (posted fn (.claimDuty fn) (fun s => pfOrMzm fn (powerPage 0 + 0x98) (claimDuty fn) s) s)
def execReleaseDuty (fn : Nat) (s : State) : Host.Outcome State Fault Refusal :=
  .next (posted fn (.releaseDuty fn) (fun s => pfOrMzm fn (powerPage 0 + 0x98) (releaseDuty fn) s) s)
def execClaimVset (fn : Nat) (s : State) : Host.Outcome State Fault Refusal :=
  .next (posted fn (.claimVset fn) (fun s => mzmWrite fn (powerPage 0 + 0x98) claimVset s) s)
def execReleaseVset (fn : Nat) (s : State) : Host.Outcome State Fault Refusal :=
  .next (posted fn (.releaseVset fn) (fun s => mzmWrite fn (powerPage 0 + 0x98) releaseVset s) s)

/-- A write of PWR_DUTY_OVR: its owner's only (R453). -/
def writeDutyOvr (fn v : Nat) (s : State) : State :=
  if s.fld (powerPage 0) Fld.PWR_OWN.duty_owner == ownerCode fn then s.setRegN (powerPage 0 + 0x94) (bits v 7 0)
  else logStatus (powerPage 0) stConflict s

end Sys2Proof.Machine
end

