-- ==== Sys2Proof/Machine/Boot.lean ====
section
/-! DEFINITION. Resets and what they keep (R457 to R463), the input voltage (R440), start-up (R466 to R472), Muzomus's start (R473,
R474) and the die-to-die bridge (R41, R42). -/

namespace Sys2Proof.Machine

/-! ### FAULT_N (R500) -/

/-- The fixed sources of FAULT_N: STANDBY, storm hold, opt_err, recovery. -/
def faultSources (s : State) : Nat :=
  b2n (s.power.vin == 1) + b2n (bit s.mzm.stormReg 8) * 2 + b2n s.mzm.optErr * 4 +
    b2n (s.flag mzmPage Fld.MZM_STATUS.recovery) * 8

/-- FAULT_N follows its sources. -/
def refreshFault (s : State) : State :=
  let src := faultSources s
  let low := src != 0 || s.flag mzmPage Fld.MZM_GPIO_OWN.sw_fault
  (s.setFld mzmPage Fld.MZM_GPIO_STATUS.fault_src src).setFlag mzmPage Fld.MZM_GPIO_STATUS.fault_n (!low)

/-! ### What a reset keeps (R459, R463) -/

/-- Kinds of reset. -/
def kPowerOn : Nat := 0
def kCold : Nat := 1
def kModule : Nat := 2

/-- A memory key of the Cellar or the SPI NOR (DEDUCED, log 106). -/
def keptKey (a : Nat) : Bool := (decide (2 ^ 54 ≤ a) && decide (a < 2 ^ 55)) || (decide (2 ^ 56 ≤ a) && decide (a < 2 ^ 57))

/-- A register that a cold or module reset keeps: of the Muzomus or Cellar page, beyond the common words and the counters
(R459, R532) (DEDUCED, log 106). -/
def keptReg (off : Nat) : Bool :=
  decide (0x80 ≤ off % 0x1000) && (decide (off / 0x1000 = mzmPage / 0x1000) || decide (off / 0x1000 = cellarPage / 0x1000))

/-- The registers of a domain off the dies, less the Cask writer's state (DEDUCED, log 106). -/
def keptRegs (s : State) : SMap Word :=
  let l : SMap Word := List.filter (fun (e : Nat × Word) => keptReg e.1) s.regs
  SMap.erase l (cellarPage + 0x84)

/-- The Cask side after a reset of the dies: complete slots and copies and the serial number stay, the writer has stopped, and
the floor interval begins again with fabric time (R382, R463) (DEDUCED, log 106). -/
def keptCask (c : CaskSt) : CaskSt :=
  { CaskSt.reset with
    slotA := c.slotA, slotB := c.slotB, alarms := c.alarms, mirrored := c.mirrored, copies := c.copies, serial := c.serial }

/-- CSK_STATUS, CSK_SERIAL and CSK_STEP show the slots that the Cellar has kept (R371, R459) (DEDUCED, log 106). -/
def showCask (s : State) : State :=
  let s := s.setFld cellarPage Fld.CSK_STATUS.complete (b2n s.cask.slotA.isSome + 2 * b2n s.cask.slotB.isSome)
  match newestSlot s with
  | some k =>
    match slotImg s k with
    | some i => ((s.setFld cellarPage Fld.CSK_STATUS.newest k).setReg64 (cellarPage + 0x88) i.serial).setRegN (cellarPage + 0x90) i.step
    | none => s
  | none => s

/-- CSK_STATUS after a reset that does not reach the Cellar controller: result, pairing and mirror_ok stay (R463)
(DEDUCED, log 106). -/
def keptStatus (s : State) : Nat := bits (s.regN (cellarPage + 0x84)) 16 3 * 8

/-- Muzomus as a power-on reset restarts it: flash banks, counters of its one-time memory and lifetime, what it knows of the
option bytes, straps, pins and the pulses under way stay, and it starts only behind those (R463) (DEDUCED, log 106). -/
def restartedMzm (m : MzmSt) : MzmSt :=
  { MzmSt.reset with
    boots := m.boots + 1, onBase := m.onBase, bankA := m.bankA, bankB := m.bankB, secure := m.secure, feedStrap := m.feedStrap,
    jtagEn := m.jtagEn, smbStrap := m.smbStrap, perst := m.perst, optCopy := m.optCopy, optGen := m.optGen, optErr := m.optErr,
    norCrc := m.norCrc, pulses := m.pulses, deferred := !m.pulses.isEmpty }

/-- The powered seconds go on while fabric time and its ticks start at 0 again (R431) (DEDUCED, log 78). -/
def restartTime (s : State) : State :=
  { s with time := 0, mzm := { s.mzm with onBase := onSecs s }, sync := { s.sync with ticks := 0 } }

/-- The monitor of die `d` after a reset that Muzomus lives through: its histograms, and the counts that the next summary starts
from, as the counters themselves start at 0 again (R432, R434) (DEDUCED, log 76). -/
def keptMon (s : State) (d : Nat) : MonSt :=
  let old := (s.mon d).base
  { MonSt.reset with
    bins := (s.mon d).bins
    base := (summaryTotals s d).mapIdx (fun i n => (old.getD i 0 + 2 ^ 40 - n) % 2 ^ 40) }

/-- The state of both dies reset, with what the kind of reset keeps (DEDUCED, log 106). -/
def resetState (kind : Nat) (s : State) : State :=
  let s := restartTime s
  let mem : List Host.Cell := List.filter (fun (e : Nat × BitVec 8) => keptKey e.1) s.mem
  let ecc : SMap Nat := List.filter (fun (e : Nat × Nat) => keptKey (8 * e.1)) s.ecc
  let cols : SMap ColSt := List.map (fun (e : Nat × ColSt) => (e.1, { e.2 with discarded := 0 })) s.cols
  let base := { State.reset with
    pending := s.pending, free := s.free, out := s.out, mem := mem, ecc := ecc, cols := cols, cask := keptCask s.cask,
    power := { PowerSt.reset with
      vin := s.power.vin, volts := s.power.volts, amps := s.power.amps, tripped := s.power.tripped, overTicks := s.power.overTicks } }
  if kind = kPowerOn then showCask { base with mzm := restartedMzm s.mzm }
  else
    showCask (({ base with regs := keptRegs s, events := s.events, mzm := s.mzm, mons := [(0, keptMon s 0), (1, keptMon s 1)] } : State).setRegN
      (cellarPage + 0x84) (keptStatus s))

/-! ### Taking a reset (R458, R460 to R463) -/

/-- Resets of sources 0x06 and 0x07 in the last 600 powered seconds; a limit of 0 disables the count (R462) (DEDUCED, log 135). -/
def stormList (s : State) (source : Nat) : List Nat :=
  let l := if source = 6 || source = 7 then s.mzm.storm ++ [onSecs s] else s.mzm.storm
  if bits s.mzm.stormReg 3 0 = 0 then [] else l.filter (fun t => decide (onSecs s < t + 600))

/-- RST_STORM as it reads: the count falls as the window passes (R476) (DEDUCED, log 135). -/
def stormView (s : State) : Nat :=
  putBits (s.regN (resetPage 0 + 0x9C)) 7 4 (min 15 (stormList s 0).length)

/-- The RST_STORM word after a reset: the hold begins at the limit, and ends through a reset of source 0x05 (DEDUCED, log 135). -/
def stormWord (s : State) (source : Nat) (l : List Nat) : Nat :=
  let limit := bits s.mzm.stormReg 3 0
  let storm := (source == 6 || source == 7) && limit != 0 && decide (limit ≤ l.length)
  let held := if source = 5 then false else storm || bit s.mzm.stormReg 8
  limit + min 15 l.length * 16 + b2n held * 256

/-- The RST_CAUSE word (DEDUCED, log 135). -/
def causeWord (s : State) (kind source sub : Nat) : Nat :=
  source + sub * 2 ^ 8 + (if kind = kPowerOn then 1 else min 65535 (bits s.mzm.cause 31 16 + 1)) * 2 ^ 16

/-- The coolant cap holds again when the pin is still low (R500) (DEDUCED, log 134). -/
def recoolant (s : State) : State :=
  if s.mzm.coolSaved.isSome then
    { s.setRegN (powerPage 0 + 0x8C) (s.fld mzmPage Fld.MZM_COOLANT_CFG.cool_cap) with
      mzm := { s.mzm with coolSaved := some (regReset (powerPage 0 + 0x8C)).toNat } }
  else s

/-- RST_PARITY after a reset: a new record, or what Muzomus keeps, no longer valid (R461, R476). -/
def parityWord (s : State) (kind source parity : Nat) : Nat :=
  if kind = kPowerOn then 0 else if source = 6 then parity else putBits s.mzm.parity 28 28 0

/-- The module takes a reset: `parity` is the RST_PARITY word of a source 0x06 (DEDUCED, log 135). -/
def takeReset (kind source sub parity : Nat) (s : State) : State :=
  let parity := parityWord s kind source parity
  let l := stormList s source
  let cause := causeWord s kind source sub
  let storm := if kind = kPowerOn then bits (regReset (resetPage 0 + 0x9C)).toNat 3 0 else stormWord s source l
  let newHold := bit storm 8 && !(bit s.mzm.stormReg 8)
  let t := if kind = kPowerOn then 0 else s.time
  let m := fun (s : State) => { s with mzm := { s.mzm with
    kind := kind, cause := cause, causeT := t, parity := parity, stormReg := storm, storm := if kind = kPowerOn then [] else l,
    deferred := !s.mzm.pulses.isEmpty } }
  let s := recoolant (refreshFault (m (resetState kind s)))
  s.when newHold (queueEvent 0x2002 3)

/-- The source of a RESET_ASSERT: the code of the table Reset sources; 0x15 names source 0x05 as a cold reset. -/
def assertReset (source : Nat) (s : State) : State :=
  match source with
  | 1 => takeReset kPowerOn 1 0 0 s
  | 2 => takeReset kCold 2 0 0 s
  | 3 => takeReset kModule 3 0 0 s
  | 4 => takeReset kModule 4 0 0 s
  | 5 => takeReset kModule 5 0 0 s
  | 6 => takeReset kModule 6 0 (2 ^ 28) s
  | 7 => takeReset kModule 7 0 0 s
  | 0x15 => takeReset kCold 5 0 0 s
  | _ => s

def execResetAssert (source : Nat) (s : State) : Host.Outcome State Fault Refusal := .next (assertReset source s)

/-- PERST_N_LOW: both dies stay at step 1 while the pin is low (R518). -/
def perstLow (s : State) : State :=
  let s := takeReset kModule 3 0 0 s
  { s with mzm := { s.mzm with perst := true } }

def execPerstNLow (s : State) : Host.Outcome State Fault Refusal := .next (perstLow s)

/-- A write of RST_CTRL: 0xA5 takes a module reset (R476). -/
def writeRstCtrl (v : Nat) (s : State) : State := if bits v 7 0 = 0xA5 then takeReset kModule 4 0 0 s else s

def execRstCtrlWrite (fn : Nat) (v : Word) (s : State) : Host.Outcome State Fault Refusal :=
  .next (posted fn (.rstCtrlWrite fn v) (fun s => pfWrite fn (resetPage 0 + 0x90) (writeRstCtrl v.toNat) s) s)

/-- CRITICAL_STATE_ERROR: the structure, die and index are recorded first (R461). -/
def criticalError (d sub index : Nat) (s : State) : State :=
  if 1 ≤ sub && sub ≤ 5 then takeReset kModule 6 sub (index % 2 ^ 24 + d * 2 ^ 24 + sub * 2 ^ 25 + 2 ^ 28) s else s

def execCriticalStateError (d sub index : Nat) (s : State) : Host.Outcome State Fault Refusal := .next (criticalError (d % 2) sub index s)

def execRefclkLoss (s : State) : Host.Outcome State Fault Refusal := .next (takeReset kModule 7 0 0 s)

/-- Muzomus restarts: its registers read 0 until an image has started again (R475) (DEDUCED, log 104). -/
def restartNow (s : State) : State :=
  { s with mzm := { s.mzm with
    restarting := true, restartDue := false, tid := 0, receiver := none, disabled := [], update := none } }

/-- A pulse that Muzomus drives, to the SPI NOR or to a flash bank, is under way. -/
def mzmPulses (l : List Nat) : Bool := l.any (fun p => p == 0 || p == 1)

/-- An image write is cut off: Muzomus restarts, or no further pulse may begin (R463, R464, R467) (DEDUCED, log 161). -/
def writeCut (s : State) : Bool := s.mzm.restarting || s.mzm.restartDue || s.power.vin == 0 || decide (s.power.volts < 5600)

/-- NV_PULSE_END: the oldest pulse ends; an image write ends with its own, a waiting reset of the units takes effect with the
last one, and queued Colophon records go out (R434, R463, R467) (DEDUCED, log 74). -/
def nvPulseEnd (s : State) : State :=
  match s.mzm.pulses with
  | [] => s
  | p :: ps =>
    let s := s.when (p == 0) (landImage (writeCut s))
    let s := { s with mzm := { s.mzm with pulses := ps, deferred := s.mzm.deferred && !ps.isEmpty } }
    cellarFree (s.when (s.mzm.restartDue && !(mzmPulses ps)) restartNow)

def execNvPulseEnd (s : State) : Host.Outcome State Fault Refusal := .next (nvPulseEnd s)

/-! ### Input voltage (R440, table Input ranges) -/

/-- The module state that an input voltage gives: 0 OFF, 1 STANDBY, 2 RUN. Above 84 V it stays for 10 µs, and once that has
disconnected it no voltage alone ends OFF (DEDUCED, log 97). -/
def vinState (p : PowerSt) (v : Nat) : Nat :=
  if v < 4000 then 0
  else if p.vin = 0 then (if p.tripped then 0 else 1)
  else if p.vin = 2 && v < 5600 then 1
  else p.vin

/-- Low input and excursions in RUN (DEDUCED, log 97). -/
def inputRanges (old v : Nat) (s : State) : State :=
  let b := powerPage 0
  let low := decide (v < 6000)
  let s := s.when (low && !(s.flag b Fld.PWR_THROTTLE.low_input)) (bothPower (fun b s => raiseEv b 2 (s.bump b 5 1)))
  let s := s.setFlag b Fld.PWR_THROTTLE.low_input low
  s.when (decide (8000 < v) && decide (old ≤ 8000)) (bothPower (fun b s => s.bump b 7 1))

/-- Nothing is powered (R440). -/
def goOff (s : State) : State :=
  let s := { s with power := { s.power with vin := 0 } }
  { (resetState kPowerOn s) with mzm := { restartedMzm s.mzm with boots := s.mzm.boots } }

/-- What an averaged input in 10 mV and 10 mA does (DEDUCED, log 97). -/
def vinStep (v amps : Nat) (s : State) : State :=
  let old := s.power
  let st := vinState old v
  let again := decide (8400 < v) == decide (8400 < old.volts) && decide (v < 8000) == decide (old.volts < 8000)
  let s := { s with power := { s.power with vin := st, volts := v, amps := amps, overTicks := if again then old.overTicks else 0 } }
  if st = 0 then (if old.vin = 0 then s else goOff s)
  else if old.vin = 0 then takeReset kPowerOn 1 0 0 s
  else if st = 1 then (if old.vin = 2 then takeReset kCold 2 0 0 s else s)
  else inputRanges old.volts v s

/-- VIN_CHANGE; queued Colophon records go out when pulses may begin again (R434, R464) (DEDUCED, log 97). -/
def vinChange (v amps : Nat) (s : State) : State := cellarFree (vinStep v amps s)

/-- One more tick of an input above 84 V: the first stage disconnects after 10 µs (R440) (DEDUCED, log 97). -/
def overTick (s : State) : State :=
  let n := s.power.overTicks + 1
  if s.power.volts ≤ 8400 then s
  else if 10625 ≤ n then goOff { s with power := { s.power with tripped := true, overTicks := 0 } }
  else { s with power := { s.power with overTicks := n } }

/-- One more tick in OFF: a module that an input above 84 V disconnected restarts after 100 ms below 80 V (R440) (DEDUCED,
log 97). -/
def offTick (s : State) : State :=
  let n := s.power.overTicks + 1
  if !s.power.tripped || 8000 ≤ s.power.volts then s
  else if 106250000 ≤ n && 4000 ≤ s.power.volts then
    takeReset kPowerOn 1 0 0 { s with power := { s.power with vin := 1, tripped := false, overTicks := 0 } }
  else { s with power := { s.power with overTicks := n } }

def execVinChange (v amps : Nat) (s : State) : Host.Outcome State Fault Refusal := .next (vinChange v amps s)

/-! ### Start-up (R469) -/

def startStep (s : State) : Nat := s.fld (resetPage 0) Fld.RST_STATUS.step

/-- The next step of both dies. -/
def setStep (n : Nat) (s : State) : State :=
  s.each [0, 1] (fun d s => s.setFld (resetPage d) Fld.RST_STATUS.step n)

/-- Steps 2 and 3 run for power-on and cold resets and for source 0x07 (DEDUCED, log 107). -/
def longStart (s : State) : Bool := decide (s.mzm.kind < kModule) || bits s.mzm.cause 7 0 == 7

/-- Step 3 or the release of the management domain: the PLLs show locked (CLK_STATUS). -/
def showClocks (s : State) : State :=
  (s.setRegN (resetPage 0 + 0xC0) 0x1F).setRegN (resetPage 1 + 0xC0) 0x0F

/-- Step 4: Muzomus loads what it kept and enters proof mode on both dies. -/
def releaseManagement (s : State) : State :=
  let b := resetPage 0
  let s := ((s.setRegN (b + 0x80) s.mzm.cause).setReg64 (b + 0x84) s.mzm.causeT).setRegN (b + 0x8C) s.mzm.parity
  let s := s.setRegN (b + 0x9C) s.mzm.stormReg
  setProof 1 true (setProof 0 true (showClocks s))

/-- Position `k` of a Galley is fenced for the rest of the power-on period (R429). -/
def isFencedAt (s : State) (d g k : Nat) : Bool := s.mzm.fences.contains ((d * 72 + g) * 17 + k)

/-- Applies a Galley's repair byte: GLY_REPAIR and the CHS_PATH of its Chases; a Chase at a fenced position is fenced again
(R31, R429) (DEDUCED, log 108). -/
def applyRepair (d g : Nat) (s : State) : State :=
  let p := repairByte s d g
  let u := galleyPath d (g / 8) (g % 8)
  let s := s.setRegN (unitPage u + 0x84) (p + b2n (decide (p < 16)) * 32 + b2n (decide (0x11 ≤ p) && p != 0x1F) * 64)
  let s := s.each (List.range 16) (fun c s =>
    let ch := chaseAt d (16 * g + c)
    let s := s.setRegN (unitPage ch + 0x80) (ch + physOf p c * 2 ^ 16)
    s.when (isFencedAt s d g (physOf p c)) (fun s => s.setFlag (unitPage ch) Fld.CHS_PATH.fenced true))
  s.when (!(spareLeft s d g) && (List.range 16).any (fun c => isFencedAt s d g (physOf p c)))
    (fun s => s.setFlag (unitPage u) Fld.GLY_REPAIR.degraded true)

/-- Step 5: the option bytes are read, the repair map applied, the straps sampled (R466, R468, R470). -/
def readOptions (s : State) : State :=
  let k := chosenCopy s
  let img := match k with | some k => s.bytes (norCopy k) 0x8000 | none => defaultOptions
  let gen := match k with | some k => optGen s k | none => 0
  let s := { s with mzm := { s.mzm with optCopy := k == some 1, optGen := gen, optErr := k.isNone } }
  let s := s.setBytes shadowBase img
  let s := s.each [0, 1] (fun d s =>
    let s := (s.setFlag (resetPage d) Fld.RST_STATUS.opt_err k.isNone).setFlag (resetPage d) Fld.RST_STATUS.opt_copy (k == some 1)
    (s.setFld (resetPage d) Fld.RST_OPT.generation gen).setFld (resetPage d) Fld.RST_OPT.feed_id s.mzm.feedStrap)
  let s := s.each [0, 1] (fun d s => s.each (List.range 72) (fun g => applyRepair d g))
  refreshFault s

/-- The bridge-down record of both Colophons (R42), in each the DIE_BRG_STATUS of die 0 (DESIGN CHOICE, log 167). -/
def bridgeRecord (s : State) : State := colBoth 0x0A (leBytes (s.regN (dieTopPage 0 + 0x84)) 4) s

/-- Step 7: fabric time starts; the bridge trains, or start-up goes on with it down. -/
def releaseFabric (ok : Bool) (s : State) : State :=
  let s := (restartTime s).each [0, 1] (fun d s =>
    (s.setFlag (dieTopPage d) Fld.DIE_BRG_STATUS.link_up ok).setFlag (dieTopPage d) Fld.DIE_BRG_STATUS.down (!ok))
  if ok then s else bridgeRecord s

/-- Step 9: Muzomus self-tests every Forme of both dies; failed Chases are named by die · 1152 + index (DEDUCED, log 108). -/
def selfTests (failed : List Nat) (s : State) : State :=
  s.each [0, 1] (fun d s => s.each (List.range 9) (fun f s =>
    let bad := (failed.filter (fun i => i / 1152 == d && i % 1152 / 128 == f)).map (· % 1152)
    endTest d 0 bad ⟨f, 0, max 1 (s.fld (monPage d) Fld.MON_MARGIN_CMD.step_mv)⟩ s))

/-- The keys of the control cores' memories and the stores. -/
def coreKey (a : Nat) : Bool := decide (2 ^ 51 ≤ a) && decide (a < 2 ^ 54)

/-- Zeroes the memories and tables that the self-tests wrote (DESIGN CHOICE, log 93). -/
def zeroTested (s : State) : State :=
  let mem : List Host.Cell := List.filter (fun (e : Nat × BitVec 8) => !(coreKey e.1)) s.mem
  let s := { s with mem := mem }
  s.each allChases (fun ch s => (s.setUnit ch { s.unit ch with toks := [] }).setCore ch { s.core ch with cred := [] })

/-- The payload of the power-on record of a die (table Colophon record types, 0x01) (DESIGN CHOICE, log 75). -/
def powerOnPayload (s : State) (d : Nat) : List (BitVec 8) :=
  let g := List.range 72
  let inForme := fun (f : Nat) (p : Nat → Bool) => ((g.filter (fun i => i / 8 == f)).filter p).length
  let degraded := fun (i : Nat) => s.flag (unitPage (galleyPath d (i / 8) (i % 8))) Fld.GLY_REPAIR.degraded
  let err := fun (i : Nat) => s.flag (unitPage (galleyPath d (i / 8) (i % 8))) Fld.GLY_REPAIR.repair_err
  ((List.range 9).map (fun f => leBytes (inForme f (fun i => decide (repairByte s d i < 16))) 1)).flatten ++
  ((List.range 9).map (fun f => leBytes (inForme f (fun i => repairByte s d i == 16 || degraded i)) 1)).flatten ++
  leBytes (g.filter err).length 1 ++ leBytes (bits (s.regN (resetPage d + 0x94)) 7 6) 1 ++
  leBytes (crc32c (s.bytes (shadowBase + 16 + 72 * d) 72)) 4 ++ s.bytes (shadowBase + 0x7FFC) 4

/-- Step 10: what the self-tests wrote is zero, proof mode ends, the power-on records are appended, ready is set. -/
def becomeReady (s : State) : State :=
  let s := setProof 1 false (setProof 0 false (zeroTested s))
  let s := s.each [0, 1] (fun d s => colAppend d 0x01 (powerOnPayload s d) s)
  s.each [0, 1] (fun d s => raiseEv (resetPage d) 0 (s.setFlag (resetPage d) Fld.RST_STATUS.ready true))

/-- The dies are held in reset: no supply, Muzomus not running a verified image, a storm hold (DEDUCED, log 107). -/
def diesHeld (s : State) : Bool :=
  s.power.vin == 0 || bit s.mzm.stormReg 8 || s.mzm.restarting || s.flag mzmPage Fld.MZM_STATUS.recovery

/-- The rails come up: the module enters RUN, the dies' test port starts anew, and the input's ranges count from now (R440, R498). -/
def enterRun (s : State) : State :=
  inputRanges 0 s.power.volts
    (refreshFault { s with power := { s.power with vin := 2 }, mzm := { s.mzm with tapIr := [], boundary := [] } })

/-- What lets a step end, its action, and the next step (DEDUCED, log 107). -/
def stepAction (ok : Bool) (failed : List Nat) (s : State) : Option (State × Nat) :=
  match startStep s with
  | 1 => some ({ s with mzm := { s.mzm with perst := false } }, if longStart s then 2 else 4)
  | 2 =>
    if s.power.vin = 2 then some (s, 3)
    else if 5800 ≤ s.power.volts then some (enterRun s, 3)
    else none
  | 3 => some (showClocks s, 4)
  | 4 => some (releaseManagement s, 5)
  | 5 => if s.mzm.pulses.contains 0 then none else some (readOptions s, 6)
  | 6 => some (s, 7)
  | 7 => some (releaseFabric ok s, 8)
  | 8 => some ({ s with mzm := { s.mzm with pullsOff := s.sync.ticks + 1062500 } }, 9)
  | 9 => if s.mzm.jtagEn || !(s.mon 0).proofReady || !(s.mon 1).proofReady then none else some (selfTests failed s, 10)
  | 10 => some (becomeReady s, 0)
  | _ => none

/-- STARTUP_STEP_DONE (DEDUCED, log 107). -/
def startupStep (ok : Bool) (failed : List Nat) (s : State) : State :=
  if diesHeld s then s
  else
    match stepAction ok failed s with
    | some (s', n) => setStep n s'
    | none => s

def execStartupStepDone (bridgeOk : Bool) (failed : List Nat) (s : State) : Host.Outcome State Fault Refusal :=
  .next (startupStep bridgeOk failed s)

/-- BULK_ZERO_DONE (R472). -/
def bulkZeroDone (d : Nat) (s : State) : State :=
  if s.flag (resetPage d) Fld.RST_STATUS.ready && !(s.flag (resetPage d) Fld.RST_STATUS.bulk_ready) then
    let s := s.setFlag (resetPage d) Fld.RST_STATUS.bulk_ready true
    s.when (s.flag (resetPage (1 - d)) Fld.RST_STATUS.bulk_ready) (raiseEv (resetPage 0) 1)
  else s

def execBulkZeroDone (d : Nat) (s : State) : Host.Outcome State Fault Refusal := .next (bulkZeroDone (d % 2) s)

/-! ### Muzomus starts (R473, R474) -/

/-- MUZOMUS_START: once no pulse of its own is under way, the boot ROM verifies both images and runs the verified one with the
later version, or enters recovery, with the dies back in STANDBY (R463, R474) (DEDUCED, log 109). -/
def muzomusStart (okA okB : Bool) (s : State) : State :=
  if !s.mzm.restarting || s.power.vin == 0 || mzmPulses s.mzm.pulses then s
  else
    let m := s.mzm
    let a := okA && decide (m.secure ≤ m.bankA.security)
    let b := okB && decide (m.secure ≤ m.bankB.security)
    let useB := b && (!a || decide (m.bankA.version < m.bankB.version))
    let img := if useB then m.bankB else m.bankA
    let s := { s with mzm := { m with restarting := false, secure := if a || b then max m.secure img.security else m.secure } }
    let s := s.when (!(a || b) && s.power.vin == 2) (fun s => takeReset kCold 5 0 0 { s with power := { s.power with vin := 1 } })
    let s := s.setFlag mzmPage Fld.MZM_STATUS.recovery (!(a || b))
    refreshFault (s.setFlag mzmPage Fld.MZM_STATUS.bank useB)

def execMuzomusStart (okA okB : Bool) (s : State) : Host.Outcome State Fault Refusal := .next (muzomusStart okA okB s)

/-! ### The die-to-die bridge (R41, R42) -/

/-- Replays that have failed in succession, at the die that has seen more of them. -/
def replayRun (s : State) : Nat := max (SMap.get (fun _ => 0) s.brgRun 0) (SMap.get (fun _ => 0) s.brgRun 1)

/-- BRIDGE_REPLAY: a flit that die `d` received fails its CRC and the other die sends it again; the run of consecutive
replays goes on until a tick passes without one. -/
def bridgeReplay (d : Nat) (s : State) : State :=
  let run := SMap.get (fun _ => 0) s.brgRun d + 1
  let reg := dieTopPage d + 0x84
  let s := { s with brgRun := SMap.set (fun _ => 0) s.brgRun d run }
  let s := (s.bump (dieTopPage d) 2 1).bump (dieTopPage (1 - d)) 3 1
  let s := s.setFlag (dieTopPage d) Fld.DIE_BRG_STATUS.replaying true
  s.setRegN reg (putBits (s.regN reg) 15 8 (max (bits (s.regN reg) 15 8) (min 255 run)))

def execBridgeReplay (d : Nat) (s : State) : Host.Outcome State Fault Refusal :=
  .next (if s.flag (dieTopPage 0) Fld.DIE_BRG_STATUS.link_up && decide (replayRun s < 16) then bridgeReplay (d % 2) s else s)

/-- The die that passed a command on: its issuer's, or its stream's home. -/
def fromDie (e : QEnt) : Nat := match e.issuer with | some ch => pathDie ch | none => bits (cStream e.cmd) 15 15

/-- The commands passed across the bridge to a unit of the other die that no engine has begun, and the shares that the module
dispatcher has sent across, complete with ABORTED_FAULT (R41) (DEDUCED, log 17); a share that has finished and not yet reported keeps
its own status, which it still reports (DESIGN CHOICE, log 168). -/
def abortAcross (s : State) : State :=
  let s := s.each [0, 1] (fun d s =>
    s.setQ (diePath d) ((s.q (diePath d)).map (fun e =>
      if e.parent == some modulePath && homeDie modulePath e.cmd != d && e.phase != .done then
        { e with phase := .done, status := stAbortFault } else e)))
  s.each ((s.units.map (·.1)).filter (· != modulePath)) (fun u s =>
    s.each ((s.q u).filter (fun e => e.parent.isNone && fromDie e != pathDie u &&
      (e.phase == .waiting || e.phase == .held || e.phase == .split))) (fun e => finish u e ⟨stAbortFault, 0, 0, 0⟩))

/-- BRIDGE_DOWN: the sixteenth replay in succession has failed (R41) (DEDUCED, log 17); link_up falls with it (DESIGN CHOICE,
log 166). -/
def bridgeGoesDown (s : State) : State :=
  if s.flag (dieTopPage 0) Fld.DIE_BRG_STATUS.link_up && decide (16 ≤ replayRun s) then
    let s := s.each [0, 1] (fun d s =>
      let b := dieTopPage d
      ((s.setFlag b Fld.DIE_BRG_STATUS.link_up false).setFlag b Fld.DIE_BRG_STATUS.replaying false).setFlag b
        Fld.DIE_BRG_STATUS.down true)
    settle (abortAcross (bridgeRecord { s with brgRun := [] }))
  else s

def execBridgeDown (s : State) : Host.Outcome State Fault Refusal := .next (bridgeGoesDown s)

end Sys2Proof.Machine
end

