-- ==== Sys2Proof/Machine/HostRegs.lean ====
section
/-! DEFINITION. What a read of BAR0 answers (R402 to R406, R485, R489, R491, R525 to R531): the pages and areas of the map,
who may read what, the common registers, and the registers whose content lives elsewhere in the state. -/

namespace Sys2Proof.Machine

/-! ### The map (R525 to R527) -/

/-- What a BAR0 offset names. -/
inductive Target where
  /-- word `w` of the context of stream `id` -/
  | ctx (id w : Nat)
  /-- word `w` of the counters of stream `id` -/
  | count (id w : Nat)
  /-- doorbell word `w` of stream `id` -/
  | door (id w : Nat)
  /-- stream vector table, from byte `i` -/
  | vec (i : Nat)
  /-- MSI-X area of function `f` -/
  | msix (f : Nat)
  | page (p : Page) (o : Nat)
  | nowhere
  deriving DecidableEq, Repr

/-- `w` lies in an area of `n` bytes at `a`. -/
def within (w a n : Nat) : Bool := decide (a ≤ w) && decide (w < a + n)

def targetOf (off : Nat) : Target :=
  let d := off / dieWin
  let w := off % dieWin
  if off % 4 ≠ 0 ∨ 2 ^ 28 ≤ off then .nowhere
  else if d < 2 && within w 0x3000000 0x200000 then .ctx (d * 32768 + (w - 0x3000000) / 64) (w % 64 / 4)
  else if d < 2 && within w 0x3400000 0x80000 then .count (d * 32768 + (w - 0x3400000) / 16) (w % 16 / 4)
  else if d < 2 && within w 0x3800000 0x40000 then .door (d * 32768 + (w - 0x3800000) / 8) (w % 8 / 4)
  else if within off vectorTable 0x10000 then .vec (off - vectorTable)
  else if within off (msixBase 0) 0x20000 then .msix ((off - msixBase 0) / 0x1000)
  else
    match pageOf off with
    | some p => .page p (off - p.base)
    | none => .nowhere

/-- Registers that act in die 0's page only, and in the other die's read 0 and ignore writes; for the HBM pages those of
controller 0 (R244, R273, R348, R455, R476). -/
def dieZeroReg : PageKind → Nat → Bool
  | .tier, o => o == 0x98 || within o 0xA4 0x38
  | .stream, o => within o 0x80 0x10 || within o 0x9C 0x10
  | .power, o => o == 0x80 || within o 0x88 0x14 || within o 0xD0 0x0C
  | .reset, o => within o 0x80 0x14 || o == 0x9C
  | .hbm, o => within o 0x100 0x44
  | _, _ => false

/-- The register exists at this page. -/
def isPresent (p : Page) (o : Nat) : Bool := !(dieZeroReg p.kind o && (p.die != 0 || p.inst != 0))

/-! ### Who may read (R271, R400, R406, R438, R485, R488) -/

/-- Registers that hold one value per function (R273, R502) (DEDUCED, log 116). -/
def perFunction (k : PageKind) (o : Nat) : Bool := (k == .pcie && within o 0x84 0x10) || (k == .stream && o == 0x84)

/-- Whether function `fn` may read the register at `off` (DEDUCED, log 116). -/
def mayReadAt (s : State) (fn off : Nat) : Bool :=
  match targetOf off with
  | .ctx id _ => (fn == (s.stream id).owner && decide (fn < 32)) || fn == 0
  | .count id _ => (fn == (s.stream id).owner && decide (fn < 32)) || fn == 0
  | .msix f => fn == f
  | .page p o =>
    if within o 0x30 0x50 || [PageKind.trace, .monitor, .cellar].contains p.kind then fn == 0 || fn == mzmFn
    else perFunction p.kind o || mayRead s fn p.base
  | _ => true

/-! ### Common registers (R528) -/

/-- The identity fields are loaded at step 4 (R532) (DEDUCED, log 117). -/
def idLoaded (s : State) : Bool := startStep s == 0 || decide (4 < startStep s)

def pagePath (p : Page) : Nat :=
  match p.kind with
  | .chase => chaseAt p.die p.inst
  | .galley => galleyPath p.die (p.inst / 8) (p.inst % 8)
  | .forme => formePath p.die p.inst
  | .muzomus | .cellar | .bulk | .routing => modulePath
  | _ => diePath p.die

/-- PAGE_ID (DEDUCED, log 114). -/
def pageId (p : Page) : Nat :=
  pagePath p + p.kind.code * 2 ^ 16 + (if p.kind == .hbm || p.kind == .port then p.inst * 2 ^ 24 else 0)

/-- Always-on counter words of a page (R533) (DEDUCED, log 114). -/
def counterWords : PageKind → Nat
  | .chase => 20
  | .galley | .forme => 5
  | .dieTop | .hbm => 11
  | .stream | .trace => 4
  | .port => 9
  | .monitor => 14
  | .power | .routing => 8
  | .bulk => 6
  | _ => 0

/-- PAGE_CAP (DEDUCED, log 114). -/
def pageCap (k : PageKind) : Nat :=
  counterWords k + b2n (!([PageKind.galley, .forme, .dieTop, .bulk].contains k)) * 32 +
  b2n ([PageKind.chase, .galley, .forme, .dieTop].contains k) * 64 + b2n ([PageKind.gov, .taster, .mapping, .pcie].contains k) * 128

/-- The block of a page is powered and clocked (R443): its Forme is ON, its port enabled, the dies past the release of the
management domain (DEDUCED, log 114). -/
def blockOn (s : State) (p : Page) : Bool :=
  match p.kind with
  | .muzomus | .cellar => true
  | .chase | .galley | .forme => idLoaded s && formeOn s (pagePath p)
  | .port => idLoaded s && s.flag p.base Fld.IZN_PORT_CTRL.enable
  | _ => idLoaded s

/-- EV_PENDING. -/
def evPending (s : State) (base : Nat) : Nat := s.regN (base + 0x20) &&& s.regN (base + 0x24)

/-- STATUS (DEDUCED, log 114). -/
def pageStatus (s : State) (p : Page) : Nat :=
  b2n (blockOn s p) + b2n (s.regN (p.base + 0x18) != 0) * 2 + b2n (evPending s p.base != 0) * 4

/-- Reads show the latched counters (R401). -/
def snapShown (s : State) : Bool := s.flag (tracePage 0) Fld.TRC_STATUS.snap_valid

/-- An always-on counter, as latched while snap_valid is 1 (R399, R401) (DEDUCED, log 113). -/
def counterView (s : State) (p : Page) (i : Nat) : Nat :=
  let off := p.base + 0x30 + 4 * i
  if counterWords p.kind ≤ i then 0
  else if snapShown s then (SMap.get (fun _ => (0 : Word)) s.snap off).toNat
  else s.regN off

def commonView (s : State) (p : Page) (o : Nat) : Nat :=
  match o with
  | 0x00 => if idLoaded s then pageId p else 0
  | 0x08 => if idLoaded s then pageCap p.kind else 0
  | 0x14 => pageStatus s p
  | 0x28 => evPending s p.base
  | 0x2C => 0
  | _ => s.regN (p.base + o)

/-! ### Registers of the pages -/

/-- CHS_HYD_STATUS (R211) (DESIGN CHOICE, log 128). -/
def hydStatus (s : State) (ch : Nat) : Nat :=
  min 16 (s.hyd ch).entries.length + min 4 (s.hyd ch).queue.length * 32 + b2n (hydHolding s ch) * 256

/-- CHS_CORE_PC: valid while the core is halted, a free value otherwise (DEDUCED, log 113). -/
def corePc (s : State) (ch : Nat) : Nat :=
  if (s.core ch).run == .halted then pc14 (s.core ch) else Config.freeWord s.free % 2 ^ 14

/-- The registers of a Chase page that show what its unit does now (DESIGN CHOICE, log 128). -/
def chaseView (s : State) (p : Page) (o : Nat) : Nat :=
  let ch := pagePath p
  match o with
  | 0xA4 => arrStatus s ch
  | 0xA8 => mfStatus s ch
  | 0xAC => (s.arr ch).bsrIdle
  | 0xB0 => (s.arr ch).bsrBundles
  | 0xB4 => hydStatus s ch
  | 0x104 => coreStatus s ch
  | 0x10C => corePc s ch
  | 0x138 => coreWaitWord s ch
  | 0x13C => (coreAwaits s ch).2
  | _ => if within o 0x140 0x40 then (s.core ch).credit ((o - 0x140) / 4) else s.regN (p.base + o)

/-- All pages that hold the common registers, in ascending BAR0 offset. -/
def allPages : List Nat :=
  ([0, 1].map (fun d => ((dieWindow.filter (fun r => !(r.2.2.2 && d != 0))).map (fun r =>
    (List.range r.2.1).map (fun i => d * dieWin + r.1 + i * 0x1000))).flatten)).flatten ++ modulePages.map (·.1)

/-- PCI_EV_NEXT of a function: the lowest page it owns with EV_PENDING nonzero (R491). -/
def evNext (s : State) (fn : Nat) : Nat := (allPages.find? (fun b => ownsPage s fn b && evPending s b != 0)).getD 0xFFFFFFFF

/-- Log2 of the initial size of BAR2 (R479). -/
def bar2Exp (s : State) : Nat :=
  let e := (s.byte (shadowBase + 0xB1)).toNat
  if 30 ≤ e && e ≤ 36 then e else 30

/-- The size of a function's BAR2: the one that its Resizable BAR control names, in powers of two from 1 MB, or the initial one
(R480) (PRESUMED, log 122) (DEDUCED, log 119). -/
def bar2Size (s : State) (fn : Nat) : Nat :=
  let c := s.regN (cfgKey fn 0x198)
  2 ^ (if c = 0 then bar2Exp s else 20 + c)

/-- The bits of PCI_BAR2_BASE_LO and of PCI_BAR2_BASE_HI that do not lie below the size of BAR2: the others read 0 and ignore
writes (R502). -/
def aboveBar2Lo (s : State) (fn v : Nat) : Nat := v / min (bar2Size s fn) (2 ^ 32) * min (bar2Size s fn) (2 ^ 32)
def aboveBar2Hi (s : State) (fn v : Nat) : Nat := v / max 1 (bar2Size s fn / 2 ^ 32) * max 1 (bar2Size s fn / 2 ^ 32)

/-- The PCI Express page, as function `fn` sees it (R502). -/
def pcieView (s : State) (fn o : Nat) : Nat :=
  match o with
  | 0x90 => evNext s fn
  | 0xA0 => s.regN (pciePage + 0xA0 + s.fld pciePage Fld.PCI_FIXWIN_IDX.function * 2 ^ 28)
  | _ =>
    let f := if fn < 32 then fn else 0
    let v := s.regN (pciePage + o + f * 2 ^ 28)
    if o = 0x84 then aboveBar2Lo s f v
    else if o = 0x88 then aboveBar2Hi s f v
    else if o = 0x8C then v
    else s.regN (pciePage + o)

/-- The Colophon registers show the die that CLR_SEL selects (R432 to R434). -/
def cellarView (s : State) (o : Nat) : Nat :=
  let c := s.col (colSel s)
  match o with
  | 0x104 => c.next % 2 ^ 32
  | 0x108 => c.next / 2 ^ 32
  | 0x10C => putBits (putBits (putBits (s.regN (cellarPage + o)) 15 0 c.wraps) 28 16 c.queue.length) 29 29 (b2n (clrBusy s))
  | 0x110 => c.discarded
  | _ => s.regN (cellarPage + o)

/-- A register of a page from offset 0x80, as function `fn` sees it. -/
def blockView (s : State) (fn : Nat) (p : Page) (o : Nat) : Nat :=
  match p.kind with
  | .chase => chaseView s p o
  | .galley => if o = 0x80 then dispatchWord s (pagePath p) else if o = 0x8C then lutStatus s (pagePath p) else s.regN (p.base + o)
  | .forme => if o = 0x80 then dispatchWord s (pagePath p) else s.regN (p.base + o)
  | .dieTop => if o = 0x80 then dispatchWord s (pagePath p) else s.regN (p.base + o)
  | .stream => if o = 0x84 then s.regN (p.base + o + (if fn < 32 then fn else 0) * 2 ^ 28) else s.regN (p.base + o)
  | .taster => if o = 0x98 then s.action (s.fld tasterPage Fld.TST_ACT_IDX.policy) else s.regN (p.base + o)
  | .power => if o = 0x80 then min 65535 s.power.volts + min 65535 s.power.amps * 2 ^ 16 else s.regN (p.base + o)
  | .reset => if p.die = 0 && o = 0x9C then stormView s else s.regN (p.base + o)
  | .pcie => pcieView s fn o
  | .cellar => cellarView s o
  | _ => s.regN (p.base + o)

/-- A register or counter of a page; Muzomus's own read 0 while it restarts (R475). -/
def pageView (s : State) (fn : Nat) (p : Page) (o : Nat) : Nat :=
  if p.kind == .muzomus && s.mzm.restarting then 0
  else if o < 0x30 then commonView s p o
  else if o < 0x80 then counterView s p ((o - 0x30) / 4)
  else if (regRow p.kind o).isNone || !(isPresent p o) then 0
  else blockView s fn p o

/-- A byte of the stream vector table, as function `fn` sees it (R489). -/
def vectorView (s : State) (fn i : Nat) : Nat :=
  if (s.stream i).owner == fn && decide (fn < 32) then SMap.get (fun _ => 0) s.vectors i % 64 else 0

/-- The word that an allowed read answers. -/
def regView (s : State) (fn off : Nat) : Word :=
  BitVec.ofNat 32 (match targetOf off with
    | .ctx id w => ctxWord s id w
    | .count id w => s.regN (streamCount id + 4 * w)
    | .vec i => vectorView s fn i + vectorView s fn (i + 1) * 2 ^ 8 + vectorView s fn (i + 2) * 2 ^ 16 + vectorView s fn (i + 3) * 2 ^ 24
    | .msix _ => s.regN off
    | .page p o => pageView s fn p o
    | _ => 0)

/-! ### A read (R446, R483, R485, R531) -/

/-- The _LO registers whose read latches the _HI partner (DEDUCED, log 111). -/
def loPairs : List Nat :=
  [cellarPage + 0x88, tracePage 0 + 0xAC, tracePage 0 + 0xB8, tracePage 1 + 0xAC, tracePage 1 + 0xB8, powerPage 0 + 0xC8,
   powerPage 1 + 0xC8, resetPage 0 + 0x84, cellarPage + 0x104, tierPage 0 + 0xE4, tierPage 1 + 0xE4] ++
  (List.range 16).map (fun c => hbmPage c + 0x84)

/-- The key of a latched word: the register, per reading function. -/
def latchKey (fn off : Nat) : Nat := off + fn * 2 ^ 28

/-- The upper half kept by a read of the lower half (DEDUCED, log 111). -/
def latched (s : State) (fn off : Nat) : Option Word :=
  (List.find? (fun (e : Nat × Word) => e.1 == latchKey fn off) s.latch).map (·.2)

/-- Forgets the kept half (DEDUCED, log 111). -/
def dropLatch (fn off : Nat) (s : State) : State :=
  { s with latch := List.filter (fun (e : Nat × Word) => e.1 != latchKey fn off) s.latch }

/-- Keeps a latched word in ascending key order (DEDUCED, log 111). -/
def keepLatch (fn off : Nat) (v : Word) (s : State) : State :=
  let l := (dropLatch fn off s).latch
  { s with latch := List.filter (fun (e : Nat × Word) => decide (e.1 < latchKey fn off)) l ++ [(latchKey fn off, v)] ++
      List.filter (fun (e : Nat × Word) => decide (latchKey fn off < e.1)) l }

/-- The answer to an allowed read, with the latch of a 64-bit pair. -/
def answerRead (fn off : Nat) (s : State) : State :=
  let s := s.when (freeCounters.contains off && !(snapShown s)) (advanceFree off)
  let s := s.when (loPairs.contains off) (keepLatch fn (off + 4) (regView s fn (off + 4)))
  match latched s fn off with
  | some v => dropLatch fn off (s.send (.regRead fn off v))
  | none => { s.send (.regRead fn off (regView s fn off)) with free := s.free + 1 }

/-- The unit at whose Forme's edge a read waits: a Chase or Galley page beyond the range that the die fabric serves
(DEDUCED, log 110). -/
def readEdge (off : Nat) : Option Nat :=
  match targetOf off with
  | .page p o =>
    if (p.kind == .chase && decide (0x80 < o)) || (p.kind == .galley && decide (0x80 ≤ o)) then some (pagePath p) else none
  | _ => none

/-- A refused read: data 0; PRIVILEGE in the page addressed, for a stream area in the stream page, for the rest in the PCI
Express page (R271, R406, R485, R488). -/
def refuseRead (fn off : Nat) (s : State) : State :=
  let s := match targetOf off with
    | .ctx id _ => refuseStream fn off id s
    | .count id _ => refuseStream fn off id s
    | .page _ _ => refuseAccess fn off s
    | _ => recordPriv fn off 0 0 (logStatus pciePage stPrivilege s)
  s.send (.regRead fn off 0)

/-- A read that the endpoint serves: from step 8 the reset and clocks page, all else once ready is set (R471, R483)
(DEDUCED, log 117). -/
def readOpen (s : State) (fn off : Nat) : Bool :=
  decide (32 ≤ fn) || s.ready ||
  (match pageOf off with | some p => p.kind == .reset && decide (8 ≤ startStep s) | none => false)

/-- A read of BAR0 by a function; `i` is the command that makes it (DEDUCED, log 110). -/
def hostRead (fn off : Nat) (i : Instr) (s : State) : State :=
  if !(readOpen s fn off) then s.send (.regRead fn off 0)
  else if !(mayReadAt s fn off) then refuseRead fn off s
  else
    match readEdge off with
    | some u =>
      atEdge u (hostSource fn) modulePath i (fun s => (hostWakeFail u s).send (.regRead fn off 0))
        (fun s => if isChase u && off % 0x1000 == 0x128 then memRead fn u s else answerRead fn off s) s
    | none => answerRead fn off s

/-- LO_READ_LATCH (DEDUCED, log 111). -/
def execLoReadLatch (fn off : Nat) (s : State) : Host.Outcome State Fault Refusal :=
  .next (posted fn (.loReadLatch fn off) (hostRead fn off (.loReadLatch fn off)) s)

/-- REFUSED_READ: a read that the reader may make is served (DEDUCED, log 111). -/
def execRefusedRead (fn off : Nat) (s : State) : Host.Outcome State Fault Refusal :=
  .next (posted fn (.refusedRead fn off) (hostRead fn off (.refusedRead fn off)) s)

end Sys2Proof.Machine
end

