-- ==== Sys2Proof/Machine/HostWrite.lean ====
section
/-! DEFINITION. Writes of BAR0 (R2, R484 to R489, R527 to R530, R539): who may write what, the registers whose writes are refused
in some states, the action registers, PAGE_OWNER, the stream vector table, the MSI-X tables and the pins' owners. -/

namespace Sys2Proof.Machine

/-! ### Common registers (R528 to R530) -/

/-- A write of 1 clears bits of ERR_STATUS; ERR_FIRST returns to 0 with the last (R529). -/
def clearErr (base v : Nat) (s : State) : State :=
  let e := s.regN (base + 0x18)
  let e' := e &&& ((v &&& 0x803FFFFE) ^^^ 0xFFFFFFFF)
  let s := s.setRegN (base + 0x18) e'
  if e' = 0 then s.setRegN (base + 0x1C) 0 else s

/-- A write of 1 clears bits of EV_RAW. -/
def clearEv (base v : Nat) (s : State) : State := s.setRegN (base + 0x20) (s.regN (base + 0x20) &&& (v ^^^ 0xFFFFFFFF))

/-- A write of EV_ENABLE: a bit of EV_PENDING that rises reaches the owner (R491). -/
def enableEv (base v : Nat) (s : State) : State :=
  let rising := (s.regN (base + 0x20) &&& v) &&& (s.regN (base + 0x24) ^^^ 0xFFFFFFFF)
  let s := s.setRegN (base + 0x24) v
  if rising = 0 || s.flag base Fld.CTRL.ev_quiet || s.flag base Fld.PAGE_OWNER.mgmt then s
  else sendVector (s.fld base Fld.PAGE_OWNER.function) 0 s

def commonWrite (base o v : Nat) (s : State) : State :=
  match o with
  | 0x10 => s.setRegN (base + 0x10) (v % 2)
  | 0x18 => clearErr base v s
  | 0x20 => clearEv base v s
  | 0x24 => enableEv base v s
  | 0x2C => raiseMask base v s
  | _ => s

/-! ### PAGE_OWNER (R484) -/

/-- A command is outstanding in the unit of a Chase, Galley, Forme or die page (DEDUCED, log 65). -/
def unitBusy (s : State) (p : Page) : Bool :=
  [PageKind.chase, .galley, .forme, .dieTop].contains p.kind && (s.q (pagePath p)).any (fun e => e.phase != .waiting)

/-- Stores PAGE_OWNER (DEDUCED, log 65). -/
def setOwner (p : Page) (v : Nat) (s : State) : State :=
  if bits v 5 0 != bits (s.regN (p.base + 0x0C)) 5 0 && unitBusy s p then logStatus p.base stConflict s
  else s.setRegN (p.base + 0x0C) (bits v 5 0)

/-- A write of PAGE_OWNER: the physical function's where Muzomus does not hold the page, or Muzomus's. -/
def writeOwner (fn : Nat) (p : Page) (v : Nat) (s : State) : State :=
  guarded fn (p.base + 0x0C) (fn == mzmFn || (fn == 0 && !(s.flag p.base Fld.PAGE_OWNER.mgmt))) (setOwner p v) s

/-! ### Areas without pages (R488, R489) -/

/-- A refused write in an area that has no page (DEDUCED, log 115). -/
def refuseArea (fn off : Nat) (s : State) : State := recordPriv fn off 0 0 (logStatus pciePage stPrivilege s)

/-- A write of the stream vector table: the bytes of streams that the writer owns (R489) (DEDUCED, log 115). -/
def vectorWrite (fn off i v : Nat) (s : State) : State :=
  if fn < 32 && !s.ready then s
  else
    let mine := fun k => (s.stream (i + k)).owner == fn && decide (fn < 32)
    let s := s.when (!([0, 1, 2, 3].all mine)) (refuseArea fn off)
    s.each ([0, 1, 2, 3].filter mine) (fun k s =>
      { s with vectors := SMap.set (fun _ => 0) s.vectors (i + k) (bits v (8 * k + 5) (8 * k)) })

/-- Bits of an MSI-X table word that a write stores. -/
def msixMask (o : Nat) : Nat := if o % 16 = 0 then 0xFFFFFFFC else if o % 16 = 12 then 1 else 0xFFFFFFFF

/-- A write of the function's own MSI-X table; clearing a mask bit sends a message that is pending. -/
def msixWrite (f off v : Nat) (s : State) : State :=
  let o := off - msixBase f
  if o < 0x400 then releaseVector f (o / 16) (s.setRegN off (v &&& msixMask o)) else s

/-! ### Pins (R500, R501) -/

def claimWake (fn : Nat) (s : State) : State := claim mzmPage Fld.MZM_GPIO_OWN.wake_owner (ownerCode fn) s
def releaseWake (fn : Nat) (s : State) : State := releaseOwn mzmPage Fld.MZM_GPIO_OWN.wake_owner (ownerCode fn) s
def claimFault (fn : Nat) (s : State) : State := claim mzmPage Fld.MZM_GPIO_OWN.fault_owner (ownerCode fn) s

/-- A release of sw_fault clears it. -/
def releaseFault (fn : Nat) (s : State) : State :=
  if s.fld mzmPage Fld.MZM_GPIO_OWN.fault_owner == ownerCode fn then
    refreshFault ((s.setFld mzmPage Fld.MZM_GPIO_OWN.fault_owner 0).setFlag mzmPage Fld.MZM_GPIO_OWN.sw_fault false)
  else s

/-- A write of a pin's own bit: its owner's, refused where another would change it (DEDUCED, log 118). -/
def ownedBit (fn : Nat) (owner f : Fld) (b : Bool) (s : State) : State :=
  if s.flag mzmPage f == b then s
  else if s.fld mzmPage owner == ownerCode fn then refreshFault (s.setFlag mzmPage f b)
  else logStatus mzmPage stConflict s

/-- A write of MZM_GPIO_OWN, in ascending bit order (DEDUCED, log 118). -/
def writeGpio (fn v : Nat) (s : State) : State :=
  let s := s.when (bit v 4) (claimWake fn)
  let s := s.when (bit v 5) (releaseWake fn)
  let s := s.when (bit v 6) (claimFault fn)
  let s := s.when (bit v 7) (releaseFault fn)
  let s := ownedBit fn Fld.MZM_GPIO_OWN.wake_owner Fld.MZM_GPIO_OWN.wake_formes (bit v 8) s
  ownedBit fn Fld.MZM_GPIO_OWN.fault_owner Fld.MZM_GPIO_OWN.sw_fault (bit v 9) s

/-- What writes MZM_GPIO_OWN: the physical function or Muzomus, not while Muzomus restarts (R475) (DEDUCED, log 118). -/
def gpioWrite (fn : Nat) (act : State → State) (s : State) : State :=
  if s.mzm.restarting then s else pfOrMzm fn (mzmPage + 0x80) act s

def execClaimWake (fn : Nat) (s : State) : Host.Outcome State Fault Refusal :=
  .next (posted fn (.claimWake fn) (fun s => gpioWrite fn (claimWake fn) s) s)
def execReleaseWake (fn : Nat) (s : State) : Host.Outcome State Fault Refusal :=
  .next (posted fn (.releaseWake fn) (fun s => gpioWrite fn (releaseWake fn) s) s)
def execClaimFault (fn : Nat) (s : State) : Host.Outcome State Fault Refusal :=
  .next (posted fn (.claimFault fn) (fun s => gpioWrite fn (claimFault fn) s) s)
def execReleaseFault (fn : Nat) (s : State) : Host.Outcome State Fault Refusal :=
  .next (posted fn (.releaseFault fn) (fun s => gpioWrite fn (releaseFault fn) s) s)

/-! ### Registers with rules of their own -/

/-- Stores the RW bits of a register. -/
def storeRw (p : Page) (o v : Nat) (s : State) : State :=
  match regRow p.kind o with
  | some r => s.setRegN (p.base + o) ((s.regN (p.base + o) &&& (r.rw ^^^ 0xFFFFFFFF)) ||| (v &&& r.rw))
  | none => s

/-- A write that is ignored and logged as RESOURCE_CONFLICT where `bad` holds. -/
def unlessBusy (base : Nat) (bad : Bool) (act : State → State) (s : State) : State :=
  if bad then logStatus base stConflict s else act s

/-- Actions of W1S bits, in ascending order (R539) (DEDUCED, log 131). -/
def actions (v : Nat) (l : List (State → State)) (s : State) : State :=
  (l.foldl (fun x f => (x.1.when (bit v x.2) f, x.2 + 1)) (s, 0)).1

/-- A Tile lies in the tier 0 area of a Chase. -/
def tilesInChase (s : State) (ch : Nat) : Bool := s.tiers.extents.any (fun x => x.place == placeChase ch)

/-- Run-length fields take no 3 (R104). -/
def arrCfgWord (old v : Nat) : Nat :=
  let keep := fun lo => if bits v (lo + 1) lo = 3 then bits old (lo + 1) lo else bits v (lo + 1) lo
  keep 0 + keep 2 * 4 + keep 4 * 16

def chaseWrite (p : Page) (o v : Nat) (s : State) : State :=
  let ch := pagePath p
  match o with
  | 0xA0 => (keepCfg ch s).setRegN (p.base + o) (arrCfgWord (s.regN (p.base + o)) v)
  | 0x108 => storeRw p o v (s.setCore ch { s.core ch with hostMode := thisTick s })
  | 0x11C => storeRw p o v (s.setCore ch { s.core ch with hostVec := thisTick s })
  | 0xBC => unlessBusy p.base (tilesInChase s ch) (storeRw p o v) s
  | 0x100 => coreCtrl ch (ctrlActions v) s
  | 0x128 => memWrite ch (BitVec.ofNat 32 v) s
  | 0x110 | 0x12C | 0x130 => unlessBusy p.base ((s.core ch).run != .halted) (storeRw p o v) s
  | _ => storeRw p o v s

/-- A Tile lies in the 256 KB that a table buffer at `pos` would take. -/
def tilesInBuffer (s : State) (g pos : Nat) : Bool :=
  s.tiers.extents.any (fun x => x.place == placeGalley g && decide (x.off < (pos + 1) * 2 ^ 18) && decide (pos * 2 ^ 18 < x.off + x.len))

/-- A MUL_LUT command is outstanding in the Galley. -/
def lutOutstanding (s : State) (g : Nat) : Bool :=
  (g :: members g).any (fun u => (s.q u).any (fun e => e.op == 3 && e.phase != .waiting))

/-- A write of GLY_LUT_CFG (R127). -/
def lutWrite (p : Page) (v : Nat) (s : State) : State :=
  let g := pagePath p
  let old := bits (s.regN (p.base + 0x88)) 3 0
  unlessBusy p.base ((bit v 0 && tilesInBuffer s g (bits v 3 1)) || (bits v 3 0 != old && lutOutstanding s g)) (storeRw p 0x88 v) s

/-- Some command of the die, or of the module, is outstanding. -/
def dieCmds (s : State) (d : Nat) : Bool := (outstandingCmds s).any (fun x => pathLevel x.1 == 4 || pathDie x.1 == d)

def govWrite (o v : Nat) (s : State) : State :=
  let p : Page := ⟨.gov, 0, 0, govPage⟩
  match o with
  | 0x80 => writePtgCtrl v s
  | 0x88 => unlessBusy govPage (govBusy s || s.flag govPage Fld.PTG_CTRL.enable) (storeRw p o v) s
  | 0xC4 => actions v [ptgEntLoad, ptgEntCommit] s
  | 0x104 => lscaleWrite v s
  | 0x12C => actions v [seedLoad, seedCommit] s
  | _ =>
    if [0x94, 0x98, 0x9C, 0xC8, 0x100, 0x108, 0x10C, 0x110].contains o || within o 0xD0 0x1C then
      unlessBusy govPage (govBusy s) (storeRw p o v) s
    else storeRw p o v s

/-- A write of the Taster page: the warm-up count starts as enable rises. -/
def tasterRegs (o v : Nat) (s : State) : State :=
  let p : Page := ⟨.taster, 0, 0, tasterPage⟩
  match o with
  | 0x80 =>
    let was := s.flag tasterPage Fld.TST_CTRL.enable
    let s := storeRw p o v s
    if bit v 0 && !was then s.setFld tasterPage Fld.TST_STATUS.warm_left (bits v 15 8) else s
  | 0x98 =>
    { s with gov := { s.gov with actions := SMap.set (fun _ => (0 : Word)) s.gov.actions (s.fld tasterPage Fld.TST_ACT_IDX.policy) (BitVec.ofNat 32 (bits v 27 0)) } }
  | 0xC0 => actions v [tstEntLoad, tstEntCommit] s
  | _ => storeRw p o v s

def tierWrite (p : Page) (o v : Nat) (s : State) : State :=
  match o with
  | 0x98 => if bit v 20 then unmapRegion (bits v 19 0) s else mapRegion (bits v 19 0) s
  | 0xC0 => actions v [quotaLoad, quotaCommit] s
  | 0xD8 => actions v [leaseLoad, leaseRequest, leaseRenew, leaseRelease] s
  | 0xDC => lendCfgWrite p.die (BitVec.ofNat 32 v) s
  | _ => unlessBusy p.base (within o 0x80 0x18 && !s.tiers.regions.isEmpty) (storeRw p o v) s

def hbmWrite (p : Page) (o v : Nat) (s : State) : State :=
  match o with
  | 0x114 => actions v [ctxLoad, ctxArm, ctxDisarm] s
  | 0x140 => actions v [psetLoad, psetCommit] s
  | _ => storeRw p o v s

/-- A write of IZN_VC_CFG: shares of more than 256 units in all are refused (R321). -/
def vcWrite (p : Page) (v : Nat) (s : State) : State :=
  unlessBusy p.base (portState s (8 * p.die + p.inst) != ptDisabled || decide (256 < bits v 7 0 + bits v 15 8 + bits v 23 16 + bits v 31 24))
    (storeRw p 0x8C v) s

def portWrite (p : Page) (o v : Nat) (s : State) : State :=
  match o with
  | 0x80 => portCtrl (8 * p.die + p.inst) v s
  | 0x8C => vcWrite p v s
  | _ => storeRw p o v s

/-- A write of IZN_SYNC_CFG: a root is locked, and one that is root no more has not locked yet (R318); a module that has never
locked takes the time of the parent it now has (R317). -/
def syncCfgWrite (p : Page) (v : Nat) (s : State) : State :=
  let was := s.flag routePage Fld.IZN_SYNC_CFG.root
  let s := storeRw p 0x98 v s
  if bit v 1 then
    ((s.setFlag routePage Fld.IZN_SYNC_STATUS.locked true).setFlag routePage Fld.IZN_SYNC_STATUS.ever_locked true).setFlag
      routePage Fld.IZN_SYNC_STATUS.holdover false
  else
    let s := s.when was (fun s => s.setFlag routePage Fld.IZN_SYNC_STATUS.locked false)
    takeParentTime (parentPort s) s

def routeWrite (p : Page) (o v : Nat) (s : State) : State :=
  match o with
  | 0x98 => syncCfgWrite p v s
  | 0x80 => unlessBusy p.base ((List.range 16).any (fun k => portState s k != ptDisabled)) (fun s => refreshMaps (storeRw p o v s)) s
  | 0x8C => actions v [rtLoad, rtCommit] s
  | _ => storeRw p o v s

def traceRegs (p : Page) (o v : Nat) (s : State) : State :=
  match o with
  | 0x80 => writeTrcCtrl p.die v s
  | 0x88 => unlessBusy p.base (s.flag p.base Fld.TRC_CTRL.enable) (storeRw p o v) s
  | _ => storeRw p o v s

def cellarWrite (p : Page) (o v : Nat) (s : State) : State :=
  match o with
  | 0x80 => actions (v / 2) [askCask, caskResume, caskCut] (storeRw p o v s)
  | 0x98 => stopArm v s
  | 0xA0 | 0xA4 => unlessBusy p.base (s.fld p.base Fld.CSK_STATUS.state != 0) (storeRw p o v) s
  | 0xD8 => writeBuddy v s
  | 0xE0 => writeRestore v s
  | 0x11C => clrCmd v s
  | _ => storeRw p o v s

/-- A register from offset 0x80 of a page that its owner writes. -/
def blockWrite (fn : Nat) (p : Page) (o v : Nat) (s : State) : State :=
  match p.kind with
  | .chase => chaseWrite p o v s
  | .galley => if o = 0x88 then lutWrite p v s else s
  | .dieTop => unlessBusy p.base (within o 0x90 0x0C && dieCmds s p.die) (storeRw p o v) s
  | .hydro =>
    if o = 0x88 then hydRingCfg p.die v s
    else unlessBusy p.base (within o 0x80 0x08 && s.flag p.base Fld.HYD_RING_CFG.enable) (storeRw p o v) s
  | .gov => govWrite o v s
  | .taster => tasterWrite (tasterRegs o v) s
  | .tier => tierWrite p o v s
  | .mapping =>
    if o = 0x94 then actions v [mapLoad, mapCommit] s
    else unlessBusy p.base (within o 0x98 0x14 && !(outstandingCmds s).isEmpty) (storeRw p o v) s
  | .hbm => hbmWrite p o v s
  | .port => portWrite p o v s
  | .trace => traceRegs p o v s
  | .monitor => if o = 0x90 then writeMarginCmd p.die v s else storeRw p o v s
  | .power =>
    if o = 0x88 then setCap 0x88 v s
    else if within o 0xA0 0x24 then writeFrm p.die ((o - 0xA0) / 4) v (hostSource fn) s
    else storeRw p o v s
  | .cellar => cellarWrite p o v s
  | .routing => routeWrite p o v s
  | _ => storeRw p o v s

/-! ### Who writes a register (R485 and the rules it names) -/

/-- Shares and job bindings: a load by the page's owner, a commit by the physical function, in this order (R292, R455)
(DEDUCED, log 131). -/
def loadCommit (fn base o v : Nat) (load commit : State → State) (s : State) : State :=
  let s := s.when (bit v 0) (ownerWrite fn base o load)
  s.when (bit v 1) (pfWrite fn (base + o) commit)

/-- PWR_OWN in ascending bit order: the duty by the physical function or Muzomus, the setpoint by Muzomus (DEDUCED, log 94). -/
def writePwrOwn (fn v : Nat) (s : State) : State :=
  let off := powerPage 0 + 0x98
  let s := s.when (bit v 4) (pfOrMzm fn off (claimDuty fn))
  let s := s.when (bit v 5) (pfOrMzm fn off (releaseDuty fn))
  let s := s.when (bit v 6) (mzmWrite fn off claimVset)
  s.when (bit v 7) (mzmWrite fn off releaseVset)

/-- RST_STORM.limit, which Muzomus keeps (R476). -/
def writeStorm (v : Nat) (s : State) : State :=
  { s.setFld (resetPage 0) Fld.RST_STORM.limit (bits v 3 0) with
    mzm := { s.mzm with stormReg := putBits s.mzm.stormReg 3 0 (bits v 3 0) } }


/-- A register that holds one value per function. -/
def ownReg (fn o v : Nat) (s : State) : State :=
  let off := pciePage + o + fn * 2 ^ 28
  match o with
  | 0x84 => s.setRegN off (aboveBar2Lo s fn v)
  | 0x88 => s.setRegN off (aboveBar2Hi s fn (bits v 17 0))
  | 0x8C => s.setRegN off (bits v 23 0)
  | _ => s

/-- The fixed-range window of the selected function; function 0 has none of its own. -/
def fixwinWrite (v : Nat) (s : State) : State :=
  let f := s.fld pciePage Fld.PCI_FIXWIN_IDX.function
  if f = 0 then s else s.setRegN (pciePage + 0xA0 + f * 2 ^ 28) v

/-- What a write of a page's register does, and who may make it. -/
def pageWrite (fn : Nat) (p : Page) (o v : Nat) (s : State) : State :=
  let off := p.base + o
  if o = 0x0C then (if p.kind == .taster then tasterWrite (writeOwner fn p v) s else writeOwner fn p v s)
  else if within o 0x30 (4 * counterWords p.kind) then ownerWrite fn p.base o (fun s => s) s
  else if (regRow p.kind o).isNone || !(isPresent p o) then s
  else
    match p.kind, o with
    | .pcie, 0xA0 => pfWrite fn off (fixwinWrite v) s
    | .stream, 0x80 => streamAlloc fn (BitVec.ofNat 32 v) s
    | .stream, 0xA8 => loadCommit fn p.base o v jobLoad jobCommit s
    | .power, 0x8C => mzmWrite fn off (setCap 0x8C v) s
    | .power, 0x94 => pfOrMzm fn off (writeDutyOvr fn v) s
    | .power, 0x98 => writePwrOwn fn v s
    | .power, 0xD8 => loadCommit fn p.base o v shareLoad shareCommit s
    | .reset, 0x90 => pfWrite fn off (writeRstCtrl v) s
    | .reset, 0x9C => mzmWrite fn off (writeStorm v) s
    | .muzomus, 0x80 => pfOrMzm fn off (writeGpio fn v) s
    | .muzomus, 0x88 => mzmWrite fn off (fun s => coolantAct (storeRw p o v s)) s
    | .cellar, 0xDC => writeFeed fn v s
    | .monitor, 0x80 => pfOrMzm fn off (setProof p.die (bit v 0)) s
    | _, _ =>
      if p.kind == .pcie && within o 0x84 0x10 && decide (fn < 32) then guarded fn off true (ownReg fn o v) s
      else ownerWrite fn p.base o
        (if 0x30 ≤ o then blockWrite fn p o v
         else if p.kind == .taster then tasterWrite (commonWrite p.base o v)
         else commonWrite p.base o v) s

/-- The source code at the edge of a gated Forme: 8 for a write of CHS_CORE_CTRL.wake alone (R446, R447) (DEDUCED, log 65). -/
def writeSource (fn : Nat) (p : Page) (o v : Nat) : Nat :=
  if p.kind == .chase && o == 0x100 && bits v 6 0 == 16 then 8 else hostSource fn

/-- A write of a register: one to a Chase or Galley page waits at the edge of its Forme, once its writer is allowed. -/
def pageEdge (fn : Nat) (p : Page) (o v : Nat) (i : Instr) (s : State) : State :=
  if p.kind == .muzomus && s.mzm.restarting then s
  else if (p.kind == .chase || p.kind == .galley) && (ownsPage s fn p.base || o == 0x0C) && (fn ≥ 32 || s.ready) then
    atEdge (pagePath p) (writeSource fn p o v) modulePath i (hostWakeFail (pagePath p)) (pageWrite fn p o v) s
  else pageWrite fn p o v s

/-- A write of BAR0 by a function; `i` is the command that makes it. -/
def hostWrite (fn off v : Nat) (i : Instr) (s : State) : State :=
  match targetOf off with
  | .ctx id w => streamOwner fn off id (contextWrite id w v) s
  | .door id w => streamOwner fn off id (if w = 0 then sqDoorbell id v else cqDoorbell id v) s
  | .vec i => vectorWrite fn off i v s
  | .msix f => if fn < 32 && !s.ready then s else if fn = f then msixWrite f off v s else refuseArea fn off s
  | .page p o => pageEdge fn p o v i s
  | _ => s

def execRegWrite (fn off : Nat) (v : Word) (s : State) : Host.Outcome State Fault Refusal :=
  .next (posted fn (.regWrite fn off v) (hostWrite fn off v.toNat (.regWrite fn off v)) s)

/-- What writes one common register of the page that holds `off`; any other offset names no such register. -/
def commonAt (fn off o v : Nat) (i : Instr) (s : State) : State :=
  match targetOf off with
  | .page p o' => if o' = o then pageEdge fn p o v i s else s
  | _ => s

def execErrStatusClear (fn off : Nat) (v : Word) (s : State) : Host.Outcome State Fault Refusal :=
  .next (posted fn (.errStatusClear fn off v) (commonAt fn off 0x18 v.toNat (.errStatusClear fn off v)) s)
def execEvRawClear (fn off : Nat) (v : Word) (s : State) : Host.Outcome State Fault Refusal :=
  .next (posted fn (.evRawClear fn off v) (commonAt fn off 0x20 v.toNat (.evRawClear fn off v)) s)
def execEvForceWrite (fn off : Nat) (v : Word) (s : State) : Host.Outcome State Fault Refusal :=
  .next (posted fn (.evForceWrite fn off v) (commonAt fn off 0x2C v.toNat (.evForceWrite fn off v)) s)
def execPageOwnerWrite (fn off : Nat) (v : Word) (s : State) : Host.Outcome State Fault Refusal :=
  .next (posted fn (.pageOwnerWrite fn off v) (commonAt fn off 0x0C v.toNat (.pageOwnerWrite fn off v)) s)

/-- A write at the offset of a stream-vector word. -/
def vectorAt (fn off v : Nat) (s : State) : State :=
  match targetOf off with
  | .vec i => vectorWrite fn off i v s
  | _ => s

/-- STREAM_VECTOR_WRITE. -/
def execStreamVectorWrite (fn off : Nat) (v : Word) (s : State) : Host.Outcome State Fault Refusal :=
  .next (posted fn (.streamVectorWrite fn off v) (vectorAt fn off v.toNat) s)

end Sys2Proof.Machine
end

