-- ==== Sys2Proof/Machine/HostBar.lean ====
section
/-! DEFINITION. BAR2 (R480, R481, R487), configuration requests (R479, R483), Function Level Resets (R492), the PCI Express link
(R502), the coalescing of completion interrupts (R490), and the board's pins and alarms (R379, R500). -/

namespace Sys2Proof.Machine

/-! ### BAR2: the access rules (R481, R487) -/

/-- The Folio address of BAR2 offset 0 of a function (DEDUCED, log 119). -/
def bar2Base (s : State) (fn : Nat) : Nat := s.reg64 (pciePage + 0x84 + fn * 2 ^ 28) / bar2Size s fn * bar2Size s fn

/-- Folio `f` lies in the function's fixed-range window, in units of 64 Folios (DEDUCED, log 119). -/
def inWindow (s : State) (fn f : Nat) : Bool :=
  let w := s.regN (pciePage + 0xA0 + fn * 2 ^ 28)
  decide (bits w 18 0 ≤ f) && decide (f < bits w 18 0 + 64 * bits w 31 19)

/-- A virtual function may reach Folio `f`. -/
def mayReach (s : State) (fn f : Nat) : Bool :=
  if f < fixedFolios s then inWindow s fn f
  else
    match regionOf s f with
    | some id =>
      match s.region id with
      | some r => (s.job r.job).valid && (s.job r.job).fn == fn
      | none => false
    | none => false

/-- The Folios that `n` bytes from `a` touch. -/
def foliosOf (a n : Nat) : List Nat := (List.range ((a + n - 1) / 65536 - a / 65536 + 1)).map (fun i => a / 65536 + i)

/-- The first access rule that an access breaks: a status (DEDUCED, log 120). -/
def bar2Fault (s : State) (fn a n : Nat) : Option Nat :=
  if fn != 0 && !((foliosOf a n).all (mayReach s fn)) then some stPrivilege
  else if (unmappedIn s a n).isSome then some stAddress
  else none

/-- The code of PCI_PRIV_FN.status. -/
def privCode (st : Nat) : Nat :=
  if st = stAddress then 1 else if st = stEcc then 2 else if st = stQuota then 3 else if st = stTier then 4 else 0

/-- Logs a status of BAR2 in the PCI Express page, with function and offset bits [35:8]. -/
def logBar2 (fn x st : Nat) (s : State) : State := recordPriv fn (x / 256) 1 (privCode st) (logStatus pciePage st s)

/-- A request of the link: a function, bytes inside BAR2, at most the maximum payload (R477, R480) (DEDUCED, log 120). -/
def bar2Request (s : State) (fn x n : Nat) : Bool := decide (fn < 32) && decide (0 < n) && decide (n ≤ 512) && decide (x + n ≤ bar2Size s fn)

/-! ### BAR2: pieces of an access -/

/-- The bytes from `a` that lie in the Tile or Folio of the first: at most `n`. -/
def pieceLen (s : State) (a n : Nat) : Nat :=
  match tileAt s a with
  | some t => min n (t.addr + t.reg.strideBytes - a)
  | none => min n ((a / 65536 + 1) * 65536 - a)

/-- The pieces of an access, each in one Tile or one fixed Folio: address and length. -/
def barPieces (s : State) : Nat → Nat → Nat → List (Nat × Nat)
  | 0, _, _ => []
  | k + 1, a, n =>
    if n = 0 then []
    else
      let m := max 1 (pieceLen s a n)
      (a, m) :: barPieces s k (a + m) (n - m)

def piecesOf (s : State) (a n : Nat) : List (Nat × Nat) := barPieces s (n + 1) a n

/-- Writes bytes piece by piece. -/
def writePieces (a : Nat) (data : List (BitVec 8)) (s : State) : State :=
  s.each (piecesOf s a data.length) (fun p s => writeFolio p.1 ((data.drop (p.1 - a)).take p.2) s)

/-! ### BAR2 writes and reads -/

/-- A write that its access rules allow: Tiles allocated as for a command (R258), then the bytes. -/
def bar2Store (fn x a : Nat) (data : List (BitVec 8)) (s : State) : State :=
  let n := data.length
  match allocTiles [(a, n)] (regionTiles s a n) s with
  | .error f => logBar2 fn x f.status s
  | .ok t =>
    match (piecesOf t a n).find? (fun p => partialBad t p.1 p.2) with
    | some p => logBar2 fn x stEcc (noteEcc p.1 p.2 s)
    | none => writePieces a data t

/-- A write through BAR2; `i` is the command that makes it (DEDUCED, log 120). -/
def bar2Put (fn x : Nat) (data : List (BitVec 8)) (i : Instr) (s : State) : State :=
  let a := bar2Base s fn + x
  let n := data.length
  if !s.ready || !(bar2Request s fn x n) then s
  else
    match bar2Fault s fn a n with
    | some st => logBar2 fn x st s
    | none =>
      if mustWait s a n then let s := preferUnits a n s; { s with edge := s.edge ++ [i] }
      else
        match sleepingStore s a n with
        | some u => atEdge u 6 modulePath i (hostWakeFail u) (bar2Store fn x a data) s
        | none => bar2Store fn x a data s

def execBar2Write (fn off : Nat) (data : List Byte) (s : State) : Host.Outcome State Fault Refusal :=
  .next (posted fn (.bar2Write fn off data) (bar2Put fn off data (.bar2Write fn off data)) s)

/-- The failure of the first piece that cannot be read. -/
def pieceFail (s : State) (l : List (Nat × Nat)) : Option ((Nat × Nat) × ReadFail) :=
  l.findSome? (fun p => (readFail s p.1 p.2).map (fun f => (p, f)))

/-- The bytes of a read, those of a word with an uncorrectable error as free values (DEDUCED, log 121). -/
def loadBytes (s : State) (a n : Nat) : List (BitVec 8) :=
  (List.range n).map (fun i => if s.eccAt (physKey s (a + i)) = 2 then Config.badData (s.free + i) else folioByte s (a + i))

/-- A read that its access rules allow: data poisoned after an uncorrectable error (DEDUCED, log 121). -/
def bar2Load (fn x a n : Nat) (s : State) : State :=
  match pieceFail s (piecesOf s a n) with
  | some (p, .ecc) =>
    logBar2 fn x stEcc (noteEcc p.1 p.2 { s.send (.bar2Read fn x (loadBytes s a n) true) with free := s.free + n })
  | some (_, .tier _) => logBar2 fn x stTier ((readOver a n s).send (.bar2Read fn x (List.replicate n 0) false))
  | none => (readOver a n (readDone a n s)).send (.bar2Read fn x (folioBytes s a n) false)

/-- A read of `n` bytes at Folio address `a`, BAR2 offset `x`: its access rules, its wake, its data. -/
def bar2Serve (fn x a n : Nat) (i : Instr) (s : State) : State :=
  match bar2Fault s fn a n with
  | some st => logBar2 fn x st (s.send (.bar2Read fn x (List.replicate n 0) false))
  | none =>
    if remoteWaits s a n then let s := askRemote a n s; { s with edge := s.edge ++ [i] }
    else
    match sleepingStore s a n with
    | some u =>
      atEdge u 6 modulePath i (fun s => (hostWakeFail u s).send (.bar2Read fn x (List.replicate n 0) false)) (bar2Load fn x a n) s
    | none => bar2Load fn x a n s

/-- A read through BAR2 (DEDUCED, log 120). -/
def bar2Get (fn x n : Nat) (i : Instr) (s : State) : State :=
  if !s.ready || !(bar2Request s fn x n) then s.send (.bar2Read fn x (List.replicate n 0) false)
  else bar2Serve fn x (bar2Base s fn + x) n i s

def execBar2Read (fn off n : Nat) (s : State) : Host.Outcome State Fault Refusal :=
  .next (posted fn (.bar2Read fn off n) (bar2Get fn off (min n 512) (.bar2Read fn off n)) s)

/-! ### Configuration requests (R477, R479, R480, R483) -/

/-- The fastest rate that the link may run at: 4, 5 or 6 for the generation (R479). -/
def maxSpeed (s : State) : Nat :=
  let v := s.num (shadowBase + 0xAF) 1
  if 4 ≤ v && v ≤ 6 then v else 6

/-- The reference clock is separate, without spread spectrum (R477, R479). -/
def srns (s : State) : Bool := s.num (shadowBase + 0xB0) 1 == 1

/-- A word of configuration space: the identifiers, class code and revision of the option bytes, and what the table PCI Express
support fixes, in the form that the standard gives it: no INTx; an endpoint with Function Level Reset, payloads of 512 bytes and
ASPM L1; the link; MSI-X with 64 vectors, its table and pending bits in BAR0; AER; SR-IOV; a BAR2 of 1 GB to 64 GB. No list of
capabilities names another. Any other word is a free value (PRESUMED, log 122). -/
def configWord (s : State) (fn off : Nat) : Nat :=
  let o := fun a n => s.num (shadowBase + a) n
  let link := s.regN (pciePage + 0x80)
  match off with
  | 0x00 => o 0xA0 2 + (if fn = 0 then o 0xA2 2 else o 0xA4 2) * 2 ^ 16
  | 0x08 => o 0xAD 1 + o 0xAA 3 * 2 ^ 8
  | 0x2C => o 0xA6 2 + o 0xA8 2 * 2 ^ 16
  | 0x34 => 0x40
  | 0x3C => 0
  | 0x40 => 0x00028010
  | 0x44 => 2 + 2 ^ 28
  | 0x4C => maxSpeed s + 16 * 2 ^ 4 + 2 * 2 ^ 10
  | 0x50 => bits link 2 0 * 2 ^ 16 + bits link 7 3 * 2 ^ 20 + b2n (!(srns s)) * 2 ^ 28
  | 0x80 => 0x003F0011 + s.regN (cfgKey fn 0x80)
  | 0x84 => msixBase fn
  | 0x88 => msixBase fn + 0x800
  | 0x100 => 0x00020001 + (if fn = 0 then 0x148 else 0x190) * 2 ^ 20
  | 0x148 => if fn = 0 then 0x00010010 + 0x190 * 2 ^ 20 else Config.freeWord s.free % 2 ^ 32
  | 0x154 => if fn = 0 then totalVfs s * (2 ^ 16 + 1) else Config.freeWord s.free % 2 ^ 32
  | 0x190 => 0x00010015
  | 0x194 => 0x7F * 2 ^ 14
  | 0x198 => 2 + 2 ^ 5 + Nat.log2 (bar2Size s fn / 2 ^ 20) * 2 ^ 8
  | _ => Config.freeWord s.free % 2 ^ 32

/-- A write of configuration space: the enable and the function mask of MSI-X, of which the vectors that are masked no longer send
what is pending, and the size of BAR2 where the table allows it (PRESUMED, log 122). -/
def configWrite (fn off v : Nat) (s : State) : State :=
  match off with
  | 0x80 => (s.setRegN (cfgKey fn 0x80) (v &&& 0xC0000000)).each (List.range 64) (releaseVector fn)
  | 0x198 => if 10 ≤ bits v 13 8 && bits v 13 8 ≤ 16 then s.setRegN (cfgKey fn 0x198) (bits v 13 8) else s
  | _ => s

/-- CONFIG_REQUEST: Request Retry Status until ready; of a function that does not exist, all ones (PRESUMED, log 122). -/
def configRequest (fn off : Nat) (wr : Bool) (v : Word) (s : State) : State :=
  if !s.ready then s.send (.config fn off none)
  else if !(fnThere s fn) then s.send (.config fn off (some 0xFFFFFFFF))
  else if wr then (configWrite fn off v.toNat s).send (.config fn off (some 0))
  else { s.send (.config fn off (some (BitVec.ofNat 32 (configWord s fn off)))) with free := s.free + 1 }

def execConfigRequest (fn : Nat) (a : CfgAccess) (s : State) : Host.Outcome State Fault Refusal :=
  .next (configRequest fn a.off a.wr a.v s)

/-! ### Function Level Resets and the link (R492, R502) -/

/-- Streams that function `f` owns and that are not FREE. -/
def streamsOf (s : State) (f : Nat) : List Nat :=
  (List.filter (fun (e : Nat × Stream) => e.2.owner == f && e.2.state != sFree) s.streams).map (·.1)

/-- Step 1: the stream drains, its records written even where no slot is free (DEDUCED, log 123). -/
def flrStream (id : Nat) (s : State) : State :=
  if (s.stream id).state == sDraining then s.setStream id { s.stream id with flr := true }
  else drainStream id (s.setStream id { s.stream id with state := sDraining, flr := true })

/-- Step 2: the function's MSI-X area, vector bytes, BAR2 base, coalescing and allocation requests (DEDUCED, log 123). -/
def flrClear (f : Nat) (ids : List Nat) (s : State) : State :=
  let mine := fun (k : Nat) =>
    within k (msixBase f) 0x1000 || within k (cfgKey f 0) 0x1000 || [0x84, 0x88, 0x8C].any (fun o => k == pciePage + o + f * 2 ^ 28)
  let s := { s with regs := List.filter (fun (e : Nat × Word) => !(mine e.1)) s.regs,
                    irqs := List.filter (fun (e : Nat × IrqPend) => e.1 / 64 != f) s.irqs
                    allocs := s.allocs.filter (fun r => r.1 != f) }
  s.each ids (fun id s => { s with vectors := SMap.set (fun _ => 0) s.vectors id 0 })

/-- A Function Level Reset of one function. -/
def flrOne (f : Nat) (s : State) : State :=
  let ids := streamsOf s f
  flrClear f ids (s.each ids flrStream)

/-- FUNCTION_LEVEL_RESET: that of the physical function acts on every function (DEDUCED, log 123). -/
def functionReset (f : Nat) (s : State) : State :=
  if f = 0 then s.each (List.range 32) flrOne else if f < 32 && fnThere s f then flrOne f s else s

def execFunctionLevelReset (f : Nat) (s : State) : Host.Outcome State Fault Refusal := .next (functionReset f s)

/-- A rate and a width that the link supports (R477, R479). -/
def linkFits (s : State) (speed width : Nat) : Bool := decide (4 ≤ speed) && decide (speed ≤ maxSpeed s) && [1, 4, 8, 16].contains width

/-- The link word of PCI_LINK; 64 GT/s runs in flit mode (R477) (DEDUCED, log 124). -/
def linkWord (speed width : Nat) (flit : Bool) : Nat := speed % 8 + width % 32 * 8 + b2n (flit || speed == 6) * 256

/-- A change of the link: EV_LINK_CHANGE on each change of speed or width (DEDUCED, log 124). -/
def setLink (w : Nat) (s : State) : State :=
  let old := s.regN (pciePage + 0x80)
  let s := s.setRegN (pciePage + 0x80) w
  if bits w 7 0 != bits old 7 0 then raiseEv pciePage 0 s else s

/-- PCIE_LINK_CHANGE: 0 a change of speed or width, 1 loss of link, 2 hot reset, 3 link disable; a rate or a width that the link
does not support leaves it as it is (DEDUCED, log 124). -/
def linkChange (kind speed width : Nat) (flit : Bool) (s : State) : State :=
  let w := if linkFits s speed width then linkWord speed width flit else s.regN (pciePage + 0x80)
  match kind with
  | 0 => setLink w s
  | 1 => functionReset 0 (setLink 0 s)
  | 2 => functionReset 0 (setLink w s)
  | 3 => functionReset 0 (setLink 0 s)
  | _ => s

def execPcieLinkChange (kind speed width : Nat) (flit : Bool) (s : State) : Host.Outcome State Fault Refusal :=
  .next (linkChange kind speed width flit s)

/-- IRQ_HOLDOFF_EXPIRY: the holdoff has run since the first pending completion (R490) (DEDUCED, log 125). -/
def holdoffExpiry (fn vec : Nat) (s : State) : State :=
  let p := SMap.get (fun _ => (⟨0, 0⟩ : IrqPend)) s.irqs (fn * 64 + vec)
  if vec < 64 && 0 < p.count && p.since + bits (coalOf s fn) 15 0 ≤ s.time then irqSend fn vec s else s

def execIrqHoldoffExpiry (fn vec : Nat) (s : State) : Host.Outcome State Fault Refusal := .next (holdoffExpiry fn vec s)

/-! ### Pins and alarms (R379, R500) -/

/-- Every Forme of both dies wakes, with source 9. -/
def wakeEvery (s : State) : State :=
  s.each [0, 1] (fun d s => s.each (List.range 9) (fun f => startWake (formePath d f) 9 modulePath))

/-- WAKE_PIN: the filtered level of WAKE_N. -/
def wakePin (level : Bool) (s : State) : State :=
  let was := s.flag mzmPage Fld.MZM_GPIO_STATUS.wake_n
  let s := s.setFlag mzmPage Fld.MZM_GPIO_STATUS.wake_n level
  if was && !level then
    let s := raiseEv mzmPage 0 s
    if s.flag mzmPage Fld.MZM_GPIO_OWN.wake_formes then wakeEvery s else s
  else s

def execWakePin (level : Bool) (s : State) : Host.Outcome State Fault Refusal := .next (wakePin level s)

/-- COOLANT_PIN: with cool_act the cap is lowered while the pin is low, and restored as it rises (DEDUCED, log 134). -/
def coolantPin (level : Bool) (s : State) : State := coolantAct (s.setFlag mzmPage Fld.MZM_GPIO_STATUS.coolant_n level)

def execCoolantPin (level : Bool) (s : State) : Host.Outcome State Fault Refusal := .next (coolantPin level s)

/-- BOARD_ALARM: alarm 0 is the coolant alarm, 1 to 31 are the board's others (DEDUCED, log 72). -/
def boardAlarm (alarm : Nat) (on : Bool) (s : State) : State :=
  if alarm < 32 then { s with cask := { s.cask with alarms := putBits s.cask.alarms alarm alarm (b2n on) } } else s

def execBoardAlarm (alarm : Nat) (on : Bool) (s : State) : Host.Outcome State Fault Refusal := .next (boardAlarm alarm on s)

end Sys2Proof.Machine
end

