-- ==== Sys2Proof/Machine/Wake.lean ====
section
/-! DEFINITION. Accesses that waited go on: at the edge of a Forme that has come ON or has failed to (R446 to R448), and behind a
move or the Cask writer (R253, R376, R481), each function's posted writes in order (R482). -/

namespace Sys2Proof.Machine

/-- The next state of an outcome; `s` where there is none (DESIGN CHOICE, log 3). -/
def outcomeOr (s : State) : Host.Outcome State Fault Refusal → State
  | .next t => t
  | _ => s

/-- A gated Forme whose store a move in progress needs. -/
def moveEdge (s : State) (r j : Nat) : Option Nat :=
  match s.tiers.moves.find? (fun m => m.region == r && m.tile == j), s.region r with
  | some m, some g => (moveStores (tileState s ⟨r, g, j⟩) m).find? (formeGated s)
  | _, _ => none

/-- A move commits, or stalls at the edge of a gated Forme whose store it needs (DEDUCED, log 126). -/
def moveTry (r j : Nat) (s : State) : State :=
  match moveEdge s r j with
  | some u => let s := startWake u 6 (diePath (pathDie u)) s; { s with edge := s.edge ++ [.tileMoveCommit r j] }
  | none => tileMoveCommit r j s

/-- An access that waited is made again (DEDUCED, log 126). -/
def proceed (i : Instr) (s : State) : State :=
  match i with
  | .tokenArrival u stream seq st => outcomeOr s (execTokenArrival u stream seq st s)
  | .creditArrival u ctr count => outcomeOr s (execCreditArrival u ctr count s)
  | .waitTimerExpiry ch => outcomeOr s (execWaitTimerExpiry ch s)
  | .coreRun fn ch => outcomeOr s (execCoreRun fn ch s)
  | .coreHalt fn ch => outcomeOr s (execCoreHalt fn ch s)
  | .coreStep fn ch => outcomeOr s (execCoreStep fn ch s)
  | .coreReset fn ch => outcomeOr s (execCoreReset fn ch s)
  | .coreWake fn ch => outcomeOr s (execCoreWake fn ch s)
  | .loadImem fn ch => outcomeOr s (execLoadImem fn ch s)
  | .loadDmem fn ch => outcomeOr s (execLoadDmem fn ch s)
  | .chsMemDataAccess fn ch wr v => outcomeOr s (execChsMemDataAccess fn ch wr v s)
  | .stepEnd fn v => outcomeOr s (execStepEnd fn v s)
  | .hydRingCfgWrite fn d v => outcomeOr s (execHydRingCfgWrite fn d v s)
  | .ptgEntLoad fn => outcomeOr s (execPtgEntLoad fn s)
  | .ptgEntCommit fn => outcomeOr s (execPtgEntCommit fn s)
  | .lscaleWrite fn v => outcomeOr s (execLscaleWrite fn v s)
  | .seedLoad fn => outcomeOr s (execSeedLoad fn s)
  | .seedCommit fn => outcomeOr s (execSeedCommit fn s)
  | .tstEntLoad fn => outcomeOr s (execTstEntLoad fn s)
  | .tstEntCommit fn => outcomeOr s (execTstEntCommit fn s)
  | .regionMap fn r => outcomeOr s (execRegionMap fn r s)
  | .regionUnmap fn r => outcomeOr s (execRegionUnmap fn r s)
  | .quotaLoad fn => outcomeOr s (execQuotaLoad fn s)
  | .quotaCommit fn => outcomeOr s (execQuotaCommit fn s)
  | .leaseLoad fn => outcomeOr s (execLeaseLoad fn s)
  | .leaseRequest fn => outcomeOr s (execLeaseRequest fn s)
  | .leaseRenew fn => outcomeOr s (execLeaseRenew fn s)
  | .leaseRelease fn => outcomeOr s (execLeaseRelease fn s)
  | .lendCfgWrite fn d v => outcomeOr s (execLendCfgWrite fn d v s)
  | .streamAlloc fn v => outcomeOr s (execStreamAlloc fn v s)
  | .streamContextWrite fn id word v => outcomeOr s (execStreamContextWrite fn id word v s)
  | .streamActivate fn id => outcomeOr s (execStreamActivate fn id s)
  | .streamPause fn id => outcomeOr s (execStreamPause fn id s)
  | .streamResume fn id => outcomeOr s (execStreamResume fn id s)
  | .streamClose fn id => outcomeOr s (execStreamClose fn id s)
  | .sqDoorbell fn id v => outcomeOr s (execSqDoorbell fn id v s)
  | .cqDoorbell fn id v => outcomeOr s (execCqDoorbell fn id v s)
  | .jobLoad fn => outcomeOr s (execJobLoad fn s)
  | .jobCommit fn => outcomeOr s (execJobCommit fn s)
  | .portEnable fn p v => outcomeOr s (execPortEnable fn p v s)
  | .portRetrain fn p => outcomeOr s (execPortRetrain fn p s)
  | .writeRx p pkt => outcomeOr s (execWriteRx p pkt s)
  | .readReqRx p pkt => outcomeOr s (execReadReqRx p pkt s)
  | .readRespRx p pkt => outcomeOr s (execReadRespRx p pkt s)
  | .bgWriteRx p pkt => outcomeOr s (execBgWriteRx p pkt s)
  | .bgReadReqRx p pkt => outcomeOr s (execBgReadReqRx p pkt s)
  | .rtLoad fn => outcomeOr s (execRtLoad fn s)
  | .rtCommit fn => outcomeOr s (execRtCommit fn s)
  | .ctxLoad fn => outcomeOr s (execCtxLoad fn s)
  | .ctxArm fn => outcomeOr s (execCtxArm fn s)
  | .ctxDisarm fn => outcomeOr s (execCtxDisarm fn s)
  | .psetLoad fn => outcomeOr s (execPsetLoad fn s)
  | .psetCommit fn => outcomeOr s (execPsetCommit fn s)
  | .mapEntLoad fn => outcomeOr s (execMapEntLoad fn s)
  | .mapEntCommit fn => outcomeOr s (execMapEntCommit fn s)
  | .caskRequest fn => outcomeOr s (execCaskRequest fn s)
  | .stopArm fn v => outcomeOr s (execStopArm fn v s)
  | .caskCut fn => outcomeOr s (execCaskCut fn s)
  | .caskResume fn => outcomeOr s (execCaskResume fn s)
  | .caskRestore fn v => outcomeOr s (execCaskRestore fn v s)
  | .buddyPair fn v => outcomeOr s (execBuddyPair fn v s)
  | .feedWrite fn v => outcomeOr s (execFeedWrite fn v s)
  | .traceEnable fn d v => outcomeOr s (execTraceEnable fn d v s)
  | .traceTrigger fn d => outcomeOr s (execTraceTrigger fn d s)
  | .traceArm fn d => outcomeOr s (execTraceArm fn d s)
  | .counterSnap fn => outcomeOr s (execCounterSnap fn s)
  | .snapRelease fn => outcomeOr s (execSnapRelease fn s)
  | .hangRequest fn => outcomeOr s (execHangRequest fn s)
  | .proofModeWrite fn d v => outcomeOr s (execProofModeWrite fn d v s)
  | .marginStart fn d v => outcomeOr s (execMarginStart fn d v s)
  | .clrRead fn => outcomeOr s (execClrRead fn s)
  | .clrAppend fn => outcomeOr s (execClrAppend fn s)
  | .formeWakeRetry fn d f => outcomeOr s (execFormeWakeRetry fn d f s)
  | .forceOnWrite fn d f v => outcomeOr s (execForceOnWrite fn d f v s)
  | .capWrite fn mgmt v => outcomeOr s (execCapWrite fn mgmt v s)
  | .shareLoad fn => outcomeOr s (execShareLoad fn s)
  | .shareCommit fn => outcomeOr s (execShareCommit fn s)
  | .claimDuty fn => outcomeOr s (execClaimDuty fn s)
  | .releaseDuty fn => outcomeOr s (execReleaseDuty fn s)
  | .claimVset fn => outcomeOr s (execClaimVset fn s)
  | .releaseVset fn => outcomeOr s (execReleaseVset fn s)
  | .rstCtrlWrite fn v => outcomeOr s (execRstCtrlWrite fn v s)
  | .bar2Write fn off data => outcomeOr s (execBar2Write fn off data s)
  | .bar2Read fn off n => outcomeOr s (execBar2Read fn off n s)
  | .streamVectorWrite fn off v => outcomeOr s (execStreamVectorWrite fn off v s)
  | .pageOwnerWrite fn off v => outcomeOr s (execPageOwnerWrite fn off v s)
  | .claimWake fn => outcomeOr s (execClaimWake fn s)
  | .releaseWake fn => outcomeOr s (execReleaseWake fn s)
  | .claimFault fn => outcomeOr s (execClaimFault fn s)
  | .releaseFault fn => outcomeOr s (execReleaseFault fn s)
  | .errStatusClear fn off v => outcomeOr s (execErrStatusClear fn off v s)
  | .evRawClear fn off v => outcomeOr s (execEvRawClear fn off v s)
  | .evForceWrite fn off v => outcomeOr s (execEvForceWrite fn off v s)
  | .loReadLatch fn off => outcomeOr s (execLoReadLatch fn off s)
  | .regWrite fn off v => outcomeOr s (execRegWrite fn off v s)
  | .refusedRead fn off => outcomeOr s (execRefusedRead fn off s)
  | .tileMoveCommit r j => moveTry r j s
  | _ => s

/-- Every access that waits is made again, in order; one that must wait on takes its place at the end again (DEDUCED, log 126). -/
def rerun (s : State) : State := s.edge.foldl (fun s i => proceed i s) { s with edge := [] }

/-! ### Wakes that end -/

/-- A wake of the Forme is in progress (DEDUCED, log 126). -/
def waking (s : State) (d f : Nat) : Bool := f < 9 && bit (s.regN (frmOff d f)) 6

/-- The wake's record ends; the Forme takes state `st`. -/
def endWake (d f st : Nat) (s : State) : State :=
  let s := setFormeState d f st (s.setRegN (frmOff d f) (putBits (s.regN (frmOff d f)) 6 6 0))
  { s with wakeAt := SMap.set (fun _ => 0) s.wakeAt (d * 16 + f) 0 }

/-- FORME_WAKE_DONE: the Forme is ON, and what stalled at its edge goes on (DEDUCED, log 126). -/
def wakeDone (d f : Nat) (s : State) : State :=
  if waking s d f then settle (tryArrays (formePath d f) (rerun (endWake d f 0 s))) else s

def execFormeWakeDone (d f : Nat) (s : State) : Host.Outcome State Fault Refusal := .next (wakeDone (d % 2) f s)

/-- The units of a Forme that hold a queue. -/
def unitsOf (s : State) (d f : Nat) : List Nat := (s.units.map (·.1)).filter (fun u => decide (pathLevel u ≤ 2) && contains (formePath d f) u)

/-- Every command and share that stalled on the way into a unit completes with WAKE_TIMEOUT. -/
def failQueue (u : Nat) (s : State) : State :=
  s.each ((s.q u).filter (fun e => e.phase == .waiting || e.phase == .held)) (fun e s =>
    settle (finish u e ⟨stWakeTo, 0, 0, 0⟩ (countWakeTo u s)))

/-- The start of a test that waits on a wake ends with the wake's failure as a host write does (R427, R448) (DEDUCED, log 96). -/
def dropTest (d f : Nat) (s : State) : State :=
  s.when ((s.mon d).test.any (fun t => t.forme == f)) (fun s =>
    let s := (s.setFlag (monPage d) Fld.MON_MARGIN_CMD.busy false).setMon d { s.mon d with test := none }
    let s := s.when ((s.mon 0).test.isNone && (s.mon 1).test.isNone) (fun s => s.setFld (powerPage 0) Fld.PWR_OWN.vset_owner 0)
    hostWakeFail (formePath d f) s)

/-- FORME_WAKE_TIMEOUT: 106,250 ticks after the wake began (R448) (DESIGN CHOICE, log 4; DEDUCED, log 96). -/
def wakeTimeout (d f : Nat) (s : State) : State :=
  if waking s d f && decide (SMap.get (fun _ => 0) s.wakeAt (d * 16 + f) + 106250 ≤ s.time) then
    let s := raiseEv (powerPage d) 1 (endWake d f 3 (dropTest d f s))
    s.each (unitsOf s d f) failQueue |> rerun
  else s

def execFormeWakeTimeout (d f : Nat) (s : State) : Host.Outcome State Fault Refusal := .next (wakeTimeout (d % 2) f s)

/-! ### Moves and the Cask writer -/

/-- TILE_MOVE_COMMIT: once a move has committed, the writes that it held go on. -/
def moveCommit (r j : Nat) (s : State) : State := rerun (moveTry r j s)

def execTileMoveCommit (r j : Nat) (s : State) : Host.Outcome State Fault Refusal := .next (moveCommit r j s)

/-- PENDING_UNIT_COPIED: what waited for the unit goes on. -/
def unitCopied (s : State) : State := rerun (pendingUnitCopied s)

def execPendingUnitCopied (s : State) : Host.Outcome State Fault Refusal := .next (unitCopied s)

end Sys2Proof.Machine
end

