-- ==== Sys2Proof/Machine/Mgmt.lean ====
section
/-! DEFINITION. Muzomus as a management endpoint: MCTP control (R494), PLDM types 0, 2 and 5 (R436, R437, R495 to R497), firmware
activation (R475), and the two test access ports (R498, R499). -/

namespace Sys2Proof.Machine

/-! ### Replies. Completion codes are those of the DMTF specifications that the spec names -/

/-- Success (PRESUMED, log 98). -/
def okCode : Nat := 0
/-- DSP0240: invalid data; unsupported sensor, component or type; wrong length or state (PRESUMED, log 98). -/
def badDataCode : Nat := 2
/-- DSP0236, DSP0240: a type or a version that is not supported (PRESUMED, log 98). -/
def badTypeCode : Nat := 0x80
/-- DSP0240: no such version (PRESUMED, log 98). -/
def noVersionCode : Nat := 0x83
/-- DSP0248: no such sensor (PRESUMED, log 98). -/
def badSensorCode : Nat := 0x80
/-- DSP0267: not in update mode, already in update mode, a command that the state does not expect (PRESUMED, log 98). -/
def notUpdating : Nat := 0x80
/-- DSP0267: an update is under way (PRESUMED, log 98). -/
def alreadyUpdating : Nat := 0x81
/-- DSP0267: not in this state (PRESUMED, log 98). -/
def wrongState : Nat := 0x84

/-- Muzomus answers nothing while it is without supply or restarts (R475) (DEDUCED, log 100). -/
def mzmUp (s : State) : Bool := s.power.vin != 0 && !s.mzm.restarting

/-- The module runs its recovery firmware (DEDUCED, log 100). -/
def inRecovery (s : State) : Bool := s.flag mzmPage Fld.MZM_STATUS.recovery

/-- A request of MCTP control or of PLDM type 5: Muzomus acts on it whenever it is up (R474) (DEDUCED, log 100). -/
def asked (f : State → State) (s : State) : State := if mzmUp s then f s else s

/-- A request of PLDM type 0 or 2: unanswered in recovery (R474) (DEDUCED, log 100). -/
def askedPldm (f : State → State) (s : State) : State := if mzmUp s && !(inRecovery s) then f s else s

/-- A reply. -/
def answer (ep : Nat) (what : String) (code : Nat) (data : List Nat) (s : State) : State := s.send (.mgmt ep what code data)

/-- A reply whose bytes the spec does not give (DEDUCED, log 99). -/
def answerOpen (ep : Nat) (what : String) (kind n : Nat) (s : State) : State :=
  answer ep what okCode ((List.range n).map (fun i => Config.mgmtField kind i)) s

/-! ### Bindings (R493, R494). A request here is a whole message; these say in what packets messages travel -/

/-- The address at which Muzomus is an SMBus target (R493). -/
def smbAddress (s : State) : Nat := 0x4C + s.mzm.smbStrap

/-- The baseline transmission unit of both bindings, in bytes (R494). -/
def mctpUnit : Nat := 64

/-- A message's body cut into packet payloads. -/
def mctpPayloads : Nat → List Nat → List (List Nat)
  | 0, _ => []
  | k + 1, l => if l.isEmpty then [] else l.take mctpUnit :: mctpPayloads k (l.drop mctpUnit)

/-- One byte of the packet error check: the CRC-8 of SMBus, polynomial 0x07 (PRESUMED, log 176). -/
def pecByte (c b : Nat) : Nat :=
  (List.range 8).foldl (fun c _ => if 128 ≤ c then ((c * 2) ^^^ 0x107) % 256 else c * 2) ((c ^^^ b) % 256)

def smbPec (l : List Nat) : Nat := l.foldl pecByte 0

/-- A packet to Muzomus over SMBus is taken at its address and with a good packet error check only: its bytes from the address on,
the check last (R493) (PRESUMED, log 176). -/
def smbTakes (s : State) (l : List Nat) : Bool :=
  l.headD 0 == 2 * smbAddress s && smbPec l.dropLast == l.getLastD 256

/-- A packet over PCI Express is taken when it is a vendor-defined message routed by ID to the physical function (R494). -/
def vdmTakes (byId : Bool) (fn : Nat) : Bool := byId && fn == 0

/-! ### MCTP control (R494) -/

/-- The bus owner assigns the endpoint id; DSP0236 reserves 0 to 7 and 0xFF (PRESUMED, log 98). -/
def setEid (ep eid : Nat) (s : State) : State :=
  if 8 ≤ eid && eid ≤ 254 then answer ep "SET_ENDPOINT_ID" okCode [eid] (s.setFld mzmPage Fld.MZM_STATUS.eid eid)
  else answer ep "SET_ENDPOINT_ID" badDataCode [s.fld mzmPage Fld.MZM_STATUS.eid] s

def execSetEndpointId (ep eid : Nat) (s : State) : Host.Outcome State Fault Refusal := .next (asked (setEid ep eid) s)

def getEid (ep : Nat) (s : State) : State := answer ep "GET_ENDPOINT_ID" okCode [s.fld mzmPage Fld.MZM_STATUS.eid] s

def execGetEndpointId (ep : Nat) (s : State) : Host.Outcome State Fault Refusal := .next (asked (getEid ep) s)

/-- The answer with the module's UUID (DEDUCED, log 99). -/
def getUuid (ep : Nat) (s : State) : State := answer ep "GET_ENDPOINT_UUID" okCode [Config.uuid.toNat] s

def execGetEndpointUuid (ep : Nat) (s : State) : Host.Outcome State Fault Refusal := .next (asked (getUuid ep) s)

/-- Versions of a message type: MCTP itself is 1.3 (type 0, or 0xFF for the base specification); PLDM is type 1. -/
def mctpVersion (ep type : Nat) (s : State) : State :=
  if type = 0 || type = 0xFF then answer ep "GET_MCTP_VERSION_SUPPORT" okCode [1, 3] s
  else if type = 1 then answerOpen ep "GET_MCTP_VERSION_SUPPORT" 1 2 s
  else answer ep "GET_MCTP_VERSION_SUPPORT" badTypeCode [] s

def execGetMctpVersionSupport (ep type : Nat) (s : State) : Host.Outcome State Fault Refusal := .next (asked (mctpVersion ep type) s)

/-- MCTP control and PLDM only. -/
def messageTypes (ep : Nat) (s : State) : State := answer ep "GET_MESSAGE_TYPE_SUPPORT" okCode [0, 1] s

def execGetMessageTypeSupport (ep : Nat) (s : State) : Host.Outcome State Fault Refusal := .next (asked (messageTypes ep) s)

/-! ### PLDM type 0 (R495) -/

def getTid (ep : Nat) (s : State) : State := answer ep "GET_TID" okCode [s.mzm.tid] s

def execGetTid (ep : Nat) (s : State) : Host.Outcome State Fault Refusal := .next (askedPldm (getTid ep) s)

/-- DSP0240 reserves 0 and 0xFF (PRESUMED, log 98). -/
def setTid (ep tid : Nat) (s : State) : State :=
  if 1 ≤ tid && tid ≤ 254 then answer ep "SET_TID" okCode [] { s with mzm := { s.mzm with tid := tid } }
  else answer ep "SET_TID" badDataCode [] s

def execSetTid (ep tid : Nat) (s : State) : Host.Outcome State Fault Refusal := .next (askedPldm (setTid ep tid) s)

def pldmTypes : List Nat := [0, 2, 5]

/-- The answer with the version of a PLDM type (PRESUMED, log 98). -/
def pldmVersion (ep type : Nat) (s : State) : State :=
  if pldmTypes.contains type then answerOpen ep "GET_PLDM_VERSION" (2 + type) 1 s
  else answer ep "GET_PLDM_VERSION" noVersionCode [] s

def execGetPldmVersion (ep type : Nat) (s : State) : Host.Outcome State Fault Refusal := .next (askedPldm (pldmVersion ep type) s)

def getPldmTypes (ep : Nat) (s : State) : State := answer ep "GET_PLDM_TYPES" okCode pldmTypes s

def execGetPldmTypes (ep : Nat) (s : State) : Host.Outcome State Fault Refusal := .next (askedPldm (getPldmTypes ep) s)

/-- The commands of a type by their DMTF codes, of the command lists of R495, R436 and R496 (PRESUMED, log 98). -/
def pldmCommands (type : Nat) : List Nat :=
  if type = 0 then [0x01, 0x02, 0x03, 0x04, 0x05]
  else if type = 2 then [0x04, 0x0A, 0x0B, 0x10, 0x11, 0x13, 0x21, 0x50, 0x51]
  else if type = 5 then [0x01, 0x02, 0x10, 0x13, 0x14, 0x15, 0x16, 0x17, 0x18, 0x1A, 0x1B, 0x1C, 0x1D]
  else []

def listCommands (ep type : Nat) (s : State) : State :=
  if pldmTypes.contains type then answer ep "GET_PLDM_COMMANDS" okCode (pldmCommands type) s
  else answer ep "GET_PLDM_COMMANDS" noVersionCode [] s

def execGetPldmCommands (ep type : Nat) (s : State) : Host.Outcome State Fault Refusal := .next (askedPldm (listCommands ep type) s)

/-! ### PLDM type 2 (R436, R437) -/

/-- A sensor's record: its id, and for a numeric sensor unit and unit modifier (modulo 256), for a state sensor how many states
each of its parts has (table PLDM sensors). -/
inductive Pdr where
  | numeric (id unit modifier : Nat)
  | state (id : Nat) (states : List Nat)
  deriving DecidableEq, Repr

/-- The unit and modifier of a monitor's sensor; DSP0248 numbers degrees Celsius 2, volts 5, hertz 20, no unit 0 (PRESUMED,
log 98). -/
def sensorUnit (n : Nat) : Nat × Nat := if n < 32 then (2, 256 - 2) else if n < 64 then (5, 256 - 4) else (20, 3)

/-- The repository: one record a sensor, in the order of the table (R436) (DEDUCED, log 99). -/
def pdrs : List Pdr :=
  ([0, 1].map (fun d => allSensors.map (fun n => Pdr.numeric (sensorId d n) (sensorUnit n).1 (sensorUnit n).2))).flatten ++
  [.numeric 0x2000 0 0, .state 0x2001 [2], .state 0x2002 [3, 3]]

/-- The PDR type of DSP0248 and the fields that the table gives (PRESUMED, log 98). -/
def Pdr.fields : Pdr → List Nat
  | .numeric id unit modifier => [2, id, unit, modifier]
  | .state id states => [4, id] ++ states

/-- Fields of a reply that the spec does not give (DEDUCED, log 99). -/
def openFields (kind n : Nat) : List Nat := (List.range n).map (fun i => Config.mgmtField kind i)

/-- The number of records, and what the spec does not give (DEDUCED, log 99). -/
def pdrInfo (ep : Nat) (s : State) : State := answer ep "GET_PDR_REPOSITORY_INFO" okCode (pdrs.length :: openFields 16 8) s

/-- DEDUCED, log 99. -/
def execGetPdrRepositoryInfo (ep : Nat) (s : State) : Host.Outcome State Fault Refusal := .next (askedPldm (pdrInfo ep) s)

/-- DSP0248: no such record (PRESUMED, log 98). -/
def badRecordCode : Nat := 0x82

/-- One record: handles count from 1, and 0 asks for the first; the reply leads with the next handle, 0 behind the last
(R436) (DEDUCED, log 99). -/
def getPdr (ep handle : Nat) (s : State) : State :=
  let k := max 1 handle
  match pdrs[k - 1]? with
  | some r =>
    answer ep "GET_PDR" okCode ([if k < pdrs.length then k + 1 else 0, k] ++ r.fields ++ openFields (2 ^ 16 + k) 8) s
  | none => answer ep "GET_PDR" badRecordCode [] s

/-- DEDUCED, log 99. -/
def execGetPdr (ep handle : Nat) (s : State) : Host.Outcome State Fault Refusal := .next (askedPldm (getPdr ep handle) s)

/-- Die and sensor of a numeric sensor id of the monitors (table PLDM sensors). -/
def sensorOf (id : Nat) : Option (Nat × Nat) :=
  (([0, 1].map (fun d => allSensors.map (fun n => (d, n)))).flatten).find? (fun x => sensorId x.1 x.2 == id)

/-- The value in the table's unit: hundredths of a degree, 0.1 mV, kHz. A temperature that is no whole hundredth reads as
one of its neighbours (DEDUCED, log 101). -/
def reading (s : State) (d n : Nat) : Int :=
  let v := sensorValue s d n
  if n < 32 then (if 25 * v % 16 = 0 then 25 * v / 16 else 25 * v / 16 + Config.freeWord s.free % 2) else v

/-- Operational states: 0 enabled, 1 disabled, 2 unavailable. -/
def sensorState (s : State) (id : Nat) (valid : Bool) : Nat :=
  if s.mzm.disabled.contains id then 1 else if valid then 0 else 2

/-- The answer with a sensor's state and reading (DEDUCED, log 101). -/
def sensorReading (ep id : Nat) (s : State) : State :=
  if id = 0x2000 then answer ep "GET_SENSOR_READING" okCode [sensorState s id true, s.fld cellarPage Fld.CSK_RISK.risk] s
  else
    match sensorOf id with
    | some (d, n) =>
      let r := toU 32 (reading s d n)
      { answer ep "GET_SENSOR_READING" okCode [sensorState s id (sensorValid s d n), r] s with free := s.free + 1 }
    | none => answer ep "GET_SENSOR_READING" badSensorCode [] s

def execGetSensorReading (ep id : Nat) (s : State) : Host.Outcome State Fault Refusal := .next (askedPldm (sensorReading ep id) s)

/-- 0x2001: 0 normal, 1 alarm. 0x2002, for each die: 0 normal, 1 proof, 2 ready. -/
def stateReadings (ep id : Nat) (s : State) : State :=
  if id = 0x2001 then answer ep "GET_STATE_SENSOR_READINGS" okCode [b2n (!(s.flag mzmPage Fld.MZM_GPIO_STATUS.coolant_n))] s
  else if id = 0x2002 then answer ep "GET_STATE_SENSOR_READINGS" okCode [proofState s 0, proofState s 1] s
  else answer ep "GET_STATE_SENSOR_READINGS" badSensorCode [] s

def execGetStateSensorReadings (ep id : Nat) (s : State) : Host.Outcome State Fault Refusal :=
  .next (askedPldm (stateReadings ep id) s)

def sensorEnable (ep id : Nat) (enable : Bool) (s : State) : State :=
  if id = 0x2000 || (sensorOf id).isSome then
    let l := s.mzm.disabled.filter (· != id)
    answer ep "SET_NUMERIC_SENSOR_ENABLE" okCode [] { s with mzm := { s.mzm with disabled := if enable then l else l ++ [id] } }
  else answer ep "SET_NUMERIC_SENSOR_ENABLE" badSensorCode [] s

def execSetNumericSensorEnable (ep id : Nat) (enable : Bool) (s : State) : Host.Outcome State Fault Refusal :=
  .next (askedPldm (sensorEnable ep id enable) s)

/-- The field pair of MON_TEMP_THR or MON_PHASE_THR that a temperature sensor shares with its kind. -/
def putThresholds (d n w c : Nat) (s : State) : State :=
  let b := monPage d
  if n < 9 then (s.setFld b Fld.MON_TEMP_THR.forme_warn w).setFld b Fld.MON_TEMP_THR.forme_crit c
  else if n < 13 then (s.setFld b Fld.MON_TEMP_THR.hbm_warn w).setFld b Fld.MON_TEMP_THR.hbm_crit c
  else (s.setFld b Fld.MON_PHASE_THR.warn w).setFld b Fld.MON_PHASE_THR.crit c

/-- SetSensorThresholds: temperature sensors only; a value outside 0 to 255 is invalid data (R436). -/
def sensorThresholds (ep id : Nat) (warn crit : Int) (s : State) : State :=
  match sensorOf id with
  | some (d, n) =>
    if 32 ≤ n then answer ep "SET_SENSOR_THRESHOLDS" badSensorCode [] s
    else if 0 ≤ warn && warn ≤ 255 && 0 ≤ crit && crit ≤ 255 then
      answer ep "SET_SENSOR_THRESHOLDS" okCode [] (putThresholds d n warn.toNat crit.toNat s)
    else answer ep "SET_SENSOR_THRESHOLDS" badDataCode [] s
  | none => answer ep "SET_SENSOR_THRESHOLDS" badSensorCode [] s

def execSetSensorThresholds (ep id : Nat) (warn crit : Int) (s : State) : Host.Outcome State Fault Refusal :=
  .next (askedPldm (sensorThresholds ep id warn crit) s)

def eventReceiver (ep receiver : Nat) (s : State) : State :=
  answer ep "SET_EVENT_RECEIVER" okCode [] { s with mzm := { s.mzm with receiver := some receiver } }

def execSetEventReceiver (ep receiver : Nat) (s : State) : Host.Outcome State Fault Refusal :=
  .next (askedPldm (eventReceiver ep receiver) s)

/-- The oldest queued event: sensor and state; none when the queue is empty. -/
def pollEvent (ep : Nat) (s : State) : State :=
  match s.events with
  | [] => answer ep "POLL_FOR_PLATFORM_EVENT_MESSAGE" okCode [] s
  | (id, st) :: es => answer ep "POLL_FOR_PLATFORM_EVENT_MESSAGE" okCode [id, st] { s with events := es }

def execPollForPlatformEventMessage (ep : Nat) (s : State) : Host.Outcome State Fault Refusal := .next (askedPldm (pollEvent ep) s)

/-! ### PLDM type 5 (R475, R496, R497) -/

def execQueryDeviceIdentifiers (ep : Nat) (s : State) : Host.Outcome State Fault Refusal :=
  .next (asked (answerOpen ep "QUERY_DEVICE_IDENTIFIERS" 17 4) s)

/-- Parameters of the two components: classifier 1 with both banks' versions, classifier 2 with the generation in use
(DEDUCED, log 99). -/
def firmwareParameters (ep : Nat) (s : State) : State :=
  answer ep "GET_FIRMWARE_PARAMETERS" okCode [1, s.mzm.bankA.version, s.mzm.bankB.version, 2, usedGen s] s

def execGetFirmwareParameters (ep : Nat) (s : State) : Host.Outcome State Fault Refusal := .next (asked (firmwareParameters ep) s)

/-- The update of `ep`, or none. -/
def updateOf (s : State) (ep : Nat) : Option Update :=
  match s.mzm.update with
  | some u => if u.ep = ep then some u else none
  | none => none

def setUpdate (u : Option Update) (s : State) : State :=
  { s with mzm := { s.mzm with update := u } }.setFlag mzmPage Fld.MZM_STATUS.updating u.isSome

/-- A step of the update that runs for `ep` in one of `phases`; any other is answered with an error. -/
def inUpdate (ep : Nat) (what : String) (phases : List Nat) (f : Update → State → State) (s : State) : State :=
  match updateOf s ep with
  | none => answer ep what notUpdating [] s
  | some u => if phases.contains u.phase then f u s else answer ep what wrongState [] s

/-- REQUEST_UPDATE: one update runs at a time (R497). -/
def requestUpdate (ep maxTransfer : Nat) (s : State) : State :=
  if s.mzm.update.isSome then answer ep "REQUEST_UPDATE" alreadyUpdating [] s
  else answer ep "REQUEST_UPDATE" okCode [] (setUpdate (some ⟨ep, 0, 0, [], 0, maxTransfer, false⟩) s)

def execRequestUpdate (ep maxTransfer : Nat) (s : State) : Host.Outcome State Fault Refusal :=
  .next (asked (requestUpdate ep maxTransfer) s)

/-- The components of the table Update components. -/
def isComponent (c : Nat) : Bool := c == 1 || c == 2

def passTable (ep classifier : Nat) (s : State) : State :=
  inUpdate ep "PASS_COMPONENT_TABLE" [0, 1] (fun u s =>
    if isComponent classifier then answer ep "PASS_COMPONENT_TABLE" okCode [] (setUpdate (some { u with phase := 1 }) s)
    else answer ep "PASS_COMPONENT_TABLE" badDataCode [] s) s

def execPassComponentTable (ep classifier : Nat) (s : State) : Host.Outcome State Fault Refusal :=
  .next (asked (passTable ep classifier) s)

/-- UPDATE_COMPONENT: the transfer of a component of `size` bytes begins (DEDUCED, log 102). -/
def beginComponent (ep classifier size : Nat) (s : State) : State :=
  inUpdate ep "UPDATE_COMPONENT" [1] (fun u s =>
    if isComponent classifier then
      answer ep "UPDATE_COMPONENT" okCode []
        (setUpdate (some { u with classifier := classifier, size := size, image := [], phase := 2, verified := false }) s)
    else answer ep "UPDATE_COMPONENT" badDataCode [] s) s

def execUpdateComponent (ep classifier size : Nat) (s : State) : Host.Outcome State Fault Refusal :=
  .next (asked (beginComponent ep classifier size) s)

/-- Bytes of the next block (R496) (DEDUCED, log 102). -/
def blockSize (u : Update) : Nat := min (min 4096 u.maxTransfer) (u.size - u.image.length)

/-- REQUEST_FIRMWARE_DATA: the agent's answer to Muzomus's request; the reply shows the offset of the next one. An answer
shorter than the block is refused (DEDUCED, log 102). -/
def takeBlock (ep : Nat) (data : List Byte) (s : State) : State :=
  inUpdate ep "REQUEST_FIRMWARE_DATA" [2] (fun u s =>
    let n := blockSize u
    if n ≤ data.length then
      let img := u.image ++ data.take n
      answer ep "REQUEST_FIRMWARE_DATA" okCode [img.length] (setUpdate (some { u with image := img }) s)
    else answer ep "REQUEST_FIRMWARE_DATA" badDataCode [u.image.length] s) s

def execRequestFirmwareData (ep : Nat) (data : List Byte) (s : State) : Host.Outcome State Fault Refusal :=
  .next (asked (takeBlock ep data) s)

/-- TRANSFER_COMPLETE: a whole image goes on to verification, any other ends the component's update. -/
def transferComplete (ep : Nat) (ok : Bool) (s : State) : State :=
  inUpdate ep "TRANSFER_COMPLETE" [2] (fun u s =>
    let whole := ok && u.image.length == u.size
    answer ep "TRANSFER_COMPLETE" (if whole then okCode else 1) [] (setUpdate (some { u with phase := if whole then 3 else 1 }) s)) s

def execTransferComplete (ep : Nat) (ok : Bool) (s : State) : Host.Outcome State Fault Refusal :=
  .next (asked (transferComplete ep ok) s)

/-- The image verifies: option bytes by R466; what Muzomus checks of its own firmware before a start is a free value
(DEDUCED, log 103). -/
def imageVerifies (s : State) (u : Update) : Bool :=
  if u.classifier = 2 then u.image.length == 0x8000 && imageOk u.image else bit (Config.freeWord s.free) 0

/-- VERIFY_COMPLETE: nothing is written when it fails (R497). -/
def verifyComplete (ep : Nat) (s : State) : State :=
  inUpdate ep "VERIFY_COMPLETE" [3] (fun u s =>
    let ok := imageVerifies s u
    let s' := setUpdate (some { u with phase := if ok then 4 else 1, verified := ok }) { s with free := s.free + 1 }
    answer ep "VERIFY_COMPLETE" (if ok then okCode else 1) [] s') s

def execVerifyComplete (ep : Nat) (s : State) : Host.Outcome State Fault Refusal := .next (asked (verifyComplete ep) s)

/-- The repair bytes of die `d` that an image changes: Galley, byte before, byte after (DEDUCED, log 104). -/
def changedRepairs (old img : List (BitVec 8)) (d : Nat) : List (Nat × BitVec 8 × BitVec 8) :=
  ((List.range 72).map (fun g => (g, old.getD (16 + 72 * d + g) 0, img.getD (16 + 72 * d + g) 0))).filter (fun x => x.2.1 != x.2.2)

/-- Option bytes go into the copy not selected, each changed repair byte with its Colophon record (R33, R467, R497)
(DEDUCED, log 104). -/
def applyOptions (img : List (BitVec 8)) (s : State) : State :=
  let old := nextImage s
  let s := s.each [0, 1] (fun d s => s.each (changedRepairs old img d) (fun x =>
    colAppend d 0x09 (leBytes x.1 1 ++ [x.2.1] ++ [x.2.2])))
  writeImage img s

/-- Firmware goes into the bank not in use (R475); the versions that the image carries are free values (DEDUCED, log 103). -/
def applyFirmware (s : State) : State :=
  let bank : Bank := ⟨Config.freeWord s.free, Config.freeWord (s.free + 1)⟩
  let m := if s.flag mzmPage Fld.MZM_STATUS.bank then { s.mzm with bankA := bank } else { s.mzm with bankB := bank }
  { s with free := s.free + 2, mzm := { m with pulses := if m.pulses.contains 1 then m.pulses else m.pulses ++ [1] } }

/-- APPLY_COMPLETE: it fails, and may be tried again, while no pulse may begin (R463, R464) (DEDUCED, log 161). -/
def applyComplete (ep : Nat) (s : State) : State :=
  inUpdate ep "APPLY_COMPLETE" [4] (fun u s =>
    if pulseBarred s then answer ep "APPLY_COMPLETE" 1 [] s
    else
    let s := if u.classifier = 2 then applyOptions u.image s else applyFirmware s
    answer ep "APPLY_COMPLETE" okCode [] (setUpdate (some { u with phase := 5 }) s)) s

def execApplyComplete (ep : Nat) (s : State) : Host.Outcome State Fault Refusal := .next (asked (applyComplete ep) s)

/-- An activation restarts Muzomus, behind the pulses that it drives (R463, R475) (DEDUCED, log 104). -/
def restartMuzomus (s : State) : State :=
  if mzmPulses s.mzm.pulses then { s with mzm := { s.mzm with restartDue := true, deferred := true } } else restartNow s

/-- ACTIVATE_FIRMWARE: Muzomus firmware that is activated self-contained restarts Muzomus; the dies are reset only when the
command names it, 1 a module and 2 a cold reset of source 0x05 (R475) (DEDUCED, log 104). -/
def activate (ep : Nat) (selfContained : Bool) (reset : Nat) (s : State) : State :=
  inUpdate ep "ACTIVATE_FIRMWARE" [5] (fun u s =>
    let s := setUpdate none (answer ep "ACTIVATE_FIRMWARE" okCode [] s)
    let s := s.when (u.classifier == 1 && selfContained) restartMuzomus
    if reset = 1 then takeReset kModule 5 0 0 s else if reset = 2 then takeReset kCold 5 0 0 s else s) s

def execActivateFirmware (ep : Nat) (selfContained : Bool) (reset : Nat) (s : State) : Host.Outcome State Fault Refusal :=
  .next (asked (activate ep selfContained reset) s)

/-- The phase of the update; 6 while none runs. -/
def updatePhase (s : State) : Nat := match s.mzm.update with | some u => u.phase | none => 6

def getStatus (ep : Nat) (s : State) : State := answer ep "GET_STATUS" okCode [updatePhase s] s

def execGetStatus (ep : Nat) (s : State) : Host.Outcome State Fault Refusal := .next (asked (getStatus ep) s)

def cancelComponent (ep : Nat) (s : State) : State :=
  inUpdate ep "CANCEL_UPDATE_COMPONENT" [2, 3, 4] (fun u s =>
    answer ep "CANCEL_UPDATE_COMPONENT" okCode []
      (setUpdate (some { u with classifier := 0, size := 0, image := [], phase := 1, verified := false }) s)) s

def execCancelUpdateComponent (ep : Nat) (s : State) : Host.Outcome State Fault Refusal := .next (asked (cancelComponent ep) s)

def cancelUpdate (ep : Nat) (s : State) : State :=
  inUpdate ep "CANCEL_UPDATE" [0, 1, 2, 3, 4, 5] (fun _ s => answer ep "CANCEL_UPDATE" okCode [] (setUpdate none s)) s

def execCancelUpdate (ep : Nat) (s : State) : Host.Outcome State Fault Refusal := .next (asked (cancelUpdate ep) s)

/-! ### Test access ports (R498, R499) -/

/-- JTAG_EN read 1 at step 5 (PRESUMED, log 105). -/
def scanEnabled (s : State) : Bool := s.mzm.jtagEn && (startStep s == 0 || decide (5 < startStep s))

/-- The instruction that a code acts as: codes 0x00 and 0x04 to 0x07 act as BYPASS without JTAG_EN, and so does every code
that the table TAP instructions does not list (PRESUMED, log 105). -/
def tapActs (s : State) (code : Nat) : Nat :=
  if code = 1 || code = 2 then code
  else if (code = 0 || (4 ≤ code && code ≤ 7)) && scanEnabled s then code
  else 0xFF

/-- The identification register: version, part number 0x48A1, JEDEC code, 1 (PRESUMED, log 105). -/
def tapId : Nat := (Config.tapVersion ++ (0x48A1 : BitVec 16) ++ Config.jedec ++ (1 : BitVec 1)).toNat

/-- The instructions that select the boundary register (PRESUMED, log 105). -/
def tapBoundary (code : Nat) : Bool := [0x00, 0x02, 0x06, 0x07].contains code

/-- The instruction that stands in the TAP of die `d`: IDCODE after the TAP's reset (PRESUMED, log 105). -/
def tapIrOf (s : State) (d : Nat) : Nat := SMap.get (fun _ => 1) s.mzm.tapIr d

/-- What the selected register of die `d` holds for shifting out: the identification, the boundary register's sample, or the one
bit 0 of the bypass register, which CLAMP and HIGHZ select as well (PRESUMED, log 105). -/
def tapCapture (s : State) (d : Nat) : Nat :=
  if tapIrOf s d = 1 then tapId else if tapBoundary (tapIrOf s d) then Config.boundarySample d s.free else 0

/-- A data scan of the chain TDI, die 0, die 1, TDO (R498): both registers shift out what they captured, and a boundary register
takes what is shifted in for it (PRESUMED, log 105). -/
def tapScan (in0 in1 : Nat) (s : State) : State :=
  let keep := fun (d v : Nat) (b : SMap Nat) => if tapBoundary (tapIrOf s d) then SMap.set (fun _ => 0) b d v else b
  { s.send (.tap (tapIrOf s 0) (tapCapture s 0) (tapIrOf s 1) (tapCapture s 1)) with
    free := s.free + 1, mzm := { s.mzm with boundary := keep 1 in1 (keep 0 in0 s.mzm.boundary) } }

/-- An instruction is loaded in the TAP of die `d`, the other keeping its own, and a data scan follows; the TAPs have no supply
outside RUN (PRESUMED, log 105). -/
def tapLoad (d code in0 in1 : Nat) (s : State) : State :=
  if s.power.vin = 2 then
    tapScan in0 in1 { s with mzm := { s.mzm with tapIr := SMap.set (fun _ => 1) s.mzm.tapIr d (tapActs s code) } }
  else s

def execExtest (t : TapScan) (s : State) : Host.Outcome State Fault Refusal := .next (tapLoad (t.die % 2) 0x00 t.in0 t.in1 s)
def execIdcode (t : TapScan) (s : State) : Host.Outcome State Fault Refusal := .next (tapLoad (t.die % 2) 0x01 t.in0 t.in1 s)
def execSamplePreload (t : TapScan) (s : State) : Host.Outcome State Fault Refusal := .next (tapLoad (t.die % 2) 0x02 t.in0 t.in1 s)
def execClamp (t : TapScan) (s : State) : Host.Outcome State Fault Refusal := .next (tapLoad (t.die % 2) 0x04 t.in0 t.in1 s)
def execHighz (t : TapScan) (s : State) : Host.Outcome State Fault Refusal := .next (tapLoad (t.die % 2) 0x05 t.in0 t.in1 s)
def execExtestPulse (t : TapScan) (s : State) : Host.Outcome State Fault Refusal := .next (tapLoad (t.die % 2) 0x06 t.in0 t.in1 s)
def execExtestTrain (t : TapScan) (s : State) : Host.Outcome State Fault Refusal := .next (tapLoad (t.die % 2) 0x07 t.in0 t.in1 s)
def execBypass (t : TapScan) (s : State) : Host.Outcome State Fault Refusal := .next (tapLoad (t.die % 2) 0xFF t.in0 t.in1 s)

end Sys2Proof.Machine
end

