-- ==== Sys2Proof/Machine/Tick.lean ====
section
/-! DEFINITION. One fabric tick, which passes whenever no command waits: fabric time (R40), the accesses that wait (R446, R482), the
watchdog counts (R150) and the counters of time (R188, R402 to R405). -/

namespace Sys2Proof.Machine

/-- The fabric domain has been released from reset (R469, step 7). -/
def fabricRuns (s : State) : Bool := s.ready || decide (7 < startStep s)

/-- The array domain has been released from reset (R469, step 8). -/
def arraysRun (s : State) : Bool := s.ready || decide (8 < startStep s)

/-! ### Chase counters (R403) -/

/-- Array cycles of this tick under the Forme's duty, two a tick at 64 (R449); none while it has no power. -/
def arrayCycles (s : State) (ch : Nat) : Nat :=
  if 2 ≤ formeState s ch then 0
  else
    let d := bits (s.regN (frmReg ch)) 14 8
    (s.time + 1) * d / 32 - s.time * d / 32

/-- Which counter of the vector engine the tick counts in: it computes, or builds tables; its head command lacks no token and waits
on a Tile; or neither (R403) (DESIGN CHOICE, log 152). -/
def vecCounter (s : State) (ch : Nat) : Nat :=
  if (s.arr ch).vecDue != 0 || buildsRows s ch then 9
  else if (engineHead s ch .vector).any (fun e => e.phase == .held && e.needs.isEmpty && writesWait s e) then 10
  else 11

/-- A core that lossless mode holds before an instruction whose record its full trace queue has no room for (R409). -/
def traceHeld (s : State) (ch : Nat) : Bool :=
  decide (8 ≤ (s.trqOf ch).recs.length) && formeOn s ch &&
    (match (s.core ch).run with
     | .running => wouldLose s (coreTry ch s) ch
     | .waiting => (match wakeCause s ch with | some k => wouldLose s (endWait ch k s) ch | none => false)
     | _ => false)

/-- Which of core_busy and core_stall the tick counts in. -/
def coreCounter (s : State) (ch : Nat) : Option Nat :=
  if (s.core ch).stall != 0 || traceHeld s ch then some 13
  else if (s.core ch).run == .running then some 12
  else none

/-- The first `n` cycles of a list by code, and what is left of it. -/
def takeCycles : Nat → List (Nat × Nat) → List (Nat × Nat) × List (Nat × Nat)
  | _, [] => ([], [])
  | n, x :: l =>
    if n < x.2 then (if n = 0 then ([], x :: l) else ([(x.1, n)], (x.1, x.2 - n) :: l))
    else let (a, b) := takeCycles (n - x.2) l; (x :: a, b)

/-- The array `n` cycles on: rows of bundles that have ended are forgotten, banks whose outputs are written are free (R90, R123). -/
def ageArr (n : Nat) (y : ArrSt) : ArrSt :=
  let b := y.bundles.map (fun x => (x.1 - n, x.2 - n))
  let free := fun (edge : Nat) => (y.holds.filter (fun h => h.1 == edge && decide (h.2.2 ≤ n))).foldl (fun m h => m ||| h.2.1) 0
  { y with
    due := (takeCycles n y.due).2
    bundles := b.drop ((b.takeWhile (fun x => x.2 == 0)).length / 4 * 4)
    holds := (y.holds.filter (fun h => decide (n < h.2.2))).map (fun h => (h.1, h.2.1, h.2.2 - n))
    colBanks := y.colBanks ^^^ (y.colBanks &&& free 0)
    rowBanks := y.rowBanks ^^^ (y.rowBanks &&& free 1) }

/-- Array cycles go to what passes have left to count, then to the reason of the stall (R402) (DESIGN CHOICE, log 147). -/
def countCycles (ch n : Nat) (s : State) : State :=
  let page := unitPage ch
  let y := s.arr ch
  let now := (takeCycles n y.due).1
  let s := s.bump page (stallReason s ch) (n - segCycles now)
  if y.due.isEmpty then s else (s.each now (fun x s => s.bump page x.1 x.2)).setArr ch (ageArr n y)

/-- A tick of a vector command that has run. -/
def countVector (ch : Nat) (s : State) : State :=
  let s := s.bump (unitPage ch) (vecCounter s ch) 1
  if (s.arr ch).vecDue = 0 then s else s.setArr ch { s.arr ch with vecDue := (s.arr ch).vecDue - 1 }

/-- A Chase's time counters. -/
def tickChase (ch : Nat) (s : State) : State :=
  let page := unitPage ch
  let s := countVector ch (countCycles ch (arrayCycles s ch) s)
  let s := match coreCounter s ch with | some i => s.bump page i 1 | none => s
  s.when (s.unit ch).port.isSome (fun s => s.bump page 18 1)

/-- The watchdog of a core that runs or stalls (R150). -/
def tickDog (ch : Nat) (s : State) : State :=
  let c := s.core ch
  if c.run == .running || c.run == .stalled then s.setCore ch { c with wd := c.wd + 1 } else s

/-! ### Other counters (R188, R404, R405) -/

/-- Dispatchers of the Galleys and Formes, and of each die with the module dispatcher's part. -/
def dispatchPaths : List Nat :=
  ([0, 1].map (fun d => ((List.range 9).map (fun f => formePath d f :: (List.range 8).map (galleyPath d f))).flatten)).flatten

def tickDispatch (u : Nat) (s : State) : State := s.when (!(outstandingOf s u).isEmpty) (fun s => s.bump (unitPage u) 4 1)

def tickDie (d : Nat) (s : State) : State :=
  let s := s.when (!(outstandingOf s (diePath d)).isEmpty) (fun s => s.bump (dieTopPage d) 10 1)
  s.when (dieHolding s d) (fun s => s.setRegN (hydroPage d + 0x94) ((s.regN (hydroPage d + 0x94) + 1) % 2 ^ 32))

/-- A port with a data flit that waits for a credit of its channel. -/
def tickPort (p : Nat) (s : State) : State :=
  s.when ([0, 1, 2, 3].any (fun v => vcWaits s p v && !(vcReady s p v))) (fun s => s.bump (portPage p) 8 1)

/-- A record of the stream waits for a free slot (R281). -/
def recHeld (t : Stream) : Bool := t.recs.any (fun r => !(recReady t r))

def countUp (off : Nat) (s : State) : State := s.setRegN off ((s.regN off + 1) % 2 ^ 32)

/-- A stream's ticks of waiting for service and of holding a record (R405). -/
def tickStream (id : Nat) (s : State) : State :=
  let t := s.stream id
  let s := s.when (t.fetchable && t.servedAt != thisTick s) (countUp (streamCount id + 8))
  s.when (recHeld t) (countUp (streamCount id + 12))

/-- Ticks of record hold on a die. -/
def tickHolds (d : Nat) (s : State) : State :=
  s.when (s.streams.any (fun e => streamDie e.1 == d && recHeld e.2)) (fun s => s.bump (streamPage d) 3 1)

/-- A run of bridge replays ends when a tick passes without one (R41) (DEDUCED, log 17). -/
def tickBridge (s : State) : State :=
  s.each [0, 1] (fun d s =>
    if s.flag (dieTopPage d) Fld.DIE_BRG_STATUS.replaying then s.setFlag (dieTopPage d) Fld.DIE_BRG_STATUS.replaying false
    else { s with brgRun := SMap.erase s.brgRun d })

/-! ### What a tick moves on -/

/-- The head array command of a Chase lacks credits since this tick, or no more (R290). -/
def noteCredits (ch : Nat) (s : State) : State :=
  match engineHead s ch .array with
  | some e =>
    if e.phase == .held && !(creditsIn s ch e) then
      if e.credAt.isNone then updEnt ch e (fun x => { x with credAt := some s.time }) s else s
    else if e.credAt.isSome then updEnt ch e (fun x => { x with credAt := none }) s
    else s
  | none => s

/-- Table sets build (R116), WAITs end (R145), one stream is allocated (R273), quotas are enforced (R259); what waited for any
of it goes on. -/
def tickWork (s : State) : State :=
  let s := s.each (s.tabs.map (·.1)) (fun k => tickSet (k / 2) (k % 2))
  let s := s.each (s.cores.map (·.1)) endWaits
  let s := enforceQuotas (serveAlloc s)
  let chases := (s.units.map (·.1)).filter isChase
  let s := s.each (s.tabs.map (fun t => t.1 / 2)).eraseDups freeSets
  let s := settle (tryArrays modulePath (s.each chases (fun ch s => runIssued ch (tableTurn ch s))))
  s.each chases noteCredits

/-! ### Fabric time (R40, R317) -/

/-- Ticks that the rate trim adds now, and the parts of a tick that it keeps (DEDUCED, log 54). -/
def trimStep (s : State) : Int × Nat :=
  let a : Int := s.sync.trimAcc + sx 32 (s.regN (routePage + 0xA0))
  (a / 2 ^ 32, (a % 2 ^ 32).toNat)

/-- The tick that the phase correction adds or skips: one at most in 1,024 ticks (DEDUCED, log 54). -/
def phaseStep (s : State) : Int :=
  let p := sx 28 s.sync.phase
  if s.sync.ticks % 1024 != 0 || (trimStep s).1 < 0 then 0 else if 0 < p then 1 else if p < 0 then -1 else 0

/-- A tick has passed: from the release of the fabric (R459, R469) time goes on by it, slewed by the rate trim and the phase
correction; it never runs backwards. -/
def nextTime (s : State) : State :=
  if !(fabricRuns s) then { s with sync := { s.sync with ticks := s.sync.ticks + 1 } }
  else
  let t := trimStep s
  let p := phaseStep s
  let d := (1 + t.1 + p).toNat
  { s with
    time := s.time + d
    sync := { s.sync with ticks := s.sync.ticks + 1, trimAcc := t.2, phase := toU 28 (sx 28 s.sync.phase - p) } }

/-- Every counter of time. -/
def tickCounters (s : State) : State :=
  let s := s.each allChases (fun ch s => tickDog ch (tickChase ch s))
  let s := s.each dispatchPaths tickDispatch
  let s := s.each [0, 1] (fun d s => tickHolds d (tickDie d s))
  let s := s.each (List.range 16) tickPort
  endLatch (s.each (s.streams.map (·.1)) tickStream)

/-- A tick passes; a module that is OFF only waits for its input (R440) (DESIGN CHOICE, log 2). -/
def tick (s : State) : State :=
  if s.power.vin = 0 then offTick s
  else overTick <|
    let s := tickBridge (if s.edge.isEmpty then s else rerun s)
    copyHang (nextTime (s.when (arraysRun s) (fun s => tickCounters (tickWork (tickCask s)))))

end Sys2Proof.Machine
end

