-- ==== Sys2Proof/Machine/Dispatch.lean ====
section
/-! DEFINITION. The dispatch of a command to its meaning: one arm per row of the opcode table. -/

namespace Sys2Proof.Machine

def exec (i : Instr) (s : State) : Host.Outcome State Fault Refusal :=
  match i with
  | .tokenArrival u stream seq st => Sys2Proof.Machine.execTokenArrival u stream seq st s
  | .creditArrival u ctr count => Sys2Proof.Machine.execCreditArrival u ctr count s
  | .shareComplete member stream seq => Sys2Proof.Machine.execShareComplete member stream seq s
  | .bridgeReplay d => Sys2Proof.Machine.execBridgeReplay d s
  | .bridgeDown => Sys2Proof.Machine.execBridgeDown s
  | .completionRelease u => Sys2Proof.Machine.execCompletionRelease u s
  | .nop u => Sys2Proof.Machine.execNop u s
  | .mul u => Sys2Proof.Machine.execMul u s
  | .mulB1 u => Sys2Proof.Machine.execMulB1 u s
  | .mulLut u => Sys2Proof.Machine.execMulLut u s
  | .mulBsr u => Sys2Proof.Machine.execMulBsr u s
  | .vecMap1 u => Sys2Proof.Machine.execVecMap1 u s
  | .vecMap2 u => Sys2Proof.Machine.execVecMap2 u s
  | .vecFma u => Sys2Proof.Machine.execVecFma u s
  | .vecReduce u => Sys2Proof.Machine.execVecReduce u s
  | .vecSoftmax u => Sys2Proof.Machine.execVecSoftmax u s
  | .vecMask u => Sys2Proof.Machine.execVecMask u s
  | .vecTopk u => Sys2Proof.Machine.execVecTopk u s
  | .mov u => Sys2Proof.Machine.execMov u s
  | .fill u => Sys2Proof.Machine.execFill u s
  | .tierHint u => Sys2Proof.Machine.execTierHint u s
  | .colAccum u => Sys2Proof.Machine.execColAccum u s
  | .colGather u => Sys2Proof.Machine.execColGather u s
  | .colScatter u => Sys2Proof.Machine.execColScatter u s
  | .colAllgather u => Sys2Proof.Machine.execColAllgather u s
  | .colRedscat u => Sys2Proof.Machine.execColRedscat u s
  | .colBcast u => Sys2Proof.Machine.execColBcast u s
  | .colPermute u => Sys2Proof.Machine.execColPermute u s
  | .arrayIssue ch => Sys2Proof.Machine.execArrayIssue ch s
  | .ligatureFence ch => Sys2Proof.Machine.execLigatureFence ch s
  | .ligatureFenceDone ch => Sys2Proof.Machine.execLigatureFenceDone ch s
  | .shadowLoadDone ch => Sys2Proof.Machine.execShadowLoadDone ch s
  | .operandReadError ch op t => Sys2Proof.Machine.execOperandReadError ch op t s
  | .alu ch => Sys2Proof.Machine.execAlu ch s
  | .addi ch => Sys2Proof.Machine.execAddi ch s
  | .andi ch => Sys2Proof.Machine.execAndi ch s
  | .ori ch => Sys2Proof.Machine.execOri ch s
  | .xori ch => Sys2Proof.Machine.execXori ch s
  | .shi ch => Sys2Proof.Machine.execShi ch s
  | .lui ch => Sys2Proof.Machine.execLui ch s
  | .slti ch => Sys2Proof.Machine.execSlti ch s
  | .beq ch => Sys2Proof.Machine.execBeq ch s
  | .bne ch => Sys2Proof.Machine.execBne ch s
  | .blt ch => Sys2Proof.Machine.execBlt ch s
  | .bge ch => Sys2Proof.Machine.execBge ch s
  | .bltu ch => Sys2Proof.Machine.execBltu ch s
  | .bgeu ch => Sys2Proof.Machine.execBgeu ch s
  | .jal ch => Sys2Proof.Machine.execJal ch s
  | .jr ch => Sys2Proof.Machine.execJr ch s
  | .rte ch => Sys2Proof.Machine.execRte ch s
  | .ldw ch => Sys2Proof.Machine.execLdw ch s
  | .ldh ch => Sys2Proof.Machine.execLdh ch s
  | .ldhu ch => Sys2Proof.Machine.execLdhu ch s
  | .ldb ch => Sys2Proof.Machine.execLdb ch s
  | .ldbu ch => Sys2Proof.Machine.execLdbu ch s
  | .stw ch => Sys2Proof.Machine.execStw ch s
  | .sth ch => Sys2Proof.Machine.execSth ch s
  | .stb ch => Sys2Proof.Machine.execStb ch s
  | .twait ch => Sys2Proof.Machine.execTwait ch s
  | .tsend ch => Sys2Proof.Machine.execTsend ch s
  | .cget ch => Sys2Proof.Machine.execCget ch s
  | .cput ch => Sys2Proof.Machine.execCput ch s
  | .issue ch => Sys2Proof.Machine.execIssue ch s
  | .fence ch => Sys2Proof.Machine.execFence ch s
  | .wait ch => Sys2Proof.Machine.execWait ch s
  | .trap ch => Sys2Proof.Machine.execTrap ch s
  | .rdcnt ch => Sys2Proof.Machine.execRdcnt ch s
  | .twaitTimeout ch => Sys2Proof.Machine.execTwaitTimeout ch s
  | .cgetTimeout ch => Sys2Proof.Machine.execCgetTimeout ch s
  | .issueTimeout ch => Sys2Proof.Machine.execIssueTimeout ch s
  | .waitTimerExpiry ch => Sys2Proof.Machine.execWaitTimerExpiry ch s
  | .watchdogExpiry ch => Sys2Proof.Machine.execWatchdogExpiry ch s
  | .outboundSend ch => Sys2Proof.Machine.execOutboundSend ch s
  | .coreRun fn ch => Sys2Proof.Machine.execCoreRun fn ch s
  | .coreHalt fn ch => Sys2Proof.Machine.execCoreHalt fn ch s
  | .coreStep fn ch => Sys2Proof.Machine.execCoreStep fn ch s
  | .coreReset fn ch => Sys2Proof.Machine.execCoreReset fn ch s
  | .coreWake fn ch => Sys2Proof.Machine.execCoreWake fn ch s
  | .loadImem fn ch => Sys2Proof.Machine.execLoadImem fn ch s
  | .loadDmem fn ch => Sys2Proof.Machine.execLoadDmem fn ch s
  | .coreLoadDone ch => Sys2Proof.Machine.execCoreLoadDone ch s
  | .chsMemDataAccess fn ch wr v => Sys2Proof.Machine.execChsMemDataAccess fn ch wr v s
  | .stepEnd fn v => Sys2Proof.Machine.execStepEnd fn v s
  | .boundaryQuiesced => Sys2Proof.Machine.execBoundaryQuiesced s
  | .boundaryCombine => Sys2Proof.Machine.execBoundaryCombine s
  | .gangSummaryRx => Sys2Proof.Machine.execGangSummaryRx s
  | .gangTimeout => Sys2Proof.Machine.execGangTimeout s
  | .boundaryRelease => Sys2Proof.Machine.execBoundaryRelease s
  | .statQueueRelease d => Sys2Proof.Machine.execStatQueueRelease d s
  | .hydRingCfgWrite fn d v => Sys2Proof.Machine.execHydRingCfgWrite fn d v s
  | .ptgEntLoad fn => Sys2Proof.Machine.execPtgEntLoad fn s
  | .ptgEntCommit fn => Sys2Proof.Machine.execPtgEntCommit fn s
  | .lscaleWrite fn v => Sys2Proof.Machine.execLscaleWrite fn v s
  | .seedLoad fn => Sys2Proof.Machine.execSeedLoad fn s
  | .seedCommit fn => Sys2Proof.Machine.execSeedCommit fn s
  | .tstEntLoad fn => Sys2Proof.Machine.execTstEntLoad fn s
  | .tstEntCommit fn => Sys2Proof.Machine.execTstEntCommit fn s
  | .regionMap fn r => Sys2Proof.Machine.execRegionMap fn r s
  | .regionUnmap fn r => Sys2Proof.Machine.execRegionUnmap fn r s
  | .tileMove r j tier => Sys2Proof.Machine.execTileMove r j tier s
  | .tileMoveCommit r j => Sys2Proof.Machine.execTileMoveCommit r j s
  | .watermarkEvict kind idx => Sys2Proof.Machine.execWatermarkEvict kind idx s
  | .quotaLoad fn => Sys2Proof.Machine.execQuotaLoad fn s
  | .quotaCommit fn => Sys2Proof.Machine.execQuotaCommit fn s
  | .leaseLoad fn => Sys2Proof.Machine.execLeaseLoad fn s
  | .leaseRequest fn => Sys2Proof.Machine.execLeaseRequest fn s
  | .leaseRenew fn => Sys2Proof.Machine.execLeaseRenew fn s
  | .leaseRelease fn => Sys2Proof.Machine.execLeaseRelease fn s
  | .lendCfgWrite fn d v => Sys2Proof.Machine.execLendCfgWrite fn d v s
  | .leaseEvacuate l => Sys2Proof.Machine.execLeaseEvacuate l s
  | .leaseExpiry l => Sys2Proof.Machine.execLeaseExpiry l s
  | .scrubTick ctl found => Sys2Proof.Machine.execScrubTick ctl found s
  | .streamAlloc fn v => Sys2Proof.Machine.execStreamAlloc fn v s
  | .streamContextWrite fn id word v => Sys2Proof.Machine.execStreamContextWrite fn id word v s
  | .streamActivate fn id => Sys2Proof.Machine.execStreamActivate fn id s
  | .streamPause fn id => Sys2Proof.Machine.execStreamPause fn id s
  | .streamResume fn id => Sys2Proof.Machine.execStreamResume fn id s
  | .streamClose fn id => Sys2Proof.Machine.execStreamClose fn id s
  | .sqDoorbell fn id v => Sys2Proof.Machine.execSqDoorbell fn id v s
  | .cqDoorbell fn id v => Sys2Proof.Machine.execCqDoorbell fn id v s
  | .streamFetch home => Sys2Proof.Machine.execStreamFetch home s
  | .fetchDeliver id => Sys2Proof.Machine.execFetchDeliver id s
  | .completionRecordWrite id => Sys2Proof.Machine.execCompletionRecordWrite id s
  | .tokenTimeout u => Sys2Proof.Machine.execTokenTimeout u s
  | .creditTimeout u => Sys2Proof.Machine.execCreditTimeout u s
  | .jobLoad fn => Sys2Proof.Machine.execJobLoad fn s
  | .jobCommit fn => Sys2Proof.Machine.execJobCommit fn s
  | .portEnable fn p v => Sys2Proof.Machine.execPortEnable fn p v s
  | .portRetrain fn p => Sys2Proof.Machine.execPortRetrain fn p s
  | .trainingDone p peerId peerPort shares peerTime delay => Sys2Proof.Machine.execTrainingDone p peerId peerPort shares peerTime delay s
  | .trainingTimeout p reason => Sys2Proof.Machine.execTrainingTimeout p reason s
  | .retrainTimeout p => Sys2Proof.Machine.execRetrainTimeout p s
  | .downRestart p => Sys2Proof.Machine.execDownRestart p s
  | .flitRx p stamp f => Sys2Proof.Machine.execFlitRx p stamp f s
  | .flitTransmit p => Sys2Proof.Machine.execFlitTransmit p s
  | .syncExchange => Sys2Proof.Machine.execSyncExchange s
  | .e2eTimeout u stream seq => Sys2Proof.Machine.execE2eTimeout u stream seq s
  | .writeRx p pkt => Sys2Proof.Machine.execWriteRx p pkt s
  | .readReqRx p pkt => Sys2Proof.Machine.execReadReqRx p pkt s
  | .readRespRx p pkt => Sys2Proof.Machine.execReadRespRx p pkt s
  | .accumRx p pkt => Sys2Proof.Machine.execAccumRx p pkt s
  | .ackRx p pkt => Sys2Proof.Machine.execAckRx p pkt s
  | .errorRx p pkt => Sys2Proof.Machine.execErrorRx p pkt s
  | .tokenRx p pkt => Sys2Proof.Machine.execTokenRx p pkt s
  | .creditRx p pkt => Sys2Proof.Machine.execCreditRx p pkt s
  | .govRx p pkt => Sys2Proof.Machine.execGovRx p pkt s
  | .leaseRequestRx p pkt => Sys2Proof.Machine.execLeaseRequestRx p pkt s
  | .leaseGrantRx p pkt => Sys2Proof.Machine.execLeaseGrantRx p pkt s
  | .leaseRefuseRx p pkt => Sys2Proof.Machine.execLeaseRefuseRx p pkt s
  | .leaseRenewRx p pkt => Sys2Proof.Machine.execLeaseRenewRx p pkt s
  | .leaseRecallRx p pkt => Sys2Proof.Machine.execLeaseRecallRx p pkt s
  | .leaseReleaseRx p pkt => Sys2Proof.Machine.execLeaseReleaseRx p pkt s
  | .bgWriteRx p pkt => Sys2Proof.Machine.execBgWriteRx p pkt s
  | .bgReadReqRx p pkt => Sys2Proof.Machine.execBgReadReqRx p pkt s
  | .stopArmRx p pkt => Sys2Proof.Machine.execStopArmRx p pkt s
  | .stopRefuseRx p pkt => Sys2Proof.Machine.execStopRefuseRx p pkt s
  | .pairRequestRx p pkt => Sys2Proof.Machine.execPairRequestRx p pkt s
  | .pairAnswerRx p pkt => Sys2Proof.Machine.execPairAnswerRx p pkt s
  | .mirrorBeginRx p pkt => Sys2Proof.Machine.execMirrorBeginRx p pkt s
  | .mirrorEndRx p pkt => Sys2Proof.Machine.execMirrorEndRx p pkt s
  | .mirrorStatusRx p pkt => Sys2Proof.Machine.execMirrorStatusRx p pkt s
  | .gangCaskRx p pkt => Sys2Proof.Machine.execGangCaskRx p pkt s
  | .rtLoad fn => Sys2Proof.Machine.execRtLoad fn s
  | .rtCommit fn => Sys2Proof.Machine.execRtCommit fn s
  | .ctxLoad fn => Sys2Proof.Machine.execCtxLoad fn s
  | .ctxArm fn => Sys2Proof.Machine.execCtxArm fn s
  | .ctxDisarm fn => Sys2Proof.Machine.execCtxDisarm fn s
  | .psetLoad fn => Sys2Proof.Machine.execPsetLoad fn s
  | .psetCommit fn => Sys2Proof.Machine.execPsetCommit fn s
  | .redscatTakeTile u t => Sys2Proof.Machine.execRedscatTakeTile u t s
  | .redscatTimeout u => Sys2Proof.Machine.execRedscatTimeout u s
  | .permuteRelease u => Sys2Proof.Machine.execPermuteRelease u s
  | .permuteTimeout u => Sys2Proof.Machine.execPermuteTimeout u s
  | .mapEntLoad fn => Sys2Proof.Machine.execMapEntLoad fn s
  | .mapEntCommit fn => Sys2Proof.Machine.execMapEntCommit fn s
  | .caskRequest fn => Sys2Proof.Machine.execCaskRequest fn s
  | .caskCommit => Sys2Proof.Machine.execCaskCommit s
  | .caskFail reason => Sys2Proof.Machine.execCaskFail reason s
  | .stopArm fn v => Sys2Proof.Machine.execStopArm fn v s
  | .stopPress => Sys2Proof.Machine.execStopPress s
  | .moduleStopped => Sys2Proof.Machine.execModuleStopped s
  | .caskCut fn => Sys2Proof.Machine.execCaskCut fn s
  | .caskResume fn => Sys2Proof.Machine.execCaskResume fn s
  | .caskRestore fn v => Sys2Proof.Machine.execCaskRestore fn v s
  | .restoreDone => Sys2Proof.Machine.execRestoreDone s
  | .riskEvaluate => Sys2Proof.Machine.execRiskEvaluate s
  | .critWaitExpiry => Sys2Proof.Machine.execCritWaitExpiry s
  | .floorExpiry => Sys2Proof.Machine.execFloorExpiry s
  | .buddyPair fn v => Sys2Proof.Machine.execBuddyPair fn v s
  | .pairTimeout => Sys2Proof.Machine.execPairTimeout s
  | .feedWrite fn v => Sys2Proof.Machine.execFeedWrite fn v s
  | .traceEnable fn d v => Sys2Proof.Machine.execTraceEnable fn d v s
  | .traceTrigger fn d => Sys2Proof.Machine.execTraceTrigger fn d s
  | .traceArm fn d => Sys2Proof.Machine.execTraceArm fn d s
  | .traceTimeTrigger d => Sys2Proof.Machine.execTraceTimeTrigger d s
  | .traceWrite d => Sys2Proof.Machine.execTraceWrite d s
  | .traceFreeze d => Sys2Proof.Machine.execTraceFreeze d s
  | .traceSpill d => Sys2Proof.Machine.execTraceSpill d s
  | .counterSnap fn => Sys2Proof.Machine.execCounterSnap fn s
  | .snapRelease fn => Sys2Proof.Machine.execSnapRelease fn s
  | .hangRequest fn => Sys2Proof.Machine.execHangRequest fn s
  | .hangCapture => Sys2Proof.Machine.execHangCapture s
  | .proofModeWrite fn d v => Sys2Proof.Machine.execProofModeWrite fn d v s
  | .marginStart fn d v => Sys2Proof.Machine.execMarginStart fn d v s
  | .clrRead fn => Sys2Proof.Machine.execClrRead fn s
  | .clrAppend fn => Sys2Proof.Machine.execClrAppend fn s
  | .formeWakeRetry fn d f => Sys2Proof.Machine.execFormeWakeRetry fn d f s
  | .forceOnWrite fn d f v => Sys2Proof.Machine.execForceOnWrite fn d f v s
  | .capWrite fn mgmt v => Sys2Proof.Machine.execCapWrite fn mgmt v s
  | .shareLoad fn => Sys2Proof.Machine.execShareLoad fn s
  | .shareCommit fn => Sys2Proof.Machine.execShareCommit fn s
  | .claimDuty fn => Sys2Proof.Machine.execClaimDuty fn s
  | .releaseDuty fn => Sys2Proof.Machine.execReleaseDuty fn s
  | .claimVset fn => Sys2Proof.Machine.execClaimVset fn s
  | .releaseVset fn => Sys2Proof.Machine.execReleaseVset fn s
  | .rstCtrlWrite fn v => Sys2Proof.Machine.execRstCtrlWrite fn v s
  | .functionLevelReset f => Sys2Proof.Machine.execFunctionLevelReset f s
  | .configRequest fn off => Sys2Proof.Machine.execConfigRequest fn off s
  | .bar2Write fn off data => Sys2Proof.Machine.execBar2Write fn off data s
  | .bar2Read fn off n => Sys2Proof.Machine.execBar2Read fn off n s
  | .irqHoldoffExpiry fn vec => Sys2Proof.Machine.execIrqHoldoffExpiry fn vec s
  | .streamVectorWrite fn off v => Sys2Proof.Machine.execStreamVectorWrite fn off v s
  | .pageOwnerWrite fn off v => Sys2Proof.Machine.execPageOwnerWrite fn off v s
  | .claimWake fn => Sys2Proof.Machine.execClaimWake fn s
  | .releaseWake fn => Sys2Proof.Machine.execReleaseWake fn s
  | .claimFault fn => Sys2Proof.Machine.execClaimFault fn s
  | .releaseFault fn => Sys2Proof.Machine.execReleaseFault fn s
  | .errStatusClear fn off v => Sys2Proof.Machine.execErrStatusClear fn off v s
  | .evRawClear fn off v => Sys2Proof.Machine.execEvRawClear fn off v s
  | .evForceWrite fn off v => Sys2Proof.Machine.execEvForceWrite fn off v s
  | .loReadLatch fn off => Sys2Proof.Machine.execLoReadLatch fn off s
  | .regWrite fn off v => Sys2Proof.Machine.execRegWrite fn off v s
  | .refusedRead fn off => Sys2Proof.Machine.execRefusedRead fn off s
  | .sensorConversion d temps volts ros => Sys2Proof.Machine.execSensorConversion d temps volts ros s
  | .droop d k => Sys2Proof.Machine.execDroop d k s
  | .marginDone d mv failed => Sys2Proof.Machine.execMarginDone d mv failed s
  | .colophonAppend d type payload => Sys2Proof.Machine.execColophonAppend d type payload s
  | .colophonPeriodic => Sys2Proof.Machine.execColophonPeriodic s
  | .vinChange v amps => Sys2Proof.Machine.execVinChange v amps s
  | .formeClockGate d f => Sys2Proof.Machine.execFormeClockGate d f s
  | .formePowerGate d f => Sys2Proof.Machine.execFormePowerGate d f s
  | .formeWake d f source path => Sys2Proof.Machine.execFormeWake d f source path s
  | .formeWakeDone d f => Sys2Proof.Machine.execFormeWakeDone d f s
  | .formeWakeTimeout d f => Sys2Proof.Machine.execFormeWakeTimeout d f s
  | .powerInterval watts avg10ms => Sys2Proof.Machine.execPowerInterval watts avg10ms s
  | .shareWindow uses => Sys2Proof.Machine.execShareWindow uses s
  | .resetAssert source => Sys2Proof.Machine.execResetAssert source s
  | .perstNLow => Sys2Proof.Machine.execPerstNLow s
  | .criticalStateError d sub index => Sys2Proof.Machine.execCriticalStateError d sub index s
  | .refclkLoss => Sys2Proof.Machine.execRefclkLoss s
  | .nvPulseEnd => Sys2Proof.Machine.execNvPulseEnd s
  | .startupStepDone bridgeOk failed => Sys2Proof.Machine.execStartupStepDone bridgeOk failed s
  | .bulkZeroDone d => Sys2Proof.Machine.execBulkZeroDone d s
  | .wakePin level => Sys2Proof.Machine.execWakePin level s
  | .coolantPin level => Sys2Proof.Machine.execCoolantPin level s
  | .setEndpointId ep eid => Sys2Proof.Machine.execSetEndpointId ep eid s
  | .getEndpointId ep => Sys2Proof.Machine.execGetEndpointId ep s
  | .getEndpointUuid ep => Sys2Proof.Machine.execGetEndpointUuid ep s
  | .getMctpVersionSupport ep type => Sys2Proof.Machine.execGetMctpVersionSupport ep type s
  | .getMessageTypeSupport ep => Sys2Proof.Machine.execGetMessageTypeSupport ep s
  | .getTid ep => Sys2Proof.Machine.execGetTid ep s
  | .setTid ep tid => Sys2Proof.Machine.execSetTid ep tid s
  | .getPldmVersion ep type => Sys2Proof.Machine.execGetPldmVersion ep type s
  | .getPldmTypes ep => Sys2Proof.Machine.execGetPldmTypes ep s
  | .getPldmCommands ep type => Sys2Proof.Machine.execGetPldmCommands ep type s
  | .getPdrRepositoryInfo ep => Sys2Proof.Machine.execGetPdrRepositoryInfo ep s
  | .getPdr ep handle => Sys2Proof.Machine.execGetPdr ep handle s
  | .getSensorReading ep id => Sys2Proof.Machine.execGetSensorReading ep id s
  | .getStateSensorReadings ep id => Sys2Proof.Machine.execGetStateSensorReadings ep id s
  | .setNumericSensorEnable ep id enable => Sys2Proof.Machine.execSetNumericSensorEnable ep id enable s
  | .setSensorThresholds ep id warn crit => Sys2Proof.Machine.execSetSensorThresholds ep id warn crit s
  | .setEventReceiver ep receiver => Sys2Proof.Machine.execSetEventReceiver ep receiver s
  | .pollForPlatformEventMessage ep => Sys2Proof.Machine.execPollForPlatformEventMessage ep s
  | .queryDeviceIdentifiers ep => Sys2Proof.Machine.execQueryDeviceIdentifiers ep s
  | .getFirmwareParameters ep => Sys2Proof.Machine.execGetFirmwareParameters ep s
  | .requestUpdate ep maxTransfer => Sys2Proof.Machine.execRequestUpdate ep maxTransfer s
  | .passComponentTable ep classifier => Sys2Proof.Machine.execPassComponentTable ep classifier s
  | .updateComponent ep classifier size => Sys2Proof.Machine.execUpdateComponent ep classifier size s
  | .requestFirmwareData ep data => Sys2Proof.Machine.execRequestFirmwareData ep data s
  | .transferComplete ep ok => Sys2Proof.Machine.execTransferComplete ep ok s
  | .verifyComplete ep => Sys2Proof.Machine.execVerifyComplete ep s
  | .applyComplete ep => Sys2Proof.Machine.execApplyComplete ep s
  | .activateFirmware ep selfContained reset => Sys2Proof.Machine.execActivateFirmware ep selfContained reset s
  | .getStatus ep => Sys2Proof.Machine.execGetStatus ep s
  | .cancelUpdateComponent ep => Sys2Proof.Machine.execCancelUpdateComponent ep s
  | .cancelUpdate ep => Sys2Proof.Machine.execCancelUpdate ep s
  | .extest d => Sys2Proof.Machine.execExtest d s
  | .idcode d => Sys2Proof.Machine.execIdcode d s
  | .samplePreload d => Sys2Proof.Machine.execSamplePreload d s
  | .clamp d => Sys2Proof.Machine.execClamp d s
  | .highz d => Sys2Proof.Machine.execHighz d s
  | .extestPulse d => Sys2Proof.Machine.execExtestPulse d s
  | .extestTrain d => Sys2Proof.Machine.execExtestTrain d s
  | .bypass d => Sys2Proof.Machine.execBypass d s
  | .retrainDone p => Sys2Proof.Machine.execRetrainDone p s
  | .peerGone p => Sys2Proof.Machine.execPeerGone p s
  | .pcieLinkChange kind speed width flit => Sys2Proof.Machine.execPcieLinkChange kind speed width flit s
  | .pendingUnitCopied => Sys2Proof.Machine.execPendingUnitCopied s
  | .boardAlarm alarm on => Sys2Proof.Machine.execBoardAlarm alarm on s
  | .muzomusStart okA okB => Sys2Proof.Machine.execMuzomusStart okA okB s

end Sys2Proof.Machine
end

