-- ==== Sys2Proof/Machine/Pins.lean ====
section
/-! DEFINITION. The output pins as the board sees them: which float, which are driven low, and the weak pull-ups of a reset (R454,
R470, R493, R500). -/

namespace Sys2Proof.Machine

/-- The outputs of the table Floating outputs (R454). -/
inductive OutPin where
  | faultN
  | smbAlertN
  | pcieClkreqN
  | tdo
  | iznRdyN (p : Nat)
  | iznTx (p : Nat)
  | pcieTx
  deriving DecidableEq, Repr

/-- The die that drives an output; none for those of Muzomus and for TDO, which the TAPs drive. -/
def drivenBy : OutPin → Option Nat
  | .pcieClkreqN | .pcieTx => some 0
  | .iznRdyN p | .iznTx p => some (p / 8)
  | _ => none

/-- The output is one of a pair that the 1149.6 instructions test. -/
def onPair : OutPin → Bool
  | .iznTx _ | .pcieTx => true
  | _ => false

/-- What the TAP of the pin's die makes of an output (R498): HIGHZ floats it; EXTEST and CLAMP drive it from the boundary register,
whose content this is, and so do EXTEST_PULSE and EXTEST_TRAIN on the pairs that they test; none where the die itself drives it
(PRESUMED, log 105). -/
def scanDrives (s : State) (p : OutPin) : Option Nat :=
  match drivenBy p with
  | some d =>
    let c := tapIrOf s d
    if c = 0 || c = 4 || (onPair p && (c = 6 || c = 7)) then some (SMap.get (fun _ => 0) s.mzm.boundary d) else none
  | none => none

/-- An output floats while its driving domain is off (R454), and under HIGHZ (R498). -/
def pinFloats (s : State) (p : OutPin) : Bool :=
  (match p with
   | .faultN | .smbAlertN => s.power.vin == 0
   | .pcieClkreqN | .tdo | .pcieTx => s.power.vin != 2
   | .iznRdyN p | .iznTx p => s.power.vin != 2 || portState s p == 0) ||
  (match drivenBy p with
   | some d => tapIrOf s d == 5
   | none => false)

/-- Whether an open-drain output is driven low: FAULT_N as its sources and owner say (R500), SMB_ALERT_N while an event waits
for polling (R493), IZN_RDY_N while its port is UP (R454) and no boundary register drives it; none for the outputs whose level no
rule of the state gives (DEDUCED, log 163). -/
def pinLow (s : State) : OutPin → Option Bool
  | .faultN => some (!(pinFloats s .faultN) && !(s.flag mzmPage Fld.MZM_GPIO_STATUS.fault_n))
  | .smbAlertN => some (!(pinFloats s .smbAlertN) && !s.events.isEmpty)
  | .iznRdyN p => if (scanDrives s (.iznRdyN p)).isSome then none else some (!(pinFloats s (.iznRdyN p)) && portUp s p)
  | _ => none

/-- The weak pull-ups on every digital pin that a die drives are on from the reset's assertion until 1 ms after step 8 of start-up
(R470) (DEDUCED, log 163). -/
def weakPulls (s : State) : Bool :=
  s.power.vin != 0 && (decide (1 ≤ startStep s ∧ startStep s ≤ 8) || decide (s.sync.ticks < s.mzm.pullsOff))

end Sys2Proof.Machine
end

