-- ==== Sys2Proof/Safety.lean ====
section
/-! DEFINITION. What counts as a sound state of the module and as a command that its rules let act, in the terms that claims use. -/

namespace Sys2Proof

open Sys2Proof.Machine

/-- A step that answers a next state. -/
def Runs (s : State) : Prop := ∃ t, Machine.step s = .next t

/-- Memory is in its canonical form (`Memory.wf`). -/
def MemoryCanonical (s : State) : Prop := Memory.wf s.mem = true

/-- An access of function `fn` (32 is Muzomus) acts now: the function exists (R479), and its access waits neither for the end of
start-up (R483) nor for the function's earlier posted writes (R482). -/
def Admitted (s : State) (fn : Nat) : Prop := fnThere s fn = true ∧ (fn < 32 → s.ready = true ∧ heldBehind s fn = false)

/-- A register write of `fn` to the page at `base` acts: it is admitted, and `fn` owns the page (R484, R485). -/
def Granted (s : State) (fn base : Nat) : Prop := Admitted s fn ∧ ownsPage s fn base = true

/-- The control core of Chase `ch` executes an instruction of opcode `op`: its Forme is ON, it runs, the fetch meets no trap,
and the core emits no trace records. -/
def CoreAt (s : State) (ch op : Nat) : Prop :=
  isChase ch = true ∧ formeOn s ch = true ∧ (s.core ch).run = .running ∧ fetchTrap s ch = none ∧
  iOp (coreWord s ch) = op ∧ traceLevel s ch = 0

/-- A core whose registers are those of `c` after an instruction that retires and goes on at `pc`. -/
def retired (c : CoreSt) (pc : Word) : CoreSt := { c.freed with pc := pc, retired := (c.retired + 1) % 2 ^ 32 }

/-- The same for an instruction that restarts the watchdog (R150). -/
def retiredKick (c : CoreSt) (pc : Word) : CoreSt := { retired c pc with wd := 0 }

/-- A trap of the core of Chase `ch` other than a memory error or the watchdog, with no trace record (R149): handled where
CORE_MODE.vec_en is 1 and the core is outside trap state, else the core halts with its PC unmoved; a TRAP record of the core
that still waits is dropped (R148). -/
def trapped (s : State) (ch cause : Nat) : State :=
  let s := dropTrapRec ch s
  let c := s.core ch
  let page := unitPage ch
  let noted := (s.setFld page Fld.CHS_TRAP_CAUSE.cause cause).setFld page Fld.CHS_TRAP_PC.trap_pc (pc14 c)
  if s.flag page Fld.CHS_CORE_MODE.vec_en && !c.inTrap then
    raiseEv page 9 (noted.setCore ch { c.freed with inTrap := true, pc := BitVec.ofNat 32 (s.fld page Fld.CHS_TRAP_VEC.vector * 4) })
  else
    raiseEv page 8
      (((if c.inTrap then s else noted).setFld page Fld.CHS_TRAP_CAUSE.second_cause cause).setCore ch
        { c with run := .halted, stall := 0, stepping := false, doubleTrap := c.doubleTrap || c.inTrap })

/-- The rows of the control core's instructions. -/
def coreInstrs (ch : Nat) : List Instr :=
  [.alu ch, .addi ch, .andi ch, .ori ch, .xori ch, .shi ch, .lui ch, .slti ch, .beq ch, .bne ch, .blt ch, .bge ch, .bltu ch,
   .bgeu ch, .jal ch, .jr ch, .rte ch, .ldw ch, .ldh ch, .ldhu ch, .ldb ch, .ldbu ch, .stw ch, .sth ch, .stb ch, .twait ch,
   .tsend ch, .cget ch, .cput ch, .issue ch, .fence ch, .wait ch, .trap ch, .rdcnt ch]

/-- The engine commands by opcode (table Opcodes, table Collective opcodes) at unit `u`. -/
def engineCmds (u : Nat) : List (Nat × Instr) :=
  [(0x00, .nop u), (0x01, .mul u), (0x02, .mulB1 u), (0x03, .mulLut u), (0x04, .mulBsr u), (0x20, .vecMap1 u), (0x21, .vecMap2 u),
   (0x22, .vecFma u), (0x23, .vecReduce u), (0x24, .vecSoftmax u), (0x25, .vecMask u), (0x26, .vecTopk u), (0x40, .mov u),
   (0x41, .fill u), (0x42, .tierHint u), (0x60, .colAccum u), (0x61, .colGather u), (0x62, .colScatter u),
   (0x63, .colAllgather u), (0x64, .colRedscat u), (0x65, .colBcast u), (0x66, .colPermute u)]

/-- Between the two states nothing but page registers differs, and of these only the words at `offs`. -/
def OnlyRegs (s t : State) (offs : List Nat) : Prop := { t with regs := s.regs } = s ∧ ∀ o, o ∉ offs → t.reg o = s.reg o

/-- Packet `pkt` of type `ty` can be delivered at `p`, is well formed, and is for this module (checks 1 to 5 of R306). -/
def WellArrived (s : State) (p : Nat) (pkt : Packet) (ty : Nat) : Prop :=
  pkt.type = ty ∧ arrived s p pkt = true ∧ malformed pkt = false ∧ pkt.data.length = 16 * data16 pkt.type pkt.len16 ∧ pkt.dest = selfId s

/-- The state in which a packet has left where it waited and counts as delivered. -/
def delivered (s : State) (p : Nat) (pkt : Packet) : State := (takeIn p pkt s).bump routePage 0 1

/-- The rows of packets that arrive at `p`, with their types and subtypes. -/
def packetRows (p : Nat) (pkt : Packet) : List (Nat × Instr) :=
  [(ptWrite, .writeRx p pkt), (ptReadReq, .readReqRx p pkt), (ptReadResp, .readRespRx p pkt), (ptAccum, .accumRx p pkt),
   (ptAck, .ackRx p pkt), (ptError, .errorRx p pkt), (ptToken, .tokenRx p pkt), (ptCredit, .creditRx p pkt),
   (ptGov, .govRx p pkt), (ptBgWrite, .bgWriteRx p pkt), (ptBgReadReq, .bgReadReqRx p pkt)]

/-- No unit holds a command or a share. -/
def UnitsIdle (s : State) : Prop := ∀ x ∈ s.units, x.2.q = []

/-- No trigger and no hang snapshot meets a timeout on die `d`. -/
def PlainTimeouts (s : State) (d : Nat) : Prop :=
  s.flag (tracePage 0) Fld.TRC_CTRL.hang_on_timeout = false ∧ s.flag (tracePage d) Fld.TRC_TRIG_CFG.on_timeout = false ∧ s.hang = none

/-- The commands that the owner of a page alone makes, with the page and the register's offset (R485). -/
def ownerWrites (fn : Nat) (v : Word) (d r : Nat) : List (Instr × Nat × Nat) :=
  [(.stepEnd fn v, govPage, 0x80), (.ptgEntLoad fn, govPage, 0xC4), (.ptgEntCommit fn, govPage, 0xC4), (.lscaleWrite fn v, govPage, 0x104),
   (.seedLoad fn, govPage, 0x12C), (.seedCommit fn, govPage, 0x12C), (.tstEntLoad fn, tasterPage, 0xC0), (.tstEntCommit fn, tasterPage, 0xC0)] ++
  [(.mapEntLoad fn, mapPage, 0x94), (.mapEntCommit fn, mapPage, 0x94), (.psetLoad fn, tunPage, 0x140), (.psetCommit fn, tunPage, 0x140),
   (.rtLoad fn, routePage, 0x8C), (.rtCommit fn, routePage, 0x8C), (.jobLoad fn, streamPage 0, 0xA8), (.shareLoad fn, powerPage 0, 0xD8)] ++
  [(.regionMap fn r, tierPage 0, 0x98), (.regionUnmap fn r, tierPage 0, 0x98), (.quotaLoad fn, tierPage 0, 0xC0),
   (.quotaCommit fn, tierPage 0, 0xC0), (.hydRingCfgWrite fn d v, hydroPage d, 0x88), (.lendCfgWrite fn d v, tierPage d, 0xDC)] ++
  [(.caskRequest fn, cellarPage, 0x80), (.caskCut fn, cellarPage, 0x80), (.caskResume fn, cellarPage, 0x80), (.stopArm fn v, cellarPage, 0x98),
   (.caskRestore fn v, cellarPage, 0xE0), (.buddyPair fn v, cellarPage, 0xD8), (.clrRead fn, cellarPage, 0x11C), (.clrAppend fn, cellarPage, 0x11C)] ++
  [(.traceEnable fn d v, tracePage d, 0x80), (.traceTrigger fn d, tracePage d, 0x80), (.traceArm fn d, tracePage d, 0x80),
   (.counterSnap fn, tracePage 0, 0x80), (.snapRelease fn, tracePage 0, 0x80), (.hangRequest fn, tracePage 0, 0x80),
   (.marginStart fn d v, monPage d, 0x90)]

/-- The commands that the physical function, or it and Muzomus, alone make, with the register's BAR0 offset (R425, R452, R453). -/
def functionZeroWrites (fn : Nat) (v : Word) (d : Nat) : List (Instr × Nat) :=
  [(.rstCtrlWrite fn v, resetPage 0 + 0x90), (.shareCommit fn, powerPage 0 + 0xD8), (.jobCommit fn, streamPage 0 + 0xA8),
   (.proofModeWrite fn d v, monPage d + 0x80), (.claimDuty fn, powerPage 0 + 0x98), (.releaseDuty fn, powerPage 0 + 0x98)]

/-- The commands that Muzomus alone makes (R389, R451, R453). -/
def muzomusWrites (fn : Nat) (v : Word) : List (Instr × Nat) :=
  [(.claimVset fn, powerPage 0 + 0x98), (.releaseVset fn, powerPage 0 + 0x98), (.feedWrite fn v, cellarPage + 0xDC),
   (.capWrite fn true v, powerPage 0 + 0x8C)]

end Sys2Proof
end

