-- ==== Sys2Proof/Certificates/Slice0/Obligations.lean ====
section
/-! DEFINITION. The statements for the provers: each says what a command does to the state, under conditions on the state and the
operands alone, or what holds over all commands. -/

open Sys2Proof Sys2Proof.Machine

/-- O1. A step runs the command at the front of the queue (98_reader.md, 00_scope.md). -/
def Obligations.StepRunsFrontCommand : Prop :=
  ∀ (c : Instr) (cs : List Instr) (s : State), Machine.step { s with pending := c :: cs } = exec c { s with pending := cs }

/-- O2. Memory is canonical after reset, and nothing is listed (18_reset_clocks_boot.md). -/
def Obligations.MemoryCanonicalAtReset : Prop :=
  MemoryCanonical State.reset ∧ State.reset.mem = [] ∧ State.reset.pending = []

/-- O3. Every step keeps memory canonical (09_memory_tiers.md, 05_chase_control_core.md). -/
def Obligations.MemoryCanonicalKept : Prop :=
  ∀ s t, MemoryCanonical s → Machine.step s = .next t → MemoryCanonical t

/-- O4. Outputs, free values, resets and security versions only grow; straps and the queue stand (18_reset_clocks_boot.md,
20_module_interface.md). -/
def Obligations.StepsNeverTakeBack : Prop :=
  ∀ s t, Machine.step s = .next t →
    t.pending = s.pending.tail ∧ s.out <+: t.out ∧ s.free ≤ t.free ∧ s.mzm.boots ≤ t.mzm.boots ∧
    s.mzm.secure ≤ t.mzm.secure ∧ t.mzm.feedStrap = s.mzm.feedStrap ∧ t.mzm.jtagEn = s.mzm.jtagEn ∧
    t.mzm.smbStrap = s.mzm.smbStrap

/-- O5. No command stops the block (00_scope.md, 95_what_each_step_holds.md). -/
def Obligations.EveryStepRuns : Prop := ∀ s, Runs s

/-- O6. Immediate arithmetic of the control core (R132, R128, R134). -/
def Obligations.CoreArithmetic : Prop :=
  ∀ (s : State) (ch : Nat), let c := s.core ch; let w := coreWord s ch; let a := c.reg (iRa w)
    let done := fun (v : Word) => (Host.Outcome.next (s.setCore ch (retired (c.setG (iRd w) v) (c.pc + 4))) : Host.Outcome State Fault Refusal)
    (CoreAt s ch 0x01 → exec (.addi ch) s = done (a + (BitVec.ofNat 16 (bits w 15 0)).signExtend 32)) ∧
    (CoreAt s ch 0x02 → exec (.andi ch) s = done (a &&& BitVec.ofNat 32 (bits w 15 0))) ∧
    (CoreAt s ch 0x03 → exec (.ori ch) s = done (a ||| BitVec.ofNat 32 (bits w 15 0))) ∧
    (CoreAt s ch 0x04 → exec (.xori ch) s = done (a ^^^ BitVec.ofNat 32 (bits w 15 0))) ∧
    (CoreAt s ch 0x05 → bits w 15 7 = 0 → bits w 6 5 = 0 → exec (.shi ch) s = done (a <<< bits w 4 0)) ∧
    (CoreAt s ch 0x05 → bits w 15 7 = 0 → bits w 6 5 = 1 → exec (.shi ch) s = done (a >>> bits w 4 0)) ∧
    (CoreAt s ch 0x05 → bits w 15 7 = 0 → bits w 6 5 = 2 → exec (.shi ch) s = done (a.sshiftRight (bits w 4 0))) ∧
    (CoreAt s ch 0x06 → bits w 20 16 = 0 → exec (.lui ch) s = done (BitVec.ofNat 32 (bits w 15 0 * 65536))) ∧
    (CoreAt s ch 0x07 → exec (.slti ch) s = done (if a.toInt < ((BitVec.ofNat 16 (bits w 15 0)).signExtend 32).toInt then 1 else 0))

/-- O7. The fourteen functions of ALU (R132, R128). -/
def Obligations.CoreAluFunctions : Prop :=
  ∀ (s : State) (ch : Nat), CoreAt s ch 0x00 →
    let c := s.core ch; let w := coreWord s ch; let a := c.reg (iRa w); let b := c.reg (iRb w); let n := b.toNat % 32
    let sets := fun (f : Nat) (v : Word) => bits w 10 0 = f →
      exec (.alu ch) s = .next (s.setCore ch (retired (c.setG (iRd w) v) (c.pc + 4)))
    sets 0 (a + b) ∧ sets 1 (a - b) ∧ sets 2 (a &&& b) ∧ sets 3 (a ||| b) ∧ sets 4 (a ^^^ b) ∧
    sets 5 (a <<< n) ∧ sets 6 (a >>> n) ∧ sets 7 (a.sshiftRight n) ∧
    sets 8 (if a.toInt < b.toInt then 1 else 0) ∧ sets 9 (if a.toNat < b.toNat then 1 else 0) ∧
    sets 10 (a * b) ∧ sets 11 (BitVec.ofInt 32 (a.toInt * b.toInt / 2 ^ 32)) ∧
    sets 12 (if a.toInt < b.toInt then a else b) ∧ sets 13 (if a.toInt < b.toInt then b else a)

/-- O8. Branches and jumps of the control core (R132, R149). -/
def Obligations.CoreBranches : Prop :=
  ∀ (s : State) (ch : Nat), let c := s.core ch; let w := coreWord s ch
    let a := c.reg (bits w 25 21); let b := c.reg (bits w 20 16)
    let target := c.pc + (BitVec.ofNat 16 (bits w 15 0)).signExtend 32 * 4
    let goes := fun (c' : CoreSt) (p : Word) => (Host.Outcome.next (s.setCore ch (retired c' p)) : Host.Outcome State Fault Refusal)
    (CoreAt s ch 0x08 → exec (.beq ch) s = goes c (if a = b then target else c.pc + 4)) ∧
    (CoreAt s ch 0x09 → exec (.bne ch) s = goes c (if a = b then c.pc + 4 else target)) ∧
    (CoreAt s ch 0x0A → exec (.blt ch) s = goes c (if a.toInt < b.toInt then target else c.pc + 4)) ∧
    (CoreAt s ch 0x0B → exec (.bge ch) s = goes c (if b.toInt ≤ a.toInt then target else c.pc + 4)) ∧
    (CoreAt s ch 0x0C → exec (.bltu ch) s = goes c (if a.toNat < b.toNat then target else c.pc + 4)) ∧
    (CoreAt s ch 0x0D → exec (.bgeu ch) s = goes c (if b.toNat ≤ a.toNat then target else c.pc + 4)) ∧
    (CoreAt s ch 0x0E → exec (.jal ch) s =
      goes (c.setG (bits w 25 21) (c.pc + 4)) (c.pc + (BitVec.ofNat 21 (bits w 20 0)).signExtend 32 * 4)) ∧
    (CoreAt s ch 0x0F → bits w 25 21 = 0 → bits w 15 0 = 0 → b.toNat % 4 = 0 → exec (.jr ch) s = goes c b) ∧
    (CoreAt s ch 0x10 → c.inTrap = true → bits w 25 21 = 0 → bits w 15 0 = 0 → b.toNat % 4 = 0 →
      ∃ t, exec (.rte ch) s = .next t ∧ t.core ch = retired { c with inTrap := false } b ∧
        (∀ u, u ≠ ch → t.core u = s.core u) ∧ t.regs = s.regs ∧ t.mem = s.mem ∧ t.units = s.units ∧ t.streams = s.streams)

/-- O9. Loads from data memory and from the Chase store (R129, R132, R263). -/
def Obligations.CoreLoads : Prop :=
  ∀ (s : State) (ch op n : Nat) (ext : Nat → Word) (i : Instr),
    (op, n, i) ∈ [(0x11, 4, Instr.ldw ch), (0x12, 2, .ldh ch), (0x13, 2, .ldhu ch), (0x14, 1, .ldb ch), (0x15, 1, .ldbu ch)] →
    ext = (if op = 0x12 then fun v => (BitVec.ofNat 16 v).signExtend 32
           else if op = 0x14 then fun v => (BitVec.ofNat 8 v).signExtend 32 else BitVec.ofNat 32) →
    CoreAt s ch op →
    let c := s.core ch; let w := coreWord s ch
    let a := (c.reg (iRa w) + (BitVec.ofNat 16 (bits w 15 0)).signExtend 32).toNat
    let done := fun (t : State) (v : Word) => exec i s = .next (t.setCore ch (retired (c.setG (iRd w) v) (c.pc + 4)))
    let counted := fun (t : State) => t.bump (unitPage ch) 16 1
    a % n = 0 →
    (a < 0x4000 → let key := dmemBase ch + a
      (s.coreEcc key = 0 → done s (ext (s.num key n))) ∧ (s.coreEcc key = 1 → done (counted (s.setCoreEcc key 0)) (ext (s.num key n)))) ∧
    (0x40000 ≤ a → a < 0x80000 → let key := chaseStore ch + (a - 0x40000)
      (s.eccAt key = 0 → done s (ext (s.num key n))) ∧ (s.eccAt key = 1 → done (counted (s.setEcc key 0)) (ext (s.num key n)))) ∧
    (a = 0x80000 → n = 4 → done s (s.reg (unitPage ch + 0x108))) ∧
    (a = 0x80004 → n = 4 → done s (s.reg (unitPage ch + 0x11C)))

/-- O10. Stores to data memory and to the Chase store, and their frame (R129, R132). -/
def Obligations.CoreStores : Prop :=
  ∀ (s : State) (ch op n : Nat) (i : Instr),
    (op, n, i) ∈ [(0x16, 4, Instr.stw ch), (0x17, 2, .sth ch), (0x18, 1, .stb ch)] → CoreAt s ch op →
    let c := s.core ch; let w := coreWord s ch
    let a := (c.reg (iRa w) + (BitVec.ofNat 16 (bits w 15 0)).signExtend 32).toNat
    let key := if a < 0x4000 then dmemBase ch + a else chaseStore ch + (a - 0x40000)
    a % n = 0 → (a < 0x4000 ∨ (0x40000 ≤ a ∧ a < 0x80000)) →
    ∃ t, exec i s = .next t ∧ t.num key n = (c.reg (bits w 25 21)).toNat % 2 ^ (8 * n) ∧
      (∀ b, b < key ∨ key + n ≤ b → t.byte b = s.byte b) ∧ t.core ch = retired c (c.pc + 4) ∧
      (∀ k, k ≠ ch → t.core k = s.core k) ∧ t.regs = s.regs ∧ t.units = s.units ∧ t.streams = s.streams ∧
      t.ports = s.ports ∧ t.out = s.out ∧ t.net = s.net

/-- O11. STW writes CORE_MODE and the trap vector (R129, R130). -/
def Obligations.CoreModeStores : Prop :=
  ∀ (s : State) (ch : Nat), CoreAt s ch 0x16 →
    let c := s.core ch; let w := coreWord s ch; let v := (c.reg (bits w 25 21)).toNat
    let a := c.reg (iRa w) + (BitVec.ofNat 16 (bits w 15 0)).signExtend 32
    let page := unitPage ch
    let done := fun (t : State) => exec (.stw ch) s = .next (t.setCore ch (retired c (c.pc + 4)))
    (a = 0x80000 → (c.hostMode ≠ thisTick s → bits v 8 7 < 2 → done (s.setRegN (page + 0x108) (v % 512))) ∧
      (c.hostMode = thisTick s → done s)) ∧
    (a = 0x80004 → (c.hostVec ≠ thisTick s → done (s.setRegN (page + 0x11C) (bits v 13 2 * 4))) ∧ (c.hostVec = thisTick s → done s))

/-- O12. The state after a power-on reset (R99, R152, R270, R313, R411, R458, R469, R484, R532). -/
def Obligations.ResetValues : Prop :=
  let s := State.reset
  s.time = 0 ∧ s.ready = false ∧ startStep s = 1 ∧ s.stopped = false ∧
    (∀ ch, (s.core ch).run = .halted ∧ (s.core ch).pc = 0 ∧ (∀ n, (s.core ch).reg n = 0) ∧ (∀ i, (s.core ch).credit i = 0) ∧
      (s.unit ch).q = [] ∧ (s.unit ch).toks = [] ∧ (s.arr ch).width = 3) ∧
    (∀ id, (s.stream id).state = 0) ∧ (∀ p, p < 16 → portState s p = 0) ∧ traceState s 0 = 0 ∧ traceState s 1 = 0 ∧
    (∀ off, s.reg off = regReset off) ∧ s.flag mzmPage Fld.PAGE_OWNER.mgmt = true ∧
    s.flag (dieTopPage 0) Fld.PAGE_OWNER.mgmt = false ∧ s.fld (dieTopPage 0) Fld.PAGE_OWNER.function = 0

/-- O13. When a core traps, and what taking the trap does (R148, R149, R132, R129, R131). -/
def Obligations.CoreTraps : Prop :=
  ∀ (s : State) (ch : Nat), isChase ch = true → formeOn s ch = true → (s.core ch).run = .running → traceLevel s ch = 0 →
    let c := s.core ch; let w := coreWord s ch
    let a := (c.reg (iRa w) + (BitVec.ofNat 16 (bits w 15 0)).signExtend 32).toNat
    (∀ i ∈ coreInstrs ch, ∀ k, fetchTrap s ch = some k → k ≠ trParity → exec i s = .next (trapped s ch k)) ∧
    (fetchTrap s ch = none →
      (∀ i ∈ coreInstrs ch, listedOp (iOp w) = false → exec i s = .next (trapped s ch trIllegal)) ∧
      (iOp w = 0x00 → 13 < bits w 10 0 → exec (.alu ch) s = .next (trapped s ch trIllegal)) ∧
      (iOp w = 0x10 → c.inTrap = false → exec (.rte ch) s = .next (trapped s ch trIllegal)) ∧
      (iOp w = 0x0F → bits w 25 21 = 0 → bits w 15 0 = 0 → (c.reg (iRa w)).toNat % 4 ≠ 0 →
        exec (.jr ch) s = .next (trapped s ch trMisaligned)) ∧
      (iOp w = 0x11 → a % 4 ≠ 0 → exec (.ldw ch) s = .next (trapped s ch trMisaligned)) ∧
      (iOp w = 0x16 → a % 4 ≠ 0 → exec (.stw ch) s = .next (trapped s ch trMisaligned)) ∧
      (iOp w = 0x17 → a % 2 = 0 → 0x4000 ≤ a → a < 0x40000 ∨ 0x80000 ≤ a → exec (.sth ch) s = .next (trapped s ch trAddress)) ∧
      (iOp w = 0x14 → 0x4000 ≤ a → a < 0x40000 ∨ 0x80000 ≤ a → exec (.ldb ch) s = .next (trapped s ch trAddress)))

/-- O14. TWAIT, TSEND, CGET and CPUT (R137, R139, R140, R141). -/
def Obligations.CoreTokensAndCredits : Prop :=
  ∀ (s : State) (ch : Nat), let c := s.core ch; let w := coreWord s ch
    let ra := c.regN (iRa w); let rb := c.regN (iRb w); let rd := c.regN (iRd w); let k := bits w 15 12
    (CoreAt s ch 0x20 → bits w 9 0 = 0 →
      (∀ e, (s.unit ch).toks.find? (fun x => x.stream == ra % 65536) = some e → seqGe e.high rb = true →
        exec (.twait ch) s = .next ((s.when (bit w 10) (freeEntry ch (ra % 65536))).setCore ch
          (retired (c.setG (iRd w) (if e.fail && seqGe rb e.failSeq then 0x0D else 0)) (c.pc + 4)))) ∧
      (twaitStatus s ch (ra % 65536) rb = none →
        exec (.twait ch) s = .next (s.setCore ch { c with run := .stalled, stall := 1, since := s.time }))) ∧
    (CoreAt s ch 0x21 → bits w 9 0 = 0 → ownJob s ch (ra % 65536) = true → validPath (rd % 65536) = true →
      exec (.tsend ch) s = .next (({ s with net := s.net ++ [.token ⟨rd % 65536, ra % 65536, rb, bit w 10, some ch, ch⟩] } : State).setCore ch
        (retiredKick c (c.pc + 4)))) ∧
    (CoreAt s ch 0x22 → bits w 11 0 = 0 →
      (65535 < ra → exec (.cget ch) s = .next (s.setCore ch (retired (c.setG (iRd w) 1) (c.pc + 4)))) ∧
      (ra ≤ 65535 → ra ≤ c.credit k → ∃ t, exec (.cget ch) s = .next t ∧
        t.core ch = retired ((c.setCredit k (c.credit k - ra)).setG (iRd w) 0) (c.pc + 4) ∧
        (∀ u, u ≠ ch → t.core u = s.core u) ∧ t.regs = s.regs ∧ t.mem = s.mem ∧ t.units = s.units ∧ t.net = s.net) ∧
      (ra ≤ 65535 → c.credit k < ra →
        exec (.cget ch) s = .next (s.setCore ch { c with run := .stalled, stall := 2, since := s.time }))) ∧
    (CoreAt s ch 0x23 → bits w 11 0 = 0 → 0 < ra → ra ≤ 65535 → validPath (rd % 65536) = true →
      exec (.cput ch) s = .next (({ s with net := s.net ++ [.credits ch (rd % 65536) k ra] } : State).setCore ch (retiredKick c (c.pc + 4))))

/-- O15. ISSUE hands a command to the Chase's own issue stage (R142, R143, R279). -/
def Obligations.CoreIssue : Prop :=
  ∀ (s : State) (ch : Nat), CoreAt s ch 0x24 → let c := s.core ch; let w := coreWord s ch; let a := c.regN (iRa w)
    let cmd := BitVec.ofNat 256 (s.num (dmemBase ch + a) 32); let id := cStream cmd; let st := s.stream id
    let seq := if bit w 15 then st.nextSeq else cSeq cmd
    bits w 14 0 = 0 → (bit w 15 = true → iRd w ≠ 31) → a % 32 = 0 → a < 0x4000 →
    (∀ i, i < 8 → s.coreEcc (dmemBase ch + a + 4 * i) = 0) → cPath cmd = ch → ownJob s ch id = true →
    slotsUsed s ch < 16 → st.inFlight < st.credits → st.slotFree = true →
    ∃ t, exec (.issue ch) s = .next t ∧ t.q ch = s.q ch ++ [newEnt (cPlace cmd id seq) (some ch)] ∧
      (∀ u, u ≠ ch → t.unit u = s.unit u) ∧
      (t.stream id).inFlight = st.inFlight + 1 ∧
      (t.stream id).nextSeq = (if bit w 15 then (st.nextSeq + 1) % 2 ^ 32 else st.nextSeq) ∧
      (∀ j, j ≠ id → t.stream j = s.stream j) ∧ (iRd w ≠ 0 → (t.core ch).reg (iRd w) = 0) ∧
      (bit w 15 = true → (t.core ch).reg (iRd w + 1) = BitVec.ofNat 32 seq) ∧
      (∀ g, g ≠ iRd w → g ≠ iRd w + 1 → (t.core ch).reg g = c.reg g) ∧
      (t.core ch).pc = c.pc + 4 ∧ (t.core ch).wd = 0 ∧ t.regs = s.regs ∧ t.mem = s.mem ∧ t.out = s.out

/-- O16. FENCE, WAIT, RDCNT and TRAP (R144, R145, R133, R147). -/
def Obligations.CoreWaits : Prop :=
  ∀ (s : State) (ch : Nat), let c := s.core ch; let w := coreWord s ch; let page := unitPage ch
    let id := c.regN (bits w 25 21) % 65536; let code := bits w 15 8
    let r : Rec := ⟨c.regN (iRa w), ch, id, code, 0xFF, (s.stream id).job, 0, 0, 0, false, false, none, 0, false⟩
    let queued := pushFree r (stallCore ch 0 (logItem page code ch r.seq s))
    let sel := fun (v : Nat) => exec (.rdcnt ch) s = .next (s.setCore ch (retired (c.setG (iRd w) (BitVec.ofNat 32 v)) (c.pc + 4)))
    (CoreAt s ch 0x25 → bits w 25 3 = 0 →
      ((bit w 2 = true → issuedDone s ch = true) → (bit w 1 = true → sentDone s ch = true) →
        exec (.fence ch) s = .next (s.setCore ch (retired c (c.pc + 4)))) ∧
      ((bit w 2 = true ∧ issuedDone s ch = false) ∨ (bit w 1 = true ∧ sentDone s ch = false) →
        exec (.fence ch) s = .next (s.setCore ch { c with run := .stalled, stall := 4, since := s.time }))) ∧
    (CoreAt s ch 0x26 → bits w 15 0 = 0 →
      (wakeCause s ch = none → exec (.wait ch) s =
        .next (s.setCore ch { c with run := .waiting, since := s.time, timer := c.regN (iRa w), depth := modeDepth s ch })) ∧
      (∀ k, wakeCause s ch = some k → exec (.wait ch) s = .next ((s.setCore ch { c with wakes := [] }).setCore ch
        (retiredKick (({ c with wakes := [] } : CoreSt).setG (iRd w) (BitVec.ofNat 32 k)) (c.pc + 4))))) ∧
    (CoreAt s ch 0x28 → bits w 20 16 = 0 →
      (bits w 15 0 = 0 → ∃ t, exec (.rdcnt ch) s = .next t ∧ t.core ch =
        retired (({ c with timeHi := s.time / 2 ^ 32 % 2 ^ 32 } : CoreSt).setG (iRd w) (BitVec.ofNat 32 (s.time % 2 ^ 32))) (c.pc + 4)) ∧
      (bits w 15 0 = 1 → sel c.timeHi) ∧ (bits w 15 0 = 2 → sel ((tickCount s + 2 ^ 32 - c.resetAt % 2 ^ 32) % 2 ^ 32)) ∧
      (bits w 15 0 = 3 → sel c.retired) ∧ (bits w 15 0 = 4 → sel (s.fld page Fld.CHS_TRAP_PC.trap_pc)) ∧
      (bits w 15 0 = 5 → sel (s.fld page Fld.CHS_TRAP_CAUSE.cause)) ∧
      (∀ n, n < 20 → bits w 15 0 = 0x10 + n → sel (s.regN (page + 0x30 + 4 * n)))) ∧
    (CoreAt s ch 0x27 → bits w 6 0 = 0 → 0x80 ≤ code → ownJob s ch id = true →
      ((s.stream id).slotFree = false → (s.stream id).flr = false → exec (.trap ch) s = .next queued) ∧
      ((s.stream id).slotFree = true → (s.stream id).recs = [] → SMap.get (fun _ => 0) s.recAt ch ≠ s.time + 1 →
        exec (.trap ch) s = .next (writeRecord id { r with no := s.recNo } queued)))

/-- O17. Timeouts, the WAIT timer, the watchdog and the outbound queue of a core (R137, R140, R143, R145, R150). -/
def Obligations.CoreTimeouts : Prop :=
  ∀ (s : State) (ch : Nat), isChase ch = true → traceLevel s ch = 0 → PlainTimeouts s (pathDie ch) →
    let c := s.core ch; let w := coreWord s ch; let page := unitPage ch; let strm := streamPage (pathDie ch)
    let late := fun (code off : Nat) => c.run = .stalled ∧ c.stall = code ∧ c.since + max 1024 (s.regN (strm + off)) < s.time
    let cmd := BitVec.ofNat 256 (s.num (dmemBase ch + c.regN (iRa w)) 32)
    (late 1 0x90 → twaitStatus s ch (c.regN (iRa w) % 65536) (c.regN (iRb w)) = none →
      exec (.twaitTimeout ch) s = .next (if s.flag page Fld.CHS_CORE_MODE.trap_on_timeout then trapped s ch 0x06
        else s.setCore ch (retired (c.setG (iRd w) 5) (c.pc + 4)))) ∧
    (late 2 0x94 → c.credit (bits w 15 12) < c.regN (iRa w) →
      exec (.cgetTimeout ch) s = .next (if s.flag page Fld.CHS_CORE_MODE.trap_on_timeout then trapped s ch 0x07
        else s.setCore ch (retired (c.setG (iRd w) 4) (c.pc + 4)))) ∧
    (late 3 0x94 → issueRoom s ch cmd = false →
      exec (.issueTimeout ch) s = .next (s.setCore ch (retiredKick (c.setG (iRd w) 4) (c.pc + 4)))) ∧
    (formeOn s ch = true → c.run = .waiting → c.timer ≠ 0 → c.since + c.timer ≤ s.time → 4 ∉ c.wakes →
      exec (.waitTimerExpiry ch) s = .next (s.setCore ch { c with wakes := c.wakes ++ [4] })) ∧
    (s.fld page Fld.CHS_WDOG.wd_exp ≠ 0 → 2 ^ max 16 (s.fld page Fld.CHS_WDOG.wd_exp) ≤ c.wd → c.run = .running ∨ c.run = .stalled →
      ∃ t, exec (.watchdogExpiry ch) s = .next t ∧ (t.core ch).wd = 0 ∧ t.cask.traps = s.cask.traps + 1 ∧ t.mem = s.mem ∧
        (if s.flag page Fld.CHS_CORE_MODE.vec_en && !c.inTrap then
          (t.core ch).inTrap = true ∧ (t.core ch).pc = BitVec.ofNat 32 (s.fld page Fld.CHS_TRAP_VEC.vector * 4)
         else (t.core ch).run = .halted ∧ (t.core ch).pc = c.pc)) ∧
    (∀ cmd rest, c.outq = cmd :: rest → c.run ≠ .stalled → clockStopped s ch = false → cannotPass s ch cmd = none → slotFree s (cPath cmd) = true →
      exec (.outboundSend ch) s = .next (enqueue (cPath cmd) ch cmd (some ch) (s.setCore ch { c with outq := rest })))

/-- O18. The host's commands to a control core (R151, R152, R145, R154, R537, R538). -/
def Obligations.CoreHostControl : Prop :=
  ∀ (s : State) (fn ch : Nat), Granted s fn (unitPage ch) → formeOn s ch = true →
    let c := s.core ch; let page := unitPage ch
    let key := (if s.flag page Fld.CHS_MEM_ADDR.sel then dmemBase ch else imemBase ch) + 4 * s.fld page Fld.CHS_MEM_ADDR.word
    let next := fun (t : State) => t.setFld page Fld.CHS_MEM_ADDR.word ((t.fld page Fld.CHS_MEM_ADDR.word + 1) % 4096)
    (c.run = .halted →
      exec (.coreRun fn ch) s = .next (s.setCore ch { c with run := .running }) ∧
      exec (.coreStep fn ch) s = .next (coreGo ch (s.setCore ch { c with run := .running, stepping := true })) ∧
      (∃ t, exec (.loadImem fn ch) s = .next t ∧ t.core ch = { c with run := .loading, stall := 5, loads := [false], todo := [] } ∧
        t.mem = s.mem ∧ t.regs = s.regs) ∧
      (∃ t, exec (.loadDmem fn ch) s = .next t ∧ t.core ch = { c with run := .loading, stall := 5, loads := [true], todo := [] } ∧
        t.mem = s.mem ∧ t.regs = s.regs) ∧
      (∀ v, exec (.chsMemDataAccess fn ch true v) s = .next (next ((s.setNum key 4 v.toNat).setCoreEcc key 0))) ∧
      (∀ v, exec (.chsMemDataAccess fn ch false v) s =
        .next (next (s.send (.regRead fn (page + 0x128) (BitVec.ofNat 32 (s.num key 4))))))) ∧
    (c.run ≠ .halted → c.run ≠ .loading → ∃ t, exec (.coreHalt fn ch) s = .next t ∧
      t.core ch = { c with run := .halted, stall := 0, stepping := false, wakes := c.wakes.filter (· != 4) } ∧ t.mem = s.mem ∧ t.regs = s.regs ∧ t.units = s.units) ∧
    (c.run ≠ .loading → ∃ t, exec (.coreReset fn ch) s = .next t ∧ (t.core ch).run = .halted ∧ (t.core ch).pc = 0 ∧
      (∀ g, (t.core ch).reg g = 0) ∧ (∀ k, (t.core ch).credit k = 0) ∧ (t.core ch).inTrap = false ∧
      (t.core ch).doubleTrap = false ∧ (t.core ch).wd = 0 ∧ (t.core ch).retired = 0 ∧ (t.core ch).resetAt = tickCount s ∧
      t.mem = s.mem ∧ t.regs = s.regs ∧ t.units = s.units) ∧
    (c.run ≠ .loading → 5 ∉ c.wakes → exec (.coreWake fn ch) s = .next (s.setCore ch { c with wakes := c.wakes ++ [5] })) ∧
    (c.run = .waiting → 5 ∈ c.wakes → (∀ k ∈ [1, 2, 3, 4], k ∉ c.wakes) → traceLevel s ch = 0 →
      endWaits ch s = (s.setCore ch { c with wakes := [] }).setCore ch
        (retiredKick (({ c with wakes := [] } : CoreSt).setG (iRd (coreWord s ch)) 5) (c.pc + 4)))

/-- O19. A load of instruction or data memory ends (R537, R154). -/
def Obligations.CoreLoadEnds : Prop :=
  ∀ (s : State) (ch : Nat) (dmem : Bool), (s.core ch).run = .loading → (s.core ch).loads = [dmem] → (s.core ch).todo = [] →
    let src := s.reg64 (unitPage ch + 0x12C) + (if dmem then 16384 else 0)
    let base := if dmem then dmemBase ch else imemBase ch
    let s1 := if loadFails s src then s else readDone src 16384 s
    ∃ t, exec (.coreLoadDone ch) s = .next t ∧
      t.bytes base 16384 = (if loadFails s src then List.replicate 16384 0 else folioBytes s src 16384) ∧
      (∀ b, b < base ∨ base + 16384 ≤ b → t.byte b = s1.byte b) ∧ (∀ i, i < 4096 → t.coreEcc (base + 4 * i) = 0) ∧
      bit (t.regN (unitPage ch + 0x20)) 11 = true ∧
      t.core ch = { s.core ch with run := .halted, stall := 0, loads := [], loadErr := loadFails s src, todo := [] } ∧
      (∀ u, u ≠ ch → t.core u = s.core u) ∧ t.units = s.units ∧ t.streams = s.streams

/-- O20. Acceptance of an engine command: checks, no-ops, and its way to its engine (R168, R169, R181, R217, R258, R90,
R161). -/
def Obligations.EngineCommandsAccepted : Prop :=
  ∀ (s : State) (u op : Nat) (i : Instr) (e : QEnt), (op, i) ∈ engineCmds u → headOf s u = some e → e.op = op →
    issueHeld s u = false → formeState s u ≠ 3 → formeTested s u = false → isFenced s u = false →
    let step := s.regN (govPage + 0x88)
    let e1 := { e with acc := ⟨step, s.fld govPage Fld.PTG_LSCALE.ls_exp, s.regN (govPage + 0x100),
      (SMap.get (fun _ => (0 : BitVec 64)) s.gov.seeds (jobOf s e.cmd)).toNat⟩ }
    let s1 := s.setQ u (mapFirst (sameEnt e) (fun _ => e1) (s.q u))
    let done := fun (x : QEnt) (f : Fail) (t : State) => exec i s = .next (settle (finish u x f t))
    (∀ f, issueChecks s u step e.cmd = .reject f → done e1 f (noteReject u e1 f s1)) ∧
    (issueChecks s u step e.cmd = .noop → done e1 okFail (collEffects (noopEnt s1 e1) s1)) ∧
    (issueChecks s u step e.cmd = .run → (u = modulePath → bridgeDown s = false) →
      let e2 := { e1 with ops := readOps s u e.cmd }
      let s2 := updEnt u e (fun _ => e2) (readDescs u e1 s1)
      let r := wholeRanges op e2.ops
      let e3 := narrow s2 u (ownWords s2 { e2 with rows := r.1, cols := r.2.1, reds := r.2.2 })
      let empty := u = modulePath ∧ e.engine ≠ .collective ∧ (e3.rows.2 = 0 ∨ e3.cols.2 = 0)
      (∀ f, ownCheck s2 e2 = some f → done e2 f (noteList e2 f s2)) ∧
      (ownCheck s2 e2 = none → (empty → done e2 okFail s2) ∧ (¬ empty →
        (∀ f, jobCheck s2 e3 = some f → done e2 f s2) ∧
        (jobCheck s2 e3 = none → (pathLevel u = 0 → noTable s2 u e2 = true → done e2 ⟨0x14, 0, 0, 0⟩ s2) ∧
          (¬ (pathLevel u = 0 ∧ noTable s2 u e2 = true) →
            (∀ f, allocOutputs (entryWrites e3) s2 = .error f → done e2 f s2) ∧
            ∀ s3, allocOutputs (entryWrites e3) s2 = .ok s3 →
              exec i s = .next (settle (dispatch u { e3 with needs := needsOf s3 e3, since := s2.time } s3)))))))

/-- O21. The array's own events: issue, fence, fence end, shadow load, operand error, shares and completion (R90, R93, R97,
R98, R92, R29, R171). -/
def Obligations.ArrayEvents : Prop :=
  ∀ (s : State) (ch : Nat), let x := s.arr ch
    let clocked := clockStopped s ch = false
    (clocked → x.fence = true → exec (.ligatureFenceDone ch) s = .next ((s.setArr ch { x with
      fence := false, width := x.next.1, run := x.next.2.1, mode := x.next.2.2, active := none, shadow := none,
      shadowLoading := false }).bump (unitPage ch) 14 1)) ∧
    (∀ e, engineHead s ch .array = some e →
      (arrayReady s ch e = true → needsNoLoad s ch e = false → ∃ t, exec (.arrayIssue ch) s = .next t ∧
        (t.arr ch).shadowLoading = true ∧ (entOf t ch e).phase = .issued ∧
        (∀ v, (t.unit v).tileCredits =
          (s.unit v).tileCredits - (if v = creditUnit ch e ∧ isPartial e = false then creditNeed e else 0)) ∧
        (recompOn e = false → t.mem = s.mem) ∧ t.regs = s.regs ∧ t.cores = s.cores ∧ t.streams = s.streams) ∧
      (arrayReady s ch e = true → needsNoLoad s ch e = true →
        exec (.arrayIssue ch) s = .next (settle (runIssued ch (issueArray ch e s)))) ∧
      (∀ n, clocked → headNeed s ch = some n → e.phase = .held → x.fence = false → cfgMatches x n = false → x.due = [] →
        exec (.ligatureFence ch) s =
          .next (s.setArr ch { x with fence := true, next := (n.1, fenceRun (cfgOf s ch e) e.op n, n.2.2) })) ∧
      (∀ a b, clocked → formeOn s ch = true → e.phase = .issued → x.shadowLoading = true → e.opd 0 = some a → e.opd 1 = some b →
        let l := firstLoad (arrCtx s ch e a b) e b
        let met := fun (t : State) => touchReads e l (t.setArr ch { t.arr ch with
          shadowLoading := false, shadow := some (firstBlock t (arrCtx t ch e a b) e b) })
        let ends := fun (i : Instr) (t : State) =>
          (firstReadFail t e l = none → tablesReady (met t) ch e = true → hydHolding s ch = false ∨ isPartial e = true →
            exec i s = .next (settle (runArray ch e (met t)))) ∧
          (firstReadFail t e l = none → hydHolding s ch = true → isPartial e = false → exec i s = .next (settle (met t))) ∧
          (firstReadFail t e l ≠ none → x.shadow = none → needsNoLoad s ch e = false →
            exec i s = .next (settle (runArray ch e (t.setArr ch { t.arr ch with shadowLoading := false }))))
        ends (.shadowLoadDone ch) s ∧
        (∀ n t o, 1 ≤ n → n ≤ 2 → e.opd (n - 1) = some o → (n, t) ∈ entryReads e →
          ends (.operandReadError ch n t) (s.setEcc (physKey s (o.tileAddr t)) 2)))) ∧
    (∀ e d p, (s.q ch).find? (fun y => y.phase == .done && y.parent.isSome && y.stream == e.stream && y.seq == e.seq) = some e →
      e.parent = some d → e.status = 0 → e.parts = [] → parentOf (dropShare ch e s) d e = some p →
      (∀ y, parentOf s d e = some y → convertWaits s d y = false) →
      let q : QEnt := { p with left := p.left - 1 }
      let q := if e.op = 0x42 then { q with prog := p.prog + e.detail, aux := [(p.aux[0]?).getD 0 + e.detail2] } else q
      let t := updEnt d p (fun _ => q) (dropShare ch e s)
      (2 ≤ p.left → exec (.shareComplete ch e.stream e.seq) s = .next t) ∧
      (p.left = 1 → exec (.shareComplete ch e.stream e.seq) s = .next (settle (shareEnd d q t)))) ∧
    (∀ e, (s.q ch).find? (fun y => y.phase == .done && y.parent == none && inOrder s ch y) = some e →
      exec (.completionRelease ch) s = .next (settle (release ch e s)))

/-- O22. Timeouts of tokens, credits and collectives, and what a collective does as it is released (R289, R290, R341, R343,
R346). -/
def Obligations.EngineTimeouts : Prop :=
  ∀ (s : State) (u : Nat) (e : QEnt), PlainTimeouts s (homeDie u e.cmd) →
    let tok := max 1024 (s.regN (streamPage (homeDie u e.cmd) + 0x90))
    let cred := max 1024 (s.regN (streamPage (homeDie u e.cmd) + 0x94))
    let late := fun (y : QEnt) => decide (y.since + max 1024 (s.regN (streamPage (homeDie u y.cmd) + 0x90)) < s.time)
    (∀ n, (s.q u).find? (fun y => y.phase == .held && !y.needs.isEmpty && late y) = some e →
      e.since + tok < s.time → e.needs.head? = some n →
      exec (.tokenTimeout u) s = .next (settle (finish u e ⟨0x05, 0, n.1, n.2⟩ s))) ∧
    (∀ a, engineHead s u .array = some e → e.phase = .held → creditsIn s u e = false → e.credAt = some a → a + cred < s.time →
      exec (.creditTimeout u) s = .next (settle (finish u e ⟨0x04, 0, creditUnit u e, 0⟩ s))) ∧
    (∀ t, (s.q u).find? (fun y => y.phase == .taking && mayTake s y t) = some e →
      exec (.redscatTakeTile u t) s = .next (settle (takeTile u e t s))) ∧
    (∀ c, (s.q u).find? (fun y => y.phase == .taking && late y) = some e →
      e.opd 2 = some c → let left := (List.range c.tiles).filter (fun t => !(taken e).contains t)
      exec (.redscatTimeout u) s = .next (settle (finish u e ⟨0x05, 0, left.length, left.headD 0⟩ s))) ∧
    ((s.q u).find? (fun y => y.op == 0x66 && canStart s u y) = some e → e.engine = .collective →
      ((sleepers s e).any (formeGated s) = false → exec (.permuteRelease u) s = .next (settle (runColl u e s))) ∧
      ((sleepers s e).any (formeGated s) = true → exec (.permuteRelease u) s = .next (wakeStores s))) ∧
    (∀ k, (s.q u).find? (fun y => y.op == 0x66 && y.phase == .held && fenceHolds s y && late y) = some e → fenceCtx s (jobOf s e.cmd) (aWord e 0) = some k →
      exec (.permuteTimeout u) s = .next (settle (finish u e ⟨0x05, 0, k, 0⟩ s)))

/-- O23. A token or credits reach a Chase (R135, R141, R145). -/
def Obligations.ArrivalsAtAChase : Prop :=
  ∀ (s : State) (ch : Nat), UnitsIdle s → isChase ch = true → formeOn s ch = true → (s.core ch).run ≠ .stalled →
    (∀ stream seq st x, let k : Tok := ⟨ch, stream, seq, st, none, ch⟩
      (s.unit ch).port = none → tokenFits ch (s.unit ch).toks k = true → nextSent s ch (Sent.isToken stream seq st) = some x →
      ∃ t, exec (.tokenArrival ch stream seq st) s = .next t ∧
        (t.unit ch).toks = enterToken (s.unit ch).toks k ∧ t.net = dropFirst (· == x) s.net ∧
        1 ∈ (t.core ch).wakes ∧ t.mem = s.mem ∧ t.regs = s.regs ∧ t.streams = s.streams ∧ t.out = s.out) ∧
    (∀ k n, 16 ≤ k → ∃ t, exec (.creditArrival ch k n) s = .next t ∧ (t.unit ch).tileCredits = (s.unit ch).tileCredits + n ∧
        t.cores = s.cores ∧ t.net = s.net ∧ t.mem = s.mem ∧ t.regs = s.regs) ∧
    (∀ k n x, k < 16 → nextSent s ch (Sent.isCredits k n) = some x → ∃ t, exec (.creditArrival ch k n) s = .next t ∧
        (t.core ch).credit k = min ((s.core ch).credit k + n) 65535 ∧ (∀ j, j ≠ k → (t.core ch).credit j = (s.core ch).credit j) ∧
        2 ∈ (t.core ch).wakes ∧
        t.net = dropFirst (· == x) s.net ∧
        (t.regN (unitPage ch + 0x7C)) = (s.regN (unitPage ch + 0x7C) + ((s.core ch).credit k + n - 65535)) % 2 ^ 32 ∧
        t.mem = s.mem ∧ t.streams = s.streams ∧ t.out = s.out)

/-- O24. A replay on the bridge, and the bridge going down (R41). -/
def Obligations.BridgeEvents : Prop :=
  ∀ (s : State), let up := s.flag (dieTopPage 0) Fld.DIE_BRG_STATUS.link_up
    (up = false → (∀ d, exec (.bridgeReplay d) s = .next s) ∧ exec .bridgeDown s = .next s) ∧
    (up = true →
      (replayRun s < 16 → exec .bridgeDown s = .next s) ∧
      (∀ d, d < 2 → replayRun s < 16 → ∃ t, exec (.bridgeReplay d) s = .next t ∧ t.flag (dieTopPage d) Fld.DIE_BRG_STATUS.replaying = true ∧
        t.regN (dieTopPage d + 0x38) = (s.regN (dieTopPage d + 0x38) + 1) % 2 ^ 32 ∧
        t.regN (dieTopPage (1 - d) + 0x3C) = (s.regN (dieTopPage (1 - d) + 0x3C) + 1) % 2 ^ 32 ∧
        SMap.get (fun _ => 0) t.brgRun d = SMap.get (fun _ => 0) s.brgRun d + 1 ∧ t.mem = s.mem ∧ t.units = s.units) ∧
      (UnitsIdle s → 16 ≤ replayRun s → ∃ t, exec .bridgeDown s = .next t ∧ t.cores = s.cores ∧ t.streams = s.streams ∧
        ∀ d, d < 2 → t.flag (dieTopPage d) Fld.DIE_BRG_STATUS.link_up = false ∧ t.flag (dieTopPage d) Fld.DIE_BRG_STATUS.down = true ∧
          t.flag (dieTopPage d) Fld.DIE_BRG_STATUS.replaying = false))

/-- O25. STREAM_ALLOC: the outcomes of an allocation (R273, R274). -/
def Obligations.StreamAllocation : Prop :=
  ∀ (s : State) (fn : Nat) (v : Word), fn < 32 → Admitted s fn →
    let job := bits v.toNat 11 0; let die := bits v.toNat 14 14; let b := s.job job; let page := streamPage 0
    let result := fun (id st : Nat) (t : State) => t.setRegN (page + 0x84 + fn * 2 ^ 28) (id + st * 2 ^ 16 + 2 ^ 24)
    let n := s.regN (page + 0x88)
    exec (.streamAlloc fn v) s = .next { s with allocs := s.allocs ++ [(fn, v)] } ∧
    (∀ l, (∀ x ∈ l, fn ≤ x.1) → serveAlloc { s with allocs := (fn, v) :: l } = allocOutcome fn v { s with allocs := l }) ∧
    (65536 ≤ n → allocOutcome fn v s = raiseEv page 1 (result 0xFFFF 0x03 (s.bump page 1 1))) ∧
    (n < 65536 → (b.valid = false ∨ b.fn ≠ fn) → allocOutcome fn v s = result 0xFFFF 0x0B s) ∧
    (n < 65536 → b.valid = true → b.fn = fn → b.limit ≤ jobStreams s job → allocOutcome fn v s = result 0xFFFF 0x0C s) ∧
    (∀ id, n < 65536 → b.valid = true → b.fn = fn → jobStreams s job < b.limit → lowestFree s die = some id →
      let t := allocOutcome fn v s;
        t.stream id = { s.stream id with state := 1, owner := fn, job := job, prio := bits v.toNat 13 12 } ∧
        (∀ j, j ≠ id → t.stream j = s.stream j) ∧ t.regN (page + 0x88) = (n + 1) % 2 ^ 32 ∧ t.mem = s.mem ∧ t.units = s.units ∧
        t.regN (page + 0x84 + fn * 2 ^ 28) = (id + 2 ^ 24) % 2 ^ 32)

/-- O26. Context writes, activate, pause, resume and close, by the owner and by others (R270, R271, R272, R275, R286, R288).
-/
def Obligations.StreamCommands : Prop :=
  ∀ (s : State) (fn id : Nat), fn < 32 → Admitted s fn → let st := s.stream id
    let stored := fun (i : Instr) (t : Stream) => exec i s = .next (s.setStream id t)
    let error := fun (i : Instr) (code : Nat) => stored i { st with err := code }
    (st.owner = fn →
      (∀ w v, ownerWord w = true →
        (st.state = 1 → stored (.streamContextWrite fn id w v) (readyWrite w v.toNat st)) ∧
        (st.state ≠ 1 → w ≠ 10 ∨ (st.state ≠ 2 ∧ st.state ≠ 3) → error (.streamContextWrite fn id w v) 0x14)) ∧
      (∀ v, st.state = 2 ∨ st.state = 3 → stored (.streamContextWrite fn id 10 v) { st with
        prio := bits v.toNat 18 17
        err := if st.seqMode = bit v.toNat 19 ∧ bits st.home 11 0 = bits v.toNat 31 20 then st.err else 0x14 }) ∧
      (∀ w v, ownerWord w = false → w ≠ 12 → exec (.streamContextWrite fn id w v) s = .next s) ∧
      (st.state = 1 → activateErr s id = 0 → exec (.streamActivate fn id) s =
        .next (freshSince id (s.setStream id { st with state := 2, cqPhase := true, err := 0 }))) ∧
      (st.state ≠ 1 → error (.streamActivate fn id) 0x14) ∧
      (st.state = 1 → activateErr s id ≠ 0 → error (.streamActivate fn id) (activateErr s id)) ∧
      (st.state = 2 → exec (.streamPause fn id) s = .next (freshSince id (s.setStream id { st with state := 3 }))) ∧
      (st.state ≠ 2 → error (.streamPause fn id) 0x14) ∧
      (st.state = 3 → exec (.streamResume fn id) s = .next (freshSince id (s.setStream id { st with state := 2 }))) ∧
      (st.state ≠ 3 → error (.streamResume fn id) 0x14) ∧
      (st.state ∉ [1, 2, 3, 5] → error (.streamClose fn id) 0x14) ∧
      (st.state ∈ [1, 2, 3, 5] → st.inFlight = 0 → st.recs = [] → st.fetched = none →
        st.sqHead = st.sqTail → ∃ t, exec (.streamClose fn id) s = .next t ∧
          t.stream id = { Stream.reset with nextSeq := st.nextSeq } ∧ (∀ j, j ≠ id → t.stream j = s.stream j) ∧
          t.regN (streamPage 0 + 0x88) = s.regN (streamPage 0 + 0x88) - 1 ∧ t.mem = s.mem ∧ t.units = s.units)) ∧
    (st.owner ≠ fn → ∀ i off, (i, off) ∈ [(Instr.streamActivate fn id, ctxOff id + 48), (.streamPause fn id, ctxOff id + 48),
        (.streamResume fn id, ctxOff id + 48), (.streamClose fn id, ctxOff id + 48)] →
      exec i s = .next (refuseStream fn off id s) ∧ (refuseStream fn off id s).streams = s.streams) ∧
    (st.owner ≠ fn → ∀ w v, exec (.streamContextWrite fn id w v) s = .next (refuseStream fn (ctxOff id + 4 * w) id s) ∧
      (refuseStream fn (ctxOff id + 4 * w) id s).streams = s.streams)

/-- O27. Doorbells of submission and completion queues (R272, R276). -/
def Obligations.Doorbells : Prop :=
  ∀ (s : State) (fn id : Nat) (v : Word), fn < 32 → Admitted s fn → (s.stream id).owner = fn →
    let st := s.stream id; let i := bits v.toNat 20 0; let page := streamPage (streamDie id)
    let live := st.state = 1 ∨ st.state = 2 ∨ st.state = 3 ∨ st.state = 6
    let ignored := fun (code : Nat) => raiseEv page 3 ((s.setStream id { st with err := code }).bump page 2 1)
    (live → isChase st.home = false → formeGated s st.home = false → idxDiff i st.sqHead ≤ 2 ^ st.sqExp →
      exec (.sqDoorbell fn id v) s = .next (freshSince id (s.setStream id { st with sqTail := i }))) ∧
    (live → isChase st.home = false → formeGated s st.home = false → idxDiff st.cqTail i ≤ 2 ^ st.cqExp → s.cask.held = [] →
      exec (.cqDoorbell fn id v) s = .next (freshSince id (s.setStream id { st with cqHead := i }))) ∧
    (live → 2 ^ st.sqExp < idxDiff i st.sqHead → exec (.sqDoorbell fn id v) s = .next (ignored 0x01)) ∧
    (st.state = 0 ∨ st.state = 4 ∨ st.state = 5 → exec (.sqDoorbell fn id v) s = .next (ignored 0x14)) ∧
    (live → 2 ^ st.cqExp < idxDiff st.cqTail i → s.cask.held = [] → exec (.cqDoorbell fn id v) s = .next (ignored 0x01)) ∧
    (st.state = 0 ∨ st.state = 4 ∨ st.state = 5 → s.cask.held = [] → exec (.cqDoorbell fn id v) s = .next (ignored 0x14))

/-- O28. Fetch of a command, its delivery, and the record of a completion (R277, R280, R284). -/
def Obligations.FetchAndRecords : Prop :=
  ∀ (s : State) (id : Nat), let st := s.stream id
    (formeOn s st.home = true → fetchChoice s st.home = some id → s.badIn (st.sqBase + 32 * (st.sqHead % 2 ^ st.sqExp)) 32 = false →
      let c := BitVec.ofNat 256 (s.num (st.sqBase + 32 * (st.sqHead % 2 ^ st.sqExp)) 32)
      ∃ t, exec (.streamFetch st.home) s = .next t ∧ (t.stream id).fetched = some (cPlace c id (if st.seqMode then cSeq c else st.nextSeq)) ∧
        (t.stream id).sqHead = (st.sqHead + 1) % 2 ^ 21 ∧ (t.stream id).inFlight = st.inFlight + 1 ∧
        (t.stream id).nextSeq = (if st.seqMode then st.nextSeq else (st.nextSeq + 1) % 2 ^ 32) ∧
        (∀ j, j ≠ id → t.stream j = s.stream j) ∧ t.mem = s.mem ∧ t.units = s.units ∧
        ((∀ r ∈ st.recs, r.slot = true ∧ r.held = false) →
          t.regs = (correctRead (st.sqBase + 32 * (st.sqHead % 2 ^ st.sqExp)) 32 s).regs ∧ (t.stream id).recs = st.recs)) ∧
    (∀ c, st.fetched = some c → cannotPass s st.home c = none → slotFree s (cPath c) = true →
      exec (.fetchDeliver id) s = .next (enqueue (cPath c) st.home c none (freshSince id (s.setStream id { st with fetched := none })))) ∧
    (∀ r, nextRec s id = some r → r.slot = true → r.irq = false → r.opcode ≠ 0xFF → st.state = 2 →
      ∃ t, exec (.completionRecordWrite id) s = .next t ∧ (t.stream id).cqTail = (st.cqTail + 1) % 2 ^ 21 ∧
        (t.stream id).cqPhase = (if (st.cqTail + 1) % 2 ^ 21 % 2 ^ st.cqExp = 0 then !st.cqPhase else st.cqPhase) ∧
        (t.stream id).inFlight = st.inFlight - 1 ∧
        ((∀ q ∈ st.recs, q.slot = true ∧ q.held = false) → (t.stream id).recs = dropFirst (· == r) st.recs) ∧
        t.num (st.cqBase + 32 * (st.cqTail % 2 ^ st.cqExp)) 32 = recordWord r s.time st.cqPhase % 2 ^ 256 ∧
        (∀ b, b < st.cqBase + 32 * (st.cqTail % 2 ^ st.cqExp) ∨ st.cqBase + 32 * (st.cqTail % 2 ^ st.cqExp) + 32 ≤ b → t.byte b = s.byte b) ∧
        (∀ j, j ≠ id → t.stream j = s.stream j) ∧ t.units = s.units ∧ t.cores = s.cores ∧ t.out = s.out)

/-- O29. The load commands of the tables show an entry and change nothing else (R292, R311, R328, R348, R363, R259, R260,
R212, R217, R237, R452). -/
def Obligations.TableLoads : Prop :=
  ∀ (s : State) (fn : Nat), Admitted s fn →
    (ownsPage s fn (streamPage 0) = true → let b := s.job (s.fld (streamPage 0) Fld.STM_JOB_IDX.job)
      ∃ t, exec (.jobLoad fn) s = .next t ∧ OnlyRegs s t [streamPage 0 + 0xA0, streamPage 0 + 0xA4] ∧
        t.regN (streamPage 0 + 0xA0) = (b.fn + (if b.valid then 32 else 0) + b.limit * 64) % 2 ^ 32 ∧
        t.regN (streamPage 0 + 0xA4) = jobStreams s (s.fld (streamPage 0) Fld.STM_JOB_IDX.job) % 2 ^ 32) ∧
    (ownsPage s fn routePage = true → ∃ t, exec (.rtLoad fn) s = .next t ∧ OnlyRegs s t [routePage + 0x88] ∧
      t.regN (routePage + 0x88) = s.route (s.fld routePage Fld.IZN_RT_IDX.index)) ∧
    (ownsPage s fn tunPage = true → let x := s.ctx (s.fld tunPage Fld.TUN_CTX_IDX.ctx)
      ∃ t, exec (.ctxLoad fn) s = .next t ∧ OnlyRegs s t [tunPage + 0x104, tunPage + 0x108, tunPage + 0x10C, tunPage + 0x110] ∧
        t.regN (tunPage + 0x104) = (x.base + toU 9 x.lsbExp * 2 ^ 23) % 2 ^ 32 ∧
        t.regN (tunPage + 0x108) = x.ntiles % 2 ^ 32 ∧ t.regN (tunPage + 0x110) = x.gen % 2 ^ 32 ∧
        t.regN (tunPage + 0x10C) = (x.job + x.nExpect * 2 ^ 12 + (if x.armed then 2 ^ 19 else 0)) % 2 ^ 32) ∧
    (ownsPage s fn tunPage = true → ∃ t, exec (.psetLoad fn) s = .next t ∧
      OnlyRegs s t ((List.range 8).map (fun i => tunPage + 0x120 + 4 * i)) ∧
      ∀ i, i < 8 → t.reg (tunPage + 0x120 + 4 * i) = psetWord s (s.fld tunPage Fld.TUN_PSET_IDX.set * 8 + i)) ∧
    (ownsPage s fn mapPage = true → let e := mapEnt s (s.fld mapPage Fld.MAP_ENT_IDX.entry)
      ∃ t, exec (.mapEntLoad fn) s = .next t ∧ OnlyRegs s t [mapPage + 0x84, mapPage + 0x88, mapPage + 0x8C, mapPage + 0x90] ∧
        t.regN (mapPage + 0x84) = (e.job + e.pset * 2 ^ 12 + (if e.gangEn then 2 ^ 18 else 0) + e.gangSplit * 2 ^ 19 +
          (if e.regather then 2 ^ 20 else 0) + (if e.valid then 2 ^ 21 else 0) + e.self * 2 ^ 22 + e.gsize * 2 ^ 25) % 2 ^ 32 ∧
        t.regN (mapPage + 0x88) = e.depth % 2 ^ 32 ∧ t.regN (mapPage + 0x8C) = e.actUnits % 2 ^ 32 ∧
        t.regN (mapPage + 0x90) = e.reserve % 2 ^ 32) ∧
    (ownsPage s fn (tierPage 0) = true → let b := tierPage 0; let j := s.fld b Fld.DIE_QUOTA_IDX.job; let l := leaseOf s (s.fld b Fld.DIE_LEASE_IDX.lease)
      (∃ t, exec (.quotaLoad fn) s = .next t ∧ OnlyRegs s t [b + 0xA8, b + 0xAC, b + 0xB0, b + 0xB4, b + 0xB8, b + 0xBC] ∧
        t.regN (b + 0xA8) = (s.limit j).hbm % 2 ^ 32 ∧ t.regN (b + 0xAC) = (s.limit j).bulk % 2 ^ 32 ∧
        t.regN (b + 0xB0) = (s.limit j).remote % 2 ^ 32 ∧ t.regN (b + 0xB4) = units64k (s.use j).hbm % 2 ^ 32 ∧
        t.regN (b + 0xB8) = units64k (s.use j).bulk % 2 ^ 32 ∧ t.regN (b + 0xBC) = units64k (s.use j).remote % 2 ^ 32) ∧
      (∃ t, exec (.leaseLoad fn) s = .next t ∧ OnlyRegs s t [b + 0xC8, b + 0xCC, b + 0xD0, b + 0xD4] ∧
        t.regN (b + 0xC8) = (l.dest + l.state * 2 ^ 12 + (if l.refused then 2 ^ 14 else 0)) % 2 ^ 32 ∧
        t.regN (b + 0xCC) = l.size % 2 ^ 32 ∧ t.regN (b + 0xD0) = l.expiry % 2 ^ 32 ∧
        t.regN (b + 0xD4) = units64k (leaseUsed s (s.fld b Fld.DIE_LEASE_IDX.lease)) % 2 ^ 32)) ∧
    (ownsPage s fn govPage = true → let i := s.fld govPage Fld.PTG_ENT_IDX.index
      (∃ t, exec (.ptgEntLoad fn) s = .next t ∧ OnlyRegs s t ((List.range 8).map (fun k => govPage + 0xA4 + 4 * k)) ∧
        ∀ k, k < 8 → t.regN (govPage + 0xA4 + 4 * k) =
          (if s.flag govPage Fld.PTG_ENT_IDX.sel then s.policy (i % 64) else s.entry i) / 2 ^ (32 * k) % 2 ^ 32) ∧
      (∃ t, exec (.seedLoad fn) s = .next t ∧ OnlyRegs s t [govPage + 0x124, govPage + 0x128] ∧ t.reg64 (govPage + 0x124) =
        (SMap.get (fun _ => (0 : BitVec 64)) s.gov.seeds (s.fld govPage Fld.PTG_SEED_IDX.job)).toNat)) ∧
    (ownsPage s fn tasterPage = true → s.flag govPage Fld.PTG_STATUS.busy = false →
      ∃ t, exec (.tstEntLoad fn) s = .next t ∧ OnlyRegs s t ((List.range 8).map (fun k => tasterPage + 0xA0 + 4 * k)) ∧
        ∀ k, k < 8 → t.regN (tasterPage + 0xA0 + 4 * k) =
          tastWord (s.taster (s.fld tasterPage Fld.TST_ENT_IDX.layer)) / 2 ^ (32 * k) % 2 ^ 32) ∧
    (ownsPage s fn (powerPage 0) = true → let j := s.fld (powerPage 0) Fld.PWR_SHARE_IDX.job
      ∃ t, exec (.shareLoad fn) s = .next t ∧ OnlyRegs s t [powerPage 0 + 0xD4] ∧ t.regN (powerPage 0 + 0xD4) =
        (shareOfJob s j + min 255 (useOfJob s j) * 2 ^ 8 + (if s.power.deferred.contains j then 2 ^ 16 else 0)) % 2 ^ 32)

/-- O30. The commit commands of the tables write the entry that the index selects (R292, R311, R328, R329, R348, R351, R192,
R217, R237, R452). -/
def Obligations.TableCommits : Prop :=
  ∀ (s : State) (fn : Nat), Admitted s fn →
    (fn = 0 → exec (.jobCommit fn) s = .next (s.setJob (s.fld (streamPage 0) Fld.STM_JOB_IDX.job)
        ⟨s.fld (streamPage 0) Fld.STM_JOB_DATA.function, s.flag (streamPage 0) Fld.STM_JOB_DATA.valid,
          s.fld (streamPage 0) Fld.STM_JOB_DATA.limit⟩)) ∧
    (fn = 0 → let j := s.fld (powerPage 0) Fld.PWR_SHARE_IDX.job; let v := s.fld (powerPage 0) Fld.PWR_SHARE_DATA.share
      let put := fun (m : SMap Nat) => SMap.set (fun _ => 0) m j v; let defer := 0 < v ∧ v < SMap.get (fun _ => 0) s.power.present j
      let inForce := if defer then s.power.inForce else put s.power.inForce
      exec (.shareCommit fn) s = .next { s with power := { s.power with shares := put s.power.shares, inForce := inForce } }) ∧
    (ownsPage s fn routePage = true → let k := s.fld routePage Fld.IZN_RT_IDX.index
      ∃ t, exec (.rtCommit fn) s = .next t ∧ t.route k = s.regN (routePage + 0x88) % 2048 ∧ (∀ j, j ≠ k → t.route j = s.route j) ∧
        t.regs = s.regs ∧ t.ports = s.ports) ∧
    (ownsPage s fn tunPage = true → let k := s.fld tunPage Fld.TUN_PSET_IDX.set; let c := s.fld tunPage Fld.TUN_CTX_IDX.ctx
      ((∀ x ∈ outstandingCmds s, namesSet x.2.cmd ≠ some k) → ∃ t, exec (.psetCommit fn) s = .next t ∧
        (∀ i, i < 8 → psetWord t (k * 8 + i) = s.reg (tunPage + 0x120 + 4 * i)) ∧
        (∀ n, n / 8 ≠ k → psetWord t n = psetWord s n) ∧ t.regs = s.regs ∧ t.mem = s.mem) ∧
      (armCheck s c (ctxData s) = 0 → ∃ t, exec (.ctxArm fn) s = .next t ∧ t.ctx c = ctxData s ∧ (∀ j, j ≠ c → t.ctx j = s.ctx j) ∧
        t.fld tunPage Fld.TUN_CTX_STATUS.result = 0 ∧ t.flag tunPage Fld.TUN_CTX_DATA2.armed = true ∧ t.units = s.units) ∧
      (ctxBusy s c = false → ∃ t, exec (.ctxDisarm fn) s = .next t ∧ t.ctx c = { s.ctx c with armed := false } ∧
        (∀ j, j ≠ c → t.ctx j = s.ctx j) ∧ t.fld tunPage Fld.TUN_CTX_STATUS.result = 0 ∧ t.mem = s.mem)) ∧
    (ownsPage s fn mapPage = true → let i := s.fld mapPage Fld.MAP_ENT_IDX.entry
      (mapRefused s i (mapData s) = 0 → ∃ t, exec (.mapEntCommit fn) s = .next t ∧ mapEnt t i = mapData s ∧
        (∀ j, j ≠ i → mapEnt t j = mapEnt s j) ∧ OnlyRegs { s with maps := t.maps } t [mapPage + 0xB8]) ∧
      (mapRefused s i (mapData s) ≠ 0 → exec (.mapEntCommit fn) s = .next (logStatus mapPage (mapRefused s i (mapData s)) s))) ∧
    (ownsPage s fn govPage = true → let i := s.fld govPage Fld.PTG_ENT_IDX.index; let w := readWords s (govPage + 0xA4)
      let sel := s.flag govPage Fld.PTG_ENT_IDX.sel
      (s.flag govPage Fld.PTG_STATUS.busy = false →
        (sel = false → exec (.ptgEntCommit fn) s = .next (s.setEntry i (putBits w 15 15 0))) ∧
        (sel = true → policyBad w = false → ∃ t, exec (.ptgEntCommit fn) s = .next t ∧ t.policy (i % 64) = cleanPolicy w % 2 ^ 256 ∧
          (∀ p, p ≠ i % 64 → t.policy p = s.policy p) ∧ t.regs = s.regs ∧ t.gov.entries = s.gov.entries) ∧
        (let j := s.fld govPage Fld.PTG_SEED_IDX.job; let v := BitVec.ofNat 64 (s.reg64 (govPage + 0x124))
         exec (.seedCommit fn) s = .next { s with gov := { s.gov with seeds := SMap.set (fun _ => (0 : BitVec 64)) s.gov.seeds j v } })) ∧
      (s.flag govPage Fld.PTG_STATUS.busy = true → ∀ c ∈ [Instr.ptgEntCommit fn, .seedCommit fn],
        exec c s = .next (logStatus govPage 0x14 s))) ∧
    (ownsPage s fn tasterPage = true → s.flag govPage Fld.PTG_STATUS.busy = false → exec (.tstEntCommit fn) s =
      .next (s.setTaster (s.fld tasterPage Fld.TST_ENT_IDX.layer) (tastOf (readWords s (tasterPage + 0xA0)))))

/-- O31. A step boundary: begin, quiesce, combine, gang, release (R202, R203, R204, R206, R207, R188). -/
def Obligations.StepBoundary : Prop :=
  ∀ (s : State), let busy := Fld.PTG_STATUS.busy; let phase := Fld.PTG_STATUS.phase
    (∀ fn v, Granted s fn govPage → let s0 := s.setRegN (govPage + 0x80) (bits v.toNat 0 0 + 4 * bits v.toNat 2 2)
      let s1 := if bit v.toNat 0 then s0 else s0.each [0, 1] (fun d s => drainDie d (followRing d s))
      (bit v.toNat 1 = false → exec (.stepEnd fn v) s = .next s1) ∧
      (bit v.toNat 1 = true → bit v.toNat 0 = false → exec (.stepEnd fn v) s = .next (logStatus govPage 0x14 s1)) ∧
      (bit v.toNat 1 = true → bit v.toNat 0 = true → s.flag govPage busy = false → ∃ t, exec (.stepEnd fn v) s = .next t ∧
        t.flag govPage busy = true ∧ t.fld govPage phase = 2 ∧ t.gov.started = s.time ∧ t.gov.changed = [] ∧
        t.flag govPage Fld.PTG_STATUS.gang_timeout = false ∧ t.units = s.units ∧ t.mem = s.mem ∧ t.streams = s.streams)) ∧
    (s.fld govPage phase = 2 → outstandingCmds s = [] →
      exec .boundaryQuiesced s = .next ((s.each (s.hyds.map (·.1)) drainSlice).setFld govPage phase 3)) ∧
    (s.fld govPage phase = 2 → outstandingCmds s ≠ [] → exec .boundaryQuiesced s = .next s) ∧
    (s.fld govPage phase = 3 → ∃ t, exec .boundaryCombine s = .next t ∧
      (s.flag govPage Fld.PTG_CTRL.gang_en = true → tasterOn s = false → s.hyds = [] → unreadStats s 0 = 0 → unreadStats s 1 = 0 →
        t.fld govPage phase = 5 ∧ t.gov.gangAt = s.time) ∧
      (s.flag govPage Fld.PTG_CTRL.gang_en = false → tasterOn s = false → s.hyds = [] → unreadStats s 0 = 0 → unreadStats s 1 = 0 →
        t.fld govPage phase = 9 ∨ t.fld govPage phase = 6)) ∧
    (s.fld govPage phase = 5 → allPeers s = true → exec .gangSummaryRx s = .next (fromPhase6 s)) ∧
    (s.fld govPage phase = 5 → allPeers s = false → s.gov.gangAt + s.fld govPage Fld.PTG_GANG_TO.ticks ≤ s.time →
      exec .gangTimeout s = .next (fromPhase6 (raiseEv govPage 3
        (({ s with gov := { s.gov with timedOut := true } } : State).setFlag govPage Fld.PTG_STATUS.gang_timeout true)))) ∧
    (s.fld govPage phase = 9 → caskDue s (s.regN (govPage + 0x88)) = false → s.flag tasterPage Fld.TST_STATUS.aborted = false →
      s.gov.changed = [] → ∃ t, exec .boundaryRelease s = .next t ∧
        t.regN (govPage + 0x88) = (s.regN (govPage + 0x88) + 1) % 2 ^ 32 ∧ t.flag govPage busy = false ∧ t.fld govPage phase = 0 ∧
        t.gov.meas = [] ∧ t.gov.peers = [] ∧ bit (t.regN (govPage + 0x20)) 0 = true ∧ t.mem = s.mem ∧ t.units = s.units ∧
        t.streams = s.streams) ∧
    (∀ d, d < 2 → s.flag govPage Fld.PTG_CTRL.enable = true → unreadStats s d ≠ 0 → s.hyds = [] →
      ∃ t, exec (.statQueueRelease d) s = .next t ∧
        t.regN (hydroPage d + 0x90) = ringNext (ringSize s d) (s.regN (hydroPage d + 0x90)) % 2 ^ 32 ∧ t.mem = s.mem ∧ t.units = s.units)

/-- O32. The loss scale and the statistics rings (R229, R210). -/
def Obligations.GovernorRegisters : Prop :=
  ∀ (s : State) (fn : Nat) (v : Word),
    (Granted s fn govPage → let k := sx 8 v.toNat
      (s.flag govPage Fld.PTG_STATUS.busy = true → exec (.lscaleWrite fn v) s = .next (logStatus govPage 0x14 s)) ∧
      (s.flag govPage Fld.PTG_STATUS.busy = false → k < -24 ∨ 24 < k → exec (.lscaleWrite fn v) s = .next (logStatus govPage 0x02 s)) ∧
      (s.flag govPage Fld.PTG_STATUS.busy = false → -24 ≤ k → k ≤ 24 → exec (.lscaleWrite fn v) s =
        .next ((s.setFld govPage Fld.PTG_LSCALE.ls_exp (v.toNat % 256)).setFld govPage Fld.PTG_LS_GROW.clean 0))) ∧
    (∀ d, d < 2 → Granted s fn (hydroPage d) → s.flag (hydroPage d) Fld.HYD_RING_CFG.enable = false → bit v.toNat 5 = true →
      11 ≤ bits v.toNat 4 0 → bits v.toNat 4 0 ≤ 24 → exec (.hydRingCfgWrite fn d v) s =
        .next (((s.setRegN (hydroPage d + 0x88) (bits v.toNat 4 0 + 32)).setRegN (hydroPage d + 0x8C) (2 ^ 24)).setRegN
          (hydroPage d + 0x90) (2 ^ 24)))

/-- O33. Mapping and unmapping regions, Tile moves, eviction and scrubbing (R244, R245, R253, R255, R256, R264). -/
def Obligations.RegionsAndMoves : Prop :=
  ∀ (s : State) (fn r : Nat), Granted s fn (tierPage 0) →
    let result := fun (code : Nat) (t : State) => t.setRegN (tierPage 0 + 0x9C) (code * 2)
    (mapCheck s r ≠ 0 → exec (.regionMap fn r) s = .next (result (mapCheck s r) s)) ∧
    (mapCheck s r = 0 → (recRegion s r).folios ≠ 0 → ∃ t, exec (.regionMap fn r) s = .next t ∧ t.region r = some (recRegion s r) ∧
      t.regN (tierPage 0 + 0x9C) = 0 ∧ bit (t.regN (tierPage 0 + 0x20)) 0 = true ∧ t.units = s.units ∧ t.cores = s.cores) ∧
    (regionLimit s ≤ r → exec (.regionUnmap fn r) s = .next (result 0x02 s)) ∧
    (∀ g, r < regionLimit s → s.region r = some g → s.cask.pend = [] →
      (∀ j, j < g.tiles → tsTransit (tileState s ⟨r, g, j⟩) = false ∧ tsPins (tileState s ⟨r, g, j⟩) = 0 ∧
        tsClaims (tileState s ⟨r, g, j⟩) = 0) →
      ∃ t, exec (.regionUnmap fn r) s = .next t ∧ t.region r = none ∧ t.regN (tierPage 0 + 0x9C) = 0 ∧ t.units = s.units) ∧
    (∀ j tier, tileRef s r j = none → exec (.tileMove r j tier) s = .next s) ∧
    (∀ j tier k, tileRef s r j = some k → k.reg.ceiling ≤ tier → tier ≤ k.reg.floor → let e := tileState s k
      tsTier e ≤ 4 → tsLost e = false → tsTransit e = false → moveRoom s k = true →
      ∀ promo s', startMove k tier promo none s = some s' →
        (∃ loc n, s'.tiers.moves = s.tiers.moves ++ [⟨r, j, tier, loc, promo, s.time, n, [], none⟩]) ∧
        (promo = true → tier < tsTier e → exec (.tileMove r j tier) s = .next (settle s')) ∧
        (promo = false → tsTier e < tier → pinned s k = false → busyTile s k = false →
          exec (.tileMove r j tier) s = .next (settle s'))) ∧
    (∀ j m, moveEdge s r j = none → s.tiers.moves.find? (fun x => x.region == r && x.tile == j) = some m → m.left = 0 →
      exec (.tileMoveCommit r j) s = .next (rerun (settle (tryArrays modulePath (endMove m s))))) ∧
    (∀ kind idx, let l := wmPlaces kind idx; let w := wmLevels s kind (wmDie kind idx)
      (wmUse s l * 64 ≤ w.1 * wmSize s l → exec (.watermarkEvict kind idx) s = .next s) ∧
      (w.1 * wmSize s l < wmUse s l * 64 → exec (.watermarkEvict kind idx) s =
        .next (evictMany (wmTiles s l) (wmUse s l - w.2 * wmSize s l / 64 - leaving (fun t => l.contains (placeOf s t)) s) s))) ∧
    (∀ c found, c ≤ 17 → scrubExp s c ≠ 0 → let b := SMap.get (fun _ => 0) s.tiers.scrub c
      let s' : State := { s with tiers := { s.tiers with scrub := SMap.set (fun _ => 0) s.tiers.scrub c ((b + 1) % scrubBlocks c) } }
      (atPlace s' c (64 * b) = none → exec (.scrubTick c found) s = .next (if found = 1 then countEcc c 2 (countEcc c 0 s')
        else if found = 2 then raiseEv (tierPage (placeDie c)) 4 (recordEcc c (64 * b) true (countEcc c 1 s')) else s')) ∧
      (∀ key k, atPlace s' c (64 * b) = some (key, k) → found ≠ 1 → found ≠ 2 → (∀ i, i < 8 → s.eccAt (key + 8 * i) = 0) →
        exec (.scrubTick c found) s = .next s'))

/-- O34. Quotas, and leases on the borrower's side (R259, R260, R261). -/
def Obligations.QuotasAndLeases : Prop :=
  ∀ (s : State) (fn : Nat), let b := tierPage 0; let l := s.fld b Fld.DIE_LEASE_IDX.lease; let x := leaseOf s l
    let j := s.fld b Fld.DIE_QUOTA_IDX.job; let conflict := logStatus b 0x14 s
    (Granted s fn b →
      ((s.use j).hbm ≤ s.regN (b + 0xA8) * 65536 → (s.use j).bulk ≤ s.regN (b + 0xAC) * 65536 → (s.use j).remote ≤ s.regN (b + 0xB0) * 65536 →
        ∃ t, exec (.quotaCommit fn) s = .next t ∧ t.limit j = ⟨s.regN (b + 0xA8), s.regN (b + 0xAC), s.regN (b + 0xB0)⟩ ∧
          (∀ i, i ≠ j → t.limit i = s.limit i) ∧ t.regs = s.regs ∧ t.mem = s.mem) ∧
      (x.state = 0 → exec (.leaseRequest fn) s = .next (sendLease (s.fld b Fld.DIE_LEASE_DATA0.dest) 0 l (s.regN (b + 0xCC))
        (s.regN (b + 0xD0)) (s.setLease l ⟨s.fld b Fld.DIE_LEASE_DATA0.dest, 1, false, s.regN (b + 0xCC), s.regN (b + 0xD0), 0⟩))) ∧
      (x.state ≠ 0 → exec (.leaseRequest fn) s = .next conflict) ∧
      (2 ≤ x.state → exec (.leaseRenew fn) s =
        .next (sendLease x.dest 3 l x.size (s.regN (b + 0xD0)) (s.setLease l { x with expiry := s.regN (b + 0xD0) }))) ∧
      (x.state < 2 → exec (.leaseRenew fn) s = .next conflict ∧ exec (.leaseRelease fn) s = .next conflict) ∧
      (2 ≤ x.state → leaseUsed s l = 0 → exec (.leaseRelease fn) s =
        .next (sendLease x.dest 5 l x.size x.expiry (s.setLease l ⟨0, 0, false, 0, 0, 0⟩))) ∧
      (x.state < 2 ∨ leaseUsed s l ≠ 0 → exec (.leaseRelease fn) s = .next conflict)) ∧
    (∀ d (v : Word), d < 2 → Granted s fn (tierPage d) → let s1 := s.setRegN (tierPage d + 0xDC) (v.toNat % 2 ^ 27)
      (s.flag (tierPage d) Fld.DIE_LEND_CFG.lend_en = false ∨ bit v.toNat 0 = true → exec (.lendCfgWrite fn d v) s = .next s1) ∧
      (s.flag (tierPage d) Fld.DIE_LEND_CFG.lend_en = true → bit v.toNat 0 = false →
        exec (.lendCfgWrite fn d v) s = .next (s1.each (s1.tiers.grants.filter (fun g => g.die == d)) recallGrant))) ∧
    (∀ k, let y := leaseOf s k
      (s.time + 2 ^ 30 < y.expiry * 2 ^ 24 → exec (.leaseEvacuate k) s = .next s) ∧
      (2 ≤ y.state → y.expiry * 2 ^ 24 ≤ s.time + 2 ^ 30 → exec (.leaseEvacuate k) s =
        .next (s.each (leaseTiles s k) (fun t s => if t.reg.ceiling ≤ 3 then (startMove t 3 true none s).getD s else s))) ∧
      (2 ≤ y.state → y.expiry * 2 ^ 24 ≤ s.time → leaseTiles s k = [] → UnitsIdle s → s.tiers.reqs = [] → ∃ t, exec (.leaseExpiry k) s = .next t ∧
        leaseOf t k = ⟨0, 0, false, 0, 0, 0⟩ ∧ bit (t.regN (b + 0x20)) 3 = true ∧
        t.tiers.grants = s.tiers.grants.filter (fun g => !(decide (g.expiry * 2 ^ 24 ≤ s.time))) ∧ t.mem = s.mem ∧ t.units = s.units))

/-- O35. What a packet of a command does when it arrives and passes its checks (R39, R263, R303, R309, R320, R325, R334,
R360, R391, R394). -/
def Obligations.PacketsServed : Prop :=
  ∀ (s : State) (p : Nat) (pkt : Packet), s.tiers.regions = [] → s.stopped = false → s.cask.pend = [] →
    let n := 16 * pkt.len16; let d := delivered s p pkt
    (WellArrived s p pkt ptWrite → pkt.sub % 4 = 0 → unmappedIn s pkt.addr n = none → partialBad s pkt.addr n = false →
      ∃ s1, exec (.writeRx p pkt) s = .next (sendPacket (ackOf s1 pkt) s1) ∧ s1.bytes pkt.addr n = pkt.data ∧
        (∀ b, b < pkt.addr ∨ pkt.addr + n ≤ b → s1.byte b = s.byte b) ∧ s1.regs = d.regs ∧ s1.units = s.units ∧ s1.ctxs = s.ctxs) ∧
    (WellArrived s p pkt ptReadReq → bit pkt.sub 0 = false → unmappedIn s pkt.addr n = none → s.badIn pkt.addr n = false →
      exec (.readReqRx p pkt) s =
        .next (readDone pkt.addr n (sendPacket (respOf d pkt (s.bytes pkt.addr n) pkt.layoutGen 0) d))) ∧
    (∀ o a, WellArrived s p pkt ptReadResp → answered s pkt [ptReadReq, ptBgReadReq] = some o → o.unit ≠ leaseUnit → o.unit ≠ restoreUnit →
      (s.stream o.stream).job = pkt.job → gatherOf s o n = some a → pkt.sub % 4 = 0 → partialBad s a n = false →
      ∃ s1, exec (.readRespRx p pkt) s = .next (settleAnswer o [] s1) ∧ s1.bytes a n = pkt.data ∧
        (∀ b, b < a ∨ a + n ≤ b → s1.byte b = s.byte b) ∧ s1.regs = d.regs ∧ s1.units = s.units ∧ s1.outst = s.outst) ∧
    (∀ o, WellArrived s p pkt ptReadResp → answered s pkt [ptReadReq, ptBgReadReq] = some o → o.unit = leaseUnit ∨ o.unit = restoreUnit →
      exec (.readRespRx p pkt) s = .next (settleAnswer o pkt.data d)) ∧
    (WellArrived s p pkt ptReadResp → answered s pkt [ptReadReq, ptBgReadReq] = none → exec (.readRespRx p pkt) s = .next d) ∧
    (WellArrived s p pkt ptAccum → (s.ctx (accCtx pkt)).armed = true → (s.ctx (accCtx pkt)).job = pkt.job → accOutcome s pkt = .apply →
      exec (.accumRx p pkt) s = .next (sendPacket (ackOf d pkt) (noteReady (accApply pkt d)))) ∧
    (∀ o, WellArrived s p pkt ptAck → answered s pkt [ptWrite, ptAccum, ptBgWrite] = some o →
      exec (.ackRx p pkt) s = .next (settleAnswer o [] d)) ∧
    (WellArrived s p pkt ptError → let status := bits pkt.addr 7 0; let ty := bits pkt.addr 11 8
      let types := [ptWrite, ptReadReq, ptAccum, ptBgWrite, ptBgReadReq]
      (status = 0 ∨ 0x15 < status ∨ ty ∉ types → ty ≠ ptLease ∨ status ≠ 0x12 →
        exec (.errorRx p pkt) s = .next (raiseEv routePage 2 (d.bump routePage 4 1))) ∧
      (∀ o, 1 ≤ status → status ≤ 0x15 → ty ∈ types →
        s.outst.find? (fun o => o.stream == pkt.stream && o.seq == pkt.seq && o.type == ty) = some o →
        exec (.errorRx p pkt) s = .next (errorMeets o status (bits pkt.addr 23 12) d))) ∧
    (WellArrived s p pkt ptToken → (s.stream pkt.stream).job = pkt.job → validPath pkt.target = true →
      exec (.tokenRx p pkt) s = .next (tokenArrival pkt.target pkt.stream pkt.seq (bit pkt.sub 0)
        { d with net := d.net ++ [.token ⟨pkt.target, pkt.stream, pkt.seq, bit pkt.sub 0, none, 0x10000 + pkt.src⟩] })) ∧
    (WellArrived s p pkt ptCredit → validPath pkt.target = true → let i := bits pkt.addr 3 0; let k := bits pkt.addr 19 4
      exec (.creditRx p pkt) s = .next (creditArrival pkt.target i k
        { d with net := d.net ++ [.credits (0x10000 + pkt.src) pkt.target i k] })) ∧
    (WellArrived s p pkt ptGov →
      (leNat (pkt.data.take 4) ≠ ptgStep s → exec (.govRx p pkt) s =
        .next (d.setRegN (govPage + 0xCC) ((d.regN (govPage + 0xCC) + 1) % 2 ^ 32))) ∧
      (leNat (pkt.data.take 4) = ptgStep s → ∃ t recs ovf last, exec (.govRx p pkt) s = .next t ∧
        t.gov.peers = addPeer pkt.src ovf last recs s.gov.peers ∧ t.regs = d.regs ∧ t.mem = s.mem)) ∧
    (∀ g, WellArrived s p pkt ptBgWrite → pkt.lease = 1 → grantOf s pkt = some g →
      exec (.bgWriteRx p pkt) s = .next (sendPacket (ackOf d pkt)
        (cleanEcc (g.key + pkt.addr) pkt.data.length (d.setBytes (g.key + pkt.addr) pkt.data)))) ∧
    (∀ g, WellArrived s p pkt ptBgReadReq → pkt.lease = 1 → grantOf s pkt = some g → let bad := markedWords s (g.key + pkt.addr) n 2
      (bad = [] → exec (.bgReadReqRx p pkt) s =
        .next (sendPacket (respOf d pkt (d.bytes (g.key + pkt.addr) n) pkt.layoutGen 0) (lentCorrect g pkt.addr n d))) ∧
      (∀ w ws, bad = w :: ws → exec (.bgReadReqRx p pkt) s = .next (refusePkt p pkt 0x09 (lentBad g w s))))

/-- O36. A packet that fails the first receive checks, or is for another module (R306, R308, R310, R311). -/
def Obligations.PacketChecks : Prop :=
  ∀ (s : State) (p ty : Nat) (pkt : Packet) (i : Instr), (ty, i) ∈ packetRows p pkt → pkt.type = ty →
    (arrived s p pkt = false → exec i s = .next s) ∧
    (arrived s p pkt = true → malformed pkt = true → exec i s = .next (refuseForm pkt (takeIn p pkt s))) ∧
    (arrived s p pkt = true → malformed pkt = false → pkt.data.length = 16 * data16 pkt.type pkt.len16 → pkt.dest ≠ selfId s →
      (pkt.hops = 0 → exec i s = .next (refusePkt p pkt 0x12 s)) ∧
      (∀ q, 0 < pkt.hops → routePort s pkt.dest pkt.stream = some q → portUp s q = true →
        exec i s = .next (queueAt q { pkt with hops := pkt.hops - 1 } ((takeIn p pkt s).bump routePage 1 1))) ∧
      (∀ q, 0 < pkt.hops → routePort s pkt.dest pkt.stream = some q → portUp s q = false →
        exec i s = .next (refusePkt p pkt 0x11 s)))

/-- O37. Packets of leases, of Stop-press and of Casks (R260, R261, R383, R390, R391, R378). -/
def Obligations.LeaseAndStopPackets : Prop :=
  ∀ (s : State) (p : Nat) (pkt : Packet), let d := delivered s p pkt
    (WellArrived s p pkt ptLease → let x := leaseOf s pkt.stream
      let mine := pkt.stream < 64 ∧ x.state ≠ 0 ∧ x.dest = pkt.src; let size := leaseSize pkt; let exp := leaseExpiryOf pkt
      (∀ b, pkt.sub = 0 → grantPlace s size = some b →
        exec (.leaseRequestRx p pkt) s = .next (sendLease pkt.src 1 pkt.stream size exp
          { d with tiers := { d.tiers with grants := d.tiers.grants ++ [⟨pkt.src, pkt.stream, size, exp, b⟩] } })) ∧
      (pkt.sub = 0 → (∀ k, k < 2 → s.flag (tierPage k) Fld.DIE_LEND_CFG.lend_en = false ∨ unlent s k < size) →
        exec (.leaseRequestRx p pkt) s = .next (sendLease pkt.src 2 pkt.stream size exp d)) ∧
      (pkt.sub = 1 → mine → x.state = 1 → exec (.leaseGrantRx p pkt) s =
        .next (d.setLease pkt.stream { x with state := 2, size := size, expiry := exp })) ∧
      (pkt.sub = 2 → mine → x.state = 1 → exec (.leaseRefuseRx p pkt) s =
        .next (d.setLease pkt.stream { x with state := 0, refused := true })) ∧
      (∀ g, pkt.sub = 3 → s.tiers.grants.find? (fun g => g.src == pkt.src && g.entry == pkt.stream) = some g →
        exec (.leaseRenewRx p pkt) s = .next (if s.flag (tierPage g.die) Fld.DIE_LEND_CFG.lend_en then
          { d with tiers := { d.tiers with grants := d.tiers.grants.map (fun y => if y == g then { y with expiry := exp } else y) } }
          else recallGrant g d)) ∧
      (pkt.sub = 4 → mine → 2 ≤ x.state → exec (.leaseRecallRx p pkt) s =
        .next (raiseEv (tierPage 0) 2 (d.setLease pkt.stream { x with state := 3, expiry := min x.expiry exp }))) ∧
      (∀ g, pkt.sub = 5 → grantNamed s pkt = some g → exec (.leaseReleaseRx p pkt) s = .next { d with tiers := { d.tiers with
        grants := d.tiers.grants.filter (fun g => !(g.src == pkt.src && g.entry == pkt.stream)) } }) ∧
      (grantNamed s pkt = none → (pkt.sub = 3 → exec (.leaseRenewRx p pkt) s = .next (refusePkt p pkt 0x12 s)) ∧
        (pkt.sub = 5 → exec (.leaseReleaseRx p pkt) s = .next (refusePkt p pkt 0x12 s))) ∧
      (5 < pkt.sub → exec (.leaseReleaseRx p pkt) s = .next d)) ∧
    (WellArrived s p pkt ptStop → let at8 := leNat (pkt.data.take 8)
      (pkt.sub = 0 → s.cask.armed = none → s.time + 64 < at8 → exec (.stopArmRx p pkt) s = .next (armStop at8 d)) ∧
      (pkt.sub = 0 → s.cask.armed = none → at8 ≤ s.time + 64 → exec (.stopArmRx p pkt) s = .next (sendStop pkt.src 1 [] d)) ∧
      (pkt.sub = 1 → exec (.stopRefuseRx p pkt) s = .next (raiseEv cellarPage 5 (d.setFlag cellarPage Fld.CSK_STATUS.stop_late true))) ∧
      (pkt.sub = 2 → exec (.pairRequestRx p pkt) s = .next (sendStop pkt.src 3
        (leBytes (feedId d) 2 ++ leBytes (b2n (buddyOn d && buddyId d == pkt.src)) 1) d)) ∧
      (pkt.sub = 3 → s.cask.pairAt.isSome = true → pkt.src = buddyId s → ∃ t, exec (.pairAnswerRx p pkt) s = .next t ∧
        t.cask.pairAt = none ∧ t.regN (cellarPage + 0xE4) = leNat (pkt.data.take 2) % 65536 + 2 ^ 16 ∧
        t.fld cellarPage Fld.CSK_STATUS.pairing = pairOutcome (leNat (pkt.data.take 2) == feedId s)
          (s.flag cellarPage Fld.CSK_BUDDY.same_feed_ok) (bit (leNat ((pkt.data.drop 2).take 1)) 0)) ∧
      (pkt.sub = 4 → pkt.src = buddyId s → pairing s = 1 → s.cask.endAsked = none → ∃ t k, exec (.mirrorBeginRx p pkt) s = .next t ∧
        t.cask.receiving = some (k, at8, leNat ((pkt.data.drop 8).take 8)) ∧ t.cask.copies = s.cask.copies.filter (· != k)) ∧
      (∀ k serial len, pkt.sub = 5 → s.cask.receiving = some (k, serial, len) → pkt.src = buddyId s →
        let h := leNat (pkt.data.take 4); let f := copyFault d k h
        (copyComing d = true → exec (.mirrorEndRx p pkt) s = .next { d with cask := { d.cask with endAsked := some h } }) ∧
        (copyComing d = false → ∃ t, exec (.mirrorEndRx p pkt) s = .next t ∧ t.cask.receiving = none ∧
          t.cask.copies = (if f = 0 then s.cask.copies ++ [k] else s.cask.copies) ∧ t.cask.endAsked = none ∧ t.mem = s.mem)) ∧
      (∀ i, pkt.sub = 6 → s.cask.mirroring = some i → pkt.src = buddyId s →
        (s.cask.stale ≠ 0 → exec (.mirrorStatusRx p pkt) s = .next { d with cask := { d.cask with stale := d.cask.stale - 1 } }) ∧
        (s.cask.stale = 0 → leNat (pkt.data.take 1) = 0 →
          ∃ t, exec (.mirrorStatusRx p pkt) s = .next t ∧ t.cask.mirroring = none ∧ t.cask.mirrored = some i ∧
            t.flag cellarPage Fld.CSK_STATUS.mirror_ok = true ∧ t.mem = s.mem)) ∧
      (pkt.sub = 7 → ∃ t, exec (.gangCaskRx p pkt) s = .next t ∧ t.cask.requested = true ∧ t.cask.gangStep.isSome = true ∧
        t.mem = s.mem ∧ t.units = s.units))

/-- O38. The states of an Izyen port: enable, training, retrain, restart (R300, R313, R314, R316, R321). -/
def Obligations.PortStates : Prop :=
  ∀ (s : State) (p : Nat), p < 16 → syncOn s = false →
    let page := portPage p; let x := s.port p; let state := portState s p
    (∀ fn (v : Word), Granted s fn page →
      (state = 0 → bit v.toNat 0 = true → exec (.portEnable fn p v) s =
        .next (setPortState p 1 (s.setRegN (page + 0x80) (bits v.toNat 1 0 + bits v.toNat 2 2 * 4)))) ∧
      (state ≠ 0 → bit v.toNat 0 = true → bit v.toNat 3 = false → bits v.toNat 2 2 ≠ s.fld page Fld.IZN_PORT_CTRL.reach →
        exec (.portEnable fn p v) s = .next ((logStatus page 0x14 s).setRegN (page + 0x80)
          (bits v.toNat 1 0 + s.fld page Fld.IZN_PORT_CTRL.reach * 4))) ∧
      (state = 2 → ∃ t f, exec (.portRetrain fn p) s = .next t ∧ portState t p = 3 ∧ bit (t.regN (page + 0x20)) 2 = true ∧
        Msg.flit p f ∈ t.out ∧ f.kind = 0 ∧ f.linkKind = 4 ∧ f.linkData = 0 ∧ (t.port p).credits = x.credits ∧
        (t.port p).replay = x.replay ∧ (t.port p).inbox = x.inbox ∧ t.txq = s.txq ∧ t.mem = s.mem) ∧
      (state ≠ 2 → exec (.portRetrain fn p) s = .next s)) ∧
    (∀ peerId peerPort shares time delay, (state = 1 → cwLock delay.tags = true → ∃ t, exec (.trainingDone p peerId peerPort shares time delay) s = .next t ∧
        portState t p = 2 ∧ t.fld page Fld.IZN_PORT_STATUS.peer_id = peerId % 4096 ∧
        t.fld page Fld.IZN_PORT_STATUS.peer_port = peerPort % 16 ∧ bit (t.regN (page + 0x20)) 0 = true ∧
        t.fld page Fld.IZN_PORT_STATUS.train_fail = s.fld page Fld.IZN_PORT_STATUS.train_fail ∧
        Msg.hello p (selfId s) ((List.range 4).map (fun v => bits (s.regN (page + 0x8C)) (8 * v + 7) (8 * v))) s.time ∈ t.out ∧
        (∀ v, v < 4 → vcCredits (t.port p) v = 4 * (shares[v]?).getD 0) ∧ (t.port p).replay = [] ∧ (t.port p).inbox = x.inbox ∧
        t.time = s.time ∧ t.mem = s.mem ∧ t.txq = s.txq) ∧
      (state ≠ 1 ∨ cwLock delay.tags = false → exec (.trainingDone p peerId peerPort shares time delay) s = .next s)) ∧
    (state = 3 → ∃ t, exec (.retrainDone p) s = .next t ∧ portState t p = 2 ∧ (t.port p).resend = x.replay.map (·.fseq) ∧
      (t.port p).replay.map (·.fseq) = x.replay.map (·.fseq) ∧ (t.port p).credits = x.credits ∧ (t.port p).inbox = x.inbox ∧
      t.mem = s.mem ∧ t.txq = s.txq ∧ t.out = s.out) ∧
    (state ≠ 3 → exec (.retrainDone p) s = .next s) ∧
    (state = 4 → s.flag page Fld.IZN_PORT_CTRL.auto_up = true → x.at_ + 2 ^ 27 ≤ s.time →
      exec (.downRestart p) s = .next (setPortState p 1 s)) ∧
    (state = 4 → s.flag page Fld.IZN_PORT_CTRL.auto_up = false ∨ s.time < x.at_ + 2 ^ 27 → exec (.downRestart p) s = .next s)

/-- O39. A port that is lost goes DOWN with its event and record, and its packets are disposed of (R309, R313, R314, R315).
-/
def Obligations.PortLosses : Prop :=
  ∀ (s : State) (p : Nat), p < 16 → syncOn s = false → let page := portPage p; let state := portState s p; let x := s.port p
    let down := fun (i : Instr) (u : State) => ∃ t r, exec i s = .next (dropLink p t) ∧ portState t p = 4 ∧
      t.flag page Fld.IZN_PORT_STATUS.cw_lock = false ∧ bit (t.regN (page + 0x20)) 1 = true ∧
      (r = raiseEv page 1 (((setPortState p 4 u).setFlag page Fld.IZN_PORT_STATUS.cw_lock false).bump page 7 1)) ∧
      (∀ b, b < cellarBase → t.byte b = s.byte b) ∧ t.ports = (s.setPort p { x with at_ := s.time }).ports ∧ t.txq = s.txq ∧
      t.units = s.units ∧ t = colAppend (p / 8) 0x08 (leBytes p 1 ++
        leBytes (r.fld page Fld.IZN_PORT_STATUS.peer_id) 2 ++ leBytes (r.fld page Fld.IZN_PORT_STATUS.train_fail) 1) r
    (∀ step, (state = 1 → x.at_ + 531250000 ≤ s.time →
        down (.trainingTimeout p step) (s.setFld page Fld.IZN_PORT_STATUS.train_fail step)) ∧
      (state ≠ 1 ∨ s.time < x.at_ + 531250000 → exec (.trainingTimeout p step) s = .next s)) ∧
    (state = 3 → x.at_ + 4250000 ≤ s.time → down (.retrainTimeout p) s) ∧
    (state ≠ 3 ∨ s.time < x.at_ + 4250000 → exec (.retrainTimeout p) s = .next s) ∧
    (state = 2 ∨ state = 3 → down (.peerGone p) s) ∧ (state ≠ 2 → state ≠ 3 → exec (.peerGone p) s = .next s) ∧
    (∀ u stream seq,
      let limit := max 1024 (s.regN (routePage + 0x94))
      let overdue := fun (o : Outst) => o.unit == u && o.stream == stream && o.seq == seq && decide (o.time + limit ≤ s.time)
      (s.outst.find? overdue = none → exec (.e2eTimeout u stream seq) s = .next s) ∧
      (∀ o e, u ≠ leaseUnit → s.outst.find? overdue = some o → (s.q u).find? (fun e => e.stream == stream && e.seq == seq &&
        e.engine == .collective && e.phase == .sending) = some e →
        exec (.e2eTimeout u stream seq) s = .next (settle (tryArrays modulePath (payOwed
          (finishColl u e ⟨0x11, 0, o.dest, 0⟩ { s with outst := dropFirst (· == o) s.outst }))))))

/-- O40. A flit that arrives at a port that is UP (R298, R299, R300, R304, R314). -/
def Obligations.FlitsReceived : Prop :=
  ∀ (s : State) (p stamp : Nat) (f : Flit), p < 16 → let x := { s.port p with rxFlits := (s.port p).rxFlits + 1 }
    let span := codewordSpan (s.port p).rxFlits; let page := portPage p
    let window := x.unc.filter (fun t => decide (s.time < t + 2 ^ s.fld page Fld.IZN_RETRAIN_CFG.win_exp))
    (portUp s p = false → exec (.flitRx p stamp f) s = .next s) ∧
    (portUp s p = true → f.crcOk = false →
      (∀ c, x.badCw = some c → span.1 ≤ c →
        exec (.flitRx p stamp f) s = .next (s.setPort p { x with nakDue := true, discarding := true })) ∧
      ((∀ c, x.badCw = some c → c < span.1) → (window.length + 1 ≤ s.fld page Fld.IZN_RETRAIN_CFG.unc_limit →
          exec (.flitRx p stamp f) s = .next ((s.setPort p
            { x with nakDue := true, discarding := true, badCw := some span.2, unc := s.time :: window }).bump page 1 1)) ∧
        (s.fld page Fld.IZN_RETRAIN_CFG.unc_limit ≤ window.length → ∃ t, exec (.flitRx p stamp f) s = .next t ∧ portState t p = 3 ∧
          (t.port p).rxNext = x.rxNext ∧ (t.port p).inbox = x.inbox ∧ (t.port p).credits = x.credits ∧ (t.port p).replay = x.replay ∧
          t.regN (page + 0x34) = (s.regN (page + 0x34) + 1) % 2 ^ 32 ∧ t.mem = s.mem))) ∧
    (portUp s p = true → f.crcOk = true → f.linkKind = 0 →
      (takeHeader f x).replay = ackFlits f.ack x.replay ∧
      (∀ v, v < 4 → f.credits.length = 4 → vcCredits (takeHeader f x) v = vcCredits x v + f.credits.getD v 0) ∧
      let l := SMap.get (fun _ => []) x.part f.vc ++ fit 240 f.payload
      (f.kind = 0 → exec (.flitRx p stamp f) s = .next (s.setPort p (takeHeader f x))) ∧
      (f.kind = 1 ∨ f.kind = 2 → f.fseq ≠ x.rxNext → ∃ t, exec (.flitRx p stamp f) s = .next t ∧ t.regs = s.regs ∧
        t.port p = { takeHeader f x with nakDue := x.nakDue || !x.discarding, discarding := true } ∧ t.mem = s.mem) ∧
      (f.kind = 1 → f.fseq = x.rxNext → ∃ t, exec (.flitRx p stamp f) s = .next t ∧ t.port p = { takeHeader f x with
          rxNext := (x.rxNext + 1) % 4096, discarding := false, part := SMap.set (fun _ => []) x.part f.vc l } ∧
        t.regN (portPage p + 0x3C) = (s.regN (portPage p + 0x3C) + 1) % 2 ^ 32 ∧ t.mem = s.mem) ∧
      (f.kind = 2 → f.fseq = x.rxNext → l.length = 240 * flitCount (packetOf l) → malformed (packetOf l) = false →
        ∃ t, exec (.flitRx p stamp f) s = .next t ∧ t.port p = { takeHeader f x with
          rxNext := (x.rxNext + 1) % 4096, discarding := false, part := SMap.set (fun _ => []) x.part f.vc [],
          inbox := x.inbox ++ [packetOf l] } ∧ t.mem = s.mem))

/-- O41. A flit slot of a port, and the start of a synchronisation exchange (R297, R298, R299, R300, R301, R304, R314, R316).
-/
def Obligations.FlitsSent : Prop :=
  ∀ (s : State) (p : Nat), p < 16 → let x := s.port p
    let sent := fun (t : State) (f : Flit) => f.crc = crc32c f.body ∧
      f.credits = (List.range 4).map (fun v => min 255 (SMap.get (fun _ => 0) x.due v)) ∧
      t.out = s.out ++ [.flit p f] ++ (if x.group.length < 9 then [] else [.codewords p (lanesOf (codewordsOf x.txCw (x.group ++ [f])))])
    (portUp s p = false → exec (.flitTransmit p) s = .next s) ∧
    (portUp s p = true →
      (chooseSlot s p = .idle → ∃ t f, exec (.flitTransmit p) s = .next t ∧ sent t f ∧ f.kind = 0 ∧
        f.ack = (x.rxNext + 4095) % 4096 ∧ f.nak = x.nakDue ∧ (t.port p).nakDue = false ∧ (t.port p).credits = x.credits ∧
        (t.port p).replay = x.replay ∧ t.mem = s.mem ∧ t.txq = s.txq) ∧
      (∀ v rot pkt i, chooseSlot s p = .first v rot → nextFlit s p v = some (pkt, i) →
        ∃ t f, exec (.flitTransmit p) s = .next t ∧ sent t f ∧ f.vc = v ∧ f.fseq = x.txNext ∧
          f.kind = (if i + 1 = flitCount pkt then 2 else 1) ∧ f.payload = flitPayload pkt i ∧
          (t.port p).txNext = (x.txNext + 1) % 4096 ∧ (t.port p).replay = x.replay ++ [⟨f.kind, v, x.txNext, f.payload, 1, pkt⟩] ∧
          vcCredits (t.port p) v = vcCredits x v - 1 ∧ (∀ w, w ≠ v → vcCredits (t.port p) w = vcCredits x w) ∧ t.mem = s.mem) ∧
      (∀ g, chooseSlot s p = .replay g → g.sends < replayLimit s p → ∃ t f, exec (.flitTransmit p) s = .next t ∧
        sent t f ∧ f.kind = g.kind ∧ f.vc = g.vc ∧ f.fseq = g.fseq ∧ f.payload = g.payload ∧
        (t.port p).credits = x.credits ∧ (t.port p).resend = x.resend.drop 1 ∧ t.txq = s.txq ∧ t.mem = s.mem) ∧
      (∀ g, chooseSlot s p = .replay g → replayLimit s p ≤ g.sends → ∃ t, exec (.flitTransmit p) s = .next t ∧
        portState t p = 3 ∧ (t.port p).replay = x.replay ∧ (t.port p).credits = x.credits ∧ t.txq = s.txq ∧ t.mem = s.mem)) ∧
    (syncOn s = true → portUp s (parentPort s) = true → s.sync.started = 0 → let q := parentPort s
      ∃ t, exec .syncExchange s = .next t ∧ (t.port q).words = (s.port q).words ++ [(1, 0)] ∧ t.sync.started = s.time + 1 ∧
        t.regs = s.regs ∧ t.txq = s.txq ∧ t.mem = s.mem) ∧
    (syncOn s = false → exec .syncExchange s = .next s)

/-- O42. Requests for Casks, cuts, and the timers that ask for them (R372, R373, R378, R381, R387). -/
def Obligations.CaskRequests : Prop :=
  ∀ (s : State), let s1 : State := { s with cask := { s.cask with requested := true } }
    let asked := if cskState s = 0 then setCsk 1 s1 else s1; let floor := s.fld cellarPage Fld.CSK_FLOOR.floor
    (∀ fn, Granted s fn cellarPage →
      (stopGang s = false ∨ s.cask.requested = true → exec (.caskRequest fn) s = .next asked) ∧
      (stopGang s = true → s.cask.requested = false → ∃ t, exec (.caskRequest fn) s = .next t ∧ t.cask.requested = true ∧
        t.cask.gangStep = some ((ptgStep s + 1) % 2 ^ 32) ∧ t.mem = s.mem ∧ t.units = s.units ∧ t.streams = s.streams) ∧
      (cskState s = 7 → cskOn s = true → s.cask.writing = none → pulseBarred s = false → stageAt s + 11264 ≤ fixedFolios s →
        ∃ t, exec (.caskCut fn) s = .next t ∧ t.cask.writing = some (targetSlot s, captureImg s 1) ∧ cskState t = 3 ∧
          t.cask.requested = false ∧ t.cask.pend = (((List.range (fixedFolios s)).filter (fun f => !(inStage s f))).map (fun f => (0, f))) ++
            (caskTiles s).map (fun x => (x.id + 1, x.j)) ∧ t.units = s.units ∧ t.streams = s.streams ∧ t.cores = s.cores) ∧
      (cskState s ≠ 7 ∨ cskOn s = false ∨ s.cask.writing.isSome = true ∨ pulseBarred s = true →
        exec (.caskCut fn) s = .next (logStatus cellarPage 0x14 s))) ∧
    (stopGang s = false → floor ≠ 0 → s.cask.lastCommit + floor * 2 ^ 30 ≤ s.time → exec .floorExpiry s = .next asked) ∧
    (floor = 0 ∨ s.time < s.cask.lastCommit + floor * 2 ^ 30 → exec .floorExpiry s = .next s) ∧
    (s.cask.critAt = none → exec .critWaitExpiry s = .next s) ∧
    (∀ t, s.cask.critAt = some t → let due := t + s.fld cellarPage Fld.CSK_FLOOR.crit_wait * 2 ^ 20
      (s.time < due → exec .critWaitExpiry s = .next s) ∧
      (due ≤ s.time → s.cask.told = false → ∃ u, exec .critWaitExpiry s = .next u ∧ u.cask.critAt = none ∧ u.cask.critCut = true ∧
        u.cask.armed = some (s.cask.armed.getD (s.time + 2048)) ∧ u.units = s.units ∧ u.mem = s.mem ∧ u.streams = s.streams))

/-- O43. The Cask writer: units copied, commit, failure (R366, R367, R371, R375, R376, R377). -/
def Obligations.CaskWriter : Prop :=
  ∀ (s : State), UnitsIdle s → s.edge = [] → s.tiers.reqs = [] → s.cask.critCut = false →
    let fails := fun (r : Nat) (i : Instr) => ∃ t, exec i s = .next t ∧ t.cask.writing = none ∧ t.cask.pend = [] ∧
      t.cask.slotA = s.cask.slotA ∧ t.cask.slotB = s.cask.slotB ∧ t.fld cellarPage Fld.CSK_STATUS.result = r ∧
      bit (t.regN (cellarPage + 0x20)) 1 = true ∧ t.units = s.units ∧ t.streams = s.streams
    (∀ k i v, s.cask.writing = some (k, i) → nextUnit s = some v → let c := unitCopy i v
      (writerWaits s = true → exec .pendingUnitCopied s = .next s) ∧
      (writerWaits s = false → unitGone s v = false → c.1 + c.2.length ≤ caskMax → ∃ t, exec .pendingUnitCopied s = .next t ∧
        t.cask = { s.cask with pend := s.cask.pend.filter (· != v) } ∧ t.mem = (s.setBytes (slotKey k + c.1) c.2).mem ∧
        t.units = s.units ∧ t.regs = s.regs ∧ t.streams = s.streams) ∧
      (writerWaits s = false → unitGone s v = true → fails 0x13 .pendingUnitCopied) ∧
      (writerWaits s = false → unitGone s v = false → caskMax < c.1 + c.2.length → fails 0x01 .pendingUnitCopied)) ∧
    (s.cask.writing = none → exec .pendingUnitCopied s = .next s ∧ exec .caskCommit s = .next s ∧
      ∀ r, exec (.caskFail r) s = .next s) ∧
    (∀ w, s.cask.writing = some w → s.cask.pend ≠ [] ∨ writerWaits s = true → exec .caskCommit s = .next s) ∧
    (∀ k i, s.cask.writing = some (k, i) → s.cask.pend = [] → writerWaits s = false → caskMax < caskLen i → fails 0x01 .caskCommit) ∧
    (∀ k i, s.cask.writing = some (k, i) → k < 2 → s.cask.pend = [] → writerWaits s = false → caskLen i ≤ caskMax → pairing s = 0 →
      ∃ t, exec .caskCommit s = .next t ∧ slotImg t k = some i ∧ slotImg t (1 - k) = slotImg s (1 - k) ∧ t.cask.writing = none ∧
        t.cask.lastCommit = s.time ∧ t.fld cellarPage Fld.CSK_STATUS.newest = k ∧ bit (t.fld cellarPage Fld.CSK_STATUS.complete) k = true ∧
        t.reg64 (cellarPage + 0x88) = i.serial % 2 ^ 64 ∧ t.regN (cellarPage + 0x90) = i.step % 2 ^ 32 ∧
        t.fld cellarPage Fld.CSK_STATUS.result = 0 ∧ bit (t.regN (cellarPage + 0x20)) 0 = true ∧
        t.units = s.units ∧ t.streams = s.streams) ∧
    (∀ w r, s.cask.writing = some w → (r = 0x01 ∨ r = 0x09 ∨ r = 0x13 → fails r (.caskFail r)) ∧
      (r ≠ 0x01 → r ≠ 0x09 → r ≠ 0x13 → exec (.caskFail r) s = .next s))

/-- O44. Stop-press: arming, tick T, stopped, resume (R383, R384, R386, R388, R396). -/
def Obligations.StopPressAndResume : Prop :=
  ∀ (s : State), let st := fun (i : Nat) (t : State) => (t.stream i).state
    (∀ fn (v : Word), Granted s fn cellarPage → let t := s.regN (cellarPage + 0x94) + v.toNat * 2 ^ 32
      (t < s.time + 2048 → exec (.stopArm fn v) s = .next (logStatus cellarPage 0x01 s)) ∧
      (s.time + 2048 ≤ t → s.cask.armed.isSome = true → exec (.stopArm fn v) s = .next (logStatus cellarPage 0x14 s)) ∧
      (s.time + 2048 ≤ t → s.cask.armed = none → stopGang s = false → ∃ u, exec (.stopArm fn v) s = .next u ∧
        u.cask = { s.cask with armed := some t } ∧ u.flag cellarPage Fld.CSK_STATUS.stop_late = false ∧
        u.regN (cellarPage + 0x98) = v.toNat ∧ u.mem = s.mem ∧ u.units = s.units ∧ u.streams = s.streams)) ∧
    (s.cask.armed = none ∨ s.stopped = true → exec .stopPress s = .next s) ∧
    (∀ t, s.cask.armed = some t → s.time < t → exec .stopPress s = .next s) ∧
    (∀ t, s.cask.armed = some t → t ≤ s.time → s.stopped = false → UnitsIdle s → (∀ x ∈ s.cores, x.2.outq = []) →
      (∀ x ∈ s.streams, x.2.fetched = none) → ∃ u, exec .stopPress s = .next u ∧ u.stopped = true ∧
        (∀ i, st i s = 1 ∨ st i s = 2 ∨ st i s = 3 → st i u = 6 ∧ (u.stream i).before = st i s) ∧
        (∀ i, st i s ≠ 1 → st i s ≠ 2 → st i s ≠ 3 → st i u = st i s) ∧
        (∀ x ∈ s.cores, coreGoing (s.core x.1) = true → x.2 = s.core x.1 → (u.core x.1).run = .halted ∧ x.1 ∈ u.cask.runs) ∧
        (cskState s ≠ 3 → cskState u = 6)) ∧
    (s.stopped = true → s.cask.told = false → govBusy s = false → UnitsIdle s → s.cask.critCut = false →
      ∃ u, exec .moduleStopped s = .next u ∧ cskState u = 7 ∧ u.cask.told = true ∧ bit (u.regN (cellarPage + 0x20)) 4 = true ∧
        u.units = s.units ∧ u.streams = s.streams) ∧
    (s.cask.critCut = false → s.stopped = false ∨ s.cask.told = true ∨ govBusy s = true ∨ (∃ x ∈ s.units, x.2.q ≠ []) →
      exec .moduleStopped s = .next s) ∧
    (∀ fn, Granted s fn cellarPage →
      (cskState s ≠ 5 → cskState s ≠ 7 → exec (.caskResume fn) s = .next (logStatus cellarPage 0x14 s)) ∧
      (cskState s = 5 ∨ cskState s = 7 → s.cask.stopBuf = [] → s.cask.held = [] → s.cask.writing = none →
        ∃ u, exec (.caskResume fn) s = .next u ∧
        u.stopped = false ∧ u.cask.armed = none ∧ u.cask.told = false ∧ cskState u = (if s.cask.requested then 1 else 0) ∧
        (∀ i, st i s = 6 → st i u = (s.stream i).before) ∧ (∀ i, st i s ≠ 6 → st i u = st i s) ∧
        (∀ ch ∈ s.cask.runs, (s.core ch).run = .halted → (u.core ch).run = .running) ∧ u.units = s.units ∧ u.mem = s.mem))

/-- O45. Restore, and the buddy pairing (R371, R389, R390, R393, R395). -/
def Obligations.RestoreAndBuddy : Prop :=
  ∀ (s : State), let page := cellarPage
    (∀ fn (v : Word), Granted s fn page → let s1 := s.setRegN (page + 0xE0) (putBits (s.regN (page + 0xE0)) 13 0 (bits v.toNat 13 0))
      (bit v.toNat 14 = false → exec (.caskRestore fn v) s = .next s1) ∧
      (bit v.toNat 14 = true → (∃ x ∈ s.streams, x.2.state = 2) → exec (.caskRestore fn v) s = .next (logStatus page 0x14 s1)) ∧
      (bit v.toNat 14 = true → (∀ x ∈ s.streams, x.2.state ≠ 2) → outstandingCmds s = [] → s.cask.writing = none →
        s1.fld page Fld.CSK_RESTORE.source = 0 →
        (s.cask.slotA = none → exec (.caskRestore fn v) s = .next (failRestore 0x02 0 s1)) ∧
        (∀ i, s.cask.slotA = some i → slotFault s 0 = 0 → i.perCtl = s.fld (tierPage 0) Fld.DIE_FIXED.per_ctl →
          ∃ t, exec (.caskRestore fn v) s = .next t ∧ t.cask = { s.cask with restoring := some i } ∧ cskState t = 4 ∧
            t.mem = s.mem ∧ t.units = s.units ∧ t.streams = s.streams))) ∧
    (s.cask.restoring = none → exec .restoreDone s = .next s) ∧
    (∀ i t, s.cask.restoring = some i → applyCask i { s with cask := { s.cask with restoring := none } } = some t →
      ∃ u, exec .restoreDone s = .next u ∧ cskState u = 5 ∧ u.fld page Fld.CSK_STATUS.result = 0 ∧
        bit (u.regN (page + 0x20)) 7 = true ∧ u.streams = t.streams ∧ u.cores = t.cores ∧ u.units = t.units ∧
        ∀ b, b < cellarBase → u.byte b = t.byte b) ∧
    (∀ fn (v : Word), Granted s fn page →
      (s.cask.mirroring.isSome = true → exec (.buddyPair fn v) s = .next (logStatus page 0x14 s)) ∧
      (s.cask.mirroring = none → bit v.toNat 12 = true → ∃ t, exec (.buddyPair fn v) s = .next t ∧ t.cask.pairAt = some s.time ∧
        t.regN (page + 0xD8) = v.toNat % 2 ^ 14 ∧ pairing t = pairing s ∧ t.mem = s.mem ∧ t.units = s.units) ∧
      (s.cask.mirroring = none → bit v.toNat 12 = false → ∃ t, exec (.buddyPair fn v) s = .next t ∧ t.cask.pairAt = none ∧
        t.regN (page + 0xD8) = v.toNat % 2 ^ 14 ∧ pairing t = 0 ∧ t.mem = s.mem ∧ t.units = s.units)) ∧
    (∀ t, s.cask.pairAt = some t → t + max 1024 (s.regN (routePage + 0x94)) ≤ s.time →
      exec .pairTimeout s = .next (setPairing 0 { s with cask := { s.cask with pairAt := none } })) ∧
    (∀ t, s.cask.pairAt = some t → s.time < t + max 1024 (s.regN (routePage + 0x94)) → exec .pairTimeout s = .next s) ∧
    (s.cask.pairAt = none → exec .pairTimeout s = .next s) ∧
    (∀ (v : Word), buddyOn s = false → ∃ t, exec (.feedWrite 32 v) s = .next t ∧ t.regN (page + 0xDC) = v.toNat % 2 ^ 17 ∧
      pairing t = 0 ∧ t.mem = s.mem ∧ t.units = s.units) ∧
    (∀ fn (v : Word), fn < 32 → Admitted s fn → exec (.feedWrite fn v) s = .next (refuseAccess fn (page + 0xDC) s))

/-- O46. The risk estimator and the board alarms (R379, R380, R381). -/
def Obligations.RiskEstimator : Prop :=
  ∀ (s : State), let page := cellarPage; let thr := fun (f : Fld) => s.fld page f
    (∃ t, exec .riskEvaluate s = .next t ∧
      (let x := fun (i : Nat) => t.regN (page + 0xC0 + 4 * (i / 4)) / 2 ^ (8 * (i % 4)) % 256
       let w := fun (i : Nat) => s.regN (page + 0xB0 + 4 * (i / 4)) / 2 ^ (8 * (i % 4)) % 256
       let r := min 65535 ((List.range 16).map (fun i => w i * x i)).sum
       t.regN (page + 0xA8) % 2 ^ 16 = r ∧ x 15 = thr Fld.CSK_RISK_SW.level ∧ t.cask.history.length ≤ 64 ∧
        (bit (t.regN (page + 0xA8)) 16 = true ↔ thr Fld.CSK_RISK_THR.elevated ≤ r) ∧
        (bit (t.regN (page + 0xA8)) 17 = true ↔ thr Fld.CSK_RISK_THR.critical ≤ r) ∧
        ((thr Fld.CSK_RISK_THR.elevated ≤ r → s.flag page Fld.CSK_RISK.elevated = true) →
          (thr Fld.CSK_RISK_THR.critical ≤ r → s.flag page Fld.CSK_RISK.critical = true) →
          t.cask.requested = s.cask.requested ∧ t.mem = s.mem ∧ t.units = s.units ∧ t.streams = s.streams) ∧
        (s.stopped = false → thr Fld.CSK_RISK_THR.elevated ≤ r → s.flag page Fld.CSK_RISK.elevated = false →
          t.cask.requested = true))) ∧
    (∀ a on, 32 ≤ a → exec (.boardAlarm a on) s = .next s) ∧
    (∀ a on, a < 32 → ∃ t, exec (.boardAlarm a on) s = .next t ∧ { t with cask := s.cask } = s ∧ bit t.cask.alarms a = on ∧
      ∀ b, b ≠ a → bit t.cask.alarms b = bit s.cask.alarms b)

/-- O47. The trace writer, counter latches and hang snapshots (R401, R409, R410, R411, R412, R413, R414, R415). -/
def Obligations.TraceAndSnapshots : Prop :=
  ∀ (s : State) (d : Nat), d < 2 → let page := tracePage d; let state := traceState s d; let idx := s.fld page Fld.TRC_WR_IDX.index
    let slot := s.fld page Fld.TRC_BUF_BASE.folio * 65536 + 32 * idx; let on := s.flag page Fld.TRC_CTRL.enable
    let marked := fun (i : Instr) (src : Nat) => ∃ t, exec i s = .next t ∧ traceState t d = (if traceMode s d = 0 then 2 else 1) ∧
      t.regN (page + 0xA8) = (idx + 2 ^ 21) % 2 ^ 32 ∧ bit (t.regN (page + 0x20)) 0 = true ∧
      (t.trwOf d).post = (if traceMode s d = 0 then s.fld page Fld.TRC_POST.count else (s.trwOf d).post) ∧
      (t.trwOf d).mark = some (s.time, src) ∧ t.fld page Fld.TRC_WR_IDX.index = (idx + 1) % 2 ^ 21 ∧
      t.num slot 32 = recWord ⟨s.time, 0, diePath d, 0x11, src, 0⟩ % 2 ^ 256 ∧ (∀ b, b < slot ∨ slot + 32 ≤ b → t.byte b = s.byte b) ∧
      t.units = s.units ∧ t.streams = s.streams ∧ t.cores = s.cores
    let fresh := state = 1 ∧ markFits s d = true ∧ sameTick d s = false
    (∀ fn (v : Word), Granted s fn page → bits v.toNat 8 4 = 0 →
      (on = false → bit v.toNat 0 = true → bits v.toNat 2 1 ≠ 3 → bufferOk s d = true → ∃ t, exec (.traceEnable fn d v) s = .next t ∧
        traceState t d = 1 ∧ traceMode t d = bits v.toNat 2 1 ∧ t.fld page Fld.TRC_WR_IDX.index = 0 ∧ t.regN (page + 0x90) = 0 ∧
        t.flag page Fld.TRC_CTRL.enable = true ∧ t.mem = s.mem ∧ t.units = s.units) ∧
      (on = true → bit v.toNat 0 = false → ∃ t, exec (.traceEnable fn d v) s = .next t ∧ traceState t d = 0 ∧
        t.flag page Fld.TRC_CTRL.enable = false ∧ traceMode t d = traceMode s d ∧ (state ≠ 4 → t.mem = s.mem) ∧ t.units = s.units)) ∧
    (∀ fn, Granted s fn page → (fresh → marked (.traceTrigger fn d) 0) ∧
      (state ≠ 1 → (∀ c, (s.trwOf d).mark ≠ some (s.time, c + 1)) → exec (.traceTrigger fn d) s = .next s) ∧
      (2 ≤ state → ∀ c, (s.trwOf d).mark = some (s.time, c) → 0 < c →
        let at_ := s.fld page Fld.TRC_BUF_BASE.folio * 65536 + 32 * bits (s.regN (page + 0xA8)) 20 0
        ∃ t, exec (.traceTrigger fn d) s = .next t ∧ traceState t d = state ∧ t.regN (page + 0xA8) = s.regN (page + 0xA8) ∧
          t.num at_ 32 = recWord ⟨s.time, 0, diePath d, 0x11, 0, 0⟩ % 2 ^ 256 ∧
          (∀ b, b < at_ ∨ at_ + 32 ≤ b → t.byte b = s.byte b) ∧ t.units = s.units ∧ t.streams = s.streams ∧ t.cores = s.cores) ∧
      (state = 3 → exec (.traceArm fn d) s = .next (s.setFld page Fld.TRC_STATUS.state 1)) ∧
      (state ≠ 3 → exec (.traceArm fn d) s = .next s)) ∧
    (s.flag page Fld.TRC_TRIG_CFG.on_time = true → s.reg64 (page + 0xA0) = s.time → fresh → marked (.traceTimeTrigger d) 2) ∧
    (s.flag page Fld.TRC_TRIG_CFG.on_time = false ∨ s.reg64 (page + 0xA0) ≠ s.time ∨
        (state ≠ 1 ∧ ∀ c, (s.trwOf d).mark ≠ some (s.time, c + 3)) →
      exec (.traceTimeTrigger d) s = .next s) ∧
    (state = 0 ∨ nextTraced s d = none → exec (.traceWrite d) s = .next s) ∧
    (∀ ch r, state = 1 → traceMode s d = 0 → s.flag page Fld.TRC_TRIG_CFG.on_record = false → nextTraced s d = some ch →
      (s.trqOf ch).recs = [r] → (s.trqOf ch).lost = 0 → (∀ x ∈ s.trq, x.1 ≠ ch → x.2.recs = []) →
      ∃ t, exec (.traceWrite d) s = .next t ∧ (t.trqOf ch).recs = [] ∧ t.num slot 32 = recWord r % 2 ^ 256 ∧
        (∀ b, b < slot ∨ slot + 32 ≤ b → t.byte b = s.byte b) ∧ t.fld page Fld.TRC_WR_IDX.index = (idx + 1) % 2 ^ 21 ∧
        t.units = s.units ∧ t.cores = s.cores) ∧
    (state = 2 → (s.trwOf d).post = 0 → exec (.traceFreeze d) s = .next (raiseEv page 1 (s.setFld page Fld.TRC_STATUS.state 3))) ∧
    (state ≠ 2 ∨ (s.trwOf d).post ≠ 0 → exec (.traceFreeze d) s = .next s) ∧
    (maySpill s d = true → let at_ := s.fld page Fld.TRC_SPILL_IDX.index
      ∃ t, exec (.traceSpill d) s = .next t ∧ t.fld page Fld.TRC_SPILL_IDX.index = (at_ + 1) % spillSlots ∧ (t.trwOf d).lost = 0 ∧
        t.units = s.units ∧ t.streams = s.streams ∧ t.cores = s.cores ∧
        ((s.trwOf d).lost = 0 → (t.trwOf d).held = (s.trwOf d).held - 1 ∧
          (∀ b, b < spillAddr d at_ ∨ spillAddr d at_ + 32 ≤ b → t.byte b = s.byte b) ∧
          t.bytes (spillAddr d at_) 32 = s.bytes (s.fld page Fld.TRC_BUF_BASE.folio * 65536 +
            32 * ((idx + traceSlots - (s.trwOf d).held % traceSlots) % traceSlots)) 32)) ∧
    (maySpill s d = false → exec (.traceSpill d) s = .next s) ∧
    (∀ fn, Granted s fn (tracePage 0) → let p0 := tracePage 0
      (∃ t, exec (.counterSnap fn) s = .next t ∧ t.flag page Fld.TRC_STATUS.snap_valid = true ∧ t.reg64 (page + 0xAC) = s.time % 2 ^ 64 ∧
        t.snap = t.regs.filter (fun e => isCounter e.1) ∧ t.snapAt = thisTick s ∧
        (∀ off, isCounter off = true → off ∉ freeCounters → t.reg off = s.reg off) ∧ t.mem = s.mem ∧ t.units = s.units) ∧
      exec (.snapRelease fn) s = .next ((s.setFlag p0 Fld.TRC_STATUS.snap_valid false).setFlag (tracePage 1) Fld.TRC_STATUS.snap_valid false) ∧
      (s.hang.isSome = true → exec (.hangRequest fn) s = .next (logStatus p0 0x14 ((s.setFlag p0 Fld.TRC_STATUS.hang_err true).setFlag
        (tracePage 1) Fld.TRC_STATUS.hang_err true))) ∧
      (s.hang = none → hangAreaOk s 0 = true → hangAreaOk s 1 = true → ∃ t, exec (.hangRequest fn) s = .next t ∧
        t.hang = some ⟨s.time + 64, 0, 0, 0, false⟩ ∧ t.flag page Fld.TRC_STATUS.hang_busy = true ∧
        t.flag page Fld.TRC_STATUS.hang_done = false ∧ t.mem = s.mem ∧ t.units = s.units)) ∧
    (s.hang = none → exec .hangCapture s = .next s) ∧
    (∀ h, s.hang = some h → s.time < h.time → exec .hangCapture s = .next s) ∧
    (∀ h, s.hang = some h → h.time ≤ s.time → ∃ t, exec .hangCapture s = .next t ∧ t.hang = none ∧
      t.flag page Fld.TRC_STATUS.hang_done = true ∧ t.flag page Fld.TRC_STATUS.hang_busy = false ∧
      bit (t.regN (tracePage 0 + 0x20)) 3 = true ∧ t.units = s.units ∧ t.streams = s.streams ∧ t.cores = s.cores)

/-- O48. Health monitors: conversions, proof mode, droop, margin tests, and the Colophon's commands (R419, R421, R422, R424,
R425, R426, R427, R432, R435, R439). -/
def Obligations.HealthMonitors : Prop :=
  ∀ (s : State) (d : Nat), d < 2 → let page := monPage d
    (∀ r : Reading, let old := SMap.get (fun _ => (0, 0)) (s.mon d).last 0
      let runs := (if old.2 ≠ 0 ∧ old.1 = r.raw then old.2 else 0) + (if proofMode s d then 1024 else 1)
      let good := decide (-2560 ≤ r.value ∧ r.value ≤ 9600 ∧ runs < 4096)
      ∃ t, exec (.sensorConversion d [r] [] []) s = .next t ∧ bits (t.regN (page + 0x100)) 15 0 = toU 16 r.value ∧
        bit (t.regN (page + 0x100)) 16 = good ∧ bit (t.regN (page + 0x100)) 17 = proofMode s d ∧
        (good = false → bit (t.regN (page + 0x20)) 3 = true ∨ (s.mon d).bad.contains 0 = true) ∧
        t.units = s.units ∧ t.cores = s.cores ∧ t.streams = s.streams) ∧
    (∀ fn (v : Word), fn = 0 ∨ fn = 32 → Admitted s fn →
      (proofMode s d = bit v.toNat 0 → exec (.proofModeWrite fn d v) s = .next s) ∧
      (proofMode s d = false → bit v.toNat 0 = true → exec (.proofModeWrite fn d v) s = .next
        ((s.setFlag page Fld.MON_CTRL.proof true).setMon d { s.mon d with proofSeen := [], proofReady := false })) ∧
      (proofMode s d = true → bit v.toNat 0 = false → exec (.proofModeWrite fn d v) s =
        .next (s.setFlag page Fld.MON_CTRL.proof false))) ∧
    (∀ k : Droop, let m := s.mon d; let begins := droopDepth s d < k.mv ∧ droopWidth s d ≤ k.cycles
      (k.dom < 12 → k.dom ∉ m.droops → begins → exec (.droop d k) s = .next (raiseEv page 2
        ((s.setMon d { m with droops := m.droops ++ [k.dom] }).bump page k.dom 1))) ∧
      (k.dom < 12 → k.dom ∈ m.droops → 2 * k.mv ≤ droopDepth s d → exec (.droop d k) s =
        .next (s.setMon d { m with droops := m.droops.filter (· != k.dom) })) ∧
      (12 ≤ k.dom ∨ (k.dom ∉ m.droops ∧ ¬ begins) ∨ (k.dom ∈ m.droops ∧ droopDepth s d < 2 * k.mv) →
        exec (.droop d k) s = .next s)) ∧
    (∀ fn (v : Word), Granted s fn page → let s1 := s.setRegN (page + 0x90) (putBits (s.regN (page + 0x90)) 10 0 (bits v.toNat 10 0))
      let f := s1.fld page Fld.MON_MARGIN_CMD.forme
      (bit v.toNat 11 = false → exec (.marginStart fn d v) s = .next s1) ∧
      (bit v.toNat 11 = true → testRefused s d v.toNat ≠ 0 → let shown := s.setFld page Fld.MON_MARGIN_RESULT.status (testRefused s d v.toNat)
        exec (.marginStart fn d v) s = .next (if testRefused s d v.toNat = 0x14 ∧ vsetHeld s = true then logStatus (powerPage 0) 0x14 shown else shown)) ∧
      (bit v.toNat 11 = true → testRefused s d v.toNat = 0 → formeState s1 (formePath d f) ≠ 3 → ∃ t, exec (.marginStart fn d v) s = .next t ∧
        (t.mon d).test = some ⟨f, s1.fld page Fld.MON_MARGIN_CMD.kind, max 1 (s1.fld page Fld.MON_MARGIN_CMD.step_mv)⟩ ∧
        t.flag page Fld.MON_MARGIN_CMD.busy = true ∧ t.fld (powerPage 0) Fld.PWR_OWN.vset_owner = 3 ∧ t.mem = s.mem ∧ t.units = s.units)) ∧
    (∀ mv failed, (s.mon d).test = none ∨ (∃ x, (s.mon d).test = some x ∧ endsAt x mv failed = false) →
      exec (.marginDone d mv failed) s = .next s) ∧
    (∀ x mv, (s.mon d).test = some x → x.forme < 9 → endsAt x mv [] = true → formeOn s (formePath d x.forme) = true →
      ∃ t, exec (.marginDone d mv []) s = .next t ∧ (t.mon d).test = none ∧ t.regN (page + 0x94) = mv * 2 ^ 8 ∧
        t.flag page Fld.MON_MARGIN_CMD.busy = false ∧ t.regN (page + 0x64) = (s.regN (page + 0x64) + 1) % 2 ^ 32 ∧
        bit (t.regN (page + 0x20)) 5 = true ∧ t.streams = s.streams) ∧
    (∀ ty l, colType ty = true → exec (.colophonAppend d ty l) s = .next (colAppend d ty l s)) ∧
    (∀ ty l, colType ty = false → exec (.colophonAppend d ty l) s = .next s) ∧
    (∃ t, exec .colophonPeriodic s = .next t ∧ (t.mon d).bins = [] ∧ (t.mon d).last = (s.mon d).last ∧ t.units = s.units ∧
      t.regs = s.regs ∧ t.streams = s.streams ∧ ∀ b, b < cellarBase → t.byte b = s.byte b) ∧
    (∀ fn, Granted s fn cellarPage → let n := s.reg64 (cellarPage + 0x114); let a := colAddr (colSel s) n
      (clrBusy s = true → ∀ i ∈ [Instr.clrRead fn, .clrAppend fn], exec i s = .next (logStatus cellarPage 0x14 s)) ∧
      (clrBusy s = false → (cellarBusy s = false → colGone s (colSel s) n = false → s.badIn a 64 = false → ∃ t, exec (.clrRead fn) s = .next t ∧
        (∀ i, i < 16 → t.regN (cellarPage + 0x120 + 4 * i) = s.num (a + 4 * i) 4) ∧
        t.flag cellarPage Fld.CLR_STATUS.rd_bad = colBad s a ∧ t.mem = s.mem ∧ t.units = s.units ∧ t.free = s.free) ∧
      (cellarBusy s = false → colGone s (colSel s) n = true → ∃ t, exec (.clrRead fn) s = .next t ∧
        t.flag cellarPage Fld.CLR_STATUS.rd_bad = true ∧ t.mem = s.mem ∧ t.units = s.units) ∧
      (cellarBusy s = true → exec (.clrRead fn) s = .next { s with mzm := { s.mzm with clrRd := some (colSel s, n) } }) ∧
      (cellarBusy s = false → (s.col (colSel s)).queue = [] → exec (.clrAppend fn) s = .next (colAppend (colSel s) 0xF0
        (((List.range 8).map (fun i => leBytes (s.regN (cellarPage + 0x160 + 4 * i)) 4)).flatten) s))))

/-- O49. The power controller: input voltage, gating and wakes, duties, caps, shares and owners (R440, R442, R444, R445,
R446, R448, R449, R450, R451, R452, R453, R464). -/
def Obligations.PowerControl : Prop :=
  ∀ (s : State) (d f : Nat), d < 2 → f < 9 → let u := formePath d f; let page := powerPage d; let w := s.regN (frmOff d f)
    let state := formeState s u; let b := powerPage 0; let gated := state = 1 ∨ state = 2
    (state = 0 → mayClockGate s d f = true → exec (.formeClockGate d f) s = .next (s.setRegN (frmOff d f) (putBits w 5 4 1))) ∧
    (state ≠ 0 ∨ mayClockGate s d f = false → exec (.formeClockGate d f) s = .next s) ∧
    (state = 1 → mayPowerGate s d f = true → ∃ t, exec (.formePowerGate d f) s = .next t ∧ formeState t u = 2 ∧
      (∀ ch ∈ formeChases d f, (t.arr ch).width = 3 ∧ (t.arr ch).active = none) ∧ t.units = s.units ∧ t.cores = s.cores ∧ t.mem = s.mem ∧ t.streams = s.streams) ∧
    (state ≠ 1 ∨ mayPowerGate s d f = false → exec (.formePowerGate d f) s = .next s) ∧
    (∀ source path, 1 ≤ source → source ≤ 12 → validPath path = true →
      (gated → bit w 6 = false → ∃ t, exec (.formeWake d f source path) s = .next t ∧ bit (t.regN (frmOff d f)) 6 = true ∧
        formeState t u = state ∧ t.reg64 (page + 0xC8) = s.time % 2 ^ 64 ∧ bits (t.regN (page + 0xC4)) 8 5 = source ∧
        bits (t.regN (page + 0xC4)) 3 0 = f ∧ t.mem = s.mem ∧ t.units = s.units) ∧
      (¬ gated → bit w 6 = false → exec (.formeWake d f source path) s = .next s) ∧
      (bit w 6 = true → let last := s.regN (page + 0xC4)
        let lower := bits last 3 0 = f ∧ s.reg64 (page + 0xC8) = s.time ∧ source < bits last 8 5
        (lower → ∃ t, exec (.formeWake d f source path) s = .next t ∧ bits (t.regN (page + 0xC4)) 8 5 = source ∧
          bits (t.regN (page + 0xC4)) 24 9 = path ∧ bits (t.regN (page + 0xC4)) 3 0 = f ∧ t.regN (frmOff d f) = w ∧
          t.mem = s.mem ∧ t.units = s.units) ∧
        (¬ lower → exec (.formeWake d f source path) s = .next s))) ∧
    (bit w 6 = true → s.edge = [] → UnitsIdle s → ∃ t, exec (.formeWakeDone d f) s = .next t ∧ formeState t u = 0 ∧
      bit (t.regN (frmOff d f)) 6 = false ∧ t.units = s.units ∧ t.mem = s.mem ∧ t.cores = s.cores) ∧
    (bit w 6 = false → exec (.formeWakeDone d f) s = .next s ∧ exec (.formeWakeTimeout d f) s = .next s) ∧
    (bit w 6 = true → SMap.get (fun _ => 0) s.wakeAt (d * 16 + f) + 106250 ≤ s.time → s.edge = [] → UnitsIdle s →
      ∃ t, exec (.formeWakeTimeout d f) s = .next t ∧ formeState t u = 3 ∧ bit (t.regN (page + 0x20)) 1 = true ∧ t.mem = s.mem) ∧
    (∀ fn (v : Word), Granted s fn page →
      (state = 3 → SMap.get (fun _ => 0) s.wakeFrom (d * 16 + f) ≤ 2 → ∃ t, exec (.formeWakeRetry fn d f) s = .next t ∧ bit (t.regN (frmOff d f)) 6 = true ∧ t.mem = s.mem ∧ t.units = s.units) ∧
      (state ≠ 3 → exec (.formeWakeRetry fn d f) s = .next s) ∧
      (bit v.toNat 2 = false → bit v.toNat 1 = false →
        exec (.forceOnWrite fn d f v) s = .next (s.setRegN (frmOff d f) (putBits w 1 0 (bits v.toNat 1 0))))) ∧
    (∀ p avg, ∃ t, exec (.powerInterval p avg) s = .next t ∧ t.regN (page + 0x84) = min p 4095 + min avg 4095 * 2 ^ 16 ∧
      (let n := powerStep (s.fld b Fld.PWR_THROTTLE.power_duty) (s.fld b Fld.PWR_THROTTLE.burst) p (sustained s) (peak s);
        t.fld b Fld.PWR_THROTTLE.power_duty = n.1 ∧ 8 ≤ n.1 ∧ n.1 ≤ 64) ∧ t.mem = s.mem ∧ t.units = s.units ∧ t.cores = s.cores) ∧
    (∀ fn (v : Word), Granted s fn b → let cap := fun (n : Nat) => max 500 (min 3000 n); let new := cap (bits v.toNat 11 0)
      let old := cap (bits (s.regN (b + 0x88)) 11 0); let s1 := s.setRegN (b + 0x88) (bits v.toNat 11 0)
      exec (.capWrite fn false v) s = .next (if new < old ∧ new < s.fld b Fld.PWR_DRAW.p_int then s1.setFld b Fld.PWR_THROTTLE.burst 0 else s1)) ∧
    (∀ fn (v : Word), fn < 32 → Admitted s fn → exec (.capWrite fn true v) s = .next (refuseAccess fn (b + 0x8C) s)) ∧
    (∀ j n, j < 4096 → let share := SMap.get (fun _ => 0) s.power.inForce j
      (∃ t, exec (.shareWindow ⟨[(j, n)], true⟩) s = .next t ∧ { t with power := s.power } = s ∧ useOfJob t j = n ∧
        t.power.deferred = [] ∧ t.power.inForce = s.power.shares ∧ t.power.shares = s.power.shares) ∧
      (∃ t, exec (.shareWindow ⟨[(j, n)], false⟩) s = .next t ∧ { t with power := s.power } = s ∧ t.power.uses = s.power.uses ∧
        (∀ i, i ∈ t.power.deferred ↔ i ∈ s.power.deferred ∨ (i = j ∧ 0 < share ∧ share < n)) ∧
        t.power.shares = s.power.shares ∧ t.power.inForce = s.power.inForce)) ∧
    (∀ fn, fn = 0 ∨ fn = 32 → Admitted s fn → let me := if fn = 32 then 2 else 1; let own := s.fld b Fld.PWR_OWN.duty_owner
      (own = 0 ∨ own = me → exec (.claimDuty fn) s = .next (s.setFld b Fld.PWR_OWN.duty_owner me)) ∧
      (own ≠ 0 → own ≠ me → exec (.claimDuty fn) s = .next (logStatus b 0x14 s)) ∧
      (own = me → exec (.releaseDuty fn) s = .next (s.setFld b Fld.PWR_OWN.duty_owner 0)) ∧
      (own ≠ me → exec (.releaseDuty fn) s = .next s)) ∧
    (let own := s.fld b Fld.PWR_OWN.vset_owner;
      (own = 0 ∨ own = 2 → exec (.claimVset 32) s = .next (s.setFld b Fld.PWR_OWN.vset_owner 2)) ∧
      (own ≠ 0 → own ≠ 2 → exec (.claimVset 32) s = .next (logStatus b 0x14 s)) ∧
      (own = 2 → exec (.releaseVset 32) s = .next (s.setFld b Fld.PWR_OWN.vset_owner 0)) ∧
      (own ≠ 2 → exec (.releaseVset 32) s = .next s)) ∧
    (∀ v amps, v < 4000 → ∃ t, exec (.vinChange v amps) s = .next t ∧ t.power.vin = 0 ∧ t.pending = s.pending ∧ t.out = s.out) ∧
    (∀ v amps, s.power.vin = 2 → 5600 ≤ v → v ≤ 8400 → (∀ k, k < 2 → (s.col k).queue = [] ∧ (s.col k).lost = 0) →
      ∃ t, exec (.vinChange v amps) s = .next t ∧
      t.power.vin = 2 ∧ t.power.volts = v ∧ t.power.amps = amps ∧ t.power.shares = s.power.shares ∧ t.flag b Fld.PWR_THROTTLE.low_input = decide (v < 6000) ∧
      t.mem = s.mem ∧ t.units = s.units ∧ t.cores = s.cores ∧ t.time = s.time)

/-- O50. Resets, what they keep, the start-up sequence, and Muzomus's start (R457, R458, R459, R461, R463, R469, R472, R473,
R474, R476). -/
def Obligations.ResetsAndStartUp : Prop :=
  ∀ (s : State), let rst := resetPage 0; let ready := Fld.RST_STATUS.ready
    let reset := fun (i : Instr) (t : State) => exec i s = .next t ∧ t.time = 0 ∧ startStep t = 1 ∧ t.flag rst ready = false ∧
      t.cores = [] ∧ t.units = [] ∧ t.streams = [] ∧ t.tiers.regions = [] ∧ t.stopped = false ∧ t.pending = s.pending ∧
      (∀ b, 2 ^ 54 ≤ b → b < 2 ^ 55 → t.byte b = s.byte b) ∧ t.cask.slotA = s.cask.slotA ∧ t.cask.slotB = s.cask.slotB
    let warm := fun (i : Instr) (source : Nat) => ∃ t, reset i t ∧ bits t.mzm.cause 7 0 = source ∧ t.mzm.kind = 2
    let moves := fun (ok : Bool) (l : List Nat) (n m : Nat) => startStep s = n → ∃ t, exec (.startupStepDone ok l) s = .next t ∧
      startStep t = m ∧ t.units = s.units ∧ t.streams = s.streams
    (∃ t, reset (.resetAssert 1) t ∧ t.mzm.kind = 0 ∧ t.mzm.boots = s.mzm.boots + 1) ∧
    (∃ t, reset (.resetAssert 2) t ∧ t.mzm.kind = 1 ∧ bits t.mzm.cause 7 0 = 2) ∧
    (∀ source, 3 ≤ source → source ≤ 7 → warm (.resetAssert source) source) ∧
    (∀ source, source = 0 ∨ 7 < source → source ≠ 0x15 → exec (.resetAssert source) s = .next s) ∧
    (∃ t, reset .perstNLow t ∧ t.mzm.perst = true ∧ bits t.mzm.cause 7 0 = 3) ∧
    (Admitted s 0 → ∀ v : Word, (bits v.toNat 7 0 = 0xA5 → warm (.rstCtrlWrite 0 v) 4) ∧
      (bits v.toNat 7 0 ≠ 0xA5 → exec (.rstCtrlWrite 0 v) s = .next s)) ∧
    (∀ d sub index, d < 2 → (1 ≤ sub → sub ≤ 5 → warm (.criticalStateError d sub index) 6 ∧ ∀ t, exec (.criticalStateError d sub index) s = .next t →
        t.mzm.parity = index % 2 ^ 24 + d * 2 ^ 24 + sub * 2 ^ 25 + 2 ^ 28) ∧
      (5 < sub → exec (.criticalStateError d sub index) s = .next s)) ∧
    warm .refclkLoss 7 ∧
    (s.mzm.pulses = [] → exec .nvPulseEnd s = .next s) ∧
    (∀ p ps, s.mzm.pulses = p :: ps → p ≠ 0 → 2 ∈ ps → s.mzm.restartDue = false → exec .nvPulseEnd s = .next { s with mzm := { s.mzm with pulses := ps } }) ∧
    (∀ ok l, diesHeld s = true → exec (.startupStepDone ok l) s = .next s) ∧
    (diesHeld s = false → ∀ ok l,
      (longStart s = true → moves ok l 1 2) ∧ (longStart s = false → moves ok l 1 4) ∧ (s.power.vin = 2 → moves ok l 2 3) ∧
      (s.power.vin ≠ 2 → s.power.volts < 5800 → startStep s = 2 → exec (.startupStepDone ok l) s = .next s) ∧
      moves ok l 3 4 ∧ moves ok l 4 5 ∧ (0 ∉ s.mzm.pulses → moves ok l 5 6) ∧ moves ok l 6 7 ∧ moves ok l 7 8 ∧ moves ok l 8 9 ∧
      (startStep s = 7 → ∃ t, exec (.startupStepDone ok l) s = .next t ∧ t.time = 0 ∧
        t.flag (dieTopPage 0) Fld.DIE_BRG_STATUS.link_up = ok ∧ t.flag (dieTopPage 1) Fld.DIE_BRG_STATUS.down = !ok) ∧
      (startStep s = 9 → s.mzm.jtagEn = true ∨ (s.mon 0).proofReady = false ∨ (s.mon 1).proofReady = false →
        exec (.startupStepDone ok l) s = .next s) ∧
      (startStep s = 9 → s.mzm.jtagEn = false → (s.mon 0).proofReady = true → (s.mon 1).proofReady = true →
        ∃ t, exec (.startupStepDone ok l) s = .next t ∧ startStep t = 10) ∧
      (startStep s = 10 → ∃ t, exec (.startupStepDone ok l) s = .next t ∧ t.flag rst ready = true ∧ startStep t = 0 ∧
        proofMode t 0 = false ∧ proofMode t 1 = false ∧ t.streams = s.streams)) ∧
    (∀ d, d < 2 → let zeroed := s.flag (resetPage d) Fld.RST_STATUS.bulk_ready
      (s.flag (resetPage d) ready = false ∨ zeroed = true → exec (.bulkZeroDone d) s = .next s) ∧
      (s.flag (resetPage d) ready = true → zeroed = false → ∃ t, exec (.bulkZeroDone d) s = .next t ∧
        t.flag (resetPage d) Fld.RST_STATUS.bulk_ready = true ∧ t.mem = s.mem ∧ t.units = s.units ∧
        (s.flag (resetPage (1 - d)) Fld.RST_STATUS.bulk_ready = true → bit (t.regN (rst + 0x20)) 1 = true))) ∧
    (∀ a b, s.mzm.restarting = false ∨ s.power.vin = 0 ∨ mzmPulses s.mzm.pulses = true → exec (.muzomusStart a b) s = .next s) ∧
    (∀ a b, s.mzm.restarting = true → s.power.vin ≠ 0 → mzmPulses s.mzm.pulses = false → s.mzm.secure ≤ s.mzm.bankA.security → ∃ t, exec (.muzomusStart a b) s = .next t ∧
      t.mzm.restarting = false ∧ (a = true ∨ s.power.vin = 1 → t.mem = s.mem ∧ t.units = s.units) ∧
      (a = true → b = false → t.flag mzmPage Fld.MZM_STATUS.recovery = false ∧ t.flag mzmPage Fld.MZM_STATUS.bank = false) ∧
      (a = false → b = false → t.flag mzmPage Fld.MZM_STATUS.recovery = true ∧
        (s.power.vin = 2 → t.power.vin = 1 ∧ startStep t = 1 ∧ bits t.mzm.cause 7 0 = 5)))

/-- O51. Register writes of the host: the common registers, PAGE_OWNER, plain registers (R484, R485, R527, R528, R529, R530).
-/
def Obligations.HostRegisterWrites : Prop :=
  ∀ (s : State) (fn off : Nat) (v : Word) (p : Page) (o : Nat), targetOf off = .page p o → p.kind ∉ [.chase, .galley, .muzomus] →
    Admitted s fn → (p.kind = .taster → govBusy s = false) → let b := p.base
    (ownsPage s fn b = true → isPresent p o = true → (regRow p.kind o).isSome = true →
      (o = 0x18 → let e := s.regN (b + 0x18) &&& ((v.toNat &&& 0x803FFFFE) ^^^ 0xFFFFFFFF); let s1 := s.setRegN (b + 0x18) e
        exec (.errStatusClear fn off v) s = .next (if e = 0 then s1.setRegN (b + 0x1C) 0 else s1)) ∧
      (o = 0x20 → exec (.evRawClear fn off v) s = .next (s.setRegN (b + 0x20) (s.regN (b + 0x20) &&& (v.toNat ^^^ 0xFFFFFFFF)))) ∧
      (o = 0x2C → exec (.evForceWrite fn off v) s = .next (raiseMask b v.toNat s)) ∧
      (∀ r, p.kind = .monitor → 0x80 < o → o ≠ 0x90 → regRow p.kind o = some r → exec (.regWrite fn off v) s =
        .next (s.setRegN (b + o) ((s.regN (b + o) &&& (r.rw ^^^ 0xFFFFFFFF)) ||| (v.toNat &&& r.rw))))) ∧
    (o ≠ 0x18 → exec (.errStatusClear fn off v) s = .next s) ∧ (o ≠ 0x20 → exec (.evRawClear fn off v) s = .next s) ∧
    (o ≠ 0x2C → exec (.evForceWrite fn off v) s = .next s) ∧
    (fn = 0 → o = 0x0C → s.flag b Fld.PAGE_OWNER.mgmt = false → unitBusy s p = false →
      exec (.pageOwnerWrite fn off v) s = .next (s.setRegN (b + 0x0C) (bits v.toNat 5 0))) ∧
    (fn = 0 → o = 0x0C → s.flag b Fld.PAGE_OWNER.mgmt = false → unitBusy s p = true → bits v.toNat 5 0 ≠ bits (s.regN (b + 0x0C)) 5 0 →
      exec (.pageOwnerWrite fn off v) s = .next (logStatus b 0x14 s)) ∧
    (fn < 32 → fn ≠ 0 → o = 0x0C → exec (.pageOwnerWrite fn off v) s = .next (refuseAccess fn (b + 0x0C) s))

/-- O52. Stream vectors, the pins and their owners, and completion interrupts (R454, R489, R490, R493, R500, R501). -/
def Obligations.VectorsAndPins : Prop :=
  ∀ (s : State), let own := fun (fn : Nat) => if fn = 32 then 2 else 1
    (s.power.vin = 0 → ∀ p, pinFloats s p = true ∧ (pinLow s p = none ∨ pinLow s p = some false)) ∧
    (s.power.vin = 1 → ∀ p, pinFloats s p = decide (p ≠ .faultN ∧ p ≠ .smbAlertN)) ∧
    (s.power.vin = 2 → pinFloats s .tdo = false ∧ ∀ p, p < 16 → let code := tapIrOf s (p / 8)
      pinFloats s (.iznTx p) = (portState s p == 0 || code == 5) ∧ (code = 0 ∨ code = 4 → pinLow s (.iznRdyN p) = none) ∧
      (code ∉ [0, 4, 5] → pinLow s (.iznRdyN p) = some (portUp s p))) ∧
    (s.power.vin ≠ 0 → pinLow s .faultN = some (!(s.flag mzmPage Fld.MZM_GPIO_STATUS.fault_n)) ∧
      pinLow s .smbAlertN = some (!s.events.isEmpty)) ∧
    (∀ fn off i (v : Word), fn < 32 → Admitted s fn → targetOf off = .vec i → ∃ t, exec (.streamVectorWrite fn off v) s = .next t ∧
      (∀ k, k < 4 → (s.stream (i + k)).owner = fn → SMap.get (fun _ => 0) t.vectors (i + k) = bits v.toNat (8 * k + 5) (8 * k)) ∧
      (∀ j, (s.stream j).owner ≠ fn → SMap.get (fun _ => 0) t.vectors j = SMap.get (fun _ => 0) s.vectors j) ∧
      ((∀ k, k < 4 → (s.stream (i + k)).owner = fn) → t.regs = s.regs) ∧ t.streams = s.streams ∧ t.mem = s.mem ∧ t.units = s.units) ∧
    (∀ fn, fn = 0 ∨ fn = 32 → Admitted s fn → s.mzm.restarting = false →
      ∀ claimer ∈ [(Fld.MZM_GPIO_OWN.wake_owner, Instr.claimWake fn), (Fld.MZM_GPIO_OWN.fault_owner, .claimFault fn)],
        let now := s.fld mzmPage claimer.1
        (now = 0 ∨ now = own fn → exec claimer.2 s = .next (s.setFld mzmPage claimer.1 (own fn))) ∧
        (now ≠ 0 → now ≠ own fn → exec claimer.2 s = .next (logStatus mzmPage 0x14 s))) ∧
    (∀ fn, fn = 0 ∨ fn = 32 → Admitted s fn → s.mzm.restarting = false →
      (s.fld mzmPage Fld.MZM_GPIO_OWN.wake_owner = own fn → exec (.releaseWake fn) s =
        .next (s.setFld mzmPage Fld.MZM_GPIO_OWN.wake_owner 0)) ∧
      (s.fld mzmPage Fld.MZM_GPIO_OWN.wake_owner ≠ own fn → exec (.releaseWake fn) s = .next s) ∧
      (s.fld mzmPage Fld.MZM_GPIO_OWN.fault_owner = own fn → ∃ t, exec (.releaseFault fn) s = .next t ∧
        t.fld mzmPage Fld.MZM_GPIO_OWN.fault_owner = 0 ∧ t.flag mzmPage Fld.MZM_GPIO_OWN.sw_fault = false ∧
        t.flag mzmPage Fld.MZM_GPIO_STATUS.fault_n = (faultSources s == 0) ∧ t.mem = s.mem ∧ t.units = s.units) ∧
      (s.fld mzmPage Fld.MZM_GPIO_OWN.fault_owner ≠ own fn → exec (.releaseFault fn) s = .next s)) ∧
    (∀ level, level = true ∨ s.flag mzmPage Fld.MZM_GPIO_STATUS.wake_n = false →
      exec (.wakePin level) s = .next (s.setFlag mzmPage Fld.MZM_GPIO_STATUS.wake_n level)) ∧
    (s.flag mzmPage Fld.MZM_GPIO_STATUS.wake_n = true → ∃ t, exec (.wakePin false) s = .next t ∧
      t.flag mzmPage Fld.MZM_GPIO_STATUS.wake_n = false ∧ bit (t.regN (mzmPage + 0x20)) 0 = true ∧ t.mem = s.mem ∧ t.units = s.units ∧
      (s.flag mzmPage Fld.MZM_GPIO_OWN.wake_formes = true → ∀ d f, d < 2 → f < 9 →
        formeState s (formePath d f) = 1 ∨ formeState s (formePath d f) = 2 → bit (t.regN (frmOff d f)) 6 = true)) ∧
    (∃ t, exec (.coolantPin false) s = .next t ∧ t.flag mzmPage Fld.MZM_GPIO_STATUS.coolant_n = false ∧ t.mem = s.mem ∧ t.units = s.units ∧
      (s.mzm.coolSaved = none → s.flag mzmPage Fld.MZM_COOLANT_CFG.cool_act = true →
        t.mzm.coolSaved = some (s.regN (powerPage 0 + 0x8C)) ∧
        t.regN (powerPage 0 + 0x8C) = bits (s.fld mzmPage Fld.MZM_COOLANT_CFG.cool_cap) 11 0)) ∧
    (∀ w, s.mzm.coolSaved = some w → ∃ t, exec (.coolantPin true) s = .next t ∧ t.mzm.coolSaved = none ∧
      t.regN (powerPage 0 + 0x8C) = bits w 11 0 ∧ t.mem = s.mem ∧ t.units = s.units) ∧
    (∀ fn vec, vec < 64 → let q := SMap.get (fun _ => (⟨0, 0⟩ : IrqPend)) s.irqs (fn * 64 + vec)
      (q.count = 0 ∨ s.time < q.since + bits (coalOf s fn) 15 0 → exec (.irqHoldoffExpiry fn vec) s = .next s) ∧
      (0 < q.count → q.since + bits (coalOf s fn) 15 0 ≤ s.time → ∃ t, exec (.irqHoldoffExpiry fn vec) s = .next t ∧
        (SMap.get (fun _ => (⟨0, 0⟩ : IrqPend)) t.irqs (fn * 64 + vec)).count = 0 ∧
        (vecHeld s fn vec = false → t.out = s.out ++ [msixMsg s fn vec]) ∧ (vecHeld s fn vec = true → t.out = s.out) ∧ t.mem = s.mem ∧ t.units = s.units))

/-- O53. Register reads, BAR2, configuration requests, Function Level Resets and the link (R263, R273, R471, R479, R480,
R481, R483, R485, R487, R492, R502, R531). -/
def Obligations.HostReadsAndBar2 : Prop :=
  ∀ (s : State) (fn off : Nat), fn < 32 → fnThere s fn = true → heldBehind s fn = false →
    (readOpen s fn off = false → ∀ i ∈ [Instr.loReadLatch fn off, .refusedRead fn off], exec i s = .next (s.send (.regRead fn off 0))) ∧
    (readOpen s fn off = true → mayReadAt s fn off = false →
      ∀ i ∈ [Instr.loReadLatch fn off, .refusedRead fn off], exec i s = .next (refuseRead fn off s)) ∧
    (readOpen s fn off = true → mayReadAt s fn off = true → readEdge off = none → latched s fn off = none → off ∉ loPairs →
      let r := if off ∈ freeCounters ∧ snapShown s = false then advanceFree off s else s
      exec (.refusedRead fn off) s = .next { r.send (.regRead fn off (regView r fn off)) with free := r.free + 1 }) ∧
    (readOpen s fn off = true → mayReadAt s fn off = true → readEdge off = none → off ∈ loPairs → latched s fn off = none →
      ∃ t, exec (.loReadLatch fn off) s = .next t ∧ t.out = s.out ++ [.regRead fn off (regView s fn off)] ∧
        latched t fn (off + 4) = some (regView s fn (off + 4)) ∧ t.regs = s.regs ∧ t.mem = s.mem ∧ t.units = s.units) ∧
    (∀ v, readOpen s fn off = true → mayReadAt s fn off = true → readEdge off = none → off ∉ loPairs → latched s fn off = some v →
      ∃ t, exec (.loReadLatch fn off) s = .next t ∧ t.out = s.out ++ [.regRead fn off v] ∧ latched t fn off = none ∧
        t.regs = s.regs ∧ t.mem = s.mem) ∧
    (∀ (x : Nat) (data : List Byte), let a := bar2Base s fn + x; let n := data.length
      (s.ready = false ∨ bar2Request s fn x n = false → exec (.bar2Write fn x data) s = .next s) ∧
      (s.ready = true → bar2Request s fn x n = true → ∀ st, bar2Fault s fn a n = some st →
        exec (.bar2Write fn x data) s = .next (logBar2 fn x st s)) ∧
      (s.ready = true → bar2Request s fn x n = true → bar2Fault s fn a n = none → s.tiers.regions = [] → s.cask.pend = [] →
        (∀ p ∈ piecesOf s a n, partialBad s p.1 p.2 = false) → ∃ t, exec (.bar2Write fn x data) s = .next t ∧ t.bytes a n = data ∧
          (∀ b, b < a ∨ a + n ≤ b → t.byte b = s.byte b) ∧ t.regs = s.regs ∧ t.units = s.units ∧ t.streams = s.streams)) ∧
    (∀ (x n : Nat), let m := min n 512; let a := bar2Base s fn + x
      (s.ready = false ∨ bar2Request s fn x m = false → exec (.bar2Read fn x n) s =
        .next (s.send (.bar2Read fn x (List.replicate m 0) false))) ∧
      (s.ready = true → bar2Request s fn x m = true → bar2Fault s fn a m = none → s.tiers.regions = [] → s.badIn a m = false →
        exec (.bar2Read fn x n) s = .next ((readDone a m s).send (.bar2Read fn x (s.bytes a m) false)))) ∧
    (∀ c : CfgAccess, (s.ready = false → exec (.configRequest fn c) s = .next (s.send (.config fn c.off none))) ∧
      (s.ready = true → c.wr = false → exec (.configRequest fn c) s = .next
        { s.send (.config fn c.off (some (BitVec.ofNat 32 (configWord s fn c.off)))) with free := s.free + 1 }) ∧
      (s.ready = true → c.wr = true → c.off ≠ 0x80 → c.off ≠ 0x198 ∨ bits c.v.toNat 13 8 < 10 ∨ 16 < bits c.v.toNat 13 8 →
        exec (.configRequest fn c) s = .next (s.send (.config fn c.off (some 0)))) ∧
      (s.ready = true → c.wr = true → c.off = 0x198 → 10 ≤ bits c.v.toNat 13 8 → bits c.v.toNat 13 8 ≤ 16 →
        exec (.configRequest fn c) s = .next ((s.setRegN (cfgKey fn 0x198) (bits c.v.toNat 13 8)).send (.config fn c.off (some 0)))) ∧
      (s.ready = true → c.wr = true → c.off = 0x80 → ∃ t, exec (.configRequest fn c) s = .next t ∧
        t.regN (cfgKey fn 0x80) = c.v.toNat &&& 0xC0000000 ∧ t.mem = s.mem ∧ t.units = s.units ∧ t.streams = s.streams)) ∧
    (∀ f, f < 32 → fnThere s f = false → s.ready = true → ∀ c : CfgAccess, exec (.configRequest f c) s =
      .next (s.send (.config f c.off (some 0xFFFFFFFF)))) ∧
    (0 < fn → streamsOf s fn = [] → ∃ t, exec (.functionLevelReset fn) s = .next t ∧
      t.irqs = s.irqs.filter (fun e => e.1 / 64 != fn) ∧ t.allocs = s.allocs.filter (fun r => r.1 != fn) ∧
      { t with regs := s.regs, irqs := s.irqs, allocs := s.allocs } = s ∧
      let mine := fun (k : Nat) => within k (msixBase fn) 0x1000 = true ∨ within k (cfgKey fn 0) 0x1000 = true ∨ ∃ o ∈ [0x84, 0x88, 0x8C], k = pciePage + o + fn * 2 ^ 28
      ∀ k, (mine k → t.reg k = regReset k) ∧ (¬ mine k → t.reg k = s.reg k)) ∧
    (∀ f, 32 ≤ f ∨ (f ≠ 0 ∧ fnThere s f = false) → exec (.functionLevelReset f) s = .next s) ∧
    (∀ sp w fl, let old := s.regN (pciePage + 0x80); let new := if linkFits s sp w then linkWord sp w fl else old; let s1 := s.setRegN (pciePage + 0x80) new
      exec (.pcieLinkChange 0 sp w fl) s = .next (if bits new 7 0 = bits old 7 0 then s1 else raiseEv pciePage 0 s1)) ∧
    (s.streams = [] → ∀ sp w fl, ∃ t, exec (.pcieLinkChange 1 sp w fl) s = .next t ∧ t.regN (pciePage + 0x80) = 0 ∧
      t.irqs = s.irqs.filter (fun e => decide (2048 ≤ e.1)) ∧ t.streams = [] ∧ t.mem = s.mem ∧ t.units = s.units) ∧
    (∀ k sp w fl, 3 < k → exec (.pcieLinkChange k sp w fl) s = .next s)

/-- O54. Management requests: MCTP control, PLDM base and PLDM monitoring (R436, R437, R474, R475, R494, R495). -/
def Obligations.ManagementReplies : Prop :=
  ∀ (s : State) (ep : Nat), let answers := fun (what : String) (code : Nat) (l : List Nat) => s.send (.mgmt ep what code l)
    let opened := fun (i : Instr) (what : String) (n : Nat) => ∃ l, l.length = n ∧ exec i s = .next (answers what 0 l)
    let mctp := [Instr.setEndpointId ep 8, .getEndpointId ep, .getEndpointUuid ep, .getMctpVersionSupport ep 0, .getMessageTypeSupport ep,
      .queryDeviceIdentifiers ep, .getFirmwareParameters ep, .getStatus ep]
    let pldm := fun (id : Nat) => [Instr.getTid ep, .setTid ep id, .getPldmVersion ep id, .getPldmCommands ep id, .getPldmTypes ep,
      .getPdrRepositoryInfo ep, .getPdr ep id, .getSensorReading ep id, .getStateSensorReadings ep id, .setNumericSensorEnable ep id true,
      .setSensorThresholds ep id 0 0, .setEventReceiver ep id, .pollForPlatformEventMessage ep]
    (mzmUp s = true →
      (∀ e, 8 ≤ e → e ≤ 254 → exec (.setEndpointId ep e) s =
        .next ((s.setFld mzmPage Fld.MZM_STATUS.eid e).send (.mgmt ep "SET_ENDPOINT_ID" 0 [e]))) ∧
      (∀ e, e < 8 ∨ 254 < e → exec (.setEndpointId ep e) s = .next (answers "SET_ENDPOINT_ID" 2 [s.fld mzmPage Fld.MZM_STATUS.eid])) ∧
      exec (.getEndpointId ep) s = .next (answers "GET_ENDPOINT_ID" 0 [s.fld mzmPage Fld.MZM_STATUS.eid]) ∧
      opened (.getEndpointUuid ep) "GET_ENDPOINT_UUID" 1 ∧
      exec (.getMctpVersionSupport ep 0) s = .next (answers "GET_MCTP_VERSION_SUPPORT" 0 [1, 3]) ∧
      (∀ ty, 1 < ty → ty ≠ 0xFF → exec (.getMctpVersionSupport ep ty) s = .next (answers "GET_MCTP_VERSION_SUPPORT" 0x80 [])) ∧
      exec (.getMessageTypeSupport ep) s = .next (answers "GET_MESSAGE_TYPE_SUPPORT" 0 [0, 1]) ∧
      opened (.queryDeviceIdentifiers ep) "QUERY_DEVICE_IDENTIFIERS" 4 ∧
      exec (.getFirmwareParameters ep) s = .next (answers "GET_FIRMWARE_PARAMETERS" 0
        [1, s.mzm.bankA.version, s.mzm.bankB.version, 2, usedGen s])) ∧
    (mzmUp s = true → inRecovery s = false →
      exec (.getTid ep) s = .next (answers "GET_TID" 0 [s.mzm.tid]) ∧
      (∀ n, 1 ≤ n → n ≤ 254 → ∃ t, exec (.setTid ep n) s = .next t ∧ t.mzm = { s.mzm with tid := n } ∧ t.regs = s.regs ∧
        t.out = s.out ++ [.mgmt ep "SET_TID" 0 []] ∧ t.mem = s.mem ∧ t.units = s.units) ∧
      (∀ n, n = 0 ∨ 254 < n → exec (.setTid ep n) s = .next (answers "SET_TID" 2 [])) ∧
      (∀ ty ∈ [0, 2, 5], opened (.getPldmVersion ep ty) "GET_PLDM_VERSION" 1 ∧
        exec (.getPldmCommands ep ty) s = .next (answers "GET_PLDM_COMMANDS" 0 (pldmCommands ty))) ∧
      (∀ ty, ty ∉ [0, 2, 5] → exec (.getPldmVersion ep ty) s = .next (answers "GET_PLDM_VERSION" 0x83 []) ∧
        exec (.getPldmCommands ep ty) s = .next (answers "GET_PLDM_COMMANDS" 0x83 [])) ∧
      (∀ id, id ≠ 0x2000 → sensorOf id = none → exec (.getSensorReading ep id) s = .next (answers "GET_SENSOR_READING" 0x80 []) ∧
        (∀ on, exec (.setNumericSensorEnable ep id on) s = .next (answers "SET_NUMERIC_SENSOR_ENABLE" 0x80 [])) ∧
        (∀ w c, exec (.setSensorThresholds ep id w c) s = .next (answers "SET_SENSOR_THRESHOLDS" 0x80 []))) ∧
      (∀ id, id ≠ 0x2001 → id ≠ 0x2002 →
        exec (.getStateSensorReadings ep id) s = .next (answers "GET_STATE_SENSOR_READINGS" 0x80 [])) ∧
      exec (.getPldmTypes ep) s = .next (answers "GET_PLDM_TYPES" 0 [0, 2, 5]) ∧
      (∃ l, l.length = 8 ∧ exec (.getPdrRepositoryInfo ep) s = .next (answers "GET_PDR_REPOSITORY_INFO" 0 (pdrs.length :: l))) ∧
      (∀ h r, pdrs[max 1 h - 1]? = some r → ∃ l, l.length = 8 ∧ exec (.getPdr ep h) s = .next (answers "GET_PDR" 0
        ([if max 1 h < pdrs.length then max 1 h + 1 else 0, max 1 h] ++ r.fields ++ l))) ∧
      (∀ h, pdrs.length < h → exec (.getPdr ep h) s = .next (answers "GET_PDR" 0x82 [])) ∧
      exec (.getSensorReading ep 0x2000) s = .next (answers "GET_SENSOR_READING" 0
        [if s.mzm.disabled.contains 0x2000 then 1 else 0, s.fld cellarPage Fld.CSK_RISK.risk]) ∧
      (∀ id d n, sensorOf id = some (d, n) → id ≠ 0x2000 → ∃ t op v, exec (.getSensorReading ep id) s = .next t ∧
        t.out = s.out ++ [.mgmt ep "GET_SENSOR_READING" 0 [op, v]] ∧ t.regs = s.regs ∧ t.mem = s.mem ∧
        op = (if s.mzm.disabled.contains id then 1 else if sensorValid s d n then 0 else 2) ∧
        (32 ≤ n → v = toU 32 (sensorValue s d n)) ∧ (n < 32 → sensorValue s d n % 16 = 0 → v = toU 32 (sensorValue s d n / 16 * 25))) ∧
      exec (.getStateSensorReadings ep 0x2001) s = .next (answers "GET_STATE_SENSOR_READINGS" 0
        [if s.flag mzmPage Fld.MZM_GPIO_STATUS.coolant_n then 0 else 1]) ∧
      exec (.getStateSensorReadings ep 0x2002) s = .next (answers "GET_STATE_SENSOR_READINGS" 0 [proofState s 0, proofState s 1]) ∧
      (∀ id on, (sensorOf id).isSome = true → ∃ t, exec (.setNumericSensorEnable ep id on) s = .next t ∧
        t.mzm.disabled = s.mzm.disabled.filter (· != id) ++ (if on then [] else [id]) ∧ t.regs = s.regs ∧ t.mem = s.mem ∧
        t.out = s.out ++ [.mgmt ep "SET_NUMERIC_SENSOR_ENABLE" 0 []]) ∧
      (∀ id d n (w c : Int), sensorOf id = some (d, n) → n < 32 → 0 ≤ w → w ≤ 255 → 0 ≤ c → c ≤ 255 →
        ∃ t, exec (.setSensorThresholds ep id w c) s = .next t ∧ thresholds t d n = (64 * w, 64 * c) ∧ t.mem = s.mem ∧
          t.out = s.out ++ [.mgmt ep "SET_SENSOR_THRESHOLDS" 0 []] ∧ t.mon d = s.mon d) ∧
      (∀ id d n (w c : Int), sensorOf id = some (d, n) → n < 32 → w < 0 ∨ 255 < w ∨ c < 0 ∨ 255 < c →
        exec (.setSensorThresholds ep id w c) s = .next (answers "SET_SENSOR_THRESHOLDS" 2 [])) ∧
      (∀ r, ∃ t, exec (.setEventReceiver ep r) s = .next t ∧ t.mzm = { s.mzm with receiver := some r } ∧ t.regs = s.regs ∧
        t.out = s.out ++ [.mgmt ep "SET_EVENT_RECEIVER" 0 []] ∧ t.mem = s.mem) ∧
      (∀ id st es, s.events = (id, st) :: es → exec (.pollForPlatformEventMessage ep) s =
        .next { answers "POLL_FOR_PLATFORM_EVENT_MESSAGE" 0 [id, st] with events := es }) ∧
      (s.events = [] → exec (.pollForPlatformEventMessage ep) s = .next (answers "POLL_FOR_PLATFORM_EVENT_MESSAGE" 0 []))) ∧
    (mzmUp s = true → inRecovery s = true → ∀ id, ∀ i ∈ pldm id, exec i s = .next s) ∧
    (mzmUp s = false → ∀ id, ∀ i ∈ mctp ++ pldm id, exec i s = .next s)

/-- O55. Firmware updates, and the test access ports (R464, R467, R475, R496, R497, R498, R499). -/
def Obligations.FirmwareAndTestAccess : Prop :=
  ∀ (s : State) (ep : Nat), let answers := fun (what : String) (code : Nat) (l : List Nat) (t : State) => t.send (.mgmt ep what code l)
    let next := fun (what : String) (l : List Nat) (v : Update) => answers what 0 l (setUpdate (some v) s)
    let steps := [(Instr.passComponentTable ep 1, "PASS_COMPONENT_TABLE", [0, 1]), (.updateComponent ep 1 0, "UPDATE_COMPONENT", [1]),
      (.requestFirmwareData ep [], "REQUEST_FIRMWARE_DATA", [2]), (.transferComplete ep true, "TRANSFER_COMPLETE", [2]),
      (.verifyComplete ep, "VERIFY_COMPLETE", [3]), (.applyComplete ep, "APPLY_COMPLETE", [4]),
      (.activateFirmware ep true 0, "ACTIVATE_FIRMWARE", [5]), (.cancelUpdateComponent ep, "CANCEL_UPDATE_COMPONENT", [2, 3, 4])]
    (mzmUp s = true →
      (s.mzm.update.isSome = true → ∀ n, exec (.requestUpdate ep n) s = .next (answers "REQUEST_UPDATE" 0x81 [] s)) ∧
      (s.mzm.update = none → ∀ n, ∃ t, exec (.requestUpdate ep n) s = .next t ∧ t.mzm.update = some ⟨ep, 0, 0, [], 0, n, false⟩ ∧
        t.flag mzmPage Fld.MZM_STATUS.updating = true ∧ t.mem = s.mem ∧ t.units = s.units) ∧
      exec (.getStatus ep) s = .next (answers "GET_STATUS" 0 [updatePhase s] s) ∧
      (updateOf s ep = none → ∀ x ∈ steps, exec x.1 s = .next (answers x.2.1 0x80 [] s)) ∧
      (updateOf s ep = none → exec (.cancelUpdate ep) s = .next (answers "CANCEL_UPDATE" 0x80 [] s)) ∧
      (∀ u, updateOf s ep = some u →
        (∀ x ∈ steps, u.phase ∉ x.2.2 → exec x.1 s = .next (answers x.2.1 0x84 [] s)) ∧
        (u.phase ≤ 1 → ∀ c, c = 1 ∨ c = 2 → exec (.passComponentTable ep c) s = .next (next "PASS_COMPONENT_TABLE" [] { u with phase := 1 })) ∧
        (u.phase = 1 → ∀ c n, c = 1 ∨ c = 2 → exec (.updateComponent ep c n) s = .next (next "UPDATE_COMPONENT" []
          { u with classifier := c, size := n, image := [], phase := 2, verified := false })) ∧
        (u.phase = 2 → ∀ data : List Byte, blockSize u ≤ data.length → exec (.requestFirmwareData ep data) s =
          .next (next "REQUEST_FIRMWARE_DATA" [u.image.length + blockSize u] { u with image := u.image ++ data.take (blockSize u) })) ∧
        (u.phase = 2 → u.image.length = u.size → exec (.transferComplete ep true) s = .next (next "TRANSFER_COMPLETE" [] { u with phase := 3 })) ∧
        (u.phase = 3 → u.classifier = 2 → ∃ t, exec (.verifyComplete ep) s = .next t ∧ t.mem = s.mem ∧
          (imageOk u.image = true → u.image.length = 0x8000 → t.mzm.update = some { u with phase := 4, verified := true }) ∧
          (imageOk u.image = false → t.mzm.update = some { u with phase := 1, verified := false })) ∧
        (u.phase = 4 → pulseBarred s = true → exec (.applyComplete ep) s = .next (answers "APPLY_COMPLETE" 1 [] s)) ∧
        (u.phase = 4 → u.classifier = 2 → pulseBarred s = false → exec (.applyComplete ep) s =
          .next (answers "APPLY_COMPLETE" 0 [] (setUpdate (some { u with phase := 5 }) (applyOptions u.image s)))) ∧
        (u.phase = 4 → u.classifier = 1 → pulseBarred s = false → ∃ t, exec (.applyComplete ep) s = .next t ∧ t.mem = s.mem ∧
          1 ∈ t.mzm.pulses ∧ t.mzm.update = some { u with phase := 5 } ∧
          (s.flag mzmPage Fld.MZM_STATUS.bank = true → t.mzm.bankB = s.mzm.bankB) ∧
          (s.flag mzmPage Fld.MZM_STATUS.bank = false → t.mzm.bankA = s.mzm.bankA)) ∧
        (u.phase = 5 → ∃ t, exec (.activateFirmware ep true 0) s = .next t ∧ t.mzm.update = none ∧ t.mem = s.mem ∧ t.units = s.units ∧
          (u.classifier ≠ 1 → t.mzm = { s.mzm with update := none }) ∧
          (u.classifier = 1 → mzmPulses s.mzm.pulses = false → t.mzm.restarting = true) ∧
          (u.classifier = 1 → mzmPulses s.mzm.pulses = true → t.mzm.restartDue = true ∧ t.mzm.restarting = s.mzm.restarting)) ∧
        (2 ≤ u.phase → u.phase ≤ 4 → exec (.cancelUpdateComponent ep) s = .next (next "CANCEL_UPDATE_COMPONENT" []
          { u with classifier := 0, size := 0, image := [], phase := 1, verified := false })) ∧
        (u.phase ≤ 5 → exec (.cancelUpdate ep) s = .next (answers "CANCEL_UPDATE" 0 [] (setUpdate none s))))) ∧
    (∀ die in0 in1, die < 2 → let d : TapScan := ⟨die, in0, in1⟩
      let tap := fun (i : Instr) (c : Nat) => ∃ t v w, exec i s = .next t ∧ t.out = s.out ++ [.tap (tapIrOf t 0) v (tapIrOf t 1) w] ∧
        tapIrOf t die = c ∧ tapIrOf t (1 - die) = tapIrOf s (1 - die) ∧ (c = 1 → (if die = 0 then v else w) = tapId) ∧
        (c = 0xFF → (if die = 0 then v else w) = 0) ∧ (c ∈ [0, 2, 6, 7] → SMap.get (fun _ => 0) t.mzm.boundary die = if die = 0 then in0 else in1) ∧
        t.regs = s.regs ∧ t.mem = s.mem ∧ t.units = s.units
      let scan := [(Instr.extest d, 0), (.clamp d, 4), (.highz d, 5), (.extestPulse d, 6), (.extestTrain d, 7)]
      (s.power.vin = 2 → tap (.idcode d) 1 ∧ tap (.bypass d) 0xFF ∧ tap (.samplePreload d) 2 ∧
        (scanEnabled s = false → ∀ x ∈ scan, tap x.1 0xFF) ∧ (scanEnabled s = true → ∀ x ∈ scan, tap x.1 x.2)) ∧
      (s.power.vin ≠ 2 → ∀ i ∈ [Instr.idcode d, .bypass d, .samplePreload d, .extest d, .clamp d, .highz d, .extestPulse d, .extestTrain d],
        exec i s = .next s))

/-- O56. A command of a page that the function does not own, or before ready, has no effect of its own (R154, R453, R455,
R483, R485). -/
def Obligations.WritesRefused : Prop :=
  ∀ (s : State) (fn : Nat) (v : Word) (d r : Nat), fn < 32 → d < 2 → heldBehind s fn = false →
    (fnThere s fn = false → ∀ x ∈ (ownerWrites fn v d r).map (·.1) ++ (functionZeroWrites fn v d).map (·.1) ++
      (muzomusWrites fn v).map (·.1), exec x s = .next s) ∧ (fnThere s fn = true →
    (∀ x ∈ ownerWrites fn v d r, (s.ready = false → exec x.1 s = .next s) ∧
      (s.ready = true → ownsPage s fn x.2.1 = false → exec x.1 s = .next (refuseAccess fn (x.2.1 + x.2.2) s))) ∧
    (fn ≠ 0 → ∀ x ∈ functionZeroWrites fn v d, (s.ready = false → exec x.1 s = .next s) ∧
      (s.ready = true → exec x.1 s = .next (refuseAccess fn x.2 s))) ∧
    (∀ x ∈ muzomusWrites fn v, (s.ready = false → exec x.1 s = .next s) ∧ (s.ready = true → exec x.1 s = .next (refuseAccess fn x.2 s))))

/-- O57. With no command waiting a tick passes (the model's choice, log entry 2) (R1, R40, R317, R440, R457). -/
def Obligations.IdleTick : Prop :=
  ∀ (s : State), s.pending = [] →
    (s.power.vin = 0 → Machine.step s = .next s) ∧
    (s.power.vin ≠ 0 → s.edge = [] → UnitsIdle s → (∀ c ∈ s.cores, (s.core c.1).run ≠ .waiting) → s.allocs = [] → s.tabs = [] →
      s.tiers.moves = [] → s.tiers.reqs = [] → s.tiers.limits = [] → ∃ t, Machine.step s = .next t ∧
        (s.regN (routePage + 0xA0) = 0 → s.sync.trimAcc = 0 → s.sync.phase = 0 → t.time = s.time + 1) ∧ s.time ≤ t.time ∧
        t.mem = s.mem ∧ t.units = s.units ∧ t.streams = s.streams ∧ t.ports = s.ports ∧ t.txq = s.txq ∧ t.tiers = s.tiers ∧
        t.gov = s.gov ∧ t.cask = s.cask ∧ t.mzm = s.mzm ∧ t.routes = s.routes ∧ t.ctxs = s.ctxs ∧ t.out = s.out ∧ t.pending = [])

/-- O58. Core reset: what it clears and what it leaves (R152). -/
def Obligations.CoreResetClears : Prop :=
  ∀ (s : State) (fn ch : Nat), Granted s fn (unitPage ch) → formeOn s ch = true → (s.core ch).run ≠ .loading →
    ∃ t, exec (.coreReset fn ch) s = .next t ∧ (∀ n, 1 ≤ n → n ≤ 31 → (t.core ch).reg n = 0) ∧ (t.core ch).pc = 0 ∧
      (t.core ch).inTrap = false ∧ (t.core ch).wd = 0 ∧ (∀ i, i ≤ 15 → (t.core ch).credit i = 0) ∧
      t.mem = s.mem ∧ (t.unit ch).toks = (s.unit ch).toks ∧
      (∀ b, t.reg (unitPage b + 0x108) = s.reg (unitPage b + 0x108)) ∧ t.units = s.units ∧ (t.core ch).outq = (s.core ch).outq

/-- O59. A doorbell write by a function that does not own the stream (R486). -/
def Obligations.DoorbellsOfOthers : Prop :=
  ∀ (s : State) (fn id : Nat) (v : Word), fn < 32 → Admitted s fn → (s.stream id).owner ≠ fn →
    ∀ i ∈ [Instr.sqDoorbell fn id v, .cqDoorbell fn id v], ∃ t, exec i s = .next t ∧
      { t with regs := s.regs, firstErr := s.firstErr } = s ∧
      bit (t.regN (streamPage (streamDie id) + 0x18)) (errBit 0x0B) = true

/-- O60. A write to PTG_LSCALE (R229). -/
def Obligations.LossScaleWrite : Prop :=
  ∀ (s : State) (fn : Nat) (v : Word), Granted s fn govPage → let b := govPage; let k := sx 8 (bits v.toNat 7 0)
    let busy := s.flag b Fld.PTG_STATUS.busy
    let logged := fun (code : Nat) => ∃ t, exec (.lscaleWrite fn v) s = .next t ∧ bit (t.regN (b + 0x18)) (errBit code) = true ∧
      (s.regN (b + 0x18) = 0 → bits (t.regN (b + 0x1C)) 7 0 = code) ∧ { t with regs := s.regs, firstErr := s.firstErr } = s ∧
      t.reg (b + 0x104) = s.reg (b + 0x104) ∧ t.reg (b + 0x108) = s.reg (b + 0x108)
    (busy = true → logged 0x14) ∧ (busy = false → k < -24 ∨ 24 < k → logged 0x02) ∧
    (busy = false → -24 ≤ k → k ≤ 24 → ∃ t, exec (.lscaleWrite fn v) s = .next t ∧ { t with regs := s.regs } = s ∧
      sx 8 (t.fld b Fld.PTG_LSCALE.ls_exp) = k ∧ t.fld b Fld.PTG_LS_GROW.clean = 0 ∧
      ∀ o, o ≠ b + 0x104 → o ≠ b + 0x108 → t.reg o = s.reg o)
end

