-- ==== Sys2Proof/Laws/SMap.lean ====
section
/-! SUPPORT. Laws of the sparse tables: what a read after a write gives, and that writing and filtering keep the canonical form. -/

namespace Sys2Proof

variable {α : Type}

@[simp] theorem SMap.get_nil (d : Nat → α) (k : Nat) : SMap.get d [] k = d k := rfl

theorem SMap.get_insert_same (d : Nat → α) (m : SMap α) (k : Nat) (v : α) : SMap.get d (SMap.insert m k v) k = v := by
  induction m with
  | nil => simp [SMap.insert, SMap.get]
  | cons e m ih =>
    obtain ⟨j, w⟩ := e
    simp only [SMap.insert]
    split
    · simp [SMap.get]
    · split
      · simp [SMap.get]
      · rename_i h
        simp only [SMap.get, if_neg (Ne.symm h)]
        exact ih

theorem SMap.get_insert_ne (d : Nat → α) (m : SMap α) {k j : Nat} (v : α) (h : j ≠ k) :
    SMap.get d (SMap.insert m k v) j = SMap.get d m j := by
  induction m with
  | nil => simp [SMap.insert, SMap.get, Ne.symm h]
  | cons e m ih =>
    obtain ⟨i, w⟩ := e
    simp only [SMap.insert]
    split
    · simp [SMap.get, Ne.symm h]
    · split
      · next hk => subst hk; simp [SMap.get, Ne.symm h]
      · simp only [SMap.get]
        split
        · rfl
        · exact ih

theorem SMap.get_erase_same (d : Nat → α) (m : SMap α) (k : Nat) : SMap.get d (SMap.erase m k) k = d k := by
  induction m with
  | nil => rfl
  | cons e m ih =>
    obtain ⟨j, w⟩ := e
    simp only [SMap.erase]
    split
    · exact ih
    · next h => simp only [SMap.get, if_neg h]; exact ih

theorem SMap.get_erase_ne (d : Nat → α) (m : SMap α) {k j : Nat} (h : j ≠ k) : SMap.get d (SMap.erase m k) j = SMap.get d m j := by
  induction m with
  | nil => rfl
  | cons e m ih =>
    obtain ⟨i, w⟩ := e
    simp only [SMap.erase]
    split
    · next hk => subst hk; simp only [SMap.get, if_neg (Ne.symm h)]; exact ih
    · simp only [SMap.get]
      split
      · rfl
      · exact ih

/-- A key reads as what was written last. -/
@[simp] theorem SMap.get_set_same [DecidableEq α] (d : Nat → α) (m : SMap α) (k : Nat) (v : α) : SMap.get d (SMap.set d m k v) k = v := by
  unfold SMap.set
  split
  · next h => rw [SMap.get_erase_same, h]
  · exact SMap.get_insert_same d m k v

/-- A write leaves every other key alone. -/
theorem SMap.get_set_ne [DecidableEq α] (d : Nat → α) (m : SMap α) {k j : Nat} (v : α) (h : j ≠ k) :
    SMap.get d (SMap.set d m k v) j = SMap.get d m j := by
  unfold SMap.set
  split
  · exact SMap.get_erase_ne d m h
  · exact SMap.get_insert_ne d m v h

theorem SMap.get_set [DecidableEq α] (d : Nat → α) (m : SMap α) (k j : Nat) (v : α) :
    SMap.get d (SMap.set d m k v) j = if j = k then v else SMap.get d m j := by
  split
  · next h => subst h; exact SMap.get_set_same d m j v
  · next h => exact SMap.get_set_ne d m v h

theorem SMap.mem_erase {m : SMap α} {k : Nat} {e : Nat × α} (h : e ∈ SMap.erase m k) : e ∈ m := by
  induction m with
  | nil => exact h
  | cons x m ih =>
    obtain ⟨j, w⟩ := x
    simp only [SMap.erase] at h
    split at h
    · exact List.mem_cons_of_mem _ (ih h)
    · rcases List.mem_cons.1 h with h | h
      · exact h ▸ List.mem_cons_self
      · exact List.mem_cons_of_mem _ (ih h)

theorem SMap.mem_insert {m : SMap α} {k : Nat} {v : α} {e : Nat × α} (h : e ∈ SMap.insert m k v) : e = (k, v) ∨ e ∈ m := by
  induction m with
  | nil => exact Or.inl (List.mem_singleton.1 h)
  | cons x m ih =>
    obtain ⟨j, w⟩ := x
    simp only [SMap.insert] at h
    split at h
    · exact List.mem_cons.1 h
    · split at h
      · exact (List.mem_cons.1 h).imp id (List.mem_cons_of_mem _)
      · rcases List.mem_cons.1 h with h | h
        · exact Or.inr (h ▸ List.mem_cons_self)
        · exact (ih h).imp id (List.mem_cons_of_mem _)

theorem SMap.wf_cons [DecidableEq α] {d : Nat → α} {k : Nat} {v : α} {m : SMap α} :
    SMap.wf d ((k, v) :: m) = true ↔ v ≠ d k ∧ (∀ e ∈ m, k < e.1) ∧ SMap.wf d m = true := by
  simp [SMap.wf, and_assoc]

theorem SMap.wf_erase [DecidableEq α] (d : Nat → α) {m : SMap α} (h : SMap.wf d m = true) (k : Nat) : SMap.wf d (SMap.erase m k) = true := by
  induction m with
  | nil => exact h
  | cons x m ih =>
    obtain ⟨j, w⟩ := x
    obtain ⟨h1, h2, h3⟩ := SMap.wf_cons.1 h
    simp only [SMap.erase]
    split
    · exact ih h3
    · exact SMap.wf_cons.2 ⟨h1, fun e he => h2 e (SMap.mem_erase he), ih h3⟩

theorem SMap.wf_insert [DecidableEq α] (d : Nat → α) {m : SMap α} (h : SMap.wf d m = true) (k : Nat) {v : α} (hv : v ≠ d k) :
    SMap.wf d (SMap.insert m k v) = true := by
  induction m with
  | nil => exact SMap.wf_cons.2 ⟨hv, by simp, rfl⟩
  | cons x m ih =>
    obtain ⟨j, w⟩ := x
    obtain ⟨h1, h2, h3⟩ := SMap.wf_cons.1 h
    simp only [SMap.insert]
    split
    · next hk =>
      refine SMap.wf_cons.2 ⟨hv, fun e he => ?_, h⟩
      rcases List.mem_cons.1 he with he | he
      · exact he ▸ hk
      · exact Nat.lt_trans hk (h2 e he)
    · split
      · next hk => subst hk; exact SMap.wf_cons.2 ⟨hv, h2, h3⟩
      · next hk1 hk2 =>
        refine SMap.wf_cons.2 ⟨h1, fun e he => ?_, ih h3⟩
        rcases SMap.mem_insert he with he | he
        · subst he; exact Nat.lt_of_le_of_ne (Nat.le_of_not_lt hk1) (fun x => hk2 x.symm)
        · exact h2 e he

/-- A write keeps the canonical form. -/
theorem SMap.wf_set [DecidableEq α] (d : Nat → α) {m : SMap α} (h : SMap.wf d m = true) (k : Nat) (v : α) : SMap.wf d (SMap.set d m k v) = true := by
  unfold SMap.set
  split
  · exact SMap.wf_erase d h k
  · next hv => exact SMap.wf_insert d h k hv

/-- Taking entries out keeps the canonical form. -/
theorem SMap.wf_filter [DecidableEq α] (d : Nat → α) {m : SMap α} (h : SMap.wf d m = true) (p : Nat × α → Bool) :
    SMap.wf d (List.filter p m) = true := by
  induction m with
  | nil => exact h
  | cons x m ih =>
    obtain ⟨j, w⟩ := x
    obtain ⟨h1, h2, h3⟩ := SMap.wf_cons.1 h
    simp only [List.filter]
    split
    · exact SMap.wf_cons.2 ⟨h1, fun e he => h2 e ((List.mem_filter.1 he).1), ih h3⟩
    · exact ih h3

end Sys2Proof
end

