-- ==== Sys2Proof/Laws/State.lean ====
section
/-! SUPPORT. What each update of the state leaves alone, field by field, and what a read after a write gives. -/

namespace Sys2Proof.Machine

variable (s : State)

/-! ### `State.setReg` -/

@[simp] theorem State.setReg_pending (off : Nat) (v : Word) : (s.setReg off v).pending = s.pending := (rfl)
@[simp] theorem State.setReg_free (off : Nat) (v : Word) : (s.setReg off v).free = s.free := (rfl)
@[simp] theorem State.setReg_out (off : Nat) (v : Word) : (s.setReg off v).out = s.out := (rfl)
@[simp] theorem State.setReg_time (off : Nat) (v : Word) : (s.setReg off v).time = s.time := (rfl)
@[simp] theorem State.setReg_latch (off : Nat) (v : Word) : (s.setReg off v).latch = s.latch := (rfl)
@[simp] theorem State.setReg_mem (off : Nat) (v : Word) : (s.setReg off v).mem = s.mem := (rfl)
@[simp] theorem State.setReg_ecc (off : Nat) (v : Word) : (s.setReg off v).ecc = s.ecc := (rfl)
@[simp] theorem State.setReg_units (off : Nat) (v : Word) : (s.setReg off v).units = s.units := (rfl)
@[simp] theorem State.setReg_cores (off : Nat) (v : Word) : (s.setReg off v).cores = s.cores := (rfl)
@[simp] theorem State.setReg_arrs (off : Nat) (v : Word) : (s.setReg off v).arrs = s.arrs := (rfl)
@[simp] theorem State.setReg_tabs (off : Nat) (v : Word) : (s.setReg off v).tabs = s.tabs := (rfl)
@[simp] theorem State.setReg_net (off : Nat) (v : Word) : (s.setReg off v).net = s.net := (rfl)
@[simp] theorem State.setReg_tiers (off : Nat) (v : Word) : (s.setReg off v).tiers = s.tiers := (rfl)
@[simp] theorem State.setReg_streams (off : Nat) (v : Word) : (s.setReg off v).streams = s.streams := (rfl)
@[simp] theorem State.setReg_jobs (off : Nat) (v : Word) : (s.setReg off v).jobs = s.jobs := (rfl)
@[simp] theorem State.setReg_firstErr (off : Nat) (v : Word) : (s.setReg off v).firstErr = s.firstErr := (rfl)
@[simp] theorem State.setReg_irqs (off : Nat) (v : Word) : (s.setReg off v).irqs = s.irqs := (rfl)
@[simp] theorem State.setReg_vectors (off : Nat) (v : Word) : (s.setReg off v).vectors = s.vectors := (rfl)
@[simp] theorem State.setReg_events (off : Nat) (v : Word) : (s.setReg off v).events = s.events := (rfl)
@[simp] theorem State.setReg_routes (off : Nat) (v : Word) : (s.setReg off v).routes = s.routes := (rfl)
@[simp] theorem State.setReg_hyds (off : Nat) (v : Word) : (s.setReg off v).hyds = s.hyds := (rfl)
@[simp] theorem State.setReg_gov (off : Nat) (v : Word) : (s.setReg off v).gov = s.gov := (rfl)
@[simp] theorem State.setReg_ctxs (off : Nat) (v : Word) : (s.setReg off v).ctxs = s.ctxs := (rfl)
@[simp] theorem State.setReg_psets (off : Nat) (v : Word) : (s.setReg off v).psets = s.psets := (rfl)
@[simp] theorem State.setReg_maps (off : Nat) (v : Word) : (s.setReg off v).maps = s.maps := (rfl)
@[simp] theorem State.setReg_loop (off : Nat) (v : Word) : (s.setReg off v).loop = s.loop := (rfl)
@[simp] theorem State.setReg_txq (off : Nat) (v : Word) : (s.setReg off v).txq = s.txq := (rfl)
@[simp] theorem State.setReg_outst (off : Nat) (v : Word) : (s.setReg off v).outst = s.outst := (rfl)
@[simp] theorem State.setReg_owed (off : Nat) (v : Word) : (s.setReg off v).owed = s.owed := (rfl)
@[simp] theorem State.setReg_stopped (off : Nat) (v : Word) : (s.setReg off v).stopped = s.stopped := (rfl)
@[simp] theorem State.setReg_cask (off : Nat) (v : Word) : (s.setReg off v).cask = s.cask := (rfl)
@[simp] theorem State.setReg_trq (off : Nat) (v : Word) : (s.setReg off v).trq = s.trq := (rfl)
@[simp] theorem State.setReg_trw (off : Nat) (v : Word) : (s.setReg off v).trw = s.trw := (rfl)
@[simp] theorem State.setReg_hang (off : Nat) (v : Word) : (s.setReg off v).hang = s.hang := (rfl)
@[simp] theorem State.setReg_snap (off : Nat) (v : Word) : (s.setReg off v).snap = s.snap := (rfl)
@[simp] theorem State.setReg_snapAt (off : Nat) (v : Word) : (s.setReg off v).snapAt = s.snapAt := (rfl)
@[simp] theorem State.setReg_edge (off : Nat) (v : Word) : (s.setReg off v).edge = s.edge := (rfl)
@[simp] theorem State.setReg_wakeAt (off : Nat) (v : Word) : (s.setReg off v).wakeAt = s.wakeAt := (rfl)
@[simp] theorem State.setReg_wakeFrom (off : Nat) (v : Word) : (s.setReg off v).wakeFrom = s.wakeFrom := (rfl)
@[simp] theorem State.setReg_brgRun (off : Nat) (v : Word) : (s.setReg off v).brgRun = s.brgRun := (rfl)
@[simp] theorem State.setReg_served (off : Nat) (v : Word) : (s.setReg off v).served = s.served := (rfl)
@[simp] theorem State.setReg_allocs (off : Nat) (v : Word) : (s.setReg off v).allocs = s.allocs := (rfl)
@[simp] theorem State.setReg_recNo (off : Nat) (v : Word) : (s.setReg off v).recNo = s.recNo := (rfl)
@[simp] theorem State.setReg_recAt (off : Nat) (v : Word) : (s.setReg off v).recAt = s.recAt := (rfl)
@[simp] theorem State.setReg_ports (off : Nat) (v : Word) : (s.setReg off v).ports = s.ports := (rfl)
@[simp] theorem State.setReg_sync (off : Nat) (v : Word) : (s.setReg off v).sync = s.sync := (rfl)
@[simp] theorem State.setReg_mons (off : Nat) (v : Word) : (s.setReg off v).mons = s.mons := (rfl)
@[simp] theorem State.setReg_cols (off : Nat) (v : Word) : (s.setReg off v).cols = s.cols := (rfl)
@[simp] theorem State.setReg_power (off : Nat) (v : Word) : (s.setReg off v).power = s.power := (rfl)
@[simp] theorem State.setReg_mzm (off : Nat) (v : Word) : (s.setReg off v).mzm = s.mzm := (rfl)

/-! ### `State.setRegN` -/

@[simp] theorem State.setRegN_pending (off v : Nat) : (s.setRegN off v).pending = s.pending := (rfl)
@[simp] theorem State.setRegN_free (off v : Nat) : (s.setRegN off v).free = s.free := (rfl)
@[simp] theorem State.setRegN_out (off v : Nat) : (s.setRegN off v).out = s.out := (rfl)
@[simp] theorem State.setRegN_time (off v : Nat) : (s.setRegN off v).time = s.time := (rfl)
@[simp] theorem State.setRegN_latch (off v : Nat) : (s.setRegN off v).latch = s.latch := (rfl)
@[simp] theorem State.setRegN_mem (off v : Nat) : (s.setRegN off v).mem = s.mem := (rfl)
@[simp] theorem State.setRegN_ecc (off v : Nat) : (s.setRegN off v).ecc = s.ecc := (rfl)
@[simp] theorem State.setRegN_units (off v : Nat) : (s.setRegN off v).units = s.units := (rfl)
@[simp] theorem State.setRegN_cores (off v : Nat) : (s.setRegN off v).cores = s.cores := (rfl)
@[simp] theorem State.setRegN_arrs (off v : Nat) : (s.setRegN off v).arrs = s.arrs := (rfl)
@[simp] theorem State.setRegN_tabs (off v : Nat) : (s.setRegN off v).tabs = s.tabs := (rfl)
@[simp] theorem State.setRegN_net (off v : Nat) : (s.setRegN off v).net = s.net := (rfl)
@[simp] theorem State.setRegN_tiers (off v : Nat) : (s.setRegN off v).tiers = s.tiers := (rfl)
@[simp] theorem State.setRegN_streams (off v : Nat) : (s.setRegN off v).streams = s.streams := (rfl)
@[simp] theorem State.setRegN_jobs (off v : Nat) : (s.setRegN off v).jobs = s.jobs := (rfl)
@[simp] theorem State.setRegN_firstErr (off v : Nat) : (s.setRegN off v).firstErr = s.firstErr := (rfl)
@[simp] theorem State.setRegN_irqs (off v : Nat) : (s.setRegN off v).irqs = s.irqs := (rfl)
@[simp] theorem State.setRegN_vectors (off v : Nat) : (s.setRegN off v).vectors = s.vectors := (rfl)
@[simp] theorem State.setRegN_events (off v : Nat) : (s.setRegN off v).events = s.events := (rfl)
@[simp] theorem State.setRegN_routes (off v : Nat) : (s.setRegN off v).routes = s.routes := (rfl)
@[simp] theorem State.setRegN_hyds (off v : Nat) : (s.setRegN off v).hyds = s.hyds := (rfl)
@[simp] theorem State.setRegN_gov (off v : Nat) : (s.setRegN off v).gov = s.gov := (rfl)
@[simp] theorem State.setRegN_ctxs (off v : Nat) : (s.setRegN off v).ctxs = s.ctxs := (rfl)
@[simp] theorem State.setRegN_psets (off v : Nat) : (s.setRegN off v).psets = s.psets := (rfl)
@[simp] theorem State.setRegN_maps (off v : Nat) : (s.setRegN off v).maps = s.maps := (rfl)
@[simp] theorem State.setRegN_loop (off v : Nat) : (s.setRegN off v).loop = s.loop := (rfl)
@[simp] theorem State.setRegN_txq (off v : Nat) : (s.setRegN off v).txq = s.txq := (rfl)
@[simp] theorem State.setRegN_outst (off v : Nat) : (s.setRegN off v).outst = s.outst := (rfl)
@[simp] theorem State.setRegN_owed (off v : Nat) : (s.setRegN off v).owed = s.owed := (rfl)
@[simp] theorem State.setRegN_stopped (off v : Nat) : (s.setRegN off v).stopped = s.stopped := (rfl)
@[simp] theorem State.setRegN_cask (off v : Nat) : (s.setRegN off v).cask = s.cask := (rfl)
@[simp] theorem State.setRegN_trq (off v : Nat) : (s.setRegN off v).trq = s.trq := (rfl)
@[simp] theorem State.setRegN_trw (off v : Nat) : (s.setRegN off v).trw = s.trw := (rfl)
@[simp] theorem State.setRegN_hang (off v : Nat) : (s.setRegN off v).hang = s.hang := (rfl)
@[simp] theorem State.setRegN_snap (off v : Nat) : (s.setRegN off v).snap = s.snap := (rfl)
@[simp] theorem State.setRegN_snapAt (off v : Nat) : (s.setRegN off v).snapAt = s.snapAt := (rfl)
@[simp] theorem State.setRegN_edge (off v : Nat) : (s.setRegN off v).edge = s.edge := (rfl)
@[simp] theorem State.setRegN_wakeAt (off v : Nat) : (s.setRegN off v).wakeAt = s.wakeAt := (rfl)
@[simp] theorem State.setRegN_wakeFrom (off v : Nat) : (s.setRegN off v).wakeFrom = s.wakeFrom := (rfl)
@[simp] theorem State.setRegN_brgRun (off v : Nat) : (s.setRegN off v).brgRun = s.brgRun := (rfl)
@[simp] theorem State.setRegN_served (off v : Nat) : (s.setRegN off v).served = s.served := (rfl)
@[simp] theorem State.setRegN_allocs (off v : Nat) : (s.setRegN off v).allocs = s.allocs := (rfl)
@[simp] theorem State.setRegN_recNo (off v : Nat) : (s.setRegN off v).recNo = s.recNo := (rfl)
@[simp] theorem State.setRegN_recAt (off v : Nat) : (s.setRegN off v).recAt = s.recAt := (rfl)
@[simp] theorem State.setRegN_ports (off v : Nat) : (s.setRegN off v).ports = s.ports := (rfl)
@[simp] theorem State.setRegN_sync (off v : Nat) : (s.setRegN off v).sync = s.sync := (rfl)
@[simp] theorem State.setRegN_mons (off v : Nat) : (s.setRegN off v).mons = s.mons := (rfl)
@[simp] theorem State.setRegN_cols (off v : Nat) : (s.setRegN off v).cols = s.cols := (rfl)
@[simp] theorem State.setRegN_power (off v : Nat) : (s.setRegN off v).power = s.power := (rfl)
@[simp] theorem State.setRegN_mzm (off v : Nat) : (s.setRegN off v).mzm = s.mzm := (rfl)

/-! ### `State.setFld` -/

@[simp] theorem State.setFld_pending (base : Nat) (f : Fld) (v : Nat) : (s.setFld base f v).pending = s.pending := (rfl)
@[simp] theorem State.setFld_free (base : Nat) (f : Fld) (v : Nat) : (s.setFld base f v).free = s.free := (rfl)
@[simp] theorem State.setFld_out (base : Nat) (f : Fld) (v : Nat) : (s.setFld base f v).out = s.out := (rfl)
@[simp] theorem State.setFld_time (base : Nat) (f : Fld) (v : Nat) : (s.setFld base f v).time = s.time := (rfl)
@[simp] theorem State.setFld_latch (base : Nat) (f : Fld) (v : Nat) : (s.setFld base f v).latch = s.latch := (rfl)
@[simp] theorem State.setFld_mem (base : Nat) (f : Fld) (v : Nat) : (s.setFld base f v).mem = s.mem := (rfl)
@[simp] theorem State.setFld_ecc (base : Nat) (f : Fld) (v : Nat) : (s.setFld base f v).ecc = s.ecc := (rfl)
@[simp] theorem State.setFld_units (base : Nat) (f : Fld) (v : Nat) : (s.setFld base f v).units = s.units := (rfl)
@[simp] theorem State.setFld_cores (base : Nat) (f : Fld) (v : Nat) : (s.setFld base f v).cores = s.cores := (rfl)
@[simp] theorem State.setFld_arrs (base : Nat) (f : Fld) (v : Nat) : (s.setFld base f v).arrs = s.arrs := (rfl)
@[simp] theorem State.setFld_tabs (base : Nat) (f : Fld) (v : Nat) : (s.setFld base f v).tabs = s.tabs := (rfl)
@[simp] theorem State.setFld_net (base : Nat) (f : Fld) (v : Nat) : (s.setFld base f v).net = s.net := (rfl)
@[simp] theorem State.setFld_tiers (base : Nat) (f : Fld) (v : Nat) : (s.setFld base f v).tiers = s.tiers := (rfl)
@[simp] theorem State.setFld_streams (base : Nat) (f : Fld) (v : Nat) : (s.setFld base f v).streams = s.streams := (rfl)
@[simp] theorem State.setFld_jobs (base : Nat) (f : Fld) (v : Nat) : (s.setFld base f v).jobs = s.jobs := (rfl)
@[simp] theorem State.setFld_firstErr (base : Nat) (f : Fld) (v : Nat) : (s.setFld base f v).firstErr = s.firstErr := (rfl)
@[simp] theorem State.setFld_irqs (base : Nat) (f : Fld) (v : Nat) : (s.setFld base f v).irqs = s.irqs := (rfl)
@[simp] theorem State.setFld_vectors (base : Nat) (f : Fld) (v : Nat) : (s.setFld base f v).vectors = s.vectors := (rfl)
@[simp] theorem State.setFld_events (base : Nat) (f : Fld) (v : Nat) : (s.setFld base f v).events = s.events := (rfl)
@[simp] theorem State.setFld_routes (base : Nat) (f : Fld) (v : Nat) : (s.setFld base f v).routes = s.routes := (rfl)
@[simp] theorem State.setFld_hyds (base : Nat) (f : Fld) (v : Nat) : (s.setFld base f v).hyds = s.hyds := (rfl)
@[simp] theorem State.setFld_gov (base : Nat) (f : Fld) (v : Nat) : (s.setFld base f v).gov = s.gov := (rfl)
@[simp] theorem State.setFld_ctxs (base : Nat) (f : Fld) (v : Nat) : (s.setFld base f v).ctxs = s.ctxs := (rfl)
@[simp] theorem State.setFld_psets (base : Nat) (f : Fld) (v : Nat) : (s.setFld base f v).psets = s.psets := (rfl)
@[simp] theorem State.setFld_maps (base : Nat) (f : Fld) (v : Nat) : (s.setFld base f v).maps = s.maps := (rfl)
@[simp] theorem State.setFld_loop (base : Nat) (f : Fld) (v : Nat) : (s.setFld base f v).loop = s.loop := (rfl)
@[simp] theorem State.setFld_txq (base : Nat) (f : Fld) (v : Nat) : (s.setFld base f v).txq = s.txq := (rfl)
@[simp] theorem State.setFld_outst (base : Nat) (f : Fld) (v : Nat) : (s.setFld base f v).outst = s.outst := (rfl)
@[simp] theorem State.setFld_owed (base : Nat) (f : Fld) (v : Nat) : (s.setFld base f v).owed = s.owed := (rfl)
@[simp] theorem State.setFld_stopped (base : Nat) (f : Fld) (v : Nat) : (s.setFld base f v).stopped = s.stopped := (rfl)
@[simp] theorem State.setFld_cask (base : Nat) (f : Fld) (v : Nat) : (s.setFld base f v).cask = s.cask := (rfl)
@[simp] theorem State.setFld_trq (base : Nat) (f : Fld) (v : Nat) : (s.setFld base f v).trq = s.trq := (rfl)
@[simp] theorem State.setFld_trw (base : Nat) (f : Fld) (v : Nat) : (s.setFld base f v).trw = s.trw := (rfl)
@[simp] theorem State.setFld_hang (base : Nat) (f : Fld) (v : Nat) : (s.setFld base f v).hang = s.hang := (rfl)
@[simp] theorem State.setFld_snap (base : Nat) (f : Fld) (v : Nat) : (s.setFld base f v).snap = s.snap := (rfl)
@[simp] theorem State.setFld_snapAt (base : Nat) (f : Fld) (v : Nat) : (s.setFld base f v).snapAt = s.snapAt := (rfl)
@[simp] theorem State.setFld_edge (base : Nat) (f : Fld) (v : Nat) : (s.setFld base f v).edge = s.edge := (rfl)
@[simp] theorem State.setFld_wakeAt (base : Nat) (f : Fld) (v : Nat) : (s.setFld base f v).wakeAt = s.wakeAt := (rfl)
@[simp] theorem State.setFld_wakeFrom (base : Nat) (f : Fld) (v : Nat) : (s.setFld base f v).wakeFrom = s.wakeFrom := (rfl)
@[simp] theorem State.setFld_brgRun (base : Nat) (f : Fld) (v : Nat) : (s.setFld base f v).brgRun = s.brgRun := (rfl)
@[simp] theorem State.setFld_served (base : Nat) (f : Fld) (v : Nat) : (s.setFld base f v).served = s.served := (rfl)
@[simp] theorem State.setFld_allocs (base : Nat) (f : Fld) (v : Nat) : (s.setFld base f v).allocs = s.allocs := (rfl)
@[simp] theorem State.setFld_recNo (base : Nat) (f : Fld) (v : Nat) : (s.setFld base f v).recNo = s.recNo := (rfl)
@[simp] theorem State.setFld_recAt (base : Nat) (f : Fld) (v : Nat) : (s.setFld base f v).recAt = s.recAt := (rfl)
@[simp] theorem State.setFld_ports (base : Nat) (f : Fld) (v : Nat) : (s.setFld base f v).ports = s.ports := (rfl)
@[simp] theorem State.setFld_sync (base : Nat) (f : Fld) (v : Nat) : (s.setFld base f v).sync = s.sync := (rfl)
@[simp] theorem State.setFld_mons (base : Nat) (f : Fld) (v : Nat) : (s.setFld base f v).mons = s.mons := (rfl)
@[simp] theorem State.setFld_cols (base : Nat) (f : Fld) (v : Nat) : (s.setFld base f v).cols = s.cols := (rfl)
@[simp] theorem State.setFld_power (base : Nat) (f : Fld) (v : Nat) : (s.setFld base f v).power = s.power := (rfl)
@[simp] theorem State.setFld_mzm (base : Nat) (f : Fld) (v : Nat) : (s.setFld base f v).mzm = s.mzm := (rfl)

/-! ### `State.setFlag` -/

@[simp] theorem State.setFlag_pending (base : Nat) (f : Fld) (b : Bool) : (s.setFlag base f b).pending = s.pending := (rfl)
@[simp] theorem State.setFlag_free (base : Nat) (f : Fld) (b : Bool) : (s.setFlag base f b).free = s.free := (rfl)
@[simp] theorem State.setFlag_out (base : Nat) (f : Fld) (b : Bool) : (s.setFlag base f b).out = s.out := (rfl)
@[simp] theorem State.setFlag_time (base : Nat) (f : Fld) (b : Bool) : (s.setFlag base f b).time = s.time := (rfl)
@[simp] theorem State.setFlag_latch (base : Nat) (f : Fld) (b : Bool) : (s.setFlag base f b).latch = s.latch := (rfl)
@[simp] theorem State.setFlag_mem (base : Nat) (f : Fld) (b : Bool) : (s.setFlag base f b).mem = s.mem := (rfl)
@[simp] theorem State.setFlag_ecc (base : Nat) (f : Fld) (b : Bool) : (s.setFlag base f b).ecc = s.ecc := (rfl)
@[simp] theorem State.setFlag_units (base : Nat) (f : Fld) (b : Bool) : (s.setFlag base f b).units = s.units := (rfl)
@[simp] theorem State.setFlag_cores (base : Nat) (f : Fld) (b : Bool) : (s.setFlag base f b).cores = s.cores := (rfl)
@[simp] theorem State.setFlag_arrs (base : Nat) (f : Fld) (b : Bool) : (s.setFlag base f b).arrs = s.arrs := (rfl)
@[simp] theorem State.setFlag_tabs (base : Nat) (f : Fld) (b : Bool) : (s.setFlag base f b).tabs = s.tabs := (rfl)
@[simp] theorem State.setFlag_net (base : Nat) (f : Fld) (b : Bool) : (s.setFlag base f b).net = s.net := (rfl)
@[simp] theorem State.setFlag_tiers (base : Nat) (f : Fld) (b : Bool) : (s.setFlag base f b).tiers = s.tiers := (rfl)
@[simp] theorem State.setFlag_streams (base : Nat) (f : Fld) (b : Bool) : (s.setFlag base f b).streams = s.streams := (rfl)
@[simp] theorem State.setFlag_jobs (base : Nat) (f : Fld) (b : Bool) : (s.setFlag base f b).jobs = s.jobs := (rfl)
@[simp] theorem State.setFlag_firstErr (base : Nat) (f : Fld) (b : Bool) : (s.setFlag base f b).firstErr = s.firstErr := (rfl)
@[simp] theorem State.setFlag_irqs (base : Nat) (f : Fld) (b : Bool) : (s.setFlag base f b).irqs = s.irqs := (rfl)
@[simp] theorem State.setFlag_vectors (base : Nat) (f : Fld) (b : Bool) : (s.setFlag base f b).vectors = s.vectors := (rfl)
@[simp] theorem State.setFlag_events (base : Nat) (f : Fld) (b : Bool) : (s.setFlag base f b).events = s.events := (rfl)
@[simp] theorem State.setFlag_routes (base : Nat) (f : Fld) (b : Bool) : (s.setFlag base f b).routes = s.routes := (rfl)
@[simp] theorem State.setFlag_hyds (base : Nat) (f : Fld) (b : Bool) : (s.setFlag base f b).hyds = s.hyds := (rfl)
@[simp] theorem State.setFlag_gov (base : Nat) (f : Fld) (b : Bool) : (s.setFlag base f b).gov = s.gov := (rfl)
@[simp] theorem State.setFlag_ctxs (base : Nat) (f : Fld) (b : Bool) : (s.setFlag base f b).ctxs = s.ctxs := (rfl)
@[simp] theorem State.setFlag_psets (base : Nat) (f : Fld) (b : Bool) : (s.setFlag base f b).psets = s.psets := (rfl)
@[simp] theorem State.setFlag_maps (base : Nat) (f : Fld) (b : Bool) : (s.setFlag base f b).maps = s.maps := (rfl)
@[simp] theorem State.setFlag_loop (base : Nat) (f : Fld) (b : Bool) : (s.setFlag base f b).loop = s.loop := (rfl)
@[simp] theorem State.setFlag_txq (base : Nat) (f : Fld) (b : Bool) : (s.setFlag base f b).txq = s.txq := (rfl)
@[simp] theorem State.setFlag_outst (base : Nat) (f : Fld) (b : Bool) : (s.setFlag base f b).outst = s.outst := (rfl)
@[simp] theorem State.setFlag_owed (base : Nat) (f : Fld) (b : Bool) : (s.setFlag base f b).owed = s.owed := (rfl)
@[simp] theorem State.setFlag_stopped (base : Nat) (f : Fld) (b : Bool) : (s.setFlag base f b).stopped = s.stopped := (rfl)
@[simp] theorem State.setFlag_cask (base : Nat) (f : Fld) (b : Bool) : (s.setFlag base f b).cask = s.cask := (rfl)
@[simp] theorem State.setFlag_trq (base : Nat) (f : Fld) (b : Bool) : (s.setFlag base f b).trq = s.trq := (rfl)
@[simp] theorem State.setFlag_trw (base : Nat) (f : Fld) (b : Bool) : (s.setFlag base f b).trw = s.trw := (rfl)
@[simp] theorem State.setFlag_hang (base : Nat) (f : Fld) (b : Bool) : (s.setFlag base f b).hang = s.hang := (rfl)
@[simp] theorem State.setFlag_snap (base : Nat) (f : Fld) (b : Bool) : (s.setFlag base f b).snap = s.snap := (rfl)
@[simp] theorem State.setFlag_snapAt (base : Nat) (f : Fld) (b : Bool) : (s.setFlag base f b).snapAt = s.snapAt := (rfl)
@[simp] theorem State.setFlag_edge (base : Nat) (f : Fld) (b : Bool) : (s.setFlag base f b).edge = s.edge := (rfl)
@[simp] theorem State.setFlag_wakeAt (base : Nat) (f : Fld) (b : Bool) : (s.setFlag base f b).wakeAt = s.wakeAt := (rfl)
@[simp] theorem State.setFlag_wakeFrom (base : Nat) (f : Fld) (b : Bool) : (s.setFlag base f b).wakeFrom = s.wakeFrom := (rfl)
@[simp] theorem State.setFlag_brgRun (base : Nat) (f : Fld) (b : Bool) : (s.setFlag base f b).brgRun = s.brgRun := (rfl)
@[simp] theorem State.setFlag_served (base : Nat) (f : Fld) (b : Bool) : (s.setFlag base f b).served = s.served := (rfl)
@[simp] theorem State.setFlag_allocs (base : Nat) (f : Fld) (b : Bool) : (s.setFlag base f b).allocs = s.allocs := (rfl)
@[simp] theorem State.setFlag_recNo (base : Nat) (f : Fld) (b : Bool) : (s.setFlag base f b).recNo = s.recNo := (rfl)
@[simp] theorem State.setFlag_recAt (base : Nat) (f : Fld) (b : Bool) : (s.setFlag base f b).recAt = s.recAt := (rfl)
@[simp] theorem State.setFlag_ports (base : Nat) (f : Fld) (b : Bool) : (s.setFlag base f b).ports = s.ports := (rfl)
@[simp] theorem State.setFlag_sync (base : Nat) (f : Fld) (b : Bool) : (s.setFlag base f b).sync = s.sync := (rfl)
@[simp] theorem State.setFlag_mons (base : Nat) (f : Fld) (b : Bool) : (s.setFlag base f b).mons = s.mons := (rfl)
@[simp] theorem State.setFlag_cols (base : Nat) (f : Fld) (b : Bool) : (s.setFlag base f b).cols = s.cols := (rfl)
@[simp] theorem State.setFlag_power (base : Nat) (f : Fld) (b : Bool) : (s.setFlag base f b).power = s.power := (rfl)
@[simp] theorem State.setFlag_mzm (base : Nat) (f : Fld) (b : Bool) : (s.setFlag base f b).mzm = s.mzm := (rfl)

/-! ### `State.setReg64` -/

@[simp] theorem State.setReg64_pending (off v : Nat) : (s.setReg64 off v).pending = s.pending := (rfl)
@[simp] theorem State.setReg64_free (off v : Nat) : (s.setReg64 off v).free = s.free := (rfl)
@[simp] theorem State.setReg64_out (off v : Nat) : (s.setReg64 off v).out = s.out := (rfl)
@[simp] theorem State.setReg64_time (off v : Nat) : (s.setReg64 off v).time = s.time := (rfl)
@[simp] theorem State.setReg64_latch (off v : Nat) : (s.setReg64 off v).latch = s.latch := (rfl)
@[simp] theorem State.setReg64_mem (off v : Nat) : (s.setReg64 off v).mem = s.mem := (rfl)
@[simp] theorem State.setReg64_ecc (off v : Nat) : (s.setReg64 off v).ecc = s.ecc := (rfl)
@[simp] theorem State.setReg64_units (off v : Nat) : (s.setReg64 off v).units = s.units := (rfl)
@[simp] theorem State.setReg64_cores (off v : Nat) : (s.setReg64 off v).cores = s.cores := (rfl)
@[simp] theorem State.setReg64_arrs (off v : Nat) : (s.setReg64 off v).arrs = s.arrs := (rfl)
@[simp] theorem State.setReg64_tabs (off v : Nat) : (s.setReg64 off v).tabs = s.tabs := (rfl)
@[simp] theorem State.setReg64_net (off v : Nat) : (s.setReg64 off v).net = s.net := (rfl)
@[simp] theorem State.setReg64_tiers (off v : Nat) : (s.setReg64 off v).tiers = s.tiers := (rfl)
@[simp] theorem State.setReg64_streams (off v : Nat) : (s.setReg64 off v).streams = s.streams := (rfl)
@[simp] theorem State.setReg64_jobs (off v : Nat) : (s.setReg64 off v).jobs = s.jobs := (rfl)
@[simp] theorem State.setReg64_firstErr (off v : Nat) : (s.setReg64 off v).firstErr = s.firstErr := (rfl)
@[simp] theorem State.setReg64_irqs (off v : Nat) : (s.setReg64 off v).irqs = s.irqs := (rfl)
@[simp] theorem State.setReg64_vectors (off v : Nat) : (s.setReg64 off v).vectors = s.vectors := (rfl)
@[simp] theorem State.setReg64_events (off v : Nat) : (s.setReg64 off v).events = s.events := (rfl)
@[simp] theorem State.setReg64_routes (off v : Nat) : (s.setReg64 off v).routes = s.routes := (rfl)
@[simp] theorem State.setReg64_hyds (off v : Nat) : (s.setReg64 off v).hyds = s.hyds := (rfl)
@[simp] theorem State.setReg64_gov (off v : Nat) : (s.setReg64 off v).gov = s.gov := (rfl)
@[simp] theorem State.setReg64_ctxs (off v : Nat) : (s.setReg64 off v).ctxs = s.ctxs := (rfl)
@[simp] theorem State.setReg64_psets (off v : Nat) : (s.setReg64 off v).psets = s.psets := (rfl)
@[simp] theorem State.setReg64_maps (off v : Nat) : (s.setReg64 off v).maps = s.maps := (rfl)
@[simp] theorem State.setReg64_loop (off v : Nat) : (s.setReg64 off v).loop = s.loop := (rfl)
@[simp] theorem State.setReg64_txq (off v : Nat) : (s.setReg64 off v).txq = s.txq := (rfl)
@[simp] theorem State.setReg64_outst (off v : Nat) : (s.setReg64 off v).outst = s.outst := (rfl)
@[simp] theorem State.setReg64_owed (off v : Nat) : (s.setReg64 off v).owed = s.owed := (rfl)
@[simp] theorem State.setReg64_stopped (off v : Nat) : (s.setReg64 off v).stopped = s.stopped := (rfl)
@[simp] theorem State.setReg64_cask (off v : Nat) : (s.setReg64 off v).cask = s.cask := (rfl)
@[simp] theorem State.setReg64_trq (off v : Nat) : (s.setReg64 off v).trq = s.trq := (rfl)
@[simp] theorem State.setReg64_trw (off v : Nat) : (s.setReg64 off v).trw = s.trw := (rfl)
@[simp] theorem State.setReg64_hang (off v : Nat) : (s.setReg64 off v).hang = s.hang := (rfl)
@[simp] theorem State.setReg64_snap (off v : Nat) : (s.setReg64 off v).snap = s.snap := (rfl)
@[simp] theorem State.setReg64_snapAt (off v : Nat) : (s.setReg64 off v).snapAt = s.snapAt := (rfl)
@[simp] theorem State.setReg64_edge (off v : Nat) : (s.setReg64 off v).edge = s.edge := (rfl)
@[simp] theorem State.setReg64_wakeAt (off v : Nat) : (s.setReg64 off v).wakeAt = s.wakeAt := (rfl)
@[simp] theorem State.setReg64_wakeFrom (off v : Nat) : (s.setReg64 off v).wakeFrom = s.wakeFrom := (rfl)
@[simp] theorem State.setReg64_brgRun (off v : Nat) : (s.setReg64 off v).brgRun = s.brgRun := (rfl)
@[simp] theorem State.setReg64_served (off v : Nat) : (s.setReg64 off v).served = s.served := (rfl)
@[simp] theorem State.setReg64_allocs (off v : Nat) : (s.setReg64 off v).allocs = s.allocs := (rfl)
@[simp] theorem State.setReg64_recNo (off v : Nat) : (s.setReg64 off v).recNo = s.recNo := (rfl)
@[simp] theorem State.setReg64_recAt (off v : Nat) : (s.setReg64 off v).recAt = s.recAt := (rfl)
@[simp] theorem State.setReg64_ports (off v : Nat) : (s.setReg64 off v).ports = s.ports := (rfl)
@[simp] theorem State.setReg64_sync (off v : Nat) : (s.setReg64 off v).sync = s.sync := (rfl)
@[simp] theorem State.setReg64_mons (off v : Nat) : (s.setReg64 off v).mons = s.mons := (rfl)
@[simp] theorem State.setReg64_cols (off v : Nat) : (s.setReg64 off v).cols = s.cols := (rfl)
@[simp] theorem State.setReg64_power (off v : Nat) : (s.setReg64 off v).power = s.power := (rfl)
@[simp] theorem State.setReg64_mzm (off v : Nat) : (s.setReg64 off v).mzm = s.mzm := (rfl)

/-! ### `State.bump` -/

@[simp] theorem State.bump_pending (base i n : Nat) : (s.bump base i n).pending = s.pending := (rfl)
@[simp] theorem State.bump_free (base i n : Nat) : (s.bump base i n).free = s.free := (rfl)
@[simp] theorem State.bump_out (base i n : Nat) : (s.bump base i n).out = s.out := (rfl)
@[simp] theorem State.bump_time (base i n : Nat) : (s.bump base i n).time = s.time := (rfl)
@[simp] theorem State.bump_latch (base i n : Nat) : (s.bump base i n).latch = s.latch := (rfl)
@[simp] theorem State.bump_mem (base i n : Nat) : (s.bump base i n).mem = s.mem := (rfl)
@[simp] theorem State.bump_ecc (base i n : Nat) : (s.bump base i n).ecc = s.ecc := (rfl)
@[simp] theorem State.bump_units (base i n : Nat) : (s.bump base i n).units = s.units := (rfl)
@[simp] theorem State.bump_cores (base i n : Nat) : (s.bump base i n).cores = s.cores := (rfl)
@[simp] theorem State.bump_arrs (base i n : Nat) : (s.bump base i n).arrs = s.arrs := (rfl)
@[simp] theorem State.bump_tabs (base i n : Nat) : (s.bump base i n).tabs = s.tabs := (rfl)
@[simp] theorem State.bump_net (base i n : Nat) : (s.bump base i n).net = s.net := (rfl)
@[simp] theorem State.bump_tiers (base i n : Nat) : (s.bump base i n).tiers = s.tiers := (rfl)
@[simp] theorem State.bump_streams (base i n : Nat) : (s.bump base i n).streams = s.streams := (rfl)
@[simp] theorem State.bump_jobs (base i n : Nat) : (s.bump base i n).jobs = s.jobs := (rfl)
@[simp] theorem State.bump_firstErr (base i n : Nat) : (s.bump base i n).firstErr = s.firstErr := (rfl)
@[simp] theorem State.bump_irqs (base i n : Nat) : (s.bump base i n).irqs = s.irqs := (rfl)
@[simp] theorem State.bump_vectors (base i n : Nat) : (s.bump base i n).vectors = s.vectors := (rfl)
@[simp] theorem State.bump_events (base i n : Nat) : (s.bump base i n).events = s.events := (rfl)
@[simp] theorem State.bump_routes (base i n : Nat) : (s.bump base i n).routes = s.routes := (rfl)
@[simp] theorem State.bump_hyds (base i n : Nat) : (s.bump base i n).hyds = s.hyds := (rfl)
@[simp] theorem State.bump_gov (base i n : Nat) : (s.bump base i n).gov = s.gov := (rfl)
@[simp] theorem State.bump_ctxs (base i n : Nat) : (s.bump base i n).ctxs = s.ctxs := (rfl)
@[simp] theorem State.bump_psets (base i n : Nat) : (s.bump base i n).psets = s.psets := (rfl)
@[simp] theorem State.bump_maps (base i n : Nat) : (s.bump base i n).maps = s.maps := (rfl)
@[simp] theorem State.bump_loop (base i n : Nat) : (s.bump base i n).loop = s.loop := (rfl)
@[simp] theorem State.bump_txq (base i n : Nat) : (s.bump base i n).txq = s.txq := (rfl)
@[simp] theorem State.bump_outst (base i n : Nat) : (s.bump base i n).outst = s.outst := (rfl)
@[simp] theorem State.bump_owed (base i n : Nat) : (s.bump base i n).owed = s.owed := (rfl)
@[simp] theorem State.bump_stopped (base i n : Nat) : (s.bump base i n).stopped = s.stopped := (rfl)
@[simp] theorem State.bump_cask (base i n : Nat) : (s.bump base i n).cask = s.cask := (rfl)
@[simp] theorem State.bump_trq (base i n : Nat) : (s.bump base i n).trq = s.trq := (rfl)
@[simp] theorem State.bump_trw (base i n : Nat) : (s.bump base i n).trw = s.trw := (rfl)
@[simp] theorem State.bump_hang (base i n : Nat) : (s.bump base i n).hang = s.hang := (rfl)
@[simp] theorem State.bump_snap (base i n : Nat) : (s.bump base i n).snap = s.snap := (rfl)
@[simp] theorem State.bump_snapAt (base i n : Nat) : (s.bump base i n).snapAt = s.snapAt := (rfl)
@[simp] theorem State.bump_edge (base i n : Nat) : (s.bump base i n).edge = s.edge := (rfl)
@[simp] theorem State.bump_wakeAt (base i n : Nat) : (s.bump base i n).wakeAt = s.wakeAt := (rfl)
@[simp] theorem State.bump_wakeFrom (base i n : Nat) : (s.bump base i n).wakeFrom = s.wakeFrom := (rfl)
@[simp] theorem State.bump_brgRun (base i n : Nat) : (s.bump base i n).brgRun = s.brgRun := (rfl)
@[simp] theorem State.bump_served (base i n : Nat) : (s.bump base i n).served = s.served := (rfl)
@[simp] theorem State.bump_allocs (base i n : Nat) : (s.bump base i n).allocs = s.allocs := (rfl)
@[simp] theorem State.bump_recNo (base i n : Nat) : (s.bump base i n).recNo = s.recNo := (rfl)
@[simp] theorem State.bump_recAt (base i n : Nat) : (s.bump base i n).recAt = s.recAt := (rfl)
@[simp] theorem State.bump_ports (base i n : Nat) : (s.bump base i n).ports = s.ports := (rfl)
@[simp] theorem State.bump_sync (base i n : Nat) : (s.bump base i n).sync = s.sync := (rfl)
@[simp] theorem State.bump_mons (base i n : Nat) : (s.bump base i n).mons = s.mons := (rfl)
@[simp] theorem State.bump_cols (base i n : Nat) : (s.bump base i n).cols = s.cols := (rfl)
@[simp] theorem State.bump_power (base i n : Nat) : (s.bump base i n).power = s.power := (rfl)
@[simp] theorem State.bump_mzm (base i n : Nat) : (s.bump base i n).mzm = s.mzm := (rfl)

/-! ### `State.send` -/

@[simp] theorem State.send_pending (m : Msg) : (s.send m).pending = s.pending := (rfl)
@[simp] theorem State.send_free (m : Msg) : (s.send m).free = s.free := (rfl)
@[simp] theorem State.send_time (m : Msg) : (s.send m).time = s.time := (rfl)
@[simp] theorem State.send_regs (m : Msg) : (s.send m).regs = s.regs := (rfl)
@[simp] theorem State.send_latch (m : Msg) : (s.send m).latch = s.latch := (rfl)
@[simp] theorem State.send_mem (m : Msg) : (s.send m).mem = s.mem := (rfl)
@[simp] theorem State.send_ecc (m : Msg) : (s.send m).ecc = s.ecc := (rfl)
@[simp] theorem State.send_units (m : Msg) : (s.send m).units = s.units := (rfl)
@[simp] theorem State.send_cores (m : Msg) : (s.send m).cores = s.cores := (rfl)
@[simp] theorem State.send_arrs (m : Msg) : (s.send m).arrs = s.arrs := (rfl)
@[simp] theorem State.send_tabs (m : Msg) : (s.send m).tabs = s.tabs := (rfl)
@[simp] theorem State.send_net (m : Msg) : (s.send m).net = s.net := (rfl)
@[simp] theorem State.send_tiers (m : Msg) : (s.send m).tiers = s.tiers := (rfl)
@[simp] theorem State.send_streams (m : Msg) : (s.send m).streams = s.streams := (rfl)
@[simp] theorem State.send_jobs (m : Msg) : (s.send m).jobs = s.jobs := (rfl)
@[simp] theorem State.send_firstErr (m : Msg) : (s.send m).firstErr = s.firstErr := (rfl)
@[simp] theorem State.send_irqs (m : Msg) : (s.send m).irqs = s.irqs := (rfl)
@[simp] theorem State.send_vectors (m : Msg) : (s.send m).vectors = s.vectors := (rfl)
@[simp] theorem State.send_events (m : Msg) : (s.send m).events = s.events := (rfl)
@[simp] theorem State.send_routes (m : Msg) : (s.send m).routes = s.routes := (rfl)
@[simp] theorem State.send_hyds (m : Msg) : (s.send m).hyds = s.hyds := (rfl)
@[simp] theorem State.send_gov (m : Msg) : (s.send m).gov = s.gov := (rfl)
@[simp] theorem State.send_ctxs (m : Msg) : (s.send m).ctxs = s.ctxs := (rfl)
@[simp] theorem State.send_psets (m : Msg) : (s.send m).psets = s.psets := (rfl)
@[simp] theorem State.send_maps (m : Msg) : (s.send m).maps = s.maps := (rfl)
@[simp] theorem State.send_loop (m : Msg) : (s.send m).loop = s.loop := (rfl)
@[simp] theorem State.send_txq (m : Msg) : (s.send m).txq = s.txq := (rfl)
@[simp] theorem State.send_outst (m : Msg) : (s.send m).outst = s.outst := (rfl)
@[simp] theorem State.send_owed (m : Msg) : (s.send m).owed = s.owed := (rfl)
@[simp] theorem State.send_stopped (m : Msg) : (s.send m).stopped = s.stopped := (rfl)
@[simp] theorem State.send_cask (m : Msg) : (s.send m).cask = s.cask := (rfl)
@[simp] theorem State.send_trq (m : Msg) : (s.send m).trq = s.trq := (rfl)
@[simp] theorem State.send_trw (m : Msg) : (s.send m).trw = s.trw := (rfl)
@[simp] theorem State.send_hang (m : Msg) : (s.send m).hang = s.hang := (rfl)
@[simp] theorem State.send_snap (m : Msg) : (s.send m).snap = s.snap := (rfl)
@[simp] theorem State.send_snapAt (m : Msg) : (s.send m).snapAt = s.snapAt := (rfl)
@[simp] theorem State.send_edge (m : Msg) : (s.send m).edge = s.edge := (rfl)
@[simp] theorem State.send_wakeAt (m : Msg) : (s.send m).wakeAt = s.wakeAt := (rfl)
@[simp] theorem State.send_wakeFrom (m : Msg) : (s.send m).wakeFrom = s.wakeFrom := (rfl)
@[simp] theorem State.send_brgRun (m : Msg) : (s.send m).brgRun = s.brgRun := (rfl)
@[simp] theorem State.send_served (m : Msg) : (s.send m).served = s.served := (rfl)
@[simp] theorem State.send_allocs (m : Msg) : (s.send m).allocs = s.allocs := (rfl)
@[simp] theorem State.send_recNo (m : Msg) : (s.send m).recNo = s.recNo := (rfl)
@[simp] theorem State.send_recAt (m : Msg) : (s.send m).recAt = s.recAt := (rfl)
@[simp] theorem State.send_ports (m : Msg) : (s.send m).ports = s.ports := (rfl)
@[simp] theorem State.send_sync (m : Msg) : (s.send m).sync = s.sync := (rfl)
@[simp] theorem State.send_mons (m : Msg) : (s.send m).mons = s.mons := (rfl)
@[simp] theorem State.send_cols (m : Msg) : (s.send m).cols = s.cols := (rfl)
@[simp] theorem State.send_power (m : Msg) : (s.send m).power = s.power := (rfl)
@[simp] theorem State.send_mzm (m : Msg) : (s.send m).mzm = s.mzm := (rfl)

/-! ### `State.setByte` -/

@[simp] theorem State.setByte_pending (a : Nat) (v : BitVec 8) : (s.setByte a v).pending = s.pending := (rfl)
@[simp] theorem State.setByte_free (a : Nat) (v : BitVec 8) : (s.setByte a v).free = s.free := (rfl)
@[simp] theorem State.setByte_out (a : Nat) (v : BitVec 8) : (s.setByte a v).out = s.out := (rfl)
@[simp] theorem State.setByte_time (a : Nat) (v : BitVec 8) : (s.setByte a v).time = s.time := (rfl)
@[simp] theorem State.setByte_regs (a : Nat) (v : BitVec 8) : (s.setByte a v).regs = s.regs := (rfl)
@[simp] theorem State.setByte_latch (a : Nat) (v : BitVec 8) : (s.setByte a v).latch = s.latch := (rfl)
@[simp] theorem State.setByte_ecc (a : Nat) (v : BitVec 8) : (s.setByte a v).ecc = s.ecc := (rfl)
@[simp] theorem State.setByte_units (a : Nat) (v : BitVec 8) : (s.setByte a v).units = s.units := (rfl)
@[simp] theorem State.setByte_cores (a : Nat) (v : BitVec 8) : (s.setByte a v).cores = s.cores := (rfl)
@[simp] theorem State.setByte_arrs (a : Nat) (v : BitVec 8) : (s.setByte a v).arrs = s.arrs := (rfl)
@[simp] theorem State.setByte_tabs (a : Nat) (v : BitVec 8) : (s.setByte a v).tabs = s.tabs := (rfl)
@[simp] theorem State.setByte_net (a : Nat) (v : BitVec 8) : (s.setByte a v).net = s.net := (rfl)
@[simp] theorem State.setByte_tiers (a : Nat) (v : BitVec 8) : (s.setByte a v).tiers = s.tiers := (rfl)
@[simp] theorem State.setByte_streams (a : Nat) (v : BitVec 8) : (s.setByte a v).streams = s.streams := (rfl)
@[simp] theorem State.setByte_jobs (a : Nat) (v : BitVec 8) : (s.setByte a v).jobs = s.jobs := (rfl)
@[simp] theorem State.setByte_firstErr (a : Nat) (v : BitVec 8) : (s.setByte a v).firstErr = s.firstErr := (rfl)
@[simp] theorem State.setByte_irqs (a : Nat) (v : BitVec 8) : (s.setByte a v).irqs = s.irqs := (rfl)
@[simp] theorem State.setByte_vectors (a : Nat) (v : BitVec 8) : (s.setByte a v).vectors = s.vectors := (rfl)
@[simp] theorem State.setByte_events (a : Nat) (v : BitVec 8) : (s.setByte a v).events = s.events := (rfl)
@[simp] theorem State.setByte_routes (a : Nat) (v : BitVec 8) : (s.setByte a v).routes = s.routes := (rfl)
@[simp] theorem State.setByte_hyds (a : Nat) (v : BitVec 8) : (s.setByte a v).hyds = s.hyds := (rfl)
@[simp] theorem State.setByte_gov (a : Nat) (v : BitVec 8) : (s.setByte a v).gov = s.gov := (rfl)
@[simp] theorem State.setByte_ctxs (a : Nat) (v : BitVec 8) : (s.setByte a v).ctxs = s.ctxs := (rfl)
@[simp] theorem State.setByte_psets (a : Nat) (v : BitVec 8) : (s.setByte a v).psets = s.psets := (rfl)
@[simp] theorem State.setByte_maps (a : Nat) (v : BitVec 8) : (s.setByte a v).maps = s.maps := (rfl)
@[simp] theorem State.setByte_loop (a : Nat) (v : BitVec 8) : (s.setByte a v).loop = s.loop := (rfl)
@[simp] theorem State.setByte_txq (a : Nat) (v : BitVec 8) : (s.setByte a v).txq = s.txq := (rfl)
@[simp] theorem State.setByte_outst (a : Nat) (v : BitVec 8) : (s.setByte a v).outst = s.outst := (rfl)
@[simp] theorem State.setByte_owed (a : Nat) (v : BitVec 8) : (s.setByte a v).owed = s.owed := (rfl)
@[simp] theorem State.setByte_stopped (a : Nat) (v : BitVec 8) : (s.setByte a v).stopped = s.stopped := (rfl)
@[simp] theorem State.setByte_cask (a : Nat) (v : BitVec 8) : (s.setByte a v).cask = s.cask := (rfl)
@[simp] theorem State.setByte_trq (a : Nat) (v : BitVec 8) : (s.setByte a v).trq = s.trq := (rfl)
@[simp] theorem State.setByte_trw (a : Nat) (v : BitVec 8) : (s.setByte a v).trw = s.trw := (rfl)
@[simp] theorem State.setByte_hang (a : Nat) (v : BitVec 8) : (s.setByte a v).hang = s.hang := (rfl)
@[simp] theorem State.setByte_snap (a : Nat) (v : BitVec 8) : (s.setByte a v).snap = s.snap := (rfl)
@[simp] theorem State.setByte_snapAt (a : Nat) (v : BitVec 8) : (s.setByte a v).snapAt = s.snapAt := (rfl)
@[simp] theorem State.setByte_edge (a : Nat) (v : BitVec 8) : (s.setByte a v).edge = s.edge := (rfl)
@[simp] theorem State.setByte_wakeAt (a : Nat) (v : BitVec 8) : (s.setByte a v).wakeAt = s.wakeAt := (rfl)
@[simp] theorem State.setByte_wakeFrom (a : Nat) (v : BitVec 8) : (s.setByte a v).wakeFrom = s.wakeFrom := (rfl)
@[simp] theorem State.setByte_brgRun (a : Nat) (v : BitVec 8) : (s.setByte a v).brgRun = s.brgRun := (rfl)
@[simp] theorem State.setByte_served (a : Nat) (v : BitVec 8) : (s.setByte a v).served = s.served := (rfl)
@[simp] theorem State.setByte_allocs (a : Nat) (v : BitVec 8) : (s.setByte a v).allocs = s.allocs := (rfl)
@[simp] theorem State.setByte_recNo (a : Nat) (v : BitVec 8) : (s.setByte a v).recNo = s.recNo := (rfl)
@[simp] theorem State.setByte_recAt (a : Nat) (v : BitVec 8) : (s.setByte a v).recAt = s.recAt := (rfl)
@[simp] theorem State.setByte_ports (a : Nat) (v : BitVec 8) : (s.setByte a v).ports = s.ports := (rfl)
@[simp] theorem State.setByte_sync (a : Nat) (v : BitVec 8) : (s.setByte a v).sync = s.sync := (rfl)
@[simp] theorem State.setByte_mons (a : Nat) (v : BitVec 8) : (s.setByte a v).mons = s.mons := (rfl)
@[simp] theorem State.setByte_cols (a : Nat) (v : BitVec 8) : (s.setByte a v).cols = s.cols := (rfl)
@[simp] theorem State.setByte_power (a : Nat) (v : BitVec 8) : (s.setByte a v).power = s.power := (rfl)
@[simp] theorem State.setByte_mzm (a : Nat) (v : BitVec 8) : (s.setByte a v).mzm = s.mzm := (rfl)

/-! ### `State.setEcc` -/

@[simp] theorem State.setEcc_pending (a v : Nat) : (s.setEcc a v).pending = s.pending := (rfl)
@[simp] theorem State.setEcc_free (a v : Nat) : (s.setEcc a v).free = s.free := (rfl)
@[simp] theorem State.setEcc_out (a v : Nat) : (s.setEcc a v).out = s.out := (rfl)
@[simp] theorem State.setEcc_time (a v : Nat) : (s.setEcc a v).time = s.time := (rfl)
@[simp] theorem State.setEcc_regs (a v : Nat) : (s.setEcc a v).regs = s.regs := (rfl)
@[simp] theorem State.setEcc_latch (a v : Nat) : (s.setEcc a v).latch = s.latch := (rfl)
@[simp] theorem State.setEcc_mem (a v : Nat) : (s.setEcc a v).mem = s.mem := (rfl)
@[simp] theorem State.setEcc_units (a v : Nat) : (s.setEcc a v).units = s.units := (rfl)
@[simp] theorem State.setEcc_cores (a v : Nat) : (s.setEcc a v).cores = s.cores := (rfl)
@[simp] theorem State.setEcc_arrs (a v : Nat) : (s.setEcc a v).arrs = s.arrs := (rfl)
@[simp] theorem State.setEcc_tabs (a v : Nat) : (s.setEcc a v).tabs = s.tabs := (rfl)
@[simp] theorem State.setEcc_net (a v : Nat) : (s.setEcc a v).net = s.net := (rfl)
@[simp] theorem State.setEcc_tiers (a v : Nat) : (s.setEcc a v).tiers = s.tiers := (rfl)
@[simp] theorem State.setEcc_streams (a v : Nat) : (s.setEcc a v).streams = s.streams := (rfl)
@[simp] theorem State.setEcc_jobs (a v : Nat) : (s.setEcc a v).jobs = s.jobs := (rfl)
@[simp] theorem State.setEcc_firstErr (a v : Nat) : (s.setEcc a v).firstErr = s.firstErr := (rfl)
@[simp] theorem State.setEcc_irqs (a v : Nat) : (s.setEcc a v).irqs = s.irqs := (rfl)
@[simp] theorem State.setEcc_vectors (a v : Nat) : (s.setEcc a v).vectors = s.vectors := (rfl)
@[simp] theorem State.setEcc_events (a v : Nat) : (s.setEcc a v).events = s.events := (rfl)
@[simp] theorem State.setEcc_routes (a v : Nat) : (s.setEcc a v).routes = s.routes := (rfl)
@[simp] theorem State.setEcc_hyds (a v : Nat) : (s.setEcc a v).hyds = s.hyds := (rfl)
@[simp] theorem State.setEcc_gov (a v : Nat) : (s.setEcc a v).gov = s.gov := (rfl)
@[simp] theorem State.setEcc_ctxs (a v : Nat) : (s.setEcc a v).ctxs = s.ctxs := (rfl)
@[simp] theorem State.setEcc_psets (a v : Nat) : (s.setEcc a v).psets = s.psets := (rfl)
@[simp] theorem State.setEcc_maps (a v : Nat) : (s.setEcc a v).maps = s.maps := (rfl)
@[simp] theorem State.setEcc_loop (a v : Nat) : (s.setEcc a v).loop = s.loop := (rfl)
@[simp] theorem State.setEcc_txq (a v : Nat) : (s.setEcc a v).txq = s.txq := (rfl)
@[simp] theorem State.setEcc_outst (a v : Nat) : (s.setEcc a v).outst = s.outst := (rfl)
@[simp] theorem State.setEcc_owed (a v : Nat) : (s.setEcc a v).owed = s.owed := (rfl)
@[simp] theorem State.setEcc_stopped (a v : Nat) : (s.setEcc a v).stopped = s.stopped := (rfl)
@[simp] theorem State.setEcc_cask (a v : Nat) : (s.setEcc a v).cask = s.cask := (rfl)
@[simp] theorem State.setEcc_trq (a v : Nat) : (s.setEcc a v).trq = s.trq := (rfl)
@[simp] theorem State.setEcc_trw (a v : Nat) : (s.setEcc a v).trw = s.trw := (rfl)
@[simp] theorem State.setEcc_hang (a v : Nat) : (s.setEcc a v).hang = s.hang := (rfl)
@[simp] theorem State.setEcc_snap (a v : Nat) : (s.setEcc a v).snap = s.snap := (rfl)
@[simp] theorem State.setEcc_snapAt (a v : Nat) : (s.setEcc a v).snapAt = s.snapAt := (rfl)
@[simp] theorem State.setEcc_edge (a v : Nat) : (s.setEcc a v).edge = s.edge := (rfl)
@[simp] theorem State.setEcc_wakeAt (a v : Nat) : (s.setEcc a v).wakeAt = s.wakeAt := (rfl)
@[simp] theorem State.setEcc_wakeFrom (a v : Nat) : (s.setEcc a v).wakeFrom = s.wakeFrom := (rfl)
@[simp] theorem State.setEcc_brgRun (a v : Nat) : (s.setEcc a v).brgRun = s.brgRun := (rfl)
@[simp] theorem State.setEcc_served (a v : Nat) : (s.setEcc a v).served = s.served := (rfl)
@[simp] theorem State.setEcc_allocs (a v : Nat) : (s.setEcc a v).allocs = s.allocs := (rfl)
@[simp] theorem State.setEcc_recNo (a v : Nat) : (s.setEcc a v).recNo = s.recNo := (rfl)
@[simp] theorem State.setEcc_recAt (a v : Nat) : (s.setEcc a v).recAt = s.recAt := (rfl)
@[simp] theorem State.setEcc_ports (a v : Nat) : (s.setEcc a v).ports = s.ports := (rfl)
@[simp] theorem State.setEcc_sync (a v : Nat) : (s.setEcc a v).sync = s.sync := (rfl)
@[simp] theorem State.setEcc_mons (a v : Nat) : (s.setEcc a v).mons = s.mons := (rfl)
@[simp] theorem State.setEcc_cols (a v : Nat) : (s.setEcc a v).cols = s.cols := (rfl)
@[simp] theorem State.setEcc_power (a v : Nat) : (s.setEcc a v).power = s.power := (rfl)
@[simp] theorem State.setEcc_mzm (a v : Nat) : (s.setEcc a v).mzm = s.mzm := (rfl)

/-! ### `State.setUnit` -/

@[simp] theorem State.setUnit_pending (p : Nat) (u : UnitSt) : (s.setUnit p u).pending = s.pending := (rfl)
@[simp] theorem State.setUnit_free (p : Nat) (u : UnitSt) : (s.setUnit p u).free = s.free := (rfl)
@[simp] theorem State.setUnit_out (p : Nat) (u : UnitSt) : (s.setUnit p u).out = s.out := (rfl)
@[simp] theorem State.setUnit_time (p : Nat) (u : UnitSt) : (s.setUnit p u).time = s.time := (rfl)
@[simp] theorem State.setUnit_regs (p : Nat) (u : UnitSt) : (s.setUnit p u).regs = s.regs := (rfl)
@[simp] theorem State.setUnit_latch (p : Nat) (u : UnitSt) : (s.setUnit p u).latch = s.latch := (rfl)
@[simp] theorem State.setUnit_mem (p : Nat) (u : UnitSt) : (s.setUnit p u).mem = s.mem := (rfl)
@[simp] theorem State.setUnit_ecc (p : Nat) (u : UnitSt) : (s.setUnit p u).ecc = s.ecc := (rfl)
@[simp] theorem State.setUnit_cores (p : Nat) (u : UnitSt) : (s.setUnit p u).cores = s.cores := (rfl)
@[simp] theorem State.setUnit_arrs (p : Nat) (u : UnitSt) : (s.setUnit p u).arrs = s.arrs := (rfl)
@[simp] theorem State.setUnit_tabs (p : Nat) (u : UnitSt) : (s.setUnit p u).tabs = s.tabs := (rfl)
@[simp] theorem State.setUnit_net (p : Nat) (u : UnitSt) : (s.setUnit p u).net = s.net := (rfl)
@[simp] theorem State.setUnit_tiers (p : Nat) (u : UnitSt) : (s.setUnit p u).tiers = s.tiers := (rfl)
@[simp] theorem State.setUnit_streams (p : Nat) (u : UnitSt) : (s.setUnit p u).streams = s.streams := (rfl)
@[simp] theorem State.setUnit_jobs (p : Nat) (u : UnitSt) : (s.setUnit p u).jobs = s.jobs := (rfl)
@[simp] theorem State.setUnit_firstErr (p : Nat) (u : UnitSt) : (s.setUnit p u).firstErr = s.firstErr := (rfl)
@[simp] theorem State.setUnit_irqs (p : Nat) (u : UnitSt) : (s.setUnit p u).irqs = s.irqs := (rfl)
@[simp] theorem State.setUnit_vectors (p : Nat) (u : UnitSt) : (s.setUnit p u).vectors = s.vectors := (rfl)
@[simp] theorem State.setUnit_events (p : Nat) (u : UnitSt) : (s.setUnit p u).events = s.events := (rfl)
@[simp] theorem State.setUnit_routes (p : Nat) (u : UnitSt) : (s.setUnit p u).routes = s.routes := (rfl)
@[simp] theorem State.setUnit_hyds (p : Nat) (u : UnitSt) : (s.setUnit p u).hyds = s.hyds := (rfl)
@[simp] theorem State.setUnit_gov (p : Nat) (u : UnitSt) : (s.setUnit p u).gov = s.gov := (rfl)
@[simp] theorem State.setUnit_ctxs (p : Nat) (u : UnitSt) : (s.setUnit p u).ctxs = s.ctxs := (rfl)
@[simp] theorem State.setUnit_psets (p : Nat) (u : UnitSt) : (s.setUnit p u).psets = s.psets := (rfl)
@[simp] theorem State.setUnit_maps (p : Nat) (u : UnitSt) : (s.setUnit p u).maps = s.maps := (rfl)
@[simp] theorem State.setUnit_loop (p : Nat) (u : UnitSt) : (s.setUnit p u).loop = s.loop := (rfl)
@[simp] theorem State.setUnit_txq (p : Nat) (u : UnitSt) : (s.setUnit p u).txq = s.txq := (rfl)
@[simp] theorem State.setUnit_outst (p : Nat) (u : UnitSt) : (s.setUnit p u).outst = s.outst := (rfl)
@[simp] theorem State.setUnit_owed (p : Nat) (u : UnitSt) : (s.setUnit p u).owed = s.owed := (rfl)
@[simp] theorem State.setUnit_stopped (p : Nat) (u : UnitSt) : (s.setUnit p u).stopped = s.stopped := (rfl)
@[simp] theorem State.setUnit_cask (p : Nat) (u : UnitSt) : (s.setUnit p u).cask = s.cask := (rfl)
@[simp] theorem State.setUnit_trq (p : Nat) (u : UnitSt) : (s.setUnit p u).trq = s.trq := (rfl)
@[simp] theorem State.setUnit_trw (p : Nat) (u : UnitSt) : (s.setUnit p u).trw = s.trw := (rfl)
@[simp] theorem State.setUnit_hang (p : Nat) (u : UnitSt) : (s.setUnit p u).hang = s.hang := (rfl)
@[simp] theorem State.setUnit_snap (p : Nat) (u : UnitSt) : (s.setUnit p u).snap = s.snap := (rfl)
@[simp] theorem State.setUnit_snapAt (p : Nat) (u : UnitSt) : (s.setUnit p u).snapAt = s.snapAt := (rfl)
@[simp] theorem State.setUnit_edge (p : Nat) (u : UnitSt) : (s.setUnit p u).edge = s.edge := (rfl)
@[simp] theorem State.setUnit_wakeAt (p : Nat) (u : UnitSt) : (s.setUnit p u).wakeAt = s.wakeAt := (rfl)
@[simp] theorem State.setUnit_wakeFrom (p : Nat) (u : UnitSt) : (s.setUnit p u).wakeFrom = s.wakeFrom := (rfl)
@[simp] theorem State.setUnit_brgRun (p : Nat) (u : UnitSt) : (s.setUnit p u).brgRun = s.brgRun := (rfl)
@[simp] theorem State.setUnit_served (p : Nat) (u : UnitSt) : (s.setUnit p u).served = s.served := (rfl)
@[simp] theorem State.setUnit_allocs (p : Nat) (u : UnitSt) : (s.setUnit p u).allocs = s.allocs := (rfl)
@[simp] theorem State.setUnit_recNo (p : Nat) (u : UnitSt) : (s.setUnit p u).recNo = s.recNo := (rfl)
@[simp] theorem State.setUnit_recAt (p : Nat) (u : UnitSt) : (s.setUnit p u).recAt = s.recAt := (rfl)
@[simp] theorem State.setUnit_ports (p : Nat) (u : UnitSt) : (s.setUnit p u).ports = s.ports := (rfl)
@[simp] theorem State.setUnit_sync (p : Nat) (u : UnitSt) : (s.setUnit p u).sync = s.sync := (rfl)
@[simp] theorem State.setUnit_mons (p : Nat) (u : UnitSt) : (s.setUnit p u).mons = s.mons := (rfl)
@[simp] theorem State.setUnit_cols (p : Nat) (u : UnitSt) : (s.setUnit p u).cols = s.cols := (rfl)
@[simp] theorem State.setUnit_power (p : Nat) (u : UnitSt) : (s.setUnit p u).power = s.power := (rfl)
@[simp] theorem State.setUnit_mzm (p : Nat) (u : UnitSt) : (s.setUnit p u).mzm = s.mzm := (rfl)

/-! ### `State.setQ` -/

@[simp] theorem State.setQ_pending (u : Nat) (q : List QEnt) : (s.setQ u q).pending = s.pending := (rfl)
@[simp] theorem State.setQ_free (u : Nat) (q : List QEnt) : (s.setQ u q).free = s.free := (rfl)
@[simp] theorem State.setQ_out (u : Nat) (q : List QEnt) : (s.setQ u q).out = s.out := (rfl)
@[simp] theorem State.setQ_time (u : Nat) (q : List QEnt) : (s.setQ u q).time = s.time := (rfl)
@[simp] theorem State.setQ_regs (u : Nat) (q : List QEnt) : (s.setQ u q).regs = s.regs := (rfl)
@[simp] theorem State.setQ_latch (u : Nat) (q : List QEnt) : (s.setQ u q).latch = s.latch := (rfl)
@[simp] theorem State.setQ_mem (u : Nat) (q : List QEnt) : (s.setQ u q).mem = s.mem := (rfl)
@[simp] theorem State.setQ_ecc (u : Nat) (q : List QEnt) : (s.setQ u q).ecc = s.ecc := (rfl)
@[simp] theorem State.setQ_cores (u : Nat) (q : List QEnt) : (s.setQ u q).cores = s.cores := (rfl)
@[simp] theorem State.setQ_arrs (u : Nat) (q : List QEnt) : (s.setQ u q).arrs = s.arrs := (rfl)
@[simp] theorem State.setQ_tabs (u : Nat) (q : List QEnt) : (s.setQ u q).tabs = s.tabs := (rfl)
@[simp] theorem State.setQ_net (u : Nat) (q : List QEnt) : (s.setQ u q).net = s.net := (rfl)
@[simp] theorem State.setQ_tiers (u : Nat) (q : List QEnt) : (s.setQ u q).tiers = s.tiers := (rfl)
@[simp] theorem State.setQ_streams (u : Nat) (q : List QEnt) : (s.setQ u q).streams = s.streams := (rfl)
@[simp] theorem State.setQ_jobs (u : Nat) (q : List QEnt) : (s.setQ u q).jobs = s.jobs := (rfl)
@[simp] theorem State.setQ_firstErr (u : Nat) (q : List QEnt) : (s.setQ u q).firstErr = s.firstErr := (rfl)
@[simp] theorem State.setQ_irqs (u : Nat) (q : List QEnt) : (s.setQ u q).irqs = s.irqs := (rfl)
@[simp] theorem State.setQ_vectors (u : Nat) (q : List QEnt) : (s.setQ u q).vectors = s.vectors := (rfl)
@[simp] theorem State.setQ_events (u : Nat) (q : List QEnt) : (s.setQ u q).events = s.events := (rfl)
@[simp] theorem State.setQ_routes (u : Nat) (q : List QEnt) : (s.setQ u q).routes = s.routes := (rfl)
@[simp] theorem State.setQ_hyds (u : Nat) (q : List QEnt) : (s.setQ u q).hyds = s.hyds := (rfl)
@[simp] theorem State.setQ_gov (u : Nat) (q : List QEnt) : (s.setQ u q).gov = s.gov := (rfl)
@[simp] theorem State.setQ_ctxs (u : Nat) (q : List QEnt) : (s.setQ u q).ctxs = s.ctxs := (rfl)
@[simp] theorem State.setQ_psets (u : Nat) (q : List QEnt) : (s.setQ u q).psets = s.psets := (rfl)
@[simp] theorem State.setQ_maps (u : Nat) (q : List QEnt) : (s.setQ u q).maps = s.maps := (rfl)
@[simp] theorem State.setQ_loop (u : Nat) (q : List QEnt) : (s.setQ u q).loop = s.loop := (rfl)
@[simp] theorem State.setQ_txq (u : Nat) (q : List QEnt) : (s.setQ u q).txq = s.txq := (rfl)
@[simp] theorem State.setQ_outst (u : Nat) (q : List QEnt) : (s.setQ u q).outst = s.outst := (rfl)
@[simp] theorem State.setQ_owed (u : Nat) (q : List QEnt) : (s.setQ u q).owed = s.owed := (rfl)
@[simp] theorem State.setQ_stopped (u : Nat) (q : List QEnt) : (s.setQ u q).stopped = s.stopped := (rfl)
@[simp] theorem State.setQ_cask (u : Nat) (q : List QEnt) : (s.setQ u q).cask = s.cask := (rfl)
@[simp] theorem State.setQ_trq (u : Nat) (q : List QEnt) : (s.setQ u q).trq = s.trq := (rfl)
@[simp] theorem State.setQ_trw (u : Nat) (q : List QEnt) : (s.setQ u q).trw = s.trw := (rfl)
@[simp] theorem State.setQ_hang (u : Nat) (q : List QEnt) : (s.setQ u q).hang = s.hang := (rfl)
@[simp] theorem State.setQ_snap (u : Nat) (q : List QEnt) : (s.setQ u q).snap = s.snap := (rfl)
@[simp] theorem State.setQ_snapAt (u : Nat) (q : List QEnt) : (s.setQ u q).snapAt = s.snapAt := (rfl)
@[simp] theorem State.setQ_edge (u : Nat) (q : List QEnt) : (s.setQ u q).edge = s.edge := (rfl)
@[simp] theorem State.setQ_wakeAt (u : Nat) (q : List QEnt) : (s.setQ u q).wakeAt = s.wakeAt := (rfl)
@[simp] theorem State.setQ_wakeFrom (u : Nat) (q : List QEnt) : (s.setQ u q).wakeFrom = s.wakeFrom := (rfl)
@[simp] theorem State.setQ_brgRun (u : Nat) (q : List QEnt) : (s.setQ u q).brgRun = s.brgRun := (rfl)
@[simp] theorem State.setQ_served (u : Nat) (q : List QEnt) : (s.setQ u q).served = s.served := (rfl)
@[simp] theorem State.setQ_allocs (u : Nat) (q : List QEnt) : (s.setQ u q).allocs = s.allocs := (rfl)
@[simp] theorem State.setQ_recNo (u : Nat) (q : List QEnt) : (s.setQ u q).recNo = s.recNo := (rfl)
@[simp] theorem State.setQ_recAt (u : Nat) (q : List QEnt) : (s.setQ u q).recAt = s.recAt := (rfl)
@[simp] theorem State.setQ_ports (u : Nat) (q : List QEnt) : (s.setQ u q).ports = s.ports := (rfl)
@[simp] theorem State.setQ_sync (u : Nat) (q : List QEnt) : (s.setQ u q).sync = s.sync := (rfl)
@[simp] theorem State.setQ_mons (u : Nat) (q : List QEnt) : (s.setQ u q).mons = s.mons := (rfl)
@[simp] theorem State.setQ_cols (u : Nat) (q : List QEnt) : (s.setQ u q).cols = s.cols := (rfl)
@[simp] theorem State.setQ_power (u : Nat) (q : List QEnt) : (s.setQ u q).power = s.power := (rfl)
@[simp] theorem State.setQ_mzm (u : Nat) (q : List QEnt) : (s.setQ u q).mzm = s.mzm := (rfl)

/-! ### `State.setCore` -/

@[simp] theorem State.setCore_pending (p : Nat) (c : CoreSt) : (s.setCore p c).pending = s.pending := (rfl)
@[simp] theorem State.setCore_free (p : Nat) (c : CoreSt) : (s.setCore p c).free = s.free := (rfl)
@[simp] theorem State.setCore_out (p : Nat) (c : CoreSt) : (s.setCore p c).out = s.out := (rfl)
@[simp] theorem State.setCore_time (p : Nat) (c : CoreSt) : (s.setCore p c).time = s.time := (rfl)
@[simp] theorem State.setCore_regs (p : Nat) (c : CoreSt) : (s.setCore p c).regs = s.regs := (rfl)
@[simp] theorem State.setCore_latch (p : Nat) (c : CoreSt) : (s.setCore p c).latch = s.latch := (rfl)
@[simp] theorem State.setCore_mem (p : Nat) (c : CoreSt) : (s.setCore p c).mem = s.mem := (rfl)
@[simp] theorem State.setCore_ecc (p : Nat) (c : CoreSt) : (s.setCore p c).ecc = s.ecc := (rfl)
@[simp] theorem State.setCore_units (p : Nat) (c : CoreSt) : (s.setCore p c).units = s.units := (rfl)
@[simp] theorem State.setCore_arrs (p : Nat) (c : CoreSt) : (s.setCore p c).arrs = s.arrs := (rfl)
@[simp] theorem State.setCore_tabs (p : Nat) (c : CoreSt) : (s.setCore p c).tabs = s.tabs := (rfl)
@[simp] theorem State.setCore_net (p : Nat) (c : CoreSt) : (s.setCore p c).net = s.net := (rfl)
@[simp] theorem State.setCore_tiers (p : Nat) (c : CoreSt) : (s.setCore p c).tiers = s.tiers := (rfl)
@[simp] theorem State.setCore_streams (p : Nat) (c : CoreSt) : (s.setCore p c).streams = s.streams := (rfl)
@[simp] theorem State.setCore_jobs (p : Nat) (c : CoreSt) : (s.setCore p c).jobs = s.jobs := (rfl)
@[simp] theorem State.setCore_firstErr (p : Nat) (c : CoreSt) : (s.setCore p c).firstErr = s.firstErr := (rfl)
@[simp] theorem State.setCore_irqs (p : Nat) (c : CoreSt) : (s.setCore p c).irqs = s.irqs := (rfl)
@[simp] theorem State.setCore_vectors (p : Nat) (c : CoreSt) : (s.setCore p c).vectors = s.vectors := (rfl)
@[simp] theorem State.setCore_events (p : Nat) (c : CoreSt) : (s.setCore p c).events = s.events := (rfl)
@[simp] theorem State.setCore_routes (p : Nat) (c : CoreSt) : (s.setCore p c).routes = s.routes := (rfl)
@[simp] theorem State.setCore_hyds (p : Nat) (c : CoreSt) : (s.setCore p c).hyds = s.hyds := (rfl)
@[simp] theorem State.setCore_gov (p : Nat) (c : CoreSt) : (s.setCore p c).gov = s.gov := (rfl)
@[simp] theorem State.setCore_ctxs (p : Nat) (c : CoreSt) : (s.setCore p c).ctxs = s.ctxs := (rfl)
@[simp] theorem State.setCore_psets (p : Nat) (c : CoreSt) : (s.setCore p c).psets = s.psets := (rfl)
@[simp] theorem State.setCore_maps (p : Nat) (c : CoreSt) : (s.setCore p c).maps = s.maps := (rfl)
@[simp] theorem State.setCore_loop (p : Nat) (c : CoreSt) : (s.setCore p c).loop = s.loop := (rfl)
@[simp] theorem State.setCore_txq (p : Nat) (c : CoreSt) : (s.setCore p c).txq = s.txq := (rfl)
@[simp] theorem State.setCore_outst (p : Nat) (c : CoreSt) : (s.setCore p c).outst = s.outst := (rfl)
@[simp] theorem State.setCore_owed (p : Nat) (c : CoreSt) : (s.setCore p c).owed = s.owed := (rfl)
@[simp] theorem State.setCore_stopped (p : Nat) (c : CoreSt) : (s.setCore p c).stopped = s.stopped := (rfl)
@[simp] theorem State.setCore_cask (p : Nat) (c : CoreSt) : (s.setCore p c).cask = s.cask := (rfl)
@[simp] theorem State.setCore_trq (p : Nat) (c : CoreSt) : (s.setCore p c).trq = s.trq := (rfl)
@[simp] theorem State.setCore_trw (p : Nat) (c : CoreSt) : (s.setCore p c).trw = s.trw := (rfl)
@[simp] theorem State.setCore_hang (p : Nat) (c : CoreSt) : (s.setCore p c).hang = s.hang := (rfl)
@[simp] theorem State.setCore_snap (p : Nat) (c : CoreSt) : (s.setCore p c).snap = s.snap := (rfl)
@[simp] theorem State.setCore_snapAt (p : Nat) (c : CoreSt) : (s.setCore p c).snapAt = s.snapAt := (rfl)
@[simp] theorem State.setCore_edge (p : Nat) (c : CoreSt) : (s.setCore p c).edge = s.edge := (rfl)
@[simp] theorem State.setCore_wakeAt (p : Nat) (c : CoreSt) : (s.setCore p c).wakeAt = s.wakeAt := (rfl)
@[simp] theorem State.setCore_wakeFrom (p : Nat) (c : CoreSt) : (s.setCore p c).wakeFrom = s.wakeFrom := (rfl)
@[simp] theorem State.setCore_brgRun (p : Nat) (c : CoreSt) : (s.setCore p c).brgRun = s.brgRun := (rfl)
@[simp] theorem State.setCore_served (p : Nat) (c : CoreSt) : (s.setCore p c).served = s.served := (rfl)
@[simp] theorem State.setCore_allocs (p : Nat) (c : CoreSt) : (s.setCore p c).allocs = s.allocs := (rfl)
@[simp] theorem State.setCore_recNo (p : Nat) (c : CoreSt) : (s.setCore p c).recNo = s.recNo := (rfl)
@[simp] theorem State.setCore_recAt (p : Nat) (c : CoreSt) : (s.setCore p c).recAt = s.recAt := (rfl)
@[simp] theorem State.setCore_ports (p : Nat) (c : CoreSt) : (s.setCore p c).ports = s.ports := (rfl)
@[simp] theorem State.setCore_sync (p : Nat) (c : CoreSt) : (s.setCore p c).sync = s.sync := (rfl)
@[simp] theorem State.setCore_mons (p : Nat) (c : CoreSt) : (s.setCore p c).mons = s.mons := (rfl)
@[simp] theorem State.setCore_cols (p : Nat) (c : CoreSt) : (s.setCore p c).cols = s.cols := (rfl)
@[simp] theorem State.setCore_power (p : Nat) (c : CoreSt) : (s.setCore p c).power = s.power := (rfl)
@[simp] theorem State.setCore_mzm (p : Nat) (c : CoreSt) : (s.setCore p c).mzm = s.mzm := (rfl)

/-! ### `State.setArr` -/

@[simp] theorem State.setArr_pending (p : Nat) (a : ArrSt) : (s.setArr p a).pending = s.pending := (rfl)
@[simp] theorem State.setArr_free (p : Nat) (a : ArrSt) : (s.setArr p a).free = s.free := (rfl)
@[simp] theorem State.setArr_out (p : Nat) (a : ArrSt) : (s.setArr p a).out = s.out := (rfl)
@[simp] theorem State.setArr_time (p : Nat) (a : ArrSt) : (s.setArr p a).time = s.time := (rfl)
@[simp] theorem State.setArr_regs (p : Nat) (a : ArrSt) : (s.setArr p a).regs = s.regs := (rfl)
@[simp] theorem State.setArr_latch (p : Nat) (a : ArrSt) : (s.setArr p a).latch = s.latch := (rfl)
@[simp] theorem State.setArr_mem (p : Nat) (a : ArrSt) : (s.setArr p a).mem = s.mem := (rfl)
@[simp] theorem State.setArr_ecc (p : Nat) (a : ArrSt) : (s.setArr p a).ecc = s.ecc := (rfl)
@[simp] theorem State.setArr_units (p : Nat) (a : ArrSt) : (s.setArr p a).units = s.units := (rfl)
@[simp] theorem State.setArr_cores (p : Nat) (a : ArrSt) : (s.setArr p a).cores = s.cores := (rfl)
@[simp] theorem State.setArr_tabs (p : Nat) (a : ArrSt) : (s.setArr p a).tabs = s.tabs := (rfl)
@[simp] theorem State.setArr_net (p : Nat) (a : ArrSt) : (s.setArr p a).net = s.net := (rfl)
@[simp] theorem State.setArr_tiers (p : Nat) (a : ArrSt) : (s.setArr p a).tiers = s.tiers := (rfl)
@[simp] theorem State.setArr_streams (p : Nat) (a : ArrSt) : (s.setArr p a).streams = s.streams := (rfl)
@[simp] theorem State.setArr_jobs (p : Nat) (a : ArrSt) : (s.setArr p a).jobs = s.jobs := (rfl)
@[simp] theorem State.setArr_firstErr (p : Nat) (a : ArrSt) : (s.setArr p a).firstErr = s.firstErr := (rfl)
@[simp] theorem State.setArr_irqs (p : Nat) (a : ArrSt) : (s.setArr p a).irqs = s.irqs := (rfl)
@[simp] theorem State.setArr_vectors (p : Nat) (a : ArrSt) : (s.setArr p a).vectors = s.vectors := (rfl)
@[simp] theorem State.setArr_events (p : Nat) (a : ArrSt) : (s.setArr p a).events = s.events := (rfl)
@[simp] theorem State.setArr_routes (p : Nat) (a : ArrSt) : (s.setArr p a).routes = s.routes := (rfl)
@[simp] theorem State.setArr_hyds (p : Nat) (a : ArrSt) : (s.setArr p a).hyds = s.hyds := (rfl)
@[simp] theorem State.setArr_gov (p : Nat) (a : ArrSt) : (s.setArr p a).gov = s.gov := (rfl)
@[simp] theorem State.setArr_ctxs (p : Nat) (a : ArrSt) : (s.setArr p a).ctxs = s.ctxs := (rfl)
@[simp] theorem State.setArr_psets (p : Nat) (a : ArrSt) : (s.setArr p a).psets = s.psets := (rfl)
@[simp] theorem State.setArr_maps (p : Nat) (a : ArrSt) : (s.setArr p a).maps = s.maps := (rfl)
@[simp] theorem State.setArr_loop (p : Nat) (a : ArrSt) : (s.setArr p a).loop = s.loop := (rfl)
@[simp] theorem State.setArr_txq (p : Nat) (a : ArrSt) : (s.setArr p a).txq = s.txq := (rfl)
@[simp] theorem State.setArr_outst (p : Nat) (a : ArrSt) : (s.setArr p a).outst = s.outst := (rfl)
@[simp] theorem State.setArr_owed (p : Nat) (a : ArrSt) : (s.setArr p a).owed = s.owed := (rfl)
@[simp] theorem State.setArr_stopped (p : Nat) (a : ArrSt) : (s.setArr p a).stopped = s.stopped := (rfl)
@[simp] theorem State.setArr_cask (p : Nat) (a : ArrSt) : (s.setArr p a).cask = s.cask := (rfl)
@[simp] theorem State.setArr_trq (p : Nat) (a : ArrSt) : (s.setArr p a).trq = s.trq := (rfl)
@[simp] theorem State.setArr_trw (p : Nat) (a : ArrSt) : (s.setArr p a).trw = s.trw := (rfl)
@[simp] theorem State.setArr_hang (p : Nat) (a : ArrSt) : (s.setArr p a).hang = s.hang := (rfl)
@[simp] theorem State.setArr_snap (p : Nat) (a : ArrSt) : (s.setArr p a).snap = s.snap := (rfl)
@[simp] theorem State.setArr_snapAt (p : Nat) (a : ArrSt) : (s.setArr p a).snapAt = s.snapAt := (rfl)
@[simp] theorem State.setArr_edge (p : Nat) (a : ArrSt) : (s.setArr p a).edge = s.edge := (rfl)
@[simp] theorem State.setArr_wakeAt (p : Nat) (a : ArrSt) : (s.setArr p a).wakeAt = s.wakeAt := (rfl)
@[simp] theorem State.setArr_wakeFrom (p : Nat) (a : ArrSt) : (s.setArr p a).wakeFrom = s.wakeFrom := (rfl)
@[simp] theorem State.setArr_brgRun (p : Nat) (a : ArrSt) : (s.setArr p a).brgRun = s.brgRun := (rfl)
@[simp] theorem State.setArr_served (p : Nat) (a : ArrSt) : (s.setArr p a).served = s.served := (rfl)
@[simp] theorem State.setArr_allocs (p : Nat) (a : ArrSt) : (s.setArr p a).allocs = s.allocs := (rfl)
@[simp] theorem State.setArr_recNo (p : Nat) (a : ArrSt) : (s.setArr p a).recNo = s.recNo := (rfl)
@[simp] theorem State.setArr_recAt (p : Nat) (a : ArrSt) : (s.setArr p a).recAt = s.recAt := (rfl)
@[simp] theorem State.setArr_ports (p : Nat) (a : ArrSt) : (s.setArr p a).ports = s.ports := (rfl)
@[simp] theorem State.setArr_sync (p : Nat) (a : ArrSt) : (s.setArr p a).sync = s.sync := (rfl)
@[simp] theorem State.setArr_mons (p : Nat) (a : ArrSt) : (s.setArr p a).mons = s.mons := (rfl)
@[simp] theorem State.setArr_cols (p : Nat) (a : ArrSt) : (s.setArr p a).cols = s.cols := (rfl)
@[simp] theorem State.setArr_power (p : Nat) (a : ArrSt) : (s.setArr p a).power = s.power := (rfl)
@[simp] theorem State.setArr_mzm (p : Nat) (a : ArrSt) : (s.setArr p a).mzm = s.mzm := (rfl)

/-! ### `State.setTab` -/

@[simp] theorem State.setTab_pending (k : Nat) (t : TabSet) : (s.setTab k t).pending = s.pending := (rfl)
@[simp] theorem State.setTab_free (k : Nat) (t : TabSet) : (s.setTab k t).free = s.free := (rfl)
@[simp] theorem State.setTab_out (k : Nat) (t : TabSet) : (s.setTab k t).out = s.out := (rfl)
@[simp] theorem State.setTab_time (k : Nat) (t : TabSet) : (s.setTab k t).time = s.time := (rfl)
@[simp] theorem State.setTab_regs (k : Nat) (t : TabSet) : (s.setTab k t).regs = s.regs := (rfl)
@[simp] theorem State.setTab_latch (k : Nat) (t : TabSet) : (s.setTab k t).latch = s.latch := (rfl)
@[simp] theorem State.setTab_mem (k : Nat) (t : TabSet) : (s.setTab k t).mem = s.mem := (rfl)
@[simp] theorem State.setTab_ecc (k : Nat) (t : TabSet) : (s.setTab k t).ecc = s.ecc := (rfl)
@[simp] theorem State.setTab_units (k : Nat) (t : TabSet) : (s.setTab k t).units = s.units := (rfl)
@[simp] theorem State.setTab_cores (k : Nat) (t : TabSet) : (s.setTab k t).cores = s.cores := (rfl)
@[simp] theorem State.setTab_arrs (k : Nat) (t : TabSet) : (s.setTab k t).arrs = s.arrs := (rfl)
@[simp] theorem State.setTab_net (k : Nat) (t : TabSet) : (s.setTab k t).net = s.net := (rfl)
@[simp] theorem State.setTab_tiers (k : Nat) (t : TabSet) : (s.setTab k t).tiers = s.tiers := (rfl)
@[simp] theorem State.setTab_streams (k : Nat) (t : TabSet) : (s.setTab k t).streams = s.streams := (rfl)
@[simp] theorem State.setTab_jobs (k : Nat) (t : TabSet) : (s.setTab k t).jobs = s.jobs := (rfl)
@[simp] theorem State.setTab_firstErr (k : Nat) (t : TabSet) : (s.setTab k t).firstErr = s.firstErr := (rfl)
@[simp] theorem State.setTab_irqs (k : Nat) (t : TabSet) : (s.setTab k t).irqs = s.irqs := (rfl)
@[simp] theorem State.setTab_vectors (k : Nat) (t : TabSet) : (s.setTab k t).vectors = s.vectors := (rfl)
@[simp] theorem State.setTab_events (k : Nat) (t : TabSet) : (s.setTab k t).events = s.events := (rfl)
@[simp] theorem State.setTab_routes (k : Nat) (t : TabSet) : (s.setTab k t).routes = s.routes := (rfl)
@[simp] theorem State.setTab_hyds (k : Nat) (t : TabSet) : (s.setTab k t).hyds = s.hyds := (rfl)
@[simp] theorem State.setTab_gov (k : Nat) (t : TabSet) : (s.setTab k t).gov = s.gov := (rfl)
@[simp] theorem State.setTab_ctxs (k : Nat) (t : TabSet) : (s.setTab k t).ctxs = s.ctxs := (rfl)
@[simp] theorem State.setTab_psets (k : Nat) (t : TabSet) : (s.setTab k t).psets = s.psets := (rfl)
@[simp] theorem State.setTab_maps (k : Nat) (t : TabSet) : (s.setTab k t).maps = s.maps := (rfl)
@[simp] theorem State.setTab_loop (k : Nat) (t : TabSet) : (s.setTab k t).loop = s.loop := (rfl)
@[simp] theorem State.setTab_txq (k : Nat) (t : TabSet) : (s.setTab k t).txq = s.txq := (rfl)
@[simp] theorem State.setTab_outst (k : Nat) (t : TabSet) : (s.setTab k t).outst = s.outst := (rfl)
@[simp] theorem State.setTab_owed (k : Nat) (t : TabSet) : (s.setTab k t).owed = s.owed := (rfl)
@[simp] theorem State.setTab_stopped (k : Nat) (t : TabSet) : (s.setTab k t).stopped = s.stopped := (rfl)
@[simp] theorem State.setTab_cask (k : Nat) (t : TabSet) : (s.setTab k t).cask = s.cask := (rfl)
@[simp] theorem State.setTab_trq (k : Nat) (t : TabSet) : (s.setTab k t).trq = s.trq := (rfl)
@[simp] theorem State.setTab_trw (k : Nat) (t : TabSet) : (s.setTab k t).trw = s.trw := (rfl)
@[simp] theorem State.setTab_hang (k : Nat) (t : TabSet) : (s.setTab k t).hang = s.hang := (rfl)
@[simp] theorem State.setTab_snap (k : Nat) (t : TabSet) : (s.setTab k t).snap = s.snap := (rfl)
@[simp] theorem State.setTab_snapAt (k : Nat) (t : TabSet) : (s.setTab k t).snapAt = s.snapAt := (rfl)
@[simp] theorem State.setTab_edge (k : Nat) (t : TabSet) : (s.setTab k t).edge = s.edge := (rfl)
@[simp] theorem State.setTab_wakeAt (k : Nat) (t : TabSet) : (s.setTab k t).wakeAt = s.wakeAt := (rfl)
@[simp] theorem State.setTab_wakeFrom (k : Nat) (t : TabSet) : (s.setTab k t).wakeFrom = s.wakeFrom := (rfl)
@[simp] theorem State.setTab_brgRun (k : Nat) (t : TabSet) : (s.setTab k t).brgRun = s.brgRun := (rfl)
@[simp] theorem State.setTab_served (k : Nat) (t : TabSet) : (s.setTab k t).served = s.served := (rfl)
@[simp] theorem State.setTab_allocs (k : Nat) (t : TabSet) : (s.setTab k t).allocs = s.allocs := (rfl)
@[simp] theorem State.setTab_recNo (k : Nat) (t : TabSet) : (s.setTab k t).recNo = s.recNo := (rfl)
@[simp] theorem State.setTab_recAt (k : Nat) (t : TabSet) : (s.setTab k t).recAt = s.recAt := (rfl)
@[simp] theorem State.setTab_ports (k : Nat) (t : TabSet) : (s.setTab k t).ports = s.ports := (rfl)
@[simp] theorem State.setTab_sync (k : Nat) (t : TabSet) : (s.setTab k t).sync = s.sync := (rfl)
@[simp] theorem State.setTab_mons (k : Nat) (t : TabSet) : (s.setTab k t).mons = s.mons := (rfl)
@[simp] theorem State.setTab_cols (k : Nat) (t : TabSet) : (s.setTab k t).cols = s.cols := (rfl)
@[simp] theorem State.setTab_power (k : Nat) (t : TabSet) : (s.setTab k t).power = s.power := (rfl)
@[simp] theorem State.setTab_mzm (k : Nat) (t : TabSet) : (s.setTab k t).mzm = s.mzm := (rfl)

/-! ### `State.setStream` -/

@[simp] theorem State.setStream_pending (i : Nat) (t : Stream) : (s.setStream i t).pending = s.pending := (rfl)
@[simp] theorem State.setStream_free (i : Nat) (t : Stream) : (s.setStream i t).free = s.free := (rfl)
@[simp] theorem State.setStream_out (i : Nat) (t : Stream) : (s.setStream i t).out = s.out := (rfl)
@[simp] theorem State.setStream_time (i : Nat) (t : Stream) : (s.setStream i t).time = s.time := (rfl)
@[simp] theorem State.setStream_regs (i : Nat) (t : Stream) : (s.setStream i t).regs = s.regs := (rfl)
@[simp] theorem State.setStream_latch (i : Nat) (t : Stream) : (s.setStream i t).latch = s.latch := (rfl)
@[simp] theorem State.setStream_mem (i : Nat) (t : Stream) : (s.setStream i t).mem = s.mem := (rfl)
@[simp] theorem State.setStream_ecc (i : Nat) (t : Stream) : (s.setStream i t).ecc = s.ecc := (rfl)
@[simp] theorem State.setStream_units (i : Nat) (t : Stream) : (s.setStream i t).units = s.units := (rfl)
@[simp] theorem State.setStream_cores (i : Nat) (t : Stream) : (s.setStream i t).cores = s.cores := (rfl)
@[simp] theorem State.setStream_arrs (i : Nat) (t : Stream) : (s.setStream i t).arrs = s.arrs := (rfl)
@[simp] theorem State.setStream_tabs (i : Nat) (t : Stream) : (s.setStream i t).tabs = s.tabs := (rfl)
@[simp] theorem State.setStream_net (i : Nat) (t : Stream) : (s.setStream i t).net = s.net := (rfl)
@[simp] theorem State.setStream_tiers (i : Nat) (t : Stream) : (s.setStream i t).tiers = s.tiers := (rfl)
@[simp] theorem State.setStream_jobs (i : Nat) (t : Stream) : (s.setStream i t).jobs = s.jobs := (rfl)
@[simp] theorem State.setStream_firstErr (i : Nat) (t : Stream) : (s.setStream i t).firstErr = s.firstErr := (rfl)
@[simp] theorem State.setStream_irqs (i : Nat) (t : Stream) : (s.setStream i t).irqs = s.irqs := (rfl)
@[simp] theorem State.setStream_vectors (i : Nat) (t : Stream) : (s.setStream i t).vectors = s.vectors := (rfl)
@[simp] theorem State.setStream_events (i : Nat) (t : Stream) : (s.setStream i t).events = s.events := (rfl)
@[simp] theorem State.setStream_routes (i : Nat) (t : Stream) : (s.setStream i t).routes = s.routes := (rfl)
@[simp] theorem State.setStream_hyds (i : Nat) (t : Stream) : (s.setStream i t).hyds = s.hyds := (rfl)
@[simp] theorem State.setStream_gov (i : Nat) (t : Stream) : (s.setStream i t).gov = s.gov := (rfl)
@[simp] theorem State.setStream_ctxs (i : Nat) (t : Stream) : (s.setStream i t).ctxs = s.ctxs := (rfl)
@[simp] theorem State.setStream_psets (i : Nat) (t : Stream) : (s.setStream i t).psets = s.psets := (rfl)
@[simp] theorem State.setStream_maps (i : Nat) (t : Stream) : (s.setStream i t).maps = s.maps := (rfl)
@[simp] theorem State.setStream_loop (i : Nat) (t : Stream) : (s.setStream i t).loop = s.loop := (rfl)
@[simp] theorem State.setStream_txq (i : Nat) (t : Stream) : (s.setStream i t).txq = s.txq := (rfl)
@[simp] theorem State.setStream_outst (i : Nat) (t : Stream) : (s.setStream i t).outst = s.outst := (rfl)
@[simp] theorem State.setStream_owed (i : Nat) (t : Stream) : (s.setStream i t).owed = s.owed := (rfl)
@[simp] theorem State.setStream_stopped (i : Nat) (t : Stream) : (s.setStream i t).stopped = s.stopped := (rfl)
@[simp] theorem State.setStream_cask (i : Nat) (t : Stream) : (s.setStream i t).cask = s.cask := (rfl)
@[simp] theorem State.setStream_trq (i : Nat) (t : Stream) : (s.setStream i t).trq = s.trq := (rfl)
@[simp] theorem State.setStream_trw (i : Nat) (t : Stream) : (s.setStream i t).trw = s.trw := (rfl)
@[simp] theorem State.setStream_hang (i : Nat) (t : Stream) : (s.setStream i t).hang = s.hang := (rfl)
@[simp] theorem State.setStream_snap (i : Nat) (t : Stream) : (s.setStream i t).snap = s.snap := (rfl)
@[simp] theorem State.setStream_snapAt (i : Nat) (t : Stream) : (s.setStream i t).snapAt = s.snapAt := (rfl)
@[simp] theorem State.setStream_edge (i : Nat) (t : Stream) : (s.setStream i t).edge = s.edge := (rfl)
@[simp] theorem State.setStream_wakeAt (i : Nat) (t : Stream) : (s.setStream i t).wakeAt = s.wakeAt := (rfl)
@[simp] theorem State.setStream_wakeFrom (i : Nat) (t : Stream) : (s.setStream i t).wakeFrom = s.wakeFrom := (rfl)
@[simp] theorem State.setStream_brgRun (i : Nat) (t : Stream) : (s.setStream i t).brgRun = s.brgRun := (rfl)
@[simp] theorem State.setStream_served (i : Nat) (t : Stream) : (s.setStream i t).served = s.served := (rfl)
@[simp] theorem State.setStream_allocs (i : Nat) (t : Stream) : (s.setStream i t).allocs = s.allocs := (rfl)
@[simp] theorem State.setStream_recNo (i : Nat) (t : Stream) : (s.setStream i t).recNo = s.recNo := (rfl)
@[simp] theorem State.setStream_recAt (i : Nat) (t : Stream) : (s.setStream i t).recAt = s.recAt := (rfl)
@[simp] theorem State.setStream_ports (i : Nat) (t : Stream) : (s.setStream i t).ports = s.ports := (rfl)
@[simp] theorem State.setStream_sync (i : Nat) (t : Stream) : (s.setStream i t).sync = s.sync := (rfl)
@[simp] theorem State.setStream_mons (i : Nat) (t : Stream) : (s.setStream i t).mons = s.mons := (rfl)
@[simp] theorem State.setStream_cols (i : Nat) (t : Stream) : (s.setStream i t).cols = s.cols := (rfl)
@[simp] theorem State.setStream_power (i : Nat) (t : Stream) : (s.setStream i t).power = s.power := (rfl)
@[simp] theorem State.setStream_mzm (i : Nat) (t : Stream) : (s.setStream i t).mzm = s.mzm := (rfl)

/-! ### `State.setJob` -/

@[simp] theorem State.setJob_pending (j : Nat) (v : Job) : (s.setJob j v).pending = s.pending := (rfl)
@[simp] theorem State.setJob_free (j : Nat) (v : Job) : (s.setJob j v).free = s.free := (rfl)
@[simp] theorem State.setJob_out (j : Nat) (v : Job) : (s.setJob j v).out = s.out := (rfl)
@[simp] theorem State.setJob_time (j : Nat) (v : Job) : (s.setJob j v).time = s.time := (rfl)
@[simp] theorem State.setJob_regs (j : Nat) (v : Job) : (s.setJob j v).regs = s.regs := (rfl)
@[simp] theorem State.setJob_latch (j : Nat) (v : Job) : (s.setJob j v).latch = s.latch := (rfl)
@[simp] theorem State.setJob_mem (j : Nat) (v : Job) : (s.setJob j v).mem = s.mem := (rfl)
@[simp] theorem State.setJob_ecc (j : Nat) (v : Job) : (s.setJob j v).ecc = s.ecc := (rfl)
@[simp] theorem State.setJob_units (j : Nat) (v : Job) : (s.setJob j v).units = s.units := (rfl)
@[simp] theorem State.setJob_cores (j : Nat) (v : Job) : (s.setJob j v).cores = s.cores := (rfl)
@[simp] theorem State.setJob_arrs (j : Nat) (v : Job) : (s.setJob j v).arrs = s.arrs := (rfl)
@[simp] theorem State.setJob_tabs (j : Nat) (v : Job) : (s.setJob j v).tabs = s.tabs := (rfl)
@[simp] theorem State.setJob_net (j : Nat) (v : Job) : (s.setJob j v).net = s.net := (rfl)
@[simp] theorem State.setJob_tiers (j : Nat) (v : Job) : (s.setJob j v).tiers = s.tiers := (rfl)
@[simp] theorem State.setJob_streams (j : Nat) (v : Job) : (s.setJob j v).streams = s.streams := (rfl)
@[simp] theorem State.setJob_firstErr (j : Nat) (v : Job) : (s.setJob j v).firstErr = s.firstErr := (rfl)
@[simp] theorem State.setJob_irqs (j : Nat) (v : Job) : (s.setJob j v).irqs = s.irqs := (rfl)
@[simp] theorem State.setJob_vectors (j : Nat) (v : Job) : (s.setJob j v).vectors = s.vectors := (rfl)
@[simp] theorem State.setJob_events (j : Nat) (v : Job) : (s.setJob j v).events = s.events := (rfl)
@[simp] theorem State.setJob_routes (j : Nat) (v : Job) : (s.setJob j v).routes = s.routes := (rfl)
@[simp] theorem State.setJob_hyds (j : Nat) (v : Job) : (s.setJob j v).hyds = s.hyds := (rfl)
@[simp] theorem State.setJob_gov (j : Nat) (v : Job) : (s.setJob j v).gov = s.gov := (rfl)
@[simp] theorem State.setJob_ctxs (j : Nat) (v : Job) : (s.setJob j v).ctxs = s.ctxs := (rfl)
@[simp] theorem State.setJob_psets (j : Nat) (v : Job) : (s.setJob j v).psets = s.psets := (rfl)
@[simp] theorem State.setJob_maps (j : Nat) (v : Job) : (s.setJob j v).maps = s.maps := (rfl)
@[simp] theorem State.setJob_loop (j : Nat) (v : Job) : (s.setJob j v).loop = s.loop := (rfl)
@[simp] theorem State.setJob_txq (j : Nat) (v : Job) : (s.setJob j v).txq = s.txq := (rfl)
@[simp] theorem State.setJob_outst (j : Nat) (v : Job) : (s.setJob j v).outst = s.outst := (rfl)
@[simp] theorem State.setJob_owed (j : Nat) (v : Job) : (s.setJob j v).owed = s.owed := (rfl)
@[simp] theorem State.setJob_stopped (j : Nat) (v : Job) : (s.setJob j v).stopped = s.stopped := (rfl)
@[simp] theorem State.setJob_cask (j : Nat) (v : Job) : (s.setJob j v).cask = s.cask := (rfl)
@[simp] theorem State.setJob_trq (j : Nat) (v : Job) : (s.setJob j v).trq = s.trq := (rfl)
@[simp] theorem State.setJob_trw (j : Nat) (v : Job) : (s.setJob j v).trw = s.trw := (rfl)
@[simp] theorem State.setJob_hang (j : Nat) (v : Job) : (s.setJob j v).hang = s.hang := (rfl)
@[simp] theorem State.setJob_snap (j : Nat) (v : Job) : (s.setJob j v).snap = s.snap := (rfl)
@[simp] theorem State.setJob_snapAt (j : Nat) (v : Job) : (s.setJob j v).snapAt = s.snapAt := (rfl)
@[simp] theorem State.setJob_edge (j : Nat) (v : Job) : (s.setJob j v).edge = s.edge := (rfl)
@[simp] theorem State.setJob_wakeAt (j : Nat) (v : Job) : (s.setJob j v).wakeAt = s.wakeAt := (rfl)
@[simp] theorem State.setJob_wakeFrom (j : Nat) (v : Job) : (s.setJob j v).wakeFrom = s.wakeFrom := (rfl)
@[simp] theorem State.setJob_brgRun (j : Nat) (v : Job) : (s.setJob j v).brgRun = s.brgRun := (rfl)
@[simp] theorem State.setJob_served (j : Nat) (v : Job) : (s.setJob j v).served = s.served := (rfl)
@[simp] theorem State.setJob_allocs (j : Nat) (v : Job) : (s.setJob j v).allocs = s.allocs := (rfl)
@[simp] theorem State.setJob_recNo (j : Nat) (v : Job) : (s.setJob j v).recNo = s.recNo := (rfl)
@[simp] theorem State.setJob_recAt (j : Nat) (v : Job) : (s.setJob j v).recAt = s.recAt := (rfl)
@[simp] theorem State.setJob_ports (j : Nat) (v : Job) : (s.setJob j v).ports = s.ports := (rfl)
@[simp] theorem State.setJob_sync (j : Nat) (v : Job) : (s.setJob j v).sync = s.sync := (rfl)
@[simp] theorem State.setJob_mons (j : Nat) (v : Job) : (s.setJob j v).mons = s.mons := (rfl)
@[simp] theorem State.setJob_cols (j : Nat) (v : Job) : (s.setJob j v).cols = s.cols := (rfl)
@[simp] theorem State.setJob_power (j : Nat) (v : Job) : (s.setJob j v).power = s.power := (rfl)
@[simp] theorem State.setJob_mzm (j : Nat) (v : Job) : (s.setJob j v).mzm = s.mzm := (rfl)

/-! ### `State.setMapEnt` -/

@[simp] theorem State.setMapEnt_pending (i : Nat) (e : MapEnt) : (s.setMapEnt i e).pending = s.pending := (rfl)
@[simp] theorem State.setMapEnt_free (i : Nat) (e : MapEnt) : (s.setMapEnt i e).free = s.free := (rfl)
@[simp] theorem State.setMapEnt_out (i : Nat) (e : MapEnt) : (s.setMapEnt i e).out = s.out := (rfl)
@[simp] theorem State.setMapEnt_time (i : Nat) (e : MapEnt) : (s.setMapEnt i e).time = s.time := (rfl)
@[simp] theorem State.setMapEnt_regs (i : Nat) (e : MapEnt) : (s.setMapEnt i e).regs = s.regs := (rfl)
@[simp] theorem State.setMapEnt_latch (i : Nat) (e : MapEnt) : (s.setMapEnt i e).latch = s.latch := (rfl)
@[simp] theorem State.setMapEnt_mem (i : Nat) (e : MapEnt) : (s.setMapEnt i e).mem = s.mem := (rfl)
@[simp] theorem State.setMapEnt_ecc (i : Nat) (e : MapEnt) : (s.setMapEnt i e).ecc = s.ecc := (rfl)
@[simp] theorem State.setMapEnt_units (i : Nat) (e : MapEnt) : (s.setMapEnt i e).units = s.units := (rfl)
@[simp] theorem State.setMapEnt_cores (i : Nat) (e : MapEnt) : (s.setMapEnt i e).cores = s.cores := (rfl)
@[simp] theorem State.setMapEnt_arrs (i : Nat) (e : MapEnt) : (s.setMapEnt i e).arrs = s.arrs := (rfl)
@[simp] theorem State.setMapEnt_tabs (i : Nat) (e : MapEnt) : (s.setMapEnt i e).tabs = s.tabs := (rfl)
@[simp] theorem State.setMapEnt_net (i : Nat) (e : MapEnt) : (s.setMapEnt i e).net = s.net := (rfl)
@[simp] theorem State.setMapEnt_tiers (i : Nat) (e : MapEnt) : (s.setMapEnt i e).tiers = s.tiers := (rfl)
@[simp] theorem State.setMapEnt_streams (i : Nat) (e : MapEnt) : (s.setMapEnt i e).streams = s.streams := (rfl)
@[simp] theorem State.setMapEnt_jobs (i : Nat) (e : MapEnt) : (s.setMapEnt i e).jobs = s.jobs := (rfl)
@[simp] theorem State.setMapEnt_firstErr (i : Nat) (e : MapEnt) : (s.setMapEnt i e).firstErr = s.firstErr := (rfl)
@[simp] theorem State.setMapEnt_irqs (i : Nat) (e : MapEnt) : (s.setMapEnt i e).irqs = s.irqs := (rfl)
@[simp] theorem State.setMapEnt_vectors (i : Nat) (e : MapEnt) : (s.setMapEnt i e).vectors = s.vectors := (rfl)
@[simp] theorem State.setMapEnt_events (i : Nat) (e : MapEnt) : (s.setMapEnt i e).events = s.events := (rfl)
@[simp] theorem State.setMapEnt_routes (i : Nat) (e : MapEnt) : (s.setMapEnt i e).routes = s.routes := (rfl)
@[simp] theorem State.setMapEnt_hyds (i : Nat) (e : MapEnt) : (s.setMapEnt i e).hyds = s.hyds := (rfl)
@[simp] theorem State.setMapEnt_gov (i : Nat) (e : MapEnt) : (s.setMapEnt i e).gov = s.gov := (rfl)
@[simp] theorem State.setMapEnt_ctxs (i : Nat) (e : MapEnt) : (s.setMapEnt i e).ctxs = s.ctxs := (rfl)
@[simp] theorem State.setMapEnt_psets (i : Nat) (e : MapEnt) : (s.setMapEnt i e).psets = s.psets := (rfl)
@[simp] theorem State.setMapEnt_loop (i : Nat) (e : MapEnt) : (s.setMapEnt i e).loop = s.loop := (rfl)
@[simp] theorem State.setMapEnt_txq (i : Nat) (e : MapEnt) : (s.setMapEnt i e).txq = s.txq := (rfl)
@[simp] theorem State.setMapEnt_outst (i : Nat) (e : MapEnt) : (s.setMapEnt i e).outst = s.outst := (rfl)
@[simp] theorem State.setMapEnt_owed (i : Nat) (e : MapEnt) : (s.setMapEnt i e).owed = s.owed := (rfl)
@[simp] theorem State.setMapEnt_stopped (i : Nat) (e : MapEnt) : (s.setMapEnt i e).stopped = s.stopped := (rfl)
@[simp] theorem State.setMapEnt_cask (i : Nat) (e : MapEnt) : (s.setMapEnt i e).cask = s.cask := (rfl)
@[simp] theorem State.setMapEnt_trq (i : Nat) (e : MapEnt) : (s.setMapEnt i e).trq = s.trq := (rfl)
@[simp] theorem State.setMapEnt_trw (i : Nat) (e : MapEnt) : (s.setMapEnt i e).trw = s.trw := (rfl)
@[simp] theorem State.setMapEnt_hang (i : Nat) (e : MapEnt) : (s.setMapEnt i e).hang = s.hang := (rfl)
@[simp] theorem State.setMapEnt_snap (i : Nat) (e : MapEnt) : (s.setMapEnt i e).snap = s.snap := (rfl)
@[simp] theorem State.setMapEnt_snapAt (i : Nat) (e : MapEnt) : (s.setMapEnt i e).snapAt = s.snapAt := (rfl)
@[simp] theorem State.setMapEnt_edge (i : Nat) (e : MapEnt) : (s.setMapEnt i e).edge = s.edge := (rfl)
@[simp] theorem State.setMapEnt_wakeAt (i : Nat) (e : MapEnt) : (s.setMapEnt i e).wakeAt = s.wakeAt := (rfl)
@[simp] theorem State.setMapEnt_wakeFrom (i : Nat) (e : MapEnt) : (s.setMapEnt i e).wakeFrom = s.wakeFrom := (rfl)
@[simp] theorem State.setMapEnt_brgRun (i : Nat) (e : MapEnt) : (s.setMapEnt i e).brgRun = s.brgRun := (rfl)
@[simp] theorem State.setMapEnt_served (i : Nat) (e : MapEnt) : (s.setMapEnt i e).served = s.served := (rfl)
@[simp] theorem State.setMapEnt_allocs (i : Nat) (e : MapEnt) : (s.setMapEnt i e).allocs = s.allocs := (rfl)
@[simp] theorem State.setMapEnt_recNo (i : Nat) (e : MapEnt) : (s.setMapEnt i e).recNo = s.recNo := (rfl)
@[simp] theorem State.setMapEnt_recAt (i : Nat) (e : MapEnt) : (s.setMapEnt i e).recAt = s.recAt := (rfl)
@[simp] theorem State.setMapEnt_ports (i : Nat) (e : MapEnt) : (s.setMapEnt i e).ports = s.ports := (rfl)
@[simp] theorem State.setMapEnt_sync (i : Nat) (e : MapEnt) : (s.setMapEnt i e).sync = s.sync := (rfl)
@[simp] theorem State.setMapEnt_mons (i : Nat) (e : MapEnt) : (s.setMapEnt i e).mons = s.mons := (rfl)
@[simp] theorem State.setMapEnt_cols (i : Nat) (e : MapEnt) : (s.setMapEnt i e).cols = s.cols := (rfl)
@[simp] theorem State.setMapEnt_power (i : Nat) (e : MapEnt) : (s.setMapEnt i e).power = s.power := (rfl)
@[simp] theorem State.setMapEnt_mzm (i : Nat) (e : MapEnt) : (s.setMapEnt i e).mzm = s.mzm := (rfl)

/-! ### `State.setCol` -/

@[simp] theorem State.setCol_pending (d : Nat) (c : ColSt) : (s.setCol d c).pending = s.pending := (rfl)
@[simp] theorem State.setCol_free (d : Nat) (c : ColSt) : (s.setCol d c).free = s.free := (rfl)
@[simp] theorem State.setCol_out (d : Nat) (c : ColSt) : (s.setCol d c).out = s.out := (rfl)
@[simp] theorem State.setCol_time (d : Nat) (c : ColSt) : (s.setCol d c).time = s.time := (rfl)
@[simp] theorem State.setCol_regs (d : Nat) (c : ColSt) : (s.setCol d c).regs = s.regs := (rfl)
@[simp] theorem State.setCol_latch (d : Nat) (c : ColSt) : (s.setCol d c).latch = s.latch := (rfl)
@[simp] theorem State.setCol_mem (d : Nat) (c : ColSt) : (s.setCol d c).mem = s.mem := (rfl)
@[simp] theorem State.setCol_ecc (d : Nat) (c : ColSt) : (s.setCol d c).ecc = s.ecc := (rfl)
@[simp] theorem State.setCol_units (d : Nat) (c : ColSt) : (s.setCol d c).units = s.units := (rfl)
@[simp] theorem State.setCol_cores (d : Nat) (c : ColSt) : (s.setCol d c).cores = s.cores := (rfl)
@[simp] theorem State.setCol_arrs (d : Nat) (c : ColSt) : (s.setCol d c).arrs = s.arrs := (rfl)
@[simp] theorem State.setCol_tabs (d : Nat) (c : ColSt) : (s.setCol d c).tabs = s.tabs := (rfl)
@[simp] theorem State.setCol_net (d : Nat) (c : ColSt) : (s.setCol d c).net = s.net := (rfl)
@[simp] theorem State.setCol_tiers (d : Nat) (c : ColSt) : (s.setCol d c).tiers = s.tiers := (rfl)
@[simp] theorem State.setCol_streams (d : Nat) (c : ColSt) : (s.setCol d c).streams = s.streams := (rfl)
@[simp] theorem State.setCol_jobs (d : Nat) (c : ColSt) : (s.setCol d c).jobs = s.jobs := (rfl)
@[simp] theorem State.setCol_firstErr (d : Nat) (c : ColSt) : (s.setCol d c).firstErr = s.firstErr := (rfl)
@[simp] theorem State.setCol_irqs (d : Nat) (c : ColSt) : (s.setCol d c).irqs = s.irqs := (rfl)
@[simp] theorem State.setCol_vectors (d : Nat) (c : ColSt) : (s.setCol d c).vectors = s.vectors := (rfl)
@[simp] theorem State.setCol_events (d : Nat) (c : ColSt) : (s.setCol d c).events = s.events := (rfl)
@[simp] theorem State.setCol_routes (d : Nat) (c : ColSt) : (s.setCol d c).routes = s.routes := (rfl)
@[simp] theorem State.setCol_hyds (d : Nat) (c : ColSt) : (s.setCol d c).hyds = s.hyds := (rfl)
@[simp] theorem State.setCol_gov (d : Nat) (c : ColSt) : (s.setCol d c).gov = s.gov := (rfl)
@[simp] theorem State.setCol_ctxs (d : Nat) (c : ColSt) : (s.setCol d c).ctxs = s.ctxs := (rfl)
@[simp] theorem State.setCol_psets (d : Nat) (c : ColSt) : (s.setCol d c).psets = s.psets := (rfl)
@[simp] theorem State.setCol_maps (d : Nat) (c : ColSt) : (s.setCol d c).maps = s.maps := (rfl)
@[simp] theorem State.setCol_loop (d : Nat) (c : ColSt) : (s.setCol d c).loop = s.loop := (rfl)
@[simp] theorem State.setCol_txq (d : Nat) (c : ColSt) : (s.setCol d c).txq = s.txq := (rfl)
@[simp] theorem State.setCol_outst (d : Nat) (c : ColSt) : (s.setCol d c).outst = s.outst := (rfl)
@[simp] theorem State.setCol_owed (d : Nat) (c : ColSt) : (s.setCol d c).owed = s.owed := (rfl)
@[simp] theorem State.setCol_stopped (d : Nat) (c : ColSt) : (s.setCol d c).stopped = s.stopped := (rfl)
@[simp] theorem State.setCol_cask (d : Nat) (c : ColSt) : (s.setCol d c).cask = s.cask := (rfl)
@[simp] theorem State.setCol_trq (d : Nat) (c : ColSt) : (s.setCol d c).trq = s.trq := (rfl)
@[simp] theorem State.setCol_trw (d : Nat) (c : ColSt) : (s.setCol d c).trw = s.trw := (rfl)
@[simp] theorem State.setCol_hang (d : Nat) (c : ColSt) : (s.setCol d c).hang = s.hang := (rfl)
@[simp] theorem State.setCol_snap (d : Nat) (c : ColSt) : (s.setCol d c).snap = s.snap := (rfl)
@[simp] theorem State.setCol_snapAt (d : Nat) (c : ColSt) : (s.setCol d c).snapAt = s.snapAt := (rfl)
@[simp] theorem State.setCol_edge (d : Nat) (c : ColSt) : (s.setCol d c).edge = s.edge := (rfl)
@[simp] theorem State.setCol_wakeAt (d : Nat) (c : ColSt) : (s.setCol d c).wakeAt = s.wakeAt := (rfl)
@[simp] theorem State.setCol_wakeFrom (d : Nat) (c : ColSt) : (s.setCol d c).wakeFrom = s.wakeFrom := (rfl)
@[simp] theorem State.setCol_brgRun (d : Nat) (c : ColSt) : (s.setCol d c).brgRun = s.brgRun := (rfl)
@[simp] theorem State.setCol_served (d : Nat) (c : ColSt) : (s.setCol d c).served = s.served := (rfl)
@[simp] theorem State.setCol_allocs (d : Nat) (c : ColSt) : (s.setCol d c).allocs = s.allocs := (rfl)
@[simp] theorem State.setCol_recNo (d : Nat) (c : ColSt) : (s.setCol d c).recNo = s.recNo := (rfl)
@[simp] theorem State.setCol_recAt (d : Nat) (c : ColSt) : (s.setCol d c).recAt = s.recAt := (rfl)
@[simp] theorem State.setCol_ports (d : Nat) (c : ColSt) : (s.setCol d c).ports = s.ports := (rfl)
@[simp] theorem State.setCol_sync (d : Nat) (c : ColSt) : (s.setCol d c).sync = s.sync := (rfl)
@[simp] theorem State.setCol_mons (d : Nat) (c : ColSt) : (s.setCol d c).mons = s.mons := (rfl)
@[simp] theorem State.setCol_power (d : Nat) (c : ColSt) : (s.setCol d c).power = s.power := (rfl)
@[simp] theorem State.setCol_mzm (d : Nat) (c : ColSt) : (s.setCol d c).mzm = s.mzm := (rfl)

/-! ### `State.setMon` -/

@[simp] theorem State.setMon_pending (d : Nat) (m : MonSt) : (s.setMon d m).pending = s.pending := (rfl)
@[simp] theorem State.setMon_free (d : Nat) (m : MonSt) : (s.setMon d m).free = s.free := (rfl)
@[simp] theorem State.setMon_out (d : Nat) (m : MonSt) : (s.setMon d m).out = s.out := (rfl)
@[simp] theorem State.setMon_time (d : Nat) (m : MonSt) : (s.setMon d m).time = s.time := (rfl)
@[simp] theorem State.setMon_regs (d : Nat) (m : MonSt) : (s.setMon d m).regs = s.regs := (rfl)
@[simp] theorem State.setMon_latch (d : Nat) (m : MonSt) : (s.setMon d m).latch = s.latch := (rfl)
@[simp] theorem State.setMon_mem (d : Nat) (m : MonSt) : (s.setMon d m).mem = s.mem := (rfl)
@[simp] theorem State.setMon_ecc (d : Nat) (m : MonSt) : (s.setMon d m).ecc = s.ecc := (rfl)
@[simp] theorem State.setMon_units (d : Nat) (m : MonSt) : (s.setMon d m).units = s.units := (rfl)
@[simp] theorem State.setMon_cores (d : Nat) (m : MonSt) : (s.setMon d m).cores = s.cores := (rfl)
@[simp] theorem State.setMon_arrs (d : Nat) (m : MonSt) : (s.setMon d m).arrs = s.arrs := (rfl)
@[simp] theorem State.setMon_tabs (d : Nat) (m : MonSt) : (s.setMon d m).tabs = s.tabs := (rfl)
@[simp] theorem State.setMon_net (d : Nat) (m : MonSt) : (s.setMon d m).net = s.net := (rfl)
@[simp] theorem State.setMon_tiers (d : Nat) (m : MonSt) : (s.setMon d m).tiers = s.tiers := (rfl)
@[simp] theorem State.setMon_streams (d : Nat) (m : MonSt) : (s.setMon d m).streams = s.streams := (rfl)
@[simp] theorem State.setMon_jobs (d : Nat) (m : MonSt) : (s.setMon d m).jobs = s.jobs := (rfl)
@[simp] theorem State.setMon_firstErr (d : Nat) (m : MonSt) : (s.setMon d m).firstErr = s.firstErr := (rfl)
@[simp] theorem State.setMon_irqs (d : Nat) (m : MonSt) : (s.setMon d m).irqs = s.irqs := (rfl)
@[simp] theorem State.setMon_vectors (d : Nat) (m : MonSt) : (s.setMon d m).vectors = s.vectors := (rfl)
@[simp] theorem State.setMon_events (d : Nat) (m : MonSt) : (s.setMon d m).events = s.events := (rfl)
@[simp] theorem State.setMon_routes (d : Nat) (m : MonSt) : (s.setMon d m).routes = s.routes := (rfl)
@[simp] theorem State.setMon_hyds (d : Nat) (m : MonSt) : (s.setMon d m).hyds = s.hyds := (rfl)
@[simp] theorem State.setMon_gov (d : Nat) (m : MonSt) : (s.setMon d m).gov = s.gov := (rfl)
@[simp] theorem State.setMon_ctxs (d : Nat) (m : MonSt) : (s.setMon d m).ctxs = s.ctxs := (rfl)
@[simp] theorem State.setMon_psets (d : Nat) (m : MonSt) : (s.setMon d m).psets = s.psets := (rfl)
@[simp] theorem State.setMon_maps (d : Nat) (m : MonSt) : (s.setMon d m).maps = s.maps := (rfl)
@[simp] theorem State.setMon_loop (d : Nat) (m : MonSt) : (s.setMon d m).loop = s.loop := (rfl)
@[simp] theorem State.setMon_txq (d : Nat) (m : MonSt) : (s.setMon d m).txq = s.txq := (rfl)
@[simp] theorem State.setMon_outst (d : Nat) (m : MonSt) : (s.setMon d m).outst = s.outst := (rfl)
@[simp] theorem State.setMon_owed (d : Nat) (m : MonSt) : (s.setMon d m).owed = s.owed := (rfl)
@[simp] theorem State.setMon_stopped (d : Nat) (m : MonSt) : (s.setMon d m).stopped = s.stopped := (rfl)
@[simp] theorem State.setMon_cask (d : Nat) (m : MonSt) : (s.setMon d m).cask = s.cask := (rfl)
@[simp] theorem State.setMon_trq (d : Nat) (m : MonSt) : (s.setMon d m).trq = s.trq := (rfl)
@[simp] theorem State.setMon_trw (d : Nat) (m : MonSt) : (s.setMon d m).trw = s.trw := (rfl)
@[simp] theorem State.setMon_hang (d : Nat) (m : MonSt) : (s.setMon d m).hang = s.hang := (rfl)
@[simp] theorem State.setMon_snap (d : Nat) (m : MonSt) : (s.setMon d m).snap = s.snap := (rfl)
@[simp] theorem State.setMon_snapAt (d : Nat) (m : MonSt) : (s.setMon d m).snapAt = s.snapAt := (rfl)
@[simp] theorem State.setMon_edge (d : Nat) (m : MonSt) : (s.setMon d m).edge = s.edge := (rfl)
@[simp] theorem State.setMon_wakeAt (d : Nat) (m : MonSt) : (s.setMon d m).wakeAt = s.wakeAt := (rfl)
@[simp] theorem State.setMon_wakeFrom (d : Nat) (m : MonSt) : (s.setMon d m).wakeFrom = s.wakeFrom := (rfl)
@[simp] theorem State.setMon_brgRun (d : Nat) (m : MonSt) : (s.setMon d m).brgRun = s.brgRun := (rfl)
@[simp] theorem State.setMon_served (d : Nat) (m : MonSt) : (s.setMon d m).served = s.served := (rfl)
@[simp] theorem State.setMon_allocs (d : Nat) (m : MonSt) : (s.setMon d m).allocs = s.allocs := (rfl)
@[simp] theorem State.setMon_recNo (d : Nat) (m : MonSt) : (s.setMon d m).recNo = s.recNo := (rfl)
@[simp] theorem State.setMon_recAt (d : Nat) (m : MonSt) : (s.setMon d m).recAt = s.recAt := (rfl)
@[simp] theorem State.setMon_ports (d : Nat) (m : MonSt) : (s.setMon d m).ports = s.ports := (rfl)
@[simp] theorem State.setMon_sync (d : Nat) (m : MonSt) : (s.setMon d m).sync = s.sync := (rfl)
@[simp] theorem State.setMon_cols (d : Nat) (m : MonSt) : (s.setMon d m).cols = s.cols := (rfl)
@[simp] theorem State.setMon_power (d : Nat) (m : MonSt) : (s.setMon d m).power = s.power := (rfl)
@[simp] theorem State.setMon_mzm (d : Nat) (m : MonSt) : (s.setMon d m).mzm = s.mzm := (rfl)

/-! ### `State.setHyd` -/

@[simp] theorem State.setHyd_pending (ch : Nat) (h : HydSt) : (s.setHyd ch h).pending = s.pending := (rfl)
@[simp] theorem State.setHyd_free (ch : Nat) (h : HydSt) : (s.setHyd ch h).free = s.free := (rfl)
@[simp] theorem State.setHyd_out (ch : Nat) (h : HydSt) : (s.setHyd ch h).out = s.out := (rfl)
@[simp] theorem State.setHyd_time (ch : Nat) (h : HydSt) : (s.setHyd ch h).time = s.time := (rfl)
@[simp] theorem State.setHyd_regs (ch : Nat) (h : HydSt) : (s.setHyd ch h).regs = s.regs := (rfl)
@[simp] theorem State.setHyd_latch (ch : Nat) (h : HydSt) : (s.setHyd ch h).latch = s.latch := (rfl)
@[simp] theorem State.setHyd_mem (ch : Nat) (h : HydSt) : (s.setHyd ch h).mem = s.mem := (rfl)
@[simp] theorem State.setHyd_ecc (ch : Nat) (h : HydSt) : (s.setHyd ch h).ecc = s.ecc := (rfl)
@[simp] theorem State.setHyd_units (ch : Nat) (h : HydSt) : (s.setHyd ch h).units = s.units := (rfl)
@[simp] theorem State.setHyd_cores (ch : Nat) (h : HydSt) : (s.setHyd ch h).cores = s.cores := (rfl)
@[simp] theorem State.setHyd_arrs (ch : Nat) (h : HydSt) : (s.setHyd ch h).arrs = s.arrs := (rfl)
@[simp] theorem State.setHyd_tabs (ch : Nat) (h : HydSt) : (s.setHyd ch h).tabs = s.tabs := (rfl)
@[simp] theorem State.setHyd_net (ch : Nat) (h : HydSt) : (s.setHyd ch h).net = s.net := (rfl)
@[simp] theorem State.setHyd_tiers (ch : Nat) (h : HydSt) : (s.setHyd ch h).tiers = s.tiers := (rfl)
@[simp] theorem State.setHyd_streams (ch : Nat) (h : HydSt) : (s.setHyd ch h).streams = s.streams := (rfl)
@[simp] theorem State.setHyd_jobs (ch : Nat) (h : HydSt) : (s.setHyd ch h).jobs = s.jobs := (rfl)
@[simp] theorem State.setHyd_firstErr (ch : Nat) (h : HydSt) : (s.setHyd ch h).firstErr = s.firstErr := (rfl)
@[simp] theorem State.setHyd_irqs (ch : Nat) (h : HydSt) : (s.setHyd ch h).irqs = s.irqs := (rfl)
@[simp] theorem State.setHyd_vectors (ch : Nat) (h : HydSt) : (s.setHyd ch h).vectors = s.vectors := (rfl)
@[simp] theorem State.setHyd_events (ch : Nat) (h : HydSt) : (s.setHyd ch h).events = s.events := (rfl)
@[simp] theorem State.setHyd_routes (ch : Nat) (h : HydSt) : (s.setHyd ch h).routes = s.routes := (rfl)
@[simp] theorem State.setHyd_gov (ch : Nat) (h : HydSt) : (s.setHyd ch h).gov = s.gov := (rfl)
@[simp] theorem State.setHyd_ctxs (ch : Nat) (h : HydSt) : (s.setHyd ch h).ctxs = s.ctxs := (rfl)
@[simp] theorem State.setHyd_psets (ch : Nat) (h : HydSt) : (s.setHyd ch h).psets = s.psets := (rfl)
@[simp] theorem State.setHyd_maps (ch : Nat) (h : HydSt) : (s.setHyd ch h).maps = s.maps := (rfl)
@[simp] theorem State.setHyd_loop (ch : Nat) (h : HydSt) : (s.setHyd ch h).loop = s.loop := (rfl)
@[simp] theorem State.setHyd_txq (ch : Nat) (h : HydSt) : (s.setHyd ch h).txq = s.txq := (rfl)
@[simp] theorem State.setHyd_outst (ch : Nat) (h : HydSt) : (s.setHyd ch h).outst = s.outst := (rfl)
@[simp] theorem State.setHyd_owed (ch : Nat) (h : HydSt) : (s.setHyd ch h).owed = s.owed := (rfl)
@[simp] theorem State.setHyd_stopped (ch : Nat) (h : HydSt) : (s.setHyd ch h).stopped = s.stopped := (rfl)
@[simp] theorem State.setHyd_cask (ch : Nat) (h : HydSt) : (s.setHyd ch h).cask = s.cask := (rfl)
@[simp] theorem State.setHyd_trq (ch : Nat) (h : HydSt) : (s.setHyd ch h).trq = s.trq := (rfl)
@[simp] theorem State.setHyd_trw (ch : Nat) (h : HydSt) : (s.setHyd ch h).trw = s.trw := (rfl)
@[simp] theorem State.setHyd_hang (ch : Nat) (h : HydSt) : (s.setHyd ch h).hang = s.hang := (rfl)
@[simp] theorem State.setHyd_snap (ch : Nat) (h : HydSt) : (s.setHyd ch h).snap = s.snap := (rfl)
@[simp] theorem State.setHyd_snapAt (ch : Nat) (h : HydSt) : (s.setHyd ch h).snapAt = s.snapAt := (rfl)
@[simp] theorem State.setHyd_edge (ch : Nat) (h : HydSt) : (s.setHyd ch h).edge = s.edge := (rfl)
@[simp] theorem State.setHyd_wakeAt (ch : Nat) (h : HydSt) : (s.setHyd ch h).wakeAt = s.wakeAt := (rfl)
@[simp] theorem State.setHyd_wakeFrom (ch : Nat) (h : HydSt) : (s.setHyd ch h).wakeFrom = s.wakeFrom := (rfl)
@[simp] theorem State.setHyd_brgRun (ch : Nat) (h : HydSt) : (s.setHyd ch h).brgRun = s.brgRun := (rfl)
@[simp] theorem State.setHyd_served (ch : Nat) (h : HydSt) : (s.setHyd ch h).served = s.served := (rfl)
@[simp] theorem State.setHyd_allocs (ch : Nat) (h : HydSt) : (s.setHyd ch h).allocs = s.allocs := (rfl)
@[simp] theorem State.setHyd_recNo (ch : Nat) (h : HydSt) : (s.setHyd ch h).recNo = s.recNo := (rfl)
@[simp] theorem State.setHyd_recAt (ch : Nat) (h : HydSt) : (s.setHyd ch h).recAt = s.recAt := (rfl)
@[simp] theorem State.setHyd_ports (ch : Nat) (h : HydSt) : (s.setHyd ch h).ports = s.ports := (rfl)
@[simp] theorem State.setHyd_sync (ch : Nat) (h : HydSt) : (s.setHyd ch h).sync = s.sync := (rfl)
@[simp] theorem State.setHyd_mons (ch : Nat) (h : HydSt) : (s.setHyd ch h).mons = s.mons := (rfl)
@[simp] theorem State.setHyd_cols (ch : Nat) (h : HydSt) : (s.setHyd ch h).cols = s.cols := (rfl)
@[simp] theorem State.setHyd_power (ch : Nat) (h : HydSt) : (s.setHyd ch h).power = s.power := (rfl)
@[simp] theorem State.setHyd_mzm (ch : Nat) (h : HydSt) : (s.setHyd ch h).mzm = s.mzm := (rfl)

/-! ### `State.setCtx` -/

@[simp] theorem State.setCtx_pending (c : Nat) (x : RedCtx) : (s.setCtx c x).pending = s.pending := (rfl)
@[simp] theorem State.setCtx_free (c : Nat) (x : RedCtx) : (s.setCtx c x).free = s.free := (rfl)
@[simp] theorem State.setCtx_out (c : Nat) (x : RedCtx) : (s.setCtx c x).out = s.out := (rfl)
@[simp] theorem State.setCtx_time (c : Nat) (x : RedCtx) : (s.setCtx c x).time = s.time := (rfl)
@[simp] theorem State.setCtx_regs (c : Nat) (x : RedCtx) : (s.setCtx c x).regs = s.regs := (rfl)
@[simp] theorem State.setCtx_latch (c : Nat) (x : RedCtx) : (s.setCtx c x).latch = s.latch := (rfl)
@[simp] theorem State.setCtx_mem (c : Nat) (x : RedCtx) : (s.setCtx c x).mem = s.mem := (rfl)
@[simp] theorem State.setCtx_ecc (c : Nat) (x : RedCtx) : (s.setCtx c x).ecc = s.ecc := (rfl)
@[simp] theorem State.setCtx_units (c : Nat) (x : RedCtx) : (s.setCtx c x).units = s.units := (rfl)
@[simp] theorem State.setCtx_cores (c : Nat) (x : RedCtx) : (s.setCtx c x).cores = s.cores := (rfl)
@[simp] theorem State.setCtx_arrs (c : Nat) (x : RedCtx) : (s.setCtx c x).arrs = s.arrs := (rfl)
@[simp] theorem State.setCtx_tabs (c : Nat) (x : RedCtx) : (s.setCtx c x).tabs = s.tabs := (rfl)
@[simp] theorem State.setCtx_net (c : Nat) (x : RedCtx) : (s.setCtx c x).net = s.net := (rfl)
@[simp] theorem State.setCtx_tiers (c : Nat) (x : RedCtx) : (s.setCtx c x).tiers = s.tiers := (rfl)
@[simp] theorem State.setCtx_streams (c : Nat) (x : RedCtx) : (s.setCtx c x).streams = s.streams := (rfl)
@[simp] theorem State.setCtx_jobs (c : Nat) (x : RedCtx) : (s.setCtx c x).jobs = s.jobs := (rfl)
@[simp] theorem State.setCtx_firstErr (c : Nat) (x : RedCtx) : (s.setCtx c x).firstErr = s.firstErr := (rfl)
@[simp] theorem State.setCtx_irqs (c : Nat) (x : RedCtx) : (s.setCtx c x).irqs = s.irqs := (rfl)
@[simp] theorem State.setCtx_vectors (c : Nat) (x : RedCtx) : (s.setCtx c x).vectors = s.vectors := (rfl)
@[simp] theorem State.setCtx_events (c : Nat) (x : RedCtx) : (s.setCtx c x).events = s.events := (rfl)
@[simp] theorem State.setCtx_routes (c : Nat) (x : RedCtx) : (s.setCtx c x).routes = s.routes := (rfl)
@[simp] theorem State.setCtx_hyds (c : Nat) (x : RedCtx) : (s.setCtx c x).hyds = s.hyds := (rfl)
@[simp] theorem State.setCtx_gov (c : Nat) (x : RedCtx) : (s.setCtx c x).gov = s.gov := (rfl)
@[simp] theorem State.setCtx_psets (c : Nat) (x : RedCtx) : (s.setCtx c x).psets = s.psets := (rfl)
@[simp] theorem State.setCtx_maps (c : Nat) (x : RedCtx) : (s.setCtx c x).maps = s.maps := (rfl)
@[simp] theorem State.setCtx_loop (c : Nat) (x : RedCtx) : (s.setCtx c x).loop = s.loop := (rfl)
@[simp] theorem State.setCtx_txq (c : Nat) (x : RedCtx) : (s.setCtx c x).txq = s.txq := (rfl)
@[simp] theorem State.setCtx_outst (c : Nat) (x : RedCtx) : (s.setCtx c x).outst = s.outst := (rfl)
@[simp] theorem State.setCtx_owed (c : Nat) (x : RedCtx) : (s.setCtx c x).owed = s.owed := (rfl)
@[simp] theorem State.setCtx_stopped (c : Nat) (x : RedCtx) : (s.setCtx c x).stopped = s.stopped := (rfl)
@[simp] theorem State.setCtx_cask (c : Nat) (x : RedCtx) : (s.setCtx c x).cask = s.cask := (rfl)
@[simp] theorem State.setCtx_trq (c : Nat) (x : RedCtx) : (s.setCtx c x).trq = s.trq := (rfl)
@[simp] theorem State.setCtx_trw (c : Nat) (x : RedCtx) : (s.setCtx c x).trw = s.trw := (rfl)
@[simp] theorem State.setCtx_hang (c : Nat) (x : RedCtx) : (s.setCtx c x).hang = s.hang := (rfl)
@[simp] theorem State.setCtx_snap (c : Nat) (x : RedCtx) : (s.setCtx c x).snap = s.snap := (rfl)
@[simp] theorem State.setCtx_snapAt (c : Nat) (x : RedCtx) : (s.setCtx c x).snapAt = s.snapAt := (rfl)
@[simp] theorem State.setCtx_edge (c : Nat) (x : RedCtx) : (s.setCtx c x).edge = s.edge := (rfl)
@[simp] theorem State.setCtx_wakeAt (c : Nat) (x : RedCtx) : (s.setCtx c x).wakeAt = s.wakeAt := (rfl)
@[simp] theorem State.setCtx_wakeFrom (c : Nat) (x : RedCtx) : (s.setCtx c x).wakeFrom = s.wakeFrom := (rfl)
@[simp] theorem State.setCtx_brgRun (c : Nat) (x : RedCtx) : (s.setCtx c x).brgRun = s.brgRun := (rfl)
@[simp] theorem State.setCtx_served (c : Nat) (x : RedCtx) : (s.setCtx c x).served = s.served := (rfl)
@[simp] theorem State.setCtx_allocs (c : Nat) (x : RedCtx) : (s.setCtx c x).allocs = s.allocs := (rfl)
@[simp] theorem State.setCtx_recNo (c : Nat) (x : RedCtx) : (s.setCtx c x).recNo = s.recNo := (rfl)
@[simp] theorem State.setCtx_recAt (c : Nat) (x : RedCtx) : (s.setCtx c x).recAt = s.recAt := (rfl)
@[simp] theorem State.setCtx_ports (c : Nat) (x : RedCtx) : (s.setCtx c x).ports = s.ports := (rfl)
@[simp] theorem State.setCtx_sync (c : Nat) (x : RedCtx) : (s.setCtx c x).sync = s.sync := (rfl)
@[simp] theorem State.setCtx_mons (c : Nat) (x : RedCtx) : (s.setCtx c x).mons = s.mons := (rfl)
@[simp] theorem State.setCtx_cols (c : Nat) (x : RedCtx) : (s.setCtx c x).cols = s.cols := (rfl)
@[simp] theorem State.setCtx_power (c : Nat) (x : RedCtx) : (s.setCtx c x).power = s.power := (rfl)
@[simp] theorem State.setCtx_mzm (c : Nat) (x : RedCtx) : (s.setCtx c x).mzm = s.mzm := (rfl)

/-! ### `State.setPort` -/

@[simp] theorem State.setPort_pending (p : Nat) (x : PortSt) : (s.setPort p x).pending = s.pending := (rfl)
@[simp] theorem State.setPort_free (p : Nat) (x : PortSt) : (s.setPort p x).free = s.free := (rfl)
@[simp] theorem State.setPort_out (p : Nat) (x : PortSt) : (s.setPort p x).out = s.out := (rfl)
@[simp] theorem State.setPort_time (p : Nat) (x : PortSt) : (s.setPort p x).time = s.time := (rfl)
@[simp] theorem State.setPort_regs (p : Nat) (x : PortSt) : (s.setPort p x).regs = s.regs := (rfl)
@[simp] theorem State.setPort_latch (p : Nat) (x : PortSt) : (s.setPort p x).latch = s.latch := (rfl)
@[simp] theorem State.setPort_mem (p : Nat) (x : PortSt) : (s.setPort p x).mem = s.mem := (rfl)
@[simp] theorem State.setPort_ecc (p : Nat) (x : PortSt) : (s.setPort p x).ecc = s.ecc := (rfl)
@[simp] theorem State.setPort_units (p : Nat) (x : PortSt) : (s.setPort p x).units = s.units := (rfl)
@[simp] theorem State.setPort_cores (p : Nat) (x : PortSt) : (s.setPort p x).cores = s.cores := (rfl)
@[simp] theorem State.setPort_arrs (p : Nat) (x : PortSt) : (s.setPort p x).arrs = s.arrs := (rfl)
@[simp] theorem State.setPort_tabs (p : Nat) (x : PortSt) : (s.setPort p x).tabs = s.tabs := (rfl)
@[simp] theorem State.setPort_net (p : Nat) (x : PortSt) : (s.setPort p x).net = s.net := (rfl)
@[simp] theorem State.setPort_tiers (p : Nat) (x : PortSt) : (s.setPort p x).tiers = s.tiers := (rfl)
@[simp] theorem State.setPort_streams (p : Nat) (x : PortSt) : (s.setPort p x).streams = s.streams := (rfl)
@[simp] theorem State.setPort_jobs (p : Nat) (x : PortSt) : (s.setPort p x).jobs = s.jobs := (rfl)
@[simp] theorem State.setPort_firstErr (p : Nat) (x : PortSt) : (s.setPort p x).firstErr = s.firstErr := (rfl)
@[simp] theorem State.setPort_irqs (p : Nat) (x : PortSt) : (s.setPort p x).irqs = s.irqs := (rfl)
@[simp] theorem State.setPort_vectors (p : Nat) (x : PortSt) : (s.setPort p x).vectors = s.vectors := (rfl)
@[simp] theorem State.setPort_events (p : Nat) (x : PortSt) : (s.setPort p x).events = s.events := (rfl)
@[simp] theorem State.setPort_routes (p : Nat) (x : PortSt) : (s.setPort p x).routes = s.routes := (rfl)
@[simp] theorem State.setPort_hyds (p : Nat) (x : PortSt) : (s.setPort p x).hyds = s.hyds := (rfl)
@[simp] theorem State.setPort_gov (p : Nat) (x : PortSt) : (s.setPort p x).gov = s.gov := (rfl)
@[simp] theorem State.setPort_ctxs (p : Nat) (x : PortSt) : (s.setPort p x).ctxs = s.ctxs := (rfl)
@[simp] theorem State.setPort_psets (p : Nat) (x : PortSt) : (s.setPort p x).psets = s.psets := (rfl)
@[simp] theorem State.setPort_maps (p : Nat) (x : PortSt) : (s.setPort p x).maps = s.maps := (rfl)
@[simp] theorem State.setPort_loop (p : Nat) (x : PortSt) : (s.setPort p x).loop = s.loop := (rfl)
@[simp] theorem State.setPort_txq (p : Nat) (x : PortSt) : (s.setPort p x).txq = s.txq := (rfl)
@[simp] theorem State.setPort_outst (p : Nat) (x : PortSt) : (s.setPort p x).outst = s.outst := (rfl)
@[simp] theorem State.setPort_owed (p : Nat) (x : PortSt) : (s.setPort p x).owed = s.owed := (rfl)
@[simp] theorem State.setPort_stopped (p : Nat) (x : PortSt) : (s.setPort p x).stopped = s.stopped := (rfl)
@[simp] theorem State.setPort_cask (p : Nat) (x : PortSt) : (s.setPort p x).cask = s.cask := (rfl)
@[simp] theorem State.setPort_trq (p : Nat) (x : PortSt) : (s.setPort p x).trq = s.trq := (rfl)
@[simp] theorem State.setPort_trw (p : Nat) (x : PortSt) : (s.setPort p x).trw = s.trw := (rfl)
@[simp] theorem State.setPort_hang (p : Nat) (x : PortSt) : (s.setPort p x).hang = s.hang := (rfl)
@[simp] theorem State.setPort_snap (p : Nat) (x : PortSt) : (s.setPort p x).snap = s.snap := (rfl)
@[simp] theorem State.setPort_snapAt (p : Nat) (x : PortSt) : (s.setPort p x).snapAt = s.snapAt := (rfl)
@[simp] theorem State.setPort_edge (p : Nat) (x : PortSt) : (s.setPort p x).edge = s.edge := (rfl)
@[simp] theorem State.setPort_wakeAt (p : Nat) (x : PortSt) : (s.setPort p x).wakeAt = s.wakeAt := (rfl)
@[simp] theorem State.setPort_wakeFrom (p : Nat) (x : PortSt) : (s.setPort p x).wakeFrom = s.wakeFrom := (rfl)
@[simp] theorem State.setPort_brgRun (p : Nat) (x : PortSt) : (s.setPort p x).brgRun = s.brgRun := (rfl)
@[simp] theorem State.setPort_served (p : Nat) (x : PortSt) : (s.setPort p x).served = s.served := (rfl)
@[simp] theorem State.setPort_allocs (p : Nat) (x : PortSt) : (s.setPort p x).allocs = s.allocs := (rfl)
@[simp] theorem State.setPort_recNo (p : Nat) (x : PortSt) : (s.setPort p x).recNo = s.recNo := (rfl)
@[simp] theorem State.setPort_recAt (p : Nat) (x : PortSt) : (s.setPort p x).recAt = s.recAt := (rfl)
@[simp] theorem State.setPort_sync (p : Nat) (x : PortSt) : (s.setPort p x).sync = s.sync := (rfl)
@[simp] theorem State.setPort_mons (p : Nat) (x : PortSt) : (s.setPort p x).mons = s.mons := (rfl)
@[simp] theorem State.setPort_cols (p : Nat) (x : PortSt) : (s.setPort p x).cols = s.cols := (rfl)
@[simp] theorem State.setPort_power (p : Nat) (x : PortSt) : (s.setPort p x).power = s.power := (rfl)
@[simp] theorem State.setPort_mzm (p : Nat) (x : PortSt) : (s.setPort p x).mzm = s.mzm := (rfl)

/-! ### `State.setTrq` -/

@[simp] theorem State.setTrq_pending (ch : Nat) (q : TrcQ) : (s.setTrq ch q).pending = s.pending := (rfl)
@[simp] theorem State.setTrq_free (ch : Nat) (q : TrcQ) : (s.setTrq ch q).free = s.free := (rfl)
@[simp] theorem State.setTrq_out (ch : Nat) (q : TrcQ) : (s.setTrq ch q).out = s.out := (rfl)
@[simp] theorem State.setTrq_time (ch : Nat) (q : TrcQ) : (s.setTrq ch q).time = s.time := (rfl)
@[simp] theorem State.setTrq_regs (ch : Nat) (q : TrcQ) : (s.setTrq ch q).regs = s.regs := (rfl)
@[simp] theorem State.setTrq_latch (ch : Nat) (q : TrcQ) : (s.setTrq ch q).latch = s.latch := (rfl)
@[simp] theorem State.setTrq_mem (ch : Nat) (q : TrcQ) : (s.setTrq ch q).mem = s.mem := (rfl)
@[simp] theorem State.setTrq_ecc (ch : Nat) (q : TrcQ) : (s.setTrq ch q).ecc = s.ecc := (rfl)
@[simp] theorem State.setTrq_units (ch : Nat) (q : TrcQ) : (s.setTrq ch q).units = s.units := (rfl)
@[simp] theorem State.setTrq_cores (ch : Nat) (q : TrcQ) : (s.setTrq ch q).cores = s.cores := (rfl)
@[simp] theorem State.setTrq_arrs (ch : Nat) (q : TrcQ) : (s.setTrq ch q).arrs = s.arrs := (rfl)
@[simp] theorem State.setTrq_tabs (ch : Nat) (q : TrcQ) : (s.setTrq ch q).tabs = s.tabs := (rfl)
@[simp] theorem State.setTrq_net (ch : Nat) (q : TrcQ) : (s.setTrq ch q).net = s.net := (rfl)
@[simp] theorem State.setTrq_tiers (ch : Nat) (q : TrcQ) : (s.setTrq ch q).tiers = s.tiers := (rfl)
@[simp] theorem State.setTrq_streams (ch : Nat) (q : TrcQ) : (s.setTrq ch q).streams = s.streams := (rfl)
@[simp] theorem State.setTrq_jobs (ch : Nat) (q : TrcQ) : (s.setTrq ch q).jobs = s.jobs := (rfl)
@[simp] theorem State.setTrq_firstErr (ch : Nat) (q : TrcQ) : (s.setTrq ch q).firstErr = s.firstErr := (rfl)
@[simp] theorem State.setTrq_irqs (ch : Nat) (q : TrcQ) : (s.setTrq ch q).irqs = s.irqs := (rfl)
@[simp] theorem State.setTrq_vectors (ch : Nat) (q : TrcQ) : (s.setTrq ch q).vectors = s.vectors := (rfl)
@[simp] theorem State.setTrq_events (ch : Nat) (q : TrcQ) : (s.setTrq ch q).events = s.events := (rfl)
@[simp] theorem State.setTrq_routes (ch : Nat) (q : TrcQ) : (s.setTrq ch q).routes = s.routes := (rfl)
@[simp] theorem State.setTrq_hyds (ch : Nat) (q : TrcQ) : (s.setTrq ch q).hyds = s.hyds := (rfl)
@[simp] theorem State.setTrq_gov (ch : Nat) (q : TrcQ) : (s.setTrq ch q).gov = s.gov := (rfl)
@[simp] theorem State.setTrq_ctxs (ch : Nat) (q : TrcQ) : (s.setTrq ch q).ctxs = s.ctxs := (rfl)
@[simp] theorem State.setTrq_psets (ch : Nat) (q : TrcQ) : (s.setTrq ch q).psets = s.psets := (rfl)
@[simp] theorem State.setTrq_maps (ch : Nat) (q : TrcQ) : (s.setTrq ch q).maps = s.maps := (rfl)
@[simp] theorem State.setTrq_loop (ch : Nat) (q : TrcQ) : (s.setTrq ch q).loop = s.loop := (rfl)
@[simp] theorem State.setTrq_txq (ch : Nat) (q : TrcQ) : (s.setTrq ch q).txq = s.txq := (rfl)
@[simp] theorem State.setTrq_outst (ch : Nat) (q : TrcQ) : (s.setTrq ch q).outst = s.outst := (rfl)
@[simp] theorem State.setTrq_owed (ch : Nat) (q : TrcQ) : (s.setTrq ch q).owed = s.owed := (rfl)
@[simp] theorem State.setTrq_stopped (ch : Nat) (q : TrcQ) : (s.setTrq ch q).stopped = s.stopped := (rfl)
@[simp] theorem State.setTrq_cask (ch : Nat) (q : TrcQ) : (s.setTrq ch q).cask = s.cask := (rfl)
@[simp] theorem State.setTrq_trw (ch : Nat) (q : TrcQ) : (s.setTrq ch q).trw = s.trw := (rfl)
@[simp] theorem State.setTrq_hang (ch : Nat) (q : TrcQ) : (s.setTrq ch q).hang = s.hang := (rfl)
@[simp] theorem State.setTrq_snap (ch : Nat) (q : TrcQ) : (s.setTrq ch q).snap = s.snap := (rfl)
@[simp] theorem State.setTrq_snapAt (ch : Nat) (q : TrcQ) : (s.setTrq ch q).snapAt = s.snapAt := (rfl)
@[simp] theorem State.setTrq_edge (ch : Nat) (q : TrcQ) : (s.setTrq ch q).edge = s.edge := (rfl)
@[simp] theorem State.setTrq_wakeAt (ch : Nat) (q : TrcQ) : (s.setTrq ch q).wakeAt = s.wakeAt := (rfl)
@[simp] theorem State.setTrq_wakeFrom (ch : Nat) (q : TrcQ) : (s.setTrq ch q).wakeFrom = s.wakeFrom := (rfl)
@[simp] theorem State.setTrq_brgRun (ch : Nat) (q : TrcQ) : (s.setTrq ch q).brgRun = s.brgRun := (rfl)
@[simp] theorem State.setTrq_served (ch : Nat) (q : TrcQ) : (s.setTrq ch q).served = s.served := (rfl)
@[simp] theorem State.setTrq_allocs (ch : Nat) (q : TrcQ) : (s.setTrq ch q).allocs = s.allocs := (rfl)
@[simp] theorem State.setTrq_recNo (ch : Nat) (q : TrcQ) : (s.setTrq ch q).recNo = s.recNo := (rfl)
@[simp] theorem State.setTrq_recAt (ch : Nat) (q : TrcQ) : (s.setTrq ch q).recAt = s.recAt := (rfl)
@[simp] theorem State.setTrq_ports (ch : Nat) (q : TrcQ) : (s.setTrq ch q).ports = s.ports := (rfl)
@[simp] theorem State.setTrq_sync (ch : Nat) (q : TrcQ) : (s.setTrq ch q).sync = s.sync := (rfl)
@[simp] theorem State.setTrq_mons (ch : Nat) (q : TrcQ) : (s.setTrq ch q).mons = s.mons := (rfl)
@[simp] theorem State.setTrq_cols (ch : Nat) (q : TrcQ) : (s.setTrq ch q).cols = s.cols := (rfl)
@[simp] theorem State.setTrq_power (ch : Nat) (q : TrcQ) : (s.setTrq ch q).power = s.power := (rfl)
@[simp] theorem State.setTrq_mzm (ch : Nat) (q : TrcQ) : (s.setTrq ch q).mzm = s.mzm := (rfl)

/-! ### `State.setTrw` -/

@[simp] theorem State.setTrw_pending (d : Nat) (w : TrcW) : (s.setTrw d w).pending = s.pending := (rfl)
@[simp] theorem State.setTrw_free (d : Nat) (w : TrcW) : (s.setTrw d w).free = s.free := (rfl)
@[simp] theorem State.setTrw_out (d : Nat) (w : TrcW) : (s.setTrw d w).out = s.out := (rfl)
@[simp] theorem State.setTrw_time (d : Nat) (w : TrcW) : (s.setTrw d w).time = s.time := (rfl)
@[simp] theorem State.setTrw_regs (d : Nat) (w : TrcW) : (s.setTrw d w).regs = s.regs := (rfl)
@[simp] theorem State.setTrw_latch (d : Nat) (w : TrcW) : (s.setTrw d w).latch = s.latch := (rfl)
@[simp] theorem State.setTrw_mem (d : Nat) (w : TrcW) : (s.setTrw d w).mem = s.mem := (rfl)
@[simp] theorem State.setTrw_ecc (d : Nat) (w : TrcW) : (s.setTrw d w).ecc = s.ecc := (rfl)
@[simp] theorem State.setTrw_units (d : Nat) (w : TrcW) : (s.setTrw d w).units = s.units := (rfl)
@[simp] theorem State.setTrw_cores (d : Nat) (w : TrcW) : (s.setTrw d w).cores = s.cores := (rfl)
@[simp] theorem State.setTrw_arrs (d : Nat) (w : TrcW) : (s.setTrw d w).arrs = s.arrs := (rfl)
@[simp] theorem State.setTrw_tabs (d : Nat) (w : TrcW) : (s.setTrw d w).tabs = s.tabs := (rfl)
@[simp] theorem State.setTrw_net (d : Nat) (w : TrcW) : (s.setTrw d w).net = s.net := (rfl)
@[simp] theorem State.setTrw_tiers (d : Nat) (w : TrcW) : (s.setTrw d w).tiers = s.tiers := (rfl)
@[simp] theorem State.setTrw_streams (d : Nat) (w : TrcW) : (s.setTrw d w).streams = s.streams := (rfl)
@[simp] theorem State.setTrw_jobs (d : Nat) (w : TrcW) : (s.setTrw d w).jobs = s.jobs := (rfl)
@[simp] theorem State.setTrw_firstErr (d : Nat) (w : TrcW) : (s.setTrw d w).firstErr = s.firstErr := (rfl)
@[simp] theorem State.setTrw_irqs (d : Nat) (w : TrcW) : (s.setTrw d w).irqs = s.irqs := (rfl)
@[simp] theorem State.setTrw_vectors (d : Nat) (w : TrcW) : (s.setTrw d w).vectors = s.vectors := (rfl)
@[simp] theorem State.setTrw_events (d : Nat) (w : TrcW) : (s.setTrw d w).events = s.events := (rfl)
@[simp] theorem State.setTrw_routes (d : Nat) (w : TrcW) : (s.setTrw d w).routes = s.routes := (rfl)
@[simp] theorem State.setTrw_hyds (d : Nat) (w : TrcW) : (s.setTrw d w).hyds = s.hyds := (rfl)
@[simp] theorem State.setTrw_gov (d : Nat) (w : TrcW) : (s.setTrw d w).gov = s.gov := (rfl)
@[simp] theorem State.setTrw_ctxs (d : Nat) (w : TrcW) : (s.setTrw d w).ctxs = s.ctxs := (rfl)
@[simp] theorem State.setTrw_psets (d : Nat) (w : TrcW) : (s.setTrw d w).psets = s.psets := (rfl)
@[simp] theorem State.setTrw_maps (d : Nat) (w : TrcW) : (s.setTrw d w).maps = s.maps := (rfl)
@[simp] theorem State.setTrw_loop (d : Nat) (w : TrcW) : (s.setTrw d w).loop = s.loop := (rfl)
@[simp] theorem State.setTrw_txq (d : Nat) (w : TrcW) : (s.setTrw d w).txq = s.txq := (rfl)
@[simp] theorem State.setTrw_outst (d : Nat) (w : TrcW) : (s.setTrw d w).outst = s.outst := (rfl)
@[simp] theorem State.setTrw_owed (d : Nat) (w : TrcW) : (s.setTrw d w).owed = s.owed := (rfl)
@[simp] theorem State.setTrw_stopped (d : Nat) (w : TrcW) : (s.setTrw d w).stopped = s.stopped := (rfl)
@[simp] theorem State.setTrw_cask (d : Nat) (w : TrcW) : (s.setTrw d w).cask = s.cask := (rfl)
@[simp] theorem State.setTrw_trq (d : Nat) (w : TrcW) : (s.setTrw d w).trq = s.trq := (rfl)
@[simp] theorem State.setTrw_hang (d : Nat) (w : TrcW) : (s.setTrw d w).hang = s.hang := (rfl)
@[simp] theorem State.setTrw_snap (d : Nat) (w : TrcW) : (s.setTrw d w).snap = s.snap := (rfl)
@[simp] theorem State.setTrw_snapAt (d : Nat) (w : TrcW) : (s.setTrw d w).snapAt = s.snapAt := (rfl)
@[simp] theorem State.setTrw_edge (d : Nat) (w : TrcW) : (s.setTrw d w).edge = s.edge := (rfl)
@[simp] theorem State.setTrw_wakeAt (d : Nat) (w : TrcW) : (s.setTrw d w).wakeAt = s.wakeAt := (rfl)
@[simp] theorem State.setTrw_wakeFrom (d : Nat) (w : TrcW) : (s.setTrw d w).wakeFrom = s.wakeFrom := (rfl)
@[simp] theorem State.setTrw_brgRun (d : Nat) (w : TrcW) : (s.setTrw d w).brgRun = s.brgRun := (rfl)
@[simp] theorem State.setTrw_served (d : Nat) (w : TrcW) : (s.setTrw d w).served = s.served := (rfl)
@[simp] theorem State.setTrw_allocs (d : Nat) (w : TrcW) : (s.setTrw d w).allocs = s.allocs := (rfl)
@[simp] theorem State.setTrw_recNo (d : Nat) (w : TrcW) : (s.setTrw d w).recNo = s.recNo := (rfl)
@[simp] theorem State.setTrw_recAt (d : Nat) (w : TrcW) : (s.setTrw d w).recAt = s.recAt := (rfl)
@[simp] theorem State.setTrw_ports (d : Nat) (w : TrcW) : (s.setTrw d w).ports = s.ports := (rfl)
@[simp] theorem State.setTrw_sync (d : Nat) (w : TrcW) : (s.setTrw d w).sync = s.sync := (rfl)
@[simp] theorem State.setTrw_mons (d : Nat) (w : TrcW) : (s.setTrw d w).mons = s.mons := (rfl)
@[simp] theorem State.setTrw_cols (d : Nat) (w : TrcW) : (s.setTrw d w).cols = s.cols := (rfl)
@[simp] theorem State.setTrw_power (d : Nat) (w : TrcW) : (s.setTrw d w).power = s.power := (rfl)
@[simp] theorem State.setTrw_mzm (d : Nat) (w : TrcW) : (s.setTrw d w).mzm = s.mzm := (rfl)

/-! ### `State.setEntry` -/

@[simp] theorem State.setEntry_pending (l e : Nat) : (s.setEntry l e).pending = s.pending := (rfl)
@[simp] theorem State.setEntry_free (l e : Nat) : (s.setEntry l e).free = s.free := (rfl)
@[simp] theorem State.setEntry_out (l e : Nat) : (s.setEntry l e).out = s.out := (rfl)
@[simp] theorem State.setEntry_time (l e : Nat) : (s.setEntry l e).time = s.time := (rfl)
@[simp] theorem State.setEntry_regs (l e : Nat) : (s.setEntry l e).regs = s.regs := (rfl)
@[simp] theorem State.setEntry_latch (l e : Nat) : (s.setEntry l e).latch = s.latch := (rfl)
@[simp] theorem State.setEntry_mem (l e : Nat) : (s.setEntry l e).mem = s.mem := (rfl)
@[simp] theorem State.setEntry_ecc (l e : Nat) : (s.setEntry l e).ecc = s.ecc := (rfl)
@[simp] theorem State.setEntry_units (l e : Nat) : (s.setEntry l e).units = s.units := (rfl)
@[simp] theorem State.setEntry_cores (l e : Nat) : (s.setEntry l e).cores = s.cores := (rfl)
@[simp] theorem State.setEntry_arrs (l e : Nat) : (s.setEntry l e).arrs = s.arrs := (rfl)
@[simp] theorem State.setEntry_tabs (l e : Nat) : (s.setEntry l e).tabs = s.tabs := (rfl)
@[simp] theorem State.setEntry_net (l e : Nat) : (s.setEntry l e).net = s.net := (rfl)
@[simp] theorem State.setEntry_tiers (l e : Nat) : (s.setEntry l e).tiers = s.tiers := (rfl)
@[simp] theorem State.setEntry_streams (l e : Nat) : (s.setEntry l e).streams = s.streams := (rfl)
@[simp] theorem State.setEntry_jobs (l e : Nat) : (s.setEntry l e).jobs = s.jobs := (rfl)
@[simp] theorem State.setEntry_firstErr (l e : Nat) : (s.setEntry l e).firstErr = s.firstErr := (rfl)
@[simp] theorem State.setEntry_irqs (l e : Nat) : (s.setEntry l e).irqs = s.irqs := (rfl)
@[simp] theorem State.setEntry_vectors (l e : Nat) : (s.setEntry l e).vectors = s.vectors := (rfl)
@[simp] theorem State.setEntry_events (l e : Nat) : (s.setEntry l e).events = s.events := (rfl)
@[simp] theorem State.setEntry_routes (l e : Nat) : (s.setEntry l e).routes = s.routes := (rfl)
@[simp] theorem State.setEntry_hyds (l e : Nat) : (s.setEntry l e).hyds = s.hyds := (rfl)
@[simp] theorem State.setEntry_ctxs (l e : Nat) : (s.setEntry l e).ctxs = s.ctxs := (rfl)
@[simp] theorem State.setEntry_psets (l e : Nat) : (s.setEntry l e).psets = s.psets := (rfl)
@[simp] theorem State.setEntry_maps (l e : Nat) : (s.setEntry l e).maps = s.maps := (rfl)
@[simp] theorem State.setEntry_loop (l e : Nat) : (s.setEntry l e).loop = s.loop := (rfl)
@[simp] theorem State.setEntry_txq (l e : Nat) : (s.setEntry l e).txq = s.txq := (rfl)
@[simp] theorem State.setEntry_outst (l e : Nat) : (s.setEntry l e).outst = s.outst := (rfl)
@[simp] theorem State.setEntry_owed (l e : Nat) : (s.setEntry l e).owed = s.owed := (rfl)
@[simp] theorem State.setEntry_stopped (l e : Nat) : (s.setEntry l e).stopped = s.stopped := (rfl)
@[simp] theorem State.setEntry_cask (l e : Nat) : (s.setEntry l e).cask = s.cask := (rfl)
@[simp] theorem State.setEntry_trq (l e : Nat) : (s.setEntry l e).trq = s.trq := (rfl)
@[simp] theorem State.setEntry_trw (l e : Nat) : (s.setEntry l e).trw = s.trw := (rfl)
@[simp] theorem State.setEntry_hang (l e : Nat) : (s.setEntry l e).hang = s.hang := (rfl)
@[simp] theorem State.setEntry_snap (l e : Nat) : (s.setEntry l e).snap = s.snap := (rfl)
@[simp] theorem State.setEntry_snapAt (l e : Nat) : (s.setEntry l e).snapAt = s.snapAt := (rfl)
@[simp] theorem State.setEntry_edge (l e : Nat) : (s.setEntry l e).edge = s.edge := (rfl)
@[simp] theorem State.setEntry_wakeAt (l e : Nat) : (s.setEntry l e).wakeAt = s.wakeAt := (rfl)
@[simp] theorem State.setEntry_wakeFrom (l e : Nat) : (s.setEntry l e).wakeFrom = s.wakeFrom := (rfl)
@[simp] theorem State.setEntry_brgRun (l e : Nat) : (s.setEntry l e).brgRun = s.brgRun := (rfl)
@[simp] theorem State.setEntry_served (l e : Nat) : (s.setEntry l e).served = s.served := (rfl)
@[simp] theorem State.setEntry_allocs (l e : Nat) : (s.setEntry l e).allocs = s.allocs := (rfl)
@[simp] theorem State.setEntry_recNo (l e : Nat) : (s.setEntry l e).recNo = s.recNo := (rfl)
@[simp] theorem State.setEntry_recAt (l e : Nat) : (s.setEntry l e).recAt = s.recAt := (rfl)
@[simp] theorem State.setEntry_ports (l e : Nat) : (s.setEntry l e).ports = s.ports := (rfl)
@[simp] theorem State.setEntry_sync (l e : Nat) : (s.setEntry l e).sync = s.sync := (rfl)
@[simp] theorem State.setEntry_mons (l e : Nat) : (s.setEntry l e).mons = s.mons := (rfl)
@[simp] theorem State.setEntry_cols (l e : Nat) : (s.setEntry l e).cols = s.cols := (rfl)
@[simp] theorem State.setEntry_power (l e : Nat) : (s.setEntry l e).power = s.power := (rfl)
@[simp] theorem State.setEntry_mzm (l e : Nat) : (s.setEntry l e).mzm = s.mzm := (rfl)

/-! ### `State.setTaster` -/

@[simp] theorem State.setTaster_pending (l : Nat) (t : TastEnt) : (s.setTaster l t).pending = s.pending := (rfl)
@[simp] theorem State.setTaster_free (l : Nat) (t : TastEnt) : (s.setTaster l t).free = s.free := (rfl)
@[simp] theorem State.setTaster_out (l : Nat) (t : TastEnt) : (s.setTaster l t).out = s.out := (rfl)
@[simp] theorem State.setTaster_time (l : Nat) (t : TastEnt) : (s.setTaster l t).time = s.time := (rfl)
@[simp] theorem State.setTaster_regs (l : Nat) (t : TastEnt) : (s.setTaster l t).regs = s.regs := (rfl)
@[simp] theorem State.setTaster_latch (l : Nat) (t : TastEnt) : (s.setTaster l t).latch = s.latch := (rfl)
@[simp] theorem State.setTaster_mem (l : Nat) (t : TastEnt) : (s.setTaster l t).mem = s.mem := (rfl)
@[simp] theorem State.setTaster_ecc (l : Nat) (t : TastEnt) : (s.setTaster l t).ecc = s.ecc := (rfl)
@[simp] theorem State.setTaster_units (l : Nat) (t : TastEnt) : (s.setTaster l t).units = s.units := (rfl)
@[simp] theorem State.setTaster_cores (l : Nat) (t : TastEnt) : (s.setTaster l t).cores = s.cores := (rfl)
@[simp] theorem State.setTaster_arrs (l : Nat) (t : TastEnt) : (s.setTaster l t).arrs = s.arrs := (rfl)
@[simp] theorem State.setTaster_tabs (l : Nat) (t : TastEnt) : (s.setTaster l t).tabs = s.tabs := (rfl)
@[simp] theorem State.setTaster_net (l : Nat) (t : TastEnt) : (s.setTaster l t).net = s.net := (rfl)
@[simp] theorem State.setTaster_tiers (l : Nat) (t : TastEnt) : (s.setTaster l t).tiers = s.tiers := (rfl)
@[simp] theorem State.setTaster_streams (l : Nat) (t : TastEnt) : (s.setTaster l t).streams = s.streams := (rfl)
@[simp] theorem State.setTaster_jobs (l : Nat) (t : TastEnt) : (s.setTaster l t).jobs = s.jobs := (rfl)
@[simp] theorem State.setTaster_firstErr (l : Nat) (t : TastEnt) : (s.setTaster l t).firstErr = s.firstErr := (rfl)
@[simp] theorem State.setTaster_irqs (l : Nat) (t : TastEnt) : (s.setTaster l t).irqs = s.irqs := (rfl)
@[simp] theorem State.setTaster_vectors (l : Nat) (t : TastEnt) : (s.setTaster l t).vectors = s.vectors := (rfl)
@[simp] theorem State.setTaster_events (l : Nat) (t : TastEnt) : (s.setTaster l t).events = s.events := (rfl)
@[simp] theorem State.setTaster_routes (l : Nat) (t : TastEnt) : (s.setTaster l t).routes = s.routes := (rfl)
@[simp] theorem State.setTaster_hyds (l : Nat) (t : TastEnt) : (s.setTaster l t).hyds = s.hyds := (rfl)
@[simp] theorem State.setTaster_ctxs (l : Nat) (t : TastEnt) : (s.setTaster l t).ctxs = s.ctxs := (rfl)
@[simp] theorem State.setTaster_psets (l : Nat) (t : TastEnt) : (s.setTaster l t).psets = s.psets := (rfl)
@[simp] theorem State.setTaster_maps (l : Nat) (t : TastEnt) : (s.setTaster l t).maps = s.maps := (rfl)
@[simp] theorem State.setTaster_loop (l : Nat) (t : TastEnt) : (s.setTaster l t).loop = s.loop := (rfl)
@[simp] theorem State.setTaster_txq (l : Nat) (t : TastEnt) : (s.setTaster l t).txq = s.txq := (rfl)
@[simp] theorem State.setTaster_outst (l : Nat) (t : TastEnt) : (s.setTaster l t).outst = s.outst := (rfl)
@[simp] theorem State.setTaster_owed (l : Nat) (t : TastEnt) : (s.setTaster l t).owed = s.owed := (rfl)
@[simp] theorem State.setTaster_stopped (l : Nat) (t : TastEnt) : (s.setTaster l t).stopped = s.stopped := (rfl)
@[simp] theorem State.setTaster_cask (l : Nat) (t : TastEnt) : (s.setTaster l t).cask = s.cask := (rfl)
@[simp] theorem State.setTaster_trq (l : Nat) (t : TastEnt) : (s.setTaster l t).trq = s.trq := (rfl)
@[simp] theorem State.setTaster_trw (l : Nat) (t : TastEnt) : (s.setTaster l t).trw = s.trw := (rfl)
@[simp] theorem State.setTaster_hang (l : Nat) (t : TastEnt) : (s.setTaster l t).hang = s.hang := (rfl)
@[simp] theorem State.setTaster_snap (l : Nat) (t : TastEnt) : (s.setTaster l t).snap = s.snap := (rfl)
@[simp] theorem State.setTaster_snapAt (l : Nat) (t : TastEnt) : (s.setTaster l t).snapAt = s.snapAt := (rfl)
@[simp] theorem State.setTaster_edge (l : Nat) (t : TastEnt) : (s.setTaster l t).edge = s.edge := (rfl)
@[simp] theorem State.setTaster_wakeAt (l : Nat) (t : TastEnt) : (s.setTaster l t).wakeAt = s.wakeAt := (rfl)
@[simp] theorem State.setTaster_wakeFrom (l : Nat) (t : TastEnt) : (s.setTaster l t).wakeFrom = s.wakeFrom := (rfl)
@[simp] theorem State.setTaster_brgRun (l : Nat) (t : TastEnt) : (s.setTaster l t).brgRun = s.brgRun := (rfl)
@[simp] theorem State.setTaster_served (l : Nat) (t : TastEnt) : (s.setTaster l t).served = s.served := (rfl)
@[simp] theorem State.setTaster_allocs (l : Nat) (t : TastEnt) : (s.setTaster l t).allocs = s.allocs := (rfl)
@[simp] theorem State.setTaster_recNo (l : Nat) (t : TastEnt) : (s.setTaster l t).recNo = s.recNo := (rfl)
@[simp] theorem State.setTaster_recAt (l : Nat) (t : TastEnt) : (s.setTaster l t).recAt = s.recAt := (rfl)
@[simp] theorem State.setTaster_ports (l : Nat) (t : TastEnt) : (s.setTaster l t).ports = s.ports := (rfl)
@[simp] theorem State.setTaster_sync (l : Nat) (t : TastEnt) : (s.setTaster l t).sync = s.sync := (rfl)
@[simp] theorem State.setTaster_mons (l : Nat) (t : TastEnt) : (s.setTaster l t).mons = s.mons := (rfl)
@[simp] theorem State.setTaster_cols (l : Nat) (t : TastEnt) : (s.setTaster l t).cols = s.cols := (rfl)
@[simp] theorem State.setTaster_power (l : Nat) (t : TastEnt) : (s.setTaster l t).power = s.power := (rfl)
@[simp] theorem State.setTaster_mzm (l : Nat) (t : TastEnt) : (s.setTaster l t).mzm = s.mzm := (rfl)

/-! ### `State.setLease` -/

@[simp] theorem State.setLease_pending (l : Nat) (x : Lease) : (s.setLease l x).pending = s.pending := (rfl)
@[simp] theorem State.setLease_free (l : Nat) (x : Lease) : (s.setLease l x).free = s.free := (rfl)
@[simp] theorem State.setLease_out (l : Nat) (x : Lease) : (s.setLease l x).out = s.out := (rfl)
@[simp] theorem State.setLease_time (l : Nat) (x : Lease) : (s.setLease l x).time = s.time := (rfl)
@[simp] theorem State.setLease_regs (l : Nat) (x : Lease) : (s.setLease l x).regs = s.regs := (rfl)
@[simp] theorem State.setLease_latch (l : Nat) (x : Lease) : (s.setLease l x).latch = s.latch := (rfl)
@[simp] theorem State.setLease_mem (l : Nat) (x : Lease) : (s.setLease l x).mem = s.mem := (rfl)
@[simp] theorem State.setLease_ecc (l : Nat) (x : Lease) : (s.setLease l x).ecc = s.ecc := (rfl)
@[simp] theorem State.setLease_units (l : Nat) (x : Lease) : (s.setLease l x).units = s.units := (rfl)
@[simp] theorem State.setLease_cores (l : Nat) (x : Lease) : (s.setLease l x).cores = s.cores := (rfl)
@[simp] theorem State.setLease_arrs (l : Nat) (x : Lease) : (s.setLease l x).arrs = s.arrs := (rfl)
@[simp] theorem State.setLease_tabs (l : Nat) (x : Lease) : (s.setLease l x).tabs = s.tabs := (rfl)
@[simp] theorem State.setLease_net (l : Nat) (x : Lease) : (s.setLease l x).net = s.net := (rfl)
@[simp] theorem State.setLease_streams (l : Nat) (x : Lease) : (s.setLease l x).streams = s.streams := (rfl)
@[simp] theorem State.setLease_jobs (l : Nat) (x : Lease) : (s.setLease l x).jobs = s.jobs := (rfl)
@[simp] theorem State.setLease_firstErr (l : Nat) (x : Lease) : (s.setLease l x).firstErr = s.firstErr := (rfl)
@[simp] theorem State.setLease_irqs (l : Nat) (x : Lease) : (s.setLease l x).irqs = s.irqs := (rfl)
@[simp] theorem State.setLease_vectors (l : Nat) (x : Lease) : (s.setLease l x).vectors = s.vectors := (rfl)
@[simp] theorem State.setLease_events (l : Nat) (x : Lease) : (s.setLease l x).events = s.events := (rfl)
@[simp] theorem State.setLease_routes (l : Nat) (x : Lease) : (s.setLease l x).routes = s.routes := (rfl)
@[simp] theorem State.setLease_hyds (l : Nat) (x : Lease) : (s.setLease l x).hyds = s.hyds := (rfl)
@[simp] theorem State.setLease_gov (l : Nat) (x : Lease) : (s.setLease l x).gov = s.gov := (rfl)
@[simp] theorem State.setLease_ctxs (l : Nat) (x : Lease) : (s.setLease l x).ctxs = s.ctxs := (rfl)
@[simp] theorem State.setLease_psets (l : Nat) (x : Lease) : (s.setLease l x).psets = s.psets := (rfl)
@[simp] theorem State.setLease_maps (l : Nat) (x : Lease) : (s.setLease l x).maps = s.maps := (rfl)
@[simp] theorem State.setLease_loop (l : Nat) (x : Lease) : (s.setLease l x).loop = s.loop := (rfl)
@[simp] theorem State.setLease_txq (l : Nat) (x : Lease) : (s.setLease l x).txq = s.txq := (rfl)
@[simp] theorem State.setLease_outst (l : Nat) (x : Lease) : (s.setLease l x).outst = s.outst := (rfl)
@[simp] theorem State.setLease_owed (l : Nat) (x : Lease) : (s.setLease l x).owed = s.owed := (rfl)
@[simp] theorem State.setLease_stopped (l : Nat) (x : Lease) : (s.setLease l x).stopped = s.stopped := (rfl)
@[simp] theorem State.setLease_cask (l : Nat) (x : Lease) : (s.setLease l x).cask = s.cask := (rfl)
@[simp] theorem State.setLease_trq (l : Nat) (x : Lease) : (s.setLease l x).trq = s.trq := (rfl)
@[simp] theorem State.setLease_trw (l : Nat) (x : Lease) : (s.setLease l x).trw = s.trw := (rfl)
@[simp] theorem State.setLease_hang (l : Nat) (x : Lease) : (s.setLease l x).hang = s.hang := (rfl)
@[simp] theorem State.setLease_snap (l : Nat) (x : Lease) : (s.setLease l x).snap = s.snap := (rfl)
@[simp] theorem State.setLease_snapAt (l : Nat) (x : Lease) : (s.setLease l x).snapAt = s.snapAt := (rfl)
@[simp] theorem State.setLease_edge (l : Nat) (x : Lease) : (s.setLease l x).edge = s.edge := (rfl)
@[simp] theorem State.setLease_wakeAt (l : Nat) (x : Lease) : (s.setLease l x).wakeAt = s.wakeAt := (rfl)
@[simp] theorem State.setLease_wakeFrom (l : Nat) (x : Lease) : (s.setLease l x).wakeFrom = s.wakeFrom := (rfl)
@[simp] theorem State.setLease_brgRun (l : Nat) (x : Lease) : (s.setLease l x).brgRun = s.brgRun := (rfl)
@[simp] theorem State.setLease_served (l : Nat) (x : Lease) : (s.setLease l x).served = s.served := (rfl)
@[simp] theorem State.setLease_allocs (l : Nat) (x : Lease) : (s.setLease l x).allocs = s.allocs := (rfl)
@[simp] theorem State.setLease_recNo (l : Nat) (x : Lease) : (s.setLease l x).recNo = s.recNo := (rfl)
@[simp] theorem State.setLease_recAt (l : Nat) (x : Lease) : (s.setLease l x).recAt = s.recAt := (rfl)
@[simp] theorem State.setLease_ports (l : Nat) (x : Lease) : (s.setLease l x).ports = s.ports := (rfl)
@[simp] theorem State.setLease_sync (l : Nat) (x : Lease) : (s.setLease l x).sync = s.sync := (rfl)
@[simp] theorem State.setLease_mons (l : Nat) (x : Lease) : (s.setLease l x).mons = s.mons := (rfl)
@[simp] theorem State.setLease_cols (l : Nat) (x : Lease) : (s.setLease l x).cols = s.cols := (rfl)
@[simp] theorem State.setLease_power (l : Nat) (x : Lease) : (s.setLease l x).power = s.power := (rfl)
@[simp] theorem State.setLease_mzm (l : Nat) (x : Lease) : (s.setLease l x).mzm = s.mzm := (rfl)

/-! ### `State.setBytes` -/

@[simp] theorem State.setBytes_pending (a : Nat) (l : List (BitVec 8)) : (s.setBytes a l).pending = s.pending := by
  induction l generalizing s a with | nil => rfl | cons x l ih => exact (ih (s.setByte a x) (a + 1)).trans rfl
@[simp] theorem State.setBytes_free (a : Nat) (l : List (BitVec 8)) : (s.setBytes a l).free = s.free := by
  induction l generalizing s a with | nil => rfl | cons x l ih => exact (ih (s.setByte a x) (a + 1)).trans rfl
@[simp] theorem State.setBytes_out (a : Nat) (l : List (BitVec 8)) : (s.setBytes a l).out = s.out := by
  induction l generalizing s a with | nil => rfl | cons x l ih => exact (ih (s.setByte a x) (a + 1)).trans rfl
@[simp] theorem State.setBytes_time (a : Nat) (l : List (BitVec 8)) : (s.setBytes a l).time = s.time := by
  induction l generalizing s a with | nil => rfl | cons x l ih => exact (ih (s.setByte a x) (a + 1)).trans rfl
@[simp] theorem State.setBytes_regs (a : Nat) (l : List (BitVec 8)) : (s.setBytes a l).regs = s.regs := by
  induction l generalizing s a with | nil => rfl | cons x l ih => exact (ih (s.setByte a x) (a + 1)).trans rfl
@[simp] theorem State.setBytes_latch (a : Nat) (l : List (BitVec 8)) : (s.setBytes a l).latch = s.latch := by
  induction l generalizing s a with | nil => rfl | cons x l ih => exact (ih (s.setByte a x) (a + 1)).trans rfl
@[simp] theorem State.setBytes_ecc (a : Nat) (l : List (BitVec 8)) : (s.setBytes a l).ecc = s.ecc := by
  induction l generalizing s a with | nil => rfl | cons x l ih => exact (ih (s.setByte a x) (a + 1)).trans rfl
@[simp] theorem State.setBytes_units (a : Nat) (l : List (BitVec 8)) : (s.setBytes a l).units = s.units := by
  induction l generalizing s a with | nil => rfl | cons x l ih => exact (ih (s.setByte a x) (a + 1)).trans rfl
@[simp] theorem State.setBytes_cores (a : Nat) (l : List (BitVec 8)) : (s.setBytes a l).cores = s.cores := by
  induction l generalizing s a with | nil => rfl | cons x l ih => exact (ih (s.setByte a x) (a + 1)).trans rfl
@[simp] theorem State.setBytes_arrs (a : Nat) (l : List (BitVec 8)) : (s.setBytes a l).arrs = s.arrs := by
  induction l generalizing s a with | nil => rfl | cons x l ih => exact (ih (s.setByte a x) (a + 1)).trans rfl
@[simp] theorem State.setBytes_tabs (a : Nat) (l : List (BitVec 8)) : (s.setBytes a l).tabs = s.tabs := by
  induction l generalizing s a with | nil => rfl | cons x l ih => exact (ih (s.setByte a x) (a + 1)).trans rfl
@[simp] theorem State.setBytes_net (a : Nat) (l : List (BitVec 8)) : (s.setBytes a l).net = s.net := by
  induction l generalizing s a with | nil => rfl | cons x l ih => exact (ih (s.setByte a x) (a + 1)).trans rfl
@[simp] theorem State.setBytes_tiers (a : Nat) (l : List (BitVec 8)) : (s.setBytes a l).tiers = s.tiers := by
  induction l generalizing s a with | nil => rfl | cons x l ih => exact (ih (s.setByte a x) (a + 1)).trans rfl
@[simp] theorem State.setBytes_streams (a : Nat) (l : List (BitVec 8)) : (s.setBytes a l).streams = s.streams := by
  induction l generalizing s a with | nil => rfl | cons x l ih => exact (ih (s.setByte a x) (a + 1)).trans rfl
@[simp] theorem State.setBytes_jobs (a : Nat) (l : List (BitVec 8)) : (s.setBytes a l).jobs = s.jobs := by
  induction l generalizing s a with | nil => rfl | cons x l ih => exact (ih (s.setByte a x) (a + 1)).trans rfl
@[simp] theorem State.setBytes_firstErr (a : Nat) (l : List (BitVec 8)) : (s.setBytes a l).firstErr = s.firstErr := by
  induction l generalizing s a with | nil => rfl | cons x l ih => exact (ih (s.setByte a x) (a + 1)).trans rfl
@[simp] theorem State.setBytes_irqs (a : Nat) (l : List (BitVec 8)) : (s.setBytes a l).irqs = s.irqs := by
  induction l generalizing s a with | nil => rfl | cons x l ih => exact (ih (s.setByte a x) (a + 1)).trans rfl
@[simp] theorem State.setBytes_vectors (a : Nat) (l : List (BitVec 8)) : (s.setBytes a l).vectors = s.vectors := by
  induction l generalizing s a with | nil => rfl | cons x l ih => exact (ih (s.setByte a x) (a + 1)).trans rfl
@[simp] theorem State.setBytes_events (a : Nat) (l : List (BitVec 8)) : (s.setBytes a l).events = s.events := by
  induction l generalizing s a with | nil => rfl | cons x l ih => exact (ih (s.setByte a x) (a + 1)).trans rfl
@[simp] theorem State.setBytes_routes (a : Nat) (l : List (BitVec 8)) : (s.setBytes a l).routes = s.routes := by
  induction l generalizing s a with | nil => rfl | cons x l ih => exact (ih (s.setByte a x) (a + 1)).trans rfl
@[simp] theorem State.setBytes_hyds (a : Nat) (l : List (BitVec 8)) : (s.setBytes a l).hyds = s.hyds := by
  induction l generalizing s a with | nil => rfl | cons x l ih => exact (ih (s.setByte a x) (a + 1)).trans rfl
@[simp] theorem State.setBytes_gov (a : Nat) (l : List (BitVec 8)) : (s.setBytes a l).gov = s.gov := by
  induction l generalizing s a with | nil => rfl | cons x l ih => exact (ih (s.setByte a x) (a + 1)).trans rfl
@[simp] theorem State.setBytes_ctxs (a : Nat) (l : List (BitVec 8)) : (s.setBytes a l).ctxs = s.ctxs := by
  induction l generalizing s a with | nil => rfl | cons x l ih => exact (ih (s.setByte a x) (a + 1)).trans rfl
@[simp] theorem State.setBytes_psets (a : Nat) (l : List (BitVec 8)) : (s.setBytes a l).psets = s.psets := by
  induction l generalizing s a with | nil => rfl | cons x l ih => exact (ih (s.setByte a x) (a + 1)).trans rfl
@[simp] theorem State.setBytes_maps (a : Nat) (l : List (BitVec 8)) : (s.setBytes a l).maps = s.maps := by
  induction l generalizing s a with | nil => rfl | cons x l ih => exact (ih (s.setByte a x) (a + 1)).trans rfl
@[simp] theorem State.setBytes_loop (a : Nat) (l : List (BitVec 8)) : (s.setBytes a l).loop = s.loop := by
  induction l generalizing s a with | nil => rfl | cons x l ih => exact (ih (s.setByte a x) (a + 1)).trans rfl
@[simp] theorem State.setBytes_txq (a : Nat) (l : List (BitVec 8)) : (s.setBytes a l).txq = s.txq := by
  induction l generalizing s a with | nil => rfl | cons x l ih => exact (ih (s.setByte a x) (a + 1)).trans rfl
@[simp] theorem State.setBytes_outst (a : Nat) (l : List (BitVec 8)) : (s.setBytes a l).outst = s.outst := by
  induction l generalizing s a with | nil => rfl | cons x l ih => exact (ih (s.setByte a x) (a + 1)).trans rfl
@[simp] theorem State.setBytes_owed (a : Nat) (l : List (BitVec 8)) : (s.setBytes a l).owed = s.owed := by
  induction l generalizing s a with | nil => rfl | cons x l ih => exact (ih (s.setByte a x) (a + 1)).trans rfl
@[simp] theorem State.setBytes_stopped (a : Nat) (l : List (BitVec 8)) : (s.setBytes a l).stopped = s.stopped := by
  induction l generalizing s a with | nil => rfl | cons x l ih => exact (ih (s.setByte a x) (a + 1)).trans rfl
@[simp] theorem State.setBytes_cask (a : Nat) (l : List (BitVec 8)) : (s.setBytes a l).cask = s.cask := by
  induction l generalizing s a with | nil => rfl | cons x l ih => exact (ih (s.setByte a x) (a + 1)).trans rfl
@[simp] theorem State.setBytes_trq (a : Nat) (l : List (BitVec 8)) : (s.setBytes a l).trq = s.trq := by
  induction l generalizing s a with | nil => rfl | cons x l ih => exact (ih (s.setByte a x) (a + 1)).trans rfl
@[simp] theorem State.setBytes_trw (a : Nat) (l : List (BitVec 8)) : (s.setBytes a l).trw = s.trw := by
  induction l generalizing s a with | nil => rfl | cons x l ih => exact (ih (s.setByte a x) (a + 1)).trans rfl
@[simp] theorem State.setBytes_hang (a : Nat) (l : List (BitVec 8)) : (s.setBytes a l).hang = s.hang := by
  induction l generalizing s a with | nil => rfl | cons x l ih => exact (ih (s.setByte a x) (a + 1)).trans rfl
@[simp] theorem State.setBytes_snap (a : Nat) (l : List (BitVec 8)) : (s.setBytes a l).snap = s.snap := by
  induction l generalizing s a with | nil => rfl | cons x l ih => exact (ih (s.setByte a x) (a + 1)).trans rfl
@[simp] theorem State.setBytes_snapAt (a : Nat) (l : List (BitVec 8)) : (s.setBytes a l).snapAt = s.snapAt := by
  induction l generalizing s a with | nil => rfl | cons x l ih => exact (ih (s.setByte a x) (a + 1)).trans rfl
@[simp] theorem State.setBytes_edge (a : Nat) (l : List (BitVec 8)) : (s.setBytes a l).edge = s.edge := by
  induction l generalizing s a with | nil => rfl | cons x l ih => exact (ih (s.setByte a x) (a + 1)).trans rfl
@[simp] theorem State.setBytes_wakeAt (a : Nat) (l : List (BitVec 8)) : (s.setBytes a l).wakeAt = s.wakeAt := by
  induction l generalizing s a with | nil => rfl | cons x l ih => exact (ih (s.setByte a x) (a + 1)).trans rfl
@[simp] theorem State.setBytes_wakeFrom (a : Nat) (l : List (BitVec 8)) : (s.setBytes a l).wakeFrom = s.wakeFrom := by
  induction l generalizing s a with | nil => rfl | cons x l ih => exact (ih (s.setByte a x) (a + 1)).trans rfl
@[simp] theorem State.setBytes_brgRun (a : Nat) (l : List (BitVec 8)) : (s.setBytes a l).brgRun = s.brgRun := by
  induction l generalizing s a with | nil => rfl | cons x l ih => exact (ih (s.setByte a x) (a + 1)).trans rfl
@[simp] theorem State.setBytes_served (a : Nat) (l : List (BitVec 8)) : (s.setBytes a l).served = s.served := by
  induction l generalizing s a with | nil => rfl | cons x l ih => exact (ih (s.setByte a x) (a + 1)).trans rfl
@[simp] theorem State.setBytes_allocs (a : Nat) (l : List (BitVec 8)) : (s.setBytes a l).allocs = s.allocs := by
  induction l generalizing s a with | nil => rfl | cons x l ih => exact (ih (s.setByte a x) (a + 1)).trans rfl
@[simp] theorem State.setBytes_recNo (a : Nat) (l : List (BitVec 8)) : (s.setBytes a l).recNo = s.recNo := by
  induction l generalizing s a with | nil => rfl | cons x l ih => exact (ih (s.setByte a x) (a + 1)).trans rfl
@[simp] theorem State.setBytes_recAt (a : Nat) (l : List (BitVec 8)) : (s.setBytes a l).recAt = s.recAt := by
  induction l generalizing s a with | nil => rfl | cons x l ih => exact (ih (s.setByte a x) (a + 1)).trans rfl
@[simp] theorem State.setBytes_ports (a : Nat) (l : List (BitVec 8)) : (s.setBytes a l).ports = s.ports := by
  induction l generalizing s a with | nil => rfl | cons x l ih => exact (ih (s.setByte a x) (a + 1)).trans rfl
@[simp] theorem State.setBytes_sync (a : Nat) (l : List (BitVec 8)) : (s.setBytes a l).sync = s.sync := by
  induction l generalizing s a with | nil => rfl | cons x l ih => exact (ih (s.setByte a x) (a + 1)).trans rfl
@[simp] theorem State.setBytes_mons (a : Nat) (l : List (BitVec 8)) : (s.setBytes a l).mons = s.mons := by
  induction l generalizing s a with | nil => rfl | cons x l ih => exact (ih (s.setByte a x) (a + 1)).trans rfl
@[simp] theorem State.setBytes_cols (a : Nat) (l : List (BitVec 8)) : (s.setBytes a l).cols = s.cols := by
  induction l generalizing s a with | nil => rfl | cons x l ih => exact (ih (s.setByte a x) (a + 1)).trans rfl
@[simp] theorem State.setBytes_power (a : Nat) (l : List (BitVec 8)) : (s.setBytes a l).power = s.power := by
  induction l generalizing s a with | nil => rfl | cons x l ih => exact (ih (s.setByte a x) (a + 1)).trans rfl
@[simp] theorem State.setBytes_mzm (a : Nat) (l : List (BitVec 8)) : (s.setBytes a l).mzm = s.mzm := by
  induction l generalizing s a with | nil => rfl | cons x l ih => exact (ih (s.setByte a x) (a + 1)).trans rfl

/-! ### `State.scramble` -/

@[simp] theorem State.scramble_pending (a n : Nat) : (s.scramble a n).pending = s.pending := by
  induction n generalizing s a with | zero => rfl | succ n ih => exact (ih _ (a + 1)).trans rfl
@[simp] theorem State.scramble_out (a n : Nat) : (s.scramble a n).out = s.out := by
  induction n generalizing s a with | zero => rfl | succ n ih => exact (ih _ (a + 1)).trans rfl
@[simp] theorem State.scramble_time (a n : Nat) : (s.scramble a n).time = s.time := by
  induction n generalizing s a with | zero => rfl | succ n ih => exact (ih _ (a + 1)).trans rfl
@[simp] theorem State.scramble_regs (a n : Nat) : (s.scramble a n).regs = s.regs := by
  induction n generalizing s a with | zero => rfl | succ n ih => exact (ih _ (a + 1)).trans rfl
@[simp] theorem State.scramble_latch (a n : Nat) : (s.scramble a n).latch = s.latch := by
  induction n generalizing s a with | zero => rfl | succ n ih => exact (ih _ (a + 1)).trans rfl
@[simp] theorem State.scramble_ecc (a n : Nat) : (s.scramble a n).ecc = s.ecc := by
  induction n generalizing s a with | zero => rfl | succ n ih => exact (ih _ (a + 1)).trans rfl
@[simp] theorem State.scramble_units (a n : Nat) : (s.scramble a n).units = s.units := by
  induction n generalizing s a with | zero => rfl | succ n ih => exact (ih _ (a + 1)).trans rfl
@[simp] theorem State.scramble_cores (a n : Nat) : (s.scramble a n).cores = s.cores := by
  induction n generalizing s a with | zero => rfl | succ n ih => exact (ih _ (a + 1)).trans rfl
@[simp] theorem State.scramble_arrs (a n : Nat) : (s.scramble a n).arrs = s.arrs := by
  induction n generalizing s a with | zero => rfl | succ n ih => exact (ih _ (a + 1)).trans rfl
@[simp] theorem State.scramble_tabs (a n : Nat) : (s.scramble a n).tabs = s.tabs := by
  induction n generalizing s a with | zero => rfl | succ n ih => exact (ih _ (a + 1)).trans rfl
@[simp] theorem State.scramble_net (a n : Nat) : (s.scramble a n).net = s.net := by
  induction n generalizing s a with | zero => rfl | succ n ih => exact (ih _ (a + 1)).trans rfl
@[simp] theorem State.scramble_tiers (a n : Nat) : (s.scramble a n).tiers = s.tiers := by
  induction n generalizing s a with | zero => rfl | succ n ih => exact (ih _ (a + 1)).trans rfl
@[simp] theorem State.scramble_streams (a n : Nat) : (s.scramble a n).streams = s.streams := by
  induction n generalizing s a with | zero => rfl | succ n ih => exact (ih _ (a + 1)).trans rfl
@[simp] theorem State.scramble_jobs (a n : Nat) : (s.scramble a n).jobs = s.jobs := by
  induction n generalizing s a with | zero => rfl | succ n ih => exact (ih _ (a + 1)).trans rfl
@[simp] theorem State.scramble_firstErr (a n : Nat) : (s.scramble a n).firstErr = s.firstErr := by
  induction n generalizing s a with | zero => rfl | succ n ih => exact (ih _ (a + 1)).trans rfl
@[simp] theorem State.scramble_irqs (a n : Nat) : (s.scramble a n).irqs = s.irqs := by
  induction n generalizing s a with | zero => rfl | succ n ih => exact (ih _ (a + 1)).trans rfl
@[simp] theorem State.scramble_vectors (a n : Nat) : (s.scramble a n).vectors = s.vectors := by
  induction n generalizing s a with | zero => rfl | succ n ih => exact (ih _ (a + 1)).trans rfl
@[simp] theorem State.scramble_events (a n : Nat) : (s.scramble a n).events = s.events := by
  induction n generalizing s a with | zero => rfl | succ n ih => exact (ih _ (a + 1)).trans rfl
@[simp] theorem State.scramble_routes (a n : Nat) : (s.scramble a n).routes = s.routes := by
  induction n generalizing s a with | zero => rfl | succ n ih => exact (ih _ (a + 1)).trans rfl
@[simp] theorem State.scramble_hyds (a n : Nat) : (s.scramble a n).hyds = s.hyds := by
  induction n generalizing s a with | zero => rfl | succ n ih => exact (ih _ (a + 1)).trans rfl
@[simp] theorem State.scramble_gov (a n : Nat) : (s.scramble a n).gov = s.gov := by
  induction n generalizing s a with | zero => rfl | succ n ih => exact (ih _ (a + 1)).trans rfl
@[simp] theorem State.scramble_ctxs (a n : Nat) : (s.scramble a n).ctxs = s.ctxs := by
  induction n generalizing s a with | zero => rfl | succ n ih => exact (ih _ (a + 1)).trans rfl
@[simp] theorem State.scramble_psets (a n : Nat) : (s.scramble a n).psets = s.psets := by
  induction n generalizing s a with | zero => rfl | succ n ih => exact (ih _ (a + 1)).trans rfl
@[simp] theorem State.scramble_maps (a n : Nat) : (s.scramble a n).maps = s.maps := by
  induction n generalizing s a with | zero => rfl | succ n ih => exact (ih _ (a + 1)).trans rfl
@[simp] theorem State.scramble_loop (a n : Nat) : (s.scramble a n).loop = s.loop := by
  induction n generalizing s a with | zero => rfl | succ n ih => exact (ih _ (a + 1)).trans rfl
@[simp] theorem State.scramble_txq (a n : Nat) : (s.scramble a n).txq = s.txq := by
  induction n generalizing s a with | zero => rfl | succ n ih => exact (ih _ (a + 1)).trans rfl
@[simp] theorem State.scramble_outst (a n : Nat) : (s.scramble a n).outst = s.outst := by
  induction n generalizing s a with | zero => rfl | succ n ih => exact (ih _ (a + 1)).trans rfl
@[simp] theorem State.scramble_owed (a n : Nat) : (s.scramble a n).owed = s.owed := by
  induction n generalizing s a with | zero => rfl | succ n ih => exact (ih _ (a + 1)).trans rfl
@[simp] theorem State.scramble_stopped (a n : Nat) : (s.scramble a n).stopped = s.stopped := by
  induction n generalizing s a with | zero => rfl | succ n ih => exact (ih _ (a + 1)).trans rfl
@[simp] theorem State.scramble_cask (a n : Nat) : (s.scramble a n).cask = s.cask := by
  induction n generalizing s a with | zero => rfl | succ n ih => exact (ih _ (a + 1)).trans rfl
@[simp] theorem State.scramble_trq (a n : Nat) : (s.scramble a n).trq = s.trq := by
  induction n generalizing s a with | zero => rfl | succ n ih => exact (ih _ (a + 1)).trans rfl
@[simp] theorem State.scramble_trw (a n : Nat) : (s.scramble a n).trw = s.trw := by
  induction n generalizing s a with | zero => rfl | succ n ih => exact (ih _ (a + 1)).trans rfl
@[simp] theorem State.scramble_hang (a n : Nat) : (s.scramble a n).hang = s.hang := by
  induction n generalizing s a with | zero => rfl | succ n ih => exact (ih _ (a + 1)).trans rfl
@[simp] theorem State.scramble_snap (a n : Nat) : (s.scramble a n).snap = s.snap := by
  induction n generalizing s a with | zero => rfl | succ n ih => exact (ih _ (a + 1)).trans rfl
@[simp] theorem State.scramble_snapAt (a n : Nat) : (s.scramble a n).snapAt = s.snapAt := by
  induction n generalizing s a with | zero => rfl | succ n ih => exact (ih _ (a + 1)).trans rfl
@[simp] theorem State.scramble_edge (a n : Nat) : (s.scramble a n).edge = s.edge := by
  induction n generalizing s a with | zero => rfl | succ n ih => exact (ih _ (a + 1)).trans rfl
@[simp] theorem State.scramble_wakeAt (a n : Nat) : (s.scramble a n).wakeAt = s.wakeAt := by
  induction n generalizing s a with | zero => rfl | succ n ih => exact (ih _ (a + 1)).trans rfl
@[simp] theorem State.scramble_wakeFrom (a n : Nat) : (s.scramble a n).wakeFrom = s.wakeFrom := by
  induction n generalizing s a with | zero => rfl | succ n ih => exact (ih _ (a + 1)).trans rfl
@[simp] theorem State.scramble_brgRun (a n : Nat) : (s.scramble a n).brgRun = s.brgRun := by
  induction n generalizing s a with | zero => rfl | succ n ih => exact (ih _ (a + 1)).trans rfl
@[simp] theorem State.scramble_served (a n : Nat) : (s.scramble a n).served = s.served := by
  induction n generalizing s a with | zero => rfl | succ n ih => exact (ih _ (a + 1)).trans rfl
@[simp] theorem State.scramble_allocs (a n : Nat) : (s.scramble a n).allocs = s.allocs := by
  induction n generalizing s a with | zero => rfl | succ n ih => exact (ih _ (a + 1)).trans rfl
@[simp] theorem State.scramble_recNo (a n : Nat) : (s.scramble a n).recNo = s.recNo := by
  induction n generalizing s a with | zero => rfl | succ n ih => exact (ih _ (a + 1)).trans rfl
@[simp] theorem State.scramble_recAt (a n : Nat) : (s.scramble a n).recAt = s.recAt := by
  induction n generalizing s a with | zero => rfl | succ n ih => exact (ih _ (a + 1)).trans rfl
@[simp] theorem State.scramble_ports (a n : Nat) : (s.scramble a n).ports = s.ports := by
  induction n generalizing s a with | zero => rfl | succ n ih => exact (ih _ (a + 1)).trans rfl
@[simp] theorem State.scramble_sync (a n : Nat) : (s.scramble a n).sync = s.sync := by
  induction n generalizing s a with | zero => rfl | succ n ih => exact (ih _ (a + 1)).trans rfl
@[simp] theorem State.scramble_mons (a n : Nat) : (s.scramble a n).mons = s.mons := by
  induction n generalizing s a with | zero => rfl | succ n ih => exact (ih _ (a + 1)).trans rfl
@[simp] theorem State.scramble_cols (a n : Nat) : (s.scramble a n).cols = s.cols := by
  induction n generalizing s a with | zero => rfl | succ n ih => exact (ih _ (a + 1)).trans rfl
@[simp] theorem State.scramble_power (a n : Nat) : (s.scramble a n).power = s.power := by
  induction n generalizing s a with | zero => rfl | succ n ih => exact (ih _ (a + 1)).trans rfl
@[simp] theorem State.scramble_mzm (a n : Nat) : (s.scramble a n).mzm = s.mzm := by
  induction n generalizing s a with | zero => rfl | succ n ih => exact (ih _ (a + 1)).trans rfl

@[simp] theorem State.setNum_pending (a n v : Nat) : (s.setNum a n v).pending = s.pending := State.setBytes_pending s a (leBytes v n)
@[simp] theorem State.setNum_free (a n v : Nat) : (s.setNum a n v).free = s.free := State.setBytes_free s a (leBytes v n)
@[simp] theorem State.setNum_out (a n v : Nat) : (s.setNum a n v).out = s.out := State.setBytes_out s a (leBytes v n)
@[simp] theorem State.setNum_time (a n v : Nat) : (s.setNum a n v).time = s.time := State.setBytes_time s a (leBytes v n)
@[simp] theorem State.setNum_regs (a n v : Nat) : (s.setNum a n v).regs = s.regs := State.setBytes_regs s a (leBytes v n)
@[simp] theorem State.setNum_latch (a n v : Nat) : (s.setNum a n v).latch = s.latch := State.setBytes_latch s a (leBytes v n)
@[simp] theorem State.setNum_ecc (a n v : Nat) : (s.setNum a n v).ecc = s.ecc := State.setBytes_ecc s a (leBytes v n)
@[simp] theorem State.setNum_units (a n v : Nat) : (s.setNum a n v).units = s.units := State.setBytes_units s a (leBytes v n)
@[simp] theorem State.setNum_cores (a n v : Nat) : (s.setNum a n v).cores = s.cores := State.setBytes_cores s a (leBytes v n)
@[simp] theorem State.setNum_arrs (a n v : Nat) : (s.setNum a n v).arrs = s.arrs := State.setBytes_arrs s a (leBytes v n)
@[simp] theorem State.setNum_tabs (a n v : Nat) : (s.setNum a n v).tabs = s.tabs := State.setBytes_tabs s a (leBytes v n)
@[simp] theorem State.setNum_net (a n v : Nat) : (s.setNum a n v).net = s.net := State.setBytes_net s a (leBytes v n)
@[simp] theorem State.setNum_tiers (a n v : Nat) : (s.setNum a n v).tiers = s.tiers := State.setBytes_tiers s a (leBytes v n)
@[simp] theorem State.setNum_streams (a n v : Nat) : (s.setNum a n v).streams = s.streams := State.setBytes_streams s a (leBytes v n)
@[simp] theorem State.setNum_jobs (a n v : Nat) : (s.setNum a n v).jobs = s.jobs := State.setBytes_jobs s a (leBytes v n)
@[simp] theorem State.setNum_firstErr (a n v : Nat) : (s.setNum a n v).firstErr = s.firstErr := State.setBytes_firstErr s a (leBytes v n)
@[simp] theorem State.setNum_irqs (a n v : Nat) : (s.setNum a n v).irqs = s.irqs := State.setBytes_irqs s a (leBytes v n)
@[simp] theorem State.setNum_vectors (a n v : Nat) : (s.setNum a n v).vectors = s.vectors := State.setBytes_vectors s a (leBytes v n)
@[simp] theorem State.setNum_events (a n v : Nat) : (s.setNum a n v).events = s.events := State.setBytes_events s a (leBytes v n)
@[simp] theorem State.setNum_routes (a n v : Nat) : (s.setNum a n v).routes = s.routes := State.setBytes_routes s a (leBytes v n)
@[simp] theorem State.setNum_hyds (a n v : Nat) : (s.setNum a n v).hyds = s.hyds := State.setBytes_hyds s a (leBytes v n)
@[simp] theorem State.setNum_gov (a n v : Nat) : (s.setNum a n v).gov = s.gov := State.setBytes_gov s a (leBytes v n)
@[simp] theorem State.setNum_ctxs (a n v : Nat) : (s.setNum a n v).ctxs = s.ctxs := State.setBytes_ctxs s a (leBytes v n)
@[simp] theorem State.setNum_psets (a n v : Nat) : (s.setNum a n v).psets = s.psets := State.setBytes_psets s a (leBytes v n)
@[simp] theorem State.setNum_maps (a n v : Nat) : (s.setNum a n v).maps = s.maps := State.setBytes_maps s a (leBytes v n)
@[simp] theorem State.setNum_loop (a n v : Nat) : (s.setNum a n v).loop = s.loop := State.setBytes_loop s a (leBytes v n)
@[simp] theorem State.setNum_txq (a n v : Nat) : (s.setNum a n v).txq = s.txq := State.setBytes_txq s a (leBytes v n)
@[simp] theorem State.setNum_outst (a n v : Nat) : (s.setNum a n v).outst = s.outst := State.setBytes_outst s a (leBytes v n)
@[simp] theorem State.setNum_owed (a n v : Nat) : (s.setNum a n v).owed = s.owed := State.setBytes_owed s a (leBytes v n)
@[simp] theorem State.setNum_stopped (a n v : Nat) : (s.setNum a n v).stopped = s.stopped := State.setBytes_stopped s a (leBytes v n)
@[simp] theorem State.setNum_cask (a n v : Nat) : (s.setNum a n v).cask = s.cask := State.setBytes_cask s a (leBytes v n)
@[simp] theorem State.setNum_trq (a n v : Nat) : (s.setNum a n v).trq = s.trq := State.setBytes_trq s a (leBytes v n)
@[simp] theorem State.setNum_trw (a n v : Nat) : (s.setNum a n v).trw = s.trw := State.setBytes_trw s a (leBytes v n)
@[simp] theorem State.setNum_hang (a n v : Nat) : (s.setNum a n v).hang = s.hang := State.setBytes_hang s a (leBytes v n)
@[simp] theorem State.setNum_snap (a n v : Nat) : (s.setNum a n v).snap = s.snap := State.setBytes_snap s a (leBytes v n)
@[simp] theorem State.setNum_snapAt (a n v : Nat) : (s.setNum a n v).snapAt = s.snapAt := State.setBytes_snapAt s a (leBytes v n)
@[simp] theorem State.setNum_edge (a n v : Nat) : (s.setNum a n v).edge = s.edge := State.setBytes_edge s a (leBytes v n)
@[simp] theorem State.setNum_wakeAt (a n v : Nat) : (s.setNum a n v).wakeAt = s.wakeAt := State.setBytes_wakeAt s a (leBytes v n)
@[simp] theorem State.setNum_wakeFrom (a n v : Nat) : (s.setNum a n v).wakeFrom = s.wakeFrom := State.setBytes_wakeFrom s a (leBytes v n)
@[simp] theorem State.setNum_brgRun (a n v : Nat) : (s.setNum a n v).brgRun = s.brgRun := State.setBytes_brgRun s a (leBytes v n)
@[simp] theorem State.setNum_served (a n v : Nat) : (s.setNum a n v).served = s.served := State.setBytes_served s a (leBytes v n)
@[simp] theorem State.setNum_allocs (a n v : Nat) : (s.setNum a n v).allocs = s.allocs := State.setBytes_allocs s a (leBytes v n)
@[simp] theorem State.setNum_recNo (a n v : Nat) : (s.setNum a n v).recNo = s.recNo := State.setBytes_recNo s a (leBytes v n)
@[simp] theorem State.setNum_recAt (a n v : Nat) : (s.setNum a n v).recAt = s.recAt := State.setBytes_recAt s a (leBytes v n)
@[simp] theorem State.setNum_ports (a n v : Nat) : (s.setNum a n v).ports = s.ports := State.setBytes_ports s a (leBytes v n)
@[simp] theorem State.setNum_sync (a n v : Nat) : (s.setNum a n v).sync = s.sync := State.setBytes_sync s a (leBytes v n)
@[simp] theorem State.setNum_mons (a n v : Nat) : (s.setNum a n v).mons = s.mons := State.setBytes_mons s a (leBytes v n)
@[simp] theorem State.setNum_cols (a n v : Nat) : (s.setNum a n v).cols = s.cols := State.setBytes_cols s a (leBytes v n)
@[simp] theorem State.setNum_power (a n v : Nat) : (s.setNum a n v).power = s.power := State.setBytes_power s a (leBytes v n)
@[simp] theorem State.setNum_mzm (a n v : Nat) : (s.setNum a n v).mzm = s.mzm := State.setBytes_mzm s a (leBytes v n)

/-! ### Reads after writes -/

theorem State.reg_setReg (a b : Nat) (v : Word) : (s.setReg a v).reg b = if b = a then v else s.reg b := SMap.get_set regReset s.regs a b v
@[simp] theorem State.reg_setReg_same (a : Nat) (v : Word) : (s.setReg a v).reg a = v := SMap.get_set_same regReset s.regs a v
theorem State.reg_setReg_ne {a b : Nat} (v : Word) (h : b ≠ a) : (s.setReg a v).reg b = s.reg b := SMap.get_set_ne regReset s.regs v h
theorem State.regN_setRegN_same (a v : Nat) : (s.setRegN a v).regN a = v % 2 ^ 32 := by
  simp [State.regN, State.setRegN]
theorem State.regN_setRegN_ne {a b : Nat} (v : Nat) (h : b ≠ a) : (s.setRegN a v).regN b = s.regN b := by
  simp only [State.regN, State.setRegN, State.reg_setReg_ne s _ h]
theorem State.regN_setRegN (a b v : Nat) : (s.setRegN a v).regN b = if b = a then v % 2 ^ 32 else s.regN b := by
  split
  · next h => subst h; exact State.regN_setRegN_same s b v
  · next h => exact State.regN_setRegN_ne s v h
theorem State.regN_lt (a : Nat) : s.regN a < 2 ^ 32 := (s.reg a).isLt

@[simp] theorem State.byte_setByte_same (a : Nat) (v : BitVec 8) : (s.setByte a v).byte a = v := SMap.get_set_same memDefault s.mem a v
theorem State.byte_setByte_ne {a b : Nat} (v : BitVec 8) (h : b ≠ a) : (s.setByte a v).byte b = s.byte b := SMap.get_set_ne memDefault s.mem v h

@[simp] theorem State.unit_setUnit_same (k : Nat) (x : UnitSt) : (s.setUnit k x).unit k = x := SMap.get_set_same _ _ k x
theorem State.unit_setUnit_ne {k j : Nat} (x : UnitSt) (h : j ≠ k) : (s.setUnit k x).unit j = s.unit j := SMap.get_set_ne _ _ x h
@[simp] theorem State.core_setCore_same (k : Nat) (x : CoreSt) : (s.setCore k x).core k = x := SMap.get_set_same _ _ k x
theorem State.core_setCore_ne {k j : Nat} (x : CoreSt) (h : j ≠ k) : (s.setCore k x).core j = s.core j := SMap.get_set_ne _ _ x h
@[simp] theorem State.arr_setArr_same (k : Nat) (x : ArrSt) : (s.setArr k x).arr k = x := SMap.get_set_same _ _ k x
theorem State.arr_setArr_ne {k j : Nat} (x : ArrSt) (h : j ≠ k) : (s.setArr k x).arr j = s.arr j := SMap.get_set_ne _ _ x h
@[simp] theorem State.tab_setTab_same (k : Nat) (x : TabSet) : (s.setTab k x).tab k = x := SMap.get_set_same _ _ k x
theorem State.tab_setTab_ne {k j : Nat} (x : TabSet) (h : j ≠ k) : (s.setTab k x).tab j = s.tab j := SMap.get_set_ne _ _ x h
@[simp] theorem State.stream_setStream_same (k : Nat) (x : Stream) : (s.setStream k x).stream k = x := SMap.get_set_same _ _ k x
theorem State.stream_setStream_ne {k j : Nat} (x : Stream) (h : j ≠ k) : (s.setStream k x).stream j = s.stream j := SMap.get_set_ne _ _ x h
@[simp] theorem State.job_setJob_same (k : Nat) (x : Job) : (s.setJob k x).job k = x := SMap.get_set_same _ _ k x
theorem State.job_setJob_ne {k j : Nat} (x : Job) (h : j ≠ k) : (s.setJob k x).job j = s.job j := SMap.get_set_ne _ _ x h
@[simp] theorem State.col_setCol_same (k : Nat) (x : ColSt) : (s.setCol k x).col k = x := SMap.get_set_same _ _ k x
theorem State.col_setCol_ne {k j : Nat} (x : ColSt) (h : j ≠ k) : (s.setCol k x).col j = s.col j := SMap.get_set_ne _ _ x h
@[simp] theorem State.mon_setMon_same (k : Nat) (x : MonSt) : (s.setMon k x).mon k = x := SMap.get_set_same _ _ k x
theorem State.mon_setMon_ne {k j : Nat} (x : MonSt) (h : j ≠ k) : (s.setMon k x).mon j = s.mon j := SMap.get_set_ne _ _ x h
@[simp] theorem State.hyd_setHyd_same (k : Nat) (x : HydSt) : (s.setHyd k x).hyd k = x := SMap.get_set_same _ _ k x
theorem State.hyd_setHyd_ne {k j : Nat} (x : HydSt) (h : j ≠ k) : (s.setHyd k x).hyd j = s.hyd j := SMap.get_set_ne _ _ x h
@[simp] theorem State.ctx_setCtx_same (k : Nat) (x : RedCtx) : (s.setCtx k x).ctx k = x := SMap.get_set_same _ _ k x
theorem State.ctx_setCtx_ne {k j : Nat} (x : RedCtx) (h : j ≠ k) : (s.setCtx k x).ctx j = s.ctx j := SMap.get_set_ne _ _ x h
@[simp] theorem State.port_setPort_same (k : Nat) (x : PortSt) : (s.setPort k x).port k = x := SMap.get_set_same _ _ k x
theorem State.port_setPort_ne {k j : Nat} (x : PortSt) (h : j ≠ k) : (s.setPort k x).port j = s.port j := SMap.get_set_ne _ _ x h

/-! ### Memory keeps its canonical form -/

theorem Memory.wf_setByte (h : Memory.wf s.mem = true) (a : Nat) (v : BitVec 8) : Memory.wf (s.setByte a v).mem = true :=
  SMap.wf_set memDefault h a v

theorem Memory.wf_setBytes (h : Memory.wf s.mem = true) (a : Nat) (l : List (BitVec 8)) : Memory.wf (s.setBytes a l).mem = true := by
  induction l generalizing s a with
  | nil => exact h
  | cons v l ih => exact ih _ (Memory.wf_setByte s h a v) (a + 1)

theorem Memory.wf_setNum (h : Memory.wf s.mem = true) (a n v : Nat) : Memory.wf (s.setNum a n v).mem = true := Memory.wf_setBytes s h a _

theorem Memory.wf_scramble (h : Memory.wf s.mem = true) (a n : Nat) : Memory.wf (s.scramble a n).mem = true := by
  induction n generalizing s a with
  | zero => exact h
  | succ n ih => exact ih { s.setByte a (Config.freeByte s.free) with free := s.free + 1 } (Memory.wf_setByte s h a _) (a + 1)

/-- Bytes outside a written range read as before. -/
theorem State.byte_setBytes_out (a b : Nat) (l : List (BitVec 8)) (h : b < a ∨ a + l.length ≤ b) : (s.setBytes a l).byte b = s.byte b := by
  induction l generalizing s a with
  | nil => rfl
  | cons v l ih =>
    simp only [List.length_cons] at h
    rw [State.setBytes, ih _ (a + 1) (by omega), State.byte_setByte_ne s v (by omega)]

@[simp] theorem leBytes_length (v n : Nat) : (leBytes v n).length = n := by
  induction n generalizing v with
  | zero => rfl
  | succ n ih => simp [leBytes, ih]

theorem State.byte_setNum_out (a b n v : Nat) (h : b < a ∨ a + n ≤ b) : (s.setNum a n v).byte b = s.byte b :=
  State.byte_setBytes_out s a b _ (by simpa using h)

end Sys2Proof.Machine
end

