-- ==== Sys2Proof/Laws/Regs.lean ====
section
/-! SUPPORT. Bit fields and registers: what a field reads after it, or another, is written. -/

namespace Sys2Proof

open Sys2Proof.Machine

theorem testBit_bits (x hi lo i : Nat) : (bits x hi lo).testBit i = (decide (i < hi + 1 - lo) && x.testBit (lo + i)) := by
  simp [bits, Nat.testBit_mod_two_pow, Nat.testBit_shiftRight]

theorem bits_lt (x hi lo : Nat) : bits x hi lo < 2 ^ (hi + 1 - lo) := Nat.mod_lt _ (Nat.two_pow_pos _)

/-- `putBits` as the bits below, the new field, the bits above. -/
theorem putBits_eq (x hi lo v : Nat) (h : lo ≤ hi + 1) :
    putBits x hi lo v = 2 ^ lo * (2 ^ (hi + 1 - lo) * (x / 2 ^ (hi + 1)) + v % 2 ^ (hi + 1 - lo)) + x % 2 ^ lo := by
  have e : 2 ^ (hi + 1) = 2 ^ lo * 2 ^ (hi + 1 - lo) := by rw [← Nat.pow_add]; congr 1; omega
  have h1 := Nat.div_add_mod x (2 ^ lo)
  have h2 := Nat.div_add_mod (x / 2 ^ lo) (2 ^ (hi + 1 - lo))
  unfold putBits bits
  rw [Nat.shiftRight_eq_div_pow, e, ← Nat.div_div_eq_div_mul]
  generalize x / 2 ^ lo = y at *
  generalize y / 2 ^ (hi + 1 - lo) = b at *
  generalize y % 2 ^ (hi + 1 - lo) = f at *
  generalize v % 2 ^ (hi + 1 - lo) = v' at *
  generalize x % 2 ^ lo = a at *
  rw [← h1, ← h2]
  generalize 2 ^ (hi + 1 - lo) * b = c
  rw [Nat.mul_add, Nat.mul_add, Nat.mul_comm f, Nat.mul_comm v']
  omega

theorem testBit_putBits (x hi lo v i : Nat) (h : lo ≤ hi + 1) :
    (putBits x hi lo v).testBit i = if lo ≤ i ∧ i ≤ hi then v.testBit (i - lo) else x.testBit i := by
  rw [putBits_eq x hi lo v h, Nat.testBit_two_pow_mul_add _ (Nat.mod_lt _ (Nat.two_pow_pos _)),
    Nat.testBit_two_pow_mul_add _ (Nat.mod_lt _ (Nat.two_pow_pos _))]
  simp only [Nat.testBit_mod_two_pow, Nat.testBit_div_two_pow]
  by_cases h1 : i < lo
  · simp [h1, show ¬ lo ≤ i by omega]
  · by_cases h2 : i ≤ hi
    · simp [h1, h2, show i - lo < hi + 1 - lo by omega, show lo ≤ i by omega]
    · simp [h1, h2, show ¬ i - lo < hi + 1 - lo by omega]
      congr 1; omega

theorem bits_putBits_same (x hi lo v : Nat) (h : lo ≤ hi) : bits (putBits x hi lo v) hi lo = v % 2 ^ (hi + 1 - lo) := by
  apply Nat.eq_of_testBit_eq
  intro i
  rw [testBit_bits, testBit_putBits _ _ _ _ _ (by omega), Nat.testBit_mod_two_pow]
  by_cases h1 : i < hi + 1 - lo
  · simp [h1, show lo + i ≤ hi by omega]
  · simp [h1]

theorem bits_putBits_ne (x hi lo v hi' lo' : Nat) (h : lo ≤ hi + 1) (hd : hi' < lo ∨ hi < lo') :
    bits (putBits x hi lo v) hi' lo' = bits x hi' lo' := by
  apply Nat.eq_of_testBit_eq
  intro i
  rw [testBit_bits, testBit_bits, testBit_putBits _ _ _ _ _ h]
  by_cases h1 : i < hi' + 1 - lo'
  · rw [if_neg (by omega)]
  · simp [h1]

theorem bit_putBits_ne (x hi lo v i : Nat) (h : lo ≤ hi + 1) (hd : i < lo ∨ hi < i) : bit (putBits x hi lo v) i = bit x i := by
  unfold bit; rw [testBit_putBits _ _ _ _ _ h, if_neg (by omega)]

theorem bit_putBits_same (x i v : Nat) : bit (putBits x i i v) i = bit v 0 := by
  unfold bit; rw [testBit_putBits _ _ _ _ _ (by omega)]; simp

theorem putBits_lt (x hi lo v : Nat) (h : lo ≤ hi + 1) (hh : hi < 32) (hx : x < 2 ^ 32) : putBits x hi lo v < 2 ^ 32 := by
  apply Nat.lt_pow_two_of_testBit
  intro i hi'
  rw [testBit_putBits _ _ _ _ _ h, if_neg (by omega)]
  exact Nat.testBit_lt_two_pow (Nat.lt_of_lt_of_le hx (Nat.pow_le_pow_right (by omega) hi'))

theorem bits_one (x i : Nat) : bits x i i = b2n (bit x i) := by
  apply Nat.eq_of_testBit_eq
  intro j
  rw [testBit_bits]
  rcases j with _ | j
  · cases h : x.testBit i <;> simp [b2n, bit, h]
  · cases h : x.testBit i <;> simp [b2n, bit, h, Nat.testBit_succ]

theorem b2n_beq_one (b : Bool) : (b2n b == 1) = b := by cases b <;> rfl

@[simp] theorem bit_b2n (b : Bool) : bit (b2n b) 0 = b := by cases b <;> rfl

namespace Machine

variable (s : State)

@[simp] theorem State.regN_setReg_same (a : Nat) (v : Word) : (s.setReg a v).regN a = v.toNat := by simp [State.regN]

/-- A register after a field of it, or of another, is written. -/
theorem State.regN_setFld (b o v : Nat) (f : Fld) (h : f.lo ≤ f.hi + 1 := by decide) (hh : f.hi < 32 := by decide) :
    (s.setFld b f v).regN o = if o = b + f.off then putBits (s.regN (b + f.off)) f.hi f.lo v else s.regN o := by
  unfold State.setFld
  rw [State.regN_setRegN]
  split
  · rw [Nat.mod_eq_of_lt (putBits_lt _ _ _ _ h hh (State.regN_lt s _))]
  · rfl

/-- A field after its own write. -/
theorem State.fld_setFld_same (b v : Nat) (f : Fld) (h : f.lo ≤ f.hi := by decide) (hh : f.hi < 32 := by decide) :
    (s.setFld b f v).fld b f = v % 2 ^ (f.hi + 1 - f.lo) := by
  unfold State.fld
  rw [State.regN_setFld s b _ v f (by omega) hh, if_pos rfl, bits_putBits_same _ _ _ _ h]

/-- A field after a write of one that shares no bit with it. -/
theorem State.fld_setFld_ne (b b' v : Nat) (f f' : Fld) (hd : b' + f'.off ≠ b + f.off ∨ f'.hi < f.lo ∨ f.hi < f'.lo)
    (h : f.lo ≤ f.hi + 1 := by decide) (hh : f.hi < 32 := by decide) : (s.setFld b f v).fld b' f' = s.fld b' f' := by
  unfold State.fld
  rw [State.regN_setFld s b _ v f h hh]
  split
  · next he => rw [bits_putBits_ne _ _ _ _ _ _ h (by rcases hd with h | h; exact absurd he h; exact h), he]
  · rfl

theorem State.fld_setRegN (b o v : Nat) (f : Fld) :
    (s.setRegN o v).fld b f = if b + f.off = o then bits (v % 2 ^ 32) f.hi f.lo else s.fld b f := by
  unfold State.fld
  rw [State.regN_setRegN]
  split <;> rfl

/-- Reads of registers see only the registers. -/
theorem State.reg_congr {s t : State} (h : t.regs = s.regs) (o : Nat) : t.reg o = s.reg o := by unfold State.reg; rw [h]
theorem State.regN_congr {s t : State} (h : t.regs = s.regs) (o : Nat) : t.regN o = s.regN o := by unfold State.regN State.reg; rw [h]
theorem State.fld_congr {s t : State} (h : t.regs = s.regs) (b : Nat) (f : Fld) : t.fld b f = s.fld b f := by
  unfold State.fld; rw [State.regN_congr h]
theorem State.flag_congr {s t : State} (h : t.regs = s.regs) (b : Nat) (f : Fld) : t.flag b f = s.flag b f := by
  unfold State.flag; rw [State.fld_congr h]
theorem State.byte_congr {s t : State} (h : t.mem = s.mem) (a : Nat) : t.byte a = s.byte a := by unfold State.byte; rw [h]

end Machine

end Sys2Proof
end

