-- ==== Sys2Proof/Laws/Frames.lean ====
section
/-! SUPPORT. What the shared operations leave alone, field by field: events, error logs, packets, Colophon records, wakes, the
Cask's and the trace writer's. -/

namespace Sys2Proof.Machine

variable (s : State)

@[simp] theorem State.when_true (f : State → State) : s.when true f = f s := rfl
@[simp] theorem State.when_false (f : State → State) : s.when false f = s := rfl
@[simp] theorem State.each_nil {α : Type} (f : α → State → State) : s.each [] f = s := rfl
@[simp] theorem State.each_cons {α : Type} (a : α) (l : List α) (f : α → State → State) : s.each (a :: l) f = (f a s).each l f := rfl

/-- A conditional update keeps what both branches keep. -/
theorem State.when_field {β : Type} (g : State → β) (c : Bool) (f : State → State) (h : g (f s) = g s) : g (s.when c f) = g s := by
  cases c <;> simp [h]

/-- A fold keeps what every step keeps. -/
theorem State.each_field {α β : Type} (g : State → β) (f : α → State → State) (h : ∀ a s, g (f a s) = g s) (l : List α) :
    g (s.each l f) = g s := by
  induction l generalizing s with
  | nil => rfl
  | cons a l ih => rw [State.each_cons, ih, h]

@[simp] theorem setVecPending_frame (fn vec b : Nat) :
    (setVecPending fn vec b s).pending = s.pending ∧ (setVecPending fn vec b s).free = s.free ∧ (setVecPending fn vec b s).out =
    s.out ∧ (setVecPending fn vec b s).time = s.time ∧ (setVecPending fn vec b s).latch = s.latch ∧ (setVecPending fn vec b
    s).mem = s.mem ∧ (setVecPending fn vec b s).ecc = s.ecc ∧ (setVecPending fn vec b s).units = s.units ∧ (setVecPending fn vec
    b s).cores = s.cores ∧ (setVecPending fn vec b s).arrs = s.arrs ∧ (setVecPending fn vec b s).tabs = s.tabs ∧ (setVecPending
    fn vec b s).net = s.net ∧ (setVecPending fn vec b s).tiers = s.tiers ∧ (setVecPending fn vec b s).streams = s.streams ∧
    (setVecPending fn vec b s).jobs = s.jobs ∧ (setVecPending fn vec b s).firstErr = s.firstErr ∧ (setVecPending fn vec b
    s).irqs = s.irqs ∧ (setVecPending fn vec b s).vectors = s.vectors ∧ (setVecPending fn vec b s).events = s.events ∧
    (setVecPending fn vec b s).routes = s.routes ∧ (setVecPending fn vec b s).hyds = s.hyds ∧ (setVecPending fn vec b s).gov =
    s.gov ∧ (setVecPending fn vec b s).ctxs = s.ctxs ∧ (setVecPending fn vec b s).psets = s.psets ∧ (setVecPending fn vec b
    s).maps = s.maps ∧ (setVecPending fn vec b s).loop = s.loop ∧ (setVecPending fn vec b s).txq = s.txq ∧ (setVecPending fn vec
    b s).outst = s.outst ∧ (setVecPending fn vec b s).owed = s.owed ∧ (setVecPending fn vec b s).stopped = s.stopped ∧
    (setVecPending fn vec b s).cask = s.cask ∧ (setVecPending fn vec b s).trq = s.trq ∧ (setVecPending fn vec b s).trw = s.trw ∧
    (setVecPending fn vec b s).hang = s.hang ∧ (setVecPending fn vec b s).snap = s.snap ∧ (setVecPending fn vec b s).snapAt =
    s.snapAt ∧ (setVecPending fn vec b s).edge = s.edge ∧ (setVecPending fn vec b s).wakeAt = s.wakeAt ∧ (setVecPending fn vec b
    s).wakeFrom = s.wakeFrom ∧ (setVecPending fn vec b s).brgRun = s.brgRun ∧ (setVecPending fn vec b s).served = s.served ∧
    (setVecPending fn vec b s).allocs = s.allocs ∧ (setVecPending fn vec b s).recNo = s.recNo ∧ (setVecPending fn vec b s).recAt
    = s.recAt ∧ (setVecPending fn vec b s).ports = s.ports ∧ (setVecPending fn vec b s).sync = s.sync ∧ (setVecPending fn vec b
    s).mons = s.mons ∧ (setVecPending fn vec b s).cols = s.cols ∧ (setVecPending fn vec b s).power = s.power ∧ (setVecPending fn
    vec b s).mzm = s.mzm := by
  unfold setVecPending; simp

@[simp] theorem sendVector_frame (fn vec : Nat) :
    (sendVector fn vec s).pending = s.pending ∧ (sendVector fn vec s).free = s.free ∧ (sendVector fn vec s).time = s.time ∧
    (sendVector fn vec s).latch = s.latch ∧ (sendVector fn vec s).mem = s.mem ∧ (sendVector fn vec s).ecc = s.ecc ∧ (sendVector
    fn vec s).units = s.units ∧ (sendVector fn vec s).cores = s.cores ∧ (sendVector fn vec s).arrs = s.arrs ∧ (sendVector fn vec
    s).tabs = s.tabs ∧ (sendVector fn vec s).net = s.net ∧ (sendVector fn vec s).tiers = s.tiers ∧ (sendVector fn vec s).streams
    = s.streams ∧ (sendVector fn vec s).jobs = s.jobs ∧ (sendVector fn vec s).firstErr = s.firstErr ∧ (sendVector fn vec s).irqs
    = s.irqs ∧ (sendVector fn vec s).vectors = s.vectors ∧ (sendVector fn vec s).events = s.events ∧ (sendVector fn vec
    s).routes = s.routes ∧ (sendVector fn vec s).hyds = s.hyds ∧ (sendVector fn vec s).gov = s.gov ∧ (sendVector fn vec s).ctxs
    = s.ctxs ∧ (sendVector fn vec s).psets = s.psets ∧ (sendVector fn vec s).maps = s.maps ∧ (sendVector fn vec s).loop = s.loop
    ∧ (sendVector fn vec s).txq = s.txq ∧ (sendVector fn vec s).outst = s.outst ∧ (sendVector fn vec s).owed = s.owed ∧
    (sendVector fn vec s).stopped = s.stopped ∧ (sendVector fn vec s).cask = s.cask ∧ (sendVector fn vec s).trq = s.trq ∧
    (sendVector fn vec s).trw = s.trw ∧ (sendVector fn vec s).hang = s.hang ∧ (sendVector fn vec s).snap = s.snap ∧ (sendVector
    fn vec s).snapAt = s.snapAt ∧ (sendVector fn vec s).edge = s.edge ∧ (sendVector fn vec s).wakeAt = s.wakeAt ∧ (sendVector fn
    vec s).wakeFrom = s.wakeFrom ∧ (sendVector fn vec s).brgRun = s.brgRun ∧ (sendVector fn vec s).served = s.served ∧
    (sendVector fn vec s).allocs = s.allocs ∧ (sendVector fn vec s).recNo = s.recNo ∧ (sendVector fn vec s).recAt = s.recAt ∧
    (sendVector fn vec s).ports = s.ports ∧ (sendVector fn vec s).sync = s.sync ∧ (sendVector fn vec s).mons = s.mons ∧
    (sendVector fn vec s).cols = s.cols ∧ (sendVector fn vec s).power = s.power ∧ (sendVector fn vec s).mzm = s.mzm := by
  unfold sendVector; (try dsimp only); (repeat' split) <;> simp

@[simp] theorem raiseMask_frame (b m : Nat) :
    (raiseMask b m s).pending = s.pending ∧ (raiseMask b m s).free = s.free ∧ (raiseMask b m s).time = s.time ∧ (raiseMask b m
    s).latch = s.latch ∧ (raiseMask b m s).mem = s.mem ∧ (raiseMask b m s).ecc = s.ecc ∧ (raiseMask b m s).units = s.units ∧
    (raiseMask b m s).cores = s.cores ∧ (raiseMask b m s).arrs = s.arrs ∧ (raiseMask b m s).tabs = s.tabs ∧ (raiseMask b m
    s).net = s.net ∧ (raiseMask b m s).tiers = s.tiers ∧ (raiseMask b m s).streams = s.streams ∧ (raiseMask b m s).jobs = s.jobs
    ∧ (raiseMask b m s).firstErr = s.firstErr ∧ (raiseMask b m s).irqs = s.irqs ∧ (raiseMask b m s).vectors = s.vectors ∧
    (raiseMask b m s).events = s.events ∧ (raiseMask b m s).routes = s.routes ∧ (raiseMask b m s).hyds = s.hyds ∧ (raiseMask b m
    s).gov = s.gov ∧ (raiseMask b m s).ctxs = s.ctxs ∧ (raiseMask b m s).psets = s.psets ∧ (raiseMask b m s).maps = s.maps ∧
    (raiseMask b m s).loop = s.loop ∧ (raiseMask b m s).txq = s.txq ∧ (raiseMask b m s).outst = s.outst ∧ (raiseMask b m s).owed
    = s.owed ∧ (raiseMask b m s).stopped = s.stopped ∧ (raiseMask b m s).cask = s.cask ∧ (raiseMask b m s).trq = s.trq ∧
    (raiseMask b m s).trw = s.trw ∧ (raiseMask b m s).hang = s.hang ∧ (raiseMask b m s).snap = s.snap ∧ (raiseMask b m s).snapAt
    = s.snapAt ∧ (raiseMask b m s).edge = s.edge ∧ (raiseMask b m s).wakeAt = s.wakeAt ∧ (raiseMask b m s).wakeFrom = s.wakeFrom
    ∧ (raiseMask b m s).brgRun = s.brgRun ∧ (raiseMask b m s).served = s.served ∧ (raiseMask b m s).allocs = s.allocs ∧
    (raiseMask b m s).recNo = s.recNo ∧ (raiseMask b m s).recAt = s.recAt ∧ (raiseMask b m s).ports = s.ports ∧ (raiseMask b m
    s).sync = s.sync ∧ (raiseMask b m s).mons = s.mons ∧ (raiseMask b m s).cols = s.cols ∧ (raiseMask b m s).power = s.power ∧
    (raiseMask b m s).mzm = s.mzm := by
  unfold raiseMask; (try dsimp only); (repeat' split) <;> simp

@[simp] theorem raiseEv_frame (b k : Nat) :
    (raiseEv b k s).pending = s.pending ∧ (raiseEv b k s).free = s.free ∧ (raiseEv b k s).time = s.time ∧ (raiseEv b k s).latch
    = s.latch ∧ (raiseEv b k s).mem = s.mem ∧ (raiseEv b k s).ecc = s.ecc ∧ (raiseEv b k s).units = s.units ∧ (raiseEv b k
    s).cores = s.cores ∧ (raiseEv b k s).arrs = s.arrs ∧ (raiseEv b k s).tabs = s.tabs ∧ (raiseEv b k s).net = s.net ∧ (raiseEv
    b k s).tiers = s.tiers ∧ (raiseEv b k s).streams = s.streams ∧ (raiseEv b k s).jobs = s.jobs ∧ (raiseEv b k s).firstErr =
    s.firstErr ∧ (raiseEv b k s).irqs = s.irqs ∧ (raiseEv b k s).vectors = s.vectors ∧ (raiseEv b k s).events = s.events ∧
    (raiseEv b k s).routes = s.routes ∧ (raiseEv b k s).hyds = s.hyds ∧ (raiseEv b k s).gov = s.gov ∧ (raiseEv b k s).ctxs =
    s.ctxs ∧ (raiseEv b k s).psets = s.psets ∧ (raiseEv b k s).maps = s.maps ∧ (raiseEv b k s).loop = s.loop ∧ (raiseEv b k
    s).txq = s.txq ∧ (raiseEv b k s).outst = s.outst ∧ (raiseEv b k s).owed = s.owed ∧ (raiseEv b k s).stopped = s.stopped ∧
    (raiseEv b k s).cask = s.cask ∧ (raiseEv b k s).trq = s.trq ∧ (raiseEv b k s).trw = s.trw ∧ (raiseEv b k s).hang = s.hang ∧
    (raiseEv b k s).snap = s.snap ∧ (raiseEv b k s).snapAt = s.snapAt ∧ (raiseEv b k s).edge = s.edge ∧ (raiseEv b k s).wakeAt =
    s.wakeAt ∧ (raiseEv b k s).wakeFrom = s.wakeFrom ∧ (raiseEv b k s).brgRun = s.brgRun ∧ (raiseEv b k s).served = s.served ∧
    (raiseEv b k s).allocs = s.allocs ∧ (raiseEv b k s).recNo = s.recNo ∧ (raiseEv b k s).recAt = s.recAt ∧ (raiseEv b k
    s).ports = s.ports ∧ (raiseEv b k s).sync = s.sync ∧ (raiseEv b k s).mons = s.mons ∧ (raiseEv b k s).cols = s.cols ∧
    (raiseEv b k s).power = s.power ∧ (raiseEv b k s).mzm = s.mzm := by
  unfold raiseEv; simp

@[simp] theorem recordPriv_frame (fn off x c : Nat) :
    (recordPriv fn off x c s).pending = s.pending ∧ (recordPriv fn off x c s).free = s.free ∧ (recordPriv fn off x c s).out =
    s.out ∧ (recordPriv fn off x c s).time = s.time ∧ (recordPriv fn off x c s).latch = s.latch ∧ (recordPriv fn off x c s).mem
    = s.mem ∧ (recordPriv fn off x c s).ecc = s.ecc ∧ (recordPriv fn off x c s).units = s.units ∧ (recordPriv fn off x c
    s).cores = s.cores ∧ (recordPriv fn off x c s).arrs = s.arrs ∧ (recordPriv fn off x c s).tabs = s.tabs ∧ (recordPriv fn off
    x c s).net = s.net ∧ (recordPriv fn off x c s).tiers = s.tiers ∧ (recordPriv fn off x c s).streams = s.streams ∧ (recordPriv
    fn off x c s).jobs = s.jobs ∧ (recordPriv fn off x c s).firstErr = s.firstErr ∧ (recordPriv fn off x c s).irqs = s.irqs ∧
    (recordPriv fn off x c s).vectors = s.vectors ∧ (recordPriv fn off x c s).events = s.events ∧ (recordPriv fn off x c
    s).routes = s.routes ∧ (recordPriv fn off x c s).hyds = s.hyds ∧ (recordPriv fn off x c s).gov = s.gov ∧ (recordPriv fn off
    x c s).ctxs = s.ctxs ∧ (recordPriv fn off x c s).psets = s.psets ∧ (recordPriv fn off x c s).maps = s.maps ∧ (recordPriv fn
    off x c s).loop = s.loop ∧ (recordPriv fn off x c s).txq = s.txq ∧ (recordPriv fn off x c s).outst = s.outst ∧ (recordPriv
    fn off x c s).owed = s.owed ∧ (recordPriv fn off x c s).stopped = s.stopped ∧ (recordPriv fn off x c s).cask = s.cask ∧
    (recordPriv fn off x c s).trq = s.trq ∧ (recordPriv fn off x c s).trw = s.trw ∧ (recordPriv fn off x c s).hang = s.hang ∧
    (recordPriv fn off x c s).snap = s.snap ∧ (recordPriv fn off x c s).snapAt = s.snapAt ∧ (recordPriv fn off x c s).edge =
    s.edge ∧ (recordPriv fn off x c s).wakeAt = s.wakeAt ∧ (recordPriv fn off x c s).wakeFrom = s.wakeFrom ∧ (recordPriv fn off
    x c s).brgRun = s.brgRun ∧ (recordPriv fn off x c s).served = s.served ∧ (recordPriv fn off x c s).allocs = s.allocs ∧
    (recordPriv fn off x c s).recNo = s.recNo ∧ (recordPriv fn off x c s).recAt = s.recAt ∧ (recordPriv fn off x c s).ports =
    s.ports ∧ (recordPriv fn off x c s).sync = s.sync ∧ (recordPriv fn off x c s).mons = s.mons ∧ (recordPriv fn off x c s).cols
    = s.cols ∧ (recordPriv fn off x c s).power = s.power ∧ (recordPriv fn off x c s).mzm = s.mzm := by
  unfold recordPriv; (try dsimp only); (repeat' split) <;> simp

@[simp] theorem logKeyed_frame (b c : Nat) (k : Option (Nat × Nat × Nat)) :
    (logKeyed b c k s).pending = s.pending ∧ (logKeyed b c k s).free = s.free ∧ (logKeyed b c k s).out = s.out ∧ (logKeyed b c k
    s).time = s.time ∧ (logKeyed b c k s).latch = s.latch ∧ (logKeyed b c k s).mem = s.mem ∧ (logKeyed b c k s).ecc = s.ecc ∧
    (logKeyed b c k s).units = s.units ∧ (logKeyed b c k s).cores = s.cores ∧ (logKeyed b c k s).arrs = s.arrs ∧ (logKeyed b c k
    s).tabs = s.tabs ∧ (logKeyed b c k s).net = s.net ∧ (logKeyed b c k s).tiers = s.tiers ∧ (logKeyed b c k s).streams =
    s.streams ∧ (logKeyed b c k s).jobs = s.jobs ∧ (logKeyed b c k s).irqs = s.irqs ∧ (logKeyed b c k s).vectors = s.vectors ∧
    (logKeyed b c k s).events = s.events ∧ (logKeyed b c k s).routes = s.routes ∧ (logKeyed b c k s).hyds = s.hyds ∧ (logKeyed b
    c k s).gov = s.gov ∧ (logKeyed b c k s).ctxs = s.ctxs ∧ (logKeyed b c k s).psets = s.psets ∧ (logKeyed b c k s).maps =
    s.maps ∧ (logKeyed b c k s).loop = s.loop ∧ (logKeyed b c k s).txq = s.txq ∧ (logKeyed b c k s).outst = s.outst ∧ (logKeyed
    b c k s).owed = s.owed ∧ (logKeyed b c k s).stopped = s.stopped ∧ (logKeyed b c k s).cask = s.cask ∧ (logKeyed b c k s).trq
    = s.trq ∧ (logKeyed b c k s).trw = s.trw ∧ (logKeyed b c k s).hang = s.hang ∧ (logKeyed b c k s).snap = s.snap ∧ (logKeyed b
    c k s).snapAt = s.snapAt ∧ (logKeyed b c k s).edge = s.edge ∧ (logKeyed b c k s).wakeAt = s.wakeAt ∧ (logKeyed b c k
    s).wakeFrom = s.wakeFrom ∧ (logKeyed b c k s).brgRun = s.brgRun ∧ (logKeyed b c k s).served = s.served ∧ (logKeyed b c k
    s).allocs = s.allocs ∧ (logKeyed b c k s).recNo = s.recNo ∧ (logKeyed b c k s).recAt = s.recAt ∧ (logKeyed b c k s).ports =
    s.ports ∧ (logKeyed b c k s).sync = s.sync ∧ (logKeyed b c k s).mons = s.mons ∧ (logKeyed b c k s).cols = s.cols ∧ (logKeyed
    b c k s).power = s.power ∧ (logKeyed b c k s).mzm = s.mzm := by
  unfold logKeyed; (try dsimp only); (repeat' split) <;> simp

@[simp] theorem logStatus_frame (b c : Nat) :
    (logStatus b c s).pending = s.pending ∧ (logStatus b c s).free = s.free ∧ (logStatus b c s).out = s.out ∧ (logStatus b c
    s).time = s.time ∧ (logStatus b c s).latch = s.latch ∧ (logStatus b c s).mem = s.mem ∧ (logStatus b c s).ecc = s.ecc ∧
    (logStatus b c s).units = s.units ∧ (logStatus b c s).cores = s.cores ∧ (logStatus b c s).arrs = s.arrs ∧ (logStatus b c
    s).tabs = s.tabs ∧ (logStatus b c s).net = s.net ∧ (logStatus b c s).tiers = s.tiers ∧ (logStatus b c s).streams = s.streams
    ∧ (logStatus b c s).jobs = s.jobs ∧ (logStatus b c s).irqs = s.irqs ∧ (logStatus b c s).vectors = s.vectors ∧ (logStatus b c
    s).events = s.events ∧ (logStatus b c s).routes = s.routes ∧ (logStatus b c s).hyds = s.hyds ∧ (logStatus b c s).gov = s.gov
    ∧ (logStatus b c s).ctxs = s.ctxs ∧ (logStatus b c s).psets = s.psets ∧ (logStatus b c s).maps = s.maps ∧ (logStatus b c
    s).loop = s.loop ∧ (logStatus b c s).txq = s.txq ∧ (logStatus b c s).outst = s.outst ∧ (logStatus b c s).owed = s.owed ∧
    (logStatus b c s).stopped = s.stopped ∧ (logStatus b c s).cask = s.cask ∧ (logStatus b c s).trq = s.trq ∧ (logStatus b c
    s).trw = s.trw ∧ (logStatus b c s).hang = s.hang ∧ (logStatus b c s).snap = s.snap ∧ (logStatus b c s).snapAt = s.snapAt ∧
    (logStatus b c s).edge = s.edge ∧ (logStatus b c s).wakeAt = s.wakeAt ∧ (logStatus b c s).wakeFrom = s.wakeFrom ∧ (logStatus
    b c s).brgRun = s.brgRun ∧ (logStatus b c s).served = s.served ∧ (logStatus b c s).allocs = s.allocs ∧ (logStatus b c
    s).recNo = s.recNo ∧ (logStatus b c s).recAt = s.recAt ∧ (logStatus b c s).ports = s.ports ∧ (logStatus b c s).sync = s.sync
    ∧ (logStatus b c s).mons = s.mons ∧ (logStatus b c s).cols = s.cols ∧ (logStatus b c s).power = s.power ∧ (logStatus b c
    s).mzm = s.mzm := by
  simp [logStatus]

@[simp] theorem logItem_frame (b c p q : Nat) :
    (logItem b c p q s).pending = s.pending ∧ (logItem b c p q s).free = s.free ∧ (logItem b c p q s).out = s.out ∧ (logItem b c
    p q s).time = s.time ∧ (logItem b c p q s).latch = s.latch ∧ (logItem b c p q s).mem = s.mem ∧ (logItem b c p q s).ecc =
    s.ecc ∧ (logItem b c p q s).units = s.units ∧ (logItem b c p q s).cores = s.cores ∧ (logItem b c p q s).arrs = s.arrs ∧
    (logItem b c p q s).tabs = s.tabs ∧ (logItem b c p q s).net = s.net ∧ (logItem b c p q s).tiers = s.tiers ∧ (logItem b c p q
    s).streams = s.streams ∧ (logItem b c p q s).jobs = s.jobs ∧ (logItem b c p q s).irqs = s.irqs ∧ (logItem b c p q s).vectors
    = s.vectors ∧ (logItem b c p q s).events = s.events ∧ (logItem b c p q s).routes = s.routes ∧ (logItem b c p q s).hyds =
    s.hyds ∧ (logItem b c p q s).gov = s.gov ∧ (logItem b c p q s).ctxs = s.ctxs ∧ (logItem b c p q s).psets = s.psets ∧
    (logItem b c p q s).maps = s.maps ∧ (logItem b c p q s).loop = s.loop ∧ (logItem b c p q s).txq = s.txq ∧ (logItem b c p q
    s).outst = s.outst ∧ (logItem b c p q s).owed = s.owed ∧ (logItem b c p q s).stopped = s.stopped ∧ (logItem b c p q s).cask
    = s.cask ∧ (logItem b c p q s).trq = s.trq ∧ (logItem b c p q s).trw = s.trw ∧ (logItem b c p q s).hang = s.hang ∧ (logItem
    b c p q s).snap = s.snap ∧ (logItem b c p q s).snapAt = s.snapAt ∧ (logItem b c p q s).edge = s.edge ∧ (logItem b c p q
    s).wakeAt = s.wakeAt ∧ (logItem b c p q s).wakeFrom = s.wakeFrom ∧ (logItem b c p q s).brgRun = s.brgRun ∧ (logItem b c p q
    s).served = s.served ∧ (logItem b c p q s).allocs = s.allocs ∧ (logItem b c p q s).recNo = s.recNo ∧ (logItem b c p q
    s).recAt = s.recAt ∧ (logItem b c p q s).ports = s.ports ∧ (logItem b c p q s).sync = s.sync ∧ (logItem b c p q s).mons =
    s.mons ∧ (logItem b c p q s).cols = s.cols ∧ (logItem b c p q s).power = s.power ∧ (logItem b c p q s).mzm = s.mzm := by
  unfold logItem; (try dsimp only); (repeat' split) <;> simp

@[simp] theorem refuseAccess_frame (fn off : Nat) :
    (refuseAccess fn off s).pending = s.pending ∧ (refuseAccess fn off s).free = s.free ∧ (refuseAccess fn off s).out = s.out ∧
    (refuseAccess fn off s).time = s.time ∧ (refuseAccess fn off s).latch = s.latch ∧ (refuseAccess fn off s).mem = s.mem ∧
    (refuseAccess fn off s).ecc = s.ecc ∧ (refuseAccess fn off s).units = s.units ∧ (refuseAccess fn off s).cores = s.cores ∧
    (refuseAccess fn off s).arrs = s.arrs ∧ (refuseAccess fn off s).tabs = s.tabs ∧ (refuseAccess fn off s).net = s.net ∧
    (refuseAccess fn off s).tiers = s.tiers ∧ (refuseAccess fn off s).streams = s.streams ∧ (refuseAccess fn off s).jobs =
    s.jobs ∧ (refuseAccess fn off s).irqs = s.irqs ∧ (refuseAccess fn off s).vectors = s.vectors ∧ (refuseAccess fn off
    s).events = s.events ∧ (refuseAccess fn off s).routes = s.routes ∧ (refuseAccess fn off s).hyds = s.hyds ∧ (refuseAccess fn
    off s).gov = s.gov ∧ (refuseAccess fn off s).ctxs = s.ctxs ∧ (refuseAccess fn off s).psets = s.psets ∧ (refuseAccess fn off
    s).maps = s.maps ∧ (refuseAccess fn off s).loop = s.loop ∧ (refuseAccess fn off s).txq = s.txq ∧ (refuseAccess fn off
    s).outst = s.outst ∧ (refuseAccess fn off s).owed = s.owed ∧ (refuseAccess fn off s).stopped = s.stopped ∧ (refuseAccess fn
    off s).cask = s.cask ∧ (refuseAccess fn off s).trq = s.trq ∧ (refuseAccess fn off s).trw = s.trw ∧ (refuseAccess fn off
    s).hang = s.hang ∧ (refuseAccess fn off s).snap = s.snap ∧ (refuseAccess fn off s).snapAt = s.snapAt ∧ (refuseAccess fn off
    s).edge = s.edge ∧ (refuseAccess fn off s).wakeAt = s.wakeAt ∧ (refuseAccess fn off s).wakeFrom = s.wakeFrom ∧ (refuseAccess
    fn off s).brgRun = s.brgRun ∧ (refuseAccess fn off s).served = s.served ∧ (refuseAccess fn off s).allocs = s.allocs ∧
    (refuseAccess fn off s).recNo = s.recNo ∧ (refuseAccess fn off s).recAt = s.recAt ∧ (refuseAccess fn off s).ports = s.ports
    ∧ (refuseAccess fn off s).sync = s.sync ∧ (refuseAccess fn off s).mons = s.mons ∧ (refuseAccess fn off s).cols = s.cols ∧
    (refuseAccess fn off s).power = s.power ∧ (refuseAccess fn off s).mzm = s.mzm := by
  unfold refuseAccess; split <;> simp

@[simp] theorem refuseStream_frame (fn off id : Nat) :
    (refuseStream fn off id s).pending = s.pending ∧ (refuseStream fn off id s).free = s.free ∧ (refuseStream fn off id s).out =
    s.out ∧ (refuseStream fn off id s).time = s.time ∧ (refuseStream fn off id s).latch = s.latch ∧ (refuseStream fn off id
    s).mem = s.mem ∧ (refuseStream fn off id s).ecc = s.ecc ∧ (refuseStream fn off id s).units = s.units ∧ (refuseStream fn off
    id s).cores = s.cores ∧ (refuseStream fn off id s).arrs = s.arrs ∧ (refuseStream fn off id s).tabs = s.tabs ∧ (refuseStream
    fn off id s).net = s.net ∧ (refuseStream fn off id s).tiers = s.tiers ∧ (refuseStream fn off id s).streams = s.streams ∧
    (refuseStream fn off id s).jobs = s.jobs ∧ (refuseStream fn off id s).irqs = s.irqs ∧ (refuseStream fn off id s).vectors =
    s.vectors ∧ (refuseStream fn off id s).events = s.events ∧ (refuseStream fn off id s).routes = s.routes ∧ (refuseStream fn
    off id s).hyds = s.hyds ∧ (refuseStream fn off id s).gov = s.gov ∧ (refuseStream fn off id s).ctxs = s.ctxs ∧ (refuseStream
    fn off id s).psets = s.psets ∧ (refuseStream fn off id s).maps = s.maps ∧ (refuseStream fn off id s).loop = s.loop ∧
    (refuseStream fn off id s).txq = s.txq ∧ (refuseStream fn off id s).outst = s.outst ∧ (refuseStream fn off id s).owed =
    s.owed ∧ (refuseStream fn off id s).stopped = s.stopped ∧ (refuseStream fn off id s).cask = s.cask ∧ (refuseStream fn off id
    s).trq = s.trq ∧ (refuseStream fn off id s).trw = s.trw ∧ (refuseStream fn off id s).hang = s.hang ∧ (refuseStream fn off id
    s).snap = s.snap ∧ (refuseStream fn off id s).snapAt = s.snapAt ∧ (refuseStream fn off id s).edge = s.edge ∧ (refuseStream
    fn off id s).wakeAt = s.wakeAt ∧ (refuseStream fn off id s).wakeFrom = s.wakeFrom ∧ (refuseStream fn off id s).brgRun =
    s.brgRun ∧ (refuseStream fn off id s).served = s.served ∧ (refuseStream fn off id s).allocs = s.allocs ∧ (refuseStream fn
    off id s).recNo = s.recNo ∧ (refuseStream fn off id s).recAt = s.recAt ∧ (refuseStream fn off id s).ports = s.ports ∧
    (refuseStream fn off id s).sync = s.sync ∧ (refuseStream fn off id s).mons = s.mons ∧ (refuseStream fn off id s).cols =
    s.cols ∧ (refuseStream fn off id s).power = s.power ∧ (refuseStream fn off id s).mzm = s.mzm := by
  unfold refuseStream; simp

@[simp] theorem queueAt_frame (p : Nat) (k : Packet) :
    (queueAt p k s).pending = s.pending ∧ (queueAt p k s).free = s.free ∧ (queueAt p k s).out = s.out ∧ (queueAt p k s).time =
    s.time ∧ (queueAt p k s).regs = s.regs ∧ (queueAt p k s).latch = s.latch ∧ (queueAt p k s).mem = s.mem ∧ (queueAt p k s).ecc
    = s.ecc ∧ (queueAt p k s).units = s.units ∧ (queueAt p k s).cores = s.cores ∧ (queueAt p k s).arrs = s.arrs ∧ (queueAt p k
    s).tabs = s.tabs ∧ (queueAt p k s).net = s.net ∧ (queueAt p k s).tiers = s.tiers ∧ (queueAt p k s).streams = s.streams ∧
    (queueAt p k s).jobs = s.jobs ∧ (queueAt p k s).firstErr = s.firstErr ∧ (queueAt p k s).irqs = s.irqs ∧ (queueAt p k
    s).vectors = s.vectors ∧ (queueAt p k s).events = s.events ∧ (queueAt p k s).routes = s.routes ∧ (queueAt p k s).hyds =
    s.hyds ∧ (queueAt p k s).gov = s.gov ∧ (queueAt p k s).ctxs = s.ctxs ∧ (queueAt p k s).psets = s.psets ∧ (queueAt p k
    s).maps = s.maps ∧ (queueAt p k s).loop = s.loop ∧ (queueAt p k s).outst = s.outst ∧ (queueAt p k s).owed = s.owed ∧
    (queueAt p k s).stopped = s.stopped ∧ (queueAt p k s).cask = s.cask ∧ (queueAt p k s).trq = s.trq ∧ (queueAt p k s).trw =
    s.trw ∧ (queueAt p k s).hang = s.hang ∧ (queueAt p k s).snap = s.snap ∧ (queueAt p k s).snapAt = s.snapAt ∧ (queueAt p k
    s).edge = s.edge ∧ (queueAt p k s).wakeAt = s.wakeAt ∧ (queueAt p k s).wakeFrom = s.wakeFrom ∧ (queueAt p k s).brgRun =
    s.brgRun ∧ (queueAt p k s).served = s.served ∧ (queueAt p k s).allocs = s.allocs ∧ (queueAt p k s).recNo = s.recNo ∧
    (queueAt p k s).recAt = s.recAt ∧ (queueAt p k s).ports = s.ports ∧ (queueAt p k s).sync = s.sync ∧ (queueAt p k s).mons =
    s.mons ∧ (queueAt p k s).cols = s.cols ∧ (queueAt p k s).power = s.power ∧ (queueAt p k s).mzm = s.mzm := by
  unfold queueAt; (try dsimp only); (repeat' split) <;> simp

@[simp] theorem sendPacket_frame (k : Packet) :
    (sendPacket k s).pending = s.pending ∧ (sendPacket k s).free = s.free ∧ (sendPacket k s).out = s.out ∧ (sendPacket k s).time
    = s.time ∧ (sendPacket k s).regs = s.regs ∧ (sendPacket k s).latch = s.latch ∧ (sendPacket k s).mem = s.mem ∧ (sendPacket k
    s).ecc = s.ecc ∧ (sendPacket k s).units = s.units ∧ (sendPacket k s).cores = s.cores ∧ (sendPacket k s).arrs = s.arrs ∧
    (sendPacket k s).tabs = s.tabs ∧ (sendPacket k s).net = s.net ∧ (sendPacket k s).tiers = s.tiers ∧ (sendPacket k s).streams
    = s.streams ∧ (sendPacket k s).jobs = s.jobs ∧ (sendPacket k s).firstErr = s.firstErr ∧ (sendPacket k s).irqs = s.irqs ∧
    (sendPacket k s).vectors = s.vectors ∧ (sendPacket k s).events = s.events ∧ (sendPacket k s).routes = s.routes ∧ (sendPacket
    k s).hyds = s.hyds ∧ (sendPacket k s).gov = s.gov ∧ (sendPacket k s).ctxs = s.ctxs ∧ (sendPacket k s).psets = s.psets ∧
    (sendPacket k s).maps = s.maps ∧ (sendPacket k s).outst = s.outst ∧ (sendPacket k s).owed = s.owed ∧ (sendPacket k
    s).stopped = s.stopped ∧ (sendPacket k s).cask = s.cask ∧ (sendPacket k s).trq = s.trq ∧ (sendPacket k s).trw = s.trw ∧
    (sendPacket k s).hang = s.hang ∧ (sendPacket k s).snap = s.snap ∧ (sendPacket k s).snapAt = s.snapAt ∧ (sendPacket k s).edge
    = s.edge ∧ (sendPacket k s).wakeAt = s.wakeAt ∧ (sendPacket k s).wakeFrom = s.wakeFrom ∧ (sendPacket k s).brgRun = s.brgRun
    ∧ (sendPacket k s).served = s.served ∧ (sendPacket k s).allocs = s.allocs ∧ (sendPacket k s).recNo = s.recNo ∧ (sendPacket k
    s).recAt = s.recAt ∧ (sendPacket k s).ports = s.ports ∧ (sendPacket k s).sync = s.sync ∧ (sendPacket k s).mons = s.mons ∧
    (sendPacket k s).cols = s.cols ∧ (sendPacket k s).power = s.power ∧ (sendPacket k s).mzm = s.mzm := by
  unfold sendPacket; (try dsimp only); (repeat' split) <;> simp

@[simp] theorem sendStop_frame (d n : Nat) (l : List (BitVec 8)) :
    (sendStop d n l s).pending = s.pending ∧ (sendStop d n l s).free = s.free ∧ (sendStop d n l s).out = s.out ∧ (sendStop d n l
    s).time = s.time ∧ (sendStop d n l s).regs = s.regs ∧ (sendStop d n l s).latch = s.latch ∧ (sendStop d n l s).mem = s.mem ∧
    (sendStop d n l s).ecc = s.ecc ∧ (sendStop d n l s).units = s.units ∧ (sendStop d n l s).cores = s.cores ∧ (sendStop d n l
    s).arrs = s.arrs ∧ (sendStop d n l s).tabs = s.tabs ∧ (sendStop d n l s).net = s.net ∧ (sendStop d n l s).tiers = s.tiers ∧
    (sendStop d n l s).streams = s.streams ∧ (sendStop d n l s).jobs = s.jobs ∧ (sendStop d n l s).firstErr = s.firstErr ∧
    (sendStop d n l s).irqs = s.irqs ∧ (sendStop d n l s).vectors = s.vectors ∧ (sendStop d n l s).events = s.events ∧ (sendStop
    d n l s).routes = s.routes ∧ (sendStop d n l s).hyds = s.hyds ∧ (sendStop d n l s).gov = s.gov ∧ (sendStop d n l s).ctxs =
    s.ctxs ∧ (sendStop d n l s).psets = s.psets ∧ (sendStop d n l s).maps = s.maps ∧ (sendStop d n l s).outst = s.outst ∧
    (sendStop d n l s).owed = s.owed ∧ (sendStop d n l s).stopped = s.stopped ∧ (sendStop d n l s).cask = s.cask ∧ (sendStop d n
    l s).trq = s.trq ∧ (sendStop d n l s).trw = s.trw ∧ (sendStop d n l s).hang = s.hang ∧ (sendStop d n l s).snap = s.snap ∧
    (sendStop d n l s).snapAt = s.snapAt ∧ (sendStop d n l s).edge = s.edge ∧ (sendStop d n l s).wakeAt = s.wakeAt ∧ (sendStop d
    n l s).wakeFrom = s.wakeFrom ∧ (sendStop d n l s).brgRun = s.brgRun ∧ (sendStop d n l s).served = s.served ∧ (sendStop d n l
    s).allocs = s.allocs ∧ (sendStop d n l s).recNo = s.recNo ∧ (sendStop d n l s).recAt = s.recAt ∧ (sendStop d n l s).ports =
    s.ports ∧ (sendStop d n l s).sync = s.sync ∧ (sendStop d n l s).mons = s.mons ∧ (sendStop d n l s).cols = s.cols ∧ (sendStop
    d n l s).power = s.power ∧ (sendStop d n l s).mzm = s.mzm := by
  simp [sendStop]

@[simp] theorem colWrite_frame (d : Nat) (r : ColRec) :
    (colWrite d r s).pending = s.pending ∧ (colWrite d r s).free = s.free ∧ (colWrite d r s).out = s.out ∧ (colWrite d r s).time
    = s.time ∧ (colWrite d r s).regs = s.regs ∧ (colWrite d r s).latch = s.latch ∧ (colWrite d r s).ecc = s.ecc ∧ (colWrite d r
    s).units = s.units ∧ (colWrite d r s).cores = s.cores ∧ (colWrite d r s).arrs = s.arrs ∧ (colWrite d r s).tabs = s.tabs ∧
    (colWrite d r s).net = s.net ∧ (colWrite d r s).tiers = s.tiers ∧ (colWrite d r s).streams = s.streams ∧ (colWrite d r
    s).jobs = s.jobs ∧ (colWrite d r s).firstErr = s.firstErr ∧ (colWrite d r s).irqs = s.irqs ∧ (colWrite d r s).vectors =
    s.vectors ∧ (colWrite d r s).events = s.events ∧ (colWrite d r s).routes = s.routes ∧ (colWrite d r s).hyds = s.hyds ∧
    (colWrite d r s).gov = s.gov ∧ (colWrite d r s).ctxs = s.ctxs ∧ (colWrite d r s).psets = s.psets ∧ (colWrite d r s).maps =
    s.maps ∧ (colWrite d r s).loop = s.loop ∧ (colWrite d r s).txq = s.txq ∧ (colWrite d r s).outst = s.outst ∧ (colWrite d r
    s).owed = s.owed ∧ (colWrite d r s).stopped = s.stopped ∧ (colWrite d r s).cask = s.cask ∧ (colWrite d r s).trq = s.trq ∧
    (colWrite d r s).trw = s.trw ∧ (colWrite d r s).hang = s.hang ∧ (colWrite d r s).snap = s.snap ∧ (colWrite d r s).snapAt =
    s.snapAt ∧ (colWrite d r s).edge = s.edge ∧ (colWrite d r s).wakeAt = s.wakeAt ∧ (colWrite d r s).wakeFrom = s.wakeFrom ∧
    (colWrite d r s).brgRun = s.brgRun ∧ (colWrite d r s).served = s.served ∧ (colWrite d r s).allocs = s.allocs ∧ (colWrite d r
    s).recNo = s.recNo ∧ (colWrite d r s).recAt = s.recAt ∧ (colWrite d r s).ports = s.ports ∧ (colWrite d r s).sync = s.sync ∧
    (colWrite d r s).mons = s.mons ∧ (colWrite d r s).power = s.power ∧ (colWrite d r s).mzm = s.mzm := by
  unfold colWrite; simp

@[simp] theorem colAppend_frame (d t : Nat) (l : List (BitVec 8)) :
    (colAppend d t l s).pending = s.pending ∧ (colAppend d t l s).free = s.free ∧ (colAppend d t l s).out = s.out ∧ (colAppend d
    t l s).time = s.time ∧ (colAppend d t l s).regs = s.regs ∧ (colAppend d t l s).latch = s.latch ∧ (colAppend d t l s).ecc =
    s.ecc ∧ (colAppend d t l s).units = s.units ∧ (colAppend d t l s).cores = s.cores ∧ (colAppend d t l s).arrs = s.arrs ∧
    (colAppend d t l s).tabs = s.tabs ∧ (colAppend d t l s).net = s.net ∧ (colAppend d t l s).tiers = s.tiers ∧ (colAppend d t l
    s).streams = s.streams ∧ (colAppend d t l s).jobs = s.jobs ∧ (colAppend d t l s).firstErr = s.firstErr ∧ (colAppend d t l
    s).irqs = s.irqs ∧ (colAppend d t l s).vectors = s.vectors ∧ (colAppend d t l s).events = s.events ∧ (colAppend d t l
    s).routes = s.routes ∧ (colAppend d t l s).hyds = s.hyds ∧ (colAppend d t l s).gov = s.gov ∧ (colAppend d t l s).ctxs =
    s.ctxs ∧ (colAppend d t l s).psets = s.psets ∧ (colAppend d t l s).maps = s.maps ∧ (colAppend d t l s).loop = s.loop ∧
    (colAppend d t l s).txq = s.txq ∧ (colAppend d t l s).outst = s.outst ∧ (colAppend d t l s).owed = s.owed ∧ (colAppend d t l
    s).stopped = s.stopped ∧ (colAppend d t l s).cask = s.cask ∧ (colAppend d t l s).trq = s.trq ∧ (colAppend d t l s).trw =
    s.trw ∧ (colAppend d t l s).hang = s.hang ∧ (colAppend d t l s).snap = s.snap ∧ (colAppend d t l s).snapAt = s.snapAt ∧
    (colAppend d t l s).edge = s.edge ∧ (colAppend d t l s).wakeAt = s.wakeAt ∧ (colAppend d t l s).wakeFrom = s.wakeFrom ∧
    (colAppend d t l s).brgRun = s.brgRun ∧ (colAppend d t l s).served = s.served ∧ (colAppend d t l s).allocs = s.allocs ∧
    (colAppend d t l s).recNo = s.recNo ∧ (colAppend d t l s).recAt = s.recAt ∧ (colAppend d t l s).ports = s.ports ∧ (colAppend
    d t l s).sync = s.sync ∧ (colAppend d t l s).mons = s.mons ∧ (colAppend d t l s).power = s.power ∧ (colAppend d t l s).mzm =
    s.mzm := by
  unfold colAppend; (try dsimp only); (repeat' split) <;> simp

@[simp] theorem colBoth_frame (t : Nat) (l : List (BitVec 8)) :
    (colBoth t l s).pending = s.pending ∧ (colBoth t l s).free = s.free ∧ (colBoth t l s).out = s.out ∧ (colBoth t l s).time =
    s.time ∧ (colBoth t l s).regs = s.regs ∧ (colBoth t l s).latch = s.latch ∧ (colBoth t l s).ecc = s.ecc ∧ (colBoth t l
    s).units = s.units ∧ (colBoth t l s).cores = s.cores ∧ (colBoth t l s).arrs = s.arrs ∧ (colBoth t l s).tabs = s.tabs ∧
    (colBoth t l s).net = s.net ∧ (colBoth t l s).tiers = s.tiers ∧ (colBoth t l s).streams = s.streams ∧ (colBoth t l s).jobs =
    s.jobs ∧ (colBoth t l s).firstErr = s.firstErr ∧ (colBoth t l s).irqs = s.irqs ∧ (colBoth t l s).vectors = s.vectors ∧
    (colBoth t l s).events = s.events ∧ (colBoth t l s).routes = s.routes ∧ (colBoth t l s).hyds = s.hyds ∧ (colBoth t l s).gov
    = s.gov ∧ (colBoth t l s).ctxs = s.ctxs ∧ (colBoth t l s).psets = s.psets ∧ (colBoth t l s).maps = s.maps ∧ (colBoth t l
    s).loop = s.loop ∧ (colBoth t l s).txq = s.txq ∧ (colBoth t l s).outst = s.outst ∧ (colBoth t l s).owed = s.owed ∧ (colBoth
    t l s).stopped = s.stopped ∧ (colBoth t l s).cask = s.cask ∧ (colBoth t l s).trq = s.trq ∧ (colBoth t l s).trw = s.trw ∧
    (colBoth t l s).hang = s.hang ∧ (colBoth t l s).snap = s.snap ∧ (colBoth t l s).snapAt = s.snapAt ∧ (colBoth t l s).edge =
    s.edge ∧ (colBoth t l s).wakeAt = s.wakeAt ∧ (colBoth t l s).wakeFrom = s.wakeFrom ∧ (colBoth t l s).brgRun = s.brgRun ∧
    (colBoth t l s).served = s.served ∧ (colBoth t l s).allocs = s.allocs ∧ (colBoth t l s).recNo = s.recNo ∧ (colBoth t l
    s).recAt = s.recAt ∧ (colBoth t l s).ports = s.ports ∧ (colBoth t l s).sync = s.sync ∧ (colBoth t l s).mons = s.mons ∧
    (colBoth t l s).power = s.power ∧ (colBoth t l s).mzm = s.mzm := by
  simp [colBoth]

@[simp] theorem caskResult_frame (a b c d : Nat) :
    (caskResult a b c d s).pending = s.pending ∧ (caskResult a b c d s).free = s.free ∧ (caskResult a b c d s).out = s.out ∧
    (caskResult a b c d s).time = s.time ∧ (caskResult a b c d s).latch = s.latch ∧ (caskResult a b c d s).ecc = s.ecc ∧
    (caskResult a b c d s).units = s.units ∧ (caskResult a b c d s).cores = s.cores ∧ (caskResult a b c d s).arrs = s.arrs ∧
    (caskResult a b c d s).tabs = s.tabs ∧ (caskResult a b c d s).net = s.net ∧ (caskResult a b c d s).tiers = s.tiers ∧
    (caskResult a b c d s).streams = s.streams ∧ (caskResult a b c d s).jobs = s.jobs ∧ (caskResult a b c d s).firstErr =
    s.firstErr ∧ (caskResult a b c d s).irqs = s.irqs ∧ (caskResult a b c d s).vectors = s.vectors ∧ (caskResult a b c d
    s).events = s.events ∧ (caskResult a b c d s).routes = s.routes ∧ (caskResult a b c d s).hyds = s.hyds ∧ (caskResult a b c d
    s).gov = s.gov ∧ (caskResult a b c d s).ctxs = s.ctxs ∧ (caskResult a b c d s).psets = s.psets ∧ (caskResult a b c d s).maps
    = s.maps ∧ (caskResult a b c d s).loop = s.loop ∧ (caskResult a b c d s).txq = s.txq ∧ (caskResult a b c d s).outst =
    s.outst ∧ (caskResult a b c d s).owed = s.owed ∧ (caskResult a b c d s).stopped = s.stopped ∧ (caskResult a b c d s).cask =
    s.cask ∧ (caskResult a b c d s).trq = s.trq ∧ (caskResult a b c d s).trw = s.trw ∧ (caskResult a b c d s).hang = s.hang ∧
    (caskResult a b c d s).snap = s.snap ∧ (caskResult a b c d s).snapAt = s.snapAt ∧ (caskResult a b c d s).edge = s.edge ∧
    (caskResult a b c d s).wakeAt = s.wakeAt ∧ (caskResult a b c d s).wakeFrom = s.wakeFrom ∧ (caskResult a b c d s).brgRun =
    s.brgRun ∧ (caskResult a b c d s).served = s.served ∧ (caskResult a b c d s).allocs = s.allocs ∧ (caskResult a b c d
    s).recNo = s.recNo ∧ (caskResult a b c d s).recAt = s.recAt ∧ (caskResult a b c d s).ports = s.ports ∧ (caskResult a b c d
    s).sync = s.sync ∧ (caskResult a b c d s).mons = s.mons ∧ (caskResult a b c d s).power = s.power ∧ (caskResult a b c d
    s).mzm = s.mzm := by
  simp [caskResult]

@[simp] theorem cellarPulse_frame :
    (cellarPulse s).pending = s.pending ∧ (cellarPulse s).free = s.free ∧ (cellarPulse s).out = s.out ∧ (cellarPulse s).time =
    s.time ∧ (cellarPulse s).regs = s.regs ∧ (cellarPulse s).latch = s.latch ∧ (cellarPulse s).mem = s.mem ∧ (cellarPulse s).ecc
    = s.ecc ∧ (cellarPulse s).units = s.units ∧ (cellarPulse s).cores = s.cores ∧ (cellarPulse s).arrs = s.arrs ∧ (cellarPulse
    s).tabs = s.tabs ∧ (cellarPulse s).net = s.net ∧ (cellarPulse s).tiers = s.tiers ∧ (cellarPulse s).streams = s.streams ∧
    (cellarPulse s).jobs = s.jobs ∧ (cellarPulse s).firstErr = s.firstErr ∧ (cellarPulse s).irqs = s.irqs ∧ (cellarPulse
    s).vectors = s.vectors ∧ (cellarPulse s).events = s.events ∧ (cellarPulse s).routes = s.routes ∧ (cellarPulse s).hyds =
    s.hyds ∧ (cellarPulse s).gov = s.gov ∧ (cellarPulse s).ctxs = s.ctxs ∧ (cellarPulse s).psets = s.psets ∧ (cellarPulse
    s).maps = s.maps ∧ (cellarPulse s).loop = s.loop ∧ (cellarPulse s).txq = s.txq ∧ (cellarPulse s).outst = s.outst ∧
    (cellarPulse s).owed = s.owed ∧ (cellarPulse s).stopped = s.stopped ∧ (cellarPulse s).cask = s.cask ∧ (cellarPulse s).trq =
    s.trq ∧ (cellarPulse s).trw = s.trw ∧ (cellarPulse s).hang = s.hang ∧ (cellarPulse s).snap = s.snap ∧ (cellarPulse s).snapAt
    = s.snapAt ∧ (cellarPulse s).edge = s.edge ∧ (cellarPulse s).wakeAt = s.wakeAt ∧ (cellarPulse s).wakeFrom = s.wakeFrom ∧
    (cellarPulse s).brgRun = s.brgRun ∧ (cellarPulse s).served = s.served ∧ (cellarPulse s).allocs = s.allocs ∧ (cellarPulse
    s).recNo = s.recNo ∧ (cellarPulse s).recAt = s.recAt ∧ (cellarPulse s).ports = s.ports ∧ (cellarPulse s).sync = s.sync ∧
    (cellarPulse s).mons = s.mons ∧ (cellarPulse s).cols = s.cols ∧ (cellarPulse s).power = s.power := by
  unfold cellarPulse; split <;> simp

@[simp] theorem startWake_frame (u a p : Nat) :
    (startWake u a p s).pending = s.pending ∧ (startWake u a p s).free = s.free ∧ (startWake u a p s).out = s.out ∧ (startWake u
    a p s).time = s.time ∧ (startWake u a p s).latch = s.latch ∧ (startWake u a p s).mem = s.mem ∧ (startWake u a p s).ecc =
    s.ecc ∧ (startWake u a p s).units = s.units ∧ (startWake u a p s).cores = s.cores ∧ (startWake u a p s).arrs = s.arrs ∧
    (startWake u a p s).tabs = s.tabs ∧ (startWake u a p s).net = s.net ∧ (startWake u a p s).tiers = s.tiers ∧ (startWake u a p
    s).streams = s.streams ∧ (startWake u a p s).jobs = s.jobs ∧ (startWake u a p s).firstErr = s.firstErr ∧ (startWake u a p
    s).irqs = s.irqs ∧ (startWake u a p s).vectors = s.vectors ∧ (startWake u a p s).events = s.events ∧ (startWake u a p
    s).routes = s.routes ∧ (startWake u a p s).hyds = s.hyds ∧ (startWake u a p s).gov = s.gov ∧ (startWake u a p s).ctxs =
    s.ctxs ∧ (startWake u a p s).psets = s.psets ∧ (startWake u a p s).maps = s.maps ∧ (startWake u a p s).loop = s.loop ∧
    (startWake u a p s).txq = s.txq ∧ (startWake u a p s).outst = s.outst ∧ (startWake u a p s).owed = s.owed ∧ (startWake u a p
    s).stopped = s.stopped ∧ (startWake u a p s).cask = s.cask ∧ (startWake u a p s).trq = s.trq ∧ (startWake u a p s).trw =
    s.trw ∧ (startWake u a p s).hang = s.hang ∧ (startWake u a p s).snap = s.snap ∧ (startWake u a p s).snapAt = s.snapAt ∧
    (startWake u a p s).edge = s.edge ∧ (startWake u a p s).brgRun = s.brgRun ∧ (startWake u a p s).served = s.served ∧
    (startWake u a p s).allocs = s.allocs ∧ (startWake u a p s).recNo = s.recNo ∧ (startWake u a p s).recAt = s.recAt ∧
    (startWake u a p s).ports = s.ports ∧ (startWake u a p s).sync = s.sync ∧ (startWake u a p s).mons = s.mons ∧ (startWake u a
    p s).cols = s.cols ∧ (startWake u a p s).power = s.power ∧ (startWake u a p s).mzm = s.mzm := by
  unfold startWake lowerWake; (try dsimp only); (repeat' split) <;> simp

@[simp] theorem noteHolds_frame (i : Nat) :
    (noteHolds i s).pending = s.pending ∧ (noteHolds i s).free = s.free ∧ (noteHolds i s).time = s.time ∧ (noteHolds i s).latch
    = s.latch ∧ (noteHolds i s).mem = s.mem ∧ (noteHolds i s).ecc = s.ecc ∧ (noteHolds i s).units = s.units ∧ (noteHolds i
    s).cores = s.cores ∧ (noteHolds i s).arrs = s.arrs ∧ (noteHolds i s).tabs = s.tabs ∧ (noteHolds i s).net = s.net ∧
    (noteHolds i s).tiers = s.tiers ∧ (noteHolds i s).jobs = s.jobs ∧ (noteHolds i s).firstErr = s.firstErr ∧ (noteHolds i
    s).irqs = s.irqs ∧ (noteHolds i s).vectors = s.vectors ∧ (noteHolds i s).events = s.events ∧ (noteHolds i s).routes =
    s.routes ∧ (noteHolds i s).hyds = s.hyds ∧ (noteHolds i s).gov = s.gov ∧ (noteHolds i s).ctxs = s.ctxs ∧ (noteHolds i
    s).psets = s.psets ∧ (noteHolds i s).maps = s.maps ∧ (noteHolds i s).loop = s.loop ∧ (noteHolds i s).txq = s.txq ∧
    (noteHolds i s).outst = s.outst ∧ (noteHolds i s).owed = s.owed ∧ (noteHolds i s).stopped = s.stopped ∧ (noteHolds i s).cask
    = s.cask ∧ (noteHolds i s).trq = s.trq ∧ (noteHolds i s).trw = s.trw ∧ (noteHolds i s).hang = s.hang ∧ (noteHolds i s).snap
    = s.snap ∧ (noteHolds i s).snapAt = s.snapAt ∧ (noteHolds i s).edge = s.edge ∧ (noteHolds i s).wakeAt = s.wakeAt ∧
    (noteHolds i s).wakeFrom = s.wakeFrom ∧ (noteHolds i s).brgRun = s.brgRun ∧ (noteHolds i s).served = s.served ∧ (noteHolds i
    s).allocs = s.allocs ∧ (noteHolds i s).recNo = s.recNo ∧ (noteHolds i s).recAt = s.recAt ∧ (noteHolds i s).ports = s.ports ∧
    (noteHolds i s).sync = s.sync ∧ (noteHolds i s).mons = s.mons ∧ (noteHolds i s).cols = s.cols ∧ (noteHolds i s).power =
    s.power ∧ (noteHolds i s).mzm = s.mzm := by
  unfold noteHolds; (try dsimp only); (repeat' split) <;> simp

@[simp] theorem freshSince_frame (i : Nat) :
    (freshSince i s).pending = s.pending ∧ (freshSince i s).free = s.free ∧ (freshSince i s).time = s.time ∧ (freshSince i
    s).latch = s.latch ∧ (freshSince i s).mem = s.mem ∧ (freshSince i s).ecc = s.ecc ∧ (freshSince i s).units = s.units ∧
    (freshSince i s).cores = s.cores ∧ (freshSince i s).arrs = s.arrs ∧ (freshSince i s).tabs = s.tabs ∧ (freshSince i s).net =
    s.net ∧ (freshSince i s).tiers = s.tiers ∧ (freshSince i s).jobs = s.jobs ∧ (freshSince i s).firstErr = s.firstErr ∧
    (freshSince i s).irqs = s.irqs ∧ (freshSince i s).vectors = s.vectors ∧ (freshSince i s).events = s.events ∧ (freshSince i
    s).routes = s.routes ∧ (freshSince i s).hyds = s.hyds ∧ (freshSince i s).gov = s.gov ∧ (freshSince i s).ctxs = s.ctxs ∧
    (freshSince i s).psets = s.psets ∧ (freshSince i s).maps = s.maps ∧ (freshSince i s).loop = s.loop ∧ (freshSince i s).txq =
    s.txq ∧ (freshSince i s).outst = s.outst ∧ (freshSince i s).owed = s.owed ∧ (freshSince i s).stopped = s.stopped ∧
    (freshSince i s).cask = s.cask ∧ (freshSince i s).trq = s.trq ∧ (freshSince i s).trw = s.trw ∧ (freshSince i s).hang =
    s.hang ∧ (freshSince i s).snap = s.snap ∧ (freshSince i s).snapAt = s.snapAt ∧ (freshSince i s).edge = s.edge ∧ (freshSince
    i s).wakeAt = s.wakeAt ∧ (freshSince i s).wakeFrom = s.wakeFrom ∧ (freshSince i s).brgRun = s.brgRun ∧ (freshSince i
    s).served = s.served ∧ (freshSince i s).allocs = s.allocs ∧ (freshSince i s).recNo = s.recNo ∧ (freshSince i s).recAt =
    s.recAt ∧ (freshSince i s).ports = s.ports ∧ (freshSince i s).sync = s.sync ∧ (freshSince i s).mons = s.mons ∧ (freshSince i
    s).cols = s.cols ∧ (freshSince i s).power = s.power ∧ (freshSince i s).mzm = s.mzm := by
  unfold freshSince; simp

@[simp] theorem freeStream_frame (i : Nat) :
    (freeStream i s).pending = s.pending ∧ (freeStream i s).free = s.free ∧ (freeStream i s).out = s.out ∧ (freeStream i s).time
    = s.time ∧ (freeStream i s).latch = s.latch ∧ (freeStream i s).mem = s.mem ∧ (freeStream i s).ecc = s.ecc ∧ (freeStream i
    s).units = s.units ∧ (freeStream i s).cores = s.cores ∧ (freeStream i s).arrs = s.arrs ∧ (freeStream i s).tabs = s.tabs ∧
    (freeStream i s).net = s.net ∧ (freeStream i s).tiers = s.tiers ∧ (freeStream i s).jobs = s.jobs ∧ (freeStream i s).firstErr
    = s.firstErr ∧ (freeStream i s).irqs = s.irqs ∧ (freeStream i s).events = s.events ∧ (freeStream i s).routes = s.routes ∧
    (freeStream i s).hyds = s.hyds ∧ (freeStream i s).gov = s.gov ∧ (freeStream i s).ctxs = s.ctxs ∧ (freeStream i s).psets =
    s.psets ∧ (freeStream i s).maps = s.maps ∧ (freeStream i s).loop = s.loop ∧ (freeStream i s).txq = s.txq ∧ (freeStream i
    s).outst = s.outst ∧ (freeStream i s).owed = s.owed ∧ (freeStream i s).stopped = s.stopped ∧ (freeStream i s).cask = s.cask
    ∧ (freeStream i s).trq = s.trq ∧ (freeStream i s).trw = s.trw ∧ (freeStream i s).hang = s.hang ∧ (freeStream i s).snap =
    s.snap ∧ (freeStream i s).snapAt = s.snapAt ∧ (freeStream i s).edge = s.edge ∧ (freeStream i s).wakeAt = s.wakeAt ∧
    (freeStream i s).wakeFrom = s.wakeFrom ∧ (freeStream i s).brgRun = s.brgRun ∧ (freeStream i s).served = s.served ∧
    (freeStream i s).allocs = s.allocs ∧ (freeStream i s).recNo = s.recNo ∧ (freeStream i s).recAt = s.recAt ∧ (freeStream i
    s).ports = s.ports ∧ (freeStream i s).sync = s.sync ∧ (freeStream i s).mons = s.mons ∧ (freeStream i s).cols = s.cols ∧
    (freeStream i s).power = s.power ∧ (freeStream i s).mzm = s.mzm := by
  unfold freeStream; (try dsimp only); (repeat' split) <;> simp

@[simp] theorem dropTrapRec_frame (c : Nat) :
    (dropTrapRec c s).pending = s.pending ∧ (dropTrapRec c s).free = s.free ∧ (dropTrapRec c s).out = s.out ∧ (dropTrapRec c
    s).time = s.time ∧ (dropTrapRec c s).latch = s.latch ∧ (dropTrapRec c s).mem = s.mem ∧ (dropTrapRec c s).ecc = s.ecc ∧
    (dropTrapRec c s).units = s.units ∧ (dropTrapRec c s).cores = s.cores ∧ (dropTrapRec c s).arrs = s.arrs ∧ (dropTrapRec c
    s).tabs = s.tabs ∧ (dropTrapRec c s).net = s.net ∧ (dropTrapRec c s).tiers = s.tiers ∧ (dropTrapRec c s).jobs = s.jobs ∧
    (dropTrapRec c s).firstErr = s.firstErr ∧ (dropTrapRec c s).irqs = s.irqs ∧ (dropTrapRec c s).events = s.events ∧
    (dropTrapRec c s).routes = s.routes ∧ (dropTrapRec c s).hyds = s.hyds ∧ (dropTrapRec c s).gov = s.gov ∧ (dropTrapRec c
    s).ctxs = s.ctxs ∧ (dropTrapRec c s).psets = s.psets ∧ (dropTrapRec c s).maps = s.maps ∧ (dropTrapRec c s).loop = s.loop ∧
    (dropTrapRec c s).txq = s.txq ∧ (dropTrapRec c s).outst = s.outst ∧ (dropTrapRec c s).owed = s.owed ∧ (dropTrapRec c
    s).stopped = s.stopped ∧ (dropTrapRec c s).cask = s.cask ∧ (dropTrapRec c s).trq = s.trq ∧ (dropTrapRec c s).trw = s.trw ∧
    (dropTrapRec c s).hang = s.hang ∧ (dropTrapRec c s).snap = s.snap ∧ (dropTrapRec c s).snapAt = s.snapAt ∧ (dropTrapRec c
    s).edge = s.edge ∧ (dropTrapRec c s).wakeAt = s.wakeAt ∧ (dropTrapRec c s).wakeFrom = s.wakeFrom ∧ (dropTrapRec c s).brgRun
    = s.brgRun ∧ (dropTrapRec c s).served = s.served ∧ (dropTrapRec c s).allocs = s.allocs ∧ (dropTrapRec c s).recNo = s.recNo ∧
    (dropTrapRec c s).recAt = s.recAt ∧ (dropTrapRec c s).ports = s.ports ∧ (dropTrapRec c s).sync = s.sync ∧ (dropTrapRec c
    s).mons = s.mons ∧ (dropTrapRec c s).cols = s.cols ∧ (dropTrapRec c s).power = s.power ∧ (dropTrapRec c s).mzm = s.mzm := by
  unfold dropTrapRec; refine ⟨State.each_field _ (·.pending) _ (fun _ _ => by simp) _, State.each_field _ (·.free) _ (fun _ _ => by simp) _, State.each_field _ (·.out) _ (fun _ _ => by simp) _, State.each_field _ (·.time) _ (fun _ _ => by simp) _, State.each_field _ (·.latch) _ (fun _ _ => by simp) _, State.each_field _ (·.mem) _ (fun _ _ => by simp) _, State.each_field _ (·.ecc) _ (fun _ _ => by simp) _, State.each_field _ (·.units) _ (fun _ _ => by simp) _, State.each_field _ (·.cores) _ (fun _ _ => by simp) _, State.each_field _ (·.arrs) _ (fun _ _ => by simp) _, State.each_field _ (·.tabs) _ (fun _ _ => by simp) _, State.each_field _ (·.net) _ (fun _ _ => by simp) _, State.each_field _ (·.tiers) _ (fun _ _ => by simp) _, State.each_field _ (·.jobs) _ (fun _ _ => by simp) _, State.each_field _ (·.firstErr) _ (fun _ _ => by simp) _, State.each_field _ (·.irqs) _ (fun _ _ => by simp) _, State.each_field _ (·.events) _ (fun _ _ => by simp) _, State.each_field _ (·.routes) _ (fun _ _ => by simp) _, State.each_field _ (·.hyds) _ (fun _ _ => by simp) _, State.each_field _ (·.gov) _ (fun _ _ => by simp) _, State.each_field _ (·.ctxs) _ (fun _ _ => by simp) _, State.each_field _ (·.psets) _ (fun _ _ => by simp) _, State.each_field _ (·.maps) _ (fun _ _ => by simp) _, State.each_field _ (·.loop) _ (fun _ _ => by simp) _, State.each_field _ (·.txq) _ (fun _ _ => by simp) _, State.each_field _ (·.outst) _ (fun _ _ => by simp) _, State.each_field _ (·.owed) _ (fun _ _ => by simp) _, State.each_field _ (·.stopped) _ (fun _ _ => by simp) _, State.each_field _ (·.cask) _ (fun _ _ => by simp) _, State.each_field _ (·.trq) _ (fun _ _ => by simp) _, State.each_field _ (·.trw) _ (fun _ _ => by simp) _, State.each_field _ (·.hang) _ (fun _ _ => by simp) _, State.each_field _ (·.snap) _ (fun _ _ => by simp) _, State.each_field _ (·.snapAt) _ (fun _ _ => by simp) _, State.each_field _ (·.edge) _ (fun _ _ => by simp) _, State.each_field _ (·.wakeAt) _ (fun _ _ => by simp) _, State.each_field _ (·.wakeFrom) _ (fun _ _ => by simp) _, State.each_field _ (·.brgRun) _ (fun _ _ => by simp) _, State.each_field _ (·.served) _ (fun _ _ => by simp) _, State.each_field _ (·.allocs) _ (fun _ _ => by simp) _, State.each_field _ (·.recNo) _ (fun _ _ => by simp) _, State.each_field _ (·.recAt) _ (fun _ _ => by simp) _, State.each_field _ (·.ports) _ (fun _ _ => by simp) _, State.each_field _ (·.sync) _ (fun _ _ => by simp) _, State.each_field _ (·.mons) _ (fun _ _ => by simp) _, State.each_field _ (·.cols) _ (fun _ _ => by simp) _, State.each_field _ (·.power) _ (fun _ _ => by simp) _, State.each_field _ (·.mzm) _ (fun _ _ => by simp) _⟩

@[simp] theorem setErr_frame (i c : Nat) :
    (setErr i c s).pending = s.pending ∧ (setErr i c s).free = s.free ∧ (setErr i c s).out = s.out ∧ (setErr i c s).time =
    s.time ∧ (setErr i c s).regs = s.regs ∧ (setErr i c s).latch = s.latch ∧ (setErr i c s).mem = s.mem ∧ (setErr i c s).ecc =
    s.ecc ∧ (setErr i c s).units = s.units ∧ (setErr i c s).cores = s.cores ∧ (setErr i c s).arrs = s.arrs ∧ (setErr i c s).tabs
    = s.tabs ∧ (setErr i c s).net = s.net ∧ (setErr i c s).tiers = s.tiers ∧ (setErr i c s).jobs = s.jobs ∧ (setErr i c
    s).firstErr = s.firstErr ∧ (setErr i c s).irqs = s.irqs ∧ (setErr i c s).vectors = s.vectors ∧ (setErr i c s).events =
    s.events ∧ (setErr i c s).routes = s.routes ∧ (setErr i c s).hyds = s.hyds ∧ (setErr i c s).gov = s.gov ∧ (setErr i c
    s).ctxs = s.ctxs ∧ (setErr i c s).psets = s.psets ∧ (setErr i c s).maps = s.maps ∧ (setErr i c s).loop = s.loop ∧ (setErr i
    c s).txq = s.txq ∧ (setErr i c s).outst = s.outst ∧ (setErr i c s).owed = s.owed ∧ (setErr i c s).stopped = s.stopped ∧
    (setErr i c s).cask = s.cask ∧ (setErr i c s).trq = s.trq ∧ (setErr i c s).trw = s.trw ∧ (setErr i c s).hang = s.hang ∧
    (setErr i c s).snap = s.snap ∧ (setErr i c s).snapAt = s.snapAt ∧ (setErr i c s).edge = s.edge ∧ (setErr i c s).wakeAt =
    s.wakeAt ∧ (setErr i c s).wakeFrom = s.wakeFrom ∧ (setErr i c s).brgRun = s.brgRun ∧ (setErr i c s).served = s.served ∧
    (setErr i c s).allocs = s.allocs ∧ (setErr i c s).recNo = s.recNo ∧ (setErr i c s).recAt = s.recAt ∧ (setErr i c s).ports =
    s.ports ∧ (setErr i c s).sync = s.sync ∧ (setErr i c s).mons = s.mons ∧ (setErr i c s).cols = s.cols ∧ (setErr i c s).power
    = s.power ∧ (setErr i c s).mzm = s.mzm := by
  unfold setErr; simp

@[simp] theorem haltCore_frame (c : Nat) :
    (haltCore c s).pending = s.pending ∧ (haltCore c s).free = s.free ∧ (haltCore c s).out = s.out ∧ (haltCore c s).time =
    s.time ∧ (haltCore c s).latch = s.latch ∧ (haltCore c s).mem = s.mem ∧ (haltCore c s).ecc = s.ecc ∧ (haltCore c s).units =
    s.units ∧ (haltCore c s).arrs = s.arrs ∧ (haltCore c s).tabs = s.tabs ∧ (haltCore c s).net = s.net ∧ (haltCore c s).tiers =
    s.tiers ∧ (haltCore c s).jobs = s.jobs ∧ (haltCore c s).firstErr = s.firstErr ∧ (haltCore c s).irqs = s.irqs ∧ (haltCore c
    s).events = s.events ∧ (haltCore c s).routes = s.routes ∧ (haltCore c s).hyds = s.hyds ∧ (haltCore c s).gov = s.gov ∧
    (haltCore c s).ctxs = s.ctxs ∧ (haltCore c s).psets = s.psets ∧ (haltCore c s).maps = s.maps ∧ (haltCore c s).loop = s.loop
    ∧ (haltCore c s).txq = s.txq ∧ (haltCore c s).outst = s.outst ∧ (haltCore c s).owed = s.owed ∧ (haltCore c s).stopped =
    s.stopped ∧ (haltCore c s).cask = s.cask ∧ (haltCore c s).trq = s.trq ∧ (haltCore c s).trw = s.trw ∧ (haltCore c s).hang =
    s.hang ∧ (haltCore c s).snap = s.snap ∧ (haltCore c s).snapAt = s.snapAt ∧ (haltCore c s).edge = s.edge ∧ (haltCore c
    s).wakeAt = s.wakeAt ∧ (haltCore c s).wakeFrom = s.wakeFrom ∧ (haltCore c s).brgRun = s.brgRun ∧ (haltCore c s).served =
    s.served ∧ (haltCore c s).allocs = s.allocs ∧ (haltCore c s).recNo = s.recNo ∧ (haltCore c s).recAt = s.recAt ∧ (haltCore c
    s).ports = s.ports ∧ (haltCore c s).sync = s.sync ∧ (haltCore c s).mons = s.mons ∧ (haltCore c s).cols = s.cols ∧ (haltCore
    c s).power = s.power ∧ (haltCore c s).mzm = s.mzm := by
  unfold haltCore; (try dsimp only); (repeat' split) <;> simp

@[simp] theorem setCsk_frame (v : Nat) :
    (setCsk v s).pending = s.pending ∧ (setCsk v s).free = s.free ∧ (setCsk v s).out = s.out ∧ (setCsk v s).time = s.time ∧
    (setCsk v s).latch = s.latch ∧ (setCsk v s).mem = s.mem ∧ (setCsk v s).ecc = s.ecc ∧ (setCsk v s).units = s.units ∧ (setCsk
    v s).cores = s.cores ∧ (setCsk v s).arrs = s.arrs ∧ (setCsk v s).tabs = s.tabs ∧ (setCsk v s).net = s.net ∧ (setCsk v
    s).tiers = s.tiers ∧ (setCsk v s).streams = s.streams ∧ (setCsk v s).jobs = s.jobs ∧ (setCsk v s).firstErr = s.firstErr ∧
    (setCsk v s).irqs = s.irqs ∧ (setCsk v s).vectors = s.vectors ∧ (setCsk v s).events = s.events ∧ (setCsk v s).routes =
    s.routes ∧ (setCsk v s).hyds = s.hyds ∧ (setCsk v s).gov = s.gov ∧ (setCsk v s).ctxs = s.ctxs ∧ (setCsk v s).psets = s.psets
    ∧ (setCsk v s).maps = s.maps ∧ (setCsk v s).loop = s.loop ∧ (setCsk v s).txq = s.txq ∧ (setCsk v s).outst = s.outst ∧
    (setCsk v s).owed = s.owed ∧ (setCsk v s).stopped = s.stopped ∧ (setCsk v s).cask = s.cask ∧ (setCsk v s).trq = s.trq ∧
    (setCsk v s).trw = s.trw ∧ (setCsk v s).hang = s.hang ∧ (setCsk v s).snap = s.snap ∧ (setCsk v s).snapAt = s.snapAt ∧
    (setCsk v s).edge = s.edge ∧ (setCsk v s).wakeAt = s.wakeAt ∧ (setCsk v s).wakeFrom = s.wakeFrom ∧ (setCsk v s).brgRun =
    s.brgRun ∧ (setCsk v s).served = s.served ∧ (setCsk v s).allocs = s.allocs ∧ (setCsk v s).recNo = s.recNo ∧ (setCsk v
    s).recAt = s.recAt ∧ (setCsk v s).ports = s.ports ∧ (setCsk v s).sync = s.sync ∧ (setCsk v s).mons = s.mons ∧ (setCsk v
    s).cols = s.cols ∧ (setCsk v s).power = s.power ∧ (setCsk v s).mzm = s.mzm := by
  unfold setCsk; simp

@[simp] theorem setPairing_frame (v : Nat) :
    (setPairing v s).pending = s.pending ∧ (setPairing v s).free = s.free ∧ (setPairing v s).out = s.out ∧ (setPairing v s).time
    = s.time ∧ (setPairing v s).latch = s.latch ∧ (setPairing v s).mem = s.mem ∧ (setPairing v s).ecc = s.ecc ∧ (setPairing v
    s).units = s.units ∧ (setPairing v s).cores = s.cores ∧ (setPairing v s).arrs = s.arrs ∧ (setPairing v s).tabs = s.tabs ∧
    (setPairing v s).net = s.net ∧ (setPairing v s).tiers = s.tiers ∧ (setPairing v s).streams = s.streams ∧ (setPairing v
    s).jobs = s.jobs ∧ (setPairing v s).firstErr = s.firstErr ∧ (setPairing v s).irqs = s.irqs ∧ (setPairing v s).vectors =
    s.vectors ∧ (setPairing v s).events = s.events ∧ (setPairing v s).routes = s.routes ∧ (setPairing v s).hyds = s.hyds ∧
    (setPairing v s).gov = s.gov ∧ (setPairing v s).ctxs = s.ctxs ∧ (setPairing v s).psets = s.psets ∧ (setPairing v s).maps =
    s.maps ∧ (setPairing v s).loop = s.loop ∧ (setPairing v s).txq = s.txq ∧ (setPairing v s).outst = s.outst ∧ (setPairing v
    s).owed = s.owed ∧ (setPairing v s).stopped = s.stopped ∧ (setPairing v s).cask = s.cask ∧ (setPairing v s).trq = s.trq ∧
    (setPairing v s).trw = s.trw ∧ (setPairing v s).hang = s.hang ∧ (setPairing v s).snap = s.snap ∧ (setPairing v s).snapAt =
    s.snapAt ∧ (setPairing v s).edge = s.edge ∧ (setPairing v s).wakeAt = s.wakeAt ∧ (setPairing v s).wakeFrom = s.wakeFrom ∧
    (setPairing v s).brgRun = s.brgRun ∧ (setPairing v s).served = s.served ∧ (setPairing v s).allocs = s.allocs ∧ (setPairing v
    s).recNo = s.recNo ∧ (setPairing v s).recAt = s.recAt ∧ (setPairing v s).ports = s.ports ∧ (setPairing v s).sync = s.sync ∧
    (setPairing v s).mons = s.mons ∧ (setPairing v s).cols = s.cols ∧ (setPairing v s).power = s.power ∧ (setPairing v s).mzm =
    s.mzm := by
  unfold setPairing; simp

@[simp] theorem idleCsk_frame :
    (idleCsk s).pending = s.pending ∧ (idleCsk s).free = s.free ∧ (idleCsk s).out = s.out ∧ (idleCsk s).time = s.time ∧ (idleCsk
    s).latch = s.latch ∧ (idleCsk s).mem = s.mem ∧ (idleCsk s).ecc = s.ecc ∧ (idleCsk s).units = s.units ∧ (idleCsk s).cores =
    s.cores ∧ (idleCsk s).arrs = s.arrs ∧ (idleCsk s).tabs = s.tabs ∧ (idleCsk s).net = s.net ∧ (idleCsk s).tiers = s.tiers ∧
    (idleCsk s).streams = s.streams ∧ (idleCsk s).jobs = s.jobs ∧ (idleCsk s).firstErr = s.firstErr ∧ (idleCsk s).irqs = s.irqs
    ∧ (idleCsk s).vectors = s.vectors ∧ (idleCsk s).events = s.events ∧ (idleCsk s).routes = s.routes ∧ (idleCsk s).hyds =
    s.hyds ∧ (idleCsk s).gov = s.gov ∧ (idleCsk s).ctxs = s.ctxs ∧ (idleCsk s).psets = s.psets ∧ (idleCsk s).maps = s.maps ∧
    (idleCsk s).loop = s.loop ∧ (idleCsk s).txq = s.txq ∧ (idleCsk s).outst = s.outst ∧ (idleCsk s).owed = s.owed ∧ (idleCsk
    s).stopped = s.stopped ∧ (idleCsk s).cask = s.cask ∧ (idleCsk s).trq = s.trq ∧ (idleCsk s).trw = s.trw ∧ (idleCsk s).hang =
    s.hang ∧ (idleCsk s).snap = s.snap ∧ (idleCsk s).snapAt = s.snapAt ∧ (idleCsk s).edge = s.edge ∧ (idleCsk s).wakeAt =
    s.wakeAt ∧ (idleCsk s).wakeFrom = s.wakeFrom ∧ (idleCsk s).brgRun = s.brgRun ∧ (idleCsk s).served = s.served ∧ (idleCsk
    s).allocs = s.allocs ∧ (idleCsk s).recNo = s.recNo ∧ (idleCsk s).recAt = s.recAt ∧ (idleCsk s).ports = s.ports ∧ (idleCsk
    s).sync = s.sync ∧ (idleCsk s).mons = s.mons ∧ (idleCsk s).cols = s.cols ∧ (idleCsk s).power = s.power ∧ (idleCsk s).mzm =
    s.mzm := by
  unfold idleCsk; simp

@[simp] theorem setPortState_frame (p v : Nat) :
    (setPortState p v s).pending = s.pending ∧ (setPortState p v s).free = s.free ∧ (setPortState p v s).out = s.out ∧
    (setPortState p v s).time = s.time ∧ (setPortState p v s).latch = s.latch ∧ (setPortState p v s).mem = s.mem ∧ (setPortState
    p v s).ecc = s.ecc ∧ (setPortState p v s).units = s.units ∧ (setPortState p v s).cores = s.cores ∧ (setPortState p v s).arrs
    = s.arrs ∧ (setPortState p v s).tabs = s.tabs ∧ (setPortState p v s).net = s.net ∧ (setPortState p v s).tiers = s.tiers ∧
    (setPortState p v s).streams = s.streams ∧ (setPortState p v s).jobs = s.jobs ∧ (setPortState p v s).firstErr = s.firstErr ∧
    (setPortState p v s).irqs = s.irqs ∧ (setPortState p v s).vectors = s.vectors ∧ (setPortState p v s).events = s.events ∧
    (setPortState p v s).routes = s.routes ∧ (setPortState p v s).hyds = s.hyds ∧ (setPortState p v s).gov = s.gov ∧
    (setPortState p v s).ctxs = s.ctxs ∧ (setPortState p v s).psets = s.psets ∧ (setPortState p v s).maps = s.maps ∧
    (setPortState p v s).loop = s.loop ∧ (setPortState p v s).txq = s.txq ∧ (setPortState p v s).outst = s.outst ∧ (setPortState
    p v s).owed = s.owed ∧ (setPortState p v s).stopped = s.stopped ∧ (setPortState p v s).cask = s.cask ∧ (setPortState p v
    s).trq = s.trq ∧ (setPortState p v s).trw = s.trw ∧ (setPortState p v s).hang = s.hang ∧ (setPortState p v s).snap = s.snap
    ∧ (setPortState p v s).snapAt = s.snapAt ∧ (setPortState p v s).edge = s.edge ∧ (setPortState p v s).wakeAt = s.wakeAt ∧
    (setPortState p v s).wakeFrom = s.wakeFrom ∧ (setPortState p v s).brgRun = s.brgRun ∧ (setPortState p v s).served = s.served
    ∧ (setPortState p v s).allocs = s.allocs ∧ (setPortState p v s).recNo = s.recNo ∧ (setPortState p v s).recAt = s.recAt ∧
    (setPortState p v s).sync = s.sync ∧ (setPortState p v s).mons = s.mons ∧ (setPortState p v s).cols = s.cols ∧ (setPortState
    p v s).power = s.power ∧ (setPortState p v s).mzm = s.mzm := by
  unfold setPortState; simp

@[simp] theorem loseLock_frame :
    (loseLock s).pending = s.pending ∧ (loseLock s).free = s.free ∧ (loseLock s).time = s.time ∧ (loseLock s).latch = s.latch ∧
    (loseLock s).mem = s.mem ∧ (loseLock s).ecc = s.ecc ∧ (loseLock s).units = s.units ∧ (loseLock s).cores = s.cores ∧
    (loseLock s).arrs = s.arrs ∧ (loseLock s).tabs = s.tabs ∧ (loseLock s).net = s.net ∧ (loseLock s).tiers = s.tiers ∧
    (loseLock s).streams = s.streams ∧ (loseLock s).jobs = s.jobs ∧ (loseLock s).firstErr = s.firstErr ∧ (loseLock s).irqs =
    s.irqs ∧ (loseLock s).vectors = s.vectors ∧ (loseLock s).events = s.events ∧ (loseLock s).routes = s.routes ∧ (loseLock
    s).hyds = s.hyds ∧ (loseLock s).gov = s.gov ∧ (loseLock s).ctxs = s.ctxs ∧ (loseLock s).psets = s.psets ∧ (loseLock s).maps
    = s.maps ∧ (loseLock s).loop = s.loop ∧ (loseLock s).txq = s.txq ∧ (loseLock s).outst = s.outst ∧ (loseLock s).owed = s.owed
    ∧ (loseLock s).stopped = s.stopped ∧ (loseLock s).cask = s.cask ∧ (loseLock s).trq = s.trq ∧ (loseLock s).trw = s.trw ∧
    (loseLock s).hang = s.hang ∧ (loseLock s).snap = s.snap ∧ (loseLock s).snapAt = s.snapAt ∧ (loseLock s).edge = s.edge ∧
    (loseLock s).wakeAt = s.wakeAt ∧ (loseLock s).wakeFrom = s.wakeFrom ∧ (loseLock s).brgRun = s.brgRun ∧ (loseLock s).served =
    s.served ∧ (loseLock s).allocs = s.allocs ∧ (loseLock s).recNo = s.recNo ∧ (loseLock s).recAt = s.recAt ∧ (loseLock s).ports
    = s.ports ∧ (loseLock s).sync = s.sync ∧ (loseLock s).mons = s.mons ∧ (loseLock s).cols = s.cols ∧ (loseLock s).power =
    s.power ∧ (loseLock s).mzm = s.mzm := by
  unfold loseLock; (try dsimp only); (repeat' split) <;> simp

@[simp] theorem leaveUp_frame (p : Nat) :
    (leaveUp p s).pending = s.pending ∧ (leaveUp p s).free = s.free ∧ (leaveUp p s).time = s.time ∧ (leaveUp p s).latch =
    s.latch ∧ (leaveUp p s).mem = s.mem ∧ (leaveUp p s).ecc = s.ecc ∧ (leaveUp p s).units = s.units ∧ (leaveUp p s).cores =
    s.cores ∧ (leaveUp p s).arrs = s.arrs ∧ (leaveUp p s).tabs = s.tabs ∧ (leaveUp p s).net = s.net ∧ (leaveUp p s).tiers =
    s.tiers ∧ (leaveUp p s).streams = s.streams ∧ (leaveUp p s).jobs = s.jobs ∧ (leaveUp p s).firstErr = s.firstErr ∧ (leaveUp p
    s).irqs = s.irqs ∧ (leaveUp p s).vectors = s.vectors ∧ (leaveUp p s).events = s.events ∧ (leaveUp p s).routes = s.routes ∧
    (leaveUp p s).hyds = s.hyds ∧ (leaveUp p s).gov = s.gov ∧ (leaveUp p s).ctxs = s.ctxs ∧ (leaveUp p s).psets = s.psets ∧
    (leaveUp p s).maps = s.maps ∧ (leaveUp p s).loop = s.loop ∧ (leaveUp p s).txq = s.txq ∧ (leaveUp p s).outst = s.outst ∧
    (leaveUp p s).owed = s.owed ∧ (leaveUp p s).stopped = s.stopped ∧ (leaveUp p s).cask = s.cask ∧ (leaveUp p s).trq = s.trq ∧
    (leaveUp p s).trw = s.trw ∧ (leaveUp p s).hang = s.hang ∧ (leaveUp p s).snap = s.snap ∧ (leaveUp p s).snapAt = s.snapAt ∧
    (leaveUp p s).edge = s.edge ∧ (leaveUp p s).wakeAt = s.wakeAt ∧ (leaveUp p s).wakeFrom = s.wakeFrom ∧ (leaveUp p s).brgRun =
    s.brgRun ∧ (leaveUp p s).served = s.served ∧ (leaveUp p s).allocs = s.allocs ∧ (leaveUp p s).recNo = s.recNo ∧ (leaveUp p
    s).recAt = s.recAt ∧ (leaveUp p s).ports = s.ports ∧ (leaveUp p s).mons = s.mons ∧ (leaveUp p s).cols = s.cols ∧ (leaveUp p
    s).power = s.power ∧ (leaveUp p s).mzm = s.mzm := by
  unfold leaveUp; (try dsimp only); (repeat' split) <;> simp

@[simp] theorem enterRetrain_frame (p : Nat) :
    (enterRetrain p s).pending = s.pending ∧ (enterRetrain p s).free = s.free ∧ (enterRetrain p s).time = s.time ∧ (enterRetrain
    p s).latch = s.latch ∧ (enterRetrain p s).mem = s.mem ∧ (enterRetrain p s).ecc = s.ecc ∧ (enterRetrain p s).units = s.units
    ∧ (enterRetrain p s).cores = s.cores ∧ (enterRetrain p s).arrs = s.arrs ∧ (enterRetrain p s).tabs = s.tabs ∧ (enterRetrain p
    s).net = s.net ∧ (enterRetrain p s).tiers = s.tiers ∧ (enterRetrain p s).streams = s.streams ∧ (enterRetrain p s).jobs =
    s.jobs ∧ (enterRetrain p s).firstErr = s.firstErr ∧ (enterRetrain p s).irqs = s.irqs ∧ (enterRetrain p s).vectors =
    s.vectors ∧ (enterRetrain p s).events = s.events ∧ (enterRetrain p s).routes = s.routes ∧ (enterRetrain p s).hyds = s.hyds ∧
    (enterRetrain p s).gov = s.gov ∧ (enterRetrain p s).ctxs = s.ctxs ∧ (enterRetrain p s).psets = s.psets ∧ (enterRetrain p
    s).maps = s.maps ∧ (enterRetrain p s).loop = s.loop ∧ (enterRetrain p s).txq = s.txq ∧ (enterRetrain p s).outst = s.outst ∧
    (enterRetrain p s).owed = s.owed ∧ (enterRetrain p s).stopped = s.stopped ∧ (enterRetrain p s).cask = s.cask ∧ (enterRetrain
    p s).trq = s.trq ∧ (enterRetrain p s).trw = s.trw ∧ (enterRetrain p s).hang = s.hang ∧ (enterRetrain p s).snap = s.snap ∧
    (enterRetrain p s).snapAt = s.snapAt ∧ (enterRetrain p s).edge = s.edge ∧ (enterRetrain p s).wakeAt = s.wakeAt ∧
    (enterRetrain p s).wakeFrom = s.wakeFrom ∧ (enterRetrain p s).brgRun = s.brgRun ∧ (enterRetrain p s).served = s.served ∧
    (enterRetrain p s).allocs = s.allocs ∧ (enterRetrain p s).recNo = s.recNo ∧ (enterRetrain p s).recAt = s.recAt ∧
    (enterRetrain p s).mons = s.mons ∧ (enterRetrain p s).cols = s.cols ∧ (enterRetrain p s).power = s.power ∧ (enterRetrain p
    s).mzm = s.mzm := by
  unfold enterRetrain; (try dsimp only); (repeat' split) <;> simp

@[simp] theorem loseRec_frame (d : Nat) :
    (loseRec d s).pending = s.pending ∧ (loseRec d s).free = s.free ∧ (loseRec d s).out = s.out ∧ (loseRec d s).time = s.time ∧
    (loseRec d s).latch = s.latch ∧ (loseRec d s).mem = s.mem ∧ (loseRec d s).ecc = s.ecc ∧ (loseRec d s).units = s.units ∧
    (loseRec d s).cores = s.cores ∧ (loseRec d s).arrs = s.arrs ∧ (loseRec d s).tabs = s.tabs ∧ (loseRec d s).net = s.net ∧
    (loseRec d s).tiers = s.tiers ∧ (loseRec d s).streams = s.streams ∧ (loseRec d s).jobs = s.jobs ∧ (loseRec d s).firstErr =
    s.firstErr ∧ (loseRec d s).irqs = s.irqs ∧ (loseRec d s).vectors = s.vectors ∧ (loseRec d s).events = s.events ∧ (loseRec d
    s).routes = s.routes ∧ (loseRec d s).hyds = s.hyds ∧ (loseRec d s).gov = s.gov ∧ (loseRec d s).ctxs = s.ctxs ∧ (loseRec d
    s).psets = s.psets ∧ (loseRec d s).maps = s.maps ∧ (loseRec d s).loop = s.loop ∧ (loseRec d s).txq = s.txq ∧ (loseRec d
    s).outst = s.outst ∧ (loseRec d s).owed = s.owed ∧ (loseRec d s).stopped = s.stopped ∧ (loseRec d s).cask = s.cask ∧
    (loseRec d s).trq = s.trq ∧ (loseRec d s).trw = s.trw ∧ (loseRec d s).hang = s.hang ∧ (loseRec d s).snap = s.snap ∧ (loseRec
    d s).snapAt = s.snapAt ∧ (loseRec d s).edge = s.edge ∧ (loseRec d s).wakeAt = s.wakeAt ∧ (loseRec d s).wakeFrom = s.wakeFrom
    ∧ (loseRec d s).brgRun = s.brgRun ∧ (loseRec d s).served = s.served ∧ (loseRec d s).allocs = s.allocs ∧ (loseRec d s).recNo
    = s.recNo ∧ (loseRec d s).recAt = s.recAt ∧ (loseRec d s).ports = s.ports ∧ (loseRec d s).sync = s.sync ∧ (loseRec d s).mons
    = s.mons ∧ (loseRec d s).cols = s.cols ∧ (loseRec d s).power = s.power ∧ (loseRec d s).mzm = s.mzm := by
  unfold loseRec; simp

@[simp] theorem putAt_frame (d i : Nat) (r : TrcRec) :
    (putAt d i r s).pending = s.pending ∧ (putAt d i r s).free = s.free ∧ (putAt d i r s).out = s.out ∧ (putAt d i r s).time =
    s.time ∧ (putAt d i r s).regs = s.regs ∧ (putAt d i r s).latch = s.latch ∧ (putAt d i r s).units = s.units ∧ (putAt d i r
    s).cores = s.cores ∧ (putAt d i r s).arrs = s.arrs ∧ (putAt d i r s).tabs = s.tabs ∧ (putAt d i r s).net = s.net ∧ (putAt d
    i r s).tiers = s.tiers ∧ (putAt d i r s).streams = s.streams ∧ (putAt d i r s).jobs = s.jobs ∧ (putAt d i r s).firstErr =
    s.firstErr ∧ (putAt d i r s).irqs = s.irqs ∧ (putAt d i r s).vectors = s.vectors ∧ (putAt d i r s).events = s.events ∧
    (putAt d i r s).routes = s.routes ∧ (putAt d i r s).hyds = s.hyds ∧ (putAt d i r s).gov = s.gov ∧ (putAt d i r s).ctxs =
    s.ctxs ∧ (putAt d i r s).psets = s.psets ∧ (putAt d i r s).maps = s.maps ∧ (putAt d i r s).loop = s.loop ∧ (putAt d i r
    s).txq = s.txq ∧ (putAt d i r s).outst = s.outst ∧ (putAt d i r s).owed = s.owed ∧ (putAt d i r s).stopped = s.stopped ∧
    (putAt d i r s).trq = s.trq ∧ (putAt d i r s).trw = s.trw ∧ (putAt d i r s).hang = s.hang ∧ (putAt d i r s).snap = s.snap ∧
    (putAt d i r s).snapAt = s.snapAt ∧ (putAt d i r s).edge = s.edge ∧ (putAt d i r s).wakeAt = s.wakeAt ∧ (putAt d i r
    s).wakeFrom = s.wakeFrom ∧ (putAt d i r s).brgRun = s.brgRun ∧ (putAt d i r s).served = s.served ∧ (putAt d i r s).allocs =
    s.allocs ∧ (putAt d i r s).recNo = s.recNo ∧ (putAt d i r s).recAt = s.recAt ∧ (putAt d i r s).ports = s.ports ∧ (putAt d i
    r s).sync = s.sync ∧ (putAt d i r s).mons = s.mons ∧ (putAt d i r s).cols = s.cols ∧ (putAt d i r s).power = s.power ∧
    (putAt d i r s).mzm = s.mzm := by
  simp [putAt, fixedWrite, cleanEcc, copyFirst]

@[simp] theorem putRec_frame (d : Nat) (r : TrcRec) :
    (putRec d r s).pending = s.pending ∧ (putRec d r s).free = s.free ∧ (putRec d r s).time = s.time ∧ (putRec d r s).latch =
    s.latch ∧ (putRec d r s).units = s.units ∧ (putRec d r s).cores = s.cores ∧ (putRec d r s).arrs = s.arrs ∧ (putRec d r
    s).tabs = s.tabs ∧ (putRec d r s).net = s.net ∧ (putRec d r s).tiers = s.tiers ∧ (putRec d r s).streams = s.streams ∧
    (putRec d r s).jobs = s.jobs ∧ (putRec d r s).firstErr = s.firstErr ∧ (putRec d r s).irqs = s.irqs ∧ (putRec d r s).vectors
    = s.vectors ∧ (putRec d r s).events = s.events ∧ (putRec d r s).routes = s.routes ∧ (putRec d r s).hyds = s.hyds ∧ (putRec d
    r s).gov = s.gov ∧ (putRec d r s).ctxs = s.ctxs ∧ (putRec d r s).psets = s.psets ∧ (putRec d r s).maps = s.maps ∧ (putRec d
    r s).loop = s.loop ∧ (putRec d r s).txq = s.txq ∧ (putRec d r s).outst = s.outst ∧ (putRec d r s).owed = s.owed ∧ (putRec d
    r s).stopped = s.stopped ∧ (putRec d r s).trq = s.trq ∧ (putRec d r s).hang = s.hang ∧ (putRec d r s).snap = s.snap ∧
    (putRec d r s).snapAt = s.snapAt ∧ (putRec d r s).edge = s.edge ∧ (putRec d r s).wakeAt = s.wakeAt ∧ (putRec d r s).wakeFrom
    = s.wakeFrom ∧ (putRec d r s).brgRun = s.brgRun ∧ (putRec d r s).served = s.served ∧ (putRec d r s).allocs = s.allocs ∧
    (putRec d r s).recNo = s.recNo ∧ (putRec d r s).recAt = s.recAt ∧ (putRec d r s).ports = s.ports ∧ (putRec d r s).sync =
    s.sync ∧ (putRec d r s).mons = s.mons ∧ (putRec d r s).cols = s.cols ∧ (putRec d r s).power = s.power ∧ (putRec d r s).mzm =
    s.mzm := by
  unfold putRec State.when; (try dsimp only); (repeat' split) <;> simp

@[simp] theorem writeRec_frame (d : Nat) (r : TrcRec) :
    (writeRec d r s).pending = s.pending ∧ (writeRec d r s).free = s.free ∧ (writeRec d r s).time = s.time ∧ (writeRec d r
    s).latch = s.latch ∧ (writeRec d r s).units = s.units ∧ (writeRec d r s).cores = s.cores ∧ (writeRec d r s).arrs = s.arrs ∧
    (writeRec d r s).tabs = s.tabs ∧ (writeRec d r s).net = s.net ∧ (writeRec d r s).tiers = s.tiers ∧ (writeRec d r s).streams
    = s.streams ∧ (writeRec d r s).jobs = s.jobs ∧ (writeRec d r s).firstErr = s.firstErr ∧ (writeRec d r s).irqs = s.irqs ∧
    (writeRec d r s).vectors = s.vectors ∧ (writeRec d r s).events = s.events ∧ (writeRec d r s).routes = s.routes ∧ (writeRec d
    r s).hyds = s.hyds ∧ (writeRec d r s).gov = s.gov ∧ (writeRec d r s).ctxs = s.ctxs ∧ (writeRec d r s).psets = s.psets ∧
    (writeRec d r s).maps = s.maps ∧ (writeRec d r s).loop = s.loop ∧ (writeRec d r s).txq = s.txq ∧ (writeRec d r s).outst =
    s.outst ∧ (writeRec d r s).owed = s.owed ∧ (writeRec d r s).stopped = s.stopped ∧ (writeRec d r s).trq = s.trq ∧ (writeRec d
    r s).hang = s.hang ∧ (writeRec d r s).snap = s.snap ∧ (writeRec d r s).snapAt = s.snapAt ∧ (writeRec d r s).edge = s.edge ∧
    (writeRec d r s).wakeAt = s.wakeAt ∧ (writeRec d r s).wakeFrom = s.wakeFrom ∧ (writeRec d r s).brgRun = s.brgRun ∧ (writeRec
    d r s).served = s.served ∧ (writeRec d r s).allocs = s.allocs ∧ (writeRec d r s).recNo = s.recNo ∧ (writeRec d r s).recAt =
    s.recAt ∧ (writeRec d r s).ports = s.ports ∧ (writeRec d r s).sync = s.sync ∧ (writeRec d r s).mons = s.mons ∧ (writeRec d r
    s).cols = s.cols ∧ (writeRec d r s).power = s.power ∧ (writeRec d r s).mzm = s.mzm := by
  unfold writeRec; (try dsimp only); (repeat' split) <;> simp

@[simp] theorem noteMark_frame (d c i : Nat) :
    (noteMark d c i s).pending = s.pending ∧ (noteMark d c i s).free = s.free ∧ (noteMark d c i s).time = s.time ∧ (noteMark d c
    i s).latch = s.latch ∧ (noteMark d c i s).units = s.units ∧ (noteMark d c i s).cores = s.cores ∧ (noteMark d c i s).arrs =
    s.arrs ∧ (noteMark d c i s).tabs = s.tabs ∧ (noteMark d c i s).net = s.net ∧ (noteMark d c i s).tiers = s.tiers ∧ (noteMark
    d c i s).streams = s.streams ∧ (noteMark d c i s).jobs = s.jobs ∧ (noteMark d c i s).firstErr = s.firstErr ∧ (noteMark d c i
    s).irqs = s.irqs ∧ (noteMark d c i s).vectors = s.vectors ∧ (noteMark d c i s).events = s.events ∧ (noteMark d c i s).routes
    = s.routes ∧ (noteMark d c i s).hyds = s.hyds ∧ (noteMark d c i s).gov = s.gov ∧ (noteMark d c i s).ctxs = s.ctxs ∧
    (noteMark d c i s).psets = s.psets ∧ (noteMark d c i s).maps = s.maps ∧ (noteMark d c i s).loop = s.loop ∧ (noteMark d c i
    s).txq = s.txq ∧ (noteMark d c i s).outst = s.outst ∧ (noteMark d c i s).owed = s.owed ∧ (noteMark d c i s).stopped =
    s.stopped ∧ (noteMark d c i s).trq = s.trq ∧ (noteMark d c i s).hang = s.hang ∧ (noteMark d c i s).snap = s.snap ∧ (noteMark
    d c i s).snapAt = s.snapAt ∧ (noteMark d c i s).edge = s.edge ∧ (noteMark d c i s).wakeAt = s.wakeAt ∧ (noteMark d c i
    s).wakeFrom = s.wakeFrom ∧ (noteMark d c i s).brgRun = s.brgRun ∧ (noteMark d c i s).served = s.served ∧ (noteMark d c i
    s).allocs = s.allocs ∧ (noteMark d c i s).recNo = s.recNo ∧ (noteMark d c i s).recAt = s.recAt ∧ (noteMark d c i s).ports =
    s.ports ∧ (noteMark d c i s).sync = s.sync ∧ (noteMark d c i s).mons = s.mons ∧ (noteMark d c i s).cols = s.cols ∧ (noteMark
    d c i s).power = s.power ∧ (noteMark d c i s).mzm = s.mzm := by
  unfold noteMark; simp

@[simp] theorem trigger_frame (d c : Nat) :
    (trigger d c s).pending = s.pending ∧ (trigger d c s).free = s.free ∧ (trigger d c s).time = s.time ∧ (trigger d c s).latch
    = s.latch ∧ (trigger d c s).units = s.units ∧ (trigger d c s).cores = s.cores ∧ (trigger d c s).arrs = s.arrs ∧ (trigger d c
    s).tabs = s.tabs ∧ (trigger d c s).net = s.net ∧ (trigger d c s).tiers = s.tiers ∧ (trigger d c s).streams = s.streams ∧
    (trigger d c s).jobs = s.jobs ∧ (trigger d c s).firstErr = s.firstErr ∧ (trigger d c s).irqs = s.irqs ∧ (trigger d c
    s).vectors = s.vectors ∧ (trigger d c s).events = s.events ∧ (trigger d c s).routes = s.routes ∧ (trigger d c s).hyds =
    s.hyds ∧ (trigger d c s).gov = s.gov ∧ (trigger d c s).ctxs = s.ctxs ∧ (trigger d c s).psets = s.psets ∧ (trigger d c
    s).maps = s.maps ∧ (trigger d c s).loop = s.loop ∧ (trigger d c s).txq = s.txq ∧ (trigger d c s).outst = s.outst ∧ (trigger
    d c s).owed = s.owed ∧ (trigger d c s).stopped = s.stopped ∧ (trigger d c s).trq = s.trq ∧ (trigger d c s).hang = s.hang ∧
    (trigger d c s).snap = s.snap ∧ (trigger d c s).snapAt = s.snapAt ∧ (trigger d c s).edge = s.edge ∧ (trigger d c s).wakeAt =
    s.wakeAt ∧ (trigger d c s).wakeFrom = s.wakeFrom ∧ (trigger d c s).brgRun = s.brgRun ∧ (trigger d c s).served = s.served ∧
    (trigger d c s).allocs = s.allocs ∧ (trigger d c s).recNo = s.recNo ∧ (trigger d c s).recAt = s.recAt ∧ (trigger d c
    s).ports = s.ports ∧ (trigger d c s).sync = s.sync ∧ (trigger d c s).mons = s.mons ∧ (trigger d c s).cols = s.cols ∧
    (trigger d c s).power = s.power ∧ (trigger d c s).mzm = s.mzm := by
  unfold trigger lowerMark State.when; (try dsimp only); (repeat' split) <;> simp

end Sys2Proof.Machine
end

