-- ==== Sys2Proof/Laws/Events.lean ====
section
/-! SUPPORT. Events and error logs: the bits they set, and the registers they leave alone. -/

namespace Sys2Proof.Machine

variable (s : State)

theorem bit_or (x y i : Nat) : bit (x ||| y) i = (bit x i || bit y i) := Nat.testBit_or x y i
theorem bit_two_pow (k : Nat) : bit (2 ^ k) k = true := Nat.testBit_two_pow_self

/-- Registers that a message to a function cannot touch: all but the first word of the pending arrays. -/
theorem regN_sendVector (fn : Nat) {o : Nat} (h : o % 4096 ≠ 2048) : (sendVector fn 0 s).regN o = s.regN o := by
  unfold sendVector
  split
  · have : ∀ k, (0x2620000 + 0x1000 * k + 2048) % 4096 = 2048 := by intro k; omega
    exact State.regN_setRegN_ne _ _ (fun he => h (he ▸ this fn))
  · rfl

theorem regN_raiseMask_raw {b m : Nat} (hb : b % 4096 = 0) (hm : m < 2 ^ 32) :
    (raiseMask b m s).regN (b + 0x20) = s.regN (b + 0x20) ||| m := by
  have h1 : (s.setRegN (b + 0x20) (s.regN (b + 0x20) ||| m)).regN (b + 0x20) = s.regN (b + 0x20) ||| m := by
    rw [State.regN_setRegN_same, Nat.mod_eq_of_lt (Nat.or_lt_two_pow (State.regN_lt s _) hm)]
  unfold raiseMask
  dsimp only
  split
  · exact h1
  · split
    · exact h1
    · rw [regN_sendVector _ _ (by omega)]; exact h1

theorem regN_raiseMask_ne {b m o : Nat} (h : o ≠ b + 0x20) (ho : o % 4096 ≠ 2048) : (raiseMask b m s).regN o = s.regN o := by
  unfold raiseMask
  dsimp only
  split
  · exact State.regN_setRegN_ne _ _ h
  · split
    · exact State.regN_setRegN_ne _ _ h
    · rw [regN_sendVector _ _ ho]; exact State.regN_setRegN_ne _ _ h

/-- An event shows in EV_RAW. -/
theorem bit_raiseEv {b k : Nat} (hb : b % 4096 = 0) (hk : k < 32) : bit ((raiseEv b k s).regN (b + 0x20)) k = true := by
  unfold raiseEv
  rw [regN_raiseMask_raw s hb (Nat.pow_lt_pow_right (by omega) hk), bit_or, bit_two_pow, Bool.or_true]

theorem bit_raiseEv_of {b k j : Nat} (hb : b % 4096 = 0) (hk : k < 32) (h : bit (s.regN (b + 0x20)) j = true) :
    bit ((raiseEv b k s).regN (b + 0x20)) j = true := by
  unfold raiseEv
  rw [regN_raiseMask_raw s hb (Nat.pow_lt_pow_right (by omega) hk), bit_or, h, Bool.true_or]

theorem regN_raiseEv {b k o : Nat} (h : o ≠ b + 0x20) (ho : o % 4096 ≠ 2048) : (raiseEv b k s).regN o = s.regN o :=
  regN_raiseMask_ne s h ho

theorem fld_raiseEv {b b' k : Nat} {f : Fld} (h : b' + f.off ≠ b + 0x20) (ho : (b' + f.off) % 4096 ≠ 2048) :
    (raiseEv b k s).fld b' f = s.fld b' f := by unfold State.fld; rw [regN_raiseEv s h ho]

theorem flag_raiseEv {b b' k : Nat} {f : Fld} (h : b' + f.off ≠ b + 0x20) (ho : (b' + f.off) % 4096 ≠ 2048) :
    (raiseEv b k s).flag b' f = s.flag b' f := by unfold State.flag; rw [fld_raiseEv s h ho]

theorem regN_bump (b i n o : Nat) :
    (s.bump b i n).regN o = if o = b + 0x30 + 4 * i then (s.regN (b + 0x30 + 4 * i) + n) % 2 ^ 32 else s.regN o := by
  unfold State.bump; rw [State.regN_setRegN]; split <;> simp

theorem fld_bump {b i n b' : Nat} {f : Fld} (h : b' + f.off ≠ b + 0x30 + 4 * i) : (s.bump b i n).fld b' f = s.fld b' f := by
  unfold State.fld; rw [regN_bump, if_neg h]

/-- A log writes ERR_STATUS and ERR_FIRST of its page alone. -/
theorem reg_logKeyed {b c : Nat} {k : Option (Nat × Nat × Nat)} {o : Nat} (h : o ≠ b + 0x18) (h' : o ≠ b + 0x1C) :
    (logKeyed b c k s).reg o = s.reg o := by
  unfold logKeyed
  dsimp only
  split
  · rfl
  · split
    · exact (State.reg_setReg_ne _ _ h').trans (State.reg_setReg_ne _ _ h)
    · exact State.reg_setReg_ne _ _ h

theorem reg_logStatus {b c o : Nat} (h : o ≠ b + 0x18) (h' : o ≠ b + 0x1C) : (logStatus b c s).reg o = s.reg o :=
  reg_logKeyed s h h'

theorem errBit_lt {c : Nat} (h : c < 32) : errBit c = c := by unfold errBit; rw [if_neg (by omega)]

/-- A status logged shows in ERR_STATUS. -/
theorem bit_logStatus {b c : Nat} (h0 : c ≠ 0) (hc : c < 32) : bit ((logStatus b c s).regN (b + 0x18)) (errBit c) = true := by
  have key : bit ((s.setRegN (b + 0x18) (putBits (s.regN (b + 0x18)) c c 1)).regN (b + 0x18)) c = true := by
    rw [State.regN_setRegN_same, Nat.mod_eq_of_lt (putBits_lt _ _ _ _ (by omega) hc (State.regN_lt s _)), bit_putBits_same]
    rfl
  rw [errBit_lt hc]
  unfold logStatus logKeyed
  simp only [if_neg h0, errBit_lt hc]
  split
  · have e : ∀ (t : State) (m : SMap FirstErr) (o : Nat), ({ t with firstErr := m } : State).regN o = t.regN o := fun _ _ _ => rfl
    rw [e, State.regN_setRegN_ne _ _ (by omega)]
    exact key
  · exact key

/-- The first error since ERR_STATUS was clear is in ERR_FIRST. -/
theorem first_logStatus {b c : Nat} (h0 : c ≠ 0) (hc : c < 32) (hz : s.regN (b + 0x18) = 0) :
    bits ((logStatus b c s).regN (b + 0x1C)) 7 0 = c := by
  unfold logStatus logKeyed
  simp only [if_neg h0, hz]
  have e : ∀ (t : State) (m : SMap FirstErr) (o : Nat), ({ t with firstErr := m } : State).regN o = t.regN o := fun _ _ _ => rfl
  simp only [decide_true, Bool.true_or, if_true, e, State.regN_setRegN_same]
  simp [bits]
  omega

end Sys2Proof.Machine
end

