-- ==== Sys2Proof/Laws/Host.lean ====
section
/-! SUPPORT. Accesses of the host: what an access that is admitted, owned or refused does. -/

namespace Sys2Proof

open Sys2Proof.Machine

variable {s : State} {fn : Nat}

theorem posted_admitted (h : Admitted s fn) (i : Instr) (act : State → State) : posted fn i act s = act s := by
  unfold posted
  rw [if_neg (by simp [h.1])]
  split
  · next hc => simp only [Bool.and_eq_true, decide_eq_true_eq] at hc; simp [(h.2 hc.1).2] at hc
  · rfl

theorem posted_clear (ht : fnThere s fn = true) (h : heldBehind s fn = false) (i : Instr) (act : State → State) :
    posted fn i act s = act s := by
  simp [posted, ht, h]

theorem posted_absent (ht : fnThere s fn = false) (i : Instr) (act : State → State) : posted fn i act s = s := by simp [posted, ht]

theorem guarded_admitted (h : Admitted s fn) (off : Nat) (ok : Bool) (act : State → State) :
    guarded fn off ok act s = if ok then act s else refuseAccess fn off s := by
  unfold guarded
  split
  · next hc => simp only [Bool.and_eq_true, decide_eq_true_eq] at hc; simp [(h.2 hc.1).1] at hc
  · rfl

theorem guarded_notReady (hf : fn < 32) (h : s.ready = false) (off : Nat) (ok : Bool) (act : State → State) :
    guarded fn off ok act s = s := by simp [guarded, hf, h]

theorem guarded_ready (h : s.ready = true) (off : Nat) (ok : Bool) (act : State → State) :
    guarded fn off ok act s = if ok then act s else refuseAccess fn off s := by simp [guarded, h]

theorem ownerWrite_granted {base : Nat} (h : Granted s fn base) (o : Nat) (act : State → State) :
    ownerWrite fn base o act s = act s := by
  unfold ownerWrite; rw [guarded_admitted h.1, h.2]; rfl

/-- A command of a page's owner that acts. -/
theorem posted_granted {base : Nat} (h : Granted s fn base) (i : Instr) (o : Nat) (act : State → State) :
    posted fn i (fun s => ownerWrite fn base o act s) s = act s := by
  rw [posted_admitted h.1, ownerWrite_granted h]

end Sys2Proof
end

