-- ==== Sys2Proof/Laws/Keeps.lean ====
section
/-! SUPPORT. What every part of a command's effect keeps: `Keeps s t` says that from `s` to `t` the memory stays canonical, the queue of
waiting commands is not touched, no free value is asked for twice, no output is taken back, and the counts and straps that no
command may lower or change stand. One lemma per definition shows it; a proof over all commands cites those of the meanings. -/

set_option linter.all false

namespace Sys2Proof.Machine

/-- What every command keeps from one state to a later one. -/
def Keeps (s t : State) : Prop :=
  (Memory.wf s.mem = true → Memory.wf t.mem = true) ∧ t.pending = s.pending ∧ s.free ≤ t.free ∧ s.out <+: t.out ∧
  s.mzm.secure ≤ t.mzm.secure ∧ s.mzm.boots ≤ t.mzm.boots ∧ t.mzm.feedStrap = s.mzm.feedStrap ∧
  t.mzm.jtagEn = s.mzm.jtagEn ∧ t.mzm.smbStrap = s.mzm.smbStrap

namespace Laws

variable {s₀ : State}

theorem keeps_refl (s : State) : Keeps s s :=
  ⟨id, rfl, Nat.le_refl _, List.prefix_refl _, Nat.le_refl _, Nat.le_refl _, rfl, rfl, rfl⟩

theorem keeps_trans {s t : State} (h : Keeps s₀ s) (h' : Keeps s t) : Keeps s₀ t :=
  ⟨fun x => h'.1 (h.1 x), h'.2.1.trans h.2.1, Nat.le_trans h.2.2.1 h'.2.2.1, List.IsPrefix.trans h.2.2.2.1 h'.2.2.2.1,
    Nat.le_trans h.2.2.2.2.1 h'.2.2.2.2.1, Nat.le_trans h.2.2.2.2.2.1 h'.2.2.2.2.2.1,
    h'.2.2.2.2.2.2.1.trans h.2.2.2.2.2.2.1, h'.2.2.2.2.2.2.2.1.trans h.2.2.2.2.2.2.2.1,
    h'.2.2.2.2.2.2.2.2.trans h.2.2.2.2.2.2.2.2⟩

/-- An update of other fields. -/
theorem keeps_of_eq {s t : State} (h : Keeps s₀ s) (h1 : t.mem = s.mem) (h2 : t.pending = s.pending) (h3 : t.free = s.free)
    (h4 : t.out = s.out) (h5 : t.mzm.secure = s.mzm.secure) (h6 : t.mzm.boots = s.mzm.boots)
    (h7 : t.mzm.feedStrap = s.mzm.feedStrap) (h8 : t.mzm.jtagEn = s.mzm.jtagEn) (h9 : t.mzm.smbStrap = s.mzm.smbStrap) :
    Keeps s₀ t :=
  keeps_trans h ⟨fun x => h1 ▸ x, h2, Nat.le_of_eq h3.symm, h4 ▸ List.prefix_refl _, Nat.le_of_eq h5.symm, Nat.le_of_eq h6.symm, h7, h8, h9⟩

/-- An update of a record. -/
theorem keeps_upd {s : State} {free' time' regs' latch' mem' ecc' units' cores' arrs' tabs' net' tiers' streams' jobs' firstErr' irqs'
    vectors' events' routes' hyds' gov' ctxs' psets' maps' loop' txq' outst' owed' stopped' cask' trq' trw' hang' snap' snapAt' edge'
    wakeAt' wakeFrom' brgRun' served' allocs' recNo' recAt' ports' sync' mons' cols' power' mzm'} (h : Keeps s₀ s)
    (hm : Memory.wf s.mem = true → Memory.wf mem' = true) (hf : s.free ≤ free') (h1 : s.mzm.secure ≤ mzm'.secure)
    (h2 : s.mzm.boots ≤ mzm'.boots) (h3 : mzm'.feedStrap = s.mzm.feedStrap) (h4 : mzm'.jtagEn = s.mzm.jtagEn)
    (h5 : mzm'.smbStrap = s.mzm.smbStrap) :
    Keeps s₀
      (State.mk s.pending free' s.out time' regs' latch' mem' ecc' units' cores' arrs' tabs' net' tiers' streams'
        jobs' firstErr' irqs' vectors' events' routes' hyds' gov' ctxs' psets' maps' loop' txq' outst' owed' stopped' cask'
        trq' trw' hang' snap' snapAt' edge' wakeAt' wakeFrom' brgRun' served' allocs' recNo' recAt' ports' sync' mons' cols' power' mzm') :=
  keeps_trans h ⟨hm, rfl, hf, List.prefix_refl _, h1, h2, h3, h4, h5⟩

theorem keeps_with_time {s : State} {v : Nat} (h : Keeps s₀ s) : Keeps s₀ { s with time := v } :=
  keeps_upd h id (Nat.le_refl _) (Nat.le_refl _) (Nat.le_refl _) rfl rfl rfl

theorem keeps_with_regs {s : State} {v : SMap Word} (h : Keeps s₀ s) : Keeps s₀ { s with regs := v } :=
  keeps_upd h id (Nat.le_refl _) (Nat.le_refl _) (Nat.le_refl _) rfl rfl rfl

theorem keeps_with_latch {s : State} {v : SMap Word} (h : Keeps s₀ s) : Keeps s₀ { s with latch := v } :=
  keeps_upd h id (Nat.le_refl _) (Nat.le_refl _) (Nat.le_refl _) rfl rfl rfl

theorem keeps_with_ecc {s : State} {v : SMap Nat} (h : Keeps s₀ s) : Keeps s₀ { s with ecc := v } :=
  keeps_upd h id (Nat.le_refl _) (Nat.le_refl _) (Nat.le_refl _) rfl rfl rfl

theorem keeps_with_units {s : State} {v : SMap UnitSt} (h : Keeps s₀ s) : Keeps s₀ { s with units := v } :=
  keeps_upd h id (Nat.le_refl _) (Nat.le_refl _) (Nat.le_refl _) rfl rfl rfl

theorem keeps_with_cores {s : State} {v : SMap CoreSt} (h : Keeps s₀ s) : Keeps s₀ { s with cores := v } :=
  keeps_upd h id (Nat.le_refl _) (Nat.le_refl _) (Nat.le_refl _) rfl rfl rfl

theorem keeps_with_arrs {s : State} {v : SMap ArrSt} (h : Keeps s₀ s) : Keeps s₀ { s with arrs := v } :=
  keeps_upd h id (Nat.le_refl _) (Nat.le_refl _) (Nat.le_refl _) rfl rfl rfl

theorem keeps_with_tabs {s : State} {v : SMap TabSet} (h : Keeps s₀ s) : Keeps s₀ { s with tabs := v } :=
  keeps_upd h id (Nat.le_refl _) (Nat.le_refl _) (Nat.le_refl _) rfl rfl rfl

theorem keeps_with_net {s : State} {v : List Sent} (h : Keeps s₀ s) : Keeps s₀ { s with net := v } :=
  keeps_upd h id (Nat.le_refl _) (Nat.le_refl _) (Nat.le_refl _) rfl rfl rfl

theorem keeps_with_tiers {s : State} {v : Tiers} (h : Keeps s₀ s) : Keeps s₀ { s with tiers := v } :=
  keeps_upd h id (Nat.le_refl _) (Nat.le_refl _) (Nat.le_refl _) rfl rfl rfl

theorem keeps_with_streams {s : State} {v : SMap Stream} (h : Keeps s₀ s) : Keeps s₀ { s with streams := v } :=
  keeps_upd h id (Nat.le_refl _) (Nat.le_refl _) (Nat.le_refl _) rfl rfl rfl

theorem keeps_with_jobs {s : State} {v : SMap Job} (h : Keeps s₀ s) : Keeps s₀ { s with jobs := v } :=
  keeps_upd h id (Nat.le_refl _) (Nat.le_refl _) (Nat.le_refl _) rfl rfl rfl

theorem keeps_with_firstErr {s : State} {v : SMap FirstErr} (h : Keeps s₀ s) : Keeps s₀ { s with firstErr := v } :=
  keeps_upd h id (Nat.le_refl _) (Nat.le_refl _) (Nat.le_refl _) rfl rfl rfl

theorem keeps_with_irqs {s : State} {v : SMap IrqPend} (h : Keeps s₀ s) : Keeps s₀ { s with irqs := v } :=
  keeps_upd h id (Nat.le_refl _) (Nat.le_refl _) (Nat.le_refl _) rfl rfl rfl

theorem keeps_with_vectors {s : State} {v : SMap Nat} (h : Keeps s₀ s) : Keeps s₀ { s with vectors := v } :=
  keeps_upd h id (Nat.le_refl _) (Nat.le_refl _) (Nat.le_refl _) rfl rfl rfl

theorem keeps_with_events {s : State} {v : List (Nat × Nat)} (h : Keeps s₀ s) : Keeps s₀ { s with events := v } :=
  keeps_upd h id (Nat.le_refl _) (Nat.le_refl _) (Nat.le_refl _) rfl rfl rfl

theorem keeps_with_routes {s : State} {v : SMap Word} (h : Keeps s₀ s) : Keeps s₀ { s with routes := v } :=
  keeps_upd h id (Nat.le_refl _) (Nat.le_refl _) (Nat.le_refl _) rfl rfl rfl

theorem keeps_with_hyds {s : State} {v : SMap HydSt} (h : Keeps s₀ s) : Keeps s₀ { s with hyds := v } :=
  keeps_upd h id (Nat.le_refl _) (Nat.le_refl _) (Nat.le_refl _) rfl rfl rfl

theorem keeps_with_gov {s : State} {v : Gov} (h : Keeps s₀ s) : Keeps s₀ { s with gov := v } :=
  keeps_upd h id (Nat.le_refl _) (Nat.le_refl _) (Nat.le_refl _) rfl rfl rfl

theorem keeps_with_ctxs {s : State} {v : SMap RedCtx} (h : Keeps s₀ s) : Keeps s₀ { s with ctxs := v } :=
  keeps_upd h id (Nat.le_refl _) (Nat.le_refl _) (Nat.le_refl _) rfl rfl rfl

theorem keeps_with_psets {s : State} {v : SMap Word} (h : Keeps s₀ s) : Keeps s₀ { s with psets := v } :=
  keeps_upd h id (Nat.le_refl _) (Nat.le_refl _) (Nat.le_refl _) rfl rfl rfl

theorem keeps_with_maps {s : State} {v : SMap MapEnt} (h : Keeps s₀ s) : Keeps s₀ { s with maps := v } :=
  keeps_upd h id (Nat.le_refl _) (Nat.le_refl _) (Nat.le_refl _) rfl rfl rfl

theorem keeps_with_loop {s : State} {v : List Packet} (h : Keeps s₀ s) : Keeps s₀ { s with loop := v } :=
  keeps_upd h id (Nat.le_refl _) (Nat.le_refl _) (Nat.le_refl _) rfl rfl rfl

theorem keeps_with_txq {s : State} {v : SMap (List Packet)} (h : Keeps s₀ s) : Keeps s₀ { s with txq := v } :=
  keeps_upd h id (Nat.le_refl _) (Nat.le_refl _) (Nat.le_refl _) rfl rfl rfl

theorem keeps_with_outst {s : State} {v : List Outst} (h : Keeps s₀ s) : Keeps s₀ { s with outst := v } :=
  keeps_upd h id (Nat.le_refl _) (Nat.le_refl _) (Nat.le_refl _) rfl rfl rfl

theorem keeps_with_owed {s : State} {v : List (Nat × Packet)} (h : Keeps s₀ s) : Keeps s₀ { s with owed := v } :=
  keeps_upd h id (Nat.le_refl _) (Nat.le_refl _) (Nat.le_refl _) rfl rfl rfl

theorem keeps_with_stopped {s : State} {v : Bool} (h : Keeps s₀ s) : Keeps s₀ { s with stopped := v } :=
  keeps_upd h id (Nat.le_refl _) (Nat.le_refl _) (Nat.le_refl _) rfl rfl rfl

theorem keeps_with_cask {s : State} {v : CaskSt} (h : Keeps s₀ s) : Keeps s₀ { s with cask := v } :=
  keeps_upd h id (Nat.le_refl _) (Nat.le_refl _) (Nat.le_refl _) rfl rfl rfl

theorem keeps_with_trq {s : State} {v : SMap TrcQ} (h : Keeps s₀ s) : Keeps s₀ { s with trq := v } :=
  keeps_upd h id (Nat.le_refl _) (Nat.le_refl _) (Nat.le_refl _) rfl rfl rfl

theorem keeps_with_trw {s : State} {v : SMap TrcW} (h : Keeps s₀ s) : Keeps s₀ { s with trw := v } :=
  keeps_upd h id (Nat.le_refl _) (Nat.le_refl _) (Nat.le_refl _) rfl rfl rfl

theorem keeps_with_hang {s : State} {v : Option Hang} (h : Keeps s₀ s) : Keeps s₀ { s with hang := v } :=
  keeps_upd h id (Nat.le_refl _) (Nat.le_refl _) (Nat.le_refl _) rfl rfl rfl

theorem keeps_with_snap {s : State} {v : SMap Word} (h : Keeps s₀ s) : Keeps s₀ { s with snap := v } :=
  keeps_upd h id (Nat.le_refl _) (Nat.le_refl _) (Nat.le_refl _) rfl rfl rfl

theorem keeps_with_snapAt {s : State} {v : Nat} (h : Keeps s₀ s) : Keeps s₀ { s with snapAt := v } :=
  keeps_upd h id (Nat.le_refl _) (Nat.le_refl _) (Nat.le_refl _) rfl rfl rfl

theorem keeps_with_edge {s : State} {v : List Instr} (h : Keeps s₀ s) : Keeps s₀ { s with edge := v } :=
  keeps_upd h id (Nat.le_refl _) (Nat.le_refl _) (Nat.le_refl _) rfl rfl rfl

theorem keeps_with_wakeAt {s : State} {v : SMap Nat} (h : Keeps s₀ s) : Keeps s₀ { s with wakeAt := v } :=
  keeps_upd h id (Nat.le_refl _) (Nat.le_refl _) (Nat.le_refl _) rfl rfl rfl

theorem keeps_with_wakeFrom {s : State} {v : SMap Nat} (h : Keeps s₀ s) : Keeps s₀ { s with wakeFrom := v } :=
  keeps_upd h id (Nat.le_refl _) (Nat.le_refl _) (Nat.le_refl _) rfl rfl rfl

theorem keeps_with_brgRun {s : State} {v : SMap Nat} (h : Keeps s₀ s) : Keeps s₀ { s with brgRun := v } :=
  keeps_upd h id (Nat.le_refl _) (Nat.le_refl _) (Nat.le_refl _) rfl rfl rfl

theorem keeps_with_served {s : State} {v : SMap Nat} (h : Keeps s₀ s) : Keeps s₀ { s with served := v } :=
  keeps_upd h id (Nat.le_refl _) (Nat.le_refl _) (Nat.le_refl _) rfl rfl rfl

theorem keeps_with_allocs {s : State} {v : List (Nat × Word)} (h : Keeps s₀ s) : Keeps s₀ { s with allocs := v } :=
  keeps_upd h id (Nat.le_refl _) (Nat.le_refl _) (Nat.le_refl _) rfl rfl rfl

theorem keeps_with_recNo {s : State} {v : Nat} (h : Keeps s₀ s) : Keeps s₀ { s with recNo := v } :=
  keeps_upd h id (Nat.le_refl _) (Nat.le_refl _) (Nat.le_refl _) rfl rfl rfl

theorem keeps_with_recAt {s : State} {v : SMap Nat} (h : Keeps s₀ s) : Keeps s₀ { s with recAt := v } :=
  keeps_upd h id (Nat.le_refl _) (Nat.le_refl _) (Nat.le_refl _) rfl rfl rfl

theorem keeps_with_ports {s : State} {v : SMap PortSt} (h : Keeps s₀ s) : Keeps s₀ { s with ports := v } :=
  keeps_upd h id (Nat.le_refl _) (Nat.le_refl _) (Nat.le_refl _) rfl rfl rfl

theorem keeps_with_sync {s : State} {v : SyncSt} (h : Keeps s₀ s) : Keeps s₀ { s with sync := v } :=
  keeps_upd h id (Nat.le_refl _) (Nat.le_refl _) (Nat.le_refl _) rfl rfl rfl

theorem keeps_with_mons {s : State} {v : SMap MonSt} (h : Keeps s₀ s) : Keeps s₀ { s with mons := v } :=
  keeps_upd h id (Nat.le_refl _) (Nat.le_refl _) (Nat.le_refl _) rfl rfl rfl

theorem keeps_with_cols {s : State} {v : SMap ColSt} (h : Keeps s₀ s) : Keeps s₀ { s with cols := v } :=
  keeps_upd h id (Nat.le_refl _) (Nat.le_refl _) (Nat.le_refl _) rfl rfl rfl

theorem keeps_with_power {s : State} {v : PowerSt} (h : Keeps s₀ s) : Keeps s₀ { s with power := v } :=
  keeps_upd h id (Nat.le_refl _) (Nat.le_refl _) (Nat.le_refl _) rfl rfl rfl

theorem keeps_ite {c : Prop} [Decidable c] {s t : State} (hs : Keeps s₀ s) (ht : Keeps s₀ t) : Keeps s₀ (if c then s else t) := by
  split
  · exact hs
  · exact ht

theorem keeps_id {s : State} (hs : Keeps s₀ s) : Keeps s₀ (id s) := hs

theorem keeps_getD {o : Option State} {s : State} (ho : ∀ t, o = some t → Keeps s₀ t) (hs : Keeps s₀ s) : Keeps s₀ (o.getD s) := by
  cases o with
  | none => exact hs
  | some t => exact ho t rfl

theorem keeps_foldl {α : Type} (l : List α) (f : State → α → State) (hf : ∀ s x, Keeps s₀ s → Keeps s₀ (f s x)) (s : State)
    (h : Keeps s₀ s) : Keeps s₀ (l.foldl f s) := by
  induction l generalizing s with
  | nil => exact h
  | cons x l ih => exact ih _ (hf s x h)

theorem keeps_foldl_fst {α β : Type} (l : List α) (f : State × β → α → State × β) (hf : ∀ x y, Keeps s₀ x.1 → Keeps s₀ (f x y).1)
    (x : State × β) (h : Keeps s₀ x.1) : Keeps s₀ (l.foldl f x).1 := by
  induction l generalizing x with
  | nil => exact h
  | cons y l ih => exact ih _ (hf x y h)

theorem keeps_foldl_pair {α β : Type} (l : List α) (f : State × β → α → State × β) (hf : ∀ x y, Keeps s₀ x.1 → Keeps s₀ (f x y).1)
    (x : State × β) {t : State} {r : β} (h : Keeps s₀ x.1) (e : l.foldl f x = (t, r)) : Keeps s₀ t := by
  have := keeps_foldl_fst l f hf x h
  rwa [e] at this

theorem keeps_State_each {α : Type} (s : State) (l : List α) (f : α → State → State) (h : Keeps s₀ s)
    (hf : ∀ x s, Keeps s₀ s → Keeps s₀ (f x s)) : Keeps s₀ (s.each l f) :=
  keeps_foldl l (fun s x => f x s) (fun s x => hf x s) s h

theorem keeps_State_when (s : State) (c : Bool) (f : State → State) (h : Keeps s₀ s) (hf : ∀ s, Keeps s₀ s → Keeps s₀ (f s)) :
    Keeps s₀ (s.when c f) := by
  unfold State.when
  split
  · exact hf s h
  · exact h

theorem keeps_State_setByte (s : State) (a : Nat) (v : BitVec 8) (h : Keeps s₀ s) : Keeps s₀ (s.setByte a v) :=
  keeps_trans h ⟨fun x => Memory.wf_setByte s x a v, rfl, Nat.le_refl _, List.prefix_refl _, Nat.le_refl _, Nat.le_refl _, rfl, rfl, rfl⟩

theorem keeps_State_setBytes (s : State) (a : Nat) (l : List (BitVec 8)) (h : Keeps s₀ s) : Keeps s₀ (s.setBytes a l) := by
  induction l generalizing s a with
  | nil => exact h
  | cons v l ih => exact ih _ (a + 1) (keeps_State_setByte s a v h)

theorem keeps_State_free (s : State) (n : Nat) (h : Keeps s₀ s) : Keeps s₀ { s with free := s.free + n } :=
  keeps_trans h ⟨id, rfl, Nat.le_add_right _ _, List.prefix_refl _, Nat.le_refl _, Nat.le_refl _, rfl, rfl, rfl⟩

theorem keeps_State_scramble (s : State) (a n : Nat) (h : Keeps s₀ s) : Keeps s₀ (s.scramble a n) := by
  induction n generalizing s a with
  | zero => exact h
  | succ n ih => exact ih _ (a + 1) (keeps_State_free _ 1 (keeps_State_setByte s a _ h))

theorem keeps_State_send (s : State) (m : Msg) (h : Keeps s₀ s) : Keeps s₀ (s.send m) :=
  keeps_trans h ⟨id, rfl, Nat.le_refl _, List.prefix_append _ _, Nat.le_refl _, Nat.le_refl _, rfl, rfl, rfl⟩

/-- Entries taken out of the memory. -/
theorem keeps_filter_mem (s : State) (p : Host.Cell → Bool) (h : Keeps s₀ s) : Keeps s₀ { s with mem := List.filter p s.mem } :=
  keeps_trans h ⟨fun x => SMap.wf_filter memDefault x p, rfl, Nat.le_refl _, List.prefix_refl _, Nat.le_refl _, Nat.le_refl _, rfl, rfl, rfl⟩

end Laws
end Sys2Proof.Machine
end

