-- ==== Sys2Proof/Laws/KeepsOps.lean ====
section
/-! SUPPORT. Every definition of Sys2Proof/Machine/Ops.lean keeps what `Keeps` names. -/

namespace Sys2Proof.Machine.Laws

variable {s₀ : State}

theorem keeps_State_setReg (s off v) (hs : Keeps s₀ s) : Keeps s₀ (State.setReg s off v) := by
  unfold State.setReg
  repeat' (first
    | (with_reducible assumption) | (with_reducible intro _) | (with_reducible apply keeps_foldl)
    | (with_reducible apply keeps_id) | (extract_lets) | (split) | (with_reducible apply keeps_ite) | (dsimp -zeta only)
    | (dsimp -zeta +zetaDelta only) | (with_reducible apply keeps_with_regs) | (with_reducible apply keeps_upd)
    | (exact Nat.le_refl _) | rfl | (exact Nat.le_add_right _ _) | (exact SMap.wf_filter _ (by with_reducible assumption) _))

theorem keeps_State_setRegN (s off v) (hs : Keeps s₀ s) : Keeps s₀ (State.setRegN s off v) := by
  unfold State.setRegN
  repeat' (first
    | (with_reducible assumption) | (with_reducible intro _) | (with_reducible apply keeps_State_setReg)
    | (with_reducible apply keeps_foldl) | (with_reducible apply keeps_id) | (extract_lets) | (split)
    | (with_reducible apply keeps_ite) | (dsimp -zeta only) | (dsimp -zeta +zetaDelta only))

theorem keeps_State_bump (s base i n) (hs : Keeps s₀ s) : Keeps s₀ (State.bump s base i n) := by
  unfold State.bump
  repeat' (first
    | (with_reducible assumption) | (with_reducible intro _) | (with_reducible apply keeps_State_setRegN)
    | (with_reducible apply keeps_foldl) | (with_reducible apply keeps_id) | (extract_lets) | (split)
    | (with_reducible apply keeps_ite) | (dsimp -zeta only) | (dsimp -zeta +zetaDelta only))

theorem keeps_State_setArr (s p a) (hs : Keeps s₀ s) : Keeps s₀ (State.setArr s p a) := by
  unfold State.setArr
  repeat' (first
    | (with_reducible assumption) | (with_reducible intro _) | (with_reducible apply keeps_foldl)
    | (with_reducible apply keeps_id) | (extract_lets) | (split) | (with_reducible apply keeps_ite) | (dsimp -zeta only)
    | (dsimp -zeta +zetaDelta only) | (with_reducible apply keeps_with_arrs) | (with_reducible apply keeps_with_tabs)
    | (with_reducible apply keeps_with_streams) | (with_reducible apply keeps_upd) | (exact Nat.le_refl _) | rfl
    | (exact Nat.le_add_right _ _) | (exact SMap.wf_filter _ (by with_reducible assumption) _))

theorem keeps_State_setCore (s p c) (hs : Keeps s₀ s) : Keeps s₀ (State.setCore s p c) := by
  unfold State.setCore
  repeat' (first
    | (with_reducible assumption) | (with_reducible intro _) | (with_reducible apply keeps_foldl)
    | (with_reducible apply keeps_id) | (extract_lets) | (split) | (with_reducible apply keeps_ite) | (dsimp -zeta only)
    | (dsimp -zeta +zetaDelta only) | (with_reducible apply keeps_with_cores) | (with_reducible apply keeps_with_arrs)
    | (with_reducible apply keeps_with_tabs) | (with_reducible apply keeps_with_streams) | (with_reducible apply keeps_upd)
    | (exact Nat.le_refl _) | rfl | (exact Nat.le_add_right _ _) | (exact SMap.wf_filter _ (by with_reducible assumption) _))

theorem keeps_State_setEcc (s a v) (hs : Keeps s₀ s) : Keeps s₀ (State.setEcc s a v) := by
  unfold State.setEcc
  repeat' (first
    | (with_reducible assumption) | (with_reducible intro _) | (with_reducible apply keeps_foldl)
    | (with_reducible apply keeps_id) | (extract_lets) | (split) | (with_reducible apply keeps_ite) | (dsimp -zeta only)
    | (dsimp -zeta +zetaDelta only) | (with_reducible apply keeps_with_ecc) | (with_reducible apply keeps_upd)
    | (exact Nat.le_refl _) | rfl | (exact Nat.le_add_right _ _) | (exact SMap.wf_filter _ (by with_reducible assumption) _))

theorem keeps_State_setFld (s base f v) (hs : Keeps s₀ s) : Keeps s₀ (State.setFld s base f v) := by
  unfold State.setFld
  repeat' (first
    | (with_reducible assumption) | (with_reducible intro _) | (with_reducible apply keeps_State_setRegN)
    | (with_reducible apply keeps_foldl) | (with_reducible apply keeps_id) | (extract_lets) | (split)
    | (with_reducible apply keeps_ite) | (dsimp -zeta only) | (dsimp -zeta +zetaDelta only))

theorem keeps_State_setFlag (s base f b) (hs : Keeps s₀ s) : Keeps s₀ (State.setFlag s base f b) := by
  unfold State.setFlag
  repeat' (first
    | (with_reducible assumption) | (with_reducible intro _) | (with_reducible apply keeps_State_setFld)
    | (with_reducible apply keeps_foldl) | (with_reducible apply keeps_id) | (extract_lets) | (split)
    | (with_reducible apply keeps_ite) | (dsimp -zeta only) | (dsimp -zeta +zetaDelta only))

theorem keeps_State_setJob (s j v) (hs : Keeps s₀ s) : Keeps s₀ (State.setJob s j v) := by
  unfold State.setJob
  repeat' (first
    | (with_reducible assumption) | (with_reducible intro _) | (with_reducible apply keeps_foldl)
    | (with_reducible apply keeps_id) | (extract_lets) | (split) | (with_reducible apply keeps_ite) | (dsimp -zeta only)
    | (dsimp -zeta +zetaDelta only) | (with_reducible apply keeps_with_jobs) | (with_reducible apply keeps_upd)
    | (exact Nat.le_refl _) | rfl | (exact Nat.le_add_right _ _) | (exact SMap.wf_filter _ (by with_reducible assumption) _))

theorem keeps_State_setNum (s a n v) (hs : Keeps s₀ s) : Keeps s₀ (State.setNum s a n v) := by
  unfold State.setNum
  repeat' (first
    | (with_reducible assumption) | (with_reducible intro _) | (with_reducible apply keeps_State_setBytes)
    | (with_reducible apply keeps_foldl) | (with_reducible apply keeps_id) | (extract_lets) | (split)
    | (with_reducible apply keeps_ite) | (dsimp -zeta only) | (dsimp -zeta +zetaDelta only))

theorem keeps_State_setReg64 (s off v) (hs : Keeps s₀ s) : Keeps s₀ (State.setReg64 s off v) := by
  unfold State.setReg64
  repeat' (first
    | (with_reducible assumption) | (with_reducible intro _) | (with_reducible apply keeps_State_setRegN)
    | (with_reducible apply keeps_foldl) | (with_reducible apply keeps_id) | (extract_lets) | (split)
    | (with_reducible apply keeps_ite) | (dsimp -zeta only) | (dsimp -zeta +zetaDelta only))

theorem keeps_State_setStream (s i t) (hs : Keeps s₀ s) : Keeps s₀ (State.setStream s i t) := by
  unfold State.setStream
  repeat' (first
    | (with_reducible assumption) | (with_reducible intro _) | (with_reducible apply keeps_foldl)
    | (with_reducible apply keeps_id) | (extract_lets) | (split) | (with_reducible apply keeps_ite) | (dsimp -zeta only)
    | (dsimp -zeta +zetaDelta only) | (with_reducible apply keeps_with_streams) | (with_reducible apply keeps_upd)
    | (exact Nat.le_refl _) | rfl | (exact Nat.le_add_right _ _) | (exact SMap.wf_filter _ (by with_reducible assumption) _))

theorem keeps_State_setTab (s k t) (hs : Keeps s₀ s) : Keeps s₀ (State.setTab s k t) := by
  unfold State.setTab
  repeat' (first
    | (with_reducible assumption) | (with_reducible intro _) | (with_reducible apply keeps_foldl)
    | (with_reducible apply keeps_id) | (extract_lets) | (split) | (with_reducible apply keeps_ite) | (dsimp -zeta only)
    | (dsimp -zeta +zetaDelta only) | (with_reducible apply keeps_with_tabs) | (with_reducible apply keeps_with_streams)
    | (with_reducible apply keeps_upd) | (exact Nat.le_refl _) | rfl | (exact Nat.le_add_right _ _)
    | (exact SMap.wf_filter _ (by with_reducible assumption) _))

theorem keeps_State_setUnit (s p u) (hs : Keeps s₀ s) : Keeps s₀ (State.setUnit s p u) := by
  unfold State.setUnit
  repeat' (first
    | (with_reducible assumption) | (with_reducible intro _) | (with_reducible apply keeps_foldl)
    | (with_reducible apply keeps_id) | (extract_lets) | (split) | (with_reducible apply keeps_ite) | (dsimp -zeta only)
    | (dsimp -zeta +zetaDelta only) | (with_reducible apply keeps_with_units) | (with_reducible apply keeps_with_cores)
    | (with_reducible apply keeps_with_arrs) | (with_reducible apply keeps_with_tabs)
    | (with_reducible apply keeps_with_streams) | (with_reducible apply keeps_upd) | (exact Nat.le_refl _) | rfl
    | (exact Nat.le_add_right _ _) | (exact SMap.wf_filter _ (by with_reducible assumption) _))

theorem keeps_State_takeFree_snd (s : State) (h : Keeps s₀ s) : Keeps s₀ s.takeFree.2 := keeps_State_free s 1 h

theorem keeps_State_takeFree (s : State) {a : Nat} {t : State} (h : Keeps s₀ s) (e : s.takeFree = (a, t)) : Keeps s₀ t := by
  have := keeps_State_takeFree_snd s h
  rwa [e] at this

end Sys2Proof.Machine.Laws
end

