-- ==== Sys2Proof/Laws/KeepsFlags.lean ====
section
/-! SUPPORT. Every definition of Sys2Proof/Machine/Flags.lean keeps what `Keeps` names. -/

namespace Sys2Proof.Machine.Laws

variable {s₀ : State}

theorem keeps_recordPriv (fn off bar code s) (hs : Keeps s₀ s) : Keeps s₀ (recordPriv fn off bar code s) := by
  unfold recordPriv
  repeat' (first
    | (with_reducible assumption) | (with_reducible intro _) | (with_reducible apply keeps_State_setRegN)
    | (with_reducible apply keeps_foldl) | (with_reducible apply keeps_id) | (extract_lets) | (split)
    | (with_reducible apply keeps_ite) | (dsimp -zeta only) | (dsimp -zeta +zetaDelta only))

theorem keeps_logKeyed (base code key s) (hs : Keeps s₀ s) : Keeps s₀ (logKeyed base code key s) := by
  unfold logKeyed
  repeat' (first
    | (with_reducible assumption) | (with_reducible intro _) | (with_reducible apply keeps_State_setRegN)
    | (with_reducible apply keeps_foldl) | (with_reducible apply keeps_id) | (extract_lets) | (split)
    | (with_reducible apply keeps_ite) | (dsimp -zeta only) | (dsimp -zeta +zetaDelta only)
    | (with_reducible apply keeps_with_firstErr) | (with_reducible apply keeps_upd) | (exact Nat.le_refl _) | rfl
    | (exact Nat.le_add_right _ _) | (exact SMap.wf_filter _ (by with_reducible assumption) _))

theorem keeps_logStatus (base code s) (hs : Keeps s₀ s) : Keeps s₀ (logStatus base code s) := by
  unfold logStatus
  repeat' (first
    | (with_reducible assumption) | (with_reducible intro _) | (with_reducible apply keeps_logKeyed)
    | (with_reducible apply keeps_foldl) | (with_reducible apply keeps_id) | (extract_lets) | (split)
    | (with_reducible apply keeps_ite) | (dsimp -zeta only) | (dsimp -zeta +zetaDelta only))

theorem keeps_refuseAccess (fn off s) (hs : Keeps s₀ s) : Keeps s₀ (refuseAccess fn off s) := by
  unfold refuseAccess
  repeat' (first
    | (with_reducible assumption) | (with_reducible intro _) | (with_reducible apply keeps_recordPriv)
    | (with_reducible apply keeps_logStatus) | (with_reducible apply keeps_foldl) | (with_reducible apply keeps_id)
    | (extract_lets) | (split) | (with_reducible apply keeps_ite) | (dsimp -zeta only) | (dsimp -zeta +zetaDelta only))

theorem keeps_guarded (fn off allowed act s) (hact : ∀ s, Keeps s₀ s → Keeps s₀ (act s)) (hs : Keeps s₀ s) : Keeps s₀ (guarded fn off allowed act s) := by
  unfold guarded
  repeat' (first
    | (with_reducible assumption) | (with_reducible intro _) | (with_reducible apply keeps_refuseAccess)
    | (with_reducible apply keeps_foldl) | (with_reducible apply keeps_id) | (apply hact) | (extract_lets) | (split)
    | (with_reducible apply keeps_ite) | (dsimp -zeta only) | (dsimp -zeta +zetaDelta only))

theorem keeps_logItem (base code path seq s) (hs : Keeps s₀ s) : Keeps s₀ (logItem base code path seq s) := by
  unfold logItem
  repeat' (first
    | (with_reducible assumption) | (with_reducible intro _) | (with_reducible apply keeps_logKeyed)
    | (with_reducible apply keeps_foldl) | (with_reducible apply keeps_id) | (extract_lets) | (split)
    | (with_reducible apply keeps_ite) | (dsimp -zeta only) | (dsimp -zeta +zetaDelta only))

theorem keeps_ownerWrite (fn base o act s) (hact : ∀ s, Keeps s₀ s → Keeps s₀ (act s)) (hs : Keeps s₀ s) : Keeps s₀ (ownerWrite fn base o act s) := by
  unfold ownerWrite
  repeat' (first
    | (with_reducible assumption) | (with_reducible intro _) | (with_reducible apply keeps_guarded)
    | (with_reducible apply keeps_foldl) | (with_reducible apply keeps_id) | (apply hact) | (extract_lets) | (split)
    | (with_reducible apply keeps_ite) | (dsimp -zeta only) | (dsimp -zeta +zetaDelta only))

theorem keeps_pfWrite (fn off act s) (hact : ∀ s, Keeps s₀ s → Keeps s₀ (act s)) (hs : Keeps s₀ s) : Keeps s₀ (pfWrite fn off act s) := by
  unfold pfWrite
  repeat' (first
    | (with_reducible assumption) | (with_reducible intro _) | (with_reducible apply keeps_guarded)
    | (with_reducible apply keeps_foldl) | (with_reducible apply keeps_id) | (apply hact) | (extract_lets) | (split)
    | (with_reducible apply keeps_ite) | (dsimp -zeta only) | (dsimp -zeta +zetaDelta only))

theorem keeps_posted (fn i act s) (hact : ∀ s, Keeps s₀ s → Keeps s₀ (act s)) (hs : Keeps s₀ s) : Keeps s₀ (posted fn i act s) := by
  unfold posted
  repeat' (first
    | (with_reducible assumption) | (with_reducible intro _) | (with_reducible apply keeps_foldl)
    | (with_reducible apply keeps_id) | (apply hact) | (extract_lets) | (split) | (with_reducible apply keeps_ite)
    | (dsimp -zeta only) | (dsimp -zeta +zetaDelta only) | (with_reducible apply keeps_with_edge)
    | (with_reducible apply keeps_upd) | (exact Nat.le_refl _) | rfl | (exact Nat.le_add_right _ _)
    | (exact SMap.wf_filter _ (by with_reducible assumption) _))

theorem keeps_queueEvent (id state s) (hs : Keeps s₀ s) : Keeps s₀ (queueEvent id state s) := by
  unfold queueEvent
  repeat' (first
    | (with_reducible assumption) | (with_reducible intro _) | (with_reducible apply keeps_State_send)
    | (with_reducible apply keeps_foldl) | (with_reducible apply keeps_id) | (extract_lets) | (split)
    | (with_reducible apply keeps_ite) | (dsimp -zeta only) | (dsimp -zeta +zetaDelta only)
    | (with_reducible apply keeps_with_events) | (with_reducible apply keeps_upd) | (exact Nat.le_refl _) | rfl
    | (exact Nat.le_add_right _ _) | (exact SMap.wf_filter _ (by with_reducible assumption) _))

theorem keeps_setVecPending (fn vec b s) (hs : Keeps s₀ s) : Keeps s₀ (setVecPending fn vec b s) := by
  unfold setVecPending
  repeat' (first
    | (with_reducible assumption) | (with_reducible intro _) | (with_reducible apply keeps_State_setRegN)
    | (with_reducible apply keeps_foldl) | (with_reducible apply keeps_id) | (extract_lets) | (split)
    | (with_reducible apply keeps_ite) | (dsimp -zeta only) | (dsimp -zeta +zetaDelta only))

theorem keeps_sendVector (fn vec s) (hs : Keeps s₀ s) : Keeps s₀ (sendVector fn vec s) := by
  unfold sendVector
  repeat' (first
    | (with_reducible assumption) | (with_reducible intro _) | (with_reducible apply keeps_setVecPending)
    | (with_reducible apply keeps_State_send) | (with_reducible apply keeps_foldl) | (with_reducible apply keeps_id)
    | (extract_lets) | (split) | (with_reducible apply keeps_ite) | (dsimp -zeta only) | (dsimp -zeta +zetaDelta only))

theorem keeps_raiseMask (base mask s) (hs : Keeps s₀ s) : Keeps s₀ (raiseMask base mask s) := by
  unfold raiseMask
  repeat' (first
    | (with_reducible assumption) | (with_reducible intro _) | (with_reducible apply keeps_State_setRegN)
    | (with_reducible apply keeps_sendVector) | (with_reducible apply keeps_foldl) | (with_reducible apply keeps_id)
    | (extract_lets) | (split) | (with_reducible apply keeps_ite) | (dsimp -zeta only) | (dsimp -zeta +zetaDelta only))

theorem keeps_raiseEv (base b s) (hs : Keeps s₀ s) : Keeps s₀ (raiseEv base b s) := by
  unfold raiseEv
  repeat' (first
    | (with_reducible assumption) | (with_reducible intro _) | (with_reducible apply keeps_raiseMask)
    | (with_reducible apply keeps_foldl) | (with_reducible apply keeps_id) | (extract_lets) | (split)
    | (with_reducible apply keeps_ite) | (dsimp -zeta only) | (dsimp -zeta +zetaDelta only))

theorem keeps_releaseVector (fn vec s) (hs : Keeps s₀ s) : Keeps s₀ (releaseVector fn vec s) := by
  unfold releaseVector
  repeat' (first
    | (with_reducible assumption) | (with_reducible intro _) | (with_reducible apply keeps_sendVector)
    | (with_reducible apply keeps_setVecPending) | (with_reducible apply keeps_foldl) | (with_reducible apply keeps_id)
    | (extract_lets) | (split) | (with_reducible apply keeps_ite) | (dsimp -zeta only) | (dsimp -zeta +zetaDelta only))

end Sys2Proof.Machine.Laws
end

