-- ==== Sys2Proof/Laws/KeepsColophon.lean ====
section
/-! SUPPORT. Every definition of Sys2Proof/Machine/Colophon.lean keeps what `Keeps` names. -/

namespace Sys2Proof.Machine.Laws

variable {s₀ : State}

theorem keeps_State_setCol (s d c) (hs : Keeps s₀ s) : Keeps s₀ (State.setCol s d c) := by
  unfold State.setCol
  repeat' (first
    | (with_reducible assumption) | (with_reducible intro _) | (with_reducible apply keeps_foldl)
    | (with_reducible apply keeps_id) | (extract_lets) | (split) | (with_reducible apply keeps_ite) | (dsimp -zeta only)
    | (dsimp -zeta +zetaDelta only) | (with_reducible apply keeps_with_cols) | (with_reducible apply keeps_upd)
    | (exact Nat.le_refl _) | rfl | (exact Nat.le_add_right _ _) | (exact SMap.wf_filter _ (by with_reducible assumption) _))

theorem keeps_cellarPulse (s) (hs : Keeps s₀ s) : Keeps s₀ (cellarPulse s) := by
  unfold cellarPulse
  repeat' (first
    | (with_reducible assumption) | (with_reducible intro _) | (with_reducible apply keeps_foldl)
    | (with_reducible apply keeps_id) | (extract_lets) | (split) | (with_reducible apply keeps_ite) | (dsimp -zeta only)
    | (dsimp -zeta +zetaDelta only) | (with_reducible apply keeps_upd) | (exact Nat.le_refl _) | rfl
    | (exact Nat.le_add_right _ _) | (exact SMap.wf_filter _ (by with_reducible assumption) _))

theorem keeps_colWrite (d r s) (hs : Keeps s₀ s) : Keeps s₀ (colWrite d r s) := by
  unfold colWrite
  repeat' (first
    | (with_reducible assumption) | (with_reducible intro _) | (with_reducible apply keeps_State_setBytes)
    | (with_reducible apply keeps_State_setCol) | (with_reducible apply keeps_foldl) | (with_reducible apply keeps_id)
    | (extract_lets) | (split) | (with_reducible apply keeps_ite) | (dsimp -zeta only) | (dsimp -zeta +zetaDelta only))

theorem keeps_colAppend (d type payload s) (hs : Keeps s₀ s) : Keeps s₀ (colAppend d type payload s) := by
  unfold colAppend
  repeat' (first
    | (with_reducible assumption) | (with_reducible intro _) | (with_reducible apply keeps_colWrite)
    | (with_reducible apply keeps_State_setCol) | (with_reducible apply keeps_foldl) | (with_reducible apply keeps_id)
    | (extract_lets) | (split) | (with_reducible apply keeps_ite) | (dsimp -zeta only) | (dsimp -zeta +zetaDelta only))

theorem keeps_colBoth (type payload s) (hs : Keeps s₀ s) : Keeps s₀ (colBoth type payload s) := by
  unfold colBoth
  repeat' (first
    | (with_reducible assumption) | (with_reducible intro _) | (with_reducible apply keeps_colAppend)
    | (with_reducible apply keeps_foldl) | (with_reducible apply keeps_id) | (extract_lets) | (split)
    | (with_reducible apply keeps_ite) | (dsimp -zeta only) | (dsimp -zeta +zetaDelta only))

theorem keeps_colFlush (d s) (hs : Keeps s₀ s) : Keeps s₀ (colFlush d s) := by
  unfold colFlush
  repeat' (first
    | (with_reducible assumption) | (with_reducible intro _) | (with_reducible apply keeps_State_each)
    | (with_reducible apply keeps_State_setCol) | (with_reducible apply keeps_colWrite) | (with_reducible apply keeps_foldl)
    | (with_reducible apply keeps_id) | (extract_lets) | (split) | (with_reducible apply keeps_ite) | (dsimp -zeta only)
    | (dsimp -zeta +zetaDelta only))

end Sys2Proof.Machine.Laws
end

