-- ==== Sys2Proof/Laws/KeepsFolio.lean ====
section
/-! SUPPORT. Every definition of Sys2Proof/Machine/Folio.lean keeps what `Keeps` names. -/

namespace Sys2Proof.Machine.Laws

variable {s₀ : State}

theorem keeps_addExtent (pl off len s) (hs : Keeps s₀ s) : Keeps s₀ (addExtent pl off len s) := by
  unfold addExtent
  repeat' (first
    | (with_reducible assumption) | (with_reducible intro _) | (with_reducible apply keeps_foldl)
    | (with_reducible apply keeps_id) | (extract_lets) | (split) | (with_reducible apply keeps_ite) | (dsimp -zeta only)
    | (dsimp -zeta +zetaDelta only) | (with_reducible apply keeps_with_tiers) | (with_reducible apply keeps_upd)
    | (exact Nat.le_refl _) | rfl | (exact Nat.le_add_right _ _) | (exact SMap.wf_filter _ (by with_reducible assumption) _))

theorem keeps_addUse (job tier len s) (hs : Keeps s₀ s) : Keeps s₀ (addUse job tier len s) := by
  unfold addUse
  repeat' (first
    | (with_reducible assumption) | (with_reducible intro _) | (with_reducible apply keeps_foldl)
    | (with_reducible apply keeps_id) | (extract_lets) | (split) | (with_reducible apply keeps_ite) | (dsimp -zeta only)
    | (dsimp -zeta +zetaDelta only) | (with_reducible apply keeps_with_tiers) | (with_reducible apply keeps_upd)
    | (exact Nat.le_refl _) | rfl | (exact Nat.le_add_right _ _) | (exact SMap.wf_filter _ (by with_reducible assumption) _))

theorem keeps_clearTile (t s) (hs : Keeps s₀ s) : Keeps s₀ (clearTile t s) := by
  unfold clearTile
  repeat' (first
    | (with_reducible assumption) | (with_reducible intro _) | (with_reducible apply keeps_State_setBytes)
    | (with_reducible apply keeps_foldl) | (with_reducible apply keeps_id) | (extract_lets) | (split)
    | (with_reducible apply keeps_ite) | (dsimp -zeta only) | (dsimp -zeta +zetaDelta only))

theorem keeps_cleanEcc (k n s) (hs : Keeps s₀ s) : Keeps s₀ (cleanEcc k n s) := by
  unfold cleanEcc
  repeat' (first
    | (with_reducible assumption) | (with_reducible intro _) | (with_reducible apply keeps_foldl)
    | (with_reducible apply keeps_id) | (extract_lets) | (split) | (with_reducible apply keeps_ite) | (dsimp -zeta only)
    | (dsimp -zeta +zetaDelta only) | (with_reducible apply keeps_with_ecc) | (with_reducible apply keeps_upd)
    | (exact Nat.le_refl _) | rfl | (exact Nat.le_add_right _ _) | (exact SMap.wf_filter _ (by with_reducible assumption) _))

theorem keeps_copyFirst (a n s) (hs : Keeps s₀ s) : Keeps s₀ (copyFirst a n s) := by
  unfold copyFirst
  repeat' (first
    | (with_reducible assumption) | (with_reducible intro _) | (with_reducible apply keeps_foldl)
    | (with_reducible apply keeps_id) | (extract_lets) | (split) | (with_reducible apply keeps_ite) | (dsimp -zeta only)
    | (dsimp -zeta +zetaDelta only) | (with_reducible apply keeps_with_cask) | (with_reducible apply keeps_upd)
    | (exact Nat.le_refl _) | rfl | (exact Nat.le_add_right _ _) | (exact SMap.wf_filter _ (by with_reducible assumption) _))

theorem keeps_fixedWrite (a n v s) (hs : Keeps s₀ s) : Keeps s₀ (fixedWrite a n v s) := by
  unfold fixedWrite
  repeat' (first
    | (with_reducible assumption) | (with_reducible intro _) | (with_reducible apply keeps_cleanEcc)
    | (with_reducible apply keeps_State_setNum) | (with_reducible apply keeps_copyFirst) | (with_reducible apply keeps_foldl)
    | (with_reducible apply keeps_id) | (extract_lets) | (split) | (with_reducible apply keeps_ite) | (dsimp -zeta only)
    | (dsimp -zeta +zetaDelta only))

theorem keeps_setTileState (t e s) (hs : Keeps s₀ s) : Keeps s₀ (setTileState t e s) := by
  unfold setTileState
  repeat' (first
    | (with_reducible assumption) | (with_reducible intro _) | (with_reducible apply keeps_fixedWrite)
    | (with_reducible apply keeps_foldl) | (with_reducible apply keeps_id) | (extract_lets) | (split)
    | (with_reducible apply keeps_ite) | (dsimp -zeta only) | (dsimp -zeta +zetaDelta only))

theorem keeps_placeTile (t tier pl off s) (hs : Keeps s₀ s) : Keeps s₀ (placeTile t tier pl off s) := by
  unfold placeTile
  repeat' (first
    | (with_reducible assumption) | (with_reducible intro _) | (with_reducible apply keeps_addUse)
    | (with_reducible apply keeps_addExtent) | (with_reducible apply keeps_clearTile)
    | (with_reducible apply keeps_setTileState) | (with_reducible apply keeps_foldl) | (with_reducible apply keeps_id)
    | (extract_lets) | (split) | (with_reducible apply keeps_ite) | (dsimp -zeta only) | (dsimp -zeta +zetaDelta only))

theorem keeps_allocTiles (l ts s) {t : State} (hs : Keeps s₀ s) (e : allocTiles l ts s = .ok t) : Keeps s₀ t := by
  induction ts generalizing s with
  | nil => injection e with e; subst e; exact hs
  | cons x ts ih =>
    simp only [Sys2Proof.Machine.allocTiles] at e
    split at e
    · split at e
      · exact ih _ (keeps_placeTile _ _ _ _ _ hs) e
      · cases e
    · split at e
      · cases e
      · exact ih _ hs e

theorem keeps_copyStore (k n s) (hs : Keeps s₀ s) : Keeps s₀ (copyStore k n s) := by
  unfold copyStore
  repeat' (first
    | (with_reducible assumption) | (with_reducible intro _) | (with_reducible apply keeps_foldl)
    | (with_reducible apply keeps_id) | (extract_lets) | (split) | (with_reducible apply keeps_ite) | (dsimp -zeta only)
    | (dsimp -zeta +zetaDelta only) | (with_reducible apply keeps_with_cask) | (with_reducible apply keeps_upd)
    | (exact Nat.le_refl _) | rfl | (exact Nat.le_add_right _ _) | (exact SMap.wf_filter _ (by with_reducible assumption) _))

theorem keeps_countEcc (pl i s) (hs : Keeps s₀ s) : Keeps s₀ (countEcc pl i s) := by
  unfold countEcc
  repeat' (first
    | (with_reducible assumption) | (with_reducible intro _) | (with_reducible apply keeps_State_bump)
    | (with_reducible apply keeps_foldl) | (with_reducible apply keeps_id) | (extract_lets) | (split)
    | (with_reducible apply keeps_ite) | (dsimp -zeta only) | (dsimp -zeta +zetaDelta only)
    | (with_reducible apply keeps_with_cask) | (with_reducible apply keeps_upd) | (exact Nat.le_refl _) | rfl
    | (exact Nat.le_add_right _ _) | (exact SMap.wf_filter _ (by with_reducible assumption) _))

theorem keeps_correctPart (p s) (hs : Keeps s₀ s) : Keeps s₀ (correctPart p s) := by
  unfold correctPart
  repeat' (first
    | (with_reducible assumption) | (with_reducible intro _) | (with_reducible apply keeps_countEcc)
    | (with_reducible apply keeps_State_setEcc) | (with_reducible apply keeps_foldl) | (with_reducible apply keeps_id)
    | (extract_lets) | (split) | (with_reducible apply keeps_ite) | (dsimp -zeta only) | (dsimp -zeta +zetaDelta only))

theorem keeps_correctRead (a n s) (hs : Keeps s₀ s) : Keeps s₀ (correctRead a n s) := by
  unfold correctRead
  repeat' (first
    | (with_reducible assumption) | (with_reducible intro _) | (with_reducible apply keeps_State_each)
    | (with_reducible apply keeps_correctPart) | (with_reducible apply keeps_foldl) | (with_reducible apply keeps_id)
    | (extract_lets) | (split) | (with_reducible apply keeps_ite) | (dsimp -zeta only) | (dsimp -zeta +zetaDelta only))

theorem keeps_dropExtent (pl off s) (hs : Keeps s₀ s) : Keeps s₀ (dropExtent pl off s) := by
  unfold dropExtent
  repeat' (first
    | (with_reducible assumption) | (with_reducible intro _) | (with_reducible apply keeps_foldl)
    | (with_reducible apply keeps_id) | (extract_lets) | (split) | (with_reducible apply keeps_ite) | (dsimp -zeta only)
    | (dsimp -zeta +zetaDelta only) | (with_reducible apply keeps_with_tiers) | (with_reducible apply keeps_upd)
    | (exact Nat.le_refl _) | rfl | (exact Nat.le_add_right _ _) | (exact SMap.wf_filter _ (by with_reducible assumption) _))

theorem keeps_dropUse (job tier len s) (hs : Keeps s₀ s) : Keeps s₀ (dropUse job tier len s) := by
  unfold dropUse
  repeat' (first
    | (with_reducible assumption) | (with_reducible intro _) | (with_reducible apply keeps_foldl)
    | (with_reducible apply keeps_id) | (extract_lets) | (split) | (with_reducible apply keeps_ite) | (dsimp -zeta only)
    | (dsimp -zeta +zetaDelta only) | (with_reducible apply keeps_with_tiers) | (with_reducible apply keeps_upd)
    | (exact Nat.le_refl _) | rfl | (exact Nat.le_add_right _ _) | (exact SMap.wf_filter _ (by with_reducible assumption) _))

theorem keeps_freeTile (t s) (hs : Keeps s₀ s) : Keeps s₀ (freeTile t s) := by
  unfold freeTile
  repeat' (first
    | (with_reducible assumption) | (with_reducible intro _) | (with_reducible apply keeps_dropUse)
    | (with_reducible apply keeps_dropExtent) | (with_reducible apply keeps_foldl) | (with_reducible apply keeps_id)
    | (extract_lets) | (split) | (with_reducible apply keeps_ite) | (dsimp -zeta only) | (dsimp -zeta +zetaDelta only))

theorem keeps_freshEcc (a n s) (hs : Keeps s₀ s) : Keeps s₀ (freshEcc a n s) := by
  unfold freshEcc
  repeat' (first
    | (with_reducible assumption) | (with_reducible intro _) | (with_reducible apply keeps_State_each)
    | (with_reducible apply keeps_cleanEcc) | (with_reducible apply keeps_foldl) | (with_reducible apply keeps_id)
    | (extract_lets) | (split) | (with_reducible apply keeps_ite) | (dsimp -zeta only) | (dsimp -zeta +zetaDelta only))

theorem keeps_poisonAt (a s) (hs : Keeps s₀ s) : Keeps s₀ (poisonAt a s) := by
  unfold poisonAt
  repeat' (first
    | (with_reducible assumption) | (with_reducible intro _) | (with_reducible apply keeps_setTileState)
    | (with_reducible apply keeps_foldl) | (with_reducible apply keeps_id) | (extract_lets) | (split)
    | (with_reducible apply keeps_ite) | (dsimp -zeta only) | (dsimp -zeta +zetaDelta only))

theorem keeps_recordEcc (pl o scrub s) (hs : Keeps s₀ s) : Keeps s₀ (recordEcc pl o scrub s) := by
  unfold recordEcc
  repeat' (first
    | (with_reducible assumption) | (with_reducible intro _) | (with_reducible apply keeps_colAppend)
    | (with_reducible apply keeps_State_setRegN) | (with_reducible apply keeps_foldl) | (with_reducible apply keeps_id)
    | (extract_lets) | (split) | (with_reducible apply keeps_ite) | (dsimp -zeta only) | (dsimp -zeta +zetaDelta only))

theorem keeps_notePart (p s) (hs : Keeps s₀ s) : Keeps s₀ (notePart p s) := by
  unfold notePart
  repeat' (first
    | (with_reducible assumption) | (with_reducible intro _) | (with_reducible apply keeps_raiseEv)
    | (with_reducible apply keeps_poisonAt) | (with_reducible apply keeps_recordEcc) | (with_reducible apply keeps_countEcc)
    | (with_reducible apply keeps_foldl) | (with_reducible apply keeps_id) | (extract_lets) | (split)
    | (with_reducible apply keeps_ite) | (dsimp -zeta only) | (dsimp -zeta +zetaDelta only))

theorem keeps_noteEcc (a n s) (hs : Keeps s₀ s) : Keeps s₀ (noteEcc a n s) := by
  unfold noteEcc
  repeat' (first
    | (with_reducible assumption) | (with_reducible intro _) | (with_reducible apply keeps_notePart)
    | (with_reducible apply keeps_foldl) | (with_reducible apply keeps_id) | (extract_lets) | (split)
    | (with_reducible apply keeps_ite) | (dsimp -zeta only) | (dsimp -zeta +zetaDelta only))

theorem keeps_setFolioByte (a v s) (hs : Keeps s₀ s) : Keeps s₀ (setFolioByte a v s) := by
  unfold setFolioByte
  repeat' (first
    | (with_reducible assumption) | (with_reducible intro _) | (with_reducible apply keeps_State_setByte)
    | (with_reducible apply keeps_foldl) | (with_reducible apply keeps_id) | (extract_lets) | (split)
    | (with_reducible apply keeps_ite) | (dsimp -zeta only) | (dsimp -zeta +zetaDelta only))

theorem keeps_setFolioBytes (a l s) (hs : Keeps s₀ s) : Keeps s₀ (setFolioBytes a l s) := by
  induction l generalizing a s with
  | nil => exact hs
  | cons v l ih => exact ih _ _ (keeps_setFolioByte _ _ _ hs)

theorem keeps_setFolioNum (a n v s) (hs : Keeps s₀ s) : Keeps s₀ (setFolioNum a n v s) := by
  unfold setFolioNum
  repeat' (first
    | (with_reducible assumption) | (with_reducible intro _) | (with_reducible apply keeps_setFolioBytes)
    | (with_reducible apply keeps_foldl) | (with_reducible apply keeps_id) | (extract_lets) | (split)
    | (with_reducible apply keeps_ite) | (dsimp -zeta only) | (dsimp -zeta +zetaDelta only))

theorem keeps_placeNum (a n v s) (hs : Keeps s₀ s) : Keeps s₀ (placeNum a n v s) := by
  unfold placeNum
  repeat' (first
    | (with_reducible assumption) | (with_reducible intro _) | (with_reducible apply keeps_freshEcc)
    | (with_reducible apply keeps_setFolioNum) | (with_reducible apply keeps_copyFirst) | (with_reducible apply keeps_foldl)
    | (with_reducible apply keeps_id) | (extract_lets) | (split) | (with_reducible apply keeps_ite) | (dsimp -zeta only)
    | (dsimp -zeta +zetaDelta only))

theorem keeps_settleTile (t whole s) (hs : Keeps s₀ s) : Keeps s₀ (settleTile t whole s) := by
  unfold settleTile
  repeat' (first
    | (with_reducible assumption) | (with_reducible intro _) | (with_reducible apply keeps_dropUse)
    | (with_reducible apply keeps_dropExtent) | (with_reducible apply keeps_setTileState)
    | (with_reducible apply keeps_addUse) | (with_reducible apply keeps_addExtent) | (with_reducible apply keeps_foldl)
    | (with_reducible apply keeps_id) | (extract_lets) | (split) | (with_reducible apply keeps_ite) | (dsimp -zeta only)
    | (dsimp -zeta +zetaDelta only) | (with_reducible apply keeps_with_tiers) | (with_reducible apply keeps_upd)
    | (exact Nat.le_refl _) | rfl | (exact Nat.le_add_right _ _) | (exact SMap.wf_filter _ (by with_reducible assumption) _))

end Sys2Proof.Machine.Laws
end

