-- ==== Sys2Proof/Laws/KeepsHydro.lean ====
section
/-! SUPPORT. Every definition of Sys2Proof/Machine/Hydro.lean keeps what `Keeps` names. -/

namespace Sys2Proof.Machine.Laws

variable {s₀ : State}

theorem keeps_State_setHyd (s ch x3) (hs : Keeps s₀ s) : Keeps s₀ (State.setHyd s ch x3) := by
  unfold State.setHyd
  repeat' (first
    | (with_reducible assumption) | (with_reducible intro _) | (with_reducible apply keeps_foldl)
    | (with_reducible apply keeps_id) | (extract_lets) | (split) | (with_reducible apply keeps_ite) | (dsimp -zeta only)
    | (dsimp -zeta +zetaDelta only) | (with_reducible apply keeps_with_hyds) | (with_reducible apply keeps_upd)
    | (exact Nat.le_refl _) | rfl | (exact Nat.le_add_right _ _) | (exact SMap.wf_filter _ (by with_reducible assumption) _))

theorem keeps_followRing (d s) (hs : Keeps s₀ s) : Keeps s₀ (followRing d s) := by
  unfold followRing
  repeat' (first
    | (with_reducible assumption) | (with_reducible intro _) | (with_reducible apply keeps_State_setRegN)
    | (with_reducible apply keeps_foldl) | (with_reducible apply keeps_id) | (extract_lets) | (split)
    | (with_reducible apply keeps_ite) | (dsimp -zeta only) | (dsimp -zeta +zetaDelta only))

theorem keeps_ringPut (d rec s) (hs : Keeps s₀ s) : Keeps s₀ (ringPut d rec s) := by
  unfold ringPut
  repeat' (first
    | (with_reducible assumption) | (with_reducible intro _) | (with_reducible apply keeps_placeNum)
    | (with_reducible apply keeps_State_setRegN) | (with_reducible apply keeps_followRing)
    | (with_reducible apply keeps_foldl) | (with_reducible apply keeps_id) | (extract_lets) | (split)
    | (with_reducible apply keeps_ite) | (dsimp -zeta only) | (dsimp -zeta +zetaDelta only))

theorem keeps_drainQueue (ch n s) (hs : Keeps s₀ s) : Keeps s₀ (drainQueue ch n s) := by
  induction n generalizing s with
  | zero => exact hs
  | succ n ih =>
    simp only [Sys2Proof.Machine.drainQueue]
    split
    · exact hs
    · split
      · exact keeps_State_setHyd _ _ _ hs
      · split
        · exact hs
        · exact ih _ (keeps_State_setHyd _ _ _ (keeps_ringPut _ _ _ hs))

theorem keeps_emitRecord (ch e s) (hs : Keeps s₀ s) : Keeps s₀ (emitRecord ch e s) := by
  unfold emitRecord
  repeat' (first
    | (with_reducible assumption) | (with_reducible intro _) | (with_reducible apply keeps_drainQueue)
    | (with_reducible apply keeps_State_setHyd) | (with_reducible apply keeps_raiseEv) | (with_reducible apply keeps_foldl)
    | (with_reducible apply keeps_id) | (extract_lets) | (split) | (with_reducible apply keeps_ite) | (dsimp -zeta only)
    | (dsimp -zeta +zetaDelta only))

theorem keeps_drainEntries (ch n s) (hs : Keeps s₀ s) : Keeps s₀ (drainEntries ch n s) := by
  induction n generalizing s with
  | zero => exact hs
  | succ n ih =>
    simp only [Sys2Proof.Machine.drainEntries]
    split
    · exact hs
    · split
      · exact hs
      · exact ih _ (keeps_emitRecord _ _ _ (keeps_State_setHyd _ _ _ hs))

theorem keeps_drainSlice (ch s) (hs : Keeps s₀ s) : Keeps s₀ (drainSlice ch s) := by
  unfold drainSlice
  repeat' (first
    | (with_reducible assumption) | (with_reducible intro _) | (with_reducible apply keeps_drainEntries)
    | (with_reducible apply keeps_foldl) | (with_reducible apply keeps_id) | (extract_lets) | (split)
    | (with_reducible apply keeps_ite) | (dsimp -zeta only) | (dsimp -zeta +zetaDelta only))

theorem keeps_measure (ch k q s) (hs : Keeps s₀ s) : Keeps s₀ (measure ch k q s) := by
  unfold measure
  repeat' (first
    | (with_reducible assumption) | (with_reducible intro _) | (with_reducible apply keeps_emitRecord)
    | (with_reducible apply keeps_State_setHyd) | (with_reducible apply keeps_foldl) | (with_reducible apply keeps_id)
    | (extract_lets) | (split) | (with_reducible apply keeps_ite) | (dsimp -zeta only) | (dsimp -zeta +zetaDelta only))

theorem keeps_measureAll (ch k l s) (hs : Keeps s₀ s) : Keeps s₀ (measureAll ch k l s) := by
  unfold measureAll
  repeat' (first
    | (with_reducible assumption) | (with_reducible intro _) | (with_reducible apply keeps_measure)
    | (with_reducible apply keeps_foldl) | (with_reducible apply keeps_id) | (extract_lets) | (split)
    | (with_reducible apply keeps_ite) | (dsimp -zeta only) | (dsimp -zeta +zetaDelta only))

end Sys2Proof.Machine.Laws
end

