-- ==== Sys2Proof/Laws/KeepsOperands.lean ====
section
/-! SUPPORT. Every definition of Sys2Proof/Machine/Operands.lean keeps what `Keeps` names. -/

namespace Sys2Proof.Machine.Laws

variable {s₀ : State}

theorem keeps_writeFolio (a l s) (hs : Keeps s₀ s) : Keeps s₀ (writeFolio a l s) := by
  unfold writeFolio
  repeat' (first
    | (with_reducible assumption) | (with_reducible intro _) | (with_reducible apply keeps_freshEcc)
    | (with_reducible apply keeps_setFolioBytes) | (with_reducible apply keeps_settleTile)
    | (with_reducible apply keeps_foldl) | (with_reducible apply keeps_id) | (extract_lets) | (split)
    | (with_reducible apply keeps_ite) | (dsimp -zeta only) | (dsimp -zeta +zetaDelta only))

theorem keeps_setTileExp (o t k s) (hs : Keeps s₀ s) : Keeps s₀ (setTileExp o t k s) := by
  unfold setTileExp
  repeat' (first
    | (with_reducible assumption) | (with_reducible intro _) | (with_reducible apply keeps_setTileState)
    | (with_reducible apply keeps_foldl) | (with_reducible apply keeps_id) | (extract_lets) | (split)
    | (with_reducible apply keeps_ite) | (dsimp -zeta only) | (dsimp -zeta +zetaDelta only))

theorem keeps_storeTile (o t k d s) (hs : Keeps s₀ s) : Keeps s₀ (storeTile o t k d s) := by
  unfold storeTile
  repeat' (first
    | (with_reducible assumption) | (with_reducible intro _) | (with_reducible apply keeps_writeFolio)
    | (with_reducible apply keeps_setTileExp) | (with_reducible apply keeps_foldl) | (with_reducible apply keeps_id)
    | (extract_lets) | (split) | (with_reducible apply keeps_ite) | (dsimp -zeta only) | (dsimp -zeta +zetaDelta only))

theorem keeps_emitTile (ch o x val ot rt s) (hs : Keeps s₀ s) : Keeps s₀ (emitTile ch o x val ot rt s) := by
  unfold emitTile
  repeat' (first
    | (with_reducible assumption) | (with_reducible intro _) | (with_reducible apply keeps_measureAll)
    | (with_reducible apply keeps_storeTile) | (with_reducible apply keeps_foldl) | (with_reducible apply keeps_id)
    | (extract_lets) | (split) | (with_reducible apply keeps_ite) | (dsimp -zeta only) | (dsimp -zeta +zetaDelta only))

theorem keeps_scrambleTile (o t s) (hs : Keeps s₀ s) : Keeps s₀ (scrambleTile o t s) := by
  unfold scrambleTile
  repeat' (first
    | (with_reducible assumption) | (with_reducible intro _) | (with_reducible apply keeps_writeFolio)
    | (with_reducible apply keeps_copyFirst) | (with_reducible apply keeps_foldl) | (with_reducible apply keeps_id)
    | (extract_lets) | (split) | (with_reducible apply keeps_ite) | (dsimp -zeta only) | (dsimp -zeta +zetaDelta only)
    | (with_reducible apply keeps_upd) | (exact Nat.le_refl _) | rfl | (exact Nat.le_add_right _ _)
    | (exact SMap.wf_filter _ (by with_reducible assumption) _))

end Sys2Proof.Machine.Laws
end

