-- ==== Sys2Proof/Laws/KeepsLinks.lean ====
section
/-! SUPPORT. Every definition of Sys2Proof/Machine/Links.lean keeps what `Keeps` names. -/

namespace Sys2Proof.Machine.Laws

variable {s₀ : State}

theorem keeps_State_setCtx (s c x) (hs : Keeps s₀ s) : Keeps s₀ (State.setCtx s c x) := by
  unfold State.setCtx
  repeat' (first
    | (with_reducible assumption) | (with_reducible intro _) | (with_reducible apply keeps_foldl)
    | (with_reducible apply keeps_id) | (extract_lets) | (split) | (with_reducible apply keeps_ite) | (dsimp -zeta only)
    | (dsimp -zeta +zetaDelta only) | (with_reducible apply keeps_with_ctxs) | (with_reducible apply keeps_upd)
    | (exact Nat.le_refl _) | rfl | (exact Nat.le_add_right _ _) | (exact SMap.wf_filter _ (by with_reducible assumption) _))

theorem keeps_queueAt (p pkt s) (hs : Keeps s₀ s) : Keeps s₀ (queueAt p pkt s) := by
  unfold queueAt
  repeat' (first
    | (with_reducible assumption) | (with_reducible intro _) | (with_reducible apply keeps_foldl)
    | (with_reducible apply keeps_id) | (extract_lets) | (split) | (with_reducible apply keeps_ite) | (dsimp -zeta only)
    | (dsimp -zeta +zetaDelta only) | (with_reducible apply keeps_with_txq) | (with_reducible apply keeps_upd)
    | (exact Nat.le_refl _) | rfl | (exact Nat.le_add_right _ _) | (exact SMap.wf_filter _ (by with_reducible assumption) _))

theorem keeps_sendPacket (pkt s) (hs : Keeps s₀ s) : Keeps s₀ (sendPacket pkt s) := by
  unfold sendPacket
  repeat' (first
    | (with_reducible assumption) | (with_reducible intro _) | (with_reducible apply keeps_queueAt)
    | (with_reducible apply keeps_foldl) | (with_reducible apply keeps_id) | (extract_lets) | (split)
    | (with_reducible apply keeps_ite) | (dsimp -zeta only) | (dsimp -zeta +zetaDelta only)
    | (with_reducible apply keeps_with_loop) | (with_reducible apply keeps_upd) | (exact Nat.le_refl _) | rfl
    | (exact Nat.le_add_right _ _) | (exact SMap.wf_filter _ (by with_reducible assumption) _))

theorem keeps_sendTracked (unit pkt s) (hs : Keeps s₀ s) : Keeps s₀ (sendTracked unit pkt s) := by
  unfold sendTracked
  repeat' (first
    | (with_reducible assumption) | (with_reducible intro _) | (with_reducible apply keeps_sendPacket)
    | (with_reducible apply keeps_foldl) | (with_reducible apply keeps_id) | (extract_lets) | (split)
    | (with_reducible apply keeps_ite) | (dsimp -zeta only) | (dsimp -zeta +zetaDelta only)
    | (with_reducible apply keeps_with_outst) | (with_reducible apply keeps_upd) | (exact Nat.le_refl _) | rfl
    | (exact Nat.le_add_right _ _) | (exact SMap.wf_filter _ (by with_reducible assumption) _))

end Sys2Proof.Machine.Laws
end

