-- ==== Sys2Proof/Laws/KeepsCaskBase.lean ====
section
/-! SUPPORT. Every definition of Sys2Proof/Machine/CaskBase.lean keeps what `Keeps` names. -/

namespace Sys2Proof.Machine.Laws

variable {s₀ : State}

theorem keeps_caskResult (serial step status place s) (hs : Keeps s₀ s) : Keeps s₀ (caskResult serial step status place s) := by
  unfold caskResult
  repeat' (first
    | (with_reducible assumption) | (with_reducible intro _) | (with_reducible apply keeps_colBoth)
    | (with_reducible apply keeps_State_setFld) | (with_reducible apply keeps_foldl) | (with_reducible apply keeps_id)
    | (extract_lets) | (split) | (with_reducible apply keeps_ite) | (dsimp -zeta only) | (dsimp -zeta +zetaDelta only))

theorem keeps_cellarTurn (s) (hs : Keeps s₀ s) : Keeps s₀ (cellarTurn s) := by
  unfold cellarTurn
  repeat' (first
    | (with_reducible assumption) | (with_reducible intro _) | (with_reducible apply keeps_State_each)
    | (with_reducible apply keeps_cellarPulse) | (with_reducible apply keeps_State_setBytes)
    | (with_reducible apply keeps_foldl) | (with_reducible apply keeps_id) | (extract_lets) | (split)
    | (with_reducible apply keeps_ite) | (dsimp -zeta only) | (dsimp -zeta +zetaDelta only)
    | (with_reducible apply keeps_with_cask) | (with_reducible apply keeps_with_owed) | (with_reducible apply keeps_upd)
    | (exact Nat.le_refl _) | rfl | (exact Nat.le_add_right _ _) | (exact SMap.wf_filter _ (by with_reducible assumption) _))

theorem keeps_setCsk (v s) (hs : Keeps s₀ s) : Keeps s₀ (setCsk v s) := by
  unfold setCsk
  repeat' (first
    | (with_reducible assumption) | (with_reducible intro _) | (with_reducible apply keeps_State_setFld)
    | (with_reducible apply keeps_foldl) | (with_reducible apply keeps_id) | (extract_lets) | (split)
    | (with_reducible apply keeps_ite) | (dsimp -zeta only) | (dsimp -zeta +zetaDelta only))

theorem keeps_idleCsk (s) (hs : Keeps s₀ s) : Keeps s₀ (idleCsk s) := by
  unfold idleCsk
  repeat' (first
    | (with_reducible assumption) | (with_reducible intro _) | (with_reducible apply keeps_setCsk)
    | (with_reducible apply keeps_foldl) | (with_reducible apply keeps_id) | (extract_lets) | (split)
    | (with_reducible apply keeps_ite) | (dsimp -zeta only) | (dsimp -zeta +zetaDelta only))

theorem keeps_writerEnds (s) (hs : Keeps s₀ s) : Keeps s₀ (writerEnds s) := by
  unfold writerEnds
  repeat' (first
    | (with_reducible assumption) | (with_reducible intro _) | (with_reducible apply keeps_State_when)
    | (with_reducible apply keeps_setCsk) | (with_reducible apply keeps_idleCsk) | (with_reducible apply keeps_foldl)
    | (with_reducible apply keeps_id) | (extract_lets) | (split) | (with_reducible apply keeps_ite) | (dsimp -zeta only)
    | (dsimp -zeta +zetaDelta only))

theorem keeps_failCask (status s) (hs : Keeps s₀ s) : Keeps s₀ (failCask status s) := by
  unfold failCask
  repeat' (first
    | (with_reducible assumption) | (with_reducible intro _) | (with_reducible apply keeps_raiseEv)
    | (with_reducible apply keeps_caskResult) | (with_reducible apply keeps_writerEnds) | (with_reducible apply keeps_foldl)
    | (with_reducible apply keeps_id) | (extract_lets) | (split) | (with_reducible apply keeps_ite) | (dsimp -zeta only)
    | (dsimp -zeta +zetaDelta only) | (with_reducible apply keeps_with_cask) | (with_reducible apply keeps_upd)
    | (exact Nat.le_refl _) | rfl | (exact Nat.le_add_right _ _) | (exact SMap.wf_filter _ (by with_reducible assumption) _))

theorem keeps_gotCask (fail data s) (hs : Keeps s₀ s) : Keeps s₀ (gotCask fail data s) := by
  unfold gotCask
  repeat' (first
    | (with_reducible assumption) | (with_reducible intro _) | (with_reducible apply keeps_foldl)
    | (with_reducible apply keeps_id) | (extract_lets) | (split) | (with_reducible apply keeps_ite) | (dsimp -zeta only)
    | (dsimp -zeta +zetaDelta only) | (with_reducible apply keeps_with_cask) | (with_reducible apply keeps_upd)
    | (exact Nat.le_refl _) | rfl | (exact Nat.le_add_right _ _) | (exact SMap.wf_filter _ (by with_reducible assumption) _))

theorem keeps_nandWrite (own a l s) (hs : Keeps s₀ s) : Keeps s₀ (nandWrite own a l s) := by
  unfold nandWrite
  repeat' (first
    | (with_reducible assumption) | (with_reducible intro _) | (with_reducible apply keeps_cellarPulse)
    | (with_reducible apply keeps_State_setBytes) | (with_reducible apply keeps_foldl) | (with_reducible apply keeps_id)
    | (extract_lets) | (split) | (with_reducible apply keeps_ite) | (dsimp -zeta only) | (dsimp -zeta +zetaDelta only)
    | (with_reducible apply keeps_with_cask) | (with_reducible apply keeps_with_owed) | (with_reducible apply keeps_upd)
    | (exact Nat.le_refl _) | rfl | (exact Nat.le_add_right _ _) | (exact SMap.wf_filter _ (by with_reducible assumption) _))

end Sys2Proof.Machine.Laws
end

