-- ==== Sys2Proof/Laws/KeepsChecks.lean ====
section
/-! SUPPORT. Every definition of Sys2Proof/Machine/Checks.lean keeps what `Keeps` names. -/

namespace Sys2Proof.Machine.Laws

variable {s₀ : State}

theorem keeps_allocOutputs (l s) {t : State} (hs : Keeps s₀ s) (e : allocOutputs l s = .ok t) : Keeps s₀ t := by
  induction l generalizing s with
  | nil => injection e with e; subst e; exact hs
  | cons x l ih =>
    obtain ⟨n, o, ts⟩ := x
    simp only [Sys2Proof.Machine.allocOutputs] at e
    split at e
    · exact ih _ (keeps_allocTiles _ _ _ hs (by assumption)) e
    · cases e
    · cases e

end Sys2Proof.Machine.Laws
end

