-- ==== Sys2Proof/Laws/KeepsTrace.lean ====
section
/-! SUPPORT. Every definition of Sys2Proof/Machine/Trace.lean keeps what `Keeps` names. -/

namespace Sys2Proof.Machine.Laws

variable {s₀ : State}

theorem keeps_State_setTrq (s ch q) (hs : Keeps s₀ s) : Keeps s₀ (State.setTrq s ch q) := by
  unfold State.setTrq
  repeat' (first
    | (with_reducible assumption) | (with_reducible intro _) | (with_reducible apply keeps_foldl)
    | (with_reducible apply keeps_id) | (extract_lets) | (split) | (with_reducible apply keeps_ite) | (dsimp -zeta only)
    | (dsimp -zeta +zetaDelta only) | (with_reducible apply keeps_with_trq) | (with_reducible apply keeps_with_trw)
    | (with_reducible apply keeps_upd) | (exact Nat.le_refl _) | rfl | (exact Nat.le_add_right _ _)
    | (exact SMap.wf_filter _ (by with_reducible assumption) _))

theorem keeps_State_setTrw (s d w) (hs : Keeps s₀ s) : Keeps s₀ (State.setTrw s d w) := by
  unfold State.setTrw
  repeat' (first
    | (with_reducible assumption) | (with_reducible intro _) | (with_reducible apply keeps_foldl)
    | (with_reducible apply keeps_id) | (extract_lets) | (split) | (with_reducible apply keeps_ite) | (dsimp -zeta only)
    | (dsimp -zeta +zetaDelta only) | (with_reducible apply keeps_with_trw) | (with_reducible apply keeps_upd)
    | (exact Nat.le_refl _) | rfl | (exact Nat.le_add_right _ _) | (exact SMap.wf_filter _ (by with_reducible assumption) _))

theorem keeps_advanceFree (off s) (hs : Keeps s₀ s) : Keeps s₀ (advanceFree off s) := by
  unfold advanceFree
  repeat' (first
    | (with_reducible assumption) | (with_reducible intro _)
    | (refine keeps_State_takeFree _ ?_ (by with_reducible assumption)) | (with_reducible apply keeps_State_takeFree_snd)
    | (with_reducible apply keeps_State_setRegN) | (with_reducible apply keeps_foldl) | (with_reducible apply keeps_id)
    | (extract_lets) | (split) | (with_reducible apply keeps_ite) | (dsimp -zeta only) | (dsimp -zeta +zetaDelta only))

theorem keeps_bothDies (f b s) (hs : Keeps s₀ s) : Keeps s₀ (bothDies f b s) := by
  unfold bothDies
  repeat' (first
    | (with_reducible assumption) | (with_reducible intro _) | (with_reducible apply keeps_State_each)
    | (with_reducible apply keeps_State_setFlag) | (with_reducible apply keeps_foldl) | (with_reducible apply keeps_id)
    | (extract_lets) | (split) | (with_reducible apply keeps_ite) | (dsimp -zeta only) | (dsimp -zeta +zetaDelta only))

theorem keeps_askHang (trig stream seq s) (hs : Keeps s₀ s) : Keeps s₀ (askHang trig stream seq s) := by
  unfold askHang
  repeat' (first
    | (with_reducible assumption) | (with_reducible intro _) | (with_reducible apply keeps_logStatus)
    | (with_reducible apply keeps_bothDies) | (with_reducible apply keeps_foldl) | (with_reducible apply keeps_id)
    | (extract_lets) | (split) | (with_reducible apply keeps_ite) | (dsimp -zeta only) | (dsimp -zeta +zetaDelta only)
    | (with_reducible apply keeps_with_hang) | (with_reducible apply keeps_upd) | (exact Nat.le_refl _) | rfl
    | (exact Nat.le_add_right _ _) | (exact SMap.wf_filter _ (by with_reducible assumption) _))

theorem keeps_emitTrace (ch time type seq d2 d3 s) (hs : Keeps s₀ s) : Keeps s₀ (emitTrace ch time type seq d2 d3 s) := by
  unfold emitTrace
  repeat' (first
    | (with_reducible assumption) | (with_reducible intro _) | (with_reducible apply keeps_State_setTrq)
    | (with_reducible apply keeps_State_bump) | (with_reducible apply keeps_foldl) | (with_reducible apply keeps_id)
    | (extract_lets) | (split) | (with_reducible apply keeps_ite) | (dsimp -zeta only) | (dsimp -zeta +zetaDelta only))

theorem keeps_emit1 (ch type seq d2 d3 s) (hs : Keeps s₀ s) : Keeps s₀ (emit1 ch type seq d2 d3 s) := by
  unfold emit1
  repeat' (first
    | (with_reducible assumption) | (with_reducible intro _) | (with_reducible apply keeps_State_when)
    | (with_reducible apply keeps_emitTrace) | (with_reducible apply keeps_foldl) | (with_reducible apply keeps_id)
    | (extract_lets) | (split) | (with_reducible apply keeps_ite) | (dsimp -zeta only) | (dsimp -zeta +zetaDelta only))

theorem keeps_loseRec (d s) (hs : Keeps s₀ s) : Keeps s₀ (loseRec d s) := by
  unfold loseRec
  repeat' (first
    | (with_reducible assumption) | (with_reducible intro _) | (with_reducible apply keeps_State_setRegN)
    | (with_reducible apply keeps_foldl) | (with_reducible apply keeps_id) | (extract_lets) | (split)
    | (with_reducible apply keeps_ite) | (dsimp -zeta only) | (dsimp -zeta +zetaDelta only))

theorem keeps_putAt (d i r s) (hs : Keeps s₀ s) : Keeps s₀ (putAt d i r s) := by
  unfold putAt
  repeat' (first
    | (with_reducible assumption) | (with_reducible intro _) | (with_reducible apply keeps_fixedWrite)
    | (with_reducible apply keeps_foldl) | (with_reducible apply keeps_id) | (extract_lets) | (split)
    | (with_reducible apply keeps_ite) | (dsimp -zeta only) | (dsimp -zeta +zetaDelta only))

theorem keeps_lowerMark (d code s) (hs : Keeps s₀ s) : Keeps s₀ (lowerMark d code s) := by
  unfold lowerMark
  repeat' (first
    | (with_reducible assumption) | (with_reducible intro _) | (with_reducible apply keeps_putAt)
    | (with_reducible apply keeps_State_setTrw) | (with_reducible apply keeps_foldl) | (with_reducible apply keeps_id)
    | (extract_lets) | (split) | (with_reducible apply keeps_ite) | (dsimp -zeta only) | (dsimp -zeta +zetaDelta only))

theorem keeps_noteMark (d code i s) (hs : Keeps s₀ s) : Keeps s₀ (noteMark d code i s) := by
  unfold noteMark
  repeat' (first
    | (with_reducible assumption) | (with_reducible intro _) | (with_reducible apply keeps_State_setRegN)
    | (with_reducible apply keeps_State_setTrw) | (with_reducible apply keeps_foldl) | (with_reducible apply keeps_id)
    | (extract_lets) | (split) | (with_reducible apply keeps_ite) | (dsimp -zeta only) | (dsimp -zeta +zetaDelta only))

theorem keeps_putRec (d r s) (hs : Keeps s₀ s) : Keeps s₀ (putRec d r s) := by
  unfold putRec
  repeat' (first
    | (with_reducible assumption) | (with_reducible intro _) | (with_reducible apply keeps_putAt)
    | (with_reducible apply keeps_State_setFld) | (with_reducible apply keeps_State_when)
    | (with_reducible apply keeps_State_setFlag) | (with_reducible apply keeps_State_setTrw)
    | (with_reducible apply keeps_State_bump) | (with_reducible apply keeps_raiseEv) | (with_reducible apply keeps_foldl)
    | (with_reducible apply keeps_id) | (extract_lets) | (split) | (with_reducible apply keeps_ite) | (dsimp -zeta only)
    | (dsimp -zeta +zetaDelta only))

theorem keeps_writeRec (d r s) (hs : Keeps s₀ s) : Keeps s₀ (writeRec d r s) := by
  unfold writeRec
  repeat' (first
    | (with_reducible assumption) | (with_reducible intro _) | (with_reducible apply keeps_loseRec)
    | (with_reducible apply keeps_putAt) | (with_reducible apply keeps_State_setTrw)
    | (with_reducible apply keeps_State_bump) | (with_reducible apply keeps_raiseEv)
    | (with_reducible apply keeps_State_setFld) | (with_reducible apply keeps_putRec) | (with_reducible apply keeps_foldl)
    | (with_reducible apply keeps_id) | (extract_lets) | (split) | (with_reducible apply keeps_ite) | (dsimp -zeta only)
    | (dsimp -zeta +zetaDelta only))

theorem keeps_trigger (d code s) (hs : Keeps s₀ s) : Keeps s₀ (trigger d code s) := by
  unfold trigger
  repeat' (first
    | (with_reducible assumption) | (with_reducible intro _) | (with_reducible apply keeps_lowerMark)
    | (with_reducible apply keeps_State_when) | (with_reducible apply keeps_writeRec) | (with_reducible apply keeps_noteMark)
    | (with_reducible apply keeps_raiseEv) | (with_reducible apply keeps_State_bump)
    | (with_reducible apply keeps_State_setFld) | (with_reducible apply keeps_State_setTrw)
    | (with_reducible apply keeps_foldl) | (with_reducible apply keeps_id) | (extract_lets) | (split)
    | (with_reducible apply keeps_ite) | (dsimp -zeta only) | (dsimp -zeta +zetaDelta only))

theorem keeps_onTimeout (d stream seq act s) (hact : ∀ s, Keeps s₀ s → Keeps s₀ (act s)) (hs : Keeps s₀ s) : Keeps s₀ (onTimeout d stream seq act s) := by
  unfold onTimeout
  repeat' (first
    | (with_reducible assumption) | (with_reducible intro _) | (with_reducible apply keeps_State_when)
    | (with_reducible apply keeps_trigger) | (with_reducible apply keeps_askHang)
    | (with_reducible apply keeps_State_setFlag) | (with_reducible apply keeps_foldl) | (with_reducible apply keeps_id)
    | (apply hact) | (extract_lets) | (split) | (with_reducible apply keeps_ite) | (dsimp -zeta only)
    | (dsimp -zeta +zetaDelta only))

theorem keeps_takeRec (d r s) (hs : Keeps s₀ s) : Keeps s₀ (takeRec d r s) := by
  unfold takeRec
  repeat' (first
    | (with_reducible assumption) | (with_reducible intro _) | (with_reducible apply keeps_State_when)
    | (with_reducible apply keeps_writeRec) | (with_reducible apply keeps_trigger) | (with_reducible apply keeps_foldl)
    | (with_reducible apply keeps_id) | (extract_lets) | (split) | (with_reducible apply keeps_ite) | (dsimp -zeta only)
    | (dsimp -zeta +zetaDelta only))

end Sys2Proof.Machine.Laws
end

