-- ==== Sys2Proof/Laws/KeepsQueue.lean ====
section
/-! SUPPORT. Every definition of Sys2Proof/Machine/Queue.lean keeps what `Keeps` names. -/

namespace Sys2Proof.Machine.Laws

variable {s₀ : State}

theorem keeps_State_setMon (s d m) (hs : Keeps s₀ s) : Keeps s₀ (State.setMon s d m) := by
  unfold State.setMon
  repeat' (first
    | (with_reducible assumption) | (with_reducible intro _) | (with_reducible apply keeps_foldl)
    | (with_reducible apply keeps_id) | (extract_lets) | (split) | (with_reducible apply keeps_ite) | (dsimp -zeta only)
    | (dsimp -zeta +zetaDelta only) | (with_reducible apply keeps_with_mons) | (with_reducible apply keeps_upd)
    | (exact Nat.le_refl _) | rfl | (exact Nat.le_add_right _ _) | (exact SMap.wf_filter _ (by with_reducible assumption) _))

theorem keeps_State_setQ (s u q) (hs : Keeps s₀ s) : Keeps s₀ (State.setQ s u q) := by
  unfold State.setQ
  repeat' (first
    | (with_reducible assumption) | (with_reducible intro _) | (with_reducible apply keeps_State_setUnit)
    | (with_reducible apply keeps_foldl) | (with_reducible apply keeps_id) | (extract_lets) | (split)
    | (with_reducible apply keeps_ite) | (dsimp -zeta only) | (dsimp -zeta +zetaDelta only))

theorem keeps_countDone (u c fail s) (hs : Keeps s₀ s) : Keeps s₀ (countDone u c fail s) := by
  unfold countDone
  repeat' (first
    | (with_reducible assumption) | (with_reducible intro _) | (with_reducible apply keeps_State_bump)
    | (with_reducible apply keeps_State_when) | (with_reducible apply keeps_foldl) | (with_reducible apply keeps_id)
    | (extract_lets) | (split) | (with_reducible apply keeps_ite) | (dsimp -zeta only) | (dsimp -zeta +zetaDelta only))

theorem keeps_countWakeTo (u s) (hs : Keeps s₀ s) : Keeps s₀ (countWakeTo u s) := by
  unfold countWakeTo
  repeat' (first
    | (with_reducible assumption) | (with_reducible intro _) | (with_reducible apply keeps_State_bump)
    | (with_reducible apply keeps_foldl) | (with_reducible apply keeps_id) | (extract_lets) | (split)
    | (with_reducible apply keeps_ite) | (dsimp -zeta only) | (dsimp -zeta +zetaDelta only))

theorem keeps_dropShare (member e s) (hs : Keeps s₀ s) : Keeps s₀ (dropShare member e s) := by
  unfold dropShare
  repeat' (first
    | (with_reducible assumption) | (with_reducible intro _) | (with_reducible apply keeps_State_setQ)
    | (with_reducible apply keeps_logItem) | (with_reducible apply keeps_countDone) | (with_reducible apply keeps_foldl)
    | (with_reducible apply keeps_id) | (extract_lets) | (split) | (with_reducible apply keeps_ite) | (dsimp -zeta only)
    | (dsimp -zeta +zetaDelta only))

theorem keeps_lowerWake (u source path s) (hs : Keeps s₀ s) : Keeps s₀ (lowerWake u source path s) := by
  unfold lowerWake
  repeat' (first
    | (with_reducible assumption) | (with_reducible intro _) | (with_reducible apply keeps_State_setRegN)
    | (with_reducible apply keeps_foldl) | (with_reducible apply keeps_id) | (extract_lets) | (split)
    | (with_reducible apply keeps_ite) | (dsimp -zeta only) | (dsimp -zeta +zetaDelta only))

theorem keeps_startWake (u source path s) (hs : Keeps s₀ s) : Keeps s₀ (startWake u source path s) := by
  unfold startWake
  repeat' (first
    | (with_reducible assumption) | (with_reducible intro _) | (with_reducible apply keeps_lowerWake)
    | (with_reducible apply keeps_State_setRegN) | (with_reducible apply keeps_State_bump)
    | (with_reducible apply keeps_State_setReg64) | (with_reducible apply keeps_foldl) | (with_reducible apply keeps_id)
    | (extract_lets) | (split) | (with_reducible apply keeps_ite) | (dsimp -zeta only) | (dsimp -zeta +zetaDelta only)
    | (with_reducible apply keeps_with_wakeAt) | (with_reducible apply keeps_with_wakeFrom)
    | (with_reducible apply keeps_upd) | (exact Nat.le_refl _) | rfl | (exact Nat.le_add_right _ _)
    | (exact SMap.wf_filter _ (by with_reducible assumption) _))

theorem keeps_enqueue (u sender c issuer s) (hs : Keeps s₀ s) : Keeps s₀ (enqueue u sender c issuer s) := by
  unfold enqueue
  repeat' (first
    | (with_reducible assumption) | (with_reducible intro _) | (with_reducible apply keeps_startWake)
    | (with_reducible apply keeps_State_setQ) | (with_reducible apply keeps_foldl) | (with_reducible apply keeps_id)
    | (extract_lets) | (split) | (with_reducible apply keeps_ite) | (dsimp -zeta only) | (dsimp -zeta +zetaDelta only))

theorem keeps_updEnt (u e f s) (hs : Keeps s₀ s) : Keeps s₀ (updEnt u e f s) := by
  unfold updEnt
  repeat' (first
    | (with_reducible assumption) | (with_reducible intro _) | (with_reducible apply keeps_State_setQ)
    | (with_reducible apply keeps_foldl) | (with_reducible apply keeps_id) | (extract_lets) | (split)
    | (with_reducible apply keeps_ite) | (dsimp -zeta only) | (dsimp -zeta +zetaDelta only))

theorem keeps_noteStale (step s) (hs : Keeps s₀ s) : Keeps s₀ (noteStale step s) := by
  unfold noteStale
  repeat' (first
    | (with_reducible assumption) | (with_reducible intro _) | (with_reducible apply keeps_raiseEv)
    | (with_reducible apply keeps_State_setRegN) | (with_reducible apply keeps_foldl) | (with_reducible apply keeps_id)
    | (extract_lets) | (split) | (with_reducible apply keeps_ite) | (dsimp -zeta only) | (dsimp -zeta +zetaDelta only))

theorem keeps_pushRec (r s) (hs : Keeps s₀ s) : Keeps s₀ (pushRec r s) := by
  unfold pushRec
  repeat' (first
    | (with_reducible assumption) | (with_reducible intro _) | (with_reducible apply keeps_State_setStream)
    | (with_reducible apply keeps_foldl) | (with_reducible apply keeps_id) | (extract_lets) | (split)
    | (with_reducible apply keeps_ite) | (dsimp -zeta only) | (dsimp -zeta +zetaDelta only)
    | (with_reducible apply keeps_with_recNo) | (with_reducible apply keeps_upd) | (exact Nat.le_refl _) | rfl
    | (exact Nat.le_add_right _ _) | (exact SMap.wf_filter _ (by with_reducible assumption) _))

theorem keeps_satisfyAll (stream seq fail s) (hs : Keeps s₀ s) : Keeps s₀ (satisfyAll stream seq fail s) := by
  unfold satisfyAll
  repeat' (first
    | (with_reducible assumption) | (with_reducible intro _) | (with_reducible apply keeps_State_each)
    | (with_reducible apply keeps_State_setQ) | (with_reducible apply keeps_foldl) | (with_reducible apply keeps_id)
    | (extract_lets) | (split) | (with_reducible apply keeps_ite) | (dsimp -zeta only) | (dsimp -zeta +zetaDelta only))

theorem keeps_sendToken (t s) (hs : Keeps s₀ s) : Keeps s₀ (sendToken t s) := by
  unfold sendToken
  repeat' (first
    | (with_reducible assumption) | (with_reducible intro _) | (with_reducible apply keeps_foldl)
    | (with_reducible apply keeps_id) | (extract_lets) | (split) | (with_reducible apply keeps_ite) | (dsimp -zeta only)
    | (dsimp -zeta +zetaDelta only) | (with_reducible apply keeps_with_net) | (with_reducible apply keeps_upd)
    | (exact Nat.le_refl _) | rfl | (exact Nat.le_add_right _ _) | (exact SMap.wf_filter _ (by with_reducible assumption) _))

theorem keeps_sendOwed (u pkt s) (hs : Keeps s₀ s) : Keeps s₀ (sendOwed u pkt s) := by
  unfold sendOwed
  repeat' (first
    | (with_reducible assumption) | (with_reducible intro _) | (with_reducible apply keeps_sendPacket)
    | (with_reducible apply keeps_foldl) | (with_reducible apply keeps_id) | (extract_lets) | (split)
    | (with_reducible apply keeps_ite) | (dsimp -zeta only) | (dsimp -zeta +zetaDelta only)
    | (with_reducible apply keeps_with_owed) | (with_reducible apply keeps_upd) | (exact Nat.le_refl _) | rfl
    | (exact Nat.le_add_right _ _) | (exact SMap.wf_filter _ (by with_reducible assumption) _))

theorem keeps_wakeSource (ch cause s) (hs : Keeps s₀ s) : Keeps s₀ (wakeSource ch cause s) := by
  unfold wakeSource
  repeat' (first
    | (with_reducible assumption) | (with_reducible intro _) | (with_reducible apply keeps_State_setCore)
    | (with_reducible apply keeps_foldl) | (with_reducible apply keeps_id) | (extract_lets) | (split)
    | (with_reducible apply keeps_ite) | (dsimp -zeta only) | (dsimp -zeta +zetaDelta only))

theorem keeps_recordToken (u t s) (hs : Keeps s₀ s) : Keeps s₀ (recordToken u t s) := by
  unfold recordToken
  repeat' (first
    | (with_reducible assumption) | (with_reducible intro _) | (with_reducible apply keeps_State_setUnit)
    | (with_reducible apply keeps_foldl) | (with_reducible apply keeps_id) | (extract_lets) | (split)
    | (with_reducible apply keeps_ite) | (dsimp -zeta only) | (dsimp -zeta +zetaDelta only)
    | (with_reducible apply keeps_with_net) | (with_reducible apply keeps_upd) | (exact Nat.le_refl _) | rfl
    | (exact Nat.le_add_right _ _) | (exact SMap.wf_filter _ (by with_reducible assumption) _))

theorem keeps_tokenOut (u e s) (hs : Keeps s₀ s) : Keeps s₀ (tokenOut u e s) := by
  unfold tokenOut
  repeat' (first
    | (with_reducible assumption) | (with_reducible intro _) | (with_reducible apply keeps_sendToken)
    | (with_reducible apply keeps_State_each) | (with_reducible apply keeps_sendOwed)
    | (with_reducible apply keeps_wakeSource) | (with_reducible apply keeps_recordToken) | (with_reducible apply keeps_foldl)
    | (with_reducible apply keeps_id) | (extract_lets) | (split) | (with_reducible apply keeps_ite) | (dsimp -zeta only)
    | (dsimp -zeta +zetaDelta only))

theorem keeps_release (u e s) (hs : Keeps s₀ s) : Keeps s₀ (release u e s) := by
  unfold release
  repeat' (first
    | (with_reducible assumption) | (with_reducible intro _) | (with_reducible apply keeps_State_setQ)
    | (with_reducible apply keeps_logItem) | (with_reducible apply keeps_countDone) | (with_reducible apply keeps_State_when)
    | (with_reducible apply keeps_noteStale) | (with_reducible apply keeps_pushRec) | (with_reducible apply keeps_satisfyAll)
    | (with_reducible apply keeps_tokenOut) | (with_reducible apply keeps_foldl) | (with_reducible apply keeps_id)
    | (extract_lets) | (split) | (with_reducible apply keeps_ite) | (dsimp -zeta only) | (dsimp -zeta +zetaDelta only))

theorem keeps_finish (u e f s) (hs : Keeps s₀ s) : Keeps s₀ (finish u e f s) := by
  unfold finish
  repeat' (first
    | (with_reducible assumption) | (with_reducible intro _) | (with_reducible apply keeps_updEnt)
    | (with_reducible apply keeps_release) | (with_reducible apply keeps_foldl) | (with_reducible apply keeps_id)
    | (extract_lets) | (split) | (with_reducible apply keeps_ite) | (dsimp -zeta only) | (dsimp -zeta +zetaDelta only))

theorem keeps_freeEntry (u stream s) (hs : Keeps s₀ s) : Keeps s₀ (freeEntry u stream s) := by
  unfold freeEntry
  repeat' (first
    | (with_reducible assumption) | (with_reducible intro _) | (with_reducible apply keeps_State_setUnit)
    | (with_reducible apply keeps_foldl) | (with_reducible apply keeps_id) | (extract_lets) | (split)
    | (with_reducible apply keeps_ite) | (dsimp -zeta only) | (dsimp -zeta +zetaDelta only))

theorem keeps_payOwed (s) (hs : Keeps s₀ s) : Keeps s₀ (payOwed s) := by
  unfold payOwed
  repeat' (first
    | (with_reducible assumption) | (with_reducible intro _) | (with_reducible apply keeps_State_each)
    | (with_reducible apply keeps_sendOwed) | (with_reducible apply keeps_foldl) | (with_reducible apply keeps_id)
    | (extract_lets) | (split) | (with_reducible apply keeps_ite) | (dsimp -zeta only) | (dsimp -zeta +zetaDelta only)
    | (with_reducible apply keeps_with_owed) | (with_reducible apply keeps_upd) | (exact Nat.le_refl _) | rfl
    | (exact Nat.le_add_right _ _) | (exact SMap.wf_filter _ (by with_reducible assumption) _))

end Sys2Proof.Machine.Laws
end

