-- ==== Sys2Proof/Laws/KeepsMoves.lean ====
section
/-! SUPPORT. Every definition of Sys2Proof/Machine/Moves.lean keeps what `Keeps` names. -/

namespace Sys2Proof.Machine.Laws

variable {s₀ : State}

theorem keeps_State_setLease (s l x) (hs : Keeps s₀ s) : Keeps s₀ (State.setLease s l x) := by
  unfold State.setLease
  repeat' (first
    | (with_reducible assumption) | (with_reducible intro _) | (with_reducible apply keeps_foldl)
    | (with_reducible apply keeps_id) | (extract_lets) | (split) | (with_reducible apply keeps_ite) | (dsimp -zeta only)
    | (dsimp -zeta +zetaDelta only) | (with_reducible apply keeps_with_tiers) | (with_reducible apply keeps_upd)
    | (exact Nat.le_refl _) | rfl | (exact Nat.le_add_right _ _) | (exact SMap.wf_filter _ (by with_reducible assumption) _))

theorem keeps_dropAnswers (m s) (hs : Keeps s₀ s) : Keeps s₀ (dropAnswers m s) := by
  unfold dropAnswers
  repeat' (first
    | (with_reducible assumption) | (with_reducible intro _) | (with_reducible apply keeps_foldl)
    | (with_reducible apply keeps_id) | (extract_lets) | (split) | (with_reducible apply keeps_ite) | (dsimp -zeta only)
    | (dsimp -zeta +zetaDelta only) | (with_reducible apply keeps_with_outst) | (with_reducible apply keeps_upd)
    | (exact Nat.le_refl _) | rfl | (exact Nat.le_add_right _ _) | (exact SMap.wf_filter _ (by with_reducible assumption) _))

theorem keeps_dropMove (t m s) (hs : Keeps s₀ s) : Keeps s₀ (dropMove t m s) := by
  unfold dropMove
  repeat' (first
    | (with_reducible assumption) | (with_reducible intro _) | (with_reducible apply keeps_dropUse)
    | (with_reducible apply keeps_dropExtent) | (with_reducible apply keeps_dropAnswers) | (with_reducible apply keeps_foldl)
    | (with_reducible apply keeps_id) | (extract_lets) | (split) | (with_reducible apply keeps_ite) | (dsimp -zeta only)
    | (dsimp -zeta +zetaDelta only) | (with_reducible apply keeps_with_tiers) | (with_reducible apply keeps_upd)
    | (exact Nat.le_refl _) | rfl | (exact Nat.le_add_right _ _) | (exact SMap.wf_filter _ (by with_reducible assumption) _))

theorem keeps_abandonMove (t m poison s) (hs : Keeps s₀ s) : Keeps s₀ (abandonMove t m poison s) := by
  unfold abandonMove
  repeat' (first
    | (with_reducible assumption) | (with_reducible intro _) | (with_reducible apply keeps_dropMove)
    | (with_reducible apply keeps_setTileState) | (with_reducible apply keeps_foldl) | (with_reducible apply keeps_id)
    | (extract_lets) | (split) | (with_reducible apply keeps_ite) | (dsimp -zeta only) | (dsimp -zeta +zetaDelta only))

theorem keeps_askLeaseTile (t loc len s) (hs : Keeps s₀ s) : Keeps s₀ (askLeaseTile t loc len s) := by
  unfold askLeaseTile
  repeat' (first
    | (with_reducible assumption) | (with_reducible intro _) | (with_reducible apply keeps_State_each)
    | (with_reducible apply keeps_sendTracked) | (with_reducible apply keeps_foldl) | (with_reducible apply keeps_id)
    | (extract_lets) | (split) | (with_reducible apply keeps_ite) | (dsimp -zeta only) | (dsimp -zeta +zetaDelta only))

theorem keeps_askTile (t s) (hs : Keeps s₀ s) : Keeps s₀ (askTile t s) := by
  unfold askTile
  repeat' (first
    | (with_reducible assumption) | (with_reducible intro _) | (with_reducible apply keeps_askLeaseTile)
    | (with_reducible apply keeps_foldl) | (with_reducible apply keeps_id) | (extract_lets) | (split)
    | (with_reducible apply keeps_ite) | (dsimp -zeta only) | (dsimp -zeta +zetaDelta only)
    | (with_reducible apply keeps_with_tiers) | (with_reducible apply keeps_upd) | (exact Nat.le_refl _) | rfl
    | (exact Nat.le_add_right _ _) | (exact SMap.wf_filter _ (by with_reducible assumption) _))

theorem keeps_askRemote (a n s) (hs : Keeps s₀ s) : Keeps s₀ (askRemote a n s) := by
  unfold askRemote
  repeat' (first
    | (with_reducible assumption) | (with_reducible intro _) | (with_reducible apply keeps_State_each)
    | (with_reducible apply keeps_askTile) | (with_reducible apply keeps_foldl) | (with_reducible apply keeps_id)
    | (extract_lets) | (split) | (with_reducible apply keeps_ite) | (dsimp -zeta only) | (dsimp -zeta +zetaDelta only))

theorem keeps_countMoveFail (l s) (hs : Keeps s₀ s) : Keeps s₀ (countMoveFail l s) := by
  unfold countMoveFail
  repeat' (first
    | (with_reducible assumption) | (with_reducible intro _) | (with_reducible apply keeps_State_each)
    | (with_reducible apply keeps_countWakeTo) | (with_reducible apply keeps_foldl) | (with_reducible apply keeps_id)
    | (extract_lets) | (split) | (with_reducible apply keeps_ite) | (dsimp -zeta only) | (dsimp -zeta +zetaDelta only))

theorem keeps_touchTile (t s) (hs : Keeps s₀ s) : Keeps s₀ (touchTile t s) := by
  unfold touchTile
  repeat' (first
    | (with_reducible assumption) | (with_reducible intro _) | (with_reducible apply keeps_foldl)
    | (with_reducible apply keeps_id) | (extract_lets) | (split) | (with_reducible apply keeps_ite) | (dsimp -zeta only)
    | (dsimp -zeta +zetaDelta only) | (with_reducible apply keeps_with_tiers) | (with_reducible apply keeps_upd)
    | (exact Nat.le_refl _) | rfl | (exact Nat.le_add_right _ _) | (exact SMap.wf_filter _ (by with_reducible assumption) _))

theorem keeps_landMove (t m data s) (hs : Keeps s₀ s) : Keeps s₀ (landMove t m data s) := by
  unfold landMove
  repeat' (first
    | (with_reducible assumption) | (with_reducible intro _) | (with_reducible apply keeps_dropUse)
    | (with_reducible apply keeps_dropExtent) | (with_reducible apply keeps_State_setBytes)
    | (with_reducible apply keeps_State_when) | (with_reducible apply keeps_State_bump)
    | (with_reducible apply keeps_setTileState) | (with_reducible apply keeps_freshEcc)
    | (with_reducible apply keeps_touchTile) | (with_reducible apply keeps_foldl) | (with_reducible apply keeps_id)
    | (extract_lets) | (split) | (with_reducible apply keeps_ite) | (dsimp -zeta only) | (dsimp -zeta +zetaDelta only)
    | (with_reducible apply keeps_with_tiers) | (with_reducible apply keeps_upd) | (exact Nat.le_refl _) | rfl
    | (exact Nat.le_add_right _ _) | (exact SMap.wf_filter _ (by with_reducible assumption) _))

theorem keeps_commitMove (m s) (hs : Keeps s₀ s) : Keeps s₀ (commitMove m s) := by
  unfold commitMove
  repeat' (first
    | (with_reducible assumption) | (with_reducible intro _) | (with_reducible apply keeps_State_each)
    | (with_reducible apply keeps_startWake) | (with_reducible apply keeps_abandonMove)
    | (with_reducible apply keeps_countMoveFail) | (with_reducible apply keeps_noteEcc)
    | (with_reducible apply keeps_raiseEv) | (with_reducible apply keeps_landMove) | (with_reducible apply keeps_correctRead)
    | (with_reducible apply keeps_foldl) | (with_reducible apply keeps_id) | (extract_lets) | (split)
    | (with_reducible apply keeps_ite) | (dsimp -zeta only) | (dsimp -zeta +zetaDelta only))

theorem keeps_discardTile (t s) (hs : Keeps s₀ s) : Keeps s₀ (discardTile t s) := by
  unfold discardTile
  repeat' (first
    | (with_reducible assumption) | (with_reducible intro _) | (with_reducible apply keeps_freeTile)
    | (with_reducible apply keeps_setTileState) | (with_reducible apply keeps_foldl) | (with_reducible apply keeps_id)
    | (extract_lets) | (split) | (with_reducible apply keeps_ite) | (dsimp -zeta only) | (dsimp -zeta +zetaDelta only))

theorem keeps_endFetch (f t s) (hs : Keeps s₀ s) : Keeps s₀ (endFetch f t s) := by
  unfold endFetch
  repeat' (first
    | (with_reducible assumption) | (with_reducible intro _) | (with_reducible apply keeps_State_setBytes)
    | (with_reducible apply keeps_raiseEv) | (with_reducible apply keeps_setTileState) | (with_reducible apply keeps_foldl)
    | (with_reducible apply keeps_id) | (extract_lets) | (split) | (with_reducible apply keeps_ite) | (dsimp -zeta only)
    | (dsimp -zeta +zetaDelta only))

theorem keeps_reqDone (asker acted s) (hs : Keeps s₀ s) : Keeps s₀ (reqDone asker acted s) := by
  unfold reqDone
  repeat' (first
    | (with_reducible assumption) | (with_reducible intro _) | (with_reducible apply keeps_updEnt)
    | (with_reducible apply keeps_foldl) | (with_reducible apply keeps_id) | (extract_lets) | (split)
    | (with_reducible apply keeps_ite) | (dsimp -zeta only) | (dsimp -zeta +zetaDelta only))

theorem keeps_hintCheck (asker s) (hs : Keeps s₀ s) : Keeps s₀ (hintCheck asker s) := by
  unfold hintCheck
  repeat' (first
    | (with_reducible assumption) | (with_reducible intro _) | (with_reducible apply keeps_finish)
    | (with_reducible apply keeps_foldl) | (with_reducible apply keeps_id) | (extract_lets) | (split)
    | (with_reducible apply keeps_ite) | (dsimp -zeta only) | (dsimp -zeta +zetaDelta only))

theorem keeps_waitReq (t op target asker s) (hs : Keeps s₀ s) : Keeps s₀ (waitReq t op target asker s) := by
  unfold waitReq
  repeat' (first
    | (with_reducible assumption) | (with_reducible intro _) | (with_reducible apply keeps_foldl)
    | (with_reducible apply keeps_id) | (extract_lets) | (split) | (with_reducible apply keeps_ite) | (dsimp -zeta only)
    | (dsimp -zeta +zetaDelta only) | (with_reducible apply keeps_with_tiers) | (with_reducible apply keeps_upd)
    | (exact Nat.le_refl _) | rfl | (exact Nat.le_add_right _ _) | (exact SMap.wf_filter _ (by with_reducible assumption) _))

theorem keeps_sendLeaseTile (t loc s) (hs : Keeps s₀ s) : Keeps s₀ (sendLeaseTile t loc s) := by
  unfold sendLeaseTile
  repeat' (first
    | (with_reducible assumption) | (with_reducible intro _) | (with_reducible apply keeps_State_each)
    | (with_reducible apply keeps_sendTracked) | (with_reducible apply keeps_foldl) | (with_reducible apply keeps_id)
    | (extract_lets) | (split) | (with_reducible apply keeps_ite) | (dsimp -zeta only) | (dsimp -zeta +zetaDelta only))

theorem keeps_startMove (x tier promo asker s) {t : State} (hs : Keeps s₀ s) (e : startMove x tier promo asker s = some t) : Keeps s₀ t := by
  simp only [Sys2Proof.Machine.startMove] at e
  split at e
  · cases e
  · split at e
    · cases e
    · injection e with e
      subst e
      refine keeps_upd ?_ id (Nat.le_refl _) (Nat.le_refl _) (Nat.le_refl _) rfl rfl rfl
      exact keeps_State_when _ _ _ (keeps_State_when _ _ _ (keeps_setTileState _ _ _ (keeps_addUse _ _ _ _ (keeps_addExtent _ _ _ _ hs)))
        (fun s h => keeps_askLeaseTile _ _ _ _ h)) (fun s h => keeps_sendLeaseTile _ _ _ h)

theorem keeps_promote (t target asker s) (hs : Keeps s₀ s) : Keeps s₀ (promote t target asker s) := by
  unfold promote
  repeat' (first
    | (with_reducible assumption) | (with_reducible intro _)
    | (refine keeps_startMove _ _ _ _ _ ?_ (by with_reducible assumption)) | (with_reducible apply keeps_waitReq)
    | (with_reducible apply keeps_reqDone) | (with_reducible apply keeps_foldl) | (with_reducible apply keeps_id)
    | (with_reducible apply keeps_getD) | (extract_lets) | (split) | (with_reducible apply keeps_ite) | (dsimp -zeta only)
    | (dsimp -zeta +zetaDelta only))

theorem keeps_request (op target asker t s) (hs : Keeps s₀ s) : Keeps s₀ (request op target asker t s) := by
  unfold request
  repeat' (first
    | (with_reducible assumption) | (with_reducible intro _)
    | (refine keeps_startMove _ _ _ _ _ ?_ (by with_reducible assumption)) | (with_reducible apply keeps_reqDone)
    | (with_reducible apply keeps_hintCheck) | (with_reducible apply keeps_abandonMove)
    | (with_reducible apply keeps_promote) | (with_reducible apply keeps_waitReq) | (with_reducible apply keeps_setTileState)
    | (with_reducible apply keeps_discardTile) | (with_reducible apply keeps_foldl) | (with_reducible apply keeps_id)
    | (with_reducible apply keeps_getD) | (extract_lets) | (split) | (with_reducible apply keeps_ite) | (dsimp -zeta only)
    | (dsimp -zeta +zetaDelta only))

theorem keeps_requestAgain (done r s) (hs : Keeps s₀ s) : Keeps s₀ (requestAgain done r s) := by
  unfold requestAgain
  repeat' (first
    | (with_reducible assumption) | (with_reducible intro _) | (with_reducible apply keeps_reqDone)
    | (with_reducible apply keeps_request) | (with_reducible apply keeps_foldl) | (with_reducible apply keeps_id)
    | (extract_lets) | (split) | (with_reducible apply keeps_ite) | (dsimp -zeta only) | (dsimp -zeta +zetaDelta only))

theorem keeps_wakeReqs (done s) (hs : Keeps s₀ s) : Keeps s₀ (wakeReqs done s) := by
  unfold wakeReqs
  repeat' (first
    | (with_reducible assumption) | (with_reducible intro _) | (with_reducible apply keeps_State_each)
    | (with_reducible apply keeps_requestAgain) | (with_reducible apply keeps_hintCheck) | (with_reducible apply keeps_foldl)
    | (with_reducible apply keeps_id) | (extract_lets) | (split) | (with_reducible apply keeps_ite) | (dsimp -zeta only)
    | (dsimp -zeta +zetaDelta only) | (with_reducible apply keeps_with_tiers) | (with_reducible apply keeps_upd)
    | (exact Nat.le_refl _) | rfl | (exact Nat.le_add_right _ _) | (exact SMap.wf_filter _ (by with_reducible assumption) _))

theorem keeps_moveEnded (m committed s) (hs : Keeps s₀ s) : Keeps s₀ (moveEnded m committed s) := by
  unfold moveEnded
  repeat' (first
    | (with_reducible assumption) | (with_reducible intro _) | (with_reducible apply keeps_wakeReqs)
    | (with_reducible apply keeps_hintCheck) | (with_reducible apply keeps_reqDone) | (with_reducible apply keeps_foldl)
    | (with_reducible apply keeps_id) | (extract_lets) | (split) | (with_reducible apply keeps_ite) | (dsimp -zeta only)
    | (dsimp -zeta +zetaDelta only))

theorem keeps_endMove (m s) (hs : Keeps s₀ s) : Keeps s₀ (endMove m s) := by
  unfold endMove
  repeat' (first
    | (with_reducible assumption) | (with_reducible intro _) | (with_reducible apply keeps_commitMove)
    | (with_reducible apply keeps_moveEnded) | (with_reducible apply keeps_foldl) | (with_reducible apply keeps_id)
    | (extract_lets) | (split) | (with_reducible apply keeps_ite) | (dsimp -zeta only) | (dsimp -zeta +zetaDelta only))

theorem keeps_setFetch (f s) (hs : Keeps s₀ s) : Keeps s₀ (setFetch f s) := by
  unfold setFetch
  repeat' (first
    | (with_reducible assumption) | (with_reducible intro _) | (with_reducible apply keeps_foldl)
    | (with_reducible apply keeps_id) | (extract_lets) | (split) | (with_reducible apply keeps_ite) | (dsimp -zeta only)
    | (dsimp -zeta +zetaDelta only) | (with_reducible apply keeps_with_tiers) | (with_reducible apply keeps_upd)
    | (exact Nat.le_refl _) | rfl | (exact Nat.le_add_right _ _) | (exact SMap.wf_filter _ (by with_reducible assumption) _))

theorem keeps_failFetch (f t s) (hs : Keeps s₀ s) : Keeps s₀ (failFetch f t s) := by
  unfold failFetch
  repeat' (first
    | (with_reducible assumption) | (with_reducible intro _) | (with_reducible apply keeps_setFetch)
    | (with_reducible apply keeps_foldl) | (with_reducible apply keeps_id) | (extract_lets) | (split)
    | (with_reducible apply keeps_ite) | (dsimp -zeta only) | (dsimp -zeta +zetaDelta only)
    | (with_reducible apply keeps_with_outst) | (with_reducible apply keeps_upd) | (exact Nat.le_refl _) | rfl
    | (exact Nat.le_add_right _ _) | (exact SMap.wf_filter _ (by with_reducible assumption) _))

theorem keeps_promoteRead (t s) (hs : Keeps s₀ s) : Keeps s₀ (promoteRead t s) := by
  unfold promoteRead
  repeat' (first
    | (with_reducible assumption) | (with_reducible intro _)
    | (refine keeps_startMove _ _ _ _ _ ?_ (by with_reducible assumption)) | (with_reducible apply keeps_foldl)
    | (with_reducible apply keeps_id) | (with_reducible apply keeps_getD) | (extract_lets) | (split)
    | (with_reducible apply keeps_ite) | (dsimp -zeta only) | (dsimp -zeta +zetaDelta only))

theorem keeps_promoteAt (a n s) (hs : Keeps s₀ s) : Keeps s₀ (promoteAt a n s) := by
  unfold promoteAt
  repeat' (first
    | (with_reducible assumption) | (with_reducible intro _) | (with_reducible apply keeps_State_each)
    | (with_reducible apply keeps_promoteRead) | (with_reducible apply keeps_foldl) | (with_reducible apply keeps_id)
    | (extract_lets) | (split) | (with_reducible apply keeps_ite) | (dsimp -zeta only) | (dsimp -zeta +zetaDelta only))

theorem keeps_touch (a n s) (hs : Keeps s₀ s) : Keeps s₀ (touch a n s) := by
  unfold touch
  repeat' (first
    | (with_reducible assumption) | (with_reducible intro _) | (with_reducible apply keeps_State_each)
    | (with_reducible apply keeps_correctRead) | (with_reducible apply keeps_touchTile) | (with_reducible apply keeps_foldl)
    | (with_reducible apply keeps_id) | (extract_lets) | (split) | (with_reducible apply keeps_ite) | (dsimp -zeta only)
    | (dsimp -zeta +zetaDelta only))

theorem keeps_readDone (a n s) (hs : Keeps s₀ s) : Keeps s₀ (readDone a n s) := by
  unfold readDone
  repeat' (first
    | (with_reducible assumption) | (with_reducible intro _) | (with_reducible apply keeps_promoteAt)
    | (with_reducible apply keeps_touch) | (with_reducible apply keeps_foldl) | (with_reducible apply keeps_id)
    | (extract_lets) | (split) | (with_reducible apply keeps_ite) | (dsimp -zeta only) | (dsimp -zeta +zetaDelta only))

theorem keeps_readOver (a n s) (hs : Keeps s₀ s) : Keeps s₀ (readOver a n s) := by
  unfold readOver
  repeat' (first
    | (with_reducible assumption) | (with_reducible intro _) | (with_reducible apply keeps_foldl)
    | (with_reducible apply keeps_id) | (extract_lets) | (split) | (with_reducible apply keeps_ite) | (dsimp -zeta only)
    | (dsimp -zeta +zetaDelta only) | (with_reducible apply keeps_with_tiers) | (with_reducible apply keeps_upd)
    | (exact Nat.le_refl _) | rfl | (exact Nat.le_add_right _ _) | (exact SMap.wf_filter _ (by with_reducible assumption) _))

theorem keeps_sendDirty (s) (hs : Keeps s₀ s) : Keeps s₀ (sendDirty s) := by
  unfold sendDirty
  repeat' (first
    | (with_reducible assumption) | (with_reducible intro _) | (with_reducible apply keeps_State_each)
    | (with_reducible apply keeps_State_when) | (with_reducible apply keeps_sendLeaseTile)
    | (with_reducible apply keeps_foldl) | (with_reducible apply keeps_id) | (extract_lets) | (split)
    | (with_reducible apply keeps_ite) | (dsimp -zeta only) | (dsimp -zeta +zetaDelta only)
    | (with_reducible apply keeps_with_tiers) | (with_reducible apply keeps_upd) | (exact Nat.le_refl _) | rfl
    | (exact Nat.le_add_right _ _) | (exact SMap.wf_filter _ (by with_reducible assumption) _))

end Sys2Proof.Machine.Laws
end

