-- ==== Sys2Proof/Laws/KeepsArrayRun.lean ====
section
/-! SUPPORT. Every definition of Sys2Proof/Machine/ArrayRun.lean keeps what `Keeps` names. -/

namespace Sys2Proof.Machine.Laws

variable {s₀ : State}

theorem keeps_addCost (ch p s) (hs : Keeps s₀ s) : Keeps s₀ (addCost ch p s) := by
  unfold addCost
  repeat' (first
    | (with_reducible assumption) | (with_reducible intro _) | (with_reducible apply keeps_State_setArr)
    | (with_reducible apply keeps_foldl) | (with_reducible apply keeps_id) | (extract_lets) | (split)
    | (with_reducible apply keeps_ite) | (dsimp -zeta only) | (dsimp -zeta +zetaDelta only))

theorem keeps_holdBanks (ch last cost s) (hs : Keeps s₀ s) : Keeps s₀ (holdBanks ch last cost s) := by
  unfold holdBanks
  repeat' (first
    | (with_reducible assumption) | (with_reducible intro _) | (with_reducible apply keeps_State_setArr)
    | (with_reducible apply keeps_foldl) | (with_reducible apply keeps_id) | (extract_lets) | (split)
    | (with_reducible apply keeps_ite) | (dsimp -zeta only) | (dsimp -zeta +zetaDelta only))

theorem keeps_afterRun (s ch x a b first ran paid torn x10) (hs : Keeps s₀ s) (hx10 : Keeps s₀ x10) : Keeps s₀ (afterRun s ch x a b first ran paid torn x10) := by
  unfold afterRun
  repeat' (first
    | (with_reducible assumption) | (with_reducible intro _) | (with_reducible apply keeps_State_setArr)
    | (with_reducible apply keeps_State_when) | (with_reducible apply keeps_holdBanks) | (with_reducible apply keeps_addCost)
    | (with_reducible apply keeps_foldl) | (with_reducible apply keeps_id) | (extract_lets) | (split)
    | (with_reducible apply keeps_ite) | (dsimp -zeta only) | (dsimp -zeta +zetaDelta only)
    | (with_reducible apply keeps_upd) | (exact Nat.le_refl _) | rfl | (exact Nat.le_add_right _ _)
    | (exact SMap.wf_filter _ (by with_reducible assumption) _))

theorem keeps_askTables (ch e s) (hs : Keeps s₀ s) : Keeps s₀ (askTables ch e s) := by
  unfold askTables
  repeat' (first
    | (with_reducible assumption) | (with_reducible intro _) | (with_reducible apply keeps_State_setTab)
    | (with_reducible apply keeps_foldl) | (with_reducible apply keeps_id) | (extract_lets) | (split)
    | (with_reducible apply keeps_ite) | (dsimp -zeta only) | (dsimp -zeta +zetaDelta only))

theorem keeps_onReads (f e l s) (hf : ∀ x y s, Keeps s₀ s → Keeps s₀ (f x y s)) (hs : Keeps s₀ s) : Keeps s₀ (onReads f e l s) := by
  unfold onReads
  repeat' (first
    | (with_reducible assumption) | (with_reducible intro _) | (with_reducible apply keeps_State_each)
    | (with_reducible apply keeps_foldl) | (with_reducible apply keeps_id) | (apply hf) | (extract_lets) | (split)
    | (with_reducible apply keeps_ite) | (dsimp -zeta only) | (dsimp -zeta +zetaDelta only))

theorem keeps_touchReads (e l s) (hs : Keeps s₀ s) : Keeps s₀ (touchReads e l s) := by
  unfold touchReads
  repeat' (first
    | (with_reducible assumption) | (with_reducible intro _) | (with_reducible apply keeps_onReads)
    | (with_reducible apply keeps_touch) | (with_reducible apply keeps_foldl) | (with_reducible apply keeps_id)
    | (extract_lets) | (split) | (with_reducible apply keeps_ite) | (dsimp -zeta only) | (dsimp -zeta +zetaDelta only))

theorem keeps_blockThere (ch s) (hs : Keeps s₀ s) : Keeps s₀ (blockThere ch s) := by
  unfold blockThere
  repeat' (first
    | (with_reducible assumption) | (with_reducible intro _) | (with_reducible apply keeps_State_setArr)
    | (with_reducible apply keeps_touchReads) | (with_reducible apply keeps_foldl) | (with_reducible apply keeps_id)
    | (extract_lets) | (split) | (with_reducible apply keeps_ite) | (dsimp -zeta only) | (dsimp -zeta +zetaDelta only))

theorem keeps_claimTiles (up e l s) (hs : Keeps s₀ s) : Keeps s₀ (claimTiles up e l s) := by
  unfold claimTiles
  repeat' (first
    | (with_reducible assumption) | (with_reducible intro _) | (with_reducible apply keeps_State_each)
    | (with_reducible apply keeps_setTileState) | (with_reducible apply keeps_foldl) | (with_reducible apply keeps_id)
    | (extract_lets) | (split) | (with_reducible apply keeps_ite) | (dsimp -zeta only) | (dsimp -zeta +zetaDelta only))

theorem keeps_finishTile_fst (ch x a b c r f n l i j) (st : State × Option (Nat × Nat)) (hs : Keeps s₀ st.1) : Keeps s₀ (finishTile ch x a b c r f n l i j st).1 := by
  obtain ⟨s, q⟩ := st
  exact keeps_State_each _ _ _ (keeps_State_when _ _ _ (keeps_measureAll _ _ _ _ (keeps_storeTile _ _ _ _ _ hs)) (fun s h => keeps_State_setRegN _ _ _ h))
    (fun _ s h => keeps_addCost _ _ _ h)

theorem keeps_takeCreditsOf (u n s) (hs : Keeps s₀ s) : Keeps s₀ (takeCreditsOf u n s) := by
  unfold takeCreditsOf
  repeat' (first
    | (with_reducible assumption) | (with_reducible intro _) | (with_reducible apply keeps_State_setUnit)
    | (with_reducible apply keeps_foldl) | (with_reducible apply keeps_id) | (extract_lets) | (split)
    | (with_reducible apply keeps_ite) | (dsimp -zeta only) | (dsimp -zeta +zetaDelta only))

theorem keeps_convertCombined_fst (u x raws s) (hs : Keeps s₀ s) : Keeps s₀ (convertCombined u x raws s).1 := by
  unfold Sys2Proof.Machine.convertCombined
  split
  · refine List.foldlRecOn (motive := fun (st : State × Option (Nat × Nat)) => Keeps s₀ st.1) _ _ (keeps_takeCreditsOf _ _ _ hs) (fun st h y _ => keeps_finishTile_fst _ _ _ _ _ _ _ _ _ _ _ _ h)
  · exact hs

theorem keeps_convertCombined (u x raws s) {r} {t : State} (hs : Keeps s₀ s) (e : convertCombined u x raws s = (t, r)) : Keeps s₀ t := by
  have := keeps_convertCombined_fst u x raws s hs
  rwa [e] at this

theorem keeps_countExhausted (ch s) (hs : Keeps s₀ s) : Keeps s₀ (countExhausted ch s) := by
  unfold countExhausted
  repeat' (first
    | (with_reducible assumption) | (with_reducible intro _) | (with_reducible apply keeps_State_setRegN)
    | (with_reducible apply keeps_foldl) | (with_reducible apply keeps_id) | (extract_lets) | (split)
    | (with_reducible apply keeps_ite) | (dsimp -zeta only) | (dsimp -zeta +zetaDelta only))

theorem keeps_freeSets (g s) (hs : Keeps s₀ s) : Keeps s₀ (freeSets g s) := by
  unfold freeSets
  repeat' (first
    | (with_reducible assumption) | (with_reducible intro _) | (with_reducible apply keeps_State_each)
    | (with_reducible apply keeps_State_setTab) | (with_reducible apply keeps_foldl) | (with_reducible apply keeps_id)
    | (extract_lets) | (split) | (with_reducible apply keeps_ite) | (dsimp -zeta only) | (dsimp -zeta +zetaDelta only))

theorem keeps_leaveTables (ch e p s) (hs : Keeps s₀ s) : Keeps s₀ (leaveTables ch e p s) := by
  unfold leaveTables
  repeat' (first
    | (with_reducible assumption) | (with_reducible intro _) | (with_reducible apply keeps_freeSets)
    | (with_reducible apply keeps_State_each) | (with_reducible apply keeps_State_setTab)
    | (with_reducible apply keeps_foldl) | (with_reducible apply keeps_id) | (extract_lets) | (split)
    | (with_reducible apply keeps_ite) | (dsimp -zeta only) | (dsimp -zeta +zetaDelta only))

theorem keeps_idleArray (ch e s) (hs : Keeps s₀ s) : Keeps s₀ (idleArray ch e s) := by
  unfold idleArray
  repeat' (first
    | (with_reducible assumption) | (with_reducible intro _) | (with_reducible apply keeps_State_setArr)
    | (with_reducible apply keeps_leaveTables) | (with_reducible apply keeps_foldl) | (with_reducible apply keeps_id)
    | (extract_lets) | (split) | (with_reducible apply keeps_ite) | (dsimp -zeta only) | (dsimp -zeta +zetaDelta only))

theorem keeps_issueArray (ch e s) (hs : Keeps s₀ s) : Keeps s₀ (issueArray ch e s) := by
  unfold issueArray
  repeat' (first
    | (with_reducible assumption) | (with_reducible intro _) | (with_reducible apply keeps_takeCreditsOf)
    | (with_reducible apply keeps_updEnt) | (with_reducible apply keeps_State_when) | (with_reducible apply keeps_claimTiles)
    | (with_reducible apply keeps_askTables) | (with_reducible apply keeps_State_setArr) | (with_reducible apply keeps_foldl)
    | (with_reducible apply keeps_id) | (extract_lets) | (split) | (with_reducible apply keeps_ite) | (dsimp -zeta only)
    | (dsimp -zeta +zetaDelta only))

theorem keeps_keepCfg (ch s) (hs : Keeps s₀ s) : Keeps s₀ (keepCfg ch s) := by
  unfold keepCfg
  repeat' (first
    | (with_reducible assumption) | (with_reducible intro _) | (with_reducible apply keeps_updEnt)
    | (with_reducible apply keeps_foldl) | (with_reducible apply keeps_id) | (extract_lets) | (split)
    | (with_reducible apply keeps_ite) | (dsimp -zeta only) | (dsimp -zeta +zetaDelta only))

theorem keeps_promoteReads (e l s) (hs : Keeps s₀ s) : Keeps s₀ (promoteReads e l s) := by
  unfold promoteReads
  repeat' (first
    | (with_reducible assumption) | (with_reducible intro _) | (with_reducible apply keeps_onReads)
    | (with_reducible apply keeps_promoteAt) | (with_reducible apply keeps_foldl) | (with_reducible apply keeps_id)
    | (extract_lets) | (split) | (with_reducible apply keeps_ite) | (dsimp -zeta only) | (dsimp -zeta +zetaDelta only))

theorem keeps_readEffects (e n t s) (hs : Keeps s₀ s) : Keeps s₀ (readEffects e n t s) := by
  unfold readEffects
  repeat' (first
    | (with_reducible assumption) | (with_reducible intro _) | (with_reducible apply keeps_noteEcc)
    | (with_reducible apply keeps_foldl) | (with_reducible apply keeps_id) | (extract_lets) | (split)
    | (with_reducible apply keeps_ite) | (dsimp -zeta only) | (dsimp -zeta +zetaDelta only))

theorem keeps_readsOver (e l s) (hs : Keeps s₀ s) : Keeps s₀ (readsOver e l s) := by
  unfold readsOver
  repeat' (first
    | (with_reducible assumption) | (with_reducible intro _) | (with_reducible apply keeps_onReads)
    | (with_reducible apply keeps_readOver) | (with_reducible apply keeps_foldl) | (with_reducible apply keeps_id)
    | (extract_lets) | (split) | (with_reducible apply keeps_ite) | (dsimp -zeta only) | (dsimp -zeta +zetaDelta only))

theorem keeps_scrambleOut (e s) (hs : Keeps s₀ s) : Keeps s₀ (scrambleOut e s) := by
  unfold scrambleOut
  repeat' (first
    | (with_reducible assumption) | (with_reducible intro _) | (with_reducible apply keeps_State_each)
    | (with_reducible apply keeps_scrambleTile) | (with_reducible apply keeps_foldl) | (with_reducible apply keeps_id)
    | (extract_lets) | (split) | (with_reducible apply keeps_ite) | (dsimp -zeta only) | (dsimp -zeta +zetaDelta only))

theorem keeps_wholeWritten (e s) (hs : Keeps s₀ s) : Keeps s₀ (wholeWritten e s) := by
  unfold wholeWritten
  repeat' (first
    | (with_reducible assumption) | (with_reducible intro _) | (with_reducible apply keeps_State_each)
    | (with_reducible apply keeps_setTileState) | (with_reducible apply keeps_foldl) | (with_reducible apply keeps_id)
    | (extract_lets) | (split) | (with_reducible apply keeps_ite) | (dsimp -zeta only) | (dsimp -zeta +zetaDelta only))

theorem keeps_runArray (ch e s) (hs : Keeps s₀ s) : Keeps s₀ (runArray ch e s) := by
  have conv : ∀ (l : List (Nat × Nat × Bool)) (f : State × Option (Nat × Nat) → Nat × Nat × Bool → State × Option (Nat × Nat)) (u : State),
      (∀ x y, Keeps s₀ x.1 → Keeps s₀ (f x y).1) → Keeps s₀ u → Keeps s₀ (l.foldl f (u, none)).1 :=
    fun l f u hf h => keeps_foldl_fst l f hf (u, none) h
  unfold runArray
  split
  · extract_lets x claims done ps paid
    have hdone : ∀ f l u, Keeps s₀ u → Keeps s₀ (done f l u) := fun f l u h => keeps_finish _ _ _ _ (keeps_promoteReads _ _ _
      (keeps_readsOver _ _ _ (keeps_idleArray _ _ _ (keeps_State_when _ _ _ h (fun s h => keeps_claimTiles _ _ _ _ h)))))
    clear_value done
    split
    · exact hdone _ _ _ hs
    · next u hu =>
      have hu : Keeps s₀ u := by
        split at hu
        · injection hu with hu; exact hu ▸ hs
        · exact keeps_allocOutputs _ _ hs hu
      extract_lets first rs loaded raw convert s3 l
      have hc : ∀ l v, Keeps s₀ v → Keeps s₀ (convert l v).1 := fun l v h =>
        conv l _ v (fun st o h => keeps_finishTile_fst _ _ _ _ _ _ _ _ _ _ _ st h) h
      clear_value convert
      split
      · extract_lets s1 s2
        have h1 : Keeps s₀ s1 := keeps_touchReads _ _ _ (keeps_afterRun _ _ _ _ _ _ _ _ _ _ hu hu)
        have h2 : Keeps s₀ s2 := keeps_ite h1 (keeps_scrambleOut _ _ (hc _ _ h1))
        exact hdone _ _ _ (keeps_ite (keeps_readEffects _ _ _ _ h2) h2)
      · have h1 : Keeps s₀ s3 := keeps_touchReads _ _ _ (keeps_afterRun _ _ _ _ _ _ _ _ _ _ hu hu)
        split
        · exact hdone _ _ _ (keeps_updEnt _ _ _ _ h1)
        · have h3 := hc (tileOrder e) s3 h1
          split
          · next h => rw [h] at h3; exact hdone _ _ _ (keeps_countExhausted _ _ (keeps_wholeWritten _ _ h3))
          · next h => rw [h] at h3; exact hdone _ _ _ (keeps_wholeWritten _ _ h3)
  · exact keeps_finish _ _ _ _ hs

theorem keeps_runIssued (ch s) (hs : Keeps s₀ s) : Keeps s₀ (runIssued ch s) := by
  unfold runIssued
  repeat' (first
    | (with_reducible assumption) | (with_reducible intro _) | (with_reducible apply keeps_runArray)
    | (with_reducible apply keeps_foldl) | (with_reducible apply keeps_id) | (extract_lets) | (split)
    | (with_reducible apply keeps_ite) | (dsimp -zeta only) | (dsimp -zeta +zetaDelta only))

theorem keeps_storeRow (g i a rt kt row s) (hs : Keeps s₀ s) : Keeps s₀ (storeRow g i a rt kt row s) := by
  unfold storeRow
  repeat' (first
    | (with_reducible assumption) | (with_reducible intro _) | (with_reducible apply keeps_State_setBytes)
    | (with_reducible apply keeps_foldl) | (with_reducible apply keeps_id) | (extract_lets) | (split)
    | (with_reducible apply keeps_ite) | (dsimp -zeta only) | (dsimp -zeta +zetaDelta only))

theorem keeps_tableTurn (ch s) (hs : Keeps s₀ s) : Keeps s₀ (tableTurn ch s) := by
  unfold tableTurn
  repeat' (first
    | (with_reducible assumption) | (with_reducible intro _) | (with_reducible apply keeps_leaveTables)
    | (with_reducible apply keeps_addCost) | (with_reducible apply keeps_askTables) | (with_reducible apply keeps_updEnt)
    | (with_reducible apply keeps_foldl) | (with_reducible apply keeps_id) | (extract_lets) | (split)
    | (with_reducible apply keeps_ite) | (dsimp -zeta only) | (dsimp -zeta +zetaDelta only))

theorem keeps_tickSet (g i s) (hs : Keeps s₀ s) : Keeps s₀ (tickSet g i s) := by
  unfold tickSet
  repeat' (first
    | (with_reducible assumption) | (with_reducible intro _) | (with_reducible apply keeps_State_setTab)
    | (with_reducible apply keeps_State_each) | (with_reducible apply keeps_storeRow) | (with_reducible apply keeps_foldl)
    | (with_reducible apply keeps_id) | (extract_lets) | (split) | (with_reducible apply keeps_ite) | (dsimp -zeta only)
    | (dsimp -zeta +zetaDelta only))

theorem keeps_tryArray (ch s) (hs : Keeps s₀ s) : Keeps s₀ (tryArray ch s) := by
  unfold tryArray
  repeat' (first
    | (with_reducible assumption) | (with_reducible intro _) | (with_reducible apply keeps_runIssued)
    | (with_reducible apply keeps_blockThere) | (with_reducible apply keeps_issueArray) | (with_reducible apply keeps_foldl)
    | (with_reducible apply keeps_id) | (extract_lets) | (split) | (with_reducible apply keeps_ite) | (dsimp -zeta only)
    | (dsimp -zeta +zetaDelta only))

end Sys2Proof.Machine.Laws
end

