-- ==== Sys2Proof/Laws/KeepsVectorRun.lean ====
section
/-! SUPPORT. Every definition of Sys2Proof/Machine/VectorRun.lean keeps what `Keeps` names. -/

namespace Sys2Proof.Machine.Laws

variable {s₀ : State}

theorem keeps_addVecTicks (ch e s) (hs : Keeps s₀ s) : Keeps s₀ (addVecTicks ch e s) := by
  unfold addVecTicks
  repeat' (first
    | (with_reducible assumption) | (with_reducible intro _) | (with_reducible apply keeps_State_setArr)
    | (with_reducible apply keeps_foldl) | (with_reducible apply keeps_id) | (extract_lets) | (split)
    | (with_reducible apply keeps_ite) | (dsimp -zeta only) | (dsimp -zeta +zetaDelta only))

theorem keeps_putTile (ch e c t d s) (hs : Keeps s₀ s) : Keeps s₀ (putTile ch e c t d s) := by
  unfold putTile
  repeat' (first
    | (with_reducible assumption) | (with_reducible intro _) | (with_reducible apply keeps_measureAll)
    | (with_reducible apply keeps_storeTile) | (with_reducible apply keeps_foldl) | (with_reducible apply keeps_id)
    | (extract_lets) | (split) | (with_reducible apply keeps_ite) | (dsimp -zeta only) | (dsimp -zeta +zetaDelta only))

theorem keeps_putVals (ch e c val rt ct s) (hs : Keeps s₀ s) : Keeps s₀ (putVals ch e c val rt ct s) := by
  unfold putVals
  repeat' (first
    | (with_reducible assumption) | (with_reducible intro _) | (with_reducible apply keeps_putTile)
    | (with_reducible apply keeps_foldl) | (with_reducible apply keeps_id) | (extract_lets) | (split)
    | (with_reducible apply keeps_ite) | (dsimp -zeta only) | (dsimp -zeta +zetaDelta only))

theorem keeps_movTile (ch e a c rt ct s) (hs : Keeps s₀ s) : Keeps s₀ (movTile ch e a c rt ct s) := by
  unfold movTile
  repeat' (first
    | (with_reducible assumption) | (with_reducible intro _) | (with_reducible apply keeps_measureAll)
    | (with_reducible apply keeps_storeTile) | (with_reducible apply keeps_putVals) | (with_reducible apply keeps_foldl)
    | (with_reducible apply keeps_id) | (extract_lets) | (split) | (with_reducible apply keeps_ite) | (dsimp -zeta only)
    | (dsimp -zeta +zetaDelta only))

theorem keeps_topkTile (ch e s0 a b c rt ct s) (hs0 : Keeps s₀ s0) (hs : Keeps s₀ s) : Keeps s₀ (topkTile ch e s0 a b c rt ct s) := by
  unfold topkTile
  repeat' (first
    | (with_reducible assumption) | (with_reducible intro _) | (with_reducible apply keeps_storeTile)
    | (with_reducible apply keeps_putTile) | (with_reducible apply keeps_foldl) | (with_reducible apply keeps_id)
    | (extract_lets) | (split) | (with_reducible apply keeps_ite) | (dsimp -zeta only) | (dsimp -zeta +zetaDelta only)
    | (with_reducible apply keeps_with_cask) | (with_reducible apply keeps_upd) | (exact Nat.le_refl _) | rfl
    | (exact Nat.le_add_right _ _) | (exact SMap.wf_filter _ (by with_reducible assumption) _))

theorem keeps_vecTile (ch e s0 rt ct s) (hs0 : Keeps s₀ s0) (hs : Keeps s₀ s) : Keeps s₀ (vecTile ch e s0 rt ct s) := by
  unfold vecTile
  repeat' (first
    | (with_reducible assumption) | (with_reducible intro _) | (with_reducible apply keeps_putVals)
    | (with_reducible apply keeps_movTile) | (with_reducible apply keeps_topkTile) | (with_reducible apply keeps_foldl)
    | (with_reducible apply keeps_id) | (extract_lets) | (split) | (with_reducible apply keeps_ite) | (dsimp -zeta only)
    | (dsimp -zeta +zetaDelta only))

theorem keeps_runWork_fst (ch x l s) (hs : Keeps s₀ s) : Keeps s₀ (runWork ch x l s).1 := by
  induction l generalizing s with
  | nil => exact hs
  | cons y l ih =>
    obtain ⟨rt, cts⟩ := y
    simp only [Sys2Proof.Machine.runWork]
    split
    · exact keeps_readEffects _ _ _ _ hs
    · exact ih _ (keeps_foldl _ _ (fun s y h => keeps_vecTile _ _ _ _ _ _ (keeps_touchReads _ _ _ hs) h) _ (keeps_touchReads _ _ _ hs))

theorem keeps_runWork (ch x l s) {r} {t : State} (hs : Keeps s₀ s) (e : runWork ch x l s = (t, r)) : Keeps s₀ t := by
  have := keeps_runWork_fst ch x l s hs
  rwa [e] at this

theorem keeps_runVector (ch e s) (hs : Keeps s₀ s) : Keeps s₀ (runVector ch e s) := by
  unfold runVector
  repeat' (first
    | (with_reducible assumption) | (with_reducible intro _)
    | (refine keeps_allocOutputs _ _ ?_ (by with_reducible assumption))
    | (refine keeps_runWork _ _ _ _ ?_ (by with_reducible assumption)) | (with_reducible apply keeps_finish)
    | (with_reducible apply keeps_runWork_fst) | (with_reducible apply keeps_addVecTicks)
    | (with_reducible apply keeps_promoteReads) | (with_reducible apply keeps_readsOver)
    | (with_reducible apply keeps_wholeWritten) | (with_reducible apply keeps_foldl) | (with_reducible apply keeps_id)
    | (extract_lets) | (split) | (with_reducible apply keeps_ite) | (dsimp -zeta only) | (dsimp -zeta +zetaDelta only))

end Sys2Proof.Machine.Laws
end

