-- ==== Sys2Proof/Laws/KeepsTierOps.lean ====
section
/-! SUPPORT. Every definition of Sys2Proof/Machine/TierOps.lean keeps what `Keeps` names. -/

namespace Sys2Proof.Machine.Laws

variable {s₀ : State}

theorem keeps_runHint (u e s) (hs : Keeps s₀ s) : Keeps s₀ (runHint u e s) := by
  unfold runHint
  repeat' (first
    | (with_reducible assumption) | (with_reducible intro _) | (with_reducible apply keeps_updEnt)
    | (with_reducible apply keeps_hintCheck) | (with_reducible apply keeps_State_each) | (with_reducible apply keeps_request)
    | (with_reducible apply keeps_finish) | (with_reducible apply keeps_foldl) | (with_reducible apply keeps_id)
    | (extract_lets) | (split) | (with_reducible apply keeps_ite) | (dsimp -zeta only) | (dsimp -zeta +zetaDelta only))

end Sys2Proof.Machine.Laws
end

