-- ==== Sys2Proof/Laws/KeepsCollectiveRun.lean ====
section
/-! SUPPORT. Every definition of Sys2Proof/Machine/CollectiveRun.lean keeps what `Keeps` names. -/

namespace Sys2Proof.Machine.Laws

variable {s₀ : State}

theorem keeps_accClear (a s) (hs : Keeps s₀ s) : Keeps s₀ (accClear a s) := by
  unfold accClear
  repeat' (first
    | (with_reducible assumption) | (with_reducible intro _) | (with_reducible apply keeps_foldl)
    | (with_reducible apply keeps_id) | (extract_lets) | (split) | (with_reducible apply keeps_ite) | (dsimp -zeta only)
    | (dsimp -zeta +zetaDelta only) | (with_reducible apply keeps_upd) | (exact Nat.le_refl _) | rfl
    | (exact Nat.le_add_right _ _) | (exact SMap.wf_filter _ (by with_reducible assumption) _))

theorem keeps_accEmpty (a s) (hs : Keeps s₀ s) : Keeps s₀ (accEmpty a s) := by
  unfold accEmpty
  repeat' (first
    | (with_reducible assumption) | (with_reducible intro _) | (with_reducible apply keeps_freshEcc)
    | (with_reducible apply keeps_accClear) | (with_reducible apply keeps_copyFirst) | (with_reducible apply keeps_foldl)
    | (with_reducible apply keeps_id) | (extract_lets) | (split) | (with_reducible apply keeps_ite) | (dsimp -zeta only)
    | (dsimp -zeta +zetaDelta only))

theorem keeps_askLenders (s) (hs : Keeps s₀ s) : Keeps s₀ (askLenders s) := by
  unfold askLenders
  repeat' (first
    | (with_reducible assumption) | (with_reducible intro _) | (with_reducible apply keeps_State_each)
    | (with_reducible apply keeps_onReads) | (with_reducible apply keeps_askRemote) | (with_reducible apply keeps_foldl)
    | (with_reducible apply keeps_id) | (extract_lets) | (split) | (with_reducible apply keeps_ite) | (dsimp -zeta only)
    | (dsimp -zeta +zetaDelta only))

theorem keeps_collEffects (e s) (hs : Keeps s₀ s) : Keeps s₀ (collEffects e s) := by
  unfold collEffects
  repeat' (first
    | (with_reducible assumption) | (with_reducible intro _) | (with_reducible apply keeps_fixedWrite)
    | (with_reducible apply keeps_State_each) | (with_reducible apply keeps_State_setCtx)
    | (with_reducible apply keeps_foldl) | (with_reducible apply keeps_id) | (extract_lets) | (split)
    | (with_reducible apply keeps_ite) | (dsimp -zeta only) | (dsimp -zeta +zetaDelta only))

theorem keeps_finishColl (u e f s) (hs : Keeps s₀ s) : Keeps s₀ (finishColl u e f s) := by
  unfold finishColl
  repeat' (first
    | (with_reducible assumption) | (with_reducible intro _) | (with_reducible apply keeps_finish)
    | (with_reducible apply keeps_collEffects) | (with_reducible apply keeps_foldl) | (with_reducible apply keeps_id)
    | (extract_lets) | (split) | (with_reducible apply keeps_ite) | (dsimp -zeta only) | (dsimp -zeta +zetaDelta only))

theorem keeps_collCheck (u e s) (hs : Keeps s₀ s) : Keeps s₀ (collCheck u e s) := by
  unfold collCheck
  repeat' (first
    | (with_reducible assumption) | (with_reducible intro _) | (with_reducible apply keeps_finishColl)
    | (with_reducible apply keeps_foldl) | (with_reducible apply keeps_id) | (extract_lets) | (split)
    | (with_reducible apply keeps_ite) | (dsimp -zeta only) | (dsimp -zeta +zetaDelta only))

theorem keeps_noteReady (s) (hs : Keeps s₀ s) : Keeps s₀ (noteReady s) := by
  unfold noteReady
  repeat' (first
    | (with_reducible assumption) | (with_reducible intro _) | (with_reducible apply keeps_State_each)
    | (with_reducible apply keeps_State_setQ) | (with_reducible apply keeps_foldl) | (with_reducible apply keeps_id)
    | (extract_lets) | (split) | (with_reducible apply keeps_ite) | (dsimp -zeta only) | (dsimp -zeta +zetaDelta only))

theorem keeps_takeTile (u e t s) (hs : Keeps s₀ s) : Keeps s₀ (takeTile u e t s) := by
  unfold takeTile
  repeat' (first
    | (with_reducible assumption) | (with_reducible intro _) | (with_reducible apply keeps_finish)
    | (with_reducible apply keeps_countWakeTo) | (with_reducible apply keeps_noteEcc)
    | (with_reducible apply keeps_correctRead) | (with_reducible apply keeps_scrambleTile)
    | (with_reducible apply keeps_emitTile) | (with_reducible apply keeps_accEmpty) | (with_reducible apply keeps_updEnt)
    | (with_reducible apply keeps_foldl) | (with_reducible apply keeps_id) | (extract_lets) | (split)
    | (with_reducible apply keeps_ite) | (dsimp -zeta only) | (dsimp -zeta +zetaDelta only))

theorem keeps_takeAll (u e s) (hs : Keeps s₀ s) : Keeps s₀ (takeAll u e s) := by
  unfold takeAll
  repeat' (first
    | (with_reducible assumption) | (with_reducible intro _) | (with_reducible apply keeps_State_each)
    | (with_reducible apply keeps_takeTile) | (with_reducible apply keeps_foldl) | (with_reducible apply keeps_id)
    | (extract_lets) | (split) | (with_reducible apply keeps_ite) | (dsimp -zeta only) | (dsimp -zeta +zetaDelta only))

theorem keeps_sendAccum (u e a t s) (hs : Keeps s₀ s) : Keeps s₀ (sendAccum u e a t s) := by
  unfold sendAccum
  repeat' (first
    | (with_reducible assumption) | (with_reducible intro _) | (with_reducible apply keeps_sendTracked)
    | (with_reducible apply keeps_foldl) | (with_reducible apply keeps_id) | (extract_lets) | (split)
    | (with_reducible apply keeps_ite) | (dsimp -zeta only) | (dsimp -zeta +zetaDelta only))

theorem keeps_readAll (u e a c src s) (hs : Keeps s₀ s) : Keeps s₀ (readAll u e a c src s) := by
  unfold readAll
  repeat' (first
    | (with_reducible assumption) | (with_reducible intro _) | (with_reducible apply keeps_sendTracked)
    | (with_reducible apply keeps_State_each) | (with_reducible apply keeps_foldl) | (with_reducible apply keeps_id)
    | (extract_lets) | (split) | (with_reducible apply keeps_ite) | (dsimp -zeta only) | (dsimp -zeta +zetaDelta only))

theorem keeps_writeTile (u e a t dest addr gen s) (hs : Keeps s₀ s) : Keeps s₀ (writeTile u e a t dest addr gen s) := by
  unfold writeTile
  repeat' (first
    | (with_reducible assumption) | (with_reducible intro _) | (with_reducible apply keeps_sendTracked)
    | (with_reducible apply keeps_foldl) | (with_reducible apply keeps_id) | (extract_lets) | (split)
    | (with_reducible apply keeps_ite) | (dsimp -zeta only) | (dsimp -zeta +zetaDelta only))

theorem keeps_writeScales (u e a t n dest addr gen s) (hs : Keeps s₀ s) : Keeps s₀ (writeScales u e a t n dest addr gen s) := by
  unfold writeScales
  repeat' (first
    | (with_reducible assumption) | (with_reducible intro _) | (with_reducible apply keeps_sendTracked)
    | (with_reducible apply keeps_foldl) | (with_reducible apply keeps_id) | (extract_lets) | (split)
    | (with_reducible apply keeps_ite) | (dsimp -zeta only) | (dsimp -zeta +zetaDelta only))

theorem keeps_writeAll (u e a c at0 dest s) (hs : Keeps s₀ s) : Keeps s₀ (writeAll u e a c at0 dest s) := by
  unfold writeAll
  repeat' (first
    | (with_reducible assumption) | (with_reducible intro _) | (with_reducible apply keeps_State_each)
    | (with_reducible apply keeps_writeTile) | (with_reducible apply keeps_writeScales) | (with_reducible apply keeps_foldl)
    | (with_reducible apply keeps_id) | (extract_lets) | (split) | (with_reducible apply keeps_ite) | (dsimp -zeta only)
    | (dsimp -zeta +zetaDelta only))

theorem keeps_sendMoves (u e a gen s) (hs : Keeps s₀ s) : Keeps s₀ (sendMoves u e a gen s) := by
  unfold sendMoves
  repeat' (first
    | (with_reducible assumption) | (with_reducible intro _) | (with_reducible apply keeps_State_each)
    | (with_reducible apply keeps_writeTile) | (with_reducible apply keeps_writeScales) | (with_reducible apply keeps_foldl)
    | (with_reducible apply keeps_id) | (extract_lets) | (split) | (with_reducible apply keeps_ite) | (dsimp -zeta only)
    | (dsimp -zeta +zetaDelta only))

theorem keeps_sendColl (u e s) (hs : Keeps s₀ s) : Keeps s₀ (sendColl u e s) := by
  unfold sendColl
  repeat' (first
    | (with_reducible assumption) | (with_reducible intro _) | (with_reducible apply keeps_State_each)
    | (with_reducible apply keeps_sendAccum) | (with_reducible apply keeps_readAll) | (with_reducible apply keeps_writeAll)
    | (with_reducible apply keeps_sendMoves) | (with_reducible apply keeps_foldl) | (with_reducible apply keeps_id)
    | (extract_lets) | (split) | (with_reducible apply keeps_ite) | (dsimp -zeta only) | (dsimp -zeta +zetaDelta only))

theorem keeps_runColl (u e s) (hs : Keeps s₀ s) : Keeps s₀ (runColl u e s) := by
  unfold runColl
  repeat' (first
    | (with_reducible assumption) | (with_reducible intro _) | (with_reducible apply keeps_updEnt)
    | (with_reducible apply keeps_takeAll) | (with_reducible apply keeps_readEffects) | (with_reducible apply keeps_sendColl)
    | (with_reducible apply keeps_touchReads) | (with_reducible apply keeps_collCheck)
    | (with_reducible apply keeps_promoteReads) | (with_reducible apply keeps_readsOver) | (with_reducible apply keeps_foldl)
    | (with_reducible apply keeps_id) | (extract_lets) | (split) | (with_reducible apply keeps_ite) | (dsimp -zeta only)
    | (dsimp -zeta +zetaDelta only))

theorem keeps_startEnt (u e s) (hs : Keeps s₀ s) : Keeps s₀ (startEnt u e s) := by
  unfold startEnt
  repeat' (first
    | (with_reducible assumption) | (with_reducible intro _) | (with_reducible apply keeps_finishColl)
    | (with_reducible apply keeps_countWakeTo) | (with_reducible apply keeps_finish) | (with_reducible apply keeps_runColl)
    | (with_reducible apply keeps_runHint) | (with_reducible apply keeps_runVector) | (with_reducible apply keeps_foldl)
    | (with_reducible apply keeps_id) | (extract_lets) | (split) | (with_reducible apply keeps_ite) | (dsimp -zeta only)
    | (dsimp -zeta +zetaDelta only))

theorem keeps_pump (n s) (hs : Keeps s₀ s) : Keeps s₀ (pump n s) := by
  induction n generalizing s with
  | zero => exact hs
  | succ n ih =>
    simp only [Sys2Proof.Machine.pump]
    split
    · exact ih _ (keeps_startEnt _ _ _ hs)
    · exact hs

theorem keeps_wakeStores (s) (hs : Keeps s₀ s) : Keeps s₀ (wakeStores s) := by
  unfold wakeStores
  repeat' (first
    | (with_reducible assumption) | (with_reducible intro _) | (with_reducible apply keeps_startWake)
    | (with_reducible apply keeps_foldl) | (with_reducible apply keeps_id) | (extract_lets) | (split)
    | (with_reducible apply keeps_ite) | (dsimp -zeta only) | (dsimp -zeta +zetaDelta only))

theorem keeps_settle (s) (hs : Keeps s₀ s) : Keeps s₀ (settle s) := by
  unfold settle
  repeat' (first
    | (with_reducible assumption) | (with_reducible intro _) | (with_reducible apply keeps_wakeStores)
    | (with_reducible apply keeps_askLenders) | (with_reducible apply keeps_noteReady)
    | (with_reducible apply keeps_sendDirty) | (with_reducible apply keeps_pump) | (with_reducible apply keeps_foldl)
    | (with_reducible apply keeps_id) | (extract_lets) | (split) | (with_reducible apply keeps_ite) | (dsimp -zeta only)
    | (dsimp -zeta +zetaDelta only))

end Sys2Proof.Machine.Laws
end

