-- ==== Sys2Proof/Laws/KeepsEngine.lean ====
section
/-! SUPPORT. Every definition of Sys2Proof/Machine/Engine.lean keeps what `Keeps` names. -/

namespace Sys2Proof.Machine.Laws

variable {s₀ : State}

theorem keeps_noteReject (u e f s) (hs : Keeps s₀ s) : Keeps s₀ (noteReject u e f s) := by
  unfold noteReject
  repeat' (first
    | (with_reducible assumption) | (with_reducible intro _) | (with_reducible apply keeps_noteEcc)
    | (with_reducible apply keeps_foldl) | (with_reducible apply keeps_id) | (extract_lets) | (split)
    | (with_reducible apply keeps_ite) | (dsimp -zeta only) | (dsimp -zeta +zetaDelta only))

theorem keeps_noteList (e f s) (hs : Keeps s₀ s) : Keeps s₀ (noteList e f s) := by
  unfold noteList
  repeat' (first
    | (with_reducible assumption) | (with_reducible intro _) | (with_reducible apply keeps_State_when)
    | (with_reducible apply keeps_noteEcc) | (with_reducible apply keeps_foldl) | (with_reducible apply keeps_id)
    | (extract_lets) | (split) | (with_reducible apply keeps_ite) | (dsimp -zeta only) | (dsimp -zeta +zetaDelta only))

theorem keeps_countShares (u c n s) (hs : Keeps s₀ s) : Keeps s₀ (countShares u c n s) := by
  unfold countShares
  repeat' (first
    | (with_reducible assumption) | (with_reducible intro _) | (with_reducible apply keeps_State_bump)
    | (with_reducible apply keeps_foldl) | (with_reducible apply keeps_id) | (extract_lets) | (split)
    | (with_reducible apply keeps_ite) | (dsimp -zeta only) | (dsimp -zeta +zetaDelta only))

theorem keeps_sendShare (n m x s) (hs : Keeps s₀ s) : Keeps s₀ (sendShare n m x s) := by
  have h0 : ∀ m x s, Keeps s₀ s → Keeps s₀ (startWake m 1 (x.parent.getD modulePath)
      ((s.setQ m (s.q m ++ [chaseEntry s m x])).when (formeState s m == 3) (Machine.countWakeTo m))) := fun m x s hs =>
    keeps_startWake _ _ _ _ (keeps_State_when _ _ _ (keeps_State_setQ _ _ _ hs) (fun s h => keeps_countWakeTo _ _ h))
  induction n generalizing m x s with
  | zero => exact h0 m x s hs
  | succ n ih =>
    simp only [Sys2Proof.Machine.sendShare]
    split
    · exact h0 m x s hs
    · split
      · exact keeps_State_setQ _ _ _ hs
      · exact keeps_State_each _ _ _ (keeps_countShares _ _ _ _ (keeps_startWake _ _ _ _ (keeps_State_setQ _ _ _ hs)))
          (fun y s h => ih _ _ _ h)

theorem keeps_tryArrays (u s) (hs : Keeps s₀ s) : Keeps s₀ (tryArrays u s) := by
  unfold tryArrays
  repeat' (first
    | (with_reducible assumption) | (with_reducible intro _) | (with_reducible apply keeps_State_each)
    | (with_reducible apply keeps_tryArray) | (with_reducible apply keeps_foldl) | (with_reducible apply keeps_id)
    | (extract_lets) | (split) | (with_reducible apply keeps_ite) | (dsimp -zeta only) | (dsimp -zeta +zetaDelta only))

theorem keeps_dispatch (u e s) (hs : Keeps s₀ s) : Keeps s₀ (dispatch u e s) := by
  unfold dispatch
  repeat' (first
    | (with_reducible assumption) | (with_reducible intro _) | (with_reducible apply keeps_settle)
    | (with_reducible apply keeps_updEnt) | (with_reducible apply keeps_finish) | (with_reducible apply keeps_tryArray)
    | (with_reducible apply keeps_State_each) | (with_reducible apply keeps_countShares)
    | (with_reducible apply keeps_sendShare) | (with_reducible apply keeps_tryArrays) | (with_reducible apply keeps_foldl)
    | (with_reducible apply keeps_id) | (extract_lets) | (split) | (with_reducible apply keeps_ite) | (dsimp -zeta only)
    | (dsimp -zeta +zetaDelta only))

theorem keeps_acceptRun (u e s) (hs : Keeps s₀ s) : Keeps s₀ (acceptRun u e s) := by
  unfold acceptRun
  repeat' (first
    | (with_reducible assumption) | (with_reducible intro _)
    | (refine keeps_allocOutputs _ _ ?_ (by with_reducible assumption)) | (with_reducible apply keeps_finish)
    | (with_reducible apply keeps_noteList) | (with_reducible apply keeps_dispatch) | (with_reducible apply keeps_foldl)
    | (with_reducible apply keeps_id) | (extract_lets) | (split) | (with_reducible apply keeps_ite) | (dsimp -zeta only)
    | (dsimp -zeta +zetaDelta only))

theorem keeps_readDescs (u e s) (hs : Keeps s₀ s) : Keeps s₀ (readDescs u e s) := by
  unfold readDescs
  repeat' (first
    | (with_reducible assumption) | (with_reducible intro _) | (with_reducible apply keeps_State_when)
    | (with_reducible apply keeps_touch) | (with_reducible apply keeps_State_each) | (with_reducible apply keeps_foldl)
    | (with_reducible apply keeps_id) | (extract_lets) | (split) | (with_reducible apply keeps_ite) | (dsimp -zeta only)
    | (dsimp -zeta +zetaDelta only))

theorem keeps_accept (u e s) (hs : Keeps s₀ s) : Keeps s₀ (accept u e s) := by
  unfold accept
  repeat' (first
    | (with_reducible assumption) | (with_reducible intro _) | (with_reducible apply keeps_updEnt)
    | (with_reducible apply keeps_finish) | (with_reducible apply keeps_countWakeTo)
    | (with_reducible apply keeps_noteReject) | (with_reducible apply keeps_collEffects)
    | (with_reducible apply keeps_acceptRun) | (with_reducible apply keeps_readDescs) | (with_reducible apply keeps_foldl)
    | (with_reducible apply keeps_id) | (extract_lets) | (split) | (with_reducible apply keeps_ite) | (dsimp -zeta only)
    | (dsimp -zeta +zetaDelta only))

theorem keeps_arrayIssue (ch s) (hs : Keeps s₀ s) : Keeps s₀ (arrayIssue ch s) := by
  unfold arrayIssue
  repeat' (first
    | (with_reducible assumption) | (with_reducible intro _) | (with_reducible apply keeps_issueArray)
    | (with_reducible apply keeps_settle) | (with_reducible apply keeps_runIssued) | (with_reducible apply keeps_foldl)
    | (with_reducible apply keeps_id) | (extract_lets) | (split) | (with_reducible apply keeps_ite) | (dsimp -zeta only)
    | (dsimp -zeta +zetaDelta only))

theorem keeps_completionRelease (u s) (hs : Keeps s₀ s) : Keeps s₀ (completionRelease u s) := by
  unfold completionRelease
  repeat' (first
    | (with_reducible assumption) | (with_reducible intro _) | (with_reducible apply keeps_settle)
    | (with_reducible apply keeps_release) | (with_reducible apply keeps_foldl) | (with_reducible apply keeps_id)
    | (extract_lets) | (split) | (with_reducible apply keeps_ite) | (dsimp -zeta only) | (dsimp -zeta +zetaDelta only))

theorem keeps_creditTimeout (u s) (hs : Keeps s₀ s) : Keeps s₀ (creditTimeout u s) := by
  unfold creditTimeout
  repeat' (first
    | (with_reducible assumption) | (with_reducible intro _) | (with_reducible apply keeps_onTimeout)
    | (with_reducible apply keeps_settle) | (with_reducible apply keeps_finish) | (with_reducible apply keeps_foldl)
    | (with_reducible apply keeps_id) | (extract_lets) | (split) | (with_reducible apply keeps_ite) | (dsimp -zeta only)
    | (dsimp -zeta +zetaDelta only))

theorem keeps_execArrayIssue (ch s) (hs : Keeps s₀ s) {w : State} (eq : execArrayIssue ch s = .next w) : Keeps s₀ w := by
  unfold execArrayIssue at eq
  injection eq with eq
  subst eq
  repeat' (first
    | (with_reducible assumption) | (with_reducible intro _) | (with_reducible apply keeps_arrayIssue)
    | (with_reducible apply keeps_foldl) | (with_reducible apply keeps_id) | (extract_lets) | (split)
    | (with_reducible apply keeps_ite) | (dsimp -zeta only) | (dsimp -zeta +zetaDelta only))

theorem keeps_runHead (op u s) (hs : Keeps s₀ s) : Keeps s₀ (runHead op u s) := by
  unfold runHead
  repeat' (first
    | (with_reducible assumption) | (with_reducible intro _) | (with_reducible apply keeps_settle)
    | (with_reducible apply keeps_accept) | (with_reducible apply keeps_foldl) | (with_reducible apply keeps_id)
    | (extract_lets) | (split) | (with_reducible apply keeps_ite) | (dsimp -zeta only) | (dsimp -zeta +zetaDelta only))

theorem keeps_execColAccum (u s) (hs : Keeps s₀ s) {w : State} (eq : execColAccum u s = .next w) : Keeps s₀ w := by
  unfold execColAccum at eq
  injection eq with eq
  subst eq
  repeat' (first
    | (with_reducible assumption) | (with_reducible intro _) | (with_reducible apply keeps_runHead)
    | (with_reducible apply keeps_foldl) | (with_reducible apply keeps_id) | (extract_lets) | (split)
    | (with_reducible apply keeps_ite) | (dsimp -zeta only) | (dsimp -zeta +zetaDelta only))

theorem keeps_execColAllgather (u s) (hs : Keeps s₀ s) {w : State} (eq : execColAllgather u s = .next w) : Keeps s₀ w := by
  unfold execColAllgather at eq
  injection eq with eq
  subst eq
  repeat' (first
    | (with_reducible assumption) | (with_reducible intro _) | (with_reducible apply keeps_runHead)
    | (with_reducible apply keeps_foldl) | (with_reducible apply keeps_id) | (extract_lets) | (split)
    | (with_reducible apply keeps_ite) | (dsimp -zeta only) | (dsimp -zeta +zetaDelta only))

theorem keeps_execColBcast (u s) (hs : Keeps s₀ s) {w : State} (eq : execColBcast u s = .next w) : Keeps s₀ w := by
  unfold execColBcast at eq
  injection eq with eq
  subst eq
  repeat' (first
    | (with_reducible assumption) | (with_reducible intro _) | (with_reducible apply keeps_runHead)
    | (with_reducible apply keeps_foldl) | (with_reducible apply keeps_id) | (extract_lets) | (split)
    | (with_reducible apply keeps_ite) | (dsimp -zeta only) | (dsimp -zeta +zetaDelta only))

theorem keeps_execColGather (u s) (hs : Keeps s₀ s) {w : State} (eq : execColGather u s = .next w) : Keeps s₀ w := by
  unfold execColGather at eq
  injection eq with eq
  subst eq
  repeat' (first
    | (with_reducible assumption) | (with_reducible intro _) | (with_reducible apply keeps_runHead)
    | (with_reducible apply keeps_foldl) | (with_reducible apply keeps_id) | (extract_lets) | (split)
    | (with_reducible apply keeps_ite) | (dsimp -zeta only) | (dsimp -zeta +zetaDelta only))

theorem keeps_execColPermute (u s) (hs : Keeps s₀ s) {w : State} (eq : execColPermute u s = .next w) : Keeps s₀ w := by
  unfold execColPermute at eq
  injection eq with eq
  subst eq
  repeat' (first
    | (with_reducible assumption) | (with_reducible intro _) | (with_reducible apply keeps_runHead)
    | (with_reducible apply keeps_foldl) | (with_reducible apply keeps_id) | (extract_lets) | (split)
    | (with_reducible apply keeps_ite) | (dsimp -zeta only) | (dsimp -zeta +zetaDelta only))

theorem keeps_execColRedscat (u s) (hs : Keeps s₀ s) {w : State} (eq : execColRedscat u s = .next w) : Keeps s₀ w := by
  unfold execColRedscat at eq
  injection eq with eq
  subst eq
  repeat' (first
    | (with_reducible assumption) | (with_reducible intro _) | (with_reducible apply keeps_runHead)
    | (with_reducible apply keeps_foldl) | (with_reducible apply keeps_id) | (extract_lets) | (split)
    | (with_reducible apply keeps_ite) | (dsimp -zeta only) | (dsimp -zeta +zetaDelta only))

theorem keeps_execColScatter (u s) (hs : Keeps s₀ s) {w : State} (eq : execColScatter u s = .next w) : Keeps s₀ w := by
  unfold execColScatter at eq
  injection eq with eq
  subst eq
  repeat' (first
    | (with_reducible assumption) | (with_reducible intro _) | (with_reducible apply keeps_runHead)
    | (with_reducible apply keeps_foldl) | (with_reducible apply keeps_id) | (extract_lets) | (split)
    | (with_reducible apply keeps_ite) | (dsimp -zeta only) | (dsimp -zeta +zetaDelta only))

theorem keeps_execCompletionRelease (u s) (hs : Keeps s₀ s) {w : State} (eq : execCompletionRelease u s = .next w) : Keeps s₀ w := by
  unfold execCompletionRelease at eq
  injection eq with eq
  subst eq
  repeat' (first
    | (with_reducible assumption) | (with_reducible intro _)
    | (with_reducible apply keeps_completionRelease) | (with_reducible apply keeps_foldl) | (with_reducible apply keeps_id)
    | (extract_lets) | (split) | (with_reducible apply keeps_ite) | (dsimp -zeta only) | (dsimp -zeta +zetaDelta only))

theorem keeps_execCreditTimeout (u s) (hs : Keeps s₀ s) {w : State} (eq : execCreditTimeout u s = .next w) : Keeps s₀ w := by
  unfold execCreditTimeout at eq
  injection eq with eq
  subst eq
  repeat' (first
    | (with_reducible assumption) | (with_reducible intro _) | (with_reducible apply keeps_creditTimeout)
    | (with_reducible apply keeps_foldl) | (with_reducible apply keeps_id) | (extract_lets) | (split)
    | (with_reducible apply keeps_ite) | (dsimp -zeta only) | (dsimp -zeta +zetaDelta only))

theorem keeps_execFill (u s) (hs : Keeps s₀ s) {w : State} (eq : execFill u s = .next w) : Keeps s₀ w := by
  unfold execFill at eq
  injection eq with eq
  subst eq
  repeat' (first
    | (with_reducible assumption) | (with_reducible intro _) | (with_reducible apply keeps_runHead)
    | (with_reducible apply keeps_foldl) | (with_reducible apply keeps_id) | (extract_lets) | (split)
    | (with_reducible apply keeps_ite) | (dsimp -zeta only) | (dsimp -zeta +zetaDelta only))

theorem keeps_ligatureFence (ch s) (hs : Keeps s₀ s) : Keeps s₀ (ligatureFence ch s) := by
  unfold ligatureFence
  repeat' (first
    | (with_reducible assumption) | (with_reducible intro _) | (with_reducible apply keeps_State_setArr)
    | (with_reducible apply keeps_foldl) | (with_reducible apply keeps_id) | (extract_lets) | (split)
    | (with_reducible apply keeps_ite) | (dsimp -zeta only) | (dsimp -zeta +zetaDelta only))

theorem keeps_execLigatureFence (ch s) (hs : Keeps s₀ s) {w : State} (eq : execLigatureFence ch s = .next w) : Keeps s₀ w := by
  unfold execLigatureFence at eq
  injection eq with eq
  subst eq
  repeat' (first
    | (with_reducible assumption) | (with_reducible intro _) | (with_reducible apply keeps_ligatureFence)
    | (with_reducible apply keeps_foldl) | (with_reducible apply keeps_id) | (extract_lets) | (split)
    | (with_reducible apply keeps_ite) | (dsimp -zeta only) | (dsimp -zeta +zetaDelta only))

theorem keeps_ligatureFenceDone (ch s) (hs : Keeps s₀ s) : Keeps s₀ (ligatureFenceDone ch s) := by
  unfold ligatureFenceDone
  repeat' (first
    | (with_reducible assumption) | (with_reducible intro _) | (with_reducible apply keeps_State_bump)
    | (with_reducible apply keeps_State_setArr) | (with_reducible apply keeps_foldl) | (with_reducible apply keeps_id)
    | (extract_lets) | (split) | (with_reducible apply keeps_ite) | (dsimp -zeta only) | (dsimp -zeta +zetaDelta only))

theorem keeps_execLigatureFenceDone (ch s) (hs : Keeps s₀ s) {w : State} (eq : execLigatureFenceDone ch s = .next w) : Keeps s₀ w := by
  unfold execLigatureFenceDone at eq
  injection eq with eq
  subst eq
  repeat' (first
    | (with_reducible assumption) | (with_reducible intro _)
    | (with_reducible apply keeps_ligatureFenceDone) | (with_reducible apply keeps_foldl) | (with_reducible apply keeps_id)
    | (extract_lets) | (split) | (with_reducible apply keeps_ite) | (dsimp -zeta only) | (dsimp -zeta +zetaDelta only))

theorem keeps_execMov (u s) (hs : Keeps s₀ s) {w : State} (eq : execMov u s = .next w) : Keeps s₀ w := by
  unfold execMov at eq
  injection eq with eq
  subst eq
  repeat' (first
    | (with_reducible assumption) | (with_reducible intro _) | (with_reducible apply keeps_runHead)
    | (with_reducible apply keeps_foldl) | (with_reducible apply keeps_id) | (extract_lets) | (split)
    | (with_reducible apply keeps_ite) | (dsimp -zeta only) | (dsimp -zeta +zetaDelta only))

theorem keeps_execMul (u s) (hs : Keeps s₀ s) {w : State} (eq : execMul u s = .next w) : Keeps s₀ w := by
  unfold execMul at eq
  injection eq with eq
  subst eq
  repeat' (first
    | (with_reducible assumption) | (with_reducible intro _) | (with_reducible apply keeps_runHead)
    | (with_reducible apply keeps_foldl) | (with_reducible apply keeps_id) | (extract_lets) | (split)
    | (with_reducible apply keeps_ite) | (dsimp -zeta only) | (dsimp -zeta +zetaDelta only))

theorem keeps_execMulB1 (u s) (hs : Keeps s₀ s) {w : State} (eq : execMulB1 u s = .next w) : Keeps s₀ w := by
  unfold execMulB1 at eq
  injection eq with eq
  subst eq
  repeat' (first
    | (with_reducible assumption) | (with_reducible intro _) | (with_reducible apply keeps_runHead)
    | (with_reducible apply keeps_foldl) | (with_reducible apply keeps_id) | (extract_lets) | (split)
    | (with_reducible apply keeps_ite) | (dsimp -zeta only) | (dsimp -zeta +zetaDelta only))

theorem keeps_execMulBsr (u s) (hs : Keeps s₀ s) {w : State} (eq : execMulBsr u s = .next w) : Keeps s₀ w := by
  unfold execMulBsr at eq
  injection eq with eq
  subst eq
  repeat' (first
    | (with_reducible assumption) | (with_reducible intro _) | (with_reducible apply keeps_runHead)
    | (with_reducible apply keeps_foldl) | (with_reducible apply keeps_id) | (extract_lets) | (split)
    | (with_reducible apply keeps_ite) | (dsimp -zeta only) | (dsimp -zeta +zetaDelta only))

theorem keeps_execMulLut (u s) (hs : Keeps s₀ s) {w : State} (eq : execMulLut u s = .next w) : Keeps s₀ w := by
  unfold execMulLut at eq
  injection eq with eq
  subst eq
  repeat' (first
    | (with_reducible assumption) | (with_reducible intro _) | (with_reducible apply keeps_runHead)
    | (with_reducible apply keeps_foldl) | (with_reducible apply keeps_id) | (extract_lets) | (split)
    | (with_reducible apply keeps_ite) | (dsimp -zeta only) | (dsimp -zeta +zetaDelta only))

theorem keeps_execNop (u s) (hs : Keeps s₀ s) {w : State} (eq : execNop u s = .next w) : Keeps s₀ w := by
  unfold execNop at eq
  injection eq with eq
  subst eq
  repeat' (first
    | (with_reducible assumption) | (with_reducible intro _) | (with_reducible apply keeps_runHead)
    | (with_reducible apply keeps_foldl) | (with_reducible apply keeps_id) | (extract_lets) | (split)
    | (with_reducible apply keeps_ite) | (dsimp -zeta only) | (dsimp -zeta +zetaDelta only))

theorem keeps_operandReadError (ch op t s) (hs : Keeps s₀ s) : Keeps s₀ (operandReadError ch op t s) := by
  unfold operandReadError
  repeat' (first
    | (with_reducible assumption) | (with_reducible intro _) | (with_reducible apply keeps_settle)
    | (with_reducible apply keeps_runIssued) | (with_reducible apply keeps_blockThere)
    | (with_reducible apply keeps_State_setEcc) | (with_reducible apply keeps_foldl) | (with_reducible apply keeps_id)
    | (extract_lets) | (split) | (with_reducible apply keeps_ite) | (dsimp -zeta only) | (dsimp -zeta +zetaDelta only))

theorem keeps_execOperandReadError (ch op t s) (hs : Keeps s₀ s) {w : State} (eq : execOperandReadError ch op t s = .next w) : Keeps s₀ w := by
  unfold execOperandReadError at eq
  injection eq with eq
  subst eq
  repeat' (first
    | (with_reducible assumption) | (with_reducible intro _) | (with_reducible apply keeps_operandReadError)
    | (with_reducible apply keeps_foldl) | (with_reducible apply keeps_id) | (extract_lets) | (split)
    | (with_reducible apply keeps_ite) | (dsimp -zeta only) | (dsimp -zeta +zetaDelta only))

theorem keeps_permuteRelease (u s) (hs : Keeps s₀ s) : Keeps s₀ (permuteRelease u s) := by
  unfold permuteRelease
  repeat' (first
    | (with_reducible assumption) | (with_reducible intro _) | (with_reducible apply keeps_wakeStores)
    | (with_reducible apply keeps_settle) | (with_reducible apply keeps_startEnt) | (with_reducible apply keeps_foldl)
    | (with_reducible apply keeps_id) | (extract_lets) | (split) | (with_reducible apply keeps_ite) | (dsimp -zeta only)
    | (dsimp -zeta +zetaDelta only))

theorem keeps_execPermuteRelease (u s) (hs : Keeps s₀ s) {w : State} (eq : execPermuteRelease u s = .next w) : Keeps s₀ w := by
  unfold execPermuteRelease at eq
  injection eq with eq
  subst eq
  repeat' (first
    | (with_reducible assumption) | (with_reducible intro _) | (with_reducible apply keeps_permuteRelease)
    | (with_reducible apply keeps_foldl) | (with_reducible apply keeps_id) | (extract_lets) | (split)
    | (with_reducible apply keeps_ite) | (dsimp -zeta only) | (dsimp -zeta +zetaDelta only))

theorem keeps_permuteTimeout (u s) (hs : Keeps s₀ s) : Keeps s₀ (permuteTimeout u s) := by
  unfold permuteTimeout
  repeat' (first
    | (with_reducible assumption) | (with_reducible intro _) | (with_reducible apply keeps_onTimeout)
    | (with_reducible apply keeps_settle) | (with_reducible apply keeps_finish) | (with_reducible apply keeps_foldl)
    | (with_reducible apply keeps_id) | (extract_lets) | (split) | (with_reducible apply keeps_ite) | (dsimp -zeta only)
    | (dsimp -zeta +zetaDelta only))

theorem keeps_execPermuteTimeout (u s) (hs : Keeps s₀ s) {w : State} (eq : execPermuteTimeout u s = .next w) : Keeps s₀ w := by
  unfold execPermuteTimeout at eq
  injection eq with eq
  subst eq
  repeat' (first
    | (with_reducible assumption) | (with_reducible intro _) | (with_reducible apply keeps_permuteTimeout)
    | (with_reducible apply keeps_foldl) | (with_reducible apply keeps_id) | (extract_lets) | (split)
    | (with_reducible apply keeps_ite) | (dsimp -zeta only) | (dsimp -zeta +zetaDelta only))

theorem keeps_redscatTakeTile (u t s) (hs : Keeps s₀ s) : Keeps s₀ (redscatTakeTile u t s) := by
  unfold redscatTakeTile
  repeat' (first
    | (with_reducible assumption) | (with_reducible intro _) | (with_reducible apply keeps_settle)
    | (with_reducible apply keeps_takeTile) | (with_reducible apply keeps_foldl) | (with_reducible apply keeps_id)
    | (extract_lets) | (split) | (with_reducible apply keeps_ite) | (dsimp -zeta only) | (dsimp -zeta +zetaDelta only))

theorem keeps_execRedscatTakeTile (u t s) (hs : Keeps s₀ s) {w : State} (eq : execRedscatTakeTile u t s = .next w) : Keeps s₀ w := by
  unfold execRedscatTakeTile at eq
  injection eq with eq
  subst eq
  repeat' (first
    | (with_reducible assumption) | (with_reducible intro _) | (with_reducible apply keeps_redscatTakeTile)
    | (with_reducible apply keeps_foldl) | (with_reducible apply keeps_id) | (extract_lets) | (split)
    | (with_reducible apply keeps_ite) | (dsimp -zeta only) | (dsimp -zeta +zetaDelta only))

theorem keeps_redscatTimeout (u s) (hs : Keeps s₀ s) : Keeps s₀ (redscatTimeout u s) := by
  unfold redscatTimeout
  repeat' (first
    | (with_reducible assumption) | (with_reducible intro _) | (with_reducible apply keeps_onTimeout)
    | (with_reducible apply keeps_settle) | (with_reducible apply keeps_finish) | (with_reducible apply keeps_foldl)
    | (with_reducible apply keeps_id) | (extract_lets) | (split) | (with_reducible apply keeps_ite) | (dsimp -zeta only)
    | (dsimp -zeta +zetaDelta only))

theorem keeps_execRedscatTimeout (u s) (hs : Keeps s₀ s) {w : State} (eq : execRedscatTimeout u s = .next w) : Keeps s₀ w := by
  unfold execRedscatTimeout at eq
  injection eq with eq
  subst eq
  repeat' (first
    | (with_reducible assumption) | (with_reducible intro _) | (with_reducible apply keeps_redscatTimeout)
    | (with_reducible apply keeps_foldl) | (with_reducible apply keeps_id) | (extract_lets) | (split)
    | (with_reducible apply keeps_ite) | (dsimp -zeta only) | (dsimp -zeta +zetaDelta only))

theorem keeps_shadowLoadDone (ch s) (hs : Keeps s₀ s) : Keeps s₀ (shadowLoadDone ch s) := by
  unfold shadowLoadDone
  repeat' (first
    | (with_reducible assumption) | (with_reducible intro _) | (with_reducible apply keeps_settle)
    | (with_reducible apply keeps_runIssued) | (with_reducible apply keeps_blockThere) | (with_reducible apply keeps_foldl)
    | (with_reducible apply keeps_id) | (extract_lets) | (split) | (with_reducible apply keeps_ite) | (dsimp -zeta only)
    | (dsimp -zeta +zetaDelta only))

theorem keeps_execShadowLoadDone (ch s) (hs : Keeps s₀ s) {w : State} (eq : execShadowLoadDone ch s = .next w) : Keeps s₀ w := by
  unfold execShadowLoadDone at eq
  injection eq with eq
  subst eq
  repeat' (first
    | (with_reducible assumption) | (with_reducible intro _) | (with_reducible apply keeps_shadowLoadDone)
    | (with_reducible apply keeps_foldl) | (with_reducible apply keeps_id) | (extract_lets) | (split)
    | (with_reducible apply keeps_ite) | (dsimp -zeta only) | (dsimp -zeta +zetaDelta only))

theorem keeps_shareEnd (d p s) (hs : Keeps s₀ s) : Keeps s₀ (shareEnd d p s) := by
  unfold shareEnd
  repeat' (first
    | (with_reducible assumption) | (with_reducible intro _)
    | (refine keeps_convertCombined _ _ _ _ ?_ (by with_reducible assumption)) | (with_reducible apply keeps_finish)
    | (with_reducible apply keeps_State_when) | (with_reducible apply keeps_scrambleOut)
    | (with_reducible apply keeps_State_bump) | (with_reducible apply keeps_updEnt)
    | (with_reducible apply keeps_convertCombined_fst) | (with_reducible apply keeps_countExhausted)
    | (with_reducible apply keeps_wholeWritten) | (with_reducible apply keeps_foldl) | (with_reducible apply keeps_id)
    | (extract_lets) | (split) | (with_reducible apply keeps_ite) | (dsimp -zeta only) | (dsimp -zeta +zetaDelta only))

theorem keeps_shareComplete (member stream seq s) (hs : Keeps s₀ s) : Keeps s₀ (shareComplete member stream seq s) := by
  unfold shareComplete
  repeat' (first
    | (with_reducible assumption) | (with_reducible intro _) | (with_reducible apply keeps_dropShare)
    | (with_reducible apply keeps_scrambleOut) | (with_reducible apply keeps_updEnt)
    | (with_reducible apply keeps_State_when) | (with_reducible apply keeps_logItem) | (with_reducible apply keeps_settle)
    | (with_reducible apply keeps_shareEnd) | (with_reducible apply keeps_foldl) | (with_reducible apply keeps_id)
    | (extract_lets) | (split) | (with_reducible apply keeps_ite) | (dsimp -zeta only) | (dsimp -zeta +zetaDelta only))

theorem keeps_execShareComplete (member stream seq s) (hs : Keeps s₀ s) {w : State} (eq : execShareComplete member stream seq s = .next w) : Keeps s₀ w := by
  unfold execShareComplete at eq
  injection eq with eq
  subst eq
  repeat' (first
    | (with_reducible assumption) | (with_reducible intro _) | (with_reducible apply keeps_shareComplete)
    | (with_reducible apply keeps_foldl) | (with_reducible apply keeps_id) | (extract_lets) | (split)
    | (with_reducible apply keeps_ite) | (dsimp -zeta only) | (dsimp -zeta +zetaDelta only))

theorem keeps_execTierHint (u s) (hs : Keeps s₀ s) {w : State} (eq : execTierHint u s = .next w) : Keeps s₀ w := by
  unfold execTierHint at eq
  injection eq with eq
  subst eq
  repeat' (first
    | (with_reducible assumption) | (with_reducible intro _) | (with_reducible apply keeps_runHead)
    | (with_reducible apply keeps_foldl) | (with_reducible apply keeps_id) | (extract_lets) | (split)
    | (with_reducible apply keeps_ite) | (dsimp -zeta only) | (dsimp -zeta +zetaDelta only))

theorem keeps_tokenTimeout (u s) (hs : Keeps s₀ s) : Keeps s₀ (tokenTimeout u s) := by
  unfold tokenTimeout
  repeat' (first
    | (with_reducible assumption) | (with_reducible intro _) | (with_reducible apply keeps_onTimeout)
    | (with_reducible apply keeps_settle) | (with_reducible apply keeps_finish) | (with_reducible apply keeps_foldl)
    | (with_reducible apply keeps_id) | (extract_lets) | (split) | (with_reducible apply keeps_ite) | (dsimp -zeta only)
    | (dsimp -zeta +zetaDelta only))

theorem keeps_execTokenTimeout (u s) (hs : Keeps s₀ s) {w : State} (eq : execTokenTimeout u s = .next w) : Keeps s₀ w := by
  unfold execTokenTimeout at eq
  injection eq with eq
  subst eq
  repeat' (first
    | (with_reducible assumption) | (with_reducible intro _) | (with_reducible apply keeps_tokenTimeout)
    | (with_reducible apply keeps_foldl) | (with_reducible apply keeps_id) | (extract_lets) | (split)
    | (with_reducible apply keeps_ite) | (dsimp -zeta only) | (dsimp -zeta +zetaDelta only))

theorem keeps_execVecFma (u s) (hs : Keeps s₀ s) {w : State} (eq : execVecFma u s = .next w) : Keeps s₀ w := by
  unfold execVecFma at eq
  injection eq with eq
  subst eq
  repeat' (first
    | (with_reducible assumption) | (with_reducible intro _) | (with_reducible apply keeps_runHead)
    | (with_reducible apply keeps_foldl) | (with_reducible apply keeps_id) | (extract_lets) | (split)
    | (with_reducible apply keeps_ite) | (dsimp -zeta only) | (dsimp -zeta +zetaDelta only))

theorem keeps_execVecMap1 (u s) (hs : Keeps s₀ s) {w : State} (eq : execVecMap1 u s = .next w) : Keeps s₀ w := by
  unfold execVecMap1 at eq
  injection eq with eq
  subst eq
  repeat' (first
    | (with_reducible assumption) | (with_reducible intro _) | (with_reducible apply keeps_runHead)
    | (with_reducible apply keeps_foldl) | (with_reducible apply keeps_id) | (extract_lets) | (split)
    | (with_reducible apply keeps_ite) | (dsimp -zeta only) | (dsimp -zeta +zetaDelta only))

theorem keeps_execVecMap2 (u s) (hs : Keeps s₀ s) {w : State} (eq : execVecMap2 u s = .next w) : Keeps s₀ w := by
  unfold execVecMap2 at eq
  injection eq with eq
  subst eq
  repeat' (first
    | (with_reducible assumption) | (with_reducible intro _) | (with_reducible apply keeps_runHead)
    | (with_reducible apply keeps_foldl) | (with_reducible apply keeps_id) | (extract_lets) | (split)
    | (with_reducible apply keeps_ite) | (dsimp -zeta only) | (dsimp -zeta +zetaDelta only))

theorem keeps_execVecMask (u s) (hs : Keeps s₀ s) {w : State} (eq : execVecMask u s = .next w) : Keeps s₀ w := by
  unfold execVecMask at eq
  injection eq with eq
  subst eq
  repeat' (first
    | (with_reducible assumption) | (with_reducible intro _) | (with_reducible apply keeps_runHead)
    | (with_reducible apply keeps_foldl) | (with_reducible apply keeps_id) | (extract_lets) | (split)
    | (with_reducible apply keeps_ite) | (dsimp -zeta only) | (dsimp -zeta +zetaDelta only))

theorem keeps_execVecReduce (u s) (hs : Keeps s₀ s) {w : State} (eq : execVecReduce u s = .next w) : Keeps s₀ w := by
  unfold execVecReduce at eq
  injection eq with eq
  subst eq
  repeat' (first
    | (with_reducible assumption) | (with_reducible intro _) | (with_reducible apply keeps_runHead)
    | (with_reducible apply keeps_foldl) | (with_reducible apply keeps_id) | (extract_lets) | (split)
    | (with_reducible apply keeps_ite) | (dsimp -zeta only) | (dsimp -zeta +zetaDelta only))

theorem keeps_execVecSoftmax (u s) (hs : Keeps s₀ s) {w : State} (eq : execVecSoftmax u s = .next w) : Keeps s₀ w := by
  unfold execVecSoftmax at eq
  injection eq with eq
  subst eq
  repeat' (first
    | (with_reducible assumption) | (with_reducible intro _) | (with_reducible apply keeps_runHead)
    | (with_reducible apply keeps_foldl) | (with_reducible apply keeps_id) | (extract_lets) | (split)
    | (with_reducible apply keeps_ite) | (dsimp -zeta only) | (dsimp -zeta +zetaDelta only))

theorem keeps_execVecTopk (u s) (hs : Keeps s₀ s) {w : State} (eq : execVecTopk u s = .next w) : Keeps s₀ w := by
  unfold execVecTopk at eq
  injection eq with eq
  subst eq
  repeat' (first
    | (with_reducible assumption) | (with_reducible intro _) | (with_reducible apply keeps_runHead)
    | (with_reducible apply keeps_foldl) | (with_reducible apply keeps_id) | (extract_lets) | (split)
    | (with_reducible apply keeps_ite) | (dsimp -zeta only) | (dsimp -zeta +zetaDelta only))

end Sys2Proof.Machine.Laws
end

