-- ==== Sys2Proof/Laws/KeepsCoreOps.lean ====
section
/-! SUPPORT. Every definition of Sys2Proof/Machine/CoreOps.lean keeps what `Keeps` names. -/

namespace Sys2Proof.Machine.Laws

variable {s₀ : State}

theorem keeps_State_setCoreEcc (s a v) (hs : Keeps s₀ s) : Keeps s₀ (State.setCoreEcc s a v) := by
  unfold State.setCoreEcc
  repeat' (first
    | (with_reducible assumption) | (with_reducible intro _) | (with_reducible apply keeps_foldl)
    | (with_reducible apply keeps_id) | (extract_lets) | (split) | (with_reducible apply keeps_ite) | (dsimp -zeta only)
    | (dsimp -zeta +zetaDelta only) | (with_reducible apply keeps_with_ecc) | (with_reducible apply keeps_upd)
    | (exact Nat.le_refl _) | rfl | (exact Nat.le_add_right _ _) | (exact SMap.wf_filter _ (by with_reducible assumption) _))

theorem keeps_atEdge (u source path i fail act s) (hfail : ∀ s, Keeps s₀ s → Keeps s₀ (fail s)) (hact : ∀ s, Keeps s₀ s → Keeps s₀ (act s)) (hs : Keeps s₀ s) : Keeps s₀ (atEdge u source path i fail act s) := by
  unfold atEdge
  repeat' (first
    | (with_reducible assumption) | (with_reducible intro _) | (with_reducible apply keeps_startWake)
    | (with_reducible apply keeps_foldl) | (with_reducible apply keeps_id) | (apply hfail) | (apply hact) | (extract_lets)
    | (split) | (with_reducible apply keeps_ite) | (dsimp -zeta only) | (dsimp -zeta +zetaDelta only)
    | (with_reducible apply keeps_with_edge) | (with_reducible apply keeps_upd) | (exact Nat.le_refl _) | rfl
    | (exact Nat.le_add_right _ _) | (exact SMap.wf_filter _ (by with_reducible assumption) _))

theorem keeps_freeStream (id s) (hs : Keeps s₀ s) : Keeps s₀ (freeStream id s) := by
  unfold freeStream
  repeat' (first
    | (with_reducible assumption) | (with_reducible intro _) | (with_reducible apply keeps_State_setStream)
    | (with_reducible apply keeps_State_setRegN) | (with_reducible apply keeps_foldl) | (with_reducible apply keeps_id)
    | (extract_lets) | (split) | (with_reducible apply keeps_ite) | (dsimp -zeta only) | (dsimp -zeta +zetaDelta only)
    | (with_reducible apply keeps_with_vectors) | (with_reducible apply keeps_upd) | (exact Nat.le_refl _) | rfl
    | (exact Nat.le_add_right _ _) | (exact SMap.wf_filter _ (by with_reducible assumption) _))

theorem keeps_dropTrapRec (ch s) (hs : Keeps s₀ s) : Keeps s₀ (dropTrapRec ch s) := by
  unfold dropTrapRec
  repeat' (first
    | (with_reducible assumption) | (with_reducible intro _) | (with_reducible apply keeps_State_each)
    | (with_reducible apply keeps_freeStream) | (with_reducible apply keeps_State_setStream)
    | (with_reducible apply keeps_foldl) | (with_reducible apply keeps_id) | (extract_lets) | (split)
    | (with_reducible apply keeps_ite) | (dsimp -zeta only) | (dsimp -zeta +zetaDelta only))

theorem keeps_retireAt (time ch w next dst rec kick s) (hs : Keeps s₀ s) : Keeps s₀ (retireAt time ch w next dst rec kick s) := by
  unfold retireAt
  repeat' (first
    | (with_reducible assumption) | (with_reducible intro _) | (with_reducible apply keeps_State_setCore)
    | (with_reducible apply keeps_State_when) | (with_reducible apply keeps_emitTrace) | (with_reducible apply keeps_foldl)
    | (with_reducible apply keeps_id) | (extract_lets) | (split) | (with_reducible apply keeps_ite) | (dsimp -zeta only)
    | (dsimp -zeta +zetaDelta only))

theorem keeps_endWait (ch cause s) (hs : Keeps s₀ s) : Keeps s₀ (endWait ch cause s) := by
  unfold endWait
  repeat' (first
    | (with_reducible assumption) | (with_reducible intro _) | (with_reducible apply keeps_State_setCore)
    | (with_reducible apply keeps_retireAt) | (with_reducible apply keeps_foldl) | (with_reducible apply keeps_id)
    | (extract_lets) | (split) | (with_reducible apply keeps_ite) | (dsimp -zeta only) | (dsimp -zeta +zetaDelta only))

theorem keeps_lossHold (ch f s) (hf : ∀ s, Keeps s₀ s → Keeps s₀ (f s)) (hs : Keeps s₀ s) : Keeps s₀ (lossHold ch f s) := by
  unfold lossHold
  repeat' (first
    | (with_reducible assumption) | (with_reducible intro _) | (with_reducible apply keeps_foldl)
    | (with_reducible apply keeps_id) | (apply hf) | (extract_lets) | (split) | (with_reducible apply keeps_ite)
    | (dsimp -zeta only) | (dsimp -zeta +zetaDelta only))

theorem keeps_endWaits (ch s) (hs : Keeps s₀ s) : Keeps s₀ (endWaits ch s) := by
  unfold endWaits
  repeat' (first
    | (with_reducible assumption) | (with_reducible intro _) | (with_reducible apply keeps_lossHold)
    | (with_reducible apply keeps_endWait) | (with_reducible apply keeps_foldl) | (with_reducible apply keeps_id)
    | (extract_lets) | (split) | (with_reducible apply keeps_ite) | (dsimp -zeta only) | (dsimp -zeta +zetaDelta only))

theorem keeps_freshCore (a s) (hs : Keeps s₀ s) : Keeps s₀ (freshCore a s) := by
  unfold freshCore
  repeat' (first
    | (with_reducible assumption) | (with_reducible intro _) | (with_reducible apply keeps_foldl)
    | (with_reducible apply keeps_id) | (extract_lets) | (split) | (with_reducible apply keeps_ite) | (dsimp -zeta only)
    | (dsimp -zeta +zetaDelta only) | (with_reducible apply keeps_with_ecc) | (with_reducible apply keeps_upd)
    | (exact Nat.le_refl _) | rfl | (exact Nat.le_add_right _ _) | (exact SMap.wf_filter _ (by with_reducible assumption) _))

theorem keeps_haltCore (ch s) (hs : Keeps s₀ s) : Keeps s₀ (haltCore ch s) := by
  unfold haltCore
  repeat' (first
    | (with_reducible assumption) | (with_reducible intro _) | (with_reducible apply keeps_dropTrapRec)
    | (with_reducible apply keeps_State_setCore) | (with_reducible apply keeps_foldl) | (with_reducible apply keeps_id)
    | (extract_lets) | (split) | (with_reducible apply keeps_ite) | (dsimp -zeta only) | (dsimp -zeta +zetaDelta only))

theorem keeps_hostWakeFail (u s) (hs : Keeps s₀ s) : Keeps s₀ (hostWakeFail u s) := by
  unfold hostWakeFail
  repeat' (first
    | (with_reducible assumption) | (with_reducible intro _) | (with_reducible apply keeps_logStatus)
    | (with_reducible apply keeps_countWakeTo) | (with_reducible apply keeps_foldl) | (with_reducible apply keeps_id)
    | (extract_lets) | (split) | (with_reducible apply keeps_ite) | (dsimp -zeta only) | (dsimp -zeta +zetaDelta only))

theorem keeps_resetCore (ch s) (hs : Keeps s₀ s) : Keeps s₀ (resetCore ch s) := by
  unfold resetCore
  repeat' (first
    | (with_reducible assumption) | (with_reducible intro _) | (with_reducible apply keeps_haltCore)
    | (with_reducible apply keeps_State_setCore) | (with_reducible apply keeps_foldl) | (with_reducible apply keeps_id)
    | (extract_lets) | (split) | (with_reducible apply keeps_ite) | (dsimp -zeta only) | (dsimp -zeta +zetaDelta only))

theorem keeps_retire (ch w next dst rec kick s) (hs : Keeps s₀ s) : Keeps s₀ (retire ch w next dst rec kick s) := by
  unfold retire
  repeat' (first
    | (with_reducible assumption) | (with_reducible intro _) | (with_reducible apply keeps_retireAt)
    | (with_reducible apply keeps_foldl) | (with_reducible apply keeps_id) | (extract_lets) | (split)
    | (with_reducible apply keeps_ite) | (dsimp -zeta only) | (dsimp -zeta +zetaDelta only))

theorem keeps_retireNext (ch w dst rec kick s) (hs : Keeps s₀ s) : Keeps s₀ (retireNext ch w dst rec kick s) := by
  unfold retireNext
  repeat' (first
    | (with_reducible assumption) | (with_reducible intro _) | (with_reducible apply keeps_retire)
    | (with_reducible apply keeps_foldl) | (with_reducible apply keeps_id) | (extract_lets) | (split)
    | (with_reducible apply keeps_ite) | (dsimp -zeta only) | (dsimp -zeta +zetaDelta only))

theorem keeps_stallCore (ch code s) (hs : Keeps s₀ s) : Keeps s₀ (stallCore ch code s) := by
  unfold stallCore
  repeat' (first
    | (with_reducible assumption) | (with_reducible intro _) | (with_reducible apply keeps_State_setCore)
    | (with_reducible apply keeps_foldl) | (with_reducible apply keeps_id) | (extract_lets) | (split)
    | (with_reducible apply keeps_ite) | (dsimp -zeta only) | (dsimp -zeta +zetaDelta only))

theorem keeps_takeTrap (ch cause s) (hs : Keeps s₀ s) : Keeps s₀ (takeTrap ch cause s) := by
  unfold takeTrap
  repeat' (first
    | (with_reducible assumption) | (with_reducible intro _) | (with_reducible apply keeps_dropTrapRec)
    | (with_reducible apply keeps_State_when) | (with_reducible apply keeps_colAppend)
    | (with_reducible apply keeps_State_bump) | (with_reducible apply keeps_emitTrace)
    | (with_reducible apply keeps_State_setFld) | (with_reducible apply keeps_raiseEv)
    | (with_reducible apply keeps_State_setCore) | (with_reducible apply keeps_foldl) | (with_reducible apply keeps_id)
    | (extract_lets) | (split) | (with_reducible apply keeps_ite) | (dsimp -zeta only) | (dsimp -zeta +zetaDelta only)
    | (with_reducible apply keeps_with_cask) | (with_reducible apply keeps_upd) | (exact Nat.le_refl _) | rfl
    | (exact Nat.le_add_right _ _) | (exact SMap.wf_filter _ (by with_reducible assumption) _))

end Sys2Proof.Machine.Laws
end

