-- ==== Sys2Proof/Laws/KeepsStreams.lean ====
section
/-! SUPPORT. Every definition of Sys2Proof/Machine/Streams.lean keeps what `Keeps` names. -/

namespace Sys2Proof.Machine.Laws

variable {s₀ : State}

theorem keeps_noteHolds (id s) (hs : Keeps s₀ s) : Keeps s₀ (noteHolds id s) := by
  unfold noteHolds
  repeat' (first
    | (with_reducible assumption) | (with_reducible intro _) | (with_reducible apply keeps_State_setStream)
    | (with_reducible apply keeps_raiseEv) | (with_reducible apply keeps_foldl) | (with_reducible apply keeps_id)
    | (extract_lets) | (split) | (with_reducible apply keeps_ite) | (dsimp -zeta only) | (dsimp -zeta +zetaDelta only))

theorem keeps_pushFree (r s) (hs : Keeps s₀ s) : Keeps s₀ (pushFree r s) := by
  unfold pushFree
  repeat' (first
    | (with_reducible assumption) | (with_reducible intro _) | (with_reducible apply keeps_noteHolds)
    | (with_reducible apply keeps_pushRec) | (with_reducible apply keeps_foldl) | (with_reducible apply keeps_id)
    | (extract_lets) | (split) | (with_reducible apply keeps_ite) | (dsimp -zeta only) | (dsimp -zeta +zetaDelta only))

theorem keeps_dropUnfetched (id status s) (hs : Keeps s₀ s) : Keeps s₀ (dropUnfetched id status s) := by
  unfold dropUnfetched
  repeat' (first
    | (with_reducible assumption) | (with_reducible intro _) | (with_reducible apply keeps_State_setStream)
    | (with_reducible apply keeps_pushFree) | (with_reducible apply keeps_satisfyAll) | (with_reducible apply keeps_tokenOut)
    | (with_reducible apply keeps_foldl) | (with_reducible apply keeps_id) | (extract_lets) | (split)
    | (with_reducible apply keeps_ite) | (dsimp -zeta only) | (dsimp -zeta +zetaDelta only))

theorem keeps_dropAll (id status s) (hs : Keeps s₀ s) : Keeps s₀ (dropAll id status s) := by
  unfold dropAll
  repeat' (first
    | (with_reducible assumption) | (with_reducible intro _) | (with_reducible apply keeps_State_each)
    | (with_reducible apply keeps_dropUnfetched) | (with_reducible apply keeps_foldl) | (with_reducible apply keeps_id)
    | (extract_lets) | (split) | (with_reducible apply keeps_ite) | (dsimp -zeta only) | (dsimp -zeta +zetaDelta only))

theorem keeps_abortStream (id s) (hs : Keeps s₀ s) : Keeps s₀ (abortStream id s) := by
  unfold abortStream
  repeat' (first
    | (with_reducible assumption) | (with_reducible intro _) | (with_reducible apply keeps_dropAll)
    | (with_reducible apply keeps_State_setStream) | (with_reducible apply keeps_foldl) | (with_reducible apply keeps_id)
    | (extract_lets) | (split) | (with_reducible apply keeps_ite) | (dsimp -zeta only) | (dsimp -zeta +zetaDelta only))

theorem keeps_setErr (id code s) (hs : Keeps s₀ s) : Keeps s₀ (setErr id code s) := by
  unfold setErr
  repeat' (first
    | (with_reducible assumption) | (with_reducible intro _) | (with_reducible apply keeps_State_setStream)
    | (with_reducible apply keeps_foldl) | (with_reducible apply keeps_id) | (extract_lets) | (split)
    | (with_reducible apply keeps_ite) | (dsimp -zeta only) | (dsimp -zeta +zetaDelta only))

theorem keeps_freshSince (id s) (hs : Keeps s₀ s) : Keeps s₀ (freshSince id s) := by
  unfold freshSince
  repeat' (first
    | (with_reducible assumption) | (with_reducible intro _) | (with_reducible apply keeps_noteHolds)
    | (with_reducible apply keeps_State_setStream) | (with_reducible apply keeps_foldl) | (with_reducible apply keeps_id)
    | (extract_lets) | (split) | (with_reducible apply keeps_ite) | (dsimp -zeta only) | (dsimp -zeta +zetaDelta only))

theorem keeps_activateStream (id s) (hs : Keeps s₀ s) : Keeps s₀ (activateStream id s) := by
  unfold activateStream
  repeat' (first
    | (with_reducible assumption) | (with_reducible intro _) | (with_reducible apply keeps_setErr)
    | (with_reducible apply keeps_freshSince) | (with_reducible apply keeps_State_setStream)
    | (with_reducible apply keeps_foldl) | (with_reducible apply keeps_id) | (extract_lets) | (split)
    | (with_reducible apply keeps_ite) | (dsimp -zeta only) | (dsimp -zeta +zetaDelta only))

theorem keeps_allocResult (fn stream status s) (hs : Keeps s₀ s) : Keeps s₀ (allocResult fn stream status s) := by
  unfold allocResult
  repeat' (first
    | (with_reducible assumption) | (with_reducible intro _) | (with_reducible apply keeps_State_setRegN)
    | (with_reducible apply keeps_foldl) | (with_reducible apply keeps_id) | (extract_lets) | (split)
    | (with_reducible apply keeps_ite) | (dsimp -zeta only) | (dsimp -zeta +zetaDelta only))

theorem keeps_grantStream (fn id job prio s) (hs : Keeps s₀ s) : Keeps s₀ (grantStream fn id job prio s) := by
  unfold grantStream
  repeat' (first
    | (with_reducible assumption) | (with_reducible intro _) | (with_reducible apply keeps_State_setStream)
    | (with_reducible apply keeps_State_each) | (with_reducible apply keeps_State_setRegN)
    | (with_reducible apply keeps_State_bump) | (with_reducible apply keeps_State_when)
    | (with_reducible apply keeps_allocResult) | (with_reducible apply keeps_raiseEv) | (with_reducible apply keeps_foldl)
    | (with_reducible apply keeps_id) | (extract_lets) | (split) | (with_reducible apply keeps_ite) | (dsimp -zeta only)
    | (dsimp -zeta +zetaDelta only))

theorem keeps_allocOutcome (fn v s) (hs : Keeps s₀ s) : Keeps s₀ (allocOutcome fn v s) := by
  unfold allocOutcome
  repeat' (first
    | (with_reducible assumption) | (with_reducible intro _) | (with_reducible apply keeps_raiseEv)
    | (with_reducible apply keeps_allocResult) | (with_reducible apply keeps_State_bump)
    | (with_reducible apply keeps_grantStream) | (with_reducible apply keeps_foldl) | (with_reducible apply keeps_id)
    | (extract_lets) | (split) | (with_reducible apply keeps_ite) | (dsimp -zeta only) | (dsimp -zeta +zetaDelta only))

theorem keeps_drainStream (id s) (hs : Keeps s₀ s) : Keeps s₀ (drainStream id s) := by
  unfold drainStream
  repeat' (first
    | (with_reducible assumption) | (with_reducible intro _) | (with_reducible apply keeps_dropAll)
    | (with_reducible apply keeps_State_setStream) | (with_reducible apply keeps_freeStream)
    | (with_reducible apply keeps_foldl) | (with_reducible apply keeps_id) | (extract_lets) | (split)
    | (with_reducible apply keeps_ite) | (dsimp -zeta only) | (dsimp -zeta +zetaDelta only))

theorem keeps_closeStream (id s) (hs : Keeps s₀ s) : Keeps s₀ (closeStream id s) := by
  unfold closeStream
  repeat' (first
    | (with_reducible assumption) | (with_reducible intro _) | (with_reducible apply keeps_drainStream)
    | (with_reducible apply keeps_setErr) | (with_reducible apply keeps_foldl) | (with_reducible apply keeps_id)
    | (extract_lets) | (split) | (with_reducible apply keeps_ite) | (dsimp -zeta only) | (dsimp -zeta +zetaDelta only))

theorem keeps_completeNear (u c issuer status s) (hs : Keeps s₀ s) : Keeps s₀ (completeNear u c issuer status s) := by
  unfold completeNear
  repeat' (first
    | (with_reducible assumption) | (with_reducible intro _) | (with_reducible apply keeps_State_setQ)
    | (with_reducible apply keeps_release) | (with_reducible apply keeps_foldl) | (with_reducible apply keeps_id)
    | (extract_lets) | (split) | (with_reducible apply keeps_ite) | (dsimp -zeta only) | (dsimp -zeta +zetaDelta only))

theorem keeps_irqSend (fn vec s) (hs : Keeps s₀ s) : Keeps s₀ (irqSend fn vec s) := by
  unfold irqSend
  repeat' (first
    | (with_reducible assumption) | (with_reducible intro _) | (with_reducible apply keeps_sendVector)
    | (with_reducible apply keeps_foldl) | (with_reducible apply keeps_id) | (extract_lets) | (split)
    | (with_reducible apply keeps_ite) | (dsimp -zeta only) | (dsimp -zeta +zetaDelta only)
    | (with_reducible apply keeps_with_irqs) | (with_reducible apply keeps_upd) | (exact Nat.le_refl _) | rfl
    | (exact Nat.le_add_right _ _) | (exact SMap.wf_filter _ (by with_reducible assumption) _))

theorem keeps_irqPend (id s) (hs : Keeps s₀ s) : Keeps s₀ (irqPend id s) := by
  unfold irqPend
  repeat' (first
    | (with_reducible assumption) | (with_reducible intro _) | (with_reducible apply keeps_irqSend)
    | (with_reducible apply keeps_foldl) | (with_reducible apply keeps_id) | (extract_lets) | (split)
    | (with_reducible apply keeps_ite) | (dsimp -zeta only) | (dsimp -zeta +zetaDelta only)
    | (with_reducible apply keeps_with_irqs) | (with_reducible apply keeps_upd) | (exact Nat.le_refl _) | rfl
    | (exact Nat.le_add_right _ _) | (exact SMap.wf_filter _ (by with_reducible assumption) _))

theorem keeps_trapWritten (ch s) (hs : Keeps s₀ s) : Keeps s₀ (trapWritten ch s) := by
  unfold trapWritten
  repeat' (first
    | (with_reducible assumption) | (with_reducible intro _) | (with_reducible apply keeps_retireNext)
    | (with_reducible apply keeps_raiseEv) | (with_reducible apply keeps_State_setCore) | (with_reducible apply keeps_foldl)
    | (with_reducible apply keeps_id) | (extract_lets) | (split) | (with_reducible apply keeps_ite) | (dsimp -zeta only)
    | (dsimp -zeta +zetaDelta only))

theorem keeps_writeRecord (id r s) (hs : Keeps s₀ s) : Keeps s₀ (writeRecord id r s) := by
  unfold writeRecord
  repeat' (first
    | (with_reducible assumption) | (with_reducible intro _) | (with_reducible apply keeps_fixedWrite)
    | (with_reducible apply keeps_State_setStream) | (with_reducible apply keeps_State_setRegN)
    | (with_reducible apply keeps_State_when) | (with_reducible apply keeps_irqPend) | (with_reducible apply keeps_lossHold)
    | (with_reducible apply keeps_trapWritten) | (with_reducible apply keeps_freeStream)
    | (with_reducible apply keeps_freshSince) | (with_reducible apply keeps_foldl) | (with_reducible apply keeps_id)
    | (extract_lets) | (split) | (with_reducible apply keeps_ite) | (dsimp -zeta only) | (dsimp -zeta +zetaDelta only)
    | (with_reducible apply keeps_with_recAt) | (with_reducible apply keeps_upd) | (exact Nat.le_refl _) | rfl
    | (exact Nat.le_add_right _ _) | (exact SMap.wf_filter _ (by with_reducible assumption) _))

theorem keeps_completionRecordWrite (id s) (hs : Keeps s₀ s) : Keeps s₀ (completionRecordWrite id s) := by
  unfold completionRecordWrite
  repeat' (first
    | (with_reducible assumption) | (with_reducible intro _) | (with_reducible apply keeps_writeRecord)
    | (with_reducible apply keeps_foldl) | (with_reducible apply keeps_id) | (extract_lets) | (split)
    | (with_reducible apply keeps_ite) | (dsimp -zeta only) | (dsimp -zeta +zetaDelta only))

theorem keeps_pauseStream (id s) (hs : Keeps s₀ s) : Keeps s₀ (pauseStream id s) := by
  unfold pauseStream
  repeat' (first
    | (with_reducible assumption) | (with_reducible intro _) | (with_reducible apply keeps_freshSince)
    | (with_reducible apply keeps_State_setStream) | (with_reducible apply keeps_setErr) | (with_reducible apply keeps_foldl)
    | (with_reducible apply keeps_id) | (extract_lets) | (split) | (with_reducible apply keeps_ite) | (dsimp -zeta only)
    | (dsimp -zeta +zetaDelta only))

theorem keeps_resumeStream (id s) (hs : Keeps s₀ s) : Keeps s₀ (resumeStream id s) := by
  unfold resumeStream
  repeat' (first
    | (with_reducible assumption) | (with_reducible intro _) | (with_reducible apply keeps_freshSince)
    | (with_reducible apply keeps_State_setStream) | (with_reducible apply keeps_setErr) | (with_reducible apply keeps_foldl)
    | (with_reducible apply keeps_id) | (extract_lets) | (split) | (with_reducible apply keeps_ite) | (dsimp -zeta only)
    | (dsimp -zeta +zetaDelta only))

theorem keeps_contextWrite (id w v s) (hs : Keeps s₀ s) : Keeps s₀ (contextWrite id w v s) := by
  unfold contextWrite
  repeat' (first
    | (with_reducible assumption) | (with_reducible intro _) | (with_reducible apply keeps_activateStream)
    | (with_reducible apply keeps_pauseStream) | (with_reducible apply keeps_resumeStream)
    | (with_reducible apply keeps_closeStream) | (with_reducible apply keeps_setErr)
    | (with_reducible apply keeps_State_setStream) | (with_reducible apply keeps_State_when)
    | (with_reducible apply keeps_foldl) | (with_reducible apply keeps_id) | (extract_lets) | (split)
    | (with_reducible apply keeps_ite) | (dsimp -zeta only) | (dsimp -zeta +zetaDelta only))

theorem keeps_reenterOne (h s) {t : State} (hs : Keeps s₀ s) (e : reenterOne h s = some t) : Keeps s₀ t := by
  have enter : ∀ u, Keeps s₀ u → Keeps s₀ (startWake h.unit 1 modulePath (u.setQ h.unit (u.q h.unit ++ [keptEnt h]))) := fun u hu =>
    keeps_startWake _ _ _ _ (keeps_State_setQ _ _ _ hu)
  unfold Sys2Proof.Machine.reenterOne at e
  dsimp only at e
  split at e
  · injection e with e; exact e ▸ enter _ hs
  · split at e
    · injection e with e; exact e ▸ enter _ (keeps_freshSince _ _ (keeps_State_setStream _ _ _ hs))
    · cases e

theorem keeps_reenterList_fst (l b s) (hs : Keeps s₀ s) : Keeps s₀ (reenterList l b s).1 := by
  induction l generalizing b s with
  | nil => exact hs
  | cons h l ih =>
    simp only [Sys2Proof.Machine.reenterList]
    split
    · next h =>
      split at h
      · cases h
      · exact ih _ _ (keeps_reenterOne _ _ hs h)
    · exact ih _ _ hs

theorem keeps_reenterList (l b s) {r} {t : State} (hs : Keeps s₀ s) (e : reenterList l b s = (t, r)) : Keeps s₀ t := by
  have := keeps_reenterList_fst l b s hs
  rwa [e] at this

theorem keeps_reenterHeld (s) (hs : Keeps s₀ s) : Keeps s₀ (reenterHeld s) := by
  unfold reenterHeld
  repeat' (first
    | (with_reducible assumption) | (with_reducible intro _)
    | (refine keeps_reenterList _ _ _ ?_ (by with_reducible assumption)) | (with_reducible apply keeps_reenterList_fst)
    | (with_reducible apply keeps_foldl) | (with_reducible apply keeps_id) | (extract_lets) | (split)
    | (with_reducible apply keeps_ite) | (dsimp -zeta only) | (dsimp -zeta +zetaDelta only)
    | (with_reducible apply keeps_with_cask) | (with_reducible apply keeps_upd) | (exact Nat.le_refl _) | rfl
    | (exact Nat.le_add_right _ _) | (exact SMap.wf_filter _ (by with_reducible assumption) _))

theorem keeps_refuseDoor (id code s) (hs : Keeps s₀ s) : Keeps s₀ (refuseDoor id code s) := by
  unfold refuseDoor
  repeat' (first
    | (with_reducible assumption) | (with_reducible intro _) | (with_reducible apply keeps_raiseEv)
    | (with_reducible apply keeps_State_bump) | (with_reducible apply keeps_setErr) | (with_reducible apply keeps_foldl)
    | (with_reducible apply keeps_id) | (extract_lets) | (split) | (with_reducible apply keeps_ite) | (dsimp -zeta only)
    | (dsimp -zeta +zetaDelta only))

theorem keeps_doorWake (id s) (hs : Keeps s₀ s) : Keeps s₀ (doorWake id s) := by
  unfold doorWake
  repeat' (first
    | (with_reducible assumption) | (with_reducible intro _) | (with_reducible apply keeps_startWake)
    | (with_reducible apply keeps_freshSince) | (with_reducible apply keeps_State_when)
    | (with_reducible apply keeps_wakeSource) | (with_reducible apply keeps_foldl) | (with_reducible apply keeps_id)
    | (extract_lets) | (split) | (with_reducible apply keeps_ite) | (dsimp -zeta only) | (dsimp -zeta +zetaDelta only))

theorem keeps_doorbell (id store fits s) (hstore : ∀ s, Keeps s₀ s → Keeps s₀ (store s)) (hs : Keeps s₀ s) : Keeps s₀ (doorbell id store fits s) := by
  unfold doorbell
  repeat' (first
    | (with_reducible assumption) | (with_reducible intro _) | (with_reducible apply keeps_refuseDoor)
    | (with_reducible apply keeps_doorWake) | (with_reducible apply keeps_foldl) | (with_reducible apply keeps_id)
    | (apply hstore) | (extract_lets) | (split) | (with_reducible apply keeps_ite) | (dsimp -zeta only)
    | (dsimp -zeta +zetaDelta only))

theorem keeps_cqDoorbell (id v s) (hs : Keeps s₀ s) : Keeps s₀ (cqDoorbell id v s) := by
  unfold cqDoorbell
  repeat' (first
    | (with_reducible assumption) | (with_reducible intro _) | (with_reducible apply keeps_reenterHeld)
    | (with_reducible apply keeps_doorbell) | (with_reducible apply keeps_State_setStream)
    | (with_reducible apply keeps_foldl) | (with_reducible apply keeps_id) | (extract_lets) | (split)
    | (with_reducible apply keeps_ite) | (dsimp -zeta only) | (dsimp -zeta +zetaDelta only))

theorem keeps_execCompletionRecordWrite (id s) (hs : Keeps s₀ s) {w : State} (eq : execCompletionRecordWrite id s = .next w) : Keeps s₀ w := by
  unfold execCompletionRecordWrite at eq
  injection eq with eq
  subst eq
  repeat' (first
    | (with_reducible assumption) | (with_reducible intro _)
    | (with_reducible apply keeps_completionRecordWrite) | (with_reducible apply keeps_foldl)
    | (with_reducible apply keeps_id) | (extract_lets) | (split) | (with_reducible apply keeps_ite) | (dsimp -zeta only)
    | (dsimp -zeta +zetaDelta only))

theorem keeps_refuseStream (fn off id s) (hs : Keeps s₀ s) : Keeps s₀ (refuseStream fn off id s) := by
  unfold refuseStream
  repeat' (first
    | (with_reducible assumption) | (with_reducible intro _) | (with_reducible apply keeps_recordPriv)
    | (with_reducible apply keeps_logStatus) | (with_reducible apply keeps_foldl) | (with_reducible apply keeps_id)
    | (extract_lets) | (split) | (with_reducible apply keeps_ite) | (dsimp -zeta only) | (dsimp -zeta +zetaDelta only))

theorem keeps_streamOwner (fn off id act s) (hact : ∀ s, Keeps s₀ s → Keeps s₀ (act s)) (hs : Keeps s₀ s) : Keeps s₀ (streamOwner fn off id act s) := by
  unfold streamOwner
  repeat' (first
    | (with_reducible assumption) | (with_reducible intro _) | (with_reducible apply keeps_refuseStream)
    | (with_reducible apply keeps_foldl) | (with_reducible apply keeps_id) | (apply hact) | (extract_lets) | (split)
    | (with_reducible apply keeps_ite) | (dsimp -zeta only) | (dsimp -zeta +zetaDelta only))

theorem keeps_execCqDoorbell (fn id v s) (hs : Keeps s₀ s) {w : State} (eq : execCqDoorbell fn id v s = .next w) : Keeps s₀ w := by
  unfold execCqDoorbell at eq
  injection eq with eq
  subst eq
  repeat' (first
    | (with_reducible assumption) | (with_reducible intro _) | (with_reducible apply keeps_posted)
    | (with_reducible apply keeps_streamOwner) | (with_reducible apply keeps_cqDoorbell) | (with_reducible apply keeps_foldl)
    | (with_reducible apply keeps_id) | (extract_lets) | (split) | (with_reducible apply keeps_ite) | (dsimp -zeta only)
    | (dsimp -zeta +zetaDelta only))

theorem keeps_fetchDeliver (id s) (hs : Keeps s₀ s) : Keeps s₀ (fetchDeliver id s) := by
  unfold fetchDeliver
  repeat' (first
    | (with_reducible assumption) | (with_reducible intro _) | (with_reducible apply keeps_freshSince)
    | (with_reducible apply keeps_State_setStream) | (with_reducible apply keeps_completeNear)
    | (with_reducible apply keeps_enqueue) | (with_reducible apply keeps_foldl) | (with_reducible apply keeps_id)
    | (extract_lets) | (split) | (with_reducible apply keeps_ite) | (dsimp -zeta only) | (dsimp -zeta +zetaDelta only))

theorem keeps_execFetchDeliver (id s) (hs : Keeps s₀ s) {w : State} (eq : execFetchDeliver id s = .next w) : Keeps s₀ w := by
  unfold execFetchDeliver at eq
  injection eq with eq
  subst eq
  repeat' (first
    | (with_reducible assumption) | (with_reducible intro _) | (with_reducible apply keeps_fetchDeliver)
    | (with_reducible apply keeps_foldl) | (with_reducible apply keeps_id) | (extract_lets) | (split)
    | (with_reducible apply keeps_ite) | (dsimp -zeta only) | (dsimp -zeta +zetaDelta only))

theorem keeps_jobCommit (s) (hs : Keeps s₀ s) : Keeps s₀ (jobCommit s) := by
  unfold jobCommit
  repeat' (first
    | (with_reducible assumption) | (with_reducible intro _) | (with_reducible apply keeps_State_setJob)
    | (with_reducible apply keeps_foldl) | (with_reducible apply keeps_id) | (extract_lets) | (split)
    | (with_reducible apply keeps_ite) | (dsimp -zeta only) | (dsimp -zeta +zetaDelta only))

theorem keeps_execJobCommit (fn s) (hs : Keeps s₀ s) {w : State} (eq : execJobCommit fn s = .next w) : Keeps s₀ w := by
  unfold execJobCommit at eq
  injection eq with eq
  subst eq
  repeat' (first
    | (with_reducible assumption) | (with_reducible intro _) | (with_reducible apply keeps_posted)
    | (with_reducible apply keeps_pfWrite) | (with_reducible apply keeps_jobCommit) | (with_reducible apply keeps_foldl)
    | (with_reducible apply keeps_id) | (extract_lets) | (split) | (with_reducible apply keeps_ite) | (dsimp -zeta only)
    | (dsimp -zeta +zetaDelta only))

theorem keeps_jobLoad (s) (hs : Keeps s₀ s) : Keeps s₀ (jobLoad s) := by
  unfold jobLoad
  repeat' (first
    | (with_reducible assumption) | (with_reducible intro _) | (with_reducible apply keeps_State_setRegN)
    | (with_reducible apply keeps_foldl) | (with_reducible apply keeps_id) | (extract_lets) | (split)
    | (with_reducible apply keeps_ite) | (dsimp -zeta only) | (dsimp -zeta +zetaDelta only))

theorem keeps_execJobLoad (fn s) (hs : Keeps s₀ s) {w : State} (eq : execJobLoad fn s = .next w) : Keeps s₀ w := by
  unfold execJobLoad at eq
  injection eq with eq
  subst eq
  repeat' (first
    | (with_reducible assumption) | (with_reducible intro _) | (with_reducible apply keeps_posted)
    | (with_reducible apply keeps_ownerWrite) | (with_reducible apply keeps_jobLoad) | (with_reducible apply keeps_foldl)
    | (with_reducible apply keeps_id) | (extract_lets) | (split) | (with_reducible apply keeps_ite) | (dsimp -zeta only)
    | (dsimp -zeta +zetaDelta only))

theorem keeps_sqDoorbell (id v s) (hs : Keeps s₀ s) : Keeps s₀ (sqDoorbell id v s) := by
  unfold sqDoorbell
  repeat' (first
    | (with_reducible assumption) | (with_reducible intro _) | (with_reducible apply keeps_doorbell)
    | (with_reducible apply keeps_State_setStream) | (with_reducible apply keeps_foldl) | (with_reducible apply keeps_id)
    | (extract_lets) | (split) | (with_reducible apply keeps_ite) | (dsimp -zeta only) | (dsimp -zeta +zetaDelta only))

theorem keeps_execSqDoorbell (fn id v s) (hs : Keeps s₀ s) {w : State} (eq : execSqDoorbell fn id v s = .next w) : Keeps s₀ w := by
  unfold execSqDoorbell at eq
  injection eq with eq
  subst eq
  repeat' (first
    | (with_reducible assumption) | (with_reducible intro _) | (with_reducible apply keeps_posted)
    | (with_reducible apply keeps_streamOwner) | (with_reducible apply keeps_sqDoorbell) | (with_reducible apply keeps_foldl)
    | (with_reducible apply keeps_id) | (extract_lets) | (split) | (with_reducible apply keeps_ite) | (dsimp -zeta only)
    | (dsimp -zeta +zetaDelta only))

theorem keeps_streamCmd (fn id act s) (hact : ∀ s, Keeps s₀ s → Keeps s₀ (act s)) (hs : Keeps s₀ s) : Keeps s₀ (streamCmd fn id act s) := by
  unfold streamCmd
  repeat' (first
    | (with_reducible assumption) | (with_reducible intro _) | (with_reducible apply keeps_streamOwner)
    | (with_reducible apply keeps_foldl) | (with_reducible apply keeps_id) | (apply hact) | (extract_lets) | (split)
    | (with_reducible apply keeps_ite) | (dsimp -zeta only) | (dsimp -zeta +zetaDelta only))

theorem keeps_execStreamActivate (fn id s) (hs : Keeps s₀ s) {w : State} (eq : execStreamActivate fn id s = .next w) : Keeps s₀ w := by
  unfold execStreamActivate at eq
  injection eq with eq
  subst eq
  repeat' (first
    | (with_reducible assumption) | (with_reducible intro _) | (with_reducible apply keeps_posted)
    | (with_reducible apply keeps_streamCmd) | (with_reducible apply keeps_activateStream)
    | (with_reducible apply keeps_foldl) | (with_reducible apply keeps_id) | (extract_lets) | (split)
    | (with_reducible apply keeps_ite) | (dsimp -zeta only) | (dsimp -zeta +zetaDelta only))

theorem keeps_streamAlloc (fn v s) (hs : Keeps s₀ s) : Keeps s₀ (streamAlloc fn v s) := by
  unfold streamAlloc
  repeat' (first
    | (with_reducible assumption) | (with_reducible intro _) | (with_reducible apply keeps_foldl)
    | (with_reducible apply keeps_id) | (extract_lets) | (split) | (with_reducible apply keeps_ite) | (dsimp -zeta only)
    | (dsimp -zeta +zetaDelta only) | (with_reducible apply keeps_with_allocs) | (with_reducible apply keeps_upd)
    | (exact Nat.le_refl _) | rfl | (exact Nat.le_add_right _ _) | (exact SMap.wf_filter _ (by with_reducible assumption) _))

theorem keeps_execStreamAlloc (fn v s) (hs : Keeps s₀ s) {w : State} (eq : execStreamAlloc fn v s = .next w) : Keeps s₀ w := by
  unfold execStreamAlloc at eq
  injection eq with eq
  subst eq
  repeat' (first
    | (with_reducible assumption) | (with_reducible intro _) | (with_reducible apply keeps_posted)
    | (with_reducible apply keeps_streamAlloc) | (with_reducible apply keeps_foldl) | (with_reducible apply keeps_id)
    | (extract_lets) | (split) | (with_reducible apply keeps_ite) | (dsimp -zeta only) | (dsimp -zeta +zetaDelta only))

theorem keeps_execStreamClose (fn id s) (hs : Keeps s₀ s) {w : State} (eq : execStreamClose fn id s = .next w) : Keeps s₀ w := by
  unfold execStreamClose at eq
  injection eq with eq
  subst eq
  repeat' (first
    | (with_reducible assumption) | (with_reducible intro _) | (with_reducible apply keeps_posted)
    | (with_reducible apply keeps_streamCmd) | (with_reducible apply keeps_closeStream) | (with_reducible apply keeps_foldl)
    | (with_reducible apply keeps_id) | (extract_lets) | (split) | (with_reducible apply keeps_ite) | (dsimp -zeta only)
    | (dsimp -zeta +zetaDelta only))

theorem keeps_execStreamContextWrite (fn id word v s) (hs : Keeps s₀ s) {w : State} (eq : execStreamContextWrite fn id word v s = .next w) : Keeps s₀ w := by
  unfold execStreamContextWrite at eq
  injection eq with eq
  subst eq
  repeat' (first
    | (with_reducible assumption) | (with_reducible intro _) | (with_reducible apply keeps_posted)
    | (with_reducible apply keeps_streamOwner) | (with_reducible apply keeps_contextWrite)
    | (with_reducible apply keeps_foldl) | (with_reducible apply keeps_id) | (extract_lets) | (split)
    | (with_reducible apply keeps_ite) | (dsimp -zeta only) | (dsimp -zeta +zetaDelta only))

theorem keeps_streamFetch (home s) (hs : Keeps s₀ s) : Keeps s₀ (streamFetch home s) := by
  unfold streamFetch
  repeat' (first
    | (with_reducible assumption) | (with_reducible intro _) | (with_reducible apply keeps_noteEcc)
    | (with_reducible apply keeps_State_setStream) | (with_reducible apply keeps_logItem)
    | (with_reducible apply keeps_pushRec) | (with_reducible apply keeps_freshSince) | (with_reducible apply keeps_noteHolds)
    | (with_reducible apply keeps_correctRead) | (with_reducible apply keeps_foldl) | (with_reducible apply keeps_id)
    | (extract_lets) | (split) | (with_reducible apply keeps_ite) | (dsimp -zeta only) | (dsimp -zeta +zetaDelta only)
    | (with_reducible apply keeps_with_served) | (with_reducible apply keeps_upd) | (exact Nat.le_refl _) | rfl
    | (exact Nat.le_add_right _ _) | (exact SMap.wf_filter _ (by with_reducible assumption) _))

theorem keeps_execStreamFetch (home s) (hs : Keeps s₀ s) {w : State} (eq : execStreamFetch home s = .next w) : Keeps s₀ w := by
  unfold execStreamFetch at eq
  injection eq with eq
  subst eq
  repeat' (first
    | (with_reducible assumption) | (with_reducible intro _) | (with_reducible apply keeps_streamFetch)
    | (with_reducible apply keeps_foldl) | (with_reducible apply keeps_id) | (extract_lets) | (split)
    | (with_reducible apply keeps_ite) | (dsimp -zeta only) | (dsimp -zeta +zetaDelta only))

theorem keeps_execStreamPause (fn id s) (hs : Keeps s₀ s) {w : State} (eq : execStreamPause fn id s = .next w) : Keeps s₀ w := by
  unfold execStreamPause at eq
  injection eq with eq
  subst eq
  repeat' (first
    | (with_reducible assumption) | (with_reducible intro _) | (with_reducible apply keeps_posted)
    | (with_reducible apply keeps_streamCmd) | (with_reducible apply keeps_pauseStream) | (with_reducible apply keeps_foldl)
    | (with_reducible apply keeps_id) | (extract_lets) | (split) | (with_reducible apply keeps_ite) | (dsimp -zeta only)
    | (dsimp -zeta +zetaDelta only))

theorem keeps_execStreamResume (fn id s) (hs : Keeps s₀ s) {w : State} (eq : execStreamResume fn id s = .next w) : Keeps s₀ w := by
  unfold execStreamResume at eq
  injection eq with eq
  subst eq
  repeat' (first
    | (with_reducible assumption) | (with_reducible intro _) | (with_reducible apply keeps_posted)
    | (with_reducible apply keeps_streamCmd) | (with_reducible apply keeps_resumeStream) | (with_reducible apply keeps_foldl)
    | (with_reducible apply keeps_id) | (extract_lets) | (split) | (with_reducible apply keeps_ite) | (dsimp -zeta only)
    | (dsimp -zeta +zetaDelta only))

theorem keeps_serveAlloc (s) (hs : Keeps s₀ s) : Keeps s₀ (serveAlloc s) := by
  unfold serveAlloc
  repeat' (first
    | (with_reducible assumption) | (with_reducible intro _) | (with_reducible apply keeps_allocOutcome)
    | (with_reducible apply keeps_foldl) | (with_reducible apply keeps_id) | (extract_lets) | (split)
    | (with_reducible apply keeps_ite) | (dsimp -zeta only) | (dsimp -zeta +zetaDelta only)
    | (with_reducible apply keeps_with_allocs) | (with_reducible apply keeps_upd) | (exact Nat.le_refl _) | rfl
    | (exact Nat.le_add_right _ _) | (exact SMap.wf_filter _ (by with_reducible assumption) _))

end Sys2Proof.Machine.Laws
end

