-- ==== Sys2Proof/Laws/KeepsChaseCore.lean ====
section
/-! SUPPORT. Every definition of Sys2Proof/Machine/ChaseCore.lean keeps what `Keeps` names. -/

namespace Sys2Proof.Machine.Laws

variable {s₀ : State}

theorem keeps_branchIns (f a__internal_hyg0 x3 x4) (hx4 : Keeps s₀ x4) : Keeps s₀ (branchIns f a__internal_hyg0 x3 x4) := by
  unfold branchIns
  repeat' (first
    | (with_reducible assumption) | (with_reducible intro _) | (with_reducible apply keeps_retire)
    | (with_reducible apply keeps_retireNext) | (with_reducible apply keeps_foldl) | (with_reducible apply keeps_id)
    | (extract_lets) | (split) | (with_reducible apply keeps_ite) | (dsimp -zeta only) | (dsimp -zeta +zetaDelta only))

theorem keeps_setRd (v a__internal_hyg0 x3 x4) (hx4 : Keeps s₀ x4) : Keeps s₀ (setRd v a__internal_hyg0 x3 x4) := by
  unfold setRd
  repeat' (first
    | (with_reducible assumption) | (with_reducible intro _) | (with_reducible apply keeps_retireNext)
    | (with_reducible apply keeps_foldl) | (with_reducible apply keeps_id) | (extract_lets) | (split)
    | (with_reducible apply keeps_ite) | (dsimp -zeta only) | (dsimp -zeta +zetaDelta only))

theorem keeps_insAlu (a__internal_hyg0 x2 x3) (hx3 : Keeps s₀ x3) : Keeps s₀ (insAlu a__internal_hyg0 x2 x3) := by
  unfold insAlu
  repeat' (first
    | (with_reducible assumption) | (with_reducible intro _) | (with_reducible apply keeps_setRd)
    | (with_reducible apply keeps_takeTrap) | (with_reducible apply keeps_foldl) | (with_reducible apply keeps_id)
    | (extract_lets) | (split) | (with_reducible apply keeps_ite) | (dsimp -zeta only) | (dsimp -zeta +zetaDelta only))

theorem keeps_immIns (f a__internal_hyg0 x3 x4) (hx4 : Keeps s₀ x4) : Keeps s₀ (immIns f a__internal_hyg0 x3 x4) := by
  unfold immIns
  repeat' (first
    | (with_reducible assumption) | (with_reducible intro _) | (with_reducible apply keeps_setRd)
    | (with_reducible apply keeps_foldl) | (with_reducible apply keeps_id) | (extract_lets) | (split)
    | (with_reducible apply keeps_ite) | (dsimp -zeta only) | (dsimp -zeta +zetaDelta only))

theorem keeps_insAddi (a__internal_hyg0 x2 x3) (hx3 : Keeps s₀ x3) : Keeps s₀ (insAddi a__internal_hyg0 x2 x3) := by
  unfold insAddi
  repeat' (first
    | (with_reducible assumption) | (with_reducible intro _) | (with_reducible apply keeps_immIns)
    | (with_reducible apply keeps_foldl) | (with_reducible apply keeps_id) | (extract_lets) | (split)
    | (with_reducible apply keeps_ite) | (dsimp -zeta only) | (dsimp -zeta +zetaDelta only))

theorem keeps_insAndi (a__internal_hyg0 x2 x3) (hx3 : Keeps s₀ x3) : Keeps s₀ (insAndi a__internal_hyg0 x2 x3) := by
  unfold insAndi
  repeat' (first
    | (with_reducible assumption) | (with_reducible intro _) | (with_reducible apply keeps_immIns)
    | (with_reducible apply keeps_foldl) | (with_reducible apply keeps_id) | (extract_lets) | (split)
    | (with_reducible apply keeps_ite) | (dsimp -zeta only) | (dsimp -zeta +zetaDelta only))

theorem keeps_insOri (a__internal_hyg0 x2 x3) (hx3 : Keeps s₀ x3) : Keeps s₀ (insOri a__internal_hyg0 x2 x3) := by
  unfold insOri
  repeat' (first
    | (with_reducible assumption) | (with_reducible intro _) | (with_reducible apply keeps_immIns)
    | (with_reducible apply keeps_foldl) | (with_reducible apply keeps_id) | (extract_lets) | (split)
    | (with_reducible apply keeps_ite) | (dsimp -zeta only) | (dsimp -zeta +zetaDelta only))

theorem keeps_insXori (a__internal_hyg0 x2 x3) (hx3 : Keeps s₀ x3) : Keeps s₀ (insXori a__internal_hyg0 x2 x3) := by
  unfold insXori
  repeat' (first
    | (with_reducible assumption) | (with_reducible intro _) | (with_reducible apply keeps_immIns)
    | (with_reducible apply keeps_foldl) | (with_reducible apply keeps_id) | (extract_lets) | (split)
    | (with_reducible apply keeps_ite) | (dsimp -zeta only) | (dsimp -zeta +zetaDelta only))

theorem keeps_insShi (a__internal_hyg0 x2 x3) (hx3 : Keeps s₀ x3) : Keeps s₀ (insShi a__internal_hyg0 x2 x3) := by
  unfold insShi
  repeat' (first
    | (with_reducible assumption) | (with_reducible intro _) | (with_reducible apply keeps_takeTrap)
    | (with_reducible apply keeps_setRd) | (with_reducible apply keeps_foldl) | (with_reducible apply keeps_id)
    | (extract_lets) | (split) | (with_reducible apply keeps_ite) | (dsimp -zeta only) | (dsimp -zeta +zetaDelta only))

theorem keeps_insLui (a__internal_hyg0 x2 x3) (hx3 : Keeps s₀ x3) : Keeps s₀ (insLui a__internal_hyg0 x2 x3) := by
  unfold insLui
  repeat' (first
    | (with_reducible assumption) | (with_reducible intro _) | (with_reducible apply keeps_takeTrap)
    | (with_reducible apply keeps_setRd) | (with_reducible apply keeps_foldl) | (with_reducible apply keeps_id)
    | (extract_lets) | (split) | (with_reducible apply keeps_ite) | (dsimp -zeta only) | (dsimp -zeta +zetaDelta only))

theorem keeps_insSlti (a__internal_hyg0 x2 x3) (hx3 : Keeps s₀ x3) : Keeps s₀ (insSlti a__internal_hyg0 x2 x3) := by
  unfold insSlti
  repeat' (first
    | (with_reducible assumption) | (with_reducible intro _) | (with_reducible apply keeps_immIns)
    | (with_reducible apply keeps_foldl) | (with_reducible apply keeps_id) | (extract_lets) | (split)
    | (with_reducible apply keeps_ite) | (dsimp -zeta only) | (dsimp -zeta +zetaDelta only))

theorem keeps_insBeq (a__internal_hyg0 x2 x3) (hx3 : Keeps s₀ x3) : Keeps s₀ (insBeq a__internal_hyg0 x2 x3) := by
  unfold insBeq
  repeat' (first
    | (with_reducible assumption) | (with_reducible intro _) | (with_reducible apply keeps_branchIns)
    | (with_reducible apply keeps_foldl) | (with_reducible apply keeps_id) | (extract_lets) | (split)
    | (with_reducible apply keeps_ite) | (dsimp -zeta only) | (dsimp -zeta +zetaDelta only))

theorem keeps_insBne (a__internal_hyg0 x2 x3) (hx3 : Keeps s₀ x3) : Keeps s₀ (insBne a__internal_hyg0 x2 x3) := by
  unfold insBne
  repeat' (first
    | (with_reducible assumption) | (with_reducible intro _) | (with_reducible apply keeps_branchIns)
    | (with_reducible apply keeps_foldl) | (with_reducible apply keeps_id) | (extract_lets) | (split)
    | (with_reducible apply keeps_ite) | (dsimp -zeta only) | (dsimp -zeta +zetaDelta only))

theorem keeps_insBlt (a__internal_hyg0 x2 x3) (hx3 : Keeps s₀ x3) : Keeps s₀ (insBlt a__internal_hyg0 x2 x3) := by
  unfold insBlt
  repeat' (first
    | (with_reducible assumption) | (with_reducible intro _) | (with_reducible apply keeps_branchIns)
    | (with_reducible apply keeps_foldl) | (with_reducible apply keeps_id) | (extract_lets) | (split)
    | (with_reducible apply keeps_ite) | (dsimp -zeta only) | (dsimp -zeta +zetaDelta only))

theorem keeps_insBge (a__internal_hyg0 x2 x3) (hx3 : Keeps s₀ x3) : Keeps s₀ (insBge a__internal_hyg0 x2 x3) := by
  unfold insBge
  repeat' (first
    | (with_reducible assumption) | (with_reducible intro _) | (with_reducible apply keeps_branchIns)
    | (with_reducible apply keeps_foldl) | (with_reducible apply keeps_id) | (extract_lets) | (split)
    | (with_reducible apply keeps_ite) | (dsimp -zeta only) | (dsimp -zeta +zetaDelta only))

theorem keeps_insBltu (a__internal_hyg0 x2 x3) (hx3 : Keeps s₀ x3) : Keeps s₀ (insBltu a__internal_hyg0 x2 x3) := by
  unfold insBltu
  repeat' (first
    | (with_reducible assumption) | (with_reducible intro _) | (with_reducible apply keeps_branchIns)
    | (with_reducible apply keeps_foldl) | (with_reducible apply keeps_id) | (extract_lets) | (split)
    | (with_reducible apply keeps_ite) | (dsimp -zeta only) | (dsimp -zeta +zetaDelta only))

theorem keeps_insBgeu (a__internal_hyg0 x2 x3) (hx3 : Keeps s₀ x3) : Keeps s₀ (insBgeu a__internal_hyg0 x2 x3) := by
  unfold insBgeu
  repeat' (first
    | (with_reducible assumption) | (with_reducible intro _) | (with_reducible apply keeps_branchIns)
    | (with_reducible apply keeps_foldl) | (with_reducible apply keeps_id) | (extract_lets) | (split)
    | (with_reducible apply keeps_ite) | (dsimp -zeta only) | (dsimp -zeta +zetaDelta only))

theorem keeps_insJal (a__internal_hyg0 x2 x3) (hx3 : Keeps s₀ x3) : Keeps s₀ (insJal a__internal_hyg0 x2 x3) := by
  unfold insJal
  repeat' (first
    | (with_reducible assumption) | (with_reducible intro _) | (with_reducible apply keeps_retire)
    | (with_reducible apply keeps_foldl) | (with_reducible apply keeps_id) | (extract_lets) | (split)
    | (with_reducible apply keeps_ite) | (dsimp -zeta only) | (dsimp -zeta +zetaDelta only))

theorem keeps_jumpIns (a__internal_hyg0 x2 x3) (hx3 : Keeps s₀ x3) : Keeps s₀ (jumpIns a__internal_hyg0 x2 x3) := by
  unfold jumpIns
  repeat' (first
    | (with_reducible assumption) | (with_reducible intro _) | (with_reducible apply keeps_takeTrap)
    | (with_reducible apply keeps_retire) | (with_reducible apply keeps_foldl) | (with_reducible apply keeps_id)
    | (extract_lets) | (split) | (with_reducible apply keeps_ite) | (dsimp -zeta only) | (dsimp -zeta +zetaDelta only))

theorem keeps_insJr (a__internal_hyg0 x2 x3) (hx3 : Keeps s₀ x3) : Keeps s₀ (insJr a__internal_hyg0 x2 x3) := by
  unfold insJr
  repeat' (first
    | (with_reducible assumption) | (with_reducible intro _) | (with_reducible apply keeps_jumpIns)
    | (with_reducible apply keeps_foldl) | (with_reducible apply keeps_id) | (extract_lets) | (split)
    | (with_reducible apply keeps_ite) | (dsimp -zeta only) | (dsimp -zeta +zetaDelta only))

theorem keeps_insRte (a__internal_hyg0 x2 x3) (hx3 : Keeps s₀ x3) : Keeps s₀ (insRte a__internal_hyg0 x2 x3) := by
  unfold insRte
  repeat' (first
    | (with_reducible assumption) | (with_reducible intro _) | (with_reducible apply keeps_takeTrap)
    | (with_reducible apply keeps_jumpIns) | (with_reducible apply keeps_State_setCore) | (with_reducible apply keeps_foldl)
    | (with_reducible apply keeps_id) | (extract_lets) | (split) | (with_reducible apply keeps_ite) | (dsimp -zeta only)
    | (dsimp -zeta +zetaDelta only))

theorem keeps_correctCore (ch key dmem s) (hs : Keeps s₀ s) : Keeps s₀ (correctCore ch key dmem s) := by
  unfold correctCore
  repeat' (first
    | (with_reducible assumption) | (with_reducible intro _) | (with_reducible apply keeps_State_bump)
    | (with_reducible apply keeps_State_setCoreEcc) | (with_reducible apply keeps_State_setEcc)
    | (with_reducible apply keeps_foldl) | (with_reducible apply keeps_id) | (extract_lets) | (split)
    | (with_reducible apply keeps_ite) | (dsimp -zeta only) | (dsimp -zeta +zetaDelta only))

theorem keeps_loadIns (n ext a__internal_hyg0 x4 x5) (hx5 : Keeps s₀ x5) : Keeps s₀ (loadIns n ext a__internal_hyg0 x4 x5) := by
  unfold loadIns
  repeat' (first
    | (with_reducible assumption) | (with_reducible intro _) | (with_reducible apply keeps_takeTrap)
    | (with_reducible apply keeps_setRd) | (with_reducible apply keeps_correctCore) | (with_reducible apply keeps_foldl)
    | (with_reducible apply keeps_id) | (extract_lets) | (split) | (with_reducible apply keeps_ite) | (dsimp -zeta only)
    | (dsimp -zeta +zetaDelta only))

theorem keeps_insLdw (a__internal_hyg0 x2 x3) (hx3 : Keeps s₀ x3) : Keeps s₀ (insLdw a__internal_hyg0 x2 x3) := by
  unfold insLdw
  repeat' (first
    | (with_reducible assumption) | (with_reducible intro _) | (with_reducible apply keeps_loadIns)
    | (with_reducible apply keeps_foldl) | (with_reducible apply keeps_id) | (extract_lets) | (split)
    | (with_reducible apply keeps_ite) | (dsimp -zeta only) | (dsimp -zeta +zetaDelta only))

theorem keeps_insLdh (a__internal_hyg0 x2 x3) (hx3 : Keeps s₀ x3) : Keeps s₀ (insLdh a__internal_hyg0 x2 x3) := by
  unfold insLdh
  repeat' (first
    | (with_reducible assumption) | (with_reducible intro _) | (with_reducible apply keeps_loadIns)
    | (with_reducible apply keeps_foldl) | (with_reducible apply keeps_id) | (extract_lets) | (split)
    | (with_reducible apply keeps_ite) | (dsimp -zeta only) | (dsimp -zeta +zetaDelta only))

theorem keeps_insLdhu (a__internal_hyg0 x2 x3) (hx3 : Keeps s₀ x3) : Keeps s₀ (insLdhu a__internal_hyg0 x2 x3) := by
  unfold insLdhu
  repeat' (first
    | (with_reducible assumption) | (with_reducible intro _) | (with_reducible apply keeps_loadIns)
    | (with_reducible apply keeps_foldl) | (with_reducible apply keeps_id) | (extract_lets) | (split)
    | (with_reducible apply keeps_ite) | (dsimp -zeta only) | (dsimp -zeta +zetaDelta only))

theorem keeps_insLdb (a__internal_hyg0 x2 x3) (hx3 : Keeps s₀ x3) : Keeps s₀ (insLdb a__internal_hyg0 x2 x3) := by
  unfold insLdb
  repeat' (first
    | (with_reducible assumption) | (with_reducible intro _) | (with_reducible apply keeps_loadIns)
    | (with_reducible apply keeps_foldl) | (with_reducible apply keeps_id) | (extract_lets) | (split)
    | (with_reducible apply keeps_ite) | (dsimp -zeta only) | (dsimp -zeta +zetaDelta only))

theorem keeps_insLdbu (a__internal_hyg0 x2 x3) (hx3 : Keeps s₀ x3) : Keeps s₀ (insLdbu a__internal_hyg0 x2 x3) := by
  unfold insLdbu
  repeat' (first
    | (with_reducible assumption) | (with_reducible intro _) | (with_reducible apply keeps_loadIns)
    | (with_reducible apply keeps_foldl) | (with_reducible apply keeps_id) | (extract_lets) | (split)
    | (with_reducible apply keeps_ite) | (dsimp -zeta only) | (dsimp -zeta +zetaDelta only))

theorem keeps_coreStore (key dmem n v s) (hs : Keeps s₀ s) : Keeps s₀ (coreStore key dmem n v s) := by
  unfold coreStore
  repeat' (first
    | (with_reducible assumption) | (with_reducible intro _) | (with_reducible apply keeps_State_setNum)
    | (with_reducible apply keeps_copyStore) | (with_reducible apply keeps_State_setCoreEcc)
    | (with_reducible apply keeps_foldl) | (with_reducible apply keeps_id) | (extract_lets) | (split)
    | (with_reducible apply keeps_ite) | (dsimp -zeta only) | (dsimp -zeta +zetaDelta only))

theorem keeps_storeIns (n a__internal_hyg0 x3 x4) (hx4 : Keeps s₀ x4) : Keeps s₀ (storeIns n a__internal_hyg0 x3 x4) := by
  unfold storeIns
  repeat' (first
    | (with_reducible assumption) | (with_reducible intro _) | (with_reducible apply keeps_retireNext)
    | (with_reducible apply keeps_takeTrap) | (with_reducible apply keeps_coreStore)
    | (with_reducible apply keeps_State_when) | (with_reducible apply keeps_State_setRegN)
    | (with_reducible apply keeps_foldl) | (with_reducible apply keeps_id) | (extract_lets) | (split)
    | (with_reducible apply keeps_ite) | (dsimp -zeta only) | (dsimp -zeta +zetaDelta only))

theorem keeps_insStw (a__internal_hyg0 x2 x3) (hx3 : Keeps s₀ x3) : Keeps s₀ (insStw a__internal_hyg0 x2 x3) := by
  unfold insStw
  repeat' (first
    | (with_reducible assumption) | (with_reducible intro _) | (with_reducible apply keeps_storeIns)
    | (with_reducible apply keeps_foldl) | (with_reducible apply keeps_id) | (extract_lets) | (split)
    | (with_reducible apply keeps_ite) | (dsimp -zeta only) | (dsimp -zeta +zetaDelta only))

theorem keeps_insSth (a__internal_hyg0 x2 x3) (hx3 : Keeps s₀ x3) : Keeps s₀ (insSth a__internal_hyg0 x2 x3) := by
  unfold insSth
  repeat' (first
    | (with_reducible assumption) | (with_reducible intro _) | (with_reducible apply keeps_storeIns)
    | (with_reducible apply keeps_foldl) | (with_reducible apply keeps_id) | (extract_lets) | (split)
    | (with_reducible apply keeps_ite) | (dsimp -zeta only) | (dsimp -zeta +zetaDelta only))

theorem keeps_insStb (a__internal_hyg0 x2 x3) (hx3 : Keeps s₀ x3) : Keeps s₀ (insStb a__internal_hyg0 x2 x3) := by
  unfold insStb
  repeat' (first
    | (with_reducible assumption) | (with_reducible intro _) | (with_reducible apply keeps_storeIns)
    | (with_reducible apply keeps_foldl) | (with_reducible apply keeps_id) | (extract_lets) | (split)
    | (with_reducible apply keeps_ite) | (dsimp -zeta only) | (dsimp -zeta +zetaDelta only))

theorem keeps_insTwait (a__internal_hyg0 x2 x3) (hx3 : Keeps s₀ x3) : Keeps s₀ (insTwait a__internal_hyg0 x2 x3) := by
  unfold insTwait
  repeat' (first
    | (with_reducible assumption) | (with_reducible intro _) | (with_reducible apply keeps_takeTrap)
    | (with_reducible apply keeps_retireNext) | (with_reducible apply keeps_State_when)
    | (with_reducible apply keeps_freeEntry) | (with_reducible apply keeps_stallCore) | (with_reducible apply keeps_foldl)
    | (with_reducible apply keeps_id) | (extract_lets) | (split) | (with_reducible apply keeps_ite) | (dsimp -zeta only)
    | (dsimp -zeta +zetaDelta only))

theorem keeps_insTsend (a__internal_hyg0 x2 x3) (hx3 : Keeps s₀ x3) : Keeps s₀ (insTsend a__internal_hyg0 x2 x3) := by
  unfold insTsend
  repeat' (first
    | (with_reducible assumption) | (with_reducible intro _) | (with_reducible apply keeps_takeTrap)
    | (with_reducible apply keeps_retireNext) | (with_reducible apply keeps_sendToken) | (with_reducible apply keeps_foldl)
    | (with_reducible apply keeps_id) | (extract_lets) | (split) | (with_reducible apply keeps_ite) | (dsimp -zeta only)
    | (dsimp -zeta +zetaDelta only))

theorem keeps_insCget (a__internal_hyg0 x2 x3) (hx3 : Keeps s₀ x3) : Keeps s₀ (insCget a__internal_hyg0 x2 x3) := by
  unfold insCget
  repeat' (first
    | (with_reducible assumption) | (with_reducible intro _) | (with_reducible apply keeps_retireNext)
    | (with_reducible apply keeps_takeTrap) | (with_reducible apply keeps_State_setCore)
    | (with_reducible apply keeps_stallCore) | (with_reducible apply keeps_foldl) | (with_reducible apply keeps_id)
    | (extract_lets) | (split) | (with_reducible apply keeps_ite) | (dsimp -zeta only) | (dsimp -zeta +zetaDelta only))

theorem keeps_insCput (a__internal_hyg0 x2 x3) (hx3 : Keeps s₀ x3) : Keeps s₀ (insCput a__internal_hyg0 x2 x3) := by
  unfold insCput
  repeat' (first
    | (with_reducible assumption) | (with_reducible intro _) | (with_reducible apply keeps_retireNext)
    | (with_reducible apply keeps_takeTrap) | (with_reducible apply keeps_foldl) | (with_reducible apply keeps_id)
    | (extract_lets) | (split) | (with_reducible apply keeps_ite) | (dsimp -zeta only) | (dsimp -zeta +zetaDelta only)
    | (with_reducible apply keeps_with_net) | (with_reducible apply keeps_upd) | (exact Nat.le_refl _) | rfl
    | (exact Nat.le_add_right _ _) | (exact SMap.wf_filter _ (by with_reducible assumption) _))

theorem keeps_handOn (ch w cmd s) (hs : Keeps s₀ s) : Keeps s₀ (handOn ch w cmd s) := by
  unfold handOn
  repeat' (first
    | (with_reducible assumption) | (with_reducible intro _) | (with_reducible apply keeps_freshSince)
    | (with_reducible apply keeps_State_setStream) | (with_reducible apply keeps_enqueue)
    | (with_reducible apply keeps_State_setCore) | (with_reducible apply keeps_retireNext)
    | (with_reducible apply keeps_foldl) | (with_reducible apply keeps_id) | (extract_lets) | (split)
    | (with_reducible apply keeps_ite) | (dsimp -zeta only) | (dsimp -zeta +zetaDelta only))

theorem keeps_insIssue (a__internal_hyg0 x2 x3) (hx3 : Keeps s₀ x3) : Keeps s₀ (insIssue a__internal_hyg0 x2 x3) := by
  unfold insIssue
  repeat' (first
    | (with_reducible assumption) | (with_reducible intro _) | (with_reducible apply keeps_retireNext)
    | (with_reducible apply keeps_takeTrap) | (with_reducible apply keeps_State_each)
    | (with_reducible apply keeps_correctCore) | (with_reducible apply keeps_handOn) | (with_reducible apply keeps_stallCore)
    | (with_reducible apply keeps_foldl) | (with_reducible apply keeps_id) | (extract_lets) | (split)
    | (with_reducible apply keeps_ite) | (dsimp -zeta only) | (dsimp -zeta +zetaDelta only))

theorem keeps_insFence (a__internal_hyg0 x2 x3) (hx3 : Keeps s₀ x3) : Keeps s₀ (insFence a__internal_hyg0 x2 x3) := by
  unfold insFence
  repeat' (first
    | (with_reducible assumption) | (with_reducible intro _) | (with_reducible apply keeps_takeTrap)
    | (with_reducible apply keeps_stallCore) | (with_reducible apply keeps_retireNext) | (with_reducible apply keeps_foldl)
    | (with_reducible apply keeps_id) | (extract_lets) | (split) | (with_reducible apply keeps_ite) | (dsimp -zeta only)
    | (dsimp -zeta +zetaDelta only))

theorem keeps_insWait (a__internal_hyg0 x2 x3) (hx3 : Keeps s₀ x3) : Keeps s₀ (insWait a__internal_hyg0 x2 x3) := by
  unfold insWait
  repeat' (first
    | (with_reducible assumption) | (with_reducible intro _) | (with_reducible apply keeps_takeTrap)
    | (with_reducible apply keeps_emit1) | (with_reducible apply keeps_endWait) | (with_reducible apply keeps_State_setCore)
    | (with_reducible apply keeps_foldl) | (with_reducible apply keeps_id) | (extract_lets) | (split)
    | (with_reducible apply keeps_ite) | (dsimp -zeta only) | (dsimp -zeta +zetaDelta only))

theorem keeps_insTrap (a__internal_hyg0 x2 x3) (hx3 : Keeps s₀ x3) : Keeps s₀ (insTrap a__internal_hyg0 x2 x3) := by
  unfold insTrap
  repeat' (first
    | (with_reducible assumption) | (with_reducible intro _) | (with_reducible apply keeps_takeTrap)
    | (with_reducible apply keeps_trapWritten) | (with_reducible apply keeps_pushFree)
    | (with_reducible apply keeps_stallCore) | (with_reducible apply keeps_logItem)
    | (with_reducible apply keeps_writeRecord) | (with_reducible apply keeps_foldl) | (with_reducible apply keeps_id)
    | (extract_lets) | (split) | (with_reducible apply keeps_ite) | (dsimp -zeta only) | (dsimp -zeta +zetaDelta only))

theorem keeps_insRdcnt (a__internal_hyg0 x2 x3) (hx3 : Keeps s₀ x3) : Keeps s₀ (insRdcnt a__internal_hyg0 x2 x3) := by
  unfold insRdcnt
  repeat' (first
    | (with_reducible assumption) | (with_reducible intro _) | (with_reducible apply keeps_takeTrap)
    | (with_reducible apply keeps_setRd) | (with_reducible apply keeps_State_setCore) | (with_reducible apply keeps_foldl)
    | (with_reducible apply keeps_id) | (extract_lets) | (split) | (with_reducible apply keeps_ite) | (dsimp -zeta only)
    | (dsimp -zeta +zetaDelta only))

theorem keeps_trapIns (cause a__internal_hyg0 x3 x4) (hx4 : Keeps s₀ x4) : Keeps s₀ (trapIns cause a__internal_hyg0 x3 x4) := by
  unfold trapIns
  repeat' (first
    | (with_reducible assumption) | (with_reducible intro _) | (with_reducible apply keeps_takeTrap)
    | (with_reducible apply keeps_foldl) | (with_reducible apply keeps_id) | (extract_lets) | (split)
    | (with_reducible apply keeps_ite) | (dsimp -zeta only) | (dsimp -zeta +zetaDelta only))

theorem keeps_insOf (op a__internal_hyg0 x3 x4) (hx4 : Keeps s₀ x4) : Keeps s₀ (insOf op a__internal_hyg0 x3 x4) := by
  unfold insOf
  repeat' (first
    | (with_reducible assumption) | (with_reducible intro _) | (with_reducible apply keeps_insAlu)
    | (with_reducible apply keeps_insAddi) | (with_reducible apply keeps_insAndi) | (with_reducible apply keeps_insOri)
    | (with_reducible apply keeps_insXori) | (with_reducible apply keeps_insShi) | (with_reducible apply keeps_insLui)
    | (with_reducible apply keeps_insSlti) | (with_reducible apply keeps_insBeq) | (with_reducible apply keeps_insBne)
    | (with_reducible apply keeps_insBlt) | (with_reducible apply keeps_insBge) | (with_reducible apply keeps_insBltu)
    | (with_reducible apply keeps_insBgeu) | (with_reducible apply keeps_insJal) | (with_reducible apply keeps_insJr)
    | (with_reducible apply keeps_insRte) | (with_reducible apply keeps_insLdw) | (with_reducible apply keeps_insLdh)
    | (with_reducible apply keeps_insLdhu) | (with_reducible apply keeps_insLdb) | (with_reducible apply keeps_insLdbu)
    | (with_reducible apply keeps_insStw) | (with_reducible apply keeps_insSth) | (with_reducible apply keeps_insStb)
    | (with_reducible apply keeps_insTwait) | (with_reducible apply keeps_insTsend) | (with_reducible apply keeps_insCget)
    | (with_reducible apply keeps_insCput) | (with_reducible apply keeps_insIssue) | (with_reducible apply keeps_insFence)
    | (with_reducible apply keeps_insWait) | (with_reducible apply keeps_insTrap) | (with_reducible apply keeps_insRdcnt)
    | (with_reducible apply keeps_trapIns) | (with_reducible apply keeps_foldl) | (with_reducible apply keeps_id)
    | (extract_lets) | (split) | (with_reducible apply keeps_ite) | (dsimp -zeta only) | (dsimp -zeta +zetaDelta only))

theorem keeps_coreTry (ch s) (hs : Keeps s₀ s) : Keeps s₀ (coreTry ch s) := by
  unfold coreTry
  repeat' (first
    | (with_reducible assumption) | (with_reducible intro _) | (with_reducible apply keeps_insOf)
    | (with_reducible apply keeps_takeTrap) | (with_reducible apply keeps_foldl) | (with_reducible apply keeps_id)
    | (extract_lets) | (split) | (with_reducible apply keeps_ite) | (dsimp -zeta only) | (dsimp -zeta +zetaDelta only))

theorem keeps_coreGo (ch s) (hs : Keeps s₀ s) : Keeps s₀ (coreGo ch s) := by
  unfold coreGo
  repeat' (first
    | (with_reducible assumption) | (with_reducible intro _) | (with_reducible apply keeps_lossHold)
    | (with_reducible apply keeps_coreTry) | (with_reducible apply keeps_foldl) | (with_reducible apply keeps_id)
    | (extract_lets) | (split) | (with_reducible apply keeps_ite) | (dsimp -zeta only) | (dsimp -zeta +zetaDelta only))

theorem keeps_cgetTimeout (ch s) (hs : Keeps s₀ s) : Keeps s₀ (cgetTimeout ch s) := by
  unfold cgetTimeout
  repeat' (first
    | (with_reducible assumption) | (with_reducible intro _) | (with_reducible apply keeps_coreGo)
    | (with_reducible apply keeps_onTimeout) | (with_reducible apply keeps_lossHold) | (with_reducible apply keeps_takeTrap)
    | (with_reducible apply keeps_retireNext) | (with_reducible apply keeps_foldl) | (with_reducible apply keeps_id)
    | (extract_lets) | (split) | (with_reducible apply keeps_ite) | (dsimp -zeta only) | (dsimp -zeta +zetaDelta only))

theorem keeps_runCore (ch s) (hs : Keeps s₀ s) : Keeps s₀ (runCore ch s) := by
  unfold runCore
  repeat' (first
    | (with_reducible assumption) | (with_reducible intro _) | (with_reducible apply keeps_State_setCore)
    | (with_reducible apply keeps_foldl) | (with_reducible apply keeps_id) | (extract_lets) | (split)
    | (with_reducible apply keeps_ite) | (dsimp -zeta only) | (dsimp -zeta +zetaDelta only))

theorem keeps_stepCore (ch s) (hs : Keeps s₀ s) : Keeps s₀ (stepCore ch s) := by
  unfold stepCore
  repeat' (first
    | (with_reducible assumption) | (with_reducible intro _) | (with_reducible apply keeps_coreGo)
    | (with_reducible apply keeps_State_setCore) | (with_reducible apply keeps_foldl) | (with_reducible apply keeps_id)
    | (extract_lets) | (split) | (with_reducible apply keeps_ite) | (dsimp -zeta only) | (dsimp -zeta +zetaDelta only))

theorem keeps_startLoad (ch dmem s) (hs : Keeps s₀ s) : Keeps s₀ (startLoad ch dmem s) := by
  unfold startLoad
  repeat' (first
    | (with_reducible assumption) | (with_reducible intro _) | (with_reducible apply keeps_State_setCore)
    | (with_reducible apply keeps_logStatus) | (with_reducible apply keeps_foldl) | (with_reducible apply keeps_id)
    | (extract_lets) | (split) | (with_reducible apply keeps_ite) | (dsimp -zeta only) | (dsimp -zeta +zetaDelta only))

theorem keeps_coreAction (ch k s) (hs : Keeps s₀ s) : Keeps s₀ (coreAction ch k s) := by
  unfold coreAction
  repeat' (first
    | (with_reducible assumption) | (with_reducible intro _) | (with_reducible apply keeps_runCore)
    | (with_reducible apply keeps_haltCore) | (with_reducible apply keeps_stepCore) | (with_reducible apply keeps_resetCore)
    | (with_reducible apply keeps_wakeSource) | (with_reducible apply keeps_startLoad) | (with_reducible apply keeps_foldl)
    | (with_reducible apply keeps_id) | (extract_lets) | (split) | (with_reducible apply keeps_ite) | (dsimp -zeta only)
    | (dsimp -zeta +zetaDelta only))

theorem keeps_coreActions (ch l s) (hs : Keeps s₀ s) : Keeps s₀ (coreActions ch l s) := by
  induction l generalizing s with
  | nil => exact hs
  | cons k l ih =>
    simp only [Sys2Proof.Machine.coreActions]
    split
    · exact keeps_State_setCore _ _ _ (keeps_coreAction _ _ _ hs)
    · exact ih _ (keeps_coreAction _ _ _ hs)

theorem keeps_coreCtrl (ch ks s) (hs : Keeps s₀ s) : Keeps s₀ (coreCtrl ch ks s) := by
  unfold coreCtrl
  repeat' (first
    | (with_reducible assumption) | (with_reducible intro _) | (with_reducible apply keeps_State_when)
    | (with_reducible apply keeps_logStatus) | (with_reducible apply keeps_State_setCore)
    | (with_reducible apply keeps_coreActions) | (with_reducible apply keeps_foldl) | (with_reducible apply keeps_id)
    | (extract_lets) | (split) | (with_reducible apply keeps_ite) | (dsimp -zeta only) | (dsimp -zeta +zetaDelta only))

theorem keeps_coreRow (op ch s) (hs : Keeps s₀ s) : Keeps s₀ (coreRow op ch s) := by
  unfold coreRow
  repeat' (first
    | (with_reducible assumption) | (with_reducible intro _) | (with_reducible apply keeps_coreGo)
    | (with_reducible apply keeps_foldl) | (with_reducible apply keeps_id) | (extract_lets) | (split)
    | (with_reducible apply keeps_ite) | (dsimp -zeta only) | (dsimp -zeta +zetaDelta only))

theorem keeps_takeSent (x s) (hs : Keeps s₀ s) : Keeps s₀ (takeSent x s) := by
  unfold takeSent
  repeat' (first
    | (with_reducible assumption) | (with_reducible intro _) | (with_reducible apply keeps_foldl)
    | (with_reducible apply keeps_id) | (extract_lets) | (split) | (with_reducible apply keeps_ite) | (dsimp -zeta only)
    | (dsimp -zeta +zetaDelta only) | (with_reducible apply keeps_with_net) | (with_reducible apply keeps_upd)
    | (exact Nat.le_refl _) | rfl | (exact Nat.le_add_right _ _) | (exact SMap.wf_filter _ (by with_reducible assumption) _))

theorem keeps_retryCore (ch s) (hs : Keeps s₀ s) : Keeps s₀ (retryCore ch s) := by
  unfold retryCore
  repeat' (first
    | (with_reducible assumption) | (with_reducible intro _) | (with_reducible apply keeps_coreGo)
    | (with_reducible apply keeps_foldl) | (with_reducible apply keeps_id) | (extract_lets) | (split)
    | (with_reducible apply keeps_ite) | (dsimp -zeta only) | (dsimp -zeta +zetaDelta only))

theorem keeps_meetCredits (u ctr n s) (hs : Keeps s₀ s) : Keeps s₀ (meetCredits u ctr n s) := by
  unfold meetCredits
  repeat' (first
    | (with_reducible assumption) | (with_reducible intro _) | (with_reducible apply keeps_State_setCore)
    | (with_reducible apply keeps_State_bump) | (with_reducible apply keeps_retryCore)
    | (with_reducible apply keeps_wakeSource) | (with_reducible apply keeps_settle) | (with_reducible apply keeps_tryArrays)
    | (with_reducible apply keeps_State_setUnit) | (with_reducible apply keeps_foldl) | (with_reducible apply keeps_id)
    | (extract_lets) | (split) | (with_reducible apply keeps_ite) | (dsimp -zeta only) | (dsimp -zeta +zetaDelta only))

theorem keeps_creditArrival (u ctr n s) (hs : Keeps s₀ s) : Keeps s₀ (creditArrival u ctr n s) := by
  unfold creditArrival
  repeat' (first
    | (with_reducible assumption) | (with_reducible intro _) | (with_reducible apply keeps_takeSent)
    | (with_reducible apply keeps_atEdge) | (with_reducible apply keeps_countWakeTo)
    | (with_reducible apply keeps_meetCredits) | (with_reducible apply keeps_foldl) | (with_reducible apply keeps_id)
    | (extract_lets) | (split) | (with_reducible apply keeps_ite) | (dsimp -zeta only) | (dsimp -zeta +zetaDelta only))

theorem keeps_execAddi (ch s) (hs : Keeps s₀ s) {w : State} (eq : execAddi ch s = .next w) : Keeps s₀ w := by
  unfold execAddi at eq
  injection eq with eq
  subst eq
  repeat' (first
    | (with_reducible assumption) | (with_reducible intro _) | (with_reducible apply keeps_coreRow)
    | (with_reducible apply keeps_foldl) | (with_reducible apply keeps_id) | (extract_lets) | (split)
    | (with_reducible apply keeps_ite) | (dsimp -zeta only) | (dsimp -zeta +zetaDelta only))

theorem keeps_execAlu (ch s) (hs : Keeps s₀ s) {w : State} (eq : execAlu ch s = .next w) : Keeps s₀ w := by
  unfold execAlu at eq
  injection eq with eq
  subst eq
  repeat' (first
    | (with_reducible assumption) | (with_reducible intro _) | (with_reducible apply keeps_coreRow)
    | (with_reducible apply keeps_foldl) | (with_reducible apply keeps_id) | (extract_lets) | (split)
    | (with_reducible apply keeps_ite) | (dsimp -zeta only) | (dsimp -zeta +zetaDelta only))

theorem keeps_execAndi (ch s) (hs : Keeps s₀ s) {w : State} (eq : execAndi ch s = .next w) : Keeps s₀ w := by
  unfold execAndi at eq
  injection eq with eq
  subst eq
  repeat' (first
    | (with_reducible assumption) | (with_reducible intro _) | (with_reducible apply keeps_coreRow)
    | (with_reducible apply keeps_foldl) | (with_reducible apply keeps_id) | (extract_lets) | (split)
    | (with_reducible apply keeps_ite) | (dsimp -zeta only) | (dsimp -zeta +zetaDelta only))

theorem keeps_execBeq (ch s) (hs : Keeps s₀ s) {w : State} (eq : execBeq ch s = .next w) : Keeps s₀ w := by
  unfold execBeq at eq
  injection eq with eq
  subst eq
  repeat' (first
    | (with_reducible assumption) | (with_reducible intro _) | (with_reducible apply keeps_coreRow)
    | (with_reducible apply keeps_foldl) | (with_reducible apply keeps_id) | (extract_lets) | (split)
    | (with_reducible apply keeps_ite) | (dsimp -zeta only) | (dsimp -zeta +zetaDelta only))

theorem keeps_execBge (ch s) (hs : Keeps s₀ s) {w : State} (eq : execBge ch s = .next w) : Keeps s₀ w := by
  unfold execBge at eq
  injection eq with eq
  subst eq
  repeat' (first
    | (with_reducible assumption) | (with_reducible intro _) | (with_reducible apply keeps_coreRow)
    | (with_reducible apply keeps_foldl) | (with_reducible apply keeps_id) | (extract_lets) | (split)
    | (with_reducible apply keeps_ite) | (dsimp -zeta only) | (dsimp -zeta +zetaDelta only))

theorem keeps_execBgeu (ch s) (hs : Keeps s₀ s) {w : State} (eq : execBgeu ch s = .next w) : Keeps s₀ w := by
  unfold execBgeu at eq
  injection eq with eq
  subst eq
  repeat' (first
    | (with_reducible assumption) | (with_reducible intro _) | (with_reducible apply keeps_coreRow)
    | (with_reducible apply keeps_foldl) | (with_reducible apply keeps_id) | (extract_lets) | (split)
    | (with_reducible apply keeps_ite) | (dsimp -zeta only) | (dsimp -zeta +zetaDelta only))

theorem keeps_execBlt (ch s) (hs : Keeps s₀ s) {w : State} (eq : execBlt ch s = .next w) : Keeps s₀ w := by
  unfold execBlt at eq
  injection eq with eq
  subst eq
  repeat' (first
    | (with_reducible assumption) | (with_reducible intro _) | (with_reducible apply keeps_coreRow)
    | (with_reducible apply keeps_foldl) | (with_reducible apply keeps_id) | (extract_lets) | (split)
    | (with_reducible apply keeps_ite) | (dsimp -zeta only) | (dsimp -zeta +zetaDelta only))

theorem keeps_execBltu (ch s) (hs : Keeps s₀ s) {w : State} (eq : execBltu ch s = .next w) : Keeps s₀ w := by
  unfold execBltu at eq
  injection eq with eq
  subst eq
  repeat' (first
    | (with_reducible assumption) | (with_reducible intro _) | (with_reducible apply keeps_coreRow)
    | (with_reducible apply keeps_foldl) | (with_reducible apply keeps_id) | (extract_lets) | (split)
    | (with_reducible apply keeps_ite) | (dsimp -zeta only) | (dsimp -zeta +zetaDelta only))

theorem keeps_execBne (ch s) (hs : Keeps s₀ s) {w : State} (eq : execBne ch s = .next w) : Keeps s₀ w := by
  unfold execBne at eq
  injection eq with eq
  subst eq
  repeat' (first
    | (with_reducible assumption) | (with_reducible intro _) | (with_reducible apply keeps_coreRow)
    | (with_reducible apply keeps_foldl) | (with_reducible apply keeps_id) | (extract_lets) | (split)
    | (with_reducible apply keeps_ite) | (dsimp -zeta only) | (dsimp -zeta +zetaDelta only))

theorem keeps_execCget (ch s) (hs : Keeps s₀ s) {w : State} (eq : execCget ch s = .next w) : Keeps s₀ w := by
  unfold execCget at eq
  injection eq with eq
  subst eq
  repeat' (first
    | (with_reducible assumption) | (with_reducible intro _) | (with_reducible apply keeps_coreRow)
    | (with_reducible apply keeps_foldl) | (with_reducible apply keeps_id) | (extract_lets) | (split)
    | (with_reducible apply keeps_ite) | (dsimp -zeta only) | (dsimp -zeta +zetaDelta only))

theorem keeps_execCgetTimeout (ch s) (hs : Keeps s₀ s) {w : State} (eq : execCgetTimeout ch s = .next w) : Keeps s₀ w := by
  unfold execCgetTimeout at eq
  injection eq with eq
  subst eq
  repeat' (first
    | (with_reducible assumption) | (with_reducible intro _) | (with_reducible apply keeps_cgetTimeout)
    | (with_reducible apply keeps_foldl) | (with_reducible apply keeps_id) | (extract_lets) | (split)
    | (with_reducible apply keeps_ite) | (dsimp -zeta only) | (dsimp -zeta +zetaDelta only))

theorem keeps_hostOwn (fn u o i act s) (hact : ∀ s, Keeps s₀ s → Keeps s₀ (act s)) (hs : Keeps s₀ s) : Keeps s₀ (hostOwn fn u o i act s) := by
  unfold hostOwn
  repeat' (first
    | (with_reducible assumption) | (with_reducible intro _) | (with_reducible apply keeps_ownerWrite)
    | (with_reducible apply keeps_atEdge) | (with_reducible apply keeps_hostWakeFail) | (with_reducible apply keeps_foldl)
    | (with_reducible apply keeps_id) | (apply hact) | (extract_lets) | (split) | (with_reducible apply keeps_ite)
    | (dsimp -zeta only) | (dsimp -zeta +zetaDelta only))

theorem keeps_nextMem (ch s) (hs : Keeps s₀ s) : Keeps s₀ (nextMem ch s) := by
  unfold nextMem
  repeat' (first
    | (with_reducible assumption) | (with_reducible intro _) | (with_reducible apply keeps_State_setFld)
    | (with_reducible apply keeps_foldl) | (with_reducible apply keeps_id) | (extract_lets) | (split)
    | (with_reducible apply keeps_ite) | (dsimp -zeta only) | (dsimp -zeta +zetaDelta only))

theorem keeps_memWrite (ch v s) (hs : Keeps s₀ s) : Keeps s₀ (memWrite ch v s) := by
  unfold memWrite
  repeat' (first
    | (with_reducible assumption) | (with_reducible intro _) | (with_reducible apply keeps_nextMem)
    | (with_reducible apply keeps_State_setCoreEcc) | (with_reducible apply keeps_State_setNum)
    | (with_reducible apply keeps_logStatus) | (with_reducible apply keeps_foldl) | (with_reducible apply keeps_id)
    | (extract_lets) | (split) | (with_reducible apply keeps_ite) | (dsimp -zeta only) | (dsimp -zeta +zetaDelta only))

theorem keeps_memRead (fn ch s) (hs : Keeps s₀ s) : Keeps s₀ (memRead fn ch s) := by
  unfold memRead
  repeat' (first
    | (with_reducible assumption) | (with_reducible intro _) | (with_reducible apply keeps_nextMem)
    | (with_reducible apply keeps_State_send) | (with_reducible apply keeps_foldl) | (with_reducible apply keeps_id)
    | (extract_lets) | (split) | (with_reducible apply keeps_ite) | (dsimp -zeta only) | (dsimp -zeta +zetaDelta only))

theorem keeps_execChsMemDataAccess (fn ch wr v s) (hs : Keeps s₀ s) {w : State} (eq : execChsMemDataAccess fn ch wr v s = .next w) : Keeps s₀ w := by
  unfold execChsMemDataAccess at eq
  injection eq with eq
  subst eq
  repeat' (first
    | (with_reducible assumption) | (with_reducible intro _) | (with_reducible apply keeps_posted)
    | (with_reducible apply keeps_hostOwn) | (with_reducible apply keeps_memWrite) | (with_reducible apply keeps_guarded)
    | (with_reducible apply keeps_atEdge) | (with_reducible apply keeps_State_send)
    | (with_reducible apply keeps_hostWakeFail) | (with_reducible apply keeps_memRead) | (with_reducible apply keeps_foldl)
    | (with_reducible apply keeps_id) | (extract_lets) | (split) | (with_reducible apply keeps_ite) | (dsimp -zeta only)
    | (dsimp -zeta +zetaDelta only))

theorem keeps_execCoreHalt (fn ch s) (hs : Keeps s₀ s) {w : State} (eq : execCoreHalt fn ch s = .next w) : Keeps s₀ w := by
  unfold execCoreHalt at eq
  injection eq with eq
  subst eq
  repeat' (first
    | (with_reducible assumption) | (with_reducible intro _) | (with_reducible apply keeps_posted)
    | (with_reducible apply keeps_hostOwn) | (with_reducible apply keeps_coreCtrl) | (with_reducible apply keeps_foldl)
    | (with_reducible apply keeps_id) | (extract_lets) | (split) | (with_reducible apply keeps_ite) | (dsimp -zeta only)
    | (dsimp -zeta +zetaDelta only))

theorem keeps_loadDone (ch s) (hs : Keeps s₀ s) : Keeps s₀ (loadDone ch s) := by
  unfold loadDone
  repeat' (first
    | (with_reducible assumption) | (with_reducible intro _) | (with_reducible apply keeps_askRemote)
    | (with_reducible apply keeps_freshCore) | (with_reducible apply keeps_readOver)
    | (with_reducible apply keeps_State_setBytes) | (with_reducible apply keeps_State_when)
    | (with_reducible apply keeps_readDone) | (with_reducible apply keeps_State_setCore)
    | (with_reducible apply keeps_coreActions) | (with_reducible apply keeps_raiseEv) | (with_reducible apply keeps_foldl)
    | (with_reducible apply keeps_id) | (extract_lets) | (split) | (with_reducible apply keeps_ite) | (dsimp -zeta only)
    | (dsimp -zeta +zetaDelta only))

theorem keeps_execCoreLoadDone (ch s) (hs : Keeps s₀ s) {w : State} (eq : execCoreLoadDone ch s = .next w) : Keeps s₀ w := by
  unfold execCoreLoadDone at eq
  injection eq with eq
  subst eq
  repeat' (first
    | (with_reducible assumption) | (with_reducible intro _) | (with_reducible apply keeps_loadDone)
    | (with_reducible apply keeps_foldl) | (with_reducible apply keeps_id) | (extract_lets) | (split)
    | (with_reducible apply keeps_ite) | (dsimp -zeta only) | (dsimp -zeta +zetaDelta only))

theorem keeps_execCoreReset (fn ch s) (hs : Keeps s₀ s) {w : State} (eq : execCoreReset fn ch s = .next w) : Keeps s₀ w := by
  unfold execCoreReset at eq
  injection eq with eq
  subst eq
  repeat' (first
    | (with_reducible assumption) | (with_reducible intro _) | (with_reducible apply keeps_posted)
    | (with_reducible apply keeps_hostOwn) | (with_reducible apply keeps_coreCtrl) | (with_reducible apply keeps_foldl)
    | (with_reducible apply keeps_id) | (extract_lets) | (split) | (with_reducible apply keeps_ite) | (dsimp -zeta only)
    | (dsimp -zeta +zetaDelta only))

theorem keeps_execCoreRun (fn ch s) (hs : Keeps s₀ s) {w : State} (eq : execCoreRun fn ch s = .next w) : Keeps s₀ w := by
  unfold execCoreRun at eq
  injection eq with eq
  subst eq
  repeat' (first
    | (with_reducible assumption) | (with_reducible intro _) | (with_reducible apply keeps_posted)
    | (with_reducible apply keeps_hostOwn) | (with_reducible apply keeps_coreCtrl) | (with_reducible apply keeps_foldl)
    | (with_reducible apply keeps_id) | (extract_lets) | (split) | (with_reducible apply keeps_ite) | (dsimp -zeta only)
    | (dsimp -zeta +zetaDelta only))

theorem keeps_execCoreStep (fn ch s) (hs : Keeps s₀ s) {w : State} (eq : execCoreStep fn ch s = .next w) : Keeps s₀ w := by
  unfold execCoreStep at eq
  injection eq with eq
  subst eq
  repeat' (first
    | (with_reducible assumption) | (with_reducible intro _) | (with_reducible apply keeps_posted)
    | (with_reducible apply keeps_hostOwn) | (with_reducible apply keeps_coreCtrl) | (with_reducible apply keeps_foldl)
    | (with_reducible apply keeps_id) | (extract_lets) | (split) | (with_reducible apply keeps_ite) | (dsimp -zeta only)
    | (dsimp -zeta +zetaDelta only))

theorem keeps_execCoreWake (fn ch s) (hs : Keeps s₀ s) {w : State} (eq : execCoreWake fn ch s = .next w) : Keeps s₀ w := by
  unfold execCoreWake at eq
  injection eq with eq
  subst eq
  repeat' (first
    | (with_reducible assumption) | (with_reducible intro _) | (with_reducible apply keeps_posted)
    | (with_reducible apply keeps_ownerWrite) | (with_reducible apply keeps_atEdge)
    | (with_reducible apply keeps_hostWakeFail) | (with_reducible apply keeps_coreCtrl) | (with_reducible apply keeps_foldl)
    | (with_reducible apply keeps_id) | (extract_lets) | (split) | (with_reducible apply keeps_ite) | (dsimp -zeta only)
    | (dsimp -zeta +zetaDelta only))

theorem keeps_execCput (ch s) (hs : Keeps s₀ s) {w : State} (eq : execCput ch s = .next w) : Keeps s₀ w := by
  unfold execCput at eq
  injection eq with eq
  subst eq
  repeat' (first
    | (with_reducible assumption) | (with_reducible intro _) | (with_reducible apply keeps_coreRow)
    | (with_reducible apply keeps_foldl) | (with_reducible apply keeps_id) | (extract_lets) | (split)
    | (with_reducible apply keeps_ite) | (dsimp -zeta only) | (dsimp -zeta +zetaDelta only))

theorem keeps_execCreditArrival (u ctr count s) (hs : Keeps s₀ s) {w : State} (eq : execCreditArrival u ctr count s = .next w) : Keeps s₀ w := by
  unfold execCreditArrival at eq
  injection eq with eq
  subst eq
  repeat' (first
    | (with_reducible assumption) | (with_reducible intro _) | (with_reducible apply keeps_creditArrival)
    | (with_reducible apply keeps_foldl) | (with_reducible apply keeps_id) | (extract_lets) | (split)
    | (with_reducible apply keeps_ite) | (dsimp -zeta only) | (dsimp -zeta +zetaDelta only))

theorem keeps_execFence (ch s) (hs : Keeps s₀ s) {w : State} (eq : execFence ch s = .next w) : Keeps s₀ w := by
  unfold execFence at eq
  injection eq with eq
  subst eq
  repeat' (first
    | (with_reducible assumption) | (with_reducible intro _) | (with_reducible apply keeps_coreRow)
    | (with_reducible apply keeps_foldl) | (with_reducible apply keeps_id) | (extract_lets) | (split)
    | (with_reducible apply keeps_ite) | (dsimp -zeta only) | (dsimp -zeta +zetaDelta only))

theorem keeps_execIssue (ch s) (hs : Keeps s₀ s) {w : State} (eq : execIssue ch s = .next w) : Keeps s₀ w := by
  unfold execIssue at eq
  injection eq with eq
  subst eq
  repeat' (first
    | (with_reducible assumption) | (with_reducible intro _) | (with_reducible apply keeps_coreRow)
    | (with_reducible apply keeps_foldl) | (with_reducible apply keeps_id) | (extract_lets) | (split)
    | (with_reducible apply keeps_ite) | (dsimp -zeta only) | (dsimp -zeta +zetaDelta only))

theorem keeps_issueTimeout (ch s) (hs : Keeps s₀ s) : Keeps s₀ (issueTimeout ch s) := by
  unfold issueTimeout
  repeat' (first
    | (with_reducible assumption) | (with_reducible intro _) | (with_reducible apply keeps_coreGo)
    | (with_reducible apply keeps_onTimeout) | (with_reducible apply keeps_lossHold)
    | (with_reducible apply keeps_retireNext) | (with_reducible apply keeps_foldl) | (with_reducible apply keeps_id)
    | (extract_lets) | (split) | (with_reducible apply keeps_ite) | (dsimp -zeta only) | (dsimp -zeta +zetaDelta only))

theorem keeps_execIssueTimeout (ch s) (hs : Keeps s₀ s) {w : State} (eq : execIssueTimeout ch s = .next w) : Keeps s₀ w := by
  unfold execIssueTimeout at eq
  injection eq with eq
  subst eq
  repeat' (first
    | (with_reducible assumption) | (with_reducible intro _) | (with_reducible apply keeps_issueTimeout)
    | (with_reducible apply keeps_foldl) | (with_reducible apply keeps_id) | (extract_lets) | (split)
    | (with_reducible apply keeps_ite) | (dsimp -zeta only) | (dsimp -zeta +zetaDelta only))

theorem keeps_execJal (ch s) (hs : Keeps s₀ s) {w : State} (eq : execJal ch s = .next w) : Keeps s₀ w := by
  unfold execJal at eq
  injection eq with eq
  subst eq
  repeat' (first
    | (with_reducible assumption) | (with_reducible intro _) | (with_reducible apply keeps_coreRow)
    | (with_reducible apply keeps_foldl) | (with_reducible apply keeps_id) | (extract_lets) | (split)
    | (with_reducible apply keeps_ite) | (dsimp -zeta only) | (dsimp -zeta +zetaDelta only))

theorem keeps_execJr (ch s) (hs : Keeps s₀ s) {w : State} (eq : execJr ch s = .next w) : Keeps s₀ w := by
  unfold execJr at eq
  injection eq with eq
  subst eq
  repeat' (first
    | (with_reducible assumption) | (with_reducible intro _) | (with_reducible apply keeps_coreRow)
    | (with_reducible apply keeps_foldl) | (with_reducible apply keeps_id) | (extract_lets) | (split)
    | (with_reducible apply keeps_ite) | (dsimp -zeta only) | (dsimp -zeta +zetaDelta only))

theorem keeps_execLdb (ch s) (hs : Keeps s₀ s) {w : State} (eq : execLdb ch s = .next w) : Keeps s₀ w := by
  unfold execLdb at eq
  injection eq with eq
  subst eq
  repeat' (first
    | (with_reducible assumption) | (with_reducible intro _) | (with_reducible apply keeps_coreRow)
    | (with_reducible apply keeps_foldl) | (with_reducible apply keeps_id) | (extract_lets) | (split)
    | (with_reducible apply keeps_ite) | (dsimp -zeta only) | (dsimp -zeta +zetaDelta only))

theorem keeps_execLdbu (ch s) (hs : Keeps s₀ s) {w : State} (eq : execLdbu ch s = .next w) : Keeps s₀ w := by
  unfold execLdbu at eq
  injection eq with eq
  subst eq
  repeat' (first
    | (with_reducible assumption) | (with_reducible intro _) | (with_reducible apply keeps_coreRow)
    | (with_reducible apply keeps_foldl) | (with_reducible apply keeps_id) | (extract_lets) | (split)
    | (with_reducible apply keeps_ite) | (dsimp -zeta only) | (dsimp -zeta +zetaDelta only))

theorem keeps_execLdh (ch s) (hs : Keeps s₀ s) {w : State} (eq : execLdh ch s = .next w) : Keeps s₀ w := by
  unfold execLdh at eq
  injection eq with eq
  subst eq
  repeat' (first
    | (with_reducible assumption) | (with_reducible intro _) | (with_reducible apply keeps_coreRow)
    | (with_reducible apply keeps_foldl) | (with_reducible apply keeps_id) | (extract_lets) | (split)
    | (with_reducible apply keeps_ite) | (dsimp -zeta only) | (dsimp -zeta +zetaDelta only))

theorem keeps_execLdhu (ch s) (hs : Keeps s₀ s) {w : State} (eq : execLdhu ch s = .next w) : Keeps s₀ w := by
  unfold execLdhu at eq
  injection eq with eq
  subst eq
  repeat' (first
    | (with_reducible assumption) | (with_reducible intro _) | (with_reducible apply keeps_coreRow)
    | (with_reducible apply keeps_foldl) | (with_reducible apply keeps_id) | (extract_lets) | (split)
    | (with_reducible apply keeps_ite) | (dsimp -zeta only) | (dsimp -zeta +zetaDelta only))

theorem keeps_execLdw (ch s) (hs : Keeps s₀ s) {w : State} (eq : execLdw ch s = .next w) : Keeps s₀ w := by
  unfold execLdw at eq
  injection eq with eq
  subst eq
  repeat' (first
    | (with_reducible assumption) | (with_reducible intro _) | (with_reducible apply keeps_coreRow)
    | (with_reducible apply keeps_foldl) | (with_reducible apply keeps_id) | (extract_lets) | (split)
    | (with_reducible apply keeps_ite) | (dsimp -zeta only) | (dsimp -zeta +zetaDelta only))

theorem keeps_execLoadDmem (fn ch s) (hs : Keeps s₀ s) {w : State} (eq : execLoadDmem fn ch s = .next w) : Keeps s₀ w := by
  unfold execLoadDmem at eq
  injection eq with eq
  subst eq
  repeat' (first
    | (with_reducible assumption) | (with_reducible intro _) | (with_reducible apply keeps_posted)
    | (with_reducible apply keeps_hostOwn) | (with_reducible apply keeps_coreCtrl) | (with_reducible apply keeps_foldl)
    | (with_reducible apply keeps_id) | (extract_lets) | (split) | (with_reducible apply keeps_ite) | (dsimp -zeta only)
    | (dsimp -zeta +zetaDelta only))

theorem keeps_execLoadImem (fn ch s) (hs : Keeps s₀ s) {w : State} (eq : execLoadImem fn ch s = .next w) : Keeps s₀ w := by
  unfold execLoadImem at eq
  injection eq with eq
  subst eq
  repeat' (first
    | (with_reducible assumption) | (with_reducible intro _) | (with_reducible apply keeps_posted)
    | (with_reducible apply keeps_hostOwn) | (with_reducible apply keeps_coreCtrl) | (with_reducible apply keeps_foldl)
    | (with_reducible apply keeps_id) | (extract_lets) | (split) | (with_reducible apply keeps_ite) | (dsimp -zeta only)
    | (dsimp -zeta +zetaDelta only))

theorem keeps_execLui (ch s) (hs : Keeps s₀ s) {w : State} (eq : execLui ch s = .next w) : Keeps s₀ w := by
  unfold execLui at eq
  injection eq with eq
  subst eq
  repeat' (first
    | (with_reducible assumption) | (with_reducible intro _) | (with_reducible apply keeps_coreRow)
    | (with_reducible apply keeps_foldl) | (with_reducible apply keeps_id) | (extract_lets) | (split)
    | (with_reducible apply keeps_ite) | (dsimp -zeta only) | (dsimp -zeta +zetaDelta only))

theorem keeps_execOri (ch s) (hs : Keeps s₀ s) {w : State} (eq : execOri ch s = .next w) : Keeps s₀ w := by
  unfold execOri at eq
  injection eq with eq
  subst eq
  repeat' (first
    | (with_reducible assumption) | (with_reducible intro _) | (with_reducible apply keeps_coreRow)
    | (with_reducible apply keeps_foldl) | (with_reducible apply keeps_id) | (extract_lets) | (split)
    | (with_reducible apply keeps_ite) | (dsimp -zeta only) | (dsimp -zeta +zetaDelta only))

theorem keeps_outboundSend (ch s) (hs : Keeps s₀ s) : Keeps s₀ (outboundSend ch s) := by
  unfold outboundSend
  repeat' (first
    | (with_reducible assumption) | (with_reducible intro _) | (with_reducible apply keeps_State_setCore)
    | (with_reducible apply keeps_retryCore) | (with_reducible apply keeps_completeNear)
    | (with_reducible apply keeps_enqueue) | (with_reducible apply keeps_foldl) | (with_reducible apply keeps_id)
    | (extract_lets) | (split) | (with_reducible apply keeps_ite) | (dsimp -zeta only) | (dsimp -zeta +zetaDelta only))

theorem keeps_execOutboundSend (ch s) (hs : Keeps s₀ s) {w : State} (eq : execOutboundSend ch s = .next w) : Keeps s₀ w := by
  unfold execOutboundSend at eq
  injection eq with eq
  subst eq
  repeat' (first
    | (with_reducible assumption) | (with_reducible intro _) | (with_reducible apply keeps_outboundSend)
    | (with_reducible apply keeps_foldl) | (with_reducible apply keeps_id) | (extract_lets) | (split)
    | (with_reducible apply keeps_ite) | (dsimp -zeta only) | (dsimp -zeta +zetaDelta only))

theorem keeps_execRdcnt (ch s) (hs : Keeps s₀ s) {w : State} (eq : execRdcnt ch s = .next w) : Keeps s₀ w := by
  unfold execRdcnt at eq
  injection eq with eq
  subst eq
  repeat' (first
    | (with_reducible assumption) | (with_reducible intro _) | (with_reducible apply keeps_coreRow)
    | (with_reducible apply keeps_foldl) | (with_reducible apply keeps_id) | (extract_lets) | (split)
    | (with_reducible apply keeps_ite) | (dsimp -zeta only) | (dsimp -zeta +zetaDelta only))

theorem keeps_execRte (ch s) (hs : Keeps s₀ s) {w : State} (eq : execRte ch s = .next w) : Keeps s₀ w := by
  unfold execRte at eq
  injection eq with eq
  subst eq
  repeat' (first
    | (with_reducible assumption) | (with_reducible intro _) | (with_reducible apply keeps_coreRow)
    | (with_reducible apply keeps_foldl) | (with_reducible apply keeps_id) | (extract_lets) | (split)
    | (with_reducible apply keeps_ite) | (dsimp -zeta only) | (dsimp -zeta +zetaDelta only))

theorem keeps_execShi (ch s) (hs : Keeps s₀ s) {w : State} (eq : execShi ch s = .next w) : Keeps s₀ w := by
  unfold execShi at eq
  injection eq with eq
  subst eq
  repeat' (first
    | (with_reducible assumption) | (with_reducible intro _) | (with_reducible apply keeps_coreRow)
    | (with_reducible apply keeps_foldl) | (with_reducible apply keeps_id) | (extract_lets) | (split)
    | (with_reducible apply keeps_ite) | (dsimp -zeta only) | (dsimp -zeta +zetaDelta only))

theorem keeps_execSlti (ch s) (hs : Keeps s₀ s) {w : State} (eq : execSlti ch s = .next w) : Keeps s₀ w := by
  unfold execSlti at eq
  injection eq with eq
  subst eq
  repeat' (first
    | (with_reducible assumption) | (with_reducible intro _) | (with_reducible apply keeps_coreRow)
    | (with_reducible apply keeps_foldl) | (with_reducible apply keeps_id) | (extract_lets) | (split)
    | (with_reducible apply keeps_ite) | (dsimp -zeta only) | (dsimp -zeta +zetaDelta only))

theorem keeps_execStb (ch s) (hs : Keeps s₀ s) {w : State} (eq : execStb ch s = .next w) : Keeps s₀ w := by
  unfold execStb at eq
  injection eq with eq
  subst eq
  repeat' (first
    | (with_reducible assumption) | (with_reducible intro _) | (with_reducible apply keeps_coreRow)
    | (with_reducible apply keeps_foldl) | (with_reducible apply keeps_id) | (extract_lets) | (split)
    | (with_reducible apply keeps_ite) | (dsimp -zeta only) | (dsimp -zeta +zetaDelta only))

theorem keeps_execSth (ch s) (hs : Keeps s₀ s) {w : State} (eq : execSth ch s = .next w) : Keeps s₀ w := by
  unfold execSth at eq
  injection eq with eq
  subst eq
  repeat' (first
    | (with_reducible assumption) | (with_reducible intro _) | (with_reducible apply keeps_coreRow)
    | (with_reducible apply keeps_foldl) | (with_reducible apply keeps_id) | (extract_lets) | (split)
    | (with_reducible apply keeps_ite) | (dsimp -zeta only) | (dsimp -zeta +zetaDelta only))

theorem keeps_execStw (ch s) (hs : Keeps s₀ s) {w : State} (eq : execStw ch s = .next w) : Keeps s₀ w := by
  unfold execStw at eq
  injection eq with eq
  subst eq
  repeat' (first
    | (with_reducible assumption) | (with_reducible intro _) | (with_reducible apply keeps_coreRow)
    | (with_reducible apply keeps_foldl) | (with_reducible apply keeps_id) | (extract_lets) | (split)
    | (with_reducible apply keeps_ite) | (dsimp -zeta only) | (dsimp -zeta +zetaDelta only))

theorem keeps_meetArrival (u stream seq st s) (hs : Keeps s₀ s) : Keeps s₀ (meetArrival u stream seq st s) := by
  unfold meetArrival
  repeat' (first
    | (with_reducible assumption) | (with_reducible intro _) | (with_reducible apply keeps_State_each)
    | (with_reducible apply keeps_State_setQ) | (with_reducible apply keeps_recordToken)
    | (with_reducible apply keeps_retryCore) | (with_reducible apply keeps_wakeSource) | (with_reducible apply keeps_settle)
    | (with_reducible apply keeps_tryArrays) | (with_reducible apply keeps_foldl) | (with_reducible apply keeps_id)
    | (extract_lets) | (split) | (with_reducible apply keeps_ite) | (dsimp -zeta only) | (dsimp -zeta +zetaDelta only))

theorem keeps_tokenArrival (u stream seq st s) (hs : Keeps s₀ s) : Keeps s₀ (tokenArrival u stream seq st s) := by
  unfold tokenArrival
  repeat' (first
    | (with_reducible assumption) | (with_reducible intro _) | (with_reducible apply keeps_takeSent)
    | (with_reducible apply keeps_atEdge) | (with_reducible apply keeps_countWakeTo)
    | (with_reducible apply keeps_meetArrival) | (with_reducible apply keeps_foldl) | (with_reducible apply keeps_id)
    | (extract_lets) | (split) | (with_reducible apply keeps_ite) | (dsimp -zeta only) | (dsimp -zeta +zetaDelta only))

theorem keeps_execTokenArrival (u stream seq st s) (hs : Keeps s₀ s) {w : State} (eq : execTokenArrival u stream seq st s = .next w) : Keeps s₀ w := by
  unfold execTokenArrival at eq
  injection eq with eq
  subst eq
  repeat' (first
    | (with_reducible assumption) | (with_reducible intro _) | (with_reducible apply keeps_tokenArrival)
    | (with_reducible apply keeps_foldl) | (with_reducible apply keeps_id) | (extract_lets) | (split)
    | (with_reducible apply keeps_ite) | (dsimp -zeta only) | (dsimp -zeta +zetaDelta only))

theorem keeps_execTrap (ch s) (hs : Keeps s₀ s) {w : State} (eq : execTrap ch s = .next w) : Keeps s₀ w := by
  unfold execTrap at eq
  injection eq with eq
  subst eq
  repeat' (first
    | (with_reducible assumption) | (with_reducible intro _) | (with_reducible apply keeps_coreRow)
    | (with_reducible apply keeps_foldl) | (with_reducible apply keeps_id) | (extract_lets) | (split)
    | (with_reducible apply keeps_ite) | (dsimp -zeta only) | (dsimp -zeta +zetaDelta only))

theorem keeps_execTsend (ch s) (hs : Keeps s₀ s) {w : State} (eq : execTsend ch s = .next w) : Keeps s₀ w := by
  unfold execTsend at eq
  injection eq with eq
  subst eq
  repeat' (first
    | (with_reducible assumption) | (with_reducible intro _) | (with_reducible apply keeps_coreRow)
    | (with_reducible apply keeps_foldl) | (with_reducible apply keeps_id) | (extract_lets) | (split)
    | (with_reducible apply keeps_ite) | (dsimp -zeta only) | (dsimp -zeta +zetaDelta only))

theorem keeps_execTwait (ch s) (hs : Keeps s₀ s) {w : State} (eq : execTwait ch s = .next w) : Keeps s₀ w := by
  unfold execTwait at eq
  injection eq with eq
  subst eq
  repeat' (first
    | (with_reducible assumption) | (with_reducible intro _) | (with_reducible apply keeps_coreRow)
    | (with_reducible apply keeps_foldl) | (with_reducible apply keeps_id) | (extract_lets) | (split)
    | (with_reducible apply keeps_ite) | (dsimp -zeta only) | (dsimp -zeta +zetaDelta only))

theorem keeps_twaitTimeout (ch s) (hs : Keeps s₀ s) : Keeps s₀ (twaitTimeout ch s) := by
  unfold twaitTimeout
  repeat' (first
    | (with_reducible assumption) | (with_reducible intro _) | (with_reducible apply keeps_coreGo)
    | (with_reducible apply keeps_onTimeout) | (with_reducible apply keeps_lossHold) | (with_reducible apply keeps_takeTrap)
    | (with_reducible apply keeps_retireNext) | (with_reducible apply keeps_foldl) | (with_reducible apply keeps_id)
    | (extract_lets) | (split) | (with_reducible apply keeps_ite) | (dsimp -zeta only) | (dsimp -zeta +zetaDelta only))

theorem keeps_execTwaitTimeout (ch s) (hs : Keeps s₀ s) {w : State} (eq : execTwaitTimeout ch s = .next w) : Keeps s₀ w := by
  unfold execTwaitTimeout at eq
  injection eq with eq
  subst eq
  repeat' (first
    | (with_reducible assumption) | (with_reducible intro _) | (with_reducible apply keeps_twaitTimeout)
    | (with_reducible apply keeps_foldl) | (with_reducible apply keeps_id) | (extract_lets) | (split)
    | (with_reducible apply keeps_ite) | (dsimp -zeta only) | (dsimp -zeta +zetaDelta only))

theorem keeps_execWait (ch s) (hs : Keeps s₀ s) {w : State} (eq : execWait ch s = .next w) : Keeps s₀ w := by
  unfold execWait at eq
  injection eq with eq
  subst eq
  repeat' (first
    | (with_reducible assumption) | (with_reducible intro _) | (with_reducible apply keeps_coreRow)
    | (with_reducible apply keeps_foldl) | (with_reducible apply keeps_id) | (extract_lets) | (split)
    | (with_reducible apply keeps_ite) | (dsimp -zeta only) | (dsimp -zeta +zetaDelta only))

theorem keeps_waitTimerExpiry (ch s) (hs : Keeps s₀ s) : Keeps s₀ (waitTimerExpiry ch s) := by
  unfold waitTimerExpiry
  repeat' (first
    | (with_reducible assumption) | (with_reducible intro _) | (with_reducible apply keeps_atEdge)
    | (with_reducible apply keeps_countWakeTo) | (with_reducible apply keeps_wakeSource) | (with_reducible apply keeps_foldl)
    | (with_reducible apply keeps_id) | (extract_lets) | (split) | (with_reducible apply keeps_ite) | (dsimp -zeta only)
    | (dsimp -zeta +zetaDelta only))

theorem keeps_execWaitTimerExpiry (ch s) (hs : Keeps s₀ s) {w : State} (eq : execWaitTimerExpiry ch s = .next w) : Keeps s₀ w := by
  unfold execWaitTimerExpiry at eq
  injection eq with eq
  subst eq
  repeat' (first
    | (with_reducible assumption) | (with_reducible intro _) | (with_reducible apply keeps_waitTimerExpiry)
    | (with_reducible apply keeps_foldl) | (with_reducible apply keeps_id) | (extract_lets) | (split)
    | (with_reducible apply keeps_ite) | (dsimp -zeta only) | (dsimp -zeta +zetaDelta only))

theorem keeps_watchdogExpiry (ch s) (hs : Keeps s₀ s) : Keeps s₀ (watchdogExpiry ch s) := by
  unfold watchdogExpiry
  repeat' (first
    | (with_reducible assumption) | (with_reducible intro _) | (with_reducible apply keeps_lossHold)
    | (with_reducible apply keeps_takeTrap) | (with_reducible apply keeps_raiseEv)
    | (with_reducible apply keeps_State_setCore) | (with_reducible apply keeps_foldl) | (with_reducible apply keeps_id)
    | (extract_lets) | (split) | (with_reducible apply keeps_ite) | (dsimp -zeta only) | (dsimp -zeta +zetaDelta only))

theorem keeps_execWatchdogExpiry (ch s) (hs : Keeps s₀ s) {w : State} (eq : execWatchdogExpiry ch s = .next w) : Keeps s₀ w := by
  unfold execWatchdogExpiry at eq
  injection eq with eq
  subst eq
  repeat' (first
    | (with_reducible assumption) | (with_reducible intro _) | (with_reducible apply keeps_watchdogExpiry)
    | (with_reducible apply keeps_foldl) | (with_reducible apply keeps_id) | (extract_lets) | (split)
    | (with_reducible apply keeps_ite) | (dsimp -zeta only) | (dsimp -zeta +zetaDelta only))

theorem keeps_execXori (ch s) (hs : Keeps s₀ s) {w : State} (eq : execXori ch s = .next w) : Keeps s₀ w := by
  unfold execXori at eq
  injection eq with eq
  subst eq
  repeat' (first
    | (with_reducible assumption) | (with_reducible intro _) | (with_reducible apply keeps_coreRow)
    | (with_reducible apply keeps_foldl) | (with_reducible apply keeps_id) | (extract_lets) | (split)
    | (with_reducible apply keeps_ite) | (dsimp -zeta only) | (dsimp -zeta +zetaDelta only))

end Sys2Proof.Machine.Laws
end

