-- ==== Sys2Proof/Laws/KeepsTiers.lean ====
section
/-! SUPPORT. Every definition of Sys2Proof/Machine/Tiers.lean keeps what `Keeps` names. -/

namespace Sys2Proof.Machine.Laws

variable {s₀ : State}

theorem keeps_loseMove (m s) (hs : Keeps s₀ s) : Keeps s₀ (loseMove m s) := by
  unfold loseMove
  repeat' (first
    | (with_reducible assumption) | (with_reducible intro _) | (with_reducible apply keeps_hintCheck)
    | (with_reducible apply keeps_reqDone) | (with_reducible apply keeps_abandonMove) | (with_reducible apply keeps_foldl)
    | (with_reducible apply keeps_id) | (extract_lets) | (split) | (with_reducible apply keeps_ite) | (dsimp -zeta only)
    | (dsimp -zeta +zetaDelta only))

theorem keeps_loseTile (t s) (hs : Keeps s₀ s) : Keeps s₀ (loseTile t s) := by
  unfold loseTile
  repeat' (first
    | (with_reducible assumption) | (with_reducible intro _) | (with_reducible apply keeps_State_each)
    | (with_reducible apply keeps_hintCheck) | (with_reducible apply keeps_reqDone) | (with_reducible apply keeps_dropMove)
    | (with_reducible apply keeps_setTileState) | (with_reducible apply keeps_freeTile)
    | (with_reducible apply keeps_failCask) | (with_reducible apply keeps_foldl) | (with_reducible apply keeps_id)
    | (extract_lets) | (split) | (with_reducible apply keeps_ite) | (dsimp -zeta only) | (dsimp -zeta +zetaDelta only))

theorem keeps_endLease (l s) (hs : Keeps s₀ s) : Keeps s₀ (endLease l s) := by
  unfold endLease
  repeat' (first
    | (with_reducible assumption) | (with_reducible intro _) | (with_reducible apply keeps_State_each)
    | (with_reducible apply keeps_loseMove) | (with_reducible apply keeps_wakeReqs) | (with_reducible apply keeps_loseTile)
    | (with_reducible apply keeps_settle) | (with_reducible apply keeps_tryArrays) | (with_reducible apply keeps_raiseEv)
    | (with_reducible apply keeps_State_setLease) | (with_reducible apply keeps_foldl) | (with_reducible apply keeps_id)
    | (extract_lets) | (split) | (with_reducible apply keeps_ite) | (dsimp -zeta only) | (dsimp -zeta +zetaDelta only))

theorem keeps_evictMany (l n s) (hs : Keeps s₀ s) : Keeps s₀ (evictMany l n s) := by
  induction l generalizing n s with
  | nil => exact hs
  | cons x l ih =>
    simp only [Sys2Proof.Machine.evictMany]
    split
    · exact hs
    · split
      · next h => exact ih _ _ (keeps_startMove _ _ _ _ _ hs h)
      · exact ih _ _ hs

theorem keeps_enforceQuota (job tier s) (hs : Keeps s₀ s) : Keeps s₀ (enforceQuota job tier s) := by
  unfold enforceQuota
  repeat' (first
    | (with_reducible assumption) | (with_reducible intro _) | (with_reducible apply keeps_evictMany)
    | (with_reducible apply keeps_raiseEv) | (with_reducible apply keeps_foldl) | (with_reducible apply keeps_id)
    | (extract_lets) | (split) | (with_reducible apply keeps_ite) | (dsimp -zeta only) | (dsimp -zeta +zetaDelta only)
    | (with_reducible apply keeps_with_tiers) | (with_reducible apply keeps_upd) | (exact Nat.le_refl _) | rfl
    | (exact Nat.le_add_right _ _) | (exact SMap.wf_filter _ (by with_reducible assumption) _))

theorem keeps_enforceQuotas (s) (hs : Keeps s₀ s) : Keeps s₀ (enforceQuotas s) := by
  unfold enforceQuotas
  repeat' (first
    | (with_reducible assumption) | (with_reducible intro _) | (with_reducible apply keeps_State_each)
    | (with_reducible apply keeps_enforceQuota) | (with_reducible apply keeps_foldl) | (with_reducible apply keeps_id)
    | (extract_lets) | (split) | (with_reducible apply keeps_ite) | (dsimp -zeta only) | (dsimp -zeta +zetaDelta only))

theorem keeps_leaseEvacuate (l s) (hs : Keeps s₀ s) : Keeps s₀ (leaseEvacuate l s) := by
  unfold leaseEvacuate
  repeat' (first
    | (with_reducible assumption) | (with_reducible intro _)
    | (refine keeps_startMove _ _ _ _ _ ?_ (by with_reducible assumption)) | (with_reducible apply keeps_State_each)
    | (with_reducible apply keeps_foldl) | (with_reducible apply keeps_id) | (with_reducible apply keeps_getD)
    | (extract_lets) | (split) | (with_reducible apply keeps_ite) | (dsimp -zeta only) | (dsimp -zeta +zetaDelta only))

theorem keeps_execLeaseEvacuate (l s) (hs : Keeps s₀ s) {w : State} (eq : execLeaseEvacuate l s = .next w) : Keeps s₀ w := by
  unfold execLeaseEvacuate at eq
  injection eq with eq
  subst eq
  repeat' (first
    | (with_reducible assumption) | (with_reducible intro _) | (with_reducible apply keeps_leaseEvacuate)
    | (with_reducible apply keeps_foldl) | (with_reducible apply keeps_id) | (extract_lets) | (split)
    | (with_reducible apply keeps_ite) | (dsimp -zeta only) | (dsimp -zeta +zetaDelta only))

theorem keeps_leaseExpiry (l s) (hs : Keeps s₀ s) : Keeps s₀ (leaseExpiry l s) := by
  unfold leaseExpiry
  repeat' (first
    | (with_reducible assumption) | (with_reducible intro _) | (with_reducible apply keeps_endLease)
    | (with_reducible apply keeps_foldl) | (with_reducible apply keeps_id) | (extract_lets) | (split)
    | (with_reducible apply keeps_ite) | (dsimp -zeta only) | (dsimp -zeta +zetaDelta only)
    | (with_reducible apply keeps_with_tiers) | (with_reducible apply keeps_upd) | (exact Nat.le_refl _) | rfl
    | (exact Nat.le_add_right _ _) | (exact SMap.wf_filter _ (by with_reducible assumption) _))

theorem keeps_execLeaseExpiry (l s) (hs : Keeps s₀ s) {w : State} (eq : execLeaseExpiry l s = .next w) : Keeps s₀ w := by
  unfold execLeaseExpiry at eq
  injection eq with eq
  subst eq
  repeat' (first
    | (with_reducible assumption) | (with_reducible intro _) | (with_reducible apply keeps_leaseExpiry)
    | (with_reducible apply keeps_foldl) | (with_reducible apply keeps_id) | (extract_lets) | (split)
    | (with_reducible apply keeps_ite) | (dsimp -zeta only) | (dsimp -zeta +zetaDelta only))

theorem keeps_leaseWrite (fn act s) (hact : ∀ s, Keeps s₀ s → Keeps s₀ (act s)) (hs : Keeps s₀ s) : Keeps s₀ (leaseWrite fn act s) := by
  unfold leaseWrite
  repeat' (first
    | (with_reducible assumption) | (with_reducible intro _) | (with_reducible apply keeps_ownerWrite)
    | (with_reducible apply keeps_foldl) | (with_reducible apply keeps_id) | (apply hact) | (extract_lets) | (split)
    | (with_reducible apply keeps_ite) | (dsimp -zeta only) | (dsimp -zeta +zetaDelta only))

theorem keeps_leaseLoad (s) (hs : Keeps s₀ s) : Keeps s₀ (leaseLoad s) := by
  unfold leaseLoad
  repeat' (first
    | (with_reducible assumption) | (with_reducible intro _) | (with_reducible apply keeps_State_setRegN)
    | (with_reducible apply keeps_foldl) | (with_reducible apply keeps_id) | (extract_lets) | (split)
    | (with_reducible apply keeps_ite) | (dsimp -zeta only) | (dsimp -zeta +zetaDelta only))

theorem keeps_execLeaseLoad (fn s) (hs : Keeps s₀ s) {w : State} (eq : execLeaseLoad fn s = .next w) : Keeps s₀ w := by
  unfold execLeaseLoad at eq
  injection eq with eq
  subst eq
  repeat' (first
    | (with_reducible assumption) | (with_reducible intro _) | (with_reducible apply keeps_posted)
    | (with_reducible apply keeps_leaseWrite) | (with_reducible apply keeps_leaseLoad) | (with_reducible apply keeps_foldl)
    | (with_reducible apply keeps_id) | (extract_lets) | (split) | (with_reducible apply keeps_ite) | (dsimp -zeta only)
    | (dsimp -zeta +zetaDelta only))

theorem keeps_leaseConflict (s) (hs : Keeps s₀ s) : Keeps s₀ (leaseConflict s) := by
  unfold leaseConflict
  repeat' (first
    | (with_reducible assumption) | (with_reducible intro _) | (with_reducible apply keeps_logStatus)
    | (with_reducible apply keeps_foldl) | (with_reducible apply keeps_id) | (extract_lets) | (split)
    | (with_reducible apply keeps_ite) | (dsimp -zeta only) | (dsimp -zeta +zetaDelta only))

theorem keeps_sendLease (dest sub lease size expiry s) (hs : Keeps s₀ s) : Keeps s₀ (sendLease dest sub lease size expiry s) := by
  unfold sendLease
  repeat' (first
    | (with_reducible assumption) | (with_reducible intro _) | (with_reducible apply keeps_sendPacket)
    | (with_reducible apply keeps_foldl) | (with_reducible apply keeps_id) | (extract_lets) | (split)
    | (with_reducible apply keeps_ite) | (dsimp -zeta only) | (dsimp -zeta +zetaDelta only))

theorem keeps_leaseRelease (s) (hs : Keeps s₀ s) : Keeps s₀ (leaseRelease s) := by
  unfold leaseRelease
  repeat' (first
    | (with_reducible assumption) | (with_reducible intro _) | (with_reducible apply keeps_leaseConflict)
    | (with_reducible apply keeps_sendLease) | (with_reducible apply keeps_State_setLease)
    | (with_reducible apply keeps_foldl) | (with_reducible apply keeps_id) | (extract_lets) | (split)
    | (with_reducible apply keeps_ite) | (dsimp -zeta only) | (dsimp -zeta +zetaDelta only))

theorem keeps_execLeaseRelease (fn s) (hs : Keeps s₀ s) {w : State} (eq : execLeaseRelease fn s = .next w) : Keeps s₀ w := by
  unfold execLeaseRelease at eq
  injection eq with eq
  subst eq
  repeat' (first
    | (with_reducible assumption) | (with_reducible intro _) | (with_reducible apply keeps_posted)
    | (with_reducible apply keeps_leaseWrite) | (with_reducible apply keeps_leaseRelease)
    | (with_reducible apply keeps_foldl) | (with_reducible apply keeps_id) | (extract_lets) | (split)
    | (with_reducible apply keeps_ite) | (dsimp -zeta only) | (dsimp -zeta +zetaDelta only))

theorem keeps_leaseRenew (s) (hs : Keeps s₀ s) : Keeps s₀ (leaseRenew s) := by
  unfold leaseRenew
  repeat' (first
    | (with_reducible assumption) | (with_reducible intro _) | (with_reducible apply keeps_leaseConflict)
    | (with_reducible apply keeps_sendLease) | (with_reducible apply keeps_State_setLease)
    | (with_reducible apply keeps_foldl) | (with_reducible apply keeps_id) | (extract_lets) | (split)
    | (with_reducible apply keeps_ite) | (dsimp -zeta only) | (dsimp -zeta +zetaDelta only))

theorem keeps_execLeaseRenew (fn s) (hs : Keeps s₀ s) {w : State} (eq : execLeaseRenew fn s = .next w) : Keeps s₀ w := by
  unfold execLeaseRenew at eq
  injection eq with eq
  subst eq
  repeat' (first
    | (with_reducible assumption) | (with_reducible intro _) | (with_reducible apply keeps_posted)
    | (with_reducible apply keeps_leaseWrite) | (with_reducible apply keeps_leaseRenew) | (with_reducible apply keeps_foldl)
    | (with_reducible apply keeps_id) | (extract_lets) | (split) | (with_reducible apply keeps_ite) | (dsimp -zeta only)
    | (dsimp -zeta +zetaDelta only))

theorem keeps_leaseRequest (s) (hs : Keeps s₀ s) : Keeps s₀ (leaseRequest s) := by
  unfold leaseRequest
  repeat' (first
    | (with_reducible assumption) | (with_reducible intro _) | (with_reducible apply keeps_leaseConflict)
    | (with_reducible apply keeps_sendLease) | (with_reducible apply keeps_State_setLease)
    | (with_reducible apply keeps_foldl) | (with_reducible apply keeps_id) | (extract_lets) | (split)
    | (with_reducible apply keeps_ite) | (dsimp -zeta only) | (dsimp -zeta +zetaDelta only))

theorem keeps_execLeaseRequest (fn s) (hs : Keeps s₀ s) {w : State} (eq : execLeaseRequest fn s = .next w) : Keeps s₀ w := by
  unfold execLeaseRequest at eq
  injection eq with eq
  subst eq
  repeat' (first
    | (with_reducible assumption) | (with_reducible intro _) | (with_reducible apply keeps_posted)
    | (with_reducible apply keeps_leaseWrite) | (with_reducible apply keeps_leaseRequest)
    | (with_reducible apply keeps_foldl) | (with_reducible apply keeps_id) | (extract_lets) | (split)
    | (with_reducible apply keeps_ite) | (dsimp -zeta only) | (dsimp -zeta +zetaDelta only))

theorem keeps_recallGrant (g s) (hs : Keeps s₀ s) : Keeps s₀ (recallGrant g s) := by
  unfold recallGrant
  repeat' (first
    | (with_reducible assumption) | (with_reducible intro _) | (with_reducible apply keeps_sendLease)
    | (with_reducible apply keeps_foldl) | (with_reducible apply keeps_id) | (extract_lets) | (split)
    | (with_reducible apply keeps_ite) | (dsimp -zeta only) | (dsimp -zeta +zetaDelta only)
    | (with_reducible apply keeps_with_tiers) | (with_reducible apply keeps_upd) | (exact Nat.le_refl _) | rfl
    | (exact Nat.le_add_right _ _) | (exact SMap.wf_filter _ (by with_reducible assumption) _))

theorem keeps_lendCfgWrite (d v s) (hs : Keeps s₀ s) : Keeps s₀ (lendCfgWrite d v s) := by
  unfold lendCfgWrite
  repeat' (first
    | (with_reducible assumption) | (with_reducible intro _) | (with_reducible apply keeps_State_setRegN)
    | (with_reducible apply keeps_State_each) | (with_reducible apply keeps_recallGrant) | (with_reducible apply keeps_foldl)
    | (with_reducible apply keeps_id) | (extract_lets) | (split) | (with_reducible apply keeps_ite) | (dsimp -zeta only)
    | (dsimp -zeta +zetaDelta only))

theorem keeps_execLendCfgWrite (fn d v s) (hs : Keeps s₀ s) {w : State} (eq : execLendCfgWrite fn d v s = .next w) : Keeps s₀ w := by
  unfold execLendCfgWrite at eq
  injection eq with eq
  subst eq
  repeat' (first
    | (with_reducible assumption) | (with_reducible intro _) | (with_reducible apply keeps_posted)
    | (with_reducible apply keeps_ownerWrite) | (with_reducible apply keeps_lendCfgWrite)
    | (with_reducible apply keeps_foldl) | (with_reducible apply keeps_id) | (extract_lets) | (split)
    | (with_reducible apply keeps_ite) | (dsimp -zeta only) | (dsimp -zeta +zetaDelta only))

theorem keeps_quotaCommit (s) (hs : Keeps s₀ s) : Keeps s₀ (quotaCommit s) := by
  unfold quotaCommit
  repeat' (first
    | (with_reducible assumption) | (with_reducible intro _) | (with_reducible apply keeps_State_each)
    | (with_reducible apply keeps_enforceQuota) | (with_reducible apply keeps_foldl) | (with_reducible apply keeps_id)
    | (extract_lets) | (split) | (with_reducible apply keeps_ite) | (dsimp -zeta only) | (dsimp -zeta +zetaDelta only)
    | (with_reducible apply keeps_with_tiers) | (with_reducible apply keeps_upd) | (exact Nat.le_refl _) | rfl
    | (exact Nat.le_add_right _ _) | (exact SMap.wf_filter _ (by with_reducible assumption) _))

theorem keeps_execQuotaCommit (fn s) (hs : Keeps s₀ s) {w : State} (eq : execQuotaCommit fn s = .next w) : Keeps s₀ w := by
  unfold execQuotaCommit at eq
  injection eq with eq
  subst eq
  repeat' (first
    | (with_reducible assumption) | (with_reducible intro _) | (with_reducible apply keeps_posted)
    | (with_reducible apply keeps_ownerWrite) | (with_reducible apply keeps_quotaCommit) | (with_reducible apply keeps_foldl)
    | (with_reducible apply keeps_id) | (extract_lets) | (split) | (with_reducible apply keeps_ite) | (dsimp -zeta only)
    | (dsimp -zeta +zetaDelta only))

theorem keeps_quotaLoad (s) (hs : Keeps s₀ s) : Keeps s₀ (quotaLoad s) := by
  unfold quotaLoad
  repeat' (first
    | (with_reducible assumption) | (with_reducible intro _) | (with_reducible apply keeps_State_setRegN)
    | (with_reducible apply keeps_foldl) | (with_reducible apply keeps_id) | (extract_lets) | (split)
    | (with_reducible apply keeps_ite) | (dsimp -zeta only) | (dsimp -zeta +zetaDelta only))

theorem keeps_execQuotaLoad (fn s) (hs : Keeps s₀ s) {w : State} (eq : execQuotaLoad fn s = .next w) : Keeps s₀ w := by
  unfold execQuotaLoad at eq
  injection eq with eq
  subst eq
  repeat' (first
    | (with_reducible assumption) | (with_reducible intro _) | (with_reducible apply keeps_posted)
    | (with_reducible apply keeps_ownerWrite) | (with_reducible apply keeps_quotaLoad) | (with_reducible apply keeps_foldl)
    | (with_reducible apply keeps_id) | (extract_lets) | (split) | (with_reducible apply keeps_ite) | (dsimp -zeta only)
    | (dsimp -zeta +zetaDelta only))

theorem keeps_tmResult (code s) (hs : Keeps s₀ s) : Keeps s₀ (tmResult code s) := by
  unfold tmResult
  repeat' (first
    | (with_reducible assumption) | (with_reducible intro _) | (with_reducible apply keeps_State_setRegN)
    | (with_reducible apply keeps_foldl) | (with_reducible apply keeps_id) | (extract_lets) | (split)
    | (with_reducible apply keeps_ite) | (dsimp -zeta only) | (dsimp -zeta +zetaDelta only))

theorem keeps_setLeaves (f n e s) (hs : Keeps s₀ s) : Keeps s₀ (setLeaves f n e s) := by
  unfold setLeaves
  repeat' (first
    | (with_reducible assumption) | (with_reducible intro _) | (with_reducible apply keeps_State_each)
    | (with_reducible apply keeps_fixedWrite) | (with_reducible apply keeps_foldl) | (with_reducible apply keeps_id)
    | (extract_lets) | (split) | (with_reducible apply keeps_ite) | (dsimp -zeta only) | (dsimp -zeta +zetaDelta only))

theorem keeps_mapRegion (r s) (hs : Keeps s₀ s) : Keeps s₀ (mapRegion r s) := by
  unfold mapRegion
  repeat' (first
    | (with_reducible assumption) | (with_reducible intro _) | (with_reducible apply keeps_tmResult)
    | (with_reducible apply keeps_raiseEv) | (with_reducible apply keeps_State_each)
    | (with_reducible apply keeps_setTileState) | (with_reducible apply keeps_setLeaves) | (with_reducible apply keeps_foldl)
    | (with_reducible apply keeps_id) | (extract_lets) | (split) | (with_reducible apply keeps_ite) | (dsimp -zeta only)
    | (dsimp -zeta +zetaDelta only) | (with_reducible apply keeps_with_tiers) | (with_reducible apply keeps_upd)
    | (exact Nat.le_refl _) | rfl | (exact Nat.le_add_right _ _) | (exact SMap.wf_filter _ (by with_reducible assumption) _))

theorem keeps_execRegionMap (fn r s) (hs : Keeps s₀ s) {w : State} (eq : execRegionMap fn r s = .next w) : Keeps s₀ w := by
  unfold execRegionMap at eq
  injection eq with eq
  subst eq
  repeat' (first
    | (with_reducible assumption) | (with_reducible intro _) | (with_reducible apply keeps_posted)
    | (with_reducible apply keeps_ownerWrite) | (with_reducible apply keeps_mapRegion) | (with_reducible apply keeps_foldl)
    | (with_reducible apply keeps_id) | (extract_lets) | (split) | (with_reducible apply keeps_ite) | (dsimp -zeta only)
    | (dsimp -zeta +zetaDelta only))

theorem keeps_unmapRegion (r s) (hs : Keeps s₀ s) : Keeps s₀ (unmapRegion r s) := by
  unfold unmapRegion
  repeat' (first
    | (with_reducible assumption) | (with_reducible intro _) | (with_reducible apply keeps_tmResult)
    | (with_reducible apply keeps_State_each) | (with_reducible apply keeps_freeTile)
    | (with_reducible apply keeps_setLeaves) | (with_reducible apply keeps_foldl) | (with_reducible apply keeps_id)
    | (extract_lets) | (split) | (with_reducible apply keeps_ite) | (dsimp -zeta only) | (dsimp -zeta +zetaDelta only)
    | (with_reducible apply keeps_with_tiers) | (with_reducible apply keeps_with_cask) | (with_reducible apply keeps_upd)
    | (exact Nat.le_refl _) | rfl | (exact Nat.le_add_right _ _) | (exact SMap.wf_filter _ (by with_reducible assumption) _))

theorem keeps_execRegionUnmap (fn r s) (hs : Keeps s₀ s) {w : State} (eq : execRegionUnmap fn r s = .next w) : Keeps s₀ w := by
  unfold execRegionUnmap at eq
  injection eq with eq
  subst eq
  repeat' (first
    | (with_reducible assumption) | (with_reducible intro _) | (with_reducible apply keeps_posted)
    | (with_reducible apply keeps_ownerWrite) | (with_reducible apply keeps_unmapRegion) | (with_reducible apply keeps_foldl)
    | (with_reducible apply keeps_id) | (extract_lets) | (split) | (with_reducible apply keeps_ite) | (dsimp -zeta only)
    | (dsimp -zeta +zetaDelta only))

theorem keeps_scrubWord (c o key t s) (hs : Keeps s₀ s) : Keeps s₀ (scrubWord c o key t s) := by
  unfold scrubWord
  repeat' (first
    | (with_reducible assumption) | (with_reducible intro _) | (with_reducible apply keeps_countEcc)
    | (with_reducible apply keeps_State_setEcc) | (with_reducible apply keeps_recordEcc)
    | (with_reducible apply keeps_setTileState) | (with_reducible apply keeps_raiseEv) | (with_reducible apply keeps_foldl)
    | (with_reducible apply keeps_id) | (extract_lets) | (split) | (with_reducible apply keeps_ite) | (dsimp -zeta only)
    | (dsimp -zeta +zetaDelta only))

theorem keeps_scrubTick (c found s) (hs : Keeps s₀ s) : Keeps s₀ (scrubTick c found s) := by
  unfold scrubTick
  repeat' (first
    | (with_reducible assumption) | (with_reducible intro _) | (with_reducible apply keeps_countEcc)
    | (with_reducible apply keeps_raiseEv) | (with_reducible apply keeps_recordEcc)
    | (with_reducible apply keeps_State_setEcc) | (with_reducible apply keeps_State_each)
    | (with_reducible apply keeps_scrubWord) | (with_reducible apply keeps_foldl) | (with_reducible apply keeps_id)
    | (extract_lets) | (split) | (with_reducible apply keeps_ite) | (dsimp -zeta only) | (dsimp -zeta +zetaDelta only)
    | (with_reducible apply keeps_with_tiers) | (with_reducible apply keeps_upd) | (exact Nat.le_refl _) | rfl
    | (exact Nat.le_add_right _ _) | (exact SMap.wf_filter _ (by with_reducible assumption) _))

theorem keeps_execScrubTick (ctl found s) (hs : Keeps s₀ s) {w : State} (eq : execScrubTick ctl found s = .next w) : Keeps s₀ w := by
  unfold execScrubTick at eq
  injection eq with eq
  subst eq
  repeat' (first
    | (with_reducible assumption) | (with_reducible intro _) | (with_reducible apply keeps_scrubTick)
    | (with_reducible apply keeps_foldl) | (with_reducible apply keeps_id) | (extract_lets) | (split)
    | (with_reducible apply keeps_ite) | (dsimp -zeta only) | (dsimp -zeta +zetaDelta only))

theorem keeps_tileMove (r j tier s) (hs : Keeps s₀ s) : Keeps s₀ (tileMove r j tier s) := by
  unfold tileMove
  repeat' (first
    | (with_reducible assumption) | (with_reducible intro _) | (with_reducible apply keeps_settle)
    | (with_reducible apply keeps_request) | (with_reducible apply keeps_foldl) | (with_reducible apply keeps_id)
    | (extract_lets) | (split) | (with_reducible apply keeps_ite) | (dsimp -zeta only) | (dsimp -zeta +zetaDelta only))

theorem keeps_execTileMove (r j tier s) (hs : Keeps s₀ s) {w : State} (eq : execTileMove r j tier s = .next w) : Keeps s₀ w := by
  unfold execTileMove at eq
  injection eq with eq
  subst eq
  repeat' (first
    | (with_reducible assumption) | (with_reducible intro _) | (with_reducible apply keeps_tileMove)
    | (with_reducible apply keeps_foldl) | (with_reducible apply keeps_id) | (extract_lets) | (split)
    | (with_reducible apply keeps_ite) | (dsimp -zeta only) | (dsimp -zeta +zetaDelta only))

theorem keeps_watermarkEvict (kind idx s) (hs : Keeps s₀ s) : Keeps s₀ (watermarkEvict kind idx s) := by
  unfold watermarkEvict
  repeat' (first
    | (with_reducible assumption) | (with_reducible intro _) | (with_reducible apply keeps_evictMany)
    | (with_reducible apply keeps_foldl) | (with_reducible apply keeps_id) | (extract_lets) | (split)
    | (with_reducible apply keeps_ite) | (dsimp -zeta only) | (dsimp -zeta +zetaDelta only))

theorem keeps_execWatermarkEvict (kind idx s) (hs : Keeps s₀ s) {w : State} (eq : execWatermarkEvict kind idx s = .next w) : Keeps s₀ w := by
  unfold execWatermarkEvict at eq
  injection eq with eq
  subst eq
  repeat' (first
    | (with_reducible assumption) | (with_reducible intro _) | (with_reducible apply keeps_watermarkEvict)
    | (with_reducible apply keeps_foldl) | (with_reducible apply keeps_id) | (extract_lets) | (split)
    | (with_reducible apply keeps_ite) | (dsimp -zeta only) | (dsimp -zeta +zetaDelta only))

theorem keeps_tileMoveCommit (r j s) (hs : Keeps s₀ s) : Keeps s₀ (tileMoveCommit r j s) := by
  unfold tileMoveCommit
  repeat' (first
    | (with_reducible assumption) | (with_reducible intro _) | (with_reducible apply keeps_settle)
    | (with_reducible apply keeps_tryArrays) | (with_reducible apply keeps_endMove) | (with_reducible apply keeps_foldl)
    | (with_reducible apply keeps_id) | (extract_lets) | (split) | (with_reducible apply keeps_ite) | (dsimp -zeta only)
    | (dsimp -zeta +zetaDelta only))

end Sys2Proof.Machine.Laws
end

