-- ==== Sys2Proof/Laws/KeepsCollect.lean ====
section
/-! SUPPORT. Every definition of Sys2Proof/Machine/Collect.lean keeps what `Keeps` names. -/

namespace Sys2Proof.Machine.Laws

variable {s₀ : State}

theorem keeps_State_setMapEnt (s i e) (hs : Keeps s₀ s) : Keeps s₀ (State.setMapEnt s i e) := by
  unfold State.setMapEnt
  repeat' (first
    | (with_reducible assumption) | (with_reducible intro _) | (with_reducible apply keeps_foldl)
    | (with_reducible apply keeps_id) | (extract_lets) | (split) | (with_reducible apply keeps_ite) | (dsimp -zeta only)
    | (dsimp -zeta +zetaDelta only) | (with_reducible apply keeps_with_maps) | (with_reducible apply keeps_upd)
    | (exact Nat.le_refl _) | rfl | (exact Nat.le_add_right _ _) | (exact SMap.wf_filter _ (by with_reducible assumption) _))

theorem keeps_accAdd (a i v inv s) (hs : Keeps s₀ s) : Keeps s₀ (accAdd a i v inv s) := by
  unfold accAdd
  repeat' (first
    | (with_reducible assumption) | (with_reducible intro _) | (with_reducible apply keeps_State_setNum)
    | (with_reducible apply keeps_foldl) | (with_reducible apply keeps_id) | (extract_lets) | (split)
    | (with_reducible apply keeps_ite) | (dsimp -zeta only) | (dsimp -zeta +zetaDelta only))

theorem keeps_accVerify (k t s) (hs : Keeps s₀ s) : Keeps s₀ (accVerify k t s) := by
  unfold accVerify
  repeat' (first
    | (with_reducible assumption) | (with_reducible intro _) | (with_reducible apply keeps_fixedWrite)
    | (with_reducible apply keeps_State_setRegN) | (with_reducible apply keeps_raiseEv)
    | (with_reducible apply keeps_State_bump) | (with_reducible apply keeps_foldl) | (with_reducible apply keeps_id)
    | (extract_lets) | (split) | (with_reducible apply keeps_ite) | (dsimp -zeta only) | (dsimp -zeta +zetaDelta only))

theorem keeps_accApply (p s) (hs : Keeps s₀ s) : Keeps s₀ (accApply p s) := by
  unfold accApply
  repeat' (first
    | (with_reducible assumption) | (with_reducible intro _) | (with_reducible apply keeps_copyFirst)
    | (with_reducible apply keeps_correctRead) | (with_reducible apply keeps_State_each)
    | (with_reducible apply keeps_accAdd) | (with_reducible apply keeps_fixedWrite) | (with_reducible apply keeps_State_bump)
    | (with_reducible apply keeps_accVerify) | (with_reducible apply keeps_foldl) | (with_reducible apply keeps_id)
    | (extract_lets) | (split) | (with_reducible apply keeps_ite) | (dsimp -zeta only) | (dsimp -zeta +zetaDelta only))

theorem keeps_accNote (p o s) (hs : Keeps s₀ s) : Keeps s₀ (accNote p o s) := by
  unfold accNote
  repeat' (first
    | (with_reducible assumption) | (with_reducible intro _) | (with_reducible apply keeps_State_bump)
    | (with_reducible apply keeps_raiseEv) | (with_reducible apply keeps_noteEcc) | (with_reducible apply keeps_foldl)
    | (with_reducible apply keeps_id) | (extract_lets) | (split) | (with_reducible apply keeps_ite) | (dsimp -zeta only)
    | (dsimp -zeta +zetaDelta only))

theorem keeps_ctxResult (code s) (hs : Keeps s₀ s) : Keeps s₀ (ctxResult code s) := by
  unfold ctxResult
  repeat' (first
    | (with_reducible assumption) | (with_reducible intro _) | (with_reducible apply keeps_State_setFld)
    | (with_reducible apply keeps_foldl) | (with_reducible apply keeps_id) | (extract_lets) | (split)
    | (with_reducible apply keeps_ite) | (dsimp -zeta only) | (dsimp -zeta +zetaDelta only))

theorem keeps_ctxArm (s) (hs : Keeps s₀ s) : Keeps s₀ (ctxArm s) := by
  unfold ctxArm
  repeat' (first
    | (with_reducible assumption) | (with_reducible intro _) | (with_reducible apply keeps_ctxResult)
    | (with_reducible apply keeps_State_each) | (with_reducible apply keeps_State_setCtx)
    | (with_reducible apply keeps_accEmpty) | (with_reducible apply keeps_raiseEv)
    | (with_reducible apply keeps_State_setFlag) | (with_reducible apply keeps_foldl) | (with_reducible apply keeps_id)
    | (extract_lets) | (split) | (with_reducible apply keeps_ite) | (dsimp -zeta only) | (dsimp -zeta +zetaDelta only))

theorem keeps_ctxDisarm (s) (hs : Keeps s₀ s) : Keeps s₀ (ctxDisarm s) := by
  unfold ctxDisarm
  repeat' (first
    | (with_reducible assumption) | (with_reducible intro _) | (with_reducible apply keeps_ctxResult)
    | (with_reducible apply keeps_raiseEv) | (with_reducible apply keeps_State_setFlag)
    | (with_reducible apply keeps_State_setCtx) | (with_reducible apply keeps_foldl) | (with_reducible apply keeps_id)
    | (extract_lets) | (split) | (with_reducible apply keeps_ite) | (dsimp -zeta only) | (dsimp -zeta +zetaDelta only))

theorem keeps_ctxLoad (s) (hs : Keeps s₀ s) : Keeps s₀ (ctxLoad s) := by
  unfold ctxLoad
  repeat' (first
    | (with_reducible assumption) | (with_reducible intro _) | (with_reducible apply keeps_State_setRegN)
    | (with_reducible apply keeps_foldl) | (with_reducible apply keeps_id) | (extract_lets) | (split)
    | (with_reducible apply keeps_ite) | (dsimp -zeta only) | (dsimp -zeta +zetaDelta only))

theorem keeps_ctxWrite (fn act s) (hact : ∀ s, Keeps s₀ s → Keeps s₀ (act s)) (hs : Keeps s₀ s) : Keeps s₀ (ctxWrite fn act s) := by
  unfold ctxWrite
  repeat' (first
    | (with_reducible assumption) | (with_reducible intro _) | (with_reducible apply keeps_ownerWrite)
    | (with_reducible apply keeps_foldl) | (with_reducible apply keeps_id) | (apply hact) | (extract_lets) | (split)
    | (with_reducible apply keeps_ite) | (dsimp -zeta only) | (dsimp -zeta +zetaDelta only))

theorem keeps_execCtxArm (fn s) (hs : Keeps s₀ s) {w : State} (eq : execCtxArm fn s = .next w) : Keeps s₀ w := by
  unfold execCtxArm at eq
  injection eq with eq
  subst eq
  repeat' (first
    | (with_reducible assumption) | (with_reducible intro _) | (with_reducible apply keeps_posted)
    | (with_reducible apply keeps_ctxWrite) | (with_reducible apply keeps_ctxArm) | (with_reducible apply keeps_foldl)
    | (with_reducible apply keeps_id) | (extract_lets) | (split) | (with_reducible apply keeps_ite) | (dsimp -zeta only)
    | (dsimp -zeta +zetaDelta only))

theorem keeps_execCtxDisarm (fn s) (hs : Keeps s₀ s) {w : State} (eq : execCtxDisarm fn s = .next w) : Keeps s₀ w := by
  unfold execCtxDisarm at eq
  injection eq with eq
  subst eq
  repeat' (first
    | (with_reducible assumption) | (with_reducible intro _) | (with_reducible apply keeps_posted)
    | (with_reducible apply keeps_ctxWrite) | (with_reducible apply keeps_ctxDisarm) | (with_reducible apply keeps_foldl)
    | (with_reducible apply keeps_id) | (extract_lets) | (split) | (with_reducible apply keeps_ite) | (dsimp -zeta only)
    | (dsimp -zeta +zetaDelta only))

theorem keeps_execCtxLoad (fn s) (hs : Keeps s₀ s) {w : State} (eq : execCtxLoad fn s = .next w) : Keeps s₀ w := by
  unfold execCtxLoad at eq
  injection eq with eq
  subst eq
  repeat' (first
    | (with_reducible assumption) | (with_reducible intro _) | (with_reducible apply keeps_posted)
    | (with_reducible apply keeps_ctxWrite) | (with_reducible apply keeps_ctxLoad) | (with_reducible apply keeps_foldl)
    | (with_reducible apply keeps_id) | (extract_lets) | (split) | (with_reducible apply keeps_ite) | (dsimp -zeta only)
    | (dsimp -zeta +zetaDelta only))

theorem keeps_mapCommit (s) (hs : Keeps s₀ s) : Keeps s₀ (mapCommit s) := by
  unfold mapCommit
  repeat' (first
    | (with_reducible assumption) | (with_reducible intro _) | (with_reducible apply keeps_logStatus)
    | (with_reducible apply keeps_State_setMapEnt) | (with_reducible apply keeps_State_setRegN)
    | (with_reducible apply keeps_foldl) | (with_reducible apply keeps_id) | (extract_lets) | (split)
    | (with_reducible apply keeps_ite) | (dsimp -zeta only) | (dsimp -zeta +zetaDelta only))

theorem keeps_execMapEntCommit (fn s) (hs : Keeps s₀ s) {w : State} (eq : execMapEntCommit fn s = .next w) : Keeps s₀ w := by
  unfold execMapEntCommit at eq
  injection eq with eq
  subst eq
  repeat' (first
    | (with_reducible assumption) | (with_reducible intro _) | (with_reducible apply keeps_posted)
    | (with_reducible apply keeps_ownerWrite) | (with_reducible apply keeps_mapCommit) | (with_reducible apply keeps_foldl)
    | (with_reducible apply keeps_id) | (extract_lets) | (split) | (with_reducible apply keeps_ite) | (dsimp -zeta only)
    | (dsimp -zeta +zetaDelta only))

theorem keeps_mapLoad (s) (hs : Keeps s₀ s) : Keeps s₀ (mapLoad s) := by
  unfold mapLoad
  repeat' (first
    | (with_reducible assumption) | (with_reducible intro _) | (with_reducible apply keeps_State_setRegN)
    | (with_reducible apply keeps_foldl) | (with_reducible apply keeps_id) | (extract_lets) | (split)
    | (with_reducible apply keeps_ite) | (dsimp -zeta only) | (dsimp -zeta +zetaDelta only))

theorem keeps_execMapEntLoad (fn s) (hs : Keeps s₀ s) {w : State} (eq : execMapEntLoad fn s = .next w) : Keeps s₀ w := by
  unfold execMapEntLoad at eq
  injection eq with eq
  subst eq
  repeat' (first
    | (with_reducible assumption) | (with_reducible intro _) | (with_reducible apply keeps_posted)
    | (with_reducible apply keeps_ownerWrite) | (with_reducible apply keeps_mapLoad) | (with_reducible apply keeps_foldl)
    | (with_reducible apply keeps_id) | (extract_lets) | (split) | (with_reducible apply keeps_ite) | (dsimp -zeta only)
    | (dsimp -zeta +zetaDelta only))

theorem keeps_refreshMaps (s) (hs : Keeps s₀ s) : Keeps s₀ (refreshMaps s) := by
  unfold refreshMaps
  repeat' (first
    | (with_reducible assumption) | (with_reducible intro _) | (with_reducible apply keeps_State_each)
    | (with_reducible apply keeps_State_setMapEnt) | (with_reducible apply keeps_foldl) | (with_reducible apply keeps_id)
    | (extract_lets) | (split) | (with_reducible apply keeps_ite) | (dsimp -zeta only) | (dsimp -zeta +zetaDelta only))

theorem keeps_psetCommit (s) (hs : Keeps s₀ s) : Keeps s₀ (psetCommit s) := by
  unfold psetCommit
  repeat' (first
    | (with_reducible assumption) | (with_reducible intro _) | (with_reducible apply keeps_logStatus)
    | (with_reducible apply keeps_refreshMaps) | (with_reducible apply keeps_State_each) | (with_reducible apply keeps_foldl)
    | (with_reducible apply keeps_id) | (extract_lets) | (split) | (with_reducible apply keeps_ite) | (dsimp -zeta only)
    | (dsimp -zeta +zetaDelta only) | (with_reducible apply keeps_with_psets) | (with_reducible apply keeps_upd)
    | (exact Nat.le_refl _) | rfl | (exact Nat.le_add_right _ _) | (exact SMap.wf_filter _ (by with_reducible assumption) _))

theorem keeps_execPsetCommit (fn s) (hs : Keeps s₀ s) {w : State} (eq : execPsetCommit fn s = .next w) : Keeps s₀ w := by
  unfold execPsetCommit at eq
  injection eq with eq
  subst eq
  repeat' (first
    | (with_reducible assumption) | (with_reducible intro _) | (with_reducible apply keeps_posted)
    | (with_reducible apply keeps_ownerWrite) | (with_reducible apply keeps_psetCommit) | (with_reducible apply keeps_foldl)
    | (with_reducible apply keeps_id) | (extract_lets) | (split) | (with_reducible apply keeps_ite) | (dsimp -zeta only)
    | (dsimp -zeta +zetaDelta only))

theorem keeps_psetLoad (s) (hs : Keeps s₀ s) : Keeps s₀ (psetLoad s) := by
  unfold psetLoad
  repeat' (first
    | (with_reducible assumption) | (with_reducible intro _) | (with_reducible apply keeps_State_each)
    | (with_reducible apply keeps_State_setReg) | (with_reducible apply keeps_foldl) | (with_reducible apply keeps_id)
    | (extract_lets) | (split) | (with_reducible apply keeps_ite) | (dsimp -zeta only) | (dsimp -zeta +zetaDelta only))

theorem keeps_execPsetLoad (fn s) (hs : Keeps s₀ s) {w : State} (eq : execPsetLoad fn s = .next w) : Keeps s₀ w := by
  unfold execPsetLoad at eq
  injection eq with eq
  subst eq
  repeat' (first
    | (with_reducible assumption) | (with_reducible intro _) | (with_reducible apply keeps_posted)
    | (with_reducible apply keeps_ownerWrite) | (with_reducible apply keeps_psetLoad) | (with_reducible apply keeps_foldl)
    | (with_reducible apply keeps_id) | (extract_lets) | (split) | (with_reducible apply keeps_ite) | (dsimp -zeta only)
    | (dsimp -zeta +zetaDelta only))

end Sys2Proof.Machine.Laws
end

