-- ==== Sys2Proof/Laws/KeepsPort.lean ====
section
/-! SUPPORT. Every definition of Sys2Proof/Machine/Port.lean keeps what `Keeps` names. -/

namespace Sys2Proof.Machine.Laws

variable {s₀ : State}

theorem keeps_State_setPort (s p x) (hs : Keeps s₀ s) : Keeps s₀ (State.setPort s p x) := by
  unfold State.setPort
  repeat' (first
    | (with_reducible assumption) | (with_reducible intro _) | (with_reducible apply keeps_foldl)
    | (with_reducible apply keeps_id) | (extract_lets) | (split) | (with_reducible apply keeps_ite) | (dsimp -zeta only)
    | (dsimp -zeta +zetaDelta only) | (with_reducible apply keeps_with_ports) | (with_reducible apply keeps_upd)
    | (exact Nat.le_refl _) | rfl | (exact Nat.le_add_right _ _) | (exact SMap.wf_filter _ (by with_reducible assumption) _))

theorem keeps_refuseForm (pkt s) (hs : Keeps s₀ s) : Keeps s₀ (refuseForm pkt s) := by
  unfold refuseForm
  repeat' (first
    | (with_reducible assumption) | (with_reducible intro _) | (with_reducible apply keeps_State_bump)
    | (with_reducible apply keeps_sendPacket) | (with_reducible apply keeps_foldl) | (with_reducible apply keeps_id)
    | (extract_lets) | (split) | (with_reducible apply keeps_ite) | (dsimp -zeta only) | (dsimp -zeta +zetaDelta only))

theorem keeps_endPacket (p vc l s) (hs : Keeps s₀ s) : Keeps s₀ (endPacket p vc l s) := by
  unfold endPacket
  repeat' (first
    | (with_reducible assumption) | (with_reducible intro _) | (with_reducible apply keeps_State_setPort)
    | (with_reducible apply keeps_refuseForm) | (with_reducible apply keeps_foldl) | (with_reducible apply keeps_id)
    | (extract_lets) | (split) | (with_reducible apply keeps_ite) | (dsimp -zeta only) | (dsimp -zeta +zetaDelta only))

theorem keeps_acceptFlit (p f s) (hs : Keeps s₀ s) : Keeps s₀ (acceptFlit p f s) := by
  unfold acceptFlit
  repeat' (first
    | (with_reducible assumption) | (with_reducible intro _) | (with_reducible apply keeps_State_bump)
    | (with_reducible apply keeps_State_setPort) | (with_reducible apply keeps_endPacket)
    | (with_reducible apply keeps_foldl) | (with_reducible apply keeps_id) | (extract_lets) | (split)
    | (with_reducible apply keeps_ite) | (dsimp -zeta only) | (dsimp -zeta +zetaDelta only))

theorem keeps_advance (p v pkt i s) (hs : Keeps s₀ s) : Keeps s₀ (advance p v pkt i s) := by
  unfold advance
  repeat' (first
    | (with_reducible assumption) | (with_reducible intro _) | (with_reducible apply keeps_State_setPort)
    | (with_reducible apply keeps_foldl) | (with_reducible apply keeps_id) | (extract_lets) | (split)
    | (with_reducible apply keeps_ite) | (dsimp -zeta only) | (dsimp -zeta +zetaDelta only)
    | (with_reducible apply keeps_with_txq) | (with_reducible apply keeps_upd) | (exact Nat.le_refl _) | rfl
    | (exact Nat.le_add_right _ _) | (exact SMap.wf_filter _ (by with_reducible assumption) _))

theorem keeps_setPortState (p st s) (hs : Keeps s₀ s) : Keeps s₀ (setPortState p st s) := by
  unfold setPortState
  repeat' (first
    | (with_reducible assumption) | (with_reducible intro _) | (with_reducible apply keeps_State_setFld)
    | (with_reducible apply keeps_State_setPort) | (with_reducible apply keeps_foldl) | (with_reducible apply keeps_id)
    | (extract_lets) | (split) | (with_reducible apply keeps_ite) | (dsimp -zeta only) | (dsimp -zeta +zetaDelta only))

theorem keeps_loseLock (s) (hs : Keeps s₀ s) : Keeps s₀ (loseLock s) := by
  unfold loseLock
  repeat' (first
    | (with_reducible assumption) | (with_reducible intro _) | (with_reducible apply keeps_State_setFlag)
    | (with_reducible apply keeps_raiseEv) | (with_reducible apply keeps_State_bump) | (with_reducible apply keeps_foldl)
    | (with_reducible apply keeps_id) | (extract_lets) | (split) | (with_reducible apply keeps_ite) | (dsimp -zeta only)
    | (dsimp -zeta +zetaDelta only))

theorem keeps_leaveUp (p s) (hs : Keeps s₀ s) : Keeps s₀ (leaveUp p s) := by
  unfold leaveUp
  repeat' (first
    | (with_reducible assumption) | (with_reducible intro _) | (with_reducible apply keeps_loseLock)
    | (with_reducible apply keeps_foldl) | (with_reducible apply keeps_id) | (extract_lets) | (split)
    | (with_reducible apply keeps_ite) | (dsimp -zeta only) | (dsimp -zeta +zetaDelta only)
    | (with_reducible apply keeps_with_sync) | (with_reducible apply keeps_upd) | (exact Nat.le_refl _) | rfl
    | (exact Nat.le_add_right _ _) | (exact SMap.wf_filter _ (by with_reducible assumption) _))

theorem keeps_enterRetrain (p s) (hs : Keeps s₀ s) : Keeps s₀ (enterRetrain p s) := by
  unfold enterRetrain
  repeat' (first
    | (with_reducible assumption) | (with_reducible intro _) | (with_reducible apply keeps_raiseEv)
    | (with_reducible apply keeps_State_bump) | (with_reducible apply keeps_setPortState)
    | (with_reducible apply keeps_leaveUp) | (with_reducible apply keeps_foldl) | (with_reducible apply keeps_id)
    | (extract_lets) | (split) | (with_reducible apply keeps_ite) | (dsimp -zeta only) | (dsimp -zeta +zetaDelta only))

theorem keeps_flitHead_snd (p s) (hs : Keeps s₀ s) : Keeps s₀ (flitHead p s).2 := by
  have h := keeps_State_when s (s.port p).nakDue (fun s => s.bump (portPage p) 5 1) hs (fun s h => keeps_State_bump _ _ _ _ h)
  unfold Sys2Proof.Machine.flitHead
  refine keeps_State_setPort _ _ _ ?_
  repeat' split
  all_goals first
    | with_reducible exact h
    | exact keeps_upd h id (Nat.le_refl _) (Nat.le_refl _) (Nat.le_refl _) rfl rfl rfl

theorem keeps_flitHead (p s) {r} {t : State} (hs : Keeps s₀ s) (e : flitHead p s = (r, t)) : Keeps s₀ t := by
  have := keeps_flitHead_snd p s hs
  rwa [e] at this

theorem keeps_putFlit (p f s) (hs : Keeps s₀ s) : Keeps s₀ (putFlit p f s) := by
  unfold putFlit
  repeat' (first
    | (with_reducible assumption) | (with_reducible intro _) | (with_reducible apply keeps_State_send)
    | (with_reducible apply keeps_State_setPort) | (with_reducible apply keeps_foldl) | (with_reducible apply keeps_id)
    | (extract_lets) | (split) | (with_reducible apply keeps_ite) | (dsimp -zeta only) | (dsimp -zeta +zetaDelta only))

theorem keeps_putIdle (p s) (hs : Keeps s₀ s) : Keeps s₀ (putIdle p s) := by
  unfold putIdle
  repeat' (first
    | (with_reducible assumption) | (with_reducible intro _)
    | (refine keeps_flitHead _ _ ?_ (by with_reducible assumption)) | (with_reducible apply keeps_flitHead_snd)
    | (with_reducible apply keeps_putFlit) | (with_reducible apply keeps_foldl) | (with_reducible apply keeps_id)
    | (extract_lets) | (split) | (with_reducible apply keeps_ite) | (dsimp -zeta only) | (dsimp -zeta +zetaDelta only))

theorem keeps_askRetrain (p s) (hs : Keeps s₀ s) : Keeps s₀ (askRetrain p s) := by
  unfold askRetrain
  repeat' (first
    | (with_reducible assumption) | (with_reducible intro _) | (with_reducible apply keeps_enterRetrain)
    | (with_reducible apply keeps_putIdle) | (with_reducible apply keeps_State_setPort) | (with_reducible apply keeps_foldl)
    | (with_reducible apply keeps_id) | (extract_lets) | (split) | (with_reducible apply keeps_ite) | (dsimp -zeta only)
    | (dsimp -zeta +zetaDelta only))

theorem keeps_noteUnc (p s) (hs : Keeps s₀ s) : Keeps s₀ (noteUnc p s) := by
  unfold noteUnc
  repeat' (first
    | (with_reducible assumption) | (with_reducible intro _) | (with_reducible apply keeps_State_bump)
    | (with_reducible apply keeps_State_setPort) | (with_reducible apply keeps_askRetrain)
    | (with_reducible apply keeps_foldl) | (with_reducible apply keeps_id) | (extract_lets) | (split)
    | (with_reducible apply keeps_ite) | (dsimp -zeta only) | (dsimp -zeta +zetaDelta only))

theorem keeps_badFlit (p i s) (hs : Keeps s₀ s) : Keeps s₀ (badFlit p i s) := by
  unfold badFlit
  repeat' (first
    | (with_reducible assumption) | (with_reducible intro _) | (with_reducible apply keeps_noteUnc)
    | (with_reducible apply keeps_State_setPort) | (with_reducible apply keeps_foldl) | (with_reducible apply keeps_id)
    | (extract_lets) | (split) | (with_reducible apply keeps_ite) | (dsimp -zeta only) | (dsimp -zeta +zetaDelta only))

theorem keeps_failHint (asker f s) (hs : Keeps s₀ s) : Keeps s₀ (failHint asker f s) := by
  unfold failHint
  repeat' (first
    | (with_reducible assumption) | (with_reducible intro _) | (with_reducible apply keeps_finish)
    | (with_reducible apply keeps_foldl) | (with_reducible apply keeps_id) | (extract_lets) | (split)
    | (with_reducible apply keeps_ite) | (dsimp -zeta only) | (dsimp -zeta +zetaDelta only)
    | (with_reducible apply keeps_with_tiers) | (with_reducible apply keeps_upd) | (exact Nat.le_refl _) | rfl
    | (exact Nat.le_add_right _ _) | (exact SMap.wf_filter _ (by with_reducible assumption) _))

theorem keeps_failLease (o f s) (hs : Keeps s₀ s) : Keeps s₀ (failLease o f s) := by
  unfold failLease
  repeat' (first
    | (with_reducible assumption) | (with_reducible intro _) | (with_reducible apply keeps_wakeReqs)
    | (with_reducible apply keeps_failHint) | (with_reducible apply keeps_abandonMove)
    | (with_reducible apply keeps_failFetch) | (with_reducible apply keeps_foldl) | (with_reducible apply keeps_id)
    | (extract_lets) | (split) | (with_reducible apply keeps_ite) | (dsimp -zeta only) | (dsimp -zeta +zetaDelta only))

theorem keeps_failSent (o f s) (hs : Keeps s₀ s) : Keeps s₀ (failSent o f s) := by
  unfold failSent
  repeat' (first
    | (with_reducible assumption) | (with_reducible intro _) | (with_reducible apply keeps_failLease)
    | (with_reducible apply keeps_gotCask) | (with_reducible apply keeps_payOwed) | (with_reducible apply keeps_finishColl)
    | (with_reducible apply keeps_foldl) | (with_reducible apply keeps_id) | (extract_lets) | (split)
    | (with_reducible apply keeps_ite) | (dsimp -zeta only) | (dsimp -zeta +zetaDelta only)
    | (with_reducible apply keeps_with_outst) | (with_reducible apply keeps_upd) | (exact Nat.le_refl _) | rfl
    | (exact Nat.le_add_right _ _) | (exact SMap.wf_filter _ (by with_reducible assumption) _))

theorem keeps_downLocal (pkt s) (hs : Keeps s₀ s) : Keeps s₀ (downLocal pkt s) := by
  unfold downLocal
  repeat' (first
    | (with_reducible assumption) | (with_reducible intro _) | (with_reducible apply keeps_failSent)
    | (with_reducible apply keeps_foldl) | (with_reducible apply keeps_id) | (extract_lets) | (split)
    | (with_reducible apply keeps_ite) | (dsimp -zeta only) | (dsimp -zeta +zetaDelta only))

theorem keeps_downPacket (pkt s) (hs : Keeps s₀ s) : Keeps s₀ (downPacket pkt s) := by
  unfold downPacket
  repeat' (first
    | (with_reducible assumption) | (with_reducible intro _) | (with_reducible apply keeps_downLocal)
    | (with_reducible apply keeps_sendPacket) | (with_reducible apply keeps_foldl) | (with_reducible apply keeps_id)
    | (extract_lets) | (split) | (with_reducible apply keeps_ite) | (dsimp -zeta only) | (dsimp -zeta +zetaDelta only))

theorem keeps_downRestart (p s) (hs : Keeps s₀ s) : Keeps s₀ (downRestart p s) := by
  unfold downRestart
  repeat' (first
    | (with_reducible assumption) | (with_reducible intro _) | (with_reducible apply keeps_setPortState)
    | (with_reducible apply keeps_foldl) | (with_reducible apply keeps_id) | (extract_lets) | (split)
    | (with_reducible apply keeps_ite) | (dsimp -zeta only) | (dsimp -zeta +zetaDelta only))

theorem keeps_reroute (pkt s) (hs : Keeps s₀ s) : Keeps s₀ (reroute pkt s) := by
  unfold reroute
  repeat' (first
    | (with_reducible assumption) | (with_reducible intro _) | (with_reducible apply keeps_queueAt)
    | (with_reducible apply keeps_downPacket) | (with_reducible apply keeps_foldl) | (with_reducible apply keeps_id)
    | (extract_lets) | (split) | (with_reducible apply keeps_ite) | (dsimp -zeta only) | (dsimp -zeta +zetaDelta only))

theorem keeps_dropLink (p s) (hs : Keeps s₀ s) : Keeps s₀ (dropLink p s) := by
  unfold dropLink
  repeat' (first
    | (with_reducible assumption) | (with_reducible intro _) | (with_reducible apply keeps_State_setPort)
    | (with_reducible apply keeps_settle) | (with_reducible apply keeps_State_each) | (with_reducible apply keeps_downPacket)
    | (with_reducible apply keeps_reroute) | (with_reducible apply keeps_foldl) | (with_reducible apply keeps_id)
    | (extract_lets) | (split) | (with_reducible apply keeps_ite) | (dsimp -zeta only) | (dsimp -zeta +zetaDelta only)
    | (with_reducible apply keeps_with_txq) | (with_reducible apply keeps_upd) | (exact Nat.le_refl _) | rfl
    | (exact Nat.le_add_right _ _) | (exact SMap.wf_filter _ (by with_reducible assumption) _))

theorem keeps_e2eTimeout (u stream seq s) (hs : Keeps s₀ s) : Keeps s₀ (e2eTimeout u stream seq s) := by
  unfold e2eTimeout
  repeat' (first
    | (with_reducible assumption) | (with_reducible intro _) | (with_reducible apply keeps_settle)
    | (with_reducible apply keeps_tryArrays) | (with_reducible apply keeps_failSent) | (with_reducible apply keeps_foldl)
    | (with_reducible apply keeps_id) | (extract_lets) | (split) | (with_reducible apply keeps_ite) | (dsimp -zeta only)
    | (dsimp -zeta +zetaDelta only))

theorem keeps_enterDown (p s) (hs : Keeps s₀ s) : Keeps s₀ (enterDown p s) := by
  unfold enterDown
  repeat' (first
    | (with_reducible assumption) | (with_reducible intro _) | (with_reducible apply keeps_leaveUp)
    | (with_reducible apply keeps_State_setFlag) | (with_reducible apply keeps_setPortState)
    | (with_reducible apply keeps_raiseEv) | (with_reducible apply keeps_State_bump) | (with_reducible apply keeps_colAppend)
    | (with_reducible apply keeps_dropLink) | (with_reducible apply keeps_foldl) | (with_reducible apply keeps_id)
    | (extract_lets) | (split) | (with_reducible apply keeps_ite) | (dsimp -zeta only) | (dsimp -zeta +zetaDelta only))

theorem keeps_execDownRestart (p s) (hs : Keeps s₀ s) {w : State} (eq : execDownRestart p s = .next w) : Keeps s₀ w := by
  unfold execDownRestart at eq
  injection eq with eq
  subst eq
  repeat' (first
    | (with_reducible assumption) | (with_reducible intro _) | (with_reducible apply keeps_downRestart)
    | (with_reducible apply keeps_foldl) | (with_reducible apply keeps_id) | (extract_lets) | (split)
    | (with_reducible apply keeps_ite) | (dsimp -zeta only) | (dsimp -zeta +zetaDelta only))

theorem keeps_execE2eTimeout (u stream seq s) (hs : Keeps s₀ s) {w : State} (eq : execE2eTimeout u stream seq s = .next w) : Keeps s₀ w := by
  unfold execE2eTimeout at eq
  injection eq with eq
  subst eq
  repeat' (first
    | (with_reducible assumption) | (with_reducible intro _) | (with_reducible apply keeps_e2eTimeout)
    | (with_reducible apply keeps_foldl) | (with_reducible apply keeps_id) | (extract_lets) | (split)
    | (with_reducible apply keeps_ite) | (dsimp -zeta only) | (dsimp -zeta +zetaDelta only))

theorem keeps_rephase (off s) (hs : Keeps s₀ s) : Keeps s₀ (rephase off s) := by
  unfold rephase
  repeat' (first
    | (with_reducible assumption) | (with_reducible intro _) | (with_reducible apply keeps_foldl)
    | (with_reducible apply keeps_id) | (extract_lets) | (split) | (with_reducible apply keeps_ite) | (dsimp -zeta only)
    | (dsimp -zeta +zetaDelta only) | (with_reducible apply keeps_with_sync) | (with_reducible apply keeps_upd)
    | (exact Nat.le_refl _) | rfl | (exact Nat.le_add_right _ _) | (exact SMap.wf_filter _ (by with_reducible assumption) _))

theorem keeps_noteExchange (p delay off s) (hs : Keeps s₀ s) : Keeps s₀ (noteExchange p delay off s) := by
  unfold noteExchange
  repeat' (first
    | (with_reducible assumption) | (with_reducible intro _) | (with_reducible apply keeps_State_bump)
    | (with_reducible apply keeps_State_setFld) | (with_reducible apply keeps_State_setRegN)
    | (with_reducible apply keeps_foldl) | (with_reducible apply keeps_id) | (extract_lets) | (split)
    | (with_reducible apply keeps_ite) | (dsimp -zeta only) | (dsimp -zeta +zetaDelta only))

theorem keeps_retrim (s) (hs : Keeps s₀ s) : Keeps s₀ (retrim s) := by
  unfold retrim
  repeat' (first
    | (with_reducible assumption) | (with_reducible intro _)
    | (refine keeps_State_takeFree _ ?_ (by with_reducible assumption)) | (with_reducible apply keeps_State_setRegN)
    | (with_reducible apply keeps_State_takeFree_snd) | (with_reducible apply keeps_foldl) | (with_reducible apply keeps_id)
    | (extract_lets) | (split) | (with_reducible apply keeps_ite) | (dsimp -zeta only) | (dsimp -zeta +zetaDelta only))

theorem keeps_syncEnd (p t1 t2 t3 t4 s) (hs : Keeps s₀ s) : Keeps s₀ (syncEnd p t1 t2 t3 t4 s) := by
  unfold syncEnd
  extract_lets d o s1 g y s2
  have h1 : Keeps s₀ s1 := keeps_rephase _ _ (keeps_State_when _ _ _ (keeps_noteExchange _ _ _ _ hs) (fun s h => keeps_retrim _ h))
  have h2 : Keeps s₀ s2 := keeps_upd h1 id (Nat.le_refl _) (Nat.le_refl _) (Nat.le_refl _) rfl rfl rfl
  clear_value d o s1 g s2
  split
  · exact keeps_loseLock _ h2
  · split
    · exact keeps_raiseEv _ _ _ (keeps_State_setFlag _ _ _ _ (keeps_State_setFlag _ _ _ _ (keeps_State_setFlag _ _ _ _ h2)))
    · exact h2

theorem keeps_takeWord (p stamp kind data s) (hs : Keeps s₀ s) : Keeps s₀ (takeWord p stamp kind data s) := by
  unfold takeWord
  repeat' (first
    | (with_reducible assumption) | (with_reducible intro _) | (with_reducible apply keeps_State_setPort)
    | (with_reducible apply keeps_syncEnd) | (with_reducible apply keeps_enterRetrain) | (with_reducible apply keeps_foldl)
    | (with_reducible apply keeps_id) | (extract_lets) | (split) | (with_reducible apply keeps_ite) | (dsimp -zeta only)
    | (dsimp -zeta +zetaDelta only) | (with_reducible apply keeps_with_sync) | (with_reducible apply keeps_upd)
    | (exact Nat.le_refl _) | rfl | (exact Nat.le_add_right _ _) | (exact SMap.wf_filter _ (by with_reducible assumption) _))

theorem keeps_flitRx (p stamp f s) (hs : Keeps s₀ s) : Keeps s₀ (flitRx p stamp f s) := by
  unfold flitRx
  repeat' (first
    | (with_reducible assumption) | (with_reducible intro _) | (with_reducible apply keeps_State_setPort)
    | (with_reducible apply keeps_badFlit) | (with_reducible apply keeps_acceptFlit) | (with_reducible apply keeps_takeWord)
    | (with_reducible apply keeps_foldl) | (with_reducible apply keeps_id) | (extract_lets) | (split)
    | (with_reducible apply keeps_ite) | (dsimp -zeta only) | (dsimp -zeta +zetaDelta only))

theorem keeps_execFlitRx (p stamp f s) (hs : Keeps s₀ s) {w : State} (eq : execFlitRx p stamp f s = .next w) : Keeps s₀ w := by
  unfold execFlitRx at eq
  injection eq with eq
  subst eq
  repeat' (first
    | (with_reducible assumption) | (with_reducible intro _) | (with_reducible apply keeps_flitRx)
    | (with_reducible apply keeps_foldl) | (with_reducible apply keeps_id) | (extract_lets) | (split)
    | (with_reducible apply keeps_ite) | (dsimp -zeta only) | (dsimp -zeta +zetaDelta only))

theorem keeps_flitTransmit (p s) (hs : Keeps s₀ s) : Keeps s₀ (flitTransmit p s) := by
  unfold flitTransmit
  repeat' (first
    | (with_reducible assumption) | (with_reducible intro _)
    | (refine keeps_flitHead _ _ ?_ (by with_reducible assumption)) | (with_reducible apply keeps_askRetrain)
    | (with_reducible apply keeps_flitHead_snd) | (with_reducible apply keeps_State_setPort)
    | (with_reducible apply keeps_putFlit) | (with_reducible apply keeps_State_bump) | (with_reducible apply keeps_advance)
    | (with_reducible apply keeps_putIdle) | (with_reducible apply keeps_foldl) | (with_reducible apply keeps_id)
    | (extract_lets) | (split) | (with_reducible apply keeps_ite) | (dsimp -zeta only) | (dsimp -zeta +zetaDelta only))

theorem keeps_execFlitTransmit (p s) (hs : Keeps s₀ s) {w : State} (eq : execFlitTransmit p s = .next w) : Keeps s₀ w := by
  unfold execFlitTransmit at eq
  injection eq with eq
  subst eq
  repeat' (first
    | (with_reducible assumption) | (with_reducible intro _) | (with_reducible apply keeps_flitTransmit)
    | (with_reducible apply keeps_foldl) | (with_reducible apply keeps_id) | (extract_lets) | (split)
    | (with_reducible apply keeps_ite) | (dsimp -zeta only) | (dsimp -zeta +zetaDelta only))

theorem keeps_peerGone (p s) (hs : Keeps s₀ s) : Keeps s₀ (peerGone p s) := by
  unfold peerGone
  repeat' (first
    | (with_reducible assumption) | (with_reducible intro _) | (with_reducible apply keeps_enterDown)
    | (with_reducible apply keeps_foldl) | (with_reducible apply keeps_id) | (extract_lets) | (split)
    | (with_reducible apply keeps_ite) | (dsimp -zeta only) | (dsimp -zeta +zetaDelta only))

theorem keeps_execPeerGone (p s) (hs : Keeps s₀ s) {w : State} (eq : execPeerGone p s = .next w) : Keeps s₀ w := by
  unfold execPeerGone at eq
  injection eq with eq
  subst eq
  repeat' (first
    | (with_reducible assumption) | (with_reducible intro _) | (with_reducible apply keeps_peerGone)
    | (with_reducible apply keeps_foldl) | (with_reducible apply keeps_id) | (extract_lets) | (split)
    | (with_reducible apply keeps_ite) | (dsimp -zeta only) | (dsimp -zeta +zetaDelta only))

theorem keeps_portCtrl (p v s) (hs : Keeps s₀ s) : Keeps s₀ (portCtrl p v s) := by
  unfold portCtrl
  repeat' (first
    | (with_reducible assumption) | (with_reducible intro _) | (with_reducible apply keeps_State_when)
    | (with_reducible apply keeps_logStatus) | (with_reducible apply keeps_State_setRegN)
    | (with_reducible apply keeps_setPortState) | (with_reducible apply keeps_dropLink)
    | (with_reducible apply keeps_State_setFlag) | (with_reducible apply keeps_leaveUp)
    | (with_reducible apply keeps_askRetrain) | (with_reducible apply keeps_foldl) | (with_reducible apply keeps_id)
    | (extract_lets) | (split) | (with_reducible apply keeps_ite) | (dsimp -zeta only) | (dsimp -zeta +zetaDelta only))

theorem keeps_execPortEnable (fn p v s) (hs : Keeps s₀ s) {w : State} (eq : execPortEnable fn p v s = .next w) : Keeps s₀ w := by
  unfold execPortEnable at eq
  injection eq with eq
  subst eq
  repeat' (first
    | (with_reducible assumption) | (with_reducible intro _) | (with_reducible apply keeps_posted)
    | (with_reducible apply keeps_ownerWrite) | (with_reducible apply keeps_portCtrl) | (with_reducible apply keeps_foldl)
    | (with_reducible apply keeps_id) | (extract_lets) | (split) | (with_reducible apply keeps_ite) | (dsimp -zeta only)
    | (dsimp -zeta +zetaDelta only))

theorem keeps_execPortRetrain (fn p s) (hs : Keeps s₀ s) {w : State} (eq : execPortRetrain fn p s = .next w) : Keeps s₀ w := by
  unfold execPortRetrain at eq
  injection eq with eq
  subst eq
  repeat' (first
    | (with_reducible assumption) | (with_reducible intro _) | (with_reducible apply keeps_posted)
    | (with_reducible apply keeps_ownerWrite) | (with_reducible apply keeps_askRetrain) | (with_reducible apply keeps_foldl)
    | (with_reducible apply keeps_id) | (extract_lets) | (split) | (with_reducible apply keeps_ite) | (dsimp -zeta only)
    | (dsimp -zeta +zetaDelta only))

theorem keeps_retrainDone (p s) (hs : Keeps s₀ s) : Keeps s₀ (retrainDone p s) := by
  unfold retrainDone
  repeat' (first
    | (with_reducible assumption) | (with_reducible intro _) | (with_reducible apply keeps_State_setPort)
    | (with_reducible apply keeps_setPortState) | (with_reducible apply keeps_foldl) | (with_reducible apply keeps_id)
    | (extract_lets) | (split) | (with_reducible apply keeps_ite) | (dsimp -zeta only) | (dsimp -zeta +zetaDelta only))

theorem keeps_execRetrainDone (p s) (hs : Keeps s₀ s) {w : State} (eq : execRetrainDone p s = .next w) : Keeps s₀ w := by
  unfold execRetrainDone at eq
  injection eq with eq
  subst eq
  repeat' (first
    | (with_reducible assumption) | (with_reducible intro _) | (with_reducible apply keeps_retrainDone)
    | (with_reducible apply keeps_foldl) | (with_reducible apply keeps_id) | (extract_lets) | (split)
    | (with_reducible apply keeps_ite) | (dsimp -zeta only) | (dsimp -zeta +zetaDelta only))

theorem keeps_retrainTimeout (p s) (hs : Keeps s₀ s) : Keeps s₀ (retrainTimeout p s) := by
  unfold retrainTimeout
  repeat' (first
    | (with_reducible assumption) | (with_reducible intro _) | (with_reducible apply keeps_enterDown)
    | (with_reducible apply keeps_foldl) | (with_reducible apply keeps_id) | (extract_lets) | (split)
    | (with_reducible apply keeps_ite) | (dsimp -zeta only) | (dsimp -zeta +zetaDelta only))

theorem keeps_execRetrainTimeout (p s) (hs : Keeps s₀ s) {w : State} (eq : execRetrainTimeout p s = .next w) : Keeps s₀ w := by
  unfold execRetrainTimeout at eq
  injection eq with eq
  subst eq
  repeat' (first
    | (with_reducible assumption) | (with_reducible intro _) | (with_reducible apply keeps_retrainTimeout)
    | (with_reducible apply keeps_foldl) | (with_reducible apply keeps_id) | (extract_lets) | (split)
    | (with_reducible apply keeps_ite) | (dsimp -zeta only) | (dsimp -zeta +zetaDelta only))

theorem keeps_rtCommit (s) (hs : Keeps s₀ s) : Keeps s₀ (rtCommit s) := by
  unfold rtCommit
  repeat' (first
    | (with_reducible assumption) | (with_reducible intro _) | (with_reducible apply keeps_foldl)
    | (with_reducible apply keeps_id) | (extract_lets) | (split) | (with_reducible apply keeps_ite) | (dsimp -zeta only)
    | (dsimp -zeta +zetaDelta only) | (with_reducible apply keeps_with_routes) | (with_reducible apply keeps_upd)
    | (exact Nat.le_refl _) | rfl | (exact Nat.le_add_right _ _) | (exact SMap.wf_filter _ (by with_reducible assumption) _))

theorem keeps_execRtCommit (fn s) (hs : Keeps s₀ s) {w : State} (eq : execRtCommit fn s = .next w) : Keeps s₀ w := by
  unfold execRtCommit at eq
  injection eq with eq
  subst eq
  repeat' (first
    | (with_reducible assumption) | (with_reducible intro _) | (with_reducible apply keeps_posted)
    | (with_reducible apply keeps_ownerWrite) | (with_reducible apply keeps_rtCommit) | (with_reducible apply keeps_foldl)
    | (with_reducible apply keeps_id) | (extract_lets) | (split) | (with_reducible apply keeps_ite) | (dsimp -zeta only)
    | (dsimp -zeta +zetaDelta only))

theorem keeps_rtLoad (s) (hs : Keeps s₀ s) : Keeps s₀ (rtLoad s) := by
  unfold rtLoad
  repeat' (first
    | (with_reducible assumption) | (with_reducible intro _) | (with_reducible apply keeps_State_setRegN)
    | (with_reducible apply keeps_foldl) | (with_reducible apply keeps_id) | (extract_lets) | (split)
    | (with_reducible apply keeps_ite) | (dsimp -zeta only) | (dsimp -zeta +zetaDelta only))

theorem keeps_execRtLoad (fn s) (hs : Keeps s₀ s) {w : State} (eq : execRtLoad fn s = .next w) : Keeps s₀ w := by
  unfold execRtLoad at eq
  injection eq with eq
  subst eq
  repeat' (first
    | (with_reducible assumption) | (with_reducible intro _) | (with_reducible apply keeps_posted)
    | (with_reducible apply keeps_ownerWrite) | (with_reducible apply keeps_rtLoad) | (with_reducible apply keeps_foldl)
    | (with_reducible apply keeps_id) | (extract_lets) | (split) | (with_reducible apply keeps_ite) | (dsimp -zeta only)
    | (dsimp -zeta +zetaDelta only))

theorem keeps_syncExchange (s) (hs : Keeps s₀ s) : Keeps s₀ (syncExchange s) := by
  unfold syncExchange
  repeat' (first
    | (with_reducible assumption) | (with_reducible intro _) | (with_reducible apply keeps_State_setPort)
    | (with_reducible apply keeps_foldl) | (with_reducible apply keeps_id) | (extract_lets) | (split)
    | (with_reducible apply keeps_ite) | (dsimp -zeta only) | (dsimp -zeta +zetaDelta only)
    | (with_reducible apply keeps_with_sync) | (with_reducible apply keeps_upd) | (exact Nat.le_refl _) | rfl
    | (exact Nat.le_add_right _ _) | (exact SMap.wf_filter _ (by with_reducible assumption) _))

theorem keeps_execSyncExchange (s) (hs : Keeps s₀ s) {w : State} (eq : execSyncExchange s = .next w) : Keeps s₀ w := by
  unfold execSyncExchange at eq
  injection eq with eq
  subst eq
  repeat' (first
    | (with_reducible assumption) | (with_reducible intro _) | (with_reducible apply keeps_syncExchange)
    | (with_reducible apply keeps_foldl) | (with_reducible apply keeps_id) | (extract_lets) | (split)
    | (with_reducible apply keeps_ite) | (dsimp -zeta only) | (dsimp -zeta +zetaDelta only))

theorem keeps_sendHello (p s) (hs : Keeps s₀ s) : Keeps s₀ (sendHello p s) := by
  unfold sendHello
  repeat' (first
    | (with_reducible assumption) | (with_reducible intro _) | (with_reducible apply keeps_State_send)
    | (with_reducible apply keeps_foldl) | (with_reducible apply keeps_id) | (extract_lets) | (split)
    | (with_reducible apply keeps_ite) | (dsimp -zeta only) | (dsimp -zeta +zetaDelta only))

theorem keeps_setTime (t s) (hs : Keeps s₀ s) : Keeps s₀ (setTime t s) := by
  unfold setTime
  repeat' (first
    | (with_reducible assumption) | (with_reducible intro _) | (with_reducible apply keeps_foldl)
    | (with_reducible apply keeps_id) | (extract_lets) | (split) | (with_reducible apply keeps_ite) | (dsimp -zeta only)
    | (dsimp -zeta +zetaDelta only) | (with_reducible apply keeps_with_time) | (with_reducible apply keeps_upd)
    | (exact Nat.le_refl _) | rfl | (exact Nat.le_add_right _ _) | (exact SMap.wf_filter _ (by with_reducible assumption) _))

theorem keeps_takeParentTime (p s) (hs : Keeps s₀ s) : Keeps s₀ (takeParentTime p s) := by
  unfold takeParentTime
  repeat' (first
    | (with_reducible assumption) | (with_reducible intro _) | (with_reducible apply keeps_setTime)
    | (with_reducible apply keeps_foldl) | (with_reducible apply keeps_id) | (extract_lets) | (split)
    | (with_reducible apply keeps_ite) | (dsimp -zeta only) | (dsimp -zeta +zetaDelta only))

theorem keeps_trainingDone (p peerId peerPort shares peerTime delay tags s) (hs : Keeps s₀ s) : Keeps s₀ (trainingDone p peerId peerPort shares peerTime delay tags s) := by
  unfold trainingDone
  repeat' (first
    | (with_reducible assumption) | (with_reducible intro _) | (with_reducible apply keeps_sendHello)
    | (with_reducible apply keeps_State_setPort) | (with_reducible apply keeps_State_setRegN)
    | (with_reducible apply keeps_raiseEv) | (with_reducible apply keeps_takeParentTime)
    | (with_reducible apply keeps_setPortState) | (with_reducible apply keeps_foldl) | (with_reducible apply keeps_id)
    | (extract_lets) | (split) | (with_reducible apply keeps_ite) | (dsimp -zeta only) | (dsimp -zeta +zetaDelta only))

theorem keeps_execTrainingDone (p peerId peerPort shares peerTime e s) (hs : Keeps s₀ s) {w : State} (eq : execTrainingDone p peerId peerPort shares peerTime e s = .next w) : Keeps s₀ w := by
  unfold execTrainingDone at eq
  injection eq with eq
  subst eq
  repeat' (first
    | (with_reducible assumption) | (with_reducible intro _) | (with_reducible apply keeps_trainingDone)
    | (with_reducible apply keeps_foldl) | (with_reducible apply keeps_id) | (extract_lets) | (split)
    | (with_reducible apply keeps_ite) | (dsimp -zeta only) | (dsimp -zeta +zetaDelta only))

theorem keeps_trainingTimeout (p reason s) (hs : Keeps s₀ s) : Keeps s₀ (trainingTimeout p reason s) := by
  unfold trainingTimeout
  repeat' (first
    | (with_reducible assumption) | (with_reducible intro _) | (with_reducible apply keeps_enterDown)
    | (with_reducible apply keeps_State_setFld) | (with_reducible apply keeps_foldl) | (with_reducible apply keeps_id)
    | (extract_lets) | (split) | (with_reducible apply keeps_ite) | (dsimp -zeta only) | (dsimp -zeta +zetaDelta only))

theorem keeps_execTrainingTimeout (p reason s) (hs : Keeps s₀ s) {w : State} (eq : execTrainingTimeout p reason s = .next w) : Keeps s₀ w := by
  unfold execTrainingTimeout at eq
  injection eq with eq
  subst eq
  repeat' (first
    | (with_reducible assumption) | (with_reducible intro _) | (with_reducible apply keeps_trainingTimeout)
    | (with_reducible apply keeps_foldl) | (with_reducible apply keeps_id) | (extract_lets) | (split)
    | (with_reducible apply keeps_ite) | (dsimp -zeta only) | (dsimp -zeta +zetaDelta only))

end Sys2Proof.Machine.Laws
end

