-- ==== Sys2Proof/Laws/KeepsPackets.lean ====
section
/-! SUPPORT. Every definition of Sys2Proof/Machine/Packets.lean keeps what `Keeps` names. -/

namespace Sys2Proof.Machine.Laws

variable {s₀ : State}

theorem keeps_takeIn (p pkt s) (hs : Keeps s₀ s) : Keeps s₀ (takeIn p pkt s) := by
  unfold takeIn
  repeat' (first
    | (with_reducible assumption) | (with_reducible intro _) | (with_reducible apply keeps_State_setPort)
    | (with_reducible apply keeps_foldl) | (with_reducible apply keeps_id) | (extract_lets) | (split)
    | (with_reducible apply keeps_ite) | (dsimp -zeta only) | (dsimp -zeta +zetaDelta only)
    | (with_reducible apply keeps_with_loop) | (with_reducible apply keeps_upd) | (exact Nat.le_refl _) | rfl
    | (exact Nat.le_add_right _ _) | (exact SMap.wf_filter _ (by with_reducible assumption) _))

theorem keeps_refusePkt (p pkt status s) (hs : Keeps s₀ s) : Keeps s₀ (refusePkt p pkt status s) := by
  unfold refusePkt
  repeat' (first
    | (with_reducible assumption) | (with_reducible intro _) | (with_reducible apply keeps_takeIn)
    | (with_reducible apply keeps_State_bump) | (with_reducible apply keeps_sendPacket) | (with_reducible apply keeps_foldl)
    | (with_reducible apply keeps_id) | (extract_lets) | (split) | (with_reducible apply keeps_ite) | (dsimp -zeta only)
    | (dsimp -zeta +zetaDelta only))

theorem keeps_deliver (p pkt act s) (hact : ∀ s, Keeps s₀ s → Keeps s₀ (act s)) (hs : Keeps s₀ s) : Keeps s₀ (deliver p pkt act s) := by
  unfold deliver
  repeat' (first
    | (with_reducible assumption) | (with_reducible intro _) | (with_reducible apply keeps_State_bump)
    | (with_reducible apply keeps_takeIn) | (with_reducible apply keeps_foldl) | (with_reducible apply keeps_id)
    | (apply hact) | (extract_lets) | (split) | (with_reducible apply keeps_ite) | (dsimp -zeta only)
    | (dsimp -zeta +zetaDelta only))

theorem keeps_holdStop (p pkt s) (hs : Keeps s₀ s) : Keeps s₀ (holdStop p pkt s) := by
  unfold holdStop
  repeat' (first
    | (with_reducible assumption) | (with_reducible intro _) | (with_reducible apply keeps_refusePkt)
    | (with_reducible apply keeps_State_setFlag) | (with_reducible apply keeps_deliver)
    | (with_reducible apply keeps_sendPacket) | (with_reducible apply keeps_State_when)
    | (with_reducible apply keeps_State_scramble) | (with_reducible apply keeps_foldl) | (with_reducible apply keeps_id)
    | (extract_lets) | (split) | (with_reducible apply keeps_ite) | (dsimp -zeta only) | (dsimp -zeta +zetaDelta only)
    | (with_reducible apply keeps_with_cask) | (with_reducible apply keeps_upd) | (exact Nat.le_refl _) | rfl
    | (exact Nat.le_add_right _ _) | (exact SMap.wf_filter _ (by with_reducible assumption) _))

theorem keeps_deliverOrStop (p pkt act s) (hact : ∀ s, Keeps s₀ s → Keeps s₀ (act s)) (hs : Keeps s₀ s) : Keeps s₀ (deliverOrStop p pkt act s) := by
  unfold deliverOrStop
  repeat' (first
    | (with_reducible assumption) | (with_reducible intro _) | (with_reducible apply keeps_holdStop)
    | (with_reducible apply keeps_deliver) | (with_reducible apply keeps_foldl) | (with_reducible apply keeps_id)
    | (apply hact) | (extract_lets) | (split) | (with_reducible apply keeps_ite) | (dsimp -zeta only)
    | (dsimp -zeta +zetaDelta only))

theorem keeps_preferUnits (a n s) (hs : Keeps s₀ s) : Keeps s₀ (preferUnits a n s) := by
  unfold preferUnits
  repeat' (first
    | (with_reducible assumption) | (with_reducible intro _) | (with_reducible apply keeps_foldl)
    | (with_reducible apply keeps_id) | (extract_lets) | (split) | (with_reducible apply keeps_ite) | (dsimp -zeta only)
    | (dsimp -zeta +zetaDelta only) | (with_reducible apply keeps_with_cask) | (with_reducible apply keeps_upd)
    | (exact Nat.le_refl _) | rfl | (exact Nat.le_add_right _ _) | (exact SMap.wf_filter _ (by with_reducible assumption) _))

theorem keeps_accumMine (p pkt s) (hs : Keeps s₀ s) : Keeps s₀ (accumMine p pkt s) := by
  unfold accumMine
  repeat' (first
    | (with_reducible assumption) | (with_reducible intro _) | (with_reducible apply keeps_refusePkt)
    | (with_reducible apply keeps_accNote) | (with_reducible apply keeps_deliverOrStop)
    | (with_reducible apply keeps_sendPacket) | (with_reducible apply keeps_holdStop)
    | (with_reducible apply keeps_preferUnits) | (with_reducible apply keeps_deliver)
    | (with_reducible apply keeps_noteReady) | (with_reducible apply keeps_accApply) | (with_reducible apply keeps_foldl)
    | (with_reducible apply keeps_id) | (extract_lets) | (split) | (with_reducible apply keeps_ite) | (dsimp -zeta only)
    | (dsimp -zeta +zetaDelta only))

theorem keeps_accumQuiet (pkt s) (hs : Keeps s₀ s) : Keeps s₀ (accumQuiet pkt s) := by
  unfold accumQuiet
  repeat' (first
    | (with_reducible assumption) | (with_reducible intro _) | (with_reducible apply keeps_accApply)
    | (with_reducible apply keeps_accNote) | (with_reducible apply keeps_foldl) | (with_reducible apply keeps_id)
    | (extract_lets) | (split) | (with_reducible apply keeps_ite) | (dsimp -zeta only) | (dsimp -zeta +zetaDelta only))

theorem keeps_forward (p pkt s) (hs : Keeps s₀ s) : Keeps s₀ (forward p pkt s) := by
  unfold forward
  repeat' (first
    | (with_reducible assumption) | (with_reducible intro _) | (with_reducible apply keeps_refusePkt)
    | (with_reducible apply keeps_queueAt) | (with_reducible apply keeps_State_bump) | (with_reducible apply keeps_takeIn)
    | (with_reducible apply keeps_foldl) | (with_reducible apply keeps_id) | (extract_lets) | (split)
    | (with_reducible apply keeps_ite) | (dsimp -zeta only) | (dsimp -zeta +zetaDelta only))

theorem keeps_receive (ty p pkt mine s) (hmine : ∀ s, Keeps s₀ s → Keeps s₀ (mine s)) (hs : Keeps s₀ s) : Keeps s₀ (receive ty p pkt mine s) := by
  unfold receive
  repeat' (first
    | (with_reducible assumption) | (with_reducible intro _) | (with_reducible apply keeps_refuseForm)
    | (with_reducible apply keeps_takeIn) | (with_reducible apply keeps_forward) | (with_reducible apply keeps_foldl)
    | (with_reducible apply keeps_id) | (apply hmine) | (extract_lets) | (split) | (with_reducible apply keeps_ite)
    | (dsimp -zeta only) | (dsimp -zeta +zetaDelta only))

theorem keeps_accumRx (p pkt s) (hs : Keeps s₀ s) : Keeps s₀ (accumRx p pkt s) := by
  unfold accumRx
  repeat' (first
    | (with_reducible assumption) | (with_reducible intro _) | (with_reducible apply keeps_receive)
    | (with_reducible apply keeps_accumMine) | (with_reducible apply keeps_foldl) | (with_reducible apply keeps_id)
    | (extract_lets) | (split) | (with_reducible apply keeps_ite) | (dsimp -zeta only) | (dsimp -zeta +zetaDelta only))

theorem keeps_moveAnswered (o data s) (hs : Keeps s₀ s) : Keeps s₀ (moveAnswered o data s) := by
  unfold moveAnswered
  repeat' (first
    | (with_reducible assumption) | (with_reducible intro _) | (with_reducible apply keeps_setFetch)
    | (with_reducible apply keeps_settle) | (with_reducible apply keeps_tryArrays) | (with_reducible apply keeps_endFetch)
    | (with_reducible apply keeps_foldl) | (with_reducible apply keeps_id) | (extract_lets) | (split)
    | (with_reducible apply keeps_ite) | (dsimp -zeta only) | (dsimp -zeta +zetaDelta only)
    | (with_reducible apply keeps_with_tiers) | (with_reducible apply keeps_upd) | (exact Nat.le_refl _) | rfl
    | (exact Nat.le_add_right _ _) | (exact SMap.wf_filter _ (by with_reducible assumption) _))

theorem keeps_settleAnswer (o data s) (hs : Keeps s₀ s) : Keeps s₀ (settleAnswer o data s) := by
  unfold settleAnswer
  repeat' (first
    | (with_reducible assumption) | (with_reducible intro _) | (with_reducible apply keeps_moveAnswered)
    | (with_reducible apply keeps_gotCask) | (with_reducible apply keeps_settle) | (with_reducible apply keeps_payOwed)
    | (with_reducible apply keeps_collCheck) | (with_reducible apply keeps_foldl) | (with_reducible apply keeps_id)
    | (extract_lets) | (split) | (with_reducible apply keeps_ite) | (dsimp -zeta only) | (dsimp -zeta +zetaDelta only)
    | (with_reducible apply keeps_with_outst) | (with_reducible apply keeps_upd) | (exact Nat.le_refl _) | rfl
    | (exact Nat.le_add_right _ _) | (exact SMap.wf_filter _ (by with_reducible assumption) _))

theorem keeps_ackMine (p pkt s) (hs : Keeps s₀ s) : Keeps s₀ (ackMine p pkt s) := by
  unfold ackMine
  repeat' (first
    | (with_reducible assumption) | (with_reducible intro _) | (with_reducible apply keeps_deliver)
    | (with_reducible apply keeps_settleAnswer) | (with_reducible apply keeps_foldl) | (with_reducible apply keeps_id)
    | (extract_lets) | (split) | (with_reducible apply keeps_ite) | (dsimp -zeta only) | (dsimp -zeta +zetaDelta only))

theorem keeps_ackRx (p pkt s) (hs : Keeps s₀ s) : Keeps s₀ (ackRx p pkt s) := by
  unfold ackRx
  repeat' (first
    | (with_reducible assumption) | (with_reducible intro _) | (with_reducible apply keeps_receive)
    | (with_reducible apply keeps_ackMine) | (with_reducible apply keeps_foldl) | (with_reducible apply keeps_id)
    | (extract_lets) | (split) | (with_reducible apply keeps_ite) | (dsimp -zeta only) | (dsimp -zeta +zetaDelta only))

theorem keeps_applyCredit (pkt s) (hs : Keeps s₀ s) : Keeps s₀ (applyCredit pkt s) := by
  unfold applyCredit
  repeat' (first
    | (with_reducible assumption) | (with_reducible intro _) | (with_reducible apply keeps_creditArrival)
    | (with_reducible apply keeps_foldl) | (with_reducible apply keeps_id) | (extract_lets) | (split)
    | (with_reducible apply keeps_ite) | (dsimp -zeta only) | (dsimp -zeta +zetaDelta only)
    | (with_reducible apply keeps_with_net) | (with_reducible apply keeps_upd) | (exact Nat.le_refl _) | rfl
    | (exact Nat.le_add_right _ _) | (exact SMap.wf_filter _ (by with_reducible assumption) _))

theorem keeps_applyWrite (pkt a data s) {t : State} (hs : Keeps s₀ s) (e : applyWrite pkt a data s = .ok t) : Keeps s₀ t := by
  simp only [Sys2Proof.Machine.applyWrite] at e
  split at e
  · cases e
  · next h1 =>
    have h := keeps_writeFolio a data _ (keeps_allocTiles _ _ _ hs h1)
    split at e
    · cases e
    · split at e
      · injection e with e; subst e; exact keeps_setTileState _ _ _ h
      · injection e with e; subst e; exact h

theorem keeps_applyQuiet (pkt s) (hs : Keeps s₀ s) : Keeps s₀ (applyQuiet pkt s) := by
  unfold applyQuiet
  repeat' (first
    | (with_reducible assumption) | (with_reducible intro _)
    | (refine keeps_applyWrite _ _ _ _ ?_ (by with_reducible assumption)) | (with_reducible apply keeps_foldl)
    | (with_reducible apply keeps_id) | (extract_lets) | (split) | (with_reducible apply keeps_ite) | (dsimp -zeta only)
    | (dsimp -zeta +zetaDelta only))

theorem keeps_applyToken (pkt s) (hs : Keeps s₀ s) : Keeps s₀ (applyToken pkt s) := by
  unfold applyToken
  repeat' (first
    | (with_reducible assumption) | (with_reducible intro _) | (with_reducible apply keeps_tokenArrival)
    | (with_reducible apply keeps_sendToken) | (with_reducible apply keeps_foldl) | (with_reducible apply keeps_id)
    | (extract_lets) | (split) | (with_reducible apply keeps_ite) | (dsimp -zeta only) | (dsimp -zeta +zetaDelta only))

theorem keeps_creditMine (p pkt s) (hs : Keeps s₀ s) : Keeps s₀ (creditMine p pkt s) := by
  unfold creditMine
  repeat' (first
    | (with_reducible assumption) | (with_reducible intro _) | (with_reducible apply keeps_refusePkt)
    | (with_reducible apply keeps_deliverOrStop) | (with_reducible apply keeps_applyCredit)
    | (with_reducible apply keeps_foldl) | (with_reducible apply keeps_id) | (extract_lets) | (split)
    | (with_reducible apply keeps_ite) | (dsimp -zeta only) | (dsimp -zeta +zetaDelta only))

theorem keeps_creditRx (p pkt s) (hs : Keeps s₀ s) : Keeps s₀ (creditRx p pkt s) := by
  unfold creditRx
  repeat' (first
    | (with_reducible assumption) | (with_reducible intro _) | (with_reducible apply keeps_receive)
    | (with_reducible apply keeps_creditMine) | (with_reducible apply keeps_foldl) | (with_reducible apply keeps_id)
    | (extract_lets) | (split) | (with_reducible apply keeps_ite) | (dsimp -zeta only) | (dsimp -zeta +zetaDelta only))

theorem keeps_errorMeets (o status from_ s) (hs : Keeps s₀ s) : Keeps s₀ (errorMeets o status from_ s) := by
  unfold errorMeets
  repeat' (first
    | (with_reducible assumption) | (with_reducible intro _) | (with_reducible apply keeps_failSent)
    | (with_reducible apply keeps_endLease) | (with_reducible apply keeps_settle) | (with_reducible apply keeps_tryArrays)
    | (with_reducible apply keeps_foldl) | (with_reducible apply keeps_id) | (extract_lets) | (split)
    | (with_reducible apply keeps_ite) | (dsimp -zeta only) | (dsimp -zeta +zetaDelta only))

theorem keeps_leaseUnknown (pkt status ty s) (hs : Keeps s₀ s) : Keeps s₀ (leaseUnknown pkt status ty s) := by
  unfold leaseUnknown
  repeat' (first
    | (with_reducible assumption) | (with_reducible intro _) | (with_reducible apply keeps_endLease)
    | (with_reducible apply keeps_foldl) | (with_reducible apply keeps_id) | (extract_lets) | (split)
    | (with_reducible apply keeps_ite) | (dsimp -zeta only) | (dsimp -zeta +zetaDelta only))

theorem keeps_errorMine (pkt s) (hs : Keeps s₀ s) : Keeps s₀ (errorMine pkt s) := by
  unfold errorMine
  repeat' (first
    | (with_reducible assumption) | (with_reducible intro _) | (with_reducible apply keeps_errorMeets)
    | (with_reducible apply keeps_leaseUnknown) | (with_reducible apply keeps_raiseEv)
    | (with_reducible apply keeps_State_bump) | (with_reducible apply keeps_foldl) | (with_reducible apply keeps_id)
    | (extract_lets) | (split) | (with_reducible apply keeps_ite) | (dsimp -zeta only) | (dsimp -zeta +zetaDelta only))

theorem keeps_errorRx (p pkt s) (hs : Keeps s₀ s) : Keeps s₀ (errorRx p pkt s) := by
  unfold errorRx
  repeat' (first
    | (with_reducible assumption) | (with_reducible intro _) | (with_reducible apply keeps_receive)
    | (with_reducible apply keeps_deliver) | (with_reducible apply keeps_errorMine) | (with_reducible apply keeps_foldl)
    | (with_reducible apply keeps_id) | (extract_lets) | (split) | (with_reducible apply keeps_ite) | (dsimp -zeta only)
    | (dsimp -zeta +zetaDelta only))

theorem keeps_execAccumRx (p pkt s) (hs : Keeps s₀ s) {w : State} (eq : execAccumRx p pkt s = .next w) : Keeps s₀ w := by
  unfold execAccumRx at eq
  injection eq with eq
  subst eq
  repeat' (first
    | (with_reducible assumption) | (with_reducible intro _) | (with_reducible apply keeps_accumRx)
    | (with_reducible apply keeps_foldl) | (with_reducible apply keeps_id) | (extract_lets) | (split)
    | (with_reducible apply keeps_ite) | (dsimp -zeta only) | (dsimp -zeta +zetaDelta only))

theorem keeps_execAckRx (p pkt s) (hs : Keeps s₀ s) {w : State} (eq : execAckRx p pkt s = .next w) : Keeps s₀ w := by
  unfold execAckRx at eq
  injection eq with eq
  subst eq
  repeat' (first
    | (with_reducible assumption) | (with_reducible intro _) | (with_reducible apply keeps_ackRx)
    | (with_reducible apply keeps_foldl) | (with_reducible apply keeps_id) | (extract_lets) | (split)
    | (with_reducible apply keeps_ite) | (dsimp -zeta only) | (dsimp -zeta +zetaDelta only))

theorem keeps_execCreditRx (p pkt s) (hs : Keeps s₀ s) {w : State} (eq : execCreditRx p pkt s = .next w) : Keeps s₀ w := by
  unfold execCreditRx at eq
  injection eq with eq
  subst eq
  repeat' (first
    | (with_reducible assumption) | (with_reducible intro _) | (with_reducible apply keeps_creditRx)
    | (with_reducible apply keeps_foldl) | (with_reducible apply keeps_id) | (extract_lets) | (split)
    | (with_reducible apply keeps_ite) | (dsimp -zeta only) | (dsimp -zeta +zetaDelta only))

theorem keeps_execErrorRx (p pkt s) (hs : Keeps s₀ s) {w : State} (eq : execErrorRx p pkt s = .next w) : Keeps s₀ w := by
  unfold execErrorRx at eq
  injection eq with eq
  subst eq
  repeat' (first
    | (with_reducible assumption) | (with_reducible intro _) | (with_reducible apply keeps_errorRx)
    | (with_reducible apply keeps_foldl) | (with_reducible apply keeps_id) | (extract_lets) | (split)
    | (with_reducible apply keeps_ite) | (dsimp -zeta only) | (dsimp -zeta +zetaDelta only))

theorem keeps_leaseRx (sub p pkt act s) (hact : ∀ s, Keeps s₀ s → Keeps s₀ (act s)) (hs : Keeps s₀ s) : Keeps s₀ (leaseRx sub p pkt act s) := by
  unfold leaseRx
  repeat' (first
    | (with_reducible assumption) | (with_reducible intro _) | (with_reducible apply keeps_receive)
    | (with_reducible apply keeps_deliver) | (with_reducible apply keeps_foldl) | (with_reducible apply keeps_id)
    | (apply hact) | (extract_lets) | (split) | (with_reducible apply keeps_ite) | (dsimp -zeta only)
    | (dsimp -zeta +zetaDelta only))

theorem keeps_leaseActive (pkt s) (hs : Keeps s₀ s) : Keeps s₀ (leaseActive pkt s) := by
  unfold leaseActive
  repeat' (first
    | (with_reducible assumption) | (with_reducible intro _) | (with_reducible apply keeps_State_setLease)
    | (with_reducible apply keeps_foldl) | (with_reducible apply keeps_id) | (extract_lets) | (split)
    | (with_reducible apply keeps_ite) | (dsimp -zeta only) | (dsimp -zeta +zetaDelta only))

theorem keeps_execLeaseGrantRx (p pkt s) (hs : Keeps s₀ s) {w : State} (eq : execLeaseGrantRx p pkt s = .next w) : Keeps s₀ w := by
  unfold execLeaseGrantRx at eq
  injection eq with eq
  subst eq
  repeat' (first
    | (with_reducible assumption) | (with_reducible intro _) | (with_reducible apply keeps_leaseRx)
    | (with_reducible apply keeps_leaseActive) | (with_reducible apply keeps_foldl) | (with_reducible apply keeps_id)
    | (extract_lets) | (split) | (with_reducible apply keeps_ite) | (dsimp -zeta only) | (dsimp -zeta +zetaDelta only))

theorem keeps_leaseRecalled (pkt s) (hs : Keeps s₀ s) : Keeps s₀ (leaseRecalled pkt s) := by
  unfold leaseRecalled
  repeat' (first
    | (with_reducible assumption) | (with_reducible intro _) | (with_reducible apply keeps_raiseEv)
    | (with_reducible apply keeps_State_setLease) | (with_reducible apply keeps_foldl) | (with_reducible apply keeps_id)
    | (extract_lets) | (split) | (with_reducible apply keeps_ite) | (dsimp -zeta only) | (dsimp -zeta +zetaDelta only))

theorem keeps_execLeaseRecallRx (p pkt s) (hs : Keeps s₀ s) {w : State} (eq : execLeaseRecallRx p pkt s = .next w) : Keeps s₀ w := by
  unfold execLeaseRecallRx at eq
  injection eq with eq
  subst eq
  repeat' (first
    | (with_reducible assumption) | (with_reducible intro _) | (with_reducible apply keeps_leaseRx)
    | (with_reducible apply keeps_leaseRecalled) | (with_reducible apply keeps_foldl) | (with_reducible apply keeps_id)
    | (extract_lets) | (split) | (with_reducible apply keeps_ite) | (dsimp -zeta only) | (dsimp -zeta +zetaDelta only))

theorem keeps_leaseRefused (pkt s) (hs : Keeps s₀ s) : Keeps s₀ (leaseRefused pkt s) := by
  unfold leaseRefused
  repeat' (first
    | (with_reducible assumption) | (with_reducible intro _) | (with_reducible apply keeps_State_setLease)
    | (with_reducible apply keeps_foldl) | (with_reducible apply keeps_id) | (extract_lets) | (split)
    | (with_reducible apply keeps_ite) | (dsimp -zeta only) | (dsimp -zeta +zetaDelta only))

theorem keeps_execLeaseRefuseRx (p pkt s) (hs : Keeps s₀ s) {w : State} (eq : execLeaseRefuseRx p pkt s = .next w) : Keeps s₀ w := by
  unfold execLeaseRefuseRx at eq
  injection eq with eq
  subst eq
  repeat' (first
    | (with_reducible assumption) | (with_reducible intro _) | (with_reducible apply keeps_leaseRx)
    | (with_reducible apply keeps_leaseRefused) | (with_reducible apply keeps_foldl) | (with_reducible apply keeps_id)
    | (extract_lets) | (split) | (with_reducible apply keeps_ite) | (dsimp -zeta only) | (dsimp -zeta +zetaDelta only))

theorem keeps_leaseOther (p pkt s) (hs : Keeps s₀ s) : Keeps s₀ (leaseOther p pkt s) := by
  unfold leaseOther
  repeat' (first
    | (with_reducible assumption) | (with_reducible intro _) | (with_reducible apply keeps_leaseRx)
    | (with_reducible apply keeps_foldl) | (with_reducible apply keeps_id) | (extract_lets) | (split)
    | (with_reducible apply keeps_ite) | (dsimp -zeta only) | (dsimp -zeta +zetaDelta only))

theorem keeps_heldLease (sub p pkt act s) (hact : ∀ s, Keeps s₀ s → Keeps s₀ (act s)) (hs : Keeps s₀ s) : Keeps s₀ (heldLease sub p pkt act s) := by
  unfold heldLease
  repeat' (first
    | (with_reducible assumption) | (with_reducible intro _) | (with_reducible apply keeps_receive)
    | (with_reducible apply keeps_deliver) | (with_reducible apply keeps_refusePkt) | (with_reducible apply keeps_foldl)
    | (with_reducible apply keeps_id) | (apply hact) | (extract_lets) | (split) | (with_reducible apply keeps_ite)
    | (dsimp -zeta only) | (dsimp -zeta +zetaDelta only))

theorem keeps_grantRelease (pkt s) (hs : Keeps s₀ s) : Keeps s₀ (grantRelease pkt s) := by
  unfold grantRelease
  repeat' (first
    | (with_reducible assumption) | (with_reducible intro _) | (with_reducible apply keeps_foldl)
    | (with_reducible apply keeps_id) | (extract_lets) | (split) | (with_reducible apply keeps_ite) | (dsimp -zeta only)
    | (dsimp -zeta +zetaDelta only) | (with_reducible apply keeps_with_tiers) | (with_reducible apply keeps_upd)
    | (exact Nat.le_refl _) | rfl | (exact Nat.le_add_right _ _) | (exact SMap.wf_filter _ (by with_reducible assumption) _))

theorem keeps_execLeaseReleaseRx (p pkt s) (hs : Keeps s₀ s) {w : State} (eq : execLeaseReleaseRx p pkt s = .next w) : Keeps s₀ w := by
  unfold execLeaseReleaseRx at eq
  injection eq with eq
  subst eq
  repeat' (first
    | (with_reducible assumption) | (with_reducible intro _) | (with_reducible apply keeps_leaseOther)
    | (with_reducible apply keeps_heldLease) | (with_reducible apply keeps_grantRelease) | (with_reducible apply keeps_foldl)
    | (with_reducible apply keeps_id) | (extract_lets) | (split) | (with_reducible apply keeps_ite) | (dsimp -zeta only)
    | (dsimp -zeta +zetaDelta only))

theorem keeps_grantRenew (pkt s) (hs : Keeps s₀ s) : Keeps s₀ (grantRenew pkt s) := by
  unfold grantRenew
  repeat' (first
    | (with_reducible assumption) | (with_reducible intro _) | (with_reducible apply keeps_recallGrant)
    | (with_reducible apply keeps_foldl) | (with_reducible apply keeps_id) | (extract_lets) | (split)
    | (with_reducible apply keeps_ite) | (dsimp -zeta only) | (dsimp -zeta +zetaDelta only)
    | (with_reducible apply keeps_with_tiers) | (with_reducible apply keeps_upd) | (exact Nat.le_refl _) | rfl
    | (exact Nat.le_add_right _ _) | (exact SMap.wf_filter _ (by with_reducible assumption) _))

theorem keeps_execLeaseRenewRx (p pkt s) (hs : Keeps s₀ s) {w : State} (eq : execLeaseRenewRx p pkt s = .next w) : Keeps s₀ w := by
  unfold execLeaseRenewRx at eq
  injection eq with eq
  subst eq
  repeat' (first
    | (with_reducible assumption) | (with_reducible intro _) | (with_reducible apply keeps_heldLease)
    | (with_reducible apply keeps_grantRenew) | (with_reducible apply keeps_foldl) | (with_reducible apply keeps_id)
    | (extract_lets) | (split) | (with_reducible apply keeps_ite) | (dsimp -zeta only) | (dsimp -zeta +zetaDelta only))

theorem keeps_grantLease (pkt s) (hs : Keeps s₀ s) : Keeps s₀ (grantLease pkt s) := by
  unfold grantLease
  repeat' (first
    | (with_reducible assumption) | (with_reducible intro _) | (with_reducible apply keeps_sendLease)
    | (with_reducible apply keeps_foldl) | (with_reducible apply keeps_id) | (extract_lets) | (split)
    | (with_reducible apply keeps_ite) | (dsimp -zeta only) | (dsimp -zeta +zetaDelta only)
    | (with_reducible apply keeps_with_tiers) | (with_reducible apply keeps_upd) | (exact Nat.le_refl _) | rfl
    | (exact Nat.le_add_right _ _) | (exact SMap.wf_filter _ (by with_reducible assumption) _))

theorem keeps_execLeaseRequestRx (p pkt s) (hs : Keeps s₀ s) {w : State} (eq : execLeaseRequestRx p pkt s = .next w) : Keeps s₀ w := by
  unfold execLeaseRequestRx at eq
  injection eq with eq
  subst eq
  repeat' (first
    | (with_reducible assumption) | (with_reducible intro _) | (with_reducible apply keeps_leaseRx)
    | (with_reducible apply keeps_grantLease) | (with_reducible apply keeps_foldl) | (with_reducible apply keeps_id)
    | (extract_lets) | (split) | (with_reducible apply keeps_ite) | (dsimp -zeta only) | (dsimp -zeta +zetaDelta only))

theorem keeps_tileAccess (p pkt i a n act s) (hact : ∀ s, Keeps s₀ s → Keeps s₀ (act s)) (hs : Keeps s₀ s) : Keeps s₀ (tileAccess p pkt i a n act s) := by
  unfold tileAccess
  repeat' (first
    | (with_reducible assumption) | (with_reducible intro _) | (with_reducible apply keeps_atEdge)
    | (with_reducible apply keeps_refusePkt) | (with_reducible apply keeps_countWakeTo) | (with_reducible apply keeps_foldl)
    | (with_reducible apply keeps_id) | (apply hact) | (extract_lets) | (split) | (with_reducible apply keeps_ite)
    | (dsimp -zeta only) | (dsimp -zeta +zetaDelta only))

theorem keeps_readShards (s0 pkt s) (hs0 : Keeps s₀ s0) (hs : Keeps s₀ s) : Keeps s₀ (readShards s0 pkt s) := by
  unfold readShards
  repeat' (first
    | (with_reducible assumption) | (with_reducible intro _) | (with_reducible apply keeps_touch)
    | (with_reducible apply keeps_foldl) | (with_reducible apply keeps_id) | (extract_lets) | (split)
    | (with_reducible apply keeps_ite) | (dsimp -zeta only) | (dsimp -zeta +zetaDelta only))

theorem keeps_serveRead (p pkt gen old s) (hs : Keeps s₀ s) : Keeps s₀ (serveRead p pkt gen old s) := by
  unfold serveRead
  repeat' (first
    | (with_reducible assumption) | (with_reducible intro _) | (with_reducible apply keeps_refusePkt)
    | (with_reducible apply keeps_noteEcc) | (with_reducible apply keeps_readOver) | (with_reducible apply keeps_deliver)
    | (with_reducible apply keeps_readDone) | (with_reducible apply keeps_sendPacket) | (with_reducible apply keeps_raiseEv)
    | (with_reducible apply keeps_State_setRegN) | (with_reducible apply keeps_foldl) | (with_reducible apply keeps_id)
    | (extract_lets) | (split) | (with_reducible apply keeps_ite) | (dsimp -zeta only) | (dsimp -zeta +zetaDelta only))

theorem keeps_readMine (p pkt i s) (hs : Keeps s₀ s) : Keeps s₀ (readMine p pkt i s) := by
  unfold readMine
  repeat' (first
    | (with_reducible assumption) | (with_reducible intro _) | (with_reducible apply keeps_refusePkt)
    | (with_reducible apply keeps_askRemote) | (with_reducible apply keeps_tileAccess)
    | (with_reducible apply keeps_readShards) | (with_reducible apply keeps_serveRead) | (with_reducible apply keeps_foldl)
    | (with_reducible apply keeps_id) | (extract_lets) | (split) | (with_reducible apply keeps_ite) | (dsimp -zeta only)
    | (dsimp -zeta +zetaDelta only))

theorem keeps_readReqRx (p pkt s) (hs : Keeps s₀ s) : Keeps s₀ (readReqRx p pkt s) := by
  unfold readReqRx
  repeat' (first
    | (with_reducible assumption) | (with_reducible intro _) | (with_reducible apply keeps_receive)
    | (with_reducible apply keeps_readMine) | (with_reducible apply keeps_foldl) | (with_reducible apply keeps_id)
    | (extract_lets) | (split) | (with_reducible apply keeps_ite) | (dsimp -zeta only) | (dsimp -zeta +zetaDelta only))

theorem keeps_execReadReqRx (p pkt s) (hs : Keeps s₀ s) {w : State} (eq : execReadReqRx p pkt s = .next w) : Keeps s₀ w := by
  unfold execReadReqRx at eq
  injection eq with eq
  subst eq
  repeat' (first
    | (with_reducible assumption) | (with_reducible intro _) | (with_reducible apply keeps_readReqRx)
    | (with_reducible apply keeps_foldl) | (with_reducible apply keeps_id) | (extract_lets) | (split)
    | (with_reducible apply keeps_ite) | (dsimp -zeta only) | (dsimp -zeta +zetaDelta only))

theorem keeps_respMine (p pkt s) (hs : Keeps s₀ s) : Keeps s₀ (respMine p pkt s) := by
  unfold respMine
  repeat' (first
    | (with_reducible assumption) | (with_reducible intro _)
    | (refine keeps_applyWrite _ _ _ _ ?_ (by with_reducible assumption)) | (with_reducible apply keeps_deliver)
    | (with_reducible apply keeps_settleAnswer) | (with_reducible apply keeps_refusePkt)
    | (with_reducible apply keeps_preferUnits) | (with_reducible apply keeps_noteEcc) | (with_reducible apply keeps_atEdge)
    | (with_reducible apply keeps_settle) | (with_reducible apply keeps_failSent) | (with_reducible apply keeps_countWakeTo)
    | (with_reducible apply keeps_foldl) | (with_reducible apply keeps_id) | (extract_lets) | (split)
    | (with_reducible apply keeps_ite) | (dsimp -zeta only) | (dsimp -zeta +zetaDelta only))

theorem keeps_readRespRx (p pkt s) (hs : Keeps s₀ s) : Keeps s₀ (readRespRx p pkt s) := by
  unfold readRespRx
  repeat' (first
    | (with_reducible assumption) | (with_reducible intro _) | (with_reducible apply keeps_receive)
    | (with_reducible apply keeps_respMine) | (with_reducible apply keeps_foldl) | (with_reducible apply keeps_id)
    | (extract_lets) | (split) | (with_reducible apply keeps_ite) | (dsimp -zeta only) | (dsimp -zeta +zetaDelta only))

theorem keeps_execReadRespRx (p pkt s) (hs : Keeps s₀ s) {w : State} (eq : execReadRespRx p pkt s = .next w) : Keeps s₀ w := by
  unfold execReadRespRx at eq
  injection eq with eq
  subst eq
  repeat' (first
    | (with_reducible assumption) | (with_reducible intro _) | (with_reducible apply keeps_readRespRx)
    | (with_reducible apply keeps_foldl) | (with_reducible apply keeps_id) | (extract_lets) | (split)
    | (with_reducible apply keeps_ite) | (dsimp -zeta only) | (dsimp -zeta +zetaDelta only))

theorem keeps_tokenMine (p pkt s) (hs : Keeps s₀ s) : Keeps s₀ (tokenMine p pkt s) := by
  unfold tokenMine
  repeat' (first
    | (with_reducible assumption) | (with_reducible intro _) | (with_reducible apply keeps_refusePkt)
    | (with_reducible apply keeps_deliverOrStop) | (with_reducible apply keeps_applyToken)
    | (with_reducible apply keeps_foldl) | (with_reducible apply keeps_id) | (extract_lets) | (split)
    | (with_reducible apply keeps_ite) | (dsimp -zeta only) | (dsimp -zeta +zetaDelta only))

theorem keeps_tokenRx (p pkt s) (hs : Keeps s₀ s) : Keeps s₀ (tokenRx p pkt s) := by
  unfold tokenRx
  repeat' (first
    | (with_reducible assumption) | (with_reducible intro _) | (with_reducible apply keeps_receive)
    | (with_reducible apply keeps_tokenMine) | (with_reducible apply keeps_foldl) | (with_reducible apply keeps_id)
    | (extract_lets) | (split) | (with_reducible apply keeps_ite) | (dsimp -zeta only) | (dsimp -zeta +zetaDelta only))

theorem keeps_execTokenRx (p pkt s) (hs : Keeps s₀ s) {w : State} (eq : execTokenRx p pkt s = .next w) : Keeps s₀ w := by
  unfold execTokenRx at eq
  injection eq with eq
  subst eq
  repeat' (first
    | (with_reducible assumption) | (with_reducible intro _) | (with_reducible apply keeps_tokenRx)
    | (with_reducible apply keeps_foldl) | (with_reducible apply keeps_id) | (extract_lets) | (split)
    | (with_reducible apply keeps_ite) | (dsimp -zeta only) | (dsimp -zeta +zetaDelta only))

theorem keeps_writeMine (p pkt i s) (hs : Keeps s₀ s) : Keeps s₀ (writeMine p pkt i s) := by
  unfold writeMine
  repeat' (first
    | (with_reducible assumption) | (with_reducible intro _)
    | (refine keeps_applyWrite _ _ _ _ ?_ (by with_reducible assumption)) | (with_reducible apply keeps_refusePkt)
    | (with_reducible apply keeps_holdStop) | (with_reducible apply keeps_preferUnits)
    | (with_reducible apply keeps_tileAccess) | (with_reducible apply keeps_deliver)
    | (with_reducible apply keeps_sendPacket) | (with_reducible apply keeps_noteEcc) | (with_reducible apply keeps_foldl)
    | (with_reducible apply keeps_id) | (extract_lets) | (split) | (with_reducible apply keeps_ite) | (dsimp -zeta only)
    | (dsimp -zeta +zetaDelta only))

theorem keeps_writeRx (p pkt s) (hs : Keeps s₀ s) : Keeps s₀ (writeRx p pkt s) := by
  unfold writeRx
  repeat' (first
    | (with_reducible assumption) | (with_reducible intro _) | (with_reducible apply keeps_receive)
    | (with_reducible apply keeps_writeMine) | (with_reducible apply keeps_foldl) | (with_reducible apply keeps_id)
    | (extract_lets) | (split) | (with_reducible apply keeps_ite) | (dsimp -zeta only) | (dsimp -zeta +zetaDelta only))

theorem keeps_execWriteRx (p pkt s) (hs : Keeps s₀ s) {w : State} (eq : execWriteRx p pkt s = .next w) : Keeps s₀ w := by
  unfold execWriteRx at eq
  injection eq with eq
  subst eq
  repeat' (first
    | (with_reducible assumption) | (with_reducible intro _) | (with_reducible apply keeps_writeRx)
    | (with_reducible apply keeps_foldl) | (with_reducible apply keeps_id) | (extract_lets) | (split)
    | (with_reducible apply keeps_ite) | (dsimp -zeta only) | (dsimp -zeta +zetaDelta only))

end Sys2Proof.Machine.Laws
end

