-- ==== Sys2Proof/Laws/KeepsCask.lean ====
section
/-! SUPPORT. Every definition of Sys2Proof/Machine/Cask.lean keeps what `Keeps` names. -/

namespace Sys2Proof.Machine.Laws

variable {s₀ : State}

theorem keeps_abortUnissued (s) (hs : Keeps s₀ s) : Keeps s₀ (abortUnissued s) := by
  unfold abortUnissued
  repeat' (first
    | (with_reducible assumption) | (with_reducible intro _) | (with_reducible apply keeps_State_each)
    | (with_reducible apply keeps_finish) | (with_reducible apply keeps_State_setCore)
    | (with_reducible apply keeps_completeNear) | (with_reducible apply keeps_State_setStream)
    | (with_reducible apply keeps_foldl) | (with_reducible apply keeps_id) | (extract_lets) | (split)
    | (with_reducible apply keeps_ite) | (dsimp -zeta only) | (dsimp -zeta +zetaDelta only))

theorem keeps_restoreBytes (p l s) (hs : Keeps s₀ s) : Keeps s₀ (restoreBytes p l s) := by
  unfold restoreBytes
  repeat' (first
    | (with_reducible assumption) | (with_reducible intro _) | (with_reducible apply keeps_State_each)
    | (with_reducible apply keeps_State_setByte) | (with_reducible apply keeps_foldl) | (with_reducible apply keeps_id)
    | (extract_lets) | (split) | (with_reducible apply keeps_ite) | (dsimp -zeta only) | (dsimp -zeta +zetaDelta only)
    | (with_reducible apply keeps_upd) | (exact Nat.le_refl _) | rfl | (exact Nat.le_add_right _ _)
    | (exact SMap.wf_filter _ (by with_reducible assumption) _))

theorem keeps_restoreRegs (i s) (hs : Keeps s₀ s) : Keeps s₀ (restoreRegs i s) := by
  unfold restoreRegs
  repeat' (first
    | (with_reducible assumption) | (with_reducible intro _) | (with_reducible apply keeps_State_each)
    | (with_reducible apply keeps_State_setReg) | (with_reducible apply keeps_foldl) | (with_reducible apply keeps_id)
    | (extract_lets) | (split) | (with_reducible apply keeps_ite) | (dsimp -zeta only) | (dsimp -zeta +zetaDelta only))

theorem keeps_restoreCores (i s) (hs : Keeps s₀ s) : Keeps s₀ (restoreCores i s) := by
  unfold restoreCores
  repeat' (first
    | (with_reducible assumption) | (with_reducible intro _) | (with_reducible apply keeps_State_each)
    | (with_reducible apply keeps_State_setUnit) | (with_reducible apply keeps_restoreBytes)
    | (with_reducible apply keeps_foldl) | (with_reducible apply keeps_id) | (extract_lets) | (split)
    | (with_reducible apply keeps_ite) | (dsimp -zeta only) | (dsimp -zeta +zetaDelta only)
    | (with_reducible apply keeps_with_cores) | (with_reducible apply keeps_with_units)
    | (with_reducible apply keeps_with_net) | (with_reducible apply keeps_upd) | (exact Nat.le_refl _) | rfl
    | (exact Nat.le_add_right _ _) | (exact SMap.wf_filter _ (by with_reducible assumption) _))

theorem keeps_restoreStreams (i s) (hs : Keeps s₀ s) : Keeps s₀ (restoreStreams i s) := by
  unfold restoreStreams
  repeat' (first
    | (with_reducible assumption) | (with_reducible intro _) | (with_reducible apply keeps_State_setRegN)
    | (with_reducible apply keeps_foldl) | (with_reducible apply keeps_id) | (extract_lets) | (split)
    | (with_reducible apply keeps_ite) | (dsimp -zeta only) | (dsimp -zeta +zetaDelta only)
    | (with_reducible apply keeps_with_streams) | (with_reducible apply keeps_upd) | (exact Nat.le_refl _) | rfl
    | (exact Nat.le_add_right _ _) | (exact SMap.wf_filter _ (by with_reducible assumption) _))

theorem keeps_restoreAt (t x tier pl off s) (hs : Keeps s₀ s) : Keeps s₀ (restoreAt t x tier pl off s) := by
  unfold restoreAt
  repeat' (first
    | (with_reducible assumption) | (with_reducible intro _) | (with_reducible apply keeps_addUse)
    | (with_reducible apply keeps_addExtent) | (with_reducible apply keeps_setTileState)
    | (with_reducible apply keeps_cleanEcc) | (with_reducible apply keeps_State_setBytes)
    | (with_reducible apply keeps_foldl) | (with_reducible apply keeps_id) | (extract_lets) | (split)
    | (with_reducible apply keeps_ite) | (dsimp -zeta only) | (dsimp -zeta +zetaDelta only))

theorem keeps_restoreTiles (l s) {t : State} (hs : Keeps s₀ s) (e : restoreTiles l s = some t) : Keeps s₀ t := by
  induction l generalizing s with
  | nil => injection e with e; subst e; exact hs
  | cons x l ih =>
    simp only [Sys2Proof.Machine.restoreTiles] at e
    split at e
    · exact ih _ hs e
    · split at e
      · cases e
      · exact ih _ (keeps_restoreAt _ _ _ _ _ _ hs) e

theorem keeps_restoreOther (i t s) (hs : Keeps s₀ s) : Keeps s₀ (restoreOther i t s) := by
  unfold restoreOther
  repeat' (first
    | (with_reducible assumption) | (with_reducible intro _) | (with_reducible apply keeps_setTileState)
    | (with_reducible apply keeps_State_scramble) | (with_reducible apply keeps_addUse)
    | (with_reducible apply keeps_addExtent) | (with_reducible apply keeps_foldl) | (with_reducible apply keeps_id)
    | (extract_lets) | (split) | (with_reducible apply keeps_ite) | (dsimp -zeta only) | (dsimp -zeta +zetaDelta only))

theorem keeps_restoreMap (i s) (hs : Keeps s₀ s) : Keeps s₀ (restoreMap i s) := by
  unfold restoreMap
  repeat' (first
    | (with_reducible assumption) | (with_reducible intro _) | (with_reducible apply keeps_State_each)
    | (with_reducible apply keeps_restoreOther) | (with_reducible apply keeps_foldl) | (with_reducible apply keeps_id)
    | (extract_lets) | (split) | (with_reducible apply keeps_ite) | (dsimp -zeta only) | (dsimp -zeta +zetaDelta only)
    | (with_reducible apply keeps_with_tiers) | (with_reducible apply keeps_with_cask) | (with_reducible apply keeps_upd)
    | (exact Nat.le_refl _) | rfl | (exact Nat.le_add_right _ _) | (exact SMap.wf_filter _ (by with_reducible assumption) _))

theorem keeps_applyCask (i s) {t : State} (hs : Keeps s₀ s) (e : applyCask i s = some t) : Keeps s₀ t := by
  simp only [Sys2Proof.Machine.applyCask, Option.map_eq_some_iff] at e
  obtain ⟨u, hu, rfl⟩ := e
  refine keeps_upd (keeps_restoreCores _ _ (keeps_restoreStreams _ _ (keeps_restoreTiles _ _ (keeps_restoreMap _ _ ?_) hu)))
    id (Nat.le_refl _) (Nat.le_refl _) (Nat.le_refl _) rfl rfl rfl
  exact keeps_with_gov (keeps_restoreBytes _ _ _ (keeps_restoreRegs _ _ hs))

theorem keeps_bgApply (pkt s) (hs : Keeps s₀ s) : Keeps s₀ (bgApply pkt s) := by
  unfold bgApply
  repeat' (first
    | (with_reducible assumption) | (with_reducible intro _) | (with_reducible apply keeps_cleanEcc)
    | (with_reducible apply keeps_State_setBytes) | (with_reducible apply keeps_nandWrite)
    | (with_reducible apply keeps_applyQuiet) | (with_reducible apply keeps_foldl) | (with_reducible apply keeps_id)
    | (extract_lets) | (split) | (with_reducible apply keeps_ite) | (dsimp -zeta only) | (dsimp -zeta +zetaDelta only))

theorem keeps_applyHeld (pkt s) (hs : Keeps s₀ s) : Keeps s₀ (applyHeld pkt s) := by
  unfold applyHeld
  repeat' (first
    | (with_reducible assumption) | (with_reducible intro _) | (with_reducible apply keeps_State_when)
    | (with_reducible apply keeps_copyFirst) | (with_reducible apply keeps_countWakeTo)
    | (with_reducible apply keeps_applyQuiet) | (with_reducible apply keeps_bgApply) | (with_reducible apply keeps_noteReady)
    | (with_reducible apply keeps_accumQuiet) | (with_reducible apply keeps_applyToken)
    | (with_reducible apply keeps_applyCredit) | (with_reducible apply keeps_foldl) | (with_reducible apply keeps_id)
    | (extract_lets) | (split) | (with_reducible apply keeps_ite) | (dsimp -zeta only) | (dsimp -zeta +zetaDelta only))

theorem keeps_wakeHeld (pkt s) (hs : Keeps s₀ s) : Keeps s₀ (wakeHeld pkt s) := by
  unfold wakeHeld
  repeat' (first
    | (with_reducible assumption) | (with_reducible intro _) | (with_reducible apply keeps_State_when)
    | (with_reducible apply keeps_startWake) | (with_reducible apply keeps_foldl) | (with_reducible apply keeps_id)
    | (extract_lets) | (split) | (with_reducible apply keeps_ite) | (dsimp -zeta only) | (dsimp -zeta +zetaDelta only))

theorem keeps_applyPackets_snd (l s) (hs : Keeps s₀ s) : Keeps s₀ (applyPackets l s).2 := by
  induction l generalizing s with
  | nil => exact hs
  | cons x l ih =>
    simp only [Sys2Proof.Machine.applyPackets]
    split
    · exact keeps_wakeHeld _ _ hs
    · exact ih _ (keeps_applyHeld _ _ hs)

theorem keeps_armStop (t s) (hs : Keeps s₀ s) : Keeps s₀ (armStop t s) := by
  unfold armStop
  repeat' (first
    | (with_reducible assumption) | (with_reducible intro _) | (with_reducible apply keeps_State_setFlag)
    | (with_reducible apply keeps_foldl) | (with_reducible apply keeps_id) | (extract_lets) | (split)
    | (with_reducible apply keeps_ite) | (dsimp -zeta only) | (dsimp -zeta +zetaDelta only)
    | (with_reducible apply keeps_with_cask) | (with_reducible apply keeps_upd) | (exact Nat.le_refl _) | rfl
    | (exact Nat.le_add_right _ _) | (exact SMap.wf_filter _ (by with_reducible assumption) _))

theorem keeps_pendCask (s) (hs : Keeps s₀ s) : Keeps s₀ (pendCask s) := by
  unfold pendCask
  repeat' (first
    | (with_reducible assumption) | (with_reducible intro _) | (with_reducible apply keeps_State_when)
    | (with_reducible apply keeps_setCsk) | (with_reducible apply keeps_foldl) | (with_reducible apply keeps_id)
    | (extract_lets) | (split) | (with_reducible apply keeps_ite) | (dsimp -zeta only) | (dsimp -zeta +zetaDelta only)
    | (with_reducible apply keeps_with_cask) | (with_reducible apply keeps_upd) | (exact Nat.le_refl _) | rfl
    | (exact Nat.le_add_right _ _) | (exact SMap.wf_filter _ (by with_reducible assumption) _))

theorem keeps_sendStop (dest sub data s) (hs : Keeps s₀ s) : Keeps s₀ (sendStop dest sub data s) := by
  unfold sendStop
  repeat' (first
    | (with_reducible assumption) | (with_reducible intro _) | (with_reducible apply keeps_sendPacket)
    | (with_reducible apply keeps_foldl) | (with_reducible apply keeps_id) | (extract_lets) | (split)
    | (with_reducible apply keeps_ite) | (dsimp -zeta only) | (dsimp -zeta +zetaDelta only))

theorem keeps_sendStopAll (sub data s) (hs : Keeps s₀ s) : Keeps s₀ (sendStopAll sub data s) := by
  unfold sendStopAll
  repeat' (first
    | (with_reducible assumption) | (with_reducible intro _) | (with_reducible apply keeps_State_each)
    | (with_reducible apply keeps_sendStop) | (with_reducible apply keeps_foldl) | (with_reducible apply keeps_id)
    | (extract_lets) | (split) | (with_reducible apply keeps_ite) | (dsimp -zeta only) | (dsimp -zeta +zetaDelta only))

theorem keeps_askCask (s) (hs : Keeps s₀ s) : Keeps s₀ (askCask s) := by
  unfold askCask
  repeat' (first
    | (with_reducible assumption) | (with_reducible intro _) | (with_reducible apply keeps_pendCask)
    | (with_reducible apply keeps_sendStopAll) | (with_reducible apply keeps_foldl) | (with_reducible apply keeps_id)
    | (extract_lets) | (split) | (with_reducible apply keeps_ite) | (dsimp -zeta only) | (dsimp -zeta +zetaDelta only)
    | (with_reducible apply keeps_with_cask) | (with_reducible apply keeps_upd) | (exact Nat.le_refl _) | rfl
    | (exact Nat.le_add_right _ _) | (exact SMap.wf_filter _ (by with_reducible assumption) _))

theorem keeps_askCopy (got s) (hs : Keeps s₀ s) : Keeps s₀ (askCopy got s) := by
  unfold askCopy
  repeat' (first
    | (with_reducible assumption) | (with_reducible intro _) | (with_reducible apply keeps_sendTracked)
    | (with_reducible apply keeps_foldl) | (with_reducible apply keeps_id) | (extract_lets) | (split)
    | (with_reducible apply keeps_ite) | (dsimp -zeta only) | (dsimp -zeta +zetaDelta only))

theorem keeps_failRestore (status place s) (hs : Keeps s₀ s) : Keeps s₀ (failRestore status place s) := by
  unfold failRestore
  repeat' (first
    | (with_reducible assumption) | (with_reducible intro _) | (with_reducible apply keeps_raiseEv)
    | (with_reducible apply keeps_caskResult) | (with_reducible apply keeps_foldl) | (with_reducible apply keeps_id)
    | (extract_lets) | (split) | (with_reducible apply keeps_ite) | (dsimp -zeta only) | (dsimp -zeta +zetaDelta only))

theorem keeps_restoreEnds (s) (hs : Keeps s₀ s) : Keeps s₀ (restoreEnds s) := by
  unfold restoreEnds
  repeat' (first
    | (with_reducible assumption) | (with_reducible intro _) | (with_reducible apply keeps_setCsk)
    | (with_reducible apply keeps_idleCsk) | (with_reducible apply keeps_foldl) | (with_reducible apply keeps_id)
    | (extract_lets) | (split) | (with_reducible apply keeps_ite) | (dsimp -zeta only) | (dsimp -zeta +zetaDelta only))

theorem keeps_beginRestore (i k perCtl s) (hs : Keeps s₀ s) : Keeps s₀ (beginRestore i k perCtl s) := by
  unfold beginRestore
  repeat' (first
    | (with_reducible assumption) | (with_reducible intro _) | (with_reducible apply keeps_failRestore)
    | (with_reducible apply keeps_restoreEnds) | (with_reducible apply keeps_setCsk) | (with_reducible apply keeps_foldl)
    | (with_reducible apply keeps_id) | (extract_lets) | (split) | (with_reducible apply keeps_ite) | (dsimp -zeta only)
    | (dsimp -zeta +zetaDelta only) | (with_reducible apply keeps_with_cask) | (with_reducible apply keeps_upd)
    | (exact Nat.le_refl _) | rfl | (exact Nat.le_add_right _ _) | (exact SMap.wf_filter _ (by with_reducible assumption) _))

theorem keeps_lentBad (g w s) (hs : Keeps s₀ s) : Keeps s₀ (lentBad g w s) := by
  unfold lentBad
  repeat' (first
    | (with_reducible assumption) | (with_reducible intro _) | (with_reducible apply keeps_raiseEv)
    | (with_reducible apply keeps_recordEcc) | (with_reducible apply keeps_countEcc) | (with_reducible apply keeps_foldl)
    | (with_reducible apply keeps_id) | (extract_lets) | (split) | (with_reducible apply keeps_ite) | (dsimp -zeta only)
    | (dsimp -zeta +zetaDelta only))

theorem keeps_lentCorrect (g o n s) (hs : Keeps s₀ s) : Keeps s₀ (lentCorrect g o n s) := by
  unfold lentCorrect
  repeat' (first
    | (with_reducible assumption) | (with_reducible intro _) | (with_reducible apply keeps_countEcc)
    | (with_reducible apply keeps_State_setEcc) | (with_reducible apply keeps_foldl) | (with_reducible apply keeps_id)
    | (extract_lets) | (split) | (with_reducible apply keeps_ite) | (dsimp -zeta only) | (dsimp -zeta +zetaDelta only))

theorem keeps_lentRead (p pkt g s) (hs : Keeps s₀ s) : Keeps s₀ (lentRead p pkt g s) := by
  unfold lentRead
  repeat' (first
    | (with_reducible assumption) | (with_reducible intro _) | (with_reducible apply keeps_refusePkt)
    | (with_reducible apply keeps_lentBad) | (with_reducible apply keeps_deliver) | (with_reducible apply keeps_sendPacket)
    | (with_reducible apply keeps_lentCorrect) | (with_reducible apply keeps_foldl) | (with_reducible apply keeps_id)
    | (extract_lets) | (split) | (with_reducible apply keeps_ite) | (dsimp -zeta only) | (dsimp -zeta +zetaDelta only))

theorem keeps_copyRead (p pkt s) (hs : Keeps s₀ s) : Keeps s₀ (copyRead p pkt s) := by
  unfold copyRead
  repeat' (first
    | (with_reducible assumption) | (with_reducible intro _) | (with_reducible apply keeps_refusePkt)
    | (with_reducible apply keeps_deliver) | (with_reducible apply keeps_sendPacket) | (with_reducible apply keeps_foldl)
    | (with_reducible apply keeps_id) | (extract_lets) | (split) | (with_reducible apply keeps_ite) | (dsimp -zeta only)
    | (dsimp -zeta +zetaDelta only))

theorem keeps_bgReadMine (p pkt s) (hs : Keeps s₀ s) : Keeps s₀ (bgReadMine p pkt s) := by
  unfold bgReadMine
  repeat' (first
    | (with_reducible assumption) | (with_reducible intro _) | (with_reducible apply keeps_lentRead)
    | (with_reducible apply keeps_refusePkt) | (with_reducible apply keeps_copyRead) | (with_reducible apply keeps_readMine)
    | (with_reducible apply keeps_foldl) | (with_reducible apply keeps_id) | (extract_lets) | (split)
    | (with_reducible apply keeps_ite) | (dsimp -zeta only) | (dsimp -zeta +zetaDelta only))

theorem keeps_bgReadReqRx (p pkt s) (hs : Keeps s₀ s) : Keeps s₀ (bgReadReqRx p pkt s) := by
  unfold bgReadReqRx
  repeat' (first
    | (with_reducible assumption) | (with_reducible intro _) | (with_reducible apply keeps_receive)
    | (with_reducible apply keeps_bgReadMine) | (with_reducible apply keeps_foldl) | (with_reducible apply keeps_id)
    | (extract_lets) | (split) | (with_reducible apply keeps_ite) | (dsimp -zeta only) | (dsimp -zeta +zetaDelta only))

theorem keeps_bgWriteMine (p pkt s) (hs : Keeps s₀ s) : Keeps s₀ (bgWriteMine p pkt s) := by
  unfold bgWriteMine
  repeat' (first
    | (with_reducible assumption) | (with_reducible intro _) | (with_reducible apply keeps_deliverOrStop)
    | (with_reducible apply keeps_sendPacket) | (with_reducible apply keeps_bgApply) | (with_reducible apply keeps_refusePkt)
    | (with_reducible apply keeps_writeMine) | (with_reducible apply keeps_foldl) | (with_reducible apply keeps_id)
    | (extract_lets) | (split) | (with_reducible apply keeps_ite) | (dsimp -zeta only) | (dsimp -zeta +zetaDelta only))

theorem keeps_bgWriteRx (p pkt s) (hs : Keeps s₀ s) : Keeps s₀ (bgWriteRx p pkt s) := by
  unfold bgWriteRx
  repeat' (first
    | (with_reducible assumption) | (with_reducible intro _) | (with_reducible apply keeps_receive)
    | (with_reducible apply keeps_bgWriteMine) | (with_reducible apply keeps_foldl) | (with_reducible apply keeps_id)
    | (extract_lets) | (split) | (with_reducible apply keeps_ite) | (dsimp -zeta only) | (dsimp -zeta +zetaDelta only))

theorem keeps_setSlot (k i s) (hs : Keeps s₀ s) : Keeps s₀ (setSlot k i s) := by
  unfold setSlot
  repeat' (first
    | (with_reducible assumption) | (with_reducible intro _) | (with_reducible apply keeps_State_setFld)
    | (with_reducible apply keeps_foldl) | (with_reducible apply keeps_id) | (extract_lets) | (split)
    | (with_reducible apply keeps_ite) | (dsimp -zeta only) | (dsimp -zeta +zetaDelta only)
    | (with_reducible apply keeps_with_cask) | (with_reducible apply keeps_upd) | (exact Nat.le_refl _) | rfl
    | (exact Nat.le_add_right _ _) | (exact SMap.wf_filter _ (by with_reducible assumption) _))

theorem keeps_pauseAll (s) (hs : Keeps s₀ s) : Keeps s₀ (pauseAll s) := by
  unfold pauseAll
  repeat' (first
    | (with_reducible assumption) | (with_reducible intro _) | (with_reducible apply keeps_State_each)
    | (with_reducible apply keeps_State_when) | (with_reducible apply keeps_pauseStream) | (with_reducible apply keeps_foldl)
    | (with_reducible apply keeps_id) | (extract_lets) | (split) | (with_reducible apply keeps_ite) | (dsimp -zeta only)
    | (dsimp -zeta +zetaDelta only))

theorem keeps_capture (kind s) (hs : Keeps s₀ s) : Keeps s₀ (capture kind s) := by
  unfold capture
  repeat' (first
    | (with_reducible assumption) | (with_reducible intro _) | (with_reducible apply keeps_failCask)
    | (with_reducible apply keeps_nandWrite) | (with_reducible apply keeps_setSlot)
    | (with_reducible apply keeps_State_setBytes) | (with_reducible apply keeps_setCsk)
    | (with_reducible apply keeps_State_when) | (with_reducible apply keeps_pauseAll) | (with_reducible apply keeps_foldl)
    | (with_reducible apply keeps_id) | (extract_lets) | (split) | (with_reducible apply keeps_ite) | (dsimp -zeta only)
    | (dsimp -zeta +zetaDelta only) | (with_reducible apply keeps_with_cask) | (with_reducible apply keeps_upd)
    | (exact Nat.le_refl _) | rfl | (exact Nat.le_add_right _ _) | (exact SMap.wf_filter _ (by with_reducible assumption) _))

theorem keeps_settleAll (s) (hs : Keeps s₀ s) : Keeps s₀ (settleAll s) := by
  unfold settleAll
  repeat' (first
    | (with_reducible assumption) | (with_reducible intro _) | (with_reducible apply keeps_State_each)
    | (with_reducible apply keeps_tryArrays) | (with_reducible apply keeps_foldl) | (with_reducible apply keeps_id)
    | (extract_lets) | (split) | (with_reducible apply keeps_ite) | (dsimp -zeta only) | (dsimp -zeta +zetaDelta only))

theorem keeps_wakeAll (source s) (hs : Keeps s₀ s) : Keeps s₀ (wakeAll source s) := by
  unfold wakeAll
  repeat' (first
    | (with_reducible assumption) | (with_reducible intro _) | (with_reducible apply keeps_State_each)
    | (with_reducible apply keeps_startWake) | (with_reducible apply keeps_foldl) | (with_reducible apply keeps_id)
    | (extract_lets) | (split) | (with_reducible apply keeps_ite) | (dsimp -zeta only) | (dsimp -zeta +zetaDelta only))

theorem keeps_cutOwed (s) (hs : Keeps s₀ s) : Keeps s₀ (cutOwed s) := by
  unfold cutOwed
  repeat' (first
    | (with_reducible assumption) | (with_reducible intro _) | (with_reducible apply keeps_wakeAll)
    | (with_reducible apply keeps_capture) | (with_reducible apply keeps_foldl) | (with_reducible apply keeps_id)
    | (extract_lets) | (split) | (with_reducible apply keeps_ite) | (dsimp -zeta only) | (dsimp -zeta +zetaDelta only)
    | (with_reducible apply keeps_with_cask) | (with_reducible apply keeps_upd) | (exact Nat.le_refl _) | rfl
    | (exact Nat.le_add_right _ _) | (exact SMap.wf_filter _ (by with_reducible assumption) _))

theorem keeps_writerFails (status s) (hs : Keeps s₀ s) : Keeps s₀ (writerFails status s) := by
  unfold writerFails
  repeat' (first
    | (with_reducible assumption) | (with_reducible intro _) | (with_reducible apply keeps_settleAll)
    | (with_reducible apply keeps_wakeReqs) | (with_reducible apply keeps_cutOwed) | (with_reducible apply keeps_failCask)
    | (with_reducible apply keeps_foldl) | (with_reducible apply keeps_id) | (extract_lets) | (split)
    | (with_reducible apply keeps_ite) | (dsimp -zeta only) | (dsimp -zeta +zetaDelta only))

theorem keeps_dropMirror (b s) (hs : Keeps s₀ s) : Keeps s₀ (dropMirror b s) := by
  unfold dropMirror
  repeat' (first
    | (with_reducible assumption) | (with_reducible intro _) | (with_reducible apply keeps_foldl)
    | (with_reducible apply keeps_id) | (extract_lets) | (split) | (with_reducible apply keeps_ite) | (dsimp -zeta only)
    | (dsimp -zeta +zetaDelta only) | (with_reducible apply keeps_with_txq) | (with_reducible apply keeps_with_loop)
    | (with_reducible apply keeps_with_cask) | (with_reducible apply keeps_upd) | (exact Nat.le_refl _) | rfl
    | (exact Nat.le_add_right _ _) | (exact SMap.wf_filter _ (by with_reducible assumption) _))

theorem keeps_startMirror (i s) (hs : Keeps s₀ s) : Keeps s₀ (startMirror i s) := by
  unfold startMirror
  repeat' (first
    | (with_reducible assumption) | (with_reducible intro _) | (with_reducible apply keeps_dropMirror)
    | (with_reducible apply keeps_State_setFlag) | (with_reducible apply keeps_sendStop)
    | (with_reducible apply keeps_sendPacket) | (with_reducible apply keeps_State_each) | (with_reducible apply keeps_foldl)
    | (with_reducible apply keeps_id) | (extract_lets) | (split) | (with_reducible apply keeps_ite) | (dsimp -zeta only)
    | (dsimp -zeta +zetaDelta only) | (with_reducible apply keeps_with_cask) | (with_reducible apply keeps_upd)
    | (exact Nat.le_refl _) | rfl | (exact Nat.le_add_right _ _) | (exact SMap.wf_filter _ (by with_reducible assumption) _))

theorem keeps_caskCommit (s) (hs : Keeps s₀ s) : Keeps s₀ (caskCommit s) := by
  unfold caskCommit
  repeat' (first
    | (with_reducible assumption) | (with_reducible intro _) | (with_reducible apply keeps_cellarTurn)
    | (with_reducible apply keeps_writerFails) | (with_reducible apply keeps_cellarPulse)
    | (with_reducible apply keeps_State_setBytes) | (with_reducible apply keeps_setSlot)
    | (with_reducible apply keeps_State_setFld) | (with_reducible apply keeps_State_setRegN)
    | (with_reducible apply keeps_State_setReg64) | (with_reducible apply keeps_raiseEv)
    | (with_reducible apply keeps_caskResult) | (with_reducible apply keeps_writerEnds)
    | (with_reducible apply keeps_cutOwed) | (with_reducible apply keeps_State_when)
    | (with_reducible apply keeps_startMirror) | (with_reducible apply keeps_foldl) | (with_reducible apply keeps_id)
    | (extract_lets) | (split) | (with_reducible apply keeps_ite) | (dsimp -zeta only) | (dsimp -zeta +zetaDelta only)
    | (with_reducible apply keeps_with_cask) | (with_reducible apply keeps_upd) | (exact Nat.le_refl _) | rfl
    | (exact Nat.le_add_right _ _) | (exact SMap.wf_filter _ (by with_reducible assumption) _))

theorem keeps_caskCut (s) (hs : Keeps s₀ s) : Keeps s₀ (caskCut s) := by
  unfold caskCut
  repeat' (first
    | (with_reducible assumption) | (with_reducible intro _) | (with_reducible apply keeps_wakeAll)
    | (with_reducible apply keeps_capture) | (with_reducible apply keeps_logStatus) | (with_reducible apply keeps_foldl)
    | (with_reducible apply keeps_id) | (extract_lets) | (split) | (with_reducible apply keeps_ite) | (dsimp -zeta only)
    | (dsimp -zeta +zetaDelta only) | (with_reducible apply keeps_with_cask) | (with_reducible apply keeps_upd)
    | (exact Nat.le_refl _) | rfl | (exact Nat.le_add_right _ _) | (exact SMap.wf_filter _ (by with_reducible assumption) _))

theorem keeps_caskFail (status s) (hs : Keeps s₀ s) : Keeps s₀ (caskFail status s) := by
  unfold caskFail
  repeat' (first
    | (with_reducible assumption) | (with_reducible intro _) | (with_reducible apply keeps_colAppend)
    | (with_reducible apply keeps_writerFails) | (with_reducible apply keeps_foldl) | (with_reducible apply keeps_id)
    | (extract_lets) | (split) | (with_reducible apply keeps_ite) | (dsimp -zeta only) | (dsimp -zeta +zetaDelta only)
    | (with_reducible apply keeps_with_cask) | (with_reducible apply keeps_upd) | (exact Nat.le_refl _) | rfl
    | (exact Nat.le_add_right _ _) | (exact SMap.wf_filter _ (by with_reducible assumption) _))

theorem keeps_startStreams (s) (hs : Keeps s₀ s) : Keeps s₀ (startStreams s) := by
  unfold startStreams
  repeat' (first
    | (with_reducible assumption) | (with_reducible intro _) | (with_reducible apply keeps_State_each)
    | (with_reducible apply keeps_State_when) | (with_reducible apply keeps_freshSince)
    | (with_reducible apply keeps_State_setStream) | (with_reducible apply keeps_foldl) | (with_reducible apply keeps_id)
    | (extract_lets) | (split) | (with_reducible apply keeps_ite) | (dsimp -zeta only) | (dsimp -zeta +zetaDelta only))

theorem keeps_resumeEnds (s) (hs : Keeps s₀ s) : Keeps s₀ (resumeEnds s) := by
  unfold resumeEnds
  repeat' (first
    | (with_reducible assumption) | (with_reducible intro _) | (with_reducible apply keeps_setCsk)
    | (with_reducible apply keeps_idleCsk) | (with_reducible apply keeps_startStreams)
    | (with_reducible apply keeps_reenterHeld) | (with_reducible apply keeps_State_each)
    | (with_reducible apply keeps_State_when) | (with_reducible apply keeps_State_setCore)
    | (with_reducible apply keeps_foldl) | (with_reducible apply keeps_id) | (extract_lets) | (split)
    | (with_reducible apply keeps_ite) | (dsimp -zeta only) | (dsimp -zeta +zetaDelta only)
    | (with_reducible apply keeps_with_stopped) | (with_reducible apply keeps_with_cask) | (with_reducible apply keeps_upd)
    | (exact Nat.le_refl _) | rfl | (exact Nat.le_add_right _ _) | (exact SMap.wf_filter _ (by with_reducible assumption) _))

theorem keeps_resumeTurn (s) (hs : Keeps s₀ s) : Keeps s₀ (resumeTurn s) := by
  unfold resumeTurn
  repeat' (first
    | (with_reducible assumption) | (with_reducible intro _)
    | (refine keeps_applyPackets _ _ ?_ (by with_reducible assumption)) | (with_reducible apply keeps_applyPackets_snd)
    | (with_reducible apply keeps_resumeEnds) | (with_reducible apply keeps_foldl) | (with_reducible apply keeps_id)
    | (extract_lets) | (split) | (with_reducible apply keeps_ite) | (dsimp -zeta only) | (dsimp -zeta +zetaDelta only)
    | (with_reducible apply keeps_with_cask) | (with_reducible apply keeps_upd) | (exact Nat.le_refl _) | rfl
    | (exact Nat.le_add_right _ _) | (exact SMap.wf_filter _ (by with_reducible assumption) _))

theorem keeps_caskResume (s) (hs : Keeps s₀ s) : Keeps s₀ (caskResume s) := by
  unfold caskResume
  repeat' (first
    | (with_reducible assumption) | (with_reducible intro _) | (with_reducible apply keeps_resumeTurn)
    | (with_reducible apply keeps_logStatus) | (with_reducible apply keeps_foldl) | (with_reducible apply keeps_id)
    | (extract_lets) | (split) | (with_reducible apply keeps_ite) | (dsimp -zeta only) | (dsimp -zeta +zetaDelta only)
    | (with_reducible apply keeps_with_cask) | (with_reducible apply keeps_upd) | (exact Nat.le_refl _) | rfl
    | (exact Nat.le_add_right _ _) | (exact SMap.wf_filter _ (by with_reducible assumption) _))

theorem keeps_checkCopy (hcrc s) (hs : Keeps s₀ s) : Keeps s₀ (checkCopy hcrc s) := by
  unfold checkCopy
  repeat' (first
    | (with_reducible assumption) | (with_reducible intro _) | (with_reducible apply keeps_sendStop)
    | (with_reducible apply keeps_foldl) | (with_reducible apply keeps_id) | (extract_lets) | (split)
    | (with_reducible apply keeps_ite) | (dsimp -zeta only) | (dsimp -zeta +zetaDelta only)
    | (with_reducible apply keeps_with_cask) | (with_reducible apply keeps_upd) | (exact Nat.le_refl _) | rfl
    | (exact Nat.le_add_right _ _) | (exact SMap.wf_filter _ (by with_reducible assumption) _))

theorem keeps_copyTurn (s) (hs : Keeps s₀ s) : Keeps s₀ (copyTurn s) := by
  unfold copyTurn
  repeat' (first
    | (with_reducible assumption) | (with_reducible intro _) | (with_reducible apply keeps_checkCopy)
    | (with_reducible apply keeps_foldl) | (with_reducible apply keeps_id) | (extract_lets) | (split)
    | (with_reducible apply keeps_ite) | (dsimp -zeta only) | (dsimp -zeta +zetaDelta only))

theorem keeps_critPath (s) (hs : Keeps s₀ s) : Keeps s₀ (critPath s) := by
  unfold critPath
  repeat' (first
    | (with_reducible assumption) | (with_reducible intro _) | (with_reducible apply keeps_askCask)
    | (with_reducible apply keeps_cutOwed) | (with_reducible apply keeps_foldl) | (with_reducible apply keeps_id)
    | (extract_lets) | (split) | (with_reducible apply keeps_ite) | (dsimp -zeta only) | (dsimp -zeta +zetaDelta only)
    | (with_reducible apply keeps_with_cask) | (with_reducible apply keeps_upd) | (exact Nat.le_refl _) | rfl
    | (exact Nat.le_add_right _ _) | (exact SMap.wf_filter _ (by with_reducible assumption) _))

theorem keeps_critWaitExpiry (s) (hs : Keeps s₀ s) : Keeps s₀ (critWaitExpiry s) := by
  unfold critWaitExpiry
  repeat' (first
    | (with_reducible assumption) | (with_reducible intro _) | (with_reducible apply keeps_cutOwed)
    | (with_reducible apply keeps_State_when) | (with_reducible apply keeps_armStop) | (with_reducible apply keeps_foldl)
    | (with_reducible apply keeps_id) | (extract_lets) | (split) | (with_reducible apply keeps_ite) | (dsimp -zeta only)
    | (dsimp -zeta +zetaDelta only) | (with_reducible apply keeps_with_cask) | (with_reducible apply keeps_upd)
    | (exact Nat.le_refl _) | rfl | (exact Nat.le_add_right _ _) | (exact SMap.wf_filter _ (by with_reducible assumption) _))

theorem keeps_execBgReadReqRx (p pkt s) (hs : Keeps s₀ s) {w : State} (eq : execBgReadReqRx p pkt s = .next w) : Keeps s₀ w := by
  unfold execBgReadReqRx at eq
  injection eq with eq
  subst eq
  repeat' (first
    | (with_reducible assumption) | (with_reducible intro _) | (with_reducible apply keeps_bgReadReqRx)
    | (with_reducible apply keeps_foldl) | (with_reducible apply keeps_id) | (extract_lets) | (split)
    | (with_reducible apply keeps_ite) | (dsimp -zeta only) | (dsimp -zeta +zetaDelta only))

theorem keeps_execBgWriteRx (p pkt s) (hs : Keeps s₀ s) {w : State} (eq : execBgWriteRx p pkt s = .next w) : Keeps s₀ w := by
  unfold execBgWriteRx at eq
  injection eq with eq
  subst eq
  repeat' (first
    | (with_reducible assumption) | (with_reducible intro _) | (with_reducible apply keeps_bgWriteRx)
    | (with_reducible apply keeps_foldl) | (with_reducible apply keeps_id) | (extract_lets) | (split)
    | (with_reducible apply keeps_ite) | (dsimp -zeta only) | (dsimp -zeta +zetaDelta only))

theorem keeps_setPairing (v s) (hs : Keeps s₀ s) : Keeps s₀ (setPairing v s) := by
  unfold setPairing
  repeat' (first
    | (with_reducible assumption) | (with_reducible intro _) | (with_reducible apply keeps_State_setFld)
    | (with_reducible apply keeps_foldl) | (with_reducible apply keeps_id) | (extract_lets) | (split)
    | (with_reducible apply keeps_ite) | (dsimp -zeta only) | (dsimp -zeta +zetaDelta only))

theorem keeps_pairAgain (s) (hs : Keeps s₀ s) : Keeps s₀ (pairAgain s) := by
  unfold pairAgain
  repeat' (first
    | (with_reducible assumption) | (with_reducible intro _) | (with_reducible apply keeps_sendStop)
    | (with_reducible apply keeps_setPairing) | (with_reducible apply keeps_foldl) | (with_reducible apply keeps_id)
    | (extract_lets) | (split) | (with_reducible apply keeps_ite) | (dsimp -zeta only) | (dsimp -zeta +zetaDelta only)
    | (with_reducible apply keeps_with_cask) | (with_reducible apply keeps_upd) | (exact Nat.le_refl _) | rfl
    | (exact Nat.le_add_right _ _) | (exact SMap.wf_filter _ (by with_reducible assumption) _))

theorem keeps_writeBuddy (v s) (hs : Keeps s₀ s) : Keeps s₀ (writeBuddy v s) := by
  unfold writeBuddy
  repeat' (first
    | (with_reducible assumption) | (with_reducible intro _) | (with_reducible apply keeps_logStatus)
    | (with_reducible apply keeps_pairAgain) | (with_reducible apply keeps_State_setRegN)
    | (with_reducible apply keeps_foldl) | (with_reducible apply keeps_id) | (extract_lets) | (split)
    | (with_reducible apply keeps_ite) | (dsimp -zeta only) | (dsimp -zeta +zetaDelta only))

theorem keeps_execBuddyPair (fn v s) (hs : Keeps s₀ s) {w : State} (eq : execBuddyPair fn v s = .next w) : Keeps s₀ w := by
  unfold execBuddyPair at eq
  injection eq with eq
  subst eq
  repeat' (first
    | (with_reducible assumption) | (with_reducible intro _) | (with_reducible apply keeps_posted)
    | (with_reducible apply keeps_ownerWrite) | (with_reducible apply keeps_writeBuddy) | (with_reducible apply keeps_foldl)
    | (with_reducible apply keeps_id) | (extract_lets) | (split) | (with_reducible apply keeps_ite) | (dsimp -zeta only)
    | (dsimp -zeta +zetaDelta only))

theorem keeps_execCaskCommit (s) (hs : Keeps s₀ s) {w : State} (eq : execCaskCommit s = .next w) : Keeps s₀ w := by
  unfold execCaskCommit at eq
  injection eq with eq
  subst eq
  repeat' (first
    | (with_reducible assumption) | (with_reducible intro _) | (with_reducible apply keeps_caskCommit)
    | (with_reducible apply keeps_foldl) | (with_reducible apply keeps_id) | (extract_lets) | (split)
    | (with_reducible apply keeps_ite) | (dsimp -zeta only) | (dsimp -zeta +zetaDelta only))

theorem keeps_execCaskCut (fn s) (hs : Keeps s₀ s) {w : State} (eq : execCaskCut fn s = .next w) : Keeps s₀ w := by
  unfold execCaskCut at eq
  injection eq with eq
  subst eq
  repeat' (first
    | (with_reducible assumption) | (with_reducible intro _) | (with_reducible apply keeps_posted)
    | (with_reducible apply keeps_ownerWrite) | (with_reducible apply keeps_caskCut) | (with_reducible apply keeps_foldl)
    | (with_reducible apply keeps_id) | (extract_lets) | (split) | (with_reducible apply keeps_ite) | (dsimp -zeta only)
    | (dsimp -zeta +zetaDelta only))

theorem keeps_execCaskFail (reason s) (hs : Keeps s₀ s) {w : State} (eq : execCaskFail reason s = .next w) : Keeps s₀ w := by
  unfold execCaskFail at eq
  injection eq with eq
  subst eq
  repeat' (first
    | (with_reducible assumption) | (with_reducible intro _) | (with_reducible apply keeps_caskFail)
    | (with_reducible apply keeps_foldl) | (with_reducible apply keeps_id) | (extract_lets) | (split)
    | (with_reducible apply keeps_ite) | (dsimp -zeta only) | (dsimp -zeta +zetaDelta only))

theorem keeps_execCaskRequest (fn s) (hs : Keeps s₀ s) {w : State} (eq : execCaskRequest fn s = .next w) : Keeps s₀ w := by
  unfold execCaskRequest at eq
  injection eq with eq
  subst eq
  repeat' (first
    | (with_reducible assumption) | (with_reducible intro _) | (with_reducible apply keeps_posted)
    | (with_reducible apply keeps_ownerWrite) | (with_reducible apply keeps_askCask) | (with_reducible apply keeps_foldl)
    | (with_reducible apply keeps_id) | (extract_lets) | (split) | (with_reducible apply keeps_ite) | (dsimp -zeta only)
    | (dsimp -zeta +zetaDelta only))

theorem keeps_startRestore (s) (hs : Keeps s₀ s) : Keeps s₀ (startRestore s) := by
  unfold startRestore
  repeat' (first
    | (with_reducible assumption) | (with_reducible intro _) | (with_reducible apply keeps_logStatus)
    | (with_reducible apply keeps_askCopy) | (with_reducible apply keeps_setCsk) | (with_reducible apply keeps_failRestore)
    | (with_reducible apply keeps_beginRestore) | (with_reducible apply keeps_foldl) | (with_reducible apply keeps_id)
    | (extract_lets) | (split) | (with_reducible apply keeps_ite) | (dsimp -zeta only) | (dsimp -zeta +zetaDelta only)
    | (with_reducible apply keeps_with_outst) | (with_reducible apply keeps_with_cask) | (with_reducible apply keeps_upd)
    | (exact Nat.le_refl _) | rfl | (exact Nat.le_add_right _ _) | (exact SMap.wf_filter _ (by with_reducible assumption) _))

theorem keeps_writeRestore (v s) (hs : Keeps s₀ s) : Keeps s₀ (writeRestore v s) := by
  unfold writeRestore
  repeat' (first
    | (with_reducible assumption) | (with_reducible intro _) | (with_reducible apply keeps_State_setRegN)
    | (with_reducible apply keeps_State_when) | (with_reducible apply keeps_startRestore)
    | (with_reducible apply keeps_foldl) | (with_reducible apply keeps_id) | (extract_lets) | (split)
    | (with_reducible apply keeps_ite) | (dsimp -zeta only) | (dsimp -zeta +zetaDelta only))

theorem keeps_execCaskRestore (fn v s) (hs : Keeps s₀ s) {w : State} (eq : execCaskRestore fn v s = .next w) : Keeps s₀ w := by
  unfold execCaskRestore at eq
  injection eq with eq
  subst eq
  repeat' (first
    | (with_reducible assumption) | (with_reducible intro _) | (with_reducible apply keeps_posted)
    | (with_reducible apply keeps_ownerWrite) | (with_reducible apply keeps_writeRestore)
    | (with_reducible apply keeps_foldl) | (with_reducible apply keeps_id) | (extract_lets) | (split)
    | (with_reducible apply keeps_ite) | (dsimp -zeta only) | (dsimp -zeta +zetaDelta only))

theorem keeps_execCaskResume (fn s) (hs : Keeps s₀ s) {w : State} (eq : execCaskResume fn s = .next w) : Keeps s₀ w := by
  unfold execCaskResume at eq
  injection eq with eq
  subst eq
  repeat' (first
    | (with_reducible assumption) | (with_reducible intro _) | (with_reducible apply keeps_posted)
    | (with_reducible apply keeps_ownerWrite) | (with_reducible apply keeps_caskResume) | (with_reducible apply keeps_foldl)
    | (with_reducible apply keeps_id) | (extract_lets) | (split) | (with_reducible apply keeps_ite) | (dsimp -zeta only)
    | (dsimp -zeta +zetaDelta only))

theorem keeps_execCritWaitExpiry (s) (hs : Keeps s₀ s) {w : State} (eq : execCritWaitExpiry s = .next w) : Keeps s₀ w := by
  unfold execCritWaitExpiry at eq
  injection eq with eq
  subst eq
  repeat' (first
    | (with_reducible assumption) | (with_reducible intro _) | (with_reducible apply keeps_critWaitExpiry)
    | (with_reducible apply keeps_foldl) | (with_reducible apply keeps_id) | (extract_lets) | (split)
    | (with_reducible apply keeps_ite) | (dsimp -zeta only) | (dsimp -zeta +zetaDelta only))

theorem keeps_writeFeed (fn v s) (hs : Keeps s₀ s) : Keeps s₀ (writeFeed fn v s) := by
  unfold writeFeed
  repeat' (first
    | (with_reducible assumption) | (with_reducible intro _) | (with_reducible apply keeps_guarded)
    | (with_reducible apply keeps_pairAgain) | (with_reducible apply keeps_State_setRegN)
    | (with_reducible apply keeps_foldl) | (with_reducible apply keeps_id) | (extract_lets) | (split)
    | (with_reducible apply keeps_ite) | (dsimp -zeta only) | (dsimp -zeta +zetaDelta only))

theorem keeps_execFeedWrite (fn v s) (hs : Keeps s₀ s) {w : State} (eq : execFeedWrite fn v s = .next w) : Keeps s₀ w := by
  unfold execFeedWrite at eq
  injection eq with eq
  subst eq
  repeat' (first
    | (with_reducible assumption) | (with_reducible intro _) | (with_reducible apply keeps_posted)
    | (with_reducible apply keeps_writeFeed) | (with_reducible apply keeps_foldl) | (with_reducible apply keeps_id)
    | (extract_lets) | (split) | (with_reducible apply keeps_ite) | (dsimp -zeta only) | (dsimp -zeta +zetaDelta only))

theorem keeps_floorExpiry (s) (hs : Keeps s₀ s) : Keeps s₀ (floorExpiry s) := by
  unfold floorExpiry
  repeat' (first
    | (with_reducible assumption) | (with_reducible intro _) | (with_reducible apply keeps_askCask)
    | (with_reducible apply keeps_foldl) | (with_reducible apply keeps_id) | (extract_lets) | (split)
    | (with_reducible apply keeps_ite) | (dsimp -zeta only) | (dsimp -zeta +zetaDelta only))

theorem keeps_execFloorExpiry (s) (hs : Keeps s₀ s) {w : State} (eq : execFloorExpiry s = .next w) : Keeps s₀ w := by
  unfold execFloorExpiry at eq
  injection eq with eq
  subst eq
  repeat' (first
    | (with_reducible assumption) | (with_reducible intro _) | (with_reducible apply keeps_floorExpiry)
    | (with_reducible apply keeps_foldl) | (with_reducible apply keeps_id) | (extract_lets) | (split)
    | (with_reducible apply keeps_ite) | (dsimp -zeta only) | (dsimp -zeta +zetaDelta only))

theorem keeps_stopRx (sub p pkt act s) (hact : ∀ s, Keeps s₀ s → Keeps s₀ (act s)) (hs : Keeps s₀ s) : Keeps s₀ (stopRx sub p pkt act s) := by
  unfold stopRx
  repeat' (first
    | (with_reducible assumption) | (with_reducible intro _) | (with_reducible apply keeps_receive)
    | (with_reducible apply keeps_deliver) | (with_reducible apply keeps_foldl) | (with_reducible apply keeps_id)
    | (apply hact) | (extract_lets) | (split) | (with_reducible apply keeps_ite) | (dsimp -zeta only)
    | (dsimp -zeta +zetaDelta only))

theorem keeps_gangNotice (pkt s) (hs : Keeps s₀ s) : Keeps s₀ (gangNotice pkt s) := by
  unfold gangNotice
  repeat' (first
    | (with_reducible assumption) | (with_reducible intro _) | (with_reducible apply keeps_State_when)
    | (with_reducible apply keeps_pendCask) | (with_reducible apply keeps_State_setFlag) | (with_reducible apply keeps_foldl)
    | (with_reducible apply keeps_id) | (extract_lets) | (split) | (with_reducible apply keeps_ite) | (dsimp -zeta only)
    | (dsimp -zeta +zetaDelta only) | (with_reducible apply keeps_with_cask) | (with_reducible apply keeps_upd)
    | (exact Nat.le_refl _) | rfl | (exact Nat.le_add_right _ _) | (exact SMap.wf_filter _ (by with_reducible assumption) _))

theorem keeps_execGangCaskRx (p pkt s) (hs : Keeps s₀ s) {w : State} (eq : execGangCaskRx p pkt s = .next w) : Keeps s₀ w := by
  unfold execGangCaskRx at eq
  injection eq with eq
  subst eq
  repeat' (first
    | (with_reducible assumption) | (with_reducible intro _) | (with_reducible apply keeps_stopRx)
    | (with_reducible apply keeps_gangNotice) | (with_reducible apply keeps_foldl) | (with_reducible apply keeps_id)
    | (extract_lets) | (split) | (with_reducible apply keeps_ite) | (dsimp -zeta only) | (dsimp -zeta +zetaDelta only))

theorem keeps_mirrorBegin (pkt s) (hs : Keeps s₀ s) : Keeps s₀ (mirrorBegin pkt s) := by
  unfold mirrorBegin
  split
  · exact hs
  · extract_lets s1 k
    have h1 : Keeps s₀ s1 := by
      dsimp only [s1]
      split
      · exact keeps_checkCopy _ _ hs
      · exact hs
    exact keeps_nandWrite _ _ _ _ (keeps_with_cask h1)

theorem keeps_execMirrorBeginRx (p pkt s) (hs : Keeps s₀ s) {w : State} (eq : execMirrorBeginRx p pkt s = .next w) : Keeps s₀ w := by
  unfold execMirrorBeginRx at eq
  injection eq with eq
  subst eq
  repeat' (first
    | (with_reducible assumption) | (with_reducible intro _) | (with_reducible apply keeps_stopRx)
    | (with_reducible apply keeps_mirrorBegin) | (with_reducible apply keeps_foldl) | (with_reducible apply keeps_id)
    | (extract_lets) | (split) | (with_reducible apply keeps_ite) | (dsimp -zeta only) | (dsimp -zeta +zetaDelta only))

theorem keeps_mirrorEnd (pkt s) (hs : Keeps s₀ s) : Keeps s₀ (mirrorEnd pkt s) := by
  unfold mirrorEnd
  repeat' (first
    | (with_reducible assumption) | (with_reducible intro _) | (with_reducible apply keeps_copyTurn)
    | (with_reducible apply keeps_foldl) | (with_reducible apply keeps_id) | (extract_lets) | (split)
    | (with_reducible apply keeps_ite) | (dsimp -zeta only) | (dsimp -zeta +zetaDelta only)
    | (with_reducible apply keeps_with_cask) | (with_reducible apply keeps_upd) | (exact Nat.le_refl _) | rfl
    | (exact Nat.le_add_right _ _) | (exact SMap.wf_filter _ (by with_reducible assumption) _))

theorem keeps_execMirrorEndRx (p pkt s) (hs : Keeps s₀ s) {w : State} (eq : execMirrorEndRx p pkt s = .next w) : Keeps s₀ w := by
  unfold execMirrorEndRx at eq
  injection eq with eq
  subst eq
  repeat' (first
    | (with_reducible assumption) | (with_reducible intro _) | (with_reducible apply keeps_stopRx)
    | (with_reducible apply keeps_mirrorEnd) | (with_reducible apply keeps_foldl) | (with_reducible apply keeps_id)
    | (extract_lets) | (split) | (with_reducible apply keeps_ite) | (dsimp -zeta only) | (dsimp -zeta +zetaDelta only))

theorem keeps_mirrorStatus (pkt s) (hs : Keeps s₀ s) : Keeps s₀ (mirrorStatus pkt s) := by
  unfold mirrorStatus
  repeat' (first
    | (with_reducible assumption) | (with_reducible intro _) | (with_reducible apply keeps_raiseEv)
    | (with_reducible apply keeps_State_setFlag) | (with_reducible apply keeps_foldl) | (with_reducible apply keeps_id)
    | (extract_lets) | (split) | (with_reducible apply keeps_ite) | (dsimp -zeta only) | (dsimp -zeta +zetaDelta only)
    | (with_reducible apply keeps_with_cask) | (with_reducible apply keeps_upd) | (exact Nat.le_refl _) | rfl
    | (exact Nat.le_add_right _ _) | (exact SMap.wf_filter _ (by with_reducible assumption) _))

theorem keeps_execMirrorStatusRx (p pkt s) (hs : Keeps s₀ s) {w : State} (eq : execMirrorStatusRx p pkt s = .next w) : Keeps s₀ w := by
  unfold execMirrorStatusRx at eq
  injection eq with eq
  subst eq
  repeat' (first
    | (with_reducible assumption) | (with_reducible intro _) | (with_reducible apply keeps_stopRx)
    | (with_reducible apply keeps_mirrorStatus) | (with_reducible apply keeps_foldl) | (with_reducible apply keeps_id)
    | (extract_lets) | (split) | (with_reducible apply keeps_ite) | (dsimp -zeta only) | (dsimp -zeta +zetaDelta only))

theorem keeps_moduleStopped (s) (hs : Keeps s₀ s) : Keeps s₀ (moduleStopped s) := by
  unfold moduleStopped
  repeat' (first
    | (with_reducible assumption) | (with_reducible intro _) | (with_reducible apply keeps_setCsk)
    | (with_reducible apply keeps_raiseEv) | (with_reducible apply keeps_colBoth) | (with_reducible apply keeps_cutOwed)
    | (with_reducible apply keeps_foldl) | (with_reducible apply keeps_id) | (extract_lets) | (split)
    | (with_reducible apply keeps_ite) | (dsimp -zeta only) | (dsimp -zeta +zetaDelta only)
    | (with_reducible apply keeps_with_cask) | (with_reducible apply keeps_upd) | (exact Nat.le_refl _) | rfl
    | (exact Nat.le_add_right _ _) | (exact SMap.wf_filter _ (by with_reducible assumption) _))

theorem keeps_execModuleStopped (s) (hs : Keeps s₀ s) {w : State} (eq : execModuleStopped s = .next w) : Keeps s₀ w := by
  unfold execModuleStopped at eq
  injection eq with eq
  subst eq
  repeat' (first
    | (with_reducible assumption) | (with_reducible intro _) | (with_reducible apply keeps_moduleStopped)
    | (with_reducible apply keeps_foldl) | (with_reducible apply keeps_id) | (extract_lets) | (split)
    | (with_reducible apply keeps_ite) | (dsimp -zeta only) | (dsimp -zeta +zetaDelta only))

theorem keeps_pairAnswered (pkt s) (hs : Keeps s₀ s) : Keeps s₀ (pairAnswered pkt s) := by
  unfold pairAnswered
  repeat' (first
    | (with_reducible assumption) | (with_reducible intro _) | (with_reducible apply keeps_State_setRegN)
    | (with_reducible apply keeps_setPairing) | (with_reducible apply keeps_State_when)
    | (with_reducible apply keeps_colBoth) | (with_reducible apply keeps_foldl) | (with_reducible apply keeps_id)
    | (extract_lets) | (split) | (with_reducible apply keeps_ite) | (dsimp -zeta only) | (dsimp -zeta +zetaDelta only)
    | (with_reducible apply keeps_with_cask) | (with_reducible apply keeps_upd) | (exact Nat.le_refl _) | rfl
    | (exact Nat.le_add_right _ _) | (exact SMap.wf_filter _ (by with_reducible assumption) _))

theorem keeps_execPairAnswerRx (p pkt s) (hs : Keeps s₀ s) {w : State} (eq : execPairAnswerRx p pkt s = .next w) : Keeps s₀ w := by
  unfold execPairAnswerRx at eq
  injection eq with eq
  subst eq
  repeat' (first
    | (with_reducible assumption) | (with_reducible intro _) | (with_reducible apply keeps_stopRx)
    | (with_reducible apply keeps_pairAnswered) | (with_reducible apply keeps_foldl) | (with_reducible apply keeps_id)
    | (extract_lets) | (split) | (with_reducible apply keeps_ite) | (dsimp -zeta only) | (dsimp -zeta +zetaDelta only))

theorem keeps_pairAsked (pkt s) (hs : Keeps s₀ s) : Keeps s₀ (pairAsked pkt s) := by
  unfold pairAsked
  repeat' (first
    | (with_reducible assumption) | (with_reducible intro _) | (with_reducible apply keeps_sendStop)
    | (with_reducible apply keeps_foldl) | (with_reducible apply keeps_id) | (extract_lets) | (split)
    | (with_reducible apply keeps_ite) | (dsimp -zeta only) | (dsimp -zeta +zetaDelta only))

theorem keeps_execPairRequestRx (p pkt s) (hs : Keeps s₀ s) {w : State} (eq : execPairRequestRx p pkt s = .next w) : Keeps s₀ w := by
  unfold execPairRequestRx at eq
  injection eq with eq
  subst eq
  repeat' (first
    | (with_reducible assumption) | (with_reducible intro _) | (with_reducible apply keeps_stopRx)
    | (with_reducible apply keeps_pairAsked) | (with_reducible apply keeps_foldl) | (with_reducible apply keeps_id)
    | (extract_lets) | (split) | (with_reducible apply keeps_ite) | (dsimp -zeta only) | (dsimp -zeta +zetaDelta only))

theorem keeps_pairTimeout (s) (hs : Keeps s₀ s) : Keeps s₀ (pairTimeout s) := by
  unfold pairTimeout
  repeat' (first
    | (with_reducible assumption) | (with_reducible intro _) | (with_reducible apply keeps_setPairing)
    | (with_reducible apply keeps_foldl) | (with_reducible apply keeps_id) | (extract_lets) | (split)
    | (with_reducible apply keeps_ite) | (dsimp -zeta only) | (dsimp -zeta +zetaDelta only)
    | (with_reducible apply keeps_with_cask) | (with_reducible apply keeps_upd) | (exact Nat.le_refl _) | rfl
    | (exact Nat.le_add_right _ _) | (exact SMap.wf_filter _ (by with_reducible assumption) _))

theorem keeps_execPairTimeout (s) (hs : Keeps s₀ s) {w : State} (eq : execPairTimeout s = .next w) : Keeps s₀ w := by
  unfold execPairTimeout at eq
  injection eq with eq
  subst eq
  repeat' (first
    | (with_reducible assumption) | (with_reducible intro _) | (with_reducible apply keeps_pairTimeout)
    | (with_reducible apply keeps_foldl) | (with_reducible apply keeps_id) | (extract_lets) | (split)
    | (with_reducible apply keeps_ite) | (dsimp -zeta only) | (dsimp -zeta +zetaDelta only))

theorem keeps_restoreDone (s) (hs : Keeps s₀ s) : Keeps s₀ (restoreDone s) := by
  unfold restoreDone
  repeat' (first
    | (with_reducible assumption) | (with_reducible intro _)
    | (refine keeps_applyCask _ _ ?_ (by with_reducible assumption)) | (with_reducible apply keeps_failRestore)
    | (with_reducible apply keeps_restoreEnds) | (with_reducible apply keeps_raiseEv)
    | (with_reducible apply keeps_caskResult) | (with_reducible apply keeps_setCsk) | (with_reducible apply keeps_foldl)
    | (with_reducible apply keeps_id) | (with_reducible apply keeps_getD) | (extract_lets) | (split)
    | (with_reducible apply keeps_ite) | (dsimp -zeta only) | (dsimp -zeta +zetaDelta only)
    | (with_reducible apply keeps_with_cask) | (with_reducible apply keeps_upd) | (exact Nat.le_refl _) | rfl
    | (exact Nat.le_add_right _ _) | (exact SMap.wf_filter _ (by with_reducible assumption) _))

theorem keeps_execRestoreDone (s) (hs : Keeps s₀ s) {w : State} (eq : execRestoreDone s = .next w) : Keeps s₀ w := by
  unfold execRestoreDone at eq
  injection eq with eq
  subst eq
  repeat' (first
    | (with_reducible assumption) | (with_reducible intro _) | (with_reducible apply keeps_restoreDone)
    | (with_reducible apply keeps_foldl) | (with_reducible apply keeps_id) | (extract_lets) | (split)
    | (with_reducible apply keeps_ite) | (dsimp -zeta only) | (dsimp -zeta +zetaDelta only))

theorem keeps_riskEvaluate (s) (hs : Keeps s₀ s) : Keeps s₀ (riskEvaluate s) := by
  unfold riskEvaluate
  repeat' (first
    | (with_reducible assumption) | (with_reducible intro _) | (with_reducible apply keeps_State_each)
    | (with_reducible apply keeps_State_setRegN) | (with_reducible apply keeps_State_when)
    | (with_reducible apply keeps_askCask) | (with_reducible apply keeps_queueEvent) | (with_reducible apply keeps_raiseEv)
    | (with_reducible apply keeps_critPath) | (with_reducible apply keeps_foldl) | (with_reducible apply keeps_id)
    | (extract_lets) | (split) | (with_reducible apply keeps_ite) | (dsimp -zeta only) | (dsimp -zeta +zetaDelta only)
    | (with_reducible apply keeps_with_cask) | (with_reducible apply keeps_upd) | (exact Nat.le_refl _) | rfl
    | (exact Nat.le_add_right _ _) | (exact SMap.wf_filter _ (by with_reducible assumption) _))

theorem keeps_execRiskEvaluate (s) (hs : Keeps s₀ s) {w : State} (eq : execRiskEvaluate s = .next w) : Keeps s₀ w := by
  unfold execRiskEvaluate at eq
  injection eq with eq
  subst eq
  repeat' (first
    | (with_reducible assumption) | (with_reducible intro _) | (with_reducible apply keeps_riskEvaluate)
    | (with_reducible apply keeps_foldl) | (with_reducible apply keeps_id) | (extract_lets) | (split)
    | (with_reducible apply keeps_ite) | (dsimp -zeta only) | (dsimp -zeta +zetaDelta only))

theorem keeps_stopArm (v s) (hs : Keeps s₀ s) : Keeps s₀ (stopArm v s) := by
  unfold stopArm
  repeat' (first
    | (with_reducible assumption) | (with_reducible intro _) | (with_reducible apply keeps_logStatus)
    | (with_reducible apply keeps_armStop) | (with_reducible apply keeps_State_setRegN)
    | (with_reducible apply keeps_State_when) | (with_reducible apply keeps_sendStopAll) | (with_reducible apply keeps_foldl)
    | (with_reducible apply keeps_id) | (extract_lets) | (split) | (with_reducible apply keeps_ite) | (dsimp -zeta only)
    | (dsimp -zeta +zetaDelta only))

theorem keeps_execStopArm (fn v s) (hs : Keeps s₀ s) {w : State} (eq : execStopArm fn v s = .next w) : Keeps s₀ w := by
  unfold execStopArm at eq
  injection eq with eq
  subst eq
  repeat' (first
    | (with_reducible assumption) | (with_reducible intro _) | (with_reducible apply keeps_posted)
    | (with_reducible apply keeps_ownerWrite) | (with_reducible apply keeps_stopArm) | (with_reducible apply keeps_foldl)
    | (with_reducible apply keeps_id) | (extract_lets) | (split) | (with_reducible apply keeps_ite) | (dsimp -zeta only)
    | (dsimp -zeta +zetaDelta only))

theorem keeps_stopAsked (pkt s) (hs : Keeps s₀ s) : Keeps s₀ (stopAsked pkt s) := by
  unfold stopAsked
  repeat' (first
    | (with_reducible assumption) | (with_reducible intro _) | (with_reducible apply keeps_armStop)
    | (with_reducible apply keeps_sendStop) | (with_reducible apply keeps_foldl) | (with_reducible apply keeps_id)
    | (extract_lets) | (split) | (with_reducible apply keeps_ite) | (dsimp -zeta only) | (dsimp -zeta +zetaDelta only))

theorem keeps_execStopArmRx (p pkt s) (hs : Keeps s₀ s) {w : State} (eq : execStopArmRx p pkt s = .next w) : Keeps s₀ w := by
  unfold execStopArmRx at eq
  injection eq with eq
  subst eq
  repeat' (first
    | (with_reducible assumption) | (with_reducible intro _) | (with_reducible apply keeps_stopRx)
    | (with_reducible apply keeps_stopAsked) | (with_reducible apply keeps_foldl) | (with_reducible apply keeps_id)
    | (extract_lets) | (split) | (with_reducible apply keeps_ite) | (dsimp -zeta only) | (dsimp -zeta +zetaDelta only))

theorem keeps_stopMark (t d s) (hs : Keeps s₀ s) : Keeps s₀ (stopMark t d s) := by
  unfold stopMark
  repeat' (first
    | (with_reducible assumption) | (with_reducible intro _) | (with_reducible apply keeps_State_when)
    | (with_reducible apply keeps_writeRec) | (with_reducible apply keeps_trigger) | (with_reducible apply keeps_foldl)
    | (with_reducible apply keeps_id) | (extract_lets) | (split) | (with_reducible apply keeps_ite) | (dsimp -zeta only)
    | (dsimp -zeta +zetaDelta only))

theorem keeps_stopStreams (s) (hs : Keeps s₀ s) : Keeps s₀ (stopStreams s) := by
  unfold stopStreams
  repeat' (first
    | (with_reducible assumption) | (with_reducible intro _) | (with_reducible apply keeps_State_each)
    | (with_reducible apply keeps_State_when) | (with_reducible apply keeps_State_setStream)
    | (with_reducible apply keeps_foldl) | (with_reducible apply keeps_id) | (extract_lets) | (split)
    | (with_reducible apply keeps_ite) | (dsimp -zeta only) | (dsimp -zeta +zetaDelta only))

theorem keeps_stopPress (s) (hs : Keeps s₀ s) : Keeps s₀ (stopPress s) := by
  unfold stopPress
  repeat' (first
    | (with_reducible assumption) | (with_reducible intro _) | (with_reducible apply keeps_State_each)
    | (with_reducible apply keeps_stopMark) | (with_reducible apply keeps_stopStreams)
    | (with_reducible apply keeps_abortUnissued) | (with_reducible apply keeps_State_when)
    | (with_reducible apply keeps_haltCore) | (with_reducible apply keeps_setCsk) | (with_reducible apply keeps_foldl)
    | (with_reducible apply keeps_id) | (extract_lets) | (split) | (with_reducible apply keeps_ite) | (dsimp -zeta only)
    | (dsimp -zeta +zetaDelta only) | (with_reducible apply keeps_with_stopped) | (with_reducible apply keeps_with_cask)
    | (with_reducible apply keeps_upd) | (exact Nat.le_refl _) | rfl | (exact Nat.le_add_right _ _)
    | (exact SMap.wf_filter _ (by with_reducible assumption) _))

theorem keeps_execStopPress (s) (hs : Keeps s₀ s) {w : State} (eq : execStopPress s = .next w) : Keeps s₀ w := by
  unfold execStopPress at eq
  injection eq with eq
  subst eq
  repeat' (first
    | (with_reducible assumption) | (with_reducible intro _) | (with_reducible apply keeps_stopPress)
    | (with_reducible apply keeps_foldl) | (with_reducible apply keeps_id) | (extract_lets) | (split)
    | (with_reducible apply keeps_ite) | (dsimp -zeta only) | (dsimp -zeta +zetaDelta only))

theorem keeps_execStopRefuseRx (p pkt s) (hs : Keeps s₀ s) {w : State} (eq : execStopRefuseRx p pkt s = .next w) : Keeps s₀ w := by
  unfold execStopRefuseRx at eq
  injection eq with eq
  subst eq
  repeat' (first
    | (with_reducible assumption) | (with_reducible intro _) | (with_reducible apply keeps_stopRx)
    | (with_reducible apply keeps_raiseEv) | (with_reducible apply keeps_State_setFlag) | (with_reducible apply keeps_foldl)
    | (with_reducible apply keeps_id) | (extract_lets) | (split) | (with_reducible apply keeps_ite) | (dsimp -zeta only)
    | (dsimp -zeta +zetaDelta only))

theorem keeps_failFetched (status s) (hs : Keeps s₀ s) : Keeps s₀ (failFetched status s) := by
  unfold failFetched
  repeat' (first
    | (with_reducible assumption) | (with_reducible intro _) | (with_reducible apply keeps_failRestore)
    | (with_reducible apply keeps_restoreEnds) | (with_reducible apply keeps_foldl) | (with_reducible apply keeps_id)
    | (extract_lets) | (split) | (with_reducible apply keeps_ite) | (dsimp -zeta only) | (dsimp -zeta +zetaDelta only)
    | (with_reducible apply keeps_with_cask) | (with_reducible apply keeps_upd) | (exact Nat.le_refl _) | rfl
    | (exact Nat.le_add_right _ _) | (exact SMap.wf_filter _ (by with_reducible assumption) _))

theorem keeps_fetchTurn (s) (hs : Keeps s₀ s) : Keeps s₀ (fetchTurn s) := by
  unfold fetchTurn
  repeat' (first
    | (with_reducible assumption) | (with_reducible intro _) | (with_reducible apply keeps_failFetched)
    | (with_reducible apply keeps_askCopy) | (with_reducible apply keeps_beginRestore) | (with_reducible apply keeps_foldl)
    | (with_reducible apply keeps_id) | (extract_lets) | (split) | (with_reducible apply keeps_ite) | (dsimp -zeta only)
    | (dsimp -zeta +zetaDelta only) | (with_reducible apply keeps_with_cask) | (with_reducible apply keeps_upd)
    | (exact Nat.le_refl _) | rfl | (exact Nat.le_add_right _ _) | (exact SMap.wf_filter _ (by with_reducible assumption) _))

theorem keeps_mirrorTail (s) (hs : Keeps s₀ s) : Keeps s₀ (mirrorTail s) := by
  unfold mirrorTail
  repeat' (first
    | (with_reducible assumption) | (with_reducible intro _) | (with_reducible apply keeps_sendStop)
    | (with_reducible apply keeps_foldl) | (with_reducible apply keeps_id) | (extract_lets) | (split)
    | (with_reducible apply keeps_ite) | (dsimp -zeta only) | (dsimp -zeta +zetaDelta only)
    | (with_reducible apply keeps_with_cask) | (with_reducible apply keeps_upd) | (exact Nat.le_refl _) | rfl
    | (exact Nat.le_add_right _ _) | (exact SMap.wf_filter _ (by with_reducible assumption) _))

theorem keeps_pendingUnitCopied (s) (hs : Keeps s₀ s) : Keeps s₀ (pendingUnitCopied s) := by
  unfold pendingUnitCopied
  repeat' (first
    | (with_reducible assumption) | (with_reducible intro _) | (with_reducible apply keeps_cellarTurn)
    | (with_reducible apply keeps_writerFails) | (with_reducible apply keeps_State_setBytes)
    | (with_reducible apply keeps_settleAll) | (with_reducible apply keeps_wakeReqs)
    | (with_reducible apply keeps_cellarPulse) | (with_reducible apply keeps_foldl) | (with_reducible apply keeps_id)
    | (extract_lets) | (split) | (with_reducible apply keeps_ite) | (dsimp -zeta only) | (dsimp -zeta +zetaDelta only)
    | (with_reducible apply keeps_with_cask) | (with_reducible apply keeps_upd) | (exact Nat.le_refl _) | rfl
    | (exact Nat.le_add_right _ _) | (exact SMap.wf_filter _ (by with_reducible assumption) _))

theorem keeps_tickCask (s) (hs : Keeps s₀ s) : Keeps s₀ (tickCask s) := by
  unfold tickCask
  repeat' (first
    | (with_reducible assumption) | (with_reducible intro _) | (with_reducible apply keeps_fetchTurn)
    | (with_reducible apply keeps_mirrorTail) | (with_reducible apply keeps_copyTurn)
    | (with_reducible apply keeps_resumeTurn) | (with_reducible apply keeps_cutOwed)
    | (with_reducible apply keeps_cellarTurn) | (with_reducible apply keeps_foldl) | (with_reducible apply keeps_id)
    | (extract_lets) | (split) | (with_reducible apply keeps_ite) | (dsimp -zeta only) | (dsimp -zeta +zetaDelta only))

end Sys2Proof.Machine.Laws
end

