-- ==== Sys2Proof/Laws/KeepsGovernor.lean ====
section
/-! SUPPORT. Every definition of Sys2Proof/Machine/Governor.lean keeps what `Keeps` names. -/

namespace Sys2Proof.Machine.Laws

variable {s₀ : State}

theorem keeps_State_setEntry (s l e) (hs : Keeps s₀ s) : Keeps s₀ (State.setEntry s l e) := by
  unfold State.setEntry
  repeat' (first
    | (with_reducible assumption) | (with_reducible intro _) | (with_reducible apply keeps_foldl)
    | (with_reducible apply keeps_id) | (extract_lets) | (split) | (with_reducible apply keeps_ite) | (dsimp -zeta only)
    | (dsimp -zeta +zetaDelta only) | (with_reducible apply keeps_with_gov) | (with_reducible apply keeps_upd)
    | (exact Nat.le_refl _) | rfl | (exact Nat.le_add_right _ _) | (exact SMap.wf_filter _ (by with_reducible assumption) _))

theorem keeps_State_setTaster (s l t) (hs : Keeps s₀ s) : Keeps s₀ (State.setTaster s l t) := by
  unfold State.setTaster
  repeat' (first
    | (with_reducible assumption) | (with_reducible intro _) | (with_reducible apply keeps_foldl)
    | (with_reducible apply keeps_id) | (extract_lets) | (split) | (with_reducible apply keeps_ite) | (dsimp -zeta only)
    | (dsimp -zeta +zetaDelta only) | (with_reducible apply keeps_with_gov) | (with_reducible apply keeps_upd)
    | (exact Nat.le_refl _) | rfl | (exact Nat.le_add_right _ _) | (exact SMap.wf_filter _ (by with_reducible assumption) _))

theorem keeps_abortJob (job s) (hs : Keeps s₀ s) : Keeps s₀ (abortJob job s) := by
  unfold abortJob
  repeat' (first
    | (with_reducible assumption) | (with_reducible intro _) | (with_reducible apply keeps_State_each)
    | (with_reducible apply keeps_finish) | (with_reducible apply keeps_State_setCore)
    | (with_reducible apply keeps_completeNear) | (with_reducible apply keeps_State_setStream)
    | (with_reducible apply keeps_abortStream) | (with_reducible apply keeps_foldl) | (with_reducible apply keeps_id)
    | (extract_lets) | (split) | (with_reducible apply keeps_ite) | (dsimp -zeta only) | (dsimp -zeta +zetaDelta only))

theorem keeps_tasteAll (s) (hs : Keeps s₀ s) : Keeps s₀ (tasteAll s) := by
  unfold tasteAll
  repeat' (first
    | (with_reducible assumption) | (with_reducible intro _) | (with_reducible apply keeps_State_each)
    | (with_reducible apply keeps_foldl) | (with_reducible apply keeps_id) | (extract_lets) | (split)
    | (with_reducible apply keeps_ite) | (dsimp -zeta only) | (dsimp -zeta +zetaDelta only)
    | (with_reducible apply keeps_with_gov) | (with_reducible apply keeps_upd) | (exact Nat.le_refl _) | rfl
    | (exact Nat.le_add_right _ _) | (exact SMap.wf_filter _ (by with_reducible assumption) _))

theorem keeps_drainDie (d s) (hs : Keeps s₀ s) : Keeps s₀ (drainDie d s) := by
  unfold drainDie
  repeat' (first
    | (with_reducible assumption) | (with_reducible intro _) | (with_reducible apply keeps_State_each)
    | (with_reducible apply keeps_drainQueue) | (with_reducible apply keeps_foldl) | (with_reducible apply keeps_id)
    | (extract_lets) | (split) | (with_reducible apply keeps_ite) | (dsimp -zeta only) | (dsimp -zeta +zetaDelta only))

theorem keeps_takeStat (d s) (hs : Keeps s₀ s) : Keeps s₀ (takeStat d s) := by
  unfold takeStat
  extract_lets rd r s1
  have h : Keeps s₀ s1 := keeps_State_setRegN _ _ _ hs
  clear_value rd r s1
  split
  · exact keeps_State_setRegN _ _ _ h
  · exact keeps_with_gov h

theorem keeps_readRing (d s) (hs : Keeps s₀ s) : Keeps s₀ (readRing d s) := by
  unfold readRing
  repeat' (first
    | (with_reducible assumption) | (with_reducible intro _) | (with_reducible apply keeps_State_each)
    | (with_reducible apply keeps_takeStat) | (with_reducible apply keeps_foldl) | (with_reducible apply keeps_id)
    | (extract_lets) | (split) | (with_reducible apply keeps_ite) | (dsimp -zeta only) | (dsimp -zeta +zetaDelta only))

theorem keeps_readOut (n s) (hs : Keeps s₀ s) : Keeps s₀ (readOut n s) := by
  induction n generalizing s with
  | zero => exact hs
  | succ n ih =>
    simp only [Sys2Proof.Machine.readOut]
    split
    · exact hs
    · exact ih _ (keeps_State_each _ _ _ (keeps_drainDie _ _ (keeps_drainDie _ _ (keeps_readRing _ _ (keeps_readRing _ _ hs))))
        (fun _ _ h => keeps_drainSlice _ _ h))

theorem keeps_setPhase (p s) (hs : Keeps s₀ s) : Keeps s₀ (setPhase p s) := by
  unfold setPhase
  repeat' (first
    | (with_reducible assumption) | (with_reducible intro _) | (with_reducible apply keeps_State_setFld)
    | (with_reducible apply keeps_foldl) | (with_reducible apply keeps_id) | (extract_lets) | (split)
    | (with_reducible apply keeps_ite) | (dsimp -zeta only) | (dsimp -zeta +zetaDelta only))

theorem keeps_sendSummary (s) (hs : Keeps s₀ s) : Keeps s₀ (sendSummary s) := by
  unfold sendSummary
  repeat' (first
    | (with_reducible assumption) | (with_reducible intro _) | (with_reducible apply keeps_State_each)
    | (with_reducible apply keeps_sendPacket) | (with_reducible apply keeps_foldl) | (with_reducible apply keeps_id)
    | (extract_lets) | (split) | (with_reducible apply keeps_ite) | (dsimp -zeta only) | (dsimp -zeta +zetaDelta only))

theorem keeps_logJump (j s) (hs : Keeps s₀ s) : Keeps s₀ (logJump j s) := by
  unfold logJump
  repeat' (first
    | (with_reducible assumption) | (with_reducible intro _) | (with_reducible apply keeps_State_setRegN)
    | (with_reducible apply keeps_raiseEv) | (with_reducible apply keeps_State_setTaster)
    | (with_reducible apply keeps_foldl) | (with_reducible apply keeps_id) | (extract_lets) | (split)
    | (with_reducible apply keeps_ite) | (dsimp -zeta only) | (dsimp -zeta +zetaDelta only))

theorem keeps_writeSlot (i q book s) (hs : Keeps s₀ s) : Keeps s₀ (writeSlot i q book s) := by
  unfold writeSlot
  repeat' (first
    | (with_reducible assumption) | (with_reducible intro _) | (with_reducible apply keeps_writeFolio)
    | (with_reducible apply keeps_copyFirst) | (with_reducible apply keeps_foldl) | (with_reducible apply keeps_id)
    | (extract_lets) | (split) | (with_reducible apply keeps_ite) | (dsimp -zeta only) | (dsimp -zeta +zetaDelta only))

theorem keeps_writeScaleSlots (s) (hs : Keeps s₀ s) : Keeps s₀ (writeScaleSlots s) := by
  unfold writeScaleSlots
  repeat' (first
    | (with_reducible assumption) | (with_reducible intro _) | (with_reducible apply keeps_writeSlot)
    | (with_reducible apply keeps_foldl) | (with_reducible apply keeps_id) | (extract_lets) | (split)
    | (with_reducible apply keeps_ite) | (dsimp -zeta only) | (dsimp -zeta +zetaDelta only))

theorem keeps_updateScale (ovf ok s) (hs : Keeps s₀ s) : Keeps s₀ (updateScale ovf ok s) := by
  unfold updateScale
  repeat' (first
    | (with_reducible assumption) | (with_reducible intro _) | (with_reducible apply keeps_State_setFlag)
    | (with_reducible apply keeps_State_setFld) | (with_reducible apply keeps_raiseEv) | (with_reducible apply keeps_foldl)
    | (with_reducible apply keeps_id) | (extract_lets) | (split) | (with_reducible apply keeps_ite) | (dsimp -zeta only)
    | (dsimp -zeta +zetaDelta only))

theorem keeps_updateMeans (ovf s) (hs : Keeps s₀ s) : Keeps s₀ (updateMeans ovf s) := by
  unfold updateMeans
  repeat' (first
    | (with_reducible assumption) | (with_reducible intro _) | (with_reducible apply keeps_State_each)
    | (with_reducible apply keeps_State_setTaster) | (with_reducible apply keeps_foldl) | (with_reducible apply keeps_id)
    | (extract_lets) | (split) | (with_reducible apply keeps_ite) | (dsimp -zeta only) | (dsimp -zeta +zetaDelta only))

theorem keeps_sendVerdict (v s) (hs : Keeps s₀ s) : Keeps s₀ (sendVerdict v s) := by
  unfold sendVerdict
  repeat' (first
    | (with_reducible assumption) | (with_reducible intro _) | (with_reducible apply keeps_pushFree)
    | (with_reducible apply keeps_sendToken) | (with_reducible apply keeps_foldl) | (with_reducible apply keeps_id)
    | (extract_lets) | (split) | (with_reducible apply keeps_ite) | (dsimp -zeta only) | (dsimp -zeta +zetaDelta only))

theorem keeps_phase6 (s) (hs : Keeps s₀ s) : Keeps s₀ (phase6 s) := by
  unfold phase6
  repeat' (first
    | (with_reducible assumption) | (with_reducible intro _) | (with_reducible apply keeps_State_when)
    | (with_reducible apply keeps_State_setFld) | (with_reducible apply keeps_raiseEv)
    | (with_reducible apply keeps_State_each) | (with_reducible apply keeps_logJump)
    | (with_reducible apply keeps_State_setFlag) | (with_reducible apply keeps_askCask)
    | (with_reducible apply keeps_writeScaleSlots) | (with_reducible apply keeps_updateScale)
    | (with_reducible apply keeps_updateMeans) | (with_reducible apply keeps_sendVerdict)
    | (with_reducible apply keeps_State_setRegN) | (with_reducible apply keeps_foldl) | (with_reducible apply keeps_id)
    | (extract_lets) | (split) | (with_reducible apply keeps_ite) | (dsimp -zeta only) | (dsimp -zeta +zetaDelta only)
    | (with_reducible apply keeps_with_gov) | (with_reducible apply keeps_upd) | (exact Nat.le_refl _) | rfl
    | (exact Nat.le_add_right _ _) | (exact SMap.wf_filter _ (by with_reducible assumption) _))

theorem keeps_phase7One (l s) (hs : Keeps s₀ s) : Keeps s₀ (phase7One l s) := by
  unfold phase7One
  repeat' (first
    | (with_reducible assumption) | (with_reducible intro _) | (with_reducible apply keeps_State_setEntry)
    | (with_reducible apply keeps_foldl) | (with_reducible apply keeps_id) | (extract_lets) | (split)
    | (with_reducible apply keeps_ite) | (dsimp -zeta only) | (dsimp -zeta +zetaDelta only)
    | (with_reducible apply keeps_with_gov) | (with_reducible apply keeps_upd) | (exact Nat.le_refl _) | rfl
    | (exact Nat.le_add_right _ _) | (exact SMap.wf_filter _ (by with_reducible assumption) _))

theorem keeps_rebind (l old s) (hs : Keeps s₀ s) : Keeps s₀ (rebind l old s) := by
  unfold rebind
  repeat' (first
    | (with_reducible assumption) | (with_reducible intro _) | (with_reducible apply keeps_State_each)
    | (with_reducible apply keeps_writeFolio) | (with_reducible apply keeps_copyFirst) | (with_reducible apply keeps_foldl)
    | (with_reducible apply keeps_id) | (extract_lets) | (split) | (with_reducible apply keeps_ite) | (dsimp -zeta only)
    | (dsimp -zeta +zetaDelta only))

theorem keeps_changeLayer (l old s) (hs : Keeps s₀ s) : Keeps s₀ (changeLayer l old s) := by
  unfold changeLayer
  repeat' (first
    | (with_reducible assumption) | (with_reducible intro _) | (with_reducible apply keeps_State_setEntry)
    | (with_reducible apply keeps_raiseEv) | (with_reducible apply keeps_State_setFlag) | (with_reducible apply keeps_rebind)
    | (with_reducible apply keeps_foldl) | (with_reducible apply keeps_id) | (extract_lets) | (split)
    | (with_reducible apply keeps_ite) | (dsimp -zeta only) | (dsimp -zeta +zetaDelta only)
    | (with_reducible apply keeps_with_gov) | (with_reducible apply keeps_upd) | (exact Nat.le_refl _) | rfl
    | (exact Nat.le_add_right _ _) | (exact SMap.wf_filter _ (by with_reducible assumption) _))

theorem keeps_writeSlots (l s) (hs : Keeps s₀ s) : Keeps s₀ (writeSlots l s) := by
  unfold writeSlots
  repeat' (first
    | (with_reducible assumption) | (with_reducible intro _) | (with_reducible apply keeps_State_each)
    | (with_reducible apply keeps_writeSlot) | (with_reducible apply keeps_foldl) | (with_reducible apply keeps_id)
    | (extract_lets) | (split) | (with_reducible apply keeps_ite) | (dsimp -zeta only) | (dsimp -zeta +zetaDelta only))

theorem keeps_phases78 (s) (hs : Keeps s₀ s) : Keeps s₀ (phases78 s) := by
  unfold phases78
  repeat' (first
    | (with_reducible assumption) | (with_reducible intro _) | (with_reducible apply keeps_State_each)
    | (with_reducible apply keeps_phase7One) | (with_reducible apply keeps_changeLayer)
    | (with_reducible apply keeps_writeSlots) | (with_reducible apply keeps_State_setRegN)
    | (with_reducible apply keeps_foldl) | (with_reducible apply keeps_id) | (extract_lets) | (split)
    | (with_reducible apply keeps_ite) | (dsimp -zeta only) | (dsimp -zeta +zetaDelta only))

theorem keeps_fromPhase6 (s) (hs : Keeps s₀ s) : Keeps s₀ (fromPhase6 s) := by
  unfold fromPhase6
  repeat' (first
    | (with_reducible assumption) | (with_reducible intro _) | (with_reducible apply keeps_phase6)
    | (with_reducible apply keeps_setPhase) | (with_reducible apply keeps_phases78) | (with_reducible apply keeps_foldl)
    | (with_reducible apply keeps_id) | (extract_lets) | (split) | (with_reducible apply keeps_ite) | (dsimp -zeta only)
    | (dsimp -zeta +zetaDelta only) | (with_reducible apply keeps_with_gov) | (with_reducible apply keeps_upd)
    | (exact Nat.le_refl _) | rfl | (exact Nat.le_add_right _ _) | (exact SMap.wf_filter _ (by with_reducible assumption) _))

theorem keeps_boundaryCombine (s) (hs : Keeps s₀ s) : Keeps s₀ (boundaryCombine s) := by
  unfold boundaryCombine
  repeat' (first
    | (with_reducible assumption) | (with_reducible intro _) | (with_reducible apply keeps_tasteAll)
    | (with_reducible apply keeps_readOut) | (with_reducible apply keeps_setPhase) | (with_reducible apply keeps_sendSummary)
    | (with_reducible apply keeps_fromPhase6) | (with_reducible apply keeps_foldl) | (with_reducible apply keeps_id)
    | (extract_lets) | (split) | (with_reducible apply keeps_ite) | (dsimp -zeta only) | (dsimp -zeta +zetaDelta only)
    | (with_reducible apply keeps_with_gov) | (with_reducible apply keeps_upd) | (exact Nat.le_refl _) | rfl
    | (exact Nat.le_add_right _ _) | (exact SMap.wf_filter _ (by with_reducible assumption) _))

theorem keeps_boundaryQuiesced (s) (hs : Keeps s₀ s) : Keeps s₀ (boundaryQuiesced s) := by
  unfold boundaryQuiesced
  repeat' (first
    | (with_reducible assumption) | (with_reducible intro _) | (with_reducible apply keeps_setPhase)
    | (with_reducible apply keeps_State_each) | (with_reducible apply keeps_drainSlice) | (with_reducible apply keeps_foldl)
    | (with_reducible apply keeps_id) | (extract_lets) | (split) | (with_reducible apply keeps_ite) | (dsimp -zeta only)
    | (dsimp -zeta +zetaDelta only))

theorem keeps_release9 (s) (hs : Keeps s₀ s) : Keeps s₀ (release9 s) := by
  unfold release9
  repeat' (first
    | (with_reducible assumption) | (with_reducible intro _) | (with_reducible apply keeps_State_setRegN)
    | (with_reducible apply keeps_State_each) | (with_reducible apply keeps_State_setEntry)
    | (with_reducible apply keeps_State_when) | (with_reducible apply keeps_raiseEv) | (with_reducible apply keeps_abortJob)
    | (with_reducible apply keeps_capture) | (with_reducible apply keeps_State_setFld)
    | (with_reducible apply keeps_setPhase) | (with_reducible apply keeps_State_setFlag) | (with_reducible apply keeps_foldl)
    | (with_reducible apply keeps_id) | (extract_lets) | (split) | (with_reducible apply keeps_ite) | (dsimp -zeta only)
    | (dsimp -zeta +zetaDelta only) | (with_reducible apply keeps_with_gov) | (with_reducible apply keeps_upd)
    | (exact Nat.le_refl _) | rfl | (exact Nat.le_add_right _ _) | (exact SMap.wf_filter _ (by with_reducible assumption) _))

theorem keeps_boundaryRelease (s) (hs : Keeps s₀ s) : Keeps s₀ (boundaryRelease s) := by
  unfold boundaryRelease
  repeat' (first
    | (with_reducible assumption) | (with_reducible intro _) | (with_reducible apply keeps_setPhase)
    | (with_reducible apply keeps_phases78) | (with_reducible apply keeps_wakeAll) | (with_reducible apply keeps_release9)
    | (with_reducible apply keeps_foldl) | (with_reducible apply keeps_id) | (extract_lets) | (split)
    | (with_reducible apply keeps_ite) | (dsimp -zeta only) | (dsimp -zeta +zetaDelta only)
    | (with_reducible apply keeps_with_gov) | (with_reducible apply keeps_upd) | (exact Nat.le_refl _) | rfl
    | (exact Nat.le_add_right _ _) | (exact SMap.wf_filter _ (by with_reducible assumption) _))

theorem keeps_execBoundaryCombine (s) (hs : Keeps s₀ s) {w : State} (eq : execBoundaryCombine s = .next w) : Keeps s₀ w := by
  unfold execBoundaryCombine at eq
  injection eq with eq
  subst eq
  repeat' (first
    | (with_reducible assumption) | (with_reducible intro _) | (with_reducible apply keeps_boundaryCombine)
    | (with_reducible apply keeps_foldl) | (with_reducible apply keeps_id) | (extract_lets) | (split)
    | (with_reducible apply keeps_ite) | (dsimp -zeta only) | (dsimp -zeta +zetaDelta only))

theorem keeps_execBoundaryQuiesced (s) (hs : Keeps s₀ s) {w : State} (eq : execBoundaryQuiesced s = .next w) : Keeps s₀ w := by
  unfold execBoundaryQuiesced at eq
  injection eq with eq
  subst eq
  repeat' (first
    | (with_reducible assumption) | (with_reducible intro _) | (with_reducible apply keeps_boundaryQuiesced)
    | (with_reducible apply keeps_foldl) | (with_reducible apply keeps_id) | (extract_lets) | (split)
    | (with_reducible apply keeps_ite) | (dsimp -zeta only) | (dsimp -zeta +zetaDelta only))

theorem keeps_execBoundaryRelease (s) (hs : Keeps s₀ s) {w : State} (eq : execBoundaryRelease s = .next w) : Keeps s₀ w := by
  unfold execBoundaryRelease at eq
  injection eq with eq
  subst eq
  repeat' (first
    | (with_reducible assumption) | (with_reducible intro _) | (with_reducible apply keeps_boundaryRelease)
    | (with_reducible apply keeps_foldl) | (with_reducible apply keeps_id) | (extract_lets) | (split)
    | (with_reducible apply keeps_ite) | (dsimp -zeta only) | (dsimp -zeta +zetaDelta only))

theorem keeps_gangSummaryRx (s) (hs : Keeps s₀ s) : Keeps s₀ (gangSummaryRx s) := by
  unfold gangSummaryRx
  repeat' (first
    | (with_reducible assumption) | (with_reducible intro _) | (with_reducible apply keeps_fromPhase6)
    | (with_reducible apply keeps_foldl) | (with_reducible apply keeps_id) | (extract_lets) | (split)
    | (with_reducible apply keeps_ite) | (dsimp -zeta only) | (dsimp -zeta +zetaDelta only))

theorem keeps_execGangSummaryRx (s) (hs : Keeps s₀ s) {w : State} (eq : execGangSummaryRx s = .next w) : Keeps s₀ w := by
  unfold execGangSummaryRx at eq
  injection eq with eq
  subst eq
  repeat' (first
    | (with_reducible assumption) | (with_reducible intro _) | (with_reducible apply keeps_gangSummaryRx)
    | (with_reducible apply keeps_foldl) | (with_reducible apply keeps_id) | (extract_lets) | (split)
    | (with_reducible apply keeps_ite) | (dsimp -zeta only) | (dsimp -zeta +zetaDelta only))

theorem keeps_gangTimeout (s) (hs : Keeps s₀ s) : Keeps s₀ (gangTimeout s) := by
  unfold gangTimeout
  repeat' (first
    | (with_reducible assumption) | (with_reducible intro _) | (with_reducible apply keeps_fromPhase6)
    | (with_reducible apply keeps_raiseEv) | (with_reducible apply keeps_State_setFlag) | (with_reducible apply keeps_foldl)
    | (with_reducible apply keeps_id) | (extract_lets) | (split) | (with_reducible apply keeps_ite) | (dsimp -zeta only)
    | (dsimp -zeta +zetaDelta only) | (with_reducible apply keeps_with_gov) | (with_reducible apply keeps_upd)
    | (exact Nat.le_refl _) | rfl | (exact Nat.le_add_right _ _) | (exact SMap.wf_filter _ (by with_reducible assumption) _))

theorem keeps_execGangTimeout (s) (hs : Keeps s₀ s) {w : State} (eq : execGangTimeout s = .next w) : Keeps s₀ w := by
  unfold execGangTimeout at eq
  injection eq with eq
  subst eq
  repeat' (first
    | (with_reducible assumption) | (with_reducible intro _) | (with_reducible apply keeps_gangTimeout)
    | (with_reducible apply keeps_foldl) | (with_reducible apply keeps_id) | (extract_lets) | (split)
    | (with_reducible apply keeps_ite) | (dsimp -zeta only) | (dsimp -zeta +zetaDelta only))

theorem keeps_govMine (pkt s) (hs : Keeps s₀ s) : Keeps s₀ (govMine pkt s) := by
  unfold govMine
  repeat' (first
    | (with_reducible assumption) | (with_reducible intro _) | (with_reducible apply keeps_State_setRegN)
    | (with_reducible apply keeps_foldl) | (with_reducible apply keeps_id) | (extract_lets) | (split)
    | (with_reducible apply keeps_ite) | (dsimp -zeta only) | (dsimp -zeta +zetaDelta only)
    | (with_reducible apply keeps_with_gov) | (with_reducible apply keeps_upd) | (exact Nat.le_refl _) | rfl
    | (exact Nat.le_add_right _ _) | (exact SMap.wf_filter _ (by with_reducible assumption) _))

theorem keeps_govRx (p pkt s) (hs : Keeps s₀ s) : Keeps s₀ (govRx p pkt s) := by
  unfold govRx
  repeat' (first
    | (with_reducible assumption) | (with_reducible intro _) | (with_reducible apply keeps_receive)
    | (with_reducible apply keeps_deliver) | (with_reducible apply keeps_govMine) | (with_reducible apply keeps_foldl)
    | (with_reducible apply keeps_id) | (extract_lets) | (split) | (with_reducible apply keeps_ite) | (dsimp -zeta only)
    | (dsimp -zeta +zetaDelta only))

theorem keeps_execGovRx (p pkt s) (hs : Keeps s₀ s) {w : State} (eq : execGovRx p pkt s = .next w) : Keeps s₀ w := by
  unfold execGovRx at eq
  injection eq with eq
  subst eq
  repeat' (first
    | (with_reducible assumption) | (with_reducible intro _) | (with_reducible apply keeps_govRx)
    | (with_reducible apply keeps_foldl) | (with_reducible apply keeps_id) | (extract_lets) | (split)
    | (with_reducible apply keeps_ite) | (dsimp -zeta only) | (dsimp -zeta +zetaDelta only))

theorem keeps_hydRingCfg (d v s) (hs : Keeps s₀ s) : Keeps s₀ (hydRingCfg d v s) := by
  unfold hydRingCfg
  repeat' (first
    | (with_reducible assumption) | (with_reducible intro _) | (with_reducible apply keeps_State_when)
    | (with_reducible apply keeps_logStatus) | (with_reducible apply keeps_State_setRegN)
    | (with_reducible apply keeps_foldl) | (with_reducible apply keeps_id) | (extract_lets) | (split)
    | (with_reducible apply keeps_ite) | (dsimp -zeta only) | (dsimp -zeta +zetaDelta only))

theorem keeps_execHydRingCfgWrite (fn d v s) (hs : Keeps s₀ s) {w : State} (eq : execHydRingCfgWrite fn d v s = .next w) : Keeps s₀ w := by
  unfold execHydRingCfgWrite at eq
  injection eq with eq
  subst eq
  repeat' (first
    | (with_reducible assumption) | (with_reducible intro _) | (with_reducible apply keeps_posted)
    | (with_reducible apply keeps_ownerWrite) | (with_reducible apply keeps_hydRingCfg) | (with_reducible apply keeps_foldl)
    | (with_reducible apply keeps_id) | (extract_lets) | (split) | (with_reducible apply keeps_ite) | (dsimp -zeta only)
    | (dsimp -zeta +zetaDelta only))

theorem keeps_lscaleWrite (v s) (hs : Keeps s₀ s) : Keeps s₀ (lscaleWrite v s) := by
  unfold lscaleWrite
  repeat' (first
    | (with_reducible assumption) | (with_reducible intro _) | (with_reducible apply keeps_logStatus)
    | (with_reducible apply keeps_State_setFld) | (with_reducible apply keeps_foldl) | (with_reducible apply keeps_id)
    | (extract_lets) | (split) | (with_reducible apply keeps_ite) | (dsimp -zeta only) | (dsimp -zeta +zetaDelta only))

theorem keeps_execLscaleWrite (fn v s) (hs : Keeps s₀ s) {w : State} (eq : execLscaleWrite fn v s = .next w) : Keeps s₀ w := by
  unfold execLscaleWrite at eq
  injection eq with eq
  subst eq
  repeat' (first
    | (with_reducible assumption) | (with_reducible intro _) | (with_reducible apply keeps_posted)
    | (with_reducible apply keeps_ownerWrite) | (with_reducible apply keeps_lscaleWrite) | (with_reducible apply keeps_foldl)
    | (with_reducible apply keeps_id) | (extract_lets) | (split) | (with_reducible apply keeps_ite) | (dsimp -zeta only)
    | (dsimp -zeta +zetaDelta only))

theorem keeps_ptgEntCommit (s) (hs : Keeps s₀ s) : Keeps s₀ (ptgEntCommit s) := by
  unfold ptgEntCommit
  repeat' (first
    | (with_reducible assumption) | (with_reducible intro _) | (with_reducible apply keeps_logStatus)
    | (with_reducible apply keeps_State_setEntry) | (with_reducible apply keeps_foldl) | (with_reducible apply keeps_id)
    | (extract_lets) | (split) | (with_reducible apply keeps_ite) | (dsimp -zeta only) | (dsimp -zeta +zetaDelta only)
    | (with_reducible apply keeps_with_gov) | (with_reducible apply keeps_upd) | (exact Nat.le_refl _) | rfl
    | (exact Nat.le_add_right _ _) | (exact SMap.wf_filter _ (by with_reducible assumption) _))

theorem keeps_execPtgEntCommit (fn s) (hs : Keeps s₀ s) {w : State} (eq : execPtgEntCommit fn s = .next w) : Keeps s₀ w := by
  unfold execPtgEntCommit at eq
  injection eq with eq
  subst eq
  repeat' (first
    | (with_reducible assumption) | (with_reducible intro _) | (with_reducible apply keeps_posted)
    | (with_reducible apply keeps_ownerWrite) | (with_reducible apply keeps_ptgEntCommit)
    | (with_reducible apply keeps_foldl) | (with_reducible apply keeps_id) | (extract_lets) | (split)
    | (with_reducible apply keeps_ite) | (dsimp -zeta only) | (dsimp -zeta +zetaDelta only))

theorem keeps_writeWords (base v s) (hs : Keeps s₀ s) : Keeps s₀ (writeWords base v s) := by
  unfold writeWords
  repeat' (first
    | (with_reducible assumption) | (with_reducible intro _) | (with_reducible apply keeps_State_each)
    | (with_reducible apply keeps_State_setRegN) | (with_reducible apply keeps_foldl) | (with_reducible apply keeps_id)
    | (extract_lets) | (split) | (with_reducible apply keeps_ite) | (dsimp -zeta only) | (dsimp -zeta +zetaDelta only))

theorem keeps_ptgEntLoad (s) (hs : Keeps s₀ s) : Keeps s₀ (ptgEntLoad s) := by
  unfold ptgEntLoad
  repeat' (first
    | (with_reducible assumption) | (with_reducible intro _) | (with_reducible apply keeps_writeWords)
    | (with_reducible apply keeps_foldl) | (with_reducible apply keeps_id) | (extract_lets) | (split)
    | (with_reducible apply keeps_ite) | (dsimp -zeta only) | (dsimp -zeta +zetaDelta only))

theorem keeps_execPtgEntLoad (fn s) (hs : Keeps s₀ s) {w : State} (eq : execPtgEntLoad fn s = .next w) : Keeps s₀ w := by
  unfold execPtgEntLoad at eq
  injection eq with eq
  subst eq
  repeat' (first
    | (with_reducible assumption) | (with_reducible intro _) | (with_reducible apply keeps_posted)
    | (with_reducible apply keeps_ownerWrite) | (with_reducible apply keeps_ptgEntLoad) | (with_reducible apply keeps_foldl)
    | (with_reducible apply keeps_id) | (extract_lets) | (split) | (with_reducible apply keeps_ite) | (dsimp -zeta only)
    | (dsimp -zeta +zetaDelta only))

theorem keeps_seedCommit (s) (hs : Keeps s₀ s) : Keeps s₀ (seedCommit s) := by
  unfold seedCommit
  repeat' (first
    | (with_reducible assumption) | (with_reducible intro _) | (with_reducible apply keeps_logStatus)
    | (with_reducible apply keeps_foldl) | (with_reducible apply keeps_id) | (extract_lets) | (split)
    | (with_reducible apply keeps_ite) | (dsimp -zeta only) | (dsimp -zeta +zetaDelta only)
    | (with_reducible apply keeps_with_gov) | (with_reducible apply keeps_upd) | (exact Nat.le_refl _) | rfl
    | (exact Nat.le_add_right _ _) | (exact SMap.wf_filter _ (by with_reducible assumption) _))

theorem keeps_execSeedCommit (fn s) (hs : Keeps s₀ s) {w : State} (eq : execSeedCommit fn s = .next w) : Keeps s₀ w := by
  unfold execSeedCommit at eq
  injection eq with eq
  subst eq
  repeat' (first
    | (with_reducible assumption) | (with_reducible intro _) | (with_reducible apply keeps_posted)
    | (with_reducible apply keeps_ownerWrite) | (with_reducible apply keeps_seedCommit) | (with_reducible apply keeps_foldl)
    | (with_reducible apply keeps_id) | (extract_lets) | (split) | (with_reducible apply keeps_ite) | (dsimp -zeta only)
    | (dsimp -zeta +zetaDelta only))

theorem keeps_seedLoad (s) (hs : Keeps s₀ s) : Keeps s₀ (seedLoad s) := by
  unfold seedLoad
  repeat' (first
    | (with_reducible assumption) | (with_reducible intro _) | (with_reducible apply keeps_State_setReg64)
    | (with_reducible apply keeps_foldl) | (with_reducible apply keeps_id) | (extract_lets) | (split)
    | (with_reducible apply keeps_ite) | (dsimp -zeta only) | (dsimp -zeta +zetaDelta only))

theorem keeps_execSeedLoad (fn s) (hs : Keeps s₀ s) {w : State} (eq : execSeedLoad fn s = .next w) : Keeps s₀ w := by
  unfold execSeedLoad at eq
  injection eq with eq
  subst eq
  repeat' (first
    | (with_reducible assumption) | (with_reducible intro _) | (with_reducible apply keeps_posted)
    | (with_reducible apply keeps_ownerWrite) | (with_reducible apply keeps_seedLoad) | (with_reducible apply keeps_foldl)
    | (with_reducible apply keeps_id) | (extract_lets) | (split) | (with_reducible apply keeps_ite) | (dsimp -zeta only)
    | (dsimp -zeta +zetaDelta only))

theorem keeps_statQueueRelease (d s) (hs : Keeps s₀ s) : Keeps s₀ (statQueueRelease d s) := by
  unfold statQueueRelease
  repeat' (first
    | (with_reducible assumption) | (with_reducible intro _) | (with_reducible apply keeps_drainDie)
    | (with_reducible apply keeps_State_when) | (with_reducible apply keeps_takeStat) | (with_reducible apply keeps_foldl)
    | (with_reducible apply keeps_id) | (extract_lets) | (split) | (with_reducible apply keeps_ite) | (dsimp -zeta only)
    | (dsimp -zeta +zetaDelta only))

theorem keeps_execStatQueueRelease (d s) (hs : Keeps s₀ s) {w : State} (eq : execStatQueueRelease d s = .next w) : Keeps s₀ w := by
  unfold execStatQueueRelease at eq
  injection eq with eq
  subst eq
  repeat' (first
    | (with_reducible assumption) | (with_reducible intro _) | (with_reducible apply keeps_statQueueRelease)
    | (with_reducible apply keeps_foldl) | (with_reducible apply keeps_id) | (extract_lets) | (split)
    | (with_reducible apply keeps_ite) | (dsimp -zeta only) | (dsimp -zeta +zetaDelta only))

theorem keeps_startBoundary (s) (hs : Keeps s₀ s) : Keeps s₀ (startBoundary s) := by
  unfold startBoundary
  repeat' (first
    | (with_reducible assumption) | (with_reducible intro _) | (with_reducible apply keeps_logStatus)
    | (with_reducible apply keeps_setPhase) | (with_reducible apply keeps_State_setFlag) | (with_reducible apply keeps_foldl)
    | (with_reducible apply keeps_id) | (extract_lets) | (split) | (with_reducible apply keeps_ite) | (dsimp -zeta only)
    | (dsimp -zeta +zetaDelta only) | (with_reducible apply keeps_with_gov) | (with_reducible apply keeps_with_cask)
    | (with_reducible apply keeps_upd) | (exact Nat.le_refl _) | rfl | (exact Nat.le_add_right _ _)
    | (exact SMap.wf_filter _ (by with_reducible assumption) _))

theorem keeps_writePtgCtrl (v s) (hs : Keeps s₀ s) : Keeps s₀ (writePtgCtrl v s) := by
  unfold writePtgCtrl
  repeat' (first
    | (with_reducible assumption) | (with_reducible intro _) | (with_reducible apply keeps_State_setRegN)
    | (with_reducible apply keeps_State_when) | (with_reducible apply keeps_State_each)
    | (with_reducible apply keeps_drainDie) | (with_reducible apply keeps_followRing)
    | (with_reducible apply keeps_startBoundary) | (with_reducible apply keeps_foldl) | (with_reducible apply keeps_id)
    | (extract_lets) | (split) | (with_reducible apply keeps_ite) | (dsimp -zeta only) | (dsimp -zeta +zetaDelta only))

theorem keeps_execStepEnd (fn v s) (hs : Keeps s₀ s) {w : State} (eq : execStepEnd fn v s = .next w) : Keeps s₀ w := by
  unfold execStepEnd at eq
  injection eq with eq
  subst eq
  repeat' (first
    | (with_reducible assumption) | (with_reducible intro _) | (with_reducible apply keeps_posted)
    | (with_reducible apply keeps_ownerWrite) | (with_reducible apply keeps_writePtgCtrl)
    | (with_reducible apply keeps_foldl) | (with_reducible apply keeps_id) | (extract_lets) | (split)
    | (with_reducible apply keeps_ite) | (dsimp -zeta only) | (dsimp -zeta +zetaDelta only))

theorem keeps_tasterWrite (act s) (hact : ∀ s, Keeps s₀ s → Keeps s₀ (act s)) (hs : Keeps s₀ s) : Keeps s₀ (tasterWrite act s) := by
  unfold tasterWrite
  repeat' (first
    | (with_reducible assumption) | (with_reducible intro _) | (with_reducible apply keeps_logStatus)
    | (with_reducible apply keeps_foldl) | (with_reducible apply keeps_id) | (apply hact) | (extract_lets) | (split)
    | (with_reducible apply keeps_ite) | (dsimp -zeta only) | (dsimp -zeta +zetaDelta only))

theorem keeps_tstEntCommit (s) (hs : Keeps s₀ s) : Keeps s₀ (tstEntCommit s) := by
  unfold tstEntCommit
  repeat' (first
    | (with_reducible assumption) | (with_reducible intro _) | (with_reducible apply keeps_State_setTaster)
    | (with_reducible apply keeps_foldl) | (with_reducible apply keeps_id) | (extract_lets) | (split)
    | (with_reducible apply keeps_ite) | (dsimp -zeta only) | (dsimp -zeta +zetaDelta only))

theorem keeps_execTstEntCommit (fn s) (hs : Keeps s₀ s) {w : State} (eq : execTstEntCommit fn s = .next w) : Keeps s₀ w := by
  unfold execTstEntCommit at eq
  injection eq with eq
  subst eq
  repeat' (first
    | (with_reducible assumption) | (with_reducible intro _) | (with_reducible apply keeps_posted)
    | (with_reducible apply keeps_ownerWrite) | (with_reducible apply keeps_tasterWrite)
    | (with_reducible apply keeps_tstEntCommit) | (with_reducible apply keeps_foldl) | (with_reducible apply keeps_id)
    | (extract_lets) | (split) | (with_reducible apply keeps_ite) | (dsimp -zeta only) | (dsimp -zeta +zetaDelta only))

theorem keeps_tstEntLoad (s) (hs : Keeps s₀ s) : Keeps s₀ (tstEntLoad s) := by
  unfold tstEntLoad
  repeat' (first
    | (with_reducible assumption) | (with_reducible intro _) | (with_reducible apply keeps_writeWords)
    | (with_reducible apply keeps_foldl) | (with_reducible apply keeps_id) | (extract_lets) | (split)
    | (with_reducible apply keeps_ite) | (dsimp -zeta only) | (dsimp -zeta +zetaDelta only))

theorem keeps_execTstEntLoad (fn s) (hs : Keeps s₀ s) {w : State} (eq : execTstEntLoad fn s = .next w) : Keeps s₀ w := by
  unfold execTstEntLoad at eq
  injection eq with eq
  subst eq
  repeat' (first
    | (with_reducible assumption) | (with_reducible intro _) | (with_reducible apply keeps_posted)
    | (with_reducible apply keeps_ownerWrite) | (with_reducible apply keeps_tasterWrite)
    | (with_reducible apply keeps_tstEntLoad) | (with_reducible apply keeps_foldl) | (with_reducible apply keeps_id)
    | (extract_lets) | (split) | (with_reducible apply keeps_ite) | (dsimp -zeta only) | (dsimp -zeta +zetaDelta only))

end Sys2Proof.Machine.Laws
end

