-- ==== Sys2Proof/Laws/KeepsTraceCmds.lean ====
section
/-! SUPPORT. Every definition of Sys2Proof/Machine/TraceCmds.lean keeps what `Keeps` names. -/

namespace Sys2Proof.Machine.Laws

variable {s₀ : State}

theorem keeps_armWriter (d s) (hs : Keeps s₀ s) : Keeps s₀ (armWriter d s) := by
  unfold armWriter
  repeat' (first
    | (with_reducible assumption) | (with_reducible intro _) | (with_reducible apply keeps_State_setFld)
    | (with_reducible apply keeps_foldl) | (with_reducible apply keeps_id) | (extract_lets) | (split)
    | (with_reducible apply keeps_ite) | (dsimp -zeta only) | (dsimp -zeta +zetaDelta only))

theorem keeps_putChase (a ch s0 s) (hs0 : Keeps s₀ s0) (hs : Keeps s₀ s) : Keeps s₀ (putChase a ch s0 s) := by
  unfold putChase
  repeat' (first
    | (with_reducible assumption) | (with_reducible intro _) | (with_reducible apply keeps_State_each)
    | (with_reducible apply keeps_fixedWrite) | (with_reducible apply keeps_foldl) | (with_reducible apply keeps_id)
    | (extract_lets) | (split) | (with_reducible apply keeps_ite) | (dsimp -zeta only) | (dsimp -zeta +zetaDelta only))

theorem keeps_putHang (d x2 s0 s) (hs0 : Keeps s₀ s0) (hs : Keeps s₀ s) : Keeps s₀ (putHang d x2 s0 s) := by
  unfold putHang
  repeat' (first
    | (with_reducible assumption) | (with_reducible intro _) | (with_reducible apply keeps_fixedWrite)
    | (with_reducible apply keeps_State_each) | (with_reducible apply keeps_putChase)
    | (with_reducible apply keeps_State_setReg64) | (with_reducible apply keeps_foldl) | (with_reducible apply keeps_id)
    | (extract_lets) | (split) | (with_reducible apply keeps_ite) | (dsimp -zeta only) | (dsimp -zeta +zetaDelta only))

theorem keeps_copyHang (s) (hs : Keeps s₀ s) : Keeps s₀ (copyHang s) := by
  unfold copyHang
  repeat' (first
    | (with_reducible assumption) | (with_reducible intro _) | (with_reducible apply keeps_putHang)
    | (with_reducible apply keeps_foldl) | (with_reducible apply keeps_id) | (extract_lets) | (split)
    | (with_reducible apply keeps_ite) | (dsimp -zeta only) | (dsimp -zeta +zetaDelta only)
    | (with_reducible apply keeps_with_hang) | (with_reducible apply keeps_upd) | (exact Nat.le_refl _) | rfl
    | (exact Nat.le_add_right _ _) | (exact SMap.wf_filter _ (by with_reducible assumption) _))

theorem keeps_latchCounters (s) (hs : Keeps s₀ s) : Keeps s₀ (latchCounters s) := by
  unfold latchCounters
  repeat' (first
    | (with_reducible assumption) | (with_reducible intro _) | (with_reducible apply keeps_foldl)
    | (with_reducible apply keeps_id) | (extract_lets) | (split) | (with_reducible apply keeps_ite) | (dsimp -zeta only)
    | (dsimp -zeta +zetaDelta only) | (with_reducible apply keeps_with_snap) | (with_reducible apply keeps_upd)
    | (exact Nat.le_refl _) | rfl | (exact Nat.le_add_right _ _) | (exact SMap.wf_filter _ (by with_reducible assumption) _))

theorem keeps_endLatch (s) (hs : Keeps s₀ s) : Keeps s₀ (endLatch s) := by
  unfold endLatch
  repeat' (first
    | (with_reducible assumption) | (with_reducible intro _) | (with_reducible apply keeps_State_when)
    | (with_reducible apply keeps_latchCounters) | (with_reducible apply keeps_foldl) | (with_reducible apply keeps_id)
    | (extract_lets) | (split) | (with_reducible apply keeps_ite) | (dsimp -zeta only) | (dsimp -zeta +zetaDelta only))

theorem keeps_snapCounters (s) (hs : Keeps s₀ s) : Keeps s₀ (snapCounters s) := by
  unfold snapCounters
  repeat' (first
    | (with_reducible assumption) | (with_reducible intro _) | (with_reducible apply keeps_latchCounters)
    | (with_reducible apply keeps_State_each) | (with_reducible apply keeps_advanceFree)
    | (with_reducible apply keeps_bothDies) | (with_reducible apply keeps_State_setReg64)
    | (with_reducible apply keeps_foldl) | (with_reducible apply keeps_id) | (extract_lets) | (split)
    | (with_reducible apply keeps_ite) | (dsimp -zeta only) | (dsimp -zeta +zetaDelta only)
    | (with_reducible apply keeps_with_snapAt) | (with_reducible apply keeps_upd) | (exact Nat.le_refl _) | rfl
    | (exact Nat.le_add_right _ _) | (exact SMap.wf_filter _ (by with_reducible assumption) _))

theorem keeps_execCounterSnap (fn s) (hs : Keeps s₀ s) {w : State} (eq : execCounterSnap fn s = .next w) : Keeps s₀ w := by
  unfold execCounterSnap at eq
  injection eq with eq
  subst eq
  repeat' (first
    | (with_reducible assumption) | (with_reducible intro _) | (with_reducible apply keeps_posted)
    | (with_reducible apply keeps_ownerWrite) | (with_reducible apply keeps_snapCounters)
    | (with_reducible apply keeps_foldl) | (with_reducible apply keeps_id) | (extract_lets) | (split)
    | (with_reducible apply keeps_ite) | (dsimp -zeta only) | (dsimp -zeta +zetaDelta only))

theorem keeps_hangCapture (s) (hs : Keeps s₀ s) : Keeps s₀ (hangCapture s) := by
  unfold hangCapture
  repeat' (first
    | (with_reducible assumption) | (with_reducible intro _) | (with_reducible apply keeps_raiseEv)
    | (with_reducible apply keeps_bothDies) | (with_reducible apply keeps_copyHang) | (with_reducible apply keeps_foldl)
    | (with_reducible apply keeps_id) | (extract_lets) | (split) | (with_reducible apply keeps_ite) | (dsimp -zeta only)
    | (dsimp -zeta +zetaDelta only) | (with_reducible apply keeps_with_hang) | (with_reducible apply keeps_upd)
    | (exact Nat.le_refl _) | rfl | (exact Nat.le_add_right _ _) | (exact SMap.wf_filter _ (by with_reducible assumption) _))

theorem keeps_execHangCapture (s) (hs : Keeps s₀ s) {w : State} (eq : execHangCapture s = .next w) : Keeps s₀ w := by
  unfold execHangCapture at eq
  injection eq with eq
  subst eq
  repeat' (first
    | (with_reducible assumption) | (with_reducible intro _) | (with_reducible apply keeps_hangCapture)
    | (with_reducible apply keeps_foldl) | (with_reducible apply keeps_id) | (extract_lets) | (split)
    | (with_reducible apply keeps_ite) | (dsimp -zeta only) | (dsimp -zeta +zetaDelta only))

theorem keeps_execHangRequest (fn s) (hs : Keeps s₀ s) {w : State} (eq : execHangRequest fn s = .next w) : Keeps s₀ w := by
  unfold execHangRequest at eq
  injection eq with eq
  subst eq
  repeat' (first
    | (with_reducible assumption) | (with_reducible intro _) | (with_reducible apply keeps_posted)
    | (with_reducible apply keeps_ownerWrite) | (with_reducible apply keeps_askHang) | (with_reducible apply keeps_foldl)
    | (with_reducible apply keeps_id) | (extract_lets) | (split) | (with_reducible apply keeps_ite) | (dsimp -zeta only)
    | (dsimp -zeta +zetaDelta only))

theorem keeps_releaseSnap (s) (hs : Keeps s₀ s) : Keeps s₀ (releaseSnap s) := by
  unfold releaseSnap
  repeat' (first
    | (with_reducible assumption) | (with_reducible intro _) | (with_reducible apply keeps_bothDies)
    | (with_reducible apply keeps_foldl) | (with_reducible apply keeps_id) | (extract_lets) | (split)
    | (with_reducible apply keeps_ite) | (dsimp -zeta only) | (dsimp -zeta +zetaDelta only))

theorem keeps_execSnapRelease (fn s) (hs : Keeps s₀ s) {w : State} (eq : execSnapRelease fn s = .next w) : Keeps s₀ w := by
  unfold execSnapRelease at eq
  injection eq with eq
  subst eq
  repeat' (first
    | (with_reducible assumption) | (with_reducible intro _) | (with_reducible apply keeps_posted)
    | (with_reducible apply keeps_ownerWrite) | (with_reducible apply keeps_releaseSnap) | (with_reducible apply keeps_foldl)
    | (with_reducible apply keeps_id) | (extract_lets) | (split) | (with_reducible apply keeps_ite) | (dsimp -zeta only)
    | (dsimp -zeta +zetaDelta only))

theorem keeps_execTraceArm (fn d s) (hs : Keeps s₀ s) {w : State} (eq : execTraceArm fn d s = .next w) : Keeps s₀ w := by
  unfold execTraceArm at eq
  injection eq with eq
  subst eq
  repeat' (first
    | (with_reducible assumption) | (with_reducible intro _) | (with_reducible apply keeps_posted)
    | (with_reducible apply keeps_ownerWrite) | (with_reducible apply keeps_armWriter) | (with_reducible apply keeps_foldl)
    | (with_reducible apply keeps_id) | (extract_lets) | (split) | (with_reducible apply keeps_ite) | (dsimp -zeta only)
    | (dsimp -zeta +zetaDelta only))

theorem keeps_softTrigger (d s) (hs : Keeps s₀ s) : Keeps s₀ (softTrigger d s) := by
  unfold softTrigger
  repeat' (first
    | (with_reducible assumption) | (with_reducible intro _) | (with_reducible apply keeps_trigger)
    | (with_reducible apply keeps_foldl) | (with_reducible apply keeps_id) | (extract_lets) | (split)
    | (with_reducible apply keeps_ite) | (dsimp -zeta only) | (dsimp -zeta +zetaDelta only))

theorem keeps_trcActions (d v s) (hs : Keeps s₀ s) : Keeps s₀ (trcActions d v s) := by
  unfold trcActions
  repeat' (first
    | (with_reducible assumption) | (with_reducible intro _) | (with_reducible apply keeps_State_when)
    | (with_reducible apply keeps_softTrigger) | (with_reducible apply keeps_armWriter)
    | (with_reducible apply keeps_snapCounters) | (with_reducible apply keeps_releaseSnap)
    | (with_reducible apply keeps_askHang) | (with_reducible apply keeps_foldl) | (with_reducible apply keeps_id)
    | (extract_lets) | (split) | (with_reducible apply keeps_ite) | (dsimp -zeta only) | (dsimp -zeta +zetaDelta only))

theorem keeps_startWriter (d s) (hs : Keeps s₀ s) : Keeps s₀ (startWriter d s) := by
  unfold startWriter
  repeat' (first
    | (with_reducible assumption) | (with_reducible intro _) | (with_reducible apply keeps_State_setFlag)
    | (with_reducible apply keeps_State_setFld) | (with_reducible apply keeps_State_setRegN)
    | (with_reducible apply keeps_State_setTrw) | (with_reducible apply keeps_logStatus) | (with_reducible apply keeps_foldl)
    | (with_reducible apply keeps_id) | (extract_lets) | (split) | (with_reducible apply keeps_ite) | (dsimp -zeta only)
    | (dsimp -zeta +zetaDelta only))

theorem keeps_stopWriter (d s) (hs : Keeps s₀ s) : Keeps s₀ (stopWriter d s) := by
  unfold stopWriter
  repeat' (first
    | (with_reducible assumption) | (with_reducible intro _) | (with_reducible apply keeps_State_when)
    | (with_reducible apply keeps_State_setNum) | (with_reducible apply keeps_copyFirst)
    | (with_reducible apply keeps_State_setFld) | (with_reducible apply keeps_State_setFlag)
    | (with_reducible apply keeps_foldl) | (with_reducible apply keeps_id) | (extract_lets) | (split)
    | (with_reducible apply keeps_ite) | (dsimp -zeta only) | (dsimp -zeta +zetaDelta only))

theorem keeps_trcFields (d v s) (hs : Keeps s₀ s) : Keeps s₀ (trcFields d v s) := by
  unfold trcFields
  repeat' (first
    | (with_reducible assumption) | (with_reducible intro _) | (with_reducible apply keeps_State_when)
    | (with_reducible apply keeps_State_setFlag) | (with_reducible apply keeps_logStatus)
    | (with_reducible apply keeps_State_setFld) | (with_reducible apply keeps_startWriter)
    | (with_reducible apply keeps_stopWriter) | (with_reducible apply keeps_foldl) | (with_reducible apply keeps_id)
    | (extract_lets) | (split) | (with_reducible apply keeps_ite) | (dsimp -zeta only) | (dsimp -zeta +zetaDelta only))

theorem keeps_writeTrcCtrl (d v s) (hs : Keeps s₀ s) : Keeps s₀ (writeTrcCtrl d v s) := by
  unfold writeTrcCtrl
  repeat' (first
    | (with_reducible assumption) | (with_reducible intro _) | (with_reducible apply keeps_trcActions)
    | (with_reducible apply keeps_trcFields) | (with_reducible apply keeps_foldl) | (with_reducible apply keeps_id)
    | (extract_lets) | (split) | (with_reducible apply keeps_ite) | (dsimp -zeta only) | (dsimp -zeta +zetaDelta only))

theorem keeps_execTraceEnable (fn d v s) (hs : Keeps s₀ s) {w : State} (eq : execTraceEnable fn d v s = .next w) : Keeps s₀ w := by
  unfold execTraceEnable at eq
  injection eq with eq
  subst eq
  repeat' (first
    | (with_reducible assumption) | (with_reducible intro _) | (with_reducible apply keeps_posted)
    | (with_reducible apply keeps_ownerWrite) | (with_reducible apply keeps_writeTrcCtrl)
    | (with_reducible apply keeps_foldl) | (with_reducible apply keeps_id) | (extract_lets) | (split)
    | (with_reducible apply keeps_ite) | (dsimp -zeta only) | (dsimp -zeta +zetaDelta only))

theorem keeps_traceFreeze (d s) (hs : Keeps s₀ s) : Keeps s₀ (traceFreeze d s) := by
  unfold traceFreeze
  repeat' (first
    | (with_reducible assumption) | (with_reducible intro _) | (with_reducible apply keeps_raiseEv)
    | (with_reducible apply keeps_State_setFld) | (with_reducible apply keeps_foldl) | (with_reducible apply keeps_id)
    | (extract_lets) | (split) | (with_reducible apply keeps_ite) | (dsimp -zeta only) | (dsimp -zeta +zetaDelta only))

theorem keeps_execTraceFreeze (d s) (hs : Keeps s₀ s) {w : State} (eq : execTraceFreeze d s = .next w) : Keeps s₀ w := by
  unfold execTraceFreeze at eq
  injection eq with eq
  subst eq
  repeat' (first
    | (with_reducible assumption) | (with_reducible intro _) | (with_reducible apply keeps_traceFreeze)
    | (with_reducible apply keeps_foldl) | (with_reducible apply keeps_id) | (extract_lets) | (split)
    | (with_reducible apply keeps_ite) | (dsimp -zeta only) | (dsimp -zeta +zetaDelta only))

theorem keeps_traceSpill (d s) (hs : Keeps s₀ s) : Keeps s₀ (traceSpill d s) := by
  unfold traceSpill
  repeat' (first
    | (with_reducible assumption) | (with_reducible intro _) | (with_reducible apply keeps_State_setBytes)
    | (with_reducible apply keeps_State_setFld) | (with_reducible apply keeps_State_when)
    | (with_reducible apply keeps_State_setFlag) | (with_reducible apply keeps_cellarPulse)
    | (with_reducible apply keeps_State_setTrw) | (with_reducible apply keeps_putRec) | (with_reducible apply keeps_foldl)
    | (with_reducible apply keeps_id) | (extract_lets) | (split) | (with_reducible apply keeps_ite) | (dsimp -zeta only)
    | (dsimp -zeta +zetaDelta only))

theorem keeps_execTraceSpill (d s) (hs : Keeps s₀ s) {w : State} (eq : execTraceSpill d s = .next w) : Keeps s₀ w := by
  unfold execTraceSpill at eq
  injection eq with eq
  subst eq
  repeat' (first
    | (with_reducible assumption) | (with_reducible intro _) | (with_reducible apply keeps_traceSpill)
    | (with_reducible apply keeps_foldl) | (with_reducible apply keeps_id) | (extract_lets) | (split)
    | (with_reducible apply keeps_ite) | (dsimp -zeta only) | (dsimp -zeta +zetaDelta only))

theorem keeps_traceTimeTrigger (d s) (hs : Keeps s₀ s) : Keeps s₀ (traceTimeTrigger d s) := by
  unfold traceTimeTrigger
  repeat' (first
    | (with_reducible assumption) | (with_reducible intro _) | (with_reducible apply keeps_trigger)
    | (with_reducible apply keeps_foldl) | (with_reducible apply keeps_id) | (extract_lets) | (split)
    | (with_reducible apply keeps_ite) | (dsimp -zeta only) | (dsimp -zeta +zetaDelta only))

theorem keeps_execTraceTimeTrigger (d s) (hs : Keeps s₀ s) {w : State} (eq : execTraceTimeTrigger d s = .next w) : Keeps s₀ w := by
  unfold execTraceTimeTrigger at eq
  injection eq with eq
  subst eq
  repeat' (first
    | (with_reducible assumption) | (with_reducible intro _) | (with_reducible apply keeps_traceTimeTrigger)
    | (with_reducible apply keeps_foldl) | (with_reducible apply keeps_id) | (extract_lets) | (split)
    | (with_reducible apply keeps_ite) | (dsimp -zeta only) | (dsimp -zeta +zetaDelta only))

theorem keeps_execTraceTrigger (fn d s) (hs : Keeps s₀ s) {w : State} (eq : execTraceTrigger fn d s = .next w) : Keeps s₀ w := by
  unfold execTraceTrigger at eq
  injection eq with eq
  subst eq
  repeat' (first
    | (with_reducible assumption) | (with_reducible intro _) | (with_reducible apply keeps_posted)
    | (with_reducible apply keeps_ownerWrite) | (with_reducible apply keeps_softTrigger) | (with_reducible apply keeps_foldl)
    | (with_reducible apply keeps_id) | (extract_lets) | (split) | (with_reducible apply keeps_ite) | (dsimp -zeta only)
    | (dsimp -zeta +zetaDelta only))

theorem keeps_moveTrace (d s) (hs : Keeps s₀ s) : Keeps s₀ (moveTrace d s) := by
  unfold moveTrace
  repeat' (first
    | (with_reducible assumption) | (with_reducible intro _) | (with_reducible apply keeps_takeRec)
    | (with_reducible apply keeps_State_setTrw) | (with_reducible apply keeps_State_setTrq)
    | (with_reducible apply keeps_foldl) | (with_reducible apply keeps_id) | (extract_lets) | (split)
    | (with_reducible apply keeps_ite) | (dsimp -zeta only) | (dsimp -zeta +zetaDelta only))

theorem keeps_traceWrite (d s) (hs : Keeps s₀ s) : Keeps s₀ (traceWrite d s) := by
  unfold traceWrite
  repeat' (first
    | (with_reducible assumption) | (with_reducible intro _) | (with_reducible apply keeps_moveTrace)
    | (with_reducible apply keeps_foldl) | (with_reducible apply keeps_id) | (extract_lets) | (split)
    | (with_reducible apply keeps_ite) | (dsimp -zeta only) | (dsimp -zeta +zetaDelta only))

theorem keeps_execTraceWrite (d s) (hs : Keeps s₀ s) {w : State} (eq : execTraceWrite d s = .next w) : Keeps s₀ w := by
  unfold execTraceWrite at eq
  injection eq with eq
  subst eq
  repeat' (first
    | (with_reducible assumption) | (with_reducible intro _) | (with_reducible apply keeps_traceWrite)
    | (with_reducible apply keeps_foldl) | (with_reducible apply keeps_id) | (extract_lets) | (split)
    | (with_reducible apply keeps_ite) | (dsimp -zeta only) | (dsimp -zeta +zetaDelta only))

end Sys2Proof.Machine.Laws
end

