-- ==== Sys2Proof/Laws/KeepsMonitor.lean ====
section
/-! SUPPORT. Every definition of Sys2Proof/Machine/Monitor.lean keeps what `Keeps` names. -/

namespace Sys2Proof.Machine.Laws

variable {s₀ : State}

theorem keeps_applyDuty (d f s) (hs : Keeps s₀ s) : Keeps s₀ (applyDuty d f s) := by
  unfold applyDuty
  repeat' (first
    | (with_reducible assumption) | (with_reducible intro _) | (with_reducible apply keeps_State_setRegN)
    | (with_reducible apply keeps_foldl) | (with_reducible apply keeps_id) | (extract_lets) | (split)
    | (with_reducible apply keeps_ite) | (dsimp -zeta only) | (dsimp -zeta +zetaDelta only))

theorem keeps_sensorEvent (d n st s) (hs : Keeps s₀ s) : Keeps s₀ (sensorEvent d n st s) := by
  unfold sensorEvent
  repeat' (first
    | (with_reducible assumption) | (with_reducible intro _) | (with_reducible apply keeps_queueEvent)
    | (with_reducible apply keeps_foldl) | (with_reducible apply keeps_id) | (extract_lets) | (split)
    | (with_reducible apply keeps_ite) | (dsimp -zeta only) | (dsimp -zeta +zetaDelta only))

theorem keeps_sensorRecord (d n v s) (hs : Keeps s₀ s) : Keeps s₀ (sensorRecord d n v s) := by
  unfold sensorRecord
  repeat' (first
    | (with_reducible assumption) | (with_reducible intro _) | (with_reducible apply keeps_colAppend)
    | (with_reducible apply keeps_foldl) | (with_reducible apply keeps_id) | (extract_lets) | (split)
    | (with_reducible apply keeps_ite) | (dsimp -zeta only) | (dsimp -zeta +zetaDelta only))

theorem keeps_badSensor (d n v s) (hs : Keeps s₀ s) : Keeps s₀ (badSensor d n v s) := by
  unfold badSensor
  repeat' (first
    | (with_reducible assumption) | (with_reducible intro _) | (with_reducible apply keeps_State_setMon)
    | (with_reducible apply keeps_sensorEvent) | (with_reducible apply keeps_sensorRecord)
    | (with_reducible apply keeps_raiseEv) | (with_reducible apply keeps_State_bump) | (with_reducible apply keeps_foldl)
    | (with_reducible apply keeps_id) | (extract_lets) | (split) | (with_reducible apply keeps_ite) | (dsimp -zeta only)
    | (dsimp -zeta +zetaDelta only))

theorem keeps_freeData (n s) (hs : Keeps s₀ s) : Keeps s₀ (freeData n s) := by
  induction n generalizing s with
  | zero => exact hs
  | succ n ih => exact ih _ (keeps_State_setRegN _ _ _ (keeps_State_takeFree_snd _ hs))

theorem keeps_readRecord (d n s) (hs : Keeps s₀ s) : Keeps s₀ (readRecord d n s) := by
  unfold readRecord
  repeat' (first
    | (with_reducible assumption) | (with_reducible intro _) | (with_reducible apply keeps_State_setFlag)
    | (with_reducible apply keeps_freeData) | (with_reducible apply keeps_State_each)
    | (with_reducible apply keeps_State_setRegN) | (with_reducible apply keeps_State_when)
    | (with_reducible apply keeps_colAppend) | (with_reducible apply keeps_foldl) | (with_reducible apply keeps_id)
    | (extract_lets) | (split) | (with_reducible apply keeps_ite) | (dsimp -zeta only) | (dsimp -zeta +zetaDelta only))

theorem keeps_cellarFree (s) (hs : Keeps s₀ s) : Keeps s₀ (cellarFree s) := by
  unfold cellarFree
  repeat' (first
    | (with_reducible assumption) | (with_reducible intro _) | (with_reducible apply keeps_colFlush)
    | (with_reducible apply keeps_readRecord) | (with_reducible apply keeps_foldl) | (with_reducible apply keeps_id)
    | (extract_lets) | (split) | (with_reducible apply keeps_ite) | (dsimp -zeta only) | (dsimp -zeta +zetaDelta only)
    | (with_reducible apply keeps_upd) | (exact Nat.le_refl _) | rfl | (exact Nat.le_add_right _ _)
    | (exact SMap.wf_filter _ (by with_reducible assumption) _))

theorem keeps_checkProof (d s) (hs : Keeps s₀ s) : Keeps s₀ (checkProof d s) := by
  unfold checkProof
  repeat' (first
    | (with_reducible assumption) | (with_reducible intro _) | (with_reducible apply keeps_raiseEv)
    | (with_reducible apply keeps_State_setMon) | (with_reducible apply keeps_foldl) | (with_reducible apply keeps_id)
    | (extract_lets) | (split) | (with_reducible apply keeps_ite) | (dsimp -zeta only) | (dsimp -zeta +zetaDelta only))

theorem keeps_clrAppend (s) (hs : Keeps s₀ s) : Keeps s₀ (clrAppend s) := by
  unfold clrAppend
  repeat' (first
    | (with_reducible assumption) | (with_reducible intro _) | (with_reducible apply keeps_colAppend)
    | (with_reducible apply keeps_foldl) | (with_reducible apply keeps_id) | (extract_lets) | (split)
    | (with_reducible apply keeps_ite) | (dsimp -zeta only) | (dsimp -zeta +zetaDelta only)
    | (with_reducible apply keeps_upd) | (exact Nat.le_refl _) | rfl | (exact Nat.le_add_right _ _)
    | (exact SMap.wf_filter _ (by with_reducible assumption) _))

theorem keeps_clrRead (s) (hs : Keeps s₀ s) : Keeps s₀ (clrRead s) := by
  unfold clrRead
  repeat' (first
    | (with_reducible assumption) | (with_reducible intro _) | (with_reducible apply keeps_readRecord)
    | (with_reducible apply keeps_foldl) | (with_reducible apply keeps_id) | (extract_lets) | (split)
    | (with_reducible apply keeps_ite) | (dsimp -zeta only) | (dsimp -zeta +zetaDelta only)
    | (with_reducible apply keeps_upd) | (exact Nat.le_refl _) | rfl | (exact Nat.le_add_right _ _)
    | (exact SMap.wf_filter _ (by with_reducible assumption) _))

theorem keeps_clrCmd (v s) (hs : Keeps s₀ s) : Keeps s₀ (clrCmd v s) := by
  unfold clrCmd
  repeat' (first
    | (with_reducible assumption) | (with_reducible intro _) | (with_reducible apply keeps_logStatus)
    | (with_reducible apply keeps_State_when) | (with_reducible apply keeps_clrRead) | (with_reducible apply keeps_clrAppend)
    | (with_reducible apply keeps_foldl) | (with_reducible apply keeps_id) | (extract_lets) | (split)
    | (with_reducible apply keeps_ite) | (dsimp -zeta only) | (dsimp -zeta +zetaDelta only))

theorem keeps_crossing (d n level thr v s) (hs : Keeps s₀ s) : Keeps s₀ (crossing d n level thr v s) := by
  unfold crossing
  repeat' (first
    | (with_reducible assumption) | (with_reducible intro _) | (with_reducible apply keeps_State_setMon)
    | (with_reducible apply keeps_sensorEvent) | (with_reducible apply keeps_sensorRecord)
    | (with_reducible apply keeps_raiseEv) | (with_reducible apply keeps_foldl) | (with_reducible apply keeps_id)
    | (extract_lets) | (split) | (with_reducible apply keeps_ite) | (dsimp -zeta only) | (dsimp -zeta +zetaDelta only))

theorem keeps_crossings (d n v s) (hs : Keeps s₀ s) : Keeps s₀ (crossings d n v s) := by
  unfold crossings
  repeat' (first
    | (with_reducible assumption) | (with_reducible intro _) | (with_reducible apply keeps_crossing)
    | (with_reducible apply keeps_foldl) | (with_reducible apply keeps_id) | (extract_lets) | (split)
    | (with_reducible apply keeps_ite) | (dsimp -zeta only) | (dsimp -zeta +zetaDelta only))

theorem keeps_droop (d i mv cycles s) (hs : Keeps s₀ s) : Keeps s₀ (droop d i mv cycles s) := by
  unfold droop
  repeat' (first
    | (with_reducible assumption) | (with_reducible intro _) | (with_reducible apply keeps_State_setMon)
    | (with_reducible apply keeps_raiseEv) | (with_reducible apply keeps_State_bump) | (with_reducible apply keeps_foldl)
    | (with_reducible apply keeps_id) | (extract_lets) | (split) | (with_reducible apply keeps_ite) | (dsimp -zeta only)
    | (dsimp -zeta +zetaDelta only))

theorem keeps_freeToks_snd (n s) (hs : Keeps s₀ s) : Keeps s₀ (freeToks n s).2 := by
  induction n generalizing s with
  | zero => exact hs
  | succ n ih => exact ih _ (keeps_State_takeFree_snd _ (keeps_State_takeFree_snd _ hs))

theorem keeps_freeToks (n s) {r} {t : State} (hs : Keeps s₀ s) (e : freeToks n s = (r, t)) : Keeps s₀ t := by
  have := keeps_freeToks_snd n s hs
  rwa [e] at this

theorem keeps_freeCredits_snd (n c s) (hs : Keeps s₀ s) : Keeps s₀ (freeCredits n c s).2 := by
  induction n generalizing c s with
  | zero => exact hs
  | succ n ih => exact ih _ _ (keeps_State_takeFree_snd _ hs)

theorem keeps_freeCredits (n c s) {r} {t : State} (hs : Keeps s₀ s) (e : freeCredits n c s = (r, t)) : Keeps s₀ t := by
  have := keeps_freeCredits_snd n c s hs
  rwa [e] at this

theorem keeps_testChase (ch s) (hs : Keeps s₀ s) : Keeps s₀ (testChase ch s) := by
  unfold testChase
  repeat' (first
    | (with_reducible assumption) | (with_reducible intro _)
    | (refine keeps_State_takeFree _ ?_ (by with_reducible assumption))
    | (refine keeps_freeToks _ _ ?_ (by with_reducible assumption))
    | (refine keeps_freeCredits _ _ _ ?_ (by with_reducible assumption)) | (with_reducible apply keeps_State_scramble)
    | (with_reducible apply keeps_State_takeFree_snd) | (with_reducible apply keeps_freeToks_snd)
    | (with_reducible apply keeps_freeCredits_snd) | (with_reducible apply keeps_State_setCore)
    | (with_reducible apply keeps_State_setUnit) | (with_reducible apply keeps_foldl) | (with_reducible apply keeps_id)
    | (extract_lets) | (split) | (with_reducible apply keeps_ite) | (dsimp -zeta only) | (dsimp -zeta +zetaDelta only))

theorem keeps_fenceFailed (d s i) (hs : Keeps s₀ s) : Keeps s₀ (fenceFailed d s i) := by
  unfold fenceFailed
  repeat' (first
    | (with_reducible assumption) | (with_reducible intro _) | (with_reducible apply keeps_State_setFlag)
    | (with_reducible apply keeps_State_when) | (with_reducible apply keeps_foldl) | (with_reducible apply keeps_id)
    | (extract_lets) | (split) | (with_reducible apply keeps_ite) | (dsimp -zeta only) | (dsimp -zeta +zetaDelta only)
    | (with_reducible apply keeps_upd) | (exact Nat.le_refl _) | rfl | (exact Nat.le_add_right _ _)
    | (exact SMap.wf_filter _ (by with_reducible assumption) _))

theorem keeps_endTest (d mv failed t s) (hs : Keeps s₀ s) : Keeps s₀ (endTest d mv failed t s) := by
  unfold endTest
  repeat' (first
    | (with_reducible assumption) | (with_reducible intro _) | (with_reducible apply keeps_State_each)
    | (with_reducible apply keeps_testChase) | (with_reducible apply keeps_State_when)
    | (with_reducible apply keeps_fenceFailed) | (with_reducible apply keeps_State_setRegN)
    | (with_reducible apply keeps_State_setFlag) | (with_reducible apply keeps_State_setMon)
    | (with_reducible apply keeps_State_setFld) | (with_reducible apply keeps_raiseEv)
    | (with_reducible apply keeps_State_bump) | (with_reducible apply keeps_queueEvent)
    | (with_reducible apply keeps_colAppend) | (with_reducible apply keeps_writeRepairs) | (with_reducible apply keeps_foldl)
    | (with_reducible apply keeps_id) | (extract_lets) | (split) | (with_reducible apply keeps_ite) | (dsimp -zeta only)
    | (dsimp -zeta +zetaDelta only))

theorem keeps_execClrAppend (fn s) (hs : Keeps s₀ s) {w : State} (eq : execClrAppend fn s = .next w) : Keeps s₀ w := by
  unfold execClrAppend at eq
  injection eq with eq
  subst eq
  repeat' (first
    | (with_reducible assumption) | (with_reducible intro _) | (with_reducible apply keeps_posted)
    | (with_reducible apply keeps_ownerWrite) | (with_reducible apply keeps_clrCmd) | (with_reducible apply keeps_foldl)
    | (with_reducible apply keeps_id) | (extract_lets) | (split) | (with_reducible apply keeps_ite) | (dsimp -zeta only)
    | (dsimp -zeta +zetaDelta only))

theorem keeps_execClrRead (fn s) (hs : Keeps s₀ s) {w : State} (eq : execClrRead fn s = .next w) : Keeps s₀ w := by
  unfold execClrRead at eq
  injection eq with eq
  subst eq
  repeat' (first
    | (with_reducible assumption) | (with_reducible intro _) | (with_reducible apply keeps_posted)
    | (with_reducible apply keeps_ownerWrite) | (with_reducible apply keeps_clrCmd) | (with_reducible apply keeps_foldl)
    | (with_reducible apply keeps_id) | (extract_lets) | (split) | (with_reducible apply keeps_ite) | (dsimp -zeta only)
    | (dsimp -zeta +zetaDelta only))

theorem keeps_execColophonAppend (d type payload s) (hs : Keeps s₀ s) {w : State} (eq : execColophonAppend d type payload s = .next w) : Keeps s₀ w := by
  unfold execColophonAppend at eq
  injection eq with eq
  subst eq
  repeat' (first
    | (with_reducible assumption) | (with_reducible intro _) | (with_reducible apply keeps_colAppend)
    | (with_reducible apply keeps_foldl) | (with_reducible apply keeps_id) | (extract_lets) | (split)
    | (with_reducible apply keeps_ite) | (dsimp -zeta only) | (dsimp -zeta +zetaDelta only))

theorem keeps_periodic (d s) (hs : Keeps s₀ s) : Keeps s₀ (periodic d s) := by
  unfold periodic
  repeat' (first
    | (with_reducible assumption) | (with_reducible intro _)
    | (refine keeps_State_takeFree _ ?_ (by with_reducible assumption)) | (with_reducible apply keeps_State_each)
    | (with_reducible apply keeps_advanceFree) | (with_reducible apply keeps_colAppend)
    | (with_reducible apply keeps_State_takeFree_snd) | (with_reducible apply keeps_State_setMon)
    | (with_reducible apply keeps_foldl) | (with_reducible apply keeps_id) | (extract_lets) | (split)
    | (with_reducible apply keeps_ite) | (dsimp -zeta only) | (dsimp -zeta +zetaDelta only))

theorem keeps_execColophonPeriodic (s) (hs : Keeps s₀ s) {w : State} (eq : execColophonPeriodic s = .next w) : Keeps s₀ w := by
  unfold execColophonPeriodic at eq
  injection eq with eq
  subst eq
  repeat' (first
    | (with_reducible assumption) | (with_reducible intro _) | (with_reducible apply keeps_periodic)
    | (with_reducible apply keeps_foldl) | (with_reducible apply keeps_id) | (extract_lets) | (split)
    | (with_reducible apply keeps_ite) | (dsimp -zeta only) | (dsimp -zeta +zetaDelta only))

theorem keeps_execDroop (d k s) (hs : Keeps s₀ s) {w : State} (eq : execDroop d k s = .next w) : Keeps s₀ w := by
  unfold execDroop at eq
  injection eq with eq
  subst eq
  repeat' (first
    | (with_reducible assumption) | (with_reducible intro _) | (with_reducible apply keeps_droop)
    | (with_reducible apply keeps_foldl) | (with_reducible apply keeps_id) | (extract_lets) | (split)
    | (with_reducible apply keeps_ite) | (dsimp -zeta only) | (dsimp -zeta +zetaDelta only))

theorem keeps_marginDone (d mv failed s) (hs : Keeps s₀ s) : Keeps s₀ (marginDone d mv failed s) := by
  unfold marginDone
  repeat' (first
    | (with_reducible assumption) | (with_reducible intro _) | (with_reducible apply keeps_endTest)
    | (with_reducible apply keeps_foldl) | (with_reducible apply keeps_id) | (extract_lets) | (split)
    | (with_reducible apply keeps_ite) | (dsimp -zeta only) | (dsimp -zeta +zetaDelta only))

theorem keeps_execMarginDone (d mv failed s) (hs : Keeps s₀ s) {w : State} (eq : execMarginDone d mv failed s = .next w) : Keeps s₀ w := by
  unfold execMarginDone at eq
  injection eq with eq
  subst eq
  repeat' (first
    | (with_reducible assumption) | (with_reducible intro _) | (with_reducible apply keeps_marginDone)
    | (with_reducible apply keeps_foldl) | (with_reducible apply keeps_id) | (extract_lets) | (split)
    | (with_reducible apply keeps_ite) | (dsimp -zeta only) | (dsimp -zeta +zetaDelta only))

theorem keeps_startTest (d s) (hs : Keeps s₀ s) : Keeps s₀ (startTest d s) := by
  unfold startTest
  repeat' (first
    | (with_reducible assumption) | (with_reducible intro _) | (with_reducible apply keeps_hostWakeFail)
    | (with_reducible apply keeps_startWake) | (with_reducible apply keeps_State_setFlag)
    | (with_reducible apply keeps_State_setMon) | (with_reducible apply keeps_State_setFld)
    | (with_reducible apply keeps_foldl) | (with_reducible apply keeps_id) | (extract_lets) | (split)
    | (with_reducible apply keeps_ite) | (dsimp -zeta only) | (dsimp -zeta +zetaDelta only))

theorem keeps_writeMarginCmd (d v s) (hs : Keeps s₀ s) : Keeps s₀ (writeMarginCmd d v s) := by
  unfold writeMarginCmd
  repeat' (first
    | (with_reducible assumption) | (with_reducible intro _) | (with_reducible apply keeps_State_when)
    | (with_reducible apply keeps_State_setFld) | (with_reducible apply keeps_logStatus)
    | (with_reducible apply keeps_State_setRegN) | (with_reducible apply keeps_startTest)
    | (with_reducible apply keeps_foldl) | (with_reducible apply keeps_id) | (extract_lets) | (split)
    | (with_reducible apply keeps_ite) | (dsimp -zeta only) | (dsimp -zeta +zetaDelta only))

theorem keeps_execMarginStart (fn d v s) (hs : Keeps s₀ s) {w : State} (eq : execMarginStart fn d v s = .next w) : Keeps s₀ w := by
  unfold execMarginStart at eq
  injection eq with eq
  subst eq
  repeat' (first
    | (with_reducible assumption) | (with_reducible intro _) | (with_reducible apply keeps_posted)
    | (with_reducible apply keeps_ownerWrite) | (with_reducible apply keeps_writeMarginCmd)
    | (with_reducible apply keeps_foldl) | (with_reducible apply keeps_id) | (extract_lets) | (split)
    | (with_reducible apply keeps_ite) | (dsimp -zeta only) | (dsimp -zeta +zetaDelta only))

theorem keeps_pfOrMzm (fn off act s) (hact : ∀ s, Keeps s₀ s → Keeps s₀ (act s)) (hs : Keeps s₀ s) : Keeps s₀ (pfOrMzm fn off act s) := by
  unfold pfOrMzm
  repeat' (first
    | (with_reducible assumption) | (with_reducible intro _) | (with_reducible apply keeps_guarded)
    | (with_reducible apply keeps_foldl) | (with_reducible apply keeps_id) | (apply hact) | (extract_lets) | (split)
    | (with_reducible apply keeps_ite) | (dsimp -zeta only) | (dsimp -zeta +zetaDelta only))

theorem keeps_setProof (d on s) (hs : Keeps s₀ s) : Keeps s₀ (setProof d on s) := by
  unfold setProof
  repeat' (first
    | (with_reducible assumption) | (with_reducible intro _) | (with_reducible apply keeps_State_setFlag)
    | (with_reducible apply keeps_State_setMon) | (with_reducible apply keeps_foldl) | (with_reducible apply keeps_id)
    | (extract_lets) | (split) | (with_reducible apply keeps_ite) | (dsimp -zeta only) | (dsimp -zeta +zetaDelta only))

theorem keeps_execProofModeWrite (fn d v s) (hs : Keeps s₀ s) {w : State} (eq : execProofModeWrite fn d v s = .next w) : Keeps s₀ w := by
  unfold execProofModeWrite at eq
  injection eq with eq
  subst eq
  repeat' (first
    | (with_reducible assumption) | (with_reducible intro _) | (with_reducible apply keeps_posted)
    | (with_reducible apply keeps_pfOrMzm) | (with_reducible apply keeps_setProof) | (with_reducible apply keeps_foldl)
    | (with_reducible apply keeps_id) | (extract_lets) | (split) | (with_reducible apply keeps_ite) | (dsimp -zeta only)
    | (dsimp -zeta +zetaDelta only))

theorem keeps_goodSensor (d n v proof s) (hs : Keeps s₀ s) : Keeps s₀ (goodSensor d n v proof s) := by
  unfold goodSensor
  repeat' (first
    | (with_reducible assumption) | (with_reducible intro _) | (with_reducible apply keeps_State_when)
    | (with_reducible apply keeps_State_setMon) | (with_reducible apply keeps_crossings) | (with_reducible apply keeps_foldl)
    | (with_reducible apply keeps_id) | (extract_lets) | (split) | (with_reducible apply keeps_ite) | (dsimp -zeta only)
    | (dsimp -zeta +zetaDelta only))

theorem keeps_thermalStep (d f v s) (hs : Keeps s₀ s) : Keeps s₀ (thermalStep d f v s) := by
  unfold thermalStep
  repeat' (first
    | (with_reducible assumption) | (with_reducible intro _) | (with_reducible apply keeps_applyDuty)
    | (with_reducible apply keeps_State_setRegN) | (with_reducible apply keeps_foldl) | (with_reducible apply keeps_id)
    | (extract_lets) | (split) | (with_reducible apply keeps_ite) | (dsimp -zeta only) | (dsimp -zeta +zetaDelta only))

theorem keeps_takeReading (d n r s) (hs : Keeps s₀ s) : Keeps s₀ (takeReading d n r s) := by
  unfold takeReading
  repeat' (first
    | (with_reducible assumption) | (with_reducible intro _) | (with_reducible apply keeps_State_setRegN)
    | (with_reducible apply keeps_State_setMon) | (with_reducible apply keeps_goodSensor)
    | (with_reducible apply keeps_badSensor) | (with_reducible apply keeps_State_when)
    | (with_reducible apply keeps_thermalStep) | (with_reducible apply keeps_foldl) | (with_reducible apply keeps_id)
    | (extract_lets) | (split) | (with_reducible apply keeps_ite) | (dsimp -zeta only) | (dsimp -zeta +zetaDelta only))

theorem keeps_sensorConversion (d temps volts ros s) (hs : Keeps s₀ s) : Keeps s₀ (sensorConversion d temps volts ros s) := by
  unfold sensorConversion
  repeat' (first
    | (with_reducible assumption) | (with_reducible intro _) | (with_reducible apply keeps_State_each)
    | (with_reducible apply keeps_takeReading) | (with_reducible apply keeps_checkProof) | (with_reducible apply keeps_foldl)
    | (with_reducible apply keeps_id) | (extract_lets) | (split) | (with_reducible apply keeps_ite) | (dsimp -zeta only)
    | (dsimp -zeta +zetaDelta only))

theorem keeps_execSensorConversion (d temps volts ros s) (hs : Keeps s₀ s) {w : State} (eq : execSensorConversion d temps volts ros s = .next w) : Keeps s₀ w := by
  unfold execSensorConversion at eq
  injection eq with eq
  subst eq
  repeat' (first
    | (with_reducible assumption) | (with_reducible intro _) | (with_reducible apply keeps_sensorConversion)
    | (with_reducible apply keeps_foldl) | (with_reducible apply keeps_id) | (extract_lets) | (split)
    | (with_reducible apply keeps_ite) | (dsimp -zeta only) | (dsimp -zeta +zetaDelta only))

end Sys2Proof.Machine.Laws
end

