-- ==== Sys2Proof/Laws/KeepsBoot.lean ====
section
/-! SUPPORT. Every definition of Sys2Proof/Machine/Boot.lean keeps what `Keeps` names. -/

namespace Sys2Proof.Machine.Laws

variable {s₀ : State}

theorem keeps_abortAcross (s) (hs : Keeps s₀ s) : Keeps s₀ (abortAcross s) := by
  unfold abortAcross
  repeat' (first
    | (with_reducible assumption) | (with_reducible intro _) | (with_reducible apply keeps_State_each)
    | (with_reducible apply keeps_State_setQ) | (with_reducible apply keeps_finish) | (with_reducible apply keeps_foldl)
    | (with_reducible apply keeps_id) | (extract_lets) | (split) | (with_reducible apply keeps_ite) | (dsimp -zeta only)
    | (dsimp -zeta +zetaDelta only))

theorem keeps_applyRepair (d g s) (hs : Keeps s₀ s) : Keeps s₀ (applyRepair d g s) := by
  unfold applyRepair
  repeat' (first
    | (with_reducible assumption) | (with_reducible intro _) | (with_reducible apply keeps_State_setRegN)
    | (with_reducible apply keeps_State_each) | (with_reducible apply keeps_State_when)
    | (with_reducible apply keeps_State_setFlag) | (with_reducible apply keeps_foldl) | (with_reducible apply keeps_id)
    | (extract_lets) | (split) | (with_reducible apply keeps_ite) | (dsimp -zeta only) | (dsimp -zeta +zetaDelta only))

theorem keeps_recoolant (s) (hs : Keeps s₀ s) : Keeps s₀ (recoolant s) := by
  unfold recoolant
  repeat' (first
    | (with_reducible assumption) | (with_reducible intro _) | (with_reducible apply keeps_State_setRegN)
    | (with_reducible apply keeps_foldl) | (with_reducible apply keeps_id) | (extract_lets) | (split)
    | (with_reducible apply keeps_ite) | (dsimp -zeta only) | (dsimp -zeta +zetaDelta only)
    | (with_reducible apply keeps_upd) | (exact Nat.le_refl _) | rfl | (exact Nat.le_add_right _ _)
    | (exact SMap.wf_filter _ (by with_reducible assumption) _))

theorem keeps_refreshFault (s) (hs : Keeps s₀ s) : Keeps s₀ (refreshFault s) := by
  unfold refreshFault
  repeat' (first
    | (with_reducible assumption) | (with_reducible intro _) | (with_reducible apply keeps_State_setFlag)
    | (with_reducible apply keeps_State_setFld) | (with_reducible apply keeps_foldl) | (with_reducible apply keeps_id)
    | (extract_lets) | (split) | (with_reducible apply keeps_ite) | (dsimp -zeta only) | (dsimp -zeta +zetaDelta only))

theorem keeps_restartTime (s) (hs : Keeps s₀ s) : Keeps s₀ (restartTime s) := by
  unfold restartTime
  repeat' (first
    | (with_reducible assumption) | (with_reducible intro _) | (with_reducible apply keeps_foldl)
    | (with_reducible apply keeps_id) | (extract_lets) | (split) | (with_reducible apply keeps_ite) | (dsimp -zeta only)
    | (dsimp -zeta +zetaDelta only) | (with_reducible apply keeps_with_time) | (with_reducible apply keeps_with_sync)
    | (with_reducible apply keeps_upd) | (exact Nat.le_refl _) | rfl | (exact Nat.le_add_right _ _)
    | (exact SMap.wf_filter _ (by with_reducible assumption) _))

theorem keeps_showCask (s) (hs : Keeps s₀ s) : Keeps s₀ (showCask s) := by
  unfold showCask
  repeat' (first
    | (with_reducible assumption) | (with_reducible intro _) | (with_reducible apply keeps_State_setFld)
    | (with_reducible apply keeps_State_setRegN) | (with_reducible apply keeps_State_setReg64)
    | (with_reducible apply keeps_foldl) | (with_reducible apply keeps_id) | (extract_lets) | (split)
    | (with_reducible apply keeps_ite) | (dsimp -zeta only) | (dsimp -zeta +zetaDelta only))

theorem keeps_resetState (kind s) (hs : Keeps s₀ s) : Keeps s₀ (resetState kind s) := by
  unfold resetState
  repeat' (first
    | (with_reducible assumption) | (with_reducible intro _) | (with_reducible apply keeps_restartTime)
    | (with_reducible apply keeps_showCask) | (with_reducible apply keeps_State_setRegN) | (with_reducible apply keeps_foldl)
    | (with_reducible apply keeps_id) | (extract_lets) | (split) | (with_reducible apply keeps_ite) | (dsimp -zeta only)
    | (dsimp -zeta +zetaDelta only) | (with_reducible apply keeps_with_ecc) | (with_reducible apply keeps_with_cols)
    | (with_reducible apply keeps_with_cask) | (with_reducible apply keeps_with_power)
    | (with_reducible apply keeps_with_regs) | (with_reducible apply keeps_with_events)
    | (with_reducible apply keeps_with_mons) | (with_reducible apply keeps_upd) | (exact Nat.le_refl _) | rfl
    | (exact Nat.le_add_right _ _) | (exact SMap.wf_filter _ (by with_reducible assumption) _))

theorem keeps_takeReset (kind source sub parity s) (hs : Keeps s₀ s) : Keeps s₀ (takeReset kind source sub parity s) := by
  unfold takeReset
  repeat' (first
    | (with_reducible assumption) | (with_reducible intro _) | (with_reducible apply keeps_recoolant)
    | (with_reducible apply keeps_refreshFault) | (with_reducible apply keeps_resetState)
    | (with_reducible apply keeps_State_when) | (with_reducible apply keeps_queueEvent) | (with_reducible apply keeps_foldl)
    | (with_reducible apply keeps_id) | (extract_lets) | (split) | (with_reducible apply keeps_ite) | (dsimp -zeta only)
    | (dsimp -zeta +zetaDelta only) | (with_reducible apply keeps_upd) | (exact Nat.le_refl _) | rfl
    | (exact Nat.le_add_right _ _) | (exact SMap.wf_filter _ (by with_reducible assumption) _))

theorem keeps_assertReset (source s) (hs : Keeps s₀ s) : Keeps s₀ (assertReset source s) := by
  unfold assertReset
  repeat' (first
    | (with_reducible assumption) | (with_reducible intro _) | (with_reducible apply keeps_takeReset)
    | (with_reducible apply keeps_foldl) | (with_reducible apply keeps_id) | (extract_lets) | (split)
    | (with_reducible apply keeps_ite) | (dsimp -zeta only) | (dsimp -zeta +zetaDelta only))

theorem keeps_zeroTested (s) (hs : Keeps s₀ s) : Keeps s₀ (zeroTested s) := by
  unfold zeroTested
  repeat' (first
    | (with_reducible assumption) | (with_reducible intro _) | (with_reducible apply keeps_State_each)
    | (with_reducible apply keeps_State_setCore) | (with_reducible apply keeps_State_setUnit)
    | (with_reducible apply keeps_foldl) | (with_reducible apply keeps_id) | (extract_lets) | (split)
    | (with_reducible apply keeps_ite) | (dsimp -zeta only) | (dsimp -zeta +zetaDelta only)
    | (with_reducible apply keeps_upd) | (exact Nat.le_refl _) | rfl | (exact Nat.le_add_right _ _)
    | (exact SMap.wf_filter _ (by with_reducible assumption) _))

theorem keeps_becomeReady (s) (hs : Keeps s₀ s) : Keeps s₀ (becomeReady s) := by
  unfold becomeReady
  repeat' (first
    | (with_reducible assumption) | (with_reducible intro _) | (with_reducible apply keeps_setProof)
    | (with_reducible apply keeps_zeroTested) | (with_reducible apply keeps_State_each)
    | (with_reducible apply keeps_colAppend) | (with_reducible apply keeps_raiseEv)
    | (with_reducible apply keeps_State_setFlag) | (with_reducible apply keeps_foldl) | (with_reducible apply keeps_id)
    | (extract_lets) | (split) | (with_reducible apply keeps_ite) | (dsimp -zeta only) | (dsimp -zeta +zetaDelta only))

theorem keeps_bridgeRecord (s) (hs : Keeps s₀ s) : Keeps s₀ (bridgeRecord s) := by
  unfold bridgeRecord
  repeat' (first
    | (with_reducible assumption) | (with_reducible intro _) | (with_reducible apply keeps_colBoth)
    | (with_reducible apply keeps_foldl) | (with_reducible apply keeps_id) | (extract_lets) | (split)
    | (with_reducible apply keeps_ite) | (dsimp -zeta only) | (dsimp -zeta +zetaDelta only))

theorem keeps_bridgeGoesDown (s) (hs : Keeps s₀ s) : Keeps s₀ (bridgeGoesDown s) := by
  unfold bridgeGoesDown
  repeat' (first
    | (with_reducible assumption) | (with_reducible intro _) | (with_reducible apply keeps_State_each)
    | (with_reducible apply keeps_State_setFlag) | (with_reducible apply keeps_settle)
    | (with_reducible apply keeps_abortAcross) | (with_reducible apply keeps_bridgeRecord)
    | (with_reducible apply keeps_foldl) | (with_reducible apply keeps_id) | (extract_lets) | (split)
    | (with_reducible apply keeps_ite) | (dsimp -zeta only) | (dsimp -zeta +zetaDelta only)
    | (with_reducible apply keeps_with_brgRun) | (with_reducible apply keeps_upd) | (exact Nat.le_refl _) | rfl
    | (exact Nat.le_add_right _ _) | (exact SMap.wf_filter _ (by with_reducible assumption) _))

theorem keeps_bridgeReplay (d s) (hs : Keeps s₀ s) : Keeps s₀ (bridgeReplay d s) := by
  unfold bridgeReplay
  repeat' (first
    | (with_reducible assumption) | (with_reducible intro _) | (with_reducible apply keeps_State_bump)
    | (with_reducible apply keeps_State_setFlag) | (with_reducible apply keeps_State_setRegN)
    | (with_reducible apply keeps_foldl) | (with_reducible apply keeps_id) | (extract_lets) | (split)
    | (with_reducible apply keeps_ite) | (dsimp -zeta only) | (dsimp -zeta +zetaDelta only)
    | (with_reducible apply keeps_with_brgRun) | (with_reducible apply keeps_upd) | (exact Nat.le_refl _) | rfl
    | (exact Nat.le_add_right _ _) | (exact SMap.wf_filter _ (by with_reducible assumption) _))

theorem keeps_bulkZeroDone (d s) (hs : Keeps s₀ s) : Keeps s₀ (bulkZeroDone d s) := by
  unfold bulkZeroDone
  repeat' (first
    | (with_reducible assumption) | (with_reducible intro _) | (with_reducible apply keeps_State_setFlag)
    | (with_reducible apply keeps_State_when) | (with_reducible apply keeps_raiseEv) | (with_reducible apply keeps_foldl)
    | (with_reducible apply keeps_id) | (extract_lets) | (split) | (with_reducible apply keeps_ite) | (dsimp -zeta only)
    | (dsimp -zeta +zetaDelta only))

theorem keeps_criticalError (d sub index s) (hs : Keeps s₀ s) : Keeps s₀ (criticalError d sub index s) := by
  unfold criticalError
  repeat' (first
    | (with_reducible assumption) | (with_reducible intro _) | (with_reducible apply keeps_takeReset)
    | (with_reducible apply keeps_foldl) | (with_reducible apply keeps_id) | (extract_lets) | (split)
    | (with_reducible apply keeps_ite) | (dsimp -zeta only) | (dsimp -zeta +zetaDelta only))

theorem keeps_inputRanges (old v s) (hs : Keeps s₀ s) : Keeps s₀ (inputRanges old v s) := by
  unfold inputRanges
  repeat' (first
    | (with_reducible assumption) | (with_reducible intro _) | (with_reducible apply keeps_State_when)
    | (with_reducible apply keeps_bothPower) | (with_reducible apply keeps_raiseEv) | (with_reducible apply keeps_State_bump)
    | (with_reducible apply keeps_State_setFlag) | (with_reducible apply keeps_foldl) | (with_reducible apply keeps_id)
    | (extract_lets) | (split) | (with_reducible apply keeps_ite) | (dsimp -zeta only) | (dsimp -zeta +zetaDelta only))

theorem keeps_enterRun (s) (hs : Keeps s₀ s) : Keeps s₀ (enterRun s) := by
  unfold enterRun
  repeat' (first
    | (with_reducible assumption) | (with_reducible intro _) | (with_reducible apply keeps_inputRanges)
    | (with_reducible apply keeps_refreshFault) | (with_reducible apply keeps_foldl) | (with_reducible apply keeps_id)
    | (extract_lets) | (split) | (with_reducible apply keeps_ite) | (dsimp -zeta only) | (dsimp -zeta +zetaDelta only)
    | (with_reducible apply keeps_with_power) | (with_reducible apply keeps_upd) | (exact Nat.le_refl _) | rfl
    | (exact Nat.le_add_right _ _) | (exact SMap.wf_filter _ (by with_reducible assumption) _))

theorem keeps_execBridgeDown (s) (hs : Keeps s₀ s) {w : State} (eq : execBridgeDown s = .next w) : Keeps s₀ w := by
  unfold execBridgeDown at eq
  injection eq with eq
  subst eq
  repeat' (first
    | (with_reducible assumption) | (with_reducible intro _) | (with_reducible apply keeps_bridgeGoesDown)
    | (with_reducible apply keeps_foldl) | (with_reducible apply keeps_id) | (extract_lets) | (split)
    | (with_reducible apply keeps_ite) | (dsimp -zeta only) | (dsimp -zeta +zetaDelta only))

theorem keeps_execBridgeReplay (d s) (hs : Keeps s₀ s) {w : State} (eq : execBridgeReplay d s = .next w) : Keeps s₀ w := by
  unfold execBridgeReplay at eq
  injection eq with eq
  subst eq
  repeat' (first
    | (with_reducible assumption) | (with_reducible intro _) | (with_reducible apply keeps_bridgeReplay)
    | (with_reducible apply keeps_foldl) | (with_reducible apply keeps_id) | (extract_lets) | (split)
    | (with_reducible apply keeps_ite) | (dsimp -zeta only) | (dsimp -zeta +zetaDelta only))

theorem keeps_execBulkZeroDone (d s) (hs : Keeps s₀ s) {w : State} (eq : execBulkZeroDone d s = .next w) : Keeps s₀ w := by
  unfold execBulkZeroDone at eq
  injection eq with eq
  subst eq
  repeat' (first
    | (with_reducible assumption) | (with_reducible intro _) | (with_reducible apply keeps_bulkZeroDone)
    | (with_reducible apply keeps_foldl) | (with_reducible apply keeps_id) | (extract_lets) | (split)
    | (with_reducible apply keeps_ite) | (dsimp -zeta only) | (dsimp -zeta +zetaDelta only))

theorem keeps_execCriticalStateError (d sub index s) (hs : Keeps s₀ s) {w : State} (eq : execCriticalStateError d sub index s = .next w) : Keeps s₀ w := by
  unfold execCriticalStateError at eq
  injection eq with eq
  subst eq
  repeat' (first
    | (with_reducible assumption) | (with_reducible intro _) | (with_reducible apply keeps_criticalError)
    | (with_reducible apply keeps_foldl) | (with_reducible apply keeps_id) | (extract_lets) | (split)
    | (with_reducible apply keeps_ite) | (dsimp -zeta only) | (dsimp -zeta +zetaDelta only))

theorem keeps_muzomusStart (okA okB s) (hs : Keeps s₀ s) : Keeps s₀ (muzomusStart okA okB s) := by
  unfold muzomusStart
  split
  · exact hs
  · extract_lets m a b useB img s1 s2
    have hsec : s.mzm.secure ≤ (if a || b then max m.secure img.security else m.secure) := by
      split
      · exact Nat.le_max_left _ _
      · exact Nat.le_refl _
    have h1 : Keeps s₀ s1 := keeps_upd hs id (Nat.le_refl _) hsec (Nat.le_refl _) rfl rfl rfl
    clear_value s1
    have h2 : Keeps s₀ s2 := keeps_State_when _ _ _ h1 (fun s h => keeps_takeReset _ _ _ _ _ (keeps_with_power h))
    exact keeps_refreshFault _ (keeps_State_setFlag _ _ _ _ (keeps_State_setFlag _ _ _ _ h2))

theorem keeps_execMuzomusStart (okA okB s) (hs : Keeps s₀ s) {w : State} (eq : execMuzomusStart okA okB s = .next w) : Keeps s₀ w := by
  unfold execMuzomusStart at eq
  injection eq with eq
  subst eq
  repeat' (first
    | (with_reducible assumption) | (with_reducible intro _) | (with_reducible apply keeps_muzomusStart)
    | (with_reducible apply keeps_foldl) | (with_reducible apply keeps_id) | (extract_lets) | (split)
    | (with_reducible apply keeps_ite) | (dsimp -zeta only) | (dsimp -zeta +zetaDelta only))

theorem keeps_restartNow (s) (hs : Keeps s₀ s) : Keeps s₀ (restartNow s) := by
  unfold restartNow
  repeat' (first
    | (with_reducible assumption) | (with_reducible intro _) | (with_reducible apply keeps_foldl)
    | (with_reducible apply keeps_id) | (extract_lets) | (split) | (with_reducible apply keeps_ite) | (dsimp -zeta only)
    | (dsimp -zeta +zetaDelta only) | (with_reducible apply keeps_upd) | (exact Nat.le_refl _) | rfl
    | (exact Nat.le_add_right _ _) | (exact SMap.wf_filter _ (by with_reducible assumption) _))

theorem keeps_nvPulseEnd (s) (hs : Keeps s₀ s) : Keeps s₀ (nvPulseEnd s) := by
  unfold nvPulseEnd
  repeat' (first
    | (with_reducible assumption) | (with_reducible intro _) | (with_reducible apply keeps_State_when)
    | (with_reducible apply keeps_landImage) | (with_reducible apply keeps_cellarFree)
    | (with_reducible apply keeps_restartNow) | (with_reducible apply keeps_foldl) | (with_reducible apply keeps_id)
    | (extract_lets) | (split) | (with_reducible apply keeps_ite) | (dsimp -zeta only) | (dsimp -zeta +zetaDelta only)
    | (with_reducible apply keeps_upd) | (exact Nat.le_refl _) | rfl | (exact Nat.le_add_right _ _)
    | (exact SMap.wf_filter _ (by with_reducible assumption) _))

theorem keeps_execNvPulseEnd (s) (hs : Keeps s₀ s) {w : State} (eq : execNvPulseEnd s = .next w) : Keeps s₀ w := by
  unfold execNvPulseEnd at eq
  injection eq with eq
  subst eq
  repeat' (first
    | (with_reducible assumption) | (with_reducible intro _) | (with_reducible apply keeps_nvPulseEnd)
    | (with_reducible apply keeps_foldl) | (with_reducible apply keeps_id) | (extract_lets) | (split)
    | (with_reducible apply keeps_ite) | (dsimp -zeta only) | (dsimp -zeta +zetaDelta only))

theorem keeps_perstLow (s) (hs : Keeps s₀ s) : Keeps s₀ (perstLow s) := by
  unfold perstLow
  repeat' (first
    | (with_reducible assumption) | (with_reducible intro _) | (with_reducible apply keeps_takeReset)
    | (with_reducible apply keeps_foldl) | (with_reducible apply keeps_id) | (extract_lets) | (split)
    | (with_reducible apply keeps_ite) | (dsimp -zeta only) | (dsimp -zeta +zetaDelta only)
    | (with_reducible apply keeps_upd) | (exact Nat.le_refl _) | rfl | (exact Nat.le_add_right _ _)
    | (exact SMap.wf_filter _ (by with_reducible assumption) _))

theorem keeps_execPerstNLow (s) (hs : Keeps s₀ s) {w : State} (eq : execPerstNLow s = .next w) : Keeps s₀ w := by
  unfold execPerstNLow at eq
  injection eq with eq
  subst eq
  repeat' (first
    | (with_reducible assumption) | (with_reducible intro _) | (with_reducible apply keeps_perstLow)
    | (with_reducible apply keeps_foldl) | (with_reducible apply keeps_id) | (extract_lets) | (split)
    | (with_reducible apply keeps_ite) | (dsimp -zeta only) | (dsimp -zeta +zetaDelta only))

theorem keeps_execRefclkLoss (s) (hs : Keeps s₀ s) {w : State} (eq : execRefclkLoss s = .next w) : Keeps s₀ w := by
  unfold execRefclkLoss at eq
  injection eq with eq
  subst eq
  repeat' (first
    | (with_reducible assumption) | (with_reducible intro _) | (with_reducible apply keeps_takeReset)
    | (with_reducible apply keeps_foldl) | (with_reducible apply keeps_id) | (extract_lets) | (split)
    | (with_reducible apply keeps_ite) | (dsimp -zeta only) | (dsimp -zeta +zetaDelta only))

theorem keeps_execResetAssert (source s) (hs : Keeps s₀ s) {w : State} (eq : execResetAssert source s = .next w) : Keeps s₀ w := by
  unfold execResetAssert at eq
  injection eq with eq
  subst eq
  repeat' (first
    | (with_reducible assumption) | (with_reducible intro _) | (with_reducible apply keeps_assertReset)
    | (with_reducible apply keeps_foldl) | (with_reducible apply keeps_id) | (extract_lets) | (split)
    | (with_reducible apply keeps_ite) | (dsimp -zeta only) | (dsimp -zeta +zetaDelta only))

theorem keeps_writeRstCtrl (v s) (hs : Keeps s₀ s) : Keeps s₀ (writeRstCtrl v s) := by
  unfold writeRstCtrl
  repeat' (first
    | (with_reducible assumption) | (with_reducible intro _) | (with_reducible apply keeps_takeReset)
    | (with_reducible apply keeps_foldl) | (with_reducible apply keeps_id) | (extract_lets) | (split)
    | (with_reducible apply keeps_ite) | (dsimp -zeta only) | (dsimp -zeta +zetaDelta only))

theorem keeps_execRstCtrlWrite (fn v s) (hs : Keeps s₀ s) {w : State} (eq : execRstCtrlWrite fn v s = .next w) : Keeps s₀ w := by
  unfold execRstCtrlWrite at eq
  injection eq with eq
  subst eq
  repeat' (first
    | (with_reducible assumption) | (with_reducible intro _) | (with_reducible apply keeps_posted)
    | (with_reducible apply keeps_pfWrite) | (with_reducible apply keeps_writeRstCtrl) | (with_reducible apply keeps_foldl)
    | (with_reducible apply keeps_id) | (extract_lets) | (split) | (with_reducible apply keeps_ite) | (dsimp -zeta only)
    | (dsimp -zeta +zetaDelta only))

theorem keeps_showClocks (s) (hs : Keeps s₀ s) : Keeps s₀ (showClocks s) := by
  unfold showClocks
  repeat' (first
    | (with_reducible assumption) | (with_reducible intro _) | (with_reducible apply keeps_State_setRegN)
    | (with_reducible apply keeps_foldl) | (with_reducible apply keeps_id) | (extract_lets) | (split)
    | (with_reducible apply keeps_ite) | (dsimp -zeta only) | (dsimp -zeta +zetaDelta only))

theorem keeps_releaseManagement (s) (hs : Keeps s₀ s) : Keeps s₀ (releaseManagement s) := by
  unfold releaseManagement
  repeat' (first
    | (with_reducible assumption) | (with_reducible intro _) | (with_reducible apply keeps_State_setRegN)
    | (with_reducible apply keeps_State_setReg64) | (with_reducible apply keeps_setProof)
    | (with_reducible apply keeps_showClocks) | (with_reducible apply keeps_foldl) | (with_reducible apply keeps_id)
    | (extract_lets) | (split) | (with_reducible apply keeps_ite) | (dsimp -zeta only) | (dsimp -zeta +zetaDelta only))

theorem keeps_readOptions (s) (hs : Keeps s₀ s) : Keeps s₀ (readOptions s) := by
  unfold readOptions
  repeat' (first
    | (with_reducible assumption) | (with_reducible intro _) | (with_reducible apply keeps_State_setBytes)
    | (with_reducible apply keeps_State_each) | (with_reducible apply keeps_State_setFlag)
    | (with_reducible apply keeps_State_setFld) | (with_reducible apply keeps_applyRepair)
    | (with_reducible apply keeps_refreshFault) | (with_reducible apply keeps_foldl) | (with_reducible apply keeps_id)
    | (extract_lets) | (split) | (with_reducible apply keeps_ite) | (dsimp -zeta only) | (dsimp -zeta +zetaDelta only)
    | (with_reducible apply keeps_upd) | (exact Nat.le_refl _) | rfl | (exact Nat.le_add_right _ _)
    | (exact SMap.wf_filter _ (by with_reducible assumption) _))

theorem keeps_releaseFabric (ok s) (hs : Keeps s₀ s) : Keeps s₀ (releaseFabric ok s) := by
  unfold releaseFabric
  repeat' (first
    | (with_reducible assumption) | (with_reducible intro _) | (with_reducible apply keeps_State_each)
    | (with_reducible apply keeps_restartTime) | (with_reducible apply keeps_State_setFlag)
    | (with_reducible apply keeps_bridgeRecord) | (with_reducible apply keeps_foldl) | (with_reducible apply keeps_id)
    | (extract_lets) | (split) | (with_reducible apply keeps_ite) | (dsimp -zeta only) | (dsimp -zeta +zetaDelta only))

theorem keeps_selfTests (failed s) (hs : Keeps s₀ s) : Keeps s₀ (selfTests failed s) := by
  unfold selfTests
  repeat' (first
    | (with_reducible assumption) | (with_reducible intro _) | (with_reducible apply keeps_State_each)
    | (with_reducible apply keeps_endTest) | (with_reducible apply keeps_foldl) | (with_reducible apply keeps_id)
    | (extract_lets) | (split) | (with_reducible apply keeps_ite) | (dsimp -zeta only) | (dsimp -zeta +zetaDelta only))

theorem keeps_stepAction (ok failed s) {n : Nat} {t : State} (hs : Keeps s₀ s) (e : stepAction ok failed s = some (t, n)) : Keeps s₀ t := by
  have take : ∀ {a b : State} {x y : Nat}, Keeps s₀ a → some (a, x) = some (b, y) → Keeps s₀ b := by
    intro a b x y ha hab
    injection hab with hab
    injection hab with hab
    exact hab ▸ ha
  unfold Sys2Proof.Machine.stepAction at e
  split at e
  · exact take (a := { s with mzm := { s.mzm with perst := false } }) (keeps_upd hs id (Nat.le_refl _) (Nat.le_refl _) (Nat.le_refl _) rfl rfl rfl) e
  · split at e
    · exact take hs e
    · split at e
      · exact take (keeps_enterRun _ hs) e
      · cases e
  · exact take (keeps_showClocks _ hs) e
  · exact take (keeps_releaseManagement _ hs) e
  · split at e
    · cases e
    · exact take (keeps_readOptions _ hs) e
  · exact take hs e
  · exact take (keeps_releaseFabric _ _ hs) e
  · exact take (a := { s with mzm := { s.mzm with pullsOff := s.sync.ticks + 1062500 } }) (keeps_upd hs id (Nat.le_refl _) (Nat.le_refl _) (Nat.le_refl _) rfl rfl rfl) e
  · split at e
    · cases e
    · exact take (keeps_selfTests _ _ hs) e
  · exact take (keeps_becomeReady _ hs) e
  · cases e

theorem keeps_setStep (n s) (hs : Keeps s₀ s) : Keeps s₀ (setStep n s) := by
  unfold setStep
  repeat' (first
    | (with_reducible assumption) | (with_reducible intro _) | (with_reducible apply keeps_State_each)
    | (with_reducible apply keeps_State_setFld) | (with_reducible apply keeps_foldl) | (with_reducible apply keeps_id)
    | (extract_lets) | (split) | (with_reducible apply keeps_ite) | (dsimp -zeta only) | (dsimp -zeta +zetaDelta only))

theorem keeps_startupStep (ok failed s) (hs : Keeps s₀ s) : Keeps s₀ (startupStep ok failed s) := by
  unfold startupStep
  repeat' (first
    | (with_reducible assumption) | (with_reducible intro _)
    | (refine keeps_stepAction _ _ _ ?_ (by with_reducible assumption)) | (with_reducible apply keeps_setStep)
    | (with_reducible apply keeps_foldl) | (with_reducible apply keeps_id) | (extract_lets) | (split)
    | (with_reducible apply keeps_ite) | (dsimp -zeta only) | (dsimp -zeta +zetaDelta only))

theorem keeps_execStartupStepDone (bridgeOk failed s) (hs : Keeps s₀ s) {w : State} (eq : execStartupStepDone bridgeOk failed s = .next w) : Keeps s₀ w := by
  unfold execStartupStepDone at eq
  injection eq with eq
  subst eq
  repeat' (first
    | (with_reducible assumption) | (with_reducible intro _) | (with_reducible apply keeps_startupStep)
    | (with_reducible apply keeps_foldl) | (with_reducible apply keeps_id) | (extract_lets) | (split)
    | (with_reducible apply keeps_ite) | (dsimp -zeta only) | (dsimp -zeta +zetaDelta only))

theorem keeps_goOff (s) (hs : Keeps s₀ s) : Keeps s₀ (goOff s) := by
  unfold goOff
  extract_lets x s1
  have h1 : Keeps s₀ s1 := keeps_with_power hs
  clear_value s1
  have hr := keeps_resetState kPowerOn s1 h1
  exact ⟨hr.1, hr.2.1, hr.2.2.1, hr.2.2.2.1, h1.2.2.2.2.1, h1.2.2.2.2.2.1, h1.2.2.2.2.2.2.1, h1.2.2.2.2.2.2.2.1, h1.2.2.2.2.2.2.2.2⟩

theorem keeps_vinStep (v amps s) (hs : Keeps s₀ s) : Keeps s₀ (vinStep v amps s) := by
  unfold vinStep
  extract_lets old st again s1
  have h1 : Keeps s₀ s1 := keeps_with_power hs
  clear_value old st again s1
  split
  · split
    · exact h1
    · exact keeps_goOff _ h1
  · split
    · exact keeps_takeReset _ _ _ _ _ h1
    · split
      · split
        · exact keeps_takeReset _ _ _ _ _ h1
        · exact h1
      · exact keeps_inputRanges _ _ _ h1

theorem keeps_vinChange (v amps s) (hs : Keeps s₀ s) : Keeps s₀ (vinChange v amps s) := by
  unfold vinChange
  repeat' (first
    | (with_reducible assumption) | (with_reducible intro _) | (with_reducible apply keeps_cellarFree)
    | (with_reducible apply keeps_vinStep) | (with_reducible apply keeps_foldl) | (with_reducible apply keeps_id)
    | (extract_lets) | (split) | (with_reducible apply keeps_ite) | (dsimp -zeta only) | (dsimp -zeta +zetaDelta only))

theorem keeps_execVinChange (v amps s) (hs : Keeps s₀ s) {w : State} (eq : execVinChange v amps s = .next w) : Keeps s₀ w := by
  unfold execVinChange at eq
  injection eq with eq
  subst eq
  repeat' (first
    | (with_reducible assumption) | (with_reducible intro _) | (with_reducible apply keeps_vinChange)
    | (with_reducible apply keeps_foldl) | (with_reducible apply keeps_id) | (extract_lets) | (split)
    | (with_reducible apply keeps_ite) | (dsimp -zeta only) | (dsimp -zeta +zetaDelta only))

theorem keeps_offTick (s) (hs : Keeps s₀ s) : Keeps s₀ (offTick s) := by
  unfold offTick
  repeat' (first
    | (with_reducible assumption) | (with_reducible intro _) | (with_reducible apply keeps_takeReset)
    | (with_reducible apply keeps_foldl) | (with_reducible apply keeps_id) | (extract_lets) | (split)
    | (with_reducible apply keeps_ite) | (dsimp -zeta only) | (dsimp -zeta +zetaDelta only)
    | (with_reducible apply keeps_with_power) | (with_reducible apply keeps_upd) | (exact Nat.le_refl _) | rfl
    | (exact Nat.le_add_right _ _) | (exact SMap.wf_filter _ (by with_reducible assumption) _))

theorem keeps_overTick (s) (hs : Keeps s₀ s) : Keeps s₀ (overTick s) := by
  unfold overTick
  repeat' (first
    | (with_reducible assumption) | (with_reducible intro _) | (with_reducible apply keeps_goOff)
    | (with_reducible apply keeps_foldl) | (with_reducible apply keeps_id) | (extract_lets) | (split)
    | (with_reducible apply keeps_ite) | (dsimp -zeta only) | (dsimp -zeta +zetaDelta only)
    | (with_reducible apply keeps_with_power) | (with_reducible apply keeps_upd) | (exact Nat.le_refl _) | rfl
    | (exact Nat.le_add_right _ _) | (exact SMap.wf_filter _ (by with_reducible assumption) _))

end Sys2Proof.Machine.Laws
end

