-- ==== Sys2Proof/Laws/KeepsHostRegs.lean ====
section
/-! SUPPORT. Every definition of Sys2Proof/Machine/HostRegs.lean keeps what `Keeps` names. -/

namespace Sys2Proof.Machine.Laws

variable {s₀ : State}

theorem keeps_dropLatch (fn off s) (hs : Keeps s₀ s) : Keeps s₀ (dropLatch fn off s) := by
  unfold dropLatch
  repeat' (first
    | (with_reducible assumption) | (with_reducible intro _) | (with_reducible apply keeps_foldl)
    | (with_reducible apply keeps_id) | (extract_lets) | (split) | (with_reducible apply keeps_ite) | (dsimp -zeta only)
    | (dsimp -zeta +zetaDelta only) | (with_reducible apply keeps_with_latch) | (with_reducible apply keeps_upd)
    | (exact Nat.le_refl _) | rfl | (exact Nat.le_add_right _ _) | (exact SMap.wf_filter _ (by with_reducible assumption) _))

theorem keeps_keepLatch (fn off v s) (hs : Keeps s₀ s) : Keeps s₀ (keepLatch fn off v s) := by
  unfold keepLatch
  repeat' (first
    | (with_reducible assumption) | (with_reducible intro _) | (with_reducible apply keeps_dropLatch)
    | (with_reducible apply keeps_foldl) | (with_reducible apply keeps_id) | (extract_lets) | (split)
    | (with_reducible apply keeps_ite) | (dsimp -zeta only) | (dsimp -zeta +zetaDelta only)
    | (with_reducible apply keeps_with_latch) | (with_reducible apply keeps_upd) | (exact Nat.le_refl _) | rfl
    | (exact Nat.le_add_right _ _) | (exact SMap.wf_filter _ (by with_reducible assumption) _))

theorem keeps_answerRead (fn off s) (hs : Keeps s₀ s) : Keeps s₀ (answerRead fn off s) := by
  unfold answerRead
  repeat' (first
    | (with_reducible assumption) | (with_reducible intro _) | (with_reducible apply keeps_State_when)
    | (with_reducible apply keeps_advanceFree) | (with_reducible apply keeps_keepLatch)
    | (with_reducible apply keeps_dropLatch) | (with_reducible apply keeps_State_send) | (with_reducible apply keeps_foldl)
    | (with_reducible apply keeps_id) | (extract_lets) | (split) | (with_reducible apply keeps_ite) | (dsimp -zeta only)
    | (dsimp -zeta +zetaDelta only) | (with_reducible apply keeps_upd) | (exact Nat.le_refl _) | rfl
    | (exact Nat.le_add_right _ _) | (exact SMap.wf_filter _ (by with_reducible assumption) _))

theorem keeps_refuseRead (fn off s) (hs : Keeps s₀ s) : Keeps s₀ (refuseRead fn off s) := by
  unfold refuseRead
  repeat' (first
    | (with_reducible assumption) | (with_reducible intro _) | (with_reducible apply keeps_refuseStream)
    | (with_reducible apply keeps_refuseAccess) | (with_reducible apply keeps_recordPriv)
    | (with_reducible apply keeps_logStatus) | (with_reducible apply keeps_State_send) | (with_reducible apply keeps_foldl)
    | (with_reducible apply keeps_id) | (extract_lets) | (split) | (with_reducible apply keeps_ite) | (dsimp -zeta only)
    | (dsimp -zeta +zetaDelta only))

theorem keeps_hostRead (fn off i s) (hs : Keeps s₀ s) : Keeps s₀ (hostRead fn off i s) := by
  unfold hostRead
  repeat' (first
    | (with_reducible assumption) | (with_reducible intro _) | (with_reducible apply keeps_State_send)
    | (with_reducible apply keeps_refuseRead) | (with_reducible apply keeps_atEdge)
    | (with_reducible apply keeps_hostWakeFail) | (with_reducible apply keeps_memRead)
    | (with_reducible apply keeps_answerRead) | (with_reducible apply keeps_foldl) | (with_reducible apply keeps_id)
    | (extract_lets) | (split) | (with_reducible apply keeps_ite) | (dsimp -zeta only) | (dsimp -zeta +zetaDelta only))

theorem keeps_execLoReadLatch (fn off s) (hs : Keeps s₀ s) {w : State} (eq : execLoReadLatch fn off s = .next w) : Keeps s₀ w := by
  unfold execLoReadLatch at eq
  injection eq with eq
  subst eq
  repeat' (first
    | (with_reducible assumption) | (with_reducible intro _) | (with_reducible apply keeps_posted)
    | (with_reducible apply keeps_hostRead) | (with_reducible apply keeps_foldl) | (with_reducible apply keeps_id)
    | (extract_lets) | (split) | (with_reducible apply keeps_ite) | (dsimp -zeta only) | (dsimp -zeta +zetaDelta only))

theorem keeps_execRefusedRead (fn off s) (hs : Keeps s₀ s) {w : State} (eq : execRefusedRead fn off s = .next w) : Keeps s₀ w := by
  unfold execRefusedRead at eq
  injection eq with eq
  subst eq
  repeat' (first
    | (with_reducible assumption) | (with_reducible intro _) | (with_reducible apply keeps_posted)
    | (with_reducible apply keeps_hostRead) | (with_reducible apply keeps_foldl) | (with_reducible apply keeps_id)
    | (extract_lets) | (split) | (with_reducible apply keeps_ite) | (dsimp -zeta only) | (dsimp -zeta +zetaDelta only))

end Sys2Proof.Machine.Laws
end

