-- ==== Sys2Proof/Laws/KeepsHostWrite.lean ====
section
/-! SUPPORT. Every definition of Sys2Proof/Machine/HostWrite.lean keeps what `Keeps` names. -/

namespace Sys2Proof.Machine.Laws

variable {s₀ : State}

/-- Every function of the list keeps what `Keeps` names. -/
def AllKeep (s₀ : State) : List (State → State) → Prop
  | [] => True
  | f :: l => (∀ s, Keeps s₀ s → Keeps s₀ (f s)) ∧ AllKeep s₀ l

theorem keeps_all_nil : AllKeep s₀ [] := True.intro

theorem keeps_all_cons {f l} (h : ∀ s, Keeps s₀ s → Keeps s₀ (f s)) (hl : AllKeep s₀ l) : AllKeep s₀ (f :: l) := ⟨h, hl⟩

theorem keeps_actions (v l s) (hl : AllKeep s₀ l) (hs : Keeps s₀ s) : Keeps s₀ (actions v l s) := by
  unfold actions
  suffices h : ∀ n s, Keeps s₀ s → Keeps s₀ (l.foldl (fun (x : State × Nat) f => (x.1.when (bit v x.2) f, x.2 + 1)) (s, n)).1 from h 0 s hs
  induction l with
  | nil => exact fun _ _ h => h
  | cons f l ih => exact fun n s h => ih hl.2 _ _ (keeps_State_when _ _ _ h (hl.1))

theorem keeps_storeRw (p o v s) (hs : Keeps s₀ s) : Keeps s₀ (storeRw p o v s) := by
  unfold storeRw
  repeat' (first
    | (with_reducible assumption) | (with_reducible intro _) | (with_reducible apply keeps_State_setRegN)
    | (with_reducible apply keeps_foldl) | (with_reducible apply keeps_id) | (extract_lets) | (split)
    | (with_reducible apply keeps_ite) | (dsimp -zeta only) | (dsimp -zeta +zetaDelta only))

theorem keeps_unlessBusy (base bad act s) (hact : ∀ s, Keeps s₀ s → Keeps s₀ (act s)) (hs : Keeps s₀ s) : Keeps s₀ (unlessBusy base bad act s) := by
  unfold unlessBusy
  repeat' (first
    | (with_reducible assumption) | (with_reducible intro _) | (with_reducible apply keeps_logStatus)
    | (with_reducible apply keeps_foldl) | (with_reducible apply keeps_id) | (apply hact) | (extract_lets) | (split)
    | (with_reducible apply keeps_ite) | (dsimp -zeta only) | (dsimp -zeta +zetaDelta only))

theorem keeps_chaseWrite (p o v s) (hs : Keeps s₀ s) : Keeps s₀ (chaseWrite p o v s) := by
  unfold chaseWrite
  repeat' (first
    | (with_reducible assumption) | (with_reducible intro _) | (with_reducible apply keeps_State_setRegN)
    | (with_reducible apply keeps_keepCfg) | (with_reducible apply keeps_storeRw)
    | (with_reducible apply keeps_State_setCore) | (with_reducible apply keeps_unlessBusy)
    | (with_reducible apply keeps_coreCtrl) | (with_reducible apply keeps_memWrite) | (with_reducible apply keeps_foldl)
    | (with_reducible apply keeps_id) | (extract_lets) | (split) | (with_reducible apply keeps_ite) | (dsimp -zeta only)
    | (dsimp -zeta +zetaDelta only))

theorem keeps_lutWrite (p v s) (hs : Keeps s₀ s) : Keeps s₀ (lutWrite p v s) := by
  unfold lutWrite
  repeat' (first
    | (with_reducible assumption) | (with_reducible intro _) | (with_reducible apply keeps_unlessBusy)
    | (with_reducible apply keeps_storeRw) | (with_reducible apply keeps_foldl) | (with_reducible apply keeps_id)
    | (extract_lets) | (split) | (with_reducible apply keeps_ite) | (dsimp -zeta only) | (dsimp -zeta +zetaDelta only))

theorem keeps_govWrite (o v s) (hs : Keeps s₀ s) : Keeps s₀ (govWrite o v s) := by
  unfold govWrite
  repeat' (first
    | (with_reducible assumption) | (with_reducible intro _) | (with_reducible apply keeps_all_nil)
    | (with_reducible apply keeps_all_cons) | (with_reducible apply keeps_writePtgCtrl)
    | (with_reducible apply keeps_unlessBusy) | (with_reducible apply keeps_storeRw) | (with_reducible apply keeps_actions)
    | (with_reducible apply keeps_ptgEntLoad) | (with_reducible apply keeps_ptgEntCommit)
    | (with_reducible apply keeps_lscaleWrite) | (with_reducible apply keeps_seedLoad)
    | (with_reducible apply keeps_seedCommit) | (with_reducible apply keeps_foldl) | (with_reducible apply keeps_id)
    | (extract_lets) | (split) | (with_reducible apply keeps_ite) | (dsimp -zeta only) | (dsimp -zeta +zetaDelta only))

theorem keeps_tasterRegs (o v s) (hs : Keeps s₀ s) : Keeps s₀ (tasterRegs o v s) := by
  unfold tasterRegs
  repeat' (first
    | (with_reducible assumption) | (with_reducible intro _) | (with_reducible apply keeps_all_nil)
    | (with_reducible apply keeps_all_cons) | (with_reducible apply keeps_storeRw)
    | (with_reducible apply keeps_State_setFld) | (with_reducible apply keeps_actions)
    | (with_reducible apply keeps_tstEntLoad) | (with_reducible apply keeps_tstEntCommit)
    | (with_reducible apply keeps_foldl) | (with_reducible apply keeps_id) | (extract_lets) | (split)
    | (with_reducible apply keeps_ite) | (dsimp -zeta only) | (dsimp -zeta +zetaDelta only)
    | (with_reducible apply keeps_with_gov) | (with_reducible apply keeps_upd) | (exact Nat.le_refl _) | rfl
    | (exact Nat.le_add_right _ _) | (exact SMap.wf_filter _ (by with_reducible assumption) _))

theorem keeps_tierWrite (p o v s) (hs : Keeps s₀ s) : Keeps s₀ (tierWrite p o v s) := by
  unfold tierWrite
  repeat' (first
    | (with_reducible assumption) | (with_reducible intro _) | (with_reducible apply keeps_all_nil)
    | (with_reducible apply keeps_all_cons) | (with_reducible apply keeps_unmapRegion)
    | (with_reducible apply keeps_mapRegion) | (with_reducible apply keeps_actions) | (with_reducible apply keeps_quotaLoad)
    | (with_reducible apply keeps_quotaCommit) | (with_reducible apply keeps_leaseLoad)
    | (with_reducible apply keeps_leaseRequest) | (with_reducible apply keeps_leaseRenew)
    | (with_reducible apply keeps_leaseRelease) | (with_reducible apply keeps_lendCfgWrite)
    | (with_reducible apply keeps_unlessBusy) | (with_reducible apply keeps_storeRw) | (with_reducible apply keeps_foldl)
    | (with_reducible apply keeps_id) | (extract_lets) | (split) | (with_reducible apply keeps_ite) | (dsimp -zeta only)
    | (dsimp -zeta +zetaDelta only))

theorem keeps_hbmWrite (p o v s) (hs : Keeps s₀ s) : Keeps s₀ (hbmWrite p o v s) := by
  unfold hbmWrite
  repeat' (first
    | (with_reducible assumption) | (with_reducible intro _) | (with_reducible apply keeps_all_nil)
    | (with_reducible apply keeps_all_cons) | (with_reducible apply keeps_actions) | (with_reducible apply keeps_ctxLoad)
    | (with_reducible apply keeps_ctxArm) | (with_reducible apply keeps_ctxDisarm) | (with_reducible apply keeps_psetLoad)
    | (with_reducible apply keeps_psetCommit) | (with_reducible apply keeps_storeRw) | (with_reducible apply keeps_foldl)
    | (with_reducible apply keeps_id) | (extract_lets) | (split) | (with_reducible apply keeps_ite) | (dsimp -zeta only)
    | (dsimp -zeta +zetaDelta only))

theorem keeps_vcWrite (p v s) (hs : Keeps s₀ s) : Keeps s₀ (vcWrite p v s) := by
  unfold vcWrite
  repeat' (first
    | (with_reducible assumption) | (with_reducible intro _) | (with_reducible apply keeps_unlessBusy)
    | (with_reducible apply keeps_storeRw) | (with_reducible apply keeps_foldl) | (with_reducible apply keeps_id)
    | (extract_lets) | (split) | (with_reducible apply keeps_ite) | (dsimp -zeta only) | (dsimp -zeta +zetaDelta only))

theorem keeps_portWrite (p o v s) (hs : Keeps s₀ s) : Keeps s₀ (portWrite p o v s) := by
  unfold portWrite
  repeat' (first
    | (with_reducible assumption) | (with_reducible intro _) | (with_reducible apply keeps_portCtrl)
    | (with_reducible apply keeps_vcWrite) | (with_reducible apply keeps_storeRw) | (with_reducible apply keeps_foldl)
    | (with_reducible apply keeps_id) | (extract_lets) | (split) | (with_reducible apply keeps_ite) | (dsimp -zeta only)
    | (dsimp -zeta +zetaDelta only))

theorem keeps_traceRegs (p o v s) (hs : Keeps s₀ s) : Keeps s₀ (traceRegs p o v s) := by
  unfold traceRegs
  repeat' (first
    | (with_reducible assumption) | (with_reducible intro _) | (with_reducible apply keeps_writeTrcCtrl)
    | (with_reducible apply keeps_unlessBusy) | (with_reducible apply keeps_storeRw) | (with_reducible apply keeps_foldl)
    | (with_reducible apply keeps_id) | (extract_lets) | (split) | (with_reducible apply keeps_ite) | (dsimp -zeta only)
    | (dsimp -zeta +zetaDelta only))

theorem keeps_cellarWrite (p o v s) (hs : Keeps s₀ s) : Keeps s₀ (cellarWrite p o v s) := by
  unfold cellarWrite
  repeat' (first
    | (with_reducible assumption) | (with_reducible intro _) | (with_reducible apply keeps_all_nil)
    | (with_reducible apply keeps_all_cons) | (with_reducible apply keeps_actions) | (with_reducible apply keeps_askCask)
    | (with_reducible apply keeps_caskResume) | (with_reducible apply keeps_caskCut) | (with_reducible apply keeps_storeRw)
    | (with_reducible apply keeps_stopArm) | (with_reducible apply keeps_unlessBusy)
    | (with_reducible apply keeps_writeBuddy) | (with_reducible apply keeps_writeRestore)
    | (with_reducible apply keeps_clrCmd) | (with_reducible apply keeps_foldl) | (with_reducible apply keeps_id)
    | (extract_lets) | (split) | (with_reducible apply keeps_ite) | (dsimp -zeta only) | (dsimp -zeta +zetaDelta only))

theorem keeps_syncCfgWrite (p v s) (hs : Keeps s₀ s) : Keeps s₀ (syncCfgWrite p v s) := by
  unfold syncCfgWrite
  repeat' (first
    | (with_reducible assumption) | (with_reducible intro _) | (with_reducible apply keeps_storeRw)
    | (with_reducible apply keeps_State_setFlag) | (with_reducible apply keeps_State_when)
    | (with_reducible apply keeps_takeParentTime) | (with_reducible apply keeps_foldl) | (with_reducible apply keeps_id)
    | (extract_lets) | (split) | (with_reducible apply keeps_ite) | (dsimp -zeta only) | (dsimp -zeta +zetaDelta only))

theorem keeps_routeWrite (p o v s) (hs : Keeps s₀ s) : Keeps s₀ (routeWrite p o v s) := by
  unfold routeWrite
  repeat' (first
    | (with_reducible assumption) | (with_reducible intro _) | (with_reducible apply keeps_all_nil)
    | (with_reducible apply keeps_all_cons) | (with_reducible apply keeps_syncCfgWrite)
    | (with_reducible apply keeps_unlessBusy) | (with_reducible apply keeps_refreshMaps)
    | (with_reducible apply keeps_storeRw) | (with_reducible apply keeps_actions) | (with_reducible apply keeps_rtLoad)
    | (with_reducible apply keeps_rtCommit) | (with_reducible apply keeps_foldl) | (with_reducible apply keeps_id)
    | (extract_lets) | (split) | (with_reducible apply keeps_ite) | (dsimp -zeta only) | (dsimp -zeta +zetaDelta only))

theorem keeps_blockWrite (fn p o v s) (hs : Keeps s₀ s) : Keeps s₀ (blockWrite fn p o v s) := by
  unfold blockWrite
  repeat' (first
    | (with_reducible assumption) | (with_reducible intro _) | (with_reducible apply keeps_all_nil)
    | (with_reducible apply keeps_all_cons) | (with_reducible apply keeps_chaseWrite) | (with_reducible apply keeps_lutWrite)
    | (with_reducible apply keeps_unlessBusy) | (with_reducible apply keeps_storeRw)
    | (with_reducible apply keeps_hydRingCfg) | (with_reducible apply keeps_govWrite)
    | (with_reducible apply keeps_tasterWrite) | (with_reducible apply keeps_tasterRegs)
    | (with_reducible apply keeps_tierWrite) | (with_reducible apply keeps_actions) | (with_reducible apply keeps_mapLoad)
    | (with_reducible apply keeps_mapCommit) | (with_reducible apply keeps_hbmWrite) | (with_reducible apply keeps_portWrite)
    | (with_reducible apply keeps_traceRegs) | (with_reducible apply keeps_writeMarginCmd)
    | (with_reducible apply keeps_setCap) | (with_reducible apply keeps_writeFrm) | (with_reducible apply keeps_cellarWrite)
    | (with_reducible apply keeps_routeWrite) | (with_reducible apply keeps_foldl) | (with_reducible apply keeps_id)
    | (extract_lets) | (split) | (with_reducible apply keeps_ite) | (dsimp -zeta only) | (dsimp -zeta +zetaDelta only))

theorem keeps_claimFault (fn s) (hs : Keeps s₀ s) : Keeps s₀ (claimFault fn s) := by
  unfold claimFault
  repeat' (first
    | (with_reducible assumption) | (with_reducible intro _) | (with_reducible apply keeps_claim)
    | (with_reducible apply keeps_foldl) | (with_reducible apply keeps_id) | (extract_lets) | (split)
    | (with_reducible apply keeps_ite) | (dsimp -zeta only) | (dsimp -zeta +zetaDelta only))

theorem keeps_claimWake (fn s) (hs : Keeps s₀ s) : Keeps s₀ (claimWake fn s) := by
  unfold claimWake
  repeat' (first
    | (with_reducible assumption) | (with_reducible intro _) | (with_reducible apply keeps_claim)
    | (with_reducible apply keeps_foldl) | (with_reducible apply keeps_id) | (extract_lets) | (split)
    | (with_reducible apply keeps_ite) | (dsimp -zeta only) | (dsimp -zeta +zetaDelta only))

theorem keeps_clearErr (base v s) (hs : Keeps s₀ s) : Keeps s₀ (clearErr base v s) := by
  unfold clearErr
  repeat' (first
    | (with_reducible assumption) | (with_reducible intro _) | (with_reducible apply keeps_State_setRegN)
    | (with_reducible apply keeps_foldl) | (with_reducible apply keeps_id) | (extract_lets) | (split)
    | (with_reducible apply keeps_ite) | (dsimp -zeta only) | (dsimp -zeta +zetaDelta only))

theorem keeps_clearEv (base v s) (hs : Keeps s₀ s) : Keeps s₀ (clearEv base v s) := by
  unfold clearEv
  repeat' (first
    | (with_reducible assumption) | (with_reducible intro _) | (with_reducible apply keeps_State_setRegN)
    | (with_reducible apply keeps_foldl) | (with_reducible apply keeps_id) | (extract_lets) | (split)
    | (with_reducible apply keeps_ite) | (dsimp -zeta only) | (dsimp -zeta +zetaDelta only))

theorem keeps_setOwner (p v s) (hs : Keeps s₀ s) : Keeps s₀ (setOwner p v s) := by
  unfold setOwner
  repeat' (first
    | (with_reducible assumption) | (with_reducible intro _) | (with_reducible apply keeps_logStatus)
    | (with_reducible apply keeps_State_setRegN) | (with_reducible apply keeps_foldl) | (with_reducible apply keeps_id)
    | (extract_lets) | (split) | (with_reducible apply keeps_ite) | (dsimp -zeta only) | (dsimp -zeta +zetaDelta only))

theorem keeps_writeOwner (fn p v s) (hs : Keeps s₀ s) : Keeps s₀ (writeOwner fn p v s) := by
  unfold writeOwner
  repeat' (first
    | (with_reducible assumption) | (with_reducible intro _) | (with_reducible apply keeps_guarded)
    | (with_reducible apply keeps_setOwner) | (with_reducible apply keeps_foldl) | (with_reducible apply keeps_id)
    | (extract_lets) | (split) | (with_reducible apply keeps_ite) | (dsimp -zeta only) | (dsimp -zeta +zetaDelta only))

theorem keeps_fixwinWrite (v s) (hs : Keeps s₀ s) : Keeps s₀ (fixwinWrite v s) := by
  unfold fixwinWrite
  repeat' (first
    | (with_reducible assumption) | (with_reducible intro _) | (with_reducible apply keeps_State_setRegN)
    | (with_reducible apply keeps_foldl) | (with_reducible apply keeps_id) | (extract_lets) | (split)
    | (with_reducible apply keeps_ite) | (dsimp -zeta only) | (dsimp -zeta +zetaDelta only))

theorem keeps_loadCommit (fn base o v load commit s) (hload : ∀ s, Keeps s₀ s → Keeps s₀ (load s)) (hcommit : ∀ s, Keeps s₀ s → Keeps s₀ (commit s)) (hs : Keeps s₀ s) : Keeps s₀ (loadCommit fn base o v load commit s) := by
  unfold loadCommit
  repeat' (first
    | (with_reducible assumption) | (with_reducible intro _) | (with_reducible apply keeps_State_when)
    | (with_reducible apply keeps_ownerWrite) | (with_reducible apply keeps_pfWrite) | (with_reducible apply keeps_foldl)
    | (with_reducible apply keeps_id) | (apply hload) | (apply hcommit) | (extract_lets) | (split)
    | (with_reducible apply keeps_ite) | (dsimp -zeta only) | (dsimp -zeta +zetaDelta only))

theorem keeps_writePwrOwn (fn v s) (hs : Keeps s₀ s) : Keeps s₀ (writePwrOwn fn v s) := by
  unfold writePwrOwn
  repeat' (first
    | (with_reducible assumption) | (with_reducible intro _) | (with_reducible apply keeps_State_when)
    | (with_reducible apply keeps_pfOrMzm) | (with_reducible apply keeps_claimDuty)
    | (with_reducible apply keeps_releaseDuty) | (with_reducible apply keeps_mzmWrite)
    | (with_reducible apply keeps_claimVset) | (with_reducible apply keeps_releaseVset) | (with_reducible apply keeps_foldl)
    | (with_reducible apply keeps_id) | (extract_lets) | (split) | (with_reducible apply keeps_ite) | (dsimp -zeta only)
    | (dsimp -zeta +zetaDelta only))

theorem keeps_writeStorm (v s) (hs : Keeps s₀ s) : Keeps s₀ (writeStorm v s) := by
  unfold writeStorm
  repeat' (first
    | (with_reducible assumption) | (with_reducible intro _) | (with_reducible apply keeps_State_setFld)
    | (with_reducible apply keeps_foldl) | (with_reducible apply keeps_id) | (extract_lets) | (split)
    | (with_reducible apply keeps_ite) | (dsimp -zeta only) | (dsimp -zeta +zetaDelta only)
    | (with_reducible apply keeps_upd) | (exact Nat.le_refl _) | rfl | (exact Nat.le_add_right _ _)
    | (exact SMap.wf_filter _ (by with_reducible assumption) _))

theorem keeps_releaseWake (fn s) (hs : Keeps s₀ s) : Keeps s₀ (releaseWake fn s) := by
  unfold releaseWake
  repeat' (first
    | (with_reducible assumption) | (with_reducible intro _) | (with_reducible apply keeps_releaseOwn)
    | (with_reducible apply keeps_foldl) | (with_reducible apply keeps_id) | (extract_lets) | (split)
    | (with_reducible apply keeps_ite) | (dsimp -zeta only) | (dsimp -zeta +zetaDelta only))

theorem keeps_releaseFault (fn s) (hs : Keeps s₀ s) : Keeps s₀ (releaseFault fn s) := by
  unfold releaseFault
  repeat' (first
    | (with_reducible assumption) | (with_reducible intro _) | (with_reducible apply keeps_refreshFault)
    | (with_reducible apply keeps_State_setFlag) | (with_reducible apply keeps_State_setFld)
    | (with_reducible apply keeps_foldl) | (with_reducible apply keeps_id) | (extract_lets) | (split)
    | (with_reducible apply keeps_ite) | (dsimp -zeta only) | (dsimp -zeta +zetaDelta only))

theorem keeps_ownedBit (fn owner f b s) (hs : Keeps s₀ s) : Keeps s₀ (ownedBit fn owner f b s) := by
  unfold ownedBit
  repeat' (first
    | (with_reducible assumption) | (with_reducible intro _) | (with_reducible apply keeps_refreshFault)
    | (with_reducible apply keeps_State_setFlag) | (with_reducible apply keeps_logStatus)
    | (with_reducible apply keeps_foldl) | (with_reducible apply keeps_id) | (extract_lets) | (split)
    | (with_reducible apply keeps_ite) | (dsimp -zeta only) | (dsimp -zeta +zetaDelta only))

theorem keeps_writeGpio (fn v s) (hs : Keeps s₀ s) : Keeps s₀ (writeGpio fn v s) := by
  unfold writeGpio
  repeat' (first
    | (with_reducible assumption) | (with_reducible intro _) | (with_reducible apply keeps_State_when)
    | (with_reducible apply keeps_claimWake) | (with_reducible apply keeps_releaseWake)
    | (with_reducible apply keeps_claimFault) | (with_reducible apply keeps_releaseFault)
    | (with_reducible apply keeps_ownedBit) | (with_reducible apply keeps_foldl) | (with_reducible apply keeps_id)
    | (extract_lets) | (split) | (with_reducible apply keeps_ite) | (dsimp -zeta only) | (dsimp -zeta +zetaDelta only))

theorem keeps_ownReg (fn o v s) (hs : Keeps s₀ s) : Keeps s₀ (ownReg fn o v s) := by
  unfold ownReg
  repeat' (first
    | (with_reducible assumption) | (with_reducible intro _) | (with_reducible apply keeps_State_setRegN)
    | (with_reducible apply keeps_foldl) | (with_reducible apply keeps_id) | (extract_lets) | (split)
    | (with_reducible apply keeps_ite) | (dsimp -zeta only) | (dsimp -zeta +zetaDelta only))

theorem keeps_enableEv (base v s) (hs : Keeps s₀ s) : Keeps s₀ (enableEv base v s) := by
  unfold enableEv
  repeat' (first
    | (with_reducible assumption) | (with_reducible intro _) | (with_reducible apply keeps_State_setRegN)
    | (with_reducible apply keeps_sendVector) | (with_reducible apply keeps_foldl) | (with_reducible apply keeps_id)
    | (extract_lets) | (split) | (with_reducible apply keeps_ite) | (dsimp -zeta only) | (dsimp -zeta +zetaDelta only))

theorem keeps_commonWrite (base o v s) (hs : Keeps s₀ s) : Keeps s₀ (commonWrite base o v s) := by
  unfold commonWrite
  repeat' (first
    | (with_reducible assumption) | (with_reducible intro _) | (with_reducible apply keeps_State_setRegN)
    | (with_reducible apply keeps_clearErr) | (with_reducible apply keeps_clearEv) | (with_reducible apply keeps_enableEv)
    | (with_reducible apply keeps_raiseMask) | (with_reducible apply keeps_foldl) | (with_reducible apply keeps_id)
    | (extract_lets) | (split) | (with_reducible apply keeps_ite) | (dsimp -zeta only) | (dsimp -zeta +zetaDelta only))

theorem keeps_pageWrite (fn p o v s) (hs : Keeps s₀ s) : Keeps s₀ (pageWrite fn p o v s) := by
  unfold pageWrite
  repeat' (first
    | (with_reducible assumption) | (with_reducible intro _) | (with_reducible apply keeps_tasterWrite)
    | (with_reducible apply keeps_writeOwner) | (with_reducible apply keeps_ownerWrite)
    | (with_reducible apply keeps_pfWrite) | (with_reducible apply keeps_fixwinWrite)
    | (with_reducible apply keeps_streamAlloc) | (with_reducible apply keeps_loadCommit)
    | (with_reducible apply keeps_jobLoad) | (with_reducible apply keeps_jobCommit) | (with_reducible apply keeps_mzmWrite)
    | (with_reducible apply keeps_setCap) | (with_reducible apply keeps_pfOrMzm) | (with_reducible apply keeps_writeDutyOvr)
    | (with_reducible apply keeps_writePwrOwn) | (with_reducible apply keeps_shareLoad)
    | (with_reducible apply keeps_shareCommit) | (with_reducible apply keeps_writeRstCtrl)
    | (with_reducible apply keeps_writeStorm) | (with_reducible apply keeps_writeGpio)
    | (with_reducible apply keeps_coolantAct) | (with_reducible apply keeps_storeRw) | (with_reducible apply keeps_writeFeed)
    | (with_reducible apply keeps_setProof) | (with_reducible apply keeps_guarded) | (with_reducible apply keeps_ownReg)
    | (with_reducible apply keeps_blockWrite) | (with_reducible apply keeps_commonWrite) | (with_reducible apply keeps_foldl)
    | (with_reducible apply keeps_id) | (extract_lets) | (split) | (with_reducible apply keeps_ite) | (dsimp -zeta only)
    | (dsimp -zeta +zetaDelta only))

theorem keeps_pageEdge (fn p o v i s) (hs : Keeps s₀ s) : Keeps s₀ (pageEdge fn p o v i s) := by
  unfold pageEdge
  repeat' (first
    | (with_reducible assumption) | (with_reducible intro _) | (with_reducible apply keeps_atEdge)
    | (with_reducible apply keeps_hostWakeFail) | (with_reducible apply keeps_pageWrite) | (with_reducible apply keeps_foldl)
    | (with_reducible apply keeps_id) | (extract_lets) | (split) | (with_reducible apply keeps_ite) | (dsimp -zeta only)
    | (dsimp -zeta +zetaDelta only))

theorem keeps_commonAt (fn off o v i s) (hs : Keeps s₀ s) : Keeps s₀ (commonAt fn off o v i s) := by
  unfold commonAt
  repeat' (first
    | (with_reducible assumption) | (with_reducible intro _) | (with_reducible apply keeps_pageEdge)
    | (with_reducible apply keeps_foldl) | (with_reducible apply keeps_id) | (extract_lets) | (split)
    | (with_reducible apply keeps_ite) | (dsimp -zeta only) | (dsimp -zeta +zetaDelta only))

theorem keeps_gpioWrite (fn act s) (hact : ∀ s, Keeps s₀ s → Keeps s₀ (act s)) (hs : Keeps s₀ s) : Keeps s₀ (gpioWrite fn act s) := by
  unfold gpioWrite
  repeat' (first
    | (with_reducible assumption) | (with_reducible intro _) | (with_reducible apply keeps_pfOrMzm)
    | (with_reducible apply keeps_foldl) | (with_reducible apply keeps_id) | (apply hact) | (extract_lets) | (split)
    | (with_reducible apply keeps_ite) | (dsimp -zeta only) | (dsimp -zeta +zetaDelta only))

theorem keeps_execClaimFault (fn s) (hs : Keeps s₀ s) {w : State} (eq : execClaimFault fn s = .next w) : Keeps s₀ w := by
  unfold execClaimFault at eq
  injection eq with eq
  subst eq
  repeat' (first
    | (with_reducible assumption) | (with_reducible intro _) | (with_reducible apply keeps_posted)
    | (with_reducible apply keeps_gpioWrite) | (with_reducible apply keeps_claimFault) | (with_reducible apply keeps_foldl)
    | (with_reducible apply keeps_id) | (extract_lets) | (split) | (with_reducible apply keeps_ite) | (dsimp -zeta only)
    | (dsimp -zeta +zetaDelta only))

theorem keeps_execClaimWake (fn s) (hs : Keeps s₀ s) {w : State} (eq : execClaimWake fn s = .next w) : Keeps s₀ w := by
  unfold execClaimWake at eq
  injection eq with eq
  subst eq
  repeat' (first
    | (with_reducible assumption) | (with_reducible intro _) | (with_reducible apply keeps_posted)
    | (with_reducible apply keeps_gpioWrite) | (with_reducible apply keeps_claimWake) | (with_reducible apply keeps_foldl)
    | (with_reducible apply keeps_id) | (extract_lets) | (split) | (with_reducible apply keeps_ite) | (dsimp -zeta only)
    | (dsimp -zeta +zetaDelta only))

theorem keeps_execErrStatusClear (fn off v s) (hs : Keeps s₀ s) {w : State} (eq : execErrStatusClear fn off v s = .next w) : Keeps s₀ w := by
  unfold execErrStatusClear at eq
  injection eq with eq
  subst eq
  repeat' (first
    | (with_reducible assumption) | (with_reducible intro _) | (with_reducible apply keeps_posted)
    | (with_reducible apply keeps_commonAt) | (with_reducible apply keeps_foldl) | (with_reducible apply keeps_id)
    | (extract_lets) | (split) | (with_reducible apply keeps_ite) | (dsimp -zeta only) | (dsimp -zeta +zetaDelta only))

theorem keeps_execEvForceWrite (fn off v s) (hs : Keeps s₀ s) {w : State} (eq : execEvForceWrite fn off v s = .next w) : Keeps s₀ w := by
  unfold execEvForceWrite at eq
  injection eq with eq
  subst eq
  repeat' (first
    | (with_reducible assumption) | (with_reducible intro _) | (with_reducible apply keeps_posted)
    | (with_reducible apply keeps_commonAt) | (with_reducible apply keeps_foldl) | (with_reducible apply keeps_id)
    | (extract_lets) | (split) | (with_reducible apply keeps_ite) | (dsimp -zeta only) | (dsimp -zeta +zetaDelta only))

theorem keeps_execEvRawClear (fn off v s) (hs : Keeps s₀ s) {w : State} (eq : execEvRawClear fn off v s = .next w) : Keeps s₀ w := by
  unfold execEvRawClear at eq
  injection eq with eq
  subst eq
  repeat' (first
    | (with_reducible assumption) | (with_reducible intro _) | (with_reducible apply keeps_posted)
    | (with_reducible apply keeps_commonAt) | (with_reducible apply keeps_foldl) | (with_reducible apply keeps_id)
    | (extract_lets) | (split) | (with_reducible apply keeps_ite) | (dsimp -zeta only) | (dsimp -zeta +zetaDelta only))

theorem keeps_execPageOwnerWrite (fn off v s) (hs : Keeps s₀ s) {w : State} (eq : execPageOwnerWrite fn off v s = .next w) : Keeps s₀ w := by
  unfold execPageOwnerWrite at eq
  injection eq with eq
  subst eq
  repeat' (first
    | (with_reducible assumption) | (with_reducible intro _) | (with_reducible apply keeps_posted)
    | (with_reducible apply keeps_commonAt) | (with_reducible apply keeps_foldl) | (with_reducible apply keeps_id)
    | (extract_lets) | (split) | (with_reducible apply keeps_ite) | (dsimp -zeta only) | (dsimp -zeta +zetaDelta only))

theorem keeps_refuseArea (fn off s) (hs : Keeps s₀ s) : Keeps s₀ (refuseArea fn off s) := by
  unfold refuseArea
  repeat' (first
    | (with_reducible assumption) | (with_reducible intro _) | (with_reducible apply keeps_recordPriv)
    | (with_reducible apply keeps_logStatus) | (with_reducible apply keeps_foldl) | (with_reducible apply keeps_id)
    | (extract_lets) | (split) | (with_reducible apply keeps_ite) | (dsimp -zeta only) | (dsimp -zeta +zetaDelta only))

theorem keeps_vectorWrite (fn off i v s) (hs : Keeps s₀ s) : Keeps s₀ (vectorWrite fn off i v s) := by
  unfold vectorWrite
  repeat' (first
    | (with_reducible assumption) | (with_reducible intro _) | (with_reducible apply keeps_State_when)
    | (with_reducible apply keeps_refuseArea) | (with_reducible apply keeps_State_each) | (with_reducible apply keeps_foldl)
    | (with_reducible apply keeps_id) | (extract_lets) | (split) | (with_reducible apply keeps_ite) | (dsimp -zeta only)
    | (dsimp -zeta +zetaDelta only) | (with_reducible apply keeps_with_vectors) | (with_reducible apply keeps_upd)
    | (exact Nat.le_refl _) | rfl | (exact Nat.le_add_right _ _) | (exact SMap.wf_filter _ (by with_reducible assumption) _))

theorem keeps_msixWrite (f off v s) (hs : Keeps s₀ s) : Keeps s₀ (msixWrite f off v s) := by
  unfold msixWrite
  repeat' (first
    | (with_reducible assumption) | (with_reducible intro _) | (with_reducible apply keeps_releaseVector)
    | (with_reducible apply keeps_State_setRegN) | (with_reducible apply keeps_foldl) | (with_reducible apply keeps_id)
    | (extract_lets) | (split) | (with_reducible apply keeps_ite) | (dsimp -zeta only) | (dsimp -zeta +zetaDelta only))

theorem keeps_hostWrite (fn off v i s) (hs : Keeps s₀ s) : Keeps s₀ (hostWrite fn off v i s) := by
  unfold hostWrite
  repeat' (first
    | (with_reducible assumption) | (with_reducible intro _) | (with_reducible apply keeps_streamOwner)
    | (with_reducible apply keeps_contextWrite) | (with_reducible apply keeps_sqDoorbell)
    | (with_reducible apply keeps_cqDoorbell) | (with_reducible apply keeps_vectorWrite)
    | (with_reducible apply keeps_msixWrite) | (with_reducible apply keeps_refuseArea)
    | (with_reducible apply keeps_pageEdge) | (with_reducible apply keeps_foldl) | (with_reducible apply keeps_id)
    | (extract_lets) | (split) | (with_reducible apply keeps_ite) | (dsimp -zeta only) | (dsimp -zeta +zetaDelta only))

theorem keeps_execRegWrite (fn off v s) (hs : Keeps s₀ s) {w : State} (eq : execRegWrite fn off v s = .next w) : Keeps s₀ w := by
  unfold execRegWrite at eq
  injection eq with eq
  subst eq
  repeat' (first
    | (with_reducible assumption) | (with_reducible intro _) | (with_reducible apply keeps_posted)
    | (with_reducible apply keeps_hostWrite) | (with_reducible apply keeps_foldl) | (with_reducible apply keeps_id)
    | (extract_lets) | (split) | (with_reducible apply keeps_ite) | (dsimp -zeta only) | (dsimp -zeta +zetaDelta only))

theorem keeps_execReleaseFault (fn s) (hs : Keeps s₀ s) {w : State} (eq : execReleaseFault fn s = .next w) : Keeps s₀ w := by
  unfold execReleaseFault at eq
  injection eq with eq
  subst eq
  repeat' (first
    | (with_reducible assumption) | (with_reducible intro _) | (with_reducible apply keeps_posted)
    | (with_reducible apply keeps_gpioWrite) | (with_reducible apply keeps_releaseFault) | (with_reducible apply keeps_foldl)
    | (with_reducible apply keeps_id) | (extract_lets) | (split) | (with_reducible apply keeps_ite) | (dsimp -zeta only)
    | (dsimp -zeta +zetaDelta only))

theorem keeps_execReleaseWake (fn s) (hs : Keeps s₀ s) {w : State} (eq : execReleaseWake fn s = .next w) : Keeps s₀ w := by
  unfold execReleaseWake at eq
  injection eq with eq
  subst eq
  repeat' (first
    | (with_reducible assumption) | (with_reducible intro _) | (with_reducible apply keeps_posted)
    | (with_reducible apply keeps_gpioWrite) | (with_reducible apply keeps_releaseWake) | (with_reducible apply keeps_foldl)
    | (with_reducible apply keeps_id) | (extract_lets) | (split) | (with_reducible apply keeps_ite) | (dsimp -zeta only)
    | (dsimp -zeta +zetaDelta only))

theorem keeps_vectorAt (fn off v s) (hs : Keeps s₀ s) : Keeps s₀ (vectorAt fn off v s) := by
  unfold vectorAt
  repeat' (first
    | (with_reducible assumption) | (with_reducible intro _) | (with_reducible apply keeps_vectorWrite)
    | (with_reducible apply keeps_foldl) | (with_reducible apply keeps_id) | (extract_lets) | (split)
    | (with_reducible apply keeps_ite) | (dsimp -zeta only) | (dsimp -zeta +zetaDelta only))

theorem keeps_execStreamVectorWrite (fn off v s) (hs : Keeps s₀ s) {w : State} (eq : execStreamVectorWrite fn off v s = .next w) : Keeps s₀ w := by
  unfold execStreamVectorWrite at eq
  injection eq with eq
  subst eq
  repeat' (first
    | (with_reducible assumption) | (with_reducible intro _) | (with_reducible apply keeps_posted)
    | (with_reducible apply keeps_vectorAt) | (with_reducible apply keeps_foldl) | (with_reducible apply keeps_id)
    | (extract_lets) | (split) | (with_reducible apply keeps_ite) | (dsimp -zeta only) | (dsimp -zeta +zetaDelta only))

end Sys2Proof.Machine.Laws
end

