-- ==== Sys2Proof/Laws/KeepsHostBar.lean ====
section
/-! SUPPORT. Every definition of Sys2Proof/Machine/HostBar.lean keeps what `Keeps` names. -/

namespace Sys2Proof.Machine.Laws

variable {s₀ : State}

theorem keeps_logBar2 (fn x st s) (hs : Keeps s₀ s) : Keeps s₀ (logBar2 fn x st s) := by
  unfold logBar2
  repeat' (first
    | (with_reducible assumption) | (with_reducible intro _) | (with_reducible apply keeps_recordPriv)
    | (with_reducible apply keeps_logStatus) | (with_reducible apply keeps_foldl) | (with_reducible apply keeps_id)
    | (extract_lets) | (split) | (with_reducible apply keeps_ite) | (dsimp -zeta only) | (dsimp -zeta +zetaDelta only))

theorem keeps_bar2Load (fn x a n s) (hs : Keeps s₀ s) : Keeps s₀ (bar2Load fn x a n s) := by
  unfold bar2Load
  repeat' (first
    | (with_reducible assumption) | (with_reducible intro _) | (with_reducible apply keeps_logBar2)
    | (with_reducible apply keeps_noteEcc) | (with_reducible apply keeps_State_send) | (with_reducible apply keeps_readOver)
    | (with_reducible apply keeps_readDone) | (with_reducible apply keeps_foldl) | (with_reducible apply keeps_id)
    | (extract_lets) | (split) | (with_reducible apply keeps_ite) | (dsimp -zeta only) | (dsimp -zeta +zetaDelta only)
    | (with_reducible apply keeps_upd) | (exact Nat.le_refl _) | rfl | (exact Nat.le_add_right _ _)
    | (exact SMap.wf_filter _ (by with_reducible assumption) _))

theorem keeps_bar2Serve (fn x a n i s) (hs : Keeps s₀ s) : Keeps s₀ (bar2Serve fn x a n i s) := by
  unfold bar2Serve
  split
  · exact keeps_logBar2 _ _ _ _ (keeps_State_send _ _ hs)
  · split
    · exact keeps_with_edge (keeps_askRemote _ _ _ hs)
    · split
      · with_reducible refine keeps_atEdge _ _ _ _ _ _ _ (fun s h => ?_) (fun s h => ?_) hs
        · with_reducible exact keeps_State_send _ _ (keeps_hostWakeFail _ _ h)
        · with_reducible exact keeps_bar2Load _ _ _ _ _ h
      · exact keeps_bar2Load _ _ _ _ _ hs

theorem keeps_bar2Get (fn x n i s) (hs : Keeps s₀ s) : Keeps s₀ (bar2Get fn x n i s) := by
  unfold bar2Get
  split
  · exact keeps_State_send _ _ hs
  · exact keeps_bar2Serve _ _ _ _ _ _ hs

theorem keeps_writePieces (a data s) (hs : Keeps s₀ s) : Keeps s₀ (writePieces a data s) := by
  unfold writePieces
  repeat' (first
    | (with_reducible assumption) | (with_reducible intro _) | (with_reducible apply keeps_State_each)
    | (with_reducible apply keeps_writeFolio) | (with_reducible apply keeps_foldl) | (with_reducible apply keeps_id)
    | (extract_lets) | (split) | (with_reducible apply keeps_ite) | (dsimp -zeta only) | (dsimp -zeta +zetaDelta only))

theorem keeps_bar2Store (fn x a data s) (hs : Keeps s₀ s) : Keeps s₀ (bar2Store fn x a data s) := by
  unfold bar2Store
  repeat' (first
    | (with_reducible assumption) | (with_reducible intro _)
    | (refine keeps_allocTiles _ _ _ ?_ (by with_reducible assumption)) | (with_reducible apply keeps_logBar2)
    | (with_reducible apply keeps_noteEcc) | (with_reducible apply keeps_writePieces) | (with_reducible apply keeps_foldl)
    | (with_reducible apply keeps_id) | (extract_lets) | (split) | (with_reducible apply keeps_ite) | (dsimp -zeta only)
    | (dsimp -zeta +zetaDelta only))

theorem keeps_bar2Put (fn x data i s) (hs : Keeps s₀ s) : Keeps s₀ (bar2Put fn x data i s) := by
  unfold bar2Put
  repeat' (first
    | (with_reducible assumption) | (with_reducible intro _) | (with_reducible apply keeps_logBar2)
    | (with_reducible apply keeps_preferUnits) | (with_reducible apply keeps_atEdge)
    | (with_reducible apply keeps_hostWakeFail) | (with_reducible apply keeps_bar2Store) | (with_reducible apply keeps_foldl)
    | (with_reducible apply keeps_id) | (extract_lets) | (split) | (with_reducible apply keeps_ite) | (dsimp -zeta only)
    | (dsimp -zeta +zetaDelta only) | (with_reducible apply keeps_with_edge) | (with_reducible apply keeps_upd)
    | (exact Nat.le_refl _) | rfl | (exact Nat.le_add_right _ _) | (exact SMap.wf_filter _ (by with_reducible assumption) _))

theorem keeps_boardAlarm (alarm on s) (hs : Keeps s₀ s) : Keeps s₀ (boardAlarm alarm on s) := by
  unfold boardAlarm
  repeat' (first
    | (with_reducible assumption) | (with_reducible intro _) | (with_reducible apply keeps_foldl)
    | (with_reducible apply keeps_id) | (extract_lets) | (split) | (with_reducible apply keeps_ite) | (dsimp -zeta only)
    | (dsimp -zeta +zetaDelta only) | (with_reducible apply keeps_with_cask) | (with_reducible apply keeps_upd)
    | (exact Nat.le_refl _) | rfl | (exact Nat.le_add_right _ _) | (exact SMap.wf_filter _ (by with_reducible assumption) _))

theorem keeps_configWrite (fn off v s) (hs : Keeps s₀ s) : Keeps s₀ (configWrite fn off v s) := by
  unfold configWrite
  repeat' (first
    | (with_reducible assumption) | (with_reducible intro _) | (with_reducible apply keeps_State_each)
    | (with_reducible apply keeps_State_setRegN) | (with_reducible apply keeps_releaseVector)
    | (with_reducible apply keeps_foldl) | (with_reducible apply keeps_id) | (extract_lets) | (split)
    | (with_reducible apply keeps_ite) | (dsimp -zeta only) | (dsimp -zeta +zetaDelta only))

theorem keeps_configRequest (fn off wr v s) (hs : Keeps s₀ s) : Keeps s₀ (configRequest fn off wr v s) := by
  unfold configRequest
  repeat' (first
    | (with_reducible assumption) | (with_reducible intro _) | (with_reducible apply keeps_State_send)
    | (with_reducible apply keeps_configWrite) | (with_reducible apply keeps_foldl) | (with_reducible apply keeps_id)
    | (extract_lets) | (split) | (with_reducible apply keeps_ite) | (dsimp -zeta only) | (dsimp -zeta +zetaDelta only)
    | (with_reducible apply keeps_upd) | (exact Nat.le_refl _) | rfl | (exact Nat.le_add_right _ _)
    | (exact SMap.wf_filter _ (by with_reducible assumption) _))

theorem keeps_coolantPin (level s) (hs : Keeps s₀ s) : Keeps s₀ (coolantPin level s) := by
  unfold coolantPin
  repeat' (first
    | (with_reducible assumption) | (with_reducible intro _) | (with_reducible apply keeps_coolantAct)
    | (with_reducible apply keeps_State_setFlag) | (with_reducible apply keeps_foldl) | (with_reducible apply keeps_id)
    | (extract_lets) | (split) | (with_reducible apply keeps_ite) | (dsimp -zeta only) | (dsimp -zeta +zetaDelta only))

theorem keeps_execBar2Read (fn off n s) (hs : Keeps s₀ s) {w : State} (eq : execBar2Read fn off n s = .next w) : Keeps s₀ w := by
  unfold execBar2Read at eq
  injection eq with eq
  subst eq
  repeat' (first
    | (with_reducible assumption) | (with_reducible intro _) | (with_reducible apply keeps_posted)
    | (with_reducible apply keeps_bar2Get) | (with_reducible apply keeps_foldl) | (with_reducible apply keeps_id)
    | (extract_lets) | (split) | (with_reducible apply keeps_ite) | (dsimp -zeta only) | (dsimp -zeta +zetaDelta only))

theorem keeps_execBar2Write (fn off data s) (hs : Keeps s₀ s) {w : State} (eq : execBar2Write fn off data s = .next w) : Keeps s₀ w := by
  unfold execBar2Write at eq
  injection eq with eq
  subst eq
  repeat' (first
    | (with_reducible assumption) | (with_reducible intro _) | (with_reducible apply keeps_posted)
    | (with_reducible apply keeps_bar2Put) | (with_reducible apply keeps_foldl) | (with_reducible apply keeps_id)
    | (extract_lets) | (split) | (with_reducible apply keeps_ite) | (dsimp -zeta only) | (dsimp -zeta +zetaDelta only))

theorem keeps_execBoardAlarm (alarm on s) (hs : Keeps s₀ s) {w : State} (eq : execBoardAlarm alarm on s = .next w) : Keeps s₀ w := by
  unfold execBoardAlarm at eq
  injection eq with eq
  subst eq
  repeat' (first
    | (with_reducible assumption) | (with_reducible intro _) | (with_reducible apply keeps_boardAlarm)
    | (with_reducible apply keeps_foldl) | (with_reducible apply keeps_id) | (extract_lets) | (split)
    | (with_reducible apply keeps_ite) | (dsimp -zeta only) | (dsimp -zeta +zetaDelta only))

theorem keeps_execConfigRequest (fn a s) (hs : Keeps s₀ s) {w : State} (eq : execConfigRequest fn a s = .next w) : Keeps s₀ w := by
  unfold execConfigRequest at eq
  injection eq with eq
  subst eq
  repeat' (first
    | (with_reducible assumption) | (with_reducible intro _) | (with_reducible apply keeps_configRequest)
    | (with_reducible apply keeps_foldl) | (with_reducible apply keeps_id) | (extract_lets) | (split)
    | (with_reducible apply keeps_ite) | (dsimp -zeta only) | (dsimp -zeta +zetaDelta only))

theorem keeps_execCoolantPin (level s) (hs : Keeps s₀ s) {w : State} (eq : execCoolantPin level s = .next w) : Keeps s₀ w := by
  unfold execCoolantPin at eq
  injection eq with eq
  subst eq
  repeat' (first
    | (with_reducible assumption) | (with_reducible intro _) | (with_reducible apply keeps_coolantPin)
    | (with_reducible apply keeps_foldl) | (with_reducible apply keeps_id) | (extract_lets) | (split)
    | (with_reducible apply keeps_ite) | (dsimp -zeta only) | (dsimp -zeta +zetaDelta only))

theorem keeps_flrClear (f ids s) (hs : Keeps s₀ s) : Keeps s₀ (flrClear f ids s) := by
  unfold flrClear
  repeat' (first
    | (with_reducible assumption) | (with_reducible intro _) | (with_reducible apply keeps_State_each)
    | (with_reducible apply keeps_foldl) | (with_reducible apply keeps_id) | (extract_lets) | (split)
    | (with_reducible apply keeps_ite) | (dsimp -zeta only) | (dsimp -zeta +zetaDelta only)
    | (with_reducible apply keeps_with_regs) | (with_reducible apply keeps_with_irqs)
    | (with_reducible apply keeps_with_allocs) | (with_reducible apply keeps_with_vectors) | (with_reducible apply keeps_upd)
    | (exact Nat.le_refl _) | rfl | (exact Nat.le_add_right _ _) | (exact SMap.wf_filter _ (by with_reducible assumption) _))

theorem keeps_flrStream (id s) (hs : Keeps s₀ s) : Keeps s₀ (flrStream id s) := by
  unfold flrStream
  repeat' (first
    | (with_reducible assumption) | (with_reducible intro _) | (with_reducible apply keeps_State_setStream)
    | (with_reducible apply keeps_drainStream) | (with_reducible apply keeps_foldl) | (with_reducible apply keeps_id)
    | (extract_lets) | (split) | (with_reducible apply keeps_ite) | (dsimp -zeta only) | (dsimp -zeta +zetaDelta only))

theorem keeps_flrOne (f s) (hs : Keeps s₀ s) : Keeps s₀ (flrOne f s) := by
  unfold flrOne
  repeat' (first
    | (with_reducible assumption) | (with_reducible intro _) | (with_reducible apply keeps_flrClear)
    | (with_reducible apply keeps_State_each) | (with_reducible apply keeps_flrStream) | (with_reducible apply keeps_foldl)
    | (with_reducible apply keeps_id) | (extract_lets) | (split) | (with_reducible apply keeps_ite) | (dsimp -zeta only)
    | (dsimp -zeta +zetaDelta only))

theorem keeps_functionReset (f s) (hs : Keeps s₀ s) : Keeps s₀ (functionReset f s) := by
  unfold functionReset
  repeat' (first
    | (with_reducible assumption) | (with_reducible intro _) | (with_reducible apply keeps_State_each)
    | (with_reducible apply keeps_flrOne) | (with_reducible apply keeps_foldl) | (with_reducible apply keeps_id)
    | (extract_lets) | (split) | (with_reducible apply keeps_ite) | (dsimp -zeta only) | (dsimp -zeta +zetaDelta only))

theorem keeps_execFunctionLevelReset (f s) (hs : Keeps s₀ s) {w : State} (eq : execFunctionLevelReset f s = .next w) : Keeps s₀ w := by
  unfold execFunctionLevelReset at eq
  injection eq with eq
  subst eq
  repeat' (first
    | (with_reducible assumption) | (with_reducible intro _) | (with_reducible apply keeps_functionReset)
    | (with_reducible apply keeps_foldl) | (with_reducible apply keeps_id) | (extract_lets) | (split)
    | (with_reducible apply keeps_ite) | (dsimp -zeta only) | (dsimp -zeta +zetaDelta only))

theorem keeps_holdoffExpiry (fn vec s) (hs : Keeps s₀ s) : Keeps s₀ (holdoffExpiry fn vec s) := by
  unfold holdoffExpiry
  repeat' (first
    | (with_reducible assumption) | (with_reducible intro _) | (with_reducible apply keeps_irqSend)
    | (with_reducible apply keeps_foldl) | (with_reducible apply keeps_id) | (extract_lets) | (split)
    | (with_reducible apply keeps_ite) | (dsimp -zeta only) | (dsimp -zeta +zetaDelta only))

theorem keeps_execIrqHoldoffExpiry (fn vec s) (hs : Keeps s₀ s) {w : State} (eq : execIrqHoldoffExpiry fn vec s = .next w) : Keeps s₀ w := by
  unfold execIrqHoldoffExpiry at eq
  injection eq with eq
  subst eq
  repeat' (first
    | (with_reducible assumption) | (with_reducible intro _) | (with_reducible apply keeps_holdoffExpiry)
    | (with_reducible apply keeps_foldl) | (with_reducible apply keeps_id) | (extract_lets) | (split)
    | (with_reducible apply keeps_ite) | (dsimp -zeta only) | (dsimp -zeta +zetaDelta only))

theorem keeps_setLink (w s) (hs : Keeps s₀ s) : Keeps s₀ (setLink w s) := by
  unfold setLink
  repeat' (first
    | (with_reducible assumption) | (with_reducible intro _) | (with_reducible apply keeps_State_setRegN)
    | (with_reducible apply keeps_raiseEv) | (with_reducible apply keeps_foldl) | (with_reducible apply keeps_id)
    | (extract_lets) | (split) | (with_reducible apply keeps_ite) | (dsimp -zeta only) | (dsimp -zeta +zetaDelta only))

theorem keeps_linkChange (kind speed width flit s) (hs : Keeps s₀ s) : Keeps s₀ (linkChange kind speed width flit s) := by
  unfold linkChange
  repeat' (first
    | (with_reducible assumption) | (with_reducible intro _) | (with_reducible apply keeps_setLink)
    | (with_reducible apply keeps_functionReset) | (with_reducible apply keeps_foldl) | (with_reducible apply keeps_id)
    | (extract_lets) | (split) | (with_reducible apply keeps_ite) | (dsimp -zeta only) | (dsimp -zeta +zetaDelta only))

theorem keeps_execPcieLinkChange (kind speed width flit s) (hs : Keeps s₀ s) {w : State} (eq : execPcieLinkChange kind speed width flit s = .next w) : Keeps s₀ w := by
  unfold execPcieLinkChange at eq
  injection eq with eq
  subst eq
  repeat' (first
    | (with_reducible assumption) | (with_reducible intro _) | (with_reducible apply keeps_linkChange)
    | (with_reducible apply keeps_foldl) | (with_reducible apply keeps_id) | (extract_lets) | (split)
    | (with_reducible apply keeps_ite) | (dsimp -zeta only) | (dsimp -zeta +zetaDelta only))

theorem keeps_wakeEvery (s) (hs : Keeps s₀ s) : Keeps s₀ (wakeEvery s) := by
  unfold wakeEvery
  repeat' (first
    | (with_reducible assumption) | (with_reducible intro _) | (with_reducible apply keeps_State_each)
    | (with_reducible apply keeps_startWake) | (with_reducible apply keeps_foldl) | (with_reducible apply keeps_id)
    | (extract_lets) | (split) | (with_reducible apply keeps_ite) | (dsimp -zeta only) | (dsimp -zeta +zetaDelta only))

theorem keeps_wakePin (level s) (hs : Keeps s₀ s) : Keeps s₀ (wakePin level s) := by
  unfold wakePin
  repeat' (first
    | (with_reducible assumption) | (with_reducible intro _) | (with_reducible apply keeps_State_setFlag)
    | (with_reducible apply keeps_raiseEv) | (with_reducible apply keeps_wakeEvery) | (with_reducible apply keeps_foldl)
    | (with_reducible apply keeps_id) | (extract_lets) | (split) | (with_reducible apply keeps_ite) | (dsimp -zeta only)
    | (dsimp -zeta +zetaDelta only))

theorem keeps_execWakePin (level s) (hs : Keeps s₀ s) {w : State} (eq : execWakePin level s = .next w) : Keeps s₀ w := by
  unfold execWakePin at eq
  injection eq with eq
  subst eq
  repeat' (first
    | (with_reducible assumption) | (with_reducible intro _) | (with_reducible apply keeps_wakePin)
    | (with_reducible apply keeps_foldl) | (with_reducible apply keeps_id) | (extract_lets) | (split)
    | (with_reducible apply keeps_ite) | (dsimp -zeta only) | (dsimp -zeta +zetaDelta only))

end Sys2Proof.Machine.Laws
end

