-- ==== Sys2Proof/Laws/KeepsWake.lean ====
section
/-! SUPPORT. Every definition of Sys2Proof/Machine/Wake.lean keeps what `Keeps` names. -/

namespace Sys2Proof.Machine.Laws

variable {s₀ : State}

theorem keeps_dropTest (d f s) (hs : Keeps s₀ s) : Keeps s₀ (dropTest d f s) := by
  unfold dropTest
  repeat' (first
    | (with_reducible assumption) | (with_reducible intro _) | (with_reducible apply keeps_State_when)
    | (with_reducible apply keeps_State_setMon) | (with_reducible apply keeps_State_setFlag)
    | (with_reducible apply keeps_State_setFld) | (with_reducible apply keeps_hostWakeFail)
    | (with_reducible apply keeps_foldl) | (with_reducible apply keeps_id) | (extract_lets) | (split)
    | (with_reducible apply keeps_ite) | (dsimp -zeta only) | (dsimp -zeta +zetaDelta only))

theorem keeps_endWake (d f st s) (hs : Keeps s₀ s) : Keeps s₀ (endWake d f st s) := by
  unfold endWake
  repeat' (first
    | (with_reducible assumption) | (with_reducible intro _) | (with_reducible apply keeps_setFormeState)
    | (with_reducible apply keeps_State_setRegN) | (with_reducible apply keeps_foldl) | (with_reducible apply keeps_id)
    | (extract_lets) | (split) | (with_reducible apply keeps_ite) | (dsimp -zeta only) | (dsimp -zeta +zetaDelta only)
    | (with_reducible apply keeps_with_wakeAt) | (with_reducible apply keeps_upd) | (exact Nat.le_refl _) | rfl
    | (exact Nat.le_add_right _ _) | (exact SMap.wf_filter _ (by with_reducible assumption) _))

theorem keeps_outcomeOr (s o) (hs : Keeps s₀ s) (ho : ∀ t, o = .next t → Keeps s₀ t) : Keeps s₀ (outcomeOr s o) := by
  unfold Sys2Proof.Machine.outcomeOr
  split
  · exact ho _ rfl
  · exact hs

theorem keeps_moveTry (r j s) (hs : Keeps s₀ s) : Keeps s₀ (moveTry r j s) := by
  unfold moveTry
  repeat' (first
    | (with_reducible assumption) | (with_reducible intro _) | (with_reducible apply keeps_startWake)
    | (with_reducible apply keeps_tileMoveCommit) | (with_reducible apply keeps_foldl) | (with_reducible apply keeps_id)
    | (extract_lets) | (split) | (with_reducible apply keeps_ite) | (dsimp -zeta only) | (dsimp -zeta +zetaDelta only)
    | (with_reducible apply keeps_with_edge) | (with_reducible apply keeps_upd) | (exact Nat.le_refl _) | rfl
    | (exact Nat.le_add_right _ _) | (exact SMap.wf_filter _ (by with_reducible assumption) _))

theorem keeps_proceed (i s) (hs : Keeps s₀ s) : Keeps s₀ (proceed i s) := by
  unfold proceed
  repeat' (first
    | (with_reducible assumption) | (with_reducible intro _)
    | (with_reducible exact keeps_execTokenArrival _ _ _ _ _ (by with_reducible assumption) (by with_reducible assumption))
    | (with_reducible exact keeps_execCreditArrival _ _ _ _ (by with_reducible assumption) (by with_reducible assumption))
    | (with_reducible exact keeps_execWaitTimerExpiry _ _ (by with_reducible assumption) (by with_reducible assumption))
    | (with_reducible exact keeps_execCoreRun _ _ _ (by with_reducible assumption) (by with_reducible assumption))
    | (with_reducible exact keeps_execCoreHalt _ _ _ (by with_reducible assumption) (by with_reducible assumption))
    | (with_reducible exact keeps_execCoreStep _ _ _ (by with_reducible assumption) (by with_reducible assumption))
    | (with_reducible exact keeps_execCoreReset _ _ _ (by with_reducible assumption) (by with_reducible assumption))
    | (with_reducible exact keeps_execCoreWake _ _ _ (by with_reducible assumption) (by with_reducible assumption))
    | (with_reducible exact keeps_execLoadImem _ _ _ (by with_reducible assumption) (by with_reducible assumption))
    | (with_reducible exact keeps_execLoadDmem _ _ _ (by with_reducible assumption) (by with_reducible assumption))
    | (with_reducible exact keeps_execChsMemDataAccess _ _ _ _ _ (by with_reducible assumption) (by with_reducible assumption))
    | (with_reducible exact keeps_execStepEnd _ _ _ (by with_reducible assumption) (by with_reducible assumption))
    | (with_reducible exact keeps_execHydRingCfgWrite _ _ _ _ (by with_reducible assumption) (by with_reducible assumption))
    | (with_reducible exact keeps_execPtgEntLoad _ _ (by with_reducible assumption) (by with_reducible assumption))
    | (with_reducible exact keeps_execPtgEntCommit _ _ (by with_reducible assumption) (by with_reducible assumption))
    | (with_reducible exact keeps_execLscaleWrite _ _ _ (by with_reducible assumption) (by with_reducible assumption))
    | (with_reducible exact keeps_execSeedLoad _ _ (by with_reducible assumption) (by with_reducible assumption))
    | (with_reducible exact keeps_execSeedCommit _ _ (by with_reducible assumption) (by with_reducible assumption))
    | (with_reducible exact keeps_execTstEntLoad _ _ (by with_reducible assumption) (by with_reducible assumption))
    | (with_reducible exact keeps_execTstEntCommit _ _ (by with_reducible assumption) (by with_reducible assumption))
    | (with_reducible exact keeps_execRegionMap _ _ _ (by with_reducible assumption) (by with_reducible assumption))
    | (with_reducible exact keeps_execRegionUnmap _ _ _ (by with_reducible assumption) (by with_reducible assumption))
    | (with_reducible exact keeps_execQuotaLoad _ _ (by with_reducible assumption) (by with_reducible assumption))
    | (with_reducible exact keeps_execQuotaCommit _ _ (by with_reducible assumption) (by with_reducible assumption))
    | (with_reducible exact keeps_execLeaseLoad _ _ (by with_reducible assumption) (by with_reducible assumption))
    | (with_reducible exact keeps_execLeaseRequest _ _ (by with_reducible assumption) (by with_reducible assumption))
    | (with_reducible exact keeps_execLeaseRenew _ _ (by with_reducible assumption) (by with_reducible assumption))
    | (with_reducible exact keeps_execLeaseRelease _ _ (by with_reducible assumption) (by with_reducible assumption))
    | (with_reducible exact keeps_execLendCfgWrite _ _ _ _ (by with_reducible assumption) (by with_reducible assumption))
    | (with_reducible exact keeps_execStreamAlloc _ _ _ (by with_reducible assumption) (by with_reducible assumption))
    | (with_reducible exact keeps_execStreamContextWrite _ _ _ _ _ (by with_reducible assumption) (by with_reducible assumption))
    | (with_reducible exact keeps_execStreamActivate _ _ _ (by with_reducible assumption) (by with_reducible assumption))
    | (with_reducible exact keeps_execStreamPause _ _ _ (by with_reducible assumption) (by with_reducible assumption))
    | (with_reducible exact keeps_execStreamResume _ _ _ (by with_reducible assumption) (by with_reducible assumption))
    | (with_reducible exact keeps_execStreamClose _ _ _ (by with_reducible assumption) (by with_reducible assumption))
    | (with_reducible exact keeps_execSqDoorbell _ _ _ _ (by with_reducible assumption) (by with_reducible assumption))
    | (with_reducible exact keeps_execCqDoorbell _ _ _ _ (by with_reducible assumption) (by with_reducible assumption))
    | (with_reducible exact keeps_execJobLoad _ _ (by with_reducible assumption) (by with_reducible assumption))
    | (with_reducible exact keeps_execJobCommit _ _ (by with_reducible assumption) (by with_reducible assumption))
    | (with_reducible exact keeps_execPortEnable _ _ _ _ (by with_reducible assumption) (by with_reducible assumption))
    | (with_reducible exact keeps_execPortRetrain _ _ _ (by with_reducible assumption) (by with_reducible assumption))
    | (with_reducible exact keeps_execWriteRx _ _ _ (by with_reducible assumption) (by with_reducible assumption))
    | (with_reducible exact keeps_execReadReqRx _ _ _ (by with_reducible assumption) (by with_reducible assumption))
    | (with_reducible exact keeps_execReadRespRx _ _ _ (by with_reducible assumption) (by with_reducible assumption))
    | (with_reducible exact keeps_execBgWriteRx _ _ _ (by with_reducible assumption) (by with_reducible assumption))
    | (with_reducible exact keeps_execBgReadReqRx _ _ _ (by with_reducible assumption) (by with_reducible assumption))
    | (with_reducible exact keeps_execRtLoad _ _ (by with_reducible assumption) (by with_reducible assumption))
    | (with_reducible exact keeps_execRtCommit _ _ (by with_reducible assumption) (by with_reducible assumption))
    | (with_reducible exact keeps_execCtxLoad _ _ (by with_reducible assumption) (by with_reducible assumption))
    | (with_reducible exact keeps_execCtxArm _ _ (by with_reducible assumption) (by with_reducible assumption))
    | (with_reducible exact keeps_execCtxDisarm _ _ (by with_reducible assumption) (by with_reducible assumption))
    | (with_reducible exact keeps_execPsetLoad _ _ (by with_reducible assumption) (by with_reducible assumption))
    | (with_reducible exact keeps_execPsetCommit _ _ (by with_reducible assumption) (by with_reducible assumption))
    | (with_reducible exact keeps_execMapEntLoad _ _ (by with_reducible assumption) (by with_reducible assumption))
    | (with_reducible exact keeps_execMapEntCommit _ _ (by with_reducible assumption) (by with_reducible assumption))
    | (with_reducible exact keeps_execCaskRequest _ _ (by with_reducible assumption) (by with_reducible assumption))
    | (with_reducible exact keeps_execStopArm _ _ _ (by with_reducible assumption) (by with_reducible assumption))
    | (with_reducible exact keeps_execCaskCut _ _ (by with_reducible assumption) (by with_reducible assumption))
    | (with_reducible exact keeps_execCaskResume _ _ (by with_reducible assumption) (by with_reducible assumption))
    | (with_reducible exact keeps_execCaskRestore _ _ _ (by with_reducible assumption) (by with_reducible assumption))
    | (with_reducible exact keeps_execBuddyPair _ _ _ (by with_reducible assumption) (by with_reducible assumption))
    | (with_reducible exact keeps_execFeedWrite _ _ _ (by with_reducible assumption) (by with_reducible assumption))
    | (with_reducible exact keeps_execTraceEnable _ _ _ _ (by with_reducible assumption) (by with_reducible assumption))
    | (with_reducible exact keeps_execTraceTrigger _ _ _ (by with_reducible assumption) (by with_reducible assumption))
    | (with_reducible exact keeps_execTraceArm _ _ _ (by with_reducible assumption) (by with_reducible assumption))
    | (with_reducible exact keeps_execCounterSnap _ _ (by with_reducible assumption) (by with_reducible assumption))
    | (with_reducible exact keeps_execSnapRelease _ _ (by with_reducible assumption) (by with_reducible assumption))
    | (with_reducible exact keeps_execHangRequest _ _ (by with_reducible assumption) (by with_reducible assumption))
    | (with_reducible exact keeps_execProofModeWrite _ _ _ _ (by with_reducible assumption) (by with_reducible assumption))
    | (with_reducible exact keeps_execMarginStart _ _ _ _ (by with_reducible assumption) (by with_reducible assumption))
    | (with_reducible exact keeps_execClrRead _ _ (by with_reducible assumption) (by with_reducible assumption))
    | (with_reducible exact keeps_execClrAppend _ _ (by with_reducible assumption) (by with_reducible assumption))
    | (with_reducible exact keeps_execFormeWakeRetry _ _ _ _ (by with_reducible assumption) (by with_reducible assumption))
    | (with_reducible exact keeps_execForceOnWrite _ _ _ _ _ (by with_reducible assumption) (by with_reducible assumption))
    | (with_reducible exact keeps_execCapWrite _ _ _ _ (by with_reducible assumption) (by with_reducible assumption))
    | (with_reducible exact keeps_execShareLoad _ _ (by with_reducible assumption) (by with_reducible assumption))
    | (with_reducible exact keeps_execShareCommit _ _ (by with_reducible assumption) (by with_reducible assumption))
    | (with_reducible exact keeps_execClaimDuty _ _ (by with_reducible assumption) (by with_reducible assumption))
    | (with_reducible exact keeps_execReleaseDuty _ _ (by with_reducible assumption) (by with_reducible assumption))
    | (with_reducible exact keeps_execClaimVset _ _ (by with_reducible assumption) (by with_reducible assumption))
    | (with_reducible exact keeps_execReleaseVset _ _ (by with_reducible assumption) (by with_reducible assumption))
    | (with_reducible exact keeps_execRstCtrlWrite _ _ _ (by with_reducible assumption) (by with_reducible assumption))
    | (with_reducible exact keeps_execBar2Write _ _ _ _ (by with_reducible assumption) (by with_reducible assumption))
    | (with_reducible exact keeps_execBar2Read _ _ _ _ (by with_reducible assumption) (by with_reducible assumption))
    | (with_reducible exact keeps_execStreamVectorWrite _ _ _ _ (by with_reducible assumption) (by with_reducible assumption))
    | (with_reducible exact keeps_execPageOwnerWrite _ _ _ _ (by with_reducible assumption) (by with_reducible assumption))
    | (with_reducible exact keeps_execClaimWake _ _ (by with_reducible assumption) (by with_reducible assumption))
    | (with_reducible exact keeps_execReleaseWake _ _ (by with_reducible assumption) (by with_reducible assumption))
    | (with_reducible exact keeps_execClaimFault _ _ (by with_reducible assumption) (by with_reducible assumption))
    | (with_reducible exact keeps_execReleaseFault _ _ (by with_reducible assumption) (by with_reducible assumption))
    | (with_reducible exact keeps_execErrStatusClear _ _ _ _ (by with_reducible assumption) (by with_reducible assumption))
    | (with_reducible exact keeps_execEvRawClear _ _ _ _ (by with_reducible assumption) (by with_reducible assumption))
    | (with_reducible exact keeps_execEvForceWrite _ _ _ _ (by with_reducible assumption) (by with_reducible assumption))
    | (with_reducible exact keeps_execLoReadLatch _ _ _ (by with_reducible assumption) (by with_reducible assumption))
    | (with_reducible exact keeps_execRegWrite _ _ _ _ (by with_reducible assumption) (by with_reducible assumption))
    | (with_reducible exact keeps_execRefusedRead _ _ _ (by with_reducible assumption) (by with_reducible assumption))
    | (with_reducible apply keeps_outcomeOr) | (with_reducible apply keeps_moveTry) | (with_reducible apply keeps_foldl)
    | (with_reducible apply keeps_id) | (extract_lets) | (split) | (with_reducible apply keeps_ite) | (dsimp -zeta only)
    | (dsimp -zeta +zetaDelta only))

theorem keeps_rerun (s) (hs : Keeps s₀ s) : Keeps s₀ (rerun s) := by
  unfold rerun
  repeat' (first
    | (with_reducible assumption) | (with_reducible intro _) | (with_reducible apply keeps_proceed)
    | (with_reducible apply keeps_foldl) | (with_reducible apply keeps_id) | (extract_lets) | (split)
    | (with_reducible apply keeps_ite) | (dsimp -zeta only) | (dsimp -zeta +zetaDelta only)
    | (with_reducible apply keeps_with_edge) | (with_reducible apply keeps_upd) | (exact Nat.le_refl _) | rfl
    | (exact Nat.le_add_right _ _) | (exact SMap.wf_filter _ (by with_reducible assumption) _))

theorem keeps_wakeDone (d f s) (hs : Keeps s₀ s) : Keeps s₀ (wakeDone d f s) := by
  unfold wakeDone
  repeat' (first
    | (with_reducible assumption) | (with_reducible intro _) | (with_reducible apply keeps_settle)
    | (with_reducible apply keeps_tryArrays) | (with_reducible apply keeps_rerun) | (with_reducible apply keeps_endWake)
    | (with_reducible apply keeps_foldl) | (with_reducible apply keeps_id) | (extract_lets) | (split)
    | (with_reducible apply keeps_ite) | (dsimp -zeta only) | (dsimp -zeta +zetaDelta only))

theorem keeps_execFormeWakeDone (d f s) (hs : Keeps s₀ s) {w : State} (eq : execFormeWakeDone d f s = .next w) : Keeps s₀ w := by
  unfold execFormeWakeDone at eq
  injection eq with eq
  subst eq
  repeat' (first
    | (with_reducible assumption) | (with_reducible intro _) | (with_reducible apply keeps_wakeDone)
    | (with_reducible apply keeps_foldl) | (with_reducible apply keeps_id) | (extract_lets) | (split)
    | (with_reducible apply keeps_ite) | (dsimp -zeta only) | (dsimp -zeta +zetaDelta only))

theorem keeps_failQueue (u s) (hs : Keeps s₀ s) : Keeps s₀ (failQueue u s) := by
  unfold failQueue
  repeat' (first
    | (with_reducible assumption) | (with_reducible intro _) | (with_reducible apply keeps_State_each)
    | (with_reducible apply keeps_settle) | (with_reducible apply keeps_finish) | (with_reducible apply keeps_countWakeTo)
    | (with_reducible apply keeps_foldl) | (with_reducible apply keeps_id) | (extract_lets) | (split)
    | (with_reducible apply keeps_ite) | (dsimp -zeta only) | (dsimp -zeta +zetaDelta only))

theorem keeps_wakeTimeout (d f s) (hs : Keeps s₀ s) : Keeps s₀ (wakeTimeout d f s) := by
  unfold wakeTimeout
  repeat' (first
    | (with_reducible assumption) | (with_reducible intro _) | (with_reducible apply keeps_raiseEv)
    | (with_reducible apply keeps_endWake) | (with_reducible apply keeps_dropTest) | (with_reducible apply keeps_rerun)
    | (with_reducible apply keeps_State_each) | (with_reducible apply keeps_failQueue) | (with_reducible apply keeps_foldl)
    | (with_reducible apply keeps_id) | (extract_lets) | (split) | (with_reducible apply keeps_ite) | (dsimp -zeta only)
    | (dsimp -zeta +zetaDelta only))

theorem keeps_execFormeWakeTimeout (d f s) (hs : Keeps s₀ s) {w : State} (eq : execFormeWakeTimeout d f s = .next w) : Keeps s₀ w := by
  unfold execFormeWakeTimeout at eq
  injection eq with eq
  subst eq
  repeat' (first
    | (with_reducible assumption) | (with_reducible intro _) | (with_reducible apply keeps_wakeTimeout)
    | (with_reducible apply keeps_foldl) | (with_reducible apply keeps_id) | (extract_lets) | (split)
    | (with_reducible apply keeps_ite) | (dsimp -zeta only) | (dsimp -zeta +zetaDelta only))

theorem keeps_unitCopied (s) (hs : Keeps s₀ s) : Keeps s₀ (unitCopied s) := by
  unfold unitCopied
  repeat' (first
    | (with_reducible assumption) | (with_reducible intro _) | (with_reducible apply keeps_rerun)
    | (with_reducible apply keeps_pendingUnitCopied) | (with_reducible apply keeps_foldl) | (with_reducible apply keeps_id)
    | (extract_lets) | (split) | (with_reducible apply keeps_ite) | (dsimp -zeta only) | (dsimp -zeta +zetaDelta only))

theorem keeps_execPendingUnitCopied (s) (hs : Keeps s₀ s) {w : State} (eq : execPendingUnitCopied s = .next w) : Keeps s₀ w := by
  unfold execPendingUnitCopied at eq
  injection eq with eq
  subst eq
  repeat' (first
    | (with_reducible assumption) | (with_reducible intro _) | (with_reducible apply keeps_unitCopied)
    | (with_reducible apply keeps_foldl) | (with_reducible apply keeps_id) | (extract_lets) | (split)
    | (with_reducible apply keeps_ite) | (dsimp -zeta only) | (dsimp -zeta +zetaDelta only))

theorem keeps_moveCommit (r j s) (hs : Keeps s₀ s) : Keeps s₀ (moveCommit r j s) := by
  unfold moveCommit
  repeat' (first
    | (with_reducible assumption) | (with_reducible intro _) | (with_reducible apply keeps_rerun)
    | (with_reducible apply keeps_moveTry) | (with_reducible apply keeps_foldl) | (with_reducible apply keeps_id)
    | (extract_lets) | (split) | (with_reducible apply keeps_ite) | (dsimp -zeta only) | (dsimp -zeta +zetaDelta only))

theorem keeps_execTileMoveCommit (r j s) (hs : Keeps s₀ s) {w : State} (eq : execTileMoveCommit r j s = .next w) : Keeps s₀ w := by
  unfold execTileMoveCommit at eq
  injection eq with eq
  subst eq
  repeat' (first
    | (with_reducible assumption) | (with_reducible intro _) | (with_reducible apply keeps_moveCommit)
    | (with_reducible apply keeps_foldl) | (with_reducible apply keeps_id) | (extract_lets) | (split)
    | (with_reducible apply keeps_ite) | (dsimp -zeta only) | (dsimp -zeta +zetaDelta only))

end Sys2Proof.Machine.Laws
end

