-- ==== Sys2Proof/Laws/KeepsMgmt.lean ====
section
/-! SUPPORT. Every definition of Sys2Proof/Machine/Mgmt.lean keeps what `Keeps` names. -/

namespace Sys2Proof.Machine.Laws

variable {s₀ : State}

theorem keeps_answer (ep what code data s) (hs : Keeps s₀ s) : Keeps s₀ (answer ep what code data s) := by
  unfold answer
  repeat' (first
    | (with_reducible assumption) | (with_reducible intro _) | (with_reducible apply keeps_State_send)
    | (with_reducible apply keeps_foldl) | (with_reducible apply keeps_id) | (extract_lets) | (split)
    | (with_reducible apply keeps_ite) | (dsimp -zeta only) | (dsimp -zeta +zetaDelta only))

theorem keeps_inUpdate (ep what phases f s) (hf : ∀ x s, Keeps s₀ s → Keeps s₀ (f x s)) (hs : Keeps s₀ s) : Keeps s₀ (inUpdate ep what phases f s) := by
  unfold inUpdate
  repeat' (first
    | (with_reducible assumption) | (with_reducible intro _) | (with_reducible apply keeps_answer)
    | (with_reducible apply keeps_foldl) | (with_reducible apply keeps_id) | (apply hf) | (extract_lets) | (split)
    | (with_reducible apply keeps_ite) | (dsimp -zeta only) | (dsimp -zeta +zetaDelta only))

theorem keeps_setUpdate (u s) (hs : Keeps s₀ s) : Keeps s₀ (setUpdate u s) := by
  unfold setUpdate
  repeat' (first
    | (with_reducible assumption) | (with_reducible intro _) | (with_reducible apply keeps_State_setFlag)
    | (with_reducible apply keeps_foldl) | (with_reducible apply keeps_id) | (extract_lets) | (split)
    | (with_reducible apply keeps_ite) | (dsimp -zeta only) | (dsimp -zeta +zetaDelta only)
    | (with_reducible apply keeps_upd) | (exact Nat.le_refl _) | rfl | (exact Nat.le_add_right _ _)
    | (exact SMap.wf_filter _ (by with_reducible assumption) _))

theorem keeps_restartMuzomus (s) (hs : Keeps s₀ s) : Keeps s₀ (restartMuzomus s) := by
  unfold restartMuzomus
  repeat' (first
    | (with_reducible assumption) | (with_reducible intro _) | (with_reducible apply keeps_restartNow)
    | (with_reducible apply keeps_foldl) | (with_reducible apply keeps_id) | (extract_lets) | (split)
    | (with_reducible apply keeps_ite) | (dsimp -zeta only) | (dsimp -zeta +zetaDelta only)
    | (with_reducible apply keeps_upd) | (exact Nat.le_refl _) | rfl | (exact Nat.le_add_right _ _)
    | (exact SMap.wf_filter _ (by with_reducible assumption) _))

theorem keeps_activate (ep selfContained reset s) (hs : Keeps s₀ s) : Keeps s₀ (activate ep selfContained reset s) := by
  unfold activate
  repeat' (first
    | (with_reducible assumption) | (with_reducible intro _) | (with_reducible apply keeps_inUpdate)
    | (with_reducible apply keeps_setUpdate) | (with_reducible apply keeps_answer) | (with_reducible apply keeps_State_when)
    | (with_reducible apply keeps_restartMuzomus) | (with_reducible apply keeps_takeReset)
    | (with_reducible apply keeps_foldl) | (with_reducible apply keeps_id) | (extract_lets) | (split)
    | (with_reducible apply keeps_ite) | (dsimp -zeta only) | (dsimp -zeta +zetaDelta only))

theorem keeps_answerOpen (ep what kind n s) (hs : Keeps s₀ s) : Keeps s₀ (answerOpen ep what kind n s) := by
  unfold answerOpen
  repeat' (first
    | (with_reducible assumption) | (with_reducible intro _) | (with_reducible apply keeps_answer)
    | (with_reducible apply keeps_foldl) | (with_reducible apply keeps_id) | (extract_lets) | (split)
    | (with_reducible apply keeps_ite) | (dsimp -zeta only) | (dsimp -zeta +zetaDelta only))

theorem keeps_applyOptions (img s) (hs : Keeps s₀ s) : Keeps s₀ (applyOptions img s) := by
  unfold applyOptions
  repeat' (first
    | (with_reducible assumption) | (with_reducible intro _) | (with_reducible apply keeps_State_each)
    | (with_reducible apply keeps_colAppend) | (with_reducible apply keeps_writeImage) | (with_reducible apply keeps_foldl)
    | (with_reducible apply keeps_id) | (extract_lets) | (split) | (with_reducible apply keeps_ite) | (dsimp -zeta only)
    | (dsimp -zeta +zetaDelta only))

theorem keeps_applyFirmware (s) (hs : Keeps s₀ s) : Keeps s₀ (applyFirmware s) := by
  unfold applyFirmware
  repeat' (first
    | (with_reducible assumption) | (with_reducible intro _) | (with_reducible apply keeps_foldl)
    | (with_reducible apply keeps_id) | (extract_lets) | (split) | (with_reducible apply keeps_ite) | (dsimp -zeta only)
    | (dsimp -zeta +zetaDelta only) | (with_reducible apply keeps_upd) | (exact Nat.le_refl _) | rfl
    | (exact Nat.le_add_right _ _) | (exact SMap.wf_filter _ (by with_reducible assumption) _))

theorem keeps_applyComplete (ep s) (hs : Keeps s₀ s) : Keeps s₀ (applyComplete ep s) := by
  unfold applyComplete
  repeat' (first
    | (with_reducible assumption) | (with_reducible intro _) | (with_reducible apply keeps_inUpdate)
    | (with_reducible apply keeps_answer) | (with_reducible apply keeps_applyOptions)
    | (with_reducible apply keeps_applyFirmware) | (with_reducible apply keeps_setUpdate)
    | (with_reducible apply keeps_foldl) | (with_reducible apply keeps_id) | (extract_lets) | (split)
    | (with_reducible apply keeps_ite) | (dsimp -zeta only) | (dsimp -zeta +zetaDelta only))

theorem keeps_asked (f s) (hf : ∀ s, Keeps s₀ s → Keeps s₀ (f s)) (hs : Keeps s₀ s) : Keeps s₀ (asked f s) := by
  unfold asked
  repeat' (first
    | (with_reducible assumption) | (with_reducible intro _) | (with_reducible apply keeps_foldl)
    | (with_reducible apply keeps_id) | (apply hf) | (extract_lets) | (split) | (with_reducible apply keeps_ite)
    | (dsimp -zeta only) | (dsimp -zeta +zetaDelta only))

theorem keeps_askedPldm (f s) (hf : ∀ s, Keeps s₀ s → Keeps s₀ (f s)) (hs : Keeps s₀ s) : Keeps s₀ (askedPldm f s) := by
  unfold askedPldm
  repeat' (first
    | (with_reducible assumption) | (with_reducible intro _) | (with_reducible apply keeps_foldl)
    | (with_reducible apply keeps_id) | (apply hf) | (extract_lets) | (split) | (with_reducible apply keeps_ite)
    | (dsimp -zeta only) | (dsimp -zeta +zetaDelta only))

theorem keeps_beginComponent (ep classifier size s) (hs : Keeps s₀ s) : Keeps s₀ (beginComponent ep classifier size s) := by
  unfold beginComponent
  repeat' (first
    | (with_reducible assumption) | (with_reducible intro _) | (with_reducible apply keeps_inUpdate)
    | (with_reducible apply keeps_answer) | (with_reducible apply keeps_setUpdate) | (with_reducible apply keeps_foldl)
    | (with_reducible apply keeps_id) | (extract_lets) | (split) | (with_reducible apply keeps_ite) | (dsimp -zeta only)
    | (dsimp -zeta +zetaDelta only))

theorem keeps_cancelComponent (ep s) (hs : Keeps s₀ s) : Keeps s₀ (cancelComponent ep s) := by
  unfold cancelComponent
  repeat' (first
    | (with_reducible assumption) | (with_reducible intro _) | (with_reducible apply keeps_inUpdate)
    | (with_reducible apply keeps_answer) | (with_reducible apply keeps_setUpdate) | (with_reducible apply keeps_foldl)
    | (with_reducible apply keeps_id) | (extract_lets) | (split) | (with_reducible apply keeps_ite) | (dsimp -zeta only)
    | (dsimp -zeta +zetaDelta only))

theorem keeps_cancelUpdate (ep s) (hs : Keeps s₀ s) : Keeps s₀ (cancelUpdate ep s) := by
  unfold cancelUpdate
  repeat' (first
    | (with_reducible assumption) | (with_reducible intro _) | (with_reducible apply keeps_inUpdate)
    | (with_reducible apply keeps_answer) | (with_reducible apply keeps_setUpdate) | (with_reducible apply keeps_foldl)
    | (with_reducible apply keeps_id) | (extract_lets) | (split) | (with_reducible apply keeps_ite) | (dsimp -zeta only)
    | (dsimp -zeta +zetaDelta only))

theorem keeps_eventReceiver (ep receiver s) (hs : Keeps s₀ s) : Keeps s₀ (eventReceiver ep receiver s) := by
  unfold eventReceiver
  repeat' (first
    | (with_reducible assumption) | (with_reducible intro _) | (with_reducible apply keeps_answer)
    | (with_reducible apply keeps_foldl) | (with_reducible apply keeps_id) | (extract_lets) | (split)
    | (with_reducible apply keeps_ite) | (dsimp -zeta only) | (dsimp -zeta +zetaDelta only)
    | (with_reducible apply keeps_upd) | (exact Nat.le_refl _) | rfl | (exact Nat.le_add_right _ _)
    | (exact SMap.wf_filter _ (by with_reducible assumption) _))

theorem keeps_execActivateFirmware (ep selfContained reset s) (hs : Keeps s₀ s) {w : State} (eq : execActivateFirmware ep selfContained reset s = .next w) : Keeps s₀ w := by
  unfold execActivateFirmware at eq
  injection eq with eq
  subst eq
  repeat' (first
    | (with_reducible assumption) | (with_reducible intro _) | (with_reducible apply keeps_asked)
    | (with_reducible apply keeps_activate) | (with_reducible apply keeps_foldl) | (with_reducible apply keeps_id)
    | (extract_lets) | (split) | (with_reducible apply keeps_ite) | (dsimp -zeta only) | (dsimp -zeta +zetaDelta only))

theorem keeps_execApplyComplete (ep s) (hs : Keeps s₀ s) {w : State} (eq : execApplyComplete ep s = .next w) : Keeps s₀ w := by
  unfold execApplyComplete at eq
  injection eq with eq
  subst eq
  repeat' (first
    | (with_reducible assumption) | (with_reducible intro _) | (with_reducible apply keeps_asked)
    | (with_reducible apply keeps_applyComplete) | (with_reducible apply keeps_foldl) | (with_reducible apply keeps_id)
    | (extract_lets) | (split) | (with_reducible apply keeps_ite) | (dsimp -zeta only) | (dsimp -zeta +zetaDelta only))

theorem keeps_tapScan (in0 in1 s) (hs : Keeps s₀ s) : Keeps s₀ (tapScan in0 in1 s) := by
  unfold tapScan
  repeat' (first
    | (with_reducible assumption) | (with_reducible intro _) | (with_reducible apply keeps_State_send)
    | (with_reducible apply keeps_foldl) | (with_reducible apply keeps_id) | (extract_lets) | (split)
    | (with_reducible apply keeps_ite) | (dsimp -zeta only) | (dsimp -zeta +zetaDelta only)
    | (with_reducible apply keeps_upd) | (exact Nat.le_refl _) | rfl | (exact Nat.le_add_right _ _)
    | (exact SMap.wf_filter _ (by with_reducible assumption) _))

theorem keeps_tapLoad (d code in0 in1 s) (hs : Keeps s₀ s) : Keeps s₀ (tapLoad d code in0 in1 s) := by
  unfold tapLoad
  repeat' (first
    | (with_reducible assumption) | (with_reducible intro _) | (with_reducible apply keeps_tapScan)
    | (with_reducible apply keeps_foldl) | (with_reducible apply keeps_id) | (extract_lets) | (split)
    | (with_reducible apply keeps_ite) | (dsimp -zeta only) | (dsimp -zeta +zetaDelta only)
    | (with_reducible apply keeps_upd) | (exact Nat.le_refl _) | rfl | (exact Nat.le_add_right _ _)
    | (exact SMap.wf_filter _ (by with_reducible assumption) _))

theorem keeps_execBypass (t s) (hs : Keeps s₀ s) {w : State} (eq : execBypass t s = .next w) : Keeps s₀ w := by
  unfold execBypass at eq
  injection eq with eq
  subst eq
  repeat' (first
    | (with_reducible assumption) | (with_reducible intro _) | (with_reducible apply keeps_tapLoad)
    | (with_reducible apply keeps_foldl) | (with_reducible apply keeps_id) | (extract_lets) | (split)
    | (with_reducible apply keeps_ite) | (dsimp -zeta only) | (dsimp -zeta +zetaDelta only))

theorem keeps_execCancelUpdate (ep s) (hs : Keeps s₀ s) {w : State} (eq : execCancelUpdate ep s = .next w) : Keeps s₀ w := by
  unfold execCancelUpdate at eq
  injection eq with eq
  subst eq
  repeat' (first
    | (with_reducible assumption) | (with_reducible intro _) | (with_reducible apply keeps_asked)
    | (with_reducible apply keeps_cancelUpdate) | (with_reducible apply keeps_foldl) | (with_reducible apply keeps_id)
    | (extract_lets) | (split) | (with_reducible apply keeps_ite) | (dsimp -zeta only) | (dsimp -zeta +zetaDelta only))

theorem keeps_execCancelUpdateComponent (ep s) (hs : Keeps s₀ s) {w : State} (eq : execCancelUpdateComponent ep s = .next w) : Keeps s₀ w := by
  unfold execCancelUpdateComponent at eq
  injection eq with eq
  subst eq
  repeat' (first
    | (with_reducible assumption) | (with_reducible intro _) | (with_reducible apply keeps_asked)
    | (with_reducible apply keeps_cancelComponent) | (with_reducible apply keeps_foldl) | (with_reducible apply keeps_id)
    | (extract_lets) | (split) | (with_reducible apply keeps_ite) | (dsimp -zeta only) | (dsimp -zeta +zetaDelta only))

theorem keeps_execClamp (t s) (hs : Keeps s₀ s) {w : State} (eq : execClamp t s = .next w) : Keeps s₀ w := by
  unfold execClamp at eq
  injection eq with eq
  subst eq
  repeat' (first
    | (with_reducible assumption) | (with_reducible intro _) | (with_reducible apply keeps_tapLoad)
    | (with_reducible apply keeps_foldl) | (with_reducible apply keeps_id) | (extract_lets) | (split)
    | (with_reducible apply keeps_ite) | (dsimp -zeta only) | (dsimp -zeta +zetaDelta only))

theorem keeps_execExtest (t s) (hs : Keeps s₀ s) {w : State} (eq : execExtest t s = .next w) : Keeps s₀ w := by
  unfold execExtest at eq
  injection eq with eq
  subst eq
  repeat' (first
    | (with_reducible assumption) | (with_reducible intro _) | (with_reducible apply keeps_tapLoad)
    | (with_reducible apply keeps_foldl) | (with_reducible apply keeps_id) | (extract_lets) | (split)
    | (with_reducible apply keeps_ite) | (dsimp -zeta only) | (dsimp -zeta +zetaDelta only))

theorem keeps_execExtestPulse (t s) (hs : Keeps s₀ s) {w : State} (eq : execExtestPulse t s = .next w) : Keeps s₀ w := by
  unfold execExtestPulse at eq
  injection eq with eq
  subst eq
  repeat' (first
    | (with_reducible assumption) | (with_reducible intro _) | (with_reducible apply keeps_tapLoad)
    | (with_reducible apply keeps_foldl) | (with_reducible apply keeps_id) | (extract_lets) | (split)
    | (with_reducible apply keeps_ite) | (dsimp -zeta only) | (dsimp -zeta +zetaDelta only))

theorem keeps_execExtestTrain (t s) (hs : Keeps s₀ s) {w : State} (eq : execExtestTrain t s = .next w) : Keeps s₀ w := by
  unfold execExtestTrain at eq
  injection eq with eq
  subst eq
  repeat' (first
    | (with_reducible assumption) | (with_reducible intro _) | (with_reducible apply keeps_tapLoad)
    | (with_reducible apply keeps_foldl) | (with_reducible apply keeps_id) | (extract_lets) | (split)
    | (with_reducible apply keeps_ite) | (dsimp -zeta only) | (dsimp -zeta +zetaDelta only))

theorem keeps_getEid (ep s) (hs : Keeps s₀ s) : Keeps s₀ (getEid ep s) := by
  unfold getEid
  repeat' (first
    | (with_reducible assumption) | (with_reducible intro _) | (with_reducible apply keeps_answer)
    | (with_reducible apply keeps_foldl) | (with_reducible apply keeps_id) | (extract_lets) | (split)
    | (with_reducible apply keeps_ite) | (dsimp -zeta only) | (dsimp -zeta +zetaDelta only))

theorem keeps_execGetEndpointId (ep s) (hs : Keeps s₀ s) {w : State} (eq : execGetEndpointId ep s = .next w) : Keeps s₀ w := by
  unfold execGetEndpointId at eq
  injection eq with eq
  subst eq
  repeat' (first
    | (with_reducible assumption) | (with_reducible intro _) | (with_reducible apply keeps_asked)
    | (with_reducible apply keeps_getEid) | (with_reducible apply keeps_foldl) | (with_reducible apply keeps_id)
    | (extract_lets) | (split) | (with_reducible apply keeps_ite) | (dsimp -zeta only) | (dsimp -zeta +zetaDelta only))

theorem keeps_getUuid (ep s) (hs : Keeps s₀ s) : Keeps s₀ (getUuid ep s) := by
  unfold getUuid
  repeat' (first
    | (with_reducible assumption) | (with_reducible intro _) | (with_reducible apply keeps_answer)
    | (with_reducible apply keeps_foldl) | (with_reducible apply keeps_id) | (extract_lets) | (split)
    | (with_reducible apply keeps_ite) | (dsimp -zeta only) | (dsimp -zeta +zetaDelta only))

theorem keeps_execGetEndpointUuid (ep s) (hs : Keeps s₀ s) {w : State} (eq : execGetEndpointUuid ep s = .next w) : Keeps s₀ w := by
  unfold execGetEndpointUuid at eq
  injection eq with eq
  subst eq
  repeat' (first
    | (with_reducible assumption) | (with_reducible intro _) | (with_reducible apply keeps_asked)
    | (with_reducible apply keeps_getUuid) | (with_reducible apply keeps_foldl) | (with_reducible apply keeps_id)
    | (extract_lets) | (split) | (with_reducible apply keeps_ite) | (dsimp -zeta only) | (dsimp -zeta +zetaDelta only))

theorem keeps_firmwareParameters (ep s) (hs : Keeps s₀ s) : Keeps s₀ (firmwareParameters ep s) := by
  unfold firmwareParameters
  repeat' (first
    | (with_reducible assumption) | (with_reducible intro _) | (with_reducible apply keeps_answer)
    | (with_reducible apply keeps_foldl) | (with_reducible apply keeps_id) | (extract_lets) | (split)
    | (with_reducible apply keeps_ite) | (dsimp -zeta only) | (dsimp -zeta +zetaDelta only))

theorem keeps_execGetFirmwareParameters (ep s) (hs : Keeps s₀ s) {w : State} (eq : execGetFirmwareParameters ep s = .next w) : Keeps s₀ w := by
  unfold execGetFirmwareParameters at eq
  injection eq with eq
  subst eq
  repeat' (first
    | (with_reducible assumption) | (with_reducible intro _) | (with_reducible apply keeps_asked)
    | (with_reducible apply keeps_firmwareParameters) | (with_reducible apply keeps_foldl) | (with_reducible apply keeps_id)
    | (extract_lets) | (split) | (with_reducible apply keeps_ite) | (dsimp -zeta only) | (dsimp -zeta +zetaDelta only))

theorem keeps_mctpVersion (ep type s) (hs : Keeps s₀ s) : Keeps s₀ (mctpVersion ep type s) := by
  unfold mctpVersion
  repeat' (first
    | (with_reducible assumption) | (with_reducible intro _) | (with_reducible apply keeps_answer)
    | (with_reducible apply keeps_answerOpen) | (with_reducible apply keeps_foldl) | (with_reducible apply keeps_id)
    | (extract_lets) | (split) | (with_reducible apply keeps_ite) | (dsimp -zeta only) | (dsimp -zeta +zetaDelta only))

theorem keeps_execGetMctpVersionSupport (ep type s) (hs : Keeps s₀ s) {w : State} (eq : execGetMctpVersionSupport ep type s = .next w) : Keeps s₀ w := by
  unfold execGetMctpVersionSupport at eq
  injection eq with eq
  subst eq
  repeat' (first
    | (with_reducible assumption) | (with_reducible intro _) | (with_reducible apply keeps_asked)
    | (with_reducible apply keeps_mctpVersion) | (with_reducible apply keeps_foldl) | (with_reducible apply keeps_id)
    | (extract_lets) | (split) | (with_reducible apply keeps_ite) | (dsimp -zeta only) | (dsimp -zeta +zetaDelta only))

theorem keeps_messageTypes (ep s) (hs : Keeps s₀ s) : Keeps s₀ (messageTypes ep s) := by
  unfold messageTypes
  repeat' (first
    | (with_reducible assumption) | (with_reducible intro _) | (with_reducible apply keeps_answer)
    | (with_reducible apply keeps_foldl) | (with_reducible apply keeps_id) | (extract_lets) | (split)
    | (with_reducible apply keeps_ite) | (dsimp -zeta only) | (dsimp -zeta +zetaDelta only))

theorem keeps_execGetMessageTypeSupport (ep s) (hs : Keeps s₀ s) {w : State} (eq : execGetMessageTypeSupport ep s = .next w) : Keeps s₀ w := by
  unfold execGetMessageTypeSupport at eq
  injection eq with eq
  subst eq
  repeat' (first
    | (with_reducible assumption) | (with_reducible intro _) | (with_reducible apply keeps_asked)
    | (with_reducible apply keeps_messageTypes) | (with_reducible apply keeps_foldl) | (with_reducible apply keeps_id)
    | (extract_lets) | (split) | (with_reducible apply keeps_ite) | (dsimp -zeta only) | (dsimp -zeta +zetaDelta only))

theorem keeps_getPdr (ep handle s) (hs : Keeps s₀ s) : Keeps s₀ (getPdr ep handle s) := by
  unfold getPdr
  repeat' (first
    | (with_reducible assumption) | (with_reducible intro _) | (with_reducible apply keeps_answer)
    | (with_reducible apply keeps_foldl) | (with_reducible apply keeps_id) | (extract_lets) | (split)
    | (with_reducible apply keeps_ite) | (dsimp -zeta only) | (dsimp -zeta +zetaDelta only))

theorem keeps_execGetPdr (ep handle s) (hs : Keeps s₀ s) {w : State} (eq : execGetPdr ep handle s = .next w) : Keeps s₀ w := by
  unfold execGetPdr at eq
  injection eq with eq
  subst eq
  repeat' (first
    | (with_reducible assumption) | (with_reducible intro _) | (with_reducible apply keeps_askedPldm)
    | (with_reducible apply keeps_getPdr) | (with_reducible apply keeps_foldl) | (with_reducible apply keeps_id)
    | (extract_lets) | (split) | (with_reducible apply keeps_ite) | (dsimp -zeta only) | (dsimp -zeta +zetaDelta only))

theorem keeps_pdrInfo (ep s) (hs : Keeps s₀ s) : Keeps s₀ (pdrInfo ep s) := by
  unfold pdrInfo
  repeat' (first
    | (with_reducible assumption) | (with_reducible intro _) | (with_reducible apply keeps_answer)
    | (with_reducible apply keeps_foldl) | (with_reducible apply keeps_id) | (extract_lets) | (split)
    | (with_reducible apply keeps_ite) | (dsimp -zeta only) | (dsimp -zeta +zetaDelta only))

theorem keeps_execGetPdrRepositoryInfo (ep s) (hs : Keeps s₀ s) {w : State} (eq : execGetPdrRepositoryInfo ep s = .next w) : Keeps s₀ w := by
  unfold execGetPdrRepositoryInfo at eq
  injection eq with eq
  subst eq
  repeat' (first
    | (with_reducible assumption) | (with_reducible intro _) | (with_reducible apply keeps_askedPldm)
    | (with_reducible apply keeps_pdrInfo) | (with_reducible apply keeps_foldl) | (with_reducible apply keeps_id)
    | (extract_lets) | (split) | (with_reducible apply keeps_ite) | (dsimp -zeta only) | (dsimp -zeta +zetaDelta only))

theorem keeps_listCommands (ep type s) (hs : Keeps s₀ s) : Keeps s₀ (listCommands ep type s) := by
  unfold listCommands
  repeat' (first
    | (with_reducible assumption) | (with_reducible intro _) | (with_reducible apply keeps_answer)
    | (with_reducible apply keeps_foldl) | (with_reducible apply keeps_id) | (extract_lets) | (split)
    | (with_reducible apply keeps_ite) | (dsimp -zeta only) | (dsimp -zeta +zetaDelta only))

theorem keeps_execGetPldmCommands (ep type s) (hs : Keeps s₀ s) {w : State} (eq : execGetPldmCommands ep type s = .next w) : Keeps s₀ w := by
  unfold execGetPldmCommands at eq
  injection eq with eq
  subst eq
  repeat' (first
    | (with_reducible assumption) | (with_reducible intro _) | (with_reducible apply keeps_askedPldm)
    | (with_reducible apply keeps_listCommands) | (with_reducible apply keeps_foldl) | (with_reducible apply keeps_id)
    | (extract_lets) | (split) | (with_reducible apply keeps_ite) | (dsimp -zeta only) | (dsimp -zeta +zetaDelta only))

theorem keeps_getPldmTypes (ep s) (hs : Keeps s₀ s) : Keeps s₀ (getPldmTypes ep s) := by
  unfold getPldmTypes
  repeat' (first
    | (with_reducible assumption) | (with_reducible intro _) | (with_reducible apply keeps_answer)
    | (with_reducible apply keeps_foldl) | (with_reducible apply keeps_id) | (extract_lets) | (split)
    | (with_reducible apply keeps_ite) | (dsimp -zeta only) | (dsimp -zeta +zetaDelta only))

theorem keeps_execGetPldmTypes (ep s) (hs : Keeps s₀ s) {w : State} (eq : execGetPldmTypes ep s = .next w) : Keeps s₀ w := by
  unfold execGetPldmTypes at eq
  injection eq with eq
  subst eq
  repeat' (first
    | (with_reducible assumption) | (with_reducible intro _) | (with_reducible apply keeps_askedPldm)
    | (with_reducible apply keeps_getPldmTypes) | (with_reducible apply keeps_foldl) | (with_reducible apply keeps_id)
    | (extract_lets) | (split) | (with_reducible apply keeps_ite) | (dsimp -zeta only) | (dsimp -zeta +zetaDelta only))

theorem keeps_pldmVersion (ep type s) (hs : Keeps s₀ s) : Keeps s₀ (pldmVersion ep type s) := by
  unfold pldmVersion
  repeat' (first
    | (with_reducible assumption) | (with_reducible intro _) | (with_reducible apply keeps_answerOpen)
    | (with_reducible apply keeps_answer) | (with_reducible apply keeps_foldl) | (with_reducible apply keeps_id)
    | (extract_lets) | (split) | (with_reducible apply keeps_ite) | (dsimp -zeta only) | (dsimp -zeta +zetaDelta only))

theorem keeps_execGetPldmVersion (ep type s) (hs : Keeps s₀ s) {w : State} (eq : execGetPldmVersion ep type s = .next w) : Keeps s₀ w := by
  unfold execGetPldmVersion at eq
  injection eq with eq
  subst eq
  repeat' (first
    | (with_reducible assumption) | (with_reducible intro _) | (with_reducible apply keeps_askedPldm)
    | (with_reducible apply keeps_pldmVersion) | (with_reducible apply keeps_foldl) | (with_reducible apply keeps_id)
    | (extract_lets) | (split) | (with_reducible apply keeps_ite) | (dsimp -zeta only) | (dsimp -zeta +zetaDelta only))

theorem keeps_sensorReading (ep id s) (hs : Keeps s₀ s) : Keeps s₀ (sensorReading ep id s) := by
  unfold sensorReading
  repeat' (first
    | (with_reducible assumption) | (with_reducible intro _) | (with_reducible apply keeps_answer)
    | (with_reducible apply keeps_foldl) | (with_reducible apply keeps_id) | (extract_lets) | (split)
    | (with_reducible apply keeps_ite) | (dsimp -zeta only) | (dsimp -zeta +zetaDelta only)
    | (with_reducible apply keeps_upd) | (exact Nat.le_refl _) | rfl | (exact Nat.le_add_right _ _)
    | (exact SMap.wf_filter _ (by with_reducible assumption) _))

theorem keeps_execGetSensorReading (ep id s) (hs : Keeps s₀ s) {w : State} (eq : execGetSensorReading ep id s = .next w) : Keeps s₀ w := by
  unfold execGetSensorReading at eq
  injection eq with eq
  subst eq
  repeat' (first
    | (with_reducible assumption) | (with_reducible intro _) | (with_reducible apply keeps_askedPldm)
    | (with_reducible apply keeps_sensorReading) | (with_reducible apply keeps_foldl) | (with_reducible apply keeps_id)
    | (extract_lets) | (split) | (with_reducible apply keeps_ite) | (dsimp -zeta only) | (dsimp -zeta +zetaDelta only))

theorem keeps_stateReadings (ep id s) (hs : Keeps s₀ s) : Keeps s₀ (stateReadings ep id s) := by
  unfold stateReadings
  repeat' (first
    | (with_reducible assumption) | (with_reducible intro _) | (with_reducible apply keeps_answer)
    | (with_reducible apply keeps_foldl) | (with_reducible apply keeps_id) | (extract_lets) | (split)
    | (with_reducible apply keeps_ite) | (dsimp -zeta only) | (dsimp -zeta +zetaDelta only))

theorem keeps_execGetStateSensorReadings (ep id s) (hs : Keeps s₀ s) {w : State} (eq : execGetStateSensorReadings ep id s = .next w) : Keeps s₀ w := by
  unfold execGetStateSensorReadings at eq
  injection eq with eq
  subst eq
  repeat' (first
    | (with_reducible assumption) | (with_reducible intro _) | (with_reducible apply keeps_askedPldm)
    | (with_reducible apply keeps_stateReadings) | (with_reducible apply keeps_foldl) | (with_reducible apply keeps_id)
    | (extract_lets) | (split) | (with_reducible apply keeps_ite) | (dsimp -zeta only) | (dsimp -zeta +zetaDelta only))

theorem keeps_getStatus (ep s) (hs : Keeps s₀ s) : Keeps s₀ (getStatus ep s) := by
  unfold getStatus
  repeat' (first
    | (with_reducible assumption) | (with_reducible intro _) | (with_reducible apply keeps_answer)
    | (with_reducible apply keeps_foldl) | (with_reducible apply keeps_id) | (extract_lets) | (split)
    | (with_reducible apply keeps_ite) | (dsimp -zeta only) | (dsimp -zeta +zetaDelta only))

theorem keeps_execGetStatus (ep s) (hs : Keeps s₀ s) {w : State} (eq : execGetStatus ep s = .next w) : Keeps s₀ w := by
  unfold execGetStatus at eq
  injection eq with eq
  subst eq
  repeat' (first
    | (with_reducible assumption) | (with_reducible intro _) | (with_reducible apply keeps_asked)
    | (with_reducible apply keeps_getStatus) | (with_reducible apply keeps_foldl) | (with_reducible apply keeps_id)
    | (extract_lets) | (split) | (with_reducible apply keeps_ite) | (dsimp -zeta only) | (dsimp -zeta +zetaDelta only))

theorem keeps_getTid (ep s) (hs : Keeps s₀ s) : Keeps s₀ (getTid ep s) := by
  unfold getTid
  repeat' (first
    | (with_reducible assumption) | (with_reducible intro _) | (with_reducible apply keeps_answer)
    | (with_reducible apply keeps_foldl) | (with_reducible apply keeps_id) | (extract_lets) | (split)
    | (with_reducible apply keeps_ite) | (dsimp -zeta only) | (dsimp -zeta +zetaDelta only))

theorem keeps_execGetTid (ep s) (hs : Keeps s₀ s) {w : State} (eq : execGetTid ep s = .next w) : Keeps s₀ w := by
  unfold execGetTid at eq
  injection eq with eq
  subst eq
  repeat' (first
    | (with_reducible assumption) | (with_reducible intro _) | (with_reducible apply keeps_askedPldm)
    | (with_reducible apply keeps_getTid) | (with_reducible apply keeps_foldl) | (with_reducible apply keeps_id)
    | (extract_lets) | (split) | (with_reducible apply keeps_ite) | (dsimp -zeta only) | (dsimp -zeta +zetaDelta only))

theorem keeps_execHighz (t s) (hs : Keeps s₀ s) {w : State} (eq : execHighz t s = .next w) : Keeps s₀ w := by
  unfold execHighz at eq
  injection eq with eq
  subst eq
  repeat' (first
    | (with_reducible assumption) | (with_reducible intro _) | (with_reducible apply keeps_tapLoad)
    | (with_reducible apply keeps_foldl) | (with_reducible apply keeps_id) | (extract_lets) | (split)
    | (with_reducible apply keeps_ite) | (dsimp -zeta only) | (dsimp -zeta +zetaDelta only))

theorem keeps_execIdcode (t s) (hs : Keeps s₀ s) {w : State} (eq : execIdcode t s = .next w) : Keeps s₀ w := by
  unfold execIdcode at eq
  injection eq with eq
  subst eq
  repeat' (first
    | (with_reducible assumption) | (with_reducible intro _) | (with_reducible apply keeps_tapLoad)
    | (with_reducible apply keeps_foldl) | (with_reducible apply keeps_id) | (extract_lets) | (split)
    | (with_reducible apply keeps_ite) | (dsimp -zeta only) | (dsimp -zeta +zetaDelta only))

theorem keeps_passTable (ep classifier s) (hs : Keeps s₀ s) : Keeps s₀ (passTable ep classifier s) := by
  unfold passTable
  repeat' (first
    | (with_reducible assumption) | (with_reducible intro _) | (with_reducible apply keeps_inUpdate)
    | (with_reducible apply keeps_answer) | (with_reducible apply keeps_setUpdate) | (with_reducible apply keeps_foldl)
    | (with_reducible apply keeps_id) | (extract_lets) | (split) | (with_reducible apply keeps_ite) | (dsimp -zeta only)
    | (dsimp -zeta +zetaDelta only))

theorem keeps_execPassComponentTable (ep classifier s) (hs : Keeps s₀ s) {w : State} (eq : execPassComponentTable ep classifier s = .next w) : Keeps s₀ w := by
  unfold execPassComponentTable at eq
  injection eq with eq
  subst eq
  repeat' (first
    | (with_reducible assumption) | (with_reducible intro _) | (with_reducible apply keeps_asked)
    | (with_reducible apply keeps_passTable) | (with_reducible apply keeps_foldl) | (with_reducible apply keeps_id)
    | (extract_lets) | (split) | (with_reducible apply keeps_ite) | (dsimp -zeta only) | (dsimp -zeta +zetaDelta only))

theorem keeps_pollEvent (ep s) (hs : Keeps s₀ s) : Keeps s₀ (pollEvent ep s) := by
  unfold pollEvent
  repeat' (first
    | (with_reducible assumption) | (with_reducible intro _) | (with_reducible apply keeps_answer)
    | (with_reducible apply keeps_foldl) | (with_reducible apply keeps_id) | (extract_lets) | (split)
    | (with_reducible apply keeps_ite) | (dsimp -zeta only) | (dsimp -zeta +zetaDelta only)
    | (with_reducible apply keeps_with_events) | (with_reducible apply keeps_upd) | (exact Nat.le_refl _) | rfl
    | (exact Nat.le_add_right _ _) | (exact SMap.wf_filter _ (by with_reducible assumption) _))

theorem keeps_execPollForPlatformEventMessage (ep s) (hs : Keeps s₀ s) {w : State} (eq : execPollForPlatformEventMessage ep s = .next w) : Keeps s₀ w := by
  unfold execPollForPlatformEventMessage at eq
  injection eq with eq
  subst eq
  repeat' (first
    | (with_reducible assumption) | (with_reducible intro _) | (with_reducible apply keeps_askedPldm)
    | (with_reducible apply keeps_pollEvent) | (with_reducible apply keeps_foldl) | (with_reducible apply keeps_id)
    | (extract_lets) | (split) | (with_reducible apply keeps_ite) | (dsimp -zeta only) | (dsimp -zeta +zetaDelta only))

theorem keeps_execQueryDeviceIdentifiers (ep s) (hs : Keeps s₀ s) {w : State} (eq : execQueryDeviceIdentifiers ep s = .next w) : Keeps s₀ w := by
  unfold execQueryDeviceIdentifiers at eq
  injection eq with eq
  subst eq
  repeat' (first
    | (with_reducible assumption) | (with_reducible intro _) | (with_reducible apply keeps_asked)
    | (with_reducible apply keeps_answerOpen) | (with_reducible apply keeps_foldl) | (with_reducible apply keeps_id)
    | (extract_lets) | (split) | (with_reducible apply keeps_ite) | (dsimp -zeta only) | (dsimp -zeta +zetaDelta only))

theorem keeps_takeBlock (ep data s) (hs : Keeps s₀ s) : Keeps s₀ (takeBlock ep data s) := by
  unfold takeBlock
  repeat' (first
    | (with_reducible assumption) | (with_reducible intro _) | (with_reducible apply keeps_inUpdate)
    | (with_reducible apply keeps_answer) | (with_reducible apply keeps_setUpdate) | (with_reducible apply keeps_foldl)
    | (with_reducible apply keeps_id) | (extract_lets) | (split) | (with_reducible apply keeps_ite) | (dsimp -zeta only)
    | (dsimp -zeta +zetaDelta only))

theorem keeps_execRequestFirmwareData (ep data s) (hs : Keeps s₀ s) {w : State} (eq : execRequestFirmwareData ep data s = .next w) : Keeps s₀ w := by
  unfold execRequestFirmwareData at eq
  injection eq with eq
  subst eq
  repeat' (first
    | (with_reducible assumption) | (with_reducible intro _) | (with_reducible apply keeps_asked)
    | (with_reducible apply keeps_takeBlock) | (with_reducible apply keeps_foldl) | (with_reducible apply keeps_id)
    | (extract_lets) | (split) | (with_reducible apply keeps_ite) | (dsimp -zeta only) | (dsimp -zeta +zetaDelta only))

theorem keeps_requestUpdate (ep maxTransfer s) (hs : Keeps s₀ s) : Keeps s₀ (requestUpdate ep maxTransfer s) := by
  unfold requestUpdate
  repeat' (first
    | (with_reducible assumption) | (with_reducible intro _) | (with_reducible apply keeps_answer)
    | (with_reducible apply keeps_setUpdate) | (with_reducible apply keeps_foldl) | (with_reducible apply keeps_id)
    | (extract_lets) | (split) | (with_reducible apply keeps_ite) | (dsimp -zeta only) | (dsimp -zeta +zetaDelta only))

theorem keeps_execRequestUpdate (ep maxTransfer s) (hs : Keeps s₀ s) {w : State} (eq : execRequestUpdate ep maxTransfer s = .next w) : Keeps s₀ w := by
  unfold execRequestUpdate at eq
  injection eq with eq
  subst eq
  repeat' (first
    | (with_reducible assumption) | (with_reducible intro _) | (with_reducible apply keeps_asked)
    | (with_reducible apply keeps_requestUpdate) | (with_reducible apply keeps_foldl) | (with_reducible apply keeps_id)
    | (extract_lets) | (split) | (with_reducible apply keeps_ite) | (dsimp -zeta only) | (dsimp -zeta +zetaDelta only))

theorem keeps_execSamplePreload (t s) (hs : Keeps s₀ s) {w : State} (eq : execSamplePreload t s = .next w) : Keeps s₀ w := by
  unfold execSamplePreload at eq
  injection eq with eq
  subst eq
  repeat' (first
    | (with_reducible assumption) | (with_reducible intro _) | (with_reducible apply keeps_tapLoad)
    | (with_reducible apply keeps_foldl) | (with_reducible apply keeps_id) | (extract_lets) | (split)
    | (with_reducible apply keeps_ite) | (dsimp -zeta only) | (dsimp -zeta +zetaDelta only))

theorem keeps_setEid (ep eid s) (hs : Keeps s₀ s) : Keeps s₀ (setEid ep eid s) := by
  unfold setEid
  repeat' (first
    | (with_reducible assumption) | (with_reducible intro _) | (with_reducible apply keeps_answer)
    | (with_reducible apply keeps_State_setFld) | (with_reducible apply keeps_foldl) | (with_reducible apply keeps_id)
    | (extract_lets) | (split) | (with_reducible apply keeps_ite) | (dsimp -zeta only) | (dsimp -zeta +zetaDelta only))

theorem keeps_execSetEndpointId (ep eid s) (hs : Keeps s₀ s) {w : State} (eq : execSetEndpointId ep eid s = .next w) : Keeps s₀ w := by
  unfold execSetEndpointId at eq
  injection eq with eq
  subst eq
  repeat' (first
    | (with_reducible assumption) | (with_reducible intro _) | (with_reducible apply keeps_asked)
    | (with_reducible apply keeps_setEid) | (with_reducible apply keeps_foldl) | (with_reducible apply keeps_id)
    | (extract_lets) | (split) | (with_reducible apply keeps_ite) | (dsimp -zeta only) | (dsimp -zeta +zetaDelta only))

theorem keeps_execSetEventReceiver (ep receiver s) (hs : Keeps s₀ s) {w : State} (eq : execSetEventReceiver ep receiver s = .next w) : Keeps s₀ w := by
  unfold execSetEventReceiver at eq
  injection eq with eq
  subst eq
  repeat' (first
    | (with_reducible assumption) | (with_reducible intro _) | (with_reducible apply keeps_askedPldm)
    | (with_reducible apply keeps_eventReceiver) | (with_reducible apply keeps_foldl) | (with_reducible apply keeps_id)
    | (extract_lets) | (split) | (with_reducible apply keeps_ite) | (dsimp -zeta only) | (dsimp -zeta +zetaDelta only))

theorem keeps_sensorEnable (ep id enable s) (hs : Keeps s₀ s) : Keeps s₀ (sensorEnable ep id enable s) := by
  unfold sensorEnable
  repeat' (first
    | (with_reducible assumption) | (with_reducible intro _) | (with_reducible apply keeps_answer)
    | (with_reducible apply keeps_foldl) | (with_reducible apply keeps_id) | (extract_lets) | (split)
    | (with_reducible apply keeps_ite) | (dsimp -zeta only) | (dsimp -zeta +zetaDelta only)
    | (with_reducible apply keeps_upd) | (exact Nat.le_refl _) | rfl | (exact Nat.le_add_right _ _)
    | (exact SMap.wf_filter _ (by with_reducible assumption) _))

theorem keeps_execSetNumericSensorEnable (ep id enable s) (hs : Keeps s₀ s) {w : State} (eq : execSetNumericSensorEnable ep id enable s = .next w) : Keeps s₀ w := by
  unfold execSetNumericSensorEnable at eq
  injection eq with eq
  subst eq
  repeat' (first
    | (with_reducible assumption) | (with_reducible intro _) | (with_reducible apply keeps_askedPldm)
    | (with_reducible apply keeps_sensorEnable) | (with_reducible apply keeps_foldl) | (with_reducible apply keeps_id)
    | (extract_lets) | (split) | (with_reducible apply keeps_ite) | (dsimp -zeta only) | (dsimp -zeta +zetaDelta only))

theorem keeps_putThresholds (d n w c s) (hs : Keeps s₀ s) : Keeps s₀ (putThresholds d n w c s) := by
  unfold putThresholds
  repeat' (first
    | (with_reducible assumption) | (with_reducible intro _) | (with_reducible apply keeps_State_setFld)
    | (with_reducible apply keeps_foldl) | (with_reducible apply keeps_id) | (extract_lets) | (split)
    | (with_reducible apply keeps_ite) | (dsimp -zeta only) | (dsimp -zeta +zetaDelta only))

theorem keeps_sensorThresholds (ep id warn crit s) (hs : Keeps s₀ s) : Keeps s₀ (sensorThresholds ep id warn crit s) := by
  unfold sensorThresholds
  repeat' (first
    | (with_reducible assumption) | (with_reducible intro _) | (with_reducible apply keeps_answer)
    | (with_reducible apply keeps_putThresholds) | (with_reducible apply keeps_foldl) | (with_reducible apply keeps_id)
    | (extract_lets) | (split) | (with_reducible apply keeps_ite) | (dsimp -zeta only) | (dsimp -zeta +zetaDelta only))

theorem keeps_execSetSensorThresholds (ep id warn crit s) (hs : Keeps s₀ s) {w : State} (eq : execSetSensorThresholds ep id warn crit s = .next w) : Keeps s₀ w := by
  unfold execSetSensorThresholds at eq
  injection eq with eq
  subst eq
  repeat' (first
    | (with_reducible assumption) | (with_reducible intro _) | (with_reducible apply keeps_askedPldm)
    | (with_reducible apply keeps_sensorThresholds) | (with_reducible apply keeps_foldl) | (with_reducible apply keeps_id)
    | (extract_lets) | (split) | (with_reducible apply keeps_ite) | (dsimp -zeta only) | (dsimp -zeta +zetaDelta only))

theorem keeps_setTid (ep tid s) (hs : Keeps s₀ s) : Keeps s₀ (setTid ep tid s) := by
  unfold setTid
  repeat' (first
    | (with_reducible assumption) | (with_reducible intro _) | (with_reducible apply keeps_answer)
    | (with_reducible apply keeps_foldl) | (with_reducible apply keeps_id) | (extract_lets) | (split)
    | (with_reducible apply keeps_ite) | (dsimp -zeta only) | (dsimp -zeta +zetaDelta only)
    | (with_reducible apply keeps_upd) | (exact Nat.le_refl _) | rfl | (exact Nat.le_add_right _ _)
    | (exact SMap.wf_filter _ (by with_reducible assumption) _))

theorem keeps_execSetTid (ep tid s) (hs : Keeps s₀ s) {w : State} (eq : execSetTid ep tid s = .next w) : Keeps s₀ w := by
  unfold execSetTid at eq
  injection eq with eq
  subst eq
  repeat' (first
    | (with_reducible assumption) | (with_reducible intro _) | (with_reducible apply keeps_askedPldm)
    | (with_reducible apply keeps_setTid) | (with_reducible apply keeps_foldl) | (with_reducible apply keeps_id)
    | (extract_lets) | (split) | (with_reducible apply keeps_ite) | (dsimp -zeta only) | (dsimp -zeta +zetaDelta only))

theorem keeps_transferComplete (ep ok s) (hs : Keeps s₀ s) : Keeps s₀ (transferComplete ep ok s) := by
  unfold transferComplete
  repeat' (first
    | (with_reducible assumption) | (with_reducible intro _) | (with_reducible apply keeps_inUpdate)
    | (with_reducible apply keeps_answer) | (with_reducible apply keeps_setUpdate) | (with_reducible apply keeps_foldl)
    | (with_reducible apply keeps_id) | (extract_lets) | (split) | (with_reducible apply keeps_ite) | (dsimp -zeta only)
    | (dsimp -zeta +zetaDelta only))

theorem keeps_execTransferComplete (ep ok s) (hs : Keeps s₀ s) {w : State} (eq : execTransferComplete ep ok s = .next w) : Keeps s₀ w := by
  unfold execTransferComplete at eq
  injection eq with eq
  subst eq
  repeat' (first
    | (with_reducible assumption) | (with_reducible intro _) | (with_reducible apply keeps_asked)
    | (with_reducible apply keeps_transferComplete) | (with_reducible apply keeps_foldl) | (with_reducible apply keeps_id)
    | (extract_lets) | (split) | (with_reducible apply keeps_ite) | (dsimp -zeta only) | (dsimp -zeta +zetaDelta only))

theorem keeps_execUpdateComponent (ep classifier size s) (hs : Keeps s₀ s) {w : State} (eq : execUpdateComponent ep classifier size s = .next w) : Keeps s₀ w := by
  unfold execUpdateComponent at eq
  injection eq with eq
  subst eq
  repeat' (first
    | (with_reducible assumption) | (with_reducible intro _) | (with_reducible apply keeps_asked)
    | (with_reducible apply keeps_beginComponent) | (with_reducible apply keeps_foldl) | (with_reducible apply keeps_id)
    | (extract_lets) | (split) | (with_reducible apply keeps_ite) | (dsimp -zeta only) | (dsimp -zeta +zetaDelta only))

theorem keeps_verifyComplete (ep s) (hs : Keeps s₀ s) : Keeps s₀ (verifyComplete ep s) := by
  unfold verifyComplete
  repeat' (first
    | (with_reducible assumption) | (with_reducible intro _) | (with_reducible apply keeps_inUpdate)
    | (with_reducible apply keeps_setUpdate) | (with_reducible apply keeps_answer) | (with_reducible apply keeps_foldl)
    | (with_reducible apply keeps_id) | (extract_lets) | (split) | (with_reducible apply keeps_ite) | (dsimp -zeta only)
    | (dsimp -zeta +zetaDelta only) | (with_reducible apply keeps_upd) | (exact Nat.le_refl _) | rfl
    | (exact Nat.le_add_right _ _) | (exact SMap.wf_filter _ (by with_reducible assumption) _))

theorem keeps_execVerifyComplete (ep s) (hs : Keeps s₀ s) {w : State} (eq : execVerifyComplete ep s = .next w) : Keeps s₀ w := by
  unfold execVerifyComplete at eq
  injection eq with eq
  subst eq
  repeat' (first
    | (with_reducible assumption) | (with_reducible intro _) | (with_reducible apply keeps_asked)
    | (with_reducible apply keeps_verifyComplete) | (with_reducible apply keeps_foldl) | (with_reducible apply keeps_id)
    | (extract_lets) | (split) | (with_reducible apply keeps_ite) | (dsimp -zeta only) | (dsimp -zeta +zetaDelta only))

end Sys2Proof.Machine.Laws
end

