-- ==== Sys2Proof/Laws/KeepsTick.lean ====
section
/-! SUPPORT. Every definition of Sys2Proof/Machine/Tick.lean keeps what `Keeps` names. -/

namespace Sys2Proof.Machine.Laws

variable {s₀ : State}

theorem keeps_countCycles (ch n s) (hs : Keeps s₀ s) : Keeps s₀ (countCycles ch n s) := by
  unfold countCycles
  repeat' (first
    | (with_reducible assumption) | (with_reducible intro _) | (with_reducible apply keeps_State_bump)
    | (with_reducible apply keeps_State_setArr) | (with_reducible apply keeps_State_each)
    | (with_reducible apply keeps_foldl) | (with_reducible apply keeps_id) | (extract_lets) | (split)
    | (with_reducible apply keeps_ite) | (dsimp -zeta only) | (dsimp -zeta +zetaDelta only))

theorem keeps_countUp (off s) (hs : Keeps s₀ s) : Keeps s₀ (countUp off s) := by
  unfold countUp
  repeat' (first
    | (with_reducible assumption) | (with_reducible intro _) | (with_reducible apply keeps_State_setRegN)
    | (with_reducible apply keeps_foldl) | (with_reducible apply keeps_id) | (extract_lets) | (split)
    | (with_reducible apply keeps_ite) | (dsimp -zeta only) | (dsimp -zeta +zetaDelta only))

theorem keeps_countVector (ch s) (hs : Keeps s₀ s) : Keeps s₀ (countVector ch s) := by
  unfold countVector
  repeat' (first
    | (with_reducible assumption) | (with_reducible intro _) | (with_reducible apply keeps_State_bump)
    | (with_reducible apply keeps_State_setArr) | (with_reducible apply keeps_foldl) | (with_reducible apply keeps_id)
    | (extract_lets) | (split) | (with_reducible apply keeps_ite) | (dsimp -zeta only) | (dsimp -zeta +zetaDelta only))

theorem keeps_nextTime (s) (hs : Keeps s₀ s) : Keeps s₀ (nextTime s) := by
  unfold nextTime
  repeat' (first
    | (with_reducible assumption) | (with_reducible intro _) | (with_reducible apply keeps_foldl)
    | (with_reducible apply keeps_id) | (extract_lets) | (split) | (with_reducible apply keeps_ite) | (dsimp -zeta only)
    | (dsimp -zeta +zetaDelta only) | (with_reducible apply keeps_with_sync) | (with_reducible apply keeps_with_time)
    | (with_reducible apply keeps_upd) | (exact Nat.le_refl _) | rfl | (exact Nat.le_add_right _ _)
    | (exact SMap.wf_filter _ (by with_reducible assumption) _))

theorem keeps_noteCredits (ch s) (hs : Keeps s₀ s) : Keeps s₀ (noteCredits ch s) := by
  unfold noteCredits
  repeat' (first
    | (with_reducible assumption) | (with_reducible intro _) | (with_reducible apply keeps_updEnt)
    | (with_reducible apply keeps_foldl) | (with_reducible apply keeps_id) | (extract_lets) | (split)
    | (with_reducible apply keeps_ite) | (dsimp -zeta only) | (dsimp -zeta +zetaDelta only))

theorem keeps_tickBridge (s) (hs : Keeps s₀ s) : Keeps s₀ (tickBridge s) := by
  unfold tickBridge
  repeat' (first
    | (with_reducible assumption) | (with_reducible intro _) | (with_reducible apply keeps_State_each)
    | (with_reducible apply keeps_State_setFlag) | (with_reducible apply keeps_foldl) | (with_reducible apply keeps_id)
    | (extract_lets) | (split) | (with_reducible apply keeps_ite) | (dsimp -zeta only) | (dsimp -zeta +zetaDelta only)
    | (with_reducible apply keeps_with_brgRun) | (with_reducible apply keeps_upd) | (exact Nat.le_refl _) | rfl
    | (exact Nat.le_add_right _ _) | (exact SMap.wf_filter _ (by with_reducible assumption) _))

theorem keeps_tickDog (ch s) (hs : Keeps s₀ s) : Keeps s₀ (tickDog ch s) := by
  unfold tickDog
  repeat' (first
    | (with_reducible assumption) | (with_reducible intro _) | (with_reducible apply keeps_State_setCore)
    | (with_reducible apply keeps_foldl) | (with_reducible apply keeps_id) | (extract_lets) | (split)
    | (with_reducible apply keeps_ite) | (dsimp -zeta only) | (dsimp -zeta +zetaDelta only))

theorem keeps_tickChase (ch s) (hs : Keeps s₀ s) : Keeps s₀ (tickChase ch s) := by
  unfold tickChase
  repeat' (first
    | (with_reducible assumption) | (with_reducible intro _) | (with_reducible apply keeps_countVector)
    | (with_reducible apply keeps_countCycles) | (with_reducible apply keeps_State_bump)
    | (with_reducible apply keeps_State_when) | (with_reducible apply keeps_foldl) | (with_reducible apply keeps_id)
    | (extract_lets) | (split) | (with_reducible apply keeps_ite) | (dsimp -zeta only) | (dsimp -zeta +zetaDelta only))

theorem keeps_tickDispatch (u s) (hs : Keeps s₀ s) : Keeps s₀ (tickDispatch u s) := by
  unfold tickDispatch
  repeat' (first
    | (with_reducible assumption) | (with_reducible intro _) | (with_reducible apply keeps_State_when)
    | (with_reducible apply keeps_State_bump) | (with_reducible apply keeps_foldl) | (with_reducible apply keeps_id)
    | (extract_lets) | (split) | (with_reducible apply keeps_ite) | (dsimp -zeta only) | (dsimp -zeta +zetaDelta only))

theorem keeps_tickHolds (d s) (hs : Keeps s₀ s) : Keeps s₀ (tickHolds d s) := by
  unfold tickHolds
  repeat' (first
    | (with_reducible assumption) | (with_reducible intro _) | (with_reducible apply keeps_State_when)
    | (with_reducible apply keeps_State_bump) | (with_reducible apply keeps_foldl) | (with_reducible apply keeps_id)
    | (extract_lets) | (split) | (with_reducible apply keeps_ite) | (dsimp -zeta only) | (dsimp -zeta +zetaDelta only))

theorem keeps_tickDie (d s) (hs : Keeps s₀ s) : Keeps s₀ (tickDie d s) := by
  unfold tickDie
  repeat' (first
    | (with_reducible assumption) | (with_reducible intro _) | (with_reducible apply keeps_State_when)
    | (with_reducible apply keeps_State_bump) | (with_reducible apply keeps_State_setRegN)
    | (with_reducible apply keeps_foldl) | (with_reducible apply keeps_id) | (extract_lets) | (split)
    | (with_reducible apply keeps_ite) | (dsimp -zeta only) | (dsimp -zeta +zetaDelta only))

theorem keeps_tickPort (p s) (hs : Keeps s₀ s) : Keeps s₀ (tickPort p s) := by
  unfold tickPort
  repeat' (first
    | (with_reducible assumption) | (with_reducible intro _) | (with_reducible apply keeps_State_when)
    | (with_reducible apply keeps_State_bump) | (with_reducible apply keeps_foldl) | (with_reducible apply keeps_id)
    | (extract_lets) | (split) | (with_reducible apply keeps_ite) | (dsimp -zeta only) | (dsimp -zeta +zetaDelta only))

theorem keeps_tickStream (id s) (hs : Keeps s₀ s) : Keeps s₀ (tickStream id s) := by
  unfold tickStream
  repeat' (first
    | (with_reducible assumption) | (with_reducible intro _) | (with_reducible apply keeps_State_when)
    | (with_reducible apply keeps_countUp) | (with_reducible apply keeps_foldl) | (with_reducible apply keeps_id)
    | (extract_lets) | (split) | (with_reducible apply keeps_ite) | (dsimp -zeta only) | (dsimp -zeta +zetaDelta only))

theorem keeps_tickCounters (s) (hs : Keeps s₀ s) : Keeps s₀ (tickCounters s) := by
  unfold tickCounters
  repeat' (first
    | (with_reducible assumption) | (with_reducible intro _) | (with_reducible apply keeps_State_each)
    | (with_reducible apply keeps_tickDog) | (with_reducible apply keeps_tickChase)
    | (with_reducible apply keeps_tickDispatch) | (with_reducible apply keeps_tickHolds)
    | (with_reducible apply keeps_tickDie) | (with_reducible apply keeps_tickPort) | (with_reducible apply keeps_endLatch)
    | (with_reducible apply keeps_tickStream) | (with_reducible apply keeps_foldl) | (with_reducible apply keeps_id)
    | (extract_lets) | (split) | (with_reducible apply keeps_ite) | (dsimp -zeta only) | (dsimp -zeta +zetaDelta only))

theorem keeps_tickWork (s) (hs : Keeps s₀ s) : Keeps s₀ (tickWork s) := by
  unfold tickWork
  repeat' (first
    | (with_reducible assumption) | (with_reducible intro _) | (with_reducible apply keeps_State_each)
    | (with_reducible apply keeps_tickSet) | (with_reducible apply keeps_endWaits)
    | (with_reducible apply keeps_enforceQuotas) | (with_reducible apply keeps_serveAlloc)
    | (with_reducible apply keeps_freeSets) | (with_reducible apply keeps_settle) | (with_reducible apply keeps_tryArrays)
    | (with_reducible apply keeps_runIssued) | (with_reducible apply keeps_tableTurn)
    | (with_reducible apply keeps_noteCredits) | (with_reducible apply keeps_foldl) | (with_reducible apply keeps_id)
    | (extract_lets) | (split) | (with_reducible apply keeps_ite) | (dsimp -zeta only) | (dsimp -zeta +zetaDelta only))

theorem keeps_tick (s) (hs : Keeps s₀ s) : Keeps s₀ (tick s) := by
  unfold tick
  repeat' (first
    | (with_reducible assumption) | (with_reducible intro _) | (with_reducible apply keeps_offTick)
    | (with_reducible apply keeps_overTick) | (with_reducible apply keeps_tickBridge) | (with_reducible apply keeps_rerun)
    | (with_reducible apply keeps_copyHang) | (with_reducible apply keeps_nextTime) | (with_reducible apply keeps_State_when)
    | (with_reducible apply keeps_tickCounters) | (with_reducible apply keeps_tickWork)
    | (with_reducible apply keeps_tickCask) | (with_reducible apply keeps_foldl) | (with_reducible apply keeps_id)
    | (extract_lets) | (split) | (with_reducible apply keeps_ite) | (dsimp -zeta only) | (dsimp -zeta +zetaDelta only))

end Sys2Proof.Machine.Laws
end

