-- ==== Sys2Proof/Laws/KeepsExec.lean ====
section
/-! SUPPORT. Every command keeps what `Keeps` names. -/

set_option linter.all false

namespace Sys2Proof.Machine.Laws

/-- A command that answers a next state keeps what `Keeps` names. -/
theorem keeps_exec (i : Instr) {s t : State} (h : exec i s = .next t) : Keeps s t := by
  cases i with
  | tokenArrival u stream seq st => exact keeps_execTokenArrival _ _ _ _ _ (keeps_refl s) h
  | creditArrival u ctr count => exact keeps_execCreditArrival _ _ _ _ (keeps_refl s) h
  | shareComplete member stream seq => exact keeps_execShareComplete _ _ _ _ (keeps_refl s) h
  | bridgeReplay d => exact keeps_execBridgeReplay _ _ (keeps_refl s) h
  | bridgeDown => exact keeps_execBridgeDown _ (keeps_refl s) h
  | completionRelease u => exact keeps_execCompletionRelease _ _ (keeps_refl s) h
  | nop u => exact keeps_execNop _ _ (keeps_refl s) h
  | mul u => exact keeps_execMul _ _ (keeps_refl s) h
  | mulB1 u => exact keeps_execMulB1 _ _ (keeps_refl s) h
  | mulLut u => exact keeps_execMulLut _ _ (keeps_refl s) h
  | mulBsr u => exact keeps_execMulBsr _ _ (keeps_refl s) h
  | vecMap1 u => exact keeps_execVecMap1 _ _ (keeps_refl s) h
  | vecMap2 u => exact keeps_execVecMap2 _ _ (keeps_refl s) h
  | vecFma u => exact keeps_execVecFma _ _ (keeps_refl s) h
  | vecReduce u => exact keeps_execVecReduce _ _ (keeps_refl s) h
  | vecSoftmax u => exact keeps_execVecSoftmax _ _ (keeps_refl s) h
  | vecMask u => exact keeps_execVecMask _ _ (keeps_refl s) h
  | vecTopk u => exact keeps_execVecTopk _ _ (keeps_refl s) h
  | mov u => exact keeps_execMov _ _ (keeps_refl s) h
  | fill u => exact keeps_execFill _ _ (keeps_refl s) h
  | tierHint u => exact keeps_execTierHint _ _ (keeps_refl s) h
  | colAccum u => exact keeps_execColAccum _ _ (keeps_refl s) h
  | colGather u => exact keeps_execColGather _ _ (keeps_refl s) h
  | colScatter u => exact keeps_execColScatter _ _ (keeps_refl s) h
  | colAllgather u => exact keeps_execColAllgather _ _ (keeps_refl s) h
  | colRedscat u => exact keeps_execColRedscat _ _ (keeps_refl s) h
  | colBcast u => exact keeps_execColBcast _ _ (keeps_refl s) h
  | colPermute u => exact keeps_execColPermute _ _ (keeps_refl s) h
  | arrayIssue ch => exact keeps_execArrayIssue _ _ (keeps_refl s) h
  | ligatureFence ch => exact keeps_execLigatureFence _ _ (keeps_refl s) h
  | ligatureFenceDone ch => exact keeps_execLigatureFenceDone _ _ (keeps_refl s) h
  | shadowLoadDone ch => exact keeps_execShadowLoadDone _ _ (keeps_refl s) h
  | operandReadError ch op t => exact keeps_execOperandReadError _ _ _ _ (keeps_refl s) h
  | alu ch => exact keeps_execAlu _ _ (keeps_refl s) h
  | addi ch => exact keeps_execAddi _ _ (keeps_refl s) h
  | andi ch => exact keeps_execAndi _ _ (keeps_refl s) h
  | ori ch => exact keeps_execOri _ _ (keeps_refl s) h
  | xori ch => exact keeps_execXori _ _ (keeps_refl s) h
  | shi ch => exact keeps_execShi _ _ (keeps_refl s) h
  | lui ch => exact keeps_execLui _ _ (keeps_refl s) h
  | slti ch => exact keeps_execSlti _ _ (keeps_refl s) h
  | beq ch => exact keeps_execBeq _ _ (keeps_refl s) h
  | bne ch => exact keeps_execBne _ _ (keeps_refl s) h
  | blt ch => exact keeps_execBlt _ _ (keeps_refl s) h
  | bge ch => exact keeps_execBge _ _ (keeps_refl s) h
  | bltu ch => exact keeps_execBltu _ _ (keeps_refl s) h
  | bgeu ch => exact keeps_execBgeu _ _ (keeps_refl s) h
  | jal ch => exact keeps_execJal _ _ (keeps_refl s) h
  | jr ch => exact keeps_execJr _ _ (keeps_refl s) h
  | rte ch => exact keeps_execRte _ _ (keeps_refl s) h
  | ldw ch => exact keeps_execLdw _ _ (keeps_refl s) h
  | ldh ch => exact keeps_execLdh _ _ (keeps_refl s) h
  | ldhu ch => exact keeps_execLdhu _ _ (keeps_refl s) h
  | ldb ch => exact keeps_execLdb _ _ (keeps_refl s) h
  | ldbu ch => exact keeps_execLdbu _ _ (keeps_refl s) h
  | stw ch => exact keeps_execStw _ _ (keeps_refl s) h
  | sth ch => exact keeps_execSth _ _ (keeps_refl s) h
  | stb ch => exact keeps_execStb _ _ (keeps_refl s) h
  | twait ch => exact keeps_execTwait _ _ (keeps_refl s) h
  | tsend ch => exact keeps_execTsend _ _ (keeps_refl s) h
  | cget ch => exact keeps_execCget _ _ (keeps_refl s) h
  | cput ch => exact keeps_execCput _ _ (keeps_refl s) h
  | issue ch => exact keeps_execIssue _ _ (keeps_refl s) h
  | fence ch => exact keeps_execFence _ _ (keeps_refl s) h
  | wait ch => exact keeps_execWait _ _ (keeps_refl s) h
  | trap ch => exact keeps_execTrap _ _ (keeps_refl s) h
  | rdcnt ch => exact keeps_execRdcnt _ _ (keeps_refl s) h
  | twaitTimeout ch => exact keeps_execTwaitTimeout _ _ (keeps_refl s) h
  | cgetTimeout ch => exact keeps_execCgetTimeout _ _ (keeps_refl s) h
  | issueTimeout ch => exact keeps_execIssueTimeout _ _ (keeps_refl s) h
  | waitTimerExpiry ch => exact keeps_execWaitTimerExpiry _ _ (keeps_refl s) h
  | watchdogExpiry ch => exact keeps_execWatchdogExpiry _ _ (keeps_refl s) h
  | outboundSend ch => exact keeps_execOutboundSend _ _ (keeps_refl s) h
  | coreRun fn ch => exact keeps_execCoreRun _ _ _ (keeps_refl s) h
  | coreHalt fn ch => exact keeps_execCoreHalt _ _ _ (keeps_refl s) h
  | coreStep fn ch => exact keeps_execCoreStep _ _ _ (keeps_refl s) h
  | coreReset fn ch => exact keeps_execCoreReset _ _ _ (keeps_refl s) h
  | coreWake fn ch => exact keeps_execCoreWake _ _ _ (keeps_refl s) h
  | loadImem fn ch => exact keeps_execLoadImem _ _ _ (keeps_refl s) h
  | loadDmem fn ch => exact keeps_execLoadDmem _ _ _ (keeps_refl s) h
  | coreLoadDone ch => exact keeps_execCoreLoadDone _ _ (keeps_refl s) h
  | chsMemDataAccess fn ch wr v => exact keeps_execChsMemDataAccess _ _ _ _ _ (keeps_refl s) h
  | stepEnd fn v => exact keeps_execStepEnd _ _ _ (keeps_refl s) h
  | boundaryQuiesced => exact keeps_execBoundaryQuiesced _ (keeps_refl s) h
  | boundaryCombine => exact keeps_execBoundaryCombine _ (keeps_refl s) h
  | gangSummaryRx => exact keeps_execGangSummaryRx _ (keeps_refl s) h
  | gangTimeout => exact keeps_execGangTimeout _ (keeps_refl s) h
  | boundaryRelease => exact keeps_execBoundaryRelease _ (keeps_refl s) h
  | statQueueRelease d => exact keeps_execStatQueueRelease _ _ (keeps_refl s) h
  | hydRingCfgWrite fn d v => exact keeps_execHydRingCfgWrite _ _ _ _ (keeps_refl s) h
  | ptgEntLoad fn => exact keeps_execPtgEntLoad _ _ (keeps_refl s) h
  | ptgEntCommit fn => exact keeps_execPtgEntCommit _ _ (keeps_refl s) h
  | lscaleWrite fn v => exact keeps_execLscaleWrite _ _ _ (keeps_refl s) h
  | seedLoad fn => exact keeps_execSeedLoad _ _ (keeps_refl s) h
  | seedCommit fn => exact keeps_execSeedCommit _ _ (keeps_refl s) h
  | tstEntLoad fn => exact keeps_execTstEntLoad _ _ (keeps_refl s) h
  | tstEntCommit fn => exact keeps_execTstEntCommit _ _ (keeps_refl s) h
  | regionMap fn r => exact keeps_execRegionMap _ _ _ (keeps_refl s) h
  | regionUnmap fn r => exact keeps_execRegionUnmap _ _ _ (keeps_refl s) h
  | tileMove r j tier => exact keeps_execTileMove _ _ _ _ (keeps_refl s) h
  | tileMoveCommit r j => exact keeps_execTileMoveCommit _ _ _ (keeps_refl s) h
  | watermarkEvict kind idx => exact keeps_execWatermarkEvict _ _ _ (keeps_refl s) h
  | quotaLoad fn => exact keeps_execQuotaLoad _ _ (keeps_refl s) h
  | quotaCommit fn => exact keeps_execQuotaCommit _ _ (keeps_refl s) h
  | leaseLoad fn => exact keeps_execLeaseLoad _ _ (keeps_refl s) h
  | leaseRequest fn => exact keeps_execLeaseRequest _ _ (keeps_refl s) h
  | leaseRenew fn => exact keeps_execLeaseRenew _ _ (keeps_refl s) h
  | leaseRelease fn => exact keeps_execLeaseRelease _ _ (keeps_refl s) h
  | lendCfgWrite fn d v => exact keeps_execLendCfgWrite _ _ _ _ (keeps_refl s) h
  | leaseEvacuate l => exact keeps_execLeaseEvacuate _ _ (keeps_refl s) h
  | leaseExpiry l => exact keeps_execLeaseExpiry _ _ (keeps_refl s) h
  | scrubTick ctl found => exact keeps_execScrubTick _ _ _ (keeps_refl s) h
  | streamAlloc fn v => exact keeps_execStreamAlloc _ _ _ (keeps_refl s) h
  | streamContextWrite fn id word v => exact keeps_execStreamContextWrite _ _ _ _ _ (keeps_refl s) h
  | streamActivate fn id => exact keeps_execStreamActivate _ _ _ (keeps_refl s) h
  | streamPause fn id => exact keeps_execStreamPause _ _ _ (keeps_refl s) h
  | streamResume fn id => exact keeps_execStreamResume _ _ _ (keeps_refl s) h
  | streamClose fn id => exact keeps_execStreamClose _ _ _ (keeps_refl s) h
  | sqDoorbell fn id v => exact keeps_execSqDoorbell _ _ _ _ (keeps_refl s) h
  | cqDoorbell fn id v => exact keeps_execCqDoorbell _ _ _ _ (keeps_refl s) h
  | streamFetch home => exact keeps_execStreamFetch _ _ (keeps_refl s) h
  | fetchDeliver id => exact keeps_execFetchDeliver _ _ (keeps_refl s) h
  | completionRecordWrite id => exact keeps_execCompletionRecordWrite _ _ (keeps_refl s) h
  | tokenTimeout u => exact keeps_execTokenTimeout _ _ (keeps_refl s) h
  | creditTimeout u => exact keeps_execCreditTimeout _ _ (keeps_refl s) h
  | jobLoad fn => exact keeps_execJobLoad _ _ (keeps_refl s) h
  | jobCommit fn => exact keeps_execJobCommit _ _ (keeps_refl s) h
  | portEnable fn p v => exact keeps_execPortEnable _ _ _ _ (keeps_refl s) h
  | portRetrain fn p => exact keeps_execPortRetrain _ _ _ (keeps_refl s) h
  | trainingDone p peerId peerPort shares peerTime delay => exact keeps_execTrainingDone _ _ _ _ _ _ _ (keeps_refl s) h
  | trainingTimeout p reason => exact keeps_execTrainingTimeout _ _ _ (keeps_refl s) h
  | retrainTimeout p => exact keeps_execRetrainTimeout _ _ (keeps_refl s) h
  | downRestart p => exact keeps_execDownRestart _ _ (keeps_refl s) h
  | flitRx p stamp f => exact keeps_execFlitRx _ _ _ _ (keeps_refl s) h
  | flitTransmit p => exact keeps_execFlitTransmit _ _ (keeps_refl s) h
  | syncExchange => exact keeps_execSyncExchange _ (keeps_refl s) h
  | e2eTimeout u stream seq => exact keeps_execE2eTimeout _ _ _ _ (keeps_refl s) h
  | writeRx p pkt => exact keeps_execWriteRx _ _ _ (keeps_refl s) h
  | readReqRx p pkt => exact keeps_execReadReqRx _ _ _ (keeps_refl s) h
  | readRespRx p pkt => exact keeps_execReadRespRx _ _ _ (keeps_refl s) h
  | accumRx p pkt => exact keeps_execAccumRx _ _ _ (keeps_refl s) h
  | ackRx p pkt => exact keeps_execAckRx _ _ _ (keeps_refl s) h
  | errorRx p pkt => exact keeps_execErrorRx _ _ _ (keeps_refl s) h
  | tokenRx p pkt => exact keeps_execTokenRx _ _ _ (keeps_refl s) h
  | creditRx p pkt => exact keeps_execCreditRx _ _ _ (keeps_refl s) h
  | govRx p pkt => exact keeps_execGovRx _ _ _ (keeps_refl s) h
  | leaseRequestRx p pkt => exact keeps_execLeaseRequestRx _ _ _ (keeps_refl s) h
  | leaseGrantRx p pkt => exact keeps_execLeaseGrantRx _ _ _ (keeps_refl s) h
  | leaseRefuseRx p pkt => exact keeps_execLeaseRefuseRx _ _ _ (keeps_refl s) h
  | leaseRenewRx p pkt => exact keeps_execLeaseRenewRx _ _ _ (keeps_refl s) h
  | leaseRecallRx p pkt => exact keeps_execLeaseRecallRx _ _ _ (keeps_refl s) h
  | leaseReleaseRx p pkt => exact keeps_execLeaseReleaseRx _ _ _ (keeps_refl s) h
  | bgWriteRx p pkt => exact keeps_execBgWriteRx _ _ _ (keeps_refl s) h
  | bgReadReqRx p pkt => exact keeps_execBgReadReqRx _ _ _ (keeps_refl s) h
  | stopArmRx p pkt => exact keeps_execStopArmRx _ _ _ (keeps_refl s) h
  | stopRefuseRx p pkt => exact keeps_execStopRefuseRx _ _ _ (keeps_refl s) h
  | pairRequestRx p pkt => exact keeps_execPairRequestRx _ _ _ (keeps_refl s) h
  | pairAnswerRx p pkt => exact keeps_execPairAnswerRx _ _ _ (keeps_refl s) h
  | mirrorBeginRx p pkt => exact keeps_execMirrorBeginRx _ _ _ (keeps_refl s) h
  | mirrorEndRx p pkt => exact keeps_execMirrorEndRx _ _ _ (keeps_refl s) h
  | mirrorStatusRx p pkt => exact keeps_execMirrorStatusRx _ _ _ (keeps_refl s) h
  | gangCaskRx p pkt => exact keeps_execGangCaskRx _ _ _ (keeps_refl s) h
  | rtLoad fn => exact keeps_execRtLoad _ _ (keeps_refl s) h
  | rtCommit fn => exact keeps_execRtCommit _ _ (keeps_refl s) h
  | ctxLoad fn => exact keeps_execCtxLoad _ _ (keeps_refl s) h
  | ctxArm fn => exact keeps_execCtxArm _ _ (keeps_refl s) h
  | ctxDisarm fn => exact keeps_execCtxDisarm _ _ (keeps_refl s) h
  | psetLoad fn => exact keeps_execPsetLoad _ _ (keeps_refl s) h
  | psetCommit fn => exact keeps_execPsetCommit _ _ (keeps_refl s) h
  | redscatTakeTile u t => exact keeps_execRedscatTakeTile _ _ _ (keeps_refl s) h
  | redscatTimeout u => exact keeps_execRedscatTimeout _ _ (keeps_refl s) h
  | permuteRelease u => exact keeps_execPermuteRelease _ _ (keeps_refl s) h
  | permuteTimeout u => exact keeps_execPermuteTimeout _ _ (keeps_refl s) h
  | mapEntLoad fn => exact keeps_execMapEntLoad _ _ (keeps_refl s) h
  | mapEntCommit fn => exact keeps_execMapEntCommit _ _ (keeps_refl s) h
  | caskRequest fn => exact keeps_execCaskRequest _ _ (keeps_refl s) h
  | caskCommit => exact keeps_execCaskCommit _ (keeps_refl s) h
  | caskFail reason => exact keeps_execCaskFail _ _ (keeps_refl s) h
  | stopArm fn v => exact keeps_execStopArm _ _ _ (keeps_refl s) h
  | stopPress => exact keeps_execStopPress _ (keeps_refl s) h
  | moduleStopped => exact keeps_execModuleStopped _ (keeps_refl s) h
  | caskCut fn => exact keeps_execCaskCut _ _ (keeps_refl s) h
  | caskResume fn => exact keeps_execCaskResume _ _ (keeps_refl s) h
  | caskRestore fn v => exact keeps_execCaskRestore _ _ _ (keeps_refl s) h
  | restoreDone => exact keeps_execRestoreDone _ (keeps_refl s) h
  | riskEvaluate => exact keeps_execRiskEvaluate _ (keeps_refl s) h
  | critWaitExpiry => exact keeps_execCritWaitExpiry _ (keeps_refl s) h
  | floorExpiry => exact keeps_execFloorExpiry _ (keeps_refl s) h
  | buddyPair fn v => exact keeps_execBuddyPair _ _ _ (keeps_refl s) h
  | pairTimeout => exact keeps_execPairTimeout _ (keeps_refl s) h
  | feedWrite fn v => exact keeps_execFeedWrite _ _ _ (keeps_refl s) h
  | traceEnable fn d v => exact keeps_execTraceEnable _ _ _ _ (keeps_refl s) h
  | traceTrigger fn d => exact keeps_execTraceTrigger _ _ _ (keeps_refl s) h
  | traceArm fn d => exact keeps_execTraceArm _ _ _ (keeps_refl s) h
  | traceTimeTrigger d => exact keeps_execTraceTimeTrigger _ _ (keeps_refl s) h
  | traceWrite d => exact keeps_execTraceWrite _ _ (keeps_refl s) h
  | traceFreeze d => exact keeps_execTraceFreeze _ _ (keeps_refl s) h
  | traceSpill d => exact keeps_execTraceSpill _ _ (keeps_refl s) h
  | counterSnap fn => exact keeps_execCounterSnap _ _ (keeps_refl s) h
  | snapRelease fn => exact keeps_execSnapRelease _ _ (keeps_refl s) h
  | hangRequest fn => exact keeps_execHangRequest _ _ (keeps_refl s) h
  | hangCapture => exact keeps_execHangCapture _ (keeps_refl s) h
  | proofModeWrite fn d v => exact keeps_execProofModeWrite _ _ _ _ (keeps_refl s) h
  | marginStart fn d v => exact keeps_execMarginStart _ _ _ _ (keeps_refl s) h
  | clrRead fn => exact keeps_execClrRead _ _ (keeps_refl s) h
  | clrAppend fn => exact keeps_execClrAppend _ _ (keeps_refl s) h
  | formeWakeRetry fn d f => exact keeps_execFormeWakeRetry _ _ _ _ (keeps_refl s) h
  | forceOnWrite fn d f v => exact keeps_execForceOnWrite _ _ _ _ _ (keeps_refl s) h
  | capWrite fn mgmt v => exact keeps_execCapWrite _ _ _ _ (keeps_refl s) h
  | shareLoad fn => exact keeps_execShareLoad _ _ (keeps_refl s) h
  | shareCommit fn => exact keeps_execShareCommit _ _ (keeps_refl s) h
  | claimDuty fn => exact keeps_execClaimDuty _ _ (keeps_refl s) h
  | releaseDuty fn => exact keeps_execReleaseDuty _ _ (keeps_refl s) h
  | claimVset fn => exact keeps_execClaimVset _ _ (keeps_refl s) h
  | releaseVset fn => exact keeps_execReleaseVset _ _ (keeps_refl s) h
  | rstCtrlWrite fn v => exact keeps_execRstCtrlWrite _ _ _ (keeps_refl s) h
  | functionLevelReset f => exact keeps_execFunctionLevelReset _ _ (keeps_refl s) h
  | configRequest fn off => exact keeps_execConfigRequest _ _ _ (keeps_refl s) h
  | bar2Write fn off data => exact keeps_execBar2Write _ _ _ _ (keeps_refl s) h
  | bar2Read fn off n => exact keeps_execBar2Read _ _ _ _ (keeps_refl s) h
  | irqHoldoffExpiry fn vec => exact keeps_execIrqHoldoffExpiry _ _ _ (keeps_refl s) h
  | streamVectorWrite fn off v => exact keeps_execStreamVectorWrite _ _ _ _ (keeps_refl s) h
  | pageOwnerWrite fn off v => exact keeps_execPageOwnerWrite _ _ _ _ (keeps_refl s) h
  | claimWake fn => exact keeps_execClaimWake _ _ (keeps_refl s) h
  | releaseWake fn => exact keeps_execReleaseWake _ _ (keeps_refl s) h
  | claimFault fn => exact keeps_execClaimFault _ _ (keeps_refl s) h
  | releaseFault fn => exact keeps_execReleaseFault _ _ (keeps_refl s) h
  | errStatusClear fn off v => exact keeps_execErrStatusClear _ _ _ _ (keeps_refl s) h
  | evRawClear fn off v => exact keeps_execEvRawClear _ _ _ _ (keeps_refl s) h
  | evForceWrite fn off v => exact keeps_execEvForceWrite _ _ _ _ (keeps_refl s) h
  | loReadLatch fn off => exact keeps_execLoReadLatch _ _ _ (keeps_refl s) h
  | regWrite fn off v => exact keeps_execRegWrite _ _ _ _ (keeps_refl s) h
  | refusedRead fn off => exact keeps_execRefusedRead _ _ _ (keeps_refl s) h
  | sensorConversion d temps volts ros => exact keeps_execSensorConversion _ _ _ _ _ (keeps_refl s) h
  | droop d k => exact keeps_execDroop _ _ _ (keeps_refl s) h
  | marginDone d mv failed => exact keeps_execMarginDone _ _ _ _ (keeps_refl s) h
  | colophonAppend d type payload => exact keeps_execColophonAppend _ _ _ _ (keeps_refl s) h
  | colophonPeriodic => exact keeps_execColophonPeriodic _ (keeps_refl s) h
  | vinChange v amps => exact keeps_execVinChange _ _ _ (keeps_refl s) h
  | formeClockGate d f => exact keeps_execFormeClockGate _ _ _ (keeps_refl s) h
  | formePowerGate d f => exact keeps_execFormePowerGate _ _ _ (keeps_refl s) h
  | formeWake d f source path => exact keeps_execFormeWake _ _ _ _ _ (keeps_refl s) h
  | formeWakeDone d f => exact keeps_execFormeWakeDone _ _ _ (keeps_refl s) h
  | formeWakeTimeout d f => exact keeps_execFormeWakeTimeout _ _ _ (keeps_refl s) h
  | powerInterval watts avg10ms => exact keeps_execPowerInterval _ _ _ (keeps_refl s) h
  | shareWindow uses => exact keeps_execShareWindow _ _ (keeps_refl s) h
  | resetAssert source => exact keeps_execResetAssert _ _ (keeps_refl s) h
  | perstNLow => exact keeps_execPerstNLow _ (keeps_refl s) h
  | criticalStateError d sub index => exact keeps_execCriticalStateError _ _ _ _ (keeps_refl s) h
  | refclkLoss => exact keeps_execRefclkLoss _ (keeps_refl s) h
  | nvPulseEnd => exact keeps_execNvPulseEnd _ (keeps_refl s) h
  | startupStepDone bridgeOk failed => exact keeps_execStartupStepDone _ _ _ (keeps_refl s) h
  | bulkZeroDone d => exact keeps_execBulkZeroDone _ _ (keeps_refl s) h
  | wakePin level => exact keeps_execWakePin _ _ (keeps_refl s) h
  | coolantPin level => exact keeps_execCoolantPin _ _ (keeps_refl s) h
  | setEndpointId ep eid => exact keeps_execSetEndpointId _ _ _ (keeps_refl s) h
  | getEndpointId ep => exact keeps_execGetEndpointId _ _ (keeps_refl s) h
  | getEndpointUuid ep => exact keeps_execGetEndpointUuid _ _ (keeps_refl s) h
  | getMctpVersionSupport ep type => exact keeps_execGetMctpVersionSupport _ _ _ (keeps_refl s) h
  | getMessageTypeSupport ep => exact keeps_execGetMessageTypeSupport _ _ (keeps_refl s) h
  | getTid ep => exact keeps_execGetTid _ _ (keeps_refl s) h
  | setTid ep tid => exact keeps_execSetTid _ _ _ (keeps_refl s) h
  | getPldmVersion ep type => exact keeps_execGetPldmVersion _ _ _ (keeps_refl s) h
  | getPldmTypes ep => exact keeps_execGetPldmTypes _ _ (keeps_refl s) h
  | getPldmCommands ep type => exact keeps_execGetPldmCommands _ _ _ (keeps_refl s) h
  | getPdrRepositoryInfo ep => exact keeps_execGetPdrRepositoryInfo _ _ (keeps_refl s) h
  | getPdr ep handle => exact keeps_execGetPdr _ _ _ (keeps_refl s) h
  | getSensorReading ep id => exact keeps_execGetSensorReading _ _ _ (keeps_refl s) h
  | getStateSensorReadings ep id => exact keeps_execGetStateSensorReadings _ _ _ (keeps_refl s) h
  | setNumericSensorEnable ep id enable => exact keeps_execSetNumericSensorEnable _ _ _ _ (keeps_refl s) h
  | setSensorThresholds ep id warn crit => exact keeps_execSetSensorThresholds _ _ _ _ _ (keeps_refl s) h
  | setEventReceiver ep receiver => exact keeps_execSetEventReceiver _ _ _ (keeps_refl s) h
  | pollForPlatformEventMessage ep => exact keeps_execPollForPlatformEventMessage _ _ (keeps_refl s) h
  | queryDeviceIdentifiers ep => exact keeps_execQueryDeviceIdentifiers _ _ (keeps_refl s) h
  | getFirmwareParameters ep => exact keeps_execGetFirmwareParameters _ _ (keeps_refl s) h
  | requestUpdate ep maxTransfer => exact keeps_execRequestUpdate _ _ _ (keeps_refl s) h
  | passComponentTable ep classifier => exact keeps_execPassComponentTable _ _ _ (keeps_refl s) h
  | updateComponent ep classifier size => exact keeps_execUpdateComponent _ _ _ _ (keeps_refl s) h
  | requestFirmwareData ep data => exact keeps_execRequestFirmwareData _ _ _ (keeps_refl s) h
  | transferComplete ep ok => exact keeps_execTransferComplete _ _ _ (keeps_refl s) h
  | verifyComplete ep => exact keeps_execVerifyComplete _ _ (keeps_refl s) h
  | applyComplete ep => exact keeps_execApplyComplete _ _ (keeps_refl s) h
  | activateFirmware ep selfContained reset => exact keeps_execActivateFirmware _ _ _ _ (keeps_refl s) h
  | getStatus ep => exact keeps_execGetStatus _ _ (keeps_refl s) h
  | cancelUpdateComponent ep => exact keeps_execCancelUpdateComponent _ _ (keeps_refl s) h
  | cancelUpdate ep => exact keeps_execCancelUpdate _ _ (keeps_refl s) h
  | extest d => exact keeps_execExtest _ _ (keeps_refl s) h
  | idcode d => exact keeps_execIdcode _ _ (keeps_refl s) h
  | samplePreload d => exact keeps_execSamplePreload _ _ (keeps_refl s) h
  | clamp d => exact keeps_execClamp _ _ (keeps_refl s) h
  | highz d => exact keeps_execHighz _ _ (keeps_refl s) h
  | extestPulse d => exact keeps_execExtestPulse _ _ (keeps_refl s) h
  | extestTrain d => exact keeps_execExtestTrain _ _ (keeps_refl s) h
  | bypass d => exact keeps_execBypass _ _ (keeps_refl s) h
  | retrainDone p => exact keeps_execRetrainDone _ _ (keeps_refl s) h
  | peerGone p => exact keeps_execPeerGone _ _ (keeps_refl s) h
  | pcieLinkChange kind speed width flit => exact keeps_execPcieLinkChange _ _ _ _ _ (keeps_refl s) h
  | pendingUnitCopied => exact keeps_execPendingUnitCopied _ (keeps_refl s) h
  | boardAlarm alarm on => exact keeps_execBoardAlarm _ _ _ (keeps_refl s) h
  | muzomusStart okA okB => exact keeps_execMuzomusStart _ _ _ (keeps_refl s) h

end Sys2Proof.Machine.Laws
end

