-- ==== Sys2Proof/WellFormed.lean ====
section
/-! DEFINITION. The operand values that a command of the block can carry: unit paths, dies, ports, functions, offsets and widths as
the spec bounds them (R3, R19, R20, R242, R269, R477, R525). -/

namespace Sys2Proof

open Sys2Proof.Machine

/-- An accessor: a function, or Muzomus as 32. -/
def wfFn (fn : Nat) : Bool := decide (fn ≤ 32)

/-- A port, or a die's delivery of a packet that the module sends to itself. -/
def wfRx (p : Nat) : Bool := decide (p ≤ 16)

/-- An aligned register offset of BAR0, 256 MB (R525). -/
def wfOff (off : Nat) : Bool := decide (off < 2 ^ 28) && off % 4 == 0

def wfDie (d : Nat) : Bool := decide (d < 2)
def wfForme (f : Nat) : Bool := decide (f < 9)
def wfPort (p : Nat) : Bool := decide (p < 16)
def wfStream (id : Nat) : Bool := decide (id < 2 ^ 16)
def wfSeq (n : Nat) : Bool := decide (n < 2 ^ 32)
def wfRegion (r : Nat) : Bool := decide (r < 2 ^ 20)
/-- A Tile of a region: at most 2^32 Folios of 512 Tiles (R243). -/
def wfTile (j : Nat) : Bool := decide (j < 2 ^ 41)
def wfEid (e : Nat) : Bool := decide (e < 256)
def wfPayload (l : List Byte) : Bool := decide (l.length ≤ 32)

/-- Operands of the host's, the links' and the sensors' commands that need more than a path, a function or a port. -/
def Instr.wf (i : Instr) : Bool :=
  match i with
  | .tokenArrival u stream seq _ => validPath u && wfStream stream && wfSeq seq
  | .creditArrival u ctr count => validPath u && decide (ctr ≤ 16) && decide (count < 2 ^ 16)
  | .shareComplete member stream seq => validPath member && wfStream stream && wfSeq seq
  | .bridgeReplay d | .statQueueRelease d | .traceTimeTrigger d | .traceWrite d | .traceFreeze d | .traceSpill d | .bulkZeroDone d => wfDie d
  | .extest d | .idcode d | .samplePreload d | .clamp d | .highz d | .extestPulse d | .extestTrain d | .bypass d => wfDie d.die
  | .sensorConversion d temps volts ros =>
    wfDie d && decide (temps.length ≤ 25) && decide (volts.length ≤ 12) && decide (ros.length ≤ 9)
  | .completionRelease u | .nop u | .mul u | .mulB1 u | .mulLut u | .mulBsr u | .vecMap1 u | .vecMap2 u | .vecFma u
  | .vecReduce u | .vecSoftmax u | .vecMask u | .vecTopk u | .mov u | .fill u | .tierHint u | .tokenTimeout u
  | .creditTimeout u => validPath u
  | .colAccum u | .colGather u | .colScatter u | .colAllgather u | .colRedscat u | .colBcast u | .colPermute u
  | .redscatTimeout u | .permuteRelease u | .permuteTimeout u => validPath u && decide (3 ≤ pathLevel u)
  | .redscatTakeTile u t => validPath u && decide (3 ≤ pathLevel u) && wfTile t
  | .e2eTimeout u stream seq => validPath u && wfStream stream && wfSeq seq
  | .operandReadError ch op t => isChase ch && decide (1 ≤ op) && decide (op ≤ 2) && wfTile t
  | .arrayIssue ch | .ligatureFence ch | .ligatureFenceDone ch | .shadowLoadDone ch | .alu ch | .addi ch | .andi ch
  | .ori ch | .xori ch | .shi ch | .lui ch | .slti ch | .beq ch | .bne ch | .blt ch | .bge ch | .bltu ch | .bgeu ch | .jal ch
  | .jr ch | .rte ch | .ldw ch | .ldh ch | .ldhu ch | .ldb ch | .ldbu ch | .stw ch | .sth ch | .stb ch | .twait ch | .tsend ch
  | .cget ch | .cput ch | .issue ch | .fence ch | .wait ch | .trap ch | .rdcnt ch | .twaitTimeout ch | .cgetTimeout ch
  | .issueTimeout ch | .waitTimerExpiry ch | .watchdogExpiry ch | .outboundSend ch | .coreLoadDone ch => isChase ch
  | .coreRun fn ch | .coreHalt fn ch | .coreStep fn ch | .coreReset fn ch | .coreWake fn ch | .loadImem fn ch | .loadDmem fn ch
  | .chsMemDataAccess fn ch _ _ => wfFn fn && isChase ch
  | .hydRingCfgWrite fn d _ | .lendCfgWrite fn d _ | .traceEnable fn d _ | .traceTrigger fn d | .traceArm fn d
  | .proofModeWrite fn d _ | .marginStart fn d _ => wfFn fn && wfDie d
  | .forceOnWrite fn d f _ | .formeWakeRetry fn d f => wfFn fn && wfDie d && wfForme f
  | .stepEnd fn _ | .ptgEntLoad fn | .ptgEntCommit fn | .lscaleWrite fn _ | .seedLoad fn | .seedCommit fn | .tstEntLoad fn
  | .tstEntCommit fn | .quotaLoad fn | .quotaCommit fn | .leaseLoad fn | .leaseRequest fn | .leaseRenew fn | .leaseRelease fn
  | .streamAlloc fn _ | .jobLoad fn | .jobCommit fn | .rtLoad fn | .rtCommit fn | .ctxLoad fn | .ctxArm fn | .ctxDisarm fn
  | .psetLoad fn | .psetCommit fn | .mapEntLoad fn | .mapEntCommit fn | .caskRequest fn | .stopArm fn _ | .caskCut fn
  | .caskResume fn | .caskRestore fn _ | .buddyPair fn _ | .feedWrite fn _ | .counterSnap fn | .snapRelease fn | .hangRequest fn
  | .clrRead fn | .clrAppend fn | .capWrite fn _ _ | .shareLoad fn | .shareCommit fn | .claimDuty fn | .releaseDuty fn
  | .claimVset fn | .releaseVset fn | .rstCtrlWrite fn _ | .claimWake fn | .releaseWake fn | .claimFault fn
  | .releaseFault fn => wfFn fn
  | .regionMap fn r | .regionUnmap fn r => wfFn fn && wfRegion r
  | .streamContextWrite fn id word _ => wfFn fn && wfStream id && decide (word < 16)
  | .streamActivate fn id | .streamPause fn id | .streamResume fn id | .streamClose fn id | .sqDoorbell fn id _
  | .cqDoorbell fn id _ => wfFn fn && wfStream id
  | .fetchDeliver id | .completionRecordWrite id => wfStream id
  | .streamFetch home => validPath home
  | .tileMove r j tier => wfRegion r && wfTile j && decide (tier ≤ 4)
  | .tileMoveCommit r j => wfRegion r && wfTile j
  | .watermarkEvict kind idx => decide (kind < 3) && decide (idx < (match kind with | 0 => 2 | 1 => 2304 | _ => 144))
  | .leaseEvacuate l | .leaseExpiry l => decide (l < 64)
  | .scrubTick ctl found => decide (ctl < 18) && decide (found ≤ 2)
  | .portEnable fn p _ | .portRetrain fn p => wfFn fn && wfPort p
  | .trainingDone p peerId peerPort shares _ e =>
    wfPort p && decide (peerId < 2 ^ 12) && wfPort peerPort && decide (shares.length = 4) && e.tags.all (fun t => decide (t < 2 ^ 20))
  | .trainingTimeout p _ | .retrainTimeout p | .downRestart p | .flitTransmit p | .retrainDone p | .peerGone p => wfPort p
  | .flitRx p stamp _ => wfPort p && decide (stamp < 2 ^ 64)
  | .writeRx p _ | .readReqRx p _ | .readRespRx p _ | .accumRx p _ | .ackRx p _ | .errorRx p _ | .tokenRx p _ | .creditRx p _
  | .govRx p _ | .leaseRequestRx p _ | .leaseGrantRx p _ | .leaseRefuseRx p _ | .leaseRenewRx p _ | .leaseRecallRx p _
  | .leaseReleaseRx p _ | .bgWriteRx p _ | .bgReadReqRx p _ | .stopArmRx p _ | .stopRefuseRx p _ | .pairRequestRx p _
  | .pairAnswerRx p _ | .mirrorBeginRx p _ | .mirrorEndRx p _ | .mirrorStatusRx p _ | .gangCaskRx p _ => wfRx p
  | .caskFail reason => decide (reason < 256)
  | .functionLevelReset f => decide (f < 32)
  | .configRequest fn a => decide (fn < 32) && decide (a.off < 4096) && a.off % 4 == 0
  | .bar2Write fn off data => decide (fn < 32) && decide (off < 2 ^ 36) && decide (1 ≤ data.length) && decide (data.length ≤ 512)
  | .bar2Read fn off n => decide (fn < 32) && decide (off < 2 ^ 36) && decide (1 ≤ n) && decide (n ≤ 512)
  | .irqHoldoffExpiry fn vec => decide (fn < 32) && decide (vec < 64)
  | .streamVectorWrite fn off _ | .pageOwnerWrite fn off _ | .errStatusClear fn off _ | .evRawClear fn off _
  | .evForceWrite fn off _ | .loReadLatch fn off | .regWrite fn off _ | .refusedRead fn off => wfFn fn && wfOff off
  | .droop d k => wfDie d && decide (k.dom < 12)
  | .marginDone d mv failed => wfDie d && decide (mv ≤ 150) && failed.all (fun x => decide (x < 1152))
  | .colophonAppend d type payload => wfDie d && decide (type < 256) && wfPayload payload
  | .vinChange v amps => decide (v ≤ 10000) && decide (amps ≤ 10000)
  | .formeClockGate d f | .formePowerGate d f | .formeWakeDone d f | .formeWakeTimeout d f => wfDie d && wfForme f
  | .formeWake d f source path => wfDie d && wfForme f && decide (1 ≤ source) && decide (source ≤ 12) && validPath path
  | .shareWindow u => u.uses.all (fun x => decide (x.1 < 4096))
  | .criticalStateError d sub index => wfDie d && decide (1 ≤ sub) && decide (sub ≤ 5) && decide (index < 2 ^ 24)
  | .startupStepDone _ failed => failed.all (fun x => decide (x < 2304))
  | .setEndpointId ep eid => wfEid ep && wfEid eid
  | .setTid ep tid => wfEid ep && wfEid tid
  | .getMctpVersionSupport ep type | .getPldmVersion ep type | .getPldmCommands ep type => wfEid ep && wfEid type
  | .getEndpointId ep | .getEndpointUuid ep | .getMessageTypeSupport ep | .getTid ep | .getPldmTypes ep
  | .getPdrRepositoryInfo ep | .pollForPlatformEventMessage ep | .queryDeviceIdentifiers ep | .getFirmwareParameters ep
  | .transferComplete ep _ | .verifyComplete ep | .applyComplete ep | .getStatus ep | .cancelUpdateComponent ep | .cancelUpdate ep
  | .requestFirmwareData ep _ => wfEid ep
  | .getPdr ep handle => wfEid ep && wfSeq handle
  | .getSensorReading ep id | .getStateSensorReadings ep id | .setNumericSensorEnable ep id _
  | .setSensorThresholds ep id _ _ => wfEid ep && decide (id < 2 ^ 16)
  | .setEventReceiver ep receiver => wfEid ep && wfEid receiver
  | .requestUpdate ep maxTransfer => wfEid ep && wfSeq maxTransfer
  | .passComponentTable ep classifier => wfEid ep && decide (classifier < 2 ^ 16)
  | .updateComponent ep classifier size => wfEid ep && decide (classifier < 2 ^ 16) && wfSeq size
  | .activateFirmware ep _ reset => wfEid ep && decide (reset ≤ 2)
  | .pcieLinkChange kind speed width _ => decide (kind < 4) && decide (speed ≤ 6) && decide (width ≤ 16)
  | .boardAlarm alarm _ => decide (alarm < 32)
  | .resetAssert source => decide (1 ≤ source) && (decide (source ≤ 7) || source == 0x15)
  | .bridgeDown | .boundaryQuiesced | .boundaryCombine | .gangSummaryRx | .gangTimeout | .boundaryRelease | .syncExchange | .caskCommit
  | .stopPress | .moduleStopped | .restoreDone | .riskEvaluate | .critWaitExpiry | .floorExpiry | .pairTimeout | .hangCapture
  | .colophonPeriodic | .perstNLow | .refclkLoss | .nvPulseEnd | .wakePin _ | .coolantPin _ | .pendingUnitCopied
  | .muzomusStart _ _ | .powerInterval _ _ => true

end Sys2Proof
end

