-- ==== Sys2Proof/Tests/Slice0.lean ====
section
/-! SUPPORT. Tests: ill-formed operands refused, states that meet the hypotheses of every statement, and single commands checked
against the worked examples and tables of the spec. -/

namespace Sys2Proof.Tests

set_option Elab.async false

open Sys2Proof Sys2Proof.Machine

/-- A module that has started: 48 V valid, start-up over, 31 virtual functions, the bridge up, Muzomus running. -/
def up : State :=
  let s := State.reset
  let s := { s with power := { s.power with vin := 2 }, mzm := { s.mzm with restarting := false } }
  let s := (s.setFlag (resetPage 0) Fld.RST_STATUS.ready true).setFlag (resetPage 1) Fld.RST_STATUS.ready true
  let s := s.setFld (resetPage 0) Fld.RST_STATUS.step 0
  let s := s.setNum (shadowBase + 0xAE) 1 31
  (s.setFlag (dieTopPage 0) Fld.DIE_BRG_STATUS.link_up true).setFlag (dieTopPage 1) Fld.DIE_BRG_STATUS.link_up true

/-- The next state of a command, or `up` where it has none. -/
def after (i : Instr) (s : State) : State := match exec i s with | .next t => t | _ => up

/-- Whether a command answers a next state. -/
def goes (o : Host.Outcome State Fault Refusal) : Bool := match o with | .next _ => true | _ => false

/-- A core that runs, with registers `g`. -/
def coreWith (g : List (Nat × Nat)) : CoreSt :=
  g.foldl (fun (c : CoreSt) x => c.setG x.1 (BitVec.ofNat 32 x.2)) { CoreSt.reset with run := .running }

/-- `s` with core 0 as `c` and the word `w` at address 0 of its instruction memory. -/
def put (c : CoreSt) (w : Nat) (s : State) : State := (s.setCore 0 c).setNum (imemBase 0) 4 w

/-- `up` with core 0 about to run the word `w` with registers `g`. -/
def at0 (w : Nat) (g : List (Nat × Nat)) : State := put (coreWith g) w up

/-- An instruction word: opcode, the fields at bits 25:21 and 20:16, the low 16 bits (R132). -/
def iw (op d a lo : Nat) : Nat := op * 2 ^ 26 + d * 2 ^ 21 + a * 2 ^ 16 + lo

/-- Stream `id` of `up` in state 2 with the smallest queues, changed by `f`. -/
def withStream (id : Nat) (f : Machine.Stream → Machine.Stream) (s : State) : State :=
  s.setStream id (f { Machine.Stream.reset with state := 2, sqBase := 0x100000, sqExp := 4, cqBase := 0x200000, cqExp := 4, credits := 4 })

/-- The page at `b` with PAGE_OWNER naming function 1. -/
def ownedBy1 (b : Nat) (s : State) : State := s.setRegN (b + 0x0C) 1

/-! Witnesses: the hypotheses of each statement hold together somewhere. Each conjunct meets one clause, at the ends of its range
where it has one. -/

theorem wit_MemoryCanonicalKept : (Memory.wf up.mem = true ∧ goes (Machine.step { up with pending := [.nop 0] }) = true) := by
  decide +kernel

theorem wit_CoreArithmetic :
    CoreAt (at0 (iw 1 31 1 0x8000) [(1, 7)]) 0 1 ∧ CoreAt (at0 (iw 2 0 1 0xFFFF) [(1, 7)]) 0 2 ∧ CoreAt (at0 (iw 3 2 1 1) []) 0 3 ∧
    CoreAt (at0 (iw 4 2 1 1) []) 0 4 ∧
    (CoreAt (at0 (iw 5 2 1 31) []) 0 5 ∧ bits (iw 5 2 1 31) 15 7 = 0 ∧ bits (iw 5 2 1 31) 6 5 = 0) ∧
    (bits (iw 5 2 1 (31 + 32)) 15 7 = 0 ∧ bits (iw 5 2 1 (31 + 32)) 6 5 = 1) ∧
    (bits (iw 5 2 1 (31 + 64)) 15 7 = 0 ∧ bits (iw 5 2 1 (31 + 64)) 6 5 = 2) ∧
    (CoreAt (at0 (iw 6 2 0 0xFFFF) []) 0 6 ∧ bits (iw 6 2 0 0xFFFF) 20 16 = 0) ∧ CoreAt (at0 (iw 7 2 1 0x7FFF) []) 0 7 := by
  unfold CoreAt; decide +kernel

theorem wit_CoreAluFunctions :
    CoreAt (at0 (iw 0 2 1 (3 * 2048)) [(1, 7), (3, 0xFFFFFFFF)]) 0 0 ∧
    ∀ f, f < 14 → CoreAt (at0 (iw 0 2 1 (3 * 2048 + f)) [(1, 7)]) 0 0 ∧ bits (coreWord (at0 (iw 0 2 1 (3 * 2048 + f)) []) 0) 10 0 = f := by
  unfold CoreAt; decide +kernel

theorem wit_CoreBranches :
    (∀ op, op < 7 → CoreAt (at0 (iw (8 + op) 1 2 0x8000) [(1, 7), (2, 7)]) 0 (8 + op)) ∧
    (let s := at0 (iw 15 0 2 0) [(2, 0xFFFFFFFC)]; CoreAt s 0 15 ∧ bits (coreWord s 0) 25 21 = 0 ∧ bits (coreWord s 0) 15 0 = 0 ∧
      ((s.core 0).reg (bits (coreWord s 0) 20 16)).toNat % 4 = 0) ∧
    (let s := put { coreWith [(2, 8)] with inTrap := true } (iw 16 0 2 0) up;
      CoreAt s 0 16 ∧ (s.core 0).inTrap = true ∧ bits (coreWord s 0) 25 21 = 0 ∧
      bits (coreWord s 0) 15 0 = 0 ∧ ((s.core 0).reg (bits (coreWord s 0) 20 16)).toNat % 4 = 0) := by
  unfold CoreAt; decide +kernel

/-- The address of a load or store of `at0`. -/
def lsAddr (s : State) : Nat :=
  ((s.core 0).reg (iRa (coreWord s 0)) + (BitVec.ofNat 16 (bits (coreWord s 0) 15 0)).signExtend 32).toNat

theorem wit_CoreLoads :
    (let s := at0 (iw 0x11 2 1 0) [(1, 0x3FFC)]; CoreAt s 0 0x11 ∧ lsAddr s % 4 = 0 ∧ lsAddr s < 0x4000 ∧ s.coreEcc (dmemBase 0 + lsAddr s) = 0 ∧
      (s.setCoreEcc (dmemBase 0 + lsAddr s) 1).coreEcc (dmemBase 0 + lsAddr s) = 1 ∧ CoreAt (s.setCoreEcc (dmemBase 0 + lsAddr s) 1) 0 0x11) ∧
    (let s := at0 (iw 0x12 2 1 0xFFFE) [(1, 0x40000)]; CoreAt s 0 0x12 ∧ lsAddr s % 2 = 0) ∧
    (let s := at0 (iw 0x13 2 1 0xFFFE) [(1, 0x80000)]; CoreAt s 0 0x13 ∧ lsAddr s % 2 = 0 ∧ 0x40000 ≤ lsAddr s ∧ lsAddr s < 0x80000 ∧
      s.eccAt (chaseStore 0 + (lsAddr s - 0x40000)) = 0 ∧ (s.setEcc (chaseStore 0 + (lsAddr s - 0x40000)) 1).eccAt
        (chaseStore 0 + (lsAddr s - 0x40000)) = 1 ∧ CoreAt (s.setEcc (chaseStore 0 + (lsAddr s - 0x40000)) 1) 0 0x13) ∧
    (let s := at0 (iw 0x14 2 1 0) [(1, 0x40000)]; CoreAt s 0 0x14 ∧ 0x40000 ≤ lsAddr s ∧ lsAddr s < 0x80000 ∧
      s.eccAt (chaseStore 0 + (lsAddr s - 0x40000)) = 0) ∧
    (let s := at0 (iw 0x15 2 1 0x3FFF) []; CoreAt s 0 0x15 ∧ lsAddr s < 0x4000 ∧ s.coreEcc (dmemBase 0 + lsAddr s) = 0) ∧
    (let s := at0 (iw 0x11 2 1 0) [(1, 0x80000)]; CoreAt s 0 0x11 ∧ lsAddr s = 0x80000) ∧
    (let s := at0 (iw 0x11 2 1 4) [(1, 0x80000)]; CoreAt s 0 0x11 ∧ lsAddr s = 0x80004) := by
  unfold CoreAt; and_intros <;> decide +kernel

theorem wit_CoreStores :
    (let s := at0 (iw 0x16 2 1 0) [(1, 0x3FFC)]; CoreAt s 0 0x16 ∧ lsAddr s % 4 = 0 ∧ lsAddr s < 0x4000) ∧
    (let s := at0 (iw 0x17 2 1 0xFFFE) [(1, 0x80000)]; CoreAt s 0 0x17 ∧ lsAddr s % 2 = 0 ∧ 0x40000 ≤ lsAddr s ∧ lsAddr s < 0x80000) ∧
    (let s := at0 (iw 0x18 2 1 0) [(1, 0x40000)]; CoreAt s 0 0x18 ∧ 0x40000 ≤ lsAddr s ∧ lsAddr s < 0x80000) := by
  unfold CoreAt; decide +kernel

theorem wit_CoreModeStores :
    (let s := at0 (iw 0x16 2 1 0) [(1, 0x80000), (2, 0x7F)]; CoreAt s 0 0x16 ∧ lsAddr s = 0x80000 ∧ (s.core 0).hostMode ≠ s.time + 1 ∧
      bits ((s.core 0).reg 2).toNat 8 7 < 2) ∧
    (let s := at0 (iw 0x16 2 1 4) [(1, 0x80000), (2, 0xFFFFFFFF)]; CoreAt s 0 0x16 ∧ lsAddr s = 0x80004 ∧ (s.core 0).hostVec ≠ s.time + 1) ∧
    (∀ o ∈ [0, 4], let s := put { coreWith [(1, 0x80000), (2, 0x7F)] with hostMode := 1, hostVec := 1 } (iw 0x16 2 1 o) up;
      CoreAt s 0 0x16 ∧ lsAddr s = 0x80000 + o ∧ (s.core 0).hostMode = s.time + 1 ∧ (s.core 0).hostVec = s.time + 1) := by
  unfold CoreAt; decide +kernel

theorem wit_CoreTraps :
    (let s := put { coreWith [] with pc := 0x4000 } 0 up; isChase 0 = true ∧ formeOn s 0 = true ∧ (s.core 0).run = .running ∧
      traceLevel s 0 = 0 ∧ fetchTrap s 0 = some trAddress ∧ trAddress ≠ trParity) ∧
    (let s := at0 (iw 0x3F 0 0 0) []; fetchTrap s 0 = none ∧ listedOp (iOp (coreWord s 0)) = false) ∧
    (let s := at0 (iw 0 0 0 14) []; fetchTrap s 0 = none ∧ iOp (coreWord s 0) = 0 ∧ 13 < bits (coreWord s 0) 10 0) ∧
    (let s := at0 (iw 0x10 0 0 0) []; fetchTrap s 0 = none ∧ iOp (coreWord s 0) = 0x10 ∧ (s.core 0).inTrap = false) ∧
    (let s := at0 (iw 0xF 0 2 0) [(2, 2)]; iOp (coreWord s 0) = 0xF ∧ bits (coreWord s 0) 25 21 = 0 ∧ bits (coreWord s 0) 15 0 = 0 ∧
      ((s.core 0).reg (iRa (coreWord s 0))).toNat % 4 ≠ 0) ∧
    (let s := at0 (iw 0x11 0 2 3) []; iOp (coreWord s 0) = 0x11 ∧ lsAddr s % 4 ≠ 0) ∧
    (let s := at0 (iw 0x16 0 2 1) []; iOp (coreWord s 0) = 0x16 ∧ lsAddr s % 4 ≠ 0) ∧
    (let s := at0 (iw 0x17 0 2 0x4000) []; iOp (coreWord s 0) = 0x17 ∧ lsAddr s % 2 = 0 ∧ 0x4000 ≤ lsAddr s ∧ lsAddr s < 0x40000) ∧
    (let s := at0 (iw 0x14 0 2 0xFFFF) []; iOp (coreWord s 0) = 0x14 ∧ 0x80000 ≤ lsAddr s) := by
  decide +kernel

/-- `up` with stream 1 ACTIVE in job 0, the core's own. -/
def own1 (w : Nat) (g : List (Nat × Nat)) : State := withStream 1 id (at0 w g)

theorem wit_CoreTokensAndCredits :
    (let s := own1 (iw 0x20 3 1 (2 * 2048 + 1024)) [(1, 1), (2, 5)];
     let s := s.setUnit 0 { s.unit 0 with toks := [⟨1, 5, true, 5⟩] };
     CoreAt s 0 0x20 ∧ bits (coreWord s 0) 9 0 = 0 ∧
      (s.unit 0).toks.find? (fun x => x.stream == (s.core 0).regN 1 % 65536) = some ⟨1, 5, true, 5⟩ ∧ seqGe 5 ((s.core 0).regN 2) = true) ∧
    (let s := own1 (iw 0x20 3 1 0) [(1, 2)]; CoreAt s 0 0x20 ∧ (s.unit 0).toks.find? (fun x => x.stream == (s.core 0).regN 1 % 65536) = none) ∧
    (let s := own1 (iw 0x21 3 1 (2 * 2048)) [(1, 1), (3, 0x8000)]; CoreAt s 0 0x21 ∧ bits (coreWord s 0) 9 0 = 0 ∧
      ownJob s 0 ((s.core 0).regN 1 % 65536) = true ∧ validPath ((s.core 0).regN 3 % 65536) = true) ∧
    (let s := own1 (iw 0x22 3 1 0xF000) [(1, 65536)]; CoreAt s 0 0x22 ∧ bits (coreWord s 0) 11 0 = 0 ∧ 65535 < (s.core 0).regN 1) ∧
    (let s := put ((coreWith [(1, 65535)]).setCredit 15 65535) (iw 0x22 3 1 0xF000) up;
      CoreAt s 0 0x22 ∧ bits (coreWord s 0) 11 0 = 0 ∧ (s.core 0).regN 1 ≤ 65535 ∧ (s.core 0).regN 1 ≤ (s.core 0).credit 15) ∧
    (let s := own1 (iw 0x22 3 1 0) [(1, 1)]; CoreAt s 0 0x22 ∧ (s.core 0).regN 1 ≤ 65535 ∧ (s.core 0).credit 0 < (s.core 0).regN 1) ∧
    (let s := own1 (iw 0x23 3 1 0xF000) [(1, 65535), (3, 2)]; CoreAt s 0 0x23 ∧ bits (coreWord s 0) 11 0 = 0 ∧ 0 < (s.core 0).regN 1 ∧
      (s.core 0).regN 1 ≤ 65535 ∧ validPath ((s.core 0).regN 3 % 65536) = true) := by
  unfold CoreAt; decide +kernel

/-- `up` with the core about to issue, from data memory address 32, a NOP to its own Chase in stream 1. -/
def issuing (d : Nat) : State :=
  (own1 (iw 0x24 d 1 0x8000) [(1, 32)]).setNum (dmemBase 0 + 32) 32 (2 ^ 32)

theorem wit_CoreIssue : let s := issuing 30; let w := coreWord s 0; let a := (s.core 0).regN (iRa w)
    let cmd := BitVec.ofNat 256 (s.num (dmemBase 0 + a) 32);
    CoreAt s 0 0x24 ∧ bits w 14 0 = 0 ∧ (bit w 15 = true → iRd w ≠ 31) ∧ a % 32 = 0 ∧ a < 0x4000 ∧
    (∀ i, i < 8 → s.coreEcc (dmemBase 0 + a + 4 * i) = 0) ∧ cPath cmd = 0 ∧ ownJob s 0 (cStream cmd) = true ∧
    slotsUsed s 0 < 16 ∧ (s.stream (cStream cmd)).inFlight < (s.stream (cStream cmd)).credits ∧ (s.stream (cStream cmd)).slotFree = true ∧
    iRd w ≠ 0 ∧ bit w 15 = true := by
  unfold CoreAt; decide +kernel

theorem wit_CoreWaits :
    (let s := at0 (iw 0x25 0 0 6) []; CoreAt s 0 0x25 ∧ bits (coreWord s 0) 25 3 = 0 ∧ bit (coreWord s 0) 2 = true ∧ issuedDone s 0 = true ∧
      bit (coreWord s 0) 1 = true ∧ sentDone s 0 = true) ∧
    (let s := { at0 (iw 0x25 0 0 2) [] with net := [.credits 0 2 0 1] }; CoreAt s 0 0x25 ∧ bits (coreWord s 0) 25 3 = 0 ∧
      bit (coreWord s 0) 1 = true ∧ sentDone s 0 = false) ∧
    (let s := at0 (iw 0x26 2 1 0) []; CoreAt s 0 0x26 ∧ bits (coreWord s 0) 15 0 = 0 ∧ wakeCause s 0 = none) ∧
    (let s := put { coreWith [] with wakes := [5] } (iw 0x26 2 1 0) up; CoreAt s 0 0x26 ∧ wakeCause s 0 = some 5) ∧
    (∀ n ∈ [0, 1, 2, 3, 4, 5, 0x10, 0x23], let s := at0 (iw 0x28 2 0 n) [];
      CoreAt s 0 0x28 ∧ bits (coreWord s 0) 20 16 = 0 ∧ bits (coreWord s 0) 15 0 = n) ∧
    (let s := withStream 1 (fun t => { t with inFlight := 16, credits := 16 }) (at0 (iw 0x27 1 2 0x8000) [(1, 1)]);
      CoreAt s 0 0x27 ∧ bits (coreWord s 0) 6 0 = 0 ∧ 0x80 ≤ bits (coreWord s 0) 15 8 ∧ ownJob s 0 1 = true ∧
      (s.stream 1).slotFree = false ∧ (s.stream 1).flr = false) ∧
    (let s := own1 (iw 0x27 1 2 0xFF00) [(1, 1)];
      CoreAt s 0 0x27 ∧ bits (coreWord s 0) 6 0 = 0 ∧ 0x80 ≤ bits (coreWord s 0) 15 8 ∧ ownJob s 0 1 = true ∧
      (s.stream 1).slotFree = true ∧ (s.stream 1).recs = [] ∧ SMap.get (fun _ => 0) s.recAt 0 ≠ s.time + 1) := by
  unfold CoreAt; and_intros <;> decide +kernel

/-- Core 0 stalled since tick 0 with the word `w`, `code` and registers `g`, at tick `t`. -/
def stalledAt (w code t : Nat) (g : List (Nat × Nat)) : State :=
  put { coreWith g with run := .stalled, stall := code, since := 0 } w { withStream 1 id up with time := t }

/-- What a timeout of a core's stall `code` against the limit register at `off` asks. -/
def stallLate (s : State) (code off : Nat) : Bool :=
  (s.core 0).run == .stalled && (s.core 0).stall == code && decide ((s.core 0).since + max 1024 (s.regN (streamPage 0 + off)) < s.time)

theorem wit_CoreTimeouts :
    (let s := stalledAt (iw 0x20 3 1 0) 1 (max 1024 (up.regN (streamPage 0 + 0x90)) + 1) [(1, 1)];
      isChase 0 = true ∧ traceLevel s 0 = 0 ∧ PlainTimeouts s 0 ∧ stallLate s 1 0x90 = true ∧
      twaitStatus s 0 ((s.core 0).regN (iRa (coreWord s 0)) % 65536) ((s.core 0).regN (iRb (coreWord s 0))) = none) ∧
    (let s := stalledAt (iw 0x22 3 1 0) 2 (max 1024 (up.regN (streamPage 0 + 0x94)) + 1) [(1, 1)];
      stallLate s 2 0x94 = true ∧ (s.core 0).credit (bits (coreWord s 0) 15 12) < (s.core 0).regN (iRa (coreWord s 0))) ∧
    (let s := stalledAt (iw 0x24 3 1 0) 3 (max 1024 (up.regN (streamPage 0 + 0x94)) + 1) [(1, 32)];
     let cmd := BitVec.ofNat 256 (s.num (dmemBase 0 + (s.core 0).regN (iRa (coreWord s 0))) 32);
      stallLate s 3 0x94 = true ∧ issueRoom s 0 cmd = false) ∧
    (let s := put { coreWith [] with run := .waiting, timer := 1, since := 4 } (iw 0x26 2 1 0) { up with time := 5 };
      traceLevel s 0 = 0 ∧ PlainTimeouts s 0 ∧ formeOn s 0 = true ∧ (s.core 0).run = .waiting ∧ (s.core 0).timer ≠ 0 ∧
      (s.core 0).since + (s.core 0).timer ≤ s.time ∧ 4 ∉ (s.core 0).wakes) ∧
    (let s := put { coreWith [] with wd := 65536 } 0 (up.setFld (unitPage 0) Fld.CHS_WDOG.wd_exp 1);
      PlainTimeouts s 0 ∧ s.fld (unitPage 0) Fld.CHS_WDOG.wd_exp ≠ 0 ∧ 2 ^ max 16 (s.fld (unitPage 0) Fld.CHS_WDOG.wd_exp) ≤ (s.core 0).wd ∧
      (s.core 0).run = .running) ∧
    (let cmd := BitVec.ofNat 256 (2 * 65536 + 2 ^ 32);
     let s := withStream 1 id (put { coreWith [] with outq := [cmd] } 0 up);
      (s.core 0).run ≠ .stalled ∧ clockStopped s 0 = false ∧ cannotPass s 0 cmd = none ∧ slotFree s (cPath cmd) = true) := by
  unfold PlainTimeouts; decide +kernel

theorem wit_CoreHostControl : let halted := up.setCore 0 CoreSt.reset
    (Granted halted 0 (unitPage 0) ∧ formeOn halted 0 = true ∧ (halted.core 0).run = .halted) ∧
    (let s := (at0 0 []).setRegN (unitPage 0 + 0x0C) 31; Granted s 31 (unitPage 0) ∧ (s.core 0).run ≠ .halted ∧ (s.core 0).run ≠ .loading) ∧
    (5 ∉ (halted.core 0).wakes ∧ (halted.core 0).run ≠ .loading) ∧
    (let s := put { coreWith [] with run := .waiting, wakes := [5] } (iw 0x26 2 1 0) up;
      Granted s 0 (unitPage 0) ∧ (s.core 0).run = .waiting ∧ 5 ∈ (s.core 0).wakes ∧ (∀ k ∈ [1, 2, 3, 4], k ∉ (s.core 0).wakes) ∧
      traceLevel s 0 = 0) := by
  unfold Granted Admitted; decide +kernel

theorem wit_CoreLoadEnds : ∀ dmem : Bool, let s := up.setCore 0 { CoreSt.reset with run := .loading, stall := 5, loads := [dmem] }
    (s.core 0).run = .loading ∧ (s.core 0).loads = [dmem] ∧ (s.core 0).todo = [] ∧ loadFails s (s.reg64 (unitPage 0 + 0x12C) + (if dmem then 16384 else 0)) = false := by
  decide +kernel
/-- A descriptor: base address, format, outer and reduction counts of 1, job 0 (the layout of R16 as the tests need it). -/
def desc (addr fmt red : Nat) : Nat :=
  addr + fmt * 2 ^ 50 + 2 ^ 63 + red * 2 ^ 128 + 2 ^ 160 + 2 ^ 192 + 0xFFFF * 2 ^ 224 + red * 2 ^ 384

/-- A command: opcode, unit, stream, sequence number, operands A, B, C as descriptor indices (0 for none), parameter 0. -/
def cmd (op u stream seq a b c p0 : Nat) : BitVec 256 :=
  let w := fun (i : Nat) => if i = 0 then 0 else i + 2 ^ 20;
  BitVec.ofNat 256 (op + u * 2 ^ 16 + stream * 2 ^ 32 + seq * 2 ^ 64 + w a * 2 ^ 96 + w b * 2 ^ 128 + w c * 2 ^ 160 + p0 * 2 ^ 192)

/-- The memory cells of the 64-byte number `n` at `a`. -/
def cells (a n : Nat) : List Host.Cell :=
  (List.range 64).filterMap (fun i => if n / 2 ^ (8 * i) % 256 = 0 then none else some (a + i, BitVec.ofNat 8 (n / 2 ^ (8 * i))))

/-- `up` with a fixed range of 64 Folios, descriptors of single Tiles (1 and 2 P8, 3 to 5 P16, 6 of format 3) and stream 1 ACTIVE. -/
def fixed : State :=
  let s := (up.setRegN (tierPage 0 + 0x80) 4).setRegN (tierPage 1 + 0x80) 4
  let s := (s.setRegN (dieTopPage 0 + 0x98) 16).setRegN (dieTopPage 1 + 0x98) 16
  let m := cells 64 (desc 0x10000 8 1) ++ cells 128 (desc 0x20000 8 1) ++ cells 192 (desc 0x30000 6 1) ++
    cells 256 (desc 0x10000 6 1) ++ cells 320 (desc 0x20000 6 1) ++ cells 384 (desc 0x30000 3 1)
  withStream 1 id { s with mem := m ++ up.mem }

/-- Unit `u` of `fixed` with queue `q`. -/
def queued (u : Nat) (q : List QEnt) : State := fixed.setUnit u { fixed.unit u with q := q }

/-- A command as its engine holds it after acceptance: operands read, one Tile each way. -/
def inStage (c : BitVec 256) (u : Nat) : QEnt :=
  { newEnt c none with phase := .held, ops := readOps fixed u c, rows := (0, 1), cols := (0, 1), reds := (0, 1) }

/-- A MUL of the single Tiles 1 and 2 into 6 at Chase 0. -/
def mulCmd : BitVec 256 := cmd 1 0 1 0 1 2 6 0

theorem wit_EngineCommandsAccepted :
    (let e := newEnt mulCmd none; let s := queued 0 [e];
      (1, Instr.mul 0) ∈ engineCmds 0 ∧ headOf s 0 = some e ∧ e.op = 1 ∧ issueHeld s 0 = false ∧ formeState s 0 ≠ 3 ∧
      formeTested s 0 = false ∧ isFenced s 0 = false ∧ 0 ≠ modulePath ∧ issueChecks s 0 0 e.cmd = .run ∧
      (let e2 := { e with ops := readOps s 0 e.cmd }; let r := wholeRanges 1 e2.ops;
       let e3 := ownWords s { e2 with rows := r.1, cols := r.2.1, reds := r.2.2 };
       ownCheck s e2 = none ∧ jobCheck s e3 = none ∧ (match allocOutputs (entryWrites e3) s with | .ok _ => true | _ => false) = true)) ∧
    (let e := newEnt (cmd 0 0 1 0 0 0 0 0) none; let s := queued 0 [e];
      headOf s 0 = some e ∧ e.op = 0 ∧ issueChecks s 0 0 e.cmd = .noop) ∧
    (let e := newEnt (cmd 0x41 0x2000 1 0 1 0 3 0) none; let s := queued 0x2000 [e];
      headOf s 0x2000 = some e ∧ e.op = 0x41 ∧ issueHeld s 0x2000 = false ∧ formeTested s 0x2000 = false ∧ isFenced s 0x2000 = false ∧
      (match issueChecks s 0x2000 0 e.cmd with | .reject _ => true | _ => false) = true) ∧
    (let e := newEnt (cmd 0x66 modulePath 1 0 4 0 0 0) none; let s := queued modulePath [e];
      headOf s modulePath = some e ∧ e.engine = .collective ∧ bridgeDown s = false) := by
  decide +kernel

theorem wit_ArrayEvents :
    (let s := fixed.setArr 0 { fixed.arr 0 with fence := true, next := (2, 1, 0) }; clockStopped s 0 = false ∧ (s.arr 0).fence = true) ∧
    (let e := inStage mulCmd 0; let s := queued 0 [e];
      engineHead s 0 .array = some e ∧ (headNeed s 0).isSome = true ∧ e.phase = .held ∧ (s.arr 0).fence = false ∧
      (∀ n ∈ headNeed s 0, cfgMatches (s.arr 0) n = false)) ∧
    (let e := { inStage mulCmd 0 with phase := .issued }; let s := queued 0 [e];
     let s := s.setArr 0 { s.arr 0 with shadowLoading := true };
      engineHead s 0 .array = some e ∧ clockStopped s 0 = false ∧ formeOn s 0 = true ∧ e.phase = .issued ∧ tablesReady s 0 e = true ∧
      hydHolding s 0 = false ∧ (s.arr 0).shadowLoading = true) ∧
    (let e := { inStage mulCmd 0 with phase := .issued }; let s := queued 0 [e];
      engineHead s 0 .array = some e ∧ (e.opd 0).isSome = true ∧ (e.opd 1).isSome = true ∧ (1, 0) ∈ entryReads e ∧ (2, 0) ∈ entryReads e) ∧
    (let e := { inStage mulCmd 0 with phase := .issued }; let s := queued 0 [e];
     let s := s.setArr 0 { s.arr 0 with shadowLoading := true }; let o := fun (n : Nat) => (e.opd n).getD ⟨0, 0, 0⟩;
     let l := firstLoad (arrCtx s 0 e (o 0) (o 1)) e (o 1);
     let bad := fun (n : Nat) => s.setEcc (physKey s ((o n).tileAddr 0)) 2;
     let met := fun (t : State) => touchReads e l (t.setArr 0 { t.arr 0 with
       shadowLoading := false, shadow := some (firstBlock t (arrCtx t 0 e (o 0) (o 1)) e (o 1)) });
      firstReadFail s e l = none ∧ tablesReady (met s) 0 e = true ∧ firstReadFail (bad 0) e l = none ∧ hydHolding (bad 0) 0 = false ∧
      firstReadFail (bad 1) e l ≠ none ∧ ((bad 1).arr 0).shadow = none ∧ needsNoLoad (bad 1) 0 e = false ∧ isPartial e = false ∧
      hydHolding (s.setHyd 0 { s.hyd 0 with queue := List.replicate 4 0 }) 0 = true) ∧
    (let e := { newEnt mulCmd none with phase := .done, parent := some 0x2000 };
     let p := { newEnt mulCmd none with phase := .split, left := 2 };
     let s := (queued 0 [e]).setUnit 0x2000 { fixed.unit 0x2000 with q := [p] };
      (s.q 0).find? (fun y => y.phase == .done && y.parent.isSome && y.stream == e.stream && y.seq == e.seq) = some e ∧
      e.parent = some 0x2000 ∧ e.status = 0 ∧ e.parts = [] ∧ parentOf (dropShare 0 e s) 0x2000 e = some p ∧ 2 ≤ p.left ∧
      (∀ y ∈ parentOf s 0x2000 e, convertWaits s 0x2000 y = false)) ∧
    (let e := { newEnt mulCmd none with phase := .done, parent := some 0x2000 };
     let p := { newEnt mulCmd none with phase := .split, left := 1 };
     let s := (queued 0 [e]).setUnit 0x2000 { fixed.unit 0x2000 with q := [p] };
      (s.q 0).find? (fun y => y.phase == .done && y.parent.isSome && y.stream == e.stream && y.seq == e.seq) = some e ∧
      parentOf (dropShare 0 e s) 0x2000 e = some p ∧ (∀ y ∈ parentOf s 0x2000 e, convertWaits s 0x2000 y = false)) ∧
    (let e := { newEnt mulCmd none with phase := .done }; let s := queued 0 [e];
      (s.q 0).find? (fun y => y.phase == .done && y.parent == none && inOrder s 0 y) = some e) := by
  decide +kernel

/-- A MUL in the array's stage of Chase 0. -/
def mulEnt : QEnt := inStage mulCmd 0

/-- Chase 0 configured for it, with `n` credits for output Tiles. -/
def mulReady (n : Nat) : State :=
  let s := queued 0 [mulEnt]
  let need := (headNeed s 0).getD (0, 0, 0)
  (s.setArr 0 { s.arr 0 with mode := need.2.2, width := need.1, run := need.2.1 }).setUnit 0 { s.unit 0 with tileCredits := n }

theorem wit_ArrayEvents_issue :
    (let s := mulReady 1; engineHead s 0 .array = some mulEnt ∧ arrayReady s 0 mulEnt = true ∧ needsNoLoad s 0 mulEnt = false ∧
      recompOn mulEnt = false ∧ creditNeed mulEnt = 1) ∧
    (let s := mulReady 1; let o := fun (n : Nat) => (mulEnt.opd n).getD ⟨0, 0, 0⟩; let b := firstBlock s (arrCtx s 0 mulEnt (o 0) (o 1)) mulEnt (o 1);
     let s := s.setArr 0 { s.arr 0 with active := some { b with content := [] } };
      engineHead s 0 .array = some mulEnt ∧ arrayReady s 0 mulEnt = true ∧ needsNoLoad s 0 mulEnt = true) := by
  decide +kernel

theorem wit_EngineTimeouts :
    (let e := { inStage mulCmd 0 with needs := [(2, 7)], since := 0 };
     let s := { queued 0 [e] with time := max 1024 (up.regN (streamPage 0 + 0x90)) + 1 };
      PlainTimeouts s (homeDie 0 e.cmd) ∧ e.since + max 1024 (s.regN (streamPage 0 + 0x90)) < s.time ∧ e.needs.head? = some (2, 7) ∧
      (s.q 0).find? (fun y => y.phase == .held && !y.needs.isEmpty && decide (y.since + max 1024 (s.regN (streamPage (homeDie 0 y.cmd) + 0x90)) < s.time)) = some e) ∧
    (let e := { inStage (cmd 0x64 modulePath 1 0 0 0 3 0) modulePath with phase := .taking };
     let s := (queued modulePath [e]).setNum (49680) 4 2;
      PlainTimeouts s (homeDie modulePath e.cmd) ∧
      (s.q modulePath).find? (fun y => y.phase == .taking && mayTake s y 0) = some e) ∧
    (let e := { inStage (cmd 0x64 modulePath 1 0 0 0 3 0) modulePath with phase := .taking };
     let s := { queued modulePath [e] with time := max 1024 (up.regN (streamPage 0 + 0x90)) + 1 };
      (s.q modulePath).find? (fun y => y.phase == .taking && decide (y.since + max 1024 (s.regN (streamPage (homeDie modulePath y.cmd) + 0x90)) < s.time)) = some e ∧
      (e.opd 2).isSome = true) ∧
    (let e := inStage (cmd 0x66 modulePath 1 0 4 0 0 0) modulePath; let s := queued modulePath [e];
      (s.q modulePath).find? (fun y => y.op == 0x66 && canStart s modulePath y) = some e ∧ e.engine = .collective ∧
      (sleepers s e).any (formeGated s) = false) ∧
    (let e := { inStage (cmd 0x66 modulePath 1 0 4 0 0 0) modulePath with aux := [5, 0] };
     let s := { queued modulePath [e] with time := max 1024 (up.regN (streamPage 0 + 0x90)) + 1, ctxs := [(0, ⟨0, 1, 2, 1, 1, 0, true⟩)] };
     let s := s.setNum (2 * 65536 + 49680) 4 1;
      (s.q modulePath).find? (fun y => y.op == 0x66 && y.phase == .held && fenceHolds s y &&
        decide (y.since + max 1024 (s.regN (streamPage (homeDie modulePath y.cmd) + 0x90)) < s.time)) = some e ∧ fenceCtx s (jobOf s e.cmd) (aWord e 0) = some 0) := by
  unfold PlainTimeouts; decide +kernel

theorem wit_EngineTimeouts_credit :
    let e := { mulEnt with credAt := some 0 }
    let s := { queued 0 [e] with time := max 1024 (up.regN (streamPage 0 + 0x94)) + 1 };
    PlainTimeouts s (homeDie 0 e.cmd) ∧ engineHead s 0 .array = some e ∧ e.phase = .held ∧ creditsIn s 0 e = false ∧
      0 + max 1024 (s.regN (streamPage (homeDie 0 e.cmd) + 0x94)) < s.time := by
  unfold PlainTimeouts; decide +kernel

theorem wit_ArrivalsAtAChase :
    (UnitsIdle (up.setCore 0 CoreSt.reset) ∧ isChase 0 = true ∧ formeOn up 0 = true ∧ (up.core 0).run ≠ .stalled) ∧
    (let k : Tok := ⟨0, 0xFFFF, 0xFFFFFFFF, true, none, 0⟩; let s := { up with net := [.token k] };
      UnitsIdle s ∧ (s.unit 0).port = none ∧ tokenFits 0 (s.unit 0).toks k = true ∧ nextSent s 0 (Sent.isToken 0xFFFF 0xFFFFFFFF true) = some (.token k)) ∧
    (let s := { up with net := [.credits 0 0 15 65535] }; UnitsIdle s ∧ nextSent s 0 (Sent.isCredits 15 65535) = some (.credits 0 0 15 65535)) := by
  unfold UnitsIdle; decide +kernel

theorem wit_BridgeEvents : UnitsIdle up ∧ up.flag (dieTopPage 0) Fld.DIE_BRG_STATUS.link_up = true ∧ replayRun up < 16 ∧
    (let s := { up with brgRun := [(1, 16)] }; UnitsIdle s ∧ s.flag (dieTopPage 0) Fld.DIE_BRG_STATUS.link_up = true ∧ 16 ≤ replayRun s) ∧
    State.reset.flag (dieTopPage 0) Fld.DIE_BRG_STATUS.link_up = false := by
  unfold UnitsIdle; decide +kernel

theorem wit_StreamAllocation :
    Admitted up 31 ∧ (let s := up.setRegN (streamPage 0 + 0x88) 65536; Admitted s 0 ∧ 65536 ≤ s.regN (streamPage 0 + 0x88)) ∧
    ((up.job 0).valid = false ∧ up.regN (streamPage 0 + 0x88) < 65536) ∧
    (let s := up.setJob 4095 ⟨31, true, 0⟩; (s.job 4095).valid = true ∧ (s.job 4095).fn = 31 ∧ (s.job 4095).limit ≤ jobStreams s 4095) ∧
    (let s := up.setJob 4095 ⟨31, true, 1⟩; Admitted s 31 ∧ (s.job 4095).valid = true ∧ (s.job 4095).fn = 31 ∧
      jobStreams s 4095 < (s.job 4095).limit ∧ lowestFree s 1 = some 0x8000) := by
  unfold Admitted; decide +kernel

/-- `up` with stream `id` in state `n`. -/
def inState (id n : Nat) : State := withStream id (fun t => { t with state := n }) fixed

theorem wit_StreamCommands :
    Admitted (inState 0xFFFF 1) 0 ∧ ((inState 0xFFFF 1).stream 0xFFFF).owner = 0 ∧ ((inState 0xFFFF 1).stream 0xFFFF).state = 1 ∧
    ownerWord 0 = true ∧ activateErr (inState 0 1) 0 = 0 ∧
    (let s := withStream 0 (fun t => { t with state := 1, sqExp := 3 }) fixed; (s.stream 0).state = 1 ∧ activateErr s 0 ≠ 0) ∧
    ((inState 0 3).stream 0).state = 3 ∧ ((inState 0 0).stream 0).state ≠ 1 ∧
    (∀ n ∈ [1, 2, 3, 5], let t := (inState 1 n).stream 1; t.state = n ∧ t.inFlight = 0 ∧ t.recs = [] ∧ t.fetched = none ∧ t.sqHead = t.sqTail) ∧
    (∀ n ∈ [2, 3], ((inState 0 n).stream 0).state = n ∧ n ≠ 1 ∧ (9 ≠ 10 ∨ n = 0) ∧ ownerWord 9 = true ∧ ownerWord 10 = true) ∧
    (((inState 0 6).stream 0).state ≠ 1 ∧ ((inState 0 6).stream 0).state ≠ 2 ∧ ((inState 0 6).stream 0).state ≠ 3) ∧
    (ownerWord 4 = false ∧ ownerWord 15 = false ∧ (∀ n ∈ [0, 4, 6], ((inState 0 n).stream 0).state ∉ [1, 2, 3, 5])) ∧
    (Admitted (inState 0 2) 31 ∧ ((inState 0 2).stream 0).owner ≠ 31) := by
  unfold Admitted; decide +kernel

theorem wit_Doorbells :
    (∀ n ∈ [1, 2, 3, 6], let s := withStream 0 (fun t => { t with state := n, home := 0x8000, sqHead := 0x1FFFFF, cqTail := 15 }) fixed; let t := s.stream 0
      Admitted s 0 ∧ t.owner = 0 ∧ t.state = n ∧ isChase t.home = false ∧ formeGated s t.home = false ∧ idxDiff 15 t.sqHead ≤ 2 ^ t.sqExp ∧
      idxDiff t.cqTail 0 ≤ 2 ^ t.cqExp ∧ s.cask.held = [] ∧ 2 ^ t.sqExp < idxDiff 16 t.sqHead ∧ 2 ^ t.cqExp < idxDiff t.cqTail 16) ∧
    (∀ n ∈ [0, 4, 5], let s := inState 0 n; Admitted s 0 ∧ (s.stream 0).owner = 0 ∧ (s.stream 0).state = n ∧ s.cask.held = []) := by
  unfold Admitted; decide +kernel

theorem wit_FetchAndRecords :
    (let s := withStream 1 (fun t => { t with sqTail := 1, home := 0x8000, since := 1 }) fixed; let t := s.stream 1;
      formeOn s t.home = true ∧ fetchChoice s t.home = some 1 ∧ s.badIn (t.sqBase + 32 * (t.sqHead % 2 ^ t.sqExp)) 32 = false) ∧
    (let c := cmd 0 0x8000 1 0 0 0 0 0; let s := withStream 1 (fun t => { t with fetched := some c, home := 0x8000 }) fixed;
      (s.stream 1).fetched = some c ∧ cannotPass s (s.stream 1).home c = none ∧ slotFree s (cPath c) = true) ∧
    (let r : Rec := ⟨0, 0, 1, 0, 1, 0, 0, 0, 0, true, false, none, 0, false⟩
     let s := withStream 1 (fun t => { t with recs := [r], inFlight := 1, cqTail := 0x1FFFFF }) fixed;
      nextRec s 1 = some r ∧ r.slot = true ∧ r.irq = false ∧ r.opcode ≠ 0xFF ∧ (s.stream 1).state = 2 ∧ ∀ q ∈ (s.stream 1).recs, q.slot = true ∧ q.held = false) := by
  decide +kernel
theorem wit_TableLoads : Admitted up 0 ∧ (∀ b ∈ [streamPage 0, routePage, tunPage, mapPage, tierPage 0, govPage, tasterPage, powerPage 0],
    ownsPage up 0 b = true) ∧ Admitted (ownedBy1 govPage up) 1 ∧ ownsPage (ownedBy1 govPage up) 1 govPage = true ∧
    up.flag govPage Fld.PTG_STATUS.busy = false := by
  unfold Admitted; decide +kernel

theorem wit_TableCommits_share : let s := { up with power := { up.power with present := [(0, 6)] } }
    Admitted s 0 ∧ s.fld (powerPage 0) Fld.PWR_SHARE_IDX.job = 0 ∧ (0 < 5 ∧ 5 < SMap.get (fun _ => 0) s.power.present 0) ∧
    (∀ n ∈ [0, 6], (s.setFld (powerPage 0) Fld.PWR_SHARE_DATA.share n).fld (powerPage 0) Fld.PWR_SHARE_DATA.share = n) := by
  unfold Admitted; decide +kernel

theorem wit_TableCommits : Admitted up 0 ∧ (∀ b ∈ [routePage, tunPage, mapPage, govPage, tasterPage], ownsPage up 0 b = true) ∧
    (∀ x ∈ outstandingCmds up, namesSet x.2.cmd ≠ some (up.fld tunPage Fld.TUN_PSET_IDX.set)) ∧
    (let s := (fixed.setRegN (tunPage + 0x108) 64).setRegN (tunPage + 0x10C) (64 * 4096);
      Admitted s 0 ∧ ownsPage s 0 tunPage = true ∧ armCheck s (s.fld tunPage Fld.TUN_CTX_IDX.ctx) (ctxData s) = 0) ∧
    ctxBusy up (up.fld tunPage Fld.TUN_CTX_IDX.ctx) = false ∧
    mapRefused fixed (fixed.fld mapPage Fld.MAP_ENT_IDX.entry) (mapData fixed) = 0 ∧
    (let s := (fixed.setFlag mapPage Fld.MAP_ENT_DATA0.valid true).setMapEnt 63 { mapEnt fixed 63 with valid := true };
      Admitted s 0 ∧ ownsPage s 0 mapPage = true ∧ mapRefused s (s.fld mapPage Fld.MAP_ENT_IDX.entry) (mapData s) ≠ 0) ∧
    (up.flag govPage Fld.PTG_STATUS.busy = false ∧ up.flag govPage Fld.PTG_ENT_IDX.sel = false) ∧
    (let s := up.setFlag govPage Fld.PTG_ENT_IDX.sel true; s.flag govPage Fld.PTG_STATUS.busy = false ∧ s.flag govPage Fld.PTG_ENT_IDX.sel = true ∧
      policyBad (readWords s (govPage + 0xA4)) = false) ∧
    (up.setFlag govPage Fld.PTG_STATUS.busy true).flag govPage Fld.PTG_STATUS.busy = true := by
  unfold Admitted; decide +kernel

/-- `up` in boundary phase `n`. -/
def inPhase (n : Nat) : State := up.setFld govPage Fld.PTG_STATUS.phase n

theorem wit_StepBoundary :
    (Granted up 0 govPage ∧ up.flag govPage Fld.PTG_STATUS.busy = false ∧ bit (3#32).toNat 1 = true ∧ bit (3#32).toNat 0 = true ∧
      bit (2#32).toNat 0 = false ∧ bit (1#32).toNat 1 = false) ∧
    ((inPhase 2).fld govPage Fld.PTG_STATUS.phase = 2 ∧ outstandingCmds (inPhase 2) = []) ∧
    (let s := (inPhase 2).setUnit 0 { up.unit 0 with q := [{ newEnt (cmd 0 0 1 0 0 0 0 0) none with phase := .held }] };
      s.fld govPage Fld.PTG_STATUS.phase = 2 ∧ outstandingCmds s ≠ []) ∧
    (let s := (inPhase 3).setFlag govPage Fld.PTG_CTRL.gang_en true; s.fld govPage Fld.PTG_STATUS.phase = 3 ∧
      s.flag govPage Fld.PTG_CTRL.gang_en = true ∧ tasterOn s = false ∧ s.hyds = [] ∧ unreadStats s 0 = 0 ∧ unreadStats s 1 = 0) ∧
    (let s := inPhase 3; s.flag govPage Fld.PTG_CTRL.gang_en = false ∧ tasterOn s = false ∧ s.hyds = [] ∧ unreadStats s 0 = 0 ∧ unreadStats s 1 = 0) ∧
    ((inPhase 5).fld govPage Fld.PTG_STATUS.phase = 5 ∧ allPeers (inPhase 5) = true) ∧
    (let s := (inPhase 5).setRegN (govPage + 0xD0) (2 ^ 31 + 7); let s := { s with time := s.fld govPage Fld.PTG_GANG_TO.ticks };
      s.fld govPage Fld.PTG_STATUS.phase = 5 ∧ allPeers s = false ∧ s.gov.gangAt + s.fld govPage Fld.PTG_GANG_TO.ticks ≤ s.time) ∧
    (let s := inPhase 9; s.fld govPage Fld.PTG_STATUS.phase = 9 ∧ caskDue s (s.regN (govPage + 0x88)) = false ∧
      s.flag tasterPage Fld.TST_STATUS.aborted = false ∧ s.gov.changed = []) ∧
    (let s := ((up.setFlag govPage Fld.PTG_CTRL.enable true).setRegN (hydroPage 1 + 0x88) (11 + 32)).setRegN (hydroPage 1 + 0x8C) 1;
      s.flag govPage Fld.PTG_CTRL.enable = true ∧ unreadStats s 1 ≠ 0 ∧ s.hyds = []) := by
  unfold Granted Admitted; decide +kernel

theorem wit_GovernorRegisters :
    (Granted up 0 govPage ∧ up.flag govPage Fld.PTG_STATUS.busy = false ∧ sx 8 (25#32).toNat = 25 ∧ sx 8 (231#32).toNat = -25 ∧
      sx 8 (24#32).toNat = 24 ∧ sx 8 (232#32).toNat = -24) ∧
    (up.setFlag govPage Fld.PTG_STATUS.busy true).flag govPage Fld.PTG_STATUS.busy = true ∧
    (Granted up 0 (hydroPage 1) ∧ up.flag (hydroPage 1) Fld.HYD_RING_CFG.enable = false ∧ bit (43#32).toNat 5 = true ∧
      11 ≤ bits (43#32).toNat 4 0 ∧ bits (56#32).toNat 4 0 ≤ 24 ∧ bit (56#32).toNat 5 = true) := by
  unfold Granted Admitted; decide +kernel

/-- `fixed` with its region table at 0x10000 and its Folio map at 0x20000 (leaf at 0x100000), region record 1 describing one
Folio of P8 Tiles that may stand in tiers 2 to 4 and start in tier 3, and both bulk tiers zeroed. -/
def regional : State :=
  let s := (fixed.setRegN (tierPage 0 + 0x84) 0x20000).setRegN (tierPage 0 + 0x8C) 0x10000
  let s := s.setRegN (tierPage 0 + 0x94) 4
  let s := (s.setFlag (resetPage 0) Fld.RST_STATUS.bulk_ready true).setFlag (resetPage 1) Fld.RST_STATUS.bulk_ready true
  let s := s.setNum 0x20000 8 (0x100000 + 1)
  let s := s.setNum (0x10000 + 64) 8 65
  let s := s.setNum (0x10000 + 72) 8 (1 + 8 * 2 ^ 32 + 32 * 2 ^ 36 + 2 ^ 56)
  let s := s.setNum (0x10000 + 80) 8 (3 + 2 * 8 + 4 * 64 + 0xFFFF * 512)
  s.setNum (0x10000 + 88) 8 0x30000

theorem wit_RegionsAndMoves_map :
    (Granted regional 0 (tierPage 0) ∧ mapCheck regional 1 = 0 ∧ (recRegion regional 1).folios ≠ 0 ∧ mapCheck regional 3 ≠ 0 ∧
      regionLimit regional ≤ 4) := by
  unfold Granted Admitted; decide +kernel

/-- The region that `regional` describes. -/
def oneFolio : Region := recRegion regional 1

/-- `regional` with the region mapped: its leaf entry, its Tiles without data but Tile 0, which stands in tier 3 of die 0. -/
def mappedOne : State :=
  let m := regional.mem ++ [(0x30000, 0x03#8), (0x30005, 0x10#8)] ++ (List.range 15).map (fun j => (0x30010 + 16 * j, 7#8)) ++
    [(0x100000 + 8 * 65, 3#8)]
  { regional with mem := m, tiers := { regional.tiers with regions := [(1, oneFolio)], extents := [⟨16, 0, 4224⟩], use := [(0, ⟨0, 4224, 0⟩)] } }

/-- Acceptance at `u` of a command that the table checks let run, up to its own checks. -/
def accepts (s : State) (u : Nat) (c : BitVec 256) : QEnt × State :=
  let e := newEnt c none
  let s := s.setQ u [e]
  let r := wholeRanges e.op (readOps s u c)
  (ownWords s { e with ops := readOps s u c, rows := r.1, cols := r.2.1, reds := r.2.2 }, s)

/-- What `EngineCommandsAccepted` asks of a command at the front of unit `u`. -/
def atFront (x : QEnt × State) (u : Nat) : Bool :=
  (headOf x.2 u).map (·.cmd) == some x.1.cmd && !(issueHeld x.2 u) && formeState x.2 u != 3 && !(formeTested x.2 u) &&
  !(isFenced x.2 u) && !(bridgeDown x.2) && issueChecks x.2 u 0 x.1.cmd == .run

theorem wit_EngineCommandsAccepted_refused :
    (let x := accepts fixed modulePath (cmd 0x64 modulePath 1 0 0 0 4 0); atFront x modulePath = true ∧ (ownCheck x.2 x.1).isSome = true) ∧
    (let x := accepts (fixed.setNum 128 64 (desc 0x20000 9 1)) 0 (cmd 3 0 1 0 1 2 6 0);
      atFront x 0 = true ∧ ownCheck x.2 x.1 = none ∧ jobCheck x.2 x.1 = none ∧ noTable x.2 0 x.1 = true) := by
  decide +kernel

theorem wit_EngineCommandsAccepted_empty :
    let x := accepts (fixed.setMapEnt 0 { mapEnt fixed 0 with valid := true, gangEn := true, self := 1, gsize := 2 }) modulePath
      (cmd 1 modulePath 1 0 1 2 6 0)
    atFront x modulePath = true ∧ ownCheck x.2 x.1 = none ∧ (narrow x.2 modulePath x.1).rows.2 = 0 := by
  decide +kernel

/-- `mappedOne` changed by `f`, with output descriptor 6 in its region. -/
def outMapped (f : Tiers → Tiers) : State :=
  let s := mappedOne.setNum 384 64 (desc (65 * 65536 + 4096) 0 1)
  { s with tiers := f s.tiers }

theorem wit_EngineCommandsAccepted_job :
    let x := accepts (outMapped (fun t => { t with regions := [(1, { oneFolio with job := 1 })] })) 0 mulCmd
    atFront x 0 = true ∧ ownCheck x.2 x.1 = none ∧ (jobCheck x.2 x.1).isSome = true := by
  decide +kernel

theorem wit_EngineCommandsAccepted_lost :
    let s := outMapped id
    let x := accepts (setTileState ⟨1, oneFolio, 1⟩ 35 s) 0 mulCmd
    atFront x 0 = true ∧ jobCheck x.2 x.1 = none ∧
      (match allocOutputs (entryWrites x.1) x.2 with | .error _ => true | _ => false) = true := by
  decide +kernel

theorem wit_EngineTimeouts_asleep :
    let s := ((setTileState ⟨1, oneFolio, 1⟩ 1 mappedOne).setNum 256 64 (desc (65 * 65536 + 4096) 0 1)).setRegN (frmOff 0 0) 16
    let c := cmd 0x66 modulePath 1 0 4 0 0 0
    let e : QEnt := { newEnt c none with phase := .held, ops := readOps s modulePath c, rows := (0, 1), cols := (0, 1), reds := (0, 1) }
    let s := s.setQ modulePath [e]
    (s.q modulePath).find? (fun y => y.op == 0x66 && canStart s modulePath y) = some e ∧ e.engine = .collective ∧
    (sleepers s e).any (formeGated s) = true := by
  decide +kernel

/-- The same with a move of Tile 0 to tier 2 under way. -/
def moving : State := { mappedOne with tiers := { mappedOne.tiers with moves := [⟨1, 0, 2, 4194304, true, 0, 0, [], none⟩] } }

theorem wit_RegionsAndMoves_tiles :
    (let s := mappedOne; s.region 1 = some oneFolio ∧ 1 < regionLimit s ∧ s.cask.pend = [] ∧
      ∀ j, j < oneFolio.tiles → tsTransit (tileState s ⟨1, oneFolio, j⟩) = false ∧ tsPins (tileState s ⟨1, oneFolio, j⟩) = 0 ∧
        tsClaims (tileState s ⟨1, oneFolio, j⟩) = 0) ∧
    tileRef mappedOne 2 0 = none ∧ tileRef mappedOne 1 15 ≠ none ∧ tileRef mappedOne 1 16 = none ∧
    (let k : TileRef := ⟨1, oneFolio, 0⟩; tileRef mappedOne 1 0 = some k ∧ k.reg.ceiling ≤ 2 ∧ 2 ≤ k.reg.floor ∧
      2 < tsTier (tileState mappedOne k)) ∧
    (moving.edge = [] ∧ moveEdge moving 1 0 = none ∧ (moving.tiers.moves.find? (fun x => x.region == 1 && x.tile == 0)).isSome = true) := by
  decide +kernel

/-- A memory with nothing in it has a place for `len` bytes, wherever its search starts. -/
theorem findPlace_empty {s : State} {pl len : Nat} (h : usedIn s pl = [])
    (fits : 128 * ceilDiv (placeRange s pl).1 128 + len ≤ (placeRange s pl).2) : ∃ o, findPlace s pl len = some o := by
  unfold findPlace
  simp only [h, fitFrom, clashes, List.find?_nil, Option.map_none]
  split
  · exact ⟨_, rfl⟩
  · rw [if_neg (by omega)]; exact ⟨_, rfl⟩

theorem wit_RegionsAndMoves_start : ∃ s', startMove ⟨1, oneFolio, 0⟩ 2 true none mappedOne = some s' := by
  obtain ⟨o, ho⟩ : ∃ o, findPlace mappedOne 0 (heldLen mappedOne ⟨1, oneFolio, 0⟩ 2) = some o :=
    findPlace_empty (by decide +kernel) (by decide +kernel)
  have hp : tierPlaces mappedOne ⟨1, oneFolio, 0⟩ 2 = [0, 1, 2, 3, 4, 5, 6, 7, 8, 9, 10, 11, 12, 13, 14, 15] := by decide +kernel
  have hc : (tsTransit (tileState mappedOne ⟨1, oneFolio, 0⟩) || tsLost (tileState mappedOne ⟨1, oneFolio, 0⟩) ||
      decide (4 < tsTier (tileState mappedOne ⟨1, oneFolio, 0⟩)) || !(moveRoom mappedOne ⟨1, oneFolio, 0⟩) ||
      (true && (overQuota mappedOne 0 2 (heldLen mappedOne ⟨1, oneFolio, 0⟩ 2) ||
        hbmKept mappedOne 0 2 (heldLen mappedOne ⟨1, oneFolio, 0⟩ 2)))) = false := by
    decide +kernel
  have hj : oneFolio.job = 0 := by decide +kernel
  unfold startMove
  dsimp only
  rw [hj, hc, hp, firstPlace, ho]
  exact ⟨_, rfl⟩

theorem wit_RegionsAndMoves_clocks :
    (wmUse up (wmPlaces 0 1) * 64 ≤ (wmLevels up 0 (wmDie 0 1)).1 * wmSize up (wmPlaces 0 1)) ∧
    (let s := ({ up with tiers := { up.tiers with extents := [⟨100, 0, 4224⟩] } } : State).setRegN (tierPage 0 + 0xA0) 0;
      (wmLevels s 2 (wmDie 2 0)).1 * wmSize s (wmPlaces 2 0) < wmUse s (wmPlaces 2 0) * 64) ∧
    (let s := up.setFld (tierPage 1) Fld.DIE_BULK_SCRUB.scrub_exp 1; scrubExp s 17 ≠ 0 ∧ atPlace s 17 0 = none) ∧
    (let s := fixed.setFld (hbmPage 0) Fld.HBM_SCRUB.scrub_exp 1; scrubExp s 0 ≠ 0 ∧ (atPlace s 0 0).isSome = true ∧
      ∀ x ∈ atPlace s 0 0, ∀ i, i < 8 → s.eccAt (x.1 + 8 * i) = 0) := by
  decide +kernel

/-- `up` with lease `l` in state `st` until `exp` (in 2^24 ticks), from module 7. -/
def leased (l st exp : Nat) : State := up.setLease l ⟨7, st, false, 1, exp, 0⟩

theorem wit_QuotasAndLeases :
    (Granted up 0 (tierPage 0) ∧ (up.use 0).hbm ≤ up.regN (tierPage 0 + 0xA8) * 65536 ∧ (up.use 0).bulk ≤ up.regN (tierPage 0 + 0xAC) * 65536 ∧
      (up.use 0).remote ≤ up.regN (tierPage 0 + 0xB0) * 65536) ∧
    (∀ st, st < 4 → let s := leased 0 st 100; Granted s 0 (tierPage 0) ∧ (leaseOf s (s.fld (tierPage 0) Fld.DIE_LEASE_IDX.lease)).state = st ∧
      leaseUsed s 0 = 0) ∧
    up.flag (tierPage 0) Fld.DIE_LEND_CFG.lend_en = false ∧ bit (1#32).toNat 0 = true ∧ Granted up 0 (tierPage 1) ∧
    (let s := leased 63 2 65; s.time + 2 ^ 30 < (leaseOf s 63).expiry * 2 ^ 24) ∧
    (let s := leased 63 2 64; 2 ≤ (leaseOf s 63).state ∧ (leaseOf s 63).expiry * 2 ^ 24 ≤ s.time + 2 ^ 30) ∧
    (let s := leased 63 3 0; 2 ≤ (leaseOf s 63).state ∧ (leaseOf s 63).expiry * 2 ^ 24 ≤ s.time ∧ leaseTiles s 63 = [] ∧
      UnitsIdle s ∧ s.tiers.reqs = []) := by
  unfold Granted Admitted UnitsIdle; decide +kernel

/-- `fixed` as module 5 with ports 0 and 15 UP. -/
def linked : State := ((fixed.setFld routePage Fld.IZN_SELF.id 5).setFld (portPage 0) Fld.IZN_PORT_STATUS.state 2).setFld (portPage 15)
  Fld.IZN_PORT_STATUS.state 2

/-- A packet of type `ty` from module 7 to module 5: subtype, stream, address, and its data of `n` · 16 bytes. -/
def pk (ty sub stream addr n : Nat) (data : List Byte) : Packet :=
  ⟨ty, 0, 5, 7, 0, 0, 0, stream, 0, 0, addr, n, sub, 0, fit (16 * n) data⟩

/-- `s` with packet `k` waiting at port `p`. -/
def inbox (p : Nat) (k : Packet) (s : State) : State := s.setPort p { s.port p with inbox := [k] }

/-- A well-formed packet that waits at a port has arrived. -/
theorem wellArrived_inbox {p : Nat} {k : Packet} {s : State} (hp : p < 16) (h : malformed k = false ∧
    k.data.length = 16 * data16 k.type k.len16 ∧ k.dest = selfId (inbox p k s)) : WellArrived (inbox p k s) p k k.type := by
  refine ⟨rfl, ?_, h⟩
  unfold arrived waiting inbox
  simp [hp]

theorem wit_PacketsServed :
    (∀ p ∈ [0, 15], let k := pk ptWrite 0 1 0x1000 1 []; let s := inbox p k linked; WellArrived s p k ptWrite ∧ k.sub % 4 = 0) ∧
    (linked.tiers.regions = [] ∧ linked.stopped = false ∧ linked.cask.pend = [] ∧ unmappedIn linked 0x1000 16 = none ∧
      partialBad linked 0x1000 16 = false ∧ linked.badIn 0x1000 16 = false) ∧
    (let k := { pk ptReadReq 0 1 0x1000 1 [] with data := [] }; WellArrived (inbox 0 k linked) 0 k ptReadReq ∧ bit k.sub 0 = false) ∧
    (let o : Outst := ⟨leaseUnit, 1, 0, 7, ptBgReadReq, 0x1000, 0⟩; let k := pk ptReadResp 0 1 0x1000 1 [];
     let s := inbox 0 k { linked with outst := [o] };
      WellArrived s 0 k ptReadResp ∧ answered s k [ptReadReq, ptBgReadReq] = some o ∧ o.unit = leaseUnit) ∧
    (let o : Outst := ⟨restoreUnit, 1, 0, 7, ptBgReadReq, 0x1000, 0⟩; let k := pk ptReadResp 0 1 0x1000 1 [];
      answered (inbox 0 k { linked with outst := [o] }) k [ptReadReq, ptBgReadReq] = some o ∧ o.unit = restoreUnit) ∧
    (let k := pk ptReadResp 0 1 0x1000 1 []; WellArrived (inbox 0 k linked) 0 k ptReadResp ∧
      answered (inbox 0 k linked) k [ptReadReq, ptBgReadReq] = none) ∧
    (let o : Outst := ⟨0x8000, 1, 0, 7, ptWrite, 0x1000, 0⟩; let k := pk ptAck 0 1 0x1000 0 []; let s := inbox 0 k { linked with outst := [o] };
      WellArrived s 0 k ptAck ∧ answered s k [ptWrite, ptAccum, ptBgWrite] = some o) ∧
    (∀ a ∈ [0x201, 0x000, 0x016], let k := pk ptError 0 1 a 0 []; WellArrived (inbox 0 k linked) 0 k ptError ∧
      (bits k.addr 7 0 = 0 ∨ 0x15 < bits k.addr 7 0 ∨ bits k.addr 11 8 ∉ [ptWrite, ptReadReq, ptAccum, ptBgWrite, ptBgReadReq]) ∧ bits k.addr 11 8 ≠ ptLease) ∧
    (∀ a ∈ [0x001, 0x015], let k := pk ptError 0 1 a 0 []; let o : Outst := ⟨0x8000, 1, 0, 7, ptWrite, 0x1000, 0⟩;
     let s := inbox 0 k { linked with outst := [o] };
      WellArrived s 0 k ptError ∧ 1 ≤ bits k.addr 7 0 ∧ bits k.addr 7 0 ≤ 0x15 ∧ bits k.addr 11 8 = ptWrite ∧
      s.outst.find? (fun o => o.stream == k.stream && o.seq == k.seq && o.type == ptWrite) = some o) ∧
    (let k := { pk ptToken 0 1 0 0 [] with target := 0x8000 }; WellArrived (inbox 0 k linked) 0 k ptToken ∧
      (linked.stream 1).job = k.job ∧ validPath k.target = true) ∧
    (let k := { pk ptCredit 0 1 0xFFFF5 0 [] with target := 2 }; WellArrived (inbox 0 k linked) 0 k ptCredit ∧ validPath k.target = true) ∧
    (let k := pk ptGov 0 1 0 1 [1]; WellArrived (inbox 0 k linked) 0 k ptGov ∧ leNat (k.data.take 4) ≠ ptgStep linked) ∧
    (let k := pk ptGov 0 1 0 1 []; WellArrived (inbox 0 k linked) 0 k ptGov ∧ leNat (k.data.take 4) = ptgStep linked) ∧
    (let k := { pk ptBgWrite 0 1 0xFFF0 1 [] with lease := 1 };
     let s := inbox 0 k { linked with tiers := { linked.tiers with grants := [⟨7, 1, 1, 100, 0⟩] } };
      WellArrived s 0 k ptBgWrite ∧ k.lease = 1 ∧ (grantOf s k).isSome = true) ∧
    (let k := { pk ptBgReadReq 0 1 0xFFF0 1 [] with lease := 1, data := [] };
     let s := inbox 0 k { linked with tiers := { linked.tiers with grants := [⟨7, 1, 1, 100, 0⟩] } };
      WellArrived s 0 k ptBgReadReq ∧ k.lease = 1 ∧ grantOf s k = some ⟨7, 1, 1, 100, 0⟩ ∧
      markedWords s ((⟨7, 1, 1, 100, 0⟩ : Grant).key + k.addr) 16 2 = [] ∧
      markedWords (s.setEcc ((⟨7, 1, 1, 100, 0⟩ : Grant).key + k.addr) 2) ((⟨7, 1, 1, 100, 0⟩ : Grant).key + k.addr) 16 2 ≠ []) := by
  unfold WellArrived; and_intros <;> decide +kernel

/-- A Tile that a gather asked for: its answer, and the state in which it waits. -/
def gathered : Packet := pk ptReadResp 0 1 0x1000 (strideOf 8 / 16) []

def gathering : State :=
  let a := fun (i : Nat) => (⟨i, BitVec.ofNat 512 (desc (0x1000 * i) 8 1), 0⟩ : Opd)
  let e := { newEnt (cmd 0x61 0x8000 1 0 1 0 2 0) none with phase := .sending, ops := [some (a 1), none, some (a 2)] }
  inbox 0 gathered { linked.setUnit 0x8000 { linked.unit 0x8000 with q := [e] } with outst := [⟨0x8000, 1, 0, 7, ptReadReq, 0x1000, 0⟩] }

theorem wit_PacketsServed_gather : WellArrived gathering 0 gathered ptReadResp ∧ let s := gathering; let k := gathered
    let o : Outst := ⟨0x8000, 1, 0, 7, ptReadReq, 0x1000, 0⟩
    answered s k [ptReadReq, ptBgReadReq] = some o ∧ o.unit ≠ leaseUnit ∧ o.unit ≠ restoreUnit ∧ (s.stream 1).job = k.job ∧ k.sub % 4 = 0 ∧
      (∀ a ∈ gatherOf s o (16 * k.len16), partialBad s a (16 * k.len16) = false) ∧ (gatherOf s o (16 * k.len16)).isSome = true :=
  ⟨wellArrived_inbox (by decide) (by decide +kernel), by decide +kernel⟩

/-- A contribution of zeros of member 0 to Tile 0 of context 0, with its map of entries (R334). -/
def zeroPart : Packet := { pk ptAccum 2 1 0 32 [] with layoutGen := 0 }

theorem wit_PacketsServed_accum : let s := inbox 0 zeroPart (linked.setCtx 0 ⟨0, 0, 2, 1, 1, 0, true⟩)
    WellArrived s 0 zeroPart ptAccum ∧ (s.ctx (accCtx zeroPart)).armed = true ∧ (s.ctx (accCtx zeroPart)).job = zeroPart.job ∧
    accOutcome s zeroPart = .apply :=
  ⟨wellArrived_inbox (by decide) (by decide +kernel), by decide +kernel⟩

theorem wit_PacketChecks :
    (let k := pk ptWrite 0 1 0x1000 1 []; (ptWrite, Instr.writeRx 0 k) ∈ packetRows 0 k ∧ k.type = ptWrite ∧ arrived linked 0 k = false) ∧
    (let k := pk ptAck 0 1 0x1000 1 []; arrived (inbox 0 k linked) 0 k = true ∧ malformed k = true) ∧
    (let k := { pk ptWrite 0 1 0x1000 1 [] with dest := 4 }; arrived (inbox 0 k linked) 0 k = true ∧ malformed k = false ∧
      k.data.length = 16 * data16 k.type k.len16 ∧ k.dest ≠ selfId linked ∧ k.hops = 0) ∧
    (∀ q ∈ [15, 3], let k := { pk ptWrite 0 1 0x1000 1 [] with dest := 4, hops := 1 };
     let s := inbox 0 k { linked with routes := SMap.set (fun _ => 0) linked.routes 4 (BitVec.ofNat 32 (0x400 + q)) };
      arrived s 0 k = true ∧ k.dest ≠ selfId s ∧ 0 < k.hops ∧ routePort s k.dest k.stream = some q ∧ portUp s q = (q == 15)) := by
  decide +kernel
/-- `linked` with lease 63 in state `st` from module 7, lending of 1 GB on. -/
def leaser (st : Nat) : State :=
  let s := (linked.setLease 63 ⟨7, st, false, 1, 100, 0⟩).setRegN (tierPage 0 + 0xDC) 3
  (s.setFlag (resetPage 0) Fld.RST_STATUS.bulk_ready true).setFlag (resetPage 1) Fld.RST_STATUS.bulk_ready true

/-- A LEASE packet of subtype `sub` about entry 63, for 1 Folio until 1,000. -/
def leasePk (sub : Nat) : Packet := pk ptLease sub 63 0 1 (leBytes 1 4 ++ leBytes 1000 4)

theorem wit_LeaseAndStopPackets_lease :
    (∀ sub, sub < 8 → WellArrived (inbox 0 (leasePk sub) (leaser 1)) 0 (leasePk sub) ptLease ∧ (leasePk sub).sub = sub) ∧
    ((leaser 0).flag (tierPage 0) Fld.DIE_LEND_CFG.lend_en = true ∧ (grantPlace (leaser 0) (leaseSize (leasePk 0))).isSome = true ∧
      (∀ k, k < 2 → linked.flag (tierPage k) Fld.DIE_LEND_CFG.lend_en = false) ∧
      (let s := (leaser 0).setRegN (tierPage 0 + 0xDC) 1; ∀ k, k < 2 →
        s.flag (tierPage k) Fld.DIE_LEND_CFG.lend_en = false ∨ unlent s k < leaseSize (leasePk 0))) ∧
    ((leasePk 1).stream < 64 ∧ (leaseOf (leaser 1) 63).state = 1 ∧ (leaseOf (leaser 1) 63).dest = (leasePk 1).src ∧
      2 ≤ (leaseOf (leaser 2) 63).state) ∧
    (let s := { leaser 0 with tiers := { (leaser 0).tiers with grants := [⟨7, 63, 1, 100, 0⟩] } };
      (s.tiers.grants.find? (fun g => g.src == (leasePk 3).src && g.entry == (leasePk 3).stream)).isSome = true ∧
      grantNamed s (leasePk 5) = some ⟨7, 63, 1, 100, 0⟩) ∧ grantNamed (leaser 0) (leasePk 3) = none ∧ grantNamed (leaser 0) (leasePk 5) = none := by
  unfold WellArrived; decide +kernel

/-- `linked` paired with buddy 7, with an image being mirrored. -/
def buddy : State :=
  let s := (linked.setRegN (cellarPage + 0xD8) (7 + 2 ^ 12)).setFld cellarPage Fld.CSK_STATUS.pairing 1
  { s with cask := { s.cask with pairAt := some 0, receiving := some (0, 1, 1000), mirroring := some (captureImg s 0) } }

/-- A STOP packet of subtype `sub`, with `n` as its first 8 bytes. -/
def stopPk (sub n : Nat) : Packet := pk ptStop sub 0 0 1 (leBytes n 8)

theorem wit_LeaseAndStopPackets_stop :
    (∀ sub, sub < 8 → WellArrived (inbox 0 (stopPk sub 0) buddy) 0 (stopPk sub 0) ptStop ∧ (stopPk sub 0).sub = sub) ∧
    (buddy.cask.armed = none ∧ buddy.time + 64 < leNat ((stopPk 0 65).data.take 8) ∧ leNat ((stopPk 0 64).data.take 8) ≤ buddy.time + 64) ∧
    (buddy.cask.pairAt.isSome = true ∧ (stopPk 3 0).src = buddyId buddy ∧ pairing buddy = 1 ∧ buddy.cask.receiving = some (0, 1, 1000) ∧
      buddy.cask.endAsked = none ∧ copyComing buddy = false ∧
      copyComing (inbox 1 { pk ptBgWrite 0 0 0 1 [] with target := 0x8000 } buddy) = true ∧
      buddy.cask.mirroring.isSome = true ∧ buddy.cask.stale = 0 ∧ leNat ((stopPk 6 0).data.take 1) = 0 ∧
      ({ buddy with cask := { buddy.cask with stale := 1 } } : State).cask.stale ≠ 0) := by
  unfold WellArrived; decide +kernel

/-- `up` with port `p` in state `n`. -/
def portIn (p n : Nat) : State := up.setFld (portPage p) Fld.IZN_PORT_STATUS.state n

theorem wit_PortStates : ∀ p ∈ [0, 15], p < 16 ∧ syncOn up = false ∧ Granted up 0 (portPage p) ∧
    portState (portIn p 0) p = 0 ∧ portState (portIn p 1) p = 1 ∧ portState (portIn p 2) p = 2 ∧ portState (portIn p 3) p = 3 ∧
    (let s := { portIn p 4 with time := 2 ^ 27 }; portState s p = 4 ∧ s.flag (portPage p) Fld.IZN_PORT_CTRL.auto_up = true ∧
      (s.port p).at_ + 2 ^ 27 ≤ s.time) ∧
    (let s := (portIn p 4).setFlag (portPage p) Fld.IZN_PORT_CTRL.auto_up false; portState s p = 4 ∧
      s.flag (portPage p) Fld.IZN_PORT_CTRL.auto_up = false ∧ s.time < (s.port p).at_ + 2 ^ 27) ∧
    bit (1#32).toNat 0 = true ∧ (bit (5#32).toNat 0 = true ∧ bit (5#32).toNat 3 = false ∧
      bits (5#32).toNat 2 2 ≠ up.fld (portPage p) Fld.IZN_PORT_CTRL.reach) := by
  unfold Granted Admitted; decide +kernel

/-- The tags and counters of eight codewords that lock (R297). -/
theorem wit_PortStates_lock : cwLock ((List.range 8).map (fun i => 0xA0000 + i)) = true ∧ cwLock [] = false := by decide +kernel

theorem wit_PortLosses :
    (∀ p ∈ [0, 15], p < 16 ∧ syncOn up = false ∧ portState (portIn p 2) p = 2 ∧
      (let s := { portIn p 1 with time := 531250000 }; portState s p = 1 ∧ (s.port p).at_ + 531250000 ≤ s.time) ∧
      (portState up p ≠ 1 ∧ portState up p ≠ 2 ∧ portState up p ≠ 3 ∧ up.time < (up.port p).at_ + 4250000) ∧
      (let s := { portIn p 3 with time := 4250000 }; portState s p = 3 ∧ (s.port p).at_ + 4250000 ≤ s.time)) ∧
    (let o : Outst := ⟨0x8000, 1, 0, 7, ptWrite, 0x1000, 0⟩; let e := { newEnt (cmd 0x62 0x8000 1 0 1 0 2 0) none with phase := .sending };
     let s := { up.setUnit 0x8000 { up.unit 0x8000 with q := [e] } with outst := [o], time := max 1024 (up.regN (routePage + 0x94)) };
     let overdue := fun (o : Outst) => o.unit == 0x8000 && o.stream == 1 && o.seq == 0 &&
       decide (o.time + max 1024 (s.regN (routePage + 0x94)) ≤ s.time);
      0x8000 ≠ leaseUnit ∧ s.outst.find? overdue = some o ∧ up.outst.find? overdue = none ∧
      (s.q 0x8000).find? (fun e => e.stream == 1 && e.seq == 0 && e.engine == .collective && e.phase == .sending) = some e) := by
  decide +kernel

/-- A flit of an ACK packet, whole, of sequence number `n`. -/
def ackFlit (kind n : Nat) : Flit := ⟨kind, 3, n, 0, false, [1, 0, 0, 255], 0, 0, flitPayload (pk ptAck 0 1 0 0 []) 0, 0⟩

theorem sealed_crcOk (f : Flit) : f.sealed.crcOk = true := beq_self_eq_true (crc32c f.body)

theorem broken_crcOk (f : Flit) : ({ f with crc := crc32c f.body + 1 } : Flit).crcOk = false :=
  beq_eq_false_iff_ne.mpr (Nat.succ_ne_self (crc32c f.body))

theorem wit_FlitsReceived : let s := portIn 15 2; let f := (ackFlit 2 0).sealed
    let l := SMap.get (fun _ => []) (s.port 15).part f.vc ++ fit 240 f.payload
    15 < 16 ∧ portUp (portIn 15 1) 15 = false ∧ portUp s 15 = true ∧ f.linkKind = 0 ∧ f.credits.length = 4 ∧
    (ackFlit 0 0).sealed.kind = 0 ∧ (ackFlit 1 4095).sealed.fseq ≠ (s.port 15).rxNext ∧ f.fseq = (s.port 15).rxNext ∧
    l.length = 240 * flitCount (packetOf l) ∧ malformed (packetOf l) = false := by
  decide +kernel

/-- Flits whose CRC is wrong: the codeword counted already, a new one within the limit, and one past it. -/
theorem wit_FlitsReceived_bad : let s := portIn 15 2; let c := s.fld (portPage 15) Fld.IZN_RETRAIN_CFG.unc_limit
    let window := fun (t : State) => ((t.port 15).unc.filter
      (fun t => decide (s.time < t + 2 ^ s.fld (portPage 15) Fld.IZN_RETRAIN_CFG.win_exp))).length
    (codewordSpan (s.port 15).rxFlits).1 ≤ (codewordSpan (s.port 15).rxFlits).2 ∧ (s.port 15).badCw = none ∧ window s + 1 ≤ c ∧
    c ≤ window (s.setPort 15 { s.port 15 with unc := List.replicate c 0 }) := by
  decide +kernel

/-- Port 0 UP with 2 flits of credit in each channel and `x` of it changed by `f`. -/
def sender (f : PortSt → PortSt) : State :=
  let s := { linked with txq := [(3, [pk ptAck 0 1 0 0 []])] }
  s.setPort 0 (f { s.port 0 with credits := [(0, 2), (1, 2), (2, 2), (3, 2)] })

theorem wit_FlitsSent :
    (portUp up 0 = false ∧ portUp linked 0 = true ∧ chooseSlot linked 0 = .idle) ∧
    (portUp (sender id) 0 = true ∧ chooseSlot (sender id) 0 = .first 3 (2, 0) ∧ nextFlit (sender id) 0 3 = some (pk ptAck 0 1 0 0 [], 0)) ∧
    (let g : SentFlit := ⟨2, 3, 0, flitPayload (pk ptAck 0 1 0 0 []) 0, 1, pk ptAck 0 1 0 0 []⟩;
     let s := sender (fun x => { x with replay := [g], resend := [0] }); chooseSlot s 0 = .replay g ∧ g.sends < replayLimit s 0) ∧
    (let g : SentFlit := ⟨2, 3, 0, flitPayload (pk ptAck 0 1 0 0 []) 0, 255, pk ptAck 0 1 0 0 []⟩;
     let s := sender (fun x => { x with replay := [g], resend := [0] }); chooseSlot s 0 = .replay g ∧ replayLimit s 0 ≤ g.sends) ∧
    (let s := (linked.setFlag routePage Fld.IZN_SYNC_CFG.enable true).setFlag routePage Fld.IZN_SYNC_CFG.root false;
      syncOn s = true ∧ portUp s (parentPort s) = true ∧ s.sync.started = 0) ∧ syncOn linked = false := by
  decide +kernel

/-- `up` with the Cask writer's state `n`. -/
def cask (n : Nat) (f : CaskSt → CaskSt) : State := let s := setCsk n up; { s with cask := f s.cask }

theorem wit_CaskRequests :
    (Granted up 0 cellarPage ∧ stopGang up = false ∧ up.cask.requested = false ∧ stopGang (up.setFlag cellarPage Fld.CSK_STOP_CFG.gang true) = true) ∧
    (let s := (cask 7 id).setFlag cellarPage Fld.CSK_CTRL.enable true; Granted s 0 cellarPage ∧ cskState s = 7 ∧ cskOn s = true ∧
      s.cask.writing = none ∧ pulseBarred s = false ∧ stageAt s + 11264 ≤ fixedFolios s) ∧
    cskState up ≠ 7 ∧
    (let s := { up.setFld cellarPage Fld.CSK_FLOOR.floor 1 with time := 2 ^ 30 }; stopGang s = false ∧ s.fld cellarPage Fld.CSK_FLOOR.floor ≠ 0 ∧
      s.cask.lastCommit + s.fld cellarPage Fld.CSK_FLOOR.floor * 2 ^ 30 ≤ s.time) ∧
    (up.setFld cellarPage Fld.CSK_FLOOR.floor 0).fld cellarPage Fld.CSK_FLOOR.floor = 0 ∧ up.cask.critAt = none ∧
    (let s := { cask 0 (fun c => { c with critAt := some 0 }) with time := up.fld cellarPage Fld.CSK_FLOOR.crit_wait * 2 ^ 20 };
      s.cask.critAt = some 0 ∧ s.cask.told = false ∧ 0 + s.fld cellarPage Fld.CSK_FLOOR.crit_wait * 2 ^ 20 ≤ s.time) ∧
    (let s := (cask 0 (fun c => { c with critAt := some 0 })).setFld cellarPage Fld.CSK_FLOOR.crit_wait 1;
      s.cask.critAt = some 0 ∧ s.time < 0 + s.fld cellarPage Fld.CSK_FLOOR.crit_wait * 2 ^ 20) := by
  unfold Granted Admitted; decide +kernel

/-- A Cask of `up`. -/
def img : CaskImg := captureImg up 0

/-- A Cask of `up` with one Tile of region 0, whose compressed bytes are `code`. -/
def imgOf (code : List Byte) : CaskImg := { img with tiles := [⟨0, 0, 0, false, 0, [], code, 0⟩] }

/-- `up` writing that Cask into slot B, with units `l` pending. -/
def writing (l : List (Nat × Nat)) (code : List Byte) : State := cask 3 (fun c => { c with pend := l, writing := some (1, imgOf code) })

theorem wit_CaskWriter : (∀ l ∈ [[], [(1, 0)], [(0, 3)]], let s := writing l [];
      UnitsIdle s ∧ s.edge = [] ∧ s.tiers.reqs = [] ∧ s.cask.critCut = false ∧ writerWaits s = false ∧ pairing s = 0 ∧ s.cask.pend = l ∧
      nextUnit s = l.head? ∧ ∀ v ∈ l, unitGone s v = false) ∧
    (let s := writing [(0, 3)] []; let s := { s with power := { s.power with volts := 5599 } }; writerWaits s = true) ∧
    up.cask.writing = none ∧ (writing [] []).cask.writing.isSome = true := by
  unfold UnitsIdle; decide +kernel

theorem sectionBytes_short (i : CaskImg) : ∀ k ∈ [1, 2, 4, 5], (sectionBytes i k).length ≤ 47 * 2 ^ 18 - 1 := by
  intro k hk
  simp only [List.mem_cons, List.not_mem_nil, or_false] at hk
  rcases hk with rfl | rfl | rfl | rfl <;> exact List.length_take_le _ _

theorem length_fit (n : Nat) (l : List Byte) : (fit n l).length = n := by
  unfold fit
  simp only [List.length_append, List.length_take, List.length_replicate]
  omega

theorem sectionBytes_chases (i : CaskImg) : (sectionBytes i 3).length = 2304 * 292 * 1024 := length_fit _ _

/-- Where section 8 of a Cask without Folios of the fixed range begins. -/
theorem sectionAt_data (i : CaskImg) (h : i.folios = []) : sectionAt i 8 ≤ 2 ^ 30 + 32 * i.tiles.length := by
  have short := sectionBytes_short i
  have h1 := short 1 (by simp); have h2 := short 2 (by simp); have h4 := short 4 (by simp); have h5 := short 5 (by simp)
  have h3 := sectionBytes_chases i
  have h6 : (sectionBytes i 6).length = 0 := by simp only [sectionBytes, h, List.map_nil, List.flatten_nil, List.length_nil]
  have h7 : (sectionBytes i 7).length = 32 * i.tiles.length := length_fit _ _
  simp only [sectionAt, sectionsFrom, List.range, List.range.loop, List.map_cons, List.map_nil, List.flatten_cons, List.flatten_nil,
    List.length_append, List.length_nil, Nat.reduceAdd, Nat.reduceSub]
  omega

theorem sectionsFrom_succ (i : CaskImg) (k n : Nat) :
    (sectionsFrom i k (n + 1)).length = (sectionsFrom i k n).length + (sectionBytes i (k + n)).length := by
  simp only [sectionsFrom, List.range_succ, List.map_append, List.flatten_append, List.length_append, List.map_cons, List.map_nil,
    List.flatten_cons, List.flatten_nil, List.length_nil, Nat.add_zero]

/-- The length of a Cask of `up`'s kind: where its section 8 begins and the compressed Tiles. -/
theorem caskLen_data (i : CaskImg) (h : i.kind = 0) : caskLen i = sectionAt i 8 + ((i.tiles.map (·.code)).flatten).length := by
  have n : sectionsOf i = 7 + 1 := by simp [sectionsOf, h]
  have e : sectionBytes i 8 = (i.tiles.map (·.code)).flatten := rfl
  unfold caskLen caskBody sectionAt
  rw [n, sectionsFrom_succ, e, show 8 - 1 = 7 from rfl]
  omega

/-- A Cask that fits into the longest one. -/
def small : CaskImg := { imgOf [] with folios := [] }

/-- A Cask whose one Tile is as long as the longest Cask. -/
def large : CaskImg := imgOf (List.replicate (2016 * 2 ^ 30) 0)

theorem large_bytes : (large.tiles.map (·.code)).flatten.length = 2016 * 2 ^ 30 := by
  have e : (large.tiles.map (·.code)).flatten = List.replicate (2016 * 2 ^ 30) 0 ++ [] := rfl
  rw [e, List.append_nil, List.length_replicate]

theorem wit_CaskWriter_lengths : (unitCopy small (1, 0)).1 + (unitCopy small (1, 0)).2.length ≤ caskMax ∧
    caskMax < (unitCopy large (1, 0)).1 + (unitCopy large (1, 0)).2.length ∧ caskLen small ≤ caskMax ∧ caskMax < caskLen large := by
  have hs := sectionAt_data small rfl
  have ts : small.tiles.length = 1 := rfl
  have us : unitCopy small (1, 0) = (sectionAt small 8 + 0, []) := rfl
  have ul : unitCopy large (1, 0) = (sectionAt large 8 + 0, List.replicate (2016 * 2 ^ 30) 0) := rfl
  have hl : 4096 ≤ sectionAt large 8 := Nat.le_add_right _ _
  have cs : ((small.tiles.map (·.code)).flatten).length = 0 := rfl
  have m : caskMax = 2016 * 2 ^ 30 := rfl
  rw [caskLen_data small rfl, caskLen_data large rfl, us, ul, large_bytes, cs, m]
  simp only [List.length_nil, List.length_replicate]
  omega

theorem wit_StopPressAndResume :
    (let s := up.setRegN (cellarPage + 0x94) 2047; Granted s 0 cellarPage ∧ s.regN (cellarPage + 0x94) + (0#32).toNat * 2 ^ 32 < s.time + 2048) ∧
    (let s := up.setRegN (cellarPage + 0x94) 2048; Granted s 0 cellarPage ∧ s.time + 2048 ≤ s.regN (cellarPage + 0x94) + (0#32).toNat * 2 ^ 32 ∧
      s.cask.armed = none ∧ stopGang s = false) ∧
    (let s := cask 0 (fun c => { c with armed := some 5 }); s.cask.armed.isSome = true ∧ s.time < 5) ∧
    (let s := { withStream 1 id (cask 0 (fun c => { c with armed := some 5 })) with time := 5 }; s.cask.armed = some 5 ∧ 5 ≤ s.time ∧ s.stopped = false ∧
      UnitsIdle s ∧ (∀ x ∈ s.cores, x.2.outq = []) ∧ (∀ x ∈ s.streams, x.2.fetched = none)) ∧
    (let s := { cask 6 id with stopped := true }; s.stopped = true ∧ s.cask.told = false ∧ govBusy s = false ∧ UnitsIdle s ∧
      s.cask.critCut = false) ∧
    (let c := { coreWith [] with pc := 4 }; let s := up.setCore 0 c; coreGoing (s.core 0) = true ∧ (0, c) ∈ s.cores ∧ c = s.core 0 ∧ cskState s ≠ 3) ∧
    (∀ u ∈ [0, modulePath], (up.setUnit u { up.unit u with q := [newEnt mulCmd none] }).units.any (fun x => x.2.q != []) = true) ∧
    (cskState up ≠ 5 ∧ cskState up ≠ 7) ∧
    (∀ n ∈ [5, 7], let s := { withStream 1 (fun t => { t with state := 6, before := 2 }) (cask n (fun c => { c with runs := [0] })) with stopped := true };
      Granted s 0 cellarPage ∧ cskState s = n ∧ s.cask.stopBuf = [] ∧ s.cask.held = [] ∧ s.cask.writing = none ∧ (s.stream 1).state = 6 ∧ (s.core 0).run = .halted) := by
  unfold Granted Admitted UnitsIdle; decide +kernel

theorem wit_RestoreAndBuddy :
    (Granted up 0 cellarPage ∧ bit (0#32).toNat 14 = false ∧ bit (0x4000#32).toNat 14 = true) ∧
    (∃ x ∈ fixed.streams, x.2.state = 2) ∧
    (let s1 := up.setRegN (cellarPage + 0xE0) (putBits (up.regN (cellarPage + 0xE0)) 13 0 (bits (0x4000#32).toNat 13 0));
      (∀ x ∈ up.streams, x.2.state ≠ 2) ∧ outstandingCmds up = [] ∧ up.cask.writing = none ∧ s1.fld cellarPage Fld.CSK_RESTORE.source = 0 ∧
      up.cask.slotA = none) ∧
    (up.cask.restoring = none ∧ up.cask.mirroring = none ∧ bit (0x1000#32).toNat 12 = true ∧ buddy.cask.mirroring.isSome = true) ∧
    (let s := { cask 0 (fun c => { c with pairAt := some 0 }) with time := max 1024 (up.regN (routePage + 0x94)) };
      s.cask.pairAt = some 0 ∧ 0 + max 1024 (s.regN (routePage + 0x94)) ≤ s.time) ∧
    (let s := (cask 0 (fun c => { c with pairAt := some 0 })).setRegN (routePage + 0x94) 1; s.cask.pairAt = some 0 ∧ s.time < 0 + max 1024 (s.regN (routePage + 0x94))) ∧
    (buddyOn up = false ∧ 31 < 32 ∧ Admitted up 31) := by
  unfold Granted Admitted; decide +kernel

theorem wit_RestoreAndBuddy_done : (applyCask img { up with cask := { up.cask with restoring := none } }).isSome = true := by
  decide +kernel

/-- `up` with `img` in slot 0 under a header whose check is right: CRC32C of its first 4,088 bytes (R374). -/
def sealed : State :=
  let k := slotKey 0
  let m := (List.range 4).map (fun i => (k + i, BitVec.ofNat 8 (0x4B534143 / 256 ^ i))) ++
    (List.range 4).map (fun i => (k + 4088 + i, BitVec.ofNat 8 (4224729418 / 256 ^ i))) ++
    (List.range 4).map (fun i => (k + 4092 + i, BitVec.ofNat 8 (0x5A5AA5A5 / 256 ^ i)))
  { up with mem := m, cask := { up.cask with slotA := some img } }

/-- `crcByte` over a list, its register evaluated at every byte. -/
def crcRun : List (BitVec 8) → Nat → Nat
  | [], c => c
  | b :: l, c => match c with
    | 0 => crcRun l (crcByte 0 b)
    | n + 1 => crcRun l (crcByte (n + 1) b)

theorem foldl_crcByte (l : List (BitVec 8)) (c : Nat) : l.foldl crcByte c = crcRun l c := by
  induction l generalizing c with
  | nil => rfl
  | cons b l ih => cases c <;> exact ih _

/-- The CRC register after each 128 bytes of that header. -/
def crcAt (i : Nat) : Nat := ([4294967295, 47256609, 1343849099, 3742962119, 2284106272, 2375936390, 4055868023, 3329765522, 2279134447,
  1243472656, 1159358310, 4239769009, 614422143, 996824720, 1784629427, 1903850216, 2068997391, 704378890, 31324242, 1139214108,
  3487500539, 1009992132, 211014655, 1090067296, 2582662438, 3888336990, 2290649524, 259212768, 4176876433, 3576429580, 138648291,
  3219566880][i]?).getD 0

theorem bytes_append (s : State) (a m n : Nat) : s.bytes a (m + n) = s.bytes a m ++ s.bytes (a + m) n := by
  induction m generalizing a with
  | zero => simp [State.bytes]
  | succ m ih => rw [Nat.succ_add]; simp only [State.bytes, List.cons_append, ih]; rw [Nat.add_assoc a 1 m, Nat.add_comm 1 m]

theorem crc_part : ∀ i, i < 31 → crcRun (sealed.bytes (slotKey 0 + 128 * i) 128) (crcAt i) = crcAt (i + 1) := by
  decide +kernel

theorem crc_upto : ∀ i, i ≤ 31 → (sealed.bytes (slotKey 0) (128 * i)).foldl crcByte 0xFFFFFFFF = crcAt i := by
  intro i
  induction i with
  | zero => intro _; rfl
  | succ i ih =>
    intro h
    rw [show 128 * (i + 1) = 128 * i + 128 from rfl, bytes_append, List.foldl_append, ih (by omega), foldl_crcByte, crc_part i (by omega)]

theorem crc32c_eq (l : List (BitVec 8)) : crc32c l = l.foldl crcByte 0xFFFFFFFF ^^^ 0xFFFFFFFF := rfl

theorem header_bytes : sealed.bytes (slotKey 0) (128 * 31 + 120) =
    sealed.bytes (slotKey 0) (128 * 31) ++ sealed.bytes (slotKey 0 + 128 * 31) 120 := bytes_append _ _ _ _

theorem crc_tail : crcRun (sealed.bytes (slotKey 0 + 128 * 31) 120) (crcAt 31) ^^^ 0xFFFFFFFF = 4224729418 := by
  decide +kernel

theorem crc_header : crc32c (sealed.bytes (slotKey 0) (128 * 31 + 120)) = 4224729418 := by
  rw [crc32c_eq, header_bytes, List.foldl_append, crc_upto 31 (Nat.le_refl _), foldl_crcByte, crc_tail]

theorem sealed_header : headFault (fun o n => sealed.bytes (slotKey 0 + o) n) = stOk := by
  have c : crc32c (sealed.bytes (slotKey 0 + 0) 4088) = 4224729418 := crc_header
  unfold headFault
  simp only [c]
  decide +kernel

theorem wit_RestoreAndBuddy_slot : Granted sealed 0 cellarPage ∧ sealed.cask.slotA = some img ∧ slotFault sealed 0 = 0 ∧
    img.perCtl = sealed.fld (tierPage 0) Fld.DIE_FIXED.per_ctl := by
  refine ⟨by unfold Granted Admitted; decide +kernel, rfl, ?_, by decide +kernel⟩
  unfold slotFault caskFault
  rw [sealed_header]
  decide +kernel

theorem wit_RiskEstimator : 31 < 32 ∧ 32 ≤ 32 ∧ up.fld cellarPage Fld.CSK_RISK_THR.elevated ≠ 0 := by
  decide +kernel
/-- `up` with trace writer `d` in state `n` and a buffer at Folio 16. -/
def tracing (d n : Nat) : State :=
  (up.setFld (tracePage d) Fld.TRC_STATUS.state n).setFld (tracePage d) Fld.TRC_BUF_BASE.folio 16

theorem wit_TraceAndSnapshots_writer :
    (∀ d, d < 2 → (Granted (tracing d 0) 0 (tracePage d) ∧ bits (1#32).toNat 8 4 = 0 ∧ bits (1#32).toNat 2 1 ≠ 3 ∧ bufferOk (tracing d 0) d = true ∧
      (tracing d 0).flag (tracePage d) Fld.TRC_CTRL.enable = false)) ∧
    ((tracing 0 1).setFlag (tracePage 0) Fld.TRC_CTRL.enable true).flag (tracePage 0) Fld.TRC_CTRL.enable = true ∧
    (∀ n, n < 5 → traceState (tracing 1 n) 1 = n) ∧ traceMode (tracing 1 1) 1 = 0 ∧
    (∀ n, n < 3 → let s := (tracing 1 1).setFld (tracePage 1) Fld.TRC_CTRL.mode n; traceState s 1 = 1 ∧ markFits s 1 = true ∧ sameTick 1 s = false) ∧
    (let s := (tracing 1 1).setFlag (tracePage 1) Fld.TRC_TRIG_CFG.on_time true; s.flag (tracePage 1) Fld.TRC_TRIG_CFG.on_time = true ∧
      s.reg64 (tracePage 1 + 0xA0) = s.time) ∧ (tracing 1 1).flag (tracePage 1) Fld.TRC_TRIG_CFG.on_time = false ∧
    nextTraced (tracing 1 1) 1 = none ∧
    (let r : TrcRec := ⟨0, 0, 0x11FF, 5, 0, 0⟩; let ch := chasePath 1 8 7 15; let s := { tracing 1 1 with trq := [(ch, ⟨[r], 0, 0, 6⟩)] };
      s.flag (tracePage 1) Fld.TRC_TRIG_CFG.on_record = false ∧ nextTraced s 1 = some ch ∧ (s.trqOf ch).recs = [r] ∧ (s.trqOf ch).lost = 0 ∧
      ∀ x ∈ s.trq, x.1 ≠ ch → x.2.recs = []) ∧
    (let s := tracing 0 2; let s := s.setTrw 0 { s.trwOf 0 with mark := some (0, 3) };
      (s.trwOf 0).mark = some (s.time, 3) ∧ traceState s 0 = 2) ∧
    (∀ n, n < 5 → ((tracing 1 n).trwOf 1).mark = none) ∧ ((tracing 1 2).trwOf 1).post = 0 := by
  unfold Granted Admitted; decide +kernel

theorem wit_TraceAndSnapshots_spill :
    (let s := (tracing 0 1).setFld (tracePage 0) Fld.TRC_CTRL.mode 2; let s := s.setTrw 0 { s.trwOf 0 with held := 1 };
      maySpill s 0 = true ∧ (s.trwOf 0).lost = 0) ∧ maySpill up 0 = false ∧
    (Granted up 0 (tracePage 0) ∧ up.hang = none ∧ hangAreaOk ((up.setRegN (tracePage 0 + 0xB4) 1100).setRegN (tracePage 1 + 0xB4) 1100) 0 = true ∧
      hangAreaOk ((up.setRegN (tracePage 0 + 0xB4) 1100).setRegN (tracePage 1 + 0xB4) 1100) 1 = true) ∧
    (let s := { up with hang := some ⟨64, 0, 0, 0, false⟩ }; s.hang.isSome = true ∧ s.time < 64) ∧
    (let s := { up with hang := some ⟨64, 0, 0, 0, false⟩, time := 64 }; s.hang = some ⟨64, 0, 0, 0, false⟩ ∧ 64 ≤ s.time) := by
  unfold Granted Admitted; decide +kernel

theorem wit_HealthMonitors :
    (∀ d, d < 2 → Admitted up 0 ∧ Admitted up 32 ∧ Granted up 0 (monPage d) ∧ proofMode up d = bit (0#32).toNat 0 ∧
      proofMode (up.setFlag (monPage d) Fld.MON_CTRL.proof true) d = true) ∧
    (11 < 12 ∧ 11 ∉ (up.mon 1).droops ∧ droopDepth up 1 < 4096 ∧ droopWidth up 1 ≤ 4096 ∧
      (let s := up.setMon 1 { up.mon 1 with droops := [11] }; 11 ∈ (s.mon 1).droops ∧ 2 * 0 ≤ droopDepth s 1 ∧ droopDepth s 1 < 2 * 4096)) ∧
    (let v : Word := BitVec.ofNat 32 0x810; let s := up.setMon 1 { up.mon 1 with proofReady := true };
     let s1 := s.setRegN (monPage 1 + 0x90) (putBits (s.regN (monPage 1 + 0x90)) 10 0 (bits v.toNat 10 0));
      bit v.toNat 11 = true ∧ testRefused s 1 v.toNat = 0 ∧ formeState s1 (formePath 1 (s1.fld (monPage 1) Fld.MON_MARGIN_CMD.forme)) ≠ 3 ∧
      (let s := s.setFld (powerPage 0) Fld.PWR_OWN.vset_owner 2; testRefused s 1 v.toNat = 0x14 ∧ vsetHeld s = true)) ∧
    (testRefused up 0 0x80F ≠ 0 ∧ bit 0x80F 11 = true) ∧ (up.mon 0).test = none ∧
    (let x : MonTest := ⟨8, 1, 1⟩; let s := up.setMon 1 { up.mon 1 with test := some x };
      (s.mon 1).test = some x ∧ x.forme < 9 ∧ endsAt x 149 [] = false ∧ endsAt x 150 [] = true ∧ formeOn s (formePath 1 8) = true) ∧
    (colType 0x01 = true ∧ colType 0 = false) ∧ Granted up 0 cellarPage ∧
    (let s := ({ up with cols := [(0, ⟨5, 0, [], 0, 0, 0⟩)] } : State); colGone s (colSel s) (s.reg64 (cellarPage + 0x114)) = false ∧
      clrBusy s = false ∧ cellarBusy s = false ∧ s.badIn (colAddr (colSel s) (s.reg64 (cellarPage + 0x114))) 64 = false ∧ (s.col (colSel s)).queue = []) ∧
    colGone up (colSel up) (up.reg64 (cellarPage + 0x114)) = true ∧
    (let s := { up with mzm := { up.mzm with clrNote := true, pulses := [2] } }; clrBusy s = true ∧ cellarBusy s = true) ∧
    (let s := { up with mzm := { up.mzm with pulses := [2] } }; clrBusy s = false ∧ cellarBusy s = true) := by
  unfold Granted Admitted; and_intros <;> decide +kernel

/-- `up` with the status word of Forme `f` of die `d` as `w`. -/
def frm (d f w : Nat) : State := up.setRegN (frmOff d f) w

theorem wit_PowerControl_gating :
    (let s := { up with units := [], cores := [] }; formeState s (formePath 1 8) = 0 ∧ mayClockGate s 1 8 = true) ∧
    mayClockGate (frm 1 8 2) 1 8 = false ∧
    (let s := (formeChases 1 8).foldl (fun s ch => s.setCore ch { CoreSt.reset with run := .waiting, depth := 2 }) (frm 1 8 0x11);
      formeState s (formePath 1 8) = 1 ∧ mayPowerGate s 1 8 = true) ∧ mayPowerGate (frm 1 8 0x10) 1 8 = false ∧
    (formeState (frm 0 0 0x20) (formePath 0 0) = 2 ∧ bit ((frm 0 0 0x20).regN (frmOff 0 0)) 6 = false ∧ validPath modulePath = true) ∧
    (let s := frm 0 0 0x60; bit (s.regN (frmOff 0 0)) 6 = true ∧ s.edge = [] ∧ UnitsIdle s) ∧
    (let s := (frm 1 8 0x60).setRegN (powerPage 1 + 0xC4) 0x2000088; bit (s.regN (frmOff 1 8)) 6 = true ∧
      bits (s.regN (powerPage 1 + 0xC4)) 3 0 = 8 ∧ s.reg64 (powerPage 1 + 0xC8) = s.time ∧
      1 < bits (s.regN (powerPage 1 + 0xC4)) 8 5 ∧ ¬ 4 < bits (s.regN (powerPage 1 + 0xC4)) 8 5) ∧
    (let s := { frm 1 8 0x60 with time := 106250, wakeAt := [] }; SMap.get (fun _ => 0) s.wakeAt (1 * 16 + 8) + 106250 ≤ s.time) ∧
    (let s := frm 1 8 0x30; Granted s 0 (powerPage 1) ∧ formeState s (formePath 1 8) = 3 ∧ SMap.get (fun _ => 0) s.wakeFrom (1 * 16 + 8) ≤ 2) ∧
    (bit (3#32).toNat 2 = false ∧ bit (1#32).toNat 1 = false) := by
  unfold Granted Admitted UnitsIdle; decide +kernel

theorem wit_PowerControl_caps :
    (Granted up 0 (powerPage 0) ∧ Admitted up 31 ∧ 4095 < 4096 ∧ Admitted up 0 ∧ Admitted up 32) ∧
    (up.fld (powerPage 0) Fld.PWR_OWN.duty_owner = 0 ∧ up.fld (powerPage 0) Fld.PWR_OWN.vset_owner = 0) ∧
    (∀ n ∈ [1, 2, 3], (up.setFld (powerPage 0) Fld.PWR_OWN.duty_owner n).fld (powerPage 0) Fld.PWR_OWN.duty_owner = n ∧
      (up.setFld (powerPage 0) Fld.PWR_OWN.vset_owner n).fld (powerPage 0) Fld.PWR_OWN.vset_owner = n) ∧
    (3999 < 4000 ∧ up.power.vin = 2 ∧ 5600 ≤ 5600 ∧ 8400 ≤ 8400 ∧ ∀ k, k < 2 → (up.col k).queue = [] ∧ (up.col k).lost = 0) := by
  unfold Granted Admitted; decide +kernel

/-- A module at start-up step `n`, Muzomus running. -/
def starting (n : Nat) : State := setStep n { State.reset with mzm := { MzmSt.reset with restarting := false } }

theorem wit_ResetsAndStartUp :
    (Admitted up 0 ∧ bits (0xA5#32).toNat 7 0 = 0xA5 ∧ up.mzm.pulses = []) ∧ ((2 : Nat) ∈ [1, 2] ∧ (1 : Nat) ≠ 0 ∧ up.mzm.restartDue = false) ∧
    diesHeld State.reset = true ∧ diesHeld (starting 1) = false ∧
    (∀ n, n < 11 → startStep (starting n) = n) ∧ longStart (starting 1) = true ∧
    longStart { starting 1 with mzm := { (starting 1).mzm with kind := 2, cause := 4 } } = false ∧
    ((starting 2).power.vin ≠ 2 ∧ { (starting 2).power with volts := 5799 }.volts < 5800) ∧ 0 ∉ (starting 5).mzm.pulses ∧
    (let s := ((starting 9).setMon 0 { (starting 9).mon 0 with proofReady := true }).setMon 1 { (starting 9).mon 1 with proofReady := true };
      startStep s = 9 ∧ s.mzm.jtagEn = false ∧ (s.mon 0).proofReady = true ∧ (s.mon 1).proofReady = true) ∧
    ((starting 9).mon 0).proofReady = false ∧
    (up.setFlag (resetPage 1) Fld.RST_STATUS.bulk_ready false).flag (resetPage 1) Fld.RST_STATUS.bulk_ready = false ∧
    (up.flag (resetPage 1) Fld.RST_STATUS.ready = true ∧ State.reset.flag (resetPage 1) Fld.RST_STATUS.ready = false ∧
      (up.setFlag (resetPage 0) Fld.RST_STATUS.bulk_ready true).flag (resetPage (1 - 1)) Fld.RST_STATUS.bulk_ready = true) ∧
    (mzmPulses [1] = true ∧ mzmPulses State.reset.mzm.pulses = false ∧ up.power.vin = 2 ∧ (1 : Nat) ≠ 2) ∧
    (State.reset.mzm.restarting = true ∧ State.reset.power.vin ≠ 0 ∧ State.reset.mzm.secure ≤ State.reset.mzm.bankA.security ∧
      up.mzm.restarting = false) := by
  unfold Admitted; and_intros <;> decide +kernel

/-- The page of the monitor of die 1. -/
def pageOfMon : Page := ⟨.monitor, monPage 1, 1, 0⟩

theorem wit_HostRegisterWrites :
    (∀ o ∈ [0x0C, 0x18, 0x20, 0x2C, 0x84, 0x94], targetOf (monPage 1 + o) = .page ((pageOf (monPage 1 + o)).getD pageOfMon) o) ∧
    (let p := (pageOf (monPage 1 + 0x94)).getD pageOfMon; p.kind = .monitor ∧ p.kind ∉ [PageKind.chase, .galley, .muzomus] ∧ Admitted up 0 ∧
      ownsPage up 0 p.base = true ∧ (∀ o ∈ [0x18, 0x20, 0x2C, 0x84], isPresent p o = true ∧ (regRow p.kind o).isSome = true) ∧
      up.flag p.base Fld.PAGE_OWNER.mgmt = false ∧ unitBusy up p = false ∧ Admitted up 31 ∧ 0x80 < 0x84 ∧ 0x84 ≠ 0x90) ∧
    (let p := (pageOf (tracePage 1 + 0x0C)).getD pageOfMon; p.base = tracePage 1) ∧ govBusy up = false := by
  unfold Admitted; decide +kernel

theorem wit_VectorsAndPins :
    (∀ n ∈ [0, 1, 2], { up with power := { up.power with vin := n } }.power.vin = n) ∧ up.power.vin ≠ 0 ∧
    (∀ n ∈ [0, 1, 4, 5], tapIrOf { up with mzm := { up.mzm with tapIr := [(1, n)] } } (15 / 8) = n) ∧ vecHeld up 31 63 = true ∧
    vecHeld ((up.setRegN (cfgKey 31 0x80) 0x80000000).setRegN (msixBase 31 + 16 * 63 + 12) 0) 31 63 = false ∧
    (Admitted up 31 ∧ targetOf (vectorTable + 0xFFFC) = .vec 0xFFFC ∧ (up.stream 0xFFFC).owner = 0) ∧
    (Admitted up 0 ∧ Admitted up 32 ∧ up.mzm.restarting = false ∧ up.fld mzmPage Fld.MZM_GPIO_OWN.wake_owner = 0 ∧
      up.fld mzmPage Fld.MZM_GPIO_OWN.fault_owner = 0) ∧
    (∀ n ∈ [1, 2], (up.setFld mzmPage Fld.MZM_GPIO_OWN.wake_owner n).fld mzmPage Fld.MZM_GPIO_OWN.wake_owner = n ∧
      (up.setFld mzmPage Fld.MZM_GPIO_OWN.fault_owner n).fld mzmPage Fld.MZM_GPIO_OWN.fault_owner = n) ∧
    (up.setFlag mzmPage Fld.MZM_GPIO_STATUS.wake_n false).flag mzmPage Fld.MZM_GPIO_STATUS.wake_n = false ∧
    (let s := (frm 1 8 0x10).setFlag mzmPage Fld.MZM_GPIO_OWN.wake_formes true; let s := s.setFlag mzmPage Fld.MZM_GPIO_STATUS.wake_n true;
      s.flag mzmPage Fld.MZM_GPIO_STATUS.wake_n = true ∧ s.flag mzmPage Fld.MZM_GPIO_OWN.wake_formes = true ∧ formeState s (formePath 1 8) = 1) ∧
    (let s := up.setFlag mzmPage Fld.MZM_COOLANT_CFG.cool_act true; s.mzm.coolSaved = none ∧ s.flag mzmPage Fld.MZM_COOLANT_CFG.cool_act = true) ∧
    (let s := { up with mzm := { up.mzm with coolSaved := some 3000 } }; s.mzm.coolSaved = some 3000) ∧
    (63 < 64 ∧ (SMap.get (fun _ => (⟨0, 0⟩ : IrqPend)) up.irqs (31 * 64 + 63)).count = 0) ∧
    (let s := { up with irqs := [(31 * 64 + 63, ⟨1, 0⟩)], time := bits (coalOf up 31) 15 0 }; let q := SMap.get (fun _ => (⟨0, 0⟩ : IrqPend)) s.irqs (31 * 64 + 63);
      0 < q.count ∧ q.since + bits (coalOf s 31) 15 0 ≤ s.time) := by
  unfold Admitted; decide +kernel

theorem wit_HostReadsAndBar2 :
    (heldBehind up 31 = false ∧ readOpen State.reset 0 govPage = false) ∧
    (readOpen up 0 (govPage + 0x88) = true ∧ mayReadAt up 0 (govPage + 0x88) = true ∧ readEdge (govPage + 0x88) = none ∧
      latched up 0 (govPage + 0x88) = none ∧ govPage + 0x88 ∉ loPairs) ∧
    (readOpen (ownedBy1 govPage up) 31 (govPage + 0x88) = true ∧ mayReadAt (ownedBy1 govPage up) 31 (govPage + 0x88) = false) ∧
    (let o := hbmPage 3 + 0x84; readOpen up 0 o = true ∧ mayReadAt up 0 o = true ∧ readEdge o = none ∧ o ∈ loPairs ∧ latched up 0 o = none ∧
      (let s := { up with latch := [(latchKey 0 (o + 4), 5#32)] }; mayReadAt s 0 (o + 4) = true ∧ o + 4 ∉ loPairs ∧ latched s 0 (o + 4) = some 5)) ∧
    (State.reset.ready = false ∧ up.ready = true ∧ bar2Request up 0 (2 ^ 30 - 512) 512 = true ∧ bar2Request up 0 (2 ^ 30 - 511) 512 = false) ∧
    (bar2Fault up 0 (bar2Base up 0 + 2 ^ 30 - 512) 512 = none ∧ (bar2Fault up 1 0 1).isSome = true) ∧
    (up.tiers.regions = [] ∧ up.cask.pend = [] ∧ (∀ p ∈ piecesOf up 0 512, partialBad up p.1 p.2 = false) ∧ up.badIn 0 512 = false) ∧
    (0 < 31 ∧ streamsOf up 31 = [] ∧ up.streams = []) ∧ fnThere up 31 = true ∧ fnThere State.reset 31 = false ∧
    (let o := dieTopPage 1 + 0x30; o ∈ freeCounters ∧ snapShown up = false ∧ readOpen up 0 o = true ∧ mayReadAt up 0 o = true ∧ readEdge o = none) ∧
    (10 ≤ bits (0xA00#32).toNat 13 8 ∧ bits (0x1000#32).toNat 13 8 ≤ 16 ∧ bits (0x900#32).toNat 13 8 < 10 ∧ 16 < bits (0x1100#32).toNat 13 8) ∧
    (let s := { { State.reset with power := up.power, mzm := up.mzm } with regs := up.regs }; s.ready = true ∧ fnThere s 31 = false) := by
  decide +kernel

theorem wit_ManagementReplies :
    mzmUp up = true ∧ inRecovery up = false ∧ mzmUp State.reset = false ∧
    (let s := up.setFlag mzmPage Fld.MZM_STATUS.recovery true; mzmUp s = true ∧ inRecovery s = true) ∧
    (8 ≤ 8 ∧ 254 ≤ 254 ∧ 1 < 2 ∧ 2 ≠ 0xFF) ∧
    (sensorOf (sensorId 1 0) = some (1, 0) ∧ 0 < 32 ∧ sensorValue up 1 0 % 16 = 0) ∧ (sensorOf (sensorId 0 32) = some (0, 32) ∧ 32 ≤ 32) ∧
    ({ up with events := [(0x2000, 1)] } : State).events = [(0x2000, 1)] ∧ up.events = [] := by
  decide +kernel

/-- `up` with an update of agent 8 in phase `n` of component `c`. -/
def updating (n c : Nat) : State := setUpdate (some ⟨8, c, 0, [], n, 4096, false⟩) up

theorem wit_FirmwareAndTestAccess :
    (up.mzm.update = none ∧ (updating 1 1).mzm.update.isSome = true ∧ updateOf up 8 = none ∧ updateOf (updating 1 1) 9 = none ∧ mzmUp up = true) ∧
    mzmPulses up.mzm.pulses = false ∧ mzmPulses [1] = true ∧ (∀ n, n < 6 → ∀ c ∈ [1, 2], mzmUp (updating n c) = true ∧ let u : Update := ⟨8, c, 0, [], n, 4096, false⟩
      updateOf (updating n c) 8 = some u ∧ u.phase = n ∧ u.classifier = c ∧ u.image.length = u.size ∧
      blockSize u ≤ ([] : List Byte).length ∧ pulseBarred (updating n c) = false) ∧
    (let s := { updating 4 1 with power := { up.power with volts := 5599 } }; mzmUp s = true ∧ (updateOf s 8).isSome = true ∧ pulseBarred s = true) ∧
    imageOk [] = false ∧ (up.power.vin = 2 ∧ State.reset.power.vin ≠ 2 ∧ scanEnabled up = false ∧
      scanEnabled { up with mzm := { up.mzm with jtagEn := true } } = true) := by
  decide +kernel

theorem wit_WritesRefused : heldBehind up 1 = false ∧ fnThere up 1 = true ∧ fnThere State.reset 1 = false ∧ State.reset.ready = false ∧ up.ready = true ∧
    (∀ x ∈ ownerWrites 1 0 1 0, ownsPage up 1 x.2.1 = false) := by
  decide +kernel

theorem wit_IdleTick : (after (.vinChange 0 0) up).power.vin = 0 ∧ (after (.vinChange 0 0) up).pending = [] ∧
    up.pending = [] ∧ up.power.vin ≠ 0 ∧ up.edge = [] ∧ UnitsIdle up ∧ (∀ c ∈ up.cores, (up.core c.1).run ≠ .waiting) ∧ up.allocs = [] ∧
    up.tabs = [] ∧ up.tiers.moves = [] ∧ up.tiers.reqs = [] ∧ up.tiers.limits = [] ∧ up.regN (routePage + 0xA0) = 0 ∧
    up.sync.trimAcc = 0 ∧ up.sync.phase = 0 := by
  unfold UnitsIdle; decide +kernel

theorem wit_CoreResetClears : let s := at0 0 []; Granted s 0 (unitPage 0) ∧ formeOn s 0 = true ∧ (s.core 0).run ≠ .loading := by
  unfold Granted Admitted; decide +kernel

theorem wit_DoorbellsOfOthers : Admitted fixed 31 ∧ (fixed.stream 0xFFFF).owner ≠ 31 := by
  unfold Admitted; decide +kernel

theorem wit_LossScaleWrite : Granted up 0 govPage ∧ up.flag govPage Fld.PTG_STATUS.busy = false ∧
    (up.setFlag govPage Fld.PTG_STATUS.busy true).flag govPage Fld.PTG_STATUS.busy = true ∧ sx 8 (bits (25#32).toNat 7 0) = 25 ∧
    sx 8 (bits (231#32).toNat 7 0) = -25 ∧ sx 8 (bits (24#32).toNat 7 0) = 24 ∧ sx 8 (bits (232#32).toNat 7 0) = -24 := by
  unfold Granted Admitted; decide +kernel

/-! Operands outside the ranges of the spec are ill-formed, one term for each check of `Instr.wf`. -/

/-- A packet of type `ty` with `n` units of 16 bytes of data. -/
def pktOf (ty n : Nat) : Packet := ⟨ty, 0, 0, 0, 0, 0, 0, 0, 0, 0, 0, n, 0, 0, []⟩

/-- Paths, dies, Formes, ports, functions and streams out of range. -/
theorem test_wf_refuses_units : ∀ i ∈ (
  [.nop 0x0900, .nop 0xA000, .nop 0x2002, .colAccum 0x2000, .redscatTakeTile 0x2000 0, .redscatTakeTile 0x6000 (2 ^ 41), .operandReadError 0 3 0,
   .operandReadError 0 0 0, .operandReadError 0x2000 1 0, .addi 0x2000, .wait 0x8000, .twaitTimeout 0x1, .coreRun 33 0, .coreRun 0 0x4000,
   .bridgeReplay 2, .idcode ⟨2, 0, 0⟩, .traceEnable 0 2 0, .traceEnable 33 1 0, .forceOnWrite 0 0 9 0, .formeClockGate 0 9, .formeClockGate 2 0,
   .formeWake 0 0 0 0, .formeWake 0 0 13 0, .formeWake 0 0 1 0x0900, .stepEnd 33 0, .portEnable 0 16 0, .retrainDone 16, .writeRx 17 (pktOf 0 0),
   .sqDoorbell 0 (2 ^ 16) 0, .fetchDeliver (2 ^ 16), .streamFetch 0x0900, .streamContextWrite 0 0 16 0] : List Instr), i.wf = false := by
  decide +kernel

/-- Counts, addresses and lengths out of range. -/
theorem test_wf_refuses_values : ∀ i ∈ (
  [.tokenArrival 0 (2 ^ 16) 0 false, .tokenArrival 0 0 (2 ^ 32) false, .creditArrival 0 17 0, .creditArrival 0 0 65536, .shareComplete 0 0 (2 ^ 32),
   .sensorConversion 2 [] [] [], .sensorConversion 0 (List.replicate 26 ⟨0, 0⟩) [] [], .sensorConversion 0 [] (List.replicate 13 ⟨0, 0⟩) [],
   .sensorConversion 0 [] [] (List.replicate 10 ⟨0, 0⟩), .regionMap 0 (2 ^ 20), .tileMove 0 0 5, .tileMove 0 (2 ^ 41) 0, .tileMoveCommit (2 ^ 20) 0,
   .watermarkEvict 3 0, .watermarkEvict 0 2, .watermarkEvict 1 2304, .watermarkEvict 2 144, .leaseExpiry 64, .scrubTick 18 0, .scrubTick 0 3,
   .trainingDone 0 (2 ^ 12) 0 [0, 0, 0, 0] 0 ⟨0, []⟩, .trainingDone 0 0 0 [0] 0 ⟨0, []⟩, .flitRx 0 (2 ^ 64) ⟨0, 0, 0, 0, false, [], 0, 0, [], 0⟩, .caskFail 256, .functionLevelReset 32,
   .configRequest 0 ⟨2, false, 0⟩, .configRequest 0 ⟨4096, false, 0⟩, .bar2Write 0 0 [], .bar2Write 0 (2 ^ 36) [0], .bar2Read 0 0 513, .bar2Read 0 0 0,
   .irqHoldoffExpiry 0 64, .regWrite 0 2 0, .regWrite 0 (2 ^ 28) 0, .droop 0 ⟨12, 0, 0⟩, .marginDone 0 151 [], .marginDone 0 0 [1152],
   .colophonAppend 0 256 [], .colophonAppend 0 0 (List.replicate 33 0), .vinChange 10001 0, .vinChange 0 10001, .shareWindow ⟨[(4096, 0)], true⟩,
   .resetAssert 0, .resetAssert 8, .criticalStateError 0 0 0, .criticalStateError 0 6 0, .criticalStateError 0 1 (2 ^ 24),
   .startupStepDone true [2304], .setEndpointId 256 8, .setEndpointId 0 256, .setTid 0 256, .getPldmVersion 0 256, .getTid 256, .getPdr 0 (2 ^ 32),
   .getSensorReading 0 (2 ^ 16), .setEventReceiver 0 256, .requestUpdate 0 (2 ^ 32), .passComponentTable 0 (2 ^ 16), .updateComponent 0 0 (2 ^ 32),
   .activateFirmware 0 true 3, .pcieLinkChange 4 0 0 false, .pcieLinkChange 0 7 0 false, .pcieLinkChange 0 0 17 false, .boardAlarm 32 true] : List Instr), i.wf = false := by
  decide +kernel

/-- R3, R19, R20: the last path of each level, and the ends of other ranges. -/
theorem test_wf_admits : ∀ i ∈ [Instr.nop 0x18FE, .nop 0x38E0, .nop 0x5800, .nop 0x7000, .nop 0x8000, .colAccum 0x7000, .addi 0x18FE, .resetAssert 0x15,
    .bar2Read 31 (2 ^ 36 - 1) 512, .regWrite 32 (2 ^ 28 - 4) 0, .droop 1 ⟨11, 50, 5⟩, .watermarkEvict 1 2303, .creditArrival 0 16 65535], i.wf = true := by
  decide +kernel

/-! The spec's worked examples and tables. -/

/-- 01_unit_hierarchy.md, the worked example after R22: paths, indices and pages of Chase d1.f4.g7.c12 and its Galley. -/
theorem test_unit_pages :
    chasePath 1 4 7 12 = 0x14F8 ∧ chaseIndex 0x14F8 = 0x27C ∧ unitPage 0x14F8 = 0x0527C000 ∧ galleyOf 0x14F8 = 0x34E0 ∧
    galleyIndex 0x34E0 = 39 ∧ unitPage 0x34E0 = 0x05827000 := by
  decide +kernel

/-- 12_collectives.md, the worked example after R339: Folio 4,396 belongs to controller 12. Its page by the table Die window
(R525); the example's own total differs from its sum (log 136). -/
theorem test_adder_page : hbmPage (accCtl { RedCtx.reset with base := 4096 } 300) = 0x06004000 := by decide +kernel

/-- 01_unit_hierarchy.md, the table after R29: 70 Tiles over 16 members. -/
theorem test_split_shares :
    subRange (0, 70) 0 16 = (0, 5) ∧ subRange (0, 70) 5 16 = (25, 5) ∧ subRange (0, 70) 6 16 = (30, 4) ∧ subRange (0, 70) 15 16 = (66, 4) := by
  decide +kernel

/-- 02_point_formats.md, the worked example after R62: 0x4053_3333 at k = 1 into P4, to nearest and with two random values. -/
theorem test_p4_rounding : let v := (decodeFloat 6 0x40533333).scale (-1)
    (toFloat 0 .nearest v).code = 3 ∧ (toFloat 0 (.stochastic 0xA000) v).code = 3 ∧ (toFloat 0 (.stochastic 0xC000) v).code = 4 := by
  decide +kernel

/-- 02_point_formats.md, the worked example after R72: a P16x2 pair. -/
theorem test_p16x2 : (toPair (decodeFloat 6 0x3FAAAAAB)).code = 0x3FAB + 0xBB2B * 65536 := by decide +kernel

/-- 03_cell_array.md, the worked example after R82: 225.01953125 = 115,210 units of 2^-9 in W38. -/
theorem test_w38 : w38Encode (.fin false 115210 (-9)) = 0x2067082800 ∧ w38Decode 0x2067082800 = .fin false 0x7082800 (-19) := by decide +kernel

/-- 04_multiplier_free_modes.md, the worked example after R124: S = {0, 1, 2}, 2 cycles, 10 active lane-cycles of 32. -/
theorem test_bit_serial : let l := [0, 0, 1, 2, 3, 0, 5, 0, 1, 0, 0, 2, 0, 0, 4, 1]
    bundleMask l = 7 ∧ bundleCycles l = 2 ∧ 16 * bundleCycles l - bundleActive l = 22 := by
  decide +kernel

/-- 05_chase_control_core.md, the worked example after R152: the fields of its instruction words. -/
theorem test_core_words :
    (iOp 0x88C70000 = 0x22 ∧ iRd 0x88C70000 = 6 ∧ iRa 0x88C70000 = 7) ∧
    (iOp 0x80AA5C00 = 0x20 ∧ iRd 0x80AA5C00 = 5 ∧ iRa 0x80AA5C00 = 10 ∧ iRb 0x80AA5C00 = 11 ∧ bit 0x80AA5C00 10 = true) ∧
    (iOp 0x910C8000 = 0x24 ∧ iRd 0x910C8000 = 8 ∧ iRa 0x910C8000 = 12 ∧ bit 0x910C8000 15 = true) ∧
    (iOp 0x85AA7000 = 0x21 ∧ iRd 0x85AA7000 = 13 ∧ iRa 0x85AA7000 = 10 ∧ iRb 0x85AA7000 = 14) := by
  decide +kernel

/-- R133, R134: ADDI of 1 to 0xFFFF_FFFF wraps to 0, and the core goes on at the next word. -/
theorem test_addi_wraps : let c := (after (.addi 0) (at0 (iw 1 2 1 1) [(1, 0xFFFFFFFF), (2, 9)])).core 0; c.reg 2 = 0 ∧ c.pc = 4 := by
  decide +kernel

/-- R132: ORI takes its immediate without a sign, ADDI with one. -/
theorem test_ori_addi_immediates :
    ((after (.ori 0) (at0 (iw 3 2 1 0x8000) [(1, 0x10000)])).core 0).reg 2 = 0x18000 ∧
    ((after (.addi 0) (at0 (iw 1 2 1 0x8000) [(1, 0x10000)])).core 0).reg 2 = 0x8000 := by
  decide +kernel

/-- 06_engine_commands.md after R535, W0: opcode 0x01, split 0, a token, unit path 0x2260. -/
theorem test_command_word : let c : BitVec 256 := 0x22601001
    cOp c = 1 ∧ cSplit c = 0 ∧ cTokEn c = true ∧ cIrq c = false ∧ cPath c = 0x2260 := by
  decide +kernel

/-- 08_training_numerics.md, the worked example after R224: 45,000 in P16H. -/
theorem test_p16h : (toFloat 4 .nearest (.fin false 45000 0)).code = 0x797E := by decide +kernel

/-- Chunk `i` of the Tile of the next example. -/
def chunk (i : Nat) : List Byte :=
  if i < 8 then List.replicate 128 0
  else if i < 28 then List.replicate 88 0 ++ List.replicate 40 (BitVec.ofNat 8 i)
  else List.replicate 128 (BitVec.ofNat 8 i)

/-- 09_memory_tiers.md, the worked example after R251: 8 empty, 20 sparse and 4 dense chunks take 1,664 bytes in 14 granules. -/
theorem test_codec_length : chunksLen 1 32 none ((List.range 32).flatMap chunk) = 1664 ∧ granuleBytes 1664 = 14 * 128 := by decide +kernel

/-- 11_izyen_links.md after R320 and 12_collectives.md after R344: flits of a WRITE of a P16 Tile and of a sparse COL_ACCUM. -/
theorem test_flits : flitCount (pktOf 0 512) = 35 ∧ flitCount (pktOf 3 48) = 4 := by decide +kernel

/-- The generator polynomial that IEEE 802.3 Clause 91 prints for RS(528,514), from the same field and roots; R297: 68 symbols of a
codeword on each lane, symbol 9 the second of lane 1. -/
theorem test_rs_code : rsGenerator 14 = [1, 904, 6, 701, 32, 656, 925, 900, 614, 391, 592, 265, 945, 290, 432] ∧
    (laneSymbols 1 (List.range 544)).take 2 = [1, 9] ∧ (lanesOf [List.range 544]).map List.length = List.replicate 8 68 := by
  decide +kernel

/-- 17_power.md, the worked example after R451: the duty falls 64, 44, 36, 32, 30, 29, 28 under a 2,000 W cap. -/
theorem test_duty_steps :
    let d := fun n p => (powerStep n 0 p 200000 360000).1
    d 64 2900 = 44 ∧ d 44 2400 = 36 ∧ d 36 2200 = 32 ∧ d 32 2100 = 30 ∧ d 30 2050 = 29 ∧ d 29 2025 = 28 := by
  decide +kernel

/-- A step runs the command in front and keeps the rest of the queue; R424: a droop of domain 3 beyond threshold and width adds 1 to
its counter. -/
theorem test_step : (match Machine.step { up with pending := [.droop 0 ⟨3, 4095, 4095⟩, .nop 0] } with | .next t => (t.pending, t.regN (monPage 0 + 0x3C)) | _ => ([], 0)) =
    ([.nop 0], 1) := by
  decide +kernel


end Sys2Proof.Tests
end

/-! PROOFS. What a tick does to a module that is OFF because its input went above 84 V (R440), and the statement about empty
queues that this refutes. -/

namespace Sys2Proof.Machine.Laws

/-- On an empty queue a step is a tick (log 2). -/
theorem step_of_pending_nil {s : State} (h : s.pending = []) : step s = .next (tick s) := by
  simp only [step, h]

theorem tick_of_off {s : State} (h : s.power.vin = 0) : tick s = offTick s := by
  simp only [tick, if_pos h]

/-- A module that an input above 84 V disconnected counts the ticks of its 100 ms below 80 V (R440, log 97). -/
theorem offTick_of_tripped {s : State} (ht : s.power.tripped = true) (hv : s.power.volts < 8000)
    (hn : s.power.overTicks + 1 < 106250000) :
    offTick s = { s with power := { s.power with overTicks := s.power.overTicks + 1 } } := by
  have hbelow : ¬ 8000 ≤ s.power.volts := by omega
  have hwait : ¬ 106250000 ≤ s.power.overTicks + 1 := by omega
  simp [offTick, ht, hbelow, hwait]

/-- A module in the tick with which its input has been above 84 V for 10 µs. -/
def overvolted : State := { State.reset with power := { PowerSt.reset with vin := 2, volts := 8401, overTicks := 10624 } }

/-- What becomes of `overvolted`: the tick disconnects it, then its input falls to 72 V. -/
def disconnected : State := vinChange 7200 0 (overTick overvolted)

theorem disconnected_pending : disconnected.pending = [] := by decide +kernel

/-- It is OFF, and has counted none of the 100 ms yet (R440). -/
theorem disconnected_power : disconnected.power = { PowerSt.reset with vin := 0, tripped := true } := by decide +kernel

theorem disconnected_off : disconnected.power.vin = 0 := by rw [disconnected_power]

/-- A step of `disconnected` counts a tick toward its restart. -/
theorem step_disconnected : step disconnected =
    .next { disconnected with power := { disconnected.power with overTicks := disconnected.power.overTicks + 1 } } := by
  have htripped : disconnected.power.tripped = true := by rw [disconnected_power]
  have hbelow : disconnected.power.volts < 8000 := by rw [disconnected_power]; decide
  have hwait : disconnected.power.overTicks + 1 < 106250000 := by rw [disconnected_power]; decide
  rw [step_of_pending_nil disconnected_pending, tick_of_off disconnected_off, offTick_of_tripped htripped hbelow hwait]

/-- Refutes O57: a module that an input above 84 V has disconnected is OFF, yet a tick below 80 V changes it, since it counts the
100 ms after which Muzomus restarts (R440, log 2, log 97). -/
theorem not_idleTick : ¬ Obligations.IdleTick := by
  unfold Obligations.IdleTick
  intro h
  have hstay : step disconnected = .next disconnected := (h disconnected disconnected_pending).1 disconnected_off
  rw [step_disconnected] at hstay
  have hcount : disconnected.power.overTicks + 1 = disconnected.power.overTicks :=
    congrArg (·.power.overTicks) (Host.Outcome.next.inj hstay)
  exact Nat.succ_ne_self _ hcount

end Sys2Proof.Machine.Laws

/-! PROOFS. Units that hold no command: what goes on by itself in such a module, and the statement about the bridge. -/

namespace Sys2Proof

/-! ### Tables -/

/-- What holds of every entry of a table and of what an unlisted key reads as holds of every read. -/
theorem SMap.get_of_forall {α : Type} {P : α → Prop} {d : Nat → α} {m : SMap α} {k : Nat} (h : ∀ x ∈ m, P x.2) (hd : P (d k)) :
    P (SMap.get d m k) := by
  induction m with
  | nil => exact hd
  | cons e m ih =>
    simp only [SMap.get]
    split
    · exact h e List.mem_cons_self
    · exact ih (fun x hx => h x (List.mem_cons_of_mem e hx))

/-- A write puts no entry in a table but its own. -/
theorem SMap.mem_set {α : Type} [DecidableEq α] {d : Nat → α} {m : SMap α} {k : Nat} {v : α} {e : Nat × α}
    (h : e ∈ SMap.set d m k v) : e = (k, v) ∨ e ∈ m := by
  unfold SMap.set at h
  split at h
  · exact Or.inr (SMap.mem_erase h)
  · exact SMap.mem_insert h

end Sys2Proof

namespace Sys2Proof.Machine

variable (s : State)

/-! ### Folds -/

/-- A fold whose steps all keep the start value ends with it. -/
theorem foldl_of_fixed {α β : Type} {f : β → α → β} {b : β} {l : List α} (h : ∀ a ∈ l, f b a = b) : l.foldl f b = b := by
  induction l with
  | nil => rfl
  | cons a l ih =>
    rw [List.foldl_cons, h a List.mem_cons_self]
    exact ih (fun x hx => h x (List.mem_cons_of_mem a hx))

theorem State.each_of_fixed {α : Type} {f : α → State → State} {l : List α} (h : ∀ a ∈ l, f a s = s) : s.each l f = s :=
  foldl_of_fixed h

/-! ### Fields of one bit -/

theorem State.flag_setFlag_same (b : Nat) (f : Fld) (v : Bool) (h : f.lo = f.hi := by decide) (hh : f.hi < 32 := by decide) :
    (s.setFlag b f v).flag b f = v := by
  unfold State.flag State.setFlag
  rw [State.fld_setFld_same s b _ f (Nat.le_of_eq h) hh, h, Nat.add_sub_cancel_left]
  cases v <;> rfl

theorem State.regN_setFld_ne (b v : Nat) (f : Fld) {o : Nat} (h : o ≠ b + f.off) : (s.setFld b f v).regN o = s.regN o :=
  State.regN_setRegN_ne s _ h

/-- A flag after a write of a field that shares no bit with it. -/
theorem State.flag_setFld_ne (b b' v : Nat) (f f' : Fld) (hd : b' + f'.off ≠ b + f.off ∨ f'.hi < f.lo ∨ f.hi < f'.lo)
    (h : f.lo ≤ f.hi + 1 := by decide) (hh : f.hi < 32 := by decide) : (s.setFld b f v).flag b' f' = s.flag b' f' := by
  unfold State.flag
  rw [State.fld_setFld_ne s b b' v f f' hd h hh]

/-- A flag after a write of one that shares no bit with it. -/
theorem State.flag_setFlag_ne (b b' : Nat) (v : Bool) (f f' : Fld) (hd : b' + f'.off ≠ b + f.off ∨ f'.hi < f.lo ∨ f.hi < f'.lo)
    (h : f.lo ≤ f.hi + 1 := by decide) (hh : f.hi < 32 := by decide) : (s.setFlag b f v).flag b' f' = s.flag b' f' :=
  State.flag_setFld_ne s b b' _ f f' hd h hh

/-! ### Units that hold no command -/

variable {s}

theorem unitsIdle_congr {t : State} (h : t.units = s.units) (hs : UnitsIdle s) : UnitsIdle t := by
  unfold UnitsIdle
  rw [h]
  exact hs

theorem q_of_unitsIdle (hs : UnitsIdle s) (u : Nat) : s.q u = [] :=
  SMap.get_of_forall (P := fun x : UnitSt => x.q = []) hs rfl

theorem unitsIdle_setQ_nil (hs : UnitsIdle s) (u : Nat) : UnitsIdle (s.setQ u []) := by
  intro x hx
  have hx : x ∈ SMap.set (fun _ => UnitSt.reset) s.units u { s.unit u with q := [] } := hx
  rcases SMap.mem_set hx with rfl | hx
  · rfl
  · exact hs x hx

theorem noteReady_of_unitsIdle (hs : UnitsIdle s) : noteReady s = s := by
  unfold noteReady
  refine State.each_of_fixed s (fun u _ => ?_)
  simp [q_of_unitsIdle hs u]

theorem askLenders_of_unitsIdle (hs : UnitsIdle s) : askLenders s = s := by
  unfold askLenders
  split
  · rfl
  · refine State.each_of_fixed s (fun u hu => ?_)
    simp [hs u hu]

theorem wakeStores_of_unitsIdle (hs : UnitsIdle s) : wakeStores s = s := by
  unfold wakeStores
  refine foldl_of_fixed (fun u hu => ?_)
  simp [hs u hu]

theorem pump_of_unitsIdle (hs : UnitsIdle s) : pump (s.units.foldl (fun n u => n + u.2.q.length) 0) s = s := by
  have hnone : s.units.foldl (fun n u => n + u.2.q.length) 0 = 0 := foldl_of_fixed (fun u hu => by simp [hs u hu])
  rw [hnone]
  rfl

variable (s)

/-! ### Tiles of the remote tier go to their lenders -/

/-- Sending the Tiles written here changes no register, unit, core or stream. -/
theorem sendDirty_field {β : Type} (g : State → β) (hsend : ∀ k t, g (sendTracked leaseUnit k t) = g t)
    (hdirty : ∀ t : State, g { t with tiers := { t.tiers with dirty := [] } } = g t) : g (sendDirty s) = g s := by
  have htile : ∀ t loc s, g (sendLeaseTile t loc s) = g s := fun t loc s => State.each_field s g _ (fun x s => hsend _ s) _
  unfold sendDirty
  split
  · rfl
  · refine (State.each_field _ g _ (fun x s => ?_) _).trans (hdirty s)
    split
    · exact State.when_field s g _ _ (htile _ _ s)
    · rfl

theorem sendDirty_frame :
    (sendDirty s).regs = s.regs ∧ (sendDirty s).units = s.units ∧ (sendDirty s).cores = s.cores ∧ (sendDirty s).streams = s.streams :=
  ⟨sendDirty_field s (·.regs) (fun _ _ => by simp [sendTracked]) (fun _ => rfl),
    sendDirty_field s (·.units) (fun _ _ => by simp [sendTracked]) (fun _ => rfl),
    sendDirty_field s (·.cores) (fun _ _ => by simp [sendTracked]) (fun _ => rfl),
    sendDirty_field s (·.streams) (fun _ _ => by simp [sendTracked]) (fun _ => rfl)⟩

/-- With no command in any unit nothing but writes to lenders goes on (log 5, log 38). -/
theorem settle_of_unitsIdle {s : State} (hs : UnitsIdle s) : settle s = sendDirty s := by
  obtain ⟨-, hunits, -⟩ := sendDirty_frame s
  have hidle : UnitsIdle (sendDirty s) := unitsIdle_congr hunits hs
  simp only [settle, noteReady_of_unitsIdle hidle, askLenders_of_unitsIdle hidle, wakeStores_of_unitsIdle hidle,
    pump_of_unitsIdle hidle]

/-! ### The bridge (R41) -/

/-- No command waits across the bridge: the dies' empty queues are written as they stand. -/
theorem abortAcross_of_unitsIdle {s : State} (hs : UnitsIdle s) :
    abortAcross s = (s.setQ (diePath 0) []).setQ (diePath 1) [] := by
  have h0 := unitsIdle_setQ_nil hs (diePath 0)
  have h1 := unitsIdle_setQ_nil h0 (diePath 1)
  unfold abortAcross
  simp only [State.each_cons, State.each_nil, q_of_unitsIdle hs, List.map_nil, q_of_unitsIdle h0]
  refine State.each_of_fixed _ (fun u _ => ?_)
  simp [q_of_unitsIdle h1 u]

/-- One die shows the bridge down (R43, log 166). -/
def showDown (d : Nat) (s : State) : State :=
  ((s.setFlag (dieTopPage d) Fld.DIE_BRG_STATUS.link_up false).setFlag (dieTopPage d) Fld.DIE_BRG_STATUS.replaying false).setFlag
    (dieTopPage d) Fld.DIE_BRG_STATUS.down true

theorem bridgeGoesDown_of_run {s : State} (hup : s.flag (dieTopPage 0) Fld.DIE_BRG_STATUS.link_up = true) (hrun : 16 ≤ replayRun s) :
    bridgeGoesDown s = settle (abortAcross (bridgeRecord { showDown 1 (showDown 0 s) with brgRun := [] })) := by
  unfold bridgeGoesDown
  rw [if_pos (by simp [hup, hrun])]
  rfl

theorem bridgeGoesDown_of_not {s : State} (h : s.flag (dieTopPage 0) Fld.DIE_BRG_STATUS.link_up = false ∨ replayRun s < 16) :
    bridgeGoesDown s = s := by
  unfold bridgeGoesDown
  refine if_neg ?_
  rcases h with h | h
  · simp [h]
  · simp [h]

/-- The status of its own die after `showDown`. -/
theorem flags_showDown_same (d : Nat) :
    (showDown d s).flag (dieTopPage d) Fld.DIE_BRG_STATUS.link_up = false ∧
    (showDown d s).flag (dieTopPage d) Fld.DIE_BRG_STATUS.down = true ∧
    (showDown d s).flag (dieTopPage d) Fld.DIE_BRG_STATUS.replaying = false := by
  refine ⟨?_, State.flag_setFlag_same _ _ _ _, ?_⟩
  · calc (showDown d s).flag (dieTopPage d) Fld.DIE_BRG_STATUS.link_up
      _ = ((s.setFlag (dieTopPage d) Fld.DIE_BRG_STATUS.link_up false).setFlag (dieTopPage d)
            Fld.DIE_BRG_STATUS.replaying false).flag (dieTopPage d) Fld.DIE_BRG_STATUS.link_up :=
          State.flag_setFlag_ne _ _ _ _ _ _ (Or.inr (by decide))
      _ = (s.setFlag (dieTopPage d) Fld.DIE_BRG_STATUS.link_up false).flag (dieTopPage d) Fld.DIE_BRG_STATUS.link_up :=
          State.flag_setFlag_ne _ _ _ _ _ _ (Or.inr (by decide))
      _ = false := State.flag_setFlag_same _ _ _ _
  · exact (State.flag_setFlag_ne _ _ _ _ _ _ (Or.inr (by decide))).trans (State.flag_setFlag_same _ _ _ _)

/-- Flags elsewhere stand. -/
theorem flag_showDown_ne {d b : Nat} {f : Fld} (h : b + f.off ≠ dieTopPage d + 0x84) : (showDown d s).flag b f = s.flag b f := by
  unfold showDown
  rw [State.flag_setFlag_ne _ _ _ _ _ _ (Or.inl h), State.flag_setFlag_ne _ _ _ _ _ _ (Or.inl h),
    State.flag_setFlag_ne _ _ _ _ _ _ (Or.inl h)]

theorem showDown_frame (d : Nat) :
    (showDown d s).units = s.units ∧ (showDown d s).cores = s.cores ∧ (showDown d s).streams = s.streams := by
  simp [showDown]

/-- Both dies show the bridge down. -/
theorem flags_showDown_both {d : Nat} (hd : d < 2) :
    let t := showDown 1 (showDown 0 s)
    t.flag (dieTopPage d) Fld.DIE_BRG_STATUS.link_up = false ∧ t.flag (dieTopPage d) Fld.DIE_BRG_STATUS.down = true ∧
    t.flag (dieTopPage d) Fld.DIE_BRG_STATUS.replaying = false := by
  rcases (by omega : d = 0 ∨ d = 1) with rfl | rfl
  · have hkeep : ∀ f : Fld, f.off = 0x84 →
        (showDown 1 (showDown 0 s)).flag (dieTopPage 0) f = (showDown 0 s).flag (dieTopPage 0) f :=
      fun f hf => flag_showDown_ne _ (by rw [hf]; decide)
    dsimp only
    rw [hkeep Fld.DIE_BRG_STATUS.link_up rfl, hkeep Fld.DIE_BRG_STATUS.down rfl, hkeep Fld.DIE_BRG_STATUS.replaying rfl]
    exact flags_showDown_same s 0
  · exact flags_showDown_same (showDown 0 s) 1

/-- A bridge that goes down while no unit holds a command changes the dies' status and leaves cores and streams alone. -/
theorem bridgeGoesDown_frame {s : State} (hs : UnitsIdle s) (hup : s.flag (dieTopPage 0) Fld.DIE_BRG_STATUS.link_up = true)
    (hrun : 16 ≤ replayRun s) :
    (bridgeGoesDown s).regs = (showDown 1 (showDown 0 s)).regs ∧ (bridgeGoesDown s).cores = s.cores ∧
    (bridgeGoesDown s).streams = s.streams := by
  have hrec : UnitsIdle (bridgeRecord { showDown 1 (showDown 0 s) with brgRun := [] }) :=
    unitsIdle_congr (by simp [bridgeRecord, showDown_frame]) hs
  rw [bridgeGoesDown_of_run hup hrun, abortAcross_of_unitsIdle hrec,
    settle_of_unitsIdle (unitsIdle_setQ_nil (unitsIdle_setQ_nil hrec _) _)]
  simp [sendDirty_frame, bridgeRecord, showDown_frame]

/-- The longest run of replays is kept in DIE_BRG_STATUS. -/
def noteRun (d : Nat) (s : State) : State :=
  s.setFld (dieTopPage d) Fld.DIE_BRG_STATUS.last_replay_run
    (max (s.fld (dieTopPage d) Fld.DIE_BRG_STATUS.last_replay_run) (min 255 (SMap.get (fun _ => 0) s.brgRun d)))

/-- A replay with its sender's and its receiver's counts (R43). -/
theorem bridgeReplay_eq (d : Nat) : bridgeReplay d s =
    noteRun d (((({ s with brgRun := SMap.set (fun _ => 0) s.brgRun d (SMap.get (fun _ => 0) s.brgRun d + 1) }).bump
      (dieTopPage d) 2 1).bump (dieTopPage (1 - d)) 3 1).setFlag (dieTopPage d) Fld.DIE_BRG_STATUS.replaying true) := by
  simp [bridgeReplay, noteRun, State.setFld, State.fld, Fld.DIE_BRG_STATUS.last_replay_run]

/-- The replay shows on its die: the run that is noted last shares no bit with `replaying`. -/
theorem flag_replaying_bridgeReplay (d : Nat) :
    (bridgeReplay d s).flag (dieTopPage d) Fld.DIE_BRG_STATUS.replaying = true := by
  rw [bridgeReplay_eq]
  exact (State.flag_setFld_ne _ _ _ _ _ _ (Or.inr (by decide))).trans (State.flag_setFlag_same _ _ _ _)

/-- Registers of the die pages but DIE_BRG_STATUS take the two counts of a replay. -/
theorem regN_bridgeReplay (d o : Nat) (h : o ≠ dieTopPage d + 0x84) :
    (bridgeReplay d s).regN o = (((s.bump (dieTopPage d) 2 1).bump (dieTopPage (1 - d)) 3 1)).regN o := by
  rw [bridgeReplay_eq]
  exact (State.regN_setFld_ne _ _ _ _ h).trans (State.regN_setFld_ne _ _ _ _ h)

theorem bridgeReplay_frame (d : Nat) :
    (bridgeReplay d s).brgRun = SMap.set (fun _ => 0) s.brgRun d (SMap.get (fun _ => 0) s.brgRun d + 1) ∧
    (bridgeReplay d s).mem = s.mem ∧ (bridgeReplay d s).units = s.units := by
  simp [bridgeReplay]

theorem exec_bridgeReplay_of_down {s : State} (h : s.flag (dieTopPage 0) Fld.DIE_BRG_STATUS.link_up = false) (d : Nat) :
    exec (.bridgeReplay d) s = .next s := by
  change execBridgeReplay d s = _
  simp [execBridgeReplay, h]

theorem exec_bridgeReplay_of_up {s : State} {d : Nat} (hd : d < 2) (hup : s.flag (dieTopPage 0) Fld.DIE_BRG_STATUS.link_up = true)
    (hrun : replayRun s < 16) : exec (.bridgeReplay d) s = .next (bridgeReplay d s) := by
  change execBridgeReplay d s = _
  simp [execBridgeReplay, hup, hrun, Nat.mod_eq_of_lt hd]

theorem exec_bridgeDown : exec .bridgeDown s = .next (bridgeGoesDown s) := rfl

end Sys2Proof.Machine

namespace Sys2Proof.Machine

/-- Settles O24: a replay writes its two counts, its run and DIE_BRG_STATUS alone; with no command in any unit the fall of the bridge
ends in writes to lenders, which change no register, core or stream (R41, logs 17 and 166). -/
theorem bridgeEvents : Obligations.BridgeEvents := by
  unfold Obligations.BridgeEvents
  intro s
  refine ⟨fun hdown => ⟨exec_bridgeReplay_of_down hdown, ?noBridge⟩,
    fun hup => ⟨fun hrun => ?tooFew, fun d hd hrun => ?replay, fun hidle hrun => ?falls⟩⟩
  case noBridge =>
    rw [exec_bridgeDown, bridgeGoesDown_of_not (Or.inl hdown)]
  case tooFew =>
    rw [exec_bridgeDown, bridgeGoesDown_of_not (Or.inr hrun)]
  case replay =>
    obtain ⟨hbrg, hmem, hunits⟩ := bridgeReplay_frame s d
    refine ⟨_, exec_bridgeReplay_of_up hd hup hrun, flag_replaying_bridgeReplay s d, ?sender, ?receiver,
      by rw [hbrg, SMap.get_set_same], hmem, hunits⟩
    case sender =>
      have hother : dieTopPage d + 0x38 ≠ dieTopPage (1 - d) + 0x30 + 4 * 3 := by simp only [dieTopPage, dieWin]; omega
      rw [regN_bridgeReplay s d _ (by omega), regN_bump, if_neg hother, regN_bump, if_pos rfl]
    case receiver =>
      have hown : dieTopPage (1 - d) + 0x3C ≠ dieTopPage d + 0x84 := by simp only [dieTopPage, dieWin]; omega
      have hother : dieTopPage (1 - d) + 0x30 + 4 * 3 ≠ dieTopPage d + 0x30 + 4 * 2 := by simp only [dieTopPage, dieWin]; omega
      rw [regN_bridgeReplay s d _ hown, regN_bump, if_pos rfl, regN_bump, if_neg hother]
  case falls =>
    obtain ⟨hregs, hcores, hstreams⟩ := bridgeGoesDown_frame hidle hup hrun
    refine ⟨_, exec_bridgeDown s, hcores, hstreams, fun d hd => ?_⟩
    simp only [State.flag_congr hregs]
    exact flags_showDown_both s hd

end Sys2Proof.Machine

/-! PROOFS. Folio space with no region mapped, what a packet finds that has passed its first checks, and the statement about the
packets of commands. -/

namespace Sys2Proof.Machine

/-! ### Bytes -/

/-- Reads of bytes see only the memory. -/
theorem State.bytes_congr {s t : State} (h : t.mem = s.mem) (a n : Nat) : t.bytes a n = s.bytes a n := by
  induction n generalizing a with
  | zero => rfl
  | succ n ih => rw [State.bytes, State.bytes, ih, State.byte_congr h]

/-- Bytes read back as they were written. -/
theorem State.bytes_setBytes_same (s : State) (a : Nat) (l : List (BitVec 8)) : (s.setBytes a l).bytes a l.length = l := by
  induction l generalizing s a with
  | nil => rfl
  | cons v l ih =>
    rw [List.length_cons, State.bytes, State.setBytes, ih, State.byte_setBytes_out _ _ _ _ (Or.inl (Nat.lt_succ_self a)),
      State.byte_setByte_same]

theorem badIn_of_le {s : State} {a m n : Nat} (hmn : m ≤ n) (h : s.badIn a n = false) : s.badIn a m = false := by
  simp only [State.badIn, List.any_eq_false, Bool.and_eq_true, decide_eq_true_eq] at h ⊢
  rintro e he ⟨⟨hlo, hhi⟩, hmark⟩
  exact h e he ⟨⟨hlo, by omega⟩, hmark⟩

/-! ### Folio space with no region mapped -/

section NoRegions

variable {s : State} (hr : s.tiers.regions = [])
include hr

theorem tileAt_of_noRegions (a : Nat) : tileAt s a = none := by
  unfold tileAt State.region
  rw [hr]
  split <;> rfl

theorem regionTiles_of_noRegions (a n : Nat) : regionTiles s a n = [] := by
  have hwalk : ∀ k a fin, tilesIn s a fin k = [] := by
    intro k
    induction k with
    | zero => exact fun _ _ => rfl
    | succ k ih =>
      intro a fin
      simp only [tilesIn, tileAt_of_noRegions hr, ih, ite_self]
  exact hwalk _ _ _

theorem exactTile_of_noRegions (a n : Nat) : exactTile s a n = none := by
  simp only [exactTile, tileAt_of_noRegions hr]

theorem physKey_of_noRegions (a : Nat) : physKey s a = a := by
  simp only [physKey, tileAt_of_noRegions hr]

theorem folioBytes_of_noRegions (a n : Nat) : folioBytes s a n = s.bytes a n := by
  induction n generalizing a with
  | zero => rfl
  | succ n ih => simp only [folioBytes, State.bytes, ih, folioByte, tileAt_of_noRegions hr]

theorem setFolioBytes_of_noRegions (a : Nat) (l : List (BitVec 8)) : setFolioBytes a l s = s.setBytes a l := by
  induction l generalizing s a with
  | nil => rfl
  | cons v l ih =>
    have hr' : (s.setByte a v).tiers.regions = [] := hr
    rw [setFolioBytes, setFolioByte, physKey_of_noRegions hr, ih hr', State.setBytes]

theorem sleepingStore_of_noRegions (a n : Nat) : sleepingStore s a n = none := by
  simp only [sleepingStore, regionTiles_of_noRegions hr, List.filter_nil, List.findSome?_nil]

theorem tileAccess_of_noRegions (p : Nat) (pkt : Packet) (i : Instr) (a n : Nat) (act : State → State) :
    tileAccess p pkt i a n act s = act s := by
  simp only [tileAccess, sleepingStore_of_noRegions hr]

/-- A write waits for no move, and for no unit of a Cask where none is pending. -/
theorem mustWait_of_noRegions (hc : s.cask.pend = []) (a n : Nat) : mustWait s a n = false := by
  simp [mustWait, transitIn, pendingIn, regionTiles_of_noRegions hr, hc]

theorem remoteWaits_of_noRegions (a n : Nat) : remoteWaits s a n = false := by
  simp [remoteWaits, regionTiles_of_noRegions hr]

theorem readOver_of_noRegions (a n : Nat) : readOver a n s = s := by
  have hkept : s.tiers.fetches.filter
      (fun f => !(f.left == 0 && (regionTiles s a n).any (fun t => t.id == f.region && t.j == f.tile))) = s.tiers.fetches := by
    refine List.filter_eq_self.2 (fun f _ => ?_)
    rw [regionTiles_of_noRegions hr, List.any_nil, Bool.and_false, Bool.not_false]
  unfold readOver
  split
  · rfl
  · exact congrArg (fun l => { s with tiers := { s.tiers with fetches := l } }) hkept

/-- Mapped bytes pass checks 6 and 7. -/
theorem folioCheck_of_noRegions {pkt : Packet} (hm : unmappedIn s pkt.addr (pktLen pkt) = none) : folioCheck s pkt = none := by
  simp [folioCheck, jobDiffers, regionTiles_of_noRegions hr, hm]

/-- A read of good bytes of the fixed range fails nowhere. -/
theorem readFail_of_noRegions {a n : Nat} (hb : s.badIn a n = false) : readFail s a n = none := by
  simp only [readFail, List.findSome?_eq_none_iff, partsOf, regionTiles_of_noRegions hr, List.map_nil, List.append_nil]
  intro part hpart
  split at hpart
  · obtain rfl := List.mem_singleton.1 hpart
    simp [partFail, tileAt_of_noRegions hr, badIn_of_le (Nat.min_le_left n _) hb]
  · exact absurd hpart List.not_mem_nil

end NoRegions

/-! ### Reads that correct -/

theorem countEcc_tiers (pl i : Nat) (s : State) : (countEcc pl i s).tiers = s.tiers := by
  unfold countEcc
  split
  · exact State.bump_tiers s _ _ _
  · split
    · exact State.bump_tiers s _ _ _
    · split
      · exact State.bump_tiers s _ _ _
      · split
        · rfl
        · split <;> rfl

/-- Correcting words moves no Tile. -/
theorem correctRead_tiers (a n : Nat) (s : State) : (correctRead a n s).tiers = s.tiers := by
  refine State.each_field s (·.tiers) _ (fun part s => ?_) _
  exact State.each_field s (·.tiers) _ (fun w s => countEcc_tiers _ 0 (s.setEcc (w * 8) 0)) _

/-- With no region mapped a read from outside the engines does no more than correct. -/
theorem readDone_of_noRegions {s : State} (hr : s.tiers.regions = []) (a n : Nat) : readDone a n s = correctRead a n s := by
  have hr' : (correctRead a n s).tiers.regions = [] := by rw [correctRead_tiers, hr]
  simp only [readDone, touch, promoteAt, regionTiles_of_noRegions hr, State.each_nil, regionTiles_of_noRegions hr']

theorem readOver_readDone_of_noRegions {s : State} (hr : s.tiers.regions = []) (a n : Nat) :
    readOver a n (readDone a n s) = readDone a n s := by
  rw [readDone_of_noRegions hr]
  exact readOver_of_noRegions (by rw [correctRead_tiers, hr]) a n

/-! ### Writes of a packet's data -/

/-- Fresh check bits are all that `freshEcc` writes. -/
theorem freshEcc_field {β : Type} (s : State) (g : State → β) (h : ∀ k n t, g (cleanEcc k n t) = g t) (a n : Nat) :
    g (freshEcc a n s) = g s :=
  State.each_field s g _ (fun _ _ => h _ _ _) _

theorem writeFolio_of_noRegions {s : State} (hr : s.tiers.regions = []) (a : Nat) (l : List (BitVec 8)) :
    writeFolio a l s = freshEcc a l.length (s.setBytes a l) := by
  simp only [writeFolio, regionTiles_of_noRegions hr, List.foldl_nil, setFolioBytes_of_noRegions hr]

/-- A write to Folio space with no region mapped changes memory and check bits alone. -/
theorem writeFolio_field {β : Type} {s : State} (hr : s.tiers.regions = []) (g : State → β)
    (hecc : ∀ k n t, g (cleanEcc k n t) = g t) (hmem : ∀ b v t, g (State.setByte t b v) = g t) (a : Nat) (l : List (BitVec 8)) :
    g (writeFolio a l s) = g s := by
  have hbytes : ∀ l a t, g (State.setBytes t a l) = g t := by
    intro l
    induction l with
    | nil => exact fun _ _ => rfl
    | cons v l ih => exact fun a t => (ih (a + 1) _).trans (hmem a v t)
  rw [writeFolio_of_noRegions hr, freshEcc_field _ g hecc, hbytes]

theorem writeFolio_mem {s : State} (hr : s.tiers.regions = []) (a : Nat) (l : List (BitVec 8)) :
    (writeFolio a l s).mem = (s.setBytes a l).mem := by
  rw [writeFolio_of_noRegions hr]
  exact freshEcc_field _ (·.mem) (fun _ _ _ => rfl) _ _

/-- With no region mapped a write that leaves no bad word in part is a plain write: no Tile to allocate, none to settle. -/
theorem applyWrite_of_noRegions {s : State} (hr : s.tiers.regions = []) (pkt : Packet) {a : Nat} {data : List (BitVec 8)}
    (hb : partialBad s a data.length = false) : applyWrite pkt a data s = .ok (writeFolio a data s) := by
  have hr' : (writeFolio a data s).tiers.regions = [] :=
    (writeFolio_field hr (·.tiers.regions) (fun _ _ _ => rfl) (fun _ _ _ => rfl) a data).trans hr
  simp [applyWrite, regionTiles_of_noRegions hr, allocTiles, hb, exactTile_of_noRegions hr']

/-! ### Packets that are delivered -/

/-- What a packet's departure leaves alone: all but the buffers that it waited in. -/
theorem takeIn_field {β : Type} (s : State) (g : State → β) (hport : ∀ p x, g (s.setPort p x) = g s)
    (hloop : ∀ l, g { s with loop := l } = g s) (p : Nat) (pkt : Packet) : g (takeIn p pkt s) = g s := by
  unfold takeIn
  split
  · dsimp only
    split
    · exact hport _ _
    · rfl
  · exact hloop _

theorem delivered_frame (s : State) (p : Nat) (pkt : Packet) :
    (delivered s p pkt).regs = (s.bump routePage 0 1).regs ∧ (delivered s p pkt).mem = s.mem ∧ (delivered s p pkt).tiers = s.tiers ∧
    (delivered s p pkt).units = s.units ∧ (delivered s p pkt).ctxs = s.ctxs ∧ (delivered s p pkt).outst = s.outst ∧
    (delivered s p pkt).gov = s.gov := by
  have hregs : (takeIn p pkt s).regs = s.regs := takeIn_field s (·.regs) (fun _ _ => rfl) (fun _ => rfl) p pkt
  refine ⟨?_, takeIn_field s (·.mem) (fun _ _ => rfl) (fun _ => rfl) p pkt,
    takeIn_field s (·.tiers) (fun _ _ => rfl) (fun _ => rfl) p pkt,
    takeIn_field s (·.units) (fun _ _ => rfl) (fun _ => rfl) p pkt, takeIn_field s (·.ctxs) (fun _ _ => rfl) (fun _ => rfl) p pkt,
    takeIn_field s (·.outst) (fun _ _ => rfl) (fun _ => rfl) p pkt, takeIn_field s (·.gov) (fun _ _ => rfl) (fun _ => rfl) p pkt⟩
  simp only [delivered, State.bump, State.setRegN, State.setReg, State.regN_congr hregs, hregs]

theorem receive_of_wellArrived {s : State} {p : Nat} {pkt : Packet} {ty : Nat} (h : WellArrived s p pkt ty) (mine : State → State) :
    receive ty p pkt mine s = mine s := by
  obtain ⟨htype, harrived, hform, hlen, hdest⟩ := h
  subst htype
  simp [receive, harrived, hform, hlen, hdest]

theorem deliverOrStop_of_running {s : State} (hs : s.stopped = false) (p : Nat) (pkt : Packet) (act : State → State) :
    deliverOrStop p pkt act s = act (delivered s p pkt) := by
  simp only [deliverOrStop, hs, Bool.false_eq_true, if_false]
  rfl

/-- The data of a packet that carries all of its bytes. -/
theorem length_of_wellArrived {s : State} {p : Nat} {pkt : Packet} {ty : Nat} (h : WellArrived s p pkt ty)
    (hty : ty ≠ ptReadReq ∧ ty ≠ ptBgReadReq) : pkt.data.length = 16 * pkt.len16 := by
  obtain ⟨htype, -, -, hlen, -⟩ := h
  simp [hlen, data16, htype, hty]

/-- The state in which a packet's data are stored at `a` and the packet has been delivered. -/
def stored (s : State) (p : Nat) (pkt : Packet) (a : Nat) : State := delivered (writeFolio a pkt.data s) p pkt

/-- It holds the data at their place; other bytes and the registers are those of the delivery alone. -/
theorem stored_spec {s : State} (hr : s.tiers.regions = []) (p : Nat) (pkt : Packet) (a : Nat) :
    (stored s p pkt a).bytes a pkt.data.length = pkt.data ∧
    (∀ b, b < a ∨ a + pkt.data.length ≤ b → (stored s p pkt a).byte b = s.byte b) ∧
    (stored s p pkt a).regs = (delivered s p pkt).regs ∧ (stored s p pkt a).units = s.units ∧ (stored s p pkt a).ctxs = s.ctxs ∧
    (stored s p pkt a).outst = s.outst := by
  obtain ⟨hregs, hmem, -, hunits, hctxs, houtst, -⟩ := delivered_frame (writeFolio a pkt.data s) p pkt
  obtain ⟨hcount, -⟩ := delivered_frame s p pkt
  have hm : (stored s p pkt a).mem = (s.setBytes a pkt.data).mem := hmem.trans (writeFolio_mem hr a pkt.data)
  have hf : ∀ {β : Type} (g : State → β), (∀ k n t, g (cleanEcc k n t) = g t) → (∀ b v t, g (State.setByte t b v) = g t) →
      g (writeFolio a pkt.data s) = g s := fun g hecc hbyte => writeFolio_field hr g hecc hbyte a pkt.data
  have hregs' : (writeFolio a pkt.data s).regs = s.regs := hf (·.regs) (fun _ _ _ => rfl) (fun _ _ _ => rfl)
  refine ⟨(State.bytes_congr hm _ _).trans (State.bytes_setBytes_same s a pkt.data), fun b hb => ?_, ?_,
    hunits.trans (hf (·.units) (fun _ _ _ => rfl) (fun _ _ _ => rfl)), hctxs.trans (hf (·.ctxs) (fun _ _ _ => rfl) (fun _ _ _ => rfl)),
    houtst.trans (hf (·.outst) (fun _ _ _ => rfl) (fun _ _ _ => rfl))⟩
  · rw [State.byte_congr hm, State.byte_setBytes_out s a b pkt.data hb]
  · rw [stored, hregs, hcount]
    simp only [State.bump, State.setRegN, State.setReg, State.regN_congr hregs', hregs']

/-! ### One packet of each type -/

section Arrivals

variable {s : State} {p : Nat} {pkt : Packet}

/-- A packet that passed its first checks is met by what its type does from check 6 on. -/
theorem exec_of_wellArrived {i : Instr} {ty : Nat} {mine : State → State} (hi : exec i s = .next (receive ty p pkt mine s))
    (hw : WellArrived s p pkt ty) : exec i s = .next (mine s) := by
  rw [hi, receive_of_wellArrived hw]

/-- A WRITE to mapped bytes is stored, then acknowledged (R303). -/
theorem exec_writeRx_stores (hr : s.tiers.regions = []) (hs : s.stopped = false) (hc : s.cask.pend = [])
    (hw : WellArrived s p pkt ptWrite) (hexp : pkt.sub % 4 = 0) (hm : unmappedIn s pkt.addr (pktLen pkt) = none)
    (hb : partialBad s pkt.addr (pktLen pkt) = false) :
    exec (.writeRx p pkt) s = .next (sendPacket (ackOf (stored s p pkt pkt.addr) pkt) (stored s p pkt pkt.addr)) := by
  have hlen : pkt.data.length = pktLen pkt := length_of_wellArrived hw (by decide)
  rw [exec_of_wellArrived (i := .writeRx p pkt) rfl hw]
  simp only [writeMine, folioCheck_of_noRegions hr hm, hexp, bne_self_eq_false, Bool.false_and, Bool.false_eq_true, if_false, hs,
    mustWait_of_noRegions hr hc, tileAccess_of_noRegions hr, applyWrite_of_noRegions hr pkt (hlen ▸ hb)]
  rfl

/-- A request of mapped bytes with no versions is served at once. -/
theorem readMine_of_noRegions (hr : s.tiers.regions = []) (hv : bit pkt.sub 0 = false)
    (hm : unmappedIn s pkt.addr (pktLen pkt) = none) (i : Instr) :
    readMine p pkt i s = serveRead p pkt pkt.layoutGen false s := by
  simp only [readMine, folioCheck_of_noRegions hr hm, remoteWaits_of_noRegions hr, tileAccess_of_noRegions hr, hv,
    Bool.false_eq_true, if_false]

/-- Good bytes of the fixed range are what a request is answered with. -/
theorem serveRead_of_noRegions (hr : s.tiers.regions = []) (hb : s.badIn pkt.addr (pktLen pkt) = false) (gen : Nat) :
    serveRead p pkt gen false s = readDone pkt.addr (pktLen pkt)
      (sendPacket (respOf (delivered s p pkt) pkt (s.bytes pkt.addr (pktLen pkt)) gen 0) (delivered s p pkt)) := by
  obtain ⟨-, hmem, htiers, -⟩ := delivered_frame s p pkt
  have hrd : (delivered s p pkt).tiers.regions = [] := by rw [htiers, hr]
  have hbytes : folioBytes (delivered s p pkt) pkt.addr (pktLen pkt) = s.bytes pkt.addr (pktLen pkt) :=
    (folioBytes_of_noRegions hrd _ _).trans (State.bytes_congr hmem _ _)
  simp only [serveRead, readFail_of_noRegions hr hb, exactTile_of_noRegions hr, Bool.false_eq_true, if_false]
  change readOver _ _ (readDone _ _ (sendPacket (respOf (delivered s p pkt) pkt (folioBytes (delivered s p pkt) _ _) gen 0)
    (delivered s p pkt))) = _
  rw [hbytes, readOver_readDone_of_noRegions (by simp [hrd])]

/-- A READ_REQ of good mapped bytes is answered with them (R303); the read corrects what it can (R263). -/
theorem exec_readReqRx_answers (hr : s.tiers.regions = []) (hw : WellArrived s p pkt ptReadReq) (hv : bit pkt.sub 0 = false)
    (hm : unmappedIn s pkt.addr (pktLen pkt) = none) (hb : s.badIn pkt.addr (pktLen pkt) = false) :
    exec (.readReqRx p pkt) s = .next (readDone pkt.addr (pktLen pkt)
      (sendPacket (respOf (delivered s p pkt) pkt (s.bytes pkt.addr (pktLen pkt)) pkt.layoutGen 0) (delivered s p pkt))) := by
  rw [exec_of_wellArrived (i := .readReqRx p pkt) rfl hw, readMine_of_noRegions hr hv hm, serveRead_of_noRegions hr hb]

/-- The answer of a gather is stored where the gather places it, and settled (R325). -/
theorem exec_readRespRx_stores (hr : s.tiers.regions = []) (hc : s.cask.pend = []) {o : Outst} {a : Nat}
    (hw : WellArrived s p pkt ptReadResp) (ho : answered s pkt [ptReadReq, ptBgReadReq] = some o) (hl : o.unit ≠ leaseUnit)
    (hres : o.unit ≠ restoreUnit) (hj : (s.stream o.stream).job = pkt.job) (hg : gatherOf s o (pktLen pkt) = some a)
    (hexp : pkt.sub % 4 = 0) (hb : partialBad s a (pktLen pkt) = false) :
    exec (.readRespRx p pkt) s = .next (settleAnswer o [] (stored s p pkt a)) := by
  have hlen : pkt.data.length = pktLen pkt := length_of_wellArrived hw (by decide)
  rw [exec_of_wellArrived (i := .readRespRx p pkt) rfl hw]
  simp only [respMine, ho, hl, hres, hj, hg, hexp, decide_false, Bool.or_false, bne_self_eq_false, Bool.false_and, Bool.false_eq_true,
    if_false, mustWait_of_noRegions hr hc, sleepingStore_of_noRegions hr, applyWrite_of_noRegions hr pkt (hlen ▸ hb)]
  rfl

/-- The answer of a move, of a read from a lender or of a restore brings it its data (R262, R394). -/
theorem exec_readRespRx_brings {o : Outst} (hw : WellArrived s p pkt ptReadResp)
    (ho : answered s pkt [ptReadReq, ptBgReadReq] = some o) (hu : o.unit = leaseUnit ∨ o.unit = restoreUnit) :
    exec (.readRespRx p pkt) s = .next (settleAnswer o pkt.data (delivered s p pkt)) := by
  rw [exec_of_wellArrived (i := .readRespRx p pkt) rfl hw]
  simp only [respMine, ho]
  rw [if_pos (by simpa using hu)]
  rfl

/-- An answer that meets no request has no effect (R309). -/
theorem exec_readRespRx_unmet (hw : WellArrived s p pkt ptReadResp) (ho : answered s pkt [ptReadReq, ptBgReadReq] = none) :
    exec (.readRespRx p pkt) s = .next (delivered s p pkt) := by
  rw [exec_of_wellArrived (i := .readRespRx p pkt) rfl hw]
  simp only [respMine, ho]
  rfl

/-- A contribution that applies is added and acknowledged (R334). -/
theorem exec_accumRx_adds (hs : s.stopped = false) (hc : s.cask.pend = []) (hw : WellArrived s p pkt ptAccum)
    (harm : (s.ctx (accCtx pkt)).armed = true) (hj : (s.ctx (accCtx pkt)).job = pkt.job) (ho : accOutcome s pkt = .apply) :
    exec (.accumRx p pkt) s =
      .next (sendPacket (ackOf (delivered s p pkt) pkt) (noteReady (accApply pkt (delivered s p pkt)))) := by
  have hpend : ∀ a n, pendingIn s a n = false := fun a n => by simp [pendingIn, hc]
  rw [exec_of_wellArrived (i := .accumRx p pkt) rfl hw]
  simp only [accumMine, harm, hj, ho, hs, hpend, bne_self_eq_false, Bool.and_false, Bool.not_true, Bool.false_eq_true, if_false]
  rfl

/-- An ACK settles the request that it names (R309). -/
theorem exec_ackRx_settles {o : Outst} (hw : WellArrived s p pkt ptAck) (ho : answered s pkt [ptWrite, ptAccum, ptBgWrite] = some o) :
    exec (.ackRx p pkt) s = .next (settleAnswer o [] (delivered s p pkt)) := by
  rw [exec_of_wellArrived (i := .ackRx p pkt) rfl hw]
  simp only [ackMine, ho]
  rfl

theorem exec_errorRx (hw : WellArrived s p pkt ptError) :
    exec (.errorRx p pkt) s = .next (errorMine pkt (delivered s p pkt)) :=
  exec_of_wellArrived (mine := deliver p pkt (errorMine pkt)) rfl hw

/-- An ERROR with a code that no module reports, or for a packet of no command, is counted (R10, R309, log 157). -/
theorem errorMine_counts
    (h : bits pkt.addr 7 0 = 0 ∨ 0x15 < bits pkt.addr 7 0 ∨
      bits pkt.addr 11 8 ∉ [ptWrite, ptReadReq, ptAccum, ptBgWrite, ptBgReadReq])
    (hl : bits pkt.addr 11 8 ≠ ptLease ∨ bits pkt.addr 7 0 ≠ 0x12) :
    errorMine pkt s = raiseEv routePage 2 (s.bump routePage 4 1) := by
  have hcode : (packetCode (bits pkt.addr 7 0) &&
      [ptWrite, ptReadReq, ptAccum, ptBgWrite, ptBgReadReq].contains (bits pkt.addr 11 8)) = false := by
    rw [Bool.and_eq_false_iff, packetCode, List.contains_eq_mem, decide_eq_false_iff_not]
    rcases h with h | h | h
    · exact Or.inl (by simp [h])
    · exact Or.inl (by simp [Nat.not_le.2 h])
    · exact Or.inr h
  have hknown : (decide (bits pkt.addr 11 8 = ptLease) && decide (bits pkt.addr 7 0 = stAddress)) = false := by
    rcases hl with h | h
    · simp [h]
    · simp [stAddress, h]
  simp only [errorMine, hcode, Bool.false_eq_true, if_false, leaseUnknown, hknown, Bool.false_and]

/-- An ERROR ends the command whose packet it names (R309). -/
theorem errorMine_meets {o : Outst} (hlo : 1 ≤ bits pkt.addr 7 0) (hhi : bits pkt.addr 7 0 ≤ 0x15)
    (hty : bits pkt.addr 11 8 ∈ [ptWrite, ptReadReq, ptAccum, ptBgWrite, ptBgReadReq])
    (ho : s.outst.find? (fun o => o.stream == pkt.stream && o.seq == pkt.seq && o.type == bits pkt.addr 11 8) = some o) :
    errorMine pkt s = errorMeets o (bits pkt.addr 7 0) (bits pkt.addr 23 12) s := by
  simp only [errorMine, packetCode, hlo, hhi, decide_true, Bool.and_self, List.contains_eq_mem, hty, if_true, ho]

/-- A TOKEN goes into the token network and on to its unit (R39, R303). -/
theorem exec_tokenRx_arrives (hs : s.stopped = false) (hw : WellArrived s p pkt ptToken) (hj : (s.stream pkt.stream).job = pkt.job)
    (hv : validPath pkt.target = true) :
    exec (.tokenRx p pkt) s = .next (applyToken pkt (delivered s p pkt)) := by
  rw [exec_of_wellArrived (i := .tokenRx p pkt) rfl hw]
  simp only [tokenMine, hj, hv, bne_self_eq_false, Bool.not_true, Bool.false_eq_true, if_false, deliverOrStop_of_running hs]

/-- A CREDIT goes into the token network and on to its unit (R39, R303). -/
theorem exec_creditRx_arrives (hs : s.stopped = false) (hw : WellArrived s p pkt ptCredit) (hv : validPath pkt.target = true) :
    exec (.creditRx p pkt) s = .next (applyCredit pkt (delivered s p pkt)) := by
  rw [exec_of_wellArrived (i := .creditRx p pkt) rfl hw]
  simp only [creditMine, hv, Bool.not_true, Bool.false_eq_true, if_false, deliverOrStop_of_running hs]

theorem exec_govRx (hw : WellArrived s p pkt ptGov) : exec (.govRx p pkt) s = .next (govMine pkt (delivered s p pkt)) :=
  exec_of_wellArrived (mine := deliver p pkt (govMine pkt)) rfl hw

/-- A delivery does not touch the governor's step. -/
theorem ptgStep_delivered : ptgStep (delivered s p pkt) = ptgStep s := by
  obtain ⟨hregs, -⟩ := delivered_frame s p pkt
  unfold ptgStep
  rw [State.fld_congr hregs, fld_bump s (by decide)]

theorem govMine_otherStep (h : leNat (pkt.data.take 4) ≠ ptgStep s) :
    govMine pkt s = s.setRegN (govPage + 0xCC) ((s.regN (govPage + 0xCC) + 1) % 2 ^ 32) := by
  simp only [govMine, List.drop_zero, bne_iff_ne, ne_eq, h, not_false_eq_true, if_true]

theorem govMine_thisStep (h : leNat (pkt.data.take 4) = ptgStep s) :
    ∃ recs ovf last, (govMine pkt s).gov.peers = addPeer pkt.src ovf last recs s.gov.peers ∧ (govMine pkt s).regs = s.regs ∧
      (govMine pkt s).mem = s.mem := by
  simp only [govMine, List.drop_zero, h, bne_self_eq_false, Bool.false_eq_true, if_false, and_true]
  exact ⟨_, _, _, rfl⟩

theorem grantOf_delivered : grantOf (delivered s p pkt) pkt = grantOf s pkt := by
  obtain ⟨-, -, htiers, -⟩ := delivered_frame s p pkt
  unfold grantOf
  rw [htiers]

/-- A BG_WRITE of a lease is stored in the lent space and acknowledged (R260, R303). -/
theorem exec_bgWriteRx_lends (hs : s.stopped = false) {g : Grant} (hw : WellArrived s p pkt ptBgWrite) (hl : pkt.lease = 1)
    (hg : grantOf s pkt = some g) :
    exec (.bgWriteRx p pkt) s = .next (sendPacket (ackOf (delivered s p pkt) pkt)
      (cleanEcc (g.key + pkt.addr) pkt.data.length ((delivered s p pkt).setBytes (g.key + pkt.addr) pkt.data))) := by
  rw [exec_of_wellArrived (i := .bgWriteRx p pkt) rfl hw]
  simp only [bgWriteMine, hl, hg, Option.isSome_some, if_true, deliverOrStop_of_running hs, bgApply, grantOf_delivered]

theorem exec_bgReadReqRx_lent {g : Grant} (hw : WellArrived s p pkt ptBgReadReq) (hl : pkt.lease = 1) (hg : grantOf s pkt = some g) :
    exec (.bgReadReqRx p pkt) s = .next (lentRead p pkt g s) := by
  rw [exec_of_wellArrived (i := .bgReadReqRx p pkt) rfl hw]
  simp only [bgReadMine, hl, if_true, hg]

/-- Good lent bytes are what a BG_READ_REQ is answered with (R260, R263). -/
theorem lentRead_answers {g : Grant} (hb : markedWords s (g.key + pkt.addr) (pktLen pkt) 2 = []) :
    lentRead p pkt g s = sendPacket
      (respOf (delivered s p pkt) pkt ((delivered s p pkt).bytes (g.key + pkt.addr) (pktLen pkt)) pkt.layoutGen 0)
      (lentCorrect g pkt.addr (pktLen pkt) (delivered s p pkt)) := by
  simp only [lentRead, hb]
  rfl

/-- An uncorrectable lent word refuses the request (R265). -/
theorem lentRead_refuses {g : Grant} {w : Nat} {ws : List Nat} (hb : markedWords s (g.key + pkt.addr) (pktLen pkt) 2 = w :: ws) :
    lentRead p pkt g s = refusePkt p pkt stEcc (lentBad g w s) := by
  simp only [lentRead, hb]

end Arrivals

end Sys2Proof.Machine

namespace Sys2Proof.Machine

/-- Settles O35: each type of packet by its own lemma; with no region mapped Folio space is plain memory, so that nothing waits,
sleeps or is allocated, and what is delivered differs only in its buffer and in the count of deliveries. -/
theorem packetsServed : Obligations.PacketsServed := by
  unfold Obligations.PacketsServed
  intro s p pkt hr hs hc
  obtain ⟨-, hmem, -, -, -, houtst, hgov⟩ := delivered_frame s p pkt
  refine ⟨fun hw hexp hm hb => ?write, exec_readReqRx_answers hr, fun o a hw ho hl hres hj hg hexp hb => ?gather,
    fun o => exec_readRespRx_brings, exec_readRespRx_unmet, exec_accumRx_adds hs hc, fun o => exec_ackRx_settles,
    fun hw => ⟨fun h hl => ?counted, fun o hlo hhi hty ho => ?ends⟩, exec_tokenRx_arrives hs, exec_creditRx_arrives hs,
    fun hw => ⟨fun h => ?otherStep, fun h => ?thisStep⟩, fun g => exec_bgWriteRx_lends hs,
    fun g hw hl hg => ⟨fun hb => ?lent, fun w ws hb => ?refused⟩⟩
  case write =>
    obtain ⟨hdata, hout, hregs, hunits, hctxs, -⟩ := stored_spec hr p pkt pkt.addr
    have hlen := length_of_wellArrived hw (by decide)
    rw [hlen] at hdata hout
    exact ⟨_, exec_writeRx_stores hr hs hc hw hexp hm hb, hdata, hout, hregs, hunits, hctxs⟩
  case gather =>
    obtain ⟨hdata, hout, hregs, hunits, -, hwaits⟩ := stored_spec hr p pkt a
    have hlen := length_of_wellArrived hw (by decide)
    rw [hlen] at hdata hout
    exact ⟨_, exec_readRespRx_stores hr hc hw ho hl hres hj hg hexp hb, hdata, hout, hregs, hunits, hwaits⟩
  case counted =>
    rw [exec_errorRx hw, errorMine_counts h hl]
  case ends =>
    rw [exec_errorRx hw, errorMine_meets hlo hhi hty (houtst ▸ ho)]
  case otherStep =>
    rw [exec_govRx hw, govMine_otherStep (by rwa [ptgStep_delivered])]
  case thisStep =>
    obtain ⟨recs, ovf, last, hpeers, hregs, hmem'⟩ := govMine_thisStep (s := delivered s p pkt) (by rwa [ptgStep_delivered])
    exact ⟨_, recs, ovf, last, exec_govRx hw, by rw [hpeers, hgov], hregs, hmem'.trans hmem⟩
  case lent =>
    rw [exec_bgReadReqRx_lent hw hl hg, lentRead_answers hb]
    rfl
  case refused =>
    rw [exec_bgReadReqRx_lent hw hl hg, lentRead_refuses hb]
    rfl

end Sys2Proof.Machine

/-! PROOFS. What holds an issued array command and what its reads leave alone, the array's events, and the statement about them. -/

namespace Sys2Proof.Machine

/-! ### Entries of a queue -/

/-- The first element that `p` takes, after a change of it that `p` still takes. -/
theorem find?_mapFirst {α : Type} {p : α → Bool} {f : α → α} (hf : ∀ x, p x = true → p (f x) = true) (l : List α) :
    (mapFirst p f l).find? p = (l.find? p).map f := by
  induction l with
  | nil => rfl
  | cons x xs ih =>
    by_cases hx : p x = true
    · simp [mapFirst, hx, hf x hx]
    · simp [mapFirst, hx, ih]

theorem sameEnt_self (e : QEnt) : sameEnt e e = true := by simp [sameEnt, isEnt]

@[simp] theorem State.q_setQ_same (s : State) (u : Nat) (l : List QEnt) : (s.setQ u l).q u = l := by
  simp [State.q, State.setQ]

theorem tileCredits_setQ (s : State) (u v : Nat) (l : List QEnt) : ((s.setQ u l).unit v).tileCredits = (s.unit v).tileCredits := by
  by_cases h : v = u
  · subst h; simp [State.setQ]
  · rw [State.setQ, State.unit_setUnit_ne _ _ h]

theorem mem_of_engineHead {s : State} {u : Nat} {g : Engine} {e : QEnt} (h : engineHead s u g = some e) : e ∈ s.q u :=
  List.mem_of_find?_eq_some h

/-- A queued entry whose update keeps its name reads as updated. -/
theorem entOf_updEnt {s : State} {u : Nat} {e : QEnt} {f : QEnt → QEnt} (he : e ∈ s.q u)
    (hf : ∀ x, sameEnt e x = true → sameEnt e (f x) = true) : entOf (updEnt u e f s) u e = f (entOf s u e) := by
  obtain ⟨x, hx⟩ := Option.isSome_iff_exists.1 (List.find?_isSome.2 ⟨e, he, sameEnt_self e⟩)
  rw [entOf, entOf, updEnt, State.q_setQ_same, find?_mapFirst hf, hx]
  rfl

theorem State.q_congr {s t : State} (h : t.units = s.units) (u : Nat) : t.q u = s.q u := by
  unfold State.q State.unit; rw [h]

theorem entOf_congr {s t : State} (h : t.units = s.units) (u : Nat) (e : QEnt) : entOf t u e = entOf s u e := by
  unfold entOf; rw [State.q_congr h]

theorem engineHead_congr {s t : State} (h : t.units = s.units) (u : Nat) (g : Engine) : engineHead t u g = engineHead s u g := by
  unfold engineHead; rw [State.q_congr h]

/-! ### Counters and the power of a Forme -/

theorem unitPage_mod (p : Nat) : unitPage p % 4096 = 0 := by
  unfold unitPage
  split <;> simp only [dieTopPage, dieWin] <;> omega

theorem hbmPage_mod (c : Nat) : hbmPage c % 4096 = 0 := by
  simp only [hbmPage, dieWin]; omega

theorem formeOn_congr {s t : State} {u : Nat} (h : t.regN (frmReg u) = s.regN (frmReg u)) : formeOn t u = formeOn s u := by
  unfold formeOn formeState; rw [h]

/-- A page's counters end below 0xA0, where the power pages' first PWR_FORME stands. -/
theorem formeOn_bump {b i : Nat} (hb : b % 4096 = 0) (hi : i < 28) (n u : Nat) (s : State) : formeOn (s.bump b i n) u = formeOn s u := by
  refine formeOn_congr (State.regN_setRegN_ne _ _ ?_)
  have hforme : pathForme u < 16 := bits_lt u 11 8
  simp only [frmReg, powerPage, dieWin]
  omega

/-! ### What reads change -/

section Reads

variable {β : Type} (g : State → β) (hbump : ∀ b i n t, b % 4096 = 0 → i < 28 → g (State.bump t b i n) = g t)
  (hcask : ∀ c t, g { t with cask := c } = g t) (hecc : ∀ m t, g { t with ecc := m } = g t)

include hbump hcask

theorem countEcc_field (pl : Nat) (s : State) : g (countEcc pl 0 s) = g s := by
  unfold countEcc
  split
  · exact hbump _ _ _ _ (hbmPage_mod _) (by decide)
  · split
    · exact hbump _ _ _ _ rfl (by decide)
    · split
      · exact hbump _ _ _ _ (unitPage_mod _) (by decide)
      · exact hcask _ _

include hecc

/-- A read that corrects changes counters and marks alone. -/
theorem correctRead_field (a n : Nat) (s : State) : g (correctRead a n s) = g s :=
  State.each_field s g _ (fun _ s => State.each_field s g _
    (fun _ s => (countEcc_field g hbump hcask _ _).trans (hecc _ s)) _) _

/-- The reads of a command change besides only the times at which its Tiles were last used. -/
theorem touchReads_field (htiers : ∀ x t, g { t with tiers := x } = g t) (e : QEnt) (l : List (Nat × Nat)) (s : State) :
    g (touchReads e l s) = g s := by
  have htouch : ∀ a n t, g (touch a n t) = g t := fun a n t =>
    (State.each_field _ g _ (fun _ t => htiers _ t) _).trans (correctRead_field g hbump hcask hecc a n t)
  refine State.each_field s g _ (fun x s => ?_) l
  split
  · exact State.each_field s g _ (fun r s => htouch _ _ s) _
  · rfl

end Reads

/-- What sees neither registers, marks, the Cask nor the tiers is as it was before the reads. -/
theorem touchReads_keeps {β : Type} (g : State → β)
    (h : ∀ (t : State) r c m x, g { t with regs := r, cask := c, ecc := m, tiers := x } = g t) (e : QEnt) (l : List (Nat × Nat))
    (s : State) : g (touchReads e l s) = g s :=
  touchReads_field g (fun _ _ _ t _ _ => h t _ t.cask t.ecc t.tiers) (fun c t => h t t.regs c t.ecc t.tiers)
    (fun m t => h t t.regs t.cask m t.tiers) (fun x t => h t t.regs t.cask t.ecc x) e l s

theorem touchReads_arr (e : QEnt) (l : List (Nat × Nat)) (s : State) (ch : Nat) : (touchReads e l s).arr ch = s.arr ch :=
  touchReads_keeps (·.arr ch) (fun _ _ _ _ _ => rfl) e l s

/-! ### What holds an issued command -/

/-- Two states in which the same holds an array command of a Chase, but for the configuration, blocks and tables. -/
structure HeldAlike (ch : Nat) (s t : State) : Prop where
  units : t.units = s.units
  cores : t.cores = s.cores
  hyds : t.hyds = s.hyds
  forme : formeOn t ch = formeOn s ch
  cols : (t.arr ch).colBanks = (s.arr ch).colBanks
  rows : (t.arr ch).rowBanks = (s.arr ch).rowBanks

namespace HeldAlike

variable {ch : Nat} {s t r : State}

theorem trans (h : HeldAlike ch s t) (h' : HeldAlike ch t r) : HeldAlike ch s r :=
  ⟨h'.units.trans h.units, h'.cores.trans h.cores, h'.hyds.trans h.hyds, h'.forme.trans h.forme, h'.cols.trans h.cols,
    h'.rows.trans h.rows⟩

theorem engineHead_eq (h : HeldAlike ch s t) (g : Engine) : engineHead t ch g = engineHead s ch g := engineHead_congr h.units ch g

theorem clockStopped_eq (h : HeldAlike ch s t) : clockStopped t ch = clockStopped s ch := by
  have hcore : t.core ch = s.core ch := by unfold State.core; rw [h.cores]
  simp only [clockStopped, depthNow, hcore, h.cols, h.rows, State.q_congr h.units]

theorem hydHolding_eq (h : HeldAlike ch s t) : hydHolding t ch = hydHolding s ch := by
  unfold hydHolding State.hyd; rw [h.hyds]

/-- Changes of the array's blocks. -/
theorem setArr (s : State) {x : ArrSt} (hc : x.colBanks = (s.arr ch).colBanks) (hr : x.rowBanks = (s.arr ch).rowBanks) :
    HeldAlike ch s (s.setArr ch x) :=
  ⟨rfl, rfl, rfl, rfl, by rw [State.arr_setArr_same, hc], by rw [State.arr_setArr_same, hr]⟩

theorem touchReads (e : QEnt) (l : List (Nat × Nat)) (s : State) : HeldAlike ch s (touchReads e l s) where
  units := touchReads_keeps (·.units) (fun _ _ _ _ _ => rfl) e l s
  cores := touchReads_keeps (·.cores) (fun _ _ _ _ _ => rfl) e l s
  hyds := touchReads_keeps (·.hyds) (fun _ _ _ _ _ => rfl) e l s
  forme := touchReads_field (formeOn · ch) (fun _ _ n t hb hi => formeOn_bump hb hi n ch t) (fun _ _ => rfl) (fun _ _ => rfl)
    (fun _ _ => rfl) e l s
  cols := by rw [touchReads_arr]
  rows := by rw [touchReads_arr]

end HeldAlike

/-! ### Reuse of the active block (R96) -/

/-- A block is known by its place and its descriptor: the memory that it would load from does not count. -/
theorem sameBlock_firstBlock (s t : State) (blk : Block) (x : ArrCtx) (e : QEnt) (b : Opd) :
    sameBlock blk (firstBlock t x e b) = sameBlock blk (firstBlock s x e b) := by
  simp only [sameBlock, firstBlock, loadBlock]

theorem reused_congr {s t : State} {ch : Nat} (h : (t.arr ch).active = (s.arr ch).active) (x : ArrCtx) (e : QEnt) (b : Opd) :
    reused t ch x e b = reused s ch x e b := by
  simp only [reused, h, sameBlock_firstBlock s t]

/-- Whether the first pass needs a load depends on the active block and the configuration, not on memory. -/
theorem needsNoLoad_congr {s t : State} {ch : Nat} (e : QEnt) (hactive : (t.arr ch).active = (s.arr ch).active)
    (hwidth : (t.arr ch).width = (s.arr ch).width) (hrun : (t.arr ch).run = (s.arr ch).run) :
    needsNoLoad t ch e = needsNoLoad s ch e := by
  have hctx : ∀ a b, arrCtx t ch e a b = arrCtx s ch e a b := fun a b => by unfold arrCtx; rw [hwidth, hrun]
  simp only [needsNoLoad, hctx, reused_congr hactive]

/-! ### The issue of a command (R90, R93) -/

/-- The entry issues and takes its output credits. -/
def issueEntry (ch : Nat) (e : QEnt) (s : State) : State :=
  updEnt ch e (fun x => { x with phase := .issued })
    (if isPartial e then s else takeCreditsOf (creditUnit ch e) (creditNeed e) s)

/-- It claims the Tiles that it reads, and asks for its first table set. -/
def issueClaims (ch : Nat) (e : QEnt) (s : State) : State :=
  (s.when (recompOn e) (fun s =>
    match e.opd 0, e.opd 1 with
    | some a, some b => claimTiles true e (passReads e (cOrient e.cmd) a b) s
    | _, _ => s)).when (e.op == 3) (askTables ch e)

theorem issueArray_eq (ch : Nat) (e : QEnt) (s : State) :
    issueArray ch e s =
      let t := issueClaims ch e (issueEntry ch e s)
      let banks := takeBanks (edgeBanks t ch e) (bankNeed e)
      t.setArr ch { t.arr ch with
        shadowLoading := !(needsNoLoad t ch e)
        colBanks := if cOrient e.cmd = 1 then (t.arr ch).colBanks else banks
        rowBanks := if cOrient e.cmd = 1 then banks else (t.arr ch).rowBanks } := by
  unfold issueArray
  rfl

/-- Asking for a table set changes a set of the Galley alone. -/
theorem askTables_field {β : Type} (g : State → β) (htab : ∀ k x t, g (State.setTab t k x) = g t) (ch : Nat) (e : QEnt) (s : State) :
    g (askTables ch e s) = g s := by
  unfold askTables
  dsimp only
  split
  · split
    · rfl
    · split
      · exact htab _ _ _
      · rfl
  · rfl

/-- Claims and table sets change the Tile states and the Galley's sets alone. -/
theorem issueClaims_field {β : Type} (g : State → β) (htab : ∀ k x t, g (State.setTab t k x) = g t) {e : QEnt}
    (hclaim : recompOn e = true → ∀ r v t, g (setTileState r v t) = g t) (ch : Nat) (s : State) :
    g (issueClaims ch e s) = g s := by
  unfold issueClaims
  refine (State.when_field _ g _ _ (askTables_field g htab ch e _)).trans ?_
  cases hr : recompOn e with
  | false => rfl
  | true =>
    refine State.when_field s g _ _ ?_
    split
    · exact State.each_field s g _ (fun r s => hclaim hr r _ s) _
    · rfl

@[simp] theorem setTileState_frame (r : TileRef) (v : Nat) (t : State) :
    (setTileState r v t).regs = t.regs ∧ (setTileState r v t).units = t.units ∧ (setTileState r v t).cores = t.cores ∧
    (setTileState r v t).arrs = t.arrs ∧ (setTileState r v t).streams = t.streams := by
  simp [setTileState, fixedWrite, cleanEcc, copyFirst]

theorem issueClaims_frame (ch : Nat) (e : QEnt) (s : State) :
    (issueClaims ch e s).regs = s.regs ∧ (issueClaims ch e s).units = s.units ∧ (issueClaims ch e s).cores = s.cores ∧
    (issueClaims ch e s).arrs = s.arrs ∧ (issueClaims ch e s).streams = s.streams ∧
    (recompOn e = false → (issueClaims ch e s).mem = s.mem) :=
  ⟨issueClaims_field (·.regs) (fun _ _ _ => rfl) (by simp) ch s, issueClaims_field (·.units) (fun _ _ _ => rfl) (by simp) ch s,
    issueClaims_field (·.cores) (fun _ _ _ => rfl) (by simp) ch s, issueClaims_field (·.arrs) (fun _ _ _ => rfl) (by simp) ch s,
    issueClaims_field (·.streams) (fun _ _ _ => rfl) (by simp) ch s,
    fun hr => issueClaims_field (·.mem) (fun _ _ _ => rfl) (by simp [hr]) ch s⟩

theorem issueEntry_frame (ch : Nat) (e : QEnt) (s : State) :
    (issueEntry ch e s).regs = s.regs ∧ (issueEntry ch e s).cores = s.cores ∧ (issueEntry ch e s).arrs = s.arrs ∧
    (issueEntry ch e s).streams = s.streams ∧ (issueEntry ch e s).mem = s.mem := by
  unfold issueEntry updEnt
  split <;> simp [takeCreditsOf]

/-- A command takes its credits at the unit that it is addressed to; a share of a RED split takes none (R90, log 14). -/
theorem tileCredits_issueEntry (ch : Nat) (e : QEnt) (s : State) (v : Nat) :
    ((issueEntry ch e s).unit v).tileCredits =
      (s.unit v).tileCredits - (if v = creditUnit ch e ∧ isPartial e = false then creditNeed e else 0) := by
  rw [issueEntry, updEnt, tileCredits_setQ]
  cases hp : isPartial e with
  | true => simp
  | false =>
    by_cases hv : v = creditUnit ch e
    · simp [hv, takeCreditsOf]
    · simp [hv, takeCreditsOf, State.unit_setUnit_ne]

theorem q_takeCreditsOf (u n v : Nat) (s : State) : (takeCreditsOf u n s).q v = s.q v := by
  by_cases h : v = u
  · subst h; simp [State.q, takeCreditsOf]
  · simp [State.q, takeCreditsOf, State.unit_setUnit_ne _ _ h]

theorem phase_issueEntry {ch : Nat} {e : QEnt} {s : State} (he : e ∈ s.q ch) : (entOf (issueEntry ch e s) ch e).phase = .issued := by
  have hq : (if isPartial e then s else takeCreditsOf (creditUnit ch e) (creditNeed e) s).q ch = s.q ch := by
    split
    · rfl
    · exact q_takeCreditsOf _ _ _ s
  have hname : ∀ x : QEnt, sameEnt e x = true → sameEnt e { x with phase := .issued } = true := fun _ hx => hx
  rw [issueEntry, entOf_updEnt (by rwa [hq]) hname]

/-- An issue that needs a load begins it; the entry, its credits and its claims are all that it changes besides (R90, R93, R223). -/
theorem issueArray_loads {ch : Nat} {e : QEnt} {s : State} (he : e ∈ s.q ch) (hload : needsNoLoad s ch e = false) :
    let t := issueArray ch e s
    (t.arr ch).shadowLoading = true ∧ (entOf t ch e).phase = .issued ∧
    (∀ v, (t.unit v).tileCredits =
      (s.unit v).tileCredits - (if v = creditUnit ch e ∧ isPartial e = false then creditNeed e else 0)) ∧
    (recompOn e = false → t.mem = s.mem) ∧ t.regs = s.regs ∧ t.cores = s.cores ∧ t.streams = s.streams := by
  obtain ⟨hregs, hunits, hcores, harrs, hstreams, hmem⟩ := issueClaims_frame ch e (issueEntry ch e s)
  obtain ⟨hregs', hcores', harrs', hstreams', hmem'⟩ := issueEntry_frame ch e s
  have harr : (issueClaims ch e (issueEntry ch e s)).arr ch = s.arr ch := by unfold State.arr; rw [harrs, harrs']
  have hneeds : needsNoLoad (issueClaims ch e (issueEntry ch e s)) ch e = false :=
    (needsNoLoad_congr e (congrArg (·.active) harr) (congrArg (·.width) harr) (congrArg (·.run) harr)).trans hload
  rw [issueArray_eq]
  refine ⟨by simp [hneeds], ?phase, fun v => ?credits, fun hr => (hmem hr).trans hmem', hregs.trans hregs', hcores.trans hcores',
    hstreams.trans hstreams'⟩
  case phase =>
    exact (congrArg QEnt.phase (entOf_congr hunits ch e)).trans (phase_issueEntry he)
  case credits =>
    exact (congrArg (fun l => (SMap.get (fun _ => UnitSt.reset) l v).tileCredits) hunits).trans (tileCredits_issueEntry ch e s v)

/-! ### The end of a load (R93, R116, R188) -/

/-- The shadow registers hold the first block as memory holds it, and its reads have been made. -/
def blockLoaded (ch : Nat) (e : QEnt) (a b : Opd) (s : State) : State :=
  touchReads e (firstLoad (arrCtx s ch e a b) e b) (s.setArr ch { s.arr ch with
    shadowLoading := false, shadow := some (firstBlock s (arrCtx s ch e a b) e b) })

/-- The load is over and has filled nothing. -/
def loadStopped (ch : Nat) (s : State) : State := s.setArr ch { s.arr ch with shadowLoading := false }

theorem heldAlike_blockLoaded (ch : Nat) (e : QEnt) (a b : Opd) (s : State) : HeldAlike ch s (blockLoaded ch e a b s) :=
  have hset : HeldAlike ch s (s.setArr ch { s.arr ch with
      shadowLoading := false, shadow := some (firstBlock s (arrCtx s ch e a b) e b) }) := HeldAlike.setArr s rfl rfl
  hset.trans (HeldAlike.touchReads e _ _)

theorem heldAlike_loadStopped (ch : Nat) (s : State) : HeldAlike ch s (loadStopped ch s) := HeldAlike.setArr s rfl rfl

theorem arr_blockLoaded (ch : Nat) (e : QEnt) (a b : Opd) (s : State) :
    (blockLoaded ch e a b s).arr ch =
      { s.arr ch with shadowLoading := false, shadow := some (firstBlock s (arrCtx s ch e a b) e b) } := by
  rw [blockLoaded, touchReads_arr, State.arr_setArr_same]

section IssuedHead

variable {s : State} {ch : Nat} {e : QEnt} (hhead : engineHead s ch .array = some e)
include hhead

theorem exec_arrayIssue_ready (hready : arrayReady s ch e = true) : exec (.arrayIssue ch) s =
    .next (if needsNoLoad s ch e then settle (runIssued ch (issueArray ch e s)) else issueArray ch e s) := by
  change Host.Outcome.next (arrayIssue ch s) = _
  simp only [arrayIssue, hhead, hready, if_true]

theorem exec_ligatureFence_begins {n : Nat × Nat × Nat} (hneed : headNeed s ch = some n) (hclock : clockStopped s ch = false)
    (hphase : e.phase = .held) (hfence : (s.arr ch).fence = false) (hcfg : cfgMatches (s.arr ch) n = false)
    (hdue : (s.arr ch).due = []) : exec (.ligatureFence ch) s =
      .next (s.setArr ch { s.arr ch with fence := true, next := (n.1, fenceRun (cfgOf s ch e) e.op n, n.2.2) }) := by
  change Host.Outcome.next (ligatureFence ch s) = _
  simp [ligatureFence, hhead, hneed, hclock, hphase, hfence, hcfg, hdue]

theorem exec_shadowLoadDone_ends (hphase : e.phase = .issued) (hloading : (s.arr ch).shadowLoading = true)
    (hclock : clockStopped s ch = false) : exec (.shadowLoadDone ch) s = .next (settle (runIssued ch (blockThere ch s))) := by
  change Host.Outcome.next (shadowLoadDone ch s) = _
  simp [shadowLoadDone, hhead, hphase, hloading, hclock]

theorem exec_operandReadError_ends {n t : Nat} {o : Opd} (hphase : e.phase = .issued) (hclock : clockStopped s ch = false)
    (hlo : 1 ≤ n) (hhi : n ≤ 2) (ho : e.opd (n - 1) = some o) (hmem : (n, t) ∈ entryReads e) :
    exec (.operandReadError ch n t) s =
      .next (settle (runIssued ch (blockThere ch (s.setEcc (physKey s (o.tileAddr t)) 2)))) := by
  change Host.Outcome.next (operandReadError ch n t s) = _
  simp [operandReadError, hhead, hphase, hclock, hlo, hhi, ho, hmem]

/-- What lets an issued command run (R93, R116, R188). -/
theorem runIssued_runs (hphase : e.phase = .issued) (hloaded : (s.arr ch).shadowLoading = false) (hclock : clockStopped s ch = false)
    (hforme : formeOn s ch = true)
    (hgo : loadFailed s ch e = true ∨ (tablesReady s ch e = true ∧ (hydHolding s ch = false ∨ isPartial e = true))) :
    runIssued ch s = runArray ch e s := by
  unfold runIssued
  rw [hhead]
  refine if_pos ?_
  rcases hgo with hfail | ⟨htables, hslice | hpart⟩
  · simp [hphase, hloaded, hclock, hforme, hfail]
  · simp [hphase, hloaded, hclock, hforme, htables, hslice]
  · simp [hphase, hloaded, hclock, hforme, htables, hpart]

/-- A full statistics queue holds a command whose block is there, unless its partial sums go to a dispatcher (R188). -/
theorem runIssued_waits (hblock : loadFailed s ch e = false) (hslice : hydHolding s ch = true) (hpart : isPartial e = false) :
    runIssued ch s = s := by
  unfold runIssued
  rw [hhead]
  exact if_neg (by simp [hblock, hslice, hpart])

variable {a b : Opd} (ha : e.opd 0 = some a) (hb : e.opd 1 = some b) (hloading : (s.arr ch).shadowLoading = true)
include ha hb hloading

theorem blockThere_of_read (hread : firstReadFail s e (firstLoad (arrCtx s ch e a b) e b) = none) :
    blockThere ch s = blockLoaded ch e a b s := by
  simp [blockThere, hhead, ha, hb, hloading, hread, blockLoaded]

theorem blockThere_of_fail (hread : firstReadFail s e (firstLoad (arrCtx s ch e a b) e b) ≠ none) :
    blockThere ch s = loadStopped ch s := by
  simp [blockThere, hhead, ha, hb, hloading, Option.isSome_iff_ne_none.2 hread, loadStopped]

/-- A command whose block has loaded waits for a full statistics queue. -/
theorem runIssued_blockThere_waits (hread : firstReadFail s e (firstLoad (arrCtx s ch e a b) e b) = none)
    (hslice : hydHolding s ch = true) (hpart : isPartial e = false) :
    runIssued ch (blockThere ch s) = blockLoaded ch e a b s := by
  have halike := heldAlike_blockLoaded ch e a b s
  rw [blockThere_of_read hhead ha hb hloading hread]
  exact runIssued_waits ((halike.engineHead_eq _).trans hhead) (by simp [loadFailed, arr_blockLoaded])
    (halike.hydHolding_eq.trans hslice) hpart

variable (hphase : e.phase = .issued) (hclock : clockStopped s ch = false) (hforme : formeOn s ch = true)
include hphase hclock hforme

/-- A command whose block has loaded runs once its tables and its slice let it. -/
theorem runIssued_blockThere_runs (hread : firstReadFail s e (firstLoad (arrCtx s ch e a b) e b) = none)
    (htables : tablesReady (blockLoaded ch e a b s) ch e = true) (hslice : hydHolding s ch = false ∨ isPartial e = true) :
    runIssued ch (blockThere ch s) = runArray ch e (blockLoaded ch e a b s) := by
  have halike := heldAlike_blockLoaded ch e a b s
  rw [blockThere_of_read hhead ha hb hloading hread]
  exact runIssued_runs ((halike.engineHead_eq _).trans hhead) hphase (by rw [arr_blockLoaded]) (halike.clockStopped_eq.trans hclock)
    (halike.forme.trans hforme) (Or.inr ⟨htables, by rwa [halike.hydHolding_eq]⟩)

/-- One whose load has failed goes on to its end with no block (R92). -/
theorem runIssued_blockThere_fails (hread : firstReadFail s e (firstLoad (arrCtx s ch e a b) e b) ≠ none)
    (hshadow : (s.arr ch).shadow = none) (hneeds : needsNoLoad s ch e = false) :
    runIssued ch (blockThere ch s) = runArray ch e (loadStopped ch s) := by
  have halike := heldAlike_loadStopped ch s
  have harr : (loadStopped ch s).arr ch = { s.arr ch with shadowLoading := false } := State.arr_setArr_same _ _ _
  have hneeds' : needsNoLoad (loadStopped ch s) ch e = false :=
    (needsNoLoad_congr e (congrArg (·.active) harr) (congrArg (·.width) harr) (congrArg (·.run) harr)).trans hneeds
  rw [blockThere_of_fail hhead ha hb hloading hread]
  exact runIssued_runs ((halike.engineHead_eq _).trans hhead) hphase (by rw [harr]) (halike.clockStopped_eq.trans hclock)
    (halike.forme.trans hforme) (Or.inl (by simp [loadFailed, harr, hshadow, hneeds']))

/-- What an event that ends the load comes to: the passes, a wait for the slice, or the command's end (R92, R93, R188). -/
theorem exec_of_loadEnds {i : Instr} {s₀ : State} (hexec : exec i s₀ = .next (settle (runIssued ch (blockThere ch s)))) :
    let fail := firstReadFail s e (firstLoad (arrCtx s ch e a b) e b)
    (fail = none → tablesReady (blockLoaded ch e a b s) ch e = true → hydHolding s ch = false ∨ isPartial e = true →
      exec i s₀ = .next (settle (runArray ch e (blockLoaded ch e a b s)))) ∧
    (fail = none → hydHolding s ch = true → isPartial e = false → exec i s₀ = .next (settle (blockLoaded ch e a b s))) ∧
    (fail ≠ none → (s.arr ch).shadow = none → needsNoLoad s ch e = false →
      exec i s₀ = .next (settle (runArray ch e (loadStopped ch s)))) := by
  rw [hexec]
  refine ⟨fun hread htables hslice => ?_, fun hread hslice hpart => ?_, fun hread hshadow hneeds => ?_⟩
  · rw [runIssued_blockThere_runs hhead ha hb hloading hphase hclock hforme hread htables hslice]
  · rw [runIssued_blockThere_waits hhead ha hb hloading hread hslice hpart]
  · rw [runIssued_blockThere_fails hhead ha hb hloading hphase hclock hforme hread hshadow hneeds]

end IssuedHead

/-! ### Shares and completion (R29, R171) -/

/-- A dispatcher's entry after the report of a share that ended OK: a TIER_HINT's counts add up (R29, R255). -/
def reported (e p : QEnt) : QEnt :=
  if e.op = 0x42 then { p with left := p.left - 1, prog := p.prog + e.detail, aux := [(p.aux[0]?).getD 0 + e.detail2] }
  else { p with left := p.left - 1 }

/-- The share has left its member, and its report stands in its dispatcher's entry. -/
def shareReported (ch d : Nat) (e p : QEnt) (s : State) : State := updEnt d p (fun _ => reported e p) (dropShare ch e s)

theorem reported_left (e p : QEnt) : (reported e p).left = p.left - 1 := by
  unfold reported
  split <;> rfl

theorem mergeShare_of_ok {e : QEnt} (hok : e.status = 0) (hparts : e.parts = []) (now member idx : Nat) (p : QEnt) :
    mergeShare now member idx e p = reported e p := by
  simp [mergeShare, hok, hparts, stOk, reported]

/-- A share that reports OK leaves its member; the last one ends its dispatcher's entry. -/
theorem exec_shareComplete_ok {s : State} {ch d : Nat} {e p : QEnt}
    (hfind : (s.q ch).find? (fun y => y.phase == .done && y.parent.isSome && y.stream == e.stream && y.seq == e.seq) = some e)
    (hparent : e.parent = some d) (hok : e.status = 0) (hparts : e.parts = []) (hp : parentOf (dropShare ch e s) d e = some p)
    (hfree : ∀ y, parentOf s d e = some y → convertWaits s d y = false) :
    exec (.shareComplete ch e.stream e.seq) s =
      .next (if p.left - 1 = 0 then settle (shareEnd d (reported e p) (shareReported ch d e p s)) else shareReported ch d e p s) := by
  change Host.Outcome.next (shareComplete ch e.stream e.seq s) = _
  simp only [shareComplete, hfind, hparent, Option.getD_some, mergeShare_of_ok hok hparts, reported_left]
  cases hy : parentOf s d e with
  | none => simp [leavesUndefined, hok, stOk, hp, shareReported]
  | some y => simp [hfree y hy, leavesUndefined, hok, stOk, hp, shareReported]

theorem exec_completionRelease_of {s : State} {ch : Nat} {e : QEnt}
    (hfind : (s.q ch).find? (fun y => y.phase == .done && y.parent == none && inOrder s ch y) = some e) :
    exec (.completionRelease ch) s = .next (settle (release ch e s)) := by
  change Host.Outcome.next (completionRelease ch s) = _
  simp only [completionRelease, hfind]

theorem exec_ligatureFenceDone_ends {s : State} {ch : Nat} (hclock : clockStopped s ch = false) (hfence : (s.arr ch).fence = true) :
    exec (.ligatureFenceDone ch) s = .next ((s.setArr ch { s.arr ch with
      fence := false, width := (s.arr ch).next.1, run := (s.arr ch).next.2.1, mode := (s.arr ch).next.2.2, active := none,
      shadow := none, shadowLoading := false }).bump (unitPage ch) 14 1) := by
  change Host.Outcome.next (ligatureFenceDone ch s) = _
  simp [ligatureFenceDone, hclock, hfence]

end Sys2Proof.Machine

namespace Sys2Proof.Machine

/-- Settles O21: an issue changes its entry, credits, claims and tables alone; a load that has ended leaves what else holds the command
as it was, so that the command runs, waits for its slice, or fails as its block says (R90, R92, R93, R188, log 14). -/
theorem arrayEvents : Obligations.ArrayEvents := by
  unfold Obligations.ArrayEvents
  intro s ch
  refine ⟨exec_ligatureFenceDone_ends, fun e hhead => ⟨fun hready hneeds => ?loads, fun hready hneeds => ?runs,
    fun n hclock hneed hphase hfence hcfg hdue => exec_ligatureFence_begins hhead hneed hclock hphase hfence hcfg hdue,
    fun a b hclock hforme hphase hloading ha hb => ⟨?loaded, fun n t o hlo hhi ho hmem => ?readError⟩⟩,
    fun e d p hfind hparent hok hparts hp hfree => ?share, fun e hfind => exec_completionRelease_of hfind⟩
  case loads =>
    refine ⟨_, ?_, issueArray_loads (mem_of_engineHead hhead) hneeds⟩
    rw [exec_arrayIssue_ready hhead hready, hneeds]
    rfl
  case runs =>
    rw [exec_arrayIssue_ready hhead hready, hneeds]
    rfl
  case loaded =>
    exact exec_of_loadEnds hhead ha hb hloading hphase hclock hforme (exec_shadowLoadDone_ends hhead hphase hloading hclock)
  case readError =>
    have hneeds' : needsNoLoad (s.setEcc (physKey s (o.tileAddr t)) 2) ch e = needsNoLoad s ch e := needsNoLoad_congr e rfl rfl rfl
    obtain ⟨hruns, hwaits, hfails⟩ := exec_of_loadEnds (s := s.setEcc (physKey s (o.tileAddr t)) 2) hhead ha hb hloading hphase hclock
      hforme (exec_operandReadError_ends hhead hphase hclock hlo hhi ho hmem)
    exact ⟨hruns, hwaits, fun hread hshadow hneeds => hfails hread hshadow (hneeds'.trans hneeds)⟩
  case share =>
    have hexec := exec_shareComplete_ok hfind hparent hok hparts hp hfree
    refine ⟨fun hleft => hexec.trans ?_, fun hleft => hexec.trans ?_⟩
    · rw [if_neg (by omega)]
      rfl
    · rw [if_pos (by omega)]
      rfl

end Sys2Proof.Machine

/-! PROOFS. The state after a power-on reset. -/

namespace Sys2Proof.Machine

theorem startStep_reset : startStep State.reset = 1 := by decide

theorem portState_reset {p : Nat} (hp : p < 16) : portState State.reset p = 0 := by
  have hall : ∀ p < 16, portState State.reset p = 0 := by decide
  exact hall p hp

theorem traceState_reset : traceState State.reset 0 = 0 ∧ traceState State.reset 1 = 0 := by decide

/-- Muzomus owns its own page, the physical function the die top page (R532). -/
theorem pageOwner_reset :
    State.reset.flag mzmPage Fld.PAGE_OWNER.mgmt = true ∧ State.reset.flag (dieTopPage 0) Fld.PAGE_OWNER.mgmt = false ∧
    State.reset.fld (dieTopPage 0) Fld.PAGE_OWNER.function = 0 := by decide

/-- The tables of cores, units and arrays are empty after reset, so that every Chase reads as the reset entry (R99, R152). -/
theorem chase_reset (ch : Nat) :
    State.reset.core ch = CoreSt.reset ∧ State.reset.unit ch = UnitSt.reset ∧ State.reset.arr ch = ArrSt.reset := ⟨rfl, rfl, rfl⟩

theorem CoreSt.reg_reset (n : Nat) : CoreSt.reset.reg n = 0 := ite_self _

/-- Settles O12: the tables of the reset state are empty, so that each entry and register reads as its own reset value; the fields
of start-up, ports, trace writers and page owners are read from those words (R469, R313, R411, R532, logs 9 and 11). -/
theorem resetValues : Obligations.ResetValues := by
  unfold Obligations.ResetValues
  refine ⟨rfl, rfl, startStep_reset, rfl, fun ch => ?chase, fun _ => rfl, fun _ => portState_reset, traceState_reset.1,
    traceState_reset.2, fun _ => rfl, pageOwner_reset⟩
  case chase =>
    obtain ⟨hcore, hunit, harr⟩ := chase_reset ch
    rw [hcore, hunit, harr]
    exact ⟨rfl, rfl, CoreSt.reg_reset, fun _ => rfl, rfl, rfl, rfl⟩

end Sys2Proof.Machine

/-! PROOFS. The step that a unit takes for a command that a resume has re-entered (R396), and the statement about the acceptance of
engine commands that this refutes. -/

namespace Sys2Proof.Machine

/-! ### Acceptance of the command at the head -/

section Head

variable {s : State} {u op : Nat} {e : QEnt}

/-- The command at the head of an issue queue that nothing holds is accepted (R168, log 12). -/
theorem runHead_of_head (hhead : headOf s u = some e) (hop : e.op = op) (hfree : issueHeld s u = false) :
    runHead op u s = settle (accept u e s) := by
  simp only [runHead, hhead, hop, beq_self_eq_true, Bool.true_or, hfree, Bool.not_false, Bool.and_self, if_true]

/-- The entry of `e` with what it takes in the tick of its acceptance, and with its operands. -/
def takenIn (s : State) (u : Nat) (e : QEnt) : QEnt := { e with acc := acceptOf s e, ops := readOps s u e.cmd }

/-- A command that passes the checks under the step that it takes reads its operands and goes on (R168, R181). -/
theorem accept_of_run (hwake : formeState s u ≠ 3) (htest : formeTested s u = false) (hfence : isFenced s u = false)
    (hrun : issueChecks s u (acceptOf s e).step e.cmd = .run) (hbridge : overBridge s u = false) :
    accept u e s = acceptRun u (takenIn s u e)
      (updEnt u e (fun _ => takenIn s u e)
        (readDescs u { e with acc := acceptOf s e } (updEnt u e (fun _ => { e with acc := acceptOf s e }) s))) := by
  simp only [accept, hwake, htest, hfence, hrun, hbridge, Bool.false_eq_true, if_false, takenIn]

/-- A re-entered command takes the step that it was held with, whatever the step in force (R396). -/
theorem acceptOf_step_keptEnt (s : State) (h : Held) : (acceptOf s (keptEnt h)).step = h.step := rfl

end Head

/-! ### A command of step 0 that re-enters in step 1 -/

/-- The descriptor of a Tile of P8 with `check_gen` set and layout generation 0 (R160). -/
def checkedDesc : Nat :=
  0x10000 + 8 * 2 ^ 50 + 2 ^ 57 + 2 ^ 63 + 64 * 2 ^ 128 + 64 * 2 ^ 160 + 2 ^ 192 + 0xFFFF * 2 ^ 224 + 64 * 2 ^ 384

/-- A TIER_HINT for Chase 0 in stream 1, with descriptor 1 as operand A (R156). -/
def hintCmd : BitVec 256 := BitVec.ofNat 256 (0x42 + 2 ^ 32 + (1 + 2 ^ 20) * 2 ^ 96)

/-- The hint as a Stop-press holds it that has found it accepted in step 0 (R384). -/
def heldHint : Held := ⟨hintCmd, 0, none, 0, false, 0⟩

/-- A module in step 1 that holds the hint, with the gather record of its descriptor written in step 1 with generation 1 (R358). -/
def holdingHint : State :=
  let s := ((State.reset.setRegN (tierPage 0 + 0x80) 4).setRegN (dieTopPage 0 + 0x98) 16).setRegN (govPage + 0x88) 1
  let s := s.setStream 1 { Stream.reset with state := 2 }
  let s := (s.setNum 64 64 checkedDesc).setNum 8 8 (1 + 2 ^ 16 + 2 ^ 32)
  { s with cask := { s.cask with held := [heldHint] } }

/-- The module once the hint has re-entered its queue (R396). -/
def resumed : State := reenterHeld holdingHint

theorem headOf_resumed : headOf resumed 0 = some (keptEnt heldHint) := by decide +kernel

/-- Nothing keeps Chase 0 from accepting. -/
theorem resumed_free : issueHeld resumed 0 = false ∧ formeState resumed 0 ≠ 3 ∧ formeTested resumed 0 = false ∧
    isFenced resumed 0 = false ∧ overBridge resumed 0 = false := by decide +kernel

/-- STALE_SHARD of operand A: its descriptor has generation 0, the record 1 (R361). -/
def staleHint : Fail := ⟨stStale, 1, 1, 1⟩

/-- Under step 1, the step in force, the record is current, so that check 18 would fail (R361). -/
theorem issueChecks_stepInForce : issueChecks resumed 0 (resumed.regN (govPage + 0x88)) hintCmd = .reject staleHint := by
  decide +kernel

/-- Under step 0, with which the hint was held, the record is not current. -/
theorem issueChecks_stepHeld : issueChecks resumed 0 heldHint.step hintCmd = .run := by decide +kernel

/-- The count of STALE_SHARD completions (R362). -/
def staleCount (s : State) : Nat := s.regN (mapPage + 0xB0)

/-- The hint is accepted in step 0 and runs: no STALE_SHARD completion. -/
theorem staleCount_exec_resumed : ∃ t, exec (.tierHint 0) resumed = .next t ∧ staleCount t = 0 := by
  obtain ⟨hfree, hwake, htest, hfence, hbridge⟩ := resumed_free
  have hrun : issueChecks resumed 0 (acceptOf resumed (keptEnt heldHint)).step hintCmd = .run := by
    rw [acceptOf_step_keptEnt]
    exact issueChecks_stepHeld
  have hexec : exec (.tierHint 0) resumed = .next (runHead 0x42 0 resumed) := rfl
  rw [hexec, runHead_of_head headOf_resumed (by decide +kernel) hfree, accept_of_run hwake htest hfence hrun hbridge]
  exact ⟨_, rfl, by decide +kernel⟩

/-- Refutes O20: a command that a resume has re-entered is accepted under the step that it was held with, not under the step in
force; a TIER_HINT of step 0 runs where the statement has it end with STALE_SHARD of step 1 (R396, R181, R361). -/
theorem not_engineCommandsAccepted : ¬ Obligations.EngineCommandsAccepted := by
  unfold Obligations.EngineCommandsAccepted
  intro h
  obtain ⟨hfree, hwake, htest, hfence, -⟩ := resumed_free
  obtain ⟨t, hruns, hnone⟩ := staleCount_exec_resumed
  have hmem : (0x42, Instr.tierHint 0) ∈ engineCmds 0 := by simp [engineCmds]
  have hstale := (h resumed 0 0x42 (.tierHint 0) (keptEnt heldHint) hmem headOf_resumed (by decide +kernel) hfree hwake htest
    hfence).1 staleHint issueChecks_stepInForce
  have hcount := congrArg staleCount (Host.Outcome.next.inj (hruns.symm.trans hstale))
  rw [hnone] at hcount
  exact absurd hcount (by decide +kernel)

end Sys2Proof.Machine

/-! PROOFS. The point governor: what its rings and a boundary read, write and leave alone, and the statement about a step boundary. -/

namespace Sys2Proof.Machine

/-! ### The governor's registers -/

theorem ptgStep_eq (s : State) : ptgStep s = s.regN (govPage + 0x88) := Nat.mod_eq_of_lt (State.regN_lt s _)

theorem State.regN_withGov (s : State) (g : Gov) (o : Nat) : ({ s with gov := g } : State).regN o = s.regN o := rfl

theorem fld_phase_setPhase {p : Nat} (hp : p < 16) (s : State) : (setPhase p s).fld govPage Fld.PTG_STATUS.phase = p :=
  (State.fld_setFld_same s _ _ _).trans (Nat.mod_eq_of_lt hp)

/-- A flag of PTG_STATUS stands beside the phase. -/
theorem flag_setPhase {f : Fld} (hf : 3 < f.lo) (p : Nat) (s : State) : (setPhase p s).flag govPage f = s.flag govPage f :=
  State.flag_setFld_ne s _ _ _ _ _ (Or.inr (Or.inr hf))

theorem regN_setPhase {o : Nat} (h : o ≠ govPage + 0x84) (p : Nat) (s : State) : (setPhase p s).regN o = s.regN o :=
  State.regN_setFld_ne s _ _ _ h

/-! ### Writes to the stat rings -/

theorem hydroPage_mod (d : Nat) : hydroPage d % 4096 = 0 := by
  simp only [hydroPage, dieWin]
  omega

theorem setFolioBytes_regs (a : Nat) (l : List (BitVec 8)) (s : State) : (setFolioBytes a l s).regs = s.regs := by
  induction l generalizing a s with
  | nil => rfl
  | cons v l ih => exact ih (a + 1) _

theorem placeNum_regs (a n v : Nat) (s : State) : (placeNum a n v s).regs = s.regs :=
  (freshEcc_field _ (·.regs) (fun _ _ _ => rfl) a n).trans (setFolioBytes_regs a _ _)

/-- A ring's record moves its two pointers alone. -/
theorem regN_ringPut {o : Nat} (h : o % 4096 ≠ 0x8C) (h' : o % 4096 ≠ 0x90) (d : Nat) (rec : BitVec 256) (s : State) :
    (ringPut d rec s).regN o = s.regN o := by
  have hpage := hydroPage_mod d
  have hwr : o ≠ hydroPage d + 0x8C := by omega
  have hrd : o ≠ hydroPage d + 0x90 := by omega
  unfold ringPut
  dsimp only
  split
  · rw [State.regN_setRegN_ne _ _ hwr, State.regN_congr (placeNum_regs _ _ _ s)]
  · rw [followRing, State.regN_setRegN_ne _ _ hrd, State.regN_setRegN_ne _ _ hwr, State.regN_congr (placeNum_regs _ _ _ s)]

theorem regN_drainQueue {o : Nat} (h : o % 4096 ≠ 0x8C) (h' : o % 4096 ≠ 0x90) (ch k : Nat) (s : State) :
    (drainQueue ch k s).regN o = s.regN o := by
  induction k generalizing s with
  | zero => rfl
  | succ k ih =>
    unfold drainQueue
    dsimp only
    split
    · rfl -- the queue is empty
    · split
      · rfl -- the ring is off: the queue is dropped
      · split
        · rfl -- the ring is full
        · rw [ih, State.regN_congr (State.setHyd_regs _ _ _), regN_ringPut h h']

theorem regN_drainDie {o : Nat} (h : o % 4096 ≠ 0x8C) (h' : o % 4096 ≠ 0x90) (d : Nat) (s : State) :
    (drainDie d s).regN o = s.regN o := by
  unfold drainDie
  exact State.each_field s (State.regN · o) _ (fun ch s => regN_drainQueue h h' ch _ s) _

theorem drainDie_of_noSlices {s : State} (h : s.hyds = []) (d : Nat) : drainDie d s = s := by
  unfold drainDie
  rw [h]
  rfl

/-! ### A write of PTG_CTRL -/

/-- PTG_CTRL with its two stored fields written. -/
def storeCtrl (v : Nat) (s : State) : State := s.setRegN (govPage + 0x80) (bits v 0 0 + 4 * bits v 2 2)

/-- What a write of PTG_CTRL does before a boundary may begin (R539): without enable the rings follow and drain (R188). -/
def ctrlWritten (v : Nat) (s : State) : State :=
  if bit v 0 then storeCtrl v s else (storeCtrl v s).each [0, 1] (fun d s => drainDie d (followRing d s))

theorem writePtgCtrl_eq (v : Nat) (s : State) : writePtgCtrl v s = (ctrlWritten v s).when (bit v 1) startBoundary := by
  unfold writePtgCtrl ctrlWritten storeCtrl
  cases bit v 0 <;> rfl

theorem regN_ctrlWritten {o : Nat} (h : o % 4096 ≠ 0x8C) (h' : o % 4096 ≠ 0x90) (v : Nat) (s : State) :
    (ctrlWritten v s).regN o = (storeCtrl v s).regN o := by
  unfold ctrlWritten
  split
  · rfl
  · refine State.each_field _ (·.regN o) _ (fun d s => (regN_drainDie h h' d _).trans (State.regN_setRegN_ne s _ ?_)) _
    have hpage := hydroPage_mod d
    omega

theorem flag_ctrlWritten {b : Nat} {f : Fld} (h : (b + f.off) % 4096 ≠ 0x8C) (h' : (b + f.off) % 4096 ≠ 0x90) (v : Nat) (s : State) :
    (ctrlWritten v s).flag b f = (storeCtrl v s).flag b f := by
  unfold State.flag State.fld
  rw [regN_ctrlWritten h h']

/-- PTG_CTRL.enable is bit 0 of what is written. -/
theorem enable_ctrlWritten (v : Nat) (s : State) : (ctrlWritten v s).flag govPage Fld.PTG_CTRL.enable = bit v 0 := by
  have hbit : ∀ e < 2, ∀ g < 2, bits ((e + 4 * g) % 2 ^ 32) 0 0 = e := by decide
  rw [flag_ctrlWritten (by decide) (by decide)]
  unfold State.flag storeCtrl
  rw [State.fld_setRegN, if_pos (show govPage + Fld.PTG_CTRL.enable.off = govPage + 0x80 from rfl)]
  calc (bits ((bits v 0 0 + 4 * bits v 2 2) % 2 ^ 32) 0 0 == 1) = (bits v 0 0 == 1) := by
        rw [hbit _ (bits_lt v 0 0) _ (bits_lt v 2 2)]
    _ = bit v 0 := by rw [bits_one, b2n_beq_one]

theorem busy_ctrlWritten (v : Nat) (s : State) :
    (ctrlWritten v s).flag govPage Fld.PTG_STATUS.busy = s.flag govPage Fld.PTG_STATUS.busy := by
  rw [flag_ctrlWritten (by decide) (by decide)]
  unfold State.flag storeCtrl
  rw [State.fld_setRegN, if_neg (by decide)]

theorem exec_stepEnd {s : State} {fn : Nat} (h : Granted s fn govPage) (v : Word) :
    exec (.stepEnd fn v) s = .next ((ctrlWritten v.toNat s).when (bit v.toNat 1) startBoundary) := by
  change execStepEnd fn v s = _
  rw [execStepEnd, posted_granted h, writePtgCtrl_eq]

/-! ### A boundary begins -/

/-- PTG_STATUS as a boundary that begins sets it. -/
def beginStatus (s : State) : State :=
  ((setPhase 2 (s.setFlag govPage Fld.PTG_STATUS.busy true)).setFlag govPage Fld.PTG_STATUS.gang_timeout false).setFlag govPage
    Fld.PTG_STATUS.bind_err false

theorem beginStatus_reads (s : State) :
    (beginStatus s).flag govPage Fld.PTG_STATUS.busy = true ∧ (beginStatus s).fld govPage Fld.PTG_STATUS.phase = 2 ∧
    (beginStatus s).flag govPage Fld.PTG_STATUS.gang_timeout = false := by
  unfold beginStatus
  refine ⟨?busy, ?phase, ?timeout⟩
  case busy =>
    rw [State.flag_setFlag_ne _ _ _ _ _ _ (Or.inr (by decide)), State.flag_setFlag_ne _ _ _ _ _ _ (Or.inr (by decide)),
      flag_setPhase (by decide)]
    exact State.flag_setFlag_same _ _ _ _
  case phase =>
    unfold State.setFlag
    rw [State.fld_setFld_ne _ _ _ _ _ _ (Or.inr (by decide)), State.fld_setFld_ne _ _ _ _ _ _ (Or.inr (by decide)),
      fld_phase_setPhase (by decide)]
  case timeout =>
    rw [State.flag_setFlag_ne _ _ _ _ _ _ (Or.inr (by decide))]
    exact State.flag_setFlag_same _ _ _ _

theorem startBoundary_of_disabled {s : State} (h : s.flag govPage Fld.PTG_CTRL.enable = false) :
    startBoundary s = logStatus govPage stConflict s := by
  simp [startBoundary, h]

/-- A boundary that has begun. -/
def boundaryBegun (s : State) : State :=
  let t := beginStatus s
  { t with gov := { t.gov with started := t.time, changed := [], raises := [], timedOut := false },
           cask := { t.cask with critAt := none } }

theorem startBoundary_of_idle {s : State} (hen : s.flag govPage Fld.PTG_CTRL.enable = true)
    (hidle : s.flag govPage Fld.PTG_STATUS.busy = false) : startBoundary s = boundaryBegun s := by
  unfold startBoundary govBusy
  rw [hen, hidle, if_neg (by decide), boundaryBegun, beginStatus]

theorem boundaryBegun_regs (s : State) : (boundaryBegun s).regs = (beginStatus s).regs := rfl

theorem boundaryBegun_frame (s : State) : (boundaryBegun s).gov.started = s.time ∧ (boundaryBegun s).gov.changed = [] ∧
    (boundaryBegun s).units = s.units ∧ (boundaryBegun s).mem = s.mem ∧ (boundaryBegun s).streams = s.streams := by
  simp [boundaryBegun, beginStatus, setPhase]

/-! ### Combine, and phase 6 -/

/-- With no slice and nothing unread there is nothing to read out. -/
theorem readOut_of_empty {s : State} (hslices : s.hyds = []) (h0 : unreadStats s 0 = 0) (h1 : unreadStats s 1 = 0) (k : Nat) :
    readOut k s = s := by
  cases k with
  | zero => rfl
  | succ k => simp [readOut, hslices, h0, h1]

theorem tasteAll_of_off {s : State} (h : tasterOn s = false) : tasteAll s = s := by simp [tasteAll, h]

/-- Combine with nothing to read and no Taster goes on with the gang exchange, or with phase 6. -/
theorem boundaryCombine_of_empty {s : State} (hphase : govPhase s = 3) (htaster : tasterOn s = false) (hslices : s.hyds = [])
    (h0 : unreadStats s 0 = 0) (h1 : unreadStats s 1 = 0) :
    boundaryCombine s =
      if gangOn s then setPhase 5 { sendSummary s with gov := { s.gov with gangAt := s.time } } else fromPhase6 s := by
  unfold boundaryCombine
  rw [hphase, if_neg (by decide)]
  simp only [readOut_of_empty hslices h0 h1, tasteAll_of_off htaster]

/-- After phase 6 the boundary stands at its release, or in phase 6 while the verdict waits (log 61). -/
theorem phase_fromPhase6 (s : State) : (fromPhase6 s).fld govPage Fld.PTG_STATUS.phase = 9 ∨
    (fromPhase6 s).fld govPage Fld.PTG_STATUS.phase = 6 := by
  unfold fromPhase6
  dsimp only
  split
  · exact Or.inr (fld_phase_setPhase (by decide) _)
  · exact Or.inl (fld_phase_setPhase (by decide) _)

/-! ### Release -/

/-- The governor's registers at a release: the step advances, and the boundary's ticks are kept. -/
def tallied (s : State) : State :=
  let t := s.setRegN (govPage + 0x88) ((ptgStep s + 1) % 2 ^ 32)
  (t.setRegN (govPage + 0x8C) (min (2 ^ 32 - 1) (t.time - t.gov.started))).setFld govPage Fld.PTG_EXHAUSTED.commands 0

/-- A release drops what the boundary measured. -/
def dropMeasures (s : State) : State :=
  { s with gov := { s.gov with meas := [], peers := [], norms := [], ratios := [], raises := [], changed := [], timedOut := false,
                               verdictHeld := false } }

/-- A module that a boundary has released. -/
def released (s : State) : State := setPhase 0 ((dropMeasures (tallied s)).setFlag govPage Fld.PTG_STATUS.busy false)

theorem caskDue_setRegN {o : Nat} (h : o % 4096 ≠ 0x80) (v st : Nat) (s : State) : caskDue (s.setRegN o v) st = caskDue s st := by
  have hon : cskOn (s.setRegN o v) = cskOn s := by
    unfold cskOn State.flag
    rw [State.fld_setRegN, if_neg (by simp only [cellarPage, Fld.CSK_CTRL.enable]; omega)]
  unfold caskDue
  rw [hon]
  rfl

/-- A release with no layer changed, no abort and no Cask due. -/
theorem release9_plain {s : State} (hcask : caskDue s (ptgStep s) = false)
    (habort : s.flag tasterPage Fld.TST_STATUS.aborted = false) (hchanged : s.gov.changed = []) :
    release9 s = raiseEv govPage 0 (released s) := by
  have habort' : (s.setRegN (govPage + 0x88) ((ptgStep s + 1) % 2 ^ 32)).flag tasterPage Fld.TST_STATUS.aborted = false := by
    unfold State.flag
    rw [State.fld_setRegN, if_neg (by decide)]
    exact habort
  unfold release9
  simp only [hchanged, State.each_nil, habort', State.when_false, caskDue_setRegN (show (govPage + 0x88) % 4096 ≠ 0x80 by decide), hcask,
    List.isEmpty_nil, Bool.not_true]
  rw [released, dropMeasures, tallied]

theorem boundaryRelease_plain {s : State} (hphase : govPhase s = 9) (hcask : caskDue s (ptgStep s) = false)
    (habort : s.flag tasterPage Fld.TST_STATUS.aborted = false) (hchanged : s.gov.changed = []) :
    boundaryRelease s = raiseEv govPage 0 (released s) := by
  simp [boundaryRelease, hphase, hcask, release9_plain hcask habort hchanged]

theorem step_tallied (s : State) : (tallied s).regN (govPage + 0x88) = (s.regN (govPage + 0x88) + 1) % 2 ^ 32 := by
  unfold tallied
  rw [State.regN_setFld_ne _ _ _ _ (by decide), State.regN_setRegN_ne _ _ (by decide), State.regN_setRegN_same, Nat.mod_mod, ptgStep_eq]

theorem step_released (s : State) : (released s).regN (govPage + 0x88) = (s.regN (govPage + 0x88) + 1) % 2 ^ 32 := by
  rw [released, regN_setPhase (by decide), State.setFlag, State.regN_setFld_ne _ _ _ _ (by decide), dropMeasures, State.regN_withGov,
    step_tallied]

theorem busy_released (s : State) : (released s).flag govPage Fld.PTG_STATUS.busy = false := by
  unfold released
  rw [flag_setPhase (by decide)]
  exact State.flag_setFlag_same _ _ _ _

theorem phase_released (s : State) : (released s).fld govPage Fld.PTG_STATUS.phase = 0 := fld_phase_setPhase (by decide) _

theorem released_frame (s : State) : (released s).gov.meas = [] ∧ (released s).gov.peers = [] ∧ (released s).mem = s.mem ∧
    (released s).units = s.units ∧ (released s).streams = s.streams := by
  simp [released, setPhase, dropMeasures, tallied]

/-! ### The governor takes a record -/

/-- The read index is all that a record taken moves in a ring. -/
theorem read_takeStat (d : Nat) (s : State) :
    (takeStat d s).regN (hydroPage d + 0x90) = ringNext (ringSize s d) (s.regN (hydroPage d + 0x90)) % 2 ^ 32 := by
  have hpage := hydroPage_mod d
  have hstale : hydroPage d + 0x90 ≠ govPage + 0xCC := by unfold govPage; omega
  have hread := State.regN_setRegN_same s (hydroPage d + 0x90) (ringNext (ringSize s d) (s.regN (hydroPage d + 0x90)))
  unfold takeStat
  dsimp only
  split
  · exact (State.regN_setRegN_ne _ _ hstale).trans hread
  · exact (State.regN_withGov _ _ _).trans hread

/-- A record taken writes registers and joins the measures. -/
theorem takeStat_field {β : Type} (g : State → β) (hreg : ∀ o v t, g (State.setRegN t o v) = g t)
    (hgov : ∀ x t, g { t with gov := x } = g t) (d : Nat) (s : State) : g (takeStat d s) = g s := by
  unfold takeStat
  dsimp only
  split
  · exact (hreg _ _ _).trans (hreg _ _ s)
  · exact (hgov _ _).trans (hreg _ _ s)

theorem takeStat_frame (d : Nat) (s : State) :
    (takeStat d s).mem = s.mem ∧ (takeStat d s).units = s.units ∧ (takeStat d s).hyds = s.hyds :=
  ⟨takeStat_field (·.mem) (fun _ _ _ => rfl) (fun _ _ => rfl) d s, takeStat_field (·.units) (fun _ _ _ => rfl) (fun _ _ => rfl) d s,
    takeStat_field (·.hyds) (fun _ _ _ => rfl) (fun _ _ => rfl) d s⟩

theorem statQueueRelease_of_noSlices {s : State} {d : Nat} (hd : d < 2) (hen : s.flag govPage Fld.PTG_CTRL.enable = true)
    (hunread : unreadStats s d ≠ 0) (hslices : s.hyds = []) : statQueueRelease d s = takeStat d s := by
  obtain ⟨-, -, hhyds⟩ := takeStat_frame d s
  unfold statQueueRelease
  rw [if_pos hen, Nat.mod_eq_of_lt hd, bne_iff_ne.2 hunread, State.when_true, drainDie_of_noSlices (hhyds.trans hslices)]

/-! ### The commands of a boundary -/

section Commands

variable {s : State}

/-- STEP_END with enable begins a boundary where none runs. -/
theorem exec_stepEnd_begins {fn : Nat} {v : Word} (hg : Granted s fn govPage) (hend : bit v.toNat 1 = true)
    (hen : bit v.toNat 0 = true) (hidle : s.flag govPage Fld.PTG_STATUS.busy = false) :
    exec (.stepEnd fn v) s = .next (boundaryBegun (storeCtrl v.toNat s)) := by
  have hstart := startBoundary_of_idle ((enable_ctrlWritten v.toNat s).trans hen) ((busy_ctrlWritten v.toNat s).trans hidle)
  rw [exec_stepEnd hg, hend, State.when_true, hstart, ctrlWritten, if_pos hen]

/-- STEP_END without enable is refused. -/
theorem exec_stepEnd_refused {fn : Nat} {v : Word} (hg : Granted s fn govPage) (hend : bit v.toNat 1 = true)
    (hen : bit v.toNat 0 = false) : exec (.stepEnd fn v) s = .next (logStatus govPage stConflict (ctrlWritten v.toNat s)) := by
  rw [exec_stepEnd hg, hend, State.when_true, startBoundary_of_disabled ((enable_ctrlWritten v.toNat s).trans hen)]

theorem exec_boundaryQuiesced (hphase : govPhase s = 2) : exec .boundaryQuiesced s =
    .next (if (outstandingCmds s).isEmpty then setPhase 3 (s.each (s.hyds.map (·.1)) drainSlice) else s) := by
  change execBoundaryQuiesced s = _
  simp [execBoundaryQuiesced, boundaryQuiesced, hphase]

theorem exec_gangSummaryRx_last (hphase : govPhase s = 5) (hall : allPeers s = true) :
    exec .gangSummaryRx s = .next (fromPhase6 s) := by
  change execGangSummaryRx s = _
  simp [execGangSummaryRx, gangSummaryRx, hphase, hall]

theorem exec_gangTimeout_late (hphase : govPhase s = 5) (hwait : allPeers s = false)
    (hlate : s.gov.gangAt + s.fld govPage Fld.PTG_GANG_TO.ticks ≤ s.time) :
    exec .gangTimeout s = .next (fromPhase6 (raiseEv govPage 3
      (({ s with gov := { s.gov with timedOut := true } } : State).setFlag govPage Fld.PTG_STATUS.gang_timeout true))) := by
  change execGangTimeout s = _
  simp [execGangTimeout, gangTimeout, hphase, hwait, hlate]

theorem exec_boundaryRelease_plain (hphase : govPhase s = 9) (hcask : caskDue s (ptgStep s) = false)
    (habort : s.flag tasterPage Fld.TST_STATUS.aborted = false) (hchanged : s.gov.changed = []) :
    exec .boundaryRelease s = .next (raiseEv govPage 0 (released s)) :=
  congrArg Host.Outcome.next (boundaryRelease_plain hphase hcask habort hchanged)

theorem exec_statQueueRelease_takes {d : Nat} (hd : d < 2) (hen : s.flag govPage Fld.PTG_CTRL.enable = true)
    (hunread : unreadStats s d ≠ 0) (hslices : s.hyds = []) : exec (.statQueueRelease d) s = .next (takeStat d s) :=
  congrArg Host.Outcome.next (statQueueRelease_of_noSlices hd hen hunread hslices)

end Commands

/-- Settles O31: each command of a boundary does its one step of R204; the draining slices move ring pointers alone, so that PTG_CTRL
and PTG_STATUS read as they were written (R188, R204, R206, R207, R539, logs 27 and 61). -/
theorem stepBoundary : Obligations.StepBoundary := by
  unfold Obligations.StepBoundary
  intro s
  refine ⟨fun fn v hg => ⟨fun hend => ?written, exec_stepEnd_refused hg, fun hend hen hidle => ?begins⟩,
    fun hphase hnone => ?drains, fun hphase hsome => ?waits, fun hphase => ⟨_, rfl, ?gang, ?alone⟩,
    exec_gangSummaryRx_last, exec_gangTimeout_late, fun hphase hcask habort hchanged => ?release,
    fun d hd hen hunread hslices => ?takes⟩
  case written =>
    rw [exec_stepEnd hg, hend, State.when_false]
    rfl
  case begins =>
    obtain ⟨hbusy, hphase, htimeout⟩ := beginStatus_reads (storeCtrl v.toNat s)
    obtain ⟨hstarted, hchanged, hunits, hmem, hstreams⟩ := boundaryBegun_frame (storeCtrl v.toNat s)
    have hregs := boundaryBegun_regs (storeCtrl v.toNat s)
    exact ⟨_, exec_stepEnd_begins hg hend hen hidle, (State.flag_congr hregs _ _).trans hbusy, (State.fld_congr hregs _ _).trans hphase,
      hstarted, hchanged, (State.flag_congr hregs _ _).trans htimeout, hunits, hmem, hstreams⟩
  case drains =>
    rw [exec_boundaryQuiesced hphase, hnone]
    rfl
  case waits =>
    rw [exec_boundaryQuiesced hphase, if_neg (by simpa using hsome)]
  case gang =>
    intro hgang htaster hslices h0 h1
    rw [boundaryCombine_of_empty hphase htaster hslices h0 h1, gangOn, if_pos hgang]
    exact ⟨fld_phase_setPhase (by decide) _, rfl⟩
  case alone =>
    intro hgang htaster hslices h0 h1
    rw [boundaryCombine_of_empty hphase htaster hslices h0 h1, gangOn, hgang]
    exact phase_fromPhase6 s
  case release =>
    obtain ⟨hmeas, hpeers, hmem, hunits, hstreams⟩ := released_frame s
    have hexec := exec_boundaryRelease_plain hphase ((congrArg (caskDue s) (ptgStep_eq s)).trans hcask) habort hchanged
    refine ⟨_, hexec, ?step, ?busy, ?phase, ?meas, ?peers, bit_raiseEv _ rfl (by decide), ?mem, ?units, ?streams⟩
    case step => rw [regN_raiseEv _ (by decide) (by decide), step_released]
    case busy => rw [flag_raiseEv _ (by decide) (by decide), busy_released]
    case phase => rw [fld_raiseEv _ (by decide) (by decide), phase_released]
    case meas => simp [hmeas]
    case peers => simp [hpeers]
    case mem => simp [hmem]
    case units => simp [hunits]
    case streams => simp [hstreams]
  case takes =>
    obtain ⟨hmem, hunits, -⟩ := takeStat_frame d s
    exact ⟨_, exec_statQueueRelease_takes hd hen hunread hslices, read_takeStat d s, hmem, hunits⟩

end Sys2Proof.Machine

/-! PROOFS. The loss scale and the statistics rings: what writes of PTG_LSCALE and HYD_RING_CFG store, refuse and leave alone. -/

namespace Sys2Proof.Machine

variable {s : State}

/-! ### Error logs and fields of registers -/

/-- A log writes registers and the keys of first errors alone. -/
theorem logStatus_restored (b c : Nat) (s : State) : { logStatus b c s with regs := s.regs, firstErr := s.firstErr } = s := by
  cases s
  simp

/-- A status logged by the governor shows in ERR_STATUS and, as the first error, in ERR_FIRST; neither register of the loss scale
moves, and nothing outside the registers does. -/
theorem logStatus_govPage {c : Nat} (h0 : c ≠ 0) (hc : c < 32) (s : State) :
    bit ((logStatus govPage c s).regN (govPage + 0x18)) (errBit c) = true ∧
    (s.regN (govPage + 0x18) = 0 → bits ((logStatus govPage c s).regN (govPage + 0x1C)) 7 0 = c) ∧
    { logStatus govPage c s with regs := s.regs, firstErr := s.firstErr } = s ∧
    (logStatus govPage c s).reg (govPage + 0x104) = s.reg (govPage + 0x104) ∧
    (logStatus govPage c s).reg (govPage + 0x108) = s.reg (govPage + 0x108) :=
  ⟨bit_logStatus s h0 hc, first_logStatus s h0 hc, logStatus_restored _ c s, reg_logStatus s (by decide) (by decide),
    reg_logStatus s (by decide) (by decide)⟩

theorem State.reg_setFld_ne (b v : Nat) (f : Fld) {o : Nat} (h : o ≠ b + f.off) : (s.setFld b f v).reg o = s.reg o :=
  State.reg_setReg_ne s _ h

/-- The low byte decides the number that eight bits hold. -/
theorem sx_eight_bits (x : Nat) : sx 8 (bits x 7 0) = sx 8 x := by
  simp [sx, bits]

theorem sx_eight_mod (x : Nat) : sx 8 (x % 256) = sx 8 x := by
  simp [sx]

/-! ### A write of PTG_LSCALE -/

/-- The loss scale exponent stored, and its count of clean steps restarted. -/
def lossScaleSet (v : Nat) (s : State) : State :=
  (s.setFld govPage Fld.PTG_LSCALE.ls_exp (v % 256)).setFld govPage Fld.PTG_LS_GROW.clean 0

theorem lscaleWrite_of_busy (h : s.flag govPage Fld.PTG_STATUS.busy = true) (v : Nat) :
    lscaleWrite v s = logStatus govPage stConflict s :=
  if_pos h

theorem lscaleWrite_of_outside {v : Nat} (h : s.flag govPage Fld.PTG_STATUS.busy = false) (hv : sx 8 v < -24 ∨ 24 < sx 8 v) :
    lscaleWrite v s = logStatus govPage stFormat s := by
  simp [lscaleWrite, govBusy, h, hv]

theorem lscaleWrite_of_inside {v : Nat} (h : s.flag govPage Fld.PTG_STATUS.busy = false) (hlo : -24 ≤ sx 8 v) (hhi : sx 8 v ≤ 24) :
    lscaleWrite v s = lossScaleSet v s := by
  simp [lscaleWrite, govBusy, h, Int.not_lt.2 hlo, Int.not_lt.2 hhi, lossScaleSet]

theorem exec_lscaleWrite {fn : Nat} (h : Granted s fn govPage) (v : Word) :
    exec (.lscaleWrite fn v) s = .next (lscaleWrite v.toNat s) :=
  congrArg Host.Outcome.next (posted_granted h _ _ _)

theorem ls_exp_lossScaleSet (v : Nat) (s : State) : (lossScaleSet v s).fld govPage Fld.PTG_LSCALE.ls_exp = v % 256 :=
  calc (lossScaleSet v s).fld govPage Fld.PTG_LSCALE.ls_exp
    _ = (s.setFld govPage Fld.PTG_LSCALE.ls_exp (v % 256)).fld govPage Fld.PTG_LSCALE.ls_exp :=
        State.fld_setFld_ne _ _ _ _ _ _ (Or.inl (by decide))
    _ = v % 256 % 256 := State.fld_setFld_same s _ _ _
    _ = v % 256 := Nat.mod_mod _ _

theorem clean_lossScaleSet (v : Nat) (s : State) : (lossScaleSet v s).fld govPage Fld.PTG_LS_GROW.clean = 0 :=
  State.fld_setFld_same _ _ _ _

theorem reg_lossScaleSet {o : Nat} (hexp : o ≠ govPage + 0x104) (hgrow : o ≠ govPage + 0x108) (v : Nat) (s : State) :
    (lossScaleSet v s).reg o = s.reg o :=
  (State.reg_setFld_ne _ _ _ hgrow).trans (State.reg_setFld_ne _ _ _ hexp)

/-! ### A write of HYD_RING_CFG -/

/-- A disabled ring that is enabled with a size it may have takes that size and stands empty (R210). -/
theorem hydRingCfg_enables {d v : Nat} (hoff : s.flag (hydroPage d) Fld.HYD_RING_CFG.enable = false) (hon : bit v 5 = true)
    (hlo : 11 ≤ bits v 4 0) (hhi : bits v 4 0 ≤ 24) :
    hydRingCfg d v s = ((s.setRegN (hydroPage d + 0x88) (bits v 4 0 + 32)).setRegN (hydroPage d + 0x8C) (2 ^ 24)).setRegN
      (hydroPage d + 0x90) (2 ^ 24) := by
  have henable : bits v 5 5 = 1 := by rw [bits_one, hon]; rfl
  simp [hydRingCfg, hoff, hon, hlo, hhi, henable]

theorem exec_hydRingCfgWrite {fn d : Nat} (hd : d < 2) (h : Granted s fn (hydroPage d)) (v : Word) :
    exec (.hydRingCfgWrite fn d v) s = .next (hydRingCfg d v.toNat s) := by
  change execHydRingCfgWrite fn d v s = _
  rw [execHydRingCfgWrite, Nat.mod_eq_of_lt hd, posted_granted h]

end Sys2Proof.Machine

namespace Sys2Proof.Machine

/-- Settles O60: a refused write only logs its status, which touches neither register of the loss scale; one that is taken writes
those two registers alone (R229). -/
theorem lossScaleWrite : Obligations.LossScaleWrite := by
  unfold Obligations.LossScaleWrite
  intro s fn v hg
  dsimp only
  rw [sx_eight_bits, exec_lscaleWrite hg]
  refine ⟨fun hbusy => ?conflict, fun hidle hout => ?format, fun hidle hlo hhi => ?stored⟩
  case conflict =>
    rw [lscaleWrite_of_busy hbusy]
    exact ⟨_, rfl, logStatus_govPage (by decide) (by decide) s⟩
  case format =>
    rw [lscaleWrite_of_outside hidle hout]
    exact ⟨_, rfl, logStatus_govPage (by decide) (by decide) s⟩
  case stored =>
    rw [lscaleWrite_of_inside hidle hlo hhi]
    exact ⟨_, rfl, rfl, by rw [ls_exp_lossScaleSet, sx_eight_mod], clean_lossScaleSet _ s,
      fun o hexp hgrow => reg_lossScaleSet hexp hgrow _ s⟩

/-- Settles O32: a write of PTG_LSCALE by the case it falls in, and a ring as it is enabled (R229, R210). -/
theorem governorRegisters : Obligations.GovernorRegisters := by
  unfold Obligations.GovernorRegisters
  intro s fn v
  refine ⟨fun hg => ?lossScale, fun d hd hg hoff hon hlo hhi => ?ring⟩
  case lossScale =>
    rw [exec_lscaleWrite hg]
    exact ⟨fun hbusy => congrArg _ (lscaleWrite_of_busy hbusy _),
      fun hidle hout => congrArg _ (lscaleWrite_of_outside hidle hout),
      fun hidle hlo hhi => congrArg _ (lscaleWrite_of_inside hidle hlo hhi)⟩
  case ring =>
    rw [exec_hydRingCfgWrite hd hg, hydRingCfg_enables hoff hon hlo hhi]

end Sys2Proof.Machine

/-! PROOFS. A move into a lease that ends, and the statement about quotas and leases that it refutes. -/

namespace Sys2Proof.Machine

/-- A region of one Folio that holds one Tile: its home HBM, its floor the remote tier, its state entry at address 0. -/
def lentRegion : Region := ⟨16, 1, 512, 0xF, 0, 0, 2, 2, 4, 0x8000⟩

/-- The module in the tick in which a lease ends while the Tile of `lentRegion` moves from HBM into it: the Tile's state entry shows
tier 2 and transit (R246), and no command and no request waits. -/
def movingIntoLease : State :=
  { State.reset with
    mem := [(0, 10)]
    tiers := { Tiers.reset with
      regions := [(1, lentRegion)]
      moves := [⟨1, 0, 4, locWord (placeLease 0) 0, false, 0, 1, [], none⟩]
      leases := [(0, ⟨5, 2, false, 16, 0, 0⟩)] } }

/-- No Tile lies in the lease yet. -/
theorem leaseTiles_movingIntoLease : leaseTiles movingIntoLease 0 = [] := by decide +kernel

theorem unitsIdle_movingIntoLease : UnitsIdle movingIntoLease := fun _ hx => absurd hx List.not_mem_nil

/-- The move is given up, which clears transit in the Tile's state entry (R254). -/
theorem mem_leaseExpiry_movingIntoLease : (leaseExpiry 0 movingIntoLease).mem = [(0, 2)] := by decide +kernel

/-- Refutes O34: as a lease ends, a move into it is given up, and the state entry of the Tile that stays is written in memory
(R254, R261, log 41), though no Tile lies in the lease, no unit holds a command and no request waits. -/
theorem not_quotasAndLeases : ¬ Obligations.QuotasAndLeases := by
  unfold Obligations.QuotasAndLeases
  intro h
  obtain ⟨-, -, hleases⟩ := h movingIntoLease 0
  obtain ⟨-, -, hexpiry⟩ := hleases 0
  obtain ⟨t, hexec, -, -, -, hmem, -⟩ := hexpiry (by decide) (by decide) leaseTiles_movingIntoLease unitsIdle_movingIntoLease rfl
  obtain rfl : leaseExpiry 0 movingIntoLease = t := Host.Outcome.next.inj hexec
  rw [mem_leaseExpiry_movingIntoLease] at hmem
  exact absurd hmem (by decide)

end Sys2Proof.Machine

/-! PROOFS. A read of a counter that the model leaves free, and the statement about register reads that it refutes. -/

namespace Sys2Proof

theorem SMap.ne_of_mem_erase {α : Type} {m : SMap α} {k : Nat} {e : Nat × α} (h : e ∈ SMap.erase m k) : e.1 ≠ k := by
  induction m with
  | nil => exact absurd h List.not_mem_nil
  | cons x m ih =>
    obtain ⟨j, w⟩ := x
    simp only [SMap.erase] at h
    split at h
    · exact ih h
    · next hj =>
      rcases List.mem_cons.1 h with rfl | h
      · exact hj
      · exact ih h

/-- A write to a key that a table lists at what an unlisted key reads as changes the table, whatever is written: it takes the entry
out, or gives it another value. -/
theorem SMap.set_default_cons_ne {α : Type} [DecidableEq α] (d : Nat → α) (m : SMap α) (k : Nat) (v : α) :
    SMap.set d ((k, d k) :: m) k v ≠ (k, d k) :: m := by
  intro h
  unfold SMap.set at h
  split at h
  case isTrue =>
    have hmem : (k, d k) ∈ SMap.erase ((k, d k) :: m) k := by rw [h]; exact List.mem_cons_self
    exact SMap.ne_of_mem_erase hmem rfl
  case isFalse hv =>
    simp only [SMap.insert, Nat.lt_irrefl, if_false, if_true, List.cons.injEq, Prod.mk.injEq] at h
    exact hv h.1.2

end Sys2Proof

namespace Sys2Proof.Machine

/-- The first word of the bridge's counters in the page of die 1, which counts by a free amount (log 113). -/
def bridgeCounter : Nat := dieTopPage 1 + 0x30

/-- A module that is ready, whose registers list `bridgeCounter` at its reset value, and in which a word is kept for the physical
function's read of it. -/
def keptCounter : State :=
  { State.reset with
    regs := (bridgeCounter, regReset bridgeCounter) :: (State.reset.setFlag (resetPage 0) Fld.RST_STATUS.ready true).regs
    latch := [(latchKey 0 bridgeCounter, 0)] }

/-- The read is served, finds the kept word, and is of a counter that goes on (R483, R531, log 111). -/
theorem keptCounter_served : readOpen keptCounter 0 bridgeCounter = true ∧ mayReadAt keptCounter 0 bridgeCounter = true ∧
    readEdge bridgeCounter = none ∧ bridgeCounter ∉ loPairs ∧ latched keptCounter 0 bridgeCounter = some 0 ∧
    bridgeCounter ∈ freeCounters ∧ snapShown keptCounter = false := by
  decide +kernel

/-- Its answer leaves the registers as the counter's advance has left them. -/
theorem regs_answerRead_of_kept {s : State} {fn off : Nat} {v : Word} (hfree : off ∈ freeCounters) (hlive : snapShown s = false)
    (hlo : off ∉ loPairs) (hkept : latched s fn off = some v) : (answerRead fn off s).regs = (advanceFree off s).regs := by
  have hkept' : latched (advanceFree off s) fn off = some v := hkept
  simp only [answerRead, List.contains_eq_mem, hfree, hlive, hlo, decide_true, decide_false, Bool.not_false, Bool.and_self,
    State.when_true, State.when_false, hkept']
  rfl

/-- Refutes O53: a word that is kept for a counter of free grain is answered, but the counter advances first (log 113), so that the
registers do not stand. `keptCounter` lists the counter at its reset value: however far it advances, the list changes. -/
theorem not_hostReadsAndBar2 : ¬ Obligations.HostReadsAndBar2 := by
  unfold Obligations.HostReadsAndBar2
  intro h
  obtain ⟨hopen, hmay, hedge, hlo, hkept, hfree, hlive⟩ := keptCounter_served
  obtain ⟨-, -, -, -, hlatch, -⟩ := h keptCounter 0 bridgeCounter (by decide) (by decide) (by decide)
  obtain ⟨t, hexec, -, -, hregs, -⟩ := hlatch 0 hopen hmay hedge hlo hkept
  have hserved : exec (.loReadLatch 0 bridgeCounter) keptCounter = .next (answerRead 0 bridgeCounter keptCounter) := by
    change Host.Outcome.next (posted 0 _ (hostRead 0 bridgeCounter _) keptCounter) = _
    rw [posted_clear (by decide) (by decide)]
    simp only [hostRead, hopen, hmay, hedge, Bool.not_true, Bool.false_eq_true, if_false]
  obtain rfl : answerRead 0 bridgeCounter keptCounter = t := Host.Outcome.next.inj (hserved.symm.trans hexec)
  rw [regs_answerRead_of_kept hfree hlive hlo hkept] at hregs
  exact SMap.set_default_cons_ne regReset _ bridgeCounter _ hregs

end Sys2Proof.Machine

/-! PROOFS. The control packets: LEASE packets at a lender and at a borrower, STOP packets of Stop-press, pairing and mirrors, and the
statement about them. -/

namespace Sys2Proof.Machine

/-! ### What a delivery leaves to read -/

theorem tierPage_mod (d : Nat) : tierPage d % 4096 = 0 := by
  unfold tierPage dieWin
  omega

theorem resetPage_mod (d : Nat) : resetPage d % 4096 = 0 := by
  unfold resetPage dieWin
  omega

section Delivered

variable (s : State) (p : Nat) (pkt : Packet)

/-- A delivery writes the first counter of the routing page alone. -/
theorem regN_delivered {o : Nat} (h : o % 4096 ≠ 0x30) : (delivered s p pkt).regN o = s.regN o := by
  obtain ⟨hregs, -⟩ := delivered_frame s p pkt
  have hne : o ≠ routePage + 0x30 + 4 * 0 := fun he => h (by rw [he]; decide)
  rw [State.regN_congr hregs, regN_bump, if_neg hne]

theorem fld_delivered {b : Nat} {f : Fld} (h : (b + f.off) % 4096 ≠ 0x30) : (delivered s p pkt).fld b f = s.fld b f := by
  unfold State.fld
  rw [regN_delivered s p pkt h]

theorem flag_delivered {b : Nat} {f : Fld} (h : (b + f.off) % 4096 ≠ 0x30) : (delivered s p pkt).flag b f = s.flag b f := by
  unfold State.flag
  rw [fld_delivered s p pkt h]

theorem delivered_tiers : (delivered s p pkt).tiers = s.tiers := (delivered_frame s p pkt).2.2.1

theorem delivered_cask : (delivered s p pkt).cask = s.cask := takeIn_field s (·.cask) (fun _ _ => rfl) (fun _ => rfl) p pkt

theorem delivered_time : (delivered s p pkt).time = s.time := takeIn_field s (·.time) (fun _ _ => rfl) (fun _ => rfl) p pkt

theorem delivered_mzm : (delivered s p pkt).mzm = s.mzm := takeIn_field s (·.mzm) (fun _ _ => rfl) (fun _ => rfl) p pkt

theorem buddyId_delivered : buddyId (delivered s p pkt) = buddyId s := fld_delivered s p pkt (by decide)

theorem pairing_delivered : pairing (delivered s p pkt) = pairing s := fld_delivered s p pkt (by decide)

theorem feedId_delivered : feedId (delivered s p pkt) = feedId s := by
  unfold feedId
  rw [flag_delivered s p pkt (by decide), fld_delivered s p pkt (by decide), delivered_mzm]

theorem leaseOf_delivered (l : Nat) : leaseOf (delivered s p pkt) l = leaseOf s l := by
  unfold leaseOf
  rw [delivered_tiers]

theorem grantNamed_delivered : grantNamed (delivered s p pkt) pkt = grantNamed s pkt := by
  unfold grantNamed
  rw [delivered_tiers]

theorem unlent_delivered (d : Nat) : unlent (delivered s p pkt) d = unlent s d := by
  have hmod := tierPage_mod d
  unfold unlent
  rw [fld_delivered s p pkt (by simp only [Fld.DIE_LEND_CFG.lend_gb]; omega), delivered_tiers]

theorem lend_en_delivered (d : Nat) :
    (delivered s p pkt).flag (tierPage d) Fld.DIE_LEND_CFG.lend_en = s.flag (tierPage d) Fld.DIE_LEND_CFG.lend_en := by
  have hmod := tierPage_mod d
  exact flag_delivered s p pkt (by simp only [Fld.DIE_LEND_CFG.lend_en]; omega)

theorem mayLend_delivered (size : Nat) : mayLend (delivered s p pkt) size = mayLend s size := by
  funext d
  unfold mayLend
  rw [lend_en_delivered, unlent_delivered]

theorem grantPlace_delivered (size : Nat) : grantPlace (delivered s p pkt) size = grantPlace s size := by
  have hready : ∀ d, (delivered s p pkt).flag (resetPage d) Fld.RST_STATUS.bulk_ready = s.flag (resetPage d) Fld.RST_STATUS.bulk_ready := by
    intro d
    have hmod := resetPage_mod d
    exact flag_delivered s p pkt (by simp only [Fld.RST_STATUS.bulk_ready]; omega)
  unfold grantPlace lendPlace
  simp only [hready, mayLend_delivered, delivered_tiers]

end Delivered

/-! ### LEASE packets -/

section Leases

variable {s : State} {p : Nat} {pkt : Packet}

/-- A LEASE packet of the subtype that a command takes has its effect. -/
theorem leaseRx_of_wellArrived {sub : Nat} (hw : WellArrived s p pkt ptLease) (hsub : pkt.sub = sub) (act : State → State) :
    leaseRx sub p pkt act s = act (delivered s p pkt) := by
  unfold leaseRx
  rw [hsub, bne_self_eq_false, if_neg Bool.false_ne_true, receive_of_wellArrived hw]
  rfl

/-- A renewal or a release of a lease that the sender holds has its effect. -/
theorem heldLease_of_held {sub : Nat} {g : Grant} (hw : WellArrived s p pkt ptLease) (hsub : pkt.sub = sub)
    (hg : grantNamed s pkt = some g) (act : State → State) : heldLease sub p pkt act s = act (delivered s p pkt) := by
  unfold heldLease
  rw [hsub, bne_self_eq_false, if_neg Bool.false_ne_true, receive_of_wellArrived hw, hg]
  rfl

/-- One of a lease that the sender does not hold is refused (R306). -/
theorem heldLease_of_unknown {sub : Nat} (hw : WellArrived s p pkt ptLease) (hsub : pkt.sub = sub) (hg : grantNamed s pkt = none)
    (act : State → State) : heldLease sub p pkt act s = refusePkt p pkt stAddress s := by
  unfold heldLease
  rw [hsub, bne_self_eq_false, if_neg Bool.false_ne_true, receive_of_wellArrived hw, hg]
  rfl

/-- A die that does not lend, or has less than a request asks for, may not lend it. -/
theorem grantPlace_of_none {size : Nat}
    (h : ∀ k, k < 2 → s.flag (tierPage k) Fld.DIE_LEND_CFG.lend_en = false ∨ unlent s k < size) : grantPlace s size = none := by
  have hmay : ∀ k ∈ [0, 1], ¬ mayLend s size k = true := by
    intro k hk hmay
    simp only [mayLend, Bool.and_eq_true, decide_eq_true_eq] at hmay
    obtain ⟨hen, hfits⟩ := hmay
    rcases h k (by simp at hk; omega) with hoff | hfull
    · rw [hoff] at hen
      exact Bool.false_ne_true hen
    · omega
  unfold grantPlace
  rw [List.find?_eq_none.2 hmay, ite_self]

/-- The entry that a packet of its lender names. -/
theorem leaseFrom_delivered (hmine : pkt.stream < 64 ∧ (leaseOf s pkt.stream).state ≠ 0 ∧ (leaseOf s pkt.stream).dest = pkt.src) :
    leaseFrom (delivered s p pkt) pkt = some (leaseOf s pkt.stream) := by
  obtain ⟨hstream, hstate, hdest⟩ := hmine
  simp [leaseFrom, leaseOf_delivered, hstream, hstate, hdest]

theorem exec_leaseRequestRx_grants {b : Nat} (hw : WellArrived s p pkt ptLease) (hsub : pkt.sub = 0)
    (hb : grantPlace s (leaseSize pkt) = some b) : exec (.leaseRequestRx p pkt) s =
      .next (sendLease pkt.src 1 pkt.stream (leaseSize pkt) (leaseExpiryOf pkt) { delivered s p pkt with tiers :=
        { (delivered s p pkt).tiers with grants := (delivered s p pkt).tiers.grants ++
            [⟨pkt.src, pkt.stream, leaseSize pkt, leaseExpiryOf pkt, b⟩] } }) := by
  change Host.Outcome.next (leaseRx 0 p pkt (grantLease pkt) s) = _
  rw [leaseRx_of_wellArrived hw hsub, grantLease, grantPlace_delivered, hb]

theorem exec_leaseRequestRx_refuses (hw : WellArrived s p pkt ptLease) (hsub : pkt.sub = 0)
    (hnone : ∀ k, k < 2 → s.flag (tierPage k) Fld.DIE_LEND_CFG.lend_en = false ∨ unlent s k < leaseSize pkt) :
    exec (.leaseRequestRx p pkt) s =
      .next (sendLease pkt.src 2 pkt.stream (leaseSize pkt) (leaseExpiryOf pkt) (delivered s p pkt)) := by
  change Host.Outcome.next (leaseRx 0 p pkt (grantLease pkt) s) = _
  rw [leaseRx_of_wellArrived hw hsub, grantLease, grantPlace_delivered, grantPlace_of_none hnone]

theorem exec_leaseGrantRx_activates (hw : WellArrived s p pkt ptLease) (hsub : pkt.sub = 1)
    (hmine : pkt.stream < 64 ∧ (leaseOf s pkt.stream).state ≠ 0 ∧ (leaseOf s pkt.stream).dest = pkt.src)
    (hasked : (leaseOf s pkt.stream).state = 1) : exec (.leaseGrantRx p pkt) s = .next ((delivered s p pkt).setLease pkt.stream
      { leaseOf s pkt.stream with state := 2, size := leaseSize pkt, expiry := leaseExpiryOf pkt }) := by
  change Host.Outcome.next (leaseRx 1 p pkt (leaseActive pkt) s) = _
  rw [leaseRx_of_wellArrived hw hsub, leaseActive, leaseFrom_delivered hmine]
  exact congrArg _ (if_pos hasked)

theorem exec_leaseRefuseRx_frees (hw : WellArrived s p pkt ptLease) (hsub : pkt.sub = 2)
    (hmine : pkt.stream < 64 ∧ (leaseOf s pkt.stream).state ≠ 0 ∧ (leaseOf s pkt.stream).dest = pkt.src)
    (hasked : (leaseOf s pkt.stream).state = 1) : exec (.leaseRefuseRx p pkt) s =
      .next ((delivered s p pkt).setLease pkt.stream { leaseOf s pkt.stream with state := 0, refused := true }) := by
  change Host.Outcome.next (leaseRx 2 p pkt (leaseRefused pkt) s) = _
  rw [leaseRx_of_wellArrived hw hsub, leaseRefused, leaseFrom_delivered hmine]
  exact congrArg _ (if_pos hasked)

theorem exec_leaseRecallRx_shortens (hw : WellArrived s p pkt ptLease) (hsub : pkt.sub = 4)
    (hmine : pkt.stream < 64 ∧ (leaseOf s pkt.stream).state ≠ 0 ∧ (leaseOf s pkt.stream).dest = pkt.src)
    (hlive : 2 ≤ (leaseOf s pkt.stream).state) : exec (.leaseRecallRx p pkt) s =
      .next (raiseEv (tierPage 0) 2 ((delivered s p pkt).setLease pkt.stream
        { leaseOf s pkt.stream with state := 3, expiry := min (leaseOf s pkt.stream).expiry (leaseExpiryOf pkt) })) := by
  change Host.Outcome.next (leaseRx 4 p pkt (leaseRecalled pkt) s) = _
  rw [leaseRx_of_wellArrived hw hsub, leaseRecalled, leaseFrom_delivered hmine]
  exact congrArg _ (if_pos hlive)

theorem exec_leaseRenewRx_renews {g : Grant} (hw : WellArrived s p pkt ptLease) (hsub : pkt.sub = 3)
    (hg : grantNamed s pkt = some g) : exec (.leaseRenewRx p pkt) s =
      .next (if s.flag (tierPage g.die) Fld.DIE_LEND_CFG.lend_en then
          { delivered s p pkt with tiers := { (delivered s p pkt).tiers with
              grants := (delivered s p pkt).tiers.grants.map
                (fun y => if y == g then { y with expiry := leaseExpiryOf pkt } else y) } }
        else recallGrant g (delivered s p pkt)) := by
  change Host.Outcome.next (heldLease 3 p pkt (grantRenew pkt) s) = _
  rw [heldLease_of_held hw hsub hg, grantRenew, grantNamed_delivered, hg]
  simp only [lend_en_delivered]

theorem exec_leaseRenewRx_refuses (hw : WellArrived s p pkt ptLease) (hsub : pkt.sub = 3) (hg : grantNamed s pkt = none) :
    exec (.leaseRenewRx p pkt) s = .next (refusePkt p pkt stAddress s) :=
  congrArg _ (heldLease_of_unknown hw hsub hg _)

theorem exec_leaseReleaseRx_held (h : pkt.sub = 5) :
    exec (.leaseReleaseRx p pkt) s = .next (heldLease 5 p pkt (grantRelease pkt) s) :=
  congrArg _ (if_neg (by omega))

/-- A LEASE packet of a subtype without a meaning is delivered, and no more (R303, log 179). -/
theorem exec_leaseReleaseRx_other (hw : WellArrived s p pkt ptLease) (hsub : 5 < pkt.sub) :
    exec (.leaseReleaseRx p pkt) s = .next (delivered s p pkt) := by
  change Host.Outcome.next (if 5 < pkt.sub then leaseOther p pkt s else _) = _
  rw [if_pos hsub, leaseOther, if_pos hsub, leaseRx_of_wellArrived hw rfl]
  rfl

end Leases

/-! ### STOP packets -/

section Stops

variable {s : State} {p : Nat} {pkt : Packet}

/-- A STOP packet of the subtype that a command takes has its effect. -/
theorem stopRx_of_wellArrived {sub : Nat} (hw : WellArrived s p pkt ptStop) (hsub : pkt.sub = sub) (act : State → State) :
    stopRx sub p pkt act s = act (delivered s p pkt) := by
  unfold stopRx
  rw [hsub, bne_self_eq_false, if_neg Bool.false_ne_true, receive_of_wellArrived hw]
  rfl

theorem stopAsked_of_inTime {t : State} (harm : t.cask.armed = none) (htime : t.time + 64 < leNat (pkt.data.take 8)) :
    stopAsked pkt t = armStop (leNat (pkt.data.take 8)) t := by
  simp [stopAsked, harm, htime]

theorem stopAsked_of_late {t : State} (harm : t.cask.armed = none) (htime : leNat (pkt.data.take 8) ≤ t.time + 64) :
    stopAsked pkt t = sendStop pkt.src 1 [] t := by
  simp [stopAsked, harm, Nat.not_lt.2 htime]

theorem exec_stopArmRx_arms (hw : WellArrived s p pkt ptStop) (hsub : pkt.sub = 0) (harm : s.cask.armed = none)
    (htime : s.time + 64 < leNat (pkt.data.take 8)) :
    exec (.stopArmRx p pkt) s = .next (armStop (leNat (pkt.data.take 8)) (delivered s p pkt)) := by
  rw [← delivered_cask s p pkt] at harm
  rw [← delivered_time s p pkt] at htime
  change Host.Outcome.next (stopRx 0 p pkt (stopAsked pkt) s) = _
  rw [stopRx_of_wellArrived hw hsub, stopAsked_of_inTime harm htime]

theorem exec_stopArmRx_refuses (hw : WellArrived s p pkt ptStop) (hsub : pkt.sub = 0) (harm : s.cask.armed = none)
    (htime : leNat (pkt.data.take 8) ≤ s.time + 64) :
    exec (.stopArmRx p pkt) s = .next (sendStop pkt.src 1 [] (delivered s p pkt)) := by
  rw [← delivered_cask s p pkt] at harm
  rw [← delivered_time s p pkt] at htime
  change Host.Outcome.next (stopRx 0 p pkt (stopAsked pkt) s) = _
  rw [stopRx_of_wellArrived hw hsub, stopAsked_of_late harm htime]

/-! #### Pairing (R390) -/

theorem leNat_lt (l : List (BitVec 8)) : leNat l < 256 ^ l.length := by
  induction l with
  | nil => exact Nat.one_pos
  | cons v l ih =>
    have hv : v.toNat < 256 := v.isLt
    rw [leNat, List.length_cons, Nat.pow_succ]
    omega

theorem leNat_take_two_lt (l : List (BitVec 8)) : leNat (l.take 2) < 65536 :=
  calc leNat (l.take 2) < 256 ^ (l.take 2).length := leNat_lt _
    _ ≤ 256 ^ 2 := Nat.pow_le_pow_right (by decide) (List.length_take_le 2 l)
    _ = 65536 := by decide

theorem pairOutcome_lt (same ok named : Bool) : pairOutcome same ok named < 4 := by
  unfold pairOutcome
  split
  · decide
  · split
    · decide
    · split <;> decide

/-- The feed-domain id is not in the register that shows the buddy's. -/
theorem feedId_setRegN_E4 (t : State) (v : Nat) : feedId (t.setRegN (cellarPage + 0xE4) v) = feedId t := by
  have hmgmt : cellarPage + Fld.CSK_FEED.mgmt.off ≠ cellarPage + 0xE4 := by decide
  have hid : cellarPage + Fld.CSK_FEED.feed_id.off ≠ cellarPage + 0xE4 := by decide
  unfold feedId State.flag
  rw [State.fld_setRegN, State.fld_setRegN, if_neg hmgmt, if_neg hid]
  rfl

theorem same_feed_ok_setRegN_E4 (t : State) (v : Nat) :
    (t.setRegN (cellarPage + 0xE4) v).flag cellarPage Fld.CSK_BUDDY.same_feed_ok = t.flag cellarPage Fld.CSK_BUDDY.same_feed_ok := by
  unfold State.flag
  rw [State.fld_setRegN, if_neg (by decide)]

theorem regN_withCask (t : State) (c : CaskSt) (o : Nat) : ({ t with cask := c } : State).regN o = t.regN o :=
  State.regN_congr rfl o

theorem regN_setPairing {t : State} {o v : Nat} (h : o ≠ cellarPage + Fld.CSK_STATUS.pairing.off) :
    (setPairing v t).regN o = t.regN o :=
  State.regN_setFld_ne _ _ _ _ h

theorem pairing_setPairing (t : State) (v : Nat) : (setPairing v t).fld cellarPage Fld.CSK_STATUS.pairing = v % 4 :=
  State.fld_setFld_same _ _ _ _

/-- What an awaited answer leaves: no pairing awaited, the buddy's feed-domain id shown, and the outcome of the table Pairing. -/
theorem pairAnswered_of_awaited {t : State} (hat : t.cask.pairAt.isSome = true) (hsrc : pkt.src = buddyId t) :
    (pairAnswered pkt t).cask.pairAt = none ∧
      (pairAnswered pkt t).regN (cellarPage + 0xE4) = leNat (pkt.data.take 2) % 65536 + 2 ^ 16 ∧
      (pairAnswered pkt t).fld cellarPage Fld.CSK_STATUS.pairing = pairOutcome (leNat (pkt.data.take 2) == feedId t)
        (t.flag cellarPage Fld.CSK_BUDDY.same_feed_ok) (bit (leNat ((pkt.data.drop 2).take 1)) 0) := by
  have hnone : t.cask.pairAt.isNone = false := by rw [← Option.not_isSome, hat]; rfl
  have hid := leNat_take_two_lt pkt.data
  have hboth : ∀ (u : State) (c : Bool) (l : List (BitVec 8)), (u.when c (colBoth 0x0D l)).cask = u.cask ∧
      (u.when c (colBoth 0x0D l)).regs = u.regs := fun u c l =>
    ⟨State.when_field u State.cask c _ (by simp), State.when_field u State.regs c _ (by simp)⟩
  simp only [pairAnswered, hnone, hsrc, bne_self_eq_false, Bool.or_self, Bool.false_eq_true, if_false, feedId_setRegN_E4,
    same_feed_ok_setRegN_E4]
  generalize ho : pairOutcome _ _ _ = o
  have hlt : o < 4 := ho ▸ pairOutcome_lt _ _ _
  refine ⟨?_, ?_, ?_⟩
  · rw [(hboth _ _ _).1]
    simp
  · have hshown : leNat (pkt.data.take 2) % 65536 + 2 ^ 16 = (leNat (pkt.data.take 2) + 2 ^ 16) % 2 ^ 32 := by omega
    rw [State.regN_congr (hboth _ _ _).2, regN_setPairing (by decide), hshown, regN_withCask, State.regN_setRegN_same]
  · rw [State.fld_congr (hboth _ _ _).2, pairing_setPairing, Nat.mod_eq_of_lt hlt]

theorem exec_pairAnswerRx_settles (hw : WellArrived s p pkt ptStop) (hsub : pkt.sub = 3) (hat : s.cask.pairAt.isSome = true)
    (hsrc : pkt.src = buddyId s) : ∃ t, exec (.pairAnswerRx p pkt) s = .next t ∧ t.cask.pairAt = none ∧
      t.regN (cellarPage + 0xE4) = leNat (pkt.data.take 2) % 65536 + 2 ^ 16 ∧
      t.fld cellarPage Fld.CSK_STATUS.pairing = pairOutcome (leNat (pkt.data.take 2) == feedId s)
        (s.flag cellarPage Fld.CSK_BUDDY.same_feed_ok) (bit (leNat ((pkt.data.drop 2).take 1)) 0) := by
  refine ⟨_, congrArg Host.Outcome.next (stopRx_of_wellArrived hw hsub (pairAnswered pkt)), ?_⟩
  rw [← feedId_delivered s p pkt, ← flag_delivered s p pkt (b := cellarPage) (f := Fld.CSK_BUDDY.same_feed_ok) (by decide)]
  exact pairAnswered_of_awaited (by rw [delivered_cask]; exact hat) (by rw [buddyId_delivered]; exact hsrc)

/-! #### Mirrors (R391, R392) -/

/-- A write to the Cellar touches neither the copy that is received nor the copies that are whole. -/
theorem nandWrite_receiving_copies (own : Bool) (a : Nat) (l : List (BitVec 8)) (t : State) :
    (nandWrite own a l t).cask.receiving = t.cask.receiving ∧ (nandWrite own a l t).cask.copies = t.cask.copies := by
  unfold nandWrite
  generalize (if own then _ else _ : Bool) = waits
  cases waits with
  | true => exact ⟨rfl, rfl⟩
  | false => simp

theorem mirrorBegin_of_paired {t : State} (hsrc : pkt.src = buddyId t) (hpair : pairing t = 1) (hend : t.cask.endAsked = none) :
    ∃ k, (mirrorBegin pkt t).cask.receiving = some (k, leNat (pkt.data.take 8), leNat ((pkt.data.drop 8).take 8)) ∧
      (mirrorBegin pkt t).cask.copies = t.cask.copies.filter (· != k) := by
  unfold mirrorBegin
  rw [hsrc, hpair, hend, bne_self_eq_false]
  exact ⟨_, nandWrite_receiving_copies _ _ _ _⟩

theorem exec_mirrorBeginRx_receives (hw : WellArrived s p pkt ptStop) (hsub : pkt.sub = 4) (hsrc : pkt.src = buddyId s)
    (hpair : pairing s = 1) (hend : s.cask.endAsked = none) : ∃ t k, exec (.mirrorBeginRx p pkt) s = .next t ∧
      t.cask.receiving = some (k, leNat (pkt.data.take 8), leNat ((pkt.data.drop 8).take 8)) ∧
      t.cask.copies = s.cask.copies.filter (· != k) := by
  rw [← delivered_cask s p pkt] at hend ⊢
  rw [← buddyId_delivered s p pkt] at hsrc
  rw [← pairing_delivered s p pkt] at hpair
  obtain ⟨k, hreceiving, hcopies⟩ := mirrorBegin_of_paired hsrc hpair hend
  exact ⟨_, k, congrArg Host.Outcome.next (stopRx_of_wellArrived hw hsub (mirrorBegin pkt)), hreceiving, hcopies⟩

/-- What the check of a received copy leaves: the copy no longer received, counted if it is whole, and nothing asked. -/
theorem checkCopy_of_receiving {t : State} {k serial len : Nat} (hcrc : Nat) (hrec : t.cask.receiving = some (k, serial, len)) :
    (checkCopy hcrc t).cask.receiving = none ∧
      (checkCopy hcrc t).cask.copies = (if copyFault t k hcrc = 0 then t.cask.copies ++ [k] else t.cask.copies) ∧
      (checkCopy hcrc t).cask.endAsked = none ∧ (checkCopy hcrc t).mem = t.mem := by
  unfold checkCopy
  rw [hrec]
  exact ⟨by simp, by simp only [sendStop_frame]; rfl, by simp, by simp⟩

theorem copyFault_congr {t u : State} (h : t.mem = u.mem) (k hcrc : Nat) : copyFault t k hcrc = copyFault u k hcrc := by
  unfold copyFault State.num
  simp only [State.bytes_congr h]

/-- The state in which a mirror has ended and its copy is to be checked. -/
def mirrorEnded (hcrc : Nat) (t : State) : State := { t with cask := { t.cask with endAsked := some hcrc } }

theorem mirrorEnd_of_receiving {t : State} {x : Nat × Nat × Nat} (hrec : t.cask.receiving = some x) (hsrc : pkt.src = buddyId t) :
    mirrorEnd pkt t = if copyComing t then mirrorEnded (leNat (pkt.data.take 4)) t
      else checkCopy (leNat (pkt.data.take 4)) (mirrorEnded (leNat (pkt.data.take 4)) t) := by
  unfold mirrorEnd
  rw [hrec, hsrc, bne_self_eq_false]
  rfl

theorem checkCopy_mirrorEnded {t : State} {k serial len : Nat} (hcrc : Nat) (hrec : t.cask.receiving = some (k, serial, len)) :
    let u := checkCopy hcrc (mirrorEnded hcrc t)
    u.cask.receiving = none ∧ u.cask.copies = (if copyFault t k hcrc = 0 then t.cask.copies ++ [k] else t.cask.copies) ∧
      u.cask.endAsked = none ∧ u.mem = t.mem := by
  rw [copyFault_congr (show t.mem = (mirrorEnded hcrc t).mem from rfl)]
  exact checkCopy_of_receiving hcrc hrec

theorem exec_mirrorEndRx (hw : WellArrived s p pkt ptStop) (hsub : pkt.sub = 5) {x : Nat × Nat × Nat}
    (hrec : s.cask.receiving = some x) (hsrc : pkt.src = buddyId s) : exec (.mirrorEndRx p pkt) s =
      .next (if copyComing (delivered s p pkt) then mirrorEnded (leNat (pkt.data.take 4)) (delivered s p pkt)
        else checkCopy (leNat (pkt.data.take 4)) (mirrorEnded (leNat (pkt.data.take 4)) (delivered s p pkt))) := by
  rw [← delivered_cask s p pkt] at hrec
  rw [← buddyId_delivered s p pkt] at hsrc
  exact congrArg _ ((stopRx_of_wellArrived hw hsub _).trans (mirrorEnd_of_receiving hrec hsrc))

theorem exec_mirrorEndRx_checks (hw : WellArrived s p pkt ptStop) (hsub : pkt.sub = 5) {k serial len : Nat}
    (hrec : s.cask.receiving = some (k, serial, len)) (hsrc : pkt.src = buddyId s) (hall : copyComing (delivered s p pkt) = false) :
    ∃ t, exec (.mirrorEndRx p pkt) s = .next t ∧ t.cask.receiving = none ∧
      t.cask.copies = (if copyFault (delivered s p pkt) k (leNat (pkt.data.take 4)) = 0 then s.cask.copies ++ [k] else s.cask.copies) ∧
      t.cask.endAsked = none ∧ t.mem = s.mem := by
  obtain ⟨-, hmem, -⟩ := delivered_frame s p pkt
  refine ⟨_, exec_mirrorEndRx hw hsub hrec hsrc, ?_⟩
  have hcask := delivered_cask s p pkt
  rw [hall, if_neg Bool.false_ne_true, ← hcask, ← hmem]
  rw [← hcask] at hrec
  exact checkCopy_mirrorEnded _ hrec

theorem mirrorStatus_of_stale {t : State} {i : CaskImg} (hmir : t.cask.mirroring = some i) (hsrc : pkt.src = buddyId t)
    (hstale : t.cask.stale ≠ 0) : mirrorStatus pkt t = { t with cask := { t.cask with stale := t.cask.stale - 1 } } := by
  unfold mirrorStatus
  simp [hmir, hsrc, Nat.pos_of_ne_zero hstale]

theorem mirrorStatus_of_ok {t : State} {i : CaskImg} (hmir : t.cask.mirroring = some i) (hsrc : pkt.src = buddyId t)
    (hstale : t.cask.stale = 0) (hok : leNat (pkt.data.take 1) = 0) : mirrorStatus pkt t = raiseEv cellarPage 6
      (({ t with cask := { t.cask with mirroring := none, mirrored := some i } } : State).setFlag cellarPage
        Fld.CSK_STATUS.mirror_ok true) := by
  unfold mirrorStatus
  simp [hmir, hsrc, hstale, hok, stOk]

theorem exec_mirrorStatusRx_stale (hw : WellArrived s p pkt ptStop) (hsub : pkt.sub = 6) {i : CaskImg} (hmir : s.cask.mirroring = some i)
    (hsrc : pkt.src = buddyId s) (hstale : s.cask.stale ≠ 0) : exec (.mirrorStatusRx p pkt) s =
      .next { delivered s p pkt with cask := { (delivered s p pkt).cask with stale := (delivered s p pkt).cask.stale - 1 } } := by
  rw [← delivered_cask s p pkt] at hmir hstale
  rw [← buddyId_delivered s p pkt] at hsrc
  exact congrArg _ ((stopRx_of_wellArrived hw hsub _).trans (mirrorStatus_of_stale hmir hsrc hstale))

theorem exec_mirrorStatusRx_ok (hw : WellArrived s p pkt ptStop) (hsub : pkt.sub = 6) {i : CaskImg} (hmir : s.cask.mirroring = some i)
    (hsrc : pkt.src = buddyId s) (hstale : s.cask.stale = 0) (hok : leNat (pkt.data.take 1) = 0) :
    ∃ t, exec (.mirrorStatusRx p pkt) s = .next t ∧ t.cask.mirroring = none ∧ t.cask.mirrored = some i ∧
      t.flag cellarPage Fld.CSK_STATUS.mirror_ok = true ∧ t.mem = s.mem := by
  obtain ⟨-, hmem, -⟩ := delivered_frame s p pkt
  rw [← delivered_cask s p pkt] at hmir hstale
  rw [← buddyId_delivered s p pkt] at hsrc
  refine ⟨_, congrArg Host.Outcome.next ((stopRx_of_wellArrived hw hsub _).trans (mirrorStatus_of_ok hmir hsrc hstale hok)), ?_, ?_, ?_, ?_⟩
  · simp
  · simp
  · exact (flag_raiseEv _ (by decide) (by decide)).trans (State.flag_setFlag_same _ _ _ _)
  · simp [hmem]

/-! #### Gang notices (R378) -/

/-- A gang's notice asks for a Cask at the next step, and writes nothing else than registers. -/
theorem gangNotice_asks (t : State) : (gangNotice pkt t).cask.requested = true ∧ (gangNotice pkt t).cask.gangStep.isSome = true ∧
    (gangNotice pkt t).mem = t.mem ∧ (gangNotice pkt t).units = t.units := by
  have hstep : (if t.cask.gangStep.isSome then t.cask.gangStep else some (leNat (pkt.data.take 4))).isSome = true := by
    split
    · assumption
    · rfl
  have hpend : ∀ u : State, (pendCask u).cask = { u.cask with requested := true } ∧ (pendCask u).mem = u.mem ∧
      (pendCask u).units = u.units := fun u =>
    ⟨State.when_field _ State.cask _ _ (by simp), State.when_field _ State.mem _ _ (by simp), State.when_field _ State.units _ _ (by simp)⟩
  have hlate : ∀ (u : State) (c : Bool), let v := u.when c (fun s => s.setFlag cellarPage Fld.CSK_STATUS.gang_late true)
      v.cask = u.cask ∧ v.mem = u.mem ∧ v.units = u.units := fun u c =>
    ⟨State.when_field _ State.cask _ _ (by simp), State.when_field _ State.mem _ _ (by simp), State.when_field _ State.units _ _ (by simp)⟩
  simp only [gangNotice, hlate, hpend]
  exact ⟨trivial, hstep, trivial, trivial⟩

theorem exec_gangCaskRx_asks (hw : WellArrived s p pkt ptStop) (hsub : pkt.sub = 7) : ∃ t, exec (.gangCaskRx p pkt) s = .next t ∧
    t.cask.requested = true ∧ t.cask.gangStep.isSome = true ∧ t.mem = s.mem ∧ t.units = s.units := by
  obtain ⟨-, hmem, -, hunits, -⟩ := delivered_frame s p pkt
  refine ⟨_, congrArg Host.Outcome.next (stopRx_of_wellArrived hw hsub (gangNotice pkt)), ?_⟩
  rw [← hmem, ← hunits]
  exact gangNotice_asks _

end Stops

/-- Settles O37, a subtype of LEASE and of STOP after the other. -/
theorem leaseAndStopPackets : Obligations.LeaseAndStopPackets := by
  unfold Obligations.LeaseAndStopPackets
  intro s p pkt
  refine ⟨fun hw => ?lease, fun hw => ?stop⟩
  case lease =>
    refine ⟨fun b => exec_leaseRequestRx_grants hw, exec_leaseRequestRx_refuses hw, exec_leaseGrantRx_activates hw,
      exec_leaseRefuseRx_frees hw, fun g => exec_leaseRenewRx_renews hw, exec_leaseRecallRx_shortens hw, fun g hsub hg => ?release,
      fun hnone => ⟨fun hsub => exec_leaseRenewRx_refuses hw hsub hnone, fun hsub => ?unknown⟩, exec_leaseReleaseRx_other hw⟩
    case release =>
      rw [exec_leaseReleaseRx_held hsub, heldLease_of_held hw hsub hg]
      rfl
    case unknown =>
      rw [exec_leaseReleaseRx_held hsub, heldLease_of_unknown hw hsub hnone]
      rfl
  case stop =>
    refine ⟨exec_stopArmRx_arms hw, exec_stopArmRx_refuses hw, fun hsub => congrArg _ (stopRx_of_wellArrived hw hsub _),
      fun hsub => congrArg _ (stopRx_of_wellArrived hw hsub _), exec_pairAnswerRx_settles hw, exec_mirrorBeginRx_receives hw,
      fun k serial len hsub hrec hsrc => ⟨fun hcoming => ?coming, exec_mirrorEndRx_checks hw hsub hrec hsrc⟩,
      fun i hsub hmir hsrc => ⟨exec_mirrorStatusRx_stale hw hsub hmir hsrc, exec_mirrorStatusRx_ok hw hsub hmir hsrc⟩,
      exec_gangCaskRx_asks hw⟩
    case coming =>
      rw [exec_mirrorEndRx hw hsub hrec hsrc, hcoming, if_pos rfl]
      rfl

end Sys2Proof.Machine

/-! PROOFS. Regions, Tile moves, eviction and scrubbing: what a map and an unmap leave, what a move that starts adds, and the statement
about them. -/

namespace Sys2Proof

theorem SMap.find?_insert_same {α : Type} (m : SMap α) (k : Nat) (v : α) : SMap.find? (SMap.insert m k v) k = some v := by
  induction m with
  | nil => simp [SMap.insert, SMap.find?]
  | cons x m ih =>
    obtain ⟨j, w⟩ := x
    simp only [SMap.insert]
    split
    · simp [SMap.find?]
    · split
      · simp [SMap.find?]
      · next hne => rw [SMap.find?, if_neg (fun h => hne h.symm), ih]

theorem SMap.find?_erase_same {α : Type} (m : SMap α) (k : Nat) : SMap.find? (SMap.erase m k) k = none := by
  induction m with
  | nil => rfl
  | cons x m ih =>
    obtain ⟨j, w⟩ := x
    simp only [SMap.erase]
    split
    · exact ih
    · next hne => rw [SMap.find?, if_neg hne, ih]

namespace Machine

/-! ### What the writes of the tier manager leave -/

@[simp] theorem fixedWrite_frame (a n v : Nat) (s : State) :
    (fixedWrite a n v s).regs = s.regs ∧ (fixedWrite a n v s).units = s.units ∧ (fixedWrite a n v s).cores = s.cores ∧
      (fixedWrite a n v s).tiers = s.tiers ∧ (fixedWrite a n v s).time = s.time := by
  simp [fixedWrite, cleanEcc, copyFirst]

section

variable {β : Type} (g : State → β) (hwrite : ∀ a n v t, g (fixedWrite a n v t) = g t)

include hwrite

theorem setTileState_field (t : TileRef) (e : Nat) (s : State) : g (setTileState t e s) = g s := hwrite _ _ _ s

theorem setLeaves_field (f n e : Nat) (s : State) : g (setLeaves f n e s) = g s := by
  refine State.each_field s g _ (fun i s => ?_) _
  split
  · exact hwrite _ _ _ s
  · rfl

end

theorem freeTile_units (t : TileRef) (s : State) : (freeTile t s).units = s.units := by
  have hdrop : ∀ job tier len (u : State), (dropUse job tier len u).units = u.units := fun job tier len u => by
    unfold dropUse
    split <;> rfl
  unfold freeTile
  dsimp only
  split
  · rfl
  · exact hdrop _ _ _ _

@[simp] theorem tmResult_frame (code : Nat) (s : State) :
    (tmResult code s).units = s.units ∧ (tmResult code s).cores = s.cores ∧ (tmResult code s).tiers = s.tiers ∧
      (tmResult code s).cask = s.cask := ⟨rfl, rfl, rfl, rfl⟩

theorem region_congr {s t : State} (h : t.tiers = s.tiers) (r : Nat) : t.region r = s.region r := by
  unfold State.region
  rw [h]

theorem regN_tmResult (code : Nat) (s : State) : (tmResult code s).regN (tierPage 0 + 0x9C) = code * 2 % 2 ^ 32 :=
  State.regN_setRegN_same _ _ _

/-! ### Maps and unmaps (R244, R245) -/

section

variable {s : State} {fn r : Nat}

theorem exec_regionMap (h : Granted s fn (tierPage 0)) : exec (.regionMap fn r) s = .next (mapRegion r s) :=
  congrArg Host.Outcome.next (posted_granted h _ _ _)

theorem exec_regionUnmap (h : Granted s fn (tierPage 0)) : exec (.regionUnmap fn r) s = .next (unmapRegion r s) :=
  congrArg Host.Outcome.next (posted_granted h _ _ _)

theorem mapRegion_of_check (hbad : mapCheck s r ≠ 0) : mapRegion r s = tmResult (mapCheck s r) s :=
  if_pos (bne_iff_ne.2 hbad)

/-- A region listed as mapped. -/
def listRegion (r : Nat) (g : Region) (t : State) : State :=
  { t with tiers := { t.tiers with regions := SMap.insert t.tiers.regions r g } }

theorem region_listRegion (g : Region) (t : State) : (listRegion r g t).region r = some g := SMap.find?_insert_same _ _ _

@[simp] theorem listRegion_frame (g : Region) (t : State) :
    (listRegion r g t).units = t.units ∧ (listRegion r g t).cores = t.cores := ⟨rfl, rfl⟩

/-- The writes that map a region: the states of its Tiles and the leaf entries of its Folios. -/
def mapWrites (r : Nat) (g : Region) (s : State) : State :=
  setLeaves g.base g.folios (1 + 2 * r) (s.each (List.range g.tiles) (fun j => setTileState ⟨r, g, j⟩ tsNever))

theorem mapWrites_field {β : Type} (f : State → β) (hwrite : ∀ a n v t, f (fixedWrite a n v t) = f t) (g : Region) :
    f (mapWrites r g s) = f s :=
  (setLeaves_field f hwrite _ _ _ _).trans (State.each_field s f _ (fun _ s => setTileState_field f hwrite _ _ s) _)

theorem mapRegion_of_ok (hok : mapCheck s r = 0) (hfolios : (recRegion s r).folios ≠ 0) :
    mapRegion r s = raiseEv (tierPage 0) 0 (tmResult stOk (listRegion r (recRegion s r) (mapWrites r (recRegion s r) s))) := by
  simp only [mapRegion, listRegion, mapWrites, hok, stOk, bne_self_eq_false, Bool.false_eq_true, if_false, hfolios]

theorem mapRegion_maps (hok : mapCheck s r = 0) (hfolios : (recRegion s r).folios ≠ 0) :
    (mapRegion r s).region r = some (recRegion s r) ∧ (mapRegion r s).regN (tierPage 0 + 0x9C) = 0 ∧
      bit ((mapRegion r s).regN (tierPage 0 + 0x20)) 0 = true ∧ (mapRegion r s).units = s.units ∧ (mapRegion r s).cores = s.cores := by
  rw [mapRegion_of_ok hok hfolios]
  refine ⟨?_, ?_, bit_raiseEv _ (by decide) (by decide), ?_, ?_⟩
  · rw [region_congr (s := listRegion r (recRegion s r) (mapWrites r (recRegion s r) s)) (by simp), region_listRegion]
  · rw [regN_raiseEv _ (by decide) (by decide), regN_tmResult, stOk, Nat.zero_mul, Nat.zero_mod]
  · simp only [raiseEv_frame, tmResult_frame, listRegion_frame]
    exact mapWrites_field State.units (by simp) _
  · simp only [raiseEv_frame, tmResult_frame, listRegion_frame]
    exact mapWrites_field State.cores (by simp) _

theorem unmapRegion_of_beyond (hr : regionLimit s ≤ r) : unmapRegion r s = tmResult stFormat s := if_pos hr

/-- The Tiles of a region that is unmapped, none of them in transit, pinned or claimed, are not in its way. -/
theorem any_tile_eq_false {g : Region} (hfree : ∀ j, j < g.tiles → tsTransit (tileState s ⟨r, g, j⟩) = false ∧
      tsPins (tileState s ⟨r, g, j⟩) = 0 ∧ tsClaims (tileState s ⟨r, g, j⟩) = 0) :
    ((List.range g.tiles).map (fun j => (⟨r, g, j⟩ : TileRef))).any
      (fun t => tsTransit (tileState s t) || tsPins (tileState s t) != 0 || tsClaims (tileState s t) != 0) = false := by
  rw [List.any_map, List.any_eq_false]
  intro j hj
  obtain ⟨htransit, hpins, hclaims⟩ := hfree j (List.mem_range.1 hj)
  simp [htransit, hpins, hclaims]

/-- A region listed no more. -/
def dropRegion (r : Nat) (t : State) : State :=
  { t with
    tiers := { t.tiers with regions := SMap.erase t.tiers.regions r }
    cask := { t.cask with heel := t.cask.heel.filter (· != r) } }

theorem region_dropRegion (t : State) : (dropRegion r t).region r = none := SMap.find?_erase_same _ _

theorem dropRegion_units (t : State) : (dropRegion r t).units = t.units := rfl

/-- What an unmap does to a region's Tiles and Folios: the Tiles' memory goes free, the leaf entries are cleared. -/
def unmapWrites (r : Nat) (g : Region) (s : State) : State :=
  setLeaves g.base g.folios 0 (s.each ((List.range g.tiles).map (fun j => (⟨r, g, j⟩ : TileRef))) freeTile)

theorem unmapWrites_units (g : Region) : (unmapWrites r g s).units = s.units :=
  (setLeaves_field State.units (by simp) _ _ _ _).trans (State.each_field s State.units _ freeTile_units _)

theorem unmapRegion_of_free {g : Region} (hr : r < regionLimit s) (hg : s.region r = some g) (hpend : s.cask.pend = [])
    (hfree : ∀ j, j < g.tiles → tsTransit (tileState s ⟨r, g, j⟩) = false ∧ tsPins (tileState s ⟨r, g, j⟩) = 0 ∧
      tsClaims (tileState s ⟨r, g, j⟩) = 0) : unmapRegion r s = tmResult stOk (dropRegion r (unmapWrites r g s)) := by
  unfold unmapRegion
  rw [if_neg (Nat.not_le.2 hr), hg, hpend]
  simp only [List.any_nil, any_tile_eq_false hfree, Bool.or_self, Bool.false_eq_true, if_false]
  rfl

end

/-! ### Moves (R253, R257) -/

section

variable {β : Type} (g : State → β) (hsend : ∀ u k t, g (sendTracked u k t) = g t)

include hsend

theorem askLeaseTile_field (t : TileRef) (loc len : Nat) (s : State) : g (askLeaseTile t loc len s) = g s :=
  State.each_field s g _ (fun _ s => hsend _ _ s) _

theorem sendLeaseTile_field (t : TileRef) (loc : Nat) (s : State) : g (sendLeaseTile t loc s) = g s :=
  State.each_field s g _ (fun _ s => hsend _ _ s) _

end

theorem sendTracked_time_tiers (u : Nat) (k : Packet) (s : State) :
    (sendTracked u k s).time = s.time ∧ (sendTracked u k s).tiers = s.tiers := by
  simp [sendTracked]

theorem addUse_time_moves (job tier len : Nat) (s : State) :
    (addUse job tier len s).time = s.time ∧ (addUse job tier len s).tiers.moves = s.tiers.moves := by
  unfold addUse
  split <;> exact ⟨rfl, rfl⟩

section

variable (t : TileRef) (tier pl off : Nat) (s : State)

/-- The state of a move that starts to byte `off` of memory `pl`, before it is listed: the place taken, transit set, and its packets to
or from a lender sent. -/
def moveBegun : State :=
  let len := heldLen s t tier
  let e := tileState s t
  let u := setTileState t (putBits e 3 3 1) (addUse t.reg.job tier len (addExtent pl off len s))
  let u := u.when (tsTier e == 4 && tier != 4) (askLeaseTile t (tsLoc e) (16 + tsClen e))
  u.when (tier == 4 && !(sourceBad u t)) (sendLeaseTile t (locWord pl off))

theorem moveBegun_field {β : Type} (g : State → β) (hsend : ∀ u k x, g (sendTracked u k x) = g x)
    (hwrite : ∀ a n v x, g (fixedWrite a n v x) = g x) : g (moveBegun t tier pl off s) =
      g (addUse t.reg.job tier (heldLen s t tier) (addExtent pl off (heldLen s t tier) s)) :=
  (State.when_field _ g _ _ (sendLeaseTile_field g hsend _ _ _)).trans
    ((State.when_field _ g _ _ (askLeaseTile_field g hsend _ _ _ _)).trans (setTileState_field g hwrite _ _ _))

theorem moveBegun_time : (moveBegun t tier pl off s).time = s.time :=
  (moveBegun_field t tier pl off s State.time (fun u k x => (sendTracked_time_tiers u k x).1) (by simp)).trans
    (addUse_time_moves _ _ _ _).1

theorem moveBegun_moves : (moveBegun t tier pl off s).tiers.moves = s.tiers.moves :=
  (moveBegun_field t tier pl off s (·.tiers.moves) (fun u k x => congrArg Tiers.moves (sendTracked_time_tiers u k x).2) (by simp)).trans
    (addUse_time_moves _ _ _ _).2

end

section

variable {s s' : State}

/-- A move that starts is added to those under way, with the time and its asker. -/
theorem startMove_adds {t : TileRef} {tier : Nat} {promo : Bool} {asker : Option Asker} (h : startMove t tier promo asker s = some s') :
    ∃ loc n, s'.tiers.moves = s.tiers.moves ++ [⟨t.id, t.j, tier, loc, promo, s.time, n, [], asker⟩] := by
  unfold startMove at h
  dsimp only at h
  split at h
  · cases h
  · split at h
    · cases h
    · next pl off _ =>
      obtain rfl := Option.some.inj h
      refine ⟨locWord pl off, (moveBegun t tier pl off s).outst.length - s.outst.length, ?_⟩
      rw [← moveBegun_moves t tier pl off s, ← moveBegun_time t tier pl off s]
      rfl

/-- A Tile is named by its region's number and its own. -/
theorem tileRef_eq_some {r j : Nat} {k : TileRef} (h : tileRef s r j = some k) : k.id = r ∧ k.j = j := by
  unfold tileRef at h
  split at h
  · split at h
    · obtain rfl := Option.some.inj h
      exact ⟨rfl, rfl⟩
    · cases h
  · cases h

section

variable {k : TileRef} {target : Nat} (hceil : k.reg.ceiling ≤ target) (hfloor : target ≤ k.reg.floor)
  (htier : tsTier (tileState s k) ≤ 4) (hlost : tsLost (tileState s k) = false) (htransit : tsTransit (tileState s k) = false)
  (hroom : moveRoom s k = true)

include hceil hfloor htier hlost in
/-- The Tile may go to the tier that the request names. -/
theorem notOut_of : (!(decide (k.reg.ceiling ≤ target) && decide (target ≤ k.reg.floor)) || decide (4 < tsTier (tileState s k)) ||
    tsLost (tileState s k)) = false := by
  simp [hceil, hfloor, htier, hlost]

include hceil hfloor htier hlost htransit hroom

theorem request_promotes (hup : target < tsTier (tileState s k)) (h : startMove k target true none s = some s') :
    request 0 target none k s = s' := by
  have hout := notOut_of hceil hfloor htier hlost
  have hpromote : promote k target none s = s' := by
    unfold promote
    rw [hroom, h]
    rfl
  simp only [request, hout, htransit, Bool.false_eq_true, if_false, if_neg (Nat.not_le.2 hup), hpromote]

theorem request_evicts (hdown : tsTier (tileState s k) < target) (hpin : pinned s k = false) (hbusy : busyTile s k = false)
    (h : startMove k target false none s = some s') : request 1 target none k s = s' := by
  have hout := notOut_of hceil hfloor htier hlost
  simp only [request, hout, htransit, hpin, hbusy, hroom, h, Bool.false_eq_true, if_false, Bool.false_or, Bool.not_true,
    decide_eq_true_eq, if_neg (Nat.not_le.2 hdown)]

end

/-- What TILE_MOVE asks for by the Tile's tier. -/
theorem exec_tileMove {r j tier : Nat} {k : TileRef} (hk : tileRef s r j = some k) (hne : tsTier (tileState s k) ≠ tier) :
    exec (.tileMove r j tier) s =
      .next (settle (request (if tier < tsTier (tileState s k) then 0 else 1) tier none k s)) := by
  change Host.Outcome.next (tileMove r j tier s) = _
  unfold tileMove
  rw [hk]
  exact congrArg _ (if_neg hne)

theorem exec_tileMove_none {r j tier : Nat} (hk : tileRef s r j = none) : exec (.tileMove r j tier) s = .next s := by
  change Host.Outcome.next (tileMove r j tier s) = _
  unfold tileMove
  rw [hk]

/-- A move whose bytes have all come and that needs no gated store is committed. -/
theorem exec_tileMoveCommit {r j : Nat} {m : Move} (hedge : moveEdge s r j = none)
    (hm : s.tiers.moves.find? (fun x => x.region == r && x.tile == j) = some m) (hleft : m.left = 0) :
    exec (.tileMoveCommit r j) s = .next (rerun (settle (tryArrays modulePath (endMove m s)))) := by
  have hcommit : tileMoveCommit r j s = settle (tryArrays modulePath (endMove m s)) := by
    unfold tileMoveCommit
    rw [hm]
    simp only [hleft, bne_self_eq_false, Bool.false_and, Bool.false_eq_true, if_false]
  change Host.Outcome.next (rerun (moveTry r j s)) = _
  unfold moveTry
  rw [hedge, hcommit]

/-! ### Eviction and scrubbing (R256, R264) -/

theorem exec_watermarkEvict (kind idx : Nat) : exec (.watermarkEvict kind idx) s =
    .next (let l := wmPlaces kind idx; let w := wmLevels s kind (wmDie kind idx)
      if w.1 * wmSize s l < wmUse s l * 64 then
        evictMany (wmTiles s l) (wmUse s l - w.2 * wmSize s l / 64 - leaving (fun t => l.contains (placeOf s t)) s) s
      else s) := rfl

/-- The state of a scrub step whose controller has advanced to its next block. -/
def scrubbed (s : State) (c : Nat) : State :=
  { s with tiers := { s.tiers with
      scrub := SMap.set (fun _ => 0) s.tiers.scrub c ((SMap.get (fun _ => 0) s.tiers.scrub c + 1) % scrubBlocks c) } }

theorem scrubs_of {c : Nat} (hc : c ≤ 17) (hexp : scrubExp s c ≠ 0) :
    ¬ (decide (17 < c) || decide (scrubExp s c = 0)) = true := by
  simp [hc, hexp]

theorem scrubTick_of_free {c found : Nat} (hc : c ≤ 17) (hexp : scrubExp s c ≠ 0)
    (hfree : atPlace (scrubbed s c) c (64 * SMap.get (fun _ => 0) s.tiers.scrub c) = none) :
    scrubTick c found s = if found = 1 then countEcc c 2 (countEcc c 0 (scrubbed s c))
      else if found = 2 then raiseEv (tierPage (placeDie c)) 4
        (recordEcc c (64 * SMap.get (fun _ => 0) s.tiers.scrub c) true (countEcc c 1 (scrubbed s c)))
      else scrubbed s c := by
  unfold scrubTick
  rw [if_neg (scrubs_of hc hexp)]
  simp only [scrubbed] at hfree ⊢
  rw [hfree]

theorem scrubWord_of_clean {c o key : Nat} (t : Option TileRef) (h : s.eccAt key = 0) : scrubWord c o key t s = s := by
  unfold scrubWord
  split
  · rfl
  · next h1 => rw [h] at h1; cases h1
  · next h0 _ => exact absurd h h0

theorem scrubTick_of_clean {c found key : Nat} {t : Option TileRef} (hc : c ≤ 17) (hexp : scrubExp s c ≠ 0)
    (hheld : atPlace (scrubbed s c) c (64 * SMap.get (fun _ => 0) s.tiers.scrub c) = some (key, t)) (h1 : found ≠ 1) (h2 : found ≠ 2)
    (hclean : ∀ i, i < 8 → s.eccAt (key + 8 * i) = 0) : scrubTick c found s = scrubbed s c := by
  have hword : ∀ i ∈ List.range 8, scrubWord c (64 * SMap.get (fun _ => 0) s.tiers.scrub c + 8 * i) (key + 8 * i) t (scrubbed s c) =
      scrubbed s c := fun i hi => scrubWord_of_clean t (hclean i (List.mem_range.1 hi))
  unfold scrubTick
  rw [if_neg (scrubs_of hc hexp)]
  simp only [scrubbed] at hheld hword ⊢
  rw [hheld]
  simp only [h1, h2, decide_false, Bool.or_self, Bool.false_eq_true, if_false]
  exact State.each_of_fixed _ hword

end

/-- Settles O33: each clause from the lemma above about its command, with its hypotheses as they stand. -/
theorem regionsAndMoves : Obligations.RegionsAndMoves := by
  unfold Obligations.RegionsAndMoves
  intro s fn r hg
  refine ⟨fun hbad => ?check, fun hok hfolios => ⟨_, exec_regionMap hg, mapRegion_maps hok hfolios⟩, fun hr => ?beyond,
    fun g hr hreg hpend hfree => ?unmap, fun j tier => exec_tileMove_none,
    fun j tier k hk hceil hfloor htier hlost htransit hroom promo s' hstart =>
      ⟨?added, fun hp hup => ?promotion, fun hp hdown hpin hbusy => ?eviction⟩,
    fun j m => exec_tileMoveCommit, fun kind idx => ⟨fun hlow => ?below, fun hhigh => ?above⟩,
    fun c found hc hexp => ⟨fun hfree => congrArg _ (scrubTick_of_free hc hexp hfree),
      fun key t hheld h1 h2 hclean => congrArg _ (scrubTick_of_clean hc hexp hheld h1 h2 hclean)⟩⟩
  case check => rw [exec_regionMap hg, mapRegion_of_check hbad]; rfl
  case beyond => rw [exec_regionUnmap hg, unmapRegion_of_beyond hr]; rfl
  case unmap =>
    refine ⟨_, exec_regionUnmap hg, ?_⟩
    rw [unmapRegion_of_free hr hreg hpend hfree]
    refine ⟨?_, regN_tmResult _ _, ?_⟩
    · rw [region_congr (s := dropRegion r (unmapWrites r g s)) (by simp), region_dropRegion]
    · rw [(tmResult_frame _ _).1, dropRegion_units, unmapWrites_units]
  case added =>
    obtain ⟨rfl, rfl⟩ := tileRef_eq_some hk
    exact startMove_adds hstart
  case promotion =>
    subst hp
    rw [exec_tileMove hk (by omega), if_pos hup, request_promotes hceil hfloor htier hlost htransit hroom hup hstart]
  case eviction =>
    subst hp
    rw [exec_tileMove hk (by omega), if_neg (by omega),
      request_evicts hceil hfloor htier hlost htransit hroom hdown hpin hbusy hstart]
  case below => exact (exec_watermarkEvict kind idx).trans (congrArg _ (if_neg (Nat.not_lt.2 hlow)))
  case above => exact (exec_watermarkEvict kind idx).trans (congrArg _ (if_pos hhigh))

end Machine

end Sys2Proof

/-! PROOFS. The allocator of stream contexts, and the statement about STREAM_ALLOC. -/

namespace Sys2Proof.Machine

set_option Elab.async false

/-- The first hit of a search of 0, 1, … lies at the least index that has one. -/
theorem findSome?_range_of_least {α : Type} {f : Nat → Option α} {b : α} {n k : Nat} (hk : k < n) (hit : f k = some b)
    (hnone : ∀ j, j < k → f j = none) : (List.range n).findSome? f = some b := by
  induction n with
  | zero => exact absurd hk (Nat.not_lt_zero k)
  | succ n ih =>
    rw [List.range_succ, List.findSome?_append]
    rcases Nat.lt_succ_iff_lt_or_eq.1 hk with hlt | rfl
    · rw [ih hlt]; rfl
    · rw [List.findSome?_eq_none_iff.2 (fun j hj => hnone j (List.mem_range.1 hj))]
      simp [hit]

theorem State.stream_congr {s t : State} (h : t.streams = s.streams) (j : Nat) : t.stream j = s.stream j := by
  unfold State.stream; rw [h]

section Allocation

variable {s : State} {fn : Nat} {v : Word}

/-! ### The allocator's queue (R273, log 46) -/

theorem exec_streamAlloc (hfn : fn < 32) (ha : Admitted s fn) :
    exec (.streamAlloc fn v) s = .next { s with allocs := s.allocs ++ [(fn, v)] } := by
  obtain ⟨hready, -⟩ := ha.2 hfn
  have hwaits : streamAlloc fn v s = { s with allocs := s.allocs ++ [(fn, v)] } := by
    simp [streamAlloc, hready, Nat.not_le.2 hfn]
  exact congrArg Host.Outcome.next ((posted_admitted ha _ _).trans hwaits)

/-- A request at the head whose function is the lowest that waits is served next. -/
theorem nextAlloc_of_lowest {l : List (Nat × Word)} (hfn : fn < 32) (hlow : ∀ x ∈ l, fn ≤ x.1) (hs : s.allocs = (fn, v) :: l) :
    nextAlloc s = some (fn, v) := by
  unfold nextAlloc
  rw [hs]
  refine findSome?_range_of_least hfn (by simp) (fun j hj => ?_)
  refine List.find?_eq_none.2 (fun x hx => ?_)
  rcases List.mem_cons.1 hx with rfl | hx
  · simp; omega
  · have := hlow x hx
    simp; omega

theorem serveAlloc_of_lowest {l : List (Nat × Word)} (hfn : fn < 32) (hlow : ∀ x ∈ l, fn ≤ x.1) :
    serveAlloc { s with allocs := (fn, v) :: l } = allocOutcome fn v { s with allocs := l } := by
  unfold serveAlloc
  rw [nextAlloc_of_lowest hfn hlow rfl]
  simp [dropFirst]

/-! ### The outcomes (R273) -/

theorem allocOutcome_of_full (hfull : 65536 ≤ allocCount s) :
    allocOutcome fn v s = raiseEv (streamPage 0) 1 (allocResult fn 0xFFFF stStreamFull (s.bump (streamPage 0) 1 1)) :=
  if_pos hfull

theorem allocOutcome_of_notOwn (hroom : allocCount s < 65536)
    (hjob : (s.job (bits v.toNat 11 0)).valid = false ∨ (s.job (bits v.toNat 11 0)).fn ≠ fn) :
    allocOutcome fn v s = allocResult fn 0xFFFF stPrivilege s := by
  refine (if_neg (Nat.not_le.2 hroom)).trans (if_pos ?_)
  rcases hjob with h | h
  · simp [h]
  · simp [h]

theorem allocOutcome_of_ownJob (hroom : allocCount s < 65536) (hvalid : (s.job (bits v.toNat 11 0)).valid = true)
    (hown : (s.job (bits v.toNat 11 0)).fn = fn) :
    allocOutcome fn v s = if (s.job (bits v.toNat 11 0)).limit ≤ jobStreams s (bits v.toNat 11 0) then allocResult fn 0xFFFF stQuota s
      else match (match lowestFree s (bits v.toNat 14 14) with
          | some i => some i
          | none => lowestFree s (1 - bits v.toNat 14 14)) with
        | some id => grantStream fn id (bits v.toNat 11 0) (bits v.toNat 13 12) s
        | none => s :=
  (if_neg (Nat.not_le.2 hroom)).trans (if_neg (by simp [hvalid, hown]))

theorem allocOutcome_of_limit (hroom : allocCount s < 65536) (hvalid : (s.job (bits v.toNat 11 0)).valid = true)
    (hown : (s.job (bits v.toNat 11 0)).fn = fn) (hlimit : (s.job (bits v.toNat 11 0)).limit ≤ jobStreams s (bits v.toNat 11 0)) :
    allocOutcome fn v s = allocResult fn 0xFFFF stQuota s := by
  rw [allocOutcome_of_ownJob hroom hvalid hown, if_pos hlimit]

theorem allocOutcome_grants {id : Nat} (hroom : allocCount s < 65536) (hvalid : (s.job (bits v.toNat 11 0)).valid = true)
    (hown : (s.job (bits v.toNat 11 0)).fn = fn) (hlimit : jobStreams s (bits v.toNat 11 0) < (s.job (bits v.toNat 11 0)).limit)
    (hfree : lowestFree s (bits v.toNat 14 14) = some id) :
    allocOutcome fn v s = grantStream fn id (bits v.toNat 11 0) (bits v.toNat 13 12) s := by
  rw [allocOutcome_of_ownJob hroom hvalid hown, if_neg (Nat.not_le.2 hlimit), hfree]

/-! ### A granted context (R273, R274) -/

variable (s) (fn) (id job prio : Nat)

/-- The grant before its watermark event. -/
def grantedContext : State :=
  let t := (s.setStream id { s.stream id with state := sReady, owner := fn, job := job, prio := prio }).each [0, 1, 2, 3]
    (fun i s => s.setRegN (streamCount id + 4 * i) 0)
  allocResult fn id stOk ((t.setRegN (streamPage 0 + 0x88) (allocCount s + 1)).bump (streamPage 0) 0 1)

theorem grantStream_eq : ∃ c : Bool,
    grantStream fn id job prio s = (grantedContext s fn id job prio).when c (raiseEv (streamPage 0) 0) := ⟨_, rfl⟩

theorem grantStream_field {β : Type} (g : State → β) (hev : ∀ t, g (raiseEv (streamPage 0) 0 t) = g t) :
    g (grantStream fn id job prio s) = g (grantedContext s fn id job prio) := by
  obtain ⟨c, hc⟩ := grantStream_eq s fn id job prio
  rw [hc]
  exact State.when_field _ g c _ (hev _)

theorem streams_grantStream : (grantStream fn id job prio s).streams =
    (s.setStream id { s.stream id with state := sReady, owner := fn, job := job, prio := prio }).streams :=
  (grantStream_field s fn id job prio (·.streams) (fun t => by simp)).trans (by simp [grantedContext, allocResult])

theorem grantStream_frame : (grantStream fn id job prio s).mem = s.mem ∧ (grantStream fn id job prio s).units = s.units :=
  ⟨(grantStream_field s fn id job prio (·.mem) (fun t => by simp)).trans (by simp [grantedContext, allocResult]),
    (grantStream_field s fn id job prio (·.units) (fun t => by simp)).trans (by simp [grantedContext, allocResult])⟩

/-- The watermark event touches neither the count of contexts nor the result. -/
theorem regN_grantStream {o : Nat} (ho : o % 4096 = 0x84 ∨ o % 4096 = 0x88) :
    (grantStream fn id job prio s).regN o = (grantedContext s fn id job prio).regN o :=
  grantStream_field s fn id job prio (·.regN o) (fun t => regN_raiseEv t (by simp only [streamPage, dieWin]; omega) (by omega))

theorem allocCount_grantStream : (grantStream fn id job prio s).regN (streamPage 0 + 0x88) = (allocCount s + 1) % 2 ^ 32 := by
  rw [regN_grantStream s fn id job prio (Or.inr (by decide))]
  have hresult : streamPage 0 + 0x88 ≠ streamPage 0 + 0x84 + fn * 2 ^ 28 := by omega
  rw [grantedContext, allocResult, State.regN_setRegN_ne _ _ hresult, regN_bump, if_neg (by omega), State.regN_setRegN_same]

theorem result_grantStream :
    (grantStream fn id job prio s).regN (streamPage 0 + 0x84 + fn * 2 ^ 28) = (id + 2 ^ 24) % 2 ^ 32 := by
  rw [regN_grantStream s fn id job prio (Or.inl (by simp only [streamPage, dieWin]; omega))]
  exact State.regN_setRegN_same _ _ _

end Allocation

/-- Settles O25: the queue by its lowest function (R273), each outcome by the lemma of its condition, the granted context by what
`grantStream` writes (R273, R274, log 46). -/
theorem streamAllocation : Obligations.StreamAllocation := by
  unfold Obligations.StreamAllocation
  intro s fn v hfn ha
  refine ⟨exec_streamAlloc hfn ha, fun l hlow => serveAlloc_of_lowest hfn hlow, allocOutcome_of_full,
    fun hroom hjob => allocOutcome_of_notOwn hroom hjob,
    fun hroom hvalid hown hlimit => allocOutcome_of_limit hroom hvalid hown hlimit,
    fun id hroom hvalid hown hlimit hfree => ?grant⟩
  case grant =>
    dsimp only
    rw [allocOutcome_grants hroom hvalid hown hlimit hfree]
    have hstreams := streams_grantStream s fn id (bits v.toNat 11 0) (bits v.toNat 13 12)
    obtain ⟨hmem, hunits⟩ := grantStream_frame s fn id (bits v.toNat 11 0) (bits v.toNat 13 12)
    refine ⟨?own, fun j hj => ?others, allocCount_grantStream _ _ _ _ _, hmem, hunits, result_grantStream _ _ _ _ _⟩
    case own => rw [State.stream_congr hstreams, State.stream_setStream_same]; rfl
    case others => rw [State.stream_congr hstreams, State.stream_setStream_ne _ _ hj]

end Sys2Proof.Machine

/-! PROOFS. Writes and commands of a stream context, and the statement about them. -/

namespace Sys2Proof

set_option Elab.async false

/-- Put twice at one key, the second value stands. -/
theorem SMap.insert_insert {α : Type} (m : SMap α) (k : Nat) (v w : α) :
    SMap.insert (SMap.insert m k v) k w = SMap.insert m k w := by
  induction m with
  | nil => simp [SMap.insert]
  | cons x m ih =>
    obtain ⟨j, u⟩ := x
    rcases Nat.lt_trichotomy k j with hlt | rfl | hgt
    · simp [SMap.insert, hlt]
    · simp [SMap.insert]
    · have h1 : ¬ k < j := by omega
      have h2 : k ≠ j := by omega
      simp [SMap.insert, h1, h2, ih]

/-- What an entry erases, it erases also after an insertion. -/
theorem SMap.erase_insert {α : Type} (m : SMap α) (k : Nat) (v : α) : SMap.erase (SMap.insert m k v) k = SMap.erase m k := by
  induction m with
  | nil => simp [SMap.insert, SMap.erase]
  | cons x m ih =>
    obtain ⟨j, u⟩ := x
    rcases Nat.lt_trichotomy k j with hlt | rfl | hgt
    · simp [SMap.insert, hlt, SMap.erase]
    · simp [SMap.insert, SMap.erase]
    · have h1 : ¬ k < j := by omega
      have h2 : k ≠ j := by omega
      have h3 : j ≠ k := by omega
      simp [SMap.insert, h1, h2, h3, SMap.erase, ih]

/-- A write is undone by the next one at its key, in any table, when it has put an entry there. -/
theorem SMap.set_set_of_ne {α : Type} [DecidableEq α] (d : Nat → α) {m : SMap α} {k : Nat} {v w : α} (hv : v ≠ d k) :
    SMap.set d (SMap.set d m k v) k w = SMap.set d m k w := by
  simp only [SMap.set, if_neg hv, SMap.insert_insert, SMap.erase_insert]

end Sys2Proof

namespace Sys2Proof.Machine

set_option Elab.async false

section Context

variable {s : State} {fn id off : Nat}

/-! ### Who acts on a stream (R271, R486, log 115) -/

theorem streamOwner_owner (hfn : fn < 32) (ha : Admitted s fn) (hown : (s.stream id).owner = fn) (act : State → State) :
    streamOwner fn off id act s = act s := by
  obtain ⟨hready, -⟩ := ha.2 hfn
  simp [streamOwner, hready, hown, hfn]

theorem streamOwner_other (hfn : fn < 32) (ha : Admitted s fn) (hother : (s.stream id).owner ≠ fn) (act : State → State) :
    streamOwner fn off id act s = refuseStream fn off id s := by
  obtain ⟨hready, -⟩ := ha.2 hfn
  simp [streamOwner, hready, Ne.symm hother]

theorem posted_owner (hfn : fn < 32) (ha : Admitted s fn) (hown : (s.stream id).owner = fn) (i : Instr) (act : State → State → State) :
    posted fn i (fun t => streamOwner fn off id (act t) t) s = act s s :=
  (posted_admitted ha _ _).trans (streamOwner_owner hfn ha hown _)

theorem posted_other (hfn : fn < 32) (ha : Admitted s fn) (hother : (s.stream id).owner ≠ fn) (i : Instr) (act : State → State → State) :
    posted fn i (fun t => streamOwner fn off id (act t) t) s = refuseStream fn off id s :=
  (posted_admitted ha _ _).trans (streamOwner_other hfn ha hother _)

/-! ### Writes of a context's words (R270, R271) -/

theorem contextWrite_ready {w v : Nat} (hw : ownerWord w = true) (hstate : (s.stream id).state = 1) :
    contextWrite id w v s = s.setStream id (readyWrite w v (s.stream id)) := by
  have h12 : w ≠ 12 := by rintro rfl; exact absurd hw (by decide)
  simp [contextWrite, h12, hw, hstate, sReady]

theorem contextWrite_refused {w v : Nat} (hw : ownerWord w = true) (hstate : (s.stream id).state ≠ 1)
    (hplace : w ≠ 10 ∨ ((s.stream id).state ≠ 2 ∧ (s.stream id).state ≠ 3)) : contextWrite id w v s = setErr id stConflict s := by
  have h12 : w ≠ 12 := by rintro rfl; exact absurd hw (by decide)
  have hprio : ¬ (w = 10 ∧ ((s.stream id).state = 2 ∨ (s.stream id).state = 3)) := by omega
  simp [contextWrite, h12, hw, hstate, hprio, sReady, sActive, sPaused]

theorem contextWrite_other {w v : Nat} (hw : ownerWord w = false) (h12 : w ≠ 12) : contextWrite id w v s = s := by
  simp [contextWrite, h12, hw]

/-- A second write of a context is the one that stands, when the first did not leave it at its reset value. -/
theorem setStream_setStream {t : Stream} (ht : t ≠ Stream.reset) (u : Stream) : (s.setStream id t).setStream id u = s.setStream id u :=
  congrArg (fun m : SMap Stream => { s with streams := m }) (SMap.set_set_of_ne (fun _ => Stream.reset) ht)

/-- Only the priority of the priority's word is written in ACTIVE or PAUSED (R271). -/
theorem contextWrite_priority {v : Nat} (hstate : (s.stream id).state = 2 ∨ (s.stream id).state = 3) :
    contextWrite id 10 v s = s.setStream id { s.stream id with
      prio := bits v 18 17
      err := if (s.stream id).seqMode = bit v 19 ∧ bits (s.stream id).home 11 0 = bits v 31 20 then (s.stream id).err
        else stConflict } := by
  have hne : (s.stream id).state ≠ 1 := by omega
  have hwrites : contextWrite id 10 v s =
      (s.setStream id { s.stream id with prio := bits v 18 17 }).when (changesMore (s.stream id) v) (setErr id stConflict) := by
    simp [contextWrite, ownerWord, hne, hstate, sReady, sActive, sPaused]
  rw [hwrites]
  by_cases hsame : (s.stream id).seqMode = bit v 19 ∧ bits (s.stream id).home 11 0 = bits v 31 20
  · have hno : changesMore (s.stream id) v = false := by simp [changesMore, hsame]
    rw [hno, State.when_false, if_pos hsame]
  · have hyes : changesMore (s.stream id) v = true := by
      simp only [changesMore, Bool.or_eq_true, bne_iff_ne]
      exact Decidable.not_and_iff_or_not.1 hsame
    have hset : ({ s.stream id with prio := bits v 18 17 } : Stream) ≠ Stream.reset := fun h => by
      have hstate0 : (s.stream id).state = 0 := congrArg Stream.state h
      omega
    rw [hyes, State.when_true, if_neg hsame, setErr, State.stream_setStream_same, setStream_setStream hset]

/-! ### Activate, pause, resume (R275, R288) -/

theorem activateStream_ok (hstate : (s.stream id).state = 1) (hok : activateErr s id = 0) :
    activateStream id s = freshSince id (s.setStream id { s.stream id with state := 2, cqPhase := true, err := 0 }) := by
  simp [activateStream, hstate, hok, sReady, sActive, stOk]

theorem activateStream_bad (hstate : (s.stream id).state = 1) (hbad : activateErr s id ≠ 0) :
    activateStream id s = setErr id (activateErr s id) s := by
  simp [activateStream, hstate, hbad, sReady, stOk]

theorem activateStream_other (hstate : (s.stream id).state ≠ 1) : activateStream id s = setErr id stConflict s := by
  simp [activateStream, hstate, sReady]

theorem pauseStream_active (hstate : (s.stream id).state = 2) :
    pauseStream id s = freshSince id (s.setStream id { s.stream id with state := 3 }) := by
  simp [pauseStream, hstate, sActive, sPaused]

theorem pauseStream_other (hstate : (s.stream id).state ≠ 2) : pauseStream id s = setErr id stConflict s := by
  simp [pauseStream, hstate, sActive]

theorem resumeStream_paused (hstate : (s.stream id).state = 3) :
    resumeStream id s = freshSince id (s.setStream id { s.stream id with state := 2 }) := by
  simp [resumeStream, hstate, sActive, sPaused]

theorem resumeStream_other (hstate : (s.stream id).state ≠ 3) : resumeStream id s = setErr id stConflict s := by
  simp [resumeStream, hstate, sPaused]

/-! ### Close (R286) -/

theorem closeStream_other (hstate : (s.stream id).state ∉ [1, 2, 3, 5]) : closeStream id s = setErr id stConflict s := by
  simp only [List.mem_cons, List.not_mem_nil, or_false, not_or] at hstate
  simp [closeStream, hstate, sReady, sActive, sPaused, sAborted]

theorem closeStream_drains (hstate : (s.stream id).state ∈ [1, 2, 3, 5]) : closeStream id s = drainStream id s := by
  simp only [List.mem_cons, List.not_mem_nil, or_false] at hstate
  refine if_pos ?_
  simp only [Bool.or_eq_true, beq_iff_eq, sReady, sActive, sPaused, sAborted]
  omega

theorem idxDiff_self (a : Nat) : idxDiff a a = 0 := by
  unfold idxDiff
  omega

theorem dropAll_of_empty (status : Nat) (hempty : (s.stream id).sqHead = (s.stream id).sqTail) : dropAll id status s = s := by
  simp [dropAll, hempty, idxDiff_self]

/-- A context that drains with nothing outstanding is FREE again: its next sequence number alone is kept (R286). -/
def freedStream (id : Nat) (s : State) : State :=
  let t := s.setStream id { Stream.reset with nextSeq := (s.stream id).nextSeq }
  let t := { t with vectors := SMap.set (fun _ => 0) t.vectors id 0 }
  t.setRegN (streamPage 0 + 0x88) (t.regN (streamPage 0 + 0x88) - 1)

theorem freeStream_drained (hstate : (s.stream id).state = sDraining) (hflight : (s.stream id).inFlight = 0)
    (hrecs : (s.stream id).recs = []) (hfetched : (s.stream id).fetched = none) (hempty : (s.stream id).sqHead = (s.stream id).sqTail) :
    freeStream id s = freedStream id s := by
  simp [freeStream, freedStream, hstate, hflight, hrecs, hfetched, hempty]

theorem stream_freedStream_same : (freedStream id s).stream id = { Stream.reset with nextSeq := (s.stream id).nextSeq } :=
  State.stream_setStream_same s id _

theorem stream_freedStream_ne {j : Nat} (hj : j ≠ id) : (freedStream id s).stream j = s.stream j := State.stream_setStream_ne s _ hj

theorem freedStream_frame : (freedStream id s).mem = s.mem ∧ (freedStream id s).units = s.units := ⟨rfl, rfl⟩

theorem allocCount_freedStream : (freedStream id s).regN (streamPage 0 + 0x88) = s.regN (streamPage 0 + 0x88) - 1 := by
  refine (State.regN_setRegN_same _ _ _).trans (Nat.mod_eq_of_lt ?_)
  exact Nat.lt_of_le_of_lt (Nat.sub_le _ _) (State.regN_lt s _)

/-- The context as a close sets it to DRAINING. -/
def draining (id : Nat) (s : State) : State := s.setStream id { s.stream id with state := sDraining, since := 0 }

theorem closeStream_frees (hstate : (s.stream id).state ∈ [1, 2, 3, 5]) (hflight : (s.stream id).inFlight = 0)
    (hrecs : (s.stream id).recs = []) (hfetched : (s.stream id).fetched = none) (hempty : (s.stream id).sqHead = (s.stream id).sqTail) :
    closeStream id s = freedStream id (draining id s) := by
  have hd : (draining id s).stream id = { s.stream id with state := sDraining, since := 0 } := State.stream_setStream_same s id _
  rw [closeStream_drains hstate]
  change freeStream id (dropAll id stAbortFault (draining id s)) = _
  rw [dropAll_of_empty _ (by rw [hd]; exact hempty)]
  exact freeStream_drained (by rw [hd]) (by rw [hd]; exact hflight) (by rw [hd]; exact hrecs) (by rw [hd]; exact hfetched)
    (by rw [hd]; exact hempty)

theorem closeStream_freed (hstate : (s.stream id).state ∈ [1, 2, 3, 5]) (hflight : (s.stream id).inFlight = 0)
    (hrecs : (s.stream id).recs = []) (hfetched : (s.stream id).fetched = none) (hempty : (s.stream id).sqHead = (s.stream id).sqTail) :
    (closeStream id s).stream id = { Stream.reset with nextSeq := (s.stream id).nextSeq } ∧
    (∀ j, j ≠ id → (closeStream id s).stream j = s.stream j) ∧
    (closeStream id s).regN (streamPage 0 + 0x88) = s.regN (streamPage 0 + 0x88) - 1 ∧
    (closeStream id s).mem = s.mem ∧ (closeStream id s).units = s.units := by
  rw [closeStream_frees hstate hflight hrecs hfetched hempty]
  refine ⟨?own, fun j hj => ?others, allocCount_freedStream, freedStream_frame.1, freedStream_frame.2⟩
  case own => rw [stream_freedStream_same, draining, State.stream_setStream_same]
  case others => rw [stream_freedStream_ne hj, draining, State.stream_setStream_ne _ _ hj]

/-! ### The commands of the owner -/

section Owner

variable (hfn : fn < 32) (ha : Admitted s fn) (hown : (s.stream id).owner = fn)

include hfn ha hown

theorem exec_streamContextWrite (w : Nat) (v : Word) : exec (.streamContextWrite fn id w v) s = .next (contextWrite id w v.toNat s) :=
  congrArg Host.Outcome.next (posted_owner hfn ha hown _ _)

theorem exec_streamActivate : exec (.streamActivate fn id) s = .next (activateStream id s) :=
  congrArg Host.Outcome.next (posted_owner hfn ha hown _ _)

theorem exec_streamPause : exec (.streamPause fn id) s = .next (pauseStream id s) :=
  congrArg Host.Outcome.next (posted_owner hfn ha hown _ _)

theorem exec_streamResume : exec (.streamResume fn id) s = .next (resumeStream id s) :=
  congrArg Host.Outcome.next (posted_owner hfn ha hown _ _)

theorem exec_streamClose : exec (.streamClose fn id) s = .next (closeStream id s) :=
  congrArg Host.Outcome.next (posted_owner hfn ha hown _ _)

end Owner

theorem exec_streamContextWrite_other (hfn : fn < 32) (ha : Admitted s fn) (hother : (s.stream id).owner ≠ fn) (w : Nat) (v : Word) :
    exec (.streamContextWrite fn id w v) s = .next (refuseStream fn (ctxOff id + 4 * w) id s) :=
  congrArg Host.Outcome.next (posted_other hfn ha hother _ _)

theorem exec_streamCmd_other (hfn : fn < 32) (ha : Admitted s fn) (hother : (s.stream id).owner ≠ fn) {i : Instr} {off : Nat}
    (hi : (i, off) ∈ [(Instr.streamActivate fn id, ctxOff id + 48), (.streamPause fn id, ctxOff id + 48),
      (.streamResume fn id, ctxOff id + 48), (.streamClose fn id, ctxOff id + 48)]) :
    exec i s = .next (refuseStream fn off id s) := by
  have hrefused : ∀ (c : Instr) (act : State → State → State),
      Host.Outcome.next (posted fn c (fun t => streamOwner fn (ctxOff id + 48) id (act t) t) s) =
        (.next (refuseStream fn (ctxOff id + 48) id s) : Host.Outcome State Fault Refusal) :=
    fun c act => congrArg _ (posted_other hfn ha hother c act)
  simp only [List.mem_cons, Prod.mk.injEq, List.not_mem_nil, or_false] at hi
  rcases hi with ⟨rfl, rfl⟩ | ⟨rfl, rfl⟩ | ⟨rfl, rfl⟩ | ⟨rfl, rfl⟩
  · exact hrefused _ (fun t => activateStream id)
  · exact hrefused _ (fun t => pauseStream id)
  · exact hrefused _ (fun t => resumeStream id)
  · exact hrefused _ (fun t => closeStream id)

theorem refuseStream_streams (fn off id : Nat) (s : State) : (refuseStream fn off id s).streams = s.streams := by simp

end Context

/-- Settles O26: each clause by the lemma of its command in its state; a function that is not the owner is refused before the
command acts (R270 to R272, R275, R286, R288, logs 50 and 115). -/
theorem streamCommands : Obligations.StreamCommands := by
  unfold Obligations.StreamCommands
  intro s fn id hfn ha
  refine ⟨fun hown => ?owner,
    fun hother i off hi => ⟨exec_streamCmd_other hfn ha hother hi, refuseStream_streams _ _ _ _⟩,
    fun hother w v => ⟨exec_streamContextWrite_other hfn ha hother w v, refuseStream_streams _ _ _ _⟩⟩
  case owner =>
    simp only [exec_streamContextWrite hfn ha hown, exec_streamActivate hfn ha hown, exec_streamPause hfn ha hown,
      exec_streamResume hfn ha hown, exec_streamClose hfn ha hown]
    exact ⟨fun w v hw => ⟨fun hstate => congrArg _ (contextWrite_ready hw hstate),
        fun hstate hplace => congrArg _ (contextWrite_refused hw hstate hplace)⟩,
      fun v hstate => congrArg _ (contextWrite_priority hstate),
      fun w v hw h12 => congrArg _ (contextWrite_other hw h12),
      fun hstate hok => congrArg _ (activateStream_ok hstate hok),
      fun hstate => congrArg _ (activateStream_other hstate),
      fun hstate hbad => congrArg _ (activateStream_bad hstate hbad),
      fun hstate => congrArg _ (pauseStream_active hstate),
      fun hstate => congrArg _ (pauseStream_other hstate),
      fun hstate => congrArg _ (resumeStream_paused hstate),
      fun hstate => congrArg _ (resumeStream_other hstate),
      fun hstate => congrArg _ (closeStream_other hstate),
      fun hstate hflight hrecs hfetched hempty => ⟨_, rfl, closeStream_freed hstate hflight hrecs hfetched hempty⟩⟩

end Sys2Proof.Machine

/-! PROOFS. What the load commands of the tables write, and the statement about them. -/

namespace Sys2Proof

set_option Elab.async false

open Sys2Proof.Machine

variable {s t : State} {offs : List Nat}

theorem OnlyRegs.refl : OnlyRegs s s offs := ⟨rfl, fun _ _ => rfl⟩

theorem OnlyRegs.setReg (h : OnlyRegs s t offs) {o : Nat} (v : Word) (ho : o ∈ offs) : OnlyRegs s (t.setReg o v) offs := by
  obtain ⟨hrest, hregs⟩ := h
  refine ⟨hrest, fun b hb => ?_⟩
  have hne : b ≠ o := fun h => hb (h ▸ ho)
  rw [State.reg_setReg_ne t v hne, hregs b hb]

theorem OnlyRegs.setRegN (h : OnlyRegs s t offs) {o : Nat} (v : Nat) (ho : o ∈ offs) : OnlyRegs s (t.setRegN o v) offs :=
  h.setReg _ ho

end Sys2Proof

namespace Sys2Proof.Machine

set_option Elab.async false

/-! ### Folds -/

theorem State.each_range_succ (s : State) (f : Nat → State → State) (n : Nat) :
    s.each (List.range (n + 1)) f = f n (s.each (List.range n) f) := by
  simp [State.each, List.range_succ]

/-- Folds agree whose steps agree where an invariant of the second holds. -/
theorem State.each_congr {α : Type} {P : State → Prop} {f g : α → State → State} (hfg : ∀ a t, P t → f a t = g a t)
    (hg : ∀ a t, P t → P (g a t)) (l : List α) {s : State} (hs : P s) : s.each l f = s.each l g := by
  induction l generalizing s with
  | nil => rfl
  | cons a l ih => rw [State.each_cons, State.each_cons, hfg a s hs, ih (hg a s hs)]

/-! ### Data registers written in a row -/

/-- The first `n` data registers from `b` written with `w 0`, `w 1`, …. -/
def putWords (b n : Nat) (w : Nat → Word) (s : State) : State := s.each (List.range n) (fun i s => s.setReg (b + 4 * i) (w i))

theorem putWords_succ (b n : Nat) (w : Nat → Word) (s : State) :
    putWords b (n + 1) w s = (putWords b n w s).setReg (b + 4 * n) (w n) := State.each_range_succ s _ n

theorem reg_putWords {b n i : Nat} (hi : i < n) (w : Nat → Word) (s : State) : (putWords b n w s).reg (b + 4 * i) = w i := by
  induction n with
  | zero => exact absurd hi (Nat.not_lt_zero i)
  | succ n ih =>
    rw [putWords_succ]
    rcases Nat.lt_succ_iff_lt_or_eq.1 hi with hlt | rfl
    · rw [State.reg_setReg_ne _ _ (by omega), ih hlt]
    · exact State.reg_setReg_same _ _ _

theorem onlyRegs_putWords (b n : Nat) (w : Nat → Word) (s : State) :
    OnlyRegs s (putWords b n w s) ((List.range n).map (fun i => b + 4 * i)) := by
  have hpart : ∀ k, k ≤ n → OnlyRegs s (putWords b k w s) ((List.range n).map (fun i => b + 4 * i)) := by
    intro k hk
    induction k with
    | zero => exact OnlyRegs.refl
    | succ k ih =>
      rw [putWords_succ]
      exact (ih (by omega)).setReg _ (List.mem_map.2 ⟨k, List.mem_range.2 hk, rfl⟩)
  exact hpart n (Nat.le_refl n)

theorem writeWords_eq (b v : Nat) (s : State) :
    writeWords b v s = putWords b 8 (fun i => BitVec.ofNat 32 (bits v (32 * i + 31) (32 * i))) s := rfl

theorem regN_writeWords {i : Nat} (hi : i < 8) (b v : Nat) (s : State) :
    (writeWords b v s).regN (b + 4 * i) = v / 2 ^ (32 * i) % 2 ^ 32 := by
  have hwidth : 32 * i + 31 + 1 - 32 * i = 32 := by omega
  rw [State.regN, writeWords_eq, reg_putWords hi, BitVec.toNat_ofNat, bits, hwidth, Nat.mod_mod, Nat.shiftRight_eq_div_pow]

theorem onlyRegs_writeWords (b v : Nat) (s : State) : OnlyRegs s (writeWords b v s) ((List.range 8).map (fun i => b + 4 * i)) :=
  onlyRegs_putWords b 8 _ s

/-- `t` has the peer sets of `s`, and its index register. -/
def psetsAs (s t : State) : Prop := t.psets = s.psets ∧ psetIdx t = psetIdx s

/-- The words of a peer set do not depend on the registers that their load writes. -/
theorem psetLoad_eq (s : State) : psetLoad s = putWords (tunPage + 0x120) 8 (fun i => psetWord s (psetIdx s * 8 + i)) s := by
  have hword : ∀ (i : Nat) (t : State), psetsAs s t → t.setReg (tunPage + 0x120 + 4 * i) (psetWord t (psetIdx t * 8 + i)) =
      t.setReg (tunPage + 0x120 + 4 * i) (psetWord s (psetIdx s * 8 + i)) := by
    rintro i t ⟨hsets, hidx⟩
    simp only [psetWord, hsets, hidx]
  have hkept : ∀ (i : Nat) (t : State), psetsAs s t → psetsAs s (t.setReg (tunPage + 0x120 + 4 * i) (psetWord s (psetIdx s * 8 + i))) := by
    rintro i t ⟨hsets, hidx⟩
    have hne : tunPage + Fld.TUN_PSET_IDX.set.off ≠ tunPage + 0x120 + 4 * i := by simp only [Fld.TUN_PSET_IDX.set]; omega
    refine ⟨hsets, ?_⟩
    rw [← hidx, psetIdx, psetIdx, State.fld, State.fld, State.regN, State.regN, State.reg_setReg_ne _ _ hne]
  exact State.each_congr hword hkept _ ⟨rfl, rfl⟩

/-! ### The load commands -/

theorem b2n_mul (b : Bool) (n : Nat) : b2n b * n = if b then n else 0 := by cases b <;> simp [b2n]

section Loads

variable {s : State} {fn : Nat}

theorem jobLoad_spec (s : State) : let b := s.job (s.fld (streamPage 0) Fld.STM_JOB_IDX.job)
    OnlyRegs s (jobLoad s) [streamPage 0 + 0xA0, streamPage 0 + 0xA4] ∧
    (jobLoad s).regN (streamPage 0 + 0xA0) = (b.fn + (if b.valid then 32 else 0) + b.limit * 64) % 2 ^ 32 ∧
    (jobLoad s).regN (streamPage 0 + 0xA4) = jobStreams s (s.fld (streamPage 0) Fld.STM_JOB_IDX.job) % 2 ^ 32 := by
  refine ⟨(OnlyRegs.refl.setRegN _ ?_).setRegN _ ?_, ?_, ?_⟩
  all_goals simp [jobLoad, State.regN_setRegN, b2n_mul]

theorem rtLoad_spec (s : State) : OnlyRegs s (rtLoad s) [routePage + 0x88] ∧
    (rtLoad s).regN (routePage + 0x88) = s.route (s.fld routePage Fld.IZN_RT_IDX.index) := by
  refine ⟨OnlyRegs.refl.setRegN _ (by simp), (State.regN_setRegN_same _ _ _).trans (Nat.mod_eq_of_lt ?_)⟩
  exact (SMap.get (fun _ => (0 : Word)) s.routes (rtIdx s)).isLt

theorem ctxLoad_spec (s : State) : let x := s.ctx (s.fld tunPage Fld.TUN_CTX_IDX.ctx)
    OnlyRegs s (ctxLoad s) [tunPage + 0x104, tunPage + 0x108, tunPage + 0x10C, tunPage + 0x110] ∧
    (ctxLoad s).regN (tunPage + 0x104) = (x.base + toU 9 x.lsbExp * 2 ^ 23) % 2 ^ 32 ∧
    (ctxLoad s).regN (tunPage + 0x108) = x.ntiles % 2 ^ 32 ∧ (ctxLoad s).regN (tunPage + 0x110) = x.gen % 2 ^ 32 ∧
    (ctxLoad s).regN (tunPage + 0x10C) = (x.job + x.nExpect * 2 ^ 12 + (if x.armed then 2 ^ 19 else 0)) % 2 ^ 32 := by
  refine ⟨(((OnlyRegs.refl.setRegN _ ?_).setRegN _ ?_).setRegN _ ?_).setRegN _ ?_, ?_, ?_, ?_, ?_⟩
  all_goals simp [ctxLoad, ctxIdx, State.regN_setRegN, b2n_mul]

theorem psetLoad_spec (s : State) : OnlyRegs s (psetLoad s) ((List.range 8).map (fun i => tunPage + 0x120 + 4 * i)) ∧
    ∀ i, i < 8 → (psetLoad s).reg (tunPage + 0x120 + 4 * i) = psetWord s (s.fld tunPage Fld.TUN_PSET_IDX.set * 8 + i) := by
  rw [psetLoad_eq]
  exact ⟨onlyRegs_putWords _ _ _ _, fun i hi => reg_putWords hi _ _⟩

theorem mapLoad_spec (s : State) : let e := mapEnt s (s.fld mapPage Fld.MAP_ENT_IDX.entry)
    OnlyRegs s (mapLoad s) [mapPage + 0x84, mapPage + 0x88, mapPage + 0x8C, mapPage + 0x90] ∧
    (mapLoad s).regN (mapPage + 0x84) = (e.job + e.pset * 2 ^ 12 + (if e.gangEn then 2 ^ 18 else 0) + e.gangSplit * 2 ^ 19 +
      (if e.regather then 2 ^ 20 else 0) + (if e.valid then 2 ^ 21 else 0) + e.self * 2 ^ 22 + e.gsize * 2 ^ 25) % 2 ^ 32 ∧
    (mapLoad s).regN (mapPage + 0x88) = e.depth % 2 ^ 32 ∧ (mapLoad s).regN (mapPage + 0x8C) = e.actUnits % 2 ^ 32 ∧
    (mapLoad s).regN (mapPage + 0x90) = e.reserve % 2 ^ 32 := by
  refine ⟨(((OnlyRegs.refl.setRegN _ ?_).setRegN _ ?_).setRegN _ ?_).setRegN _ ?_, ?_, ?_, ?_, ?_⟩
  all_goals simp [mapLoad, mapIdx, State.regN_setRegN, b2n_mul]

theorem quotaLoad_spec (s : State) : let b := tierPage 0; let j := s.fld b Fld.DIE_QUOTA_IDX.job
    OnlyRegs s (quotaLoad s) [b + 0xA8, b + 0xAC, b + 0xB0, b + 0xB4, b + 0xB8, b + 0xBC] ∧
    (quotaLoad s).regN (b + 0xA8) = (s.limit j).hbm % 2 ^ 32 ∧ (quotaLoad s).regN (b + 0xAC) = (s.limit j).bulk % 2 ^ 32 ∧
    (quotaLoad s).regN (b + 0xB0) = (s.limit j).remote % 2 ^ 32 ∧ (quotaLoad s).regN (b + 0xB4) = units64k (s.use j).hbm % 2 ^ 32 ∧
    (quotaLoad s).regN (b + 0xB8) = units64k (s.use j).bulk % 2 ^ 32 ∧
    (quotaLoad s).regN (b + 0xBC) = units64k (s.use j).remote % 2 ^ 32 := by
  refine ⟨(((((OnlyRegs.refl.setRegN _ ?_).setRegN _ ?_).setRegN _ ?_).setRegN _ ?_).setRegN _ ?_).setRegN _ ?_, ?_, ?_, ?_, ?_, ?_, ?_⟩
  all_goals simp [quotaLoad, State.regN_setRegN]

theorem leaseLoad_spec (s : State) : let b := tierPage 0; let l := leaseOf s (s.fld b Fld.DIE_LEASE_IDX.lease)
    OnlyRegs s (leaseLoad s) [b + 0xC8, b + 0xCC, b + 0xD0, b + 0xD4] ∧
    (leaseLoad s).regN (b + 0xC8) = (l.dest + l.state * 2 ^ 12 + (if l.refused then 2 ^ 14 else 0)) % 2 ^ 32 ∧
    (leaseLoad s).regN (b + 0xCC) = l.size % 2 ^ 32 ∧ (leaseLoad s).regN (b + 0xD0) = l.expiry % 2 ^ 32 ∧
    (leaseLoad s).regN (b + 0xD4) = units64k (leaseUsed s (s.fld b Fld.DIE_LEASE_IDX.lease)) % 2 ^ 32 := by
  refine ⟨(((OnlyRegs.refl.setRegN _ ?_).setRegN _ ?_).setRegN _ ?_).setRegN _ ?_, ?_, ?_, ?_, ?_⟩
  all_goals simp [leaseLoad, leaseIdx, State.regN_setRegN, b2n_mul]

theorem ptgEntLoad_spec (s : State) : let i := s.fld govPage Fld.PTG_ENT_IDX.index
    OnlyRegs s (ptgEntLoad s) ((List.range 8).map (fun k => govPage + 0xA4 + 4 * k)) ∧
    ∀ k, k < 8 → (ptgEntLoad s).regN (govPage + 0xA4 + 4 * k) =
      (if s.flag govPage Fld.PTG_ENT_IDX.sel then s.policy (i % 64) else s.entry i) / 2 ^ (32 * k) % 2 ^ 32 :=
  ⟨onlyRegs_writeWords _ _ s, fun _ hk => regN_writeWords hk _ _ s⟩

theorem seedLoad_spec (s : State) : OnlyRegs s (seedLoad s) [govPage + 0x124, govPage + 0x128] ∧
    (seedLoad s).reg64 (govPage + 0x124) =
      (SMap.get (fun _ => (0 : BitVec 64)) s.gov.seeds (s.fld govPage Fld.PTG_SEED_IDX.job)).toNat := by
  refine ⟨(OnlyRegs.refl.setRegN _ (by simp)).setRegN _ (by simp), ?_⟩
  have hseed := (SMap.get (fun _ => (0 : BitVec 64)) s.gov.seeds (s.fld govPage Fld.PTG_SEED_IDX.job)).isLt
  simp only [seedLoad, State.reg64, State.setReg64, State.regN_setRegN_same,
    State.regN_setRegN_ne _ _ (show govPage + 0x124 ≠ govPage + 0x124 + 4 by omega)]
  omega

theorem tstEntLoad_spec (s : State) : OnlyRegs s (tstEntLoad s) ((List.range 8).map (fun k => tasterPage + 0xA0 + 4 * k)) ∧
    ∀ k, k < 8 → (tstEntLoad s).regN (tasterPage + 0xA0 + 4 * k) =
      tastWord (s.taster (s.fld tasterPage Fld.TST_ENT_IDX.layer)) / 2 ^ (32 * k) % 2 ^ 32 :=
  ⟨onlyRegs_writeWords _ _ s, fun _ hk => regN_writeWords hk _ _ s⟩

theorem shareLoad_spec (s : State) : let j := s.fld (powerPage 0) Fld.PWR_SHARE_IDX.job
    OnlyRegs s (shareLoad s) [powerPage 0 + 0xD4] ∧ (shareLoad s).regN (powerPage 0 + 0xD4) =
      (shareOfJob s j + min 255 (useOfJob s j) * 2 ^ 8 + (if s.power.deferred.contains j then 2 ^ 16 else 0)) % 2 ^ 32 := by
  refine ⟨OnlyRegs.refl.setRegN _ (by simp), (State.regN_setRegN_same _ _ _).trans ?_⟩
  rw [b2n_mul, shareIdx]

/-- A command that only the owner of a page makes acts for it. -/
theorem exec_of_granted {i : Instr} {base o : Nat} {act : State → State} (h : Granted s fn base)
    (hi : exec i s = .next (posted fn i (fun t => ownerWrite fn base o act t) s)) : exec i s = .next (act s) :=
  hi.trans (congrArg _ (posted_granted h _ _ _))

/-- Outside a boundary the Taster's entries take the commands of their page's owner (R237). -/
theorem exec_taster {i : Instr} {act : State → State} (h : Granted s fn tasterPage) (hidle : s.flag govPage Fld.PTG_STATUS.busy = false)
    (hi : exec i s = .next (posted fn i (fun t => ownerWrite fn tasterPage 0xC0 (tasterWrite act) t) s)) :
    exec i s = .next (act s) :=
  (exec_of_granted h hi).trans (congrArg _ (if_neg (by simp [govBusy, hidle])))

end Loads

/-- Settles O29: each table's load writes its data registers alone, each with the word of the entry that the index selects. -/
theorem tableLoads : Obligations.TableLoads := by
  unfold Obligations.TableLoads
  intro s fn ha
  exact ⟨fun h => ⟨_, exec_of_granted ⟨ha, h⟩ rfl, jobLoad_spec s⟩, fun h => ⟨_, exec_of_granted ⟨ha, h⟩ rfl, rtLoad_spec s⟩,
    fun h => ⟨_, exec_of_granted ⟨ha, h⟩ rfl, ctxLoad_spec s⟩, fun h => ⟨_, exec_of_granted ⟨ha, h⟩ rfl, psetLoad_spec s⟩,
    fun h => ⟨_, exec_of_granted ⟨ha, h⟩ rfl, mapLoad_spec s⟩,
    fun h => ⟨⟨_, exec_of_granted ⟨ha, h⟩ rfl, quotaLoad_spec s⟩, ⟨_, exec_of_granted ⟨ha, h⟩ rfl, leaseLoad_spec s⟩⟩,
    fun h => ⟨⟨_, exec_of_granted ⟨ha, h⟩ rfl, ptgEntLoad_spec s⟩, ⟨_, exec_of_granted ⟨ha, h⟩ rfl, seedLoad_spec s⟩⟩,
    fun h hidle => ⟨_, exec_taster ⟨ha, h⟩ hidle rfl, tstEntLoad_spec s⟩,
    fun h => ⟨_, exec_of_granted ⟨ha, h⟩ rfl, shareLoad_spec s⟩⟩

end Sys2Proof.Machine

/-! PROOFS. What the commit commands of the tables write, and the statement about them. -/

namespace Sys2Proof.Machine

set_option Elab.async false

/-! ### Tables after a write -/

theorem routes_read_rtCommit (s : State) :
    (rtCommit s).route (s.fld routePage Fld.IZN_RT_IDX.index) = s.regN (routePage + 0x88) % 2048 ∧
    ∀ j, j ≠ s.fld routePage Fld.IZN_RT_IDX.index → (rtCommit s).route j = s.route j := by
  refine ⟨?own, fun j hj => ?others⟩
  case own =>
    refine (congrArg BitVec.toNat (SMap.get_set_same _ _ _ _)).trans ((BitVec.toNat_ofNat _ _).trans (Nat.mod_eq_of_lt ?_))
    exact Nat.lt_of_lt_of_le (Nat.mod_lt _ (by decide)) (by decide)
  case others => exact congrArg BitVec.toNat (SMap.get_set_ne _ _ _ hj)

theorem mapEnt_setMapEnt_same (s : State) (i : Nat) (e : MapEnt) : mapEnt (s.setMapEnt i e) i = e := SMap.get_set_same _ _ _ _

theorem mapEnt_setMapEnt_ne (s : State) {i j : Nat} (e : MapEnt) (h : j ≠ i) : mapEnt (s.setMapEnt i e) j = mapEnt s j :=
  SMap.get_set_ne _ _ _ h

/-! ### Peer sets (R348) -/

/-- Word `i` of peer set `k` written with its data register. -/
def putMember (k i : Nat) (s : State) : State :=
  { s with psets := SMap.set (fun _ => (0 : Word)) s.psets (k * 8 + i) (s.reg (tunPage + 0x120 + 4 * i)) }

/-- The first `n` words of peer set `k` written. -/
def putMembers (k n : Nat) (s : State) : State := s.each (List.range n) (putMember k)

theorem putMembers_succ (k n : Nat) (s : State) : putMembers k (n + 1) s = putMember k n (putMembers k n s) :=
  State.each_range_succ s _ n

theorem putMembers_field {β : Type} (g : State → β) (hset : ∀ p t, g { t with psets := p } = g t) (k n : Nat) (s : State) :
    g (putMembers k n s) = g s := State.each_field s g _ (fun _ _ => hset _ _) _

theorem psetWord_putMembers {k n i : Nat} (hi : i < n) (s : State) :
    psetWord (putMembers k n s) (k * 8 + i) = s.reg (tunPage + 0x120 + 4 * i) := by
  induction n with
  | zero => exact absurd hi (Nat.not_lt_zero i)
  | succ n ih =>
    rw [putMembers_succ]
    rcases Nat.lt_succ_iff_lt_or_eq.1 hi with hlt | rfl
    · exact (SMap.get_set_ne _ _ _ (by omega)).trans (ih hlt)
    · exact (SMap.get_set_same _ _ _ _).trans (putMembers_field (·.reg _) (fun _ _ => rfl) k i s)

theorem psetWord_putMembers_out {k n m : Nat} (hm : m < k * 8 ∨ k * 8 + n ≤ m) (s : State) :
    psetWord (putMembers k n s) m = psetWord s m := by
  induction n with
  | zero => rfl
  | succ n ih =>
    rw [putMembers_succ]
    exact (SMap.get_set_ne _ _ _ (by omega)).trans (ih (by omega))

theorem refreshMaps_field {β : Type} (g : State → β) (hset : ∀ m t, g { t with maps := m } = g t) (s : State) :
    g (refreshMaps s) = g s := State.each_field s g _ (fun _ _ => hset _ _) _

section Commits

variable {s : State} {fn : Nat}

theorem psetCommit_of_free (hfree : ∀ x ∈ outstandingCmds s, namesSet x.2.cmd ≠ some (psetIdx s)) :
    psetCommit s = refreshMaps (putMembers (psetIdx s) 8 s) := by
  refine if_neg ?_
  simpa [List.any_eq_true] using hfree

/-- A peer set that no command names takes its data registers; every other set stands (R348). -/
theorem psetCommit_spec (hfree : ∀ x ∈ outstandingCmds s, namesSet x.2.cmd ≠ some (psetIdx s)) :
    (∀ i, i < 8 → psetWord (psetCommit s) (psetIdx s * 8 + i) = s.reg (tunPage + 0x120 + 4 * i)) ∧
    (∀ n, n / 8 ≠ psetIdx s → psetWord (psetCommit s) n = psetWord s n) ∧ (psetCommit s).regs = s.regs ∧
    (psetCommit s).mem = s.mem := by
  rw [psetCommit_of_free hfree]
  have hword : ∀ n t, psetWord (refreshMaps t) n = psetWord t n := fun n t => refreshMaps_field (psetWord · n) (fun _ _ => rfl) t
  refine ⟨fun i hi => (hword _ _).trans (psetWord_putMembers hi s),
    fun n hn => (hword _ _).trans (psetWord_putMembers_out (by omega) s),
    (refreshMaps_field (·.regs) (fun _ _ => rfl) _).trans (putMembers_field (·.regs) (fun _ _ => rfl) _ _ s),
    (refreshMaps_field (·.mem) (fun _ _ => rfl) _).trans (putMembers_field (·.mem) (fun _ _ => rfl) _ _ s)⟩

/-! ### Reduction contexts (R328, R329) -/

/-- The end of an arm or disarm that succeeds: the armed bit shown, the result 0, the event (R329). -/
def ctxDone (b : Bool) (s : State) : State := raiseEv tunPage 2 (ctxResult stOk (s.setFlag tunPage Fld.TUN_CTX_DATA2.armed b))

theorem ctxDone_field {β : Type} (g : State → β) (hev : ∀ t, g (raiseEv tunPage 2 t) = g t) (hreg : ∀ o v t, g (State.setRegN t o v) = g t)
    (b : Bool) (s : State) : g (ctxDone b s) = g s := by
  rw [ctxDone, hev]
  exact (hreg _ _ _).trans (hreg _ _ _)

theorem ctx_ctxDone (b : Bool) (s : State) (k : Nat) : (ctxDone b s).ctx k = s.ctx k :=
  ctxDone_field (·.ctx k) (fun t => by simp [State.ctx]) (fun _ _ _ => rfl) b s

theorem result_ctxDone (b : Bool) (s : State) : (ctxDone b s).fld tunPage Fld.TUN_CTX_STATUS.result = 0 :=
  (fld_raiseEv _ (by decide) (by decide)).trans (State.fld_setFld_same _ _ _ _)

theorem armed_ctxDone (b : Bool) (s : State) : (ctxDone b s).flag tunPage Fld.TUN_CTX_DATA2.armed = b :=
  calc (ctxDone b s).flag tunPage Fld.TUN_CTX_DATA2.armed
    _ = (ctxResult stOk (s.setFlag tunPage Fld.TUN_CTX_DATA2.armed b)).flag tunPage Fld.TUN_CTX_DATA2.armed :=
        flag_raiseEv _ (by decide) (by decide)
    _ = (s.setFlag tunPage Fld.TUN_CTX_DATA2.armed b).flag tunPage Fld.TUN_CTX_DATA2.armed :=
        State.flag_setFld_ne _ _ _ _ _ _ (Or.inl (by decide))
    _ = b := State.flag_setFlag_same _ _ _ _

/-- An accumulator Tile set EMPTY changes bytes, check bits and what a Cask still copies alone. -/
theorem accEmpty_field {β : Type} (g : State → β) (hmem : ∀ m t, g { t with mem := m } = g t) (hecc : ∀ e t, g { t with ecc := e } = g t)
    (hcask : ∀ c t, g { t with cask := c } = g t) (a : Nat) (s : State) : g (accEmpty a s) = g s := by
  rw [accEmpty, freshEcc_field _ g (fun _ _ _ => hecc _ _)]
  exact (hmem _ _).trans (hcask _ _)

/-- The Tiles of a context set EMPTY (R329). -/
def clearTiles (x : RedCtx) (s : State) : State := s.each (List.range x.ntiles) (fun t => accEmpty (accAddr x t))

theorem clearTiles_field {β : Type} (g : State → β) (hmem : ∀ m t, g { t with mem := m } = g t) (hecc : ∀ e t, g { t with ecc := e } = g t)
    (hcask : ∀ c t, g { t with cask := c } = g t) (x : RedCtx) (s : State) : g (clearTiles x s) = g s :=
  State.each_field s g _ (fun _ t => accEmpty_field g hmem hecc hcask _ t) _

theorem ctxArm_of_ok (hok : armCheck s (ctxIdx s) (ctxData s) = 0) :
    ctxArm s = ctxDone true (clearTiles (ctxData s) (s.setCtx (ctxIdx s) (ctxData s))) :=
  if_neg (by simp [hok, stOk])

/-- Arming a context whose data pass the checks makes it hold them (R329). -/
theorem ctxArm_spec (hok : armCheck s (ctxIdx s) (ctxData s) = 0) :
    (ctxArm s).ctx (ctxIdx s) = ctxData s ∧ (∀ j, j ≠ ctxIdx s → (ctxArm s).ctx j = s.ctx j) ∧
    (ctxArm s).fld tunPage Fld.TUN_CTX_STATUS.result = 0 ∧ (ctxArm s).flag tunPage Fld.TUN_CTX_DATA2.armed = true ∧
    (ctxArm s).units = s.units := by
  rw [ctxArm_of_ok hok]
  have hctx : ∀ j, (ctxDone true (clearTiles (ctxData s) (s.setCtx (ctxIdx s) (ctxData s)))).ctx j =
      (s.setCtx (ctxIdx s) (ctxData s)).ctx j :=
    fun j => (ctx_ctxDone _ _ _).trans (clearTiles_field (·.ctx j) (fun _ _ => rfl) (fun _ _ => rfl) (fun _ _ => rfl) _ _)
  refine ⟨(hctx _).trans (State.ctx_setCtx_same _ _ _), fun j hj => (hctx j).trans (State.ctx_setCtx_ne _ _ hj), result_ctxDone _ _,
    armed_ctxDone _ _, ?_⟩
  exact (ctxDone_field (·.units) (fun t => by simp) (fun _ _ _ => rfl) _ _).trans
    (clearTiles_field (·.units) (fun _ _ => rfl) (fun _ _ => rfl) (fun _ _ => rfl) _ _)

theorem ctxDisarm_of_free (hfree : ctxBusy s (ctxIdx s) = false) :
    ctxDisarm s = ctxDone false (s.setCtx (ctxIdx s) { s.ctx (ctxIdx s) with armed := false }) :=
  if_neg (by simp [hfree])

/-- Disarming a context that no command names clears armed alone (R329). -/
theorem ctxDisarm_spec (hfree : ctxBusy s (ctxIdx s) = false) :
    (ctxDisarm s).ctx (ctxIdx s) = { s.ctx (ctxIdx s) with armed := false } ∧
    (∀ j, j ≠ ctxIdx s → (ctxDisarm s).ctx j = s.ctx j) ∧ (ctxDisarm s).fld tunPage Fld.TUN_CTX_STATUS.result = 0 ∧
    (ctxDisarm s).mem = s.mem := by
  rw [ctxDisarm_of_free hfree]
  exact ⟨(ctx_ctxDone _ _ _).trans (State.ctx_setCtx_same _ _ _), fun j hj => (ctx_ctxDone _ _ _).trans (State.ctx_setCtx_ne _ _ hj),
    result_ctxDone _ _, ctxDone_field (·.mem) (fun t => by simp) (fun _ _ _ => rfl) _ _⟩

/-! ### Mapping entries (R351) -/

theorem mapCommit_of_refused (hbad : mapRefused s (mapIdx s) (mapData s) ≠ 0) :
    mapCommit s = logStatus mapPage (mapRefused s (mapIdx s) (mapData s)) s := if_pos (by simpa [stOk] using hbad)

/-- An entry that is not refused is written, and the total of the reserves shown (R351, R363). -/
theorem mapCommit_spec (hok : mapRefused s (mapIdx s) (mapData s) = 0) :
    mapEnt (mapCommit s) (mapIdx s) = mapData s ∧ (∀ j, j ≠ mapIdx s → mapEnt (mapCommit s) j = mapEnt s j) ∧
    OnlyRegs { s with maps := (mapCommit s).maps } (mapCommit s) [mapPage + 0xB8] := by
  have hwrites : ∃ v, mapCommit s = (s.setMapEnt (mapIdx s) (mapData s)).setRegN (mapPage + 0xB8) v :=
    ⟨_, if_neg (by simp [hok, stOk])⟩
  obtain ⟨v, hv⟩ := hwrites
  rw [hv]
  exact ⟨mapEnt_setMapEnt_same _ _ _, fun j hj => mapEnt_setMapEnt_ne _ _ hj, OnlyRegs.refl.setRegN _ (by simp)⟩

/-! ### The governor's tables (R192, R217) -/

theorem ptgEntCommit_of_busy (hbusy : s.flag govPage Fld.PTG_STATUS.busy = true) :
    ptgEntCommit s = logStatus govPage stConflict s := if_pos hbusy

/-- Policy `p` stored. -/
def storePolicy (p w : Nat) (s : State) : State :=
  { s with gov := { s.gov with policies := SMap.set (fun _ => (0 : BitVec 256)) s.gov.policies p (BitVec.ofNat 256 w) } }

theorem policy_storePolicy_same (p w : Nat) (s : State) : (storePolicy p w s).policy p = w % 2 ^ 256 := by
  simp only [State.policy, storePolicy, SMap.get_set_same, BitVec.toNat_ofNat]

theorem policy_storePolicy_ne {p q : Nat} (h : q ≠ p) (w : Nat) (s : State) : (storePolicy p w s).policy q = s.policy q :=
  congrArg BitVec.toNat (SMap.get_set_ne _ _ _ h)

theorem storePolicy_frame (p w : Nat) (s : State) :
    (storePolicy p w s).regs = s.regs ∧ (storePolicy p w s).gov.entries = s.gov.entries := ⟨rfl, rfl⟩

theorem ptgEntCommit_of_idle (hidle : s.flag govPage Fld.PTG_STATUS.busy = false) : ptgEntCommit s =
    if s.flag govPage Fld.PTG_ENT_IDX.sel then
      if policyBad (readWords s (govPage + 0xA4)) then logStatus govPage stFormat s
      else storePolicy (s.fld govPage Fld.PTG_ENT_IDX.index % 64) (cleanPolicy (readWords s (govPage + 0xA4))) s
    else s.setEntry (s.fld govPage Fld.PTG_ENT_IDX.index) (putBits (readWords s (govPage + 0xA4)) 15 15 0) :=
  if_neg (by simp [govBusy, hidle])

/-- A policy of legal form is stored without its reserved bits (R192). -/
theorem ptgEntCommit_policy (hidle : s.flag govPage Fld.PTG_STATUS.busy = false) (hsel : s.flag govPage Fld.PTG_ENT_IDX.sel = true)
    (hgood : policyBad (readWords s (govPage + 0xA4)) = false) :
    (ptgEntCommit s).policy (s.fld govPage Fld.PTG_ENT_IDX.index % 64) = cleanPolicy (readWords s (govPage + 0xA4)) % 2 ^ 256 ∧
    (∀ p, p ≠ s.fld govPage Fld.PTG_ENT_IDX.index % 64 → (ptgEntCommit s).policy p = s.policy p) ∧
    (ptgEntCommit s).regs = s.regs ∧ (ptgEntCommit s).gov.entries = s.gov.entries := by
  rw [ptgEntCommit_of_idle hidle, if_pos hsel, if_neg (by simp [hgood])]
  exact ⟨policy_storePolicy_same _ _ s, fun p hp => policy_storePolicy_ne hp _ s, storePolicy_frame _ _ s⟩

theorem ptgEntCommit_entry (hidle : s.flag govPage Fld.PTG_STATUS.busy = false) (hsel : s.flag govPage Fld.PTG_ENT_IDX.sel = false) :
    ptgEntCommit s = s.setEntry (s.fld govPage Fld.PTG_ENT_IDX.index) (putBits (readWords s (govPage + 0xA4)) 15 15 0) := by
  rw [ptgEntCommit_of_idle hidle, hsel]
  rfl

theorem seedCommit_of_busy (hbusy : s.flag govPage Fld.PTG_STATUS.busy = true) :
    seedCommit s = logStatus govPage stConflict s := if_pos hbusy

/-- The seed of job `j` stored. -/
def storeSeed (j v : Nat) (s : State) : State :=
  { s with gov := { s.gov with seeds := SMap.set (fun _ => (0 : BitVec 64)) s.gov.seeds j (BitVec.ofNat 64 v) } }

theorem seedCommit_of_idle (hidle : s.flag govPage Fld.PTG_STATUS.busy = false) :
    seedCommit s = storeSeed (s.fld govPage Fld.PTG_SEED_IDX.job) (s.reg64 (govPage + 0x124)) s :=
  if_neg (by simp [govBusy, hidle])

/-! ### Power shares (R452) -/

/-- The shares in force after a commit: one below the job's use in the present window waits for the next (R452, log 95). -/
theorem shareCommit_eq (s : State) :
    let j := s.fld (powerPage 0) Fld.PWR_SHARE_IDX.job
    let v := s.fld (powerPage 0) Fld.PWR_SHARE_DATA.share
    let put := fun (m : SMap Nat) => SMap.set (fun _ => 0) m j v
    let inForce := if 0 < v ∧ v < SMap.get (fun _ => 0) s.power.present j then s.power.inForce else put s.power.inForce
    shareCommit s = { s with power := { s.power with shares := put s.power.shares, inForce := inForce } } := by
  intro j v put inForce
  have hwaits : (decide (0 < v) && decide (v < SMap.get (fun _ => 0) s.power.present j)) = true ↔
      0 < v ∧ v < SMap.get (fun _ => 0) s.power.present j := by simp
  exact congrArg (fun m : SMap Nat => ({ s with power := { s.power with shares := put s.power.shares, inForce := m } } : State))
    (ite_congr (propext hwaits) (fun _ => rfl) fun _ => rfl)

/-! ### The commit commands -/

/-- A command that only the physical function makes acts for it (R292, R452). -/
theorem exec_of_physical {i : Instr} {off : Nat} {act : State → State} (ha : Admitted s 0)
    (hi : exec i s = .next (posted 0 i (fun t => pfWrite 0 off act t) s)) : exec i s = .next (act s) := by
  rw [hi, posted_admitted ha, pfWrite, guarded_admitted ha]
  rfl

end Commits

/-- Settles O30: each commit writes the entry that its index selects, as the lemma of its table says; a boundary refuses those of the
governor, R351 those of a mapping entry (logs 49, 64, 95 and 130). -/
theorem tableCommits : Obligations.TableCommits := by
  unfold Obligations.TableCommits
  intro s fn ha
  refine ⟨fun hfn => ?job, fun hfn => ?share, fun h => ?route, fun h => ?sets, fun h => ?map, fun h => ?governor, fun h hidle => ?taster⟩
  case job =>
    subst hfn
    exact exec_of_physical (act := jobCommit) ha rfl
  case share =>
    subst hfn
    exact (exec_of_physical (act := shareCommit) ha rfl).trans (congrArg _ (shareCommit_eq s))
  case route =>
    obtain ⟨hown, hothers⟩ := routes_read_rtCommit s
    exact ⟨_, exec_of_granted ⟨ha, h⟩ rfl, hown, hothers, rfl, rfl⟩
  case sets =>
    exact ⟨fun hfree => ⟨_, exec_of_granted ⟨ha, h⟩ rfl, psetCommit_spec hfree⟩,
      fun hok => ⟨_, exec_of_granted ⟨ha, h⟩ rfl, ctxArm_spec hok⟩,
      fun hfree => ⟨_, exec_of_granted ⟨ha, h⟩ rfl, ctxDisarm_spec hfree⟩⟩
  case map =>
    exact ⟨fun hok => ⟨_, exec_of_granted ⟨ha, h⟩ rfl, mapCommit_spec hok⟩,
      fun hbad => (exec_of_granted (act := mapCommit) ⟨ha, h⟩ rfl).trans (congrArg _ (mapCommit_of_refused hbad))⟩
  case governor =>
    have hentry : exec (.ptgEntCommit fn) s = .next (ptgEntCommit s) := exec_of_granted ⟨ha, h⟩ rfl
    have hseed : exec (.seedCommit fn) s = .next (seedCommit s) := exec_of_granted ⟨ha, h⟩ rfl
    refine ⟨fun hidle => ⟨fun hsel => hentry.trans (congrArg _ (ptgEntCommit_entry hidle hsel)),
      fun hsel hgood => ⟨_, hentry, ptgEntCommit_policy hidle hsel hgood⟩, hseed.trans (congrArg _ (seedCommit_of_idle hidle))⟩,
      fun hbusy c hc => ?busy⟩
    case busy =>
      simp only [List.mem_cons, List.not_mem_nil, or_false] at hc
      rcases hc with rfl | rfl
      · exact hentry.trans (congrArg _ (ptgEntCommit_of_busy hbusy))
      · exact hseed.trans (congrArg _ (seedCommit_of_busy hbusy))
  case taster => exact exec_taster (act := tstEntCommit) ⟨ha, h⟩ hidle rfl

end Sys2Proof.Machine

/-! PROOFS. A doorbell for a stream at home in a die, in the tick in which a Forme of that die is being woken, and the statement about
doorbells that it refutes. -/

namespace Sys2Proof.Machine

set_option Elab.async false

/-- Stream 1, ACTIVE, with its home slice at die 0 and the smallest queues. -/
def dieStream : Stream := { Stream.reset with state := 2, home := diePath 0, sqExp := 4, cqExp := 4, credits := 4 }

/-- A ready module whose Forme 0 of die 0 is CLOCK_GATED, with `dieStream`; a command that needs a store of the Forme has begun its wake
in this tick, which PWR_LAST_WAKE records with source 6 (R446, R447). -/
def wakingForme : State :=
  startWake (chasePath 0 0 0 0) 6 modulePath
    (((State.reset.setFlag (resetPage 0) Fld.RST_STATUS.ready true).setRegN (frmReg (chasePath 0 0 0 0)) 16).setStream 1 dieStream)

/-- The source that PWR_LAST_WAKE of die 0 records (R447). -/
def lastWakeSource (s : State) : Nat := bits (s.regN (powerPage 0 + 0xC4)) 8 5

theorem admitted_wakingForme : Admitted wakingForme 0 := by
  unfold Admitted
  decide +kernel

theorem stream_wakingForme : wakingForme.stream 1 = dieStream := by decide +kernel

/-- A die counts as ON, whatever its Formes do. -/
theorem formeGated_wakingForme : formeGated wakingForme dieStream.home = false := by decide +kernel

/-- The doorbell counts as an access to Forme 0, whose wake it finds begun: the lower source, 4, is recorded (R276, R447). -/
theorem lastWakeSource_sqDoorbell : lastWakeSource (sqDoorbell 1 1 wakingForme) = 4 := by decide +kernel

/-- Storing the index alone leaves the source as it was. -/
theorem lastWakeSource_stored :
    lastWakeSource (freshSince 1 (wakingForme.setStream 1 { dieStream with sqTail := 1 })) = 6 := by decide +kernel

/-- Refutes O27: the home of the stream is above the Chases and not gated, but a die's path carries the Forme number 0, and the doorbell
finds that Forme woken in this tick by a higher source: it changes PWR_LAST_WAKE beside sq_tail (R276, R447). -/
theorem not_doorbells : ¬ Obligations.Doorbells := by
  unfold Obligations.Doorbells
  intro h
  obtain ⟨hsq, -⟩ := h wakingForme 0 1 1 (by decide) admitted_wakingForme (by rw [stream_wakingForme]; rfl)
  rw [stream_wakingForme] at hsq
  have hstored := hsq (Or.inr (Or.inl rfl)) (by decide) formeGated_wakingForme (by decide)
  have hruns : exec (.sqDoorbell 0 1 1) wakingForme = .next (sqDoorbell 1 1 wakingForme) :=
    congrArg Host.Outcome.next (posted_owner (by decide) admitted_wakingForme (by rw [stream_wakingForme]; rfl) _ _)
  have hsource := congrArg lastWakeSource (Host.Outcome.next.inj (hruns.symm.trans hstored))
  rw [lastWakeSource_sqDoorbell] at hsource
  exact absurd (hsource.trans lastWakeSource_stored) (by decide)

end Sys2Proof.Machine

/-! PROOFS. A record written while another waits for a slot, and the statement about fetches and records that it refutes. -/

namespace Sys2Proof.Machine

set_option Elab.async false

/-- The record of a command of Chase 0, which holds the slot that it reserved, and an abort record of Chase 1, which reserved none (R281). -/
def slotRec : Rec := ⟨0, chasePath 0 0 0 0, 1, 0, 1, 0, 0, 0, 0, true, false, none, 0, false⟩
def freeRec : Rec := ⟨1, chasePath 0 0 0 1, 1, 0x0D, 0xFD, 0, 0, 0, 0, false, false, none, 1, false⟩

/-- Stream 1 with every slot of its completion queue reserved. -/
def fullStream : Stream :=
  { Stream.reset with state := 2, sqExp := 4, cqBase := 0x200000, cqExp := 4, credits := 16, inFlight := 16, recs := [slotRec, freeRec] }

/-- A module with `fullStream` in which EV_CQ_FULL of die 0's streams reaches the physical function: the event enabled, MSI-X enabled and
its vector 0 not masked (R488, R491). -/
def notifying : State :=
  (((State.reset.setRegN (streamPage 0 + 0x24) 4).setRegN (cfgKey 0 0x80) (2 ^ 31)).setRegN (msixBase 0 + 12) 0).setStream 1 fullStream

theorem nextRec_notifying : nextRec notifying 1 = some slotRec := by decide +kernel

/-- The record is written; the one that has no slot begins to wait, with the event's message (R281, R294). -/
theorem out_completionRecordWrite : (completionRecordWrite 1 notifying).out.length = 1 := by decide +kernel

/-- Refutes O28: as the next record is written, another of the stream that reserved no slot is found without one and begins to wait, which
raises EV_CQ_FULL: the write sends a message (R281, R294, log 32). -/
theorem not_fetchAndRecords : ¬ Obligations.FetchAndRecords := by
  unfold Obligations.FetchAndRecords
  intro h
  obtain ⟨-, -, hwrite⟩ := h notifying 1
  obtain ⟨t, hexec, -, -, -, -, -, -, -, -, -, hout⟩ := hwrite slotRec nextRec_notifying rfl rfl (by decide) (by decide +kernel)
  obtain rfl : completionRecordWrite 1 notifying = t := Host.Outcome.next.inj hexec
  have hlen := congrArg List.length hout
  rw [out_completionRecordWrite] at hlen
  exact absurd hlen (by decide +kernel)

end Sys2Proof.Machine

/-! PROOFS. A permute whose source lies in a store behind a failed wake, and the statement about timeouts that it refutes. -/

namespace Sys2Proof.Machine

set_option Elab.async false

/-- One Folio of P8 Tiles at Folio 65, its Tile state entries at 0x30000; nothing is written there, so that Tile 0 stands in tier 0, in
the store of Chase 0 (R243, R246). -/
def storeRegion : Region := ⟨65, 1, 32, 8, 0, 0x30000, 0, 0, 4, 0⟩

/-- A descriptor of one Tile of P8 that coincides with Tile 0 of the region (R160). -/
def permuteSource : Opd :=
  ⟨1, BitVec.ofNat 512 (65 * 65536 + 8 * 2 ^ 50 + 2 ^ 63 + 64 * 2 ^ 128 + 64 * 2 ^ 160 + 2 ^ 192 + 0xFFFF * 2 ^ 224 + 64 * 2 ^ 384), unitSlot⟩

/-- A COL_PERMUTE of stream 1 at the module, accepted and held, with that source (R156). -/
def heldPermute : QEnt :=
  { newEnt (BitVec.ofNat 256 (0x66 + modulePath * 2 ^ 16 + 2 ^ 32 + (1 + 2 ^ 20) * 2 ^ 96)) none with
    phase := .held, ops := [some permuteSource, none, none] }

/-- A module with a fixed range of 64 Folios, a directory at 0x20000 and a leaf at 0x100000 that maps Folio 65 to region 1 (R240 to
R242); Forme 0 of die 0, which holds Chase 0, is in WAKE_FAIL (R448), and the module's queue holds the permute. -/
def behindFailedWake : State :=
  let s := ((State.reset.setRegN (tierPage 0 + 0x80) 4).setRegN (tierPage 0 + 0x84) 0x20000).setRegN (frmReg (chasePath 0 0 0 0)) 48
  let s := (s.setNum 0x20000 8 (0x100000 + 1)).setNum (0x100000 + 8 * 65) 8 3
  ({ s with tiers := { s.tiers with regions := [(1, storeRegion)] } } : State).setQ modulePath [heldPermute]

/-- Accesses that met WAKE_FAIL on die 0 (R448, R455). -/
def failedWakes (s : State) : Nat := s.regN (powerPage 0 + 0x38)

theorem plainTimeouts_behindFailedWake : PlainTimeouts behindFailedWake (homeDie modulePath heldPermute.cmd) := by
  unfold PlainTimeouts
  decide +kernel

theorem find_heldPermute : (behindFailedWake.q modulePath).find? (fun y => y.op == 0x66 && canStart behindFailedWake modulePath y) =
    some heldPermute := by decide +kernel

/-- The source lies in the store of Chase 0, in a Forme that is not ON, and no wake of it is under way or possible. -/
theorem sleepers_heldPermute : sleepers behindFailedWake heldPermute = [chasePath 0 0 0 0] ∧
    (sleepers behindFailedWake heldPermute).any (formeGated behindFailedWake) = false := by decide +kernel

/-- The permute is ended with WAKE_TIMEOUT and the access counted. -/
theorem failedWakes_permuteRelease : failedWakes (permuteRelease modulePath behindFailedWake) = 1 := by decide +kernel

/-- With no reduction context in use a permute that completes moves no generation on (R347). -/
theorem collEffects_of_noContexts {e : QEnt} {s : State} (hop : e.op = 0x66) (hnone : s.ctxs = []) : collEffects e s = s := by
  have hctx : ∀ k, s.ctx k = RedCtx.reset := fun k => by rw [State.ctx, hnone]; rfl
  unfold collEffects
  split
  · next h _ => rw [hop] at h; cases h
  · exact State.each_of_fixed s (fun k _ => by simp [hctx, RedCtx.reset])
  · rfl

theorem collCheck_of_noContexts {u : Nat} {e : QEnt} {s : State} (hop : e.op = 0x66) (hnone : s.ctxs = []) :
    collCheck u e s = if e.phase == .sending && allAnswered s u e then finish u e ⟨e.status, e.operand, e.detail, e.detail2⟩ s else s := by
  simp only [collCheck, finishColl, collEffects_of_noContexts hop hnone, ite_self]

/-- A permute that sends counts no such access. -/
theorem failedWakes_runColl : failedWakes (settle (runColl modulePath heldPermute behindFailedWake)) = 0 := by
  unfold runColl
  rw [if_neg (by decide)]
  dsimp only
  rw [collCheck_of_noContexts (by decide +kernel) (by decide +kernel)]
  decide +kernel
/-- Refutes O22: no Forme that holds a store of the permute is gated, but one is in WAKE_FAIL: the permute does not send, it ends with
WAKE_TIMEOUT (R446, R448). -/
theorem not_engineTimeouts : ¬ Obligations.EngineTimeouts := by
  unfold Obligations.EngineTimeouts
  intro h
  obtain ⟨-, -, -, -, hrelease, -⟩ := h behindFailedWake modulePath heldPermute plainTimeouts_behindFailedWake
  obtain ⟨hsends, -⟩ := hrelease find_heldPermute rfl
  have hnext : permuteRelease modulePath behindFailedWake = _ := Host.Outcome.next.inj (hsends sleepers_heldPermute.2)
  have hcount := congrArg failedWakes hnext
  rw [failedWakes_permuteRelease, failedWakes_runColl] at hcount
  exact absurd hcount (by decide)

end Sys2Proof.Machine

/-! PROOFS. The first receive checks of a packet, and the statement about packets that fail them or are for another module. -/

namespace Sys2Proof.Machine

variable {s : State} {p : Nat} {pkt : Packet}

/-- Every row of a packet answers what the common receive checks make of it (R306). -/
theorem exec_packetRow {ty : Nat} {i : Instr} (hi : (ty, i) ∈ packetRows p pkt) :
    ∃ mine, ∀ s, exec i s = .next (receive ty p pkt mine s) := by
  simp only [packetRows, List.mem_cons, Prod.mk.injEq, List.not_mem_nil, or_false] at hi
  rcases hi with ⟨rfl, rfl⟩ | ⟨rfl, rfl⟩ | ⟨rfl, rfl⟩ | ⟨rfl, rfl⟩ | ⟨rfl, rfl⟩ | ⟨rfl, rfl⟩ | ⟨rfl, rfl⟩ | ⟨rfl, rfl⟩ | ⟨rfl, rfl⟩ |
    ⟨rfl, rfl⟩ | ⟨rfl, rfl⟩ <;> exact ⟨_, fun _ => rfl⟩

theorem receive_of_absent (h : arrived s p pkt = false) (ty : Nat) (mine : State → State) : receive ty p pkt mine s = s := by
  simp [receive, h]

theorem receive_of_malformed (h : arrived s p pkt = true) (hbad : malformed pkt = true) (mine : State → State) :
    receive pkt.type p pkt mine s = refuseForm pkt (takeIn p pkt s) := by
  simp [receive, h, hbad]

/-- A well-formed packet of another module goes on to checks 2 to 5 (R306, R310, R311). -/
theorem receive_of_foreign (h : arrived s p pkt = true) (hform : malformed pkt = false)
    (hlen : pkt.data.length = 16 * data16 pkt.type pkt.len16) (hdest : pkt.dest ≠ selfId s) (mine : State → State) :
    receive pkt.type p pkt mine s = forward p pkt s := by
  simp [receive, h, hform, hlen, hdest]

theorem forward_of_spent (h : pkt.hops = 0) : forward p pkt s = refusePkt p pkt stAddress s := if_pos h

theorem forward_of_up {q : Nat} (hhops : 0 < pkt.hops) (hroute : routePort s pkt.dest pkt.stream = some q) (hup : portUp s q = true) :
    forward p pkt s = queueAt q { pkt with hops := pkt.hops - 1 } ((takeIn p pkt s).bump routePage 1 1) := by
  simp [forward, Nat.ne_of_gt hhops, hroute, hup]

theorem forward_of_down {q : Nat} (hhops : 0 < pkt.hops) (hroute : routePort s pkt.dest pkt.stream = some q)
    (hdown : portUp s q = false) : forward p pkt s = refusePkt p pkt stLinkDown s := by
  simp [forward, Nat.ne_of_gt hhops, hroute, hdown]

/-- Settles O36: every row of a packet begins with the same receive checks, and each clause is one way through them. -/
theorem packetChecks : Obligations.PacketChecks := by
  unfold Obligations.PacketChecks
  intro s p ty pkt i hi hty
  obtain ⟨mine, hexec⟩ := exec_packetRow hi
  subst hty
  rw [hexec]
  refine ⟨fun h => ?absent, fun h hbad => ?malformed, fun h hform hlen hdest => ?foreign⟩
  case absent => rw [receive_of_absent h]
  case malformed => rw [receive_of_malformed h hbad]
  case foreign =>
    rw [receive_of_foreign h hform hlen hdest]
    refine ⟨fun hhops => ?_, fun q hhops hroute hup => ?_, fun q hhops hroute hdown => ?_⟩
    · rw [forward_of_spent hhops]; rfl
    · rw [forward_of_up hhops hroute hup]
    · rw [forward_of_down hhops hroute hdown]; rfl

end Sys2Proof.Machine

/-! PROOFS. Ports: what their states, headers and flits leave to read, and a retrain that this side asks for (R298, R300, R314). -/

namespace Sys2Proof.Machine

/-! ### A port and its page -/

theorem State.port_congr {s t : State} (h : t.ports = s.ports) (p : Nat) : t.port p = s.port p := by unfold State.port; rw [h]

/-- A write of a port stands alone when the one before it has put an entry there. -/
theorem State.setPort_setPort {s : State} {p : Nat} {x : PortSt} (hx : x ≠ PortSt.reset) (y : PortSt) :
    (s.setPort p x).setPort p y = s.setPort p y := by
  simp only [State.setPort, SMap.set_set_of_ne (fun _ => PortSt.reset) hx]

theorem portPage_mod (p : Nat) : portPage p % 4096 = 0 := by
  simp only [portPage, dieWin]
  omega

/-- The pages of the ports lie below the routing page. -/
theorem portPage_lt {p o : Nat} (hp : p < 16) (ho : o < 4096) : portPage p + o < routePage := by
  simp only [portPage, dieWin, routePage]
  omega

theorem portPage_add_mod {o : Nat} (p : Nat) (ho : o < 4096) : (portPage p + o) % 4096 = o := by
  rw [Nat.add_mod, portPage_mod, Nat.zero_add, Nat.mod_mod, Nat.mod_eq_of_lt ho]

section Ports

variable (s : State) (p : Nat)

theorem portState_setPortState {st : Nat} (h : st < 8) : portState (setPortState p st s) p = st :=
  (State.fld_setFld_same _ _ _ _).trans (Nat.mod_eq_of_lt h)

theorem port_setPortState (st : Nat) : (setPortState p st s).port p = { s.port p with at_ := s.time } := by
  unfold setPortState
  rw [State.port_congr (State.setFld_ports _ _ _ _), State.port_setPort_same]

/-- Counters and events of its page leave a port's state alone. -/
theorem portState_bump {i : Nat} (hi : i < 21) (n : Nat) : portState (s.bump (portPage p) i n) p = portState s p :=
  fld_bump s (by simp only [Fld.IZN_PORT_STATUS.state]; omega)

theorem portState_raiseEv (k : Nat) : portState (raiseEv (portPage p) k s) p = portState s p :=
  fld_raiseEv s (by simp only [Fld.IZN_PORT_STATUS.state]; omega)
    (by rw [portPage_add_mod p (by decide)]; decide)

/-! ### A flit that leaves -/

/-- A port whose header is sent: the credits given are owed no more, the nak and the first link word are gone. -/
def headSent (x : PortSt) : PortSt :=
  { x with
    due := (List.zip (List.range 4) ((List.range 4).map (fun v => min 255 (SMap.get (fun _ => 0) x.due v)))).foldl
      (fun m c => SMap.set (fun _ => 0) m c.1 (SMap.get (fun _ => 0) m c.1 - c.2)) x.due
    nakDue := false, words := x.words.drop 1 }

theorem flitHead_fields : (flitHead p s).1.kind = 0 ∧ (flitHead p s).1.ack = ((s.port p).rxNext + 4095) % 4096 ∧
    (flitHead p s).1.nak = (s.port p).nakDue ∧
    (flitHead p s).1.credits = (List.range 4).map (fun v => min 255 (SMap.get (fun _ => 0) (s.port p).due v)) :=
  ⟨rfl, rfl, rfl, rfl⟩

/-- The header carries the first link word that waits; one of kind 4 as it stands. -/
theorem flitHead_link {v : Nat} {l : List (Nat × Nat)} (h : (s.port p).words = (4, v) :: l) :
    (flitHead p s).1.linkKind = 4 ∧ (flitHead p s).1.linkData = v := by
  simp only [flitHead, h, and_self]

theorem port_flitHead : (flitHead p s).2.port p = headSent (s.port p) := State.port_setPort_same _ p _

/-- A header counts a nak and notes the time of a synchronisation word: all else stands but the port. -/
theorem flitHead_field {β : Type} (g : State → β) (hport : ∀ x t, g (State.setPort t p x) = g t)
    (hnak : ∀ t, g (State.bump t (portPage p) 5 1) = g t) (hsync : ∀ x t, g { t with sync := x } = g t) : g (flitHead p s).2 = g s := by
  have hcount := State.when_field s g (s.port p).nakDue (fun s => s.bump (portPage p) 5 1) (hnak s)
  have hnote : ∀ (c : Prop) [Decidable c] (x : SyncSt) (t : State), g (if c then { t with sync := x } else t) = g t := by
    intro c _ x t
    split
    · exact hsync x t
    · rfl
  exact (hport _ _).trans ((hnote _ _ _).trans hcount)

theorem regN_flitHead {o : Nat} (h : o ≠ portPage p + 0x44) : (flitHead p s).2.regN o = s.regN o :=
  flitHead_field s p (·.regN o) (fun _ _ => State.regN_congr rfl o) (fun t => by rw [regN_bump, if_neg h])
    (fun _ _ => State.regN_congr rfl o)

theorem flitHead_frame : (flitHead p s).2.out = s.out ∧ (flitHead p s).2.mem = s.mem ∧ (flitHead p s).2.txq = s.txq :=
  ⟨flitHead_field s p (·.out) (fun _ _ => State.setPort_out _ _ _) (fun _ => State.bump_out _ _ _ _) (fun _ _ => rfl),
    flitHead_field s p (·.mem) (fun _ _ => State.setPort_mem _ _ _) (fun _ => State.bump_mem _ _ _ _) (fun _ _ => rfl),
    flitHead_field s p (·.txq) (fun _ _ => State.setPort_txq _ _ _) (fun _ => State.bump_txq _ _ _ _) (fun _ _ => rfl)⟩

theorem body_sealed (f : Flit) : f.sealed.body = f.body := by simp only [Flit.body, Flit.sealed]

theorem crc_sealed (f : Flit) : f.sealed.crc = crc32c f.sealed.body := by rw [body_sealed]; rfl

/-- A flit that leaves is added to those that do not fill four codewords yet; the port keeps all else. -/
theorem port_putFlit (f : Flit) : ∃ l n, (putFlit p f s).port p = { s.port p with group := l, txCw := n } := by
  unfold putFlit
  dsimp only
  split
  · exact ⟨_, _, State.port_setPort_same _ p _⟩
  · exact ⟨_, _, State.port_setPort_same _ p _⟩

theorem putFlit_frame (f : Flit) : (putFlit p f s).regs = s.regs ∧ (putFlit p f s).mem = s.mem ∧ (putFlit p f s).txq = s.txq := by
  unfold putFlit
  dsimp only
  split <;> exact ⟨rfl, rfl, rfl⟩

/-- What leaves with a flit: the flit with its CRC and, with every tenth, the four codewords that they fill (R297, R298). -/
theorem out_putFlit (f : Flit) : (putFlit p f s).out = s.out ++ [.flit p f.sealed] ++
    (if (s.port p).group.length < 9 then []
     else [.codewords p (lanesOf (codewordsOf (s.port p).txCw ((s.port p).group ++ [f.sealed])))]) := by
  unfold putFlit
  dsimp only
  rw [List.length_append, List.length_singleton]
  split
  · next h => rw [if_pos (by omega), List.append_nil]; rfl
  · next h => rw [if_neg (by omega)]; rfl

theorem mem_out_putFlit (f : Flit) : Msg.flit p f.sealed ∈ (putFlit p f s).out := by
  rw [out_putFlit]
  exact List.mem_append_left _ (List.mem_append_right _ List.mem_cons_self)

/-! ### Leaving UP, and a retrain -/

/-- A follower that loses lock writes the routing page. -/
theorem regN_leaveUp {o : Nat} (h : o < routePage) (ho : o % 4096 ≠ 2048) : (leaveUp p s).regN o = s.regN o := by
  have hne : ∀ k, o ≠ routePage + k := fun k => by omega
  unfold leaveUp
  split
  · unfold loseLock
    split
    · rw [regN_raiseEv _ (hne _) ho, regN_bump, Nat.add_assoc, if_neg (hne _)]
      exact (State.regN_setFld_ne _ _ _ _ (hne _)).trans ((State.regN_setFld_ne _ _ _ _ (hne _)).trans (State.regN_congr rfl o))
    · rfl
  · rfl

variable {s p} (hup : portState s p = ptUp)
include hup

theorem enterRetrain_of_up :
    enterRetrain p s = raiseEv (portPage p) 2 ((setPortState p ptRetrain (leaveUp p s)).bump (portPage p) 6 1) := if_pos hup

theorem portState_enterRetrain : portState (enterRetrain p s) p = ptRetrain := by
  rw [enterRetrain_of_up hup, portState_raiseEv, portState_bump _ _ (by decide), portState_setPortState _ _ (by decide)]

theorem port_enterRetrain : (enterRetrain p s).port p = { s.port p with at_ := s.time } := by
  have hleave : (leaveUp p s).port p = s.port p := State.port_congr (by simp) p
  have hports : (enterRetrain p s).ports = (setPortState p ptRetrain (leaveUp p s)).ports := by
    rw [enterRetrain_of_up hup]
    simp
  rw [State.port_congr hports, port_setPortState, hleave]
  simp

theorem regN_enterRetrain {o : Nat} (hp : p < 16) (ho : o < 4096) (h20 : o ≠ 0x20) (h48 : o ≠ 0x48) (h84 : o ≠ 0x84) (hpba : o ≠ 2048) :
    (enterRetrain p s).regN (portPage p + o) = s.regN (portPage p + o) := by
  have hmod : (portPage p + o) % 4096 ≠ 2048 := by rwa [portPage_add_mod p ho]
  rw [enterRetrain_of_up hup, regN_raiseEv _ (by omega) hmod, regN_bump, if_neg (by omega)]
  exact (State.regN_setFld_ne _ _ _ _ (by simp only [Fld.IZN_PORT_STATUS.state]; omega)).trans
    (regN_leaveUp s p (portPage_lt hp ho) hmod)

end Ports

/-! ### Idle flits, and a retrain that this side asks for -/

section Idle

variable (s : State) (p : Nat)

theorem putIdle_eq : putIdle p s = putFlit p (flitHead p s).1 (flitHead p s).2 := rfl

theorem port_putIdle : ∃ l n, (putIdle p s).port p = { headSent (s.port p) with group := l, txCw := n } := by
  have h := port_putFlit (flitHead p s).2 p (flitHead p s).1
  rwa [port_flitHead] at h

theorem regN_putIdle {o : Nat} (h : o ≠ portPage p + 0x44) : (putIdle p s).regN o = s.regN o := by
  obtain ⟨hregs, -⟩ := putFlit_frame (flitHead p s).2 p (flitHead p s).1
  rw [putIdle_eq, State.regN_congr hregs, regN_flitHead s p h]

theorem putIdle_frame : (putIdle p s).mem = s.mem ∧ (putIdle p s).txq = s.txq := by
  obtain ⟨-, hmem, htxq⟩ := flitHead_frame s p
  obtain ⟨-, hmem', htxq'⟩ := putFlit_frame (flitHead p s).2 p (flitHead p s).1
  exact ⟨hmem'.trans hmem, htxq'.trans htxq⟩

/-- The state after the idle flit whose link word asks the peer for a retrain (R314, R316). -/
def retrainAsked : State := putIdle p (s.setPort p { s.port p with words := (4, 0) :: (s.port p).words })

/-- The port after that flit: its words are those that waited before. -/
theorem port_retrainAsked : ∃ l n, (retrainAsked s p).port p =
    { headSent { s.port p with words := (4, 0) :: (s.port p).words } with group := l, txCw := n } := by
  have h := port_putIdle (s.setPort p { s.port p with words := (4, 0) :: (s.port p).words }) p
  rwa [State.port_setPort_same] at h

theorem regN_retrainAsked {o : Nat} (h : o ≠ portPage p + 0x44) : (retrainAsked s p).regN o = s.regN o :=
  (regN_putIdle _ p h).trans (State.regN_congr (State.setPort_regs s p _) o)

theorem retrainAsked_frame : (retrainAsked s p).mem = s.mem ∧ (retrainAsked s p).txq = s.txq := by
  obtain ⟨hmem, htxq⟩ := putIdle_frame (s.setPort p { s.port p with words := (4, 0) :: (s.port p).words }) p
  exact ⟨hmem, htxq⟩

theorem portState_retrainAsked : portState (retrainAsked s p) p = portState s p := by
  unfold portState State.fld
  rw [regN_retrainAsked s p (by simp only [Fld.IZN_PORT_STATUS.state]; omega)]

theorem mem_out_retrainAsked : ∃ f, Msg.flit p f ∈ (retrainAsked s p).out ∧ f.kind = 0 ∧ f.linkKind = 4 ∧ f.linkData = 0 := by
  obtain ⟨hkind, hdata⟩ := flitHead_link (s.setPort p { s.port p with words := (4, 0) :: (s.port p).words }) p
    (v := 0) (l := (s.port p).words) (by rw [State.port_setPort_same])
  exact ⟨_, mem_out_putFlit _ p _, rfl, hkind, hdata⟩

end Idle

section Retrain

variable {s : State} {p : Nat}

theorem askRetrain_of_not (h : portState s p ≠ ptUp) : askRetrain p s = s := if_neg h

variable (hup : portState s p = ptUp)
include hup

theorem askRetrain_of_up : askRetrain p s = enterRetrain p (retrainAsked s p) := if_pos hup

theorem portState_retrainAsked_of_up : portState (retrainAsked s p) p = ptUp := (portState_retrainAsked s p).trans hup

theorem portState_askRetrain : portState (askRetrain p s) p = ptRetrain := by
  rw [askRetrain_of_up hup, portState_enterRetrain (portState_retrainAsked_of_up hup)]

/-- The buffers and credits of a port outlast a retrain (R314). -/
theorem port_askRetrain : ((askRetrain p s).port p).credits = (s.port p).credits ∧ ((askRetrain p s).port p).replay = (s.port p).replay ∧
    ((askRetrain p s).port p).inbox = (s.port p).inbox ∧ ((askRetrain p s).port p).rxNext = (s.port p).rxNext := by
  obtain ⟨l, n, hport⟩ := port_retrainAsked s p
  rw [askRetrain_of_up hup, port_enterRetrain (portState_retrainAsked_of_up hup), hport]
  exact ⟨rfl, rfl, rfl, rfl⟩

theorem askRetrain_frame : (askRetrain p s).mem = s.mem ∧ (askRetrain p s).txq = s.txq := by
  obtain ⟨hmem, htxq⟩ := retrainAsked_frame s p
  rw [askRetrain_of_up hup]
  simp [hmem, htxq]

theorem bit_askRetrain : bit ((askRetrain p s).regN (portPage p + 0x20)) 2 = true := by
  rw [askRetrain_of_up hup, enterRetrain_of_up (portState_retrainAsked_of_up hup)]
  exact bit_raiseEv _ (portPage_mod p) (by decide)

/-- The count of uncorrectable codewords outlasts it too. -/
theorem unc_askRetrain (hp : p < 16) : (askRetrain p s).regN (portPage p + 0x34) = s.regN (portPage p + 0x34) := by
  rw [askRetrain_of_up hup, regN_enterRetrain (portState_retrainAsked_of_up hup) hp (by decide) (by decide) (by decide) (by decide) (by decide),
    regN_retrainAsked s p (by omega)]

theorem mem_out_askRetrain : ∃ f, Msg.flit p f ∈ (askRetrain p s).out ∧ f.kind = 0 ∧ f.linkKind = 4 ∧ f.linkData = 0 := by
  obtain ⟨f, hout, hf⟩ := mem_out_retrainAsked s p
  obtain ⟨-, -, -, hgrows, -⟩ := Laws.keeps_enterRetrain p (retrainAsked s p) (Laws.keeps_refl _)
  rw [askRetrain_of_up hup]
  exact ⟨f, hgrows.subset hout, hf⟩

end Retrain
end Sys2Proof.Machine

/-! PROOFS. Flits that arrive: bad ones and the codewords they show, headers, data flits and packets, and the statement about them. -/

namespace Sys2Proof.Machine

/-! ### Headers that arrive -/

/-- A header adds its four credits, each to its channel (R300). -/
theorem vcCredits_takeHeader {f : Flit} {x : PortSt} {v : Nat} (hv : v < 4) (hlen : f.credits.length = 4) :
    vcCredits (takeHeader f x) v = vcCredits x v + f.credits.getD v 0 := by
  match hl : f.credits, hlen with
  | [a, b, c, d], _ =>
    simp only [takeHeader, hl, List.range, List.range.loop, List.zip_cons_cons, List.zip_nil_left, List.foldl_cons, List.foldl_nil,
      vcCredits, addVc, SMap.get_set]
    match v, hv with
    | 0, _ => simp
    | 1, _ => simp
    | 2, _ => simp
    | 3, _ => simp

section Received

variable {s : State} {p : Nat}

/-- The port once the flit that arrives is counted. -/
def flitCounted (x : PortSt) : PortSt := { x with rxFlits := x.rxFlits + 1 }

/-- The port after a flit with a bad CRC: it owes a nak, and what arrives is discarded until a replay (R299). -/
def crcFailed (x : PortSt) : PortSt := { flitCounted x with nakDue := true, discarding := true }

/-- A port that has counted a flit is not as after reset. -/
theorem ne_reset_of_rxFlits {x y : PortSt} (h : y.rxFlits = (flitCounted x).rxFlits) : y ≠ PortSt.reset := by
  rintro rfl
  exact absurd h (Nat.zero_ne_add_one _)

theorem flitRx_of_down (hdown : portUp s p = false) (stamp : Nat) (f : Flit) : flitRx p stamp f s = s := by
  simp [flitRx, hdown]

theorem flitRx_of_badCrc (hp : p < 16) (hup : portUp s p = true) (stamp : Nat) {f : Flit} (hcrc : f.crcOk = false) :
    flitRx p stamp f s = badFlit p (s.port p).rxFlits (s.setPort p (crcFailed (s.port p))) := by
  have hne : flitCounted (s.port p) ≠ PortSt.reset := ne_reset_of_rxFlits rfl
  simp only [flitRx, hp, decide_true, hup, Bool.and_self, Bool.not_true, Bool.false_eq_true, if_false, hcrc, Bool.not_false, if_true]
  rw [State.port_setPort_same, State.setPort_setPort (x := { s.port p with rxFlits := (s.port p).rxFlits + 1 }) hne]
  rfl

/-! ### Codewords that could not be corrected -/

theorem regN_bump_same (s : State) (b i n : Nat) : (s.bump b i n).regN (b + 0x30 + 4 * i) = (s.regN (b + 0x30 + 4 * i) + n) % 2 ^ 32 := by
  rw [regN_bump, if_pos rfl]

/-- Earlier uncorrectable codewords within the window of the port (R314). -/
def uncWindow (s : State) (p : Nat) (x : PortSt) : List Nat :=
  x.unc.filter (fun t => decide (s.time < t + 2 ^ s.fld (portPage p) Fld.IZN_RETRAIN_CFG.win_exp))

/-- One more is counted, in the window and in its counter. -/
def uncCounted (p : Nat) (x : PortSt) (s : State) : State :=
  (s.setPort p { x with unc := s.time :: uncWindow s p x }).bump (portPage p) 1 1

theorem noteUnc_setPort {x : PortSt} (hx : x ≠ PortSt.reset) : noteUnc p (s.setPort p x) =
    if s.fld (portPage p) Fld.IZN_RETRAIN_CFG.unc_limit < (uncWindow s p x).length + 1 then askRetrain p (uncCounted p x s)
    else uncCounted p x s := by
  have hfld : ∀ (b : Nat) (f : Fld) (y : PortSt), (s.setPort p y).fld b f = s.fld b f := fun _ _ _ => rfl
  unfold noteUnc
  dsimp only
  rw [State.port_setPort_same, hfld, State.setPort_setPort hx, fld_bump _ (by simp only [Fld.IZN_RETRAIN_CFG.unc_limit]; omega), hfld]
  rfl

theorem badFlit_of_counted {i c : Nat} {x : PortSt} (hc : x.badCw = some c) (hlo : (codewordSpan i).1 ≤ c) :
    badFlit p i (s.setPort p x) = s.setPort p x := by
  simp only [badFlit, State.port_setPort_same, hc, if_pos hlo]

theorem badFlit_of_new {i : Nat} {x : PortSt} (hx : x ≠ PortSt.reset) (hnew : ∀ c, x.badCw = some c → c < (codewordSpan i).1) :
    badFlit p i (s.setPort p x) = noteUnc p (s.setPort p { x with badCw := some (codewordSpan i).2 }) := by
  unfold badFlit
  dsimp only
  rw [State.port_setPort_same, State.setPort_setPort hx]
  split
  · next c hc => exact if_neg (Nat.not_le.mpr (hnew c hc))
  · rfl

/-- Its page counts one codeword more. -/
theorem unc_uncCounted (x : PortSt) :
    (uncCounted p x s).regN (portPage p + 0x34) = (s.regN (portPage p + 0x34) + 1) % 2 ^ 32 :=
  regN_bump_same _ _ 1 1

theorem port_uncCounted (x : PortSt) : (uncCounted p x s).port p = { x with unc := s.time :: uncWindow s p x } :=
  (State.port_congr (State.bump_ports _ _ _ _) p).trans (State.port_setPort_same _ _ _)

theorem portState_uncCounted (x : PortSt) : portState (uncCounted p x s) p = portState s p :=
  portState_bump _ _ (by decide) 1

/-- The port after the codeword of a bad flit is noted, the last that the flit has bits of. -/
def badNoted (x : PortSt) : PortSt := { crcFailed x with badCw := some (codewordSpan x.rxFlits).2 }

section BadFlit

variable (hp : p < 16) (hup : portUp s p = true) (stamp : Nat) {f : Flit} (hcrc : f.crcOk = false)
include hp hup hcrc

/-- A bad flit of which the flit before it has shown a bad codeword counts none. -/
theorem flitRx_of_knownBad {c : Nat} (hc : (s.port p).badCw = some c) (hlo : (codewordSpan (s.port p).rxFlits).1 ≤ c) :
    flitRx p stamp f s = s.setPort p (crcFailed (s.port p)) := by
  rw [flitRx_of_badCrc hp hup stamp hcrc, badFlit_of_counted (x := crcFailed (s.port p)) hc hlo]

variable (hnew : ∀ c, (s.port p).badCw = some c → c < (codewordSpan (s.port p).rxFlits).1)
include hnew

theorem flitRx_of_newBad : flitRx p stamp f s =
    if s.fld (portPage p) Fld.IZN_RETRAIN_CFG.unc_limit < (uncWindow s p (s.port p)).length + 1 then
      askRetrain p (uncCounted p (badNoted (s.port p)) s)
    else uncCounted p (badNoted (s.port p)) s := by
  rw [flitRx_of_badCrc hp hup stamp hcrc, badFlit_of_new (x := crcFailed (s.port p)) (ne_reset_of_rxFlits rfl) hnew]
  exact noteUnc_setPort (x := badNoted (s.port p)) (ne_reset_of_rxFlits rfl)

theorem flitRx_of_withinLimit
    (h : (uncWindow s p (s.port p)).length + 1 ≤ s.fld (portPage p) Fld.IZN_RETRAIN_CFG.unc_limit) :
    flitRx p stamp f s = uncCounted p (badNoted (s.port p)) s := by
  rw [flitRx_of_newBad hp hup stamp hcrc hnew, if_neg (Nat.not_lt.mpr h)]

/-- Past the limit the port asks for a retrain (R314). -/
theorem flitRx_of_pastLimit (h : s.fld (portPage p) Fld.IZN_RETRAIN_CFG.unc_limit ≤ (uncWindow s p (s.port p)).length) :
    flitRx p stamp f s = askRetrain p (uncCounted p (badNoted (s.port p)) s) := by
  rw [flitRx_of_newBad hp hup stamp hcrc hnew, if_pos (Nat.lt_succ_of_le h)]

end BadFlit

/-! ### Data flits -/

/-- Bytes of the channel's packet with those of the flit. -/
def partWith (x : PortSt) (f : Flit) : List (BitVec 8) := SMap.get (fun _ => []) x.part f.vc ++ fit 240 f.payload

/-- A flit that is not a packet's last one is kept with those before it (R299, R304). -/
theorem acceptFlit_of_middle {f : Flit} (hk : f.kind = 1) : acceptFlit p f s = (s.setPort p { s.port p with
    rxNext := ((s.port p).rxNext + 1) % 4096, discarding := false,
    part := SMap.set (fun _ => []) (s.port p).part f.vc (partWith (s.port p) f) }).bump (portPage p) 3 1 := by
  have hmore : ¬ f.kind = 2 := by omega
  simp only [acceptFlit, if_neg hmore]
  rfl

/-- A packet's last flit empties its channel, and the packet is checked (R304). -/
theorem acceptFlit_of_last {f : Flit} (hk : f.kind = 2) : acceptFlit p f s = endPacket p f.vc (partWith (s.port p) f)
    ((s.setPort p { s.port p with
      rxNext := ((s.port p).rxNext + 1) % 4096, discarding := false,
      part := SMap.set (fun _ => []) (s.port p).part f.vc [] }).bump (portPage p) 3 1) := by
  simp only [acceptFlit, hk, if_true]
  rfl

/-- A packet that is whole and well formed waits in the port's buffer. -/
theorem endPacket_of_whole {l : List (BitVec 8)} (hlen : l.length = 240 * flitCount (packetOf l))
    (hform : malformed (packetOf l) = false) (vc : Nat) :
    endPacket p vc l s = s.setPort p { s.port p with inbox := (s.port p).inbox ++ [packetOf l] } := by
  unfold endPacket
  dsimp only
  exact if_pos (by simp [← hlen, hform])

section GoodFlit

/-- The port once a good flit is counted and its header taken. -/
def headed (f : Flit) (x : PortSt) : PortSt := takeHeader f (flitCounted x)

variable (hp : p < 16) (hup : portUp s p = true) (stamp : Nat) {f : Flit} (hcrc : f.crcOk = true) (hword : f.linkKind = 0)
include hp hup hcrc hword

/-- A good flit with no link word: its header is taken, then a data flit by its fseq (R299, R300). -/
theorem flitRx_of_goodCrc : let x := headed f (s.port p); let t := s.setPort p x; flitRx p stamp f s = if f.kind = 1 || f.kind = 2 then
      if f.fseq = x.rxNext then acceptFlit p f t else t.setPort p { x with nakDue := x.nakDue || !x.discarding, discarding := true }
    else t := by
  have hne : flitCounted (s.port p) ≠ PortSt.reset := ne_reset_of_rxFlits rfl
  dsimp only
  simp only [flitRx, hp, decide_true, hup, Bool.and_self, Bool.not_true, Bool.false_eq_true, if_false, hcrc, hword, takeWord,
    State.port_setPort_same]
  rw [State.setPort_setPort (x := { s.port p with rxFlits := (s.port p).rxFlits + 1 }) hne]
  rfl

theorem flitRx_of_idle (hk : f.kind = 0) : flitRx p stamp f s = s.setPort p (headed f (s.port p)) := by
  rw [flitRx_of_goodCrc hp hup stamp hcrc hword, if_neg (by simp [hk])]

/-- A data flit out of its turn is discarded, and a nak owed unless one went out before (R299). -/
theorem flitRx_of_unexpected (hk : f.kind = 1 ∨ f.kind = 2) (hseq : f.fseq ≠ (s.port p).rxNext) :
    flitRx p stamp f s = (s.setPort p (headed f (s.port p))).setPort p { headed f (s.port p) with
      nakDue := (s.port p).nakDue || !(s.port p).discarding, discarding := true } := by
  rw [flitRx_of_goodCrc hp hup stamp hcrc hword, if_pos (by simpa using hk)]
  exact if_neg hseq

theorem flitRx_of_expected (hk : f.kind = 1 ∨ f.kind = 2) (hseq : f.fseq = (s.port p).rxNext) :
    flitRx p stamp f s = acceptFlit p f (s.setPort p (headed f (s.port p))) := by
  rw [flitRx_of_goodCrc hp hup stamp hcrc hword, if_pos (by simpa using hk)]
  exact if_pos hseq

end GoodFlit

end Received

/-- Settles O40: a flit is met by its CRC, then by its kind and fseq; each clause is one way through, and a retrain that it brings leaves the
port's buffers and counters. -/
theorem flitsReceived : Obligations.FlitsReceived := by
  unfold Obligations.FlitsReceived
  intro s p stamp f hp
  dsimp only
  have hexec : exec (.flitRx p stamp f) s = .next (flitRx p stamp f s) := rfl
  rw [hexec]
  refine ⟨fun hdown => ?down, fun hup hcrc => ?bad, fun hup hcrc hword => ?good⟩
  case down => rw [flitRx_of_down hdown]
  case bad =>
    refine ⟨fun c hc hlo => ?known, fun hnew => ⟨fun hwithin => ?within, fun hpast => ?past⟩⟩
    case known =>
      rw [flitRx_of_knownBad hp hup stamp hcrc hc hlo]
      rfl
    case within =>
      rw [flitRx_of_withinLimit hp hup stamp hcrc hnew hwithin, uncCounted]
      rfl
    case past =>
      have hstate := (portState_uncCounted (s := s) (p := p) (badNoted (s.port p))).trans (beq_iff_eq.mp hup)
      obtain ⟨hcredits, hreplay, hinbox, hrx⟩ := port_askRetrain hstate
      obtain ⟨hmem, -⟩ := askRetrain_frame hstate
      rw [port_uncCounted] at hcredits hreplay hinbox hrx
      rw [flitRx_of_pastLimit hp hup stamp hcrc hnew hpast]
      exact ⟨_, rfl, portState_askRetrain hstate, hrx, hinbox, hcredits, hreplay,
        (unc_askRetrain hstate hp).trans (unc_uncCounted _), hmem.trans (by simp [uncCounted])⟩
  case good =>
    refine ⟨rfl, fun v hv hlen => vcCredits_takeHeader hv hlen, fun hk => ?idle, fun hk hseq => ?other, fun hk hseq => ?middle,
      fun hk hseq hlen hform => ?last⟩
    case idle =>
      rw [flitRx_of_idle hp hup stamp hcrc hword hk]
      rfl
    case other =>
      rw [flitRx_of_unexpected hp hup stamp hcrc hword hk hseq]
      exact ⟨_, rfl, by simp, State.port_setPort_same _ _ _, by simp⟩
    case middle =>
      rw [flitRx_of_expected hp hup stamp hcrc hword (Or.inl hk) hseq, acceptFlit_of_middle hk]
      refine ⟨_, rfl, ?_, (regN_bump_same _ _ _ _).trans ?_, by simp⟩
      · rw [State.port_congr (State.bump_ports _ _ _ _), State.port_setPort_same, State.port_setPort_same]
        rfl
      · rw [State.regN_congr (s := s) (by simp)]
    case last =>
      rw [flitRx_of_expected hp hup stamp hcrc hword (Or.inr hk) hseq, acceptFlit_of_last hk, State.port_setPort_same,
        endPacket_of_whole (l := partWith (headed f (s.port p)) f) hlen hform]
      refine ⟨_, rfl, ?_, by simp⟩
      rw [State.port_setPort_same, State.port_congr (State.bump_ports _ _ _ _), State.port_setPort_same]
      rfl

end Sys2Proof.Machine

/-! PROOFS. Flit slots: idle flits, first copies and replays, the start of an exchange, and the statement about them. -/

namespace Sys2Proof.Machine

section Sent

variable {s : State} {p : Nat}

theorem flitTransmit_of_down (hdown : portUp s p = false) : flitTransmit p s = s := by
  simp [flitTransmit, hdown]

/-- Flit `f` has left port `p` of `s`: with its CRC and the credits owed, as the last of what goes out but for the four codewords that
each tenth fills (R297, R298, R300). -/
def FlitLeft (s : State) (p : Nat) (t : State) (f : Flit) : Prop :=
  f.crc = crc32c f.body ∧ f.credits = (List.range 4).map (fun v => min 255 (SMap.get (fun _ => 0) (s.port p).due v)) ∧
  t.out = s.out ++ [.flit p f] ++ (if (s.port p).group.length < 9 then []
    else [.codewords p (lanesOf (codewordsOf (s.port p).txCw ((s.port p).group ++ [f])))])

/-- A flit put out where nothing else has left yet, with a header made at the port. -/
theorem flitLeft_putFlit {t : State} {f : Flit} (hgroup : (t.port p).group = (s.port p).group) (hcw : (t.port p).txCw = (s.port p).txCw)
    (hout : t.out = s.out) (hcredits : f.credits = (List.range 4).map (fun v => min 255 (SMap.get (fun _ => 0) (s.port p).due v))) :
    FlitLeft s p (putFlit p f t) f.sealed :=
  ⟨crc_sealed f, hcredits, by rw [out_putFlit, hgroup, hcw, hout]⟩

theorem flitLeft_putIdle : FlitLeft s p (putIdle p s) (flitHead p s).1.sealed := by
  obtain ⟨hout, -⟩ := flitHead_frame s p
  obtain ⟨-, -, -, hcredits⟩ := flitHead_fields s p
  have hport := port_flitHead s p
  rw [putIdle_eq]
  exact flitLeft_putFlit (by rw [hport]; rfl) (by rw [hport]; rfl) hout hcredits

/-! ### A flit sent again -/

/-- The port as a flit is sent again: its first number is due no more, one more copy of it counts (R299, R314). -/
def resent (g : SentFlit) (x : PortSt) : PortSt :=
  { headSent x with
    resend := x.resend.drop 1
    replay := x.replay.map (fun y => if y.fseq == g.fseq then { y with sends := y.sends + 1 } else y) }

/-- The state in which it leaves, and the flit. -/
def resending (p : Nat) (g : SentFlit) (s : State) : State :=
  ((flitHead p s).2.setPort p (resent g (s.port p))).bump (portPage p) 4 1

def resentFlit (p : Nat) (g : SentFlit) (s : State) : Flit :=
  { (flitHead p s).1 with kind := g.kind, vc := g.vc, fseq := g.fseq, payload := g.payload }

theorem port_resending (g : SentFlit) : (resending p g s).port p = resent g (s.port p) :=
  (State.port_congr (State.bump_ports _ _ _ _) p).trans (State.port_setPort_same _ _ _)

theorem resending_frame (g : SentFlit) :
    (resending p g s).out = s.out ∧ (resending p g s).mem = s.mem ∧ (resending p g s).txq = s.txq := by
  obtain ⟨hout, hmem, htxq⟩ := flitHead_frame s p
  simp [resending, hout, hmem, htxq]

theorem flitLeft_resent (g : SentFlit) : FlitLeft s p (putFlit p (resentFlit p g s) (resending p g s)) (resentFlit p g s).sealed := by
  obtain ⟨hout, -⟩ := resending_frame (s := s) (p := p) g
  obtain ⟨-, -, -, hcredits⟩ := flitHead_fields s p
  have hport := port_resending (s := s) (p := p) g
  exact flitLeft_putFlit (by rw [hport]; rfl) (by rw [hport]; rfl) hout hcredits

/-! ### The first copy of a flit -/

/-- The port with the next flit of its channel taken out of its packet. -/
def advanced (v : Nat) (pkt : Packet) (i : Nat) (x : PortSt) : PortSt :=
  { x with cur := if i + 1 < flitCount pkt then x.cur.filter (fun c => c.1 != v) ++ [(v, pkt, i + 1)]
                  else x.cur.filter (fun c => c.1 != v) }

theorem port_advance (v : Nat) (pkt : Packet) (i : Nat) (s : State) : (advance p v pkt i s).port p = advanced v pkt i (s.port p) := by
  unfold advance
  exact State.port_setPort_same _ _ _

theorem advance_frame (v : Nat) (pkt : Packet) (i : Nat) (s : State) :
    (advance p v pkt i s).out = s.out ∧ (advance p v pkt i s).mem = s.mem := by
  unfold advance
  dsimp only
  split <;> exact ⟨rfl, rfl⟩

/-- The record of flit `i` of a packet in the replay buffer (R299). -/
def firstCopy (v : Nat) (pkt : Packet) (i : Nat) (x : PortSt) : SentFlit :=
  ⟨if i + 1 = flitCount pkt then 2 else 1, v, x.txNext, flitPayload pkt i, 1, pkt⟩

/-- The port as it leaves: numbered, kept for a replay, one credit of its channel spent (R299, R300, R301). -/
def firstSent (v : Nat) (rot : Nat × Nat) (pkt : Packet) (i : Nat) (x : PortSt) : PortSt :=
  { headSent (advanced v pkt i x) with
    txNext := (x.txNext + 1) % 4096, replay := x.replay ++ [firstCopy v pkt i x], hist := (v :: x.hist).take 16, rot := rot
    credits := SMap.set (fun _ => 0) x.credits v (vcCredits x v - 1) }

def sending (p v : Nat) (rot : Nat × Nat) (pkt : Packet) (i : Nat) (s : State) : State :=
  ((flitHead p (advance p v pkt i s)).2.setPort p (firstSent v rot pkt i (s.port p))).bump (portPage p) 2 1

def firstFlit (p v : Nat) (pkt : Packet) (i : Nat) (s : State) : Flit :=
  let f := firstCopy v pkt i (s.port p)
  { (flitHead p (advance p v pkt i s)).1 with kind := f.kind, vc := v, fseq := f.fseq, payload := f.payload }

theorem port_sending (v : Nat) (rot : Nat × Nat) (pkt : Packet) (i : Nat) :
    (sending p v rot pkt i s).port p = firstSent v rot pkt i (s.port p) :=
  (State.port_congr (State.bump_ports _ _ _ _) p).trans (State.port_setPort_same _ _ _)

theorem sending_frame (v : Nat) (rot : Nat × Nat) (pkt : Packet) (i : Nat) :
    (sending p v rot pkt i s).out = s.out ∧ (sending p v rot pkt i s).mem = s.mem := by
  obtain ⟨hout, hmem, -⟩ := flitHead_frame (advance p v pkt i s) p
  obtain ⟨hout', hmem'⟩ := advance_frame (p := p) v pkt i s
  simp [sending, hout, hmem, hout', hmem']

theorem flitLeft_sent (v : Nat) (rot : Nat × Nat) (pkt : Packet) (i : Nat) :
    FlitLeft s p (putFlit p (firstFlit p v pkt i s) (sending p v rot pkt i s)) (firstFlit p v pkt i s).sealed := by
  obtain ⟨hout, -⟩ := sending_frame (s := s) (p := p) v rot pkt i
  obtain ⟨-, -, -, hcredits⟩ := flitHead_fields (advance p v pkt i s) p
  have hport := port_sending (s := s) (p := p) v rot pkt i
  rw [port_advance] at hcredits
  exact flitLeft_putFlit (by rw [hport]; rfl) (by rw [hport]; rfl) hout hcredits

theorem vcCredits_firstSent_same (v : Nat) (rot : Nat × Nat) (pkt : Packet) (i : Nat) (x : PortSt) :
    vcCredits (firstSent v rot pkt i x) v = vcCredits x v - 1 := SMap.get_set_same _ _ _ _

theorem vcCredits_firstSent_ne {v w : Nat} (h : w ≠ v) (rot : Nat × Nat) (pkt : Packet) (i : Nat) (x : PortSt) :
    vcCredits (firstSent v rot pkt i x) w = vcCredits x w := SMap.get_set_ne _ _ _ h

/-! ### A slot of a port that is UP -/

section Slot

variable (hp : p < 16) (hup : portUp s p = true)
include hp hup

theorem flitTransmit_of_idle (hc : chooseSlot s p = .idle) : flitTransmit p s = putIdle p s := by
  simp [flitTransmit, hp, hup, hc]

theorem flitTransmit_of_spent {g : SentFlit} (hc : chooseSlot s p = .replay g) (hlimit : replayLimit s p ≤ g.sends) :
    flitTransmit p s = askRetrain p s := by
  simp [flitTransmit, hp, hup, hc, hlimit]

theorem flitTransmit_of_replay {g : SentFlit} (hc : chooseSlot s p = .replay g) (hlimit : g.sends < replayLimit s p) :
    flitTransmit p s = putFlit p (resentFlit p g s) (resending p g s) := by
  simp only [flitTransmit, hp, hup, hc, decide_true, Bool.and_self, Bool.not_true, Bool.false_eq_true, if_false, Nat.not_le.mpr hlimit,
    port_flitHead]
  rfl

theorem flitTransmit_of_first {v i : Nat} {rot : Nat × Nat} {pkt : Packet} (hc : chooseSlot s p = .first v rot)
    (hn : nextFlit s p v = some (pkt, i)) : flitTransmit p s = putFlit p (firstFlit p v pkt i s) (sending p v rot pkt i s) := by
  simp only [flitTransmit, hp, hup, hc, hn, decide_true, Bool.and_self, Bool.not_true, Bool.false_eq_true, if_false, port_flitHead,
    port_advance]
  rfl

end Slot

/-! ### Synchronisation -/

theorem syncExchange_of_root (h : syncOn s = false) : syncExchange s = s := by simp [syncExchange, h]

/-- The first exchange begins at once (R316). -/
theorem syncExchange_begins (hon : syncOn s = true) (hup : portUp s (parentPort s) = true) (hstarted : s.sync.started = 0) :
    syncExchange s = ({ s with sync := { s.sync with started := s.time + 1, t1 := none, t2 := none } } : State).setPort (parentPort s)
      { s.port (parentPort s) with words := (s.port (parentPort s)).words ++ [(1, 0)] } := by
  simp only [syncExchange, hon, hup, hstarted, beq_self_eq_true, Bool.true_or, Bool.and_self, if_true]
  rfl

end Sent

/-- Settles O41: a slot is one of an idle flit, a first copy, a replay or a retrain; each is a flit put out by a port whose header is sent. -/
theorem flitsSent : Obligations.FlitsSent := by
  unfold Obligations.FlitsSent
  intro s p hp
  dsimp only
  have hexec : exec (.flitTransmit p) s = .next (flitTransmit p s) := rfl
  have hsync : exec .syncExchange s = .next (syncExchange s) := rfl
  rw [hexec, hsync]
  refine ⟨fun hdown => ?down, fun hup => ⟨fun hc => ?idle, fun v rot pkt i hc hn => ?first, fun g hc hlimit => ?replay,
    fun g hc hlimit => ?spent⟩, fun hon hup hstarted => ?begins, fun hoff => ?root⟩
  case down => rw [flitTransmit_of_down hdown]
  case idle =>
    obtain ⟨hkind, hack, hnak, -⟩ := flitHead_fields s p
    obtain ⟨hmem, htxq⟩ := putIdle_frame s p
    obtain ⟨l, n, hport⟩ := port_putIdle s p
    rw [flitTransmit_of_idle hp hup hc]
    exact ⟨_, _, rfl, flitLeft_putIdle, hkind, hack, hnak, by rw [hport]; rfl, by rw [hport]; rfl, by rw [hport]; rfl, hmem, htxq⟩
  case first =>
    obtain ⟨-, hmem⟩ := sending_frame (s := s) (p := p) v rot pkt i
    obtain ⟨-, hmem', -⟩ := putFlit_frame (sending p v rot pkt i s) p (firstFlit p v pkt i s)
    obtain ⟨l, n, hport⟩ := port_putFlit (sending p v rot pkt i s) p (firstFlit p v pkt i s)
    rw [port_sending] at hport
    rw [flitTransmit_of_first hp hup hc hn]
    refine ⟨_, _, rfl, flitLeft_sent v rot pkt i, rfl, rfl, rfl, rfl, by rw [hport]; rfl, by rw [hport]; rfl, ?_, fun w hw => ?_,
      hmem'.trans hmem⟩
    · rw [hport]
      exact vcCredits_firstSent_same v rot pkt i _
    · rw [hport]
      exact vcCredits_firstSent_ne hw rot pkt i _
  case replay =>
    obtain ⟨-, hmem, htxq⟩ := resending_frame (s := s) (p := p) g
    obtain ⟨-, hmem', htxq'⟩ := putFlit_frame (resending p g s) p (resentFlit p g s)
    obtain ⟨l, n, hport⟩ := port_putFlit (resending p g s) p (resentFlit p g s)
    rw [port_resending] at hport
    rw [flitTransmit_of_replay hp hup hc hlimit]
    exact ⟨_, _, rfl, flitLeft_resent g, rfl, rfl, rfl, rfl, by rw [hport]; rfl, by rw [hport]; rfl, htxq'.trans htxq, hmem'.trans hmem⟩
  case spent =>
    have hstate : portState s p = ptUp := beq_iff_eq.mp hup
    obtain ⟨hcredits, hreplay, -⟩ := port_askRetrain hstate
    obtain ⟨hmem, htxq⟩ := askRetrain_frame hstate
    rw [flitTransmit_of_spent hp hup hc hlimit]
    exact ⟨_, rfl, portState_askRetrain hstate, hreplay, hcredits, htxq, hmem⟩
  case begins =>
    rw [syncExchange_begins hon hup hstarted]
    exact ⟨_, rfl, by rw [State.port_setPort_same], rfl, rfl, rfl, rfl⟩
  case root => rw [syncExchange_of_root hoff]

end Sys2Proof.Machine

/-! PROOFS. The states of a port: enable, training, retrain, restart, and the statement about them. -/

namespace Sys2Proof.Machine

section PortStates

variable {s : State} {p fn : Nat}

/-! ### Writes of IZN_PORT_CTRL -/

theorem exec_portEnable (hp : p < 16) (h : Granted s fn (portPage p)) (v : Word) :
    exec (.portEnable fn p v) s = .next (portCtrl p v.toNat s) := by
  have hwrite : exec (.portEnable fn p v) s = .next (posted fn (.portEnable fn p v)
      (fun s => if p < 16 then ownerWrite fn (portPage p) 0x80 (portCtrl p v.toNat) s else s) s) := rfl
  rw [hwrite, posted_admitted h.1, if_pos hp, ownerWrite_granted h]

theorem exec_portRetrain (hp : p < 16) (h : Granted s fn (portPage p)) :
    exec (.portRetrain fn p) s = .next (askRetrain p s) := by
  have hwrite : exec (.portRetrain fn p) s = .next (posted fn (.portRetrain fn p)
      (fun s => if p < 16 then ownerWrite fn (portPage p) 0x80 (askRetrain p) s else s) s) := rfl
  rw [hwrite, posted_admitted h.1, if_pos hp, ownerWrite_granted h]

/-- Enable takes a DISABLED port to TRAINING; a retrain asked for with it finds no port that is UP. -/
theorem portCtrl_enables {v : Nat} (hoff : portState s p = ptDisabled) (hen : bit v 0 = true) :
    portCtrl p v s = setPortState p ptTraining (s.setRegN (portPage p + 0x80) (bits v 1 0 + bits v 2 2 * 4)) := by
  have hkeep : ∀ t, askRetrain p (setPortState p ptTraining t) = setPortState p ptTraining t := fun t =>
    askRetrain_of_not (by rw [portState_setPortState t p (by decide)]; decide)
  have hwhen : ∀ (c : Bool) t, (setPortState p ptTraining t).when c (askRetrain p) = setPortState p ptTraining t := by
    intro c t
    cases c
    · rw [State.when_false]
    · rw [State.when_true, hkeep]
  simp [portCtrl, hoff, hen, hwhen]

/-- Another reach for a port that is enabled is refused; the other fields are written (R321). -/
theorem portCtrl_keepsReach {v : Nat} (hon : portState s p ≠ ptDisabled) (hen : bit v 0 = true) (hretrain : bit v 3 = false)
    (hreach : bits v 2 2 ≠ s.fld (portPage p) Fld.IZN_PORT_CTRL.reach) :
    portCtrl p v s = (logStatus (portPage p) stConflict s).setRegN (portPage p + 0x80)
      (bits v 1 0 + s.fld (portPage p) Fld.IZN_PORT_CTRL.reach * 4) := by
  have hstate : (portState s p == ptDisabled) = false := beq_false_of_ne hon
  have hbad : (bits v 2 2 != s.fld (portPage p) Fld.IZN_PORT_CTRL.reach) = true := bne_iff_ne.mpr hreach
  simp [portCtrl, hstate, hbad, hen, hretrain]

/-! ### The end of training -/

/-- The port once training has ended: a new link layer with credits from the peer's shares; packets that had arrived stay (R300). -/
def trainedPort (shares : List Nat) (at' : Nat × Nat) (x : PortSt) : PortSt :=
  { PortSt.reset with
    inbox := x.inbox, peerAt := some at'
    credits := (List.range 4).foldl (fun m v => SMap.set (fun _ => 0) m v (4 * (shares[v]?).getD 0)) [] }

theorem vcCredits_trainedPort (shares : List Nat) (at' : Nat × Nat) (x : PortSt) {v : Nat} (hv : v < 4) :
    vcCredits (trainedPort shares at' x) v = 4 * (shares[v]?).getD 0 := by
  simp only [vcCredits, trainedPort, List.range, List.range.loop, List.foldl_cons, List.foldl_nil, SMap.get_set]
  match v, hv with
  | 0, _ => simp
  | 1, _ => simp
  | 2, _ => simp
  | 3, _ => simp

/-- IZN_PORT_STATUS once training has ended: UP with codeword lock, the peer and its port; the reason of the last failed training
stays (R321). -/
def trainedStatus (peerId peerPort fail : Nat) : Nat := ptUp + 8 + peerId % 4096 * 2 ^ 4 + peerPort % 16 * 2 ^ 16 + fail * 2 ^ 20

theorem bits_trainedStatus (peerId peerPort : Nat) {fail : Nat} (h : fail < 8) :
    bits (trainedStatus peerId peerPort fail % 2 ^ 32) 15 4 = peerId % 4096 ∧
    bits (trainedStatus peerId peerPort fail % 2 ^ 32) 19 16 = peerPort % 16 ∧
    bits (trainedStatus peerId peerPort fail % 2 ^ 32) 22 20 = fail := by
  simp only [bits, trainedStatus, ptUp, Nat.shiftRight_eq_div_pow]
  omega

/-- The state as training ends, before the port is UP: the peer hears this module's id, shares and time. -/
def trained (p peerId peerPort : Nat) (shares : List Nat) (peerTime delay : Nat) (s : State) : State :=
  ((sendHello p s).setPort p (trainedPort shares (peerTime + delay / 4, s.sync.ticks) (s.port p))).setRegN (portPage p + 0x84)
    (trainedStatus peerId peerPort (s.fld (portPage p) Fld.IZN_PORT_STATUS.train_fail))

/-- A module that follows no parent takes no time from one (R317). -/
theorem takeParentTime_of_noSync (h : syncOn s = false) : takeParentTime p s = s := by
  unfold takeParentTime
  split
  · simp [h]
  · rfl

theorem syncOn_congr {t : State} (h : t.regN (routePage + 0x98) = s.regN (routePage + 0x98)) : syncOn t = syncOn s := by
  have hflag : ∀ f : Fld, f.off = 0x98 → t.flag routePage f = s.flag routePage f := by
    intro f hf
    unfold State.flag State.fld
    rw [hf, h]
  unfold syncOn
  rw [hflag _ rfl, hflag _ rfl]

variable {peerId peerPort peerTime delay : Nat} {shares tags : List Nat}

theorem syncOn_trained (hp : p < 16) :
    syncOn (setPortState p ptUp (trained p peerId peerPort shares peerTime delay s)) = syncOn s := by
  have hne : routePage + 0x98 ≠ portPage p + 0x84 := by
    have := portPage_lt (o := 0x84) hp (by decide)
    omega
  refine syncOn_congr ?_
  unfold setPortState trained
  rw [State.regN_setFld_ne _ _ _ _ hne, State.regN_congr (State.setPort_regs _ _ _), State.regN_setRegN_ne _ _ hne]
  exact State.regN_congr rfl _

theorem trainingDone_of_training (hp : p < 16) (hsync : syncOn s = false) (hstate : portState s p = ptTraining)
    (hlock : cwLock tags = true) : trainingDone p peerId peerPort shares peerTime delay tags s =
    raiseEv (portPage p) 0 (setPortState p ptUp (trained p peerId peerPort shares peerTime delay s)) := by
  have htime := takeParentTime_of_noSync (p := p)
    ((syncOn_trained (s := s) (peerId := peerId) (peerPort := peerPort) (shares := shares) (peerTime := peerTime) (delay := delay) hp).trans hsync)
  simp only [trainingDone, hp, hstate, hlock, decide_true, Bool.and_self, if_true]
  exact congrArg _ htime

theorem trainingDone_of_not (h : portState s p ≠ ptTraining ∨ cwLock tags = false) :
    trainingDone p peerId peerPort shares peerTime delay tags s = s := by
  rcases h with h | h <;> simp [trainingDone, h]

/-- A field of IZN_PORT_STATUS beside the state, once the port is UP. -/
theorem fld_trained {f : Fld} (hoff : f.off = 0x84) (hlo : 2 < f.lo) :
    (raiseEv (portPage p) 0 (setPortState p ptUp (trained p peerId peerPort shares peerTime delay s))).fld (portPage p) f =
    bits (trainedStatus peerId peerPort (s.fld (portPage p) Fld.IZN_PORT_STATUS.train_fail) % 2 ^ 32) f.hi f.lo := by
  rw [fld_raiseEv _ (by omega) (by rw [portPage_add_mod p (by omega)]; omega)]
  unfold setPortState
  rw [State.fld_setFld_ne _ _ _ _ _ _ (Or.inr (Or.inr hlo)), State.fld_congr (State.setPort_regs _ _ _)]
  unfold trained
  rw [State.fld_setRegN, if_pos (by rw [hoff])]

theorem port_trained : (raiseEv (portPage p) 0 (setPortState p ptUp (trained p peerId peerPort shares peerTime delay s))).port p =
    { trainedPort shares (peerTime + delay / 4, s.sync.ticks) (s.port p) with at_ := s.time } := by
  have hport : (trained p peerId peerPort shares peerTime delay s).port p =
      trainedPort shares (peerTime + delay / 4, s.sync.ticks) (s.port p) :=
    (State.port_congr (State.setRegN_ports _ _ _) p).trans (State.port_setPort_same _ _ _)
  rw [State.port_congr (s := setPortState p ptUp (trained p peerId peerPort shares peerTime delay s)) (by simp), port_setPortState, hport]
  rfl

theorem trained_frame : (trained p peerId peerPort shares peerTime delay s).time = s.time ∧
    (trained p peerId peerPort shares peerTime delay s).mem = s.mem ∧ (trained p peerId peerPort shares peerTime delay s).txq = s.txq := by
  simp [trained, sendHello]

/-- The message of step 3 of training is among those that have left. -/
theorem hello_mem_trained : Msg.hello p (selfId s)
    ((List.range 4).map (fun v => bits (s.regN (portPage p + 0x8C)) (8 * v + 7) (8 * v))) s.time ∈
    (raiseEv (portPage p) 0 (setPortState p ptUp (trained p peerId peerPort shares peerTime delay s))).out := by
  obtain ⟨-, -, -, hgrows, -⟩ := Laws.keeps_raiseEv (portPage p) 0
    (setPortState p ptUp (trained p peerId peerPort shares peerTime delay s)) (Laws.keeps_refl _)
  refine hgrows.subset ?_
  simp [trained, sendHello, State.send]

/-! ### The end of a retrain, and the restart of a port that is DOWN -/

/-- The port once a retrain has ended: every flit without an ack is due again (R314). -/
def retrained (x : PortSt) : PortSt :=
  { x with replay := x.replay.map (fun f => { f with sends := 0 }), resend := x.replay.map (·.fseq), unc := [] }

theorem retrainDone_of_retrain (hp : p < 16) (hstate : portState s p = ptRetrain) :
    retrainDone p s = setPortState p ptUp (s.setPort p (retrained (s.port p))) := by
  simp only [retrainDone, hp, hstate, decide_true, Bool.and_self, if_true]
  rfl

theorem retrainDone_of_not (hstate : portState s p ≠ ptRetrain) : retrainDone p s = s := by
  simp [retrainDone, hstate]

theorem downRestart_of_due (hp : p < 16) (hstate : portState s p = ptDown)
    (hauto : s.flag (portPage p) Fld.IZN_PORT_CTRL.auto_up = true) (hdue : (s.port p).at_ + 2 ^ 27 ≤ s.time) :
    downRestart p s = setPortState p ptTraining s := by
  simp only [downRestart, portAged, hp, hstate, hauto, hdue, decide_true, Bool.and_self, if_true]

theorem downRestart_of_not (h : s.flag (portPage p) Fld.IZN_PORT_CTRL.auto_up = false ∨ s.time < (s.port p).at_ + 2 ^ 27) :
    downRestart p s = s := by
  rcases h with h | h
  · simp [downRestart, h]
  · simp only [downRestart, portAged, decide_eq_false (Nat.not_le.mpr h), Bool.and_false, Bool.false_eq_true, if_false]

end PortStates

/-- Settles O38: one lemma for each way into a state; a retrain that this side asks for is that of every port that is UP. -/
theorem portStates : Obligations.PortStates := by
  unfold Obligations.PortStates
  intro s p hp hsync
  dsimp only
  have hdone : exec (.retrainDone p) s = .next (retrainDone p s) := rfl
  have hrestart : exec (.downRestart p) s = .next (downRestart p s) := rfl
  rw [hdone, hrestart]
  refine ⟨fun fn v hg => ⟨fun hoff hen => ?enables, fun hon hen hretrain hreach => ?keepsReach, fun hup => ?retrain, fun hnot => ?notUp⟩,
    fun peerId peerPort shares time delay => ?training, fun hstate => ?retrained, fun hstate => ?notRetrain,
    fun hstate hauto hdue => ?due, fun _ h => ?notDue⟩
  case enables => rw [exec_portEnable hp hg, portCtrl_enables hoff hen]; rfl
  case keepsReach => rw [exec_portEnable hp hg, portCtrl_keepsReach hon hen hretrain hreach]; rfl
  case retrain =>
    obtain ⟨f, hout, hkind, hlink, hdata⟩ := mem_out_askRetrain hup
    obtain ⟨hcredits, hreplay, hinbox, -⟩ := port_askRetrain hup
    obtain ⟨hmem, htxq⟩ := askRetrain_frame hup
    rw [exec_portRetrain hp hg]
    exact ⟨_, f, rfl, portState_askRetrain hup, bit_askRetrain hup, hout, hkind, hlink, hdata, hcredits, hreplay, hinbox, htxq, hmem⟩
  case notUp => rw [exec_portRetrain hp hg, askRetrain_of_not hnot]
  case training =>
    have hend : exec (.trainingDone p peerId peerPort shares time delay) s =
      .next (trainingDone p peerId peerPort shares time delay.delay delay.tags s) := rfl
    rw [hend]
    refine ⟨fun hstate hlock => ?up, fun h => ?notTraining⟩
    case notTraining => rw [trainingDone_of_not h]
    case up =>
      obtain ⟨hid, hport, hfail⟩ := bits_trainedStatus peerId peerPort (bits_lt (s.regN (portPage p + 0x84)) 22 20)
      obtain ⟨htime, hmem, htxq⟩ := trained_frame (s := s) (p := p) (peerId := peerId) (peerPort := peerPort) (shares := shares)
        (peerTime := time) (delay := delay.delay)
      rw [trainingDone_of_training hp hsync hstate hlock]
      refine ⟨_, rfl, ?_, (fld_trained rfl (by decide)).trans hid, (fld_trained rfl (by decide)).trans hport,
        bit_raiseEv _ (portPage_mod p) (by decide), (fld_trained rfl (by decide)).trans hfail, hello_mem_trained, fun v hv => ?_, ?_, ?_,
        by simp [htime], by simp [hmem], by simp [htxq]⟩
      · rw [portState_raiseEv, portState_setPortState _ _ (by decide)]; rfl
      · rw [port_trained]; exact vcCredits_trainedPort shares (time + delay.delay / 4, s.sync.ticks) (s.port p) hv
      · rw [port_trained]; rfl
      · rw [port_trained]; rfl
  case retrained =>
    have hport := port_setPortState (s.setPort p (retrained (s.port p))) p ptUp
    rw [State.port_setPort_same] at hport
    rw [retrainDone_of_retrain hp hstate]
    refine ⟨_, rfl, portState_setPortState _ p (by decide), ?_, ?_, ?_, ?_, by simp, by simp, by simp⟩
    · rw [hport]; rfl
    · rw [hport]; simp [retrained]
    · rw [hport]; rfl
    · rw [hport]; rfl
  case notRetrain => rw [retrainDone_of_not hstate]
  case due => rw [downRestart_of_due hp hstate hauto hdue]; rfl
  case notDue => rw [downRestart_of_not h]

end Sys2Proof.Machine

/-! PROOFS. A fetch of a restore whose answer is overdue, and the statement about ports that are lost that it refutes. -/

namespace Sys2Proof.Machine

set_option Elab.async false

/-- A read of the Cask copy that a restore asked of module 7, and that has had no answer since tick 0 (R393). -/
def restoreFetch : Outst := ⟨restoreUnit, 1, 0, 7, ptBgReadReq, 0, 0⟩

/-- A COL_SCATTER of stream 1 that sends, of the same sequence number. -/
def sendingScatter : QEnt := { newEnt (BitVec.ofNat 256 (0x62 + modulePath * 2 ^ 16 + 2 ^ 32)) none with phase := .sending }

/-- A module after reset in which the answer to that read is overdue, and the queue of the unit that stands for a restore holds the scatter. -/
def fetchOverdue : State := { State.reset.setQ restoreUnit [sendingScatter] with outst := [restoreFetch], time := 2 ^ 32 }

/-- The commands that the queue of that unit holds. -/
def restoreQueue (s : State) : Nat := (s.q restoreUnit).length

theorem find_restoreFetch : fetchOverdue.outst.find? (fun o => o.unit == restoreUnit && o.stream == 1 && o.seq == 0 &&
    decide (o.time + max 1024 (fetchOverdue.regN (routePage + 0x94)) ≤ fetchOverdue.time)) = some restoreFetch := by decide +kernel

theorem find_sendingScatter : (fetchOverdue.q restoreUnit).find? (fun e => e.stream == 1 && e.seq == 0 && e.engine == .collective &&
    e.phase == .sending) = some sendingScatter := by decide +kernel

/-- The restore takes the failure; no command ends. -/
theorem restoreQueue_e2eTimeout : restoreQueue (e2eTimeout restoreUnit 1 0 fetchOverdue) = 1 := by decide +kernel

/-- Ending the scatter takes it out of the queue. -/
theorem restoreQueue_finishColl : restoreQueue (settle (tryArrays modulePath (payOwed (finishColl restoreUnit sendingScatter
    ⟨0x11, 0, restoreFetch.dest, 0⟩ { fetchOverdue with outst := dropFirst (· == restoreFetch) fetchOverdue.outst })))) = 0 := by
  decide +kernel

/-- Refutes O39: an overdue answer that a restore waits for ends the restore's read and no collective, whatever the queue of its unit
holds; the statement leaves out the leases' unit but not the restore's (R309, R393). -/
theorem not_portLosses : ¬ Obligations.PortLosses := by
  unfold Obligations.PortLosses
  intro h
  obtain ⟨-, -, -, -, -, hanswer⟩ := h fetchOverdue 0 (by decide) (by decide +kernel)
  obtain ⟨-, hends⟩ := hanswer restoreUnit 1 0
  have hnext : e2eTimeout restoreUnit 1 0 fetchOverdue = _ :=
    Host.Outcome.next.inj (hends restoreFetch sendingScatter (by decide) find_restoreFetch find_sendingScatter)
  have hlen := congrArg restoreQueue hnext
  rw [restoreQueue_e2eTimeout, restoreQueue_finishColl] at hlen
  exact absurd hlen (by decide)

end Sys2Proof.Machine

/-! PROOFS. A cut Cask asked for while a Forme is gated, and the statement about requests for Casks that it refutes. -/

namespace Sys2Proof.Machine

set_option Elab.async false

/-- A ready module with Casks enabled that Stop-press has stopped; Forme 0 of die 0 is CLOCK_GATED (R386, R387, R444). -/
def stoppedBehindGate : State :=
  let s := (State.reset.setFlag (resetPage 0) Fld.RST_STATUS.ready true).setFlag cellarPage Fld.CSK_CTRL.enable true
  let s := setCsk 7 (s.setRegN (frmReg (formePath 0 0)) 16)
  { s with stopped := true, cask := { s.cask with told := true } }

theorem granted_stoppedBehindGate : Granted stoppedBehindGate 0 cellarPage := by
  unfold Granted Admitted
  decide +kernel

/-- The cut wakes the Forme, through whose edge section 3 is read, and is owed until it is awake (R446). -/
theorem writing_caskCut_stoppedBehindGate :
    (caskCut stoppedBehindGate).cask.writing = none ∧ (caskCut stoppedBehindGate).cask.critCut = true := by decide +kernel

/-- Refutes O42: a cut of a stopped, enabled module begins to write no Cask while a Forme is gated; it wakes the Forme first (R446, log 70). -/
theorem not_caskRequests : ¬ Obligations.CaskRequests := by
  unfold Obligations.CaskRequests
  intro h
  obtain ⟨hrequests, -⟩ := h stoppedBehindGate
  obtain ⟨-, -, hcut, -⟩ := hrequests 0 granted_stoppedBehindGate
  obtain ⟨t, hexec, hwriting, -⟩ := hcut (by decide +kernel) (by decide +kernel) rfl (by decide +kernel) (by decide +kernel)
  have hruns : exec (.caskCut 0) stoppedBehindGate = .next (caskCut stoppedBehindGate) :=
    congrArg Host.Outcome.next (posted_granted granted_stoppedBehindGate _ _ _)
  obtain rfl : caskCut stoppedBehindGate = t := Host.Outcome.next.inj (hruns.symm.trans hexec)
  rw [writing_caskCut_stoppedBehindGate.1] at hwriting
  exact Option.some_ne_none _ hwriting.symm

end Sys2Proof.Machine

/-! PROOFS. A write into a buddy slot that waited for the Cellar, and the statement about the Cask writer that it refutes. -/

namespace Sys2Proof.Machine

set_option Elab.async false

/-- A module that writes no Cask; a byte of a mirror that it receives has waited for the Cellar, which is free now (R367, R391). -/
def mirrorByteWaits : State :=
  { State.reset with cask := { State.reset.cask with owed := [(false, buddyKey 0, [1])] } }

/-- Once the Cellar is free, what waited for it goes out. -/
theorem owed_pendingUnitCopied_mirrorByteWaits : (pendingUnitCopied mirrorByteWaits).cask.owed = [] := by decide +kernel

/-- Refutes O43: the writer's commands give the Cellar's turn to the writes that wait for it, so that PENDING_UNIT_COPIED changes a module
that writes no Cask when a byte of a mirror waits (R367, log 74). -/
theorem not_caskWriter : ¬ Obligations.CaskWriter := by
  unfold Obligations.CaskWriter
  intro h
  obtain ⟨-, hidle, -⟩ := h mirrorByteWaits (fun x hx => absurd hx List.not_mem_nil) rfl rfl rfl
  obtain ⟨hcopied, -, -⟩ := hidle rfl
  have hnext : pendingUnitCopied mirrorByteWaits = mirrorByteWaits := Host.Outcome.next.inj hcopied
  have howed := owed_pendingUnitCopied_mirrorByteWaits
  rw [hnext] at howed
  exact List.cons_ne_nil _ _ howed

end Sys2Proof.Machine

/-! PROOFS. A closed stream that waits for a held TRAP record alone at tick T, and the statement about Stop-press that it refutes. -/

namespace Sys2Proof.Machine

set_option Elab.async false

/-- The record of a TRAP of the core of Chase 0, which waits for a free slot of the completion queue (R148, R281). -/
def heldTrapRec : Rec := ⟨0, 0, 1, 0, 0xFF, 0, 0, 0, 0, false, false, none, 0, true⟩

/-- A stream that is being closed: its every command has completed, and that record alone is still to be written (R286). -/
def closingStream : Stream := { Stream.reset with state := sDraining, recs := [heldTrapRec] }

/-- A module with a stop armed for this tick, that stream as its stream 1, and the core of Chase 0 stalled on the TRAP. -/
def stopMeetsTrap : State :=
  let s := { State.reset with cask := { State.reset.cask with armed := some 0 } }
  (s.setStream 1 closingStream).setCore 0 { CoreSt.reset with run := .stalled }

/-- The halt abandons the TRAP, whose record is dropped, and the stream that waited for it alone is free (R151, R286). -/
theorem state_stopPress_stopMeetsTrap : ((stopPress stopMeetsTrap).stream 1).state = sFree := by decide +kernel

/-- Refutes O44: at tick T a stream that is neither READY, ACTIVE nor PAUSED need not keep its state: one that is DRAINING and waits for
the record of a TRAP alone becomes FREE as the core halts (R151, R286, R384). -/
theorem not_stopPressAndResume : ¬ Obligations.StopPressAndResume := by
  unfold Obligations.StopPressAndResume
  intro h
  obtain ⟨-, -, -, hstop, -⟩ := h stopMeetsTrap
  obtain ⟨u, hexec, -, -, hkept, -⟩ := hstop 0 rfl (Nat.zero_le _) rfl (fun x hx => absurd hx List.not_mem_nil) (by decide +kernel) (by decide +kernel)
  obtain rfl : stopPress stopMeetsTrap = u := Host.Outcome.next.inj hexec
  have hstate := hkept 1 (by decide +kernel) (by decide +kernel) (by decide +kernel)
  dsimp only at hstate
  rw [state_stopPress_stopMeetsTrap] at hstate
  exact absurd hstate (by decide +kernel)

end Sys2Proof.Machine

/-! PROOFS. Writes of CSK_RESTORE, the end of a restore, the pairing of buddies, and the statement about them. -/

namespace Sys2Proof.Machine

set_option Elab.async false

/-! ### A restore begins (R371, R393) -/

section Restores

variable {s : State}

/-- A write of CSK_RESTORE stores its fields. -/
def restoreFields (v : Nat) (s : State) : State :=
  s.setRegN (cellarPage + 0xE0) (putBits (s.regN (cellarPage + 0xE0)) 13 0 (bits v 13 0))

theorem exec_caskRestore {fn : Nat} (h : Granted s fn cellarPage) (v : Word) :
    exec (.caskRestore fn v) s = .next ((restoreFields v.toNat s).when (bit v.toNat 14) startRestore) :=
  congrArg Host.Outcome.next (posted_granted h _ _ _)

theorem startRestore_of_active (h : ∃ x ∈ s.streams, x.2.state = 2) : startRestore s = logStatus cellarPage stConflict s := by
  obtain ⟨x, hx, hstate⟩ := h
  have hany : s.streams.any (fun t => t.2.state == sActive) = true := List.any_eq_true.2 ⟨x, hx, by simp [hstate, sActive]⟩
  rw [startRestore, hany]
  rfl

/-- No stream is ACTIVE, no command is outstanding and no Cask is being written: a restore may start. -/
def mayRestore (s : State) : Prop := (∀ x ∈ s.streams, x.2.state ≠ 2) ∧ outstandingCmds s = [] ∧ s.cask.writing = none

theorem mayRestore_restoreFields (v : Nat) (h : mayRestore s) : mayRestore (restoreFields v s) := h

/-- A restore from slot A that may start takes the Cask that the slot holds. -/
theorem startRestore_of_slotA (h : mayRestore s) (hsrc : s.fld cellarPage Fld.CSK_RESTORE.source = 0) :
    startRestore s = match s.cask.slotA with
      | none => failRestore stFormat 0 s
      | some i => if slotFault s 0 != stOk then failRestore (slotFault s 0) 0 s else beginRestore i 0 i.perCtl s := by
  obtain ⟨hstreams, hout, hwriting⟩ := h
  have hany : s.streams.any (fun t => t.2.state == sActive) = false := List.any_eq_false.2 fun x hx => by
    simpa [sActive] using hstreams x hx
  have hsource : restoreSource s = (s.cask.slotA, 0) := by unfold restoreSource; rw [hsrc]; rfl
  rw [startRestore, hany, hout, hwriting, hsrc, hsource]
  cases s.cask.slotA <;> rfl

/-- A restore whose Cask fits this module's fixed range is under way. -/
theorem beginRestore_of_fits {i : CaskImg} {perCtl : Nat} (k : Nat) (h : perCtl = s.fld (tierPage 0) Fld.DIE_FIXED.per_ctl) :
    beginRestore i k perCtl s = setCsk 4 { s with cask := { s.cask with restoring := some i } } := by
  simp [beginRestore, h]

theorem cskState_setCsk {v : Nat} (hv : v < 8) (s : State) : cskState (setCsk v s) = v :=
  (State.fld_setFld_same s _ _ _).trans (Nat.mod_eq_of_lt hv)

theorem slotFault_restoreFields (v k : Nat) (s : State) : slotFault (restoreFields v s) k = slotFault s k := by
  have hbytes : ∀ a n, (restoreFields v s).bytes a n = s.bytes a n := State.bytes_congr rfl
  simp only [slotFault, hbytes]

theorem exec_caskRestore_begins {fn : Nat} {v : Word} {i : CaskImg} (hg : Granted s fn cellarPage) (hstart : bit v.toNat 14 = true)
    (hmay : mayRestore s) (hsrc : (restoreFields v.toNat s).fld cellarPage Fld.CSK_RESTORE.source = 0) (hslot : s.cask.slotA = some i)
    (hwhole : slotFault s 0 = 0) (hfits : i.perCtl = s.fld (tierPage 0) Fld.DIE_FIXED.per_ctl) :
    exec (.caskRestore fn v) s =
      .next (setCsk 4 { restoreFields v.toNat s with cask := { s.cask with restoring := some i } }) := by
  have hfield : (restoreFields v.toNat s).fld (tierPage 0) Fld.DIE_FIXED.per_ctl = s.fld (tierPage 0) Fld.DIE_FIXED.per_ctl := by
    rw [restoreFields, State.fld_setRegN, if_neg (by decide)]
  have hheld : (restoreFields v.toNat s).cask.slotA = some i := hslot
  have hfault : (slotFault (restoreFields v.toNat s) 0 != stOk) = false := by rw [slotFault_restoreFields, hwhole]; rfl
  rw [exec_caskRestore hg, hstart, State.when_true, startRestore_of_slotA (mayRestore_restoreFields _ hmay) hsrc, hheld]
  dsimp only
  rw [hfault, if_neg Bool.false_ne_true, beginRestore_of_fits 0 (hfits.trans hfield.symm)]
  rfl

/-! ### A restore ends (R371, R395) -/

/-- The records of a Colophon lie in the Cellar. -/
theorem byte_colWrite {b : Nat} (hb : b < cellarBase) (d : Nat) (r : ColRec) (s : State) : (colWrite d r s).byte b = s.byte b := by
  have hbelow : b < colAddr d (s.col d).next := by simp only [colAddr]; omega
  have hmem : (colWrite d r s).mem = (s.setBytes (colAddr d (s.col d).next) (colBytes (s.col d).next r)).mem := by
    unfold colWrite State.setCol
    rfl
  exact (State.byte_congr hmem b).trans (State.byte_setBytes_out s _ b _ (Or.inl hbelow))

theorem byte_colAppend {b : Nat} (hb : b < cellarBase) (d type : Nat) (l : List (BitVec 8)) (s : State) :
    (colAppend d type l s).byte b = s.byte b := by
  unfold colAppend
  dsimp only
  split
  · exact byte_colWrite hb _ _ _
  · split <;> rfl

theorem byte_caskResult {b : Nat} (hb : b < cellarBase) (a c e f : Nat) (s : State) : (caskResult a c e f s).byte b = s.byte b :=
  (byte_colAppend hb _ _ _ _).trans (byte_colAppend hb _ _ _ _)

theorem regs_caskResult (a b status d : Nat) (s : State) :
    (caskResult a b status d s).regs = (s.setFld cellarPage Fld.CSK_STATUS.result status).regs := by
  simp [caskResult]

/-- The module in which a restore that has placed every Tile ends. -/
def restored (i : CaskImg) (k : Nat) (t : State) : State := raiseEv cellarPage 7 (caskResult i.serial i.step stOk k (setCsk 5 t))

theorem restoreDone_of_applied {i : CaskImg} {t : State} (hi : s.cask.restoring = some i)
    (ht : applyCask i { s with cask := { s.cask with restoring := none } } = some t) :
    restoreDone s = restored i (s.fld cellarPage Fld.CSK_RESTORE.source) t := by
  simp only [restoreDone, hi, ht]
  rfl

theorem cskState_restored (i : CaskImg) (k : Nat) (t : State) : cskState (restored i k t) = 5 := by
  rw [restored, cskState, fld_raiseEv _ (by decide) (by decide), State.fld_congr (regs_caskResult _ _ _ _ _),
    State.fld_setFld_ne _ _ _ _ _ _ (Or.inr (by decide))]
  exact cskState_setCsk (by decide) t

theorem result_restored (i : CaskImg) (k : Nat) (t : State) : (restored i k t).fld cellarPage Fld.CSK_STATUS.result = 0 := by
  rw [restored, fld_raiseEv _ (by decide) (by decide), State.fld_congr (regs_caskResult _ _ _ _ _)]
  exact State.fld_setFld_same _ _ _ _

theorem byte_restored {b : Nat} (hb : b < cellarBase) (i : CaskImg) (k : Nat) (t : State) : (restored i k t).byte b = t.byte b := by
  have hraised : (restored i k t).mem = (caskResult i.serial i.step stOk k (setCsk 5 t)).mem := by simp [restored]
  rw [State.byte_congr hraised, byte_caskResult hb]
  exact State.byte_congr (by simp) b

end Restores

/-! ### Pairing (R389, R390) -/

section Pairing

variable {s : State}

/-- Asking the buddy to pair, or giving the pairing up, writes no register but CSK_STATUS, no memory and no unit. -/
theorem pairAgain_frame (s : State) : (∀ o, o ≠ cellarPage + 0x84 → (pairAgain s).regN o = s.regN o) ∧ (pairAgain s).mem = s.mem ∧
    (pairAgain s).units = s.units := by
  unfold pairAgain
  split
  · exact ⟨fun o _ => State.regN_congr (by simp) o, by simp, by simp⟩
  · exact ⟨fun o ho => regN_setPairing ho, by simp, by simp⟩

theorem pairAgain_of_on (h : buddyOn s = true) : (pairAgain s).cask.pairAt = some s.time ∧ pairing (pairAgain s) = pairing s := by
  rw [pairAgain, if_pos h]
  exact ⟨by simp, State.fld_congr (by simp) _ _⟩

theorem pairAgain_of_off (h : buddyOn s = false) : (pairAgain s).cask.pairAt = none ∧ pairing (pairAgain s) = 0 := by
  rw [pairAgain, h, if_neg Bool.false_ne_true]
  exact ⟨by simp, pairing_setPairing _ 0⟩

/-- CSK_BUDDY as a write leaves it. -/
def buddyWritten (v : Nat) (s : State) : State := s.setRegN (cellarPage + 0xD8) (v % 2 ^ 14)

theorem regN_buddyWritten (v : Nat) (s : State) : (buddyWritten v s).regN (cellarPage + 0xD8) = v % 2 ^ 14 := by
  rw [buddyWritten, State.regN_setRegN_same]
  omega

theorem buddyOn_buddyWritten (v : Nat) (s : State) : buddyOn (buddyWritten v s) = bit v 12 := by
  have hbit : bit (v % 2 ^ 14) 12 = bit v 12 := by unfold bit; rw [Nat.testBit_mod_two_pow]; rfl
  have hreg : (buddyWritten v s).regN (cellarPage + Fld.CSK_BUDDY.buddy_en.off) = v % 2 ^ 14 := regN_buddyWritten v s
  rw [buddyOn, State.flag, State.fld, hreg]
  exact (congrArg (· == 1) (bits_one _ 12)).trans ((b2n_beq_one _).trans hbit)

theorem pairing_buddyWritten (v : Nat) (s : State) : pairing (buddyWritten v s) = pairing s := by
  rw [pairing, buddyWritten, State.fld_setRegN, if_neg (by decide)]
  rfl

theorem exec_buddyPair {fn : Nat} (h : Granted s fn cellarPage) (v : Word) :
    exec (.buddyPair fn v) s = .next (writeBuddy v.toNat s) := congrArg Host.Outcome.next (posted_granted h _ _ _)

theorem writeBuddy_of_mirroring (h : s.cask.mirroring.isSome = true) (v : Nat) : writeBuddy v s = logStatus cellarPage stConflict s :=
  if_pos h

theorem writeBuddy_of_idle (h : s.cask.mirroring = none) (v : Nat) : writeBuddy v s = pairAgain (buddyWritten v s) := by
  rw [writeBuddy, h]
  rfl

theorem regN_pairAgain_buddyWritten (v : Nat) (s : State) : (pairAgain (buddyWritten v s)).regN (cellarPage + 0xD8) = v % 2 ^ 14 :=
  ((pairAgain_frame _).1 _ (by decide)).trans (regN_buddyWritten v s)

/-- A pairing request is given up once its time is over, and not before. -/
theorem pairTimeout_of_due {t : Nat} (hat : s.cask.pairAt = some t) (h : t + max 1024 (s.regN (routePage + 0x94)) ≤ s.time) :
    pairTimeout s = setPairing 0 { s with cask := { s.cask with pairAt := none } } := by
  simp only [pairTimeout, hat, h, if_true]

theorem pairTimeout_of_early {t : Nat} (hat : s.cask.pairAt = some t) (h : s.time < t + max 1024 (s.regN (routePage + 0x94))) :
    pairTimeout s = s := by
  simp only [pairTimeout, hat, if_neg (Nat.not_le.2 h)]

theorem pairTimeout_of_none (hat : s.cask.pairAt = none) : pairTimeout s = s := by
  simp only [pairTimeout, hat]

/-! #### The feed-domain id (R389) -/

/-- CSK_FEED as Muzomus writes it. -/
def feedWritten (v : Nat) (s : State) : State := s.setRegN (cellarPage + 0xDC) (v % 2 ^ 17)

/-- Muzomus is no function that start-up or earlier writes hold up. -/
theorem admitted_muzomus (s : State) : Admitted s mzmFn :=
  ⟨by simp [fnThere], fun h => absurd h (by decide)⟩

theorem exec_feedWrite {fn : Nat} (h : Admitted s fn) (v : Word) : exec (.feedWrite fn v) s =
    .next (if fn = mzmFn then pairAgain (feedWritten v.toNat s) else refuseAccess fn (cellarPage + 0xDC) s) := by
  change Host.Outcome.next (posted fn (.feedWrite fn v) (fun s => writeFeed fn v.toNat s) s) = _
  rw [posted_admitted h, writeFeed, guarded_admitted h]
  simp only [beq_iff_eq]
  rfl

theorem regN_feedWritten (v : Nat) (s : State) : (feedWritten v s).regN (cellarPage + 0xDC) = v % 2 ^ 17 := by
  rw [feedWritten, State.regN_setRegN_same]
  omega

theorem buddyOn_feedWritten (v : Nat) (s : State) : buddyOn (feedWritten v s) = buddyOn s := by
  rw [buddyOn, State.flag, feedWritten, State.fld_setRegN, if_neg (by decide)]
  rfl

end Pairing

/-- Settles O45: a write of CSK_RESTORE stores its fields and then starts or not; a restore that has placed every Tile only shows its
outcome; each write of the pairing's registers ends in `pairAgain`. -/
theorem restoreAndBuddy : Obligations.RestoreAndBuddy := by
  unfold Obligations.RestoreAndBuddy
  intro s
  dsimp only
  refine ⟨fun fn v hg => ⟨fun hstart => ?stored, fun hstart hactive => ?active, fun hstart hstreams hout hwriting hsrc =>
      ⟨fun hslot => ?empty, fun i hslot hwhole hfits => ?begins⟩⟩, fun hi => ?noRestore, fun i t hi ht => ?done,
    fun fn v hg => ⟨fun hmirror => ?mirroring, fun hidle hen => ?pairs, fun hidle hen => ?unpairs⟩,
    fun t hat hdue => congrArg Host.Outcome.next (pairTimeout_of_due hat hdue),
    fun t hat hearly => congrArg Host.Outcome.next (pairTimeout_of_early hat hearly),
    fun hat => congrArg Host.Outcome.next (pairTimeout_of_none hat), fun v hoff => ?feed, fun fn v hfn hadm => ?refused⟩
  case stored => rw [exec_caskRestore hg, hstart]; rfl
  case active =>
    have hactive' : ∃ x ∈ (restoreFields v.toNat s).streams, x.2.state = 2 := hactive
    rw [exec_caskRestore hg, hstart, State.when_true, startRestore_of_active hactive']
    rfl
  case empty =>
    have hslotA : (restoreFields v.toNat s).cask.slotA = none := hslot
    rw [exec_caskRestore hg, hstart, State.when_true, startRestore_of_slotA (mayRestore_restoreFields _ ⟨hstreams, hout, hwriting⟩) hsrc, hslotA]
    rfl
  case begins =>
    exact ⟨_, exec_caskRestore_begins hg hstart ⟨hstreams, hout, hwriting⟩ hsrc hslot hwhole hfits, by simp,
      cskState_setCsk (by decide) _, by simp [restoreFields], by simp [restoreFields], by simp [restoreFields]⟩
  case noRestore =>
    have hnone : restoreDone s = s := by simp only [restoreDone, hi]
    exact congrArg Host.Outcome.next hnone
  case done =>
    exact ⟨_, congrArg Host.Outcome.next (restoreDone_of_applied hi ht), cskState_restored _ _ _, result_restored _ _ _,
      bit_raiseEv _ (by decide) (by decide), by simp [restored], by simp [restored], by simp [restored], fun b hb => byte_restored hb _ _ _⟩
  case mirroring => rw [exec_buddyPair hg, writeBuddy_of_mirroring hmirror]; rfl
  case pairs =>
    obtain ⟨-, hmem, hunits⟩ := pairAgain_frame (buddyWritten v.toNat s)
    obtain ⟨hat, hpair⟩ := pairAgain_of_on ((buddyOn_buddyWritten v.toNat s).trans hen)
    rw [exec_buddyPair hg, writeBuddy_of_idle hidle]
    exact ⟨_, rfl, hat, regN_pairAgain_buddyWritten _ _, hpair.trans (pairing_buddyWritten _ _), hmem, hunits⟩
  case unpairs =>
    obtain ⟨-, hmem, hunits⟩ := pairAgain_frame (buddyWritten v.toNat s)
    obtain ⟨hat, hpair⟩ := pairAgain_of_off ((buddyOn_buddyWritten v.toNat s).trans hen)
    rw [exec_buddyPair hg, writeBuddy_of_idle hidle]
    exact ⟨_, rfl, hat, regN_pairAgain_buddyWritten _ _, hpair, hmem, hunits⟩
  case feed =>
    obtain ⟨hregs, hmem, hunits⟩ := pairAgain_frame (feedWritten v.toNat s)
    obtain ⟨-, hpair⟩ := pairAgain_of_off ((buddyOn_feedWritten v.toNat s).trans hoff)
    exact ⟨_, exec_feedWrite (admitted_muzomus s) v, (hregs _ (by decide)).trans (regN_feedWritten _ _), hpair, hmem, hunits⟩
  case refused => rw [exec_feedWrite hadm, if_neg (show fn ≠ mzmFn from Nat.ne_of_lt hfn)]

end Sys2Proof.Machine

/-! PROOFS. The risk estimator: what keeps its registers, what an evaluation shows, and the statement about it and the board's alarms. -/

namespace Sys2Proof.Machine

set_option Elab.async false

/-! ### What keeps the risk registers and their history -/

/-- `t` shows the risk that `s` shows, by the same kept periods: CSK_RISK to CSK_RISK_SW (R379, R380). -/
def SameRisk (s t : State) : Prop :=
  t.cask.history = s.cask.history ∧ ∀ o, cellarPage + 0xA8 ≤ o → o < cellarPage + 0xD4 → t.regN o = s.regN o

section SameRisk

variable {s t u : State}

theorem SameRisk.refl : SameRisk s s := ⟨rfl, fun _ _ _ => rfl⟩

theorem SameRisk.trans (hst : SameRisk s t) (htu : SameRisk t u) : SameRisk s u :=
  ⟨htu.1.trans hst.1, fun o hlo hhi => (htu.2 o hlo hhi).trans (hst.2 o hlo hhi)⟩

theorem sameRisk_of_frame (hhist : t.cask.history = s.cask.history) (hregs : t.regs = s.regs) : SameRisk s t :=
  ⟨hhist, fun o _ _ => State.regN_congr hregs o⟩

theorem sameRisk_setRegN {o : Nat} (h : o < cellarPage + 0xA8) (v : Nat) : SameRisk s (s.setRegN o v) :=
  ⟨rfl, fun _ hlo _ => State.regN_setRegN_ne _ _ (by omega)⟩

theorem sameRisk_setReg64 {o : Nat} (h : o + 4 < cellarPage + 0xA8) (v : Nat) : SameRisk s (s.setReg64 o v) :=
  (sameRisk_setRegN (by omega) _).trans (sameRisk_setRegN h _)

theorem sameRisk_setFld {b : Nat} {f : Fld} (h : b + f.off < cellarPage + 0xA8) (v : Nat) : SameRisk s (s.setFld b f v) :=
  sameRisk_setRegN h _

theorem sameRisk_setCsk (v : Nat) : SameRisk s (setCsk v s) := sameRisk_setFld (by decide) v

theorem sameRisk_when {f : State → State} (h : SameRisk s (f s)) (c : Bool) : SameRisk s (s.when c f) := by
  cases c
  · exact SameRisk.refl
  · exact h

theorem sameRisk_each {α : Type} {f : α → State → State} (h : ∀ a t, SameRisk t (f a t)) (l : List α) : SameRisk s (s.each l f) := by
  induction l generalizing s with
  | nil => exact SameRisk.refl
  | cons a l ih => exact (h a s).trans ih

theorem sameRisk_raiseEv (k : Nat) : SameRisk s (raiseEv cellarPage k s) :=
  ⟨by simp, fun o hlo hhi => regN_raiseEv s (by simp only [cellarPage] at *; omega) (by simp only [cellarPage] at *; omega)⟩

theorem queueEvent_frame (id n : Nat) (s : State) : (queueEvent id n s).cask = s.cask ∧ (queueEvent id n s).regs = s.regs ∧
    (queueEvent id n s).stopped = s.stopped := by
  unfold queueEvent
  split <;> exact ⟨rfl, rfl, rfl⟩

theorem sameRisk_queueEvent (id n : Nat) : SameRisk s (queueEvent id n s) := by
  obtain ⟨hcask, hregs, -⟩ := queueEvent_frame id n s
  exact sameRisk_of_frame (by rw [hcask]) hregs

/-! #### Requests -/

theorem sendStopAll_frame (sub : Nat) (data : List (BitVec 8)) (s : State) : (sendStopAll sub data s).cask = s.cask ∧
    (sendStopAll sub data s).regs = s.regs ∧ (sendStopAll sub data s).stopped = s.stopped :=
  ⟨State.each_field s State.cask _ (fun _ _ => by simp) _, State.each_field s State.regs _ (fun _ _ => by simp) _,
    State.each_field s State.stopped _ (fun _ _ => by simp) _⟩

theorem pendCask_frame (s : State) : (pendCask s).cask = { s.cask with requested := true } ∧ (pendCask s).stopped = s.stopped :=
  ⟨State.when_field _ State.cask _ _ (by simp), State.when_field _ State.stopped _ _ (by simp)⟩

/-- A request stands once it is made, in a gang or not, and stops nothing. -/
theorem askCask_frame (s : State) : (askCask s).cask.requested = true ∧ (askCask s).stopped = s.stopped := by
  obtain ⟨hcask, hstopped⟩ := pendCask_frame s
  unfold askCask
  dsimp only
  split
  · obtain ⟨hsent, -, hstop⟩ := sendStopAll_frame 7 (leBytes ((ptgStep (pendCask s) + 1) % 2 ^ 32) 4)
      { pendCask s with cask := { (pendCask s).cask with gangStep := some ((ptgStep (pendCask s) + 1) % 2 ^ 32) } }
    exact ⟨by rw [hsent]; simp [hcask], hstop.trans hstopped⟩
  · exact ⟨by rw [hcask], hstopped⟩

theorem sameRisk_pendCask : SameRisk s (pendCask s) :=
  (sameRisk_of_frame rfl rfl : SameRisk s { s with cask := { s.cask with requested := true } }).trans
    (sameRisk_when (sameRisk_setCsk 1) _)

theorem sameRisk_askCask : SameRisk s (askCask s) := by
  have hpend : SameRisk s (pendCask s) := sameRisk_pendCask
  unfold askCask
  dsimp only
  split
  · obtain ⟨hcask, hregs, -⟩ := sendStopAll_frame 7 (leBytes ((ptgStep (pendCask s) + 1) % 2 ^ 32) 4)
      { pendCask s with cask := { (pendCask s).cask with gangStep := some ((ptgStep (pendCask s) + 1) % 2 ^ 32) } }
    exact hpend.trans (sameRisk_of_frame (by rw [hcask]) hregs)
  · exact hpend

/-! #### A cut Cask -/

theorem sameRisk_caskResult (a b c d : Nat) : SameRisk s (caskResult a b c d s) := by
  unfold caskResult
  exact (sameRisk_setFld (f := Fld.CSK_STATUS.result) (b := cellarPage) (by decide) c).trans (sameRisk_of_frame (by simp) (by simp))

theorem sameRisk_writerEnds : SameRisk s (writerEnds s) := by
  unfold writerEnds
  split
  · exact sameRisk_when (sameRisk_setCsk _) _
  · exact sameRisk_setCsk _

theorem sameRisk_failCask (status : Nat) : SameRisk s (failCask status s) :=
  (sameRisk_of_frame rfl rfl : SameRisk s { s with cask := { s.cask with writing := none, pend := [] } }).trans
    (sameRisk_writerEnds.trans ((sameRisk_caskResult _ _ _ _).trans (sameRisk_raiseEv 1)))

theorem sameRisk_nandWrite (own : Bool) (a : Nat) (l : List (BitVec 8)) : SameRisk s (nandWrite own a l s) := by
  unfold nandWrite
  generalize (if own = true then writerWaits s || s.cask.owed.any (·.1) else buddyWaits s) = waits
  cases waits
  · exact sameRisk_of_frame (by simp) (by simp)
  · exact sameRisk_of_frame rfl rfl

theorem sameRisk_setSlot (k : Nat) (i : Option CaskImg) : SameRisk s (setSlot k i s) := by
  unfold setSlot
  refine (sameRisk_setFld (f := Fld.CSK_STATUS.complete) (b := cellarPage) (by decide) _).trans (sameRisk_of_frame ?_ rfl)
  dsimp only
  split <;> rfl

/-- The capture of a cut Cask, which pauses no stream. -/
theorem sameRisk_captureCut : SameRisk s (capture 1 s) := by
  unfold capture
  dsimp only
  split
  · exact (sameRisk_of_frame rfl rfl : SameRisk s { s with cask := { s.cask with requested := false, gangStep := none } }).trans
      (sameRisk_failCask _)
  · rw [show ∀ b : Bool, (b && (1 == 0 : Bool)) = false from fun b => Bool.and_false b, State.when_false]
    have hslot := (sameRisk_setSlot (s := s) (targetSlot s) none).trans
      (sameRisk_nandWrite true (slotKey (targetSlot s) + 4092) (leBytes 0 4))
    refine (hslot.trans (sameRisk_of_frame ?_ ?_)).trans (sameRisk_setCsk 3)
    · simp
    · simp

theorem b2n_le_one (b : Bool) : b2n b ≤ 1 := by cases b <;> decide

theorem pathDie_lt (u : Nat) : pathDie u < 2 := bits_lt u 12 12

theorem sameRisk_startWake (u a p : Nat) : SameRisk s (startWake u a p s) := by
  have hdie := pathDie_lt u
  have hforme : pathForme u < 16 := bits_lt u 11 8
  have hpage : powerPage (pathDie u) + 0x1000 < cellarPage := by simp only [powerPage, dieWin, cellarPage]; omega
  have hfrm : frmReg u < powerPage (pathDie u) + 0x1000 := by simp only [frmReg]; omega
  unfold startWake
  split
  · unfold lowerWake
    dsimp only
    split
    · exact sameRisk_setRegN (by omega) _
    · exact SameRisk.refl
  · split
    · have hbump : powerPage (pathDie u) + 0x30 + 4 * b2n (formeState s u == 2) < cellarPage + 0xA8 := by
        have hdepth := b2n_le_one (formeState s u == 2)
        omega
      have hwoken := sameRisk_setRegN (s := s) (o := frmReg u) (by omega) (putBits (s.regN (frmReg u)) 6 6 1)
      refine SameRisk.trans ?_ (sameRisk_setReg64 (by omega) _)
      refine SameRisk.trans ?_ (sameRisk_setRegN (by omega) _)
      refine SameRisk.trans ?_ (sameRisk_setRegN hbump _)
      exact hwoken.trans (sameRisk_of_frame rfl rfl)
    · exact SameRisk.refl

theorem sameRisk_cutOwed : SameRisk s (cutOwed s) := by
  unfold cutOwed
  split
  · split
    · exact sameRisk_each (fun d t => sameRisk_each (fun f t => sameRisk_startWake _ _ _) _) _
    · exact (sameRisk_of_frame rfl rfl : SameRisk s { s with cask := { s.cask with critCut := false } }).trans sameRisk_captureCut
  · exact SameRisk.refl

theorem sameRisk_critPath : SameRisk s (critPath s) := by
  refine (sameRisk_askCask (s := s)).trans ?_
  unfold critPath
  dsimp only
  split
  · exact SameRisk.trans (sameRisk_of_frame rfl rfl) sameRisk_cutOwed
  · exact sameRisk_of_frame rfl rfl

end SameRisk

/-! ### The score -/

theorem foldl_max_le {α : Type} {c : Nat} {f : Nat → α → Nat} (h : ∀ m a, m ≤ c → f m a ≤ c) (l : List α) {m : Nat} (hm : m ≤ c) :
    l.foldl f m ≤ c :=
  List.foldlRecOn (motive := (· ≤ c)) l f hm (fun _ hm a _ => h _ a hm)

theorem tempLevel_le (s : State) (lo n base : Nat) : tempLevel s lo n base ≤ 255 := by
  refine foldl_max_le (fun m d hm => foldl_max_le (fun m i hm => ?_) _ hm) _ (Nat.zero_le _)
  refine Nat.max_le.2 ⟨hm, ?_⟩
  split
  · exact Nat.min_le_left _ _
  · exact Nat.le_refl _

/-- Every level is a byte (R379). -/
theorem riskLevels_lt (s : State) (sums : List Nat) (i : Nat) : (riskLevels s sums).getD i 0 < 256 := by
  have hall : ∀ x ∈ riskLevels s sums, x < 256 := by
    intro x hx
    obtain ⟨j, -, rfl⟩ := List.mem_map.1 hx
    have htemp := tempLevel_le s
    have hsw := bits_lt (s.regN (cellarPage + Fld.CSK_RISK_SW.level.off)) 7 0
    split
    · exact Nat.lt_succ_of_le (htemp _ _ _)
    · exact Nat.lt_succ_of_le (htemp _ _ _)
    · exact Nat.lt_succ_of_le (htemp _ _ _)
    · split <;> decide
    · split <;> decide
    · exact Nat.lt_succ_of_le (Nat.min_le_left _ _)
    · exact hsw
    · exact Nat.lt_succ_of_le (Nat.min_le_left _ _)
  rw [List.getD_eq_getElem?_getD]
  cases h : (riskLevels s sums)[i]? with
  | none => decide
  | some x => exact hall x (List.mem_of_getElem? h)

/-- Four levels as their register holds them. -/
def packLevels (xs : List Nat) (k : Nat) : Nat :=
  xs.getD (4 * k) 0 + xs.getD (4 * k + 1) 0 * 2 ^ 8 + xs.getD (4 * k + 2) 0 * 2 ^ 16 + xs.getD (4 * k + 3) 0 * 2 ^ 24

theorem packLevels_byte {xs : List Nat} (h : ∀ i, xs.getD i 0 < 256) (i : Nat) :
    packLevels xs (i / 4) % 2 ^ 32 / 2 ^ (8 * (i % 4)) % 256 = xs.getD i 0 := by
  have h0 := h (4 * (i / 4)); have h1 := h (4 * (i / 4) + 1); have h2 := h (4 * (i / 4) + 2); have h3 := h (4 * (i / 4) + 3)
  have hi : i = 4 * (i / 4) + i % 4 := (Nat.div_add_mod i 4).symm
  have hj : i % 4 < 4 := Nat.mod_lt _ (by decide)
  unfold packLevels
  generalize i / 4 = k at *
  generalize i % 4 = j at *
  subst hi
  match j, hj with
  | 0, _ => simp only [Nat.add_zero, Nat.mul_zero, Nat.pow_zero, Nat.div_one]; omega
  | 1, _ => omega
  | 2, _ => omega
  | 3, _ => omega

theorem foldl_add_eq_sum (f : Nat → Nat) (l : List Nat) : l.foldl (fun n i => n + f i) 0 = (l.map f).sum := by
  rw [List.sum_eq_foldl, List.foldl_map]

/-! ### An evaluation -/

section Evaluation

variable (s : State)

/-- The periods that an evaluation keeps, the present one first. -/
def riskHistory : List (List Nat) :=
  (List.zipWith (fun a b => (a + 2 ^ 40 - b) % 2 ^ 32) (riskTotals s)
    (if s.cask.totals.isEmpty then List.replicate 16 0 else s.cask.totals) :: s.cask.history).take 64

/-- The module once the period is counted. -/
def riskCounted : State := { s with cask := { s.cask with totals := riskTotals s, history := riskHistory s } }

/-- The sixteen levels, the score, and whether it has reached the two thresholds. -/
def evalLevels : List Nat := riskLevels (riskCounted s) ((riskHistory s).foldl addLists (List.replicate 16 0))
def evalRisk : Nat := riskValue (riskCounted s) (evalLevels s)
def evalElevated : Bool := decide (s.fld cellarPage Fld.CSK_RISK_THR.elevated ≤ evalRisk s)
def evalCritical : Bool := decide (s.fld cellarPage Fld.CSK_RISK_THR.critical ≤ evalRisk s)

/-- The module once the registers show the evaluation, no flag acted upon yet. -/
def riskShown : State :=
  (putWords (cellarPage + 0xC0) 4 (fun k => BitVec.ofNat 32 (packLevels (evalLevels s) k)) (riskCounted s)).setRegN (cellarPage + 0xA8)
    (evalRisk s + b2n (evalElevated s) * 2 ^ 16 + b2n (evalCritical s) * 2 ^ 17)

/-- What the elevated flag does as it rises, and the critical one (R381). -/
def elevatedRises (s : State) : State := askCask (queueEvent 0x2000 1 (raiseEv cellarPage 2 s))
def criticalRises (s : State) : State := critPath (queueEvent 0x2000 2 (raiseEv cellarPage 3 s))

theorem riskEvaluate_eq : riskEvaluate s =
    ((riskShown s).when (evalElevated s && !s.flag cellarPage Fld.CSK_RISK.elevated) elevatedRises).when
      (evalCritical s && !s.flag cellarPage Fld.CSK_RISK.critical) criticalRises := rfl

theorem sameRisk_elevatedRises : SameRisk s (elevatedRises s) :=
  (sameRisk_raiseEv 2).trans ((sameRisk_queueEvent _ _).trans sameRisk_askCask)

theorem sameRisk_criticalRises : SameRisk s (criticalRises s) :=
  (sameRisk_raiseEv 3).trans ((sameRisk_queueEvent _ _).trans sameRisk_critPath)

theorem sameRisk_riskEvaluate : SameRisk (riskShown s) (riskEvaluate s) := by
  rw [riskEvaluate_eq]
  exact (sameRisk_when (sameRisk_elevatedRises _) _).trans (sameRisk_when (sameRisk_criticalRises _) _)

/-- Where no flag rises, an evaluation shows its outcome and does no more. -/
theorem riskEvaluate_of_noRise (he : evalElevated s = true → s.flag cellarPage Fld.CSK_RISK.elevated = true)
    (hc : evalCritical s = true → s.flag cellarPage Fld.CSK_RISK.critical = true) : riskEvaluate s = riskShown s := by
  have hnone : ∀ a b : Bool, (a = true → b = true) → (a && !b) = false := by decide
  rw [riskEvaluate_eq, hnone _ _ he, hnone _ _ hc, State.when_false, State.when_false]

theorem riskShown_frame : (riskShown s).cask = (riskCounted s).cask ∧ (riskShown s).mem = s.mem ∧ (riskShown s).units = s.units ∧
    (riskShown s).streams = s.streams ∧ (riskShown s).stopped = s.stopped := by
  have hput : ∀ {β : Type} (g : State → β), (∀ t o v, g (State.setReg t o v) = g t) → g (riskShown s) = g (riskCounted s) :=
    fun g hg => (hg _ _ _).trans (State.each_field _ g _ (fun _ _ => hg _ _ _) _)
  exact ⟨hput State.cask (fun _ _ _ => rfl), hput State.mem (fun _ _ _ => rfl), hput State.units (fun _ _ _ => rfl),
    hput State.streams (fun _ _ _ => rfl), hput State.stopped (fun _ _ _ => rfl)⟩

theorem requested_elevatedRises : (elevatedRises s).cask.requested = true ∧ (elevatedRises s).stopped = s.stopped := by
  obtain ⟨hreq, hstop⟩ := askCask_frame (queueEvent 0x2000 1 (raiseEv cellarPage 2 s))
  obtain ⟨-, -, hqueue⟩ := queueEvent_frame 0x2000 1 (raiseEv cellarPage 2 s)
  exact ⟨hreq, hstop.trans (hqueue.trans (by simp))⟩

/-- In a module that is not stopped the critical path cuts no Cask: the request stands. -/
theorem requested_critPath (h : s.stopped = false) : (critPath s).cask.requested = true := by
  obtain ⟨hreq, hstop⟩ := askCask_frame s
  unfold critPath
  simp [hstop, h, hreq]

theorem requested_criticalRises (h : s.stopped = false) : (criticalRises s).cask.requested = true := by
  obtain ⟨-, -, hqueue⟩ := queueEvent_frame 0x2000 2 (raiseEv cellarPage 3 s)
  exact requested_critPath _ (hqueue.trans (by simpa using h))

theorem requested_riskEvaluate (hstop : s.stopped = false) (he : evalElevated s = true)
    (hwas : s.flag cellarPage Fld.CSK_RISK.elevated = false) : (riskEvaluate s).cask.requested = true := by
  obtain ⟨-, -, -, -, hshown⟩ := riskShown_frame s
  obtain ⟨hreq, hstill⟩ := requested_elevatedRises (riskShown s)
  rw [riskEvaluate_eq, he, hwas, Bool.not_false, Bool.and_true, State.when_true]
  cases evalCritical s && !s.flag cellarPage Fld.CSK_RISK.critical
  · exact hreq
  · exact requested_criticalRises _ (hstill.trans (hshown.trans hstop))

/-! #### What the registers show -/

/-- Level `i`, weight `i` as their registers hold them (R379, R380). -/
def shownLevel (i : Nat) : Nat := s.regN (cellarPage + 0xC0 + 4 * (i / 4)) / 2 ^ (8 * (i % 4)) % 256
def heldWeight (i : Nat) : Nat := s.regN (cellarPage + 0xB0 + 4 * (i / 4)) / 2 ^ (8 * (i % 4)) % 256

theorem riskWeight_eq (i : Nat) : riskWeight (riskCounted s) i = heldWeight s i := by
  have hwidth : 8 * (i % 4) + 7 + 1 - 8 * (i % 4) = 8 := by omega
  rw [riskWeight, bits, hwidth, Nat.shiftRight_eq_div_pow]
  rfl

theorem shownLevel_riskEvaluate {i : Nat} (hi : i < 16) : shownLevel (riskEvaluate s) i = (evalLevels s).getD i 0 := by
  have hk : i / 4 < 4 := by omega
  have hshown : (riskEvaluate s).regN (cellarPage + 0xC0 + 4 * (i / 4)) = packLevels (evalLevels s) (i / 4) % 2 ^ 32 := by
    rw [(sameRisk_riskEvaluate s).2 _ (by omega) (by omega), riskShown, State.regN_setRegN_ne _ _ (by omega), State.regN,
      reg_putWords hk, BitVec.toNat_ofNat]
  rw [shownLevel, hshown]
  exact packLevels_byte (riskLevels_lt _ _) i

/-- The score is the weighted sum of the levels that are shown (R379). -/
theorem evalRisk_eq : evalRisk s =
    min 65535 ((List.range 16).map (fun i => heldWeight s i * shownLevel (riskEvaluate s) i)).sum := by
  rw [evalRisk, riskValue, foldl_add_eq_sum]
  congr 2
  refine List.map_congr_left (fun i hi => ?_)
  rw [riskWeight_eq, shownLevel_riskEvaluate s (List.mem_range.1 hi)]

theorem evalRisk_lt : evalRisk s < 2 ^ 16 := Nat.lt_succ_of_le (Nat.min_le_left _ _)

theorem regN_risk_riskEvaluate : (riskEvaluate s).regN (cellarPage + 0xA8) =
    evalRisk s + b2n (evalElevated s) * 2 ^ 16 + b2n (evalCritical s) * 2 ^ 17 := by
  have hlt := evalRisk_lt s
  have he := b2n_le_one (evalElevated s)
  have hc := b2n_le_one (evalCritical s)
  rw [(sameRisk_riskEvaluate s).2 _ (by omega) (by omega), riskShown, State.regN_setRegN_same, Nat.mod_eq_of_lt (by omega)]

/-- A score below its two flags. -/
theorem risk_flags {r : Nat} (hr : r < 2 ^ 16) (e c : Bool) : (r + b2n e * 2 ^ 16 + b2n c * 2 ^ 17) % 2 ^ 16 = r ∧
    bit (r + b2n e * 2 ^ 16 + b2n c * 2 ^ 17) 16 = e ∧ bit (r + b2n e * 2 ^ 16 + b2n c * 2 ^ 17) 17 = c := by
  have he := b2n_le_one e
  have hc := b2n_le_one c
  have hbit : ∀ {n i : Nat} {b : Bool}, n / 2 ^ i % 2 = b2n b → bit n i = b := fun h =>
    Nat.testBit_eq_decide_div_mod_eq.trans ((congrArg (fun x => decide (x = 1)) h).trans (b2n_beq_one _))
  exact ⟨by omega, hbit (by omega), hbit (by omega)⟩

theorem length_history_riskEvaluate : (riskEvaluate s).cask.history.length ≤ 64 := by
  rw [(sameRisk_riskEvaluate s).1, (riskShown_frame s).1]
  exact List.length_take_le _ _

end Evaluation

/-! ### The statement -/

/-- A board alarm sets or clears its own bit, and nothing else. -/
theorem exec_boardAlarm {a : Nat} (ha : a < 32) (on : Bool) (s : State) : exec (.boardAlarm a on) s =
    .next { s with cask := { s.cask with alarms := putBits s.cask.alarms a a (b2n on) } } :=
  congrArg Host.Outcome.next (if_pos ha)

theorem exec_boardAlarm_of_le {a : Nat} (ha : 32 ≤ a) (on : Bool) (s : State) : exec (.boardAlarm a on) s = .next s :=
  congrArg Host.Outcome.next (if_neg (Nat.not_lt.2 ha))

/-- Settles O46: an evaluation shows its levels and score first, and what a flag does as it rises leaves the risk registers alone. -/
theorem riskEstimator : Obligations.RiskEstimator := by
  unfold Obligations.RiskEstimator
  intro s
  dsimp only
  refine ⟨⟨riskEvaluate s, rfl, ?_⟩, fun a on ha => exec_boardAlarm_of_le ha on s, fun a on ha => ⟨_, exec_boardAlarm ha on s, rfl, ?_⟩⟩
  · obtain ⟨hrisk, hbitE, hbitC⟩ := risk_flags (evalRisk_lt s) (evalElevated s) (evalCritical s)
    obtain ⟨hcask, hmem, hunits, hstreams, -⟩ := riskShown_frame s
    have hsum : min 65535 ((List.range 16).map (fun i =>
        s.regN (cellarPage + 0xB0 + 4 * (i / 4)) / 2 ^ (8 * (i % 4)) % 256 *
          ((riskEvaluate s).regN (cellarPage + 0xC0 + 4 * (i / 4)) / 2 ^ (8 * (i % 4)) % 256))).sum = evalRisk s := (evalRisk_eq s).symm
    rw [hsum, regN_risk_riskEvaluate, hrisk, hbitE, hbitC]
    refine ⟨rfl, shownLevel_riskEvaluate s (i := 15) (by decide), length_history_riskEvaluate s, decide_eq_true_iff, decide_eq_true_iff,
      fun he hc => ?noRise, fun hstop he hwas => requested_riskEvaluate s hstop (decide_eq_true he) hwas⟩
    case noRise =>
      rw [riskEvaluate_of_noRise s (fun h => he (of_decide_eq_true h)) (fun h => hc (of_decide_eq_true h)), hcask]
      exact ⟨rfl, hmem, hunits, hstreams⟩
  · exact ⟨by rw [bit_putBits_same, bit_b2n], fun b hb => bit_putBits_ne _ _ _ _ _ (by omega) (by omega)⟩

end Sys2Proof.Machine

/-! PROOFS. The step of the block: it runs the front command or ticks, always answers a next state, and takes nothing back; the
statements about the step, and about memory. -/

namespace Sys2Proof.Machine

set_option Elab.async false

/-! ### What a step runs (log 1, log 2) -/

theorem step_of_pending_cons {c : Instr} {cs : List Instr} {s : State} (h : s.pending = c :: cs) :
    step s = exec c { s with pending := cs } := by
  simp only [step, h]

/-- Every meaning of the dispatch ends in a next state: the spec gives each command an effect or an outcome of its own. -/
theorem exec_next (i : Instr) (s : State) : ∃ t, exec i s = .next t := by
  cases i <;> exact ⟨_, rfl⟩

/-- What a step keeps, counted from the state whose front command has been taken. -/
theorem keeps_step {s t : State} (h : step s = .next t) : Keeps { s with pending := s.pending.tail } t := by
  cases hp : s.pending with
  | nil =>
    rw [Laws.step_of_pending_nil hp] at h
    obtain rfl := Host.Outcome.next.inj h
    have hs : s = { s with pending := [].tail } := by rw [List.tail_nil, ← hp]
    exact Laws.keeps_tick s (hs ▸ Laws.keeps_refl s)
  | cons c cs =>
    rw [step_of_pending_cons hp] at h
    exact Laws.keeps_exec c h

/-! ### The statements -/

/-- Settles O1: the front command and the rest of the queue are what the step's match finds. -/
theorem stepRunsFrontCommand : Obligations.StepRunsFrontCommand := by
  unfold Obligations.StepRunsFrontCommand
  exact fun _ _ _ => step_of_pending_cons rfl

/-- Settles O2: the state after reset lists no byte and no command. -/
theorem memoryCanonicalAtReset : Obligations.MemoryCanonicalAtReset := by
  unfold Obligations.MemoryCanonicalAtReset
  exact ⟨rfl, rfl, rfl⟩

/-- Settles O3: every command, and the tick, keeps memory canonical. -/
theorem memoryCanonicalKept : Obligations.MemoryCanonicalKept := by
  unfold Obligations.MemoryCanonicalKept
  intro s t hs h
  exact (keeps_step h).1 hs

/-- Settles O4: nothing that a command or the tick keeps depends on the queue, from which a step takes the front command. -/
theorem stepsNeverTakeBack : Obligations.StepsNeverTakeBack := by
  unfold Obligations.StepsNeverTakeBack
  intro s t h
  obtain ⟨-, hpending, hfree, hout, hsecure, hboots, hfeed, hjtag, hsmb⟩ := keeps_step h
  exact ⟨hpending, hout, hfree, hboots, hsecure, hfeed, hjtag, hsmb⟩

/-- Settles O5: a command in front ends in a next state, and so does a tick. -/
theorem everyStepRuns : Obligations.EveryStepRuns := by
  unfold Obligations.EveryStepRuns Runs
  intro s
  cases hp : s.pending with
  | nil => exact ⟨tick s, Laws.step_of_pending_nil hp⟩
  | cons c cs => exact step_of_pending_cons hp ▸ exec_next c _

end Sys2Proof.Machine

/-! PROOFS. Host writes that are refused or stored: doorbells of streams that others own, the common registers of a page, its owner, and
the plain registers of the monitor page; the statements about them. -/

namespace Sys2Proof.Machine

set_option Elab.async false

variable {s : State} {fn : Nat}

/-! ### A doorbell of another's stream (R486) -/

theorem refuseStream_restored (fn off id : Nat) (s : State) :
    { refuseStream fn off id s with regs := s.regs, firstErr := s.firstErr } = s := by
  cases s
  simp

/-- The PCI Express page records the refused access beside the stream page's log. -/
theorem bit_refuseStream (fn off id : Nat) (s : State) :
    bit ((refuseStream fn off id s).regN (streamPage (streamDie id) + 0x18)) (errBit stPrivilege) = true := by
  have hlog := bit_logStatus s (b := streamPage (streamDie id)) (c := stPrivilege) (by decide) (by decide)
  have hother : ∀ o, o % 0x1000 ≠ 0x18 → streamPage (streamDie id) + 0x18 ≠ o := by
    unfold streamPage dieWin
    omega
  unfold refuseStream recordPriv
  split
  · exact hlog
  · rw [State.regN_setRegN_ne _ _ (hother _ (by decide)), State.regN_setRegN_ne _ _ (hother _ (by decide))]
    exact hlog

/-- Settles O59: the access is refused before the doorbell is looked at. -/
theorem doorbellsOfOthers : Obligations.DoorbellsOfOthers := by
  unfold Obligations.DoorbellsOfOthers
  intro s fn id v hfn ha hother i hi
  have hexec : ∃ off, exec i s = .next (refuseStream fn off id s) := by
    rcases List.mem_pair.1 hi with rfl | rfl
    · exact ⟨doorOff id, congrArg Host.Outcome.next (posted_other hfn ha hother _ _)⟩
    · exact ⟨doorOff id + 4, congrArg Host.Outcome.next (posted_other hfn ha hother _ _)⟩
  obtain ⟨off, hexec⟩ := hexec
  exact ⟨_, hexec, refuseStream_restored fn off id s, bit_refuseStream fn off id s⟩

/-! ### Registers of a page (R484, R485, R527 to R530) -/

section Pages

variable {off v : Nat} {p : Page} {o : Nat}

/-- No access to a page that is neither a Chase's, a Galley's nor Muzomus's waits at an edge. -/
theorem pageEdge_plain (hk : p.kind ∉ [.chase, .galley, .muzomus]) (i : Instr) : pageEdge fn p o v i s = pageWrite fn p o v s := by
  simp only [List.mem_cons, List.not_mem_nil, or_false, not_or] at hk
  obtain ⟨hchase, hgalley, hmzm⟩ := hk
  simp [pageEdge, hchase, hgalley, hmzm]

/-- A write of a common register of the page that holds `off`. -/
theorem posted_commonAt (ha : Admitted s fn) (ht : targetOf off = .page p o) (hk : p.kind ∉ [.chase, .galley, .muzomus]) (i : Instr) :
    posted fn i (commonAt fn off o v i) s = pageWrite fn p o v s := by
  simp only [posted_admitted ha, commonAt, ht, if_true, pageEdge_plain hk]

theorem posted_commonAt_elsewhere (ha : Admitted s fn) (ht : targetOf off = .page p o) {r : Nat} (hr : o ≠ r) (i : Instr) :
    posted fn i (commonAt fn off r v i) s = s := by
  simp only [posted_admitted ha, commonAt, ht, if_neg hr]

theorem posted_hostWrite (ha : Admitted s fn) (ht : targetOf off = .page p o) (hk : p.kind ∉ [.chase, .galley, .muzomus]) (i : Instr) :
    posted fn i (hostWrite fn off v i) s = pageWrite fn p o v s := by
  simp only [posted_admitted ha, hostWrite, ht, pageEdge_plain hk]

theorem tasterWrite_idle {act : State → State} (h : govBusy s = false) : tasterWrite act s = act s := by
  simp [tasterWrite, h]

/-- What an owner's write of a register that exists does, where the page has no rule of its own for it. -/
theorem pageWrite_common (ha : Admitted s fn) (hown : ownsPage s fn p.base = true) (hp : isPresent p o = true)
    (hrow : (regRow p.kind o).isSome = true) (hbusy : p.kind = .taster → govBusy s = false) (ho : o = 0x18 ∨ o = 0x20 ∨ o = 0x2C) :
    pageWrite fn p o v s = commonWrite p.base o v s := by
  have hgranted : Granted s fn p.base := ⟨ha, hown⟩
  have hcase : pageWrite fn p o v s = ownerWrite fn p.base o
      (if p.kind == .taster then tasterWrite (commonWrite p.base o v) else commonWrite p.base o v) s := by
    rcases ho with rfl | rfl | rfl <;> simp [pageWrite, within, Option.isNone_eq_false_iff.2 hrow, hp]
  rw [hcase, ownerWrite_granted hgranted]
  split
  · next ht => exact tasterWrite_idle (hbusy (beq_iff_eq.1 ht))
  · rfl

/-- A plain register of the monitor page stores its RW bits. -/
theorem pageWrite_monitor {r : RegRow} (ha : Admitted s fn) (hown : ownsPage s fn p.base = true) (hp : isPresent p o = true)
    (hk : p.kind = .monitor) (ho : 0x80 < o) (hmargin : o ≠ 0x90) (hrow : regRow p.kind o = some r) :
    pageWrite fn p o v s = s.setRegN (p.base + o) ((s.regN (p.base + o) &&& (r.rw ^^^ 0xFFFFFFFF)) ||| (v &&& r.rw)) := by
  have hgranted : Granted s fn p.base := ⟨ha, hown⟩
  have howner : o ≠ 0x0C := by omega
  have hproof : o ≠ 0x80 := by omega
  have hblock : 0x30 ≤ o := by omega
  have hcounter : within o 0x30 (4 * counterWords p.kind) = false := by simp [hk, within, counterWords]; omega
  have hcase : pageWrite fn p o v s = ownerWrite fn p.base o (storeRw p o v) s := by
    rw [hk] at hrow hcounter
    simp [pageWrite, hk, hrow, hp, howner, hproof, hblock, hcounter]
    have hact : blockWrite fn p o v = storeRw p o v := by
      funext t
      simp [blockWrite, hk, hmargin]
    rw [hact]
  rw [hcase, ownerWrite_granted hgranted]
  simp [storeRw, hrow]

theorem pageWrite_owner (hbusy : p.kind = .taster → govBusy s = false) : pageWrite fn p 0x0C v s = writeOwner fn p v s := by
  simp only [pageWrite, if_true]
  split
  · next ht => exact tasterWrite_idle (hbusy (beq_iff_eq.1 ht))
  · rfl

theorem writeOwner_physical (ha : Admitted s 0) (hm : s.flag p.base Fld.PAGE_OWNER.mgmt = false) :
    writeOwner 0 p v s = setOwner p v s := by
  simp [writeOwner, guarded_admitted ha, hm]

/-- A virtual function writes no page's owner (R484). -/
theorem writeOwner_virtual (ha : Admitted s fn) (hlt : fn < 32) (h0 : fn ≠ 0) :
    writeOwner fn p v s = refuseAccess fn (p.base + 0x0C) s := by
  have hmzm : fn ≠ mzmFn := by unfold mzmFn; omega
  simp [writeOwner, guarded_admitted ha, h0, hmzm]

theorem setOwner_idle (h : unitBusy s p = false) : setOwner p v s = s.setRegN (p.base + 0x0C) (bits v 5 0) := by
  simp [setOwner, h]

theorem setOwner_busy (h : unitBusy s p = true) (hne : bits v 5 0 ≠ bits (s.regN (p.base + 0x0C)) 5 0) :
    setOwner p v s = logStatus p.base stConflict s := by
  simp [setOwner, h, hne]

end Pages

/-- Settles O51: each command reaches its page at once, and acts there where it names the register at its offset. -/
theorem hostRegisterWrites : Obligations.HostRegisterWrites := by
  unfold Obligations.HostRegisterWrites
  intro s fn off v p o ht hk ha hbusy
  refine ⟨fun hown hp hrow => ⟨fun ho => ?err, fun ho => ?ev, fun ho => ?force, fun r hmon ho hmargin hr => ?plain⟩,
    fun ho => congrArg Host.Outcome.next (posted_commonAt_elsewhere ha ht ho _),
    fun ho => congrArg Host.Outcome.next (posted_commonAt_elsewhere ha ht ho _),
    fun ho => congrArg Host.Outcome.next (posted_commonAt_elsewhere ha ht ho _),
    fun h0 ho hm hidle => ?owner, fun h0 ho hm hbusy' hne => ?ownerBusy, fun hlt h0 ho => ?ownerOther⟩
  case plain => exact congrArg Host.Outcome.next ((posted_hostWrite ha ht hk _).trans (pageWrite_monitor ha hown hp hmon ho hmargin hr))
  all_goals
    subst ho
    refine congrArg Host.Outcome.next ((posted_commonAt ha ht hk _).trans ?_)
  case err => exact pageWrite_common ha hown hp hrow hbusy (.inl rfl)
  case ev => exact pageWrite_common ha hown hp hrow hbusy (.inr (.inl rfl))
  case force => exact pageWrite_common ha hown hp hrow hbusy (.inr (.inr rfl))
  case ownerOther => exact (pageWrite_owner hbusy).trans (writeOwner_virtual ha hlt h0)
  all_goals
    subst h0
    rw [pageWrite_owner hbusy, writeOwner_physical ha hm]
  case owner => exact setOwner_idle hidle
  case ownerBusy => exact setOwner_busy hbusy' hne

end Sys2Proof.Machine

/-! PROOFS. The read of a damaged Colophon record that waited for the Cellar while the input voltage changed, and the statement about
the power controller that it refutes. -/

namespace Sys2Proof.Machine

set_option Elab.async false

/-- A module in RUN at 72 V whose Colophons have no record waiting; a read of record 0 of die 0, which lies in a word that cannot be
corrected, waits for the Cellar (R432, R439, log 77). -/
def damagedReadWaits : State :=
  { State.reset with
    power := { PowerSt.reset with vin := 2, volts := 7200 }
    cols := [(0, { ColSt.reset with next := 1 })]
    ecc := [(colAddr 0 0 / 8, 2)]
    mzm := { MzmSt.reset with clrRd := some (0, 0) } }

theorem col_damagedReadWaits (k : Nat) (hk : k < 2) : (damagedReadWaits.col k).queue = [] ∧ (damagedReadWaits.col k).lost = 0 := by
  match k, hk with
  | 0, _ => decide +kernel
  | 1, _ => decide +kernel

/-- The read goes on as the voltage changes, and its uncorrectable page is an event that the Colophon records (R432, R434). -/
theorem mem_vinChange_damagedReadWaits : (vinChange 7200 0 damagedReadWaits).mem ≠ damagedReadWaits.mem := by
  decide +kernel

/-- Refutes O49: a voltage within the range of RUN lets a read that waited for the Cellar go on, and where the record read cannot be
corrected the Colophon gains a record, so that memory changes though no record waited (R432, R434, R439, log 77). -/
theorem not_powerControl : ¬ Obligations.PowerControl := by
  unfold Obligations.PowerControl
  intro h
  obtain ⟨-, -, -, -, -, -, -, -, -, -, -, -, -, -, -, -, hrun⟩ := h damagedReadWaits 0 0 (by decide) (by decide)
  obtain ⟨t, hexec, -, -, -, -, -, hmem, -⟩ := hrun 7200 0 rfl (by decide) (by decide) col_damagedReadWaits
  obtain rfl : vinChange 7200 0 damagedReadWaits = t := Host.Outcome.next.inj hexec
  exact mem_vinChange_damagedReadWaits hmem

end Sys2Proof.Machine

/-! PROOFS. A periodic call of the Colophon, whose summary lets counters of the ports go on, and the statement about the health
monitors that it refutes. -/

namespace Sys2Proof

/-- A write leaves no entry behind that a key reads as when unlisted, where none stood before or the key is the written one. -/
theorem SMap.default_not_mem_set {α : Type} [DecidableEq α] {d : Nat → α} {m : SMap α} {k : Nat} (h : (k, d k) ∉ m) (j : Nat) (v : α) :
    (k, d k) ∉ SMap.set d m j v := by
  intro hmem
  unfold SMap.set at hmem
  split at hmem
  · exact h (SMap.mem_erase hmem)
  · next hv =>
    rcases SMap.mem_insert hmem with he | he
    · obtain ⟨rfl, rfl⟩ := Prod.mk.inj he
      exact hv rfl
    · exact h he

theorem SMap.default_not_mem_set_singleton {α : Type} [DecidableEq α] (d : Nat → α) (k : Nat) (v : α) :
    (k, d k) ∉ SMap.set d [(k, d k)] k v := by
  unfold SMap.set
  split
  · simp [SMap.erase]
  · next hv => simp [SMap.insert, Ne.symm hv]

end Sys2Proof

namespace Sys2Proof.Machine

set_option Elab.async false

/-- The corrected codewords of port 0, which are counted by a free amount (log 113). -/
def codewordCounter : Nat := portPage 0 + 0x30

/-- The registers do not list `codewordCounter` at its reset value. -/
def CounterMoved (s : State) : Prop := (codewordCounter, regReset codewordCounter) ∉ s.regs

theorem counterMoved_congr {s t : State} (h : t.regs = s.regs) (hs : CounterMoved s) : CounterMoved t := by
  unfold CounterMoved
  rwa [h]

theorem counterMoved_advanceFree {s : State} (hs : CounterMoved s) (o : Nat) : CounterMoved (advanceFree o s) :=
  SMap.default_not_mem_set hs o _

theorem counterMoved_each {α : Type} {f : α → State → State} (h : ∀ a t, CounterMoved t → CounterMoved (f a t)) (l : List α) (s : State)
    (hs : CounterMoved s) : CounterMoved (s.each l f) := by
  induction l generalizing s with
  | nil => exact hs
  | cons a l ih => exact ih _ (h a s hs)

/-- Appending records and taking a free value leave the registers alone. -/
theorem regs_periodic (d : Nat) (s : State) :
    (periodic d s).regs = (s.each (List.range 8) (fun p => advanceFree (portPage (8 * d + p) + 0x30))).regs := by
  unfold periodic
  simp only [State.takeFree, State.setMon_regs]
  rw [State.each_field _ (·.regs) _ (fun _ _ => by simp), State.each_field _ (·.regs) _ (fun _ _ => by simp),
    State.each_field _ (·.regs) _ (fun _ _ => by simp)]
  simp

theorem counterMoved_periodic (d : Nat) {s : State} (hs : CounterMoved s) : CounterMoved (periodic d s) :=
  counterMoved_congr (regs_periodic d s) (counterMoved_each (fun _ _ ht => counterMoved_advanceFree ht _) _ s hs)

/-- A state whose registers list `codewordCounter` alone, at its reset value. -/
def listedCounter : State := { State.reset with regs := [(codewordCounter, regReset codewordCounter)] }

/-- However far the counter of port 0 goes on, its entry is taken out or gets another value. -/
theorem counterMoved_periodic_listedCounter : CounterMoved (periodic 0 listedCounter) := by
  refine counterMoved_congr (regs_periodic 0 listedCounter) ?_
  rw [List.range_succ_eq_map, State.each_cons]
  exact counterMoved_each (fun _ _ ht => counterMoved_advanceFree ht _) _ _
    (SMap.default_not_mem_set_singleton regReset codewordCounter _)

/-- Refutes O48: the summary of a periodic call reports the ports' corrected codewords, whose counters go on by a free amount first
(R432, log 76, log 113), so that the registers do not stand. `listedCounter` lists one at its reset value: however far it goes on, the
list changes. -/
theorem not_healthMonitors : ¬ Obligations.HealthMonitors := by
  unfold Obligations.HealthMonitors
  intro h
  obtain ⟨-, -, -, -, -, -, -, -, hperiodic, -⟩ := h listedCounter 0 (by decide)
  obtain ⟨t, hexec, -, -, -, hregs, -⟩ := hperiodic
  obtain rfl : periodic 1 (periodic 0 listedCounter) = t := Host.Outcome.next.inj hexec
  have hmoved : CounterMoved listedCounter :=
    counterMoved_congr hregs.symm (counterMoved_periodic 1 counterMoved_periodic_listedCounter)
  exact hmoved List.mem_cons_self

end Sys2Proof.Machine

/-! PROOFS. Muzomus as a management endpoint: which requests it answers, what each answers and sets, and the statement about MCTP
control, PLDM base and PLDM monitoring. -/

namespace Sys2Proof.Machine

set_option Elab.async false

variable {s : State}

/-! ### Which requests are answered (R474, R475, log 100) -/

theorem asked_up (h : mzmUp s = true) (f : State → State) : asked f s = f s := if_pos h

theorem asked_down (h : mzmUp s = false) (f : State → State) : asked f s = s := by
  simp [asked, h]

theorem askedPldm_up (h : mzmUp s = true) (hr : inRecovery s = false) (f : State → State) : askedPldm f s = f s := by
  simp [askedPldm, h, hr]

theorem askedPldm_down (h : mzmUp s = false) (f : State → State) : askedPldm f s = s := by
  simp [askedPldm, h]

theorem askedPldm_recovery (h : inRecovery s = true) (f : State → State) : askedPldm f s = s := by
  simp [askedPldm, h]

/-- The requests of MCTP control, and those of PLDM type 5 that ask for parameters and status. -/
noncomputable def mctpRequests (ep : Nat) : List Instr :=
  [.setEndpointId ep 8, .getEndpointId ep, .getEndpointUuid ep, .getMctpVersionSupport ep 0, .getMessageTypeSupport ep,
    .queryDeviceIdentifiers ep, .getFirmwareParameters ep, .getStatus ep]

/-- The requests of PLDM types 0 and 2. -/
noncomputable def pldmRequests (ep id : Nat) : List Instr :=
  [.getTid ep, .setTid ep id, .getPldmVersion ep id, .getPldmCommands ep id, .getPldmTypes ep, .getPdrRepositoryInfo ep, .getPdr ep id,
    .getSensorReading ep id, .getStateSensorReadings ep id, .setNumericSensorEnable ep id true, .setSensorThresholds ep id 0 0,
    .setEventReceiver ep id, .pollForPlatformEventMessage ep]

theorem exec_mctpRequest (ep : Nat) (s : State) : ∀ i ∈ mctpRequests ep, ∃ f, exec i s = .next (asked f s) := by
  simp only [mctpRequests, List.forall_mem_cons]
  exact ⟨⟨_, rfl⟩, ⟨_, rfl⟩, ⟨_, rfl⟩, ⟨_, rfl⟩, ⟨_, rfl⟩, ⟨_, rfl⟩, ⟨_, rfl⟩, ⟨_, rfl⟩, fun _ h => absurd h List.not_mem_nil⟩

theorem exec_pldmRequest (ep id : Nat) (s : State) : ∀ i ∈ pldmRequests ep id, ∃ f, exec i s = .next (askedPldm f s) := by
  simp only [pldmRequests, List.forall_mem_cons]
  exact ⟨⟨_, rfl⟩, ⟨_, rfl⟩, ⟨_, rfl⟩, ⟨_, rfl⟩, ⟨_, rfl⟩, ⟨_, rfl⟩, ⟨_, rfl⟩, ⟨_, rfl⟩, ⟨_, rfl⟩, ⟨_, rfl⟩, ⟨_, rfl⟩, ⟨_, rfl⟩, ⟨_, rfl⟩,
    fun _ h => absurd h List.not_mem_nil⟩

/-- In recovery no request of PLDM type 0 or 2 is answered. -/
theorem exec_pldmRequest_recovery (hr : inRecovery s = true) (ep id : Nat) : ∀ i ∈ pldmRequests ep id, exec i s = .next s := by
  intro i hi
  obtain ⟨f, hf⟩ := exec_pldmRequest ep id s i hi
  rw [hf, askedPldm_recovery hr]

/-- While Muzomus restarts or has no supply nothing is answered. -/
theorem exec_request_down (h : mzmUp s = false) (ep id : Nat) : ∀ i ∈ mctpRequests ep ++ pldmRequests ep id, exec i s = .next s := by
  intro i hi
  rcases List.mem_append.1 hi with hi | hi
  · obtain ⟨f, hf⟩ := exec_mctpRequest ep s i hi
    rw [hf, asked_down h]
  · obtain ⟨f, hf⟩ := exec_pldmRequest ep id s i hi
    rw [hf, askedPldm_down h]

/-- An answer to a request that Muzomus is up for. -/
theorem next_asked (h : mzmUp s = true) {f : State → State} {t : State} (hf : f s = t) :
    (.next (asked f s) : Host.Outcome State Fault Refusal) = .next t := by
  rw [asked_up h, hf]

theorem next_askedPldm (h : mzmUp s = true) (hr : inRecovery s = false) {f : State → State} {t : State} (hf : f s = t) :
    (.next (askedPldm f s) : Host.Outcome State Fault Refusal) = .next t := by
  rw [askedPldm_up h hr, hf]

/-! ### MCTP control (R494) -/

theorem setEid_assigned {e : Nat} (h : 8 ≤ e) (h' : e ≤ 254) (ep : Nat) (s : State) :
    setEid ep e s = (s.setFld mzmPage Fld.MZM_STATUS.eid e).send (.mgmt ep "SET_ENDPOINT_ID" 0 [e]) := by
  simp [setEid, h, h', answer, okCode]

theorem setEid_reserved {e : Nat} (h : e < 8 ∨ 254 < e) (ep : Nat) (s : State) :
    setEid ep e s = s.send (.mgmt ep "SET_ENDPOINT_ID" 2 [s.fld mzmPage Fld.MZM_STATUS.eid]) := by
  have hout : ¬ (8 ≤ e ∧ e ≤ 254) := by omega
  simp [setEid, hout, answer, badDataCode]

theorem mctpVersion_unsupported {ty : Nat} (h : 1 < ty) (h' : ty ≠ 0xFF) (ep : Nat) (s : State) :
    mctpVersion ep ty s = s.send (.mgmt ep "GET_MCTP_VERSION_SUPPORT" 0x80 []) := by
  have h0 : ty ≠ 0 := by omega
  have h1 : ty ≠ 1 := by omega
  simp [mctpVersion, h0, h1, h', answer, badTypeCode]

/-! ### PLDM base (R495) -/

theorem setTid_assigned {n : Nat} (h : 1 ≤ n) (h' : n ≤ 254) (ep : Nat) (s : State) :
    setTid ep n s = ({ s with mzm := { s.mzm with tid := n } } : State).send (.mgmt ep "SET_TID" 0 []) := by
  simp [setTid, h, h', answer, okCode]

theorem setTid_reserved {n : Nat} (h : n = 0 ∨ 254 < n) (ep : Nat) (s : State) :
    setTid ep n s = s.send (.mgmt ep "SET_TID" 2 []) := by
  have hout : ¬ (1 ≤ n ∧ n ≤ 254) := by omega
  simp [setTid, hout, answer, badDataCode]

theorem pldmVersion_listed {ty : Nat} (h : ty ∈ pldmTypes) (ep : Nat) (s : State) :
    pldmVersion ep ty s = s.send (.mgmt ep "GET_PLDM_VERSION" 0 [Config.mgmtField (2 + ty) 0]) := by
  simp [pldmVersion, h, answerOpen, answer, okCode]

theorem pldmVersion_unlisted {ty : Nat} (h : ty ∉ pldmTypes) (ep : Nat) (s : State) :
    pldmVersion ep ty s = s.send (.mgmt ep "GET_PLDM_VERSION" 0x83 []) := by
  simp [pldmVersion, h, answer, noVersionCode]

theorem listCommands_listed {ty : Nat} (h : ty ∈ pldmTypes) (ep : Nat) (s : State) :
    listCommands ep ty s = s.send (.mgmt ep "GET_PLDM_COMMANDS" 0 (pldmCommands ty)) := by
  simp [listCommands, h, answer, okCode]

theorem listCommands_unlisted {ty : Nat} (h : ty ∉ pldmTypes) (ep : Nat) (s : State) :
    listCommands ep ty s = s.send (.mgmt ep "GET_PLDM_COMMANDS" 0x83 []) := by
  simp [listCommands, h, answer, noVersionCode]

/-! ### PLDM monitoring (R436, R437) -/

theorem getPdr_there {h : Nat} {r : Pdr} (hr : pdrs[max 1 h - 1]? = some r) (ep : Nat) (s : State) :
    getPdr ep h s = s.send (.mgmt ep "GET_PDR" 0
      ([if max 1 h < pdrs.length then max 1 h + 1 else 0, max 1 h] ++ r.fields ++ openFields (2 ^ 16 + max 1 h) 8)) := by
  simp only [getPdr, hr, answer, okCode]

theorem getPdr_beyond {h : Nat} (hh : pdrs.length < h) (ep : Nat) (s : State) :
    getPdr ep h s = s.send (.mgmt ep "GET_PDR" 0x82 []) := by
  have hnone : pdrs[max 1 h - 1]? = none := List.getElem?_eq_none (by omega)
  simp only [getPdr, hnone, answer, badRecordCode]

/-- What a read of a numeric sensor of the monitors answers; a temperature that is no whole hundredth asks for a free value. -/
theorem sensorReading_monitor {id d n : Nat} (hid : id ≠ 0x2000) (hs : sensorOf id = some (d, n)) (ep : Nat) (s : State) :
    sensorReading ep id s = { s.send (.mgmt ep "GET_SENSOR_READING" 0 [sensorState s id (sensorValid s d n), toU 32 (reading s d n)]) with
      free := s.free + 1 } := by
  simp only [sensorReading, hid, if_false, hs, answer, okCode]

theorem sensorReading_none {id : Nat} (hid : id ≠ 0x2000) (hs : sensorOf id = none) (ep : Nat) (s : State) :
    sensorReading ep id s = s.send (.mgmt ep "GET_SENSOR_READING" 0x80 []) := by
  simp only [sensorReading, hid, if_false, hs, answer, badSensorCode]

theorem reading_plain {d n : Nat} (h : 32 ≤ n) (s : State) : reading s d n = sensorValue s d n := by
  simp [reading, Nat.not_lt.2 h]

theorem reading_hundredths {d n : Nat} (h : n < 32) (hv : sensorValue s d n % 16 = 0) :
    reading s d n = sensorValue s d n / 16 * 25 := by
  have hwhole : 25 * sensorValue s d n % 16 = 0 := by omega
  simp only [reading, h, if_true, hwhole]
  omega

theorem sensorEnable_monitor {id : Nat} (h : (sensorOf id).isSome = true) (ep : Nat) (on : Bool) (s : State) :
    sensorEnable ep id on s = ({ s with mzm := { s.mzm with
      disabled := if on then s.mzm.disabled.filter (· != id) else s.mzm.disabled.filter (· != id) ++ [id] } } : State).send
        (.mgmt ep "SET_NUMERIC_SENSOR_ENABLE" 0 []) := by
  simp [sensorEnable, h, answer, okCode]

theorem sensorEnable_none {id : Nat} (hid : id ≠ 0x2000) (hs : sensorOf id = none) (ep : Nat) (on : Bool) (s : State) :
    sensorEnable ep id on s = s.send (.mgmt ep "SET_NUMERIC_SENSOR_ENABLE" 0x80 []) := by
  simp [sensorEnable, hid, hs, answer, badSensorCode]

theorem stateReadings_none {id : Nat} (h1 : id ≠ 0x2001) (h2 : id ≠ 0x2002) (ep : Nat) (s : State) :
    stateReadings ep id s = s.send (.mgmt ep "GET_STATE_SENSOR_READINGS" 0x80 []) := by
  simp [stateReadings, h1, h2, answer, badSensorCode]

theorem sensorThresholds_none {id : Nat} (hs : sensorOf id = none) (ep : Nat) (w c : Int) (s : State) :
    sensorThresholds ep id w c s = s.send (.mgmt ep "SET_SENSOR_THRESHOLDS" 0x80 []) := by
  simp only [sensorThresholds, hs, answer, badSensorCode]

theorem sensorThresholds_bad {id d n : Nat} (hs : sensorOf id = some (d, n)) (hn : n < 32) {w c : Int}
    (h : w < 0 ∨ 255 < w ∨ c < 0 ∨ 255 < c) (ep : Nat) (s : State) :
    sensorThresholds ep id w c s = s.send (.mgmt ep "SET_SENSOR_THRESHOLDS" 2 []) := by
  have hout : ¬ (((0 ≤ w ∧ w ≤ 255) ∧ 0 ≤ c) ∧ c ≤ 255) := by omega
  simp [sensorThresholds, hs, Nat.not_le.2 hn, hout, answer, badDataCode]

theorem sensorThresholds_good {id d n : Nat} (hs : sensorOf id = some (d, n)) (hn : n < 32) {w c : Int} (hw : 0 ≤ w) (hw' : w ≤ 255)
    (hc : 0 ≤ c) (hc' : c ≤ 255) (ep : Nat) (s : State) :
    sensorThresholds ep id w c s = (putThresholds d n w.toNat c.toNat s).send (.mgmt ep "SET_SENSOR_THRESHOLDS" 0 []) := by
  simp [sensorThresholds, hs, Nat.not_le.2 hn, hw, hw', hc, hc', answer, okCode]

/-- Two bytes of a register, written one after the other, both read back. -/
theorem fld_setFld_bytes (b : Nat) (f g : Fld) {w c : Nat} (hw : w < 256) (hc : c < 256) (s : State)
    (hf : f.hi = f.lo + 7 ∧ f.hi < 32 := by decide) (hg : g.hi = g.lo + 7 ∧ g.hi < 32 := by decide)
    (hd : f.hi < g.lo ∨ g.hi < f.lo := by decide) :
    ((s.setFld b f w).setFld b g c).fld b f = w ∧ ((s.setFld b f w).setFld b g c).fld b g = c := by
  obtain ⟨hflo, hfhi⟩ := hf
  obtain ⟨hglo, hghi⟩ := hg
  have hwidth : ∀ {x : Fld}, x.hi = x.lo + 7 → 2 ^ (x.hi + 1 - x.lo) = 256 := fun h => by
    rw [h, Nat.add_assoc, Nat.add_sub_cancel_left]
    rfl
  refine ⟨?_, ?_⟩
  · rw [State.fld_setFld_ne _ _ _ _ _ _ (.inr hd) (by omega) hghi, State.fld_setFld_same _ _ _ _ (by omega) hfhi, hwidth hflo,
      Nat.mod_eq_of_lt hw]
  · rw [State.fld_setFld_same _ _ _ _ (by omega) hghi, hwidth hglo, Nat.mod_eq_of_lt hc]

/-- Thresholds that are set read back in 1/64 °C. -/
theorem thresholds_putThresholds (d n : Nat) {w c : Nat} (hw : w < 256) (hc : c < 256) (s : State) :
    thresholds (putThresholds d n w c s) d n = (64 * (w : Int), 64 * (c : Int)) := by
  obtain ⟨hformeWarn, hformeCrit⟩ := fld_setFld_bytes (monPage d) Fld.MON_TEMP_THR.forme_warn Fld.MON_TEMP_THR.forme_crit hw hc s
  obtain ⟨hhbmWarn, hhbmCrit⟩ := fld_setFld_bytes (monPage d) Fld.MON_TEMP_THR.hbm_warn Fld.MON_TEMP_THR.hbm_crit hw hc s
  obtain ⟨hphaseWarn, hphaseCrit⟩ := fld_setFld_bytes (monPage d) Fld.MON_PHASE_THR.warn Fld.MON_PHASE_THR.crit hw hc s
  unfold thresholds putThresholds
  split
  · simp only [hformeWarn, hformeCrit]
  · split
    · simp only [hhbmWarn, hhbmCrit]
    · simp only [hphaseWarn, hphaseCrit]

theorem putThresholds_frame (d n w c : Nat) (s : State) : (putThresholds d n w c s).mem = s.mem ∧
    (putThresholds d n w c s).out = s.out ∧ (putThresholds d n w c s).mons = s.mons := by
  unfold putThresholds
  dsimp only
  split
  · simp
  · split <;> simp

theorem pollEvent_cons {id st : Nat} {es : List (Nat × Nat)} (h : s.events = (id, st) :: es) (ep : Nat) :
    pollEvent ep s = { s.send (.mgmt ep "POLL_FOR_PLATFORM_EVENT_MESSAGE" 0 [id, st]) with events := es } := by
  simp only [pollEvent, h, answer, okCode, State.send]

theorem pollEvent_nil (h : s.events = []) (ep : Nat) :
    pollEvent ep s = s.send (.mgmt ep "POLL_FOR_PLATFORM_EVENT_MESSAGE" 0 []) := by
  simp only [pollEvent, h, answer, okCode]

/-! ### The statement -/

/-- Settles O54: each request is answered as its own lemma says where Muzomus is up, and is left unanswered elsewhere. -/
theorem managementReplies : Obligations.ManagementReplies := by
  unfold Obligations.ManagementReplies
  intro s ep
  dsimp only
  refine ⟨fun hup => ?control, fun hup hr => ?pldm, fun _ hr id => exec_pldmRequest_recovery hr ep id,
    fun hdown id => exec_request_down hdown ep id⟩
  case control =>
    exact ⟨fun e h h' => next_asked hup (setEid_assigned h h' ep s), fun e h => next_asked hup (setEid_reserved h ep s),
      next_asked hup rfl, ⟨_, rfl, next_asked hup rfl⟩, next_asked hup rfl,
      fun ty h h' => next_asked hup (mctpVersion_unsupported h h' ep s), next_asked hup rfl,
      ⟨openFields 17 4, rfl, next_asked hup rfl⟩, next_asked hup rfl⟩
  case pldm =>
    refine ⟨next_askedPldm hup hr rfl, fun n h h' => ⟨_, next_askedPldm hup hr (setTid_assigned h h' ep s), rfl, rfl, rfl, rfl, rfl⟩,
      fun n h => next_askedPldm hup hr (setTid_reserved h ep s),
      fun ty h => ⟨⟨_, rfl, next_askedPldm hup hr (pldmVersion_listed h ep s)⟩, next_askedPldm hup hr (listCommands_listed h ep s)⟩,
      fun ty h => ⟨next_askedPldm hup hr (pldmVersion_unlisted h ep s), next_askedPldm hup hr (listCommands_unlisted h ep s)⟩,
      fun id hid hs => ⟨next_askedPldm hup hr (sensorReading_none hid hs ep s),
        fun on => next_askedPldm hup hr (sensorEnable_none hid hs ep on s),
        fun w c => next_askedPldm hup hr (sensorThresholds_none hs ep w c s)⟩,
      fun id h1 h2 => next_askedPldm hup hr (stateReadings_none h1 h2 ep s), next_askedPldm hup hr rfl,
      ⟨openFields 16 8, rfl, next_askedPldm hup hr rfl⟩,
      fun h r hpdr => ⟨_, rfl, next_askedPldm hup hr (getPdr_there hpdr ep s)⟩,
      fun h hh => next_askedPldm hup hr (getPdr_beyond hh ep s), next_askedPldm hup hr rfl, fun id d n hs hid => ?reading,
      next_askedPldm hup hr ?coolant, next_askedPldm hup hr rfl, fun id on hs => ?enable,
      fun id d n w c hs hn hw hw' hc hc' => ?thresholds,
      fun id d n w c hs hn h => next_askedPldm hup hr (sensorThresholds_bad hs hn h ep s),
      fun r => ⟨_, next_askedPldm hup hr rfl, rfl, rfl, rfl, rfl⟩,
      fun id st es h => next_askedPldm hup hr (pollEvent_cons h ep), fun h => next_askedPldm hup hr (pollEvent_nil h ep)⟩
    case reading =>
      refine ⟨_, _, _, next_askedPldm hup hr (sensorReading_monitor hid hs ep s), rfl, rfl, rfl, rfl, fun hn => ?_, fun hn hv => ?_⟩
      · rw [reading_plain hn]
      · rw [reading_hundredths hn hv]
    case coolant =>
      cases h : s.flag mzmPage Fld.MZM_GPIO_STATUS.coolant_n <;> simp [stateReadings, answer, okCode, h, b2n]
    case enable =>
      refine ⟨_, next_askedPldm hup hr (sensorEnable_monitor hs ep on s), ?_, rfl, rfl, rfl⟩
      cases on <;> simp
    case thresholds =>
      obtain ⟨hmem, hout, hmons⟩ := putThresholds_frame d n w.toNat c.toNat s
      refine ⟨_, next_askedPldm hup hr (sensorThresholds_good hs hn hw hw' hc hc' ep s), ?_, hmem, ?_, ?_⟩
      · have hshown := thresholds_putThresholds d n (w := w.toNat) (c := c.toNat) (by omega) (by omega) s
        rw [Int.toNat_of_nonneg hw, Int.toNat_of_nonneg hc] at hshown
        exact hshown
      · rw [State.send, hout]
      · unfold State.mon
        rw [State.send_mons, hmons]

end Sys2Proof.Machine

/-! PROOFS. Firmware updates step by step, the test access ports, and the statement about them. -/

namespace Sys2Proof.Machine

set_option Elab.async false

variable {s : State} {ep : Nat}

/-! ### Whose update runs, and in which phase (R496, R497) -/

theorem inUpdate_none (h : updateOf s ep = none) (what : String) (phases : List Nat) (f : Update → State → State) :
    inUpdate ep what phases f s = s.send (.mgmt ep what 0x80 []) := by
  simp only [inUpdate, h, answer, notUpdating]

theorem inUpdate_otherPhase {u : Update} (h : updateOf s ep = some u) (what : String) {phases : List Nat} (hp : u.phase ∉ phases)
    (f : Update → State → State) : inUpdate ep what phases f s = s.send (.mgmt ep what 0x84 []) := by
  simp [inUpdate, h, hp, answer, wrongState]

theorem inUpdate_phase {u : Update} (h : updateOf s ep = some u) (what : String) {phases : List Nat} (hp : u.phase ∈ phases)
    (f : Update → State → State) : inUpdate ep what phases f s = f u s := by
  simp [inUpdate, h, hp]

/-- The steps of an update, each with the name of its answer and the phases in which it is taken. -/
noncomputable def updateSteps (ep : Nat) : List (Instr × String × List Nat) :=
  [(.passComponentTable ep 1, "PASS_COMPONENT_TABLE", [0, 1]), (.updateComponent ep 1 0, "UPDATE_COMPONENT", [1]),
    (.requestFirmwareData ep [], "REQUEST_FIRMWARE_DATA", [2]), (.transferComplete ep true, "TRANSFER_COMPLETE", [2]),
    (.verifyComplete ep, "VERIFY_COMPLETE", [3]), (.applyComplete ep, "APPLY_COMPLETE", [4]),
    (.activateFirmware ep true 0, "ACTIVATE_FIRMWARE", [5]), (.cancelUpdateComponent ep, "CANCEL_UPDATE_COMPONENT", [2, 3, 4])]

theorem exec_updateStep (ep : Nat) (s : State) :
    ∀ x ∈ updateSteps ep, ∃ f, exec x.1 s = .next (asked (fun s => inUpdate ep x.2.1 x.2.2 f s) s) := by
  simp only [updateSteps, List.forall_mem_cons]
  exact ⟨⟨_, rfl⟩, ⟨_, rfl⟩, ⟨_, rfl⟩, ⟨_, rfl⟩, ⟨_, rfl⟩, ⟨_, rfl⟩, ⟨_, rfl⟩, ⟨_, rfl⟩, fun _ h => absurd h List.not_mem_nil⟩

/-- A step for an endpoint whose update does not run is answered with an error. -/
theorem exec_updateStep_none (hup : mzmUp s = true) (h : updateOf s ep = none) :
    ∀ x ∈ updateSteps ep, exec x.1 s = .next (s.send (.mgmt ep x.2.1 0x80 [])) := by
  intro x hx
  obtain ⟨f, hf⟩ := exec_updateStep ep s x hx
  rw [hf, asked_up hup, inUpdate_none h]

/-- A step of another phase is answered with an error. -/
theorem exec_updateStep_otherPhase (hup : mzmUp s = true) {u : Update} (h : updateOf s ep = some u) :
    ∀ x ∈ updateSteps ep, u.phase ∉ x.2.2 → exec x.1 s = .next (s.send (.mgmt ep x.2.1 0x84 [])) := by
  intro x hx hp
  obtain ⟨f, hf⟩ := exec_updateStep ep s x hx
  rw [hf, asked_up hup, inUpdate_otherPhase h x.2.1 hp]

/-! ### What the steps do -/

theorem setUpdate_frame (u : Option Update) (s : State) : (setUpdate u s).mem = s.mem ∧ (setUpdate u s).units = s.units ∧
    (setUpdate u s).out = s.out ∧ (setUpdate u s).mzm = { s.mzm with update := u } ∧
    (setUpdate u s).flag mzmPage Fld.MZM_STATUS.updating = u.isSome :=
  ⟨rfl, rfl, rfl, rfl, State.flag_setFlag_same _ _ _ _⟩

theorem requestUpdate_busy (h : s.mzm.update.isSome = true) (n : Nat) :
    requestUpdate ep n s = s.send (.mgmt ep "REQUEST_UPDATE" 0x81 []) := by
  simp [requestUpdate, h, answer, alreadyUpdating]

theorem requestUpdate_idle (h : s.mzm.update = none) (n : Nat) :
    requestUpdate ep n s = (setUpdate (some ⟨ep, 0, 0, [], 0, n, false⟩) s).send (.mgmt ep "REQUEST_UPDATE" 0 []) := by
  simp [requestUpdate, h, answer, okCode]

section Steps

variable {u : Update} (hu : updateOf s ep = some u)
include hu

theorem passTable_taken (hp : u.phase ≤ 1) {c : Nat} (hc : c = 1 ∨ c = 2) :
    passTable ep c s = (setUpdate (some { u with phase := 1 }) s).send (.mgmt ep "PASS_COMPONENT_TABLE" 0 []) := by
  have hphase : u.phase ∈ [0, 1] := by simp; omega
  have hcomp : isComponent c = true := by rcases hc with rfl | rfl <;> rfl
  rw [passTable, inUpdate_phase hu _ hphase]
  simp [hcomp, answer, okCode]

theorem beginComponent_taken (hp : u.phase = 1) {c : Nat} (n : Nat) (hc : c = 1 ∨ c = 2) :
    beginComponent ep c n s = (setUpdate (some
      { u with classifier := c, size := n, image := [], phase := 2, verified := false }) s).send (.mgmt ep "UPDATE_COMPONENT" 0 []) := by
  have hcomp : isComponent c = true := by rcases hc with rfl | rfl <;> rfl
  rw [beginComponent, inUpdate_phase hu _ (by simp [hp])]
  simp [hcomp, answer, okCode]

theorem takeBlock_whole (hp : u.phase = 2) {data : List Byte} (hd : blockSize u ≤ data.length) :
    takeBlock ep data s = (setUpdate (some { u with image := u.image ++ data.take (blockSize u) }) s).send
      (.mgmt ep "REQUEST_FIRMWARE_DATA" 0 [u.image.length + blockSize u]) := by
  rw [takeBlock, inUpdate_phase hu _ (by simp [hp])]
  simp [hd, answer, okCode]

theorem transferComplete_whole (hp : u.phase = 2) (hlen : u.image.length = u.size) :
    transferComplete ep true s = (setUpdate (some { u with phase := 3 }) s).send (.mgmt ep "TRANSFER_COMPLETE" 0 []) := by
  rw [transferComplete, inUpdate_phase hu _ (by simp [hp])]
  simp [hlen, answer, okCode]

/-- Option bytes verify by their length, magic, version and CRC (R466, R497). -/
theorem verifyComplete_options (hp : u.phase = 3) (hc : u.classifier = 2) : let t := verifyComplete ep s
    t.mem = s.mem ∧ (imageOk u.image = true → u.image.length = 0x8000 → t.mzm.update = some { u with phase := 4, verified := true }) ∧
    (imageOk u.image = false → t.mzm.update = some { u with phase := 1, verified := false }) := by
  intro t
  have ht : t = answer ep "VERIFY_COMPLETE" (if imageVerifies s u then okCode else 1) []
      (setUpdate (some { u with phase := if imageVerifies s u then 4 else 1, verified := imageVerifies s u })
        { s with free := s.free + 1 }) := by
    simp only [t, verifyComplete, inUpdate_phase hu _ (show u.phase ∈ [3] by simp [hp])]
  have hupdate : t.mzm.update = some { u with phase := if imageVerifies s u then 4 else 1, verified := imageVerifies s u } := by
    rw [ht]; rfl
  refine ⟨by rw [ht]; rfl, fun hok hlen => ?_, fun hbad => ?_⟩
  · rw [hupdate]
    simp [imageVerifies, hc, hok, hlen]
  · rw [hupdate]
    simp [imageVerifies, hc, hbad]

theorem applyComplete_barred (hp : u.phase = 4) (hb : pulseBarred s = true) :
    applyComplete ep s = s.send (.mgmt ep "APPLY_COMPLETE" 1 []) := by
  rw [applyComplete, inUpdate_phase hu _ (by simp [hp])]
  simp [hb, answer]

theorem applyComplete_options (hp : u.phase = 4) (hc : u.classifier = 2) (hb : pulseBarred s = false) : applyComplete ep s =
    (setUpdate (some { u with phase := 5 }) (applyOptions u.image s)).send (.mgmt ep "APPLY_COMPLETE" 0 []) := by
  rw [applyComplete, inUpdate_phase hu _ (by simp [hp])]
  simp [hb, hc, answer, okCode]

theorem applyComplete_firmware (hp : u.phase = 4) (hc : u.classifier = 1) (hb : pulseBarred s = false) : applyComplete ep s =
    (setUpdate (some { u with phase := 5 }) (applyFirmware s)).send (.mgmt ep "APPLY_COMPLETE" 0 []) := by
  rw [applyComplete, inUpdate_phase hu _ (by simp [hp])]
  simp [hb, hc, answer, okCode]

/-- Activation ends the update; firmware restarts Muzomus (R475). -/
theorem activate_taken (hp : u.phase = 5) : activate ep true 0 s =
    (setUpdate none (s.send (.mgmt ep "ACTIVATE_FIRMWARE" 0 []))).when (u.classifier == 1) restartMuzomus := by
  rw [activate, inUpdate_phase hu _ (by simp [hp])]
  simp [answer, okCode]

theorem cancelComponent_taken (hp : 2 ≤ u.phase) (hp' : u.phase ≤ 4) : cancelComponent ep s =
    (setUpdate (some { u with classifier := 0, size := 0, image := [], phase := 1, verified := false }) s).send
      (.mgmt ep "CANCEL_UPDATE_COMPONENT" 0 []) := by
  have hphase : u.phase ∈ [2, 3, 4] := by simp; omega
  rw [cancelComponent, inUpdate_phase hu _ hphase]
  simp [answer, okCode]

theorem cancelUpdate_taken (hp : u.phase ≤ 5) :
    cancelUpdate ep s = (setUpdate none s).send (.mgmt ep "CANCEL_UPDATE" 0 []) := by
  have hphase : u.phase ∈ [0, 1, 2, 3, 4, 5] := by simp; omega
  rw [cancelUpdate, inUpdate_phase hu _ hphase]
  simp [answer, okCode]

end Steps

/-- Firmware goes to flash behind a pulse of its own and leaves the bank in use as it is (R475). -/
theorem applyFirmware_spec (s : State) : (applyFirmware s).mem = s.mem ∧ 1 ∈ (applyFirmware s).mzm.pulses ∧
    (s.flag mzmPage Fld.MZM_STATUS.bank = true → (applyFirmware s).mzm.bankB = s.mzm.bankB) ∧
    (s.flag mzmPage Fld.MZM_STATUS.bank = false → (applyFirmware s).mzm.bankA = s.mzm.bankA) := by
  refine ⟨rfl, ?_, fun h => by simp [applyFirmware, h], fun h => by simp [applyFirmware, h]⟩
  have hpulse : ∀ l : List Nat, 1 ∈ (if l.contains 1 then l else l ++ [1]) := by
    intro l
    split
    · next h => exact List.elem_iff.1 h
    · simp
  exact hpulse _

/-- A restart of Muzomus waits for the pulses that it drives (R463, R475). -/
theorem restartMuzomus_spec (s : State) : (restartMuzomus s).mem = s.mem ∧ (restartMuzomus s).units = s.units ∧
    (mzmPulses s.mzm.pulses = false → (restartMuzomus s).mzm.restarting = true ∧ (restartMuzomus s).mzm.update = none) ∧
    (mzmPulses s.mzm.pulses = true → (restartMuzomus s).mzm = { s.mzm with restartDue := true, deferred := true }) := by
  cases h : mzmPulses s.mzm.pulses <;> simp [restartMuzomus, h, restartNow]

/-! ### Test access ports (R498, R499) -/

/-- The state in which an instruction has been loaded. -/
def tapLoaded (d code : Nat) (s : State) : State :=
  { s with mzm := { s.mzm with tapIr := SMap.set (fun _ => 1) s.mzm.tapIr d (tapActs s code) } }

theorem tapLoad_running (h : s.power.vin = 2) (d code in0 in1 : Nat) :
    tapLoad d code in0 in1 s = tapScan in0 in1 (tapLoaded d code s) := if_pos h

theorem tapLoad_notRunning (h : s.power.vin ≠ 2) (d code in0 in1 : Nat) : tapLoad d code in0 in1 s = s := if_neg h

theorem tapIrOf_tapLoaded_same (d code : Nat) (s : State) : tapIrOf (tapLoaded d code s) d = tapActs s code := SMap.get_set_same _ _ _ _

theorem tapIrOf_tapLoaded_ne {d d' : Nat} (h : d' ≠ d) (code : Nat) (s : State) : tapIrOf (tapLoaded d code s) d' = tapIrOf s d' :=
  SMap.get_set_ne _ _ _ h

theorem tapActs_listed {code : Nat} (h : code = 1 ∨ code = 2) (s : State) : tapActs s code = code := by
  simp [tapActs, h]

theorem tapActs_bypass (s : State) : tapActs s 0xFF = 0xFF := by
  simp [tapActs]

/-- The codes of boundary scan act only where JTAG_EN read 1 (R499). -/
theorem tapActs_scan {code : Nat} (h : code = 0 ∨ 4 ≤ code ∧ code ≤ 7) (s : State) :
    tapActs s code = if scanEnabled s then code else 0xFF := by
  have h1 : code ≠ 1 := by omega
  have h2 : code ≠ 2 := by omega
  simp [tapActs, h1, h2, h]

theorem tapCapture_idcode {d : Nat} (h : tapIrOf s d = 1) : tapCapture s d = tapId := if_pos h

theorem tapCapture_bypass {d : Nat} (h : tapIrOf s d = 0xFF) : tapCapture s d = 0 := by
  simp [tapCapture, h, tapBoundary]

theorem boundary_tapScan {d : Nat} (hd : d < 2) (h : tapBoundary (tapIrOf s d) = true) (in0 in1 : Nat) :
    SMap.get (fun _ => 0) (tapScan in0 in1 s).mzm.boundary d = if d = 0 then in0 else in1 := by
  obtain rfl | rfl : d = 0 ∨ d = 1 := by omega
  · simp only [tapScan, h, if_true]
    split
    · rw [SMap.get_set_ne _ _ _ (by decide), SMap.get_set_same]
    · rw [SMap.get_set_same]
  · simp only [tapScan, h, if_true, SMap.get_set_same]
    rfl

/-- What the scan behind the load of an instruction that acts as `c` in the TAP of die `die` shows and leaves alone. -/
def TapShows (s : State) (die in0 in1 c : Nat) (t : State) (v w : Nat) : Prop :=
  t.out = s.out ++ [.tap (tapIrOf t 0) v (tapIrOf t 1) w] ∧ tapIrOf t die = c ∧ tapIrOf t (1 - die) = tapIrOf s (1 - die) ∧
  (c = 1 → (if die = 0 then v else w) = tapId) ∧ (c = 0xFF → (if die = 0 then v else w) = 0) ∧
  (c ∈ [0, 2, 6, 7] → SMap.get (fun _ => 0) t.mzm.boundary die = if die = 0 then in0 else in1) ∧
  t.regs = s.regs ∧ t.mem = s.mem ∧ t.units = s.units

theorem tapLoad_shows (h : s.power.vin = 2) {die : Nat} (hdie : die < 2) {code c : Nat} (hc : tapActs s code = c) (in0 in1 : Nat) :
    ∃ v w, TapShows s die in0 in1 c (tapLoad (die % 2) code in0 in1 s) v w := by
  rw [Nat.mod_eq_of_lt hdie, tapLoad_running h]
  have hsame : tapIrOf (tapLoaded die code s) die = c := (tapIrOf_tapLoaded_same die code s).trans hc
  have hshift : ∀ f : Nat → Nat, (if die = 0 then f 0 else f 1) = f die := fun f => by
    obtain rfl | rfl : die = 0 ∨ die = 1 := by omega
    · rfl
    · rfl
  refine ⟨tapCapture (tapLoaded die code s) 0, tapCapture (tapLoaded die code s) 1, rfl, hsame,
    tapIrOf_tapLoaded_ne (by omega) code s, fun hid => ?_, fun hbyp => ?_, fun hb => ?_, rfl, rfl, rfl⟩
  · rw [hshift (tapCapture _), tapCapture_idcode (hsame.trans hid)]
  · rw [hshift (tapCapture _), tapCapture_bypass (hsame.trans hbyp)]
  · exact boundary_tapScan hdie (by rw [hsame]; exact List.elem_eq_true_of_mem hb) in0 in1

/-- The instructions of boundary scan with their codes. -/
noncomputable def scanCodes (d : TapScan) : List (Instr × Nat) :=
  [(.extest d, 0), (.clamp d, 4), (.highz d, 5), (.extestPulse d, 6), (.extestTrain d, 7)]

theorem exec_scanCode (d : TapScan) (s : State) : ∀ x ∈ scanCodes d,
    exec x.1 s = .next (tapLoad (d.die % 2) x.2 d.in0 d.in1 s) ∧ (x.2 = 0 ∨ 4 ≤ x.2 ∧ x.2 ≤ 7) := by
  simp only [scanCodes, List.forall_mem_cons]
  exact ⟨⟨rfl, by decide⟩, ⟨rfl, by decide⟩, ⟨rfl, by decide⟩, ⟨rfl, by decide⟩, ⟨rfl, by decide⟩, fun _ h => absurd h List.not_mem_nil⟩

/-- An instruction that is loaded in a TAP in RUN, where it acts as `c`. -/
theorem exec_tap_running (h : s.power.vin = 2) {d : TapScan} (hdie : d.die < 2) {i : Instr} {code c : Nat}
    (hi : exec i s = .next (tapLoad (d.die % 2) code d.in0 d.in1 s)) (hc : tapActs s code = c) :
    ∃ t v w, exec i s = .next t ∧ TapShows s d.die d.in0 d.in1 c t v w := by
  obtain ⟨v, w, hshows⟩ := tapLoad_shows h hdie hc d.in0 d.in1
  exact ⟨_, v, w, hi, hshows⟩

/-- Outside RUN the TAPs have no supply: no instruction does anything. -/
theorem exec_tap_notRunning (h : s.power.vin ≠ 2) (d : TapScan) : ∀ i ∈ [Instr.idcode d, .bypass d, .samplePreload d, .extest d, .clamp d,
    .highz d, .extestPulse d, .extestTrain d], exec i s = .next s := by
  have hload : ∀ code, (.next (tapLoad (d.die % 2) code d.in0 d.in1 s) : Host.Outcome State Fault Refusal) = .next s := fun code =>
    congrArg Host.Outcome.next (tapLoad_notRunning h _ code _ _)
  simp only [List.forall_mem_cons]
  exact ⟨hload _, hload _, hload _, hload _, hload _, hload _, hload _, hload _, fun _ h => absurd h List.not_mem_nil⟩

/-! ### The statement -/

/-- Settles O55: a step of an update is looked up by its endpoint and phase first, and an instruction of a TAP is loaded in its own die's
alone. -/
theorem firmwareAndTestAccess : Obligations.FirmwareAndTestAccess := by
  unfold Obligations.FirmwareAndTestAccess
  intro s ep
  dsimp only
  refine ⟨fun hup => ⟨fun h n => next_asked hup (requestUpdate_busy h n), fun h n => ?request, next_asked hup rfl,
    fun h => exec_updateStep_none hup h, fun h => next_asked hup (inUpdate_none h _ _ _), fun u hu => ?steps⟩, fun die in0 in1 hdie => ?tap⟩
  case request =>
    obtain ⟨hmem, hunits, -, hmzm, hflag⟩ := setUpdate_frame (some ⟨ep, 0, 0, [], 0, n, false⟩) s
    exact ⟨_, next_asked hup (requestUpdate_idle h n), congrArg MzmSt.update hmzm, hflag, hmem, hunits⟩
  case steps =>
    refine ⟨exec_updateStep_otherPhase hup hu, fun hp c hc => next_asked hup (passTable_taken hu hp hc),
      fun hp c n hc => next_asked hup (beginComponent_taken hu hp n hc), fun hp data hd => next_asked hup (takeBlock_whole hu hp hd),
      fun hp hlen => next_asked hup (transferComplete_whole hu hp hlen),
      fun hp hc => ⟨_, next_asked hup rfl, verifyComplete_options hu hp hc⟩,
      fun hp hb => next_asked hup (applyComplete_barred hu hp hb),
      fun hp hc hb => next_asked hup (applyComplete_options hu hp hc hb), fun hp hc hb => ?firmware, fun hp => ?activation,
      fun hp hp' => next_asked hup (cancelComponent_taken hu hp hp'), fun hp => next_asked hup (cancelUpdate_taken hu hp)⟩
    case firmware =>
      obtain ⟨hmem, hpulse, hbankB, hbankA⟩ := applyFirmware_spec s
      exact ⟨_, next_asked hup (applyComplete_firmware hu hp hc hb), hmem, hpulse, rfl, hbankB, hbankA⟩
    case activation =>
      refine ⟨_, next_asked hup (activate_taken hu hp), ?_⟩
      by_cases hc : u.classifier = 1
      · obtain ⟨hmem, hunits, hnow, hlater⟩ := restartMuzomus_spec (setUpdate none (s.send (.mgmt ep "ACTIVATE_FIRMWARE" 0 [])))
        rw [beq_iff_eq.2 hc, State.when_true]
        refine ⟨?_, hmem, hunits, fun h => absurd hc h, fun _ hp => (hnow hp).1, fun _ hp => ?_⟩
        · cases hp : mzmPulses s.mzm.pulses
          · exact (hnow hp).2
          · rw [hlater hp]; rfl
        · rw [hlater hp]; exact ⟨rfl, rfl⟩
      · rw [beq_false_of_ne hc, State.when_false]
        exact ⟨rfl, rfl, rfl, fun _ => rfl, fun h => absurd h hc, fun h => absurd h hc⟩
  case tap =>
    refine ⟨fun hrun => ?_, fun hoff => exec_tap_notRunning hoff ⟨die, in0, in1⟩⟩
    refine ⟨exec_tap_running hrun hdie (d := ⟨die, in0, in1⟩) rfl (tapActs_listed (.inl rfl) s),
      exec_tap_running hrun hdie (d := ⟨die, in0, in1⟩) rfl (tapActs_bypass s),
      exec_tap_running hrun hdie (d := ⟨die, in0, in1⟩) rfl (tapActs_listed (.inr rfl) s), fun hoff x hx => ?_, fun hon x hx => ?_⟩
    all_goals obtain ⟨hexec, hcode⟩ := exec_scanCode ⟨die, in0, in1⟩ s x hx
    · exact exec_tap_running hrun hdie hexec (by rw [tapActs_scan hcode, hoff]; rfl)
    · exact exec_tap_running hrun hdie hexec (by rw [tapActs_scan hcode, hon]; rfl)

end Sys2Proof.Machine

/-! PROOFS. Stream vectors, the pins and who owns them, completion interrupts, and the statement about them. -/

namespace Sys2Proof.Machine

set_option Elab.async false

variable {s : State} {fn : Nat}

/-! ### Outputs (R454, R493, R498, R500) -/

theorem pinFloats_off (h : s.power.vin = 0) (p : OutPin) : pinFloats s p = true := by
  cases p <;> simp [pinFloats, h]

theorem pinLow_off (h : s.power.vin = 0) (p : OutPin) : pinLow s p = none ∨ pinLow s p = some false := by
  have hfloats := pinFloats_off h
  cases p with
  | faultN => right; simp [pinLow, hfloats]
  | smbAlertN => right; simp [pinLow, hfloats]
  | iznRdyN p =>
    cases h : (scanDrives s (.iznRdyN p)).isSome with
    | false => right; simp [pinLow, h, hfloats]
    | true => left; simp [pinLow, h]
  | pcieClkreqN => left; rfl
  | tdo => left; rfl
  | iznTx p => left; rfl
  | pcieTx => left; rfl

/-- In STANDBY Muzomus drives its two outputs, and the dies none. -/
theorem pinFloats_standby (h : s.power.vin = 1) (p : OutPin) : pinFloats s p = decide (p ≠ .faultN ∧ p ≠ .smbAlertN) := by
  cases p <;> simp [pinFloats, h, drivenBy]

theorem pinFloats_tdo_run (h : s.power.vin = 2) : pinFloats s .tdo = false := by
  simp [pinFloats, h, drivenBy]

theorem pinFloats_iznTx_run (h : s.power.vin = 2) (p : Nat) :
    pinFloats s (.iznTx p) = (portState s p == 0 || tapIrOf s (p / 8) == 5) := by
  simp [pinFloats, h, drivenBy]

/-- EXTEST and CLAMP drive IZN_RDY_N from the boundary register. -/
theorem pinLow_iznRdyN_scanned {p : Nat} (h : tapIrOf s (p / 8) = 0 ∨ tapIrOf s (p / 8) = 4) : pinLow s (.iznRdyN p) = none := by
  have hdrives : (scanDrives s (.iznRdyN p)).isSome = true := by simp [scanDrives, drivenBy, h]
  simp [pinLow, hdrives]

theorem pinLow_iznRdyN_run (h : s.power.vin = 2) {p : Nat} (hcode : tapIrOf s (p / 8) ∉ [0, 4, 5]) :
    pinLow s (.iznRdyN p) = some (portUp s p) := by
  simp only [List.mem_cons, List.not_mem_nil, or_false, not_or] at hcode
  obtain ⟨h0, h4, h5⟩ := hcode
  have hdrives : scanDrives s (.iznRdyN p) = none := by simp [scanDrives, drivenBy, onPair, h0, h4]
  have hfloats : pinFloats s (.iznRdyN p) = (portState s p == 0) := by simp [pinFloats, h, drivenBy, h5]
  have hup : portUp s p = (portState s p == 2) := rfl
  simp only [pinLow, hdrives, hfloats, hup]
  cases hs : portState s p == 2 with
  | false => simp
  | true => simp [beq_iff_eq.1 hs]

theorem pinLow_faultN_on (h : s.power.vin ≠ 0) : pinLow s .faultN = some (!(s.flag mzmPage Fld.MZM_GPIO_STATUS.fault_n)) := by
  simp [pinLow, pinFloats, drivenBy, h]

theorem pinLow_smbAlertN_on (h : s.power.vin ≠ 0) : pinLow s .smbAlertN = some (!s.events.isEmpty) := by
  simp [pinLow, pinFloats, drivenBy, h]

/-! ### The stream vector table (R489) -/

/-- One byte of a write of the table. -/
def storeVector (i v k : Nat) (s : State) : State :=
  { s with vectors := SMap.set (fun _ => 0) s.vectors (i + k) (bits v (8 * k + 5) (8 * k)) }

/-- The bytes of a word whose streams `fn` owns. -/
def ownVectors (s : State) (fn i : Nat) : List Nat := [0, 1, 2, 3].filter (fun k => (s.stream (i + k)).owner == fn && decide (fn < 32))

theorem mem_ownVectors (hfn : fn < 32) {i k : Nat} : k ∈ ownVectors s fn i ↔ k < 4 ∧ (s.stream (i + k)).owner = fn := by
  have hword : k ∈ [0, 1, 2, 3] ↔ k < 4 := by simp; omega
  simp [ownVectors, List.mem_filter, hword, hfn]

theorem vectorWrite_admitted (hfn : fn < 32) (ha : Admitted s fn) (off i v : Nat) : vectorWrite fn off i v s =
    (s.when (!([0, 1, 2, 3].all (fun k => (s.stream (i + k)).owner == fn && decide (fn < 32)))) (refuseArea fn off)).each
      (ownVectors s fn i) (storeVector i v) := by
  obtain ⟨hready, -⟩ := ha.2 hfn
  unfold vectorWrite
  rw [if_neg (by simp [hready])]
  rfl

theorem vectors_each_ne {l : List Nat} {i j : Nat} (h : ∀ k ∈ l, j ≠ i + k) (v : Nat) (s : State) :
    SMap.get (fun _ => 0) (s.each l (storeVector i v)).vectors j = SMap.get (fun _ => 0) s.vectors j := by
  induction l generalizing s with
  | nil => rfl
  | cons a l ih =>
    exact (ih (fun k hk => h k (List.mem_cons_of_mem a hk)) _).trans (SMap.get_set_ne _ _ _ (h a List.mem_cons_self))

theorem vectors_each_mem {l : List Nat} {k : Nat} (hk : k ∈ l) (i v : Nat) (s : State) :
    SMap.get (fun _ => 0) (s.each l (storeVector i v)).vectors (i + k) = bits v (8 * k + 5) (8 * k) := by
  induction l generalizing s with
  | nil => exact absurd hk List.not_mem_nil
  | cons a l ih =>
    by_cases hl : k ∈ l
    · exact ih hl _
    · obtain rfl : k = a := (List.mem_cons.1 hk).resolve_right hl
      have hother : ∀ j ∈ l, i + k ≠ i + j := fun j hj he => hl (Nat.add_left_cancel he ▸ hj)
      exact (vectors_each_ne hother v _).trans (SMap.get_set_same _ _ _ _)

theorem refuseArea_frame (fn off : Nat) (s : State) : (refuseArea fn off s).vectors = s.vectors ∧
    (refuseArea fn off s).streams = s.streams ∧ (refuseArea fn off s).mem = s.mem ∧ (refuseArea fn off s).units = s.units := by
  unfold refuseArea
  simp

theorem vectorWrite_spec (hfn : fn < 32) (ha : Admitted s fn) (off i v : Nat) : let t := vectorWrite fn off i v s
    (∀ k, k < 4 → (s.stream (i + k)).owner = fn → SMap.get (fun _ => 0) t.vectors (i + k) = bits v (8 * k + 5) (8 * k)) ∧
    (∀ j, (s.stream j).owner ≠ fn → SMap.get (fun _ => 0) t.vectors j = SMap.get (fun _ => 0) s.vectors j) ∧
    ((∀ k, k < 4 → (s.stream (i + k)).owner = fn) → t.regs = s.regs) ∧ t.streams = s.streams ∧ t.mem = s.mem ∧ t.units = s.units := by
  dsimp only
  rw [vectorWrite_admitted hfn ha]
  obtain ⟨hvectors, hstreams, hmem, hunits⟩ := refuseArea_frame fn off s
  have hkeep : ∀ {β : Type} (g : State → β), (∀ k t, g (storeVector i v k t) = g t) → g (refuseArea fn off s) = g s → ∀ c,
      g ((s.when c (refuseArea fn off)).each (ownVectors s fn i) (storeVector i v)) = g s := fun g hstore hg c =>
    (State.each_field _ g _ hstore _).trans (State.when_field s g c _ hg)
  refine ⟨fun k hk hown => vectors_each_mem ((mem_ownVectors hfn).2 ⟨hk, hown⟩) i v _, fun j hj => ?_, fun hall => ?_,
    hkeep (·.streams) (fun _ _ => rfl) hstreams _, hkeep (·.mem) (fun _ _ => rfl) hmem _, hkeep (·.units) (fun _ _ => rfl) hunits _⟩
  · have hother : ∀ k ∈ ownVectors s fn i, j ≠ i + k := fun k hk he => hj (he ▸ ((mem_ownVectors hfn).1 hk).2)
    exact (vectors_each_ne hother v _).trans (congrArg (fun m => SMap.get (fun _ => 0) m j) (State.when_field s (·.vectors) _ _ hvectors))
  · have hmine : [0, 1, 2, 3].all (fun k => (s.stream (i + k)).owner == fn && decide (fn < 32)) = true := by
      have hfirst : (s.stream i).owner = fn := hall 0 (by decide)
      simp [hfn, hfirst, hall 1, hall 2, hall 3]
    rw [hmine]
    exact State.each_field s (·.regs) (storeVector i v) (fun _ _ => rfl) _

/-! ### Owners of the pins (R453, R500) -/

theorem posted_gpioWrite (hfn : fn = 0 ∨ fn = 32) (ha : Admitted s fn) (hr : s.mzm.restarting = false) (i : Instr) (act : State → State) :
    posted fn i (fun s => gpioWrite fn act s) s = act s := by
  have hmay : (fn == 0 || fn == mzmFn) = true := by rcases hfn with rfl | rfl <;> rfl
  rw [posted_admitted ha, gpioWrite, hr, if_neg Bool.false_ne_true, pfOrMzm, guarded_admitted ha, hmay, if_pos rfl]

theorem claim_free {b : Nat} {f : Fld} {code : Nat} (h : s.fld b f = 0 ∨ s.fld b f = code) : claim b f code s = s.setFld b f code := by
  rcases h with h | h <;> simp [claim, h]

theorem claim_held {b : Nat} {f : Fld} {code : Nat} (h : s.fld b f ≠ 0) (h' : s.fld b f ≠ code) :
    claim b f code s = logStatus b stConflict s := by
  simp [claim, h, h']

theorem releaseOwn_own {b : Nat} {f : Fld} {code : Nat} (h : s.fld b f = code) : releaseOwn b f code s = s.setFld b f 0 := by
  simp [releaseOwn, h]

theorem releaseOwn_other {b : Nat} {f : Fld} {code : Nat} (h : s.fld b f ≠ code) : releaseOwn b f code s = s := by
  simp [releaseOwn, h]

/-- FAULT_N follows its sources once no owner drives it. -/
theorem refreshFault_spec (h : s.flag mzmPage Fld.MZM_GPIO_OWN.sw_fault = false) :
    (refreshFault s).flag mzmPage Fld.MZM_GPIO_STATUS.fault_n = (faultSources s == 0) ∧
    (∀ o, o ≠ mzmPage + 0x84 → (refreshFault s).regN o = s.regN o) ∧ (refreshFault s).mem = s.mem ∧ (refreshFault s).units = s.units := by
  refine ⟨?_, fun o ho => ?_, rfl, rfl⟩
  · exact (State.flag_setFlag_same _ _ Fld.MZM_GPIO_STATUS.fault_n _).trans (by rw [h, Bool.or_false, bne, Bool.not_not])
  · rw [refreshFault, State.setFlag, State.regN_setFld_ne _ _ _ _ ho, State.regN_setFld_ne _ _ _ _ ho]

theorem releaseFault_other {fn : Nat} (h : s.fld mzmPage Fld.MZM_GPIO_OWN.fault_owner ≠ ownerCode fn) : releaseFault fn s = s := by
  simp [releaseFault, h]

/-- A release of FAULT_N clears what software drove. -/
theorem releaseFault_own {fn : Nat} (h : s.fld mzmPage Fld.MZM_GPIO_OWN.fault_owner = ownerCode fn) : let t := releaseFault fn s
    t.fld mzmPage Fld.MZM_GPIO_OWN.fault_owner = 0 ∧ t.flag mzmPage Fld.MZM_GPIO_OWN.sw_fault = false ∧
    t.flag mzmPage Fld.MZM_GPIO_STATUS.fault_n = (faultSources s == 0) ∧ t.mem = s.mem ∧ t.units = s.units := by
  let s1 := (s.setFld mzmPage Fld.MZM_GPIO_OWN.fault_owner 0).setFlag mzmPage Fld.MZM_GPIO_OWN.sw_fault false
  have ht : releaseFault fn s = refreshFault s1 := if_pos (beq_iff_eq.2 h)
  have hsw : s1.flag mzmPage Fld.MZM_GPIO_OWN.sw_fault = false := State.flag_setFlag_same _ _ _ _
  have howner : s1.fld mzmPage Fld.MZM_GPIO_OWN.fault_owner = 0 :=
    (State.fld_setFld_ne _ _ _ _ _ _ (.inr (by decide))).trans (State.fld_setFld_same _ _ _ _)
  have hrecovery : s1.flag mzmPage Fld.MZM_STATUS.recovery = s.flag mzmPage Fld.MZM_STATUS.recovery :=
    (State.flag_setFlag_ne _ _ _ _ _ _ (.inl (by decide))).trans (State.flag_setFld_ne _ _ _ _ _ _ (.inl (by decide)))
  have hsources : faultSources s1 = faultSources s := by
    unfold faultSources
    rw [hrecovery]
    rfl
  obtain ⟨hfault, hregs, hmem, hunits⟩ := refreshFault_spec hsw
  have hgpio : (refreshFault s1).regN (mzmPage + 0x80) = s1.regN (mzmPage + 0x80) := hregs _ (by decide)
  dsimp only
  rw [ht]
  refine ⟨?_, ?_, hfault.trans (by rw [hsources]), hmem, hunits⟩
  · rw [← howner]; exact congrArg (bits · 3 2) hgpio
  · rw [← hsw]; exact congrArg (fun w => bits w 9 9 == 1) hgpio

/-! ### WAKE_N and the gated Formes (R445, R500) -/

/-- A fold that must reach `Q`: every step keeps `K` and `Q`, and the step of `a` takes `K` to `Q`. -/
theorem State.each_reaches {α : Type} {K Q : State → Prop} {f : α → State → State} {l : List α} {a : α} (ha : a ∈ l)
    (hK : ∀ b t, K t → K (f b t)) (hQ : ∀ b t, Q t → Q (f b t)) (hown : ∀ t, K t → Q (f a t)) (h : K s) : Q (s.each l f) := by
  have hkeep : ∀ (l : List α) (t : State), Q t → Q (t.each l f) := fun l => by
    induction l with
    | nil => exact fun t ht => ht
    | cons b l ih => exact fun t ht => ih _ (hQ b t ht)
  induction l generalizing s with
  | nil => exact absurd ha List.not_mem_nil
  | cons b l ih =>
    rcases List.mem_cons.1 ha with rfl | hl
    · exact hkeep l _ (hown s h)
    · exact ih hl (hK b s h)

/-- A fold keeps a property that every step keeps. -/
theorem State.each_keeps {α : Type} {P : State → Prop} {f : α → State → State} (hP : ∀ b t, P t → P (f b t)) (l : List α) (h : P s) :
    P (s.each l f) := by
  induction l generalizing s with
  | nil => exact h
  | cons b l ih => exact ih (hP b s h)

theorem powerPage_cases (u : Nat) : powerPage (pathDie u) = 0x2400000 ∨ powerPage (pathDie u) = 0x6400000 := by
  have hlt := pathDie_lt u
  simp only [powerPage, dieWin]
  omega

/-- The wake record and the count of wakes lie beside the Formes' registers. -/
theorem regN_lowerWake {u a p o : Nat} (h : o ≠ powerPage (pathDie u) + 0xC4) : (lowerWake u a p s).regN o = s.regN o := by
  unfold lowerWake
  dsimp only
  split
  · exact State.regN_setRegN_ne _ _ h
  · rfl

theorem regN_startWake {u a p o : Nat} (hcount : ∀ i, i ≤ 1 → o ≠ powerPage (pathDie u) + 0x30 + 4 * i)
    (hrec : o < powerPage (pathDie u) + 0xC4 ∨ powerPage (pathDie u) + 0xCC < o) : (startWake u a p s).regN o =
      if o = frmReg u ∧ bit (s.regN o) 6 = false ∧ formeGated s u = true then putBits (s.regN o) 6 6 1 % 2 ^ 32 else s.regN o := by
  have hbump : o ≠ powerPage (pathDie u) + 0x30 + 4 * b2n (formeState s u == 2) := hcount _ (b2n_le_one _)
  unfold startWake
  split
  next hwaking =>
    rw [regN_lowerWake (by omega), if_neg]
    rintro ⟨rfl, hclear, -⟩
    exact Bool.false_ne_true (hclear.symm.trans hwaking)
  next hwaking =>
    split
    next hgated =>
      let woken := s.setRegN (frmReg u) (putBits (s.regN (frmReg u)) 6 6 1)
      have hrest : ∀ (t : State) (w n : Nat), t.regs = woken.regs → (((t.bump (powerPage (pathDie u)) (b2n (formeState s u == 2)) 1).setRegN
          (powerPage (pathDie u) + 0xC4) w).setReg64 (powerPage (pathDie u) + 0xC8) n).regN o = woken.regN o := by
        intro t w n ht
        unfold State.setReg64
        rw [State.regN_setRegN_ne _ _ (by omega), State.regN_setRegN_ne _ _ (by omega), State.regN_setRegN_ne _ _ (by omega),
          regN_bump, if_neg hbump, State.regN_congr ht]
      have hwoken : woken.regN o = if o = frmReg u ∧ bit (s.regN o) 6 = false ∧ formeGated s u = true then
          putBits (s.regN o) 6 6 1 % 2 ^ 32 else s.regN o := by
        by_cases ho : o = frmReg u
        · subst ho
          rw [if_pos ⟨rfl, Bool.eq_false_iff.2 hwaking, hgated⟩]
          exact State.regN_setRegN_same _ _ _
        · rw [if_neg (fun h => ho h.1)]
          exact State.regN_setRegN_ne _ _ ho
      rw [← hwoken]
      exact hrest _ _ _ (by simp only [woken])
    next hgated => rw [if_neg (fun h => hgated h.2.2)]

/-- A wake leaves Muzomus's page and those above it. -/
theorem regN_startWake_above {u a p o : Nat} (h : mzmPage ≤ o) : (startWake u a p s).regN o = s.regN o := by
  have hpage := powerPage_cases u
  have hm : 0x8000000 ≤ o := h
  have hfrm : o ≠ frmReg u := by
    have hlt : pathForme u < 2 ^ 4 := bits_lt u 11 8
    unfold frmReg
    omega
  rw [regN_startWake (fun i _ => by omega) (by omega), if_neg (fun hw => hfrm hw.1)]

theorem frmReg_formePath {d f : Nat} (hd : d < 2) (hf : f < 9) : frmReg (formePath d f) = frmOff d f := by
  have hpath : ∀ d, d < 2 → ∀ f, f < 9 → frmReg (formePath d f) = frmOff d f := by decide
  exact hpath d hd f hf

theorem formeState_formePath {d f : Nat} (hd : d < 2) (hf : f < 9) :
    formeState s (formePath d f) = bits (s.regN (frmOff d f)) 5 4 := by
  have hlevel : ∀ d, d < 2 → ∀ f, f < 9 → pathLevel (formePath d f) = 2 := by decide
  rw [formeState, hlevel d hd f hf, frmReg_formePath hd hf]
  rfl

/-- A Forme's register under a wake of any Forme: the wake sets its own wake bit, where it is gated. -/
theorem regN_startWake_frm {d f : Nat} (hf : f < 9) (u a p : Nat) : (startWake u a p s).regN (frmOff d f) =
    if frmOff d f = frmReg u ∧ bit (s.regN (frmOff d f)) 6 = false ∧ formeGated s u = true then
      putBits (s.regN (frmOff d f)) 6 6 1 % 2 ^ 32 else s.regN (frmOff d f) := by
  have hpage := powerPage_cases u
  have hoff : frmOff d f = d * 0x4000000 + 0x24000A0 + 4 * f := by simp only [frmOff, powerPage, dieWin]
  exact regN_startWake (fun i _ => by omega) (by omega)

theorem putBits_wake (x : Nat) (hx : x < 2 ^ 32) : bits (putBits x 6 6 1 % 2 ^ 32) 5 4 = bits x 5 4 ∧
    bit (putBits x 6 6 1 % 2 ^ 32) 6 = true := by
  rw [Nat.mod_eq_of_lt (putBits_lt x 6 6 1 (by decide) (by decide) hx)]
  exact ⟨bits_putBits_ne x 6 6 1 5 4 (by decide) (.inl (by decide)), bit_putBits_same x 6 1⟩

/-- A Forme's wake runs. -/
def wakes (d f : Nat) (t : State) : Prop := bit (t.regN (frmOff d f)) 6 = true

/-- A Forme is waking, or gated and so to be woken. -/
def toWake (d f : Nat) (t : State) : Prop := wakes d f t ∨ formeGated t (formePath d f) = true

theorem wakes_startWake {d f : Nat} (hf : f < 9) (u a p : Nat) (h : wakes d f s) :
    wakes d f (startWake u a p s) := by
  unfold wakes
  rw [regN_startWake_frm hf, if_neg (fun hw => Bool.false_ne_true (hw.2.1.symm.trans h))]
  exact h

theorem toWake_startWake {d f : Nat} (hd : d < 2) (hf : f < 9) (u a p : Nat) (h : toWake d f s) : toWake d f (startWake u a p s) := by
  rcases h with h | h
  · exact .inl (wakes_startWake hf u a p h)
  · right
    have hstate : bits ((startWake u a p s).regN (frmOff d f)) 5 4 = bits (s.regN (frmOff d f)) 5 4 := by
      rw [regN_startWake_frm hf]
      split
      · exact (putBits_wake _ (State.regN_lt s _)).1
      · rfl
    rw [formeGated, formeState_formePath hd hf] at h ⊢
    rw [hstate]
    exact h

theorem startWake_wakes {d f : Nat} (hd : d < 2) (hf : f < 9) (a p : Nat) (h : toWake d f s) :
    wakes d f (startWake (formePath d f) a p s) := by
  cases hb : bit (s.regN (frmOff d f)) 6 with
  | true => exact wakes_startWake hf _ a p hb
  | false =>
    have hgated := h.resolve_left (fun hw => Bool.false_ne_true (hb.symm.trans hw))
    unfold wakes
    rw [regN_startWake_frm hf, if_pos ⟨(frmReg_formePath hd hf).symm, hb, hgated⟩]
    exact (putBits_wake _ (State.regN_lt s _)).2

/-- The wakes of one die's Formes by WAKE_N. -/
def wakeRow (d : Nat) (s : State) : State := s.each (List.range 9) (fun f => startWake (formePath d f) 9 modulePath)

/-- WAKE_N wakes every Forme that waits for a wake. -/
theorem wakeEvery_wakes {d f : Nat} (hd : d < 2) (hf : f < 9) (h : toWake d f s) : wakes d f (wakeEvery s) := by
  have hdie : d ∈ [0, 1] := by simp; omega
  have hkeep : ∀ e g t, toWake d f t → toWake d f (startWake (formePath e g) 9 modulePath t) := fun e g _ =>
    toWake_startWake hd hf (formePath e g) 9 modulePath
  have hstay : ∀ e g t, wakes d f t → wakes d f (startWake (formePath e g) 9 modulePath t) := fun e g _ =>
    wakes_startWake hf (formePath e g) 9 modulePath
  have hrow : ∀ t, toWake d f t → wakes d f (wakeRow d t) := fun t =>
    State.each_reaches (K := toWake d f) (Q := wakes d f) (List.mem_range.2 hf) (hkeep d) (hstay d)
      (fun _ => startWake_wakes hd hf 9 modulePath)
  exact State.each_reaches (K := toWake d f) (Q := wakes d f) (f := wakeRow) hdie
    (fun e _ => State.each_keeps (P := toWake d f) (hkeep e) (List.range 9))
    (fun e _ => State.each_keeps (P := wakes d f) (hstay e) (List.range 9)) hrow h

theorem wakeEvery_field {β : Type} (g : State → β) (h : ∀ u a p t, g (startWake u a p t) = g t) : g (wakeEvery s) = g s :=
  State.each_field s g _ (fun _ t => State.each_field t g _ (fun _ _ => h _ _ _ _) _) _

theorem wakePin_quiet {level : Bool} (h : level = true ∨ s.flag mzmPage Fld.MZM_GPIO_STATUS.wake_n = false) :
    wakePin level s = s.setFlag mzmPage Fld.MZM_GPIO_STATUS.wake_n level := by
  rcases h with rfl | h
  · simp [wakePin]
  · simp [wakePin, h]

/-- The falling edge: the pin's level, its event, and where it is set the wakes. -/
theorem wakePin_falls (h : s.flag mzmPage Fld.MZM_GPIO_STATUS.wake_n = true) : let t := wakePin false s
    t.flag mzmPage Fld.MZM_GPIO_STATUS.wake_n = false ∧ bit (t.regN (mzmPage + 0x20)) 0 = true ∧ t.mem = s.mem ∧ t.units = s.units ∧
    (s.flag mzmPage Fld.MZM_GPIO_OWN.wake_formes = true → ∀ d f, d < 2 → f < 9 →
      formeState s (formePath d f) = 1 ∨ formeState s (formePath d f) = 2 → bit (t.regN (frmOff d f)) 6 = true) := by
  let low := s.setFlag mzmPage Fld.MZM_GPIO_STATUS.wake_n false
  let raised := raiseEv mzmPage 0 low
  have ht : wakePin false s = raised.when (raised.flag mzmPage Fld.MZM_GPIO_OWN.wake_formes) wakeEvery := by
    rw [wakePin, h]
    rfl
  have hregs : ∀ o, mzmPage ≤ o → (wakePin false s).regN o = raised.regN o := fun o ho => by
    rw [ht]
    exact State.when_field raised (·.regN o) _ _ (wakeEvery_field (·.regN o) fun _ _ _ _ => regN_startWake_above ho)
  have hframe : ∀ {β : Type} (g : State → β), (∀ u a p t, g (startWake u a p t) = g t) → g raised = g s → g (wakePin false s) = g s :=
    fun g hstep hraised => by rw [ht]; exact (State.when_field raised g _ _ (wakeEvery_field g hstep)).trans hraised
  have hraised : ∀ o, o ≠ mzmPage + 0x20 → o % 4096 ≠ 2048 → o ≠ mzmPage + 0x84 → raised.regN o = s.regN o := fun o h1 h2 h3 =>
    (regN_raiseEv low h1 h2).trans (State.regN_setFld_ne s _ _ _ h3)
  dsimp only
  refine ⟨?_, ?_, hframe (·.mem) (fun _ _ _ _ => by simp) (by simp [raised, low]), hframe (·.units) (fun _ _ _ _ => by simp)
    (by simp [raised, low]), fun hset d f hd hf hgated => ?_⟩
  · have hlow : raised.flag mzmPage Fld.MZM_GPIO_STATUS.wake_n = false :=
      (flag_raiseEv low (by decide) (by decide)).trans (State.flag_setFlag_same s _ _ _)
    exact (congrArg (fun w => bits w 0 0 == 1) (hregs (mzmPage + 0x84) (by decide))).trans hlow
  · rw [hregs _ (by decide)]
    exact bit_raiseEv low (by decide) (by decide)
  · have hwake : raised.flag mzmPage Fld.MZM_GPIO_OWN.wake_formes = true :=
      (congrArg (fun w => bits w _ _ == 1) (hraised (mzmPage + 0x80) (by decide) (by decide) (by decide))).trans hset
    have hoff : frmOff d f = d * 0x4000000 + 0x24000A0 + 4 * f := by simp only [frmOff, powerPage, dieWin]
    have hm : mzmPage = 0x8000000 := rfl
    have hfrm : raised.regN (frmOff d f) = s.regN (frmOff d f) := hraised _ (by omega) (by omega) (by omega)
    have hstate : formeState raised (formePath d f) = formeState s (formePath d f) := by
      rw [formeState_formePath hd hf, formeState_formePath hd hf, hfrm]
    rw [ht, hwake, State.when_true]
    refine wakeEvery_wakes hd hf (.inr ?_)
    rw [formeGated, hstate]
    rcases hgated with hgated | hgated <;> rw [hgated] <;> rfl

/-! ### COOLANT_N and the management cap (R464, R500) -/

theorem regN_setCap {o : Nat} (ho : o ≠ 0x90) (v : Nat) : (setCap o v s).regN (powerPage 0 + o) = bits v 11 0 := by
  have hv : bits v 11 0 % 2 ^ 32 = bits v 11 0 := Nat.mod_eq_of_lt (Nat.lt_trans (bits_lt v 11 0) (by decide))
  have hset : (s.setRegN (powerPage 0 + o) (bits v 11 0)).regN (powerPage 0 + o) = bits v 11 0 :=
    (State.regN_setRegN_same _ _ _).trans hv
  have hne : powerPage 0 + o ≠ powerPage 0 + Fld.PWR_THROTTLE.burst.off := fun he => ho (Nat.add_left_cancel he)
  unfold setCap
  dsimp only
  split
  · exact (State.regN_setFld_ne _ _ _ _ hne).trans hset
  · exact hset

theorem setCap_field {β : Type} (g : State → β) (hreg : ∀ o v t, g (State.setRegN t o v) = g t) (o v : Nat) :
    g (setCap o v s) = g s := by
  unfold setCap
  dsimp only
  split
  · exact (hreg _ _ _).trans (hreg _ _ _)
  · exact hreg _ _ _

theorem regN_setCap_above {o o' : Nat} (v : Nat) (h : mzmPage ≤ o') (ho : o < 0x1000) : (setCap o v s).regN o' = s.regN o' := by
  have hne : o' ≠ powerPage 0 + o := by simp only [powerPage, mzmPage, dieWin] at *; omega
  have hne' : o' ≠ powerPage 0 + Fld.PWR_THROTTLE.burst.off := by
    simp only [powerPage, mzmPage, dieWin, Fld.PWR_THROTTLE.burst] at *
    omega
  unfold setCap
  dsimp only
  split
  · exact (State.regN_setFld_ne _ _ _ _ hne').trans (State.regN_setRegN_ne _ _ hne)
  · exact State.regN_setRegN_ne _ _ hne

/-- COOLANT_N low: the cap of its configuration, where it is set, and the cap it had kept. -/
theorem coolantPin_low (s : State) : let t := coolantPin false s
    t.flag mzmPage Fld.MZM_GPIO_STATUS.coolant_n = false ∧ t.mem = s.mem ∧ t.units = s.units ∧
    (s.mzm.coolSaved = none → s.flag mzmPage Fld.MZM_COOLANT_CFG.cool_act = true →
      t.mzm.coolSaved = some (s.regN (powerPage 0 + 0x8C)) ∧
      t.regN (powerPage 0 + 0x8C) = bits (s.fld mzmPage Fld.MZM_COOLANT_CFG.cool_cap) 11 0) := by
  let low := s.setFlag mzmPage Fld.MZM_GPIO_STATUS.coolant_n false
  have hlow : low.flag mzmPage Fld.MZM_GPIO_STATUS.coolant_n = false := State.flag_setFlag_same s _ _ _
  have hact : low.flag mzmPage Fld.MZM_COOLANT_CFG.cool_act = s.flag mzmPage Fld.MZM_COOLANT_CFG.cool_act :=
    State.flag_setFlag_ne _ _ _ _ _ _ (.inl (by decide))
  have hcap : low.fld mzmPage Fld.MZM_COOLANT_CFG.cool_cap = s.fld mzmPage Fld.MZM_COOLANT_CFG.cool_cap :=
    State.fld_setFld_ne _ _ _ _ _ _ (.inl (by decide))
  have hold : low.regN (powerPage 0 + 0x8C) = s.regN (powerPage 0 + 0x8C) := State.regN_setFld_ne _ _ _ _ (by decide)
  dsimp only
  cases ha : s.flag mzmPage Fld.MZM_COOLANT_CFG.cool_act with
  | false =>
    have ht : coolantPin false s = low := by
      show coolantAct low = low
      simp [coolantAct, hlow, hact, ha]
    rw [ht]
    exact ⟨hlow, rfl, rfl, fun _ h => absurd h Bool.false_ne_true⟩
  | true =>
    have ht : coolantPin false s = setCap 0x8C (s.fld mzmPage Fld.MZM_COOLANT_CFG.cool_cap)
        { low with mzm := { low.mzm with coolSaved := some (low.mzm.coolSaved.getD (low.regN (powerPage 0 + 0x8C))) } } := by
      show coolantAct low = _
      simp [coolantAct, hlow, hact, ha, hcap]
    rw [ht]
    refine ⟨?_, setCap_field (·.mem) (fun _ _ _ => rfl) _ _, setCap_field (·.units) (fun _ _ _ => rfl) _ _, fun hsaved _ =>
      ⟨(setCap_field (·.mzm.coolSaved) (fun _ _ _ => rfl) _ _).trans ?_, regN_setCap (by decide) _⟩⟩
    · exact (congrArg (fun w => bits w 1 1 == 1) (regN_setCap_above _ (by decide) (by decide))).trans hlow
    · have hnone : low.mzm.coolSaved = none := hsaved
      simp only [hnone, Option.getD_none, hold]

/-- COOLANT_N high again: the cap that was kept. -/
theorem coolantPin_high {w : Nat} (h : s.mzm.coolSaved = some w) : let t := coolantPin true s
    t.mzm.coolSaved = none ∧ t.regN (powerPage 0 + 0x8C) = bits w 11 0 ∧ t.mem = s.mem ∧ t.units = s.units := by
  let high := s.setFlag mzmPage Fld.MZM_GPIO_STATUS.coolant_n true
  have hhigh : high.flag mzmPage Fld.MZM_GPIO_STATUS.coolant_n = true := State.flag_setFlag_same s _ _ _
  have hsaved : high.mzm.coolSaved = some w := h
  have ht : coolantPin true s = setCap 0x8C w { high with mzm := { high.mzm with coolSaved := none } } := by
    show coolantAct high = _
    simp [coolantAct, hhigh, hsaved]
  dsimp only
  rw [ht]
  exact ⟨setCap_field (·.mzm.coolSaved) (fun _ _ _ => rfl) _ _, regN_setCap (by decide) _,
    setCap_field (·.mem) (fun _ _ _ => rfl) _ _, setCap_field (·.units) (fun _ _ _ => rfl) _ _⟩

/-! ### Completion interrupts (R490) -/

/-- The pending completions of a vector. -/
def pendOf (s : State) (fn vec : Nat) : IrqPend := SMap.get (fun _ => (⟨0, 0⟩ : IrqPend)) s.irqs (fn * 64 + vec)

theorem holdoffExpiry_waits {vec : Nat} (h : (pendOf s fn vec).count = 0 ∨ s.time < (pendOf s fn vec).since + bits (coalOf s fn) 15 0) :
    holdoffExpiry fn vec s = s := by
  unfold holdoffExpiry
  refine if_neg fun hc => ?_
  simp only [Bool.and_eq_true, decide_eq_true_eq] at hc
  unfold pendOf at h
  omega

theorem holdoffExpiry_sends {vec : Nat} (hv : vec < 64) (hc : 0 < (pendOf s fn vec).count)
    (ht : (pendOf s fn vec).since + bits (coalOf s fn) 15 0 ≤ s.time) : holdoffExpiry fn vec s = irqSend fn vec s := by
  unfold holdoffExpiry
  refine if_pos ?_
  unfold pendOf at hc ht
  simp only [Bool.and_eq_true, decide_eq_true_eq]
  exact ⟨⟨hv, hc⟩, ht⟩

theorem irqSend_spec (s : State) (fn vec : Nat) : let t := irqSend fn vec s
    (pendOf t fn vec).count = 0 ∧ (vecHeld s fn vec = false → t.out = s.out ++ [msixMsg s fn vec]) ∧
    (vecHeld s fn vec = true → t.out = s.out) ∧ t.mem = s.mem ∧ t.units = s.units := by
  let cleared := { s with irqs := SMap.set (fun _ => (⟨0, 0⟩ : IrqPend)) s.irqs (fn * 64 + vec) ⟨0, 0⟩ }
  have hheld : vecHeld cleared fn vec = vecHeld s fn vec := rfl
  have hnone : pendOf cleared fn vec = ⟨0, 0⟩ := by simp [pendOf, cleared]
  have ht : irqSend fn vec s = sendVector fn vec cleared := rfl
  have hpend : pendOf (irqSend fn vec s) fn vec = pendOf cleared fn vec := by
    unfold pendOf
    rw [ht]
    simp
  refine ⟨congrArg IrqPend.count (hpend.trans hnone), fun h => ?_, fun h => ?_, ?_, ?_⟩
  · rw [ht, sendVector, hheld, h]
    rfl
  · rw [ht, sendVector, hheld, h]
    rfl
  · rw [ht]; simp [cleared]
  · rw [ht]; simp [cleared]

/-! ### The statement -/

/-- Settles O52: each output follows the supply, the port and the TAP; the owner's rules of the pins are those of one field; and
WAKE_N, COOLANT_N and the holdoff each have their one effect. -/
theorem vectorsAndPins : Obligations.VectorsAndPins := by
  unfold Obligations.VectorsAndPins
  intro s own
  refine ⟨fun h p => ⟨pinFloats_off h p, pinLow_off h p⟩, fun h p => pinFloats_standby h p, fun h => ⟨pinFloats_tdo_run h, fun p _ =>
    ⟨pinFloats_iznTx_run h p, pinLow_iznRdyN_scanned, pinLow_iznRdyN_run h⟩⟩, fun h => ⟨pinLow_faultN_on h, pinLow_smbAlertN_on h⟩,
    fun fn off i v hfn ha htarget => ⟨vectorWrite fn off i v.toNat s, ?_, vectorWrite_spec hfn ha off i v.toNat⟩, ?_, ?_,
    fun level h => congrArg Host.Outcome.next (wakePin_quiet h), fun h => ⟨_, rfl, wakePin_falls h⟩, ⟨_, rfl, coolantPin_low s⟩,
    fun w h => ⟨_, rfl, coolantPin_high h⟩, fun fn vec hv => ⟨fun h => congrArg Host.Outcome.next (holdoffExpiry_waits h), fun hc ht =>
      ⟨irqSend fn vec s, congrArg Host.Outcome.next (holdoffExpiry_sends hv hc ht), irqSend_spec s fn vec⟩⟩⟩
  · have hact : vectorAt fn off v.toNat s = vectorWrite fn off i v.toNat s := by rw [vectorAt, htarget]
    exact congrArg Host.Outcome.next ((posted_admitted ha _ _).trans hact)
  · intro fn hfn ha hr claimer hclaimer
    simp only [List.mem_cons, List.not_mem_nil, or_false] at hclaimer
    rcases hclaimer with rfl | rfl
    · have hdo : exec (.claimWake fn) s = .next (claimWake fn s) :=
        congrArg Host.Outcome.next (posted_gpioWrite hfn ha hr (.claimWake fn) (claimWake fn))
      exact ⟨fun h => hdo.trans (congrArg _ (claim_free h)), fun h h' => hdo.trans (congrArg _ (claim_held h h'))⟩
    · have hdo : exec (.claimFault fn) s = .next (claimFault fn s) :=
        congrArg Host.Outcome.next (posted_gpioWrite hfn ha hr (.claimFault fn) (claimFault fn))
      exact ⟨fun h => hdo.trans (congrArg _ (claim_free h)), fun h h' => hdo.trans (congrArg _ (claim_held h h'))⟩
  · intro fn hfn ha hr
    have hwake : exec (.releaseWake fn) s = .next (releaseWake fn s) :=
    congrArg Host.Outcome.next (posted_gpioWrite hfn ha hr (.releaseWake fn) (releaseWake fn))
    have hfault : exec (.releaseFault fn) s = .next (releaseFault fn s) :=
    congrArg Host.Outcome.next (posted_gpioWrite hfn ha hr (.releaseFault fn) (releaseFault fn))
    exact ⟨fun h => hwake.trans (congrArg _ (releaseOwn_own h)), fun h => hwake.trans (congrArg _ (releaseOwn_other h)),
      fun h => ⟨_, hfault, releaseFault_own h⟩, fun h => hfault.trans (congrArg _ (releaseFault_other h))⟩

end Sys2Proof.Machine

/-! PROOFS. Resets and what they keep, the start-up sequence, Muzomus's start, and the statement about them. -/

namespace Sys2Proof

/-- A table cut to the keys of `p`. -/
theorem SMap.get_filter {α : Type} (p : Nat → Bool) (d : Nat → α) (m : SMap α) (k : Nat) :
    SMap.get d (List.filter (fun e : Nat × α => p e.1) m) k = if p k then SMap.get d m k else d k := by
  induction m with
  | nil => simp [SMap.get]
  | cons e m ih =>
    by_cases hp : p e.1 = true
    · rw [List.filter_cons_of_pos (p := fun e : Nat × α => p e.1) hp]
      by_cases he : e.1 = k
      · subst he; simp [SMap.get, hp]
      · simp only [SMap.get, if_neg he, ih]
    · rw [List.filter_cons_of_neg (p := fun e : Nat × α => p e.1) hp, ih]
      by_cases he : e.1 = k
      · subst he; simp [hp]
      · simp only [SMap.get, if_neg he]

end Sys2Proof

namespace Sys2Proof.Machine

set_option Elab.async false

variable {s : State}

/-! ### What a reset brings and keeps (R457, R459, R463) -/

theorem showCask_field {β : Type} (g : State → β) (hreg : ∀ o v t, g (State.setRegN t o v) = g t) : g (showCask s) = g s := by
  unfold showCask
  dsimp only
  split
  · split
    · exact (hreg _ _ _).trans ((hreg _ _ _).trans ((hreg _ _ _).trans ((hreg _ _ _).trans (hreg _ _ _))))
    · exact hreg _ _ _
  · exact hreg _ _ _

theorem regN_showCask {o : Nat} (h : o < cellarPage) : (showCask s).regN o = s.regN o := by
  have hne : ∀ k, o ≠ cellarPage + k := fun k => Nat.ne_of_lt (Nat.lt_add_right k h)
  unfold showCask
  dsimp only
  split
  · split
    · rw [State.regN_setRegN_ne _ _ (hne _)]
      unfold State.setReg64
      rw [State.regN_setRegN_ne _ _ (hne (0x88 + 4)), State.regN_setRegN_ne _ _ (hne _), State.regN_setFld_ne _ _ _ _ (hne _),
        State.regN_setFld_ne _ _ _ _ (hne _)]
    · exact State.regN_setFld_ne _ _ _ _ (hne _)
  · exact State.regN_setFld_ne _ _ _ _ (hne _)

theorem keptReg_below {o : Nat} (h : o < mzmPage) : keptReg o = false := by
  have hpages : o / 0x1000 < 0x8000 := Nat.div_lt_of_lt_mul h
  have hmzm : o / 0x1000 ≠ mzmPage / 0x1000 := Nat.ne_of_lt hpages
  have hcellar : o / 0x1000 ≠ cellarPage / 0x1000 := Nat.ne_of_lt (Nat.lt_trans hpages (by decide))
  simp [keptReg, hmzm, hcellar]

/-- A reset takes the registers of the dies to their reset values. -/
theorem regN_resetState {o : Nat} (h : o < mzmPage) (kind : Nat) (s : State) : (resetState kind s).regN o = State.reset.regN o := by
  have hcellar : o < cellarPage := Nat.lt_trans h (by decide)
  have hne : ∀ k, o ≠ cellarPage + k := fun k => Nat.ne_of_lt (Nat.lt_add_right k hcellar)
  unfold resetState
  dsimp only
  split
  · rw [regN_showCask hcellar]
    exact State.regN_congr rfl o
  · rw [regN_showCask hcellar, State.regN_setRegN_ne _ _ (hne _)]
    have hkept : SMap.get regReset (keptRegs (restartTime s)) o = regReset o := by
      rw [keptRegs, SMap.get_erase_ne _ _ (hne _), SMap.get_filter, keptReg_below h, if_neg Bool.false_ne_true]
    exact congrArg BitVec.toNat hkept

theorem refreshFault_field {β : Type} (g : State → β) (hreg : ∀ o v t, g (State.setRegN t o v) = g t) : g (refreshFault s) = g s :=
  (hreg _ _ _).trans (hreg _ _ _)

theorem recoolant_field {β : Type} (g : State → β) (hreg : ∀ o v t, g (State.setRegN t o v) = g t)
    (hcool : ∀ c t, g { t with mzm := { t.mzm with coolSaved := c } } = g t) : g (recoolant s) = g s := by
  unfold recoolant
  split
  · exact (hcool _ _).trans (hreg _ _ _)
  · rfl

theorem queueEvent_field {β : Type} (g : State → β) (hout : ∀ m t, g (State.send t m) = g t)
    (hevents : ∀ l t, g { t with events := l } = g t) (id n : Nat) : g (queueEvent id n s) = g s := by
  unfold queueEvent
  split
  · exact hout _ _
  · exact hevents _ _

/-- The module of a reset with its record of why. -/
def resetMark (kind source sub parity : Nat) (s : State) : State :=
  let t := resetState kind s
  { t with mzm := { t.mzm with
    kind := kind, cause := causeWord s kind source sub, causeT := if kind = kPowerOn then 0 else s.time, parity := parityWord s kind source parity
    stormReg := if kind = kPowerOn then bits (regReset (resetPage 0 + 0x9C)).toNat 3 0 else stormWord s source (stormList s source)
    storm := if kind = kPowerOn then [] else stormList s source, deferred := !t.mzm.pulses.isEmpty } }

/-- After its record a reset renews FAULT_N, the cap of COOLANT_N and the event of a new hold. -/
theorem takeReset_field {β : Type} (g : State → β) (hreg : ∀ o v t, g (State.setRegN t o v) = g t)
    (hcool : ∀ c t, g { t with mzm := { t.mzm with coolSaved := c } } = g t) (hout : ∀ m t, g (State.send t m) = g t)
    (hevents : ∀ l t, g { t with events := l } = g t) (kind source sub parity : Nat) (s : State) :
    g (takeReset kind source sub parity s) = g (resetMark kind source sub parity s) :=
  (State.when_field _ g _ _ (queueEvent_field g hout hevents _ _)).trans
    ((recoolant_field g hreg hcool).trans (refreshFault_field g hreg))

theorem regN_takeReset {o : Nat} (h : o < mzmPage) (hcap : o ≠ powerPage 0 + 0x8C) (kind source sub parity : Nat) (s : State) :
    (takeReset kind source sub parity s).regN o = State.reset.regN o := by
  have hqueue : ∀ c t, (State.when t c (queueEvent 0x2002 3)).regN o = t.regN o := fun c t =>
    State.when_field t (·.regN o) c _ (State.regN_congr (queueEvent_frame _ _ _).2.1 o)
  have hcool : ∀ t, (recoolant t).regN o = t.regN o := fun t => by
    unfold recoolant
    split
    · exact State.regN_setRegN_ne _ _ hcap
    · rfl
  have hfault : ∀ t, (refreshFault t).regN o = t.regN o := fun t =>
    (State.regN_setFld_ne _ _ _ _ (Nat.ne_of_lt (Nat.lt_add_right _ h))).trans
      (State.regN_setFld_ne _ _ _ _ (Nat.ne_of_lt (Nat.lt_add_right _ h)))
  calc (takeReset kind source sub parity s).regN o
      = (resetMark kind source sub parity s).regN o := (hqueue _ _).trans ((hcool _).trans (hfault _))
    _ = (resetState kind s).regN o := State.regN_congr rfl o
    _ = State.reset.regN o := regN_resetState h kind s

/-- Step 1 of start-up: nothing runs, and what lies on the Cellar and the queue of commands stand. -/
def Restarted (s t : State) : Prop :=
  t.time = 0 ∧ startStep t = 1 ∧ t.flag (resetPage 0) Fld.RST_STATUS.ready = false ∧ t.cores = [] ∧ t.units = [] ∧ t.streams = [] ∧
  t.tiers.regions = [] ∧ t.stopped = false ∧ t.pending = s.pending ∧ (∀ b, 2 ^ 54 ≤ b → b < 2 ^ 55 → t.byte b = s.byte b) ∧
  t.cask.slotA = s.cask.slotA ∧ t.cask.slotB = s.cask.slotB

/-- What every reset makes of a module, but for the registers, events, management and monitors that some keep. -/
def resetBase (s : State) : State := { State.reset with
  pending := s.pending, free := s.free, out := s.out, mem := List.filter (fun e : Host.Cell => keptKey e.1) s.mem
  ecc := List.filter (fun e : Nat × Nat => keptKey (8 * e.1)) s.ecc
  cols := List.map (fun e : Nat × ColSt => (e.1, { e.2 with discarded := 0 })) s.cols, cask := keptCask s.cask
  power := { PowerSt.reset with
    vin := s.power.vin, volts := s.power.volts, amps := s.power.amps, tripped := s.power.tripped, overTicks := s.power.overTicks } }

theorem resetState_field {β : Type} (g : State → β) (hreg : ∀ o v t, g (State.setRegN t o v) = g t)
    (h : ∀ r e m l, g { resetBase s with regs := r, events := e, mzm := m, mons := l } = g (resetBase s)) (kind : Nat) :
    g (resetState kind s) = g (resetBase s) := by
  unfold resetState
  dsimp only
  split
  · exact (showCask_field g hreg).trans (h State.reset.regs State.reset.events _ State.reset.mons)
  · exact (showCask_field g hreg).trans ((hreg _ _ _).trans (h _ _ _ _))

/-- A field that neither a register nor the record of a reset reaches. -/
theorem takeReset_base {β : Type} (g : State → β) (hreg : ∀ o v t, g (State.setRegN t o v) = g t)
    (hmzm : ∀ m t, g { t with mzm := m } = g t) (hout : ∀ m t, g (State.send t m) = g t)
    (hevents : ∀ l t, g { t with events := l } = g t)
    (h : ∀ r e m l, g { resetBase s with regs := r, events := e, mzm := m, mons := l } = g (resetBase s)) (kind source sub parity : Nat) :
    g (takeReset kind source sub parity s) = g (resetBase s) :=
  (takeReset_field g hreg (fun _ _ => hmzm _ _) hout hevents kind source sub parity s).trans
    ((hmzm _ _).trans (resetState_field g hreg h kind))

theorem takeReset_restarted (kind source sub parity : Nat) (s : State) : Restarted s (takeReset kind source sub parity s) := by
  have hrst : (takeReset kind source sub parity s).regN (resetPage 0 + 0x94) = State.reset.regN (resetPage 0 + 0x94) :=
    regN_takeReset (by decide) (by decide) kind source sub parity s
  have hready : State.reset.flag (resetPage 0) Fld.RST_STATUS.ready = false := by decide
  have hrest := takeReset_base (s := s)
    (fun t => (t.time, t.cores, t.units, t.streams, t.tiers, t.stopped, t.pending, t.mem, t.cask)) (fun _ _ _ => rfl) (fun _ _ => rfl)
    (fun _ _ => rfl) (fun _ _ => rfl) (fun _ _ _ _ => rfl) kind source sub parity
  simp only [Prod.mk.injEq] at hrest
  obtain ⟨htime, hcores, hunits, hstreams, htiers, hstopped, hpending, hmem, hcask⟩ := hrest
  refine ⟨htime, (congrArg (bits · 3 0) hrst).trans startStep_reset, (congrArg (fun w => bits w 4 4 == 1) hrst).trans hready, hcores,
    hunits, hstreams, congrArg (·.regions) htiers, hstopped, hpending, fun b hlow hhigh => ?_, congrArg (·.slotA) hcask,
    congrArg (·.slotB) hcask⟩
  have hkept : keptKey b = true := by simp [keptKey]; omega
  exact (State.byte_congr hmem b).trans ((SMap.get_filter keptKey memDefault s.mem b).trans (if_pos hkept))

/-! ### Why a reset was taken -/

theorem takeReset_kind (kind source sub parity : Nat) (s : State) : (takeReset kind source sub parity s).mzm.kind = kind :=
  takeReset_field (·.mzm.kind) (fun _ _ _ => rfl) (fun _ _ => rfl) (fun _ _ => rfl) (fun _ _ => rfl) kind source sub parity s

theorem takeReset_parity (kind source sub parity : Nat) (s : State) :
    (takeReset kind source sub parity s).mzm.parity = parityWord s kind source parity :=
  takeReset_field (·.mzm.parity) (fun _ _ _ => rfl) (fun _ _ => rfl) (fun _ _ => rfl) (fun _ _ => rfl) kind source sub parity s

/-- RST_CAUSE names the source. -/
theorem takeReset_cause {source : Nat} (h : source < 256) (kind sub parity : Nat) (s : State) :
    bits (takeReset kind source sub parity s).mzm.cause 7 0 = source := by
  have hcause : (takeReset kind source sub parity s).mzm.cause = causeWord s kind source sub :=
    takeReset_field (·.mzm.cause) (fun _ _ _ => rfl) (fun _ _ => rfl) (fun _ _ => rfl) (fun _ _ => rfl) kind source sub parity s
  rw [hcause, causeWord]
  generalize (if kind = kPowerOn then 1 else min 65535 (bits s.mzm.cause 31 16 + 1)) = count
  unfold bits
  omega

theorem takeReset_boots (source sub parity : Nat) (s : State) :
    (takeReset kPowerOn source sub parity s).mzm.boots = s.mzm.boots + 1 := by
  have hmark : (takeReset kPowerOn source sub parity s).mzm.boots = (resetState kPowerOn s).mzm.boots :=
    takeReset_field (·.mzm.boots) (fun _ _ _ => rfl) (fun _ _ => rfl) (fun _ _ => rfl) (fun _ _ => rfl) kPowerOn source sub parity s
  refine hmark.trans ?_
  rw [resetState, if_pos rfl]
  exact showCask_field (·.mzm.boots) (fun _ _ _ => rfl)

/-- Muzomus's own state stands in a reset that it takes. -/
theorem takeReset_restarting {kind : Nat} (h : kind ≠ kPowerOn) (source sub parity : Nat) (s : State) :
    (takeReset kind source sub parity s).mzm.restarting = s.mzm.restarting := by
  have hmark : (takeReset kind source sub parity s).mzm.restarting = (resetState kind s).mzm.restarting :=
    takeReset_field (·.mzm.restarting) (fun _ _ _ => rfl) (fun _ _ => rfl) (fun _ _ => rfl) (fun _ _ => rfl) kind source sub parity s
  refine hmark.trans ?_
  rw [resetState, if_neg h]
  exact showCask_field (·.mzm.restarting) (fun _ _ _ => rfl)

theorem takeReset_vin (kind source sub parity : Nat) (s : State) : (takeReset kind source sub parity s).power.vin = s.power.vin :=
  takeReset_base (·.power.vin) (fun _ _ _ => rfl) (fun _ _ => rfl) (fun _ _ => rfl) (fun _ _ => rfl) (fun _ _ _ _ => rfl)
    kind source sub parity

theorem assertReset_other {source : Nat} (h : source = 0 ∨ 7 < source) (hne : source ≠ 0x15) : assertReset source s = s := by
  unfold assertReset
  split
  case h_9 => rfl
  all_goals omega

theorem assertReset_module {source : Nat} (hlow : 3 ≤ source) (hhigh : source ≤ 7) :
    ∃ parity, assertReset source s = takeReset kModule source 0 parity s := by
  obtain rfl | rfl | rfl | rfl | rfl : source = 3 ∨ source = 4 ∨ source = 5 ∨ source = 6 ∨ source = 7 := by omega
  exacts [⟨0, rfl⟩, ⟨0, rfl⟩, ⟨0, rfl⟩, ⟨2 ^ 28, rfl⟩, ⟨0, rfl⟩]

/-! ### Pulses (R464, log 69) -/

theorem colFlush_busy (d : Nat) (h : cellarBusy s = true) : colFlush d s = s := if_pos h

theorem cellarFree_busy (h : cellarBusy s = true) : cellarFree s = s := by
  rw [cellarFree, colFlush_busy 0 h, colFlush_busy 1 h]
  exact if_pos h

theorem nvPulseEnd_idle (h : s.mzm.pulses = []) : nvPulseEnd s = s := by
  unfold nvPulseEnd
  rw [h]

/-- A pulse that ends while one to the Cellar runs. -/
theorem nvPulseEnd_leaves {p : Nat} {ps : List Nat} (h : s.mzm.pulses = p :: ps) (hp : p ≠ 0) (hps : 2 ∈ ps)
    (hdue : s.mzm.restartDue = false) : nvPulseEnd s = { s with mzm := { s.mzm with pulses := ps } } := by
  have hempty : ps.isEmpty = false := by
    cases ps with
    | nil => exact absurd hps List.not_mem_nil
    | cons => rfl
  have hbusy : cellarBusy { s with mzm := { s.mzm with pulses := ps } } = true := by simp [cellarBusy, hps]
  have hnor : (p == 0) = false := beq_false_of_ne hp
  refine Eq.trans ?_ (cellarFree_busy hbusy)
  unfold nvPulseEnd
  rw [h]
  simp only [hnor, State.when_false, hempty, Bool.not_false, Bool.and_true, hdue, Bool.false_and]

/-! ### The steps of start-up (R457, R469, R472) -/

theorem resetPage_ne : resetPage 0 + Fld.RST_STATUS.step.off ≠ resetPage 1 + Fld.RST_STATUS.step.off := by decide

theorem startStep_setStep {n : Nat} (hn : n < 16) (s : State) : startStep (setStep n s) = n := by
  have hlast : startStep (setStep n s) = startStep (s.setFld (resetPage 0) Fld.RST_STATUS.step n) :=
    State.fld_setFld_ne _ _ _ _ _ _ (.inl resetPage_ne)
  rw [hlast, startStep, State.fld_setFld_same _ _ _ _ (by decide) (by decide)]
  exact Nat.mod_eq_of_lt hn

theorem setStep_field {β : Type} (g : State → β) (hreg : ∀ o v t, g (State.setRegN t o v) = g t) (n : Nat) (s : State) :
    g (setStep n s) = g s := State.each_field s g _ (fun _ _ => hreg _ _ _) _

theorem startupStep_held {ok : Bool} {l : List Nat} (h : diesHeld s = true) : startupStep ok l s = s := if_pos h

theorem startupStep_moves {ok : Bool} {l : List Nat} {n : Nat} {t : State} (hheld : diesHeld s = false) (h : stepAction ok l s = some (t, n)) :
    startupStep ok l s = setStep n t := by
  rw [startupStep, hheld, if_neg Bool.false_ne_true, h]

theorem startupStep_waits {ok : Bool} {l : List Nat} (hheld : diesHeld s = false) (h : stepAction ok l s = none) :
    startupStep ok l s = s := by
  rw [startupStep, hheld, if_neg Bool.false_ne_true, h]

theorem setProof_field {β : Type} (g : State → β) (hreg : ∀ o v t, g (State.setRegN t o v) = g t)
    (hmon : ∀ d m t, g (State.setMon t d m) = g t) (d : Nat) (on : Bool) (s : State) : g (setProof d on s) = g s := by
  unfold setProof
  split
  · rfl
  · dsimp only
    split
    · exact (hmon _ _ _).trans (hreg _ _ _)
    · exact hreg _ _ _

/-- What the steps up to the release of the fabric leave as it is: units and streams. -/
theorem releaseManagement_rest (s : State) :
    (releaseManagement s).units = s.units ∧ (releaseManagement s).streams = s.streams := by
  have hkeep : ∀ {β : Type} (g : State → β), (∀ o v t, g (State.setRegN t o v) = g t) → (∀ d m t, g (State.setMon t d m) = g t) →
      g (releaseManagement s) = g s := fun g hreg hmon =>
    (setProof_field g hreg hmon _ _ _).trans ((setProof_field g hreg hmon _ _ _).trans ((hreg _ _ _).trans ((hreg _ _ _).trans
      ((hreg _ _ _).trans ((hreg _ _ _).trans ((hreg _ _ _).trans ((hreg _ _ _).trans (hreg _ _ _))))))))
  exact ⟨hkeep (·.units) (fun _ _ _ => rfl) (fun _ _ _ => rfl), hkeep (·.streams) (fun _ _ _ => rfl) (fun _ _ _ => rfl)⟩

theorem applyRepair_field {β : Type} (g : State → β) (hreg : ∀ o v t, g (State.setRegN t o v) = g t) (d k : Nat) (s : State) :
    g (applyRepair d k s) = g s := by
  unfold applyRepair
  dsimp only
  rw [State.when_field _ g _ _ (hreg _ _ _),
    State.each_field _ g _ (fun _ _ => (State.when_field _ g _ _ (hreg _ _ _)).trans (hreg _ _ _))]
  exact hreg _ _ _

theorem readOptions_rest (s : State) : (readOptions s).units = s.units ∧ (readOptions s).streams = s.streams := by
  have hkeep : ∀ {β : Type} (g : State → β), (∀ o v t, g (State.setRegN t o v) = g t) → (∀ m t, g { t with mzm := m } = g t) →
      (∀ a l t, g (State.setBytes t a l) = g t) → g (readOptions s) = g s := fun g hreg hmzm hbytes => by
    unfold readOptions
    dsimp only
    refine (refreshFault_field g hreg).trans ?_
    refine (State.each_field _ g _ (fun _ _ => State.each_field _ g _ (fun _ _ => applyRepair_field g hreg _ _ _) _) _).trans ?_
    refine (State.each_field _ g _ (fun _ _ => ?_) _).trans ((hbytes _ _ _).trans (hmzm _ _))
    exact (hreg _ _ _).trans ((hreg _ _ _).trans ((hreg _ _ _).trans (hreg _ _ _)))
  exact ⟨hkeep (·.units) (fun _ _ _ => rfl) (fun _ _ => rfl) (fun _ _ _ => by simp),
    hkeep (·.streams) (fun _ _ _ => rfl) (fun _ _ => rfl) (fun _ _ _ => by simp)⟩

theorem bridgeRecord_frame (s : State) : (bridgeRecord s).units = s.units ∧ (bridgeRecord s).streams = s.streams ∧
    (bridgeRecord s).time = s.time ∧ (bridgeRecord s).regs = s.regs := by
  simp [bridgeRecord, colBoth]

/-- Step 7: the fabric's time starts and the bridge is up or down. -/
theorem releaseFabric_spec (ok : Bool) (s : State) : (releaseFabric ok s).units = s.units ∧ (releaseFabric ok s).streams = s.streams ∧
    (releaseFabric ok s).time = 0 ∧ (releaseFabric ok s).flag (dieTopPage 0) Fld.DIE_BRG_STATUS.link_up = ok ∧
    (releaseFabric ok s).flag (dieTopPage 1) Fld.DIE_BRG_STATUS.down = !ok := by
  let linked := (restartTime s).each [0, 1] (fun d s =>
    (s.setFlag (dieTopPage d) Fld.DIE_BRG_STATUS.link_up ok).setFlag (dieTopPage d) Fld.DIE_BRG_STATUS.down (!ok))
  have hrest : (releaseFabric ok s).units = linked.units ∧ (releaseFabric ok s).streams = linked.streams ∧
      (releaseFabric ok s).time = linked.time ∧ (releaseFabric ok s).regs = linked.regs := by
    cases ok
    · exact bridgeRecord_frame linked
    · exact ⟨rfl, rfl, rfl, rfl⟩
  obtain ⟨hunits, hstreams, htime, hregs⟩ := hrest
  have hup : linked.flag (dieTopPage 0) Fld.DIE_BRG_STATUS.link_up = ok := by
    refine (State.flag_setFlag_ne _ _ _ _ _ _ (.inl (by decide))).trans ?_
    refine (State.flag_setFlag_ne _ _ _ _ _ _ (.inl (by decide))).trans ?_
    refine (State.flag_setFlag_ne _ _ _ _ _ _ (.inr (by decide))).trans ?_
    exact State.flag_setFlag_same _ _ _ _
  have hdown : linked.flag (dieTopPage 1) Fld.DIE_BRG_STATUS.down = !ok := State.flag_setFlag_same _ _ _ _
  refine ⟨hunits, hstreams, htime, ?_, ?_⟩
  · exact (congrArg (fun w => bits w 0 0 == 1) (State.regN_congr hregs _)).trans hup
  · exact (congrArg (fun w => bits w 2 2 == 1) (State.regN_congr hregs _)).trans hdown

theorem zeroTested_frame (s : State) : (zeroTested s).streams = s.streams := by
  unfold zeroTested
  dsimp only
  rw [State.each_field _ (·.streams)]
  intro ch t
  rfl

theorem flag_setProof (d b : Nat) (on : Bool) (f : Fld) (s : State) (h : proofMode s d ≠ on) :
    (setProof d on s).flag b f = (s.setFlag (monPage d) Fld.MON_CTRL.proof on).flag b f := by
  unfold setProof
  rw [if_neg (fun he => h (beq_iff_eq.1 he))]
  dsimp only
  split
  · exact State.flag_congr (State.setMon_regs _ _ _) b f
  · rfl

theorem proofMode_setProof (d : Nat) (on : Bool) (s : State) : proofMode (setProof d on s) d = on := by
  by_cases h : proofMode s d = on
  · have hsame : setProof d on s = s := if_pos (beq_iff_eq.2 h)
    rw [hsame, h]
  · exact (flag_setProof d _ on _ s h).trans (State.flag_setFlag_same _ _ _ _)

theorem proofMode_setProof_other {d e : Nat} (hd : monPage d ≠ monPage e) (on : Bool) (s : State) :
    proofMode (setProof e on s) d = proofMode s d := by
  by_cases h : proofMode s e = on
  · have hsame : setProof e on s = s := if_pos (beq_iff_eq.2 h)
    rw [hsame]
  · exact (flag_setProof e _ on _ s h).trans
      (State.flag_setFlag_ne _ _ _ _ _ _ (.inl fun he => hd (Nat.add_right_cancel he)))

/-- Both dies show ready, with its event. -/
def showReady (s : State) : State :=
  s.each [0, 1] (fun d s => raiseEv (resetPage d) 0 (s.setFlag (resetPage d) Fld.RST_STATUS.ready true))

theorem regN_showReady {o : Nat} (hpage : ∀ d, d ≤ 1 → o ≠ resetPage d + 0x20 ∧ o ≠ resetPage d + 0x94) (ho : o % 4096 ≠ 2048) (s : State) :
    (showReady s).regN o = s.regN o := by
  have hstep : ∀ d t, d ≤ 1 →
      (raiseEv (resetPage d) 0 (State.setFlag t (resetPage d) Fld.RST_STATUS.ready true)).regN o = t.regN o := fun d t hd =>
    (regN_raiseEv _ (hpage d hd).1 ho).trans (State.regN_setFld_ne _ _ _ _ (hpage d hd).2)
  exact (hstep 1 _ (by decide)).trans (hstep 0 s (by decide))

theorem showReady_ready (s : State) : (showReady s).flag (resetPage 0) Fld.RST_STATUS.ready = true :=
  (flag_raiseEv _ (by decide) (by decide)).trans ((State.flag_setFlag_ne _ _ _ _ _ _ (.inl (by decide))).trans
    ((flag_raiseEv _ (by decide) (by decide)).trans (State.flag_setFlag_same _ _ _ _)))

theorem showReady_streams (s : State) : (showReady s).streams = s.streams := by
  simp [showReady]

theorem proofMode_showReady (d : Nat) (s : State) : proofMode (showReady s) d = proofMode s d := by
  have hother : ∀ e, e ≤ 1 → monPage d + 0x80 ≠ resetPage e + 0x20 ∧ monPage d + 0x80 ≠ resetPage e + 0x94 := by
    intro e he
    simp only [monPage, resetPage, dieWin]
    omega
  have hpend : (monPage d + 0x80) % 4096 ≠ 2048 := by simp only [monPage, dieWin]; omega
  exact congrArg (fun w => bits w 0 0 == 1) (regN_showReady hother hpend s)

/-- The Colophons' records of a start. -/
def noteStart (s : State) : State := s.each [0, 1] (fun d s => colAppend d 0x01 (powerOnPayload s d) s)

theorem noteStart_frame (s : State) : (noteStart s).regs = s.regs ∧ (noteStart s).streams = s.streams :=
  ⟨State.each_field _ (·.regs) _ (fun _ _ => by simp) _, State.each_field _ (·.streams) _ (fun _ _ => by simp) _⟩

theorem becomeReady_eq (s : State) : becomeReady s = showReady (noteStart (setProof 1 false (setProof 0 false (zeroTested s)))) := by
  unfold becomeReady showReady noteStart
  rfl

/-- Step 10: ready, and the proof modes of the start end. -/
theorem becomeReady_spec (s : State) : (becomeReady s).flag (resetPage 0) Fld.RST_STATUS.ready = true ∧
    proofMode (becomeReady s) 0 = false ∧ proofMode (becomeReady s) 1 = false ∧ (becomeReady s).streams = s.streams := by
  obtain ⟨hregs, hstreams⟩ := noteStart_frame (setProof 1 false (setProof 0 false (zeroTested s)))
  have hnoted : ∀ d, proofMode (noteStart (setProof 1 false (setProof 0 false (zeroTested s)))) d =
      proofMode (setProof 1 false (setProof 0 false (zeroTested s))) d := fun d => State.flag_congr hregs _ _
  rw [becomeReady_eq, proofMode_showReady, proofMode_showReady, showReady_streams, hnoted, hnoted, hstreams]
  refine ⟨showReady_ready _, ?_, proofMode_setProof 1 false _, ?_⟩
  · exact (proofMode_setProof_other (by decide) false _).trans (proofMode_setProof 0 false _)
  · exact (setProof_field (·.streams) (fun _ _ _ => rfl) (fun _ _ _ => rfl) _ _ _).trans
      ((setProof_field (·.streams) (fun _ _ _ => rfl) (fun _ _ _ => rfl) _ _ _).trans (zeroTested_frame s))

/-! ### The bulk tiers' end (R476) -/

theorem bulkZeroDone_still {d : Nat} (h : s.flag (resetPage d) Fld.RST_STATUS.ready = false ∨
    s.flag (resetPage d) Fld.RST_STATUS.bulk_ready = true) : bulkZeroDone d s = s := by
  refine if_neg fun hc => ?_
  rcases h with h | h <;> simp [h] at hc

theorem when_raiseEv_frame (c : Bool) (b k : Nat) (s : State) :
    (s.when c (raiseEv b k)).mem = s.mem ∧ (s.when c (raiseEv b k)).units = s.units := by
  cases c <;> simp

theorem bulkZeroDone_shows {d : Nat} (hd : d < 2) (hready : s.flag (resetPage d) Fld.RST_STATUS.ready = true)
    (hbulk : s.flag (resetPage d) Fld.RST_STATUS.bulk_ready = false) : let t := bulkZeroDone d s
    t.flag (resetPage d) Fld.RST_STATUS.bulk_ready = true ∧ t.mem = s.mem ∧ t.units = s.units ∧
    (s.flag (resetPage (1 - d)) Fld.RST_STATUS.bulk_ready = true → bit (t.regN (resetPage 0 + 0x20)) 1 = true) := by
  let shown := s.setFlag (resetPage d) Fld.RST_STATUS.bulk_ready true
  have hpages : resetPage (1 - d) + Fld.RST_STATUS.bulk_ready.off ≠ resetPage d + Fld.RST_STATUS.bulk_ready.off ∧
      resetPage d + Fld.RST_STATUS.bulk_ready.off ≠ resetPage 0 + 0x20 ∧ (resetPage d + Fld.RST_STATUS.bulk_ready.off) % 4096 ≠ 2048 := by
    simp only [resetPage, dieWin, Fld.RST_STATUS.bulk_ready]
    omega
  obtain ⟨hother, hraw, hpend⟩ := hpages
  have hsibling : shown.flag (resetPage (1 - d)) Fld.RST_STATUS.bulk_ready = s.flag (resetPage (1 - d)) Fld.RST_STATUS.bulk_ready :=
    State.flag_setFlag_ne _ _ _ _ _ _ (.inl hother)
  have ht : bulkZeroDone d s = shown.when (s.flag (resetPage (1 - d)) Fld.RST_STATUS.bulk_ready) (raiseEv (resetPage 0) 1) := by
    rw [← hsibling, bulkZeroDone, if_pos (by simp [hready, hbulk])]
  obtain ⟨hmem, hunits⟩ := when_raiseEv_frame (s.flag (resetPage (1 - d)) Fld.RST_STATUS.bulk_ready) (resetPage 0) 1 shown
  dsimp only
  rw [ht]
  refine ⟨?_, hmem.trans (State.setFlag_mem s _ _ _), hunits.trans (State.setFlag_units s _ _ _), fun h => ?_⟩
  · exact (State.when_field _ (State.flag · (resetPage d) Fld.RST_STATUS.bulk_ready) _ _ (flag_raiseEv _ hraw hpend)).trans
      (State.flag_setFlag_same _ _ _ _)
  · rw [h, State.when_true]
    exact bit_raiseEv _ (by decide) (by decide)

/-! ### Muzomus's start (R473, R474) -/

theorem muzomusStart_still {a b : Bool} (h : s.mzm.restarting = false ∨ s.power.vin = 0 ∨ mzmPulses s.mzm.pulses = true) :
    muzomusStart a b s = s := by
  refine if_pos ?_
  rcases h with h | h | h <;> simp [h]

/-- Muzomus runs with the security version `w`. -/
def runMuzomus (w : Nat) (s : State) : State := { s with mzm := { s.mzm with restarting := false, secure := w } }

/-- A module in RUN whose Muzomus has no bank to run. -/
def fallBack (s : State) : State := takeReset kCold 5 0 0 { s with power := { s.power with vin := 1 } }

/-- MZM_STATUS of a start, and FAULT_N with it. -/
def showBank (recovery bank : Bool) (s : State) : State :=
  refreshFault ((s.setFlag mzmPage Fld.MZM_STATUS.recovery recovery).setFlag mzmPage Fld.MZM_STATUS.bank bank)

/-- The bank B that verifies. -/
def bankBOk (s : State) (b : Bool) : Bool := b && decide (s.mzm.secure ≤ s.mzm.bankB.security)

/-- Bank A verifies where its security version does not lie below the module's. -/
theorem muzomusStart_runs (hrestart : s.mzm.restarting = true) (hvin : s.power.vin ≠ 0) (hpulse : mzmPulses s.mzm.pulses = false)
    (hsecure : s.mzm.secure ≤ s.mzm.bankA.security) (a b : Bool) : ∃ w, muzomusStart a b s =
      showBank (!(a || bankBOk s b)) (bankBOk s b && (!a || decide (s.mzm.bankA.version < s.mzm.bankB.version)))
        ((runMuzomus w s).when (!(a || bankBOk s b) && s.power.vin == 2) fallBack) := by
  refine ⟨if a || bankBOk s b then max s.mzm.secure (if bankBOk s b && (!a || decide (s.mzm.bankA.version < s.mzm.bankB.version)) then
    s.mzm.bankB else s.mzm.bankA).security else s.mzm.secure, ?_⟩
  unfold muzomusStart
  rw [if_neg (by simp [hrestart, hvin, hpulse])]
  simp only [hsecure, decide_true, Bool.and_true]
  rfl

theorem showBank_field {β : Type} (g : State → β) (hreg : ∀ o v t, g (State.setRegN t o v) = g t) (r u : Bool) (s : State) :
    g (showBank r u s) = g s := (refreshFault_field g hreg).trans ((hreg _ _ _).trans (hreg _ _ _))

theorem regN_refreshFault {o : Nat} (h : o ≠ mzmPage + 0x84) (s : State) : (refreshFault s).regN o = s.regN o :=
  (State.regN_setFld_ne _ _ _ _ h).trans (State.regN_setFld_ne _ _ _ _ h)

theorem showBank_recovery (r u : Bool) (s : State) : (showBank r u s).flag mzmPage Fld.MZM_STATUS.recovery = r := by
  have hword := regN_refreshFault (o := mzmPage + 0x8C) (by decide)
    ((s.setFlag mzmPage Fld.MZM_STATUS.recovery r).setFlag mzmPage Fld.MZM_STATUS.bank u)
  exact (congrArg (fun w => bits w 9 9 == 1) hword).trans
    ((State.flag_setFlag_ne _ _ _ _ _ _ (.inr (by decide))).trans (State.flag_setFlag_same _ _ _ _))

theorem showBank_bank (r u : Bool) (s : State) : (showBank r u s).flag mzmPage Fld.MZM_STATUS.bank = u := by
  have hword := regN_refreshFault (o := mzmPage + 0x8C) (by decide)
    ((s.setFlag mzmPage Fld.MZM_STATUS.recovery r).setFlag mzmPage Fld.MZM_STATUS.bank u)
  exact (congrArg (fun w => bits w 10 10 == 1) hword).trans (State.flag_setFlag_same _ _ _ _)

theorem startStep_showBank (r u : Bool) (s : State) : startStep (showBank r u s) = startStep s := by
  have hword : (showBank r u s).regN (resetPage 0 + 0x94) = s.regN (resetPage 0 + 0x94) :=
    (regN_refreshFault (by decide) _).trans ((State.regN_setFld_ne _ _ _ _ (by decide)).trans (State.regN_setFld_ne _ _ _ _ (by decide)))
  exact congrArg (bits · 3 0) hword

theorem fallBack_runMuzomus_restarting (w : Nat) (c : Bool) (s : State) : ((runMuzomus w s).when c fallBack).mzm.restarting = false :=
  State.when_field _ (·.mzm.restarting) _ _ (takeReset_restarting (by decide) 5 0 0 _)

theorem muzomusStart_spec (hrestart : s.mzm.restarting = true) (hvin : s.power.vin ≠ 0) (hpulse : mzmPulses s.mzm.pulses = false)
    (hsecure : s.mzm.secure ≤ s.mzm.bankA.security) (a b : Bool) : let t := muzomusStart a b s
    t.mzm.restarting = false ∧ (a = true ∨ s.power.vin = 1 → t.mem = s.mem ∧ t.units = s.units) ∧
    (a = true → b = false → t.flag mzmPage Fld.MZM_STATUS.recovery = false ∧ t.flag mzmPage Fld.MZM_STATUS.bank = false) ∧
    (a = false → b = false → t.flag mzmPage Fld.MZM_STATUS.recovery = true ∧
      (s.power.vin = 2 → t.power.vin = 1 ∧ startStep t = 1 ∧ bits t.mzm.cause 7 0 = 5)) := by
  obtain ⟨w, ht⟩ := muzomusStart_runs hrestart hvin hpulse hsecure a b
  dsimp only
  rw [ht, showBank_recovery, showBank_bank, startStep_showBank, showBank_field (·.mzm.restarting) (fun _ _ _ => rfl),
    showBank_field (·.mem) (fun _ _ _ => rfl), showBank_field (·.units) (fun _ _ _ => rfl),
    showBank_field (·.power.vin) (fun _ _ _ => rfl), showBank_field (·.mzm.cause) (fun _ _ _ => rfl)]
  refine ⟨fallBack_runMuzomus_restarting w _ s, fun h => ?_, ?_, ?_⟩
  · have hstays : (!(a || bankBOk s b) && s.power.vin == 2) = false := by
      rcases h with h | h <;> simp [h]
    rw [hstays]
    exact ⟨rfl, rfl⟩
  · rintro rfl rfl
    exact ⟨rfl, rfl⟩
  · rintro rfl rfl
    refine ⟨rfl, fun h => ?_⟩
    have hfalls : (!(false || bankBOk s false) && s.power.vin == 2) = true := by simp [bankBOk, h]
    rw [hfalls, State.when_true]
    exact ⟨takeReset_vin _ _ _ _ _, (takeReset_restarted _ _ _ _ _).2.1, takeReset_cause (by decide) _ _ _ _⟩

/-! ### The statement -/

/-- A step that leaves units and streams, and where start-up then stands. -/
theorem moves_of_action {ok : Bool} {l : List Nat} {m : Nat} {t : State} (hheld : diesHeld s = false) (hm : m < 16)
    (h : stepAction ok l s = some (t, m)) (hunits : t.units = s.units) (hstreams : t.streams = s.streams) :
    ∃ t, exec (.startupStepDone ok l) s = .next t ∧ startStep t = m ∧ t.units = s.units ∧ t.streams = s.streams :=
  ⟨setStep m t, congrArg Host.Outcome.next (startupStep_moves hheld h), startStep_setStep hm t,
    (setStep_field (·.units) (fun _ _ _ => rfl) m t).trans hunits, (setStep_field (·.streams) (fun _ _ _ => rfl) m t).trans hstreams⟩

theorem posted_rstCtrl (ha : Admitted s 0) (v : Word) : exec (.rstCtrlWrite 0 v) s = .next (writeRstCtrl v.toNat s) := by
  refine congrArg Host.Outcome.next ?_
  rw [posted_admitted ha, pfWrite, guarded_admitted ha]
  rfl

/-- The registers of the bridge after step 7. -/
theorem flag_setStep_top (n d : Nat) (f : Fld) (hf : f.off = 0x84) (s : State) :
    (setStep n s).flag (dieTopPage d) f = s.flag (dieTopPage d) f := by
  have hne : ∀ e, e ≤ 1 → dieTopPage d + 0x84 ≠ resetPage e + 0x94 := by
    intro e he
    simp only [dieTopPage, resetPage, dieWin]
    omega
  have hstep : ∀ e t, e ≤ 1 → (State.setFld t (resetPage e) Fld.RST_STATUS.step n).flag (dieTopPage d) f = t.flag (dieTopPage d) f :=
    fun e t he => State.flag_setFld_ne t _ _ _ _ _ (.inl (by rw [hf]; exact hne e he))
  exact (hstep 1 _ (by decide)).trans (hstep 0 s (by decide))

theorem proofMode_setStep (n d : Nat) (s : State) : proofMode (setStep n s) d = proofMode s d := by
  have hne : ∀ e, monPage d + Fld.MON_CTRL.proof.off ≠ resetPage e + Fld.RST_STATUS.step.off := by
    intro e
    simp only [monPage, resetPage, dieWin, Fld.MON_CTRL.proof, Fld.RST_STATUS.step]
    omega
  exact (State.flag_setFld_ne _ _ _ _ _ _ (.inl (hne 1))).trans (State.flag_setFld_ne _ _ _ _ _ _ (.inl (hne 0)))

theorem ready_setStep (n : Nat) (s : State) :
    (setStep n s).flag (resetPage 0) Fld.RST_STATUS.ready = s.flag (resetPage 0) Fld.RST_STATUS.ready :=
  (State.flag_setFld_ne _ _ _ _ _ _ (.inl (by decide))).trans (State.flag_setFld_ne _ _ _ _ _ _ (.inr (.inr (by decide))))

/-- Step 1 to step 9: what each does to start-up. -/
theorem startup_moves (hheld : diesHeld s = false) (ok : Bool) (l : List Nat) :
    let moves := fun (n m : Nat) => startStep s = n → ∃ t, exec (.startupStepDone ok l) s = .next t ∧ startStep t = m ∧
      t.units = s.units ∧ t.streams = s.streams
    (longStart s = true → moves 1 2) ∧ (longStart s = false → moves 1 4) ∧ (s.power.vin = 2 → moves 2 3) ∧
    (s.power.vin ≠ 2 → s.power.volts < 5800 → startStep s = 2 → exec (.startupStepDone ok l) s = .next s) ∧
    moves 3 4 ∧ moves 4 5 ∧ (0 ∉ s.mzm.pulses → moves 5 6) ∧ moves 6 7 ∧ moves 7 8 ∧ moves 8 9 := by
  dsimp only
  refine ⟨fun h hn => ?_, fun h hn => ?_, fun h hn => ?_, fun h hv hn => ?_, fun hn => ?_, fun hn => ?_, fun h hn => ?_, fun hn => ?_,
    fun hn => ?_, fun hn => ?_⟩
  · exact moves_of_action hheld (t := { s with mzm := { s.mzm with perst := false } }) (by decide) (by simp [stepAction, hn, h]) rfl rfl
  · exact moves_of_action hheld (t := { s with mzm := { s.mzm with perst := false } }) (by decide) (by simp [stepAction, hn, h]) rfl rfl
  · exact moves_of_action hheld (by decide) (by simp [stepAction, hn, h]) rfl rfl
  · exact congrArg Host.Outcome.next (startupStep_waits hheld (by simp [stepAction, hn, h, hv]))
  · exact moves_of_action hheld (t := showClocks s) (by decide) (by simp [stepAction, hn]) rfl rfl
  · obtain ⟨hunits, hstreams⟩ := releaseManagement_rest s
    exact moves_of_action hheld (by decide) (by simp [stepAction, hn]) hunits hstreams
  · obtain ⟨hunits, hstreams⟩ := readOptions_rest s
    exact moves_of_action hheld (by decide) (by simp [stepAction, hn, h]) hunits hstreams
  · exact moves_of_action hheld (by decide) (by simp [stepAction, hn]) rfl rfl
  · obtain ⟨hunits, hstreams, -⟩ := releaseFabric_spec ok s
    exact moves_of_action hheld (by decide) (by simp [stepAction, hn]) hunits hstreams
  · exact moves_of_action hheld (t := { s with mzm := { s.mzm with pullsOff := s.sync.ticks + 1062500 } }) (by decide)
      (by simp [stepAction, hn]) rfl rfl

theorem startup_bridge (hheld : diesHeld s = false) (ok : Bool) (l : List Nat) (hn : startStep s = 7) :
    ∃ t, exec (.startupStepDone ok l) s = .next t ∧ t.time = 0 ∧
      t.flag (dieTopPage 0) Fld.DIE_BRG_STATUS.link_up = ok ∧ t.flag (dieTopPage 1) Fld.DIE_BRG_STATUS.down = !ok := by
  obtain ⟨-, -, htime, hup, hdown⟩ := releaseFabric_spec ok s
  have hstep : startupStep ok l s = setStep 8 (releaseFabric ok s) := startupStep_moves hheld (by simp [stepAction, hn])
  exact ⟨setStep 8 (releaseFabric ok s), congrArg Host.Outcome.next hstep, (setStep_field (·.time) (fun _ _ _ => rfl) 8 _).trans htime,
    (flag_setStep_top 8 0 _ rfl _).trans hup, (flag_setStep_top 8 1 _ rfl _).trans hdown⟩

theorem startup_ready (hheld : diesHeld s = false) (ok : Bool) (l : List Nat) (hn : startStep s = 10) :
    ∃ t, exec (.startupStepDone ok l) s = .next t ∧ t.flag (resetPage 0) Fld.RST_STATUS.ready = true ∧ startStep t = 0 ∧
      proofMode t 0 = false ∧ proofMode t 1 = false ∧ t.streams = s.streams := by
  obtain ⟨hready, hproof0, hproof1, hstreams⟩ := becomeReady_spec s
  have hstep : startupStep ok l s = setStep 0 (becomeReady s) := startupStep_moves hheld (by simp [stepAction, hn])
  exact ⟨setStep 0 (becomeReady s), congrArg Host.Outcome.next hstep, (ready_setStep 0 _).trans hready, startStep_setStep (by decide) _,
    (proofMode_setStep 0 0 _).trans hproof0, (proofMode_setStep 0 1 _).trans hproof1,
    (setStep_field (·.streams) (fun _ _ _ => rfl) 0 _).trans hstreams⟩

/-- A module reset of `source`. -/
theorem warm_of_eq {i : Instr} {source sub parity : Nat} (h : exec i s = .next (takeReset kModule source sub parity s)) (hs : source < 256) :
    ∃ t, (exec i s = .next t ∧ Restarted s t) ∧ bits t.mzm.cause 7 0 = source ∧ t.mzm.kind = 2 :=
  ⟨_, ⟨h, takeReset_restarted _ _ _ _ _⟩, takeReset_cause hs _ _ _ _, takeReset_kind _ _ _ _ _⟩

/-- Settles O50: every reset is `takeReset`, whose module is that of `Restarted`; the steps of start-up are those of `stepAction`. -/
theorem resetsAndStartUp : Obligations.ResetsAndStartUp := by
  unfold Obligations.ResetsAndStartUp
  intro s
  dsimp only
  refine ⟨⟨_, ⟨rfl, takeReset_restarted kPowerOn 1 0 0 s⟩, takeReset_kind _ _ _ _ _, takeReset_boots _ _ _ _⟩,
    ⟨_, ⟨rfl, takeReset_restarted kCold 2 0 0 s⟩, takeReset_kind _ _ _ _ _, takeReset_cause (by decide) _ _ _ _⟩,
    fun source hlow hhigh => ?_, fun source h hne => congrArg Host.Outcome.next (assertReset_other h hne),
    ⟨perstLow s, ⟨rfl, takeReset_restarted kModule 3 0 0 s⟩, rfl, takeReset_cause (by decide) kModule 0 0 s⟩,
    fun ha v => ⟨fun h => ?_, fun h => ?_⟩, fun d sub index hd => ⟨fun hlow hhigh => ?_, fun h => ?_⟩,
    warm_of_eq rfl (by decide), fun h => congrArg Host.Outcome.next (nvPulseEnd_idle h),
    fun p ps h hp hps hdue => congrArg Host.Outcome.next (nvPulseEnd_leaves h hp hps hdue),
    fun ok l h => congrArg Host.Outcome.next (startupStep_held h), fun hheld ok l => ?_, fun d hd => ⟨fun h => ?_, fun hready hbulk => ?_⟩,
    fun a b h => congrArg Host.Outcome.next (muzomusStart_still h),
    fun a b hrestart hvin hpulse hsecure => ⟨_, rfl, muzomusStart_spec hrestart hvin hpulse hsecure a b⟩⟩
  · obtain ⟨parity, h⟩ := assertReset_module (s := s) hlow hhigh
    exact warm_of_eq (congrArg Host.Outcome.next h) (by omega)
  · exact warm_of_eq ((posted_rstCtrl ha v).trans (congrArg _ (if_pos h))) (by decide)
  · exact (posted_rstCtrl ha v).trans (congrArg _ (if_neg h))
  · have hexec : exec (.criticalStateError d sub index) s =
        .next (takeReset kModule 6 sub (index % 2 ^ 24 + d * 2 ^ 24 + sub * 2 ^ 25 + 2 ^ 28) s) := by
      refine congrArg Host.Outcome.next ?_
      rw [criticalError, Nat.mod_eq_of_lt hd, if_pos (by simp [hlow, hhigh])]
    refine ⟨warm_of_eq hexec (by decide), fun t ht => ?_⟩
    rw [← Host.Outcome.next.inj (hexec.symm.trans ht)]
    exact takeReset_parity _ _ _ _ _
  · refine congrArg Host.Outcome.next ?_
    rw [criticalError, if_neg (by simp; omega)]
  · obtain ⟨h1, h2, h3, h4, h5, h6, h7, h8, h9, h10⟩ := startup_moves hheld ok l
    refine ⟨h1, h2, h3, h4, h5, h6, h7, h8, h9, h10, startup_bridge hheld ok l, fun hn h => ?_, fun hn hj h0 h1 => ?_,
      startup_ready hheld ok l⟩
    · refine congrArg Host.Outcome.next (startupStep_waits hheld ?_)
      rcases h with h | h | h <;> simp [stepAction, hn, h]
    · exact ⟨_, congrArg Host.Outcome.next (startupStep_moves (t := selfTests l s) (n := 10) hheld (by simp [stepAction, hn, hj, h0, h1])),
        startStep_setStep (by decide) _⟩
  · refine congrArg Host.Outcome.next ?_
    rw [Nat.mod_eq_of_lt hd, bulkZeroDone_still h]
  · refine ⟨bulkZeroDone d s, congrArg Host.Outcome.next ?_, bulkZeroDone_shows hd hready hbulk⟩
    rw [Nat.mod_eq_of_lt hd]

end Sys2Proof.Machine

/-! PROOFS. The trace writer, the latches of the counters and the hang snapshots, and the statement about them. -/

namespace Sys2Proof.Machine

set_option Elab.async false

variable {s : State} {d : Nat}

/-! ### Numbers in memory -/

theorem leNat_leBytes (v n : Nat) : leNat (leBytes v n) = v % 256 ^ n := by
  induction n generalizing v with
  | zero => simp [leBytes, leNat, Nat.mod_one]
  | succ n ih =>
    have hbyte : (BitVec.ofNat 8 v).toNat = v % 256 := BitVec.toNat_ofNat v 8
    rw [leBytes, leNat, ih, hbyte, Nat.pow_succ', Nat.mod_mul]

theorem State.num_setNum (s : State) (a n v : Nat) : (s.setNum a n v).num a n = v % 256 ^ n := by
  have hread : (s.setBytes a (leBytes v n)).bytes a n = leBytes v n := by
    have h := State.bytes_setBytes_same s a (leBytes v n)
    rwa [leBytes_length] at h
  rw [State.num, State.setNum, hread, leNat_leBytes]

theorem num_fixedWrite (a n v : Nat) (s : State) : (fixedWrite a n v s).num a n = v % 256 ^ n := by
  have hmem : (fixedWrite a n v s).mem = ((copyFirst a n s).setNum a n v).mem := rfl
  rw [State.num, State.bytes_congr hmem]
  exact State.num_setNum (copyFirst a n s) a n v

theorem byte_fixedWrite_out {a n b : Nat} (v : Nat) (s : State) (h : b < a ∨ a + n ≤ b) : (fixedWrite a n v s).byte b = s.byte b :=
  (State.byte_congr rfl b).trans ((State.byte_setNum_out (copyFirst a n s) a b n v h).trans (State.byte_congr rfl b))

/-! ### One record into the buffer (R409, R411) -/

/-- The slot that a record takes. -/
def slotOf (s : State) (d i : Nat) : Nat := s.fld (tracePage d) Fld.TRC_BUF_BASE.folio * 65536 + 32 * i

/-- The index of the next slot. -/
def nextSlot (s : State) (d : Nat) : Nat := s.fld (tracePage d) Fld.TRC_WR_IDX.index

theorem putAt_memory (i : Nat) (r : TrcRec) (s : State) : (putAt d i r s).num (slotOf s d i) 32 = recWord r % 2 ^ 256 ∧
    ∀ b, b < slotOf s d i ∨ slotOf s d i + 32 ≤ b → (putAt d i r s).byte b = s.byte b := by
  have hword : (256 : Nat) ^ 32 = 2 ^ 256 := by norm_num
  refine ⟨?_, fun b hb => byte_fixedWrite_out _ s hb⟩
  rw [← hword]
  exact num_fixedWrite _ 32 _ s

/-- The buffer has gone round. -/
def showWrap (d : Nat) (s : State) : State := s.setFlag (tracePage d) Fld.TRC_STATUS.wrapped true

/-- One more slot holds a record. -/
def holdOne (d : Nat) (s : State) : State := s.setTrw d { s.trwOf d with held := (s.trwOf d).held + 1 }

/-- The count and the event of a gap record. -/
def showGap (d : Nat) (s : State) : State := raiseEv (tracePage d) 4 (s.bump (tracePage d) 2 1)

/-- What a record does once it lies in its slot: it counts. -/
def countRec (d : Nat) (r : TrcRec) (s : State) : State :=
  let full := decide (traceSlots ≤ (s.trwOf d).held)
  (((s.when (full && traceMode s d == 0) (showWrap d)).when (!full) (holdOne d)).bump (tracePage d) 0 1).when (r.type == 0x10) (showGap d)

theorem putRec_eq (d : Nat) (r : TrcRec) (s : State) : putRec d r s = countRec d r
    ((putAt d (nextSlot s d) r s).setFld (tracePage d) Fld.TRC_WR_IDX.index ((nextSlot s d + 1) % traceSlots)) := rfl

theorem countRec_field {β : Type} (g : State → β) (hwrap : ∀ t, g (showWrap d t) = g t) (hheld : ∀ t, g (holdOne d t) = g t)
    (hbump : ∀ i t, i ≤ 2 → g (State.bump t (tracePage d) i 1) = g t) (hev : ∀ t, g (raiseEv (tracePage d) 4 t) = g t) (r : TrcRec)
    (s : State) : g (countRec d r s) = g s := by
  unfold countRec
  dsimp only
  refine (State.when_field _ g _ (showGap d) ((hev _).trans (hbump 2 _ (by decide)))).trans ((hbump 0 _ (by decide)).trans ?_)
  exact (State.when_field _ g _ (holdOne d) (hheld _)).trans (State.when_field _ g _ (showWrap d) (hwrap _))

theorem State.trwOf_setTrw (s : State) (d : Nat) (w : TrcW) : (s.setTrw d w).trwOf d = w := SMap.get_set_same _ _ _ _

theorem tracePage_mod (d : Nat) : tracePage d % 4096 = 0 := by simp only [tracePage, dieWin]; omega

/-- A register of the trace page that a record does not write. -/
def recordLeaves (k : Nat) : Prop := k ≠ 0x20 ∧ k ≠ 0x30 ∧ k ≠ 0x34 ∧ k ≠ 0x38 ∧ k ≠ 0x84 ∧ k < 2048

theorem regN_countRec {k : Nat} (h : recordLeaves k) (r : TrcRec) (s : State) :
    (countRec d r s).regN (tracePage d + k) = s.regN (tracePage d + k) := by
  obtain ⟨h20, h30, h34, h38, h84, hlow⟩ := h
  have hpage := tracePage_mod d
  refine countRec_field (State.regN · (tracePage d + k)) (fun t => State.regN_setFld_ne t _ _ _ fun he => h84 (Nat.add_left_cancel he))
    (fun _ => rfl) (fun i t hi => ?_) (fun t => regN_raiseEv t (fun he => h20 (Nat.add_left_cancel he)) (by omega)) r s
  exact (regN_bump t _ _ _ _).trans (if_neg (by omega))

theorem traceState_countRec (r : TrcRec) (s : State) : traceState (countRec d r s) d = traceState s d := by
  have hpage := tracePage_mod d
  refine countRec_field (traceState · d) (fun t => State.fld_setFld_ne t _ _ _ _ _ (.inr (.inl (by decide)))) (fun _ => rfl)
    (fun i t hi => fld_bump t fun he => ?_) (fun t => fld_raiseEv t (fun he => ?_) ?_) r s
  · simp only [Fld.TRC_STATUS.state] at he; omega
  · simp only [Fld.TRC_STATUS.state] at he; omega
  · simp only [Fld.TRC_STATUS.state]; omega

/-- What a record leaves of the writer's state. -/
def writerRest (w : TrcW) : Nat × Nat × Nat × Nat × Option (Nat × Nat) := (w.rot, w.post, w.lost, w.firstLost, w.mark)

theorem writerRest_putRec (r : TrcRec) (s : State) : writerRest ((putRec d r s).trwOf d) = writerRest (s.trwOf d) := by
  have hheld : ∀ t, writerRest ((holdOne d t).trwOf d) = writerRest (State.trwOf t d) := fun t => by
    rw [holdOne, State.trwOf_setTrw]
    rfl
  have hev : ∀ t, (raiseEv (tracePage d) 4 t).trw = t.trw := fun t => by simp
  rw [putRec_eq]
  refine (countRec_field (fun t => writerRest (t.trwOf d)) (fun t => ?_) hheld (fun i t _ => ?_) (fun t => ?_) r _).trans ?_
  · simp only [State.trwOf, showWrap, State.setFlag_trw]
  · simp only [State.trwOf, State.bump_trw]
  · simp only [State.trwOf, hev]
  · have hput : (putAt d (nextSlot s d) r s).trw = s.trw := by simp
    simp only [State.trwOf, State.setFld_trw, hput]

theorem regN_putRec {k : Nat} (h : recordLeaves k) (hidx : k ≠ 0x8C) (r : TrcRec) (s : State) :
    (putRec d r s).regN (tracePage d + k) = s.regN (tracePage d + k) := by
  have hput : (putAt d (nextSlot s d) r s).regs = s.regs := by simp
  rw [putRec_eq, regN_countRec h, State.regN_setFld_ne _ _ _ _ (fun he => hidx (Nat.add_left_cancel he))]
  exact State.regN_congr hput _

theorem nextSlot_putRec (r : TrcRec) (s : State) : nextSlot (putRec d r s) d = (nextSlot s d + 1) % 2 ^ 21 := by
  have hword := regN_countRec (d := d) (k := 0x8C) (by unfold recordLeaves; decide) r
    ((putAt d (nextSlot s d) r s).setFld (tracePage d) Fld.TRC_WR_IDX.index ((nextSlot s d + 1) % traceSlots))
  refine (congrArg (bits · 20 0) hword).trans ((State.fld_setFld_same _ _ _ _ (by decide) (by decide)).trans ?_)
  exact Nat.mod_mod _ _

theorem traceState_putRec (r : TrcRec) (s : State) : traceState (putRec d r s) d = traceState s d := by
  have hput : (putAt d (nextSlot s d) r s).regs = s.regs := by simp
  rw [putRec_eq, traceState_countRec]
  exact (State.fld_setFld_ne _ _ _ _ _ _ (.inl (fun he => absurd (Nat.add_left_cancel he) (by decide)))).trans (State.fld_congr hput _ _)

theorem putRec_memory (r : TrcRec) (s : State) : (putRec d r s).num (slotOf s d (nextSlot s d)) 32 = recWord r % 2 ^ 256 ∧
    ∀ b, b < slotOf s d (nextSlot s d) ∨ slotOf s d (nextSlot s d) + 32 ≤ b → (putRec d r s).byte b = s.byte b := by
  have hmem : (putRec d r s).mem = (putAt d (nextSlot s d) r s).mem := by
    rw [putRec_eq]
    exact (countRec_field (·.mem) (fun t => by simp [showWrap]) (fun t => by simp [holdOne]) (fun i t _ => by simp) (fun t => by simp) r
      _).trans (State.setFld_mem _ _ _ _)
  obtain ⟨hword, hother⟩ := putAt_memory (nextSlot s d) r s
  exact ⟨(congrArg leNat (State.bytes_congr hmem _ _)).trans hword, fun b hb => (State.byte_congr hmem b).trans (hother b hb)⟩

/-! ### Triggers (R412) -/

theorem writeRec_fits (hstate : traceState s d = 1) (hfits : markFits s d = true) (r : TrcRec) : writeRec d r s = putRec d r s := by
  simp only [markFits, Bool.and_eq_true, Bool.not_eq_true', Bool.and_eq_false_iff, beq_eq_false_iff_ne, decide_eq_false_iff_not] at hfits
  obtain ⟨hlinear, hspill⟩ := hfits
  unfold writeRec
  rw [hstate]
  dsimp only
  have hkept : ¬(traceMode s d = 1 && s.fld (tracePage d) Fld.TRC_WR_IDX.index + 1 = traceSlots) = true := by
    simp only [Bool.and_eq_true, decide_eq_true_eq]
    exact fun h => hlinear.elim (fun hn => hn h.1) (fun hn => hn h.2)
  have hroom : ¬(traceMode s d = 2 && traceSlots ≤ (s.trwOf d).held) = true := by
    simp only [Bool.and_eq_true, decide_eq_true_eq]
    exact fun h => hspill.elim (fun hn => hn h.1) (fun hn => hn h.2)
  exact (if_neg hkept).trans (if_neg hroom)

/-- The module with a marker in its slot, its index shown and the event raised. -/
def markedBy (d code : Nat) (s : State) : State :=
  raiseEv (tracePage d) 0 ((noteMark d code (nextSlot s d) (putRec d (markerRec d code s.time) s)).bump (tracePage d) 3 1)

/-- In wrap mode a trigger starts the records after it. -/
def startPost (d : Nat) (s : State) : State :=
  (s.setTrw d { s.trwOf d with post := s.fld (tracePage d) Fld.TRC_POST.count }).setFld (tracePage d) Fld.TRC_STATUS.state 2

theorem startPost_frame (d : Nat) (s : State) : (startPost d s).mem = s.mem ∧ (startPost d s).units = s.units ∧
    (startPost d s).streams = s.streams ∧ (startPost d s).cores = s.cores := by
  simp [startPost]

theorem trwOf_startPost (s : State) :
    (startPost d s).trwOf d = { s.trwOf d with post := s.fld (tracePage d) Fld.TRC_POST.count } := by
  rw [← State.trwOf_setTrw s d { s.trwOf d with post := s.fld (tracePage d) Fld.TRC_POST.count }, startPost, State.trwOf, State.setFld_trw]
  rfl

theorem post_startPost (s : State) : ((startPost d s).trwOf d).post = s.fld (tracePage d) Fld.TRC_POST.count := by
  rw [trwOf_startPost]

theorem mark_startPost (s : State) : ((startPost d s).trwOf d).mark = (s.trwOf d).mark := by
  rw [trwOf_startPost]

theorem regN_startPost {k : Nat} (hk : k ≠ 0x84) (s : State) : (startPost d s).regN (tracePage d + k) = s.regN (tracePage d + k) :=
  State.regN_setFld_ne _ _ _ _ fun he => hk (Nat.add_left_cancel he)

theorem traceState_startPost (s : State) : traceState (startPost d s) d = 2 :=
  State.fld_setFld_same _ _ _ _ (by decide) (by decide)

theorem nextSlot_startPost (s : State) : nextSlot (startPost d s) d = nextSlot s d :=
  congrArg (bits · 20 0) (regN_startPost (k := 0x8C) (by decide) s)

theorem trigger_fresh (hstate : traceState s d = 1) (hfits : markFits s d = true) (hsame : sameTick d s = false) (code : Nat) :
    trigger d code s = if traceMode (markedBy d code s) d = 0 && traceState (markedBy d code s) d = 1 then
      startPost d (markedBy d code s) else markedBy d code s := by
  unfold trigger
  rw [hsame, if_neg Bool.false_ne_true, if_pos hstate]
  dsimp only
  rw [writeRec_fits hstate hfits, hfits, State.when_true]
  rfl

/-- The count and the event of a trigger reach two registers. -/
theorem regN_raised {k : Nat} (hcount : k ≠ 0x3C) (hraw : k ≠ 0x20) (hk : k < 2048) (s : State) :
    (raiseEv (tracePage d) 0 (s.bump (tracePage d) 3 1)).regN (tracePage d + k) = s.regN (tracePage d + k) := by
  have hpage := tracePage_mod d
  rw [regN_raiseEv _ (fun he => hraw (Nat.add_left_cancel he)) (by omega), regN_bump, if_neg (by omega)]

theorem regN_noteMark {k : Nat} (hk : k ≠ 0xA8) (code i : Nat) (s : State) :
    (noteMark d code i s).regN (tracePage d + k) = s.regN (tracePage d + k) :=
  State.regN_setRegN_ne _ _ fun he => hk (Nat.add_left_cancel he)

theorem regN_markedBy {k : Nat} (h : recordLeaves k) (hidx : k ≠ 0x8C) (hmark : k ≠ 0xA8) (hcount : k ≠ 0x3C) (code : Nat) (s : State) :
    (markedBy d code s).regN (tracePage d + k) = s.regN (tracePage d + k) := by
  have hput := regN_putRec (d := d) h hidx (markerRec d code s.time) s
  obtain ⟨hraw, -, -, -, -, hlow⟩ := h
  exact (regN_raised hcount hraw hlow _).trans ((regN_noteMark hmark _ _ _).trans hput)

theorem traceMode_markedBy (code : Nat) (s : State) : traceMode (markedBy d code s) d = traceMode s d :=
  congrArg (bits · 2 1) (regN_markedBy (k := 0x80) (by unfold recordLeaves; decide) (by decide) (by decide) (by decide) code s)

theorem traceState_markedBy (code : Nat) (s : State) : traceState (markedBy d code s) d = traceState s d :=
  (congrArg (bits · 2 0) ((regN_raised (k := 0x84) (by decide) (by decide) (by decide) _).trans (regN_noteMark (by decide) _ _ _))).trans
    (traceState_putRec _ s)

theorem nextSlot_markedBy (code : Nat) (s : State) : nextSlot (markedBy d code s) d = (nextSlot s d + 1) % 2 ^ 21 :=
  (congrArg (bits · 20 0) ((regN_raised (k := 0x8C) (by decide) (by decide) (by decide) _).trans (regN_noteMark (by decide) _ _ _))).trans
    (nextSlot_putRec _ s)

theorem markIndex_markedBy (code : Nat) (s : State) :
    (markedBy d code s).regN (tracePage d + 0xA8) = (nextSlot s d + 2 ^ 21) % 2 ^ 32 :=
  (regN_raised (by decide) (by decide) (by decide) _).trans (State.regN_setRegN_same _ _ _)

theorem raw_markedBy (code : Nat) (s : State) : bit ((markedBy d code s).regN (tracePage d + 0x20)) 0 = true :=
  bit_raiseEv _ (tracePage_mod d) (by decide)

theorem postCount_markedBy (code : Nat) (s : State) :
    (markedBy d code s).fld (tracePage d) Fld.TRC_POST.count = s.fld (tracePage d) Fld.TRC_POST.count :=
  congrArg (bits · 20 0) (regN_markedBy (k := 0x9C) (by unfold recordLeaves; decide) (by decide) (by decide) (by decide) code s)

theorem trwOf_markedBy (code : Nat) (s : State) : ((markedBy d code s).trwOf d).mark = some (s.time, code) ∧
    ((markedBy d code s).trwOf d).post = (s.trwOf d).post := by
  have htrw : (markedBy d code s).trw = (noteMark d code (nextSlot s d) (putRec d (markerRec d code s.time) s)).trw := by simp [markedBy]
  have hw : (markedBy d code s).trwOf d = { (putRec d (markerRec d code s.time) s).trwOf d with
      mark := some ((putRec d (markerRec d code s.time) s).time, code) } := by
    have hnote := State.trwOf_setTrw (putRec d (markerRec d code s.time) s) d
      { (putRec d (markerRec d code s.time) s).trwOf d with mark := some ((putRec d (markerRec d code s.time) s).time, code) }
    rw [← hnote, State.trwOf, htrw]
    rfl
  have htime : (putRec d (markerRec d code s.time) s).time = s.time := by simp
  have hrest := writerRest_putRec (d := d) (markerRec d code s.time) s
  simp only [writerRest, Prod.mk.injEq] at hrest
  obtain ⟨-, hpost, -⟩ := hrest
  rw [hw]
  exact ⟨congrArg (fun t => some (t, code)) htime, hpost⟩

theorem markedBy_frame (code : Nat) (s : State) : (markedBy d code s).mem = (putRec d (markerRec d code s.time) s).mem ∧
    (markedBy d code s).units = s.units ∧ (markedBy d code s).streams = s.streams ∧ (markedBy d code s).cores = s.cores := by
  simp [markedBy, noteMark]

/-- What a trigger of a running writer with room leaves. -/
theorem trigger_marks (hstate : traceState s d = 1) (hfits : markFits s d = true) (hsame : sameTick d s = false) (code : Nat) :
    let t := trigger d code s
    traceState t d = (if traceMode s d = 0 then 2 else 1) ∧ t.regN (tracePage d + 0xA8) = (nextSlot s d + 2 ^ 21) % 2 ^ 32 ∧
    bit (t.regN (tracePage d + 0x20)) 0 = true ∧
    (t.trwOf d).post = (if traceMode s d = 0 then s.fld (tracePage d) Fld.TRC_POST.count else (s.trwOf d).post) ∧
    (t.trwOf d).mark = some (s.time, code) ∧ nextSlot t d = (nextSlot s d + 1) % 2 ^ 21 ∧
    t.num (slotOf s d (nextSlot s d)) 32 = recWord (markerRec d code s.time) % 2 ^ 256 ∧
    (∀ b, b < slotOf s d (nextSlot s d) ∨ slotOf s d (nextSlot s d) + 32 ≤ b → t.byte b = s.byte b) ∧
    t.units = s.units ∧ t.streams = s.streams ∧ t.cores = s.cores := by
  obtain ⟨hmark, hpost⟩ := trwOf_markedBy (d := d) code s
  obtain ⟨hmem, hunits, hstreams, hcores⟩ := markedBy_frame (d := d) code s
  obtain ⟨hword, hother⟩ := putRec_memory (d := d) (markerRec d code s.time) s
  have hmemory : ∀ t : State, t.mem = (markedBy d code s).mem → t.num (slotOf s d (nextSlot s d)) 32 =
      recWord (markerRec d code s.time) % 2 ^ 256 ∧
      ∀ b, b < slotOf s d (nextSlot s d) ∨ slotOf s d (nextSlot s d) + 32 ≤ b → t.byte b = s.byte b := fun t ht =>
    ⟨(congrArg leNat (State.bytes_congr (ht.trans hmem) _ _)).trans hword, fun b hb =>
      (State.byte_congr (ht.trans hmem) b).trans (hother b hb)⟩
  dsimp only
  rw [trigger_fresh hstate hfits hsame code, traceMode_markedBy, traceState_markedBy, hstate]
  by_cases hmode : traceMode s d = 0
  · obtain ⟨hmem', hunits', hstreams', hcores'⟩ := startPost_frame d (markedBy d code s)
    obtain ⟨hnum, hbyte⟩ := hmemory _ hmem'
    rw [if_pos (by simp [hmode]), if_pos hmode, if_pos hmode, post_startPost, mark_startPost,
      traceState_startPost, nextSlot_startPost, regN_startPost (by decide), regN_startPost (by decide)]
    exact ⟨rfl, markIndex_markedBy code s, raw_markedBy code s, postCount_markedBy code s, hmark, nextSlot_markedBy code s, hnum, hbyte,
      hunits'.trans hunits, hstreams'.trans hstreams, hcores'.trans hcores⟩
  · obtain ⟨hnum, hbyte⟩ := hmemory _ rfl
    rw [if_neg (by simp [hmode]), if_neg hmode, if_neg hmode]
    exact ⟨(traceState_markedBy code s).trans hstate, markIndex_markedBy code s, raw_markedBy code s, hpost, hmark,
      nextSlot_markedBy code s, hnum, hbyte, hunits, hstreams, hcores⟩

theorem sameTick_of_mark (h : sameTick d s = true) : ∃ c, (s.trwOf d).mark = some (s.time, c) := by
  simp only [sameTick, Bool.and_eq_true, Option.any_eq_true, beq_iff_eq] at h
  obtain ⟨-, ⟨t, c⟩, hmark, htime⟩ := h
  subst htime
  exact ⟨c, hmark⟩

theorem lowerMark_keeps {code : Nat} (h : ∀ m, (s.trwOf d).mark = some m → m.2 ≤ code) : lowerMark d code s = s := by
  refine if_neg fun hany => ?_
  obtain ⟨m, hm, hlt⟩ := (Option.any_eq_true _ _).1 hany
  exact absurd (of_decide_eq_true hlt) (Nat.not_lt.2 (h m hm))

/-- A trigger outside running, but for one that lowers the source of a mark of its tick. -/
theorem trigger_ignored {code : Nat} (hstate : traceState s d ≠ 1) (h : ∀ c, (s.trwOf d).mark ≠ some (s.time, c + (code + 1))) :
    trigger d code s = s := by
  unfold trigger
  by_cases hsame : sameTick d s = true
  · obtain ⟨c, hc⟩ := sameTick_of_mark hsame
    rw [if_pos hsame]
    refine lowerMark_keeps fun m hm => ?_
    obtain rfl := Option.some.inj (hc.symm.trans hm)
    exact Nat.not_lt.1 fun hlt => h (c - (code + 1)) (by rw [hc, Nat.sub_add_cancel hlt])
  · rw [if_neg hsame, if_neg hstate]

/-- A lower source takes the marker's place. -/
theorem trigger_lower {code c : Nat} (hstate : 2 ≤ traceState s d) (hmark : (s.trwOf d).mark = some (s.time, c)) (hlow : code < c) :
    let t := trigger d code s
    let slot := slotOf s d (bits (s.regN (tracePage d + 0xA8)) 20 0)
    t.regs = s.regs ∧ t.num slot 32 = recWord (markerRec d code s.time) % 2 ^ 256 ∧
    (∀ b, b < slot ∨ slot + 32 ≤ b → t.byte b = s.byte b) ∧ t.units = s.units ∧ t.streams = s.streams ∧ t.cores = s.cores := by
  have hrun : traceState s d ≠ 1 := by omega
  have hstopped : traceState s d ≠ 0 := by omega
  have hsame : sameTick d s = true := by simp [sameTick, hrun, hstopped, hmark]
  have hany : (s.trwOf d).mark.any (fun m => decide (code < m.2)) = true := by simp [hmark, hlow]
  let noted := s.setTrw d { s.trwOf d with mark := some (s.time, code) }
  have ht : trigger d code s = putAt d (bits (s.regN (tracePage d + 0xA8)) 20 0) (markerRec d code s.time) noted := by
    unfold trigger
    rw [if_pos hsame, lowerMark, if_pos hany]
  obtain ⟨hword, hother⟩ := putAt_memory (d := d) (bits (s.regN (tracePage d + 0xA8)) 20 0) (markerRec d code s.time) noted
  dsimp only
  rw [ht]
  exact ⟨by simp [noted], hword, hother, by simp [noted], by simp [noted], by simp [noted]⟩

theorem timeTrigger_due (hon : s.flag (tracePage d) Fld.TRC_TRIG_CFG.on_time = true) (htime : s.reg64 (tracePage d + 0xA0) = s.time) :
    traceTimeTrigger d s = trigger d 2 s := if_pos (by simp [hon, htime])

theorem timeTrigger_ignored (h : s.flag (tracePage d) Fld.TRC_TRIG_CFG.on_time = false ∨ s.reg64 (tracePage d + 0xA0) ≠ s.time ∨
    (traceState s d ≠ 1 ∧ ∀ c, (s.trwOf d).mark ≠ some (s.time, c + 3))) : traceTimeTrigger d s = s := by
  unfold traceTimeTrigger
  split
  next hdue =>
    simp only [Bool.and_eq_true, beq_iff_eq] at hdue
    obtain ⟨hon, htime⟩ := hdue
    rcases h with h | h | ⟨hstate, hmark⟩
    · exact absurd (hon.symm.trans h) (by decide)
    · exact absurd htime h
    · exact trigger_ignored hstate hmark
  next => rfl

/-! ### Records move from the Chases (R411) -/

theorem moveTrace_none (h : nextTraced s d = none) : moveTrace d s = s := by
  unfold moveTrace
  rw [h]

theorem moveTrace_empty {ch : Nat} (h : nextTraced s d = some ch) (hq : (s.trqOf ch).recs = []) : moveTrace d s = s := by
  unfold moveTrace
  rw [h]
  dsimp only
  rw [hq]

theorem nextTraced_mem {ch : Nat} (h : nextTraced s d = some ch) : ∃ x ∈ s.trq, x.1 = ch ∧ x.2.recs ≠ [] := by
  unfold nextTraced at h
  have hmem : ch ∈ (List.filter (fun (x : Nat × TrcQ) => pathDie x.1 == d && !x.2.recs.isEmpty) s.trq).map (·.1) := by
    dsimp only at h
    split at h
    next c hc => exact Option.some.inj h ▸ List.mem_of_find?_eq_some hc
    next => exact List.mem_of_head? h
  obtain ⟨x, hx, rfl⟩ := List.mem_map.1 hmem
  obtain ⟨hin, hcond⟩ := List.mem_filter.1 hx
  simp only [Bool.and_eq_true, Bool.not_eq_true', List.isEmpty_eq_false_iff] at hcond
  exact ⟨x, hin, rfl, hcond.2⟩

/-- Once the only waiting record is gone the writer has nothing to move. -/
theorem moveTrace_done {ch : Nat} (hch : (s.trqOf ch).recs = []) (hothers : ∀ x ∈ s.trq, x.1 ≠ ch → x.2.recs = []) : moveTrace d s = s := by
  cases hnext : nextTraced s d with
  | none => exact moveTrace_none hnext
  | some c =>
    obtain ⟨x, hx, hkey, hrecs⟩ := nextTraced_mem hnext
    by_cases he : x.1 = ch
    · exact moveTrace_empty hnext (by rw [← hkey, he, hch])
    · exact absurd (hothers x hx he) hrecs

/-- The module with a Chase's one record taken from it. -/
def takenFrom (d ch : Nat) (s : State) : State :=
  (s.setTrq ch { s.trqOf ch with recs := [] }).setTrw d { s.trwOf d with rot := ch }

theorem takenFrom_frame (d ch : Nat) (s : State) : (takenFrom d ch s).regs = s.regs ∧ (takenFrom d ch s).mem = s.mem ∧
    (takenFrom d ch s).units = s.units ∧ (takenFrom d ch s).cores = s.cores ∧
    (takenFrom d ch s).trq = SMap.set (fun _ => TrcQ.reset) s.trq ch { s.trqOf ch with recs := [] } := by
  simp [takenFrom, State.setTrq]

theorem markFits_wrap (hmode : traceMode s d = 0) : markFits s d = true := by simp [markFits, hmode]

/-- In wrap mode, with no trigger on records, the first record goes to the buffer. -/
theorem moveTrace_takes {ch : Nat} {r : TrcRec} (hstate : traceState s d = 1) (hmode : traceMode s d = 0)
    (hrec : s.flag (tracePage d) Fld.TRC_TRIG_CFG.on_record = false) (hnext : nextTraced s d = some ch)
    (hrecs : (s.trqOf ch).recs = [r]) (hlost : (s.trqOf ch).lost = 0) : moveTrace d s = putRec d r (takenFrom d ch s) := by
  obtain ⟨hregs, -⟩ := takenFrom_frame d ch s
  have hpop : popTrace ch (s.trqOf ch) = { s.trqOf ch with recs := [] } := by
    rw [popTrace, if_pos hlost, hrecs]
    rfl
  have hmiss : recMatches (takenFrom d ch s) d r = false := by
    have hflag := (State.flag_congr hregs (tracePage d) Fld.TRC_TRIG_CFG.on_record).trans hrec
    simp [recMatches, hflag]
  have hrun : traceState (takenFrom d ch s) d = 1 := (State.fld_congr hregs _ _).trans hstate
  have hwrap : traceMode (takenFrom d ch s) d = 0 := (State.fld_congr hregs _ _).trans hmode
  have htake : takeRec d r (takenFrom d ch s) = putRec d r (takenFrom d ch s) := by
    rw [takeRec, hmiss, State.when_false, writeRec_fits hrun (markFits_wrap hwrap)]
  unfold moveTrace
  rw [hnext]
  dsimp only
  rw [hrecs]
  dsimp only
  rw [hpop]
  exact htake

theorem traceWrite_moves {ch : Nat} {r : TrcRec} (hstate : traceState s d = 1) (hmode : traceMode s d = 0)
    (hrec : s.flag (tracePage d) Fld.TRC_TRIG_CFG.on_record = false) (hnext : nextTraced s d = some ch)
    (hrecs : (s.trqOf ch).recs = [r]) (hlost : (s.trqOf ch).lost = 0) (hothers : ∀ x ∈ s.trq, x.1 ≠ ch → x.2.recs = []) :
    let t := traceWrite d s
    (t.trqOf ch).recs = [] ∧ t.num (slotOf s d (nextSlot s d)) 32 = recWord r % 2 ^ 256 ∧
    (∀ b, b < slotOf s d (nextSlot s d) ∨ slotOf s d (nextSlot s d) + 32 ≤ b → t.byte b = s.byte b) ∧
    nextSlot t d = (nextSlot s d + 1) % 2 ^ 21 ∧ t.units = s.units ∧ t.cores = s.cores := by
  obtain ⟨hregs, hmem, hunits, hcores, htrq⟩ := takenFrom_frame d ch s
  have hput : (putRec d r (takenFrom d ch s)).trq = SMap.set (fun _ => TrcQ.reset) s.trq ch { s.trqOf ch with recs := [] } := by simp [htrq]
  have hempty : ((putRec d r (takenFrom d ch s)).trqOf ch).recs = [] := by
    rw [State.trqOf, hput, SMap.get_set_same]
  have hrest : ∀ x ∈ (putRec d r (takenFrom d ch s)).trq, x.1 ≠ ch → x.2.recs = [] := fun x hx hne => by
    rw [hput] at hx
    rcases SMap.mem_set hx with he | hin
    · exact absurd (congrArg Prod.fst he) hne
    · exact hothers x hin hne
  have ht : traceWrite d s = putRec d r (takenFrom d ch s) := by
    rw [traceWrite, hstate, if_neg (by decide), moveTrace_takes hstate hmode hrec hnext hrecs hlost]
    exact moveTrace_done hempty hrest
  have hnextSlot : nextSlot (takenFrom d ch s) d = nextSlot s d := State.fld_congr hregs _ _
  have hslot : slotOf (takenFrom d ch s) d (nextSlot (takenFrom d ch s) d) = slotOf s d (nextSlot s d) := by
    rw [hnextSlot, slotOf, State.fld_congr hregs, slotOf]
  obtain ⟨hword, hother⟩ := putRec_memory (d := d) r (takenFrom d ch s)
  rw [hslot] at hword hother
  dsimp only
  rw [ht, nextSlot_putRec, hnextSlot]
  exact ⟨hempty, hword, fun b hb => (hother b hb).trans (State.byte_congr hmem b), rfl, by simp [hunits], by simp [hcores]⟩

theorem traceWrite_still (h : traceState s d = 0 ∨ nextTraced s d = none) : traceWrite d s = s := by
  unfold traceWrite
  rcases h with h | h
  · exact if_pos h
  · rw [moveTrace_none h, moveTrace_none h, ite_self]

/-! ### Freeze and spill (R412, R413) -/

theorem traceFreeze_done (hstate : traceState s d = 2) (hpost : (s.trwOf d).post = 0) :
    traceFreeze d s = raiseEv (tracePage d) 1 (s.setFld (tracePage d) Fld.TRC_STATUS.state 3) := if_pos (by simp [hstate, hpost])

theorem traceFreeze_waits (h : traceState s d ≠ 2 ∨ (s.trwOf d).post ≠ 0) : traceFreeze d s = s :=
  if_neg fun hc => by
    simp only [Bool.and_eq_true, decide_eq_true_eq, beq_iff_eq] at hc
    exact h.elim (fun hn => hn hc.1) (fun hn => hn hc.2)

/-- The next slot of the ring. -/
def spillSlot (s : State) (d : Nat) : Nat := s.fld (tracePage d) Fld.TRC_SPILL_IDX.index

/-- The slot of the oldest record of the buffer. -/
def oldestSlot (s : State) (d : Nat) : Nat := (nextSlot s d + traceSlots - (s.trwOf d).held % traceSlots) % traceSlots

/-- The oldest record copied to the ring, whose index moves on. -/
def ringCopy (d : Nat) (s : State) : State :=
  ((s.setBytes (spillAddr d (spillSlot s d)) (s.bytes (slotOf s d (oldestSlot s d)) 32)).setFld (tracePage d) Fld.TRC_SPILL_IDX.index
    ((spillSlot s d + 1) % spillSlots)).when (spillSlot s d + 1 == spillSlots)
      (fun s => s.setFlag (tracePage d) Fld.TRC_SPILL_IDX.wrapped true)

/-- A spill but for the gap record that tells what was lost. -/
def spilled (d : Nat) (s : State) : State :=
  cellarPulse ((ringCopy d s).setTrw d { s.trwOf d with held := (s.trwOf d).held - 1, lost := 0, firstLost := 0 })

theorem traceSpill_eq (h : maySpill s d = true) : traceSpill d s = (spilled d s).when ((s.trwOf d).lost != 0)
    (putRec d (gapRec d (s.trwOf d).lost (s.trwOf d).firstLost (spilled d s).time)) := by
  unfold traceSpill
  rw [if_pos h]
  rfl

theorem ringCopy_frame (d : Nat) (s : State) : (ringCopy d s).units = s.units ∧ (ringCopy d s).streams = s.streams ∧
    (ringCopy d s).cores = s.cores ∧
    (ringCopy d s).mem = (s.setBytes (spillAddr d (spillSlot s d)) (s.bytes (slotOf s d (oldestSlot s d)) 32)).mem := by
  unfold ringCopy
  generalize (spillSlot s d + 1 == spillSlots) = wraps
  cases wraps <;> simp

theorem spillSlot_ringCopy (d : Nat) (s : State) : spillSlot (ringCopy d s) d = (spillSlot s d + 1) % spillSlots := by
  have hwrap : ∀ c t, spillSlot (State.when t c (fun s => s.setFlag (tracePage d) Fld.TRC_SPILL_IDX.wrapped true)) d = spillSlot t d :=
    fun c t => State.when_field t (spillSlot · d) c _ (State.fld_setFld_ne _ _ _ _ _ _ (.inr (.inl (by decide))))
  refine (hwrap _ _).trans ((State.fld_setFld_same _ _ _ _ (by decide) (by decide)).trans ?_)
  exact Nat.mod_mod _ _

theorem spilled_frame (d : Nat) (s : State) : (spilled d s).units = s.units ∧ (spilled d s).streams = s.streams ∧
    (spilled d s).cores = s.cores ∧ (spilled d s).regs = (ringCopy d s).regs ∧
    (spilled d s).mem = (s.setBytes (spillAddr d (spillSlot s d)) (s.bytes (slotOf s d (oldestSlot s d)) 32)).mem ∧
    (spilled d s).trw = ((ringCopy d s).setTrw d { s.trwOf d with held := (s.trwOf d).held - 1, lost := 0, firstLost := 0 }).trw := by
  obtain ⟨hunits, hstreams, hcores, hmem⟩ := ringCopy_frame d s
  simp [spilled, hunits, hstreams, hcores, hmem]

theorem trwOf_spilled (d : Nat) (s : State) :
    (spilled d s).trwOf d = { s.trwOf d with held := (s.trwOf d).held - 1, lost := 0, firstLost := 0 } := by
  obtain ⟨-, -, -, -, -, htrw⟩ := spilled_frame d s
  rw [State.trwOf, htrw]
  exact State.trwOf_setTrw _ _ _

theorem State.bytes_length (s : State) (a n : Nat) : (s.bytes a n).length = n := by
  induction n generalizing a with
  | zero => rfl
  | succ n ih => rw [State.bytes, List.length_cons, ih]

theorem traceSpill_spec (h : maySpill s d = true) : let t := traceSpill d s
    spillSlot t d = (spillSlot s d + 1) % spillSlots ∧ (t.trwOf d).lost = 0 ∧ t.units = s.units ∧ t.streams = s.streams ∧
    t.cores = s.cores ∧ ((s.trwOf d).lost = 0 → (t.trwOf d).held = (s.trwOf d).held - 1 ∧
      (∀ b, b < spillAddr d (spillSlot s d) ∨ spillAddr d (spillSlot s d) + 32 ≤ b → t.byte b = s.byte b) ∧
      t.bytes (spillAddr d (spillSlot s d)) 32 = s.bytes (slotOf s d (oldestSlot s d)) 32) := by
  obtain ⟨hunits, hstreams, hcores, hregs, hmem, -⟩ := spilled_frame d s
  have hw := trwOf_spilled d s
  let gap := gapRec d (s.trwOf d).lost (s.trwOf d).firstLost (spilled d s).time
  have hkeep : ∀ {β : Type} (g : State → β), g (putRec d gap (spilled d s)) = g (spilled d s) → g (traceSpill d s) = g (spilled d s) :=
    fun g hg => by rw [traceSpill_eq h]; exact State.when_field _ g _ _ hg
  have hlost : ((putRec d gap (spilled d s)).trwOf d).lost = ((spilled d s).trwOf d).lost := by
    have hrest := writerRest_putRec (d := d) gap (spilled d s)
    simp only [writerRest, Prod.mk.injEq] at hrest
    obtain ⟨-, -, hl, -⟩ := hrest
    exact hl
  have hslot : spillSlot (putRec d gap (spilled d s)) d = spillSlot (spilled d s) d :=
    congrArg (bits · 27 0) (regN_putRec (k := 0xC0) (by unfold recordLeaves; decide) (by decide) gap (spilled d s))
  dsimp only
  refine ⟨(hkeep (spillSlot · d) hslot).trans ((State.fld_congr hregs _ _).trans (spillSlot_ringCopy d s)),
    (hkeep (fun t => (t.trwOf d).lost) hlost).trans (by rw [hw]), (hkeep (·.units) (by simp)).trans hunits,
    (hkeep (·.streams) (by simp)).trans hstreams, (hkeep (·.cores) (by simp)).trans hcores, fun hnone => ?_⟩
  have ht : traceSpill d s = spilled d s := by rw [traceSpill_eq h, hnone]; rfl
  have hlen := State.bytes_length s (slotOf s d (oldestSlot s d)) 32
  rw [ht, hw]
  refine ⟨rfl, fun b hb => (State.byte_congr hmem b).trans (State.byte_setBytes_out s _ b _ (by rw [hlen]; exact hb)), ?_⟩
  have hcopy := State.bytes_setBytes_same s (spillAddr d (spillSlot s d)) (s.bytes (slotOf s d (oldestSlot s d)) 32)
  rw [hlen] at hcopy
  exact (State.bytes_congr hmem _ _).trans hcopy

end Sys2Proof.Machine

/-! PROOFS. The writer's start and stop, the latches of the counters, the hang snapshots, and the statement about tracing. -/

namespace Sys2Proof.Machine

set_option Elab.async false

variable {s : State} {d : Nat}

/-! ### TRC_CTRL (R410) -/

theorem bit_of_bits_zero {v hi lo i : Nat} (h : bits v hi lo = 0) (hlo : lo ≤ i) (hhi : i ≤ hi) : bit v i = false := by
  have htest := testBit_bits v hi lo (i - lo)
  rw [h, Nat.zero_testBit, decide_eq_true (by omega), Bool.true_and, Nat.add_sub_cancel' hlo] at htest
  exact htest.symm

theorem trcActions_none {v : Nat} (h : bits v 8 4 = 0) (d : Nat) (s : State) : trcActions d v s = s := by
  have hbit : ∀ i, 4 ≤ i → i ≤ 8 → bit v i = false := fun i => bit_of_bits_zero h
  simp [trcActions, hbit]

/-- The mode that a write of TRC_CTRL asks for. -/
def askedMode (d v : Nat) (s : State) : Nat := if bits v 2 1 = 3 then traceMode s d else bits v 2 1

/-- The fields of TRC_CTRL but for its enable. -/
def trcModes (d v : Nat) (s : State) : State :=
  let t := s.when (d == 0) (fun s => s.setFlag (tracePage d) Fld.TRC_CTRL.hang_on_timeout (bit v 9))
  if askedMode d v s = traceMode t d && bit v 3 == t.flag (tracePage d) Fld.TRC_CTRL.lossless then t
  else if s.flag (tracePage d) Fld.TRC_CTRL.enable then logStatus (tracePage d) stConflict t
  else (t.setFld (tracePage d) Fld.TRC_CTRL.mode (askedMode d v s)).setFlag (tracePage d) Fld.TRC_CTRL.lossless (bit v 3)

theorem trcFields_starts {v : Nat} (hon : s.flag (tracePage d) Fld.TRC_CTRL.enable = false) (hv : bit v 0 = true) :
    trcFields d v s = startWriter d (trcModes d v s) := by
  unfold trcFields
  dsimp only
  rw [hv, hon, if_pos (by decide), trcModes, hon]
  rfl

theorem trcFields_stops {v : Nat} (hon : s.flag (tracePage d) Fld.TRC_CTRL.enable = true) (hv : bit v 0 = false) :
    trcFields d v s = stopWriter d (trcModes d v s) := by
  unfold trcFields
  dsimp only
  rw [hv, hon, if_neg (by decide), if_pos (by decide), trcModes, hon]
  rfl

theorem trcModes_frame (d v : Nat) (s : State) : (trcModes d v s).mem = s.mem ∧ (trcModes d v s).units = s.units := by
  have htimeout : ∀ c, (s.when c (fun s => s.setFlag (tracePage d) Fld.TRC_CTRL.hang_on_timeout (bit v 9))).mem = s.mem ∧
      (s.when c (fun s => s.setFlag (tracePage d) Fld.TRC_CTRL.hang_on_timeout (bit v 9))).units = s.units := fun c => by cases c <;> simp
  obtain ⟨hmem, hunits⟩ := htimeout (d == 0)
  unfold trcModes
  dsimp only
  split
  · exact ⟨hmem, hunits⟩
  · split
    · simp [hmem, hunits]
    · simp [hmem, hunits]

/-- The registers that a write of TRC_CTRL's fields, or the log of its refusal, leaves. -/
theorem regN_trcModes {v o : Nat} (hctrl : o ≠ tracePage d + 0x80) (herr : o ≠ tracePage d + 0x18) (hfirst : o ≠ tracePage d + 0x1C)
    (s : State) : (trcModes d v s).regN o = s.regN o := by
  have htimeout : ∀ c, (s.when c (fun s => s.setFlag (tracePage d) Fld.TRC_CTRL.hang_on_timeout (bit v 9))).regN o = s.regN o := fun c =>
    State.when_field s (State.regN · o) c _ (State.regN_setFld_ne _ _ _ _ hctrl)
  unfold trcModes
  dsimp only
  split
  · exact htimeout _
  · split
    · exact (congrArg BitVec.toNat (reg_logStatus _ herr hfirst)).trans (htimeout _)
    · exact (State.regN_setFld_ne _ _ _ _ hctrl).trans ((State.regN_setFld_ne _ _ _ _ hctrl).trans (htimeout _))

/-- A register of the trace page beside TRC_CTRL and the log of errors. -/
theorem regN_trcModes_page {v k : Nat} (hctrl : k ≠ 0x80) (herr : k ≠ 0x18) (hfirst : k ≠ 0x1C) (s : State) :
    (trcModes d v s).regN (tracePage d + k) = s.regN (tracePage d + k) :=
  regN_trcModes (fun he => hctrl (Nat.add_left_cancel he)) (fun he => herr (Nat.add_left_cancel he))
    (fun he => hfirst (Nat.add_left_cancel he)) s

theorem traceMode_timeout (c b : Bool) (s : State) :
    traceMode (s.when c (fun s => s.setFlag (tracePage d) Fld.TRC_CTRL.hang_on_timeout b)) d = traceMode s d :=
  State.when_field s (traceMode · d) c _ (State.fld_setFld_ne _ _ _ _ _ _ (.inr (.inl (by decide))))

/-- Without enable the mode asked for is stored. -/
theorem traceMode_trcModes {v : Nat} (hon : s.flag (tracePage d) Fld.TRC_CTRL.enable = false) (hv : bits v 2 1 ≠ 3) :
    traceMode (trcModes d v s) d = bits v 2 1 := by
  have hasked : askedMode d v s = bits v 2 1 := if_neg hv
  unfold trcModes
  dsimp only
  rw [hasked, hon, if_neg Bool.false_ne_true]
  split
  next h =>
    simp only [Bool.and_eq_true, decide_eq_true_eq] at h
    exact h.1.symm
  next =>
    have hmode : bits v 2 1 % 2 ^ 2 = bits v 2 1 := Nat.mod_eq_of_lt (bits_lt v 2 1)
    exact (State.fld_setFld_ne _ _ _ _ _ _ (.inr (.inl (by decide)))).trans
      ((State.fld_setFld_same _ _ _ _ (by decide) (by decide)).trans hmode)

/-- With enable the mode stands. -/
theorem traceMode_trcModes_on {v : Nat} (hon : s.flag (tracePage d) Fld.TRC_CTRL.enable = true) :
    traceMode (trcModes d v s) d = traceMode s d := by
  have hlog : ∀ t, traceMode (logStatus (tracePage d) stConflict t) d = traceMode t d := fun t =>
    congrArg (fun w => bits (BitVec.toNat w) 2 1) (reg_logStatus t (fun he => absurd (Nat.add_left_cancel he) (by decide))
      (fun he => absurd (Nat.add_left_cancel he) (by decide)))
  unfold trcModes
  dsimp only
  rw [hon, if_pos rfl]
  split
  · exact traceMode_timeout _ _ s
  · exact (hlog _).trans (traceMode_timeout _ _ s)

theorem tierPage_ne_trace (k : Nat) (hk : k < 4096) (d : Nat) : tierPage 0 + Fld.DIE_FIXED.per_ctl.off ≠ tracePage d + k := by
  simp only [tierPage, tracePage, dieWin, Fld.DIE_FIXED.per_ctl]
  omega

theorem bufferOk_trcModes (d v : Nat) (s : State) : bufferOk (trcModes d v s) d = bufferOk s d := by
  have hbase : (trcModes d v s).fld (tracePage d) Fld.TRC_BUF_BASE.folio = s.fld (tracePage d) Fld.TRC_BUF_BASE.folio :=
    congrArg (bits · 22 0) (regN_trcModes_page (k := 0x88) (by decide) (by decide) (by decide) s)
  have hper : (trcModes d v s).fld (tierPage 0) Fld.DIE_FIXED.per_ctl = s.fld (tierPage 0) Fld.DIE_FIXED.per_ctl :=
    congrArg (bits · 18 0) (regN_trcModes (tierPage_ne_trace _ (by decide) d) (tierPage_ne_trace _ (by decide) d)
      (tierPage_ne_trace _ (by decide) d) s)
  rw [bufferOk, hbase, fixedFolios, perCtl, hper]
  rfl

theorem traceMode_enable (b : Bool) (s : State) : traceMode (s.setFlag (tracePage d) Fld.TRC_CTRL.enable b) d = traceMode s d :=
  State.fld_setFld_ne _ _ _ _ _ _ (.inr (.inr (by decide)))

/-- A start of a writer whose buffer lies in the fixed range. -/
theorem startWriter_spec (h : bufferOk s d = true) : let t := startWriter d s
    traceState t d = 1 ∧ traceMode t d = traceMode s d ∧ nextSlot t d = 0 ∧ t.regN (tracePage d + 0x90) = 0 ∧
    t.flag (tracePage d) Fld.TRC_CTRL.enable = true ∧ t.mem = s.mem ∧ t.units = s.units := by
  let enabled := s.setFlag (tracePage d) Fld.TRC_CTRL.enable true
  let first := enabled.setFld (tracePage d) Fld.TRC_WR_IDX.index 0
  let kept := first.setRegN (tracePage d + 0x90) 0
  let shown := (kept.setFlag (tracePage d) Fld.TRC_STATUS.wrapped false).setFld (tracePage d) Fld.TRC_STATUS.state 1
  have ht : startWriter d s = shown.setTrw d { TrcW.reset with rot := (shown.trwOf d).rot } := by
    unfold startWriter
    rw [if_pos h]
  have hregs : (startWriter d s).regs = shown.regs := by rw [ht, State.setTrw_regs]
  have hstatus : ∀ {k : Nat}, k ≠ 0x84 → (startWriter d s).regN (tracePage d + k) = kept.regN (tracePage d + k) := fun hk =>
    (State.regN_congr hregs _).trans ((State.regN_setFld_ne _ _ _ _ fun he => hk (Nat.add_left_cancel he)).trans
      (State.regN_setFld_ne _ _ _ _ fun he => hk (Nat.add_left_cancel he)))
  have hctrl : (startWriter d s).regN (tracePage d + 0x80) = enabled.regN (tracePage d + 0x80) :=
    (hstatus (by decide)).trans ((State.regN_setRegN_ne _ _ (fun he => absurd (Nat.add_left_cancel he) (by decide))).trans
      (State.regN_setFld_ne _ _ _ _ (fun he => absurd (Nat.add_left_cancel he) (by decide))))
  have hindex : (startWriter d s).regN (tracePage d + 0x8C) = first.regN (tracePage d + 0x8C) :=
    (hstatus (by decide)).trans (State.regN_setRegN_ne _ _ (fun he => absurd (Nat.add_left_cancel he) (by decide)))
  refine ⟨?_, ?_, ?_, (hstatus (k := 0x90) (by decide)).trans ((State.regN_setRegN_same first _ 0).trans (Nat.zero_mod _)),
    ?_, ?_, ?_⟩
  · exact (State.fld_congr hregs _ _).trans (State.fld_setFld_same _ _ _ _ (by decide) (by decide))
  · exact (congrArg (bits · 2 1) hctrl).trans (traceMode_enable true s)
  · exact (congrArg (bits · 20 0) hindex).trans ((State.fld_setFld_same _ _ _ _ (by decide) (by decide)).trans (Nat.zero_mod _))
  · exact (congrArg (fun w => bits w 0 0 == 1) hctrl).trans (State.flag_setFlag_same _ _ _ _)
  · rw [ht]; simp [shown, kept, first, enabled]
  · rw [ht]; simp [shown, kept, first, enabled]

/-- The count of what an overrun writer lost goes to its last slot. -/
def closeFull (d : Nat) (s : State) : State :=
  let a := s.fld (tracePage d) Fld.TRC_BUF_BASE.folio * 65536 + 32 * (traceSlots - 1) + 16
  (copyFirst a 4 s).setNum a 4 (s.regN (tracePage d + 0x90))

theorem stopWriter_eq (d : Nat) (s : State) : stopWriter d s = ((s.when (traceState s d == 4) (closeFull d)).setFlag (tracePage d)
    Fld.TRC_CTRL.enable false).setFld (tracePage d) Fld.TRC_STATUS.state 0 := by
  unfold stopWriter closeFull
  rfl

/-- A write with enable clear ends the writer. -/
theorem stopWriter_spec (s : State) (d : Nat) : let t := stopWriter d s
    traceState t d = 0 ∧ t.flag (tracePage d) Fld.TRC_CTRL.enable = false ∧ traceMode t d = traceMode s d ∧
    (traceState s d ≠ 4 → t.mem = s.mem) ∧ t.units = s.units := by
  let closed := s.when (traceState s d == 4) (closeFull d)
  have hregs : closed.regs = s.regs := State.when_field s (·.regs) _ _ (by simp [closeFull, copyFirst])
  have hunits : closed.units = s.units := State.when_field s (·.units) _ _ (by simp [closeFull, copyFirst])
  dsimp only
  rw [stopWriter_eq]
  refine ⟨?_, ?_, ?_, fun hstate => ?_, ?_⟩
  · exact (State.fld_setFld_same _ _ _ _ (by decide) (by decide)).trans (Nat.zero_mod _)
  · exact (State.flag_setFld_ne _ _ _ _ _ _ (.inl fun he => absurd (Nat.add_left_cancel he) (by decide))).trans
      (State.flag_setFlag_same _ _ _ _)
  · exact (State.fld_setFld_ne _ _ _ _ _ _ (.inl fun he => absurd (Nat.add_left_cancel he) (by decide))).trans
      ((traceMode_enable false closed).trans (State.fld_congr hregs _ _))
  · have hopen : closed = s := by
      have hno : (traceState s d == 4) = false := beq_false_of_ne hstate
      simp only [closed, hno, State.when_false]
    exact (State.setFld_mem _ _ _ _).trans ((State.setFlag_mem _ _ _ _).trans (congrArg (·.mem) hopen))
  · exact (State.setFld_units _ _ _ _).trans ((State.setFlag_units _ _ _ _).trans hunits)

/-! ### Flags of both dies -/

theorem tracePage_sep (k : Nat) : tracePage 0 + k ≠ tracePage 1 + k := by simp only [tracePage, dieWin]; omega

theorem flag_bothDies_same (hd : d < 2) (f : Fld) (b : Bool) (s : State) (h : f.lo = f.hi := by decide) (hh : f.hi < 32 := by decide) :
    (bothDies f b s).flag (tracePage d) f = b := by
  obtain rfl | rfl : d = 0 ∨ d = 1 := by omega
  · exact (State.flag_setFlag_ne _ _ _ _ f f (.inl (tracePage_sep _)) (by omega) hh).trans (State.flag_setFlag_same _ _ f b h hh)
  · exact State.flag_setFlag_same _ _ f b h hh

theorem flag_bothDies_ne {f f' : Fld} (hbits : f'.hi < f.lo ∨ f.hi < f'.lo) (b : Bool) (s : State) (h : f.lo ≤ f.hi + 1 := by decide)
    (hh : f.hi < 32 := by decide) : (bothDies f b s).flag (tracePage d) f' = s.flag (tracePage d) f' :=
  (State.flag_setFlag_ne _ _ _ _ f f' (.inr hbits) h hh).trans (State.flag_setFlag_ne _ _ _ _ f f' (.inr hbits) h hh)

theorem regN_bothDies {f : Fld} {k : Nat} (hk : k < 4096) (hf : f.off < 4096) (h : k ≠ f.off) (b : Bool) (s : State) :
    (bothDies f b s).regN (tracePage d + k) = s.regN (tracePage d + k) := by
  have hne : ∀ e, tracePage d + k ≠ tracePage e + f.off := fun e => by simp only [tracePage, dieWin]; omega
  exact (State.regN_setFld_ne _ _ _ f (hne 1)).trans (State.regN_setFld_ne _ _ _ f (hne 0))

theorem bothDies_field {β : Type} (g : State → β) (hreg : ∀ d v t, g (State.setFlag t (tracePage d) f v) = g t) (b : Bool) (s : State) :
    g (bothDies f b s) = g s := State.each_field s g _ (fun d t => hreg d b t) _

/-! ### The latch of the counters (R414) -/

/-- The registers that count. -/
def countersOf (s : State) : SMap Word := List.filter (fun e : Nat × Word => isCounter e.1) s.regs

theorem filter_insert_out {α : Type} {p : Nat → Bool} {k : Nat} (h : p k = false) (v : α) (m : SMap α) :
    List.filter (fun e : Nat × α => p e.1) (SMap.insert m k v) = List.filter (fun e : Nat × α => p e.1) m := by
  induction m with
  | nil => simp [SMap.insert, h]
  | cons e m ih =>
    obtain ⟨j, w⟩ := e
    simp only [SMap.insert]
    split
    · simp [h]
    · split
      next he => subst he; simp [h]
      next => simp only [List.filter_cons, ih]

theorem filter_erase_out {α : Type} {p : Nat → Bool} {k : Nat} (h : p k = false) (m : SMap α) :
    List.filter (fun e : Nat × α => p e.1) (SMap.erase m k) = List.filter (fun e : Nat × α => p e.1) m := by
  induction m with
  | nil => rfl
  | cons e m ih =>
    obtain ⟨j, w⟩ := e
    simp only [SMap.erase]
    split
    next he => subst he; simp [h, ih]
    next => simp only [List.filter_cons, ih]

/-- A write of a register that does not count. -/
theorem countersOf_setRegN {o : Nat} (h : isCounter o = false) (v : Nat) (s : State) : countersOf (s.setRegN o v) = countersOf s := by
  have hset : ∀ w : Word, List.filter (fun e : Nat × Word => isCounter e.1) (SMap.set regReset s.regs o w) = countersOf s := fun w => by
    unfold SMap.set
    split
    · exact filter_erase_out h _
    · exact filter_insert_out h _ _
  exact hset _

theorem not_isCounter {d k : Nat} (hlow : 0x80 ≤ k) (hhigh : k < 4096) : isCounter (tracePage d + k) = false := by
  have hoff : (tracePage d + k) % 0x1000 = k := by simp only [tracePage, dieWin]; omega
  simp [isCounter, hoff]
  omega

theorem reg_eachFree {l : List Nat} {o : Nat} (h : o ∉ l) (s : State) : (s.each l advanceFree).reg o = s.reg o := by
  induction l generalizing s with
  | nil => rfl
  | cons a l ih =>
    have hne : o ≠ a := fun he => h (he ▸ List.mem_cons_self)
    exact (ih (fun hl => h (List.mem_cons_of_mem a hl)) _).trans (State.reg_setReg_ne _ _ hne)

/-- The counters whose count the spec leaves open, each with a free value. -/
def freshCounts (s : State) : State := s.each freeCounters advanceFree

/-- The time of a latch, on both dies. -/
def showSnapTime (s : State) : State := s.each [0, 1] (fun d s => s.setReg64 (tracePage d + 0xAC) s.time)

/-- The latch of the counters as they stand. -/
def latchNow (s : State) : State := { latchCounters s with snapAt := thisTick (latchCounters s) }

theorem latchNow_frame (s : State) : (latchNow s).regs = s.regs ∧ (latchNow s).mem = s.mem ∧ (latchNow s).units = s.units ∧
    (latchNow s).time = s.time ∧ (latchNow s).snapAt = thisTick s ∧ (latchNow s).snap = countersOf s := ⟨rfl, rfl, rfl, rfl, rfl, rfl⟩

theorem snapCounters_eq (s : State) : snapCounters s = bothDies Fld.TRC_STATUS.snap_valid true
    (showSnapTime (latchNow (freshCounts s))) := by
  unfold snapCounters showSnapTime freshCounts latchNow
  rfl

theorem freshCounts_frame (s : State) : (freshCounts s).mem = s.mem ∧ (freshCounts s).units = s.units ∧ (freshCounts s).time = s.time ∧
    (freshCounts s).sync = s.sync := by
  have hkeep : ∀ {β : Type} (g : State → β), (∀ o t, g (advanceFree o t) = g t) → g (freshCounts s) = g s := fun g hg =>
    State.each_field s g _ hg _
  exact ⟨hkeep (·.mem) fun _ _ => rfl, hkeep (·.units) fun _ _ => rfl, hkeep (·.time) fun _ _ => rfl, hkeep (·.sync) fun _ _ => rfl⟩

theorem showSnapTime_field {β : Type} (g : State → β)
    (hreg : ∀ d k v t, 0x80 ≤ k → k < 4096 → g (State.setRegN t (tracePage d + k) v) = g t)
    (s : State) : g (showSnapTime s) = g s := by
  have hstep : ∀ d v t, g (State.setReg64 t (tracePage d + 0xAC) v) = g t := fun d v t => by
    unfold State.setReg64
    rw [Nat.add_assoc, hreg d _ _ _ (by decide) (by decide), hreg d _ _ _ (by decide) (by decide)]
  exact State.each_field s g _ (fun d t => hstep d t.time t) _

theorem reg64_showSnapTime (hd : d < 2) (s : State) : (showSnapTime s).reg64 (tracePage d + 0xAC) = s.time % 2 ^ 64 := by
  have hsame : ∀ (t : State) (o v : Nat), (t.setReg64 o v).reg64 o = v % 2 ^ 64 := fun t o v => by
    rw [State.reg64, State.setReg64, State.regN_setRegN_ne _ _ (by omega), State.regN_setRegN_same, State.regN_setRegN_same]
    omega
  have hother : ∀ (t : State) (v : Nat), (t.setReg64 (tracePage 1 + 0xAC) v).reg64 (tracePage 0 + 0xAC) = t.reg64 (tracePage 0 + 0xAC) := by
    intro t v
    have hpages : tracePage 1 = tracePage 0 + 0x4000000 := rfl
    rw [State.reg64, State.setReg64, State.regN_setRegN_ne _ _ (by omega), State.regN_setRegN_ne _ _ (by omega),
      State.regN_setRegN_ne _ _ (by omega), State.regN_setRegN_ne _ _ (by omega)]
    rfl
  obtain rfl | rfl : d = 0 ∨ d = 1 := by omega
  · exact (hother _ _).trans (hsame _ _ _)
  · exact hsame _ _ _

theorem snapCounters_spec (hd : d < 2) (s : State) : let t := snapCounters s
    t.flag (tracePage d) Fld.TRC_STATUS.snap_valid = true ∧ t.reg64 (tracePage d + 0xAC) = s.time % 2 ^ 64 ∧
    t.snap = countersOf t ∧ t.snapAt = thisTick s ∧ (∀ off, isCounter off = true → off ∉ freeCounters → t.reg off = s.reg off) ∧
    t.mem = s.mem ∧ t.units = s.units := by
  obtain ⟨hmem, hunits, htime, hsync⟩ := freshCounts_frame s
  obtain ⟨hregs', hmem', hunits', htime', hsnapAt, hsnap⟩ := latchNow_frame (freshCounts s)
  have hkeep : ∀ {β : Type} (g : State → β), (∀ d k v t, 0x80 ≤ k → k < 4096 → g (State.setRegN t (tracePage d + k) v) = g t) →
      g (snapCounters s) = g (latchNow (freshCounts s)) := fun g hreg => by
    rw [snapCounters_eq]
    exact (bothDies_field g (fun d v t => hreg d Fld.TRC_STATUS.snap_valid.off _ t (by decide) (by decide)) true _).trans
      (showSnapTime_field g hreg _)
  have hreg : ∀ off, isCounter off = true → (snapCounters s).reg off = (freshCounts s).reg off := fun off hoff => by
    refine (hkeep (State.reg · off) fun d k v t hlow hhigh => State.reg_setReg_ne _ _ fun he => ?_).trans (State.reg_congr hregs' off)
    exact Bool.false_ne_true ((not_isCounter hlow hhigh).symm.trans (he ▸ hoff))
  dsimp only
  refine ⟨?_, ?_, ?_, ?_, fun off hoff hopen => (hreg off hoff).trans (reg_eachFree hopen s), ?_, ?_⟩
  · rw [snapCounters_eq]
    exact flag_bothDies_same hd _ true _
  · have htimeReg : ∀ k, k < 4096 → k ≠ 0x84 → (snapCounters s).regN (tracePage d + k) =
        (showSnapTime (latchNow (freshCounts s))).regN (tracePage d + k) :=
      fun k hk hne => by rw [snapCounters_eq]; exact regN_bothDies hk (by decide) hne true _
    have hwords : (snapCounters s).reg64 (tracePage d + 0xAC) = (showSnapTime (latchNow (freshCounts s))).reg64 (tracePage d + 0xAC) := by
      rw [State.reg64, State.reg64, Nat.add_assoc, htimeReg _ (by decide) (by decide), htimeReg _ (by decide) (by decide)]
    rw [hwords, reg64_showSnapTime hd, htime', htime]
  · have hcounters : countersOf (snapCounters s) = countersOf (freshCounts s) :=
      (hkeep countersOf fun d k v t hlow hhigh => countersOf_setRegN (not_isCounter hlow hhigh) v t).trans
        (congrArg (List.filter (fun e : Nat × Word => isCounter e.1)) hregs')
    rw [hcounters]
    exact (hkeep (·.snap) fun _ _ _ t _ _ => State.setRegN_snap t _ _).trans hsnap
  · refine (hkeep (·.snapAt) fun _ _ _ t _ _ => State.setRegN_snapAt t _ _).trans (hsnapAt.trans ?_)
    rw [thisTick, thisTick, hsync]
  · exact (hkeep (·.mem) fun _ _ _ t _ _ => State.setRegN_mem t _ _).trans (hmem'.trans hmem)
  · exact (hkeep (·.units) fun _ _ _ t _ _ => State.setRegN_units t _ _).trans (hunits'.trans hunits)

/-! ### Hang snapshots (R415) -/

theorem askHang_busy {trig stream seq : Nat} (h : s.hang.isSome = true) :
    askHang trig stream seq s = logStatus (tracePage 0) stConflict (bothDies Fld.TRC_STATUS.hang_err true s) := if_pos h

/-- The hang snapshot that a request starts. -/
def hangSet (trig stream seq : Nat) (s : State) : State := { s with hang := some ⟨s.time + 64, trig, stream, seq, false⟩ }

theorem askHang_starts {trig stream seq : Nat} (h : s.hang = none) (h0 : hangAreaOk s 0 = true) (h1 : hangAreaOk s 1 = true) :
    askHang trig stream seq s = bothDies Fld.TRC_STATUS.hang_busy true (bothDies Fld.TRC_STATUS.hang_done false
      (bothDies Fld.TRC_STATUS.hang_err false (hangSet trig stream seq s))) := by
  unfold askHang
  dsimp only
  rw [h, if_neg (by decide), h0, h1, if_neg (by decide)]
  rfl

theorem bothDies_frame (f : Fld) (b : Bool) (s : State) : (bothDies f b s).hang = s.hang ∧ (bothDies f b s).mem = s.mem ∧
    (bothDies f b s).units = s.units ∧ (bothDies f b s).streams = s.streams ∧ (bothDies f b s).cores = s.cores := by
  simp [bothDies]

theorem askHang_spec (hd : d < 2) (h : s.hang = none) (h0 : hangAreaOk s 0 = true) (h1 : hangAreaOk s 1 = true) : let t := askHang 0 0 0 s
    t.hang = some ⟨s.time + 64, 0, 0, 0, false⟩ ∧ t.flag (tracePage d) Fld.TRC_STATUS.hang_busy = true ∧
    t.flag (tracePage d) Fld.TRC_STATUS.hang_done = false ∧ t.mem = s.mem ∧ t.units = s.units := by
  have hset : ∀ t : State, (hangSet 0 0 0 t).hang = some ⟨t.time + 64, 0, 0, 0, false⟩ ∧ (hangSet 0 0 0 t).mem = t.mem ∧
      (hangSet 0 0 0 t).units = t.units := fun t => ⟨rfl, rfl, rfl⟩
  obtain ⟨hhang, hmem, hunits⟩ := hset s
  dsimp only
  rw [askHang_starts h h0 h1]
  refine ⟨?_, flag_bothDies_same hd _ true _, (flag_bothDies_ne (.inr (by decide)) true _).trans (flag_bothDies_same hd _ false _), ?_, ?_⟩
  · rw [(bothDies_frame _ _ _).1, (bothDies_frame _ _ _).1, (bothDies_frame _ _ _).1, hhang]
  · rw [(bothDies_frame _ _ _).2.1, (bothDies_frame _ _ _).2.1, (bothDies_frame _ _ _).2.1, hmem]
  · rw [(bothDies_frame _ _ _).2.2.1, (bothDies_frame _ _ _).2.2.1, (bothDies_frame _ _ _).2.2.1, hunits]

theorem hangCapture_idle (h : s.hang = none) : hangCapture s = s := by
  unfold hangCapture
  rw [h]

theorem hangCapture_early {h : Hang} (hh : s.hang = some h) (ht : s.time < h.time) : hangCapture s = s := by
  unfold hangCapture
  rw [hh]
  exact if_pos ht

section

variable {β : Type} (g : State → β) (hwrite : ∀ a n v t, g (fixedWrite a n v t) = g t) (hreg : ∀ o v t, g (State.setReg64 t o v) = g t)

include hwrite

theorem putChase_field (a ch : Nat) (s0 s : State) : g (putChase a ch s0 s) = g s :=
  (State.each_field _ g _ (fun _ t => hwrite _ _ _ t) _).trans (hwrite _ _ _ s)

include hreg

/-- The capture of a die writes its area and the time of the snapshot. -/
theorem putHang_field (d : Nat) (h : Hang) (s0 s : State) : g (putHang d h s0 s) = g s := by
  unfold putHang
  dsimp only
  refine (hreg _ _ _).trans ((State.each_field _ g _ (fun _ t => hwrite _ _ _ t) _).trans
    ((State.each_field _ g _ (fun _ t => putChase_field g hwrite _ _ _ t) _).trans
      ((State.each_field _ g _ (fun _ t => hwrite _ _ _ t) _).trans ((State.each_field _ g _ (fun _ t => hwrite _ _ _ t) _).trans
        (hwrite _ _ _ s)))))

theorem copyHang_field (hhang : ∀ h t, g { t with hang := h } = g t) (s : State) : g (copyHang s) = g s := by
  unfold copyHang
  split
  · split
    · rfl
    · exact (hhang _ _).trans ((putHang_field g hwrite hreg _ _ _ _).trans (putHang_field g hwrite hreg _ _ _ _))
  · rfl

end

theorem fixedWrite_rest (a n v : Nat) (s : State) : (fixedWrite a n v s).units = s.units ∧ (fixedWrite a n v s).streams = s.streams ∧
    (fixedWrite a n v s).cores = s.cores := by
  simp [fixedWrite, cleanEcc, copyFirst]

theorem copyHang_rest (s : State) : (copyHang s).units = s.units ∧ (copyHang s).streams = s.streams ∧ (copyHang s).cores = s.cores :=
  ⟨copyHang_field (·.units) (fun a n v t => (fixedWrite_rest a n v t).1) (fun o v t => State.setReg64_units t o v) (fun _ _ => rfl) s,
    copyHang_field (·.streams) (fun a n v t => (fixedWrite_rest a n v t).2.1) (fun o v t => State.setReg64_streams t o v) (fun _ _ => rfl) s,
    copyHang_field (·.cores) (fun a n v t => (fixedWrite_rest a n v t).2.2) (fun o v t => State.setReg64_cores t o v) (fun _ _ => rfl) s⟩

/-- No snapshot is under way. -/
def endHang (s : State) : State := { s with hang := none }

theorem endHang_frame (s : State) : (endHang s).hang = none ∧ (endHang s).units = s.units ∧ (endHang s).streams = s.streams ∧
    (endHang s).cores = s.cores := ⟨rfl, rfl, rfl, rfl⟩

theorem hangCapture_due {h : Hang} (hh : s.hang = some h) (ht : h.time ≤ s.time) : hangCapture s = raiseEv (tracePage 0) 3
    (bothDies Fld.TRC_STATUS.hang_busy false (bothDies Fld.TRC_STATUS.hang_done true (endHang (copyHang s)))) := by
  unfold hangCapture
  rw [hh]
  exact if_neg (Nat.not_lt.2 ht)

theorem flag_raiseTrace {e k : Nat} {f : Fld} (hlow : 0x20 < f.off) (hhigh : f.off < 2048) (s : State) :
    (raiseEv (tracePage e) k s).flag (tracePage d) f = s.flag (tracePage d) f :=
  flag_raiseEv s (by simp only [tracePage, dieWin]; omega) (by simp only [tracePage, dieWin]; omega)

theorem hangCapture_spec (hd : d < 2) {h : Hang} (hh : s.hang = some h) (ht : h.time ≤ s.time) : let t := hangCapture s
    t.hang = none ∧ t.flag (tracePage d) Fld.TRC_STATUS.hang_done = true ∧ t.flag (tracePage d) Fld.TRC_STATUS.hang_busy = false ∧
    bit (t.regN (tracePage 0 + 0x20)) 3 = true ∧ t.units = s.units ∧ t.streams = s.streams ∧ t.cores = s.cores := by
  obtain ⟨hunits, hstreams, hcores⟩ := copyHang_rest s
  obtain ⟨hnone, hunits0, hstreams0, hcores0⟩ := endHang_frame (copyHang s)
  obtain ⟨hhang1, -, hunits1, hstreams1, hcores1⟩ := bothDies_frame Fld.TRC_STATUS.hang_done true (endHang (copyHang s))
  obtain ⟨hhang2, -, hunits2, hstreams2, hcores2⟩ :=
    bothDies_frame Fld.TRC_STATUS.hang_busy false (bothDies Fld.TRC_STATUS.hang_done true (endHang (copyHang s)))
  dsimp only
  rw [hangCapture_due hh ht]
  refine ⟨?_, ?_, ?_, bit_raiseEv _ (tracePage_mod 0) (by decide), ?_, ?_, ?_⟩
  · simp [hhang2, hhang1, hnone]
  · exact (flag_raiseTrace (by decide) (by decide) _).trans
      ((flag_bothDies_ne (.inr (by decide)) false _).trans (flag_bothDies_same hd _ true _))
  · exact (flag_raiseTrace (by decide) (by decide) _).trans (flag_bothDies_same hd _ false _)
  · simp [hunits2, hunits1, hunits0, hunits]
  · simp [hstreams2, hstreams1, hstreams0, hstreams]
  · simp [hcores2, hcores1, hcores0, hcores]

/-! ### The statement -/

theorem exec_traceEnable {fn : Nat} (hd : d < 2) (hg : Granted s fn (tracePage d)) (v : Word) (hv : bits v.toNat 8 4 = 0) :
    exec (.traceEnable fn d v) s = .next (trcFields d v.toNat s) := by
  refine congrArg Host.Outcome.next ?_
  rw [Nat.mod_eq_of_lt hd, posted_granted hg, writeTrcCtrl, trcActions_none hv]

theorem exec_traceTrigger {fn : Nat} (hd : d < 2) (hg : Granted s fn (tracePage d)) :
    exec (.traceTrigger fn d) s = .next (trigger d 0 s) := by
  refine congrArg Host.Outcome.next ?_
  rw [Nat.mod_eq_of_lt hd, posted_granted hg, softTrigger]

theorem exec_traceArm {fn : Nat} (hd : d < 2) (hg : Granted s fn (tracePage d)) : exec (.traceArm fn d) s = .next (armWriter d s) := by
  refine congrArg Host.Outcome.next ?_
  rw [Nat.mod_eq_of_lt hd, posted_granted hg]

theorem exec_traceTimeTrigger (hd : d < 2) : exec (.traceTimeTrigger d) s = .next (traceTimeTrigger d s) :=
  congrArg (fun e => Host.Outcome.next (traceTimeTrigger e s)) (Nat.mod_eq_of_lt hd)

theorem exec_traceWrite (hd : d < 2) : exec (.traceWrite d) s = .next (traceWrite d s) :=
  congrArg (fun e => Host.Outcome.next (traceWrite e s)) (Nat.mod_eq_of_lt hd)

theorem exec_traceFreeze (hd : d < 2) : exec (.traceFreeze d) s = .next (traceFreeze d s) :=
  congrArg (fun e => Host.Outcome.next (traceFreeze e s)) (Nat.mod_eq_of_lt hd)

theorem exec_traceSpill (hd : d < 2) : exec (.traceSpill d) s = .next (traceSpill d s) :=
  congrArg (fun e => Host.Outcome.next (traceSpill e s)) (Nat.mod_eq_of_lt hd)

/-- Enable of a writer that is off. -/
theorem traceEnable_starts {fn : Nat} (hd : d < 2) (hg : Granted s fn (tracePage d)) (v : Word) (hv : bits v.toNat 8 4 = 0)
    (hon : s.flag (tracePage d) Fld.TRC_CTRL.enable = false) (henable : bit v.toNat 0 = true) (hmode : bits v.toNat 2 1 ≠ 3)
    (hok : bufferOk s d = true) : ∃ t, exec (.traceEnable fn d v) s = .next t ∧ traceState t d = 1 ∧ traceMode t d = bits v.toNat 2 1 ∧
      nextSlot t d = 0 ∧ t.regN (tracePage d + 0x90) = 0 ∧ t.flag (tracePage d) Fld.TRC_CTRL.enable = true ∧ t.mem = s.mem ∧
      t.units = s.units := by
  obtain ⟨hmem, hunits⟩ := trcModes_frame d v.toNat s
  obtain ⟨hstate, hmode', hnext, hlost, hflag, hmem', hunits'⟩ := startWriter_spec ((bufferOk_trcModes d v.toNat s).trans hok)
  refine ⟨startWriter d (trcModes d v.toNat s), ?_, hstate, hmode'.trans (traceMode_trcModes hon hmode), hnext, hlost, hflag,
    hmem'.trans hmem, hunits'.trans hunits⟩
  rw [exec_traceEnable hd hg v hv, trcFields_starts hon henable]

/-- A write without enable of a writer that is on. -/
theorem traceEnable_stops {fn : Nat} (hd : d < 2) (hg : Granted s fn (tracePage d)) (v : Word) (hv : bits v.toNat 8 4 = 0)
    (hon : s.flag (tracePage d) Fld.TRC_CTRL.enable = true) (henable : bit v.toNat 0 = false) :
    ∃ t, exec (.traceEnable fn d v) s = .next t ∧ traceState t d = 0 ∧ t.flag (tracePage d) Fld.TRC_CTRL.enable = false ∧
      traceMode t d = traceMode s d ∧ (traceState s d ≠ 4 → t.mem = s.mem) ∧ t.units = s.units := by
  obtain ⟨hmem, hunits⟩ := trcModes_frame d v.toNat s
  obtain ⟨hstate, hflag, hmode, hmem', hunits'⟩ := stopWriter_spec (trcModes d v.toNat s) d
  have hbefore : traceState (trcModes d v.toNat s) d = traceState s d :=
    congrArg (bits · 2 0) (regN_trcModes_page (k := 0x84) (by decide) (by decide) (by decide) s)
  refine ⟨stopWriter d (trcModes d v.toNat s), ?_, hstate, hflag, hmode.trans (traceMode_trcModes_on hon),
    fun h => (hmem' (hbefore ▸ h)).trans hmem, hunits'.trans hunits⟩
  rw [exec_traceEnable hd hg v hv, trcFields_stops hon henable]

theorem armWriter_frozen (h : traceState s d = 3) : armWriter d s = s.setFld (tracePage d) Fld.TRC_STATUS.state 1 := if_pos h

theorem armWriter_other (h : traceState s d ≠ 3) : armWriter d s = s := if_neg h

/-- A lowered source leaves the writer as it is but for the marker. -/
theorem traceTrigger_lowers {fn c : Nat} (hd : d < 2) (hg : Granted s fn (tracePage d)) (hstate : 2 ≤ traceState s d)
    (hmark : (s.trwOf d).mark = some (s.time, c)) (hlow : 0 < c) : let slot := slotOf s d (bits (s.regN (tracePage d + 0xA8)) 20 0)
    ∃ t, exec (.traceTrigger fn d) s = .next t ∧ traceState t d = traceState s d ∧
      t.regN (tracePage d + 0xA8) = s.regN (tracePage d + 0xA8) ∧ t.num slot 32 = recWord (markerRec d 0 s.time) % 2 ^ 256 ∧
      (∀ b, b < slot ∨ slot + 32 ≤ b → t.byte b = s.byte b) ∧ t.units = s.units ∧ t.streams = s.streams ∧ t.cores = s.cores := by
  obtain ⟨hregs, hrest⟩ := trigger_lower hstate hmark hlow
  exact ⟨trigger d 0 s, exec_traceTrigger hd hg, State.fld_congr hregs _ _, State.regN_congr hregs _, hrest⟩

theorem exec_counterSnap {fn : Nat} (hg : Granted s fn (tracePage 0)) : exec (.counterSnap fn) s = .next (snapCounters s) :=
  congrArg Host.Outcome.next (posted_granted hg _ _ _)

theorem exec_snapRelease {fn : Nat} (hg : Granted s fn (tracePage 0)) : exec (.snapRelease fn) s = .next (releaseSnap s) :=
  congrArg Host.Outcome.next (posted_granted hg _ _ _)

theorem exec_hangRequest {fn : Nat} (hg : Granted s fn (tracePage 0)) : exec (.hangRequest fn) s = .next (askHang 0 0 0 s) :=
  congrArg Host.Outcome.next (posted_granted hg _ _ _)

/-- Settles O47: a record takes the writer's next slot (`putRec`), a trigger is a marker's record, its index and its event, and a
latch or a hang snapshot shows in the status of both dies. -/
theorem traceAndSnapshots : Obligations.TraceAndSnapshots := by
  unfold Obligations.TraceAndSnapshots
  intro s d hd
  refine ⟨fun fn v hg hv => ⟨traceEnable_starts hd hg v hv, traceEnable_stops hd hg v hv⟩,
    fun fn hg => ⟨fun h => ⟨_, exec_traceTrigger hd hg, trigger_marks h.1 h.2.1 h.2.2 0⟩,
      fun hstate hmark => (exec_traceTrigger hd hg).trans (congrArg _ (trigger_ignored hstate hmark)),
      fun hstate c hmark hlow => traceTrigger_lowers hd hg hstate hmark hlow,
      fun h => (exec_traceArm hd hg).trans (congrArg _ (armWriter_frozen h)),
      fun h => (exec_traceArm hd hg).trans (congrArg _ (armWriter_other h))⟩,
    fun hon htime h => ⟨_, (exec_traceTimeTrigger hd).trans (congrArg _ (timeTrigger_due hon htime)), trigger_marks h.1 h.2.1 h.2.2 2⟩,
    fun h => (exec_traceTimeTrigger hd).trans (congrArg _ (timeTrigger_ignored h)),
    fun h => (exec_traceWrite hd).trans (congrArg _ (traceWrite_still h)),
    fun ch r hstate hmode hrec hnext hrecs hlost hothers =>
      ⟨_, exec_traceWrite hd, traceWrite_moves hstate hmode hrec hnext hrecs hlost hothers⟩,
    fun hstate hpost => (exec_traceFreeze hd).trans (congrArg _ (traceFreeze_done hstate hpost)),
    fun h => (exec_traceFreeze hd).trans (congrArg _ (traceFreeze_waits h)),
    fun h => ⟨_, exec_traceSpill hd, traceSpill_spec h⟩,
    fun h => (exec_traceSpill hd).trans (congrArg _ (if_neg (by rw [h]; exact Bool.false_ne_true))),
    fun fn hg => ⟨⟨_, exec_counterSnap hg, snapCounters_spec hd s⟩, exec_snapRelease hg,
      fun h => (exec_hangRequest hg).trans (congrArg _ (askHang_busy h)),
      fun h h0 h1 => ⟨_, exec_hangRequest hg, askHang_spec hd h h0 h1⟩⟩,
    fun h => congrArg Host.Outcome.next (hangCapture_idle h),
    fun h hh ht => congrArg Host.Outcome.next (hangCapture_early hh ht),
    fun h hh ht => ⟨_, rfl, hangCapture_spec hd hh ht⟩⟩

end Sys2Proof.Machine

/-! PROOFS. The control core's instructions, one by one: how one retires, and the statements about arithmetic and branches. -/

namespace Sys2Proof.Machine

/-! ### Fields of an instruction word -/

theorem bits_half (x : Nat) : bits x 15 0 = x % 65536 := rfl

section Core

variable {s t : State} {ch : Nat}

/-! ### An instruction that emits no trace record (R408, R409) -/

theorem lossHold_of_trq {f : State → State} (h : (f s).trq = s.trq) : lossHold ch f s = f s := by
  have hq : (f s).trqOf ch = s.trqOf ch := by unfold State.trqOf; rw [h]
  simp [lossHold, wouldLose, tooSoon, hq]

/-- A core that runs does what its instruction does. -/
theorem coreRow_of_coreAt {op : Nat} (h : CoreAt s ch op) (htrq : (insOf op ch (coreWord s ch) s).trq = s.trq) :
    coreRow op ch s = insOf op ch (coreWord s ch) s := by
  obtain ⟨hchase, hforme, hrun, hfetch, hop, -⟩ := h
  have htry : coreTry ch s = insOf op ch (coreWord s ch) s := by
    simp [coreTry, hforme, hrun, hfetch, hop]
  simp only [coreRow, hchase, hop, beq_self_eq_true, Bool.true_and, Bool.true_or, if_true]
  rw [← htry] at htrq ⊢
  exact lossHold_of_trq htrq

/-- What an instruction retires to, where the core emits no records: its results, the next PC, a count. -/
theorem retireAt_quiet (hlevel : traceLevel s ch = 0) (time w : Nat) (next : Word) (dst : List (Nat × Word)) (rec : Option CoreRec)
    (kick : Bool) : retireAt time ch w next dst rec kick s =
      s.setCore ch { (dst.foldl (fun c x => CoreSt.setG c x.1 x.2) (s.core ch)).freed with
        pc := next, retired := ((s.core ch).retired + 1) % 2 ^ 32, wd := if kick then 0 else (s.core ch).wd } := by
  have hset : ∀ c, traceLevel (s.setCore ch c) ch = 0 := fun c => (State.fld_congr rfl _ _ ▸ hlevel : min 2 _ = 0)
  cases rec <;> simp [retireAt, hlevel, hset]

@[simp] theorem CoreSt.setG_retired (c : CoreSt) (n : Nat) (v : Word) : (c.setG n v).retired = c.retired := by
  unfold CoreSt.setG; split <;> rfl
@[simp] theorem CoreSt.setG_wd (c : CoreSt) (n : Nat) (v : Word) : (c.setG n v).wd = c.wd := by unfold CoreSt.setG; split <;> rfl

theorem retire_none (hlevel : traceLevel s ch = 0) (w : Nat) (next : Word) (rec : Option CoreRec) :
    retire ch w next [] rec false s = s.setCore ch (retired (s.core ch) next) := retireAt_quiet hlevel ..

theorem retire_one (hlevel : traceLevel s ch = 0) (w : Nat) (next : Word) (r : Nat) (v : Word) (rec : Option CoreRec) :
    retire ch w next [(r, v)] rec false s = s.setCore ch (retired ((s.core ch).setG r v) next) := by
  rw [retire, retireAt_quiet hlevel, ← CoreSt.setG_retired (s.core ch) r v, ← CoreSt.setG_wd (s.core ch) r v]
  rfl

/-- With the watchdog restarted (R150). -/
theorem retire_none_kick (hlevel : traceLevel s ch = 0) (w : Nat) (next : Word) (rec : Option CoreRec) :
    retire ch w next [] rec true s = s.setCore ch (retiredKick (s.core ch) next) := retireAt_quiet hlevel ..

theorem retire_one_kick (hlevel : traceLevel s ch = 0) (w : Nat) (next : Word) (r : Nat) (v : Word) (rec : Option CoreRec) :
    retire ch w next [(r, v)] rec true s = s.setCore ch (retiredKick ((s.core ch).setG r v) next) := by
  rw [retire, retireAt_quiet hlevel, ← CoreSt.setG_retired (s.core ch) r v]
  rfl

theorem setRd_quiet (hlevel : traceLevel s ch = 0) (v : Word) (w : Nat) :
    setRd v ch w s = s.setCore ch (retired ((s.core ch).setG (iRd w) v) ((s.core ch).pc + 4)) := retire_one hlevel w _ (iRd w) v none

/-- A row of the core ends in the state that its instruction leaves. -/
theorem exec_coreRow {op : Nat} {i : Instr} {t : State} (hi : exec i s = .next (coreRow op ch s)) (h : CoreAt s ch op)
    (hins : insOf op ch (coreWord s ch) s = t) (htrq : t.trq = s.trq) : exec i s = .next t := by
  subst hins
  rw [hi, coreRow_of_coreAt h htrq]

/-- A row whose instruction writes rd and goes on. -/
theorem exec_setRd {op : Nat} {i : Instr} {v : Word} (hi : exec i s = .next (coreRow op ch s)) (h : CoreAt s ch op)
    (hins : insOf op ch (coreWord s ch) s = setRd v ch (coreWord s ch) s) :
    exec i s = .next (s.setCore ch (retired ((s.core ch).setG (iRd (coreWord s ch)) v) ((s.core ch).pc + 4))) :=
  exec_coreRow hi h (hins.trans (setRd_quiet h.2.2.2.2.2 v _)) rfl

/-! ### Arithmetic (R132) -/

theorem slt_iff (a b : Word) : a.slt b = true ↔ a.toInt < b.toInt := by simp [BitVec.slt]
theorem not_slt_iff (a b : Word) : (!a.slt b) = true ↔ b.toInt ≤ a.toInt := by simp [BitVec.slt]
theorem ult_iff (a b : Word) : a.ult b = true ↔ a.toNat < b.toNat := by simp [BitVec.ult]
theorem not_ult_iff (a b : Word) : (!a.ult b) = true ↔ b.toNat ≤ a.toNat := by simp [BitVec.ult]

theorem bnat_slt (a b : Word) : bnat (a.slt b) = if a.toInt < b.toInt then 1 else 0 := by
  simp only [bnat, slt_iff]

theorem bnat_ult (a b : Word) : bnat (a.ult b) = if a.toNat < b.toNat then 1 else 0 := by
  simp only [bnat, ult_iff]

/-- Settles O6: each immediate form writes rd with its own value. -/
theorem coreArithmetic : Obligations.CoreArithmetic := by
  unfold Obligations.CoreArithmetic
  intro s ch
  refine ⟨fun h => exec_setRd rfl h rfl, fun h => exec_setRd rfl h rfl, fun h => exec_setRd rfl h rfl, fun h => exec_setRd rfl h rfl,
    fun h hres hk => exec_setRd rfl h ?_, fun h hres hk => exec_setRd rfl h ?_, fun h hres hk => exec_setRd rfl h ?_,
    fun h hres => exec_setRd rfl h ?_, fun h => ?_⟩
  · simp [insOf, insShi, hres, hk]
  · simp [insOf, insShi, hres, hk]
  · simp [insOf, insShi, hres, hk]
  · simp [insOf, insLui, hres, iImm]
  · rw [← bnat_slt]
    exact exec_setRd rfl h rfl

/-- An ALU word whose function the table lists. -/
theorem exec_alu_of {v : Word} (h : CoreAt s ch 0x00)
    (hv : aluFn (bits (coreWord s ch) 10 0) ((s.core ch).reg (iRa (coreWord s ch))) ((s.core ch).reg (iRb (coreWord s ch))) = some v) :
    exec (.alu ch) s = .next (s.setCore ch (retired ((s.core ch).setG (iRd (coreWord s ch)) v) ((s.core ch).pc + 4))) := by
  refine exec_setRd rfl h ?_
  show insAlu ch (coreWord s ch) s = _
  simp only [insAlu, hv]

/-- Settles O7: each function of ALU is the one that `aluFn` lists under its number. -/
theorem coreAluFunctions : Obligations.CoreAluFunctions := by
  unfold Obligations.CoreAluFunctions
  intro s ch h
  have listed : ∀ {f : Nat} {v : Word}, aluFn f ((s.core ch).reg (iRa (coreWord s ch))) ((s.core ch).reg (iRb (coreWord s ch))) = some v →
      bits (coreWord s ch) 10 0 = f → exec (.alu ch) s =
        .next (s.setCore ch (retired ((s.core ch).setG (iRd (coreWord s ch)) v) ((s.core ch).pc + 4))) :=
    fun hv hf => exec_alu_of h (hf ▸ hv)
  refine ⟨listed rfl, listed rfl, listed rfl, listed rfl, listed rfl, listed rfl, listed rfl, listed rfl, listed ?_, listed ?_,
    listed rfl, listed rfl, listed ?_, listed ?_⟩
  · exact congrArg some (bnat_slt ..)
  · exact congrArg some (bnat_ult ..)
  · simp only [aluFn, slt_iff]
  · simp only [aluFn, slt_iff]

/-! ### Branches (R132) -/

theorem branchIns_quiet (hlevel : traceLevel s ch = 0) (f : Word → Word → Bool) (w : Nat) : branchIns f ch w s =
    s.setCore ch (retired (s.core ch) (if f ((s.core ch).reg (iRd w)) ((s.core ch).reg (iRa w)) then (s.core ch).pc + iSImm w * 4
      else (s.core ch).pc + 4)) := by
  unfold branchIns
  dsimp only
  split
  · exact retire_none hlevel ..
  · exact retire_none hlevel ..

theorem exec_branch {op : Nat} {i : Instr} {f : Word → Word → Bool} {p : Word} (hi : exec i s = .next (coreRow op ch s)) (h : CoreAt s ch op)
    (hins : insOf op = branchIns f) (hp : (if f ((s.core ch).reg (iRd (coreWord s ch))) ((s.core ch).reg (iRa (coreWord s ch)))
      then (s.core ch).pc + iSImm (coreWord s ch) * 4 else (s.core ch).pc + 4) = p) :
    exec i s = .next (s.setCore ch (retired (s.core ch) p)) := by
  subst hp
  exact exec_coreRow hi h ((congrFun (congrFun (congrFun hins _) _) _).trans (branchIns_quiet h.2.2.2.2.2 f _)) rfl

/-- A jump to a word-aligned address with its reserved bits 0. -/
theorem jumpIns_quiet (hlevel : traceLevel s ch = 0) {w : Nat} (h25 : bits w 25 21 = 0) (h15 : bits w 15 0 = 0)
    (halign : ((s.core ch).reg (iRa w)).toNat % 4 = 0) :
    jumpIns ch w s = s.setCore ch (retired (s.core ch) ((s.core ch).reg (iRa w))) := by
  simp only [jumpIns, h25, h15, halign, bne_self_eq_false, Bool.or_self, Bool.false_eq_true, if_false]
  exact retire_none hlevel ..

theorem insRte_quiet (hlevel : traceLevel s ch = 0) {w : Nat} (htrap : (s.core ch).inTrap = true) (h25 : bits w 25 21 = 0)
    (h15 : bits w 15 0 = 0) (halign : ((s.core ch).reg (iRa w)).toNat % 4 = 0) :
    insRte ch w s = (s.setCore ch { s.core ch with inTrap := false }).setCore ch
      (retired { s.core ch with inTrap := false } ((s.core ch).reg (iRa w))) := by
  have hset : (s.setCore ch { s.core ch with inTrap := false }).core ch = { s.core ch with inTrap := false } := State.core_setCore_same ..
  have hjump : jumpIns ch w (s.setCore ch { s.core ch with inTrap := false }) = _ :=
    jumpIns_quiet ((State.fld_congr rfl _ _ ▸ hlevel : min 2 _ = 0)) h25 h15 (by rw [hset]; exact halign)
  rw [hset] at hjump
  simp only [insRte, htrap, h25, h15, halign, bne_self_eq_false, Bool.or_self, Bool.false_eq_true, if_false, Bool.not_true]
  exact hjump

/-- Settles O8: each branch by its comparison; a jump leaves all but the PC, its link register and the count. -/
theorem coreBranches : Obligations.CoreBranches := by
  unfold Obligations.CoreBranches
  intro s ch
  refine ⟨fun h => exec_branch (f := fun a b => a == b) rfl h rfl ?_, fun h => exec_branch (f := fun a b => a != b) rfl h rfl ?_,
    fun h => exec_branch (f := fun a b => a.slt b) rfl h rfl ?_, fun h => exec_branch (f := fun a b => !a.slt b) rfl h rfl ?_,
    fun h => exec_branch (f := fun a b => a.ult b) rfl h rfl ?_, fun h => exec_branch (f := fun a b => !a.ult b) rfl h rfl ?_,
    fun h => exec_coreRow rfl h (retire_one h.2.2.2.2.2 _ _ (bits (coreWord s ch) 25 21) _ none) rfl,
    fun h h25 h15 halign => exec_coreRow rfl h (jumpIns_quiet h.2.2.2.2.2 h25 h15 halign) rfl,
    fun h htrap h25 h15 halign => ⟨_, exec_coreRow rfl h (insRte_quiet h.2.2.2.2.2 htrap h25 h15 halign) rfl,
      State.core_setCore_same .., fun u hu => ?_, rfl, rfl, rfl, rfl⟩⟩
  · simp [iRd, iRa, iSImm, iImm]
  · simp [iRd, iRa, iSImm, iImm]
  · exact if_congr (slt_iff ..) rfl rfl
  · exact if_congr (not_slt_iff ..) rfl rfl
  · exact if_congr (ult_iff ..) rfl rfl
  · exact if_congr (not_ult_iff ..) rfl rfl
  · exact (State.core_setCore_ne _ _ hu).trans (State.core_setCore_ne _ _ hu)

end Core
end Sys2Proof.Machine

/-! PROOFS. Loads and stores of the control core, and the traps that its instructions take; the statements about them. -/

namespace Sys2Proof.Machine

section Memory

variable {s t : State} {ch : Nat}

/-! ### Reads of a Chase's page -/

theorem traceLevel_congr (h : t.regN (unitPage ch + 0x108) = s.regN (unitPage ch + 0x108)) : traceLevel t ch = traceLevel s ch :=
  congrArg (fun w => min 2 (bits w 8 7)) h

theorem State.core_congr (h : t.cores = s.cores) (u : Nat) : t.core u = s.core u := by unfold State.core; rw [h]

/-- A row whose instruction writes rd after it has changed what is neither the core nor its trace. -/
theorem exec_setRd_after {op : Nat} {i : Instr} {v : Word} (hi : exec i s = .next (coreRow op ch s)) (h : CoreAt s ch op)
    (hins : insOf op ch (coreWord s ch) s = setRd v ch (coreWord s ch) t) (hlevel : traceLevel t ch = 0) (hcores : t.cores = s.cores)
    (htrq : t.trq = s.trq) :
    exec i s = .next (t.setCore ch (retired ((s.core ch).setG (iRd (coreWord s ch)) v) ((s.core ch).pc + 4))) := by
  rw [← State.core_congr hcores]
  exact exec_coreRow hi h (hins.trans (setRd_quiet hlevel v _)) htrq

/-! ### Loads (R129, R132) -/

/-- How the load of opcode `op` extends what it reads. -/
def loadExt (op : Nat) : Nat → Word :=
  if op = 0x12 then fun v => (BitVec.ofNat 16 v).signExtend 32
  else if op = 0x14 then fun v => (BitVec.ofNat 8 v).signExtend 32 else BitVec.ofNat 32

/-- The five loads. -/
theorem load_rows {op n : Nat} {i : Instr}
    (hi : (op, n, i) ∈ [(0x11, 4, Instr.ldw ch), (0x12, 2, .ldh ch), (0x13, 2, .ldhu ch), (0x14, 1, .ldb ch), (0x15, 1, .ldbu ch)]) :
    (∀ s, exec i s = .next (coreRow op ch s)) ∧ insOf op = loadIns n (loadExt op) := by
  simp only [List.mem_cons, Prod.mk.injEq, List.not_mem_nil, or_false] at hi
  rcases hi with ⟨rfl, rfl, rfl⟩ | ⟨rfl, rfl, rfl⟩ | ⟨rfl, rfl, rfl⟩ | ⟨rfl, rfl, rfl⟩ | ⟨rfl, rfl, rfl⟩ <;>
    exact ⟨fun _ => rfl, rfl⟩

/-- The address of a load or store. -/
def coreAddrOf (s : State) (ch w : Nat) : Nat := ((s.core ch).reg (iRa w) + iSImm w).toNat

theorem loadIns_mem {n w key : Nat} {ext : Nat → Word} {dmem : Bool} (halign : coreAddrOf s ch w % n = 0)
    (haddr : coreAddr ch (coreAddrOf s ch w) = .mem key dmem) (hecc : coreWordEcc s key dmem ≠ 2) :
    loadIns n ext ch w s = setRd (ext (s.num key n)) ch w (correctCore ch key dmem s) := by
  simp only [coreAddrOf] at halign haddr
  simp only [loadIns, halign, haddr, if_neg hecc, bne_self_eq_false, Bool.false_eq_true, if_false]

theorem correctCore_of_good {key : Nat} {dmem : Bool} (h : coreWordEcc s key dmem = 0) : correctCore ch key dmem s = s := by
  simp [correctCore, h]

theorem correctCore_of_marked {key : Nat} {dmem : Bool} (h : coreWordEcc s key dmem = 1) :
    correctCore ch key dmem s = (if dmem then s.setCoreEcc key 0 else s.setEcc key 0).bump (unitPage ch) 16 1 := if_pos h

theorem regN_correctCore (key : Nat) (dmem : Bool) : (correctCore ch key dmem s).regN (unitPage ch + 0x108) = s.regN (unitPage ch + 0x108) := by
  unfold correctCore
  split
  · rw [regN_bump, if_neg (by omega)]
    cases dmem <;> rfl
  · rfl

theorem correctCore_frame (key : Nat) (dmem : Bool) :
    (correctCore ch key dmem s).cores = s.cores ∧ (correctCore ch key dmem s).trq = s.trq := by
  unfold correctCore
  split
  · cases dmem <;> exact ⟨rfl, rfl⟩
  · exact ⟨rfl, rfl⟩

theorem coreAddr_dmem {a : Nat} (h : a < 0x4000) : coreAddr ch a = .mem (dmemBase ch + a) true := if_pos h

theorem coreAddr_store {a : Nat} (hlo : 0x40000 ≤ a) (hhi : a < 0x80000) : coreAddr ch a = .mem (chaseStore ch + (a - 0x40000)) false := by
  have hdmem : ¬ a < 0x4000 := by omega
  simp [coreAddr, hdmem, hlo, hhi]

/-- An address that is in no memory leads to CORE_MODE, to the trap vector or nowhere. -/
theorem coreAddr_other {a : Nat} (hlo : 0x4000 ≤ a) (hgap : a < 0x40000 ∨ 0x80000 ≤ a) :
    coreAddr ch a = .mode ∨ coreAddr ch a = .vec ∨ coreAddr ch a = .none := by
  have hdmem : ¬ a < 0x4000 := by omega
  have hstore : ¬ (0x40000 ≤ a ∧ a < 0x80000) := by omega
  unfold coreAddr
  simp only [hdmem, if_false, Bool.and_eq_true, decide_eq_true_eq, hstore]
  split
  · exact .inl rfl
  · split
    · exact .inr (.inl rfl)
    · exact .inr (.inr rfl)

section Loads

variable {op n : Nat} {i : Instr}
  (hi : (op, n, i) ∈ [(0x11, 4, Instr.ldw ch), (0x12, 2, .ldh ch), (0x13, 2, .ldhu ch), (0x14, 1, .ldb ch), (0x15, 1, .ldbu ch)])
  (h : CoreAt s ch op) (halign : coreAddrOf s ch (coreWord s ch) % n = 0)

include hi h halign

/-- A load from a memory whose word can be read. -/
theorem exec_load {key : Nat} {dmem : Bool} (haddr : coreAddr ch (coreAddrOf s ch (coreWord s ch)) = .mem key dmem)
    (hecc : coreWordEcc s key dmem ≠ 2) : exec i s = .next ((correctCore ch key dmem s).setCore ch
      (retired ((s.core ch).setG (iRd (coreWord s ch)) (loadExt op (s.num key n))) ((s.core ch).pc + 4))) := by
  obtain ⟨hrow, hins⟩ := load_rows hi
  obtain ⟨hcores, htrq⟩ := correctCore_frame (s := s) (ch := ch) key dmem
  refine exec_setRd_after (hrow s) h ?_ ((traceLevel_congr (regN_correctCore key dmem)).trans h.2.2.2.2.2) hcores htrq
  rw [hins]
  exact loadIns_mem halign haddr hecc

/-- A load of a word without a mark, and of one with a mark that can be corrected (R263, R403). -/
theorem exec_load_cases {key : Nat} {dmem : Bool} (haddr : coreAddr ch (coreAddrOf s ch (coreWord s ch)) = .mem key dmem)
    {u : State} (hu : (if dmem then s.setCoreEcc key 0 else s.setEcc key 0) = u) :
    let done := fun (t : State) => exec i s = .next (t.setCore ch
      (retired ((s.core ch).setG (iRd (coreWord s ch)) (loadExt op (s.num key n))) ((s.core ch).pc + 4)))
    (coreWordEcc s key dmem = 0 → done s) ∧ (coreWordEcc s key dmem = 1 → done (u.bump (unitPage ch) 16 1)) := by
  refine ⟨fun hecc => ?_, fun hecc => ?_⟩
  · exact (exec_load hi h halign haddr (by omega)).trans (by rw [correctCore_of_good hecc])
  · exact (exec_load hi h halign haddr (by omega)).trans (by rw [correctCore_of_marked hecc, hu])

end Loads

/-- LDW reads CORE_MODE and the trap vector (R129). -/
theorem exec_ldw_reg {v : Word} (h : CoreAt s ch 0x11) (hv : coreAddr ch (coreAddrOf s ch (coreWord s ch)) = .mode ∧ v = s.reg (unitPage ch + 0x108) ∨
      coreAddr ch (coreAddrOf s ch (coreWord s ch)) = .vec ∧ v = s.reg (unitPage ch + 0x11C))
    (halign : coreAddrOf s ch (coreWord s ch) % 4 = 0) :
    exec (.ldw ch) s = .next (s.setCore ch (retired ((s.core ch).setG (iRd (coreWord s ch)) v) ((s.core ch).pc + 4))) := by
  refine exec_setRd rfl h ?_
  show loadIns 4 (BitVec.ofNat 32) ch (coreWord s ch) s = _
  simp only [coreAddrOf] at hv halign
  rcases hv with ⟨haddr, rfl⟩ | ⟨haddr, rfl⟩ <;>
    simp only [loadIns, halign, haddr, bne_self_eq_false, Bool.false_eq_true, if_false, if_true]

/-- Settles O9: a load reads the memory that its address names; the correction of a marked word is `correctCore`. -/
theorem coreLoads : Obligations.CoreLoads := by
  unfold Obligations.CoreLoads
  intro s ch op n ext i hi hext h
  subst hext
  intro c w a done counted halign
  have hword : n = 4 → op = 0x11 ∧ i = .ldw ch := by
    intro hn
    subst hn
    simpa using hi
  refine ⟨fun hlo => exec_load_cases hi h halign (coreAddr_dmem hlo) rfl,
    fun hlo hhi => exec_load_cases hi h halign (coreAddr_store hlo hhi) rfl, fun ha hn => ?_, fun ha hn => ?_⟩
  · obtain ⟨rfl, rfl⟩ := hword hn
    exact exec_ldw_reg h (.inl ⟨congrArg (coreAddr ch) ha, rfl⟩) (hn ▸ halign)
  · obtain ⟨rfl, rfl⟩ := hword hn
    exact exec_ldw_reg h (.inr ⟨congrArg (coreAddr ch) ha, rfl⟩) (hn ▸ halign)

/-! ### Stores (R129, R132) -/

/-- The three stores. -/
theorem store_rows {op n : Nat} {i : Instr}
    (hi : (op, n, i) ∈ [(0x16, 4, Instr.stw ch), (0x17, 2, .sth ch), (0x18, 1, .stb ch)]) :
    (∀ s, exec i s = .next (coreRow op ch s)) ∧ insOf op = storeIns n := by
  simp only [List.mem_cons, Prod.mk.injEq, List.not_mem_nil, or_false] at hi
  rcases hi with ⟨rfl, rfl, rfl⟩ | ⟨rfl, rfl, rfl⟩ | ⟨rfl, rfl, rfl⟩ <;> exact ⟨fun _ => rfl, rfl⟩

theorem coreStore_field {β : Type} (g : State → β) (hbyte : ∀ a v t, g (State.setByte t a v) = g t)
    (hecc : ∀ a v t, g (State.setCoreEcc t a v) = g t) (hcask : ∀ c t, g { t with cask := c } = g t) (key : Nat) (dmem : Bool) (n v : Nat) :
    g (coreStore key dmem n v s) = g s := by
  have hbytes : ∀ (l : List (BitVec 8)) (a : Nat) (t : State), g (t.setBytes a l) = g t := by
    intro l
    induction l with
    | nil => intro a t; rfl
    | cons v l ih => intro a t; exact (ih _ _).trans (hbyte _ _ _)
  have hnum : g ((copyStore key n s).setNum key n v) = g s := (hbytes _ _ _).trans (hcask _ _)
  unfold coreStore
  dsimp only
  split
  · exact (hecc _ _ _).trans hnum
  · exact hnum

/-- A store of the core writes memory, check bits and the pending units of a Cask alone (R376, log 139). -/
theorem coreStore_frame (key : Nat) (dmem : Bool) (n v : Nat) : let t := coreStore key dmem n v s
    t.cores = s.cores ∧ t.regs = s.regs ∧ t.units = s.units ∧ t.streams = s.streams ∧ t.ports = s.ports ∧ t.out = s.out ∧ t.net = s.net ∧
      t.trq = s.trq :=
  have hfield := fun {β : Type} (g : State → β) hbyte hecc hcask => coreStore_field (s := s) g hbyte hecc hcask key dmem n v
  ⟨hfield (·.cores) (fun _ _ _ => rfl) (fun _ _ _ => rfl) fun _ _ => rfl, hfield (·.regs) (fun _ _ _ => rfl) (fun _ _ _ => rfl) fun _ _ => rfl,
    hfield (·.units) (fun _ _ _ => rfl) (fun _ _ _ => rfl) fun _ _ => rfl, hfield (·.streams) (fun _ _ _ => rfl) (fun _ _ _ => rfl) fun _ _ => rfl,
    hfield (·.ports) (fun _ _ _ => rfl) (fun _ _ _ => rfl) fun _ _ => rfl, hfield (·.out) (fun _ _ _ => rfl) (fun _ _ _ => rfl) fun _ _ => rfl,
    hfield (·.net) (fun _ _ _ => rfl) (fun _ _ _ => rfl) fun _ _ => rfl, hfield (·.trq) (fun _ _ _ => rfl) (fun _ _ _ => rfl) fun _ _ => rfl⟩

theorem coreStore_mem (key : Nat) (dmem : Bool) (n v : Nat) : (coreStore key dmem n v s).mem = (s.setNum key n v).mem := by
  have hset : ∀ (l : List (BitVec 8)) (a : Nat) (t u : State), t.mem = u.mem → (t.setBytes a l).mem = (u.setBytes a l).mem := by
    intro l
    induction l with
    | nil => intro a t u h; exact h
    | cons v l ih => intro a t u h; exact ih _ _ _ (congrArg (fun m => SMap.set memDefault m a v) h)
  have hnum : ((copyStore key n s).setNum key n v).mem = (s.setNum key n v).mem := hset _ _ _ _ rfl
  unfold coreStore
  dsimp only
  split
  · exact hnum
  · exact hnum

/-- A store to a memory retires after it (R129). -/
theorem storeIns_mem {n w key : Nat} {dmem : Bool} (hlevel : traceLevel s ch = 0) (halign : coreAddrOf s ch w % n = 0)
    (haddr : coreAddr ch (coreAddrOf s ch w) = .mem key dmem) :
    storeIns n ch w s = (coreStore key dmem n ((s.core ch).reg (iRd w)).toNat s).setCore ch (retired (s.core ch) ((s.core ch).pc + 4)) := by
  obtain ⟨hcores, hregs, -⟩ := coreStore_frame (s := s) key dmem n ((s.core ch).reg (iRd w)).toNat
  simp only [coreAddrOf] at halign haddr
  simp only [storeIns, halign, haddr, bne_self_eq_false, Bool.false_eq_true, if_false]
  rw [retireNext, retire_none ((traceLevel_congr (State.regN_congr hregs _)).trans hlevel), State.core_congr hcores]

/-- Settles O10: a store leaves its bytes in memory and changes, beside the core, only check bits and what a Cask has yet to copy. -/
theorem coreStores : Obligations.CoreStores := by
  unfold Obligations.CoreStores
  intro s ch op n i hi h c w a key halign hmap
  obtain ⟨hrow, hins⟩ := store_rows hi
  obtain ⟨dmem, haddr⟩ : ∃ dmem, coreAddr ch (coreAddrOf s ch w) = .mem key dmem := by
    rcases hmap with hlo | ⟨hlo, hhi⟩
    · exact ⟨true, (coreAddr_dmem hlo).trans (congrArg (CoreAddr.mem · true) (if_pos hlo).symm)⟩
    · exact ⟨false, (coreAddr_store hlo hhi).trans (congrArg (CoreAddr.mem · false) (if_neg (show ¬ a < 0x4000 by omega)).symm)⟩
  obtain ⟨hcores, hregs, hunits, hstreams, hports, hout, hnet, htrq⟩ := coreStore_frame (s := s) key dmem n (c.reg (iRd w)).toNat
  have hmem := coreStore_mem (s := s) key dmem n (c.reg (iRd w)).toNat
  refine ⟨_, exec_coreRow (hrow s) h ((congrFun (congrFun (congrFun hins _) _) _).trans (storeIns_mem h.2.2.2.2.2 halign haddr)) htrq,
    ?num, fun b hb => ?byte, State.core_setCore_same .., fun k hk => ?core, hregs, hunits, hstreams, hports, hout, hnet⟩
  case num =>
    rw [Nat.pow_mul]
    refine (congrArg leNat (State.bytes_congr ?_ key n)).trans (State.num_setNum s key n _)
    exact hmem
  case byte => exact (State.byte_congr hmem b).trans (State.byte_setNum_out s key b n _ hb)
  case core => exact (State.core_setCore_ne _ _ hk).trans (State.core_congr hcores k)

/-! ### Stores to CORE_MODE and the trap vector (R129, R130) -/

/-- An instruction with no record of its own retires in silence at trace level 1 too (R408). -/
theorem retireNext_unrecorded (hlevel : traceLevel s ch < 2) (w : Nat) :
    retireNext ch w [] none false s = s.setCore ch (retired (s.core ch) ((s.core ch).pc + 4)) := by
  have hquiet : ¬ 2 ≤ traceLevel s ch := by omega
  simp only [retireNext, retire, retireAt, hquiet, decide_false]
  rfl

/-- STW to one of the core's two registers retires after what it stores. -/
theorem exec_stw_reg (h : CoreAt s ch 0x16) (hins : storeIns 4 ch (coreWord s ch) s = retireNext ch (coreWord s ch) [] none false t)
    (hcores : t.cores = s.cores) (htrq : t.trq = s.trq) (hlevel : traceLevel t ch < 2) :
    exec (.stw ch) s = .next (t.setCore ch (retired (s.core ch) ((s.core ch).pc + 4))) := by
  rw [← State.core_congr hcores]
  exact exec_coreRow rfl h (hins.trans (retireNext_unrecorded hlevel _)) htrq

theorem storeIns_mode {w : Nat} (ha : coreAddrOf s ch w = 0x80000) : storeIns 4 ch w s = retireNext ch w [] none false
    (s.when ((s.core ch).hostMode != thisTick s) (fun s => s.setRegN (unitPage ch + 0x108) (((s.core ch).reg (iRd w)).toNat % 512))) := by
  simp only [coreAddrOf] at ha
  simp only [storeIns, ha]
  rfl

theorem storeIns_vec {w : Nat} (ha : coreAddrOf s ch w = 0x80004) : storeIns 4 ch w s = retireNext ch w [] none false
    (s.when ((s.core ch).hostVec != thisTick s) (fun s => s.setRegN (unitPage ch + 0x11C) (bits ((s.core ch).reg (iRd w)).toNat 13 2 * 4))) := by
  simp only [coreAddrOf] at ha
  simp only [storeIns, ha]
  rfl

/-- The trace level that a write of CORE_MODE's nine bits sets (R154). -/
theorem traceLevel_setMode (v : Nat) : traceLevel (s.setRegN (unitPage ch + 0x108) (v % 512)) ch = min 2 (bits v 8 7) := by
  have hbits : bits (v % 512 % 2 ^ 32) 8 7 = bits v 8 7 := by
    simp only [bits, Nat.shiftRight_eq_div_pow]
    omega
  rw [← hbits, ← State.regN_setRegN_same s (unitPage ch + 0x108) (v % 512)]
  rfl

/-- Settles O11: STW stores the bits that the register has, unless the host has written it in this tick. -/
theorem coreModeStores : Obligations.CoreModeStores := by
  unfold Obligations.CoreModeStores
  intro s ch h
  have hlevel : traceLevel s ch < 2 := by rw [h.2.2.2.2.2]; decide
  have addr_eq : ∀ {x : Word}, (s.core ch).reg (iRa (coreWord s ch)) + iSImm (coreWord s ch) = x → coreAddrOf s ch (coreWord s ch) = x.toNat :=
    fun ha => congrArg BitVec.toNat ha
  refine ⟨fun ha => ⟨fun hhost hv => ?mode, fun hhost => ?modeHost⟩, fun ha => ⟨fun hhost => ?vec, fun hhost => ?vecHost⟩⟩
  case mode =>
    refine exec_stw_reg h ((storeIns_mode (addr_eq ha)).trans (by rw [bne_iff_ne.2 hhost]; rfl)) rfl rfl ?_
    rw [traceLevel_setMode]
    omega
  case modeHost => exact exec_stw_reg h ((storeIns_mode (addr_eq ha)).trans (by rw [hhost, bne_self_eq_false]; rfl)) rfl rfl hlevel
  case vec =>
    refine exec_stw_reg h ((storeIns_vec (addr_eq ha)).trans (by rw [bne_iff_ne.2 hhost]; rfl)) rfl rfl ?_
    rw [traceLevel_congr (State.regN_setRegN_ne _ _ (by omega))]
    exact hlevel
  case vecHost => exact exec_stw_reg h ((storeIns_vec (addr_eq ha)).trans (by rw [hhost, bne_self_eq_false]; rfl)) rfl rfl hlevel

end Memory
end Sys2Proof.Machine

/-! PROOFS. The traps of the control core, its token, credit and timed instructions; the statements about them. -/

namespace Sys2Proof.Machine

section Traps

variable {s t : State} {ch : Nat}

/-! ### What taking a trap does (R149) -/

/-- To drop the waiting record of a TRAP changes one register, the count of open streams. -/
theorem regN_dropTrapRec {o : Nat} (h : o ≠ streamPage 0 + 0x88) : (dropTrapRec ch s).regN o = s.regN o := by
  unfold dropTrapRec
  refine State.each_field s (fun t => t.regN o) _ (fun id t => ?_) _
  unfold freeStream
  dsimp only
  split
  · exact State.regN_setRegN_ne _ _ h
  · rfl

/-- No register of a Chase's page is the count of open streams. -/
theorem regN_page_dropTrapRec {off : Nat} (h : off % 4096 ≠ 0x88) : (dropTrapRec ch s).regN (unitPage ch + off) = s.regN (unitPage ch + off) := by
  refine regN_dropTrapRec ?_
  have hpage := unitPage_mod ch
  simp only [streamPage]
  omega

theorem traceLevel_dropTrapRec : traceLevel (dropTrapRec ch s) ch = traceLevel s ch := traceLevel_congr (regN_page_dropTrapRec (by decide))

/-- A trap that is no memory error and no watchdog's, where the core emits no records. -/
theorem takeTrap_quiet (hlevel : traceLevel s ch = 0) {k : Nat} (hk : k ≠ trEcc ∧ k ≠ trParity ∧ k ≠ trWatchdog) :
    takeTrap ch k s = trapped s ch k := by
  obtain ⟨hecc, hpar, hwd⟩ := hk
  have hlevel' : traceLevel (dropTrapRec ch s) ch = 0 := traceLevel_dropTrapRec.trans hlevel
  have hvec : ∀ u : State, ((u.setFld (unitPage ch) Fld.CHS_TRAP_CAUSE.cause k).setFld (unitPage ch) Fld.CHS_TRAP_PC.trap_pc
      (pc14 (u.core ch))).fld (unitPage ch) Fld.CHS_TRAP_VEC.vector = u.fld (unitPage ch) Fld.CHS_TRAP_VEC.vector := fun u => by
    rw [State.fld_setFld_ne _ _ _ _ _ _ (.inl (by simp [Fld.CHS_TRAP_VEC.vector, Fld.CHS_TRAP_PC.trap_pc])),
      State.fld_setFld_ne _ _ _ _ _ _ (.inl (by simp [Fld.CHS_TRAP_VEC.vector, Fld.CHS_TRAP_CAUSE.cause]))]
  unfold takeTrap trapped
  generalize dropTrapRec ch s = u at hlevel' ⊢
  simp only [State.when, beq_false_of_ne hecc, beq_false_of_ne hpar, beq_false_of_ne hwd, hlevel', Bool.or_false, Bool.false_eq_true,
    if_false, show decide (1 ≤ 0) = false from rfl, hvec]
  cases hin : (u.core ch).inTrap <;> rfl

theorem trq_trapped (k : Nat) : (trapped s ch k).trq = s.trq := by
  unfold trapped
  dsimp only
  split
  · simp
  · split <;> simp

/-! ### When the core traps (R148) -/

theorem exec_of_coreInstrs {i : Instr} (hi : i ∈ coreInstrs ch) : ∃ op, ∀ s, exec i s = .next (coreRow op ch s) := by
  unfold coreInstrs at hi
  fin_cases hi <;> exact ⟨_, fun _ => rfl⟩

theorem insOf_of_unlisted {f : Nat} (h : listedOp f = false) : insOf f = trapIns trIllegal := by
  unfold insOf
  split
  case h_35 => rfl
  all_goals exact absurd h (by decide)

theorem aluFn_of_unlisted {f : Nat} (h : 13 < f) (a b : Word) : aluFn f a b = none := by
  unfold aluFn
  split
  case h_15 => rfl
  all_goals exact absurd h (by decide)

theorem fetchTrap_ne {k : Nat} (h : fetchTrap s ch = some k) : k = trBreak ∨ k = trParity ∨ k = trAddress := by
  unfold fetchTrap at h
  dsimp only at h
  split at h
  · simp_all
  · split at h
    · simp_all
    · split at h <;> simp_all

/-- A row that the core's trap belongs to ends in the trap. -/
theorem coreRow_of_trap {op k : Nat} (hchase : isChase ch = true) (hrow : (iOp (coreWord s ch) == op || !(listedOp (iOp (coreWord s ch))) ||
    ((s.core ch).run == .running && (fetchTrap s ch).isSome)) = true) (htry : coreTry ch s = trapped s ch k) :
    coreRow op ch s = trapped s ch k := by
  simp only [coreRow, hchase, hrow, Bool.true_and, if_true]
  rw [← htry]
  exact lossHold_of_trq (htry ▸ trq_trapped k)

/-- An instruction that traps, at its row. -/
theorem exec_trap {op k : Nat} {i : Instr} (hi : exec i s = .next (coreRow op ch s)) (h : CoreAt s ch op)
    (hk : k ≠ trEcc ∧ k ≠ trParity ∧ k ≠ trWatchdog) (hins : insOf op ch (coreWord s ch) s = takeTrap ch k s) :
    exec i s = .next (trapped s ch k) :=
  exec_coreRow hi h (hins.trans (takeTrap_quiet h.2.2.2.2.2 hk)) (trq_trapped k)

theorem loadIns_misaligned {n w : Nat} {ext : Nat → Word} (h : coreAddrOf s ch w % n ≠ 0) : loadIns n ext ch w s = takeTrap ch trMisaligned s :=
  if_pos (bne_iff_ne.mpr h)

theorem storeIns_misaligned {n w : Nat} (h : coreAddrOf s ch w % n ≠ 0) : storeIns n ch w s = takeTrap ch trMisaligned s :=
  if_pos (bne_iff_ne.mpr h)

section OutsideTheMap

variable {n w : Nat} (halign : coreAddrOf s ch w % n = 0) (hn : n ≠ 4) (hlo : 0x4000 ≤ coreAddrOf s ch w)
  (hgap : coreAddrOf s ch w < 0x40000 ∨ 0x80000 ≤ coreAddrOf s ch w)

include halign hn hlo hgap

theorem loadIns_outside {ext : Nat → Word} : loadIns n ext ch w s = takeTrap ch trAddress s := by
  have haddr := coreAddr_other (ch := ch) hlo hgap
  simp only [coreAddrOf] at halign haddr
  rcases haddr with haddr | haddr | haddr <;>
    simp only [loadIns, halign, haddr, hn, bne_self_eq_false, Bool.false_eq_true, if_false]

theorem storeIns_outside : storeIns n ch w s = takeTrap ch trAddress s := by
  have haddr := coreAddr_other (ch := ch) hlo hgap
  simp only [coreAddrOf] at halign haddr
  rcases haddr with haddr | haddr | haddr <;>
    simp only [storeIns, halign, haddr, hn, bne_self_eq_false, Bool.false_eq_true, if_false]

end OutsideTheMap

/-- Settles O13: `takeTrap` is `trapped` for a core that emits no trace records, and each listed condition reaches it. -/
theorem coreTraps : Obligations.CoreTraps := by
  unfold Obligations.CoreTraps
  intro s ch hchase hforme hrun hlevel c w a
  have at_op : ∀ {op}, fetchTrap s ch = none → iOp w = op → CoreAt s ch op := fun hf ho => ⟨hchase, hforme, hrun, hf, ho, hlevel⟩
  refine ⟨fun i hi k hk hpar => ?fetch, fun hf => ⟨fun i hi hop => ?unlisted, fun ho hfun => ?alu, fun ho hin => ?rte, fun ho hd hz hal => ?jr,
    fun ho hal => ?ldw, fun ho hal => ?stw, fun ho hal hlo hgap => ?sth, fun ho hlo hgap => ?ldb⟩⟩
  case fetch =>
    obtain ⟨op, hexec⟩ := exec_of_coreInstrs hi
    have hcause : k ≠ trEcc ∧ k ≠ trParity ∧ k ≠ trWatchdog := by
      rcases fetchTrap_ne hk with rfl | rfl | rfl
      · decide
      · exact absurd rfl hpar
      · decide
    rw [hexec, coreRow_of_trap hchase (by simp [hrun, hk])]
    rw [← takeTrap_quiet hlevel hcause]
    simp [coreTry, hforme, hrun, hk]
  case unlisted =>
    obtain ⟨op, hexec⟩ := exec_of_coreInstrs hi
    rw [hexec, coreRow_of_trap hchase (by simp [show listedOp (iOp (coreWord s ch)) = false from hop])]
    rw [← takeTrap_quiet hlevel (by decide)]
    have hins : insOf (iOp (coreWord s ch)) ch (coreWord s ch) s = takeTrap ch trIllegal s := by rw [insOf_of_unlisted hop, trapIns]
    simp [coreTry, hforme, hrun, hf, hins]
  case alu =>
    refine exec_trap rfl (at_op hf ho) (by decide) ?_
    show insAlu ch w s = _
    simp only [insAlu, aluFn_of_unlisted hfun]
  case rte => exact exec_trap rfl (at_op hf ho) (by decide) (if_pos (by simpa using hin))
  case jr =>
    refine exec_trap rfl (at_op hf ho) (by decide) ?_
    show jumpIns ch w s = _
    simp [jumpIns, hd, hz, hal, c]
  case ldw => exact exec_trap rfl (at_op hf ho) (by decide) (loadIns_misaligned hal)
  case stw => exact exec_trap rfl (at_op hf ho) (by decide) (storeIns_misaligned hal)
  case sth =>
    have hins : storeIns 2 ch w s = takeTrap ch trAddress s := storeIns_outside hal (by decide) hlo hgap
    exact exec_trap rfl (at_op hf ho) (by decide) hins
  case ldb =>
    have hins : insLdb ch w s = takeTrap ch trAddress s := loadIns_outside (Nat.mod_one _) (by decide) hlo hgap
    exact exec_trap rfl (at_op hf ho) (by decide) hins

/-! ### Tokens and credits (R137, R139 to R141) -/

/-- An instruction that stalls. -/
theorem exec_stall {op code : Nat} {i : Instr} (hi : exec i s = .next (coreRow op ch s)) (h : CoreAt s ch op)
    (hins : insOf op ch (coreWord s ch) s = stallCore ch code s) :
    exec i s = .next (s.setCore ch { s.core ch with run := .stalled, stall := code, since := s.time }) := by
  refine exec_coreRow hi h (hins.trans ?_) rfl
  simp [stallCore, h.2.2.1]

theorem when_freeEntry_frame (b : Bool) (stream : Nat) : (s.when b (freeEntry ch stream)).cores = s.cores ∧
    (s.when b (freeEntry ch stream)).regs = s.regs ∧ (s.when b (freeEntry ch stream)).trq = s.trq := by
  cases b
  · exact ⟨rfl, rfl, rfl⟩
  · show (freeEntry ch stream s).cores = _ ∧ _
    unfold freeEntry
    dsimp only [State.when, if_true]
    split
    · split <;> exact ⟨rfl, rfl, rfl⟩
    · exact ⟨rfl, rfl, rfl⟩

theorem twaitStatus_of_reached {stream seq : Nat} {e : TokEnt} (hfind : (s.unit ch).toks.find? (fun x => x.stream == stream) = some e)
    (hreached : seqGe e.high seq = true) :
    twaitStatus s ch stream seq = some (if e.fail && seqGe seq e.failSeq then stAbortFault else stOk) := by
  simp [twaitStatus, hfind, hreached]

section Instructions

variable (h : CoreAt s ch 0x20) (hres : bits (coreWord s ch) 9 0 = 0)

include h hres

/-- A TWAIT whose wait is satisfied. -/
theorem exec_twait_some {st : Nat} (hst : twaitStatus s ch ((s.core ch).regN (iRa (coreWord s ch)) % 65536)
      ((s.core ch).regN (iRb (coreWord s ch))) = some st) :
    exec (.twait ch) s = .next ((s.when (bit (coreWord s ch) 10)
      (freeEntry ch ((s.core ch).regN (iRa (coreWord s ch)) % 65536))).setCore ch
        (retired ((s.core ch).setG (iRd (coreWord s ch)) (BitVec.ofNat 32 st)) ((s.core ch).pc + 4))) := by
  obtain ⟨hcores, hregs, htrq⟩ := when_freeEntry_frame (s := s) (ch := ch) (bit (coreWord s ch) 10)
    ((s.core ch).regN (iRa (coreWord s ch)) % 65536)
  refine exec_coreRow rfl h ?_ htrq
  show insTwait ch (coreWord s ch) s = _
  simp only [insTwait, hres, bits_half, hst, bne_self_eq_false, Bool.false_eq_true, if_false]
  rw [retireNext, retire_one ((traceLevel_congr (State.regN_congr hregs _)).trans h.2.2.2.2.2), State.core_congr hcores]

theorem exec_twait_none (hst : twaitStatus s ch ((s.core ch).regN (iRa (coreWord s ch)) % 65536)
      ((s.core ch).regN (iRb (coreWord s ch))) = none) :
    exec (.twait ch) s = .next (s.setCore ch { s.core ch with run := .stalled, stall := 1, since := s.time }) := by
  refine exec_stall rfl h ?_
  show insTwait ch (coreWord s ch) s = _
  simp only [insTwait, hres, bits_half, hst, bne_self_eq_false, Bool.false_eq_true, if_false]

end Instructions

/-- An instruction that puts something into the network and restarts the watchdog. -/
theorem exec_send {op : Nat} {i : Instr} {net : List Sent} (hi : exec i s = .next (coreRow op ch s)) (h : CoreAt s ch op)
    (hins : ∃ rec, insOf op ch (coreWord s ch) s = retireNext ch (coreWord s ch) [] rec true { s with net := net }) :
    exec i s = .next (({ s with net := net } : State).setCore ch (retiredKick (s.core ch) ((s.core ch).pc + 4))) := by
  obtain ⟨rec, hins⟩ := hins
  exact exec_coreRow hi h (hins.trans (retire_none_kick (s := { s with net := net }) h.2.2.2.2.2 ..)) rfl

/-- Settles O14: each outcome is one branch of its instruction. -/
theorem coreTokensAndCredits : Obligations.CoreTokensAndCredits := by
  unfold Obligations.CoreTokensAndCredits
  intro s ch c w ra rb rd k
  refine ⟨fun h hres => ⟨fun e hfind hreached => ?found, fun hst => exec_twait_none h hres hst⟩, fun h hres hjob hpath => exec_send rfl h ?tsend,
    fun h hres => ⟨fun hbig => ?much, fun hfits hhas => ?taken, fun hfits hshort => exec_stall rfl h ?short⟩,
    fun h hres hpos hfits hpath => exec_send rfl h ?cput⟩
  case found =>
    rw [exec_twait_some h hres (twaitStatus_of_reached hfind hreached), apply_ite (BitVec.ofNat 32)]
    rfl
  case tsend =>
    have hzero : ¬ (bits w 9 0 != 0) = true := by simp [hres]
    have hown : ¬ (!ownJob s ch (ra % 65536)) = true := by simp [hjob]
    have hvalid : ¬ (!validPath (rd % 65536)) = true := by simp [hpath]
    exact ⟨_, (if_neg hzero).trans ((if_neg hown).trans (if_neg hvalid))⟩
  case much =>
    refine exec_coreRow rfl h ?_ rfl
    show insCget ch w s = _
    have hzero : ¬ (bits w 11 0 != 0) = true := by simp [hres]
    exact (if_neg hzero).trans ((if_pos hbig).trans (retire_one h.2.2.2.2.2 ..))
  case taken =>
    let u := s.setCore ch (c.setCredit k (c.credit k - ra))
    have hcore : u.core ch = c.setCredit k (c.credit k - ra) := State.core_setCore_same ..
    have hins : insCget ch w s = u.setCore ch (retired ((u.core ch).setG (iRd w) 0) ((u.core ch).pc + 4)) := by
      have hzero : ¬ (bits w 11 0 != 0) = true := by simp [hres]
      exact (if_neg hzero).trans ((if_neg (Nat.not_lt.mpr hfits)).trans ((if_pos hhas).trans (retire_one (s := u) h.2.2.2.2.2 ..)))
    refine ⟨_, exec_coreRow rfl h hins rfl, ?_, fun v hv => (State.core_setCore_ne _ _ hv).trans (State.core_setCore_ne _ _ hv), rfl, rfl, rfl, rfl⟩
    rw [State.core_setCore_same, hcore]
    rfl
  case short =>
    show insCget ch w s = _
    have hzero : ¬ (bits w 11 0 != 0) = true := by simp [hres]
    exact (if_neg hzero).trans ((if_neg (Nat.not_lt.mpr hfits)).trans (if_neg (Nat.not_le.mpr hshort)))
  case cput =>
    have hzero : ¬ (bits w 11 0 != 0) = true := by simp [hres]
    have hvalid : ¬ (!validPath (rd % 65536)) = true := by simp [hpath]
    exact ⟨_, (if_neg hzero).trans ((if_neg hpos.ne').trans ((if_neg (Nat.not_lt.mpr hfits)).trans (if_neg hvalid)))⟩

end Traps

end Sys2Proof.Machine

/-! PROOFS. The timers of the control core and the host's commands to it; the statements about them. -/

namespace Sys2Proof.Machine

section Timers

variable {s t : State} {ch : Nat}

/-! ### Stalls that last too long (R137, R140, R143) -/

theorem onTimeout_of_plain {d : Nat} (h : PlainTimeouts s d) (stream seq : Nat) (act : State → State) : onTimeout d stream seq act s = act s := by
  obtain ⟨hask, htrigger, hhang⟩ := h
  simp [onTimeout, hask, htrigger, hhang, State.when]

theorem stalledFor_of_late {code limit : Nat} (hrun : (s.core ch).run = .stalled) (hcode : (s.core ch).stall = code)
    (hlate : (s.core ch).since + limit < s.time) : stalledFor s ch code limit = true := by
  simp [stalledFor, overdue, hrun, hcode, hlate]

/-- The end of a stall by trap or, where the core does not ask for one, with a status in rd. -/
def timeoutEnd (ch w trap status : Nat) (rec : Option CoreRec) (s : State) : State :=
  if trapOnTimeout s ch then takeTrap ch trap s else retireNext ch w [(iRd w, BitVec.ofNat 32 status)] rec false s

theorem timeoutEnd_quiet (hlevel : traceLevel s ch = 0) {trap : Nat} (htrap : trap ≠ trEcc ∧ trap ≠ trParity ∧ trap ≠ trWatchdog)
    (w status : Nat) (rec : Option CoreRec) : timeoutEnd ch w trap status rec s = if s.flag (unitPage ch) Fld.CHS_CORE_MODE.trap_on_timeout then
      trapped s ch trap else s.setCore ch (retired ((s.core ch).setG (iRd w) (BitVec.ofNat 32 status)) ((s.core ch).pc + 4)) := by
  rw [timeoutEnd, takeTrap_quiet hlevel htrap, retireNext, retire_one hlevel]
  rfl

theorem lossHold_timeoutEnd (hlevel : traceLevel s ch = 0) {trap : Nat} (htrap : trap ≠ trEcc ∧ trap ≠ trParity ∧ trap ≠ trWatchdog)
    (w status : Nat) (rec : State → Option CoreRec) :
    lossHold ch (fun s => timeoutEnd ch w trap status (rec s) s) s = if s.flag (unitPage ch) Fld.CHS_CORE_MODE.trap_on_timeout then
      trapped s ch trap else s.setCore ch (retired ((s.core ch).setG (iRd w) (BitVec.ofNat 32 status)) ((s.core ch).pc + 4)) := by
  have hend := timeoutEnd_quiet hlevel htrap w status (rec s)
  rw [lossHold_of_trq, hend]
  rw [hend]
  split
  · exact trq_trapped trap
  · rfl

/-- The period of the watchdog. -/
theorem wdPeriod_of_set (h : s.fld (unitPage ch) Fld.CHS_WDOG.wd_exp ≠ 0) :
    wdPeriod s ch = some (2 ^ max 16 (s.fld (unitPage ch) Fld.CHS_WDOG.wd_exp)) := if_neg h

/-- What is due at the edge of a Forme that is ON happens at once. -/
theorem atEdge_of_on {u : Nat} (h : formeOn s u = true) (source path : Nat) (i : Instr) (fail act : State → State) :
    atEdge u source path i fail act s = act s := by
  have hstate : formeState s u = 0 := by simpa [formeOn] using h
  simp [atEdge, formeGated, hstate]

theorem State.fld_of_regN {b : Nat} {f : Fld} (h : t.regN (b + f.off) = s.regN (b + f.off)) : t.fld b f = s.fld b f := by
  unfold State.fld
  rw [h]

theorem State.flag_of_regN {b : Nat} {f : Fld} (h : t.regN (b + f.off) = s.regN (b + f.off)) : t.flag b f = s.flag b f := by
  unfold State.flag
  rw [State.fld_of_regN h]

/-- The core after a trap (R149). -/
def trappedCore (c : CoreSt) (vecEn : Bool) (vector : Nat) : CoreSt :=
  if vecEn && !c.inTrap then { c.freed with inTrap := true, pc := BitVec.ofNat 32 (vector * 4) }
  else { c with run := .halted, stall := 0, stepping := false, doubleTrap := c.doubleTrap || c.inTrap }

/-- How the core enters the trap, once its waiting record is dropped and the trap is counted (R149). -/
def enterTrap (ch cause : Nat) (s : State) : State :=
  let c := s.core ch
  let page := unitPage ch
  let noted := (s.setFld page Fld.CHS_TRAP_CAUSE.cause cause).setFld page Fld.CHS_TRAP_PC.trap_pc (pc14 c)
  if coreFlag s ch Fld.CHS_CORE_MODE.vec_en && !c.inTrap then
    raiseEv page 9 (noted.setCore ch { c.freed with inTrap := true, pc := BitVec.ofNat 32 (noted.fld page Fld.CHS_TRAP_VEC.vector * 4) })
  else
    let s := if c.inTrap then s.setFld page Fld.CHS_TRAP_CAUSE.second_cause cause
      else noted.setFld page Fld.CHS_TRAP_CAUSE.second_cause cause
    raiseEv page 8 (s.setCore ch { c with run := .halted, stall := 0, stepping := false, doubleTrap := c.doubleTrap || c.inTrap })

theorem enterTrap_frame (cause : Nat) : (enterTrap ch cause s).cask = s.cask ∧ (enterTrap ch cause s).mem = s.mem ∧
    (enterTrap ch cause s).trq = s.trq := by
  unfold enterTrap
  dsimp only
  split
  · simp
  · split <;> simp

theorem core_enterTrap (cause : Nat) : (enterTrap ch cause s).core ch =
    trappedCore (s.core ch) (s.flag (unitPage ch) Fld.CHS_CORE_MODE.vec_en) (s.fld (unitPage ch) Fld.CHS_TRAP_VEC.vector) := by
  have raised : ∀ (k : Nat) (t : State) (c : CoreSt), (raiseEv (unitPage ch) k (t.setCore ch c)).core ch = c := fun k t c =>
    (State.core_congr (s := t.setCore ch c) (by simp) ch).trans (State.core_setCore_same ..)
  unfold enterTrap trappedCore coreFlag
  dsimp only
  rw [State.fld_setFld_ne _ _ _ _ _ _ (.inl (by simp [Fld.CHS_TRAP_VEC.vector, Fld.CHS_TRAP_PC.trap_pc])),
    State.fld_setFld_ne _ _ _ _ _ _ (.inl (by simp [Fld.CHS_TRAP_VEC.vector, Fld.CHS_TRAP_CAUSE.cause]))]
  split
  · exact raised ..
  · exact raised ..

/-- The watchdog's trap counts among those that the Cask is told of (R150). -/
theorem takeTrap_watchdog_eq (hlevel : traceLevel s ch = 0) : takeTrap ch trWatchdog s =
    enterTrap ch trWatchdog { dropTrapRec ch s with cask := { (dropTrapRec ch s).cask with traps := (dropTrapRec ch s).cask.traps + 1 } } := by
  have hlevel' : traceLevel (dropTrapRec ch s) ch = 0 := traceLevel_dropTrapRec.trans hlevel
  unfold takeTrap
  generalize dropTrapRec ch s = u at *
  have hquiet : decide (1 ≤ traceLevel { u with cask := { u.cask with traps := u.cask.traps + 1 } } ch) = false :=
    congrArg (fun n => decide (1 ≤ n)) hlevel'
  have hmemory : (trWatchdog == trEcc || trWatchdog == trParity) = false := rfl
  simp only [hmemory, beq_self_eq_true, Bool.false_or, State.when_true, State.when_false, hquiet]
  rfl

theorem takeTrap_watchdog (hlevel : traceLevel s ch = 0) :
    (takeTrap ch trWatchdog s).cask.traps = s.cask.traps + 1 ∧ (takeTrap ch trWatchdog s).mem = s.mem ∧
      (takeTrap ch trWatchdog s).trq = s.trq ∧ (takeTrap ch trWatchdog s).core ch =
        trappedCore (s.core ch) (s.flag (unitPage ch) Fld.CHS_CORE_MODE.vec_en) (s.fld (unitPage ch) Fld.CHS_TRAP_VEC.vector) := by
  have hvec : (dropTrapRec ch s).flag (unitPage ch) Fld.CHS_CORE_MODE.vec_en = s.flag (unitPage ch) Fld.CHS_CORE_MODE.vec_en :=
    State.flag_of_regN (regN_page_dropTrapRec (by decide))
  have hto : (dropTrapRec ch s).fld (unitPage ch) Fld.CHS_TRAP_VEC.vector = s.fld (unitPage ch) Fld.CHS_TRAP_VEC.vector :=
    State.fld_of_regN (regN_page_dropTrapRec (by decide))
  have hcore : (dropTrapRec ch s).core ch = s.core ch := State.core_congr (by simp) ch
  rw [takeTrap_watchdog_eq hlevel]
  obtain ⟨hcask, hmem, htrq⟩ := enterTrap_frame (ch := ch)
    (s := { dropTrapRec ch s with cask := { (dropTrapRec ch s).cask with traps := (dropTrapRec ch s).cask.traps + 1 } }) trWatchdog
  refine ⟨?_, hmem.trans (by simp), htrq.trans (by simp), ?_⟩
  · rw [hcask]
    simp
  · rw [core_enterTrap, ← hcore, ← hvec, ← hto]
    rfl

/-- Settles O17: without traces, triggers and hang snapshots a timer does its own act alone. -/
theorem coreTimeouts : Obligations.CoreTimeouts := by
  unfold Obligations.CoreTimeouts
  intro s ch hchase hlevel hplain c w page strm late cmd
  refine ⟨fun ⟨hrun, hcode, hlate⟩ hst => ?twait, fun ⟨hrun, hcode, hlate⟩ hcred => ?cget, fun ⟨hrun, hcode, hlate⟩ hroom => ?issue,
    fun hforme hrun htimer hdue hwakes => ?timer, fun hexp hdue hrun => ?watchdog, fun cmd rest hq hrun hclock hpass hslot => ?outbound⟩
  case twait =>
    have hnone : ¬ (twaitStatus s ch (bits (c.regN (iRa w)) 15 0) (c.regN (iRb w))).isSome = true := by
      rw [bits_half, hst]; simp
    refine congrArg Host.Outcome.next ((if_pos (stalledFor_of_late hrun hcode hlate)).trans ((if_neg hnone).trans ?_))
    rw [onTimeout_of_plain hplain]
    exact lossHold_timeoutEnd hlevel (by decide) w stTokenTo _
  case cget =>
    refine congrArg Host.Outcome.next ((if_pos (stalledFor_of_late hrun hcode hlate)).trans ((if_neg (Nat.not_le.mpr hcred)).trans ?_))
    rw [onTimeout_of_plain hplain]
    exact lossHold_timeoutEnd hlevel (by decide) w stCreditTo _
  case issue =>
    have hfull : ¬ issueRoom s ch cmd = true := by simp [hroom]
    refine congrArg Host.Outcome.next ((if_pos (stalledFor_of_late hrun hcode hlate)).trans ((if_neg hfull).trans ?_))
    rw [onTimeout_of_plain hplain]
    have hend := fun rec => retire_one_kick hlevel w (c.pc + 4) (iRd w) (BitVec.ofNat 32 stCreditTo) rec
    rw [lossHold_of_trq, retireNext, hend]
    · rfl
    · rw [retireNext, hend]
      rfl
  case timer =>
    have hdue' : (c.run == .waiting && c.timer != 0 && decide (c.since + c.timer ≤ s.time)) = true := by simp [hrun, htimer, hdue]
    refine congrArg Host.Outcome.next ((if_pos hdue').trans ?_)
    rw [atEdge_of_on hforme, wakeSource]
    simp [c, hwakes]
  case watchdog =>
    let v := s.setCore ch { c with wd := 0 }
    let u := raiseEv page 10 v
    have hcore : u.core ch = { c with wd := 0 } := (State.core_congr (s := v) (by simp [u]) ch).trans (State.core_setCore_same ..)
    have hreg : ∀ off, off < 2048 → off ≠ 0x20 → u.regN (page + off) = s.regN (page + off) := fun off hoff hne => by
      have hpage := unitPage_mod ch
      exact regN_raiseEv v (by omega) (by omega)
    obtain ⟨htraps, hmem, htrq, htrap⟩ := takeTrap_watchdog (s := u) ((traceLevel_congr (hreg 0x108 (by decide) (by decide))).trans hlevel)
    rw [hcore, State.flag_of_regN (hreg _ (by decide) (by decide)), State.fld_of_regN (hreg _ (by decide) (by decide))] at htrap
    have hexec : exec (.watchdogExpiry ch) s = .next (takeTrap ch trWatchdog u) := by
      have hbusy : ((c.run == .running || c.run == .stalled) && decide (2 ^ max 16 (s.fld page Fld.CHS_WDOG.wd_exp) ≤ c.wd)) = true := by
        rcases hrun with hrun | hrun <;> simp [hrun, hdue]
      refine congrArg Host.Outcome.next ?_
      rw [watchdogExpiry, wdPeriod_of_set hexp]
      refine (if_pos hbusy).trans (lossHold_of_trq (htrq.trans ?_))
      simp [u, v]
    refine ⟨_, hexec, ?_, htraps.trans (by simp [u, v]), hmem.trans (by simp [u, v]), ?_⟩
    · rw [htrap, trappedCore]
      split <;> rfl
    · rw [htrap, trappedCore]
      split
      · exact ⟨rfl, rfl⟩
      · exact ⟨rfl, rfl⟩
  case outbound =>
    have hstays : retryCore ch (enqueue (cPath cmd) ch cmd (some ch) (s.setCore ch { c with outq := rest })) =
        enqueue (cPath cmd) ch cmd (some ch) (s.setCore ch { c with outq := rest }) := by
      refine if_neg ?_
      rw [State.core_congr (s := s.setCore ch { c with outq := rest }) (by simp [enqueue]) ch, State.core_setCore_same]
      simpa using hrun
    refine congrArg Host.Outcome.next (Eq.trans ?_ hstays)
    simp only [outboundSend, show (s.core ch).outq = cmd :: rest from hq, hpass, hslot, hclock, Bool.not_false, Bool.and_true, if_true]
    rfl

end Timers

end Sys2Proof.Machine

/-! PROOFS. The host's commands to a control core: the statement about its reset, and the one about the rest, which a waiting record refutes. -/

namespace Sys2Proof.Machine

section HostControl

variable {s : State} {ch : Nat}

theorem coreCtrl_of_idle (h : (s.core ch).run ≠ .loading) (ks : List Nat) : coreCtrl ch ks s = coreActions ch ks s := if_neg (by simpa using h)

theorem outq_haltCore : ((haltCore ch s).core ch).outq = (s.core ch).outq := by
  unfold haltCore
  dsimp only
  split
  · rfl
  · have hcore := fun c => State.core_congr (s := s.setCore ch c) (t := dropTrapRec ch (s.setCore ch c)) (by simp) ch
    rw [hcore, State.core_setCore_same]

theorem regN_haltCore {o : Nat} (h : o ≠ streamPage 0 + 0x88) : (haltCore ch s).regN o = s.regN o := by
  unfold haltCore
  dsimp only
  split
  · rfl
  · exact regN_dropTrapRec h

/-- Settles O58: a core reset is a halt, then the clearing of the core's own state. -/
theorem coreResetClears : Obligations.CoreResetClears := by
  unfold Obligations.CoreResetClears
  intro s fn ch hgranted hforme hrun
  have hexec : exec (.coreReset fn ch) s = .next (resetCore ch s) := by
    refine congrArg Host.Outcome.next ((posted_granted hgranted _ _ _).trans ?_)
    rw [atEdge_of_on hforme, coreCtrl_of_idle hrun]
    rfl
  have hcore : (resetCore ch s).core ch = _ := State.core_setCore_same _ ch _
  have hpage : ∀ b, unitPage b + 0x108 ≠ streamPage 0 + 0x88 := fun b => by
    have hmod := unitPage_mod b
    simp only [streamPage]
    omega
  refine ⟨_, hexec, fun n _ _ => ?_, ?_, ?_, ?_, fun i _ => ?_, ?_, ?_, fun b => ?_, ?_, ?_⟩
  · rw [hcore]
    exact ite_self _
  · rw [hcore]
  · rw [hcore]
  · rw [hcore]
  · rw [hcore]
    rfl
  · simp [resetCore]
  · simp [resetCore, State.unit]
  · exact BitVec.eq_of_toNat_eq (regN_haltCore (hpage b))
  · simp [resetCore]
  · rw [hcore]
    exact outq_haltCore

end HostControl

/-! ### A halt that frees a stream (R151, R286) -/

/-- A module that is ready, with one stream open: it is being closed and waits for the record of a TRAP alone, on which the core of
Chase 0 is stalled. -/
def haltMeetsTrap : State :=
  let s := (State.reset.setFlag (resetPage 0) Fld.RST_STATUS.ready true).setRegN (streamPage 0 + 0x88) 1
  (s.setStream 1 closingStream).setCore 0 { CoreSt.reset with run := .stalled }

theorem granted_haltMeetsTrap : Granted haltMeetsTrap 0 (unitPage 0) := by
  unfold Granted Admitted
  decide +kernel

/-- The halt drops the record, and with it goes the one open stream. -/
theorem open_haltCore_haltMeetsTrap : (haltCore 0 haltMeetsTrap).regN (streamPage 0 + 0x88) = 0 := by decide +kernel

/-- Refutes O18: to halt a core can change a register. Where the core stalls on a TRAP whose record is all that a stream being closed
waits for, the halt drops the record (R148), the stream is free (R286), and the count of open streams falls. -/
theorem not_coreHostControl : ¬ Obligations.CoreHostControl := by
  unfold Obligations.CoreHostControl
  intro h
  obtain ⟨-, hhalt, -⟩ := h haltMeetsTrap 0 0 granted_haltMeetsTrap (by decide +kernel)
  obtain ⟨t, hexec, -, -, hregs, -⟩ := hhalt (by decide +kernel) (by decide +kernel)
  have hact : exec (.coreHalt 0 0) haltMeetsTrap = .next (haltCore 0 haltMeetsTrap) := by
    refine congrArg Host.Outcome.next ((posted_granted granted_haltMeetsTrap _ _ _).trans ?_)
    rw [atEdge_of_on (by decide +kernel), coreCtrl_of_idle (by decide +kernel)]
    rfl
  obtain rfl : haltCore 0 haltMeetsTrap = t := Host.Outcome.next.inj (hact.symm.trans hexec)
  have hopen := State.regN_congr hregs (streamPage 0 + 0x88)
  rw [open_haltCore_haltMeetsTrap] at hopen
  exact absurd hopen (by decide +kernel)

end Sys2Proof.Machine

/-! PROOFS. Three states in which an instruction or a load of the control core does less, or more, than its statement says: an ISSUE that
takes the last slot of a completion queue, a TRAP behind another record of its core, and a load from the remote tier. -/

namespace Sys2Proof.Machine

/-! ### An ISSUE that takes the last free slot (R143, R281) -/

/-- A record of the core of Chase 2 that reserves no slot and waits for its turn to be written. -/
def turnWaits : Rec := ⟨0, 2, 1, 0, 0xFF, 0, 0, 0, 0, false, false, none, 0, false⟩

/-- The core of Chase 0 about to ISSUE the command at address 0 of its data memory, a NOP to its own Chase for stream 1, whose completion
queue of 16 slots has one left while `turnWaits` is to be written there. -/
def issueTakesLastSlot : State :=
  let s := (State.reset.setNum (imemBase 0) 4 (0x24 * 2 ^ 26)).setNum (dmemBase 0) 32 (2 ^ 32)
  let s := s.setStream 1 { Stream.reset with state := 2, cqExp := 4, inFlight := 15, credits := 16, recs := [turnWaits] }
  s.setCore 0 { CoreSt.reset with run := .running }

theorem coreAt_issueTakesLastSlot : CoreAt issueTakesLastSlot 0 0x24 := by
  unfold CoreAt
  decide +kernel

/-- The hold of the waiting record raises EV_CQ_FULL. -/
theorem event_issueTakesLastSlot : bit ((coreRow 0x24 0 issueTakesLastSlot).regN (streamPage 0 + 0x20)) 2 = true := by decide +kernel

theorem no_event_issueTakesLastSlot : bit (issueTakesLastSlot.regN (streamPage 0 + 0x20)) 2 = false := by decide +kernel

/-- Refutes O15: an ISSUE can change a register of a page. Where its command takes the last slot of the stream's completion queue, a record
there that reserves none is held, and EV_CQ_FULL is raised at the start of the hold (R281, R294). -/
theorem not_coreIssue : ¬ Obligations.CoreIssue := by
  unfold Obligations.CoreIssue
  intro h
  obtain ⟨t, hexec, -, -, -, -, -, -, -, -, -, -, hregs, -⟩ := h issueTakesLastSlot 0 coreAt_issueTakesLastSlot (by decide +kernel)
    (by decide +kernel) (by decide +kernel) (by decide +kernel) (by decide +kernel) (by decide +kernel) (by decide +kernel)
    (by decide +kernel) (by decide +kernel) (by decide +kernel)
  obtain rfl : coreRow 0x24 0 issueTakesLastSlot = t := Host.Outcome.next.inj hexec
  have hevent := event_issueTakesLastSlot
  rw [State.regN_congr hregs, no_event_issueTakesLastSlot] at hevent
  exact absurd hevent Bool.false_ne_true

/-! ### A TRAP behind another record of its core (R147, R284) -/

/-- The record of a command at Chase 0, with its slot reserved, the first in the order of completion. -/
def firstRec : Rec := ⟨0, 0, 2, 0, 0, 0, 0, 0, 0, true, false, none, 0, false⟩

/-- The core of Chase 0 about to TRAP into stream 1, whose completion queue is empty, while `firstRec` waits in stream 2. -/
def trapBehindRecord : State :=
  let s := { State.reset with recNo := 1 }.setNum (imemBase 0) 4 (0x27 * 2 ^ 26 + 2 ^ 21 + 0x8000)
  let s := s.setStream 1 { Stream.reset with state := 2, cqExp := 4 }
  let s := s.setStream 2 { Stream.reset with state := 2, cqExp := 4, inFlight := 1, recs := [firstRec] }
  s.setCore 0 ({ CoreSt.reset with run := .running }.setG 1 1)

theorem coreAt_trapBehindRecord : CoreAt trapBehindRecord 0 0x27 := by
  unfold CoreAt
  decide +kernel

/-- The TRAP's record is not written yet. -/
theorem cqTail_trapBehindRecord : ((coreRow 0x27 0 trapBehindRecord).stream 1).cqTail = 0 := by decide +kernel

/-- Refutes O16: a TRAP whose stream has a free slot and no record still does not write its record at once where another record of its
source, completed before it, can be written too: a source writes one record in a tick, in the order of completion (R284). -/
theorem not_coreWaits : ¬ Obligations.CoreWaits := by
  unfold Obligations.CoreWaits
  intro h
  obtain ⟨-, -, -, htrap⟩ := h trapBehindRecord 0
  obtain ⟨-, hwritten⟩ := htrap coreAt_trapBehindRecord (by decide +kernel) (by decide +kernel) (by decide +kernel)
  have hexec := Host.Outcome.next.inj (hwritten (by decide +kernel) (by decide +kernel) (by decide +kernel))
  have htail := congrArg (fun t => (t.stream 1).cqTail) (hexec : coreRow 0x27 0 trapBehindRecord = _)
  exact absurd (cqTail_trapBehindRecord.symm.trans htail) (by decide +kernel)

/-! ### A load from the remote tier (R537, R262) -/

/-- A region of one Folio, the first behind the fixed range, that holds one Tile: its floor the remote tier, its state entry at 0x8000. -/
def lentFolio : Region := ⟨32768, 1, 512, 0xF, 0, 0x8000, 2, 2, 4, 0x8000⟩

/-- A module whose lender, module 5, is behind the open port 0: the one Tile of `lentFolio` stands in the lease, and the core of Chase 0
loads its instruction memory from there. The directory's first entry, at 0, names the leaf at 1 MB, whose entry of the Folio names
region 1. -/
def loadFromLease : State :=
  let s := { State.reset with
    mem := [(0, 1), (2, 0x10), (0x8000, 4), (0x140000, 3)]
    routes := [(5, 0x400)]
    tiers := { Tiers.reset with regions := [(1, lentFolio)], leases := [(0, ⟨5, 2, false, 16, 0, 0⟩)] } }
  let s := (s.setFld (portPage 0) Fld.IZN_PORT_STATUS.state 2).setRegN (unitPage 0 + 0x12C) 0x80000000
  s.setCore 0 { CoreSt.reset with run := .loading, stall := 5, loads := [false] }

/-- The load waits for the lender's answer. -/
theorem run_loadFromLease : ((loadDone 0 loadFromLease).core 0).run = .loading := by decide +kernel

/-- Refutes O19: a load whose image lies in the remote tier does not end with its event: the Tile is asked for from its lender, and the
load waits (R262). -/
theorem not_coreLoadEnds : ¬ Obligations.CoreLoadEnds := by
  unfold Obligations.CoreLoadEnds
  intro h
  obtain ⟨t, hexec, -, -, -, -, hcore, -⟩ := h loadFromLease 0 false (by decide +kernel) (by decide +kernel) (by decide +kernel)
  obtain rfl : loadDone 0 loadFromLease = t := Host.Outcome.next.inj hexec
  have hrun := run_loadFromLease
  rw [hcore] at hrun
  exact absurd hrun (by decide)

end Sys2Proof.Machine

/-! PROOFS. Tokens and credits that reach a Chase while no unit holds a command; the statement about them. -/

namespace Sys2Proof.Machine

section Arrivals

variable {s t : State} {ch : Nat}

/-! ### What is next to arrive (R39) -/

theorem mem_of_firstOf {α β : Type} [BEq β] {k : α → β} {p : α → Bool} {x : α} : ∀ {seen : List β} {l : List α},
    firstOf k p seen l = some x → x ∈ l ∧ p x = true
  | _, [], h => by simp [firstOf] at h
  | seen, y :: l, h => by
    unfold firstOf at h
    split at h
    case isTrue hy =>
      obtain rfl := Option.some.inj h
      exact ⟨List.mem_cons_self, (Bool.and_eq_true_iff.1 hy).1⟩
    case isFalse =>
      obtain ⟨hmem, hp⟩ := mem_of_firstOf h
      exact ⟨List.mem_cons_of_mem _ hmem, hp⟩

/-- What is next to arrive is on its way. -/
theorem find_of_nextSent {u : Nat} {p : Sent → Bool} {x : Sent} (h : nextSent s u p = some x) :
    (s.net.find? (fun x => x.dest == u && p x)).isSome = true := by
  obtain ⟨hmem, hp⟩ := mem_of_firstOf h
  obtain ⟨hnet, hdest⟩ := List.mem_filter.1 hmem
  exact List.find?_isSome.2 ⟨x, hnet, by simp [hdest, hp]⟩

/-! ### Units that hold no command -/

theorem tryArrays_of_unitsIdle (hs : UnitsIdle s) (u : Nat) : tryArrays u s = s := by
  unfold tryArrays
  refine State.each_of_fixed s (fun p _ => ?_)
  simp [tryArray, engineHead, q_of_unitsIdle hs p]

theorem unitsIdle_setUnit (hs : UnitsIdle s) {u : Nat} {x : UnitSt} (hx : x.q = []) : UnitsIdle (s.setUnit u x) := by
  intro y hy
  have hy : y ∈ SMap.set (fun _ => UnitSt.reset) s.units u x := hy
  rcases SMap.mem_set hy with rfl | hy
  · exact hx
  · exact hs y hy

/-- Writes to lenders change neither what is on its way, nor memory, nor what the module has answered. -/
theorem sendDirty_frame_rest : (sendDirty s).net = s.net ∧ (sendDirty s).mem = s.mem ∧ (sendDirty s).out = s.out :=
  ⟨sendDirty_field s (·.net) (fun _ _ => by simp [sendTracked]) (fun _ => rfl),
    sendDirty_field s (·.mem) (fun _ _ => by simp [sendTracked]) (fun _ => rfl),
    sendDirty_field s (·.out) (fun _ _ => by simp [sendTracked]) (fun _ => rfl)⟩

theorem unit_sendDirty (u : Nat) : (sendDirty s).unit u = s.unit u := by
  obtain ⟨-, hunits, -⟩ := sendDirty_frame s
  unfold State.unit
  rw [hunits]

theorem unit_setQ_nil (hs : UnitsIdle s) (u v : Nat) : (s.setQ u []).unit v = s.unit v := by
  by_cases hv : v = u
  · subst hv
    have hq : (s.unit v).q = [] := q_of_unitsIdle hs v
    rw [State.setQ, State.unit_setUnit_same, ← hq]
  · exact State.unit_setUnit_ne _ _ hv

/-- The held commands of units that hold none: their empty queues are written as they stand. -/
def meetHeld (f : QEnt → QEnt) (l : List Nat) (s : State) : State := s.each l (fun x s => s.setQ x ((s.q x).map f))

theorem meetHeld_of_unitsIdle (f : QEnt → QEnt) (l : List Nat) (hs : UnitsIdle s) :
    UnitsIdle (meetHeld f l s) ∧ ∀ u, (meetHeld f l s).unit u = s.unit u := by
  induction l generalizing s with
  | nil => exact ⟨hs, fun _ => rfl⟩
  | cons x l ih =>
    have hstep : meetHeld f (x :: l) s = meetHeld f l (s.setQ x []) := by
      rw [meetHeld, State.each_cons, q_of_unitsIdle hs x]
      rfl
    obtain ⟨hidle, hunit⟩ := ih (unitsIdle_setQ_nil hs x)
    rw [hstep]
    exact ⟨hidle, fun u => (hunit u).trans (unit_setQ_nil hs x u)⟩

theorem meetHeld_field {β : Type} (g : State → β) (h : ∀ (u : Nat) (l : List QEnt) (t : State), g (t.setQ u l) = g t) (f : QEnt → QEnt) (l : List Nat) :
    g (meetHeld f l s) = g s := State.each_field s g _ (fun _ t => h _ _ t) _

/-! ### The core of the Chase (R145) -/

theorem retryCore_of_not_stalled (h : (s.core ch).run ≠ .stalled) : retryCore ch s = s := if_neg (by simpa using h)

theorem mem_wakes_wakeSource (cause : Nat) : cause ∈ ((wakeSource ch cause s).core ch).wakes := by
  rw [wakeSource, State.core_setCore_same]
  dsimp only
  split
  · next h => exact List.contains_iff_mem.1 h
  · simp

theorem run_wakeSource (cause : Nat) : ((wakeSource ch cause s).core ch).run = (s.core ch).run := by
  rw [wakeSource, State.core_setCore_same]

/-! ### Arrivals (R135, R141) -/

section Token

variable (hs : UnitsIdle s) (hchase : isChase ch = true) (hrun : (s.core ch).run ≠ .stalled) {stream seq : Nat} {st : Bool}
  (hport : (s.unit ch).port = none) (hfits : tokenFits ch (s.unit ch).toks ⟨ch, stream, seq, st, none, ch⟩ = true)

include hs hchase hrun hport hfits

/-- A token at the port of a Chase with room in its table, while no unit holds a command. -/
theorem meetArrival_of_unitsIdle :
    ((meetArrival ch stream seq st s).unit ch).toks = enterToken (s.unit ch).toks ⟨ch, stream, seq, st, none, ch⟩ ∧
    1 ∈ ((meetArrival ch stream seq st s).core ch).wakes ∧ (meetArrival ch stream seq st s).net = s.net ∧
    (meetArrival ch stream seq st s).mem = s.mem ∧ (meetArrival ch stream seq st s).regs = s.regs ∧
    (meetArrival ch stream seq st s).streams = s.streams ∧ (meetArrival ch stream seq st s).out = s.out := by
  let l := (s.units.map (·.1)).filter (contains ch)
  let f := meetToken stream seq st
  obtain ⟨hidle, hunit⟩ := meetHeld_of_unitsIdle f l hs
  let x := s.unit ch
  let entered := (meetHeld f l s).setUnit ch { x with toks := enterToken x.toks ⟨ch, stream, seq, st, none, ch⟩ }
  have hrecord : recordToken ch ⟨ch, stream, seq, st, none, ch⟩ (meetHeld f l s) = entered := by
    simp [recordToken, hunit ch, hport, hfits, entered, x]
  let woken := wakeSource ch 1 entered
  have hcores : entered.cores = s.cores := meetHeld_field (·.cores) (fun _ _ _ => rfl) f l
  have hwoken : UnitsIdle woken := unitsIdle_setUnit hidle (q_of_unitsIdle hs ch)
  have hend : meetArrival ch stream seq st s = sendDirty woken := by
    have hretry : retryCore ch woken = woken := retryCore_of_not_stalled (by rwa [run_wakeSource, State.core_congr hcores])
    have hmeet : meetArrival ch stream seq st s = settle (tryArrays ch (retryCore ch (wakeSource ch 1
        (recordToken ch ⟨ch, stream, seq, st, none, ch⟩ (meetHeld f l s))))) := by
      rw [meetArrival, if_pos hchase]
      rfl
    rw [hmeet, hrecord, hretry, tryArrays_of_unitsIdle hwoken, settle_of_unitsIdle hwoken]
  obtain ⟨hregs, -, hcores', hstreams⟩ := sendDirty_frame woken
  obtain ⟨hnet, hmem, hout⟩ := sendDirty_frame_rest (s := woken)
  rw [hend]
  refine ⟨?_, ?_, hnet.trans (meetHeld_field (·.net) (fun _ _ _ => rfl) f l), hmem.trans (meetHeld_field (·.mem) (fun _ _ _ => rfl) f l),
    hregs.trans (meetHeld_field (·.regs) (fun _ _ _ => rfl) f l), hstreams.trans (meetHeld_field (·.streams) (fun _ _ _ => rfl) f l),
    hout.trans (meetHeld_field (·.out) (fun _ _ _ => rfl) f l)⟩
  · rw [unit_sendDirty]
    exact congrArg UnitSt.toks (State.unit_setUnit_same (meetHeld f l s) ch _)
  · rw [State.core_congr hcores']
    exact mem_wakes_wakeSource 1

end Token

theorem validPath_of_isChase (h : isChase ch = true) : validPath ch = true := (Bool.and_eq_true_iff.1 h).1

theorem exec_tokenArrival (hchase : isChase ch = true) (hforme : formeOn s ch = true) {stream seq : Nat} {st : Bool} {x : Sent}
    (hport : (s.unit ch).port = none) (hnext : nextSent s ch (Sent.isToken stream seq st) = some x) :
    exec (.tokenArrival ch stream seq st) s = .next (meetArrival ch stream seq st (takeSent x s)) := by
  obtain ⟨y, hfind⟩ := Option.isSome_iff_exists.1 (find_of_nextSent hnext)
  have hopen : ¬ (!validPath ch || (s.unit ch).port.isSome) = true := by simp [validPath_of_isChase hchase, hport]
  refine congrArg Host.Outcome.next ?_
  simp only [tokenArrival, hfind, if_neg hopen, atEdge_of_on hforme, hnext]

/-- Credits for a program counter of a Chase, next from their source. -/
theorem exec_creditArrival_counter (hchase : isChase ch = true) (hforme : formeOn s ch = true) {k n : Nat} {x : Sent} (hk : k < 16)
    (hnext : nextSent s ch (Sent.isCredits k n) = some x) :
    exec (.creditArrival ch k n) s = .next (meetCredits ch k n (takeSent x s)) := by
  have hopen : ¬ (!validPath ch || (decide (k < 16) && (s.net.find? (fun x => x.dest == ch && x.isCredits k n)).isNone)) = true := by
    simp [validPath_of_isChase hchase, Option.isNone_eq_false_iff.2 (find_of_nextSent hnext)]
  refine congrArg Host.Outcome.next ?_
  simp only [creditArrival, if_neg hopen, atEdge_of_on hforme, hnext, Nat.not_le.mpr hk, if_false]

/-- Credits of output Tiles. -/
theorem exec_creditArrival_tiles (hchase : isChase ch = true) (hforme : formeOn s ch = true) {k n : Nat} (hk : 16 ≤ k) :
    exec (.creditArrival ch k n) s = .next (meetCredits ch k n s) := by
  have hopen : ¬ (!validPath ch || (decide (k < 16) && (s.net.find? (fun x => x.dest == ch && x.isCredits k n)).isNone)) = true := by
    simp [validPath_of_isChase hchase, Nat.not_lt.mpr hk]
  refine congrArg Host.Outcome.next ?_
  simp only [creditArrival, if_neg hopen, atEdge_of_on hforme, hk, if_true]

theorem meetCredits_tiles_of_unitsIdle (hs : UnitsIdle s) {k n : Nat} (hk : 16 ≤ k) :
    meetCredits ch k n s = sendDirty (s.setUnit ch { s.unit ch with tileCredits := (s.unit ch).tileCredits + n }) := by
  have hidle : UnitsIdle (s.setUnit ch { s.unit ch with tileCredits := (s.unit ch).tileCredits + n }) :=
    unitsIdle_setUnit hs (q_of_unitsIdle hs ch)
  rw [meetCredits, if_neg (Nat.not_lt.mpr hk)]
  dsimp only at hidle ⊢
  rw [tryArrays_of_unitsIdle hidle, settle_of_unitsIdle hidle]

/-- The Chase once a program counter has taken its credits, at most 65,535 in all, and the excess has counted (R141). -/
def counterTaken (ch k n : Nat) (s : State) : State :=
  (s.setCore ch ((s.core ch).setCredit k (min ((s.core ch).credit k + n) 65535))).bump (unitPage ch) 19 ((s.core ch).credit k + n - 65535)

theorem core_counterTaken (k n : Nat) :
    (counterTaken ch k n s).core ch = (s.core ch).setCredit k (min ((s.core ch).credit k + n) 65535) := by
  rw [counterTaken]
  generalize (s.core ch).setCredit k (min ((s.core ch).credit k + n) 65535) = c
  rw [State.core_congr (s := s.setCore ch c) (by simp), State.core_setCore_same]

theorem meetCredits_counter (hchase : isChase ch = true) (hrun : (s.core ch).run ≠ .stalled) {k n : Nat} (hk : k < 16) :
    meetCredits ch k n s = wakeSource ch 2 (counterTaken ch k n s) := by
  rw [meetCredits, if_pos hk, if_pos hchase]
  refine retryCore_of_not_stalled (s := wakeSource ch 2 (counterTaken ch k n s)) ?_
  rwa [run_wakeSource, core_counterTaken]

theorem wakeSource_counterTaken_frame (k n : Nat) : (wakeSource ch 2 (counterTaken ch k n s)).net = s.net ∧
    (wakeSource ch 2 (counterTaken ch k n s)).mem = s.mem ∧ (wakeSource ch 2 (counterTaken ch k n s)).streams = s.streams ∧
    (wakeSource ch 2 (counterTaken ch k n s)).out = s.out ∧ (wakeSource ch 2 (counterTaken ch k n s)).regs = (counterTaken ch k n s).regs :=
  by simp [wakeSource, counterTaken]

theorem CoreSt.credit_setCredit (c : CoreSt) (k j v : Nat) : (c.setCredit k v).credit j = if j = k then v else c.credit j :=
  SMap.get_set _ _ _ _ _

theorem credit_wakeSource (cause : Nat) (j : Nat) : ((wakeSource ch cause s).core ch).credit j = (s.core ch).credit j := by
  rw [wakeSource, State.core_setCore_same]
  rfl

/-- Settles O23: what arrives is taken out of the network and meets the Chase; with no command anywhere nothing else goes on. -/
theorem arrivalsAtAChase : Obligations.ArrivalsAtAChase := by
  unfold Obligations.ArrivalsAtAChase
  intro s ch hs hchase hforme hrun
  refine ⟨fun stream seq st x => ?token, fun k n hk => ?tiles, fun k n x hk hnext => ?counter⟩
  case token =>
    intro tok hport hfits hnext
    obtain ⟨htoks, hwakes, hnet, hmem, hregs, hstreams, hout⟩ := meetArrival_of_unitsIdle (s := takeSent x s) hs hchase hrun hport hfits
    exact ⟨_, exec_tokenArrival hchase hforme hport hnext, htoks, hnet, hwakes, hmem, hregs, hstreams, hout⟩
  case tiles =>
    have hexec := exec_creditArrival_tiles hchase hforme (n := n) hk
    rw [meetCredits_tiles_of_unitsIdle hs hk] at hexec
    obtain ⟨hregs, -, hcores, -⟩ := sendDirty_frame (s.setUnit ch { s.unit ch with tileCredits := (s.unit ch).tileCredits + n })
    obtain ⟨hnet, hmem, -⟩ := sendDirty_frame_rest (s := s.setUnit ch { s.unit ch with tileCredits := (s.unit ch).tileCredits + n })
    refine ⟨_, hexec, ?_, hcores, hnet, hmem, hregs⟩
    rw [unit_sendDirty]
    exact congrArg UnitSt.tileCredits (State.unit_setUnit_same s ch _)
  case counter =>
    have hexec := exec_creditArrival_counter hchase hforme hk hnext
    rw [meetCredits_counter (s := takeSent x s) hchase hrun hk] at hexec
    obtain ⟨hnet, hmem, hstreams, hout, hregs⟩ := wakeSource_counterTaken_frame (s := takeSent x s) (ch := ch) k n
    refine ⟨_, hexec, ?_, fun j hj => ?_, mem_wakes_wakeSource 2, hnet, ?_, hmem, hstreams, hout⟩
    · rw [credit_wakeSource, core_counterTaken, CoreSt.credit_setCredit, if_pos rfl]
      rfl
    · rw [credit_wakeSource, core_counterTaken, CoreSt.credit_setCredit, if_neg hj]
      rfl
    · rw [State.regN_congr hregs]
      exact regN_bump_same _ (unitPage ch) 19 _

end Arrivals

end Sys2Proof.Machine

/-! PROOFS. Writes of action registers by a function that may not make them; the statement about them. -/

namespace Sys2Proof.Machine

section Refused

variable {s : State} {fn off : Nat} {x : Instr} {ok : State → Bool}

/-- The command is a posted write of `fn` that acts where `ok` says so. -/
def IsGuardedWrite (s : State) (fn : Nat) (x : Instr) (off : Nat) (ok : State → Bool) : Prop :=
  ∃ (i : Instr) (act : State → State), exec x s = .next (posted fn i (fun s => guarded fn off (ok s) act s) s)

theorem exec_of_absent (h : IsGuardedWrite s fn x off ok) (hthere : fnThere s fn = false) : exec x s = .next s := by
  obtain ⟨i, act, hexec⟩ := h
  rw [hexec, posted_absent hthere]

theorem exec_of_notReady (h : IsGuardedWrite s fn x off ok) (hfn : fn < 32) (hthere : fnThere s fn = true) (hheld : heldBehind s fn = false)
    (hready : s.ready = false) : exec x s = .next s := by
  obtain ⟨i, act, hexec⟩ := h
  rw [hexec, posted_clear hthere hheld, guarded_notReady hfn hready]

theorem exec_of_forbidden (h : IsGuardedWrite s fn x off ok) (hthere : fnThere s fn = true) (hheld : heldBehind s fn = false)
    (hready : s.ready = true) (hok : ok s = false) : exec x s = .next (refuseAccess fn off s) := by
  obtain ⟨i, act, hexec⟩ := h
  rw [hexec, posted_clear hthere hheld, guarded_ready hready, hok]
  rfl

/-- The commands of a page's owner. -/
theorem isGuardedWrite_of_ownerWrites {v : Word} {d r : Nat} (hd : d < 2) {y : Instr × Nat × Nat} (hy : y ∈ ownerWrites fn v d r) :
    IsGuardedWrite s fn y.1 (y.2.1 + y.2.2) (fun s => ownsPage s fn y.2.1) := by
  simp only [ownerWrites, List.cons_append, List.nil_append] at hy
  obtain rfl | rfl : d = 0 ∨ d = 1 := by omega
  all_goals fin_cases hy <;> exact ⟨_, _, rfl⟩

/-- The commands of the physical function, some of them Muzomus's too. -/
theorem isGuardedWrite_of_functionZeroWrites {v : Word} {d : Nat} (hd : d < 2) {y : Instr × Nat} (hy : y ∈ functionZeroWrites fn v d) :
    IsGuardedWrite s fn y.1 y.2 (fun _ => fn == 0) ∨ IsGuardedWrite s fn y.1 y.2 (fun _ => fn == 0 || fn == mzmFn) := by
  unfold functionZeroWrites at hy
  obtain rfl | rfl : d = 0 ∨ d = 1 := by omega
  all_goals
    simp only [List.mem_cons, List.not_mem_nil, or_false] at hy
    rcases hy with rfl | rfl | rfl | rfl | rfl | rfl
    · exact .inl ⟨_, _, rfl⟩
    · exact .inl ⟨_, _, rfl⟩
    · exact .inl ⟨_, _, rfl⟩
    · exact .inr ⟨_, _, rfl⟩
    · exact .inr ⟨_, _, rfl⟩
    · exact .inr ⟨_, _, rfl⟩

/-- The commands of Muzomus. -/
theorem isGuardedWrite_of_muzomusWrites {v : Word} {y : Instr × Nat} (hy : y ∈ muzomusWrites fn v) :
    IsGuardedWrite s fn y.1 y.2 (fun _ => fn == mzmFn) := by
  unfold muzomusWrites at hy
  fin_cases hy <;> exact ⟨_, _, rfl⟩

end Refused

/-- Settles O56: every such command is a posted, guarded write, and the guard fails. -/
theorem writesRefused : Obligations.WritesRefused := by
  unfold Obligations.WritesRefused
  intro s fn v d r hfn hd hheld
  have hmzm : (fn == mzmFn) = false := beq_false_of_ne (by simp only [mzmFn]; omega)
  refine ⟨fun hthere x hx => ?absent, fun hthere => ⟨fun x hx => ?owner, fun hzero x hx => ?physical, fun x hx => ?muzomus⟩⟩
  case absent =>
    simp only [List.mem_append, List.mem_map] at hx
    rcases hx with (⟨y, hy, rfl⟩ | ⟨y, hy, rfl⟩) | ⟨y, hy, rfl⟩
    · exact exec_of_absent (isGuardedWrite_of_ownerWrites hd hy) hthere
    · exact (isGuardedWrite_of_functionZeroWrites hd hy).elim (exec_of_absent · hthere) (exec_of_absent · hthere)
    · exact exec_of_absent (isGuardedWrite_of_muzomusWrites hy) hthere
  case owner =>
    have hwrite := isGuardedWrite_of_ownerWrites (s := s) hd hx
    exact ⟨exec_of_notReady hwrite hfn hthere hheld, exec_of_forbidden hwrite hthere hheld⟩
  case physical =>
    rcases isGuardedWrite_of_functionZeroWrites (s := s) hd hx with hwrite | hwrite
    · exact ⟨exec_of_notReady hwrite hfn hthere hheld, fun hready => exec_of_forbidden hwrite hthere hheld hready (beq_false_of_ne hzero)⟩
    · exact ⟨exec_of_notReady hwrite hfn hthere hheld,
        fun hready => exec_of_forbidden hwrite hthere hheld hready (by rw [beq_false_of_ne hzero, hmzm]; rfl)⟩
  case muzomus =>
    have hwrite := isGuardedWrite_of_muzomusWrites (s := s) hx
    exact ⟨exec_of_notReady hwrite hfn hthere hheld, fun hready => exec_of_forbidden hwrite hthere hheld hready hmzm⟩

end Sys2Proof.Machine
